-- ==== Sys2Proof/Word.lean ====
section
/-! DEFINITION. The word of the device and its plainest sizes (spec/00_scope.md R1, spec/01_tick_and_word.md "Time
units"). -/

namespace Sys2Proof

/-- A word is 40 bits (R1). -/
abbrev Word := BitVec 40

/-- One byte. -/
abbrev Byte := BitVec 8

/-- A tick is 4160 word clocks. -/
def wcPerTick : Nat := 4160

/-- A cycle is 48 ticks. -/
def ticksPerCycle : Nat := 48

/-- A phase is 1/64 wc. -/
def phasesPerWc : Nat := 64

/-- The epoch is a 40-bit count of cycles, so tick numbers run modulo this. -/
def ticksPerEpoch : Nat := 2 ^ 40 * 48

end Sys2Proof
end

