-- ==== Sys2Proof/Syntax.lean ====
section
/-! DEFINITION. The commands of the block: one constructor of `Instr` for each row of spec/opcode_table.json, with the
operands the sender of the command supplies. A row that is an event on a pin, on the Span or inside an engine carries
what the outside world decides (the words received, a measured length, the bytes a host read returned); everything the
spec computes from the state is computed by the command's meaning (notes/assumptions/1.md). A row that is a write of one
register carries the 40-bit value the write commits. -/

namespace Sys2Proof

/-- The three register access paths (spec/00_scope.md R3). -/
inductive Path where
  | pcie | zwirdo | mgmt
deriving DecidableEq, Repr

/-- The two line sides (spec/03). The West input receives the eastbound copy. -/
inductive Side where
  | west | east
deriving DecidableEq, Repr

/-- Bytes a DMA read returned, or the fault it ended in: 1 UR, 2 CA, 3 poisoned, 4 timeout (R45, R304). -/
inductive DmaBytes where
  | ok (bytes : List Byte)
  | err (cause : BitVec 4)
deriving DecidableEq, Repr

/-- A management note as received (R172, R174): its header fields and its body. -/
structure Note where
  type : BitVec 8
  mode : BitVec 2
  id : BitVec 6
  seq : BitVec 8
  len : BitVec 10
  body : List Byte
deriving DecidableEq, Repr

/-- A frame, as a row marker or header names it: the low 8 bits of its cycle and its tick (R115, R116). -/
structure FrameId where
  cyc8 : Nat
  tick : Nat
deriving DecidableEq, Repr

/-- What a staged generation change changes (R127). -/
inductive GenKind where
  | p | map | key
deriving DecidableEq, Repr

/-- The common part of a command descriptor (spec/12 "Command descriptor"): CSEQ and FLAGS.IRQ. -/
structure CmdHdr where
  cseq : BitVec 16
  irq : Bool
deriving DecidableEq, Repr

/-- A Zwirdo transaction as it stands on the bus (R416, R421): the bytes the controller writes after the command byte
(a block's count byte first), the PEC byte if it sends one beyond the command's length, whether a STOP cut it short, and
whether the controller ACKs the last byte it reads, so that a PEC byte follows. -/
structure ZwdTxn where
  data : List Byte := []
  pec : Option Byte := none
  cut : Bool := false
  rdPec : Bool := false
deriving DecidableEq, Repr

/-- The outcome of a self-test step that the hardware itself decides (R48); for step 0x07 also the samples taken from the
noise source (R232). -/
structure StepResult where
  pass : Bool
  sub : BitVec 8
  detail : BitVec 16
  samples : List Byte := []
deriving DecidableEq, Repr

/-- One received word: the receive running disparity that stands before it (true where positive) and its five code-groups,
fifty bits in the order they are sent, the first the most significant (R85, R86). -/
structure RxWord where
  rd : Bool
  code : BitVec 50
deriving DecidableEq, Repr

/-- Why word lock is lost other than by loss of signal (R93): the words of at most 1040 consecutive wc, or the places, in
bits from the locked word boundary, at which commas were seen, in order. -/
inductive LockLoss where
  | errors (words : List RxWord)
  | commas (at_ : List (Fin 50))
deriving DecidableEq, Repr

/-- A recent instant of building time: whole ticks before the present tick, and the wc within that tick. -/
structure Inst where
  ago : Nat
  wc : BitVec 13
deriving DecidableEq, Repr

/-- The state of the PCI Express data link (R282): none, or the width it trained to, and whether it runs at 5.0 GT/s. -/
inductive PciLink where
  | down
  | up (width : Nat) (gen2 : Bool)
deriving DecidableEq, Repr

/-- An entry of the MSI-X table in BAR2 (R282). -/
structure MsixEntry where
  addr : BitVec 64 := 0
  data : BitVec 32 := 0
  mask : Bool := true
deriving DecidableEq, Repr

/-- What the host has programmed in configuration space and in the MSI-X table (R282, R303); entries not listed are as
after a reset. -/
structure PciHost where
  msixEn : Bool := false
  msixMask : Bool := false
  intxDis : Bool := false
  entries : List MsixEntry := []
deriving DecidableEq, Repr

/-- What a building tick brings from the pins: each TDM port's input words for the tick now ended (R342), each axis's
encoder counts (R363), for each lane the bits the checker received (R454), and, once per cycle, the
measured RC rate (R414) and die temperature (R395). -/
structure TickIn where
  /-- PCI Express: the data link as it stands, where it has changed since the last tick (R282). -/
  link : Option PciLink := none
  tdm : List (List Word) := []
  encDelta : List Int := []
  prbs : List (List Bool) := []
  rcHz : Option (BitVec 24) := none
  dieTemp : Option (BitVec 32) := none
deriving DecidableEq, Repr

/-- The PTP messages a port's timers make due (R328). -/
inductive PtpKind where
  | announce | sync | pdelayReq
deriving DecidableEq, Repr

/-- An operation of the signature unit and its inputs (R235), scalars and coordinates as numbers. -/
inductive SigOp where
  | sha256 (msg : List Byte)
  | hmac (key msg : List Byte)
  | hkdf (salt ikm info : List Byte) (len : Nat)
  | pointCheck (x y : Nat)
  | keyGen
  | ecdh (d x y : Nat)
  | sign (d : Nat) (msg : List Byte)
  | verify (x y r s : Nat) (msg : List Byte)
deriving DecidableEq, Repr

/-- The commands: one constructor per row of spec/opcode_table.json, in its order. Each docstring is the row's mnemonic
and rule. -/
inductive Instr where
  /-- LOW_HALF_READ (R3). -/
  | lowHalfRead (p : Path) (r : BitVec 13)
  /-- HIGH_HALF_READ (R4). -/
  | highHalfRead (p : Path) (r : BitVec 13)
  /-- HIGH_HALF_WRITE (R5). -/
  | highHalfWrite (p : Path) (r : BitVec 13) (v : BitVec 32)
  /-- LOW_HALF_WRITE (R6). -/
  | lowHalfWrite (p : Path) (r : BitVec 13) (v : BitVec 32)
  /-- EIGHT_BYTE_ACCESS (R7). -/
  | eightByteAccess (p : Path) (r : BitVec 13) (w : Option (BitVec 64))
  /-- BAD_SIZE_WRITE (R7). -/
  | badSizeWrite (p : Path) (off : BitVec 16) (size : BitVec 13)
  /-- PARTIAL_READ (R7). -/
  | partialRead (p : Path) (off : BitVec 16) (size : BitVec 13)
  /-- UNASSIGNED_ACCESS (R8). -/
  | unassignedAccess (p : Path) (dw : BitVec 14) (eight : Bool) (w : Option (BitVec 64))
  /-- TIME_NOW_READ (R15). -/
  | timeNowRead (p : Path) (wc : BitVec 13) (phase : BitVec 6)
  /-- POWER_ON_RESET (R39). -/
  | powerOnReset
  /-- PIN_RESET (R34). -/
  | pinReset
  /-- BROWN_OUT_RESET (R473). -/
  | brownOutReset
  /-- RELEASE_OF_RESET (R40). -/
  | releaseOfReset (straps : BitVec 12)
  /-- SELFTEST_STEP_DONE (R48). -/
  | selftestStepDone (r : StepResult)
  /-- BOOT_LOAD_GO (R45). -/
  | bootLoadGo (p : Path) (v : Word)
  /-- IMAGE_LOAD_DONE (R45). -/
  | imageLoadDone (d : DmaBytes)
  /-- FLASH_BRIDGE_GO (R54). -/
  | flashBridgeGo (p : Path) (v : Word)
  /-- FLASH_BRIDGE_DONE (R54). -/
  | flashBridgeDone (bytes : List Byte)
  /-- SOFT_RESET (R38). -/
  | softReset (p : Path) (v : Word)
  /-- SOFT_RESET_PROCEED (R378). -/
  | softResetProceed
  /-- ENTER_LISTENING (R60). -/
  | enterListening
  /-- DEFAULT_TARGETS (R408). -/
  | defaultTargets
  /-- TICK_OVERRUN (R23). -/
  | tickOverrun (eng : Fin 9)
  /-- BUILDING_TICK (R19). -/
  | buildingTick (i : TickIn)
  /-- HEALTH_PULSE (R65). -/
  | healthPulse (parityErr boundaryLate : Bool)
  /-- CLASS_TIME_ELAPSED (R68). -/
  | classTimeElapsed
  /-- KA_WATCHDOG (R66). -/
  | kaWatchdog (p : Path) (v : Word)
  /-- WATCHDOG_EXPIRY (R66). -/
  | watchdogExpiry
  /-- ADMIT (R77). -/
  | admission (n : Note)
  /-- INSERTION (R78). -/
  | insertion
  /-- ADMIT_DONE (R79). -/
  | admitDone
  /-- ADMIT_FAIL (R79). -/
  | admitFail
  /-- TURN (R73). -/
  | turn (n : Note)
  /-- TURN_END (R73). -/
  | turnEnd (n : Note)
  /-- TURN_EFFECTIVE (R73). -/
  | turnEffective (side : Side)
  /-- TURN_AUTO (R75). -/
  | turnAuto (side : Side)
  /-- LEAVE (R81). -/
  | leave (n : Note)
  /-- LEAVING (R81). -/
  | leaving
  /-- LEAVE_REQ_TIMEOUT (R82). -/
  | leaveReqTimeout
  /-- DELAY_STEP (R163). -/
  | delayStep (side : Side)
  /-- WORD_LOCK (R92). -/
  | wordLock (side : Side) (words : List RxWord)
  /-- WORD_LOCK_LOST (R93). -/
  | wordLockLost (side : Side) (cause : LockLoss)
  /-- SPAN_LOS (R93). -/
  | spanLos (side : Side) (pin cdrLock : Bool) (words : List RxWord)
  /-- LOSS_OF_SIGNAL_END (R93). -/
  | lossOfSignalEnd (side : Side) (pin : Bool) (w : RxWord)
  /-- CDR_LOCK (R97). -/
  | cdrLock (lane : Fin 8)
  /-- EQ_SWEEP_DONE (R97). -/
  | eqSweepDone (lane : Fin 8) (spreads : List (Option Nat))
  /-- EQ_TRACK (R97). -/
  | eqTrack (lane : Fin 8) (below now above : Nat)
  /-- FILL_END (R104). -/
  | fillEnd (side : Side) (sent : Nat)
  /-- HEADLAND_DECISION (R106). -/
  | headlandDecision (side : Side) (occ : BitVec 6) (words : List RxWord)
  /-- STORE_RESET (R112). -/
  | storeReset (side : Side)
  /-- TICK_MARKER (R121). -/
  | tickMarker (side : Side) (w : RxWord) (at_ : Nat)
  /-- TICK_MARKER_MISS (R122). -/
  | tickMarkerMiss (side : Side) (stray : List RxWord)
  /-- ROW_CHECK (R119). -/
  | rowCheck (side : Side) (row : BitVec 5) (words : List RxWord)
  /-- SPAN_ROW_LOST (R132). -/
  | spanRowLost (frame : FrameId) (row : BitVec 5) (expired : Bool)
  /-- FRAME_HEADER (R124). -/
  | frameHeader (side : Side) (words : List RxWord)
  /-- GENERATION_EFFECTIVE (R127). -/
  | generationEffective (kind : GenKind)
  /-- GRANT_MAP (R194). -/
  | grantMap (entries : List Word)
  /-- EXPRESS_WORD (R142). -/
  | expressWord (side : Side) (w : RxWord) (rowDir : Bool)
  /-- CHANNEL_LAST_EXPIRY (R142). -/
  | channelLastExpiry (ch : BitVec 8)
  /-- CLAIM_PREPARED (R214). -/
  | claimPrepared
  /-- CLAIM (R146). -/
  | claim (west east : Option RxWord)
  /-- CLAIM_RETRY (R147). -/
  | claimRetry
  /-- ASSIGN (R148). -/
  | assign (n : Note)
  /-- ASSIGN_VERIFY_DONE (R217). -/
  | assignVerifyDone
  /-- RELEASE (R151). -/
  | release (n : Note)
  /-- GRANT_TIMEOUT (R151). -/
  | grantTimeout
  /-- RANGE_RESULT (R155). -/
  | rangeResult
  /-- RANGE_REPORT_REPEAT (R159). -/
  | rangeReportRepeat
  /-- RANGE_OK (R160). -/
  | rangeOk (n : Note)
  /-- RANGE_RETRY (R160). -/
  | rangeRetry (n : Note)
  /-- RANGE_ADJ (R160). -/
  | rangeAdj (n : Note)
  /-- RANGE_RECOMPUTE (R162). -/
  | rangeRecompute
  /-- DELAY_STEP_STALE (R164). -/
  | delayStepStale
  /-- FLYWHEEL_ENTRY (R166). -/
  | flywheelEntry
  /-- FLYWHEEL_EXIT (R168). -/
  | flywheelExit (pos : Int)
  /-- TIME_MAP (R169). -/
  | timeMap (n : Note)
  /-- NOTE_MALFORMED (R174). -/
  | noteMalformed (hdr : Word) (room : Nat)
  /-- NOTE_UNKNOWN (R182). -/
  | noteUnknown (n : Note)
  /-- MAP_DESC (R184). -/
  | mapDesc (n : Note)
  /-- SUBSCRIBE (R185). -/
  | subscribe (n : Note)
  /-- KEY_LOAD (R220). -/
  | keyLoad (n : Note)
  /-- SETTING (R187). -/
  | setting (n : Note)
  /-- MOTION_PROFILE (R188). -/
  | motionProfile (n : Note)
  /-- POWER_ORDER (R189). -/
  | powerOrder (n : Note)
  /-- IMAGE_ORDER_SWAP (R190). -/
  | imageOrderSwap (n : Note)
  /-- IMAGE_ORDER_CONFIRM (R190). -/
  | imageOrderConfirm (n : Note)
  /-- IMAGE_ORDER_REVERT (R190). -/
  | imageOrderRevert (n : Note)
  /-- RESET_ORDER (R191). -/
  | resetOrder (n : Note)
  /-- RESET_ORDER_DUE (R191). -/
  | resetOrderDue
  /-- STATUS_REQ (R182). -/
  | statusReq (n : Note)
  /-- HOST_MSG_DN (R297). -/
  | hostMsgDn (n : Note)
  /-- MAP_REQ (R184). -/
  | mapReq (pending : Bool)
  /-- NOTE_UP_EXPIRED (R192). -/
  | noteUpExpired
  /-- BURST_LOCK (R201). -/
  | burstLock (late : List Nat)
  /-- WINDOW_WRITE (R205). -/
  | windowWrite (side : Side) (buf : Nat) (rowDir : Option Bool) (rx : List RxWord)
  /-- BURST_BUFFER_RELEASE (R203). -/
  | burstBufferRelease (buf : Nat)
  /-- CIPHER_JOB_DONE (R231). -/
  | cipherJobDone (core : Fin 6) (at_ : Nat)
  /-- KEY_READY (R220). -/
  | keyReady (terminal : Bool) (gen : BitVec 4)
  /-- KEY_ERASE (R221). -/
  | keyErase
  /-- ENTROPY_FAIL (R233). -/
  | entropyFail (samples : List Byte)
  /-- DRBG_RESEED (R233). -/
  | drbgReseed (samples : List Byte)
  /-- DRBG_STOPPED (R233). -/
  | drbgStopped
  /-- DRBG_REINSTANTIATE (R233). -/
  | drbgReinstantiate (samples : List Byte)
  /-- SIG_OP_DONE (R236). -/
  | sigOpDone (op : SigOp)
  /-- THRESHER_PACKET (R240). -/
  | thresherPacket
  /-- TH_UPDATE_SET (R252). -/
  | thUpdateSet (h : CmdHdr) (u : List Word)
  /-- TH_UPDATE_DELETE (R252). -/
  | thUpdateDelete (h : CmdHdr) (u : List Word)
  /-- TH_UPDATE_COMMIT (R253). -/
  | thUpdateCommit (h : CmdHdr) (u : List Word)
  /-- TABLE_SWEEP (R254). -/
  | tableSweep
  /-- TABLE_SWEEP_DONE (R254). -/
  | tableSweepDone
  /-- DEADLINE_DISCARD (R267). -/
  | deadlineDiscard
  /-- HOLDDOWN_FLUSH (R278). -/
  | holddownFlush (port : Fin 6)
  /-- QM_IND_WRITE (R266). -/
  | qmIndWrite (p : Path) (v : Word)
  /-- QM_IND_READ (R266). -/
  | qmIndRead (p : Path) (v : Word)
  /-- QM_IND_DONE (R266). -/
  | qmIndDone
  /-- LOW_RELOAD (R258). -/
  | lowReload (p : Path) (v : Word)
  /-- RUN (R284). -/
  | run (p : Path) (v : Word)
  /-- FIRMWARE_RUN (R285). -/
  | firmwareRun
  /-- HRE_START (R287). -/
  | hreStart (p : Path) (v : Word)
  /-- HRE_STOP (R288). -/
  | hreStop (p : Path) (v : Word)
  /-- ORDERLY_STOP_DONE (R288). -/
  | orderlyStopDone
  /-- HOST_ABSENT (R289). -/
  | hostAbsent
  /-- POLL_POINT (R292). -/
  | pollPoint (k : Fin 8) (pci : PciHost) (stFault : Bool)
  /-- DOORBELL_READ_DONE (R294). -/
  | doorbellReadDone (d : DmaBytes)
  /-- TX_DESCRIPTOR (R295). -/
  | txDescriptor (q : Fin 16) (d : DmaBytes)
  /-- TX_DATA_READ_DONE (R295). -/
  | txDataReadDone (q : Fin 16) (d : DmaBytes)
  /-- HOST_DELIVERY (R296). -/
  | hostDelivery (n : Fin 16) (fl : Option DmaBytes)
  /-- NOP (R300). -/
  | nop (h : CmdHdr)
  /-- WAIT (R300). -/
  | wait (h : CmdHdr) (t : Word)
  /-- HARVEST (R466). -/
  | harvest (h : CmdHdr) (addr : BitVec 64)
  /-- HARVEST_SNAPSHOT (R466). -/
  | harvestSnapshot (fault : Bool)
  /-- CLEAR_LEDGER (R465). -/
  | clearLedger (h : CmdHdr) (groups : BitVec 32)
  /-- QM_WRITE (R300). -/
  | qmWrite (h : CmdHdr) (obj idx : Byte) (rec : List Word) (t : Word)
  /-- STAGED_WRITE (R300). -/
  | stagedWrite (h : CmdHdr) (off : BitVec 16) (v t : Word)
  /-- LEAVE_COMMAND (R300). -/
  | leaveCommand (h : CmdHdr)
  /-- HOST_MSG (R300). -/
  | hostMsg (h : CmdHdr) (len : BitVec 16) (d : DmaBytes)
  /-- SETTING_WRITE (R446). -/
  | settingWrite (h : CmdHdr) (len : BitVec 16) (d : DmaBytes) (fault : Bool)
  /-- SETTING_READ (R446). -/
  | settingRead (h : CmdHdr) (addr : BitVec 64) (len : BitVec 16) (d : DmaBytes) (fault : Bool)
  /-- SETTING_DELETE (R446). -/
  | settingDelete (h : CmdHdr) (len : BitVec 16) (d : DmaBytes)
  /-- IMAGE_WRITE_STAGING (R445). -/
  | imageWriteStaging (h : CmdHdr) (len : BitVec 16) (off : Word) (d : DmaBytes)
  /-- IMAGE_VERIFY (R445). -/
  | imageVerify (h : CmdHdr)
  /-- IMAGE_SWAP (R439). -/
  | imageSwap (h : CmdHdr) (t : Word)
  /-- IMAGE_CONFIRM (R443). -/
  | imageConfirm (h : CmdHdr)
  /-- IMAGE_REVERT (R443). -/
  | imageRevert (h : CmdHdr)
  /-- SOFT_RESET_COMMAND (R300). -/
  | softResetCommand (h : CmdHdr) (key : BitVec 16)
  /-- RING_RESTART (R300). -/
  | ringRestart (h : CmdHdr) (ring : Byte)
  /-- BAD_OPCODE (R298). -/
  | badOpcode (h : CmdHdr) (op action : Byte)
  /-- INTX_PEND (R303). -/
  | intxPend (p : Path) (v : Word)
  /-- RING_STOPPED (R304). -/
  | ringStopped (ring : Byte) (cause : BitVec 4)
  /-- HOST_RESET (R305). -/
  | hostReset (kind : Fin 4)
  /-- LINK_UP (R316). -/
  | linkUp (port : Fin 6)
  /-- LINK_DOWN (R316). -/
  | linkDown (port : Fin 6) (txCut rxCut : Bool)
  /-- AN_BASE_PAGE (R313). -/
  | anBasePage (port : Fin 6) (page : BitVec 16)
  /-- SGMII_WORD (R314). -/
  | sgmiiWord (port : Fin 6) (word : BitVec 16)
  /-- AN_RESTART (R313). -/
  | anRestart (port : Fin 6)
  /-- ETH_FRAME_RX (R318). -/
  | ethFrameRx (port : Fin 6) (bytes : List Byte) (codeErr : Bool) (cap : Nat)
  /-- PAUSE (R322). -/
  | pause (port : Fin 6) (bytes : List Byte)
  /-- PAUSE_END (R322). -/
  | pauseEnd (port : Fin 6)
  /-- FRAME_TRANSMIT (R319). -/
  | frameTransmit (port : Fin 6) (txCap : Nat)
  /-- PTP_RX (R327). -/
  | ptpRx (port : Fin 6) (txCap : Nat)
  /-- PTP_MESSAGE_DUE (R328). -/
  | ptpMessageDue (port : Fin 6) (kind : PtpKind) (txCap : Nat)
  /-- ANNOUNCE_RECEIPT_TIMEOUT (R323). -/
  | announceReceiptTimeout (port : Fin 6)
  /-- HOLDOVER_EXPIRY (R325). -/
  | holdoverExpiry
  /-- DMX_BREAK (R343). -/
  | dmxBreak (u : Fin 8)
  /-- RDM_TRANSACTION (R346). -/
  | rdmTransaction (u : Fin 8)
  /-- RDM_TRANSACTION_END (R346). -/
  | rdmTransactionEnd (u : Fin 8) (bytes : List Byte) (framingErr : Bool)
  /-- RDM_DISCOVERY (R347). -/
  | rdmDiscovery (u : Fin 8)
  /-- DMX_RX_PACKET (R345). -/
  | dmxRxPacket (u : Fin 8) (start : Inst) (breakUs mabUs : Nat) (framingErr : Bool) (bytes : List Byte)
  /-- DMX_LOSS (R335). -/
  | dmxLoss (u : Fin 8)
  /-- LTC_FRAME (R350). -/
  | ltcFrame (k : Fin 2)
  /-- LTC_RX_CODEWORD (R351). -/
  | ltcRxCodeword (k : Fin 2) (at_ : Inst) (bits : BitVec 64) (reverse : Bool) (rate : BitVec 3) (good : Bool)
  /-- MIDI_TX_BYTE (R352). -/
  | midiTxByte (k : Fin 2)
  /-- MIDI_RX_BYTE (R353). -/
  | midiRxByte (k : Fin 2) (at_ : Inst) (b : Byte) (framingErr : Bool)
  /-- CUE_EDGE (R354). -/
  | cueEdge (n : Fin 24) (closed : Bool) (at_ : Inst)
  /-- CUE_PULSE_END (R356). -/
  | cuePulseEnd (n : Fin 24)
  /-- GENLOCK_EDGE (R357). -/
  | genlockEdge (k : Fin 4)
  /-- SETPOINT_LOSS (R367). -/
  | setpointLoss (ax : Fin 2)
  /-- BRAKE_RELEASE (R361). -/
  | brakeRelease (ax : Fin 2)
  /-- ENABLING_DONE (R361). -/
  | enablingDone (ax : Fin 2)
  /-- ENC_ERROR (R363). -/
  | encError (ax : Fin 2)
  /-- INDEX_EDGE (R364). -/
  | indexEdge (ax : Fin 2) (delta : Int)
  /-- LIMIT (R371). -/
  | limit (ax : Fin 2) (pHigh nHigh : Bool)
  /-- DRIVE_FAULT (R372). -/
  | driveFault (ax : Fin 2) (high : Bool)
  /-- HOLD (R373). -/
  | hold (low : Bool) (us : Nat)
  /-- FOLLOWING_ERROR (R370). -/
  | followingError (ax : Fin 2)
  /-- SOFT_LIMIT (R368). -/
  | softLimit (ax : Fin 2)
  /-- PROFILE_END (R368). -/
  | profileEnd (ax : Fin 2)
  /-- RUNDOWN_END (R375). -/
  | rundownEnd (ax : Fin 2)
  /-- BRAKE_SET_EXPIRY (R375). -/
  | brakeSetExpiry (ax : Fin 2)
  /-- MOT_CUT (R376). -/
  | motCut (ax : Fin 2)
  /-- POS_WRITE (R359). -/
  | posWrite (p : Path) (ax : Fin 2) (enc : Bool) (v : Word)
  /-- SLOT_HALF_START (R385). -/
  | slotHalfStart
  /-- SAMPLE_DONE (R389). -/
  | sampleDone (input : Int) (va vb : Nat)
  /-- AFE_CAL_START (R393). -/
  | afeCalStart (p : Path) (v : Word)
  /-- AFE_CAL_DONE (R393). -/
  | afeCalDone (sums : List (Int × Int))
  /-- AFE_PFO_FAULT (R398). -/
  | afePfoFault (k : Fin 4)
  /-- PWR_TARGET (R404). -/
  | pwrTarget (p : Path) (k : Fin 24) (v : Word)
  /-- POWER_TRANSITION (R405). -/
  | powerTransition
  /-- PWR_DONE (R405). -/
  | pwrDone
  /-- SPAN_WAKE_SET (R96). -/
  | spanWakeSet (lane : Fin 2) (words : List RxWord)
  /-- LANE_ACTIVITY_WAKE (R412). -/
  | laneActivityWake (port : Fin 6)
  /-- CUE_WAKE (R412). -/
  | cueWake (n : Fin 4) (closing : Bool)
  /-- KTIMER_CFG (R414). -/
  | ktimerCfg (p : Path) (v : Word)
  /-- KEEPER_TIMER_EXPIRY (R414). -/
  | keeperTimerExpiry
  /-- ZWIRDO_ADDRESS_MATCH (R418). -/
  | zwirdoAddressMatch (byte : Byte) (stop : Bool)
  /-- STATUS (R55). -/
  | status (t : ZwdTxn)
  /-- IDENT (R421). -/
  | ident (t : ZwdTxn)
  /-- FPRINT (R421). -/
  | fprint (t : ZwdTxn)
  /-- LAST (R421). -/
  | last (t : ZwdTxn)
  /-- REG_READ (R422). -/
  | regRead (t : ZwdTxn)
  /-- REG_WRITE (R422). -/
  | regWrite (t : ZwdTxn)
  /-- ZWD_SOFT_RESET (R423). -/
  | zwdSoftReset (t : ZwdTxn)
  /-- FLASH_XFER (R424). -/
  | flashXfer (t : ZwdTxn) (rx : List Byte)
  /-- MBOX_PUT (R425). -/
  | mboxPut (t : ZwdTxn)
  /-- MBOX_RUN_WRITE (R425). -/
  | mboxRunWrite (t : ZwdTxn)
  /-- MBOX_RUN_READ (R425). -/
  | mboxRunRead (t : ZwdTxn)
  /-- MBOX_RUN_DELETE (R425). -/
  | mboxRunDelete (t : ZwdTxn)
  /-- MBOX_DONE (R425). -/
  | mboxDone (fault : Bool)
  /-- MBOX_GET (R425). -/
  | mboxGet (t : ZwdTxn)
  /-- MBOX_STATUS (R425). -/
  | mboxStatus (t : ZwdTxn)
  /-- ALERT_READ (R426). -/
  | alertRead (t : ZwdTxn)
  /-- ALERT_RESPONSE (R426). -/
  | alertResponse (wins : Bool)
  /-- ZWD_TIMEOUT (R417). -/
  | zwdTimeout
  /-- ZWD_UNKNOWN_COMMAND (R421). -/
  | zwdUnknownCommand (cmd : Byte)
  /-- CAROUSEL_PIECE (R432). -/
  | carouselPiece (words : List Word)
  /-- PIECE_PROGRAM (R436). -/
  | pieceProgram (fault : Bool)
  /-- GLEAN_VERIFY (R438). -/
  | gleanVerify
  /-- SWAP_TICK (R439). -/
  | swapTick
  /-- TRIAL_EXPIRED (R443). -/
  | trialExpired
  /-- LANE_PRBS_CFG (R457). -/
  | lanePrbsCfg (p : Path) (lane : Fin 8) (v : Word)
  /-- LANE_LOOP (R456). -/
  | laneLoop (p : Path) (lane : Fin 8) (v : Word)
  /-- LANE_TEST_START (R453). -/
  | laneTestStart (lane : Fin 8)
  /-- LANE_TEST_END (R458). -/
  | laneTestEnd (lane : Fin 8)
  /-- CHECKER_LOCK (R454). -/
  | checkerLock (lane : Fin 8) (bits : List Bool)
  /-- SYNC_LOSS (R454). -/
  | syncLoss (lane : Fin 8) (bits : List Bool)
  /-- INJECT_SINGLE (R455). -/
  | injectSingle (p : Path) (lane : Fin 8) (v : Word)
  /-- INJECT_BURST (R455). -/
  | injectBurst (p : Path) (lane : Fin 8) (v : Word)
  /-- INJECT_CONTINUOUS (R455). -/
  | injectContinuous (p : Path) (lane : Fin 8) (v : Word)
  /-- INJECT_STOP (R455). -/
  | injectStop (p : Path) (lane : Fin 8) (v : Word)
  /-- LEDGER_CLEAR (R465). -/
  | ledgerClear (p : Path) (v : Word)
  /-- LEDGER_CLEAR_APPLY (R465). -/
  | ledgerClearApply
  /-- EXTEST (R485). -/
  | extest (pins scan : BitVec 512)
  /-- SAMPLE_PRELOAD (R485). -/
  | samplePreload (pins scan : BitVec 512)
  /-- HIGHZ (R485). -/
  | highz
  /-- CLAMP (R485). -/
  | clamp
  /-- BYPASS (R485). -/
  | bypass (code : Byte)
  /-- LEAVE_REQ_REPEAT (R182). -/
  | leaveReqRepeat
  /-- ENTROPY_RETEST_PASS (R233). -/
  | entropyRetestPass (samples : List Byte)
  /-- QUALIFICATION_TIMEOUT (R323). -/
  | qualificationTimeout (port : Fin 6)
deriving DecidableEq, Repr

end Sys2Proof
end

