-- ==== Sys2Proof/Decode.lean ====
section
/-! DEFINITION. The commands a word spells. No row of spec/opcode_table.json gives its command any bits: each is an access
to a register, a word or an event at a pin, or something an engine comes to, and no instruction word encodes it. -/

namespace Sys2Proof

/-- The command a word of `nbits` bits spells by the bits of spec/opcode_table.json: no row gives any. -/
def decodeTableWord (_nbits _w : Nat) : Option Instr := none

end Sys2Proof
end

