-- ==== Sys2Proof/Config.lean ====
section
/-! DEFINITION. What one implementation fixes and the free values: constants with no body, so that no proof can see
what they are (notes/assumptions/2.md, 3.md). -/

namespace Sys2Proof

/-- A free value of `w` bits: the `n`-th value the spec leaves open in this run. -/
opaque Config.freeBits (w n : Nat) : BitVec w

/-- A draw of the DRBG: byte `i` of draw `n` (R144, R146, R213, R235 draw from it). -/
opaque Config.drawByte (n i : Nat) : BitVec 8

/-- The one-time memory of R212, byte by byte: identity public key at 0..63, device wrapping key at 64..95, wrapped
identity private key at 96..135, image root digests at 136..199. -/
opaque Config.otp (i : Nat) : BitVec 8

/-- The MAC address and the IPv4 address of a local port for which no settings record is stored (R446). -/
opaque Config.portMac (k : Nat) : BitVec 48

opaque Config.portIp (k : Nat) : BitVec 32

/-- The boundary clock's offsetScaledLogVariance, which R325 does not give. -/
opaque Config.ptpVariance : BitVec 16

end Sys2Proof
end

