-- ==== Sys2Proof/Machine/Bits.lean ====
section
/-! DEFINITION. Bit fields, byte order, sparse canonical maps, serial-number comparison (R18) and the small list
operations the other files share. -/

namespace Sys2Proof.Machine

/-! ### Fields of words -/

/-- Bits `[hi:lo]` of a 40-bit word, as a number. -/
def fget (w : BitVec 40) (hi lo : Nat) : Nat := w.toNat / 2 ^ lo % 2 ^ (hi + 1 - lo)

/-- The word with ones exactly in `[hi:lo]`. -/
def fmask (hi lo : Nat) : BitVec 40 := BitVec.ofNat 40 ((2 ^ (hi + 1 - lo) - 1) * 2 ^ lo)

/-- The word with bits `[hi:lo]` replaced by the low bits of `v`. -/
def fput (w : BitVec 40) (hi lo v : Nat) : BitVec 40 :=
  (w &&& ~~~(fmask hi lo)) ||| BitVec.ofNat 40 (v % 2 ^ (hi + 1 - lo) * 2 ^ lo)

/-- Bits `[hi:lo]` of any number. -/
def nbits (n hi lo : Nat) : Nat := n / 2 ^ lo % 2 ^ (hi + 1 - lo)

/-- Bit `i` of a number. -/
def nbit (n i : Nat) : Bool := n / 2 ^ i % 2 == 1

/-- One bit as a number. -/
def b2n (b : Bool) : Nat := if b then 1 else 0

/-- A number as a signed `w`-bit two's-complement value. -/
def toSigned (w n : Nat) : Int :=
  let m := n % 2 ^ w
  if m < 2 ^ (w - 1) then (m : Int) else (m : Int) - (2 ^ w : Nat)

/-- A signed value as its `w`-bit two's-complement pattern. -/
def ofSigned (w : Nat) (i : Int) : Nat := (i % (2 ^ w : Nat)).toNat

/-- Saturate a signed value to `w`-bit two's complement. -/
def satSigned (w : Nat) (i : Int) : Int :=
  if i < -(2 ^ (w - 1) : Nat) then -(2 ^ (w - 1) : Nat)
  else if (2 ^ (w - 1) : Nat) ≤ i then (2 ^ (w - 1) : Nat) - 1 else i

/-! ### Byte order -/

/-- The bytes of a number, most significant first. -/
def bytesBE : (n v : Nat) → List Byte
  | 0, _ => []
  | n + 1, v => BitVec.ofNat 8 (v / 2 ^ (8 * n)) :: bytesBE n v

/-- The bytes of a number, least significant first. -/
def bytesLE : (n v : Nat) → List Byte
  | 0, _ => []
  | n + 1, v => BitVec.ofNat 8 v :: bytesLE n (v / 256)

/-- The number a list of bytes spells, most significant first. -/
def beNat (bs : List Byte) : Nat := bs.foldl (fun a b => a * 256 + b.toNat) 0

/-- The number a list of bytes spells, least significant first. -/
def leNat : List Byte → Nat
  | [] => 0
  | b :: bs => b.toNat + 256 * leNat bs

/-- The five bytes of a word, byte 0 (bits [39:32]) first (R1). -/
def wordBytes (w : Word) : List Byte := bytesBE 5 w.toNat

/-- A word from its bytes, byte 0 first, missing bytes zero (R1, "Packet bytes"). -/
def bytesWord (bs : List Byte) : Word :=
  BitVec.ofNat 40 (beNat ((bs ++ [0, 0, 0, 0, 0]).take 5))

/-- A byte stream laid into words, the last word zero-padded (R1). -/
def packWords : (fuel : Nat) → List Byte → List Word
  | 0, _ => []
  | _ + 1, [] => []
  | f + 1, bs => bytesWord (bs.take 5) :: packWords f (bs.drop 5)

/-- Bytes laid into words. -/
def toWords (bs : List Byte) : List Word := packWords (bs.length + 1) bs

/-- Words unpacked into their byte stream. -/
def toBytes (ws : List Word) : List Byte := ws.flatMap wordBytes

/-- `n` bytes of a list from offset `o`, missing bytes zero. -/
def slice (bs : List Byte) (o n : Nat) : List Byte :=
  ((bs.drop o).take n) ++ List.replicate (n - (bs.length - o)) 0

/-- One byte of a list, as a number, zero beyond its end. -/
def byteAt (bs : List Byte) (i : Nat) : Nat := (bs.getD i 0).toNat

/-! ### Sparse canonical maps -/

/-- A sparse map: the listed keys, strictly rising; an unlisted key holds the default. -/
abbrev SMap (α : Type) := List (Nat × α)

/-- The value a map lists at a key. -/
def SMap.find {α : Type} : SMap α → Nat → Option α
  | [], _ => none
  | (k, v) :: m, j => if k = j then some v else SMap.find m j

/-- The value at a key, `d` where the key is not listed. -/
def SMap.get {α : Type} (d : α) (m : SMap α) (j : Nat) : α := (SMap.find m j).getD d

/-- List an entry in front of the first larger key. -/
def SMap.ins {α : Type} : SMap α → Nat → α → SMap α
  | [], j, v => [(j, v)]
  | (k, x) :: m, j, v => if j < k then (j, v) :: (k, x) :: m else (k, x) :: SMap.ins m j v

/-- Drop an entry. -/
def SMap.del {α : Type} (m : SMap α) (j : Nat) : SMap α := m.filter (fun p => p.1 != j)

/-- Write a key: writing the default removes the entry, so that equal maps are equal lists. -/
def SMap.put {α : Type} [DecidableEq α] (d : α) (m : SMap α) (j : Nat) (v : α) : SMap α :=
  if v = d then m.del j else (m.del j).ins j v

/-- The canonical form: keys strictly rising and no entry equal to the default of its key. -/
def SMap.wf {α : Type} [DecidableEq α] (d : Nat → α) : SMap α → Bool
  | [] => true
  | [(k, v)] => decide (v ≠ d k)
  | (k, v) :: (k', v') :: m => decide (v ≠ d k) && decide (k < k') && SMap.wf d ((k', v') :: m)

/-! ### Comparison of tick and cycle numbers -/

/-- R18: for a `k`-bit field, `a` is later than `b` when `(a - b) mod 2^k` lies in `1 .. 2^(k-1) - 1`. -/
def laterK (k a b : Nat) : Bool :=
  let d := (a + 2 ^ k - b % 2 ^ k) % 2 ^ k
  decide (1 ≤ d) && decide (d < 2 ^ (k - 1))

/-! ### Lists -/

/-- Replace the element at an index. -/
def setAt {α : Type} (l : List α) (i : Nat) (v : α) : List α := l.set i v

/-- Apply a function to the element at an index. -/
def modAt {α : Type} (l : List α) (i : Nat) (f : α → α) : List α := l.modify i f

/-- Fold a state through a list. -/
def eachOf {α σ : Type} (l : List α) (f : σ → α → σ) (s : σ) : σ := l.foldl f s

/-- XOR of two byte lists, as long as the shorter. -/
def xorBytes (a b : List Byte) : List Byte := List.zipWith (· ^^^ ·) a b

end Sys2Proof.Machine
end

