-- ==== Sys2Proof/Machine/RegTable.lean ====
section
/-! DEFINITION. The register map of revision B: the offset of every register, the place of every field, and one table
of the access masks and defaults (spec/22_register_index.md R491-R494, and the field table of each defining chapter). -/

namespace Sys2Proof.Machine

/-- A field of a register: the register's BAR0 offset and the bits `[hi:lo]` it occupies. -/
structure Fld where
  off : Nat
  hi : Nat
  lo : Nat
deriving DecidableEq, Repr

/-- One row of the register index: `count` registers at `base`, `base + stride`, ...; the value after reset with every
strap at zero; the bits of each access code of R9; and whether the row is Engine-locked (R286, R492). -/
structure RegRow where
  base : Nat
  stride : Nat
  count : Nat
  dflt : BitVec 40
  rw : BitVec 40
  rws : BitVec 40
  w1c : BitVec 40
  wo : BitVec 40
  engine : Bool
deriving DecidableEq, Repr

/-! ### Register offsets (spec/22_register_index.md R491)

The index of an array wraps at its number of registers, so that every index names a register of its own array. -/

def R.DEVICE_IDENT : Nat := 0x0
def R.TIME_NOW : Nat := 0x1700
def R.TIME_EPOCH_SNAP : Nat := 0x1708
def R.TIME_STATUS : Nat := 0x1710
def R.TICK_OVERRUN_STATUS : Nat := 0x1718
def R.STRAP_LATCH : Nat := 0x8
def R.TERM_STATE : Nat := 0x10
def R.RESET_CAUSE : Nat := 0x18
def R.SELFTEST_RESULT : Nat := 0x20
def R.SELFTEST_FLAGS : Nat := 0x28
def R.SOFT_RESET : Nat := 0x30
def R.BOOT_STATUS : Nat := 0x38
def R.BOOT_LOAD_ADDR : Nat := 0x40
def R.BOOT_LOAD_CTRL : Nat := 0x48
def R.FLASH_BRIDGE_CTRL : Nat := 0x58
def R.FLASH_BRIDGE_ADDR : Nat := 0x60
def R.FLASH_BRIDGE_DATA (n : Nat) : Nat := 0x68 + 0x8 * (n % 7)
def R.BYPASS_CFG : Nat := 0x1600
def R.BYPASS_STATUS : Nat := 0x1608
def R.ADMIT_FPRINT : Nat := 0x1610
def R.ADMIT_TICK : Nat := 0x1618
def R.KA_WATCHDOG : Nat := 0x1620
def R.SPAN_CFG : Nat := 0x1000
def R.SPAN_WAKE : Nat := 0x1008
def R.REP_STATUS_W : Nat := 0x1100
def R.REP_STATUS_E : Nat := 0x1108
def R.LANE_EQ (n : Nat) : Nat := 0x1800 + 0x80 * (n % 8)
def R.LANE_TX (n : Nat) : Nat := 0x1808 + 0x80 * (n % 8)
def R.LANE_STATUS (n : Nat) : Nat := 0x1810 + 0x80 * (n % 8)
def R.FRAME_STATUS : Nat := 0x1200
def R.FRAME_GEN : Nat := 0x1208
def R.MAP_STATUS : Nat := 0x1210
def R.SEL_CFG : Nat := 0x1218
def R.REG_STATUS : Nat := 0x1300
def R.CLAIM_NONCE : Nat := 0x1308
def R.RANGE_E : Nat := 0x1310
def R.RANGE_W : Nat := 0x1318
def R.RANGE_STATUS : Nat := 0x1320
def R.TAI_ORIGIN_CYCLE : Nat := 0x1720
def R.TAI_ORIGIN_SEC : Nat := 0x1728
def R.TAI_ORIGIN_NS : Nat := 0x1730
def R.TAI_UTC : Nat := 0x1738
def R.NOTE_SEQ : Nat := 0x1400
def R.NOTE_UP_STATUS : Nat := 0x1408
def R.WIN_STATUS : Nat := 0x1500
def R.WIN_LAST_GRANT : Nat := 0x1508
def R.WIN_CFG : Nat := 0x1510
def R.CIPHER_CFG : Nat := 0x3800
def R.KEY_STATUS : Nat := 0x3808
def R.CIPHER_LOAD : Nat := 0x3810
def R.ENTROPY_STATUS : Nat := 0x3818
def R.DRBG_STATUS : Nat := 0x3820
def R.SIG_STATUS : Nat := 0x3828
def R.TH_PORT_CLASS : Nat := 0x2800
def R.TH_CLASS_CFG (n : Nat) : Nat := 0x2840 + 0x8 * (n % 16)
def R.TH_PROFILE (n : Nat) : Nat := 0x28C0 + 0x8 * (n % 16)
def R.TH_PUNT_LEARN : Nat := 0x2940
def R.TH_PUNT_FAULT : Nat := 0x2948
def R.TH_UPDATE_STATUS : Nat := 0x2950
def R.TH_TABLE_STATUS (n : Nat) : Nat := 0x2960 + 0x8 * (n % 4)
def R.TH_CFG_STATUS : Nat := 0x2980
def R.GRAN_BANK_CFG : Nat := 0x3000
def R.GRAN_STATUS : Nat := 0x3008
def R.QM_OVERHEAD : Nat := 0x3010
def R.QM_HOLDDOWN : Nat := 0x3018
def R.QM_IND_SEL : Nat := 0x3020
def R.QM_IND_DATA0 : Nat := 0x3028
def R.QM_IND_DATA1 : Nat := 0x3030
def R.QM_IND_DATA2 : Nat := 0x3038
def R.RUN_CTRL : Nat := 0x50
def R.PCIE_CTRL : Nat := 0x2000
def R.RING_MODE : Nat := 0x2008
def R.HRE_CTRL : Nat := 0x2010
def R.HRE_STATUS : Nat := 0x2018
def R.HRE_STOPPED : Nat := 0x2020
def R.DB_PAGE : Nat := 0x2028
def R.ST_PAGE : Nat := 0x2030
def R.INT_CFG : Nat := 0x2038
def R.CMD_SEQ : Nat := 0x2040
def R.ETH_CFG (n : Nat) : Nat := 0x4000 + 0x40 * (n % 6)
def R.ETH_STATUS (n : Nat) : Nat := 0x4008 + 0x40 * (n % 6)
def R.ETH_PTP_ADJ (n : Nat) : Nat := 0x4010 + 0x40 * (n % 6)
def R.PTP_CFG : Nat := 0x4200
def R.PTP_INTERVALS : Nat := 0x4208
def R.PTP_STATUS : Nat := 0x4210
def R.SHOW_CFG : Nat := 0x4800
def R.SHOW_STATUS : Nat := 0x4808
def R.TDM_CFG (n : Nat) : Nat := 0x4840 + 0x8 * (n % 8)
def R.DMX_CFG (n : Nat) : Nat := 0x4900 + 0x8 * (n % 8)
def R.DMX_TIMING : Nat := 0x4940
def R.LTC_CFG (n : Nat) : Nat := 0x4980 + 0x8 * (n % 2)
def R.LTC_START (n : Nat) : Nat := 0x4990 + 0x8 * (n % 2)
def R.LTC_ORIGIN (n : Nat) : Nat := 0x49A0 + 0x8 * (n % 2)
def R.LTC_RX (n : Nat) : Nat := 0x49B0 + 0x8 * (n % 2)
def R.MIDI_CFG (n : Nat) : Nat := 0x49C0 + 0x8 * (n % 2)
def R.CUE_CFG : Nat := 0x4A00
def R.CUE_OUT_CFG : Nat := 0x4A08
def R.CUE_STATE : Nat := 0x4A10
def R.EXPRESS_MAP (n : Nat) : Nat := 0x4A80 + 0x8 * (n % 32)
def R.GEN_CFG (n : Nat) : Nat := 0x4C00 + 0x10 * (n % 4)
def R.GEN_PULSE (n : Nat) : Nat := 0x4C08 + 0x10 * (n % 4)
def R.AX_CFG (n : Nat) : Nat := 0x5000 + 0x100 * (n % 2)
def R.AX_TIMING (n : Nat) : Nat := 0x5008 + 0x100 * (n % 2)
def R.AX_VMAX (n : Nat) : Nat := 0x5010 + 0x100 * (n % 2)
def R.AX_AMAX (n : Nat) : Nat := 0x5018 + 0x100 * (n % 2)
def R.AX_PWM_FS (n : Nat) : Nat := 0x5038 + 0x100 * (n % 2)
def R.AX_RD_CFG (n : Nat) : Nat := 0x5020 + 0x100 * (n % 2)
def R.AX_RD_LIMIT (n : Nat) : Nat := 0x5028 + 0x100 * (n % 2)
def R.AX_PWM (n : Nat) : Nat := 0x5030 + 0x100 * (n % 2)
def R.AX_SOFT_MIN (n : Nat) : Nat := 0x5040 + 0x100 * (n % 2)
def R.AX_SOFT_MAX (n : Nat) : Nat := 0x5048 + 0x100 * (n % 2)
def R.AX_POS_CMD (n : Nat) : Nat := 0x5050 + 0x100 * (n % 2)
def R.AX_POS_ENC (n : Nat) : Nat := 0x5058 + 0x100 * (n % 2)
def R.AX_INDEX (n : Nat) : Nat := 0x5060 + 0x100 * (n % 2)
def R.AX_STATUS (n : Nat) : Nat := 0x5068 + 0x100 * (n % 2)
def R.MOT_HOLD : Nat := 0x5200
def R.AFE_CFG : Nat := 0x5800
def R.AFE_STATUS : Nat := 0x5808
def R.AFE_SLOT_CFG (n : Nat) : Nat := 0x5840 + 0x10 * (n % 16)
def R.AFE_SLOT_PINS (n : Nat) : Nat := 0x5848 + 0x10 * (n % 16)
def R.AFE_LIN (n : Nat) : Nat := 0x5A00 + 0x8 * (n % 96)
def R.AFE_CAL (n : Nat) : Nat := 0x5D00 + 0x8 * (n % 13)
def R.AFE_CAL_CTRL : Nat := 0x5D80
def R.AFE_DIE_TEMP : Nat := 0x5D88
def R.AFE_RESULT (n : Nat) : Nat := 0x5E00 + 0x8 * (n % 16)
def R.PFO_CFG (n : Nat) : Nat := 0x5F00 + 0x40 * (n % 4)
def R.PFO_Y0 (n : Nat) : Nat := 0x5F08 + 0x40 * (n % 4)
def R.PFO_Y1 (n : Nat) : Nat := 0x5F10 + 0x40 * (n % 4)
def R.PFO_OUT0 (n : Nat) : Nat := 0x5F18 + 0x40 * (n % 4)
def R.PFO_OUT1 (n : Nat) : Nat := 0x5F20 + 0x40 * (n % 4)
def R.PWR_PENDING : Nat := 0x8C0
def R.WAKE_CFG : Nat := 0x8C8
def R.WAKE_MASK : Nat := 0x8D0
def R.WAKE_STATUS : Nat := 0x8D8
def R.KTIMER_CFG : Nat := 0x8E0
def R.KTIMER_STATUS : Nat := 0x8E8
def R.KEEPER_RC : Nat := 0x8F0
def R.ZWD_ADDR : Nat := 0x7000
def R.ZWD_CFG : Nat := 0x7008
def R.ZWD_ALERT : Nat := 0x7010
def R.ZWD_STATUS : Nat := 0x7018
def R.GLEAN_CFG : Nat := 0x6800
def R.GLEAN_STATUS : Nat := 0x6808
def R.IMAGE_RUNNING : Nat := 0x6810
def R.IMAGE_STAGED : Nat := 0x6818
def R.FLASH_INFO : Nat := 0x6820
def R.SETTINGS_STATUS : Nat := 0x6828
def R.LANE_PRBS_CFG (n : Nat) : Nat := 0x1820 + 0x80 * (n % 8)
def R.LANE_PRBS_STATUS (n : Nat) : Nat := 0x1828 + 0x80 * (n % 8)
def R.LANE_PRBS_BITS (n : Nat) : Nat := 0x1830 + 0x80 * (n % 8)
def R.LANE_PRBS_ERR (n : Nat) : Nat := 0x1838 + 0x80 * (n % 8)
def R.LANE_INJECT (n : Nat) : Nat := 0x1840 + 0x80 * (n % 8)
def R.LANE_LOOP (n : Nat) : Nat := 0x1848 + 0x80 * (n % 8)
def R.LEDGER_GRP_SAT (n : Nat) : Nat := 0x6700 + 0x8 * (n % 16)
def R.LEDGER_SUMMARY : Nat := 0x6780
def R.LEDGER_CLEAR : Nat := 0x6788
def R.CMD_BASE : Nat := 0x2080
def R.CMD_CFG : Nat := 0x2088
def R.EVT_BASE : Nat := 0x2090
def R.EVT_CFG : Nat := 0x2098
def R.TXQ_BASE (n : Nat) : Nat := 0x2100 + 0x10 * (n % 16)
def R.TXQ_CFG (n : Nat) : Nat := 0x2108 + 0x10 * (n % 16)
def R.RXQ_BASE (n : Nat) : Nat := 0x2200 + 0x10 * (n % 16)
def R.RXQ_CFG (n : Nat) : Nat := 0x2208 + 0x10 * (n % 16)
def R.FL_BASE (n : Nat) : Nat := 0x2300 + 0x10 * (n % 16)
def R.FL_CFG (n : Nat) : Nat := 0x2308 + 0x10 * (n % 16)
def R.COUNTER (n : Nat) : Nat := 0x6000 + 0x8 * (n % 222)
def R.PORT0_COUNTER (n : Nat) : Nat := 0x4400 + 0x8 * (n % 15)
def R.PORT1_COUNTER (n : Nat) : Nat := 0x4480 + 0x8 * (n % 15)
def R.PORT2_COUNTER (n : Nat) : Nat := 0x4500 + 0x8 * (n % 15)
def R.PORT3_COUNTER (n : Nat) : Nat := 0x4580 + 0x8 * (n % 15)
def R.PORT4_COUNTER (n : Nat) : Nat := 0x4600 + 0x8 * (n % 15)
def R.PORT5_COUNTER (n : Nat) : Nat := 0x4680 + 0x8 * (n % 15)
def R.PWR_TARGET (n : Nat) : Nat := 0x800 + 0x8 * (n % 24)

/-! ### Fields -/

def F.DEVICE_IDENT_VENDOR : Fld := ⟨R.DEVICE_IDENT, 39, 28⟩
def F.DEVICE_IDENT_PART : Fld := ⟨R.DEVICE_IDENT, 27, 16⟩
def F.DEVICE_IDENT_SILICON : Fld := ⟨R.DEVICE_IDENT, 15, 12⟩
def F.DEVICE_IDENT_MAP_VERSION : Fld := ⟨R.DEVICE_IDENT, 11, 4⟩
def F.DEVICE_IDENT_STRAP_SIDES : Fld := ⟨R.DEVICE_IDENT, 3, 3⟩
def F.TIME_NOW_CYCLE_LO : Fld := ⟨R.TIME_NOW, 39, 25⟩
def F.TIME_NOW_TICK : Fld := ⟨R.TIME_NOW, 24, 19⟩
def F.TIME_NOW_WC : Fld := ⟨R.TIME_NOW, 18, 6⟩
def F.TIME_NOW_PHASE : Fld := ⟨R.TIME_NOW, 5, 0⟩
def F.TIME_EPOCH_SNAP_CYCLE : Fld := ⟨R.TIME_EPOCH_SNAP, 39, 0⟩
def F.TIME_STATUS_P_GEN : Fld := ⟨R.TIME_STATUS, 11, 8⟩
def F.TIME_STATUS_P : Fld := ⟨R.TIME_STATUS, 7, 4⟩
def F.TIME_STATUS_SOURCE : Fld := ⟨R.TIME_STATUS, 3, 2⟩
def F.TIME_STATUS_FLYWHEEL : Fld := ⟨R.TIME_STATUS, 1, 1⟩
def F.TIME_STATUS_RANGED : Fld := ⟨R.TIME_STATUS, 0, 0⟩
def F.TICK_OVERRUN_STATUS_HRE : Fld := ⟨R.TICK_OVERRUN_STATUS, 8, 8⟩
def F.TICK_OVERRUN_STATUS_AFE : Fld := ⟨R.TICK_OVERRUN_STATUS, 7, 7⟩
def F.TICK_OVERRUN_STATUS_MOT : Fld := ⟨R.TICK_OVERRUN_STATUS, 6, 6⟩
def F.TICK_OVERRUN_STATUS_SHW : Fld := ⟨R.TICK_OVERRUN_STATUS, 5, 5⟩
def F.TICK_OVERRUN_STATUS_QSC : Fld := ⟨R.TICK_OVERRUN_STATUS, 4, 4⟩
def F.TICK_OVERRUN_STATUS_CIP : Fld := ⟨R.TICK_OVERRUN_STATUS, 3, 3⟩
def F.TICK_OVERRUN_STATUS_THR : Fld := ⟨R.TICK_OVERRUN_STATUS, 2, 2⟩
def F.TICK_OVERRUN_STATUS_WRT : Fld := ⟨R.TICK_OVERRUN_STATUS, 1, 1⟩
def F.TICK_OVERRUN_STATUS_FRM : Fld := ⟨R.TICK_OVERRUN_STATUS, 0, 0⟩
def F.STRAP_LATCH_STRAPS : Fld := ⟨R.STRAP_LATCH, 11, 0⟩
def F.TERM_STATE_STATE : Fld := ⟨R.TERM_STATE, 3, 0⟩
def F.RESET_CAUSE_SOFT_NOTE : Fld := ⟨R.RESET_CAUSE, 7, 7⟩
def F.RESET_CAUSE_SOFT_ZWD : Fld := ⟨R.RESET_CAUSE, 6, 6⟩
def F.RESET_CAUSE_SOFT_CMD : Fld := ⟨R.RESET_CAUSE, 5, 5⟩
def F.RESET_CAUSE_SOFT_REG : Fld := ⟨R.RESET_CAUSE, 4, 4⟩
def F.RESET_CAUSE_BROWNOUT : Fld := ⟨R.RESET_CAUSE, 3, 3⟩
def F.RESET_CAUSE_PIN : Fld := ⟨R.RESET_CAUSE, 2, 2⟩
def F.RESET_CAUSE_POR : Fld := ⟨R.RESET_CAUSE, 1, 1⟩
def F.SELFTEST_RESULT_HOLD_CODE : Fld := ⟨R.SELFTEST_RESULT, 39, 32⟩
def F.SELFTEST_RESULT_STEP : Fld := ⟨R.SELFTEST_RESULT, 31, 24⟩
def F.SELFTEST_RESULT_SUBCODE : Fld := ⟨R.SELFTEST_RESULT, 23, 16⟩
def F.SELFTEST_RESULT_DETAIL : Fld := ⟨R.SELFTEST_RESULT, 15, 0⟩
def F.SELFTEST_FLAGS_FLASH_FAIL : Fld := ⟨R.SELFTEST_FLAGS, 10, 10⟩
def F.SELFTEST_FLAGS_STRAP_WARN : Fld := ⟨R.SELFTEST_FLAGS, 9, 9⟩
def F.SELFTEST_FLAGS_AFE_FAIL : Fld := ⟨R.SELFTEST_FLAGS, 8, 8⟩
def F.SELFTEST_FLAGS_LANE_FAIL : Fld := ⟨R.SELFTEST_FLAGS, 7, 0⟩
def F.SOFT_RESET_KEY : Fld := ⟨R.SOFT_RESET, 15, 0⟩
def F.BOOT_STATUS_IMAGE : Fld := ⟨R.BOOT_STATUS, 2, 2⟩
def F.BOOT_STATUS_SOURCE : Fld := ⟨R.BOOT_STATUS, 1, 0⟩
def F.BOOT_LOAD_ADDR_PAGE : Fld := ⟨R.BOOT_LOAD_ADDR, 39, 0⟩
def F.BOOT_LOAD_CTRL_LEN : Fld := ⟨R.BOOT_LOAD_CTRL, 11, 1⟩
def F.BOOT_LOAD_CTRL_GO : Fld := ⟨R.BOOT_LOAD_CTRL, 0, 0⟩
def F.FLASH_BRIDGE_CTRL_OPCODE : Fld := ⟨R.FLASH_BRIDGE_CTRL, 31, 24⟩
def F.FLASH_BRIDGE_CTRL_A : Fld := ⟨R.FLASH_BRIDGE_CTRL, 23, 21⟩
def F.FLASH_BRIDGE_CTRL_DUMMY : Fld := ⟨R.FLASH_BRIDGE_CTRL, 20, 17⟩
def F.FLASH_BRIDGE_CTRL_W : Fld := ⟨R.FLASH_BRIDGE_CTRL, 16, 11⟩
def F.FLASH_BRIDGE_CTRL_RLEN : Fld := ⟨R.FLASH_BRIDGE_CTRL, 10, 5⟩
def F.FLASH_BRIDGE_CTRL_ERR : Fld := ⟨R.FLASH_BRIDGE_CTRL, 2, 2⟩
def F.FLASH_BRIDGE_CTRL_BUSY : Fld := ⟨R.FLASH_BRIDGE_CTRL, 1, 1⟩
def F.FLASH_BRIDGE_CTRL_GO : Fld := ⟨R.FLASH_BRIDGE_CTRL, 0, 0⟩
def F.FLASH_BRIDGE_ADDR_ADDR : Fld := ⟨R.FLASH_BRIDGE_ADDR, 31, 0⟩
def F.FLASH_BRIDGE_DATA_DATA (n : Nat) : Fld := ⟨R.FLASH_BRIDGE_DATA n, 39, 0⟩
def F.BYPASS_CFG_AUTO_TURN : Fld := ⟨R.BYPASS_CFG, 2, 2⟩
def F.BYPASS_CFG_SWITCH_CLASS : Fld := ⟨R.BYPASS_CFG, 1, 0⟩
def F.BYPASS_STATUS_CAUSE : Fld := ⟨R.BYPASS_STATUS, 11, 8⟩
def F.BYPASS_STATUS_INSERTED : Fld := ⟨R.BYPASS_STATUS, 5, 5⟩
def F.BYPASS_STATUS_TURN_AUTO : Fld := ⟨R.BYPASS_STATUS, 4, 4⟩
def F.BYPASS_STATUS_TURNED_W : Fld := ⟨R.BYPASS_STATUS, 3, 3⟩
def F.BYPASS_STATUS_TURNED_E : Fld := ⟨R.BYPASS_STATUS, 2, 2⟩
def F.BYPASS_STATUS_KA_LEVEL : Fld := ⟨R.BYPASS_STATUS, 1, 1⟩
def F.BYPASS_STATUS_KA_ARMED : Fld := ⟨R.BYPASS_STATUS, 0, 0⟩
def F.ADMIT_FPRINT_FPRINT : Fld := ⟨R.ADMIT_FPRINT, 39, 0⟩
def F.ADMIT_TICK_CYCLE_LO : Fld := ⟨R.ADMIT_TICK, 39, 25⟩
def F.ADMIT_TICK_TICK : Fld := ⟨R.ADMIT_TICK, 24, 19⟩
def F.ADMIT_TICK_PENDING : Fld := ⟨R.ADMIT_TICK, 0, 0⟩
def F.KA_WATCHDOG_REMAIN : Fld := ⟨R.KA_WATCHDOG, 11, 8⟩
def F.KA_WATCHDOG_REFRESH : Fld := ⟨R.KA_WATCHDOG, 7, 0⟩
def F.SPAN_CFG_LOS_PIN_EN : Fld := ⟨R.SPAN_CFG, 1, 1⟩
def F.SPAN_CFG_SIDES : Fld := ⟨R.SPAN_CFG, 0, 0⟩
def F.SPAN_WAKE_WAKE_EN : Fld := ⟨R.SPAN_WAKE, 6, 6⟩
def F.SPAN_WAKE_WAKE_ID : Fld := ⟨R.SPAN_WAKE, 5, 0⟩
def F.REP_STATUS_W_HL_IN : Fld := ⟨R.REP_STATUS_W, 23, 18⟩
def F.REP_STATUS_W_HL_OUT : Fld := ⟨R.REP_STATUS_W, 17, 12⟩
def F.REP_STATUS_W_OCC : Fld := ⟨R.REP_STATUS_W, 11, 6⟩
def F.REP_STATUS_W_FILLING : Fld := ⟨R.REP_STATUS_W, 2, 2⟩
def F.REP_STATUS_W_TRACKING : Fld := ⟨R.REP_STATUS_W, 1, 1⟩
def F.REP_STATUS_W_SLIP : Fld := ⟨R.REP_STATUS_W, 0, 0⟩
def F.REP_STATUS_E_HL_IN : Fld := ⟨R.REP_STATUS_E, 23, 18⟩
def F.REP_STATUS_E_HL_OUT : Fld := ⟨R.REP_STATUS_E, 17, 12⟩
def F.REP_STATUS_E_OCC : Fld := ⟨R.REP_STATUS_E, 11, 6⟩
def F.REP_STATUS_E_FILLING : Fld := ⟨R.REP_STATUS_E, 2, 2⟩
def F.REP_STATUS_E_TRACKING : Fld := ⟨R.REP_STATUS_E, 1, 1⟩
def F.REP_STATUS_E_SLIP : Fld := ⟨R.REP_STATUS_E, 0, 0⟩
def F.LANE_EQ_MODE (n : Nat) : Fld := ⟨R.LANE_EQ n, 9, 8⟩
def F.LANE_EQ_PEAK (n : Nat) : Fld := ⟨R.LANE_EQ n, 3, 0⟩
def F.LANE_TX_SWING (n : Nat) : Fld := ⟨R.LANE_TX n, 6, 4⟩
def F.LANE_TX_DEEMPH (n : Nat) : Fld := ⟨R.LANE_TX n, 2, 0⟩
def F.LANE_STATUS_PEAK_NOW (n : Nat) : Fld := ⟨R.LANE_STATUS n, 15, 12⟩
def F.LANE_STATUS_ADAPT (n : Nat) : Fld := ⟨R.LANE_STATUS n, 9, 8⟩
def F.LANE_STATUS_RD (n : Nat) : Fld := ⟨R.LANE_STATUS n, 4, 4⟩
def F.LANE_STATUS_LOS (n : Nat) : Fld := ⟨R.LANE_STATUS n, 3, 3⟩
def F.LANE_STATUS_WORD_LOCK (n : Nat) : Fld := ⟨R.LANE_STATUS n, 2, 2⟩
def F.LANE_STATUS_SYM_ALIGN (n : Nat) : Fld := ⟨R.LANE_STATUS n, 1, 1⟩
def F.LANE_STATUS_CDR_LOCK (n : Nat) : Fld := ⟨R.LANE_STATUS n, 0, 0⟩
def F.FRAME_STATUS_HE_STATE : Fld := ⟨R.FRAME_STATUS, 15, 12⟩
def F.FRAME_STATUS_HDR_SRC : Fld := ⟨R.FRAME_STATUS, 11, 10⟩
def F.FRAME_STATUS_ROW0_OK : Fld := ⟨R.FRAME_STATUS, 1, 1⟩
def F.FRAME_STATUS_HDR_OK : Fld := ⟨R.FRAME_STATUS, 0, 0⟩
def F.FRAME_GEN_MAP_GEN : Fld := ⟨R.FRAME_GEN, 39, 36⟩
def F.FRAME_GEN_MAP_NEXT_IN : Fld := ⟨R.FRAME_GEN, 35, 30⟩
def F.FRAME_GEN_KEY_GEN : Fld := ⟨R.FRAME_GEN, 29, 26⟩
def F.FRAME_GEN_KEY_NEXT_IN : Fld := ⟨R.FRAME_GEN, 25, 20⟩
def F.FRAME_GEN_P_NEXT_IN : Fld := ⟨R.FRAME_GEN, 19, 14⟩
def F.FRAME_GEN_LOOP_GEN : Fld := ⟨R.FRAME_GEN, 13, 10⟩
def F.MAP_STATUS_CUR_COUNT : Fld := ⟨R.MAP_STATUS, 39, 29⟩
def F.MAP_STATUS_PEND_COUNT : Fld := ⟨R.MAP_STATUS, 28, 18⟩
def F.MAP_STATUS_PEND_HELD : Fld := ⟨R.MAP_STATUS, 17, 7⟩
def F.MAP_STATUS_PEND_COMPLETE : Fld := ⟨R.MAP_STATUS, 1, 1⟩
def F.MAP_STATUS_CUR_VALID : Fld := ⟨R.MAP_STATUS, 0, 0⟩
def F.SEL_CFG_EXPRESS_EN : Fld := ⟨R.SEL_CFG, 2, 2⟩
def F.SEL_CFG_USE : Fld := ⟨R.SEL_CFG, 1, 0⟩
def F.REG_STATUS_TERM_ID : Fld := ⟨R.REG_STATUS, 39, 34⟩
def F.REG_STATUS_BACKOFF : Fld := ⟨R.REG_STATUS, 11, 8⟩
def F.REG_STATUS_GRANT_IDLE : Fld := ⟨R.REG_STATUS, 6, 0⟩
def F.CLAIM_NONCE_NONCE : Fld := ⟨R.CLAIM_NONCE, 39, 0⟩
def F.RANGE_E_D : Fld := ⟨R.RANGE_E, 39, 16⟩
def F.RANGE_E_LOOP_GEN : Fld := ⟨R.RANGE_E, 15, 12⟩
def F.RANGE_E_HELD : Fld := ⟨R.RANGE_E, 0, 0⟩
def F.RANGE_W_D : Fld := ⟨R.RANGE_W, 39, 16⟩
def F.RANGE_W_LOOP_GEN : Fld := ⟨R.RANGE_W, 15, 12⟩
def F.RANGE_W_HELD : Fld := ⟨R.RANGE_W, 0, 0⟩
def F.RANGE_STATUS_ASYM : Fld := ⟨R.RANGE_STATUS, 39, 24⟩
def F.RANGE_STATUS_REPORT_SEQ : Fld := ⟨R.RANGE_STATUS, 23, 16⟩
def F.RANGE_STATUS_ACKED : Fld := ⟨R.RANGE_STATUS, 3, 3⟩
def F.RANGE_STATUS_MEASURING : Fld := ⟨R.RANGE_STATUS, 2, 2⟩
def F.RANGE_STATUS_MODE : Fld := ⟨R.RANGE_STATUS, 1, 0⟩
def F.TAI_ORIGIN_CYCLE_C0 : Fld := ⟨R.TAI_ORIGIN_CYCLE, 39, 0⟩
def F.TAI_ORIGIN_SEC_SEC : Fld := ⟨R.TAI_ORIGIN_SEC, 39, 0⟩
def F.TAI_ORIGIN_NS_VALID : Fld := ⟨R.TAI_ORIGIN_NS, 39, 39⟩
def F.TAI_ORIGIN_NS_NS : Fld := ⟨R.TAI_ORIGIN_NS, 29, 0⟩
def F.TAI_UTC_UTC_OFFSET : Fld := ⟨R.TAI_UTC, 39, 24⟩
def F.TAI_UTC_LEAP61 : Fld := ⟨R.TAI_UTC, 23, 23⟩
def F.TAI_UTC_LEAP59 : Fld := ⟨R.TAI_UTC, 22, 22⟩
def F.TAI_UTC_TRACEABLE : Fld := ⟨R.TAI_UTC, 21, 21⟩
def F.TAI_UTC_SEQ : Fld := ⟨R.TAI_UTC, 7, 0⟩
def F.NOTE_SEQ_ID_LAST : Fld := ⟨R.NOTE_SEQ, 39, 32⟩
def F.NOTE_SEQ_ID_VALID : Fld := ⟨R.NOTE_SEQ, 31, 31⟩
def F.NOTE_SEQ_BC_LAST : Fld := ⟨R.NOTE_SEQ, 30, 23⟩
def F.NOTE_SEQ_BC_VALID : Fld := ⟨R.NOTE_SEQ, 22, 22⟩
def F.NOTE_SEQ_FP_LAST : Fld := ⟨R.NOTE_SEQ, 21, 14⟩
def F.NOTE_SEQ_FP_VALID : Fld := ⟨R.NOTE_SEQ, 13, 13⟩
def F.NOTE_SEQ_LAST_STATUS : Fld := ⟨R.NOTE_SEQ, 7, 0⟩
def F.NOTE_UP_STATUS_QUEUED : Fld := ⟨R.NOTE_UP_STATUS, 12, 8⟩
def F.NOTE_UP_STATUS_OLDEST_AGE : Fld := ⟨R.NOTE_UP_STATUS, 6, 0⟩
def F.WIN_STATUS_BUF_BUSY : Fld := ⟨R.WIN_STATUS, 15, 8⟩
def F.WIN_STATUS_NEXT_COUNT : Fld := ⟨R.WIN_STATUS, 1, 0⟩
def F.WIN_LAST_GRANT_GRANT : Fld := ⟨R.WIN_LAST_GRANT, 39, 0⟩
def F.WIN_CFG_LOCK_LEAD : Fld := ⟨R.WIN_CFG, 8, 0⟩
def F.CIPHER_CFG_FAIL_LOG2 : Fld := ⟨R.CIPHER_CFG, 23, 18⟩
def F.CIPHER_CFG_INVOC_LOG2 : Fld := ⟨R.CIPHER_CFG, 17, 12⟩
def F.CIPHER_CFG_UP_ENC : Fld := ⟨R.CIPHER_CFG, 7, 0⟩
def F.KEY_STATUS_GRP_HELD : Fld := ⟨R.KEY_STATUS, 39, 24⟩
def F.KEY_STATUS_TRM_HELD : Fld := ⟨R.KEY_STATUS, 23, 8⟩
def F.KEY_STATUS_DISABLED : Fld := ⟨R.KEY_STATUS, 4, 4⟩
def F.KEY_STATUS_WRAP : Fld := ⟨R.KEY_STATUS, 3, 3⟩
def F.KEY_STATUS_CONF : Fld := ⟨R.KEY_STATUS, 2, 2⟩
def F.KEY_STATUS_HOUSE : Fld := ⟨R.KEY_STATUS, 1, 1⟩
def F.KEY_STATUS_IDENT : Fld := ⟨R.KEY_STATUS, 0, 0⟩
def F.CIPHER_LOAD_MAX_BLOCKS : Fld := ⟨R.CIPHER_LOAD, 23, 12⟩
def F.CIPHER_LOAD_LAST_BLOCKS : Fld := ⟨R.CIPHER_LOAD, 11, 0⟩
def F.ENTROPY_STATUS_APT_CUTOFF : Fld := ⟨R.ENTROPY_STATUS, 23, 14⟩
def F.ENTROPY_STATUS_RCT_CUTOFF : Fld := ⟨R.ENTROPY_STATUS, 13, 8⟩
def F.ENTROPY_STATUS_STATE : Fld := ⟨R.ENTROPY_STATUS, 1, 0⟩
def F.DRBG_STATUS_SINCE_RESEED : Fld := ⟨R.DRBG_STATUS, 9, 2⟩
def F.DRBG_STATUS_STATE : Fld := ⟨R.DRBG_STATUS, 1, 0⟩
def F.SIG_STATUS_LAST_OP : Fld := ⟨R.SIG_STATUS, 15, 12⟩
def F.SIG_STATUS_LAST_STATUS : Fld := ⟨R.SIG_STATUS, 11, 8⟩
def F.SIG_STATUS_HASH_BUSY : Fld := ⟨R.SIG_STATUS, 1, 1⟩
def F.SIG_STATUS_CURVE_BUSY : Fld := ⟨R.SIG_STATUS, 0, 0⟩
def F.TH_PORT_CLASS_PORT (k : Nat) : Fld := ⟨R.TH_PORT_CLASS, 4 * k + 3, 4 * k⟩
def F.TH_CLASS_CFG_ENABLE (n : Nat) : Fld := ⟨R.TH_CLASS_CFG n, 39, 39⟩
def F.TH_CLASS_CFG_MODE (n : Nat) : Fld := ⟨R.TH_CLASS_CFG n, 38, 38⟩
def F.TH_CLASS_CFG_STAGES (n : Nat) : Fld := ⟨R.TH_CLASS_CFG n, 37, 36⟩
def F.TH_CLASS_CFG_TBL (n i : Nat) : Fld := ⟨R.TH_CLASS_CFG n, 28 + 2 * i + 1, 28 + 2 * i⟩
def F.TH_CLASS_CFG_PROF (n i : Nat) : Fld := ⟨R.TH_CLASS_CFG n, 12 + 4 * i + 3, 12 + 4 * i⟩
def F.TH_PROFILE_F0 (n : Nat) : Fld := ⟨R.TH_PROFILE n, 31, 24⟩
def F.TH_PROFILE_F1 (n : Nat) : Fld := ⟨R.TH_PROFILE n, 23, 16⟩
def F.TH_PROFILE_F2 (n : Nat) : Fld := ⟨R.TH_PROFILE n, 15, 8⟩
def F.TH_PROFILE_F3 (n : Nat) : Fld := ⟨R.TH_PROFILE n, 7, 0⟩
def F.TH_PUNT_LEARN_RATE : Fld := ⟨R.TH_PUNT_LEARN, 27, 16⟩
def F.TH_PUNT_LEARN_BURST : Fld := ⟨R.TH_PUNT_LEARN, 7, 0⟩
def F.TH_PUNT_FAULT_RATE : Fld := ⟨R.TH_PUNT_FAULT, 27, 16⟩
def F.TH_PUNT_FAULT_BURST : Fld := ⟨R.TH_PUNT_FAULT, 7, 0⟩
def F.TH_UPDATE_STATUS_OPS : Fld := ⟨R.TH_UPDATE_STATUS, 39, 30⟩
def F.TH_UPDATE_STATUS_STATE : Fld := ⟨R.TH_UPDATE_STATUS, 29, 28⟩
def F.TH_UPDATE_STATUS_T_TICK : Fld := ⟨R.TH_UPDATE_STATUS, 27, 22⟩
def F.TH_UPDATE_STATUS_T_CYCLE_LO : Fld := ⟨R.TH_UPDATE_STATUS, 21, 7⟩
def F.TH_TABLE_STATUS_ENTRIES (n : Nat) : Fld := ⟨R.TH_TABLE_STATUS n, 39, 25⟩
def F.TH_TABLE_STATUS_STASH (n : Nat) : Fld := ⟨R.TH_TABLE_STATUS n, 24, 19⟩
def F.TH_TABLE_STATUS_PENDING (n : Nat) : Fld := ⟨R.TH_TABLE_STATUS n, 18, 8⟩
def F.TH_TABLE_STATUS_MAX_KICKS (n : Nat) : Fld := ⟨R.TH_TABLE_STATUS n, 7, 0⟩
def F.TH_CFG_STATUS_PROFILE_TRUNC : Fld := ⟨R.TH_CFG_STATUS, 15, 0⟩
def F.GRAN_BANK_CFG_ROLE (k : Nat) : Fld := ⟨R.GRAN_BANK_CFG, 2 * k + 1, 2 * k⟩
def F.GRAN_STATUS_FREE : Fld := ⟨R.GRAN_STATUS, 39, 24⟩
def F.GRAN_STATUS_LOW : Fld := ⟨R.GRAN_STATUS, 23, 8⟩
def F.GRAN_STATUS_LOW_RELOAD : Fld := ⟨R.GRAN_STATUS, 7, 7⟩
def F.GRAN_STATUS_RES_SHORT : Fld := ⟨R.GRAN_STATUS, 4, 0⟩
def F.QM_OVERHEAD_SPAN_OVH : Fld := ⟨R.QM_OVERHEAD, 15, 8⟩
def F.QM_OVERHEAD_ETH_OVH : Fld := ⟨R.QM_OVERHEAD, 7, 0⟩
def F.QM_HOLDDOWN_CYCLES : Fld := ⟨R.QM_HOLDDOWN, 7, 0⟩
def F.QM_IND_SEL_GO : Fld := ⟨R.QM_IND_SEL, 39, 39⟩
def F.QM_IND_SEL_OBJ : Fld := ⟨R.QM_IND_SEL, 38, 36⟩
def F.QM_IND_SEL_INDEX : Fld := ⟨R.QM_IND_SEL, 35, 28⟩
def F.QM_IND_SEL_WRITE : Fld := ⟨R.QM_IND_SEL, 27, 27⟩
def F.QM_IND_SEL_ERR : Fld := ⟨R.QM_IND_SEL, 1, 1⟩
def F.QM_IND_SEL_BUSY : Fld := ⟨R.QM_IND_SEL, 0, 0⟩
def F.QM_IND_DATA0_DATA : Fld := ⟨R.QM_IND_DATA0, 39, 0⟩
def F.QM_IND_DATA1_DATA : Fld := ⟨R.QM_IND_DATA1, 39, 0⟩
def F.QM_IND_DATA2_DATA : Fld := ⟨R.QM_IND_DATA2, 39, 0⟩
def F.RUN_CTRL_RUN : Fld := ⟨R.RUN_CTRL, 0, 0⟩
def F.PCIE_CTRL_WIDTH : Fld := ⟨R.PCIE_CTRL, 8, 6⟩
def F.PCIE_CTRL_SPEED : Fld := ⟨R.PCIE_CTRL, 5, 4⟩
def F.PCIE_CTRL_LINK_UP : Fld := ⟨R.PCIE_CTRL, 3, 3⟩
def F.PCIE_CTRL_MAX_WIDTH : Fld := ⟨R.PCIE_CTRL, 2, 1⟩
def F.PCIE_CTRL_ENABLE : Fld := ⟨R.PCIE_CTRL, 0, 0⟩
def F.RING_MODE_MSG_RXQ : Fld := ⟨R.RING_MODE, 24, 21⟩
def F.RING_MODE_PUNT_RXQ : Fld := ⟨R.RING_MODE, 20, 17⟩
def F.RING_MODE_PUNT_EN : Fld := ⟨R.RING_MODE, 16, 16⟩
def F.RING_MODE_HB_TIMEOUT : Fld := ⟨R.RING_MODE, 15, 8⟩
def F.RING_MODE_POLL : Fld := ⟨R.RING_MODE, 2, 1⟩
def F.RING_MODE_HOSTLESS : Fld := ⟨R.RING_MODE, 0, 0⟩
def F.HRE_CTRL_HOST_ABSENT : Fld := ⟨R.HRE_CTRL, 3, 3⟩
def F.HRE_CTRL_STATE : Fld := ⟨R.HRE_CTRL, 2, 1⟩
def F.HRE_CTRL_START : Fld := ⟨R.HRE_CTRL, 0, 0⟩
def F.HRE_STATUS_LAST_ERR_CAUSE : Fld := ⟨R.HRE_STATUS, 11, 8⟩
def F.HRE_STATUS_LAST_ERR_RING : Fld := ⟨R.HRE_STATUS, 7, 0⟩
def F.HRE_STOPPED_EVT : Fld := ⟨R.HRE_STOPPED, 33, 33⟩
def F.HRE_STOPPED_CMD : Fld := ⟨R.HRE_STOPPED, 32, 32⟩
def F.HRE_STOPPED_RXP : Fld := ⟨R.HRE_STOPPED, 31, 16⟩
def F.HRE_STOPPED_TXQ : Fld := ⟨R.HRE_STOPPED, 15, 0⟩
def F.DB_PAGE_PAGE : Fld := ⟨R.DB_PAGE, 39, 0⟩
def F.ST_PAGE_PAGE : Fld := ⟨R.ST_PAGE, 39, 0⟩
def F.INT_CFG_INTX_PEND : Fld := ⟨R.INT_CFG, 20, 20⟩
def F.INT_CFG_EVT_VEC : Fld := ⟨R.INT_CFG, 19, 14⟩
def F.INT_CFG_CMD_VEC : Fld := ⟨R.INT_CFG, 13, 8⟩
def F.INT_CFG_HOLDOFF : Fld := ⟨R.INT_CFG, 7, 0⟩
def F.CMD_SEQ_VALID : Fld := ⟨R.CMD_SEQ, 16, 16⟩
def F.CMD_SEQ_LAST : Fld := ⟨R.CMD_SEQ, 15, 0⟩
def F.ETH_CFG_MAX_LEN (n : Nat) : Fld := ⟨R.ETH_CFG n, 19, 8⟩
def F.ETH_CFG_PTP_EN (n : Nat) : Fld := ⟨R.ETH_CFG n, 7, 7⟩
def F.ETH_CFG_CSUM_EN (n : Nat) : Fld := ⟨R.ETH_CFG n, 6, 6⟩
def F.ETH_CFG_PAUSE_HONOUR (n : Nat) : Fld := ⟨R.ETH_CFG n, 5, 5⟩
def F.ETH_CFG_AN_EN (n : Nat) : Fld := ⟨R.ETH_CFG n, 4, 4⟩
def F.ETH_CFG_MODE (n : Nat) : Fld := ⟨R.ETH_CFG n, 3, 1⟩
def F.ETH_CFG_ENABLE (n : Nat) : Fld := ⟨R.ETH_CFG n, 0, 0⟩
def F.ETH_STATUS_PARTNER (n : Nat) : Fld := ⟨R.ETH_STATUS n, 23, 8⟩
def F.ETH_STATUS_HOLDDOWN (n : Nat) : Fld := ⟨R.ETH_STATUS n, 7, 7⟩
def F.ETH_STATUS_MODE_BAD (n : Nat) : Fld := ⟨R.ETH_STATUS n, 6, 6⟩
def F.ETH_STATUS_PAUSED (n : Nat) : Fld := ⟨R.ETH_STATUS n, 5, 5⟩
def F.ETH_STATUS_AN_DONE (n : Nat) : Fld := ⟨R.ETH_STATUS n, 4, 4⟩
def F.ETH_STATUS_SPEED (n : Nat) : Fld := ⟨R.ETH_STATUS n, 2, 1⟩
def F.ETH_STATUS_LINK (n : Nat) : Fld := ⟨R.ETH_STATUS n, 0, 0⟩
def F.ETH_PTP_ADJ_TX_ADJ (n : Nat) : Fld := ⟨R.ETH_PTP_ADJ n, 39, 20⟩
def F.ETH_PTP_ADJ_RX_ADJ (n : Nat) : Fld := ⟨R.ETH_PTP_ADJ n, 19, 0⟩
def F.PTP_CFG_USE_DEFAULTS : Fld := ⟨R.PTP_CFG, 36, 36⟩
def F.PTP_CFG_HOLDOVER : Fld := ⟨R.PTP_CFG, 35, 28⟩
def F.PTP_CFG_PRIORITY2 : Fld := ⟨R.PTP_CFG, 27, 20⟩
def F.PTP_CFG_PRIORITY1 : Fld := ⟨R.PTP_CFG, 19, 12⟩
def F.PTP_CFG_DOMAIN : Fld := ⟨R.PTP_CFG, 11, 4⟩
def F.PTP_CFG_TRANSPORT : Fld := ⟨R.PTP_CFG, 3, 2⟩
def F.PTP_CFG_PROFILE : Fld := ⟨R.PTP_CFG, 1, 0⟩
def F.PTP_INTERVALS_RECEIPT_TIMEOUT : Fld := ⟨R.PTP_INTERVALS, 35, 32⟩
def F.PTP_INTERVALS_LOG_PDREQ : Fld := ⟨R.PTP_INTERVALS, 31, 24⟩
def F.PTP_INTERVALS_LOG_DREQ : Fld := ⟨R.PTP_INTERVALS, 23, 16⟩
def F.PTP_INTERVALS_LOG_SYNC : Fld := ⟨R.PTP_INTERVALS, 15, 8⟩
def F.PTP_INTERVALS_LOG_ANNOUNCE : Fld := ⟨R.PTP_INTERVALS, 7, 0⟩
def F.PTP_STATUS_PEER_DELAY : Fld := ⟨R.PTP_STATUS, 39, 26⟩
def F.PTP_STATUS_PORT_STATE (k : Nat) : Fld := ⟨R.PTP_STATUS, 3 * k + 10, 3 * k + 8⟩
def F.PTP_STATUS_CLOCK_CLASS : Fld := ⟨R.PTP_STATUS, 7, 0⟩
def F.SHOW_CFG_CONCEAL_FADE : Fld := ⟨R.SHOW_CFG, 15, 8⟩
def F.SHOW_CFG_CONCEAL_HOLD : Fld := ⟨R.SHOW_CFG, 7, 0⟩
def F.SHOW_STATUS_CFG_BAD : Fld := ⟨R.SHOW_STATUS, 23, 0⟩
def F.TDM_CFG_IN_QUEUE (n : Nat) : Fld := ⟨R.TDM_CFG n, 19, 12⟩
def F.TDM_CFG_HA_POLICY (n : Nat) : Fld := ⟨R.TDM_CFG n, 11, 11⟩
def F.TDM_CFG_SRC (n : Nat) : Fld := ⟨R.TDM_CFG n, 10, 10⟩
def F.TDM_CFG_FS_DELAY (n : Nat) : Fld := ⟨R.TDM_CFG n, 9, 9⟩
def F.TDM_CFG_FORMAT (n : Nat) : Fld := ⟨R.TDM_CFG n, 8, 8⟩
def F.TDM_CFG_WIDTH (n : Nat) : Fld := ⟨R.TDM_CFG n, 7, 6⟩
def F.TDM_CFG_SLOTS (n : Nat) : Fld := ⟨R.TDM_CFG n, 5, 4⟩
def F.TDM_CFG_RATE (n : Nat) : Fld := ⟨R.TDM_CFG n, 3, 3⟩
def F.TDM_CFG_IN_EN (n : Nat) : Fld := ⟨R.TDM_CFG n, 2, 2⟩
def F.TDM_CFG_OUT_EN (n : Nat) : Fld := ⟨R.TDM_CFG n, 1, 1⟩
def F.DMX_CFG_IN_QUEUE (n : Nat) : Fld := ⟨R.DMX_CFG n, 39, 32⟩
def F.DMX_CFG_PERIOD (n : Nat) : Fld := ⟨R.DMX_CFG n, 31, 16⟩
def F.DMX_CFG_SLOTS (n : Nat) : Fld := ⟨R.DMX_CFG n, 15, 6⟩
def F.DMX_CFG_RDM_EN (n : Nat) : Fld := ⟨R.DMX_CFG n, 5, 5⟩
def F.DMX_CFG_LOSS_ACT (n : Nat) : Fld := ⟨R.DMX_CFG n, 4, 4⟩
def F.DMX_CFG_HA_POLICY (n : Nat) : Fld := ⟨R.DMX_CFG n, 3, 3⟩
def F.DMX_CFG_SRC (n : Nat) : Fld := ⟨R.DMX_CFG n, 2, 2⟩
def F.DMX_CFG_IN (n : Nat) : Fld := ⟨R.DMX_CFG n, 1, 1⟩
def F.DMX_CFG_ENABLE (n : Nat) : Fld := ⟨R.DMX_CFG n, 0, 0⟩
def F.DMX_TIMING_RDM_QUEUE : Fld := ⟨R.DMX_TIMING, 39, 32⟩
def F.DMX_TIMING_LOSS : Fld := ⟨R.DMX_TIMING, 31, 20⟩
def F.DMX_TIMING_MAB : Fld := ⟨R.DMX_TIMING, 19, 10⟩
def F.DMX_TIMING_BREAK : Fld := ⟨R.DMX_TIMING, 9, 0⟩
def F.LTC_CFG_FREEWHEEL (n : Nat) : Fld := ⟨R.LTC_CFG n, 28, 21⟩
def F.LTC_CFG_IN_QUEUE (n : Nat) : Fld := ⟨R.LTC_CFG n, 20, 13⟩
def F.LTC_CFG_HA_POLICY (n : Nat) : Fld := ⟨R.LTC_CFG n, 12, 12⟩
def F.LTC_CFG_SRC (n : Nat) : Fld := ⟨R.LTC_CFG n, 11, 10⟩
def F.LTC_CFG_RATE (n : Nat) : Fld := ⟨R.LTC_CFG n, 9, 8⟩
def F.LTC_CFG_IN_EN (n : Nat) : Fld := ⟨R.LTC_CFG n, 1, 1⟩
def F.LTC_CFG_OUT_EN (n : Nat) : Fld := ⟨R.LTC_CFG n, 0, 0⟩
def F.LTC_START_HH (n : Nat) : Fld := ⟨R.LTC_START n, 21, 17⟩
def F.LTC_START_MM (n : Nat) : Fld := ⟨R.LTC_START n, 16, 11⟩
def F.LTC_START_SS (n : Nat) : Fld := ⟨R.LTC_START n, 10, 5⟩
def F.LTC_START_FF (n : Nat) : Fld := ⟨R.LTC_START n, 4, 0⟩
def F.LTC_ORIGIN_ORIGIN (n : Nat) : Fld := ⟨R.LTC_ORIGIN n, 39, 0⟩
def F.LTC_RX_VALID (n : Nat) : Fld := ⟨R.LTC_RX n, 39, 39⟩
def F.LTC_RX_REVERSE (n : Nat) : Fld := ⟨R.LTC_RX n, 38, 38⟩
def F.LTC_RX_RATE (n : Nat) : Fld := ⟨R.LTC_RX n, 37, 35⟩
def F.LTC_RX_HHMMSSFF (n : Nat) : Fld := ⟨R.LTC_RX n, 21, 0⟩
def F.MIDI_CFG_IN_QUEUE (n : Nat) : Fld := ⟨R.MIDI_CFG n, 11, 4⟩
def F.MIDI_CFG_HA_POLICY (n : Nat) : Fld := ⟨R.MIDI_CFG n, 3, 3⟩
def F.MIDI_CFG_SRC (n : Nat) : Fld := ⟨R.MIDI_CFG n, 2, 2⟩
def F.MIDI_CFG_IN_EN (n : Nat) : Fld := ⟨R.MIDI_CFG n, 1, 1⟩
def F.MIDI_CFG_OUT_EN (n : Nat) : Fld := ⟨R.MIDI_CFG n, 0, 0⟩
def F.CUE_CFG_DIR : Fld := ⟨R.CUE_CFG, 39, 16⟩
def F.CUE_CFG_DEBOUNCE : Fld := ⟨R.CUE_CFG, 15, 8⟩
def F.CUE_CFG_IN_QUEUE : Fld := ⟨R.CUE_CFG, 7, 0⟩
def F.CUE_OUT_CFG_PULSE : Fld := ⟨R.CUE_OUT_CFG, 9, 2⟩
def F.CUE_OUT_CFG_HA_POLICY : Fld := ⟨R.CUE_OUT_CFG, 1, 1⟩
def F.CUE_STATE_LEVEL : Fld := ⟨R.CUE_STATE, 39, 16⟩
def F.EXPRESS_MAP_VALID (n : Nat) : Fld := ⟨R.EXPRESS_MAP n, 39, 39⟩
def F.EXPRESS_MAP_CHANNEL (n : Nat) : Fld := ⟨R.EXPRESS_MAP n, 38, 31⟩
def F.EXPRESS_MAP_ACTION (n : Nat) : Fld := ⟨R.EXPRESS_MAP n, 30, 29⟩
def F.EXPRESS_MAP_TARGET (n : Nat) : Fld := ⟨R.EXPRESS_MAP n, 28, 24⟩
def F.GEN_CFG_NUM (n : Nat) : Fld := ⟨R.GEN_CFG n, 39, 24⟩
def F.GEN_CFG_DEN (n : Nat) : Fld := ⟨R.GEN_CFG n, 23, 8⟩
def F.GEN_CFG_POLARITY (n : Nat) : Fld := ⟨R.GEN_CFG n, 1, 1⟩
def F.GEN_CFG_ENABLE (n : Nat) : Fld := ⟨R.GEN_CFG n, 0, 0⟩
def F.GEN_PULSE_OFFSET (n : Nat) : Fld := ⟨R.GEN_PULSE n, 39, 10⟩
def F.GEN_PULSE_WIDTH (n : Nat) : Fld := ⟨R.GEN_PULSE n, 9, 0⟩
def F.AX_CFG_IN_QUEUE (n : Nat) : Fld := ⟨R.AX_CFG n, 39, 32⟩
def F.AX_CFG_CAP_DIV (n : Nat) : Fld := ⟨R.AX_CFG n, 31, 24⟩
def F.AX_CFG_ENC_FILT (n : Nat) : Fld := ⟨R.AX_CFG n, 23, 20⟩
def F.AX_CFG_HOLD_EN (n : Nat) : Fld := ⟨R.AX_CFG n, 19, 19⟩
def F.AX_CFG_SOFT_LIM_EN (n : Nat) : Fld := ⟨R.AX_CFG n, 18, 18⟩
def F.AX_CFG_LIM_EN (n : Nat) : Fld := ⟨R.AX_CFG n, 17, 17⟩
def F.AX_CFG_LIM_POL (n : Nat) : Fld := ⟨R.AX_CFG n, 16, 16⟩
def F.AX_CFG_FLT_POL (n : Nat) : Fld := ⟨R.AX_CFG n, 15, 15⟩
def F.AX_CFG_ENC_INV (n : Nat) : Fld := ⟨R.AX_CFG n, 13, 13⟩
def F.AX_CFG_ENC_EN (n : Nat) : Fld := ⟨R.AX_CFG n, 12, 12⟩
def F.AX_CFG_OUT_MODE (n : Nat) : Fld := ⟨R.AX_CFG n, 9, 8⟩
def F.AX_TIMING_STEP_W (n : Nat) : Fld := ⟨R.AX_TIMING n, 39, 32⟩
def F.AX_TIMING_DIR_SETUP (n : Nat) : Fld := ⟨R.AX_TIMING n, 31, 24⟩
def F.AX_TIMING_EN_DELAY (n : Nat) : Fld := ⟨R.AX_TIMING n, 23, 16⟩
def F.AX_TIMING_BRAKE_REL (n : Nat) : Fld := ⟨R.AX_TIMING n, 15, 8⟩
def F.AX_TIMING_BRAKE_SET (n : Nat) : Fld := ⟨R.AX_TIMING n, 7, 0⟩
def F.AX_VMAX_VALUE (n : Nat) : Fld := ⟨R.AX_VMAX n, 31, 0⟩
def F.AX_AMAX_VALUE (n : Nat) : Fld := ⟨R.AX_AMAX n, 31, 0⟩
def F.AX_PWM_FS_VALUE (n : Nat) : Fld := ⟨R.AX_PWM_FS n, 31, 0⟩
def F.AX_RD_CFG_RD_DECEL (n : Nat) : Fld := ⟨R.AX_RD_CFG n, 39, 8⟩
def F.AX_RD_CFG_SP_LOSS (n : Nat) : Fld := ⟨R.AX_RD_CFG n, 7, 0⟩
def F.AX_RD_LIMIT_FE_MAX (n : Nat) : Fld := ⟨R.AX_RD_LIMIT n, 39, 16⟩
def F.AX_RD_LIMIT_RD_MAX (n : Nat) : Fld := ⟨R.AX_RD_LIMIT n, 11, 0⟩
def F.AX_PWM_PERIOD (n : Nat) : Fld := ⟨R.AX_PWM n, 39, 24⟩
def F.AX_PWM_KP (n : Nat) : Fld := ⟨R.AX_PWM n, 23, 8⟩
def F.AX_SOFT_MIN_POS (n : Nat) : Fld := ⟨R.AX_SOFT_MIN n, 39, 0⟩
def F.AX_SOFT_MAX_POS (n : Nat) : Fld := ⟨R.AX_SOFT_MAX n, 39, 0⟩
def F.AX_POS_CMD_POS (n : Nat) : Fld := ⟨R.AX_POS_CMD n, 39, 0⟩
def F.AX_POS_ENC_POS (n : Nat) : Fld := ⟨R.AX_POS_ENC n, 39, 0⟩
def F.AX_INDEX_POS (n : Nat) : Fld := ⟨R.AX_INDEX n, 39, 0⟩
def F.AX_STATUS_STATE (n : Nat) : Fld := ⟨R.AX_STATUS n, 39, 36⟩
def F.AX_STATUS_CAUSE (n : Nat) : Fld := ⟨R.AX_STATUS n, 35, 32⟩
def F.AX_STATUS_LOSS_RUN (n : Nat) : Fld := ⟨R.AX_STATUS n, 31, 24⟩
def F.AX_STATUS_CFG_BAD (n : Nat) : Fld := ⟨R.AX_STATUS n, 7, 7⟩
def F.AX_STATUS_INDEX_SEEN (n : Nat) : Fld := ⟨R.AX_STATUS n, 6, 6⟩
def F.AX_STATUS_HOLD (n : Nat) : Fld := ⟨R.AX_STATUS n, 5, 5⟩
def F.AX_STATUS_FLT (n : Nat) : Fld := ⟨R.AX_STATUS n, 4, 4⟩
def F.AX_STATUS_SOFT (n : Nat) : Fld := ⟨R.AX_STATUS n, 3, 3⟩
def F.AX_STATUS_LIM_N (n : Nat) : Fld := ⟨R.AX_STATUS n, 2, 2⟩
def F.AX_STATUS_LIM_P (n : Nat) : Fld := ⟨R.AX_STATUS n, 1, 1⟩
def F.AX_STATUS_BRAKE (n : Nat) : Fld := ⟨R.AX_STATUS n, 0, 0⟩
def F.MOT_HOLD_LEVEL : Fld := ⟨R.MOT_HOLD, 8, 8⟩
def F.MOT_HOLD_HOLD_FILT : Fld := ⟨R.MOT_HOLD, 7, 0⟩
def F.AFE_CFG_IN_QUEUE : Fld := ⟨R.AFE_CFG, 15, 8⟩
def F.AFE_CFG_AUTOCAL : Fld := ⟨R.AFE_CFG, 2, 2⟩
def F.AFE_CFG_SEQ_EN : Fld := ⟨R.AFE_CFG, 1, 1⟩
def F.AFE_CFG_COMPLIANCE : Fld := ⟨R.AFE_CFG, 0, 0⟩
def F.AFE_STATUS_PFO_BAD : Fld := ⟨R.AFE_STATUS, 27, 24⟩
def F.AFE_STATUS_CUR_SLOT : Fld := ⟨R.AFE_STATUS, 23, 20⟩
def F.AFE_STATUS_HALF : Fld := ⟨R.AFE_STATUS, 19, 19⟩
def F.AFE_STATUS_CAL_BUSY : Fld := ⟨R.AFE_STATUS, 18, 18⟩
def F.AFE_STATUS_RUNNING : Fld := ⟨R.AFE_STATUS, 17, 17⟩
def F.AFE_STATUS_CFG_BAD : Fld := ⟨R.AFE_STATUS, 15, 0⟩
def F.AFE_SLOT_CFG_COUNT (n : Nat) : Fld := ⟨R.AFE_SLOT_CFG n, 39, 32⟩
def F.AFE_SLOT_CFG_D (n : Nat) : Fld := ⟨R.AFE_SLOT_CFG n, 31, 19⟩
def F.AFE_SLOT_CFG_FILT (n : Nat) : Fld := ⟨R.AFE_SLOT_CFG n, 18, 18⟩
def F.AFE_SLOT_CFG_MODE (n : Nat) : Fld := ⟨R.AFE_SLOT_CFG n, 17, 17⟩
def F.AFE_SLOT_CFG_GAIN (n : Nat) : Fld := ⟨R.AFE_SLOT_CFG n, 16, 14⟩
def F.AFE_SLOT_CFG_RF (n : Nat) : Fld := ⟨R.AFE_SLOT_CFG n, 13, 11⟩
def F.AFE_SLOT_CFG_LIN_EN (n : Nat) : Fld := ⟨R.AFE_SLOT_CFG n, 10, 10⟩
def F.AFE_SLOT_CFG_LIN_SET (n : Nat) : Fld := ⟨R.AFE_SLOT_CFG n, 9, 7⟩
def F.AFE_SLOT_CFG_SWAP (n : Nat) : Fld := ⟨R.AFE_SLOT_CFG n, 6, 6⟩
def F.AFE_SLOT_PINS_POS (n : Nat) : Fld := ⟨R.AFE_SLOT_PINS n, 39, 35⟩
def F.AFE_SLOT_PINS_NEG (n : Nat) : Fld := ⟨R.AFE_SLOT_PINS n, 34, 30⟩
def F.AFE_SLOT_PINS_EXA (n : Nat) : Fld := ⟨R.AFE_SLOT_PINS n, 29, 25⟩
def F.AFE_SLOT_PINS_EXB (n : Nat) : Fld := ⟨R.AFE_SLOT_PINS n, 24, 20⟩
def F.AFE_SLOT_PINS_GND (n : Nat) : Fld := ⟨R.AFE_SLOT_PINS n, 19, 15⟩
def F.AFE_SLOT_PINS_IEXA (n : Nat) : Fld := ⟨R.AFE_SLOT_PINS n, 14, 12⟩
def F.AFE_SLOT_PINS_IEXB (n : Nat) : Fld := ⟨R.AFE_SLOT_PINS n, 11, 9⟩
def F.AFE_SLOT_PINS_TSRC (n : Nat) : Fld := ⟨R.AFE_SLOT_PINS n, 8, 4⟩
def F.AFE_LIN_C (n : Nat) : Fld := ⟨R.AFE_LIN n, 31, 0⟩
def F.AFE_CAL_OFS (n : Nat) : Fld := ⟨R.AFE_CAL n, 39, 24⟩
def F.AFE_CAL_GCAL (n : Nat) : Fld := ⟨R.AFE_CAL n, 23, 0⟩
def F.AFE_CAL_CTRL_BUSY : Fld := ⟨R.AFE_CAL_CTRL, 17, 17⟩
def F.AFE_CAL_CTRL_START : Fld := ⟨R.AFE_CAL_CTRL, 16, 16⟩
def F.AFE_CAL_CTRL_SETTINGS : Fld := ⟨R.AFE_CAL_CTRL, 12, 0⟩
def F.AFE_DIE_TEMP_TEMP : Fld := ⟨R.AFE_DIE_TEMP, 31, 0⟩
def F.AFE_RESULT_WORD (n : Nat) : Fld := ⟨R.AFE_RESULT n, 39, 0⟩
def F.PFO_CFG_MODE (n : Nat) : Fld := ⟨R.PFO_CFG n, 39, 38⟩
def F.PFO_CFG_SRC (n : Nat) : Fld := ⟨R.PFO_CFG n, 37, 34⟩
def F.PFO_CFG_FAULT_ACT (n : Nat) : Fld := ⟨R.PFO_CFG n, 33, 33⟩
def F.PFO_CFG_HOLD (n : Nat) : Fld := ⟨R.PFO_CFG n, 31, 20⟩
def F.PFO_CFG_PERIOD (n : Nat) : Fld := ⟨R.PFO_CFG n, 19, 0⟩
def F.PFO_Y0_VALUE (n : Nat) : Fld := ⟨R.PFO_Y0 n, 31, 0⟩
def F.PFO_Y1_VALUE (n : Nat) : Fld := ⟨R.PFO_Y1 n, 31, 0⟩
def F.PFO_OUT0_VALUE (n : Nat) : Fld := ⟨R.PFO_OUT0 n, 31, 0⟩
def F.PFO_OUT1_VALUE (n : Nat) : Fld := ⟨R.PFO_OUT1 n, 31, 0⟩
def F.PWR_PENDING_T : Fld := ⟨R.PWR_PENDING, 39, 0⟩
def F.WAKE_CFG_LANE_EN : Fld := ⟨R.WAKE_CFG, 23, 18⟩
def F.WAKE_CFG_SPAN_EN : Fld := ⟨R.WAKE_CFG, 17, 17⟩
def F.WAKE_CFG_TIMER_EN : Fld := ⟨R.WAKE_CFG, 16, 16⟩
def F.WAKE_CFG_ZWD_EN : Fld := ⟨R.WAKE_CFG, 15, 15⟩
def F.WAKE_CFG_CUE_EN : Fld := ⟨R.WAKE_CFG, 11, 8⟩
def F.WAKE_CFG_CUE_CLOSE : Fld := ⟨R.WAKE_CFG, 7, 4⟩
def F.WAKE_MASK_MASK : Fld := ⟨R.WAKE_MASK, 23, 0⟩
def F.WAKE_STATUS_RESTING : Fld := ⟨R.WAKE_STATUS, 11, 11⟩
def F.WAKE_STATUS_DETAIL : Fld := ⟨R.WAKE_STATUS, 10, 4⟩
def F.WAKE_STATUS_SOURCE : Fld := ⟨R.WAKE_STATUS, 3, 0⟩
def F.KTIMER_CFG_ENABLE : Fld := ⟨R.KTIMER_CFG, 32, 32⟩
def F.KTIMER_CFG_MS : Fld := ⟨R.KTIMER_CFG, 23, 0⟩
def F.KTIMER_STATUS_REMAIN : Fld := ⟨R.KTIMER_STATUS, 23, 0⟩
def F.KEEPER_RC_HZ : Fld := ⟨R.KEEPER_RC, 23, 0⟩
def F.ZWD_ADDR_ADDR : Fld := ⟨R.ZWD_ADDR, 6, 0⟩
def F.ZWD_CFG_PEC_REQ : Fld := ⟨R.ZWD_CFG, 8, 8⟩
def F.ZWD_CFG_ALERT_EN : Fld := ⟨R.ZWD_CFG, 5, 0⟩
def F.ZWD_ALERT_ACKED : Fld := ⟨R.ZWD_ALERT, 6, 6⟩
def F.ZWD_ALERT_STATUS : Fld := ⟨R.ZWD_ALERT, 5, 0⟩
def F.ZWD_STATUS_MBOX_BUSY : Fld := ⟨R.ZWD_STATUS, 15, 15⟩
def F.ZWD_STATUS_MBOX_RESULT : Fld := ⟨R.ZWD_STATUS, 14, 8⟩
def F.ZWD_STATUS_LAST_STATUS : Fld := ⟨R.ZWD_STATUS, 7, 0⟩
def F.GLEAN_CFG_TRIAL_LIMIT : Fld := ⟨R.GLEAN_CFG, 24, 1⟩
def F.GLEAN_CFG_ENABLE : Fld := ⟨R.GLEAN_CFG, 0, 0⟩
def F.GLEAN_STATUS_CAR_ID : Fld := ⟨R.GLEAN_STATUS, 39, 32⟩
def F.GLEAN_STATUS_STATE : Fld := ⟨R.GLEAN_STATUS, 31, 28⟩
def F.GLEAN_STATUS_HOST : Fld := ⟨R.GLEAN_STATUS, 26, 26⟩
def F.GLEAN_STATUS_PIECES : Fld := ⟨R.GLEAN_STATUS, 25, 8⟩
def F.IMAGE_RUNNING_TRIAL : Fld := ⟨R.IMAGE_RUNNING, 32, 32⟩
def F.IMAGE_RUNNING_VERSION : Fld := ⟨R.IMAGE_RUNNING, 31, 0⟩
def F.IMAGE_STAGED_TRIAL : Fld := ⟨R.IMAGE_STAGED, 32, 32⟩
def F.IMAGE_STAGED_VERSION : Fld := ⟨R.IMAGE_STAGED, 31, 0⟩
def F.FLASH_INFO_DENSITY_LOG2 : Fld := ⟨R.FLASH_INFO, 15, 8⟩
def F.FLASH_INFO_ADDR4 : Fld := ⟨R.FLASH_INFO, 1, 1⟩
def F.FLASH_INFO_LAYOUT_OK : Fld := ⟨R.FLASH_INFO, 0, 0⟩
def F.SETTINGS_STATUS_GEN : Fld := ⟨R.SETTINGS_STATUS, 39, 24⟩
def F.SETTINGS_STATUS_USED : Fld := ⟨R.SETTINGS_STATUS, 23, 8⟩
def F.SETTINGS_STATUS_BANK : Fld := ⟨R.SETTINGS_STATUS, 1, 1⟩
def F.SETTINGS_STATUS_VALID : Fld := ⟨R.SETTINGS_STATUS, 0, 0⟩
def F.LANE_PRBS_CFG_DURATION (n : Nat) : Fld := ⟨R.LANE_PRBS_CFG n, 39, 24⟩
def F.LANE_PRBS_CFG_FIXED10 (n : Nat) : Fld := ⟨R.LANE_PRBS_CFG n, 17, 8⟩
def F.LANE_PRBS_CFG_PATTERN (n : Nat) : Fld := ⟨R.LANE_PRBS_CFG n, 6, 4⟩
def F.LANE_PRBS_CFG_INVERT (n : Nat) : Fld := ⟨R.LANE_PRBS_CFG n, 3, 3⟩
def F.LANE_PRBS_CFG_CHK_EN (n : Nat) : Fld := ⟨R.LANE_PRBS_CFG n, 2, 2⟩
def F.LANE_PRBS_CFG_GEN_EN (n : Nat) : Fld := ⟨R.LANE_PRBS_CFG n, 1, 1⟩
def F.LANE_PRBS_CFG_RUN (n : Nat) : Fld := ⟨R.LANE_PRBS_CFG n, 0, 0⟩
def F.LANE_PRBS_STATUS_ELAPSED (n : Nat) : Fld := ⟨R.LANE_PRBS_STATUS n, 27, 12⟩
def F.LANE_PRBS_STATUS_END_CAUSE (n : Nat) : Fld := ⟨R.LANE_PRBS_STATUS n, 11, 8⟩
def F.LANE_PRBS_STATUS_CAUSE (n : Nat) : Fld := ⟨R.LANE_PRBS_STATUS n, 7, 4⟩
def F.LANE_PRBS_STATUS_REFUSED (n : Nat) : Fld := ⟨R.LANE_PRBS_STATUS n, 3, 3⟩
def F.LANE_PRBS_STATUS_SYNC_LOSS (n : Nat) : Fld := ⟨R.LANE_PRBS_STATUS n, 2, 2⟩
def F.LANE_PRBS_STATUS_LOCKED (n : Nat) : Fld := ⟨R.LANE_PRBS_STATUS n, 1, 1⟩
def F.LANE_PRBS_STATUS_RUNNING (n : Nat) : Fld := ⟨R.LANE_PRBS_STATUS n, 0, 0⟩
def F.LANE_PRBS_BITS_COUNT (n : Nat) : Fld := ⟨R.LANE_PRBS_BITS n, 39, 0⟩
def F.LANE_PRBS_ERR_COUNT (n : Nat) : Fld := ⟨R.LANE_PRBS_ERR n, 39, 0⟩
def F.LANE_INJECT_RATE (n : Nat) : Fld := ⟨R.LANE_INJECT n, 15, 8⟩
def F.LANE_INJECT_MODE (n : Nat) : Fld := ⟨R.LANE_INJECT n, 7, 6⟩
def F.LANE_INJECT_COUNT (n : Nat) : Fld := ⟨R.LANE_INJECT n, 5, 0⟩
def F.LANE_LOOP_MODE (n : Nat) : Fld := ⟨R.LANE_LOOP n, 1, 0⟩
def F.LEDGER_GRP_SAT_SAT (n : Nat) : Fld := ⟨R.LEDGER_GRP_SAT n, 29, 0⟩
def F.LEDGER_SUMMARY_HARVEST_SEQ : Fld := ⟨R.LEDGER_SUMMARY, 39, 16⟩
def F.LEDGER_SUMMARY_SAT : Fld := ⟨R.LEDGER_SUMMARY, 15, 0⟩
def F.LEDGER_CLEAR_PENDING : Fld := ⟨R.LEDGER_CLEAR, 17, 17⟩
def F.LEDGER_CLEAR_ON_HARVEST : Fld := ⟨R.LEDGER_CLEAR, 16, 16⟩
def F.LEDGER_CLEAR_GROUPS : Fld := ⟨R.LEDGER_CLEAR, 15, 0⟩
def F.CMD_BASE_PAGE : Fld := ⟨R.CMD_BASE, 39, 0⟩
def F.CMD_CFG_VECTOR : Fld := ⟨R.CMD_CFG, 12, 7⟩
def F.CMD_CFG_IRQ_EN : Fld := ⟨R.CMD_CFG, 6, 6⟩
def F.CMD_CFG_LOG2SIZE : Fld := ⟨R.CMD_CFG, 5, 1⟩
def F.CMD_CFG_ENABLE : Fld := ⟨R.CMD_CFG, 0, 0⟩
def F.EVT_BASE_PAGE : Fld := ⟨R.EVT_BASE, 39, 0⟩
def F.EVT_CFG_VECTOR : Fld := ⟨R.EVT_CFG, 12, 7⟩
def F.EVT_CFG_IRQ_EN : Fld := ⟨R.EVT_CFG, 6, 6⟩
def F.EVT_CFG_LOG2SIZE : Fld := ⟨R.EVT_CFG, 5, 1⟩
def F.EVT_CFG_ENABLE : Fld := ⟨R.EVT_CFG, 0, 0⟩
def F.TXQ_BASE_PAGE (n : Nat) : Fld := ⟨R.TXQ_BASE n, 39, 0⟩
def F.TXQ_CFG_VECTOR (n : Nat) : Fld := ⟨R.TXQ_CFG n, 12, 7⟩
def F.TXQ_CFG_IRQ_EN (n : Nat) : Fld := ⟨R.TXQ_CFG n, 6, 6⟩
def F.TXQ_CFG_LOG2SIZE (n : Nat) : Fld := ⟨R.TXQ_CFG n, 5, 1⟩
def F.TXQ_CFG_ENABLE (n : Nat) : Fld := ⟨R.TXQ_CFG n, 0, 0⟩
def F.RXQ_BASE_PAGE (n : Nat) : Fld := ⟨R.RXQ_BASE n, 39, 0⟩
def F.RXQ_CFG_VECTOR (n : Nat) : Fld := ⟨R.RXQ_CFG n, 12, 7⟩
def F.RXQ_CFG_IRQ_EN (n : Nat) : Fld := ⟨R.RXQ_CFG n, 6, 6⟩
def F.RXQ_CFG_LOG2SIZE (n : Nat) : Fld := ⟨R.RXQ_CFG n, 5, 1⟩
def F.RXQ_CFG_ENABLE (n : Nat) : Fld := ⟨R.RXQ_CFG n, 0, 0⟩
def F.FL_BASE_PAGE (n : Nat) : Fld := ⟨R.FL_BASE n, 39, 0⟩
def F.FL_CFG_VECTOR (n : Nat) : Fld := ⟨R.FL_CFG n, 12, 7⟩
def F.FL_CFG_IRQ_EN (n : Nat) : Fld := ⟨R.FL_CFG n, 6, 6⟩
def F.FL_CFG_LOG2SIZE (n : Nat) : Fld := ⟨R.FL_CFG n, 5, 1⟩
def F.FL_CFG_ENABLE (n : Nat) : Fld := ⟨R.FL_CFG n, 0, 0⟩
def F.COUNTER_COUNT (n : Nat) : Fld := ⟨R.COUNTER n, 39, 0⟩
def F.PORT0_COUNTER_COUNT (n : Nat) : Fld := ⟨R.PORT0_COUNTER n, 39, 0⟩
def F.PORT1_COUNTER_COUNT (n : Nat) : Fld := ⟨R.PORT1_COUNTER n, 39, 0⟩
def F.PORT2_COUNTER_COUNT (n : Nat) : Fld := ⟨R.PORT2_COUNTER n, 39, 0⟩
def F.PORT3_COUNTER_COUNT (n : Nat) : Fld := ⟨R.PORT3_COUNTER n, 39, 0⟩
def F.PORT4_COUNTER_COUNT (n : Nat) : Fld := ⟨R.PORT4_COUNTER n, 39, 0⟩
def F.PORT5_COUNTER_COUNT (n : Nat) : Fld := ⟨R.PORT5_COUNTER n, 39, 0⟩
def F.PWR_TARGET_PORT_HELD (n : Nat) : Fld := ⟨R.PWR_TARGET n, 29, 24⟩
def F.PWR_TARGET_PORT_OFF (n : Nat) : Fld := ⟨R.PWR_TARGET n, 21, 16⟩
def F.PWR_TARGET_HELD (n : Nat) : Fld := ⟨R.PWR_TARGET n, 8, 8⟩
def F.PWR_TARGET_STATE (n : Nat) : Fld := ⟨R.PWR_TARGET n, 5, 4⟩
def F.PWR_TARGET_TARGET (n : Nat) : Fld := ⟨R.PWR_TARGET n, 1, 0⟩

/-! ### The table -/

/-- Part 0 of the register table: DEVICE_IDENT to SPAN_WAKE. -/
def regRows0 : List RegRow := [
  ⟨0x0, 0x0, 1, 0x5B1F402030, 0x0, 0x0, 0x0, 0x0, false⟩,  -- DEVICE_IDENT
  ⟨0x1700, 0x0, 1, 0x0, 0x0, 0x0, 0x0, 0x0, false⟩,  -- TIME_NOW
  ⟨0x1708, 0x0, 1, 0x0, 0x0, 0x0, 0x0, 0x0, false⟩,  -- TIME_EPOCH_SNAP
  ⟨0x1710, 0x0, 1, 0x0, 0x0, 0x0, 0x0, 0x0, false⟩,  -- TIME_STATUS
  ⟨0x1718, 0x0, 1, 0x0, 0x0, 0x0, 0x1FF, 0x0, false⟩,  -- TICK_OVERRUN_STATUS
  ⟨0x8, 0x0, 1, 0x0, 0x0, 0x0, 0x0, 0x0, false⟩,  -- STRAP_LATCH
  ⟨0x10, 0x0, 1, 0x1, 0x0, 0x0, 0x0, 0x0, false⟩,  -- TERM_STATE
  ⟨0x18, 0x0, 1, 0x2, 0x0, 0x0, 0xFE, 0x0, false⟩,  -- RESET_CAUSE
  ⟨0x20, 0x0, 1, 0x0, 0x0, 0x0, 0x0, 0x0, false⟩,  -- SELFTEST_RESULT
  ⟨0x28, 0x0, 1, 0x0, 0x0, 0x0, 0x0, 0x0, false⟩,  -- SELFTEST_FLAGS
  ⟨0x30, 0x0, 1, 0x0, 0x0, 0x0, 0x0, 0xFFFF, false⟩,  -- SOFT_RESET
  ⟨0x38, 0x0, 1, 0x0, 0x0, 0x0, 0x0, 0x0, false⟩,  -- BOOT_STATUS
  ⟨0x40, 0x0, 1, 0x0, 0xFFFFFFFFFF, 0x0, 0x0, 0x0, false⟩,  -- BOOT_LOAD_ADDR
  ⟨0x48, 0x0, 1, 0x0, 0xFFF, 0x0, 0x0, 0x0, false⟩,  -- BOOT_LOAD_CTRL
  ⟨0x58, 0x0, 1, 0x0, 0xFFFFFFE0, 0x0, 0x0, 0x1, false⟩,  -- FLASH_BRIDGE_CTRL
  ⟨0x60, 0x0, 1, 0x0, 0xFFFFFFFF, 0x0, 0x0, 0x0, false⟩,  -- FLASH_BRIDGE_ADDR
  ⟨0x68, 0x8, 7, 0x0, 0xFFFFFFFFFF, 0x0, 0x0, 0x0, false⟩,  -- FLASH_BRIDGE_DATAm
  ⟨0x1600, 0x0, 1, 0x4, 0x0, 0x7, 0x0, 0x0, false⟩,  -- BYPASS_CFG
  ⟨0x1608, 0x0, 1, 0x0, 0x0, 0x0, 0x0, 0x0, false⟩,  -- BYPASS_STATUS
  ⟨0x1610, 0x0, 1, 0x0, 0x0, 0x0, 0x0, 0x0, false⟩,  -- ADMIT_FPRINT
  ⟨0x1618, 0x0, 1, 0x0, 0x0, 0x0, 0x0, 0x0, false⟩,  -- ADMIT_TICK
  ⟨0x1620, 0x0, 1, 0x800, 0x0, 0x0, 0x0, 0xFF, false⟩,  -- KA_WATCHDOG
  ⟨0x1000, 0x0, 1, 0x2, 0x0, 0x2, 0x0, 0x0, false⟩,  -- SPAN_CFG
  ⟨0x1008, 0x0, 1, 0x40, 0x7F, 0x0, 0x0, 0x0, false⟩ ]  -- SPAN_WAKE

/-- Part 1 of the register table: REP_STATUS_W to CIPHER_CFG. -/
def regRows1 : List RegRow := [
  ⟨0x1100, 0x0, 1, 0x4, 0x0, 0x0, 0x1, 0x0, false⟩,  -- REP_STATUS_W
  ⟨0x1108, 0x0, 1, 0x4, 0x0, 0x0, 0x1, 0x0, false⟩,  -- REP_STATUS_E
  ⟨0x1800, 0x80, 8, 0x206, 0x0, 0x30F, 0x0, 0x0, false⟩,  -- LANEn_EQ
  ⟨0x1808, 0x80, 8, 0x52, 0x0, 0x77, 0x0, 0x0, false⟩,  -- LANEn_TX
  ⟨0x1810, 0x80, 8, 0x8, 0x0, 0x0, 0x0, 0x0, false⟩,  -- LANEn_STATUS
  ⟨0x1200, 0x0, 1, 0x0, 0x0, 0x0, 0x0, 0x0, false⟩,  -- FRAME_STATUS
  ⟨0x1208, 0x0, 1, 0x0, 0x0, 0x0, 0x0, 0x0, false⟩,  -- FRAME_GEN
  ⟨0x1210, 0x0, 1, 0x0, 0x0, 0x0, 0x0, 0x0, false⟩,  -- MAP_STATUS
  ⟨0x1218, 0x0, 1, 0x4, 0x0, 0x7, 0x0, 0x0, false⟩,  -- SEL_CFG
  ⟨0x1300, 0x0, 1, 0x0, 0x0, 0x0, 0x0, 0x0, false⟩,  -- REG_STATUS
  ⟨0x1308, 0x0, 1, 0x0, 0x0, 0x0, 0x0, 0x0, false⟩,  -- CLAIM_NONCE
  ⟨0x1310, 0x0, 1, 0x0, 0x0, 0x0, 0x0, 0x0, false⟩,  -- RANGE_E
  ⟨0x1318, 0x0, 1, 0x0, 0x0, 0x0, 0x0, 0x0, false⟩,  -- RANGE_W
  ⟨0x1320, 0x0, 1, 0x3, 0x0, 0x0, 0x0, 0x0, false⟩,  -- RANGE_STATUS
  ⟨0x1720, 0x0, 1, 0x0, 0x0, 0x0, 0x0, 0x0, false⟩,  -- TAI_ORIGIN_CYCLE
  ⟨0x1728, 0x0, 1, 0x0, 0x0, 0x0, 0x0, 0x0, false⟩,  -- TAI_ORIGIN_SEC
  ⟨0x1730, 0x0, 1, 0x0, 0x0, 0x0, 0x0, 0x0, false⟩,  -- TAI_ORIGIN_NS
  ⟨0x1738, 0x0, 1, 0x0, 0x0, 0x0, 0x0, 0x0, false⟩,  -- TAI_UTC
  ⟨0x1400, 0x0, 1, 0x0, 0x0, 0x0, 0x0, 0x0, false⟩,  -- NOTE_SEQ
  ⟨0x1408, 0x0, 1, 0x0, 0x0, 0x0, 0x0, 0x0, false⟩,  -- NOTE_UP_STATUS
  ⟨0x1500, 0x0, 1, 0x0, 0x0, 0x0, 0x0, 0x0, false⟩,  -- WIN_STATUS
  ⟨0x1508, 0x0, 1, 0x0, 0x0, 0x0, 0x0, 0x0, false⟩,  -- WIN_LAST_GRANT
  ⟨0x1510, 0x0, 1, 0x80, 0x0, 0x1FF, 0x0, 0x0, false⟩,  -- WIN_CFG
  ⟨0x3800, 0x0, 1, 0x43F000, 0x0, 0xFFF0FF, 0x0, 0x0, false⟩ ]  -- CIPHER_CFG

/-- Part 2 of the register table: KEY_STATUS to RING_MODE. -/
def regRows2 : List RegRow := [
  ⟨0x3808, 0x0, 1, 0x0, 0x0, 0x0, 0x0, 0x0, false⟩,  -- KEY_STATUS
  ⟨0x3810, 0x0, 1, 0x0, 0x0, 0x0, 0x0, 0x0, false⟩,  -- CIPHER_LOAD
  ⟨0x3818, 0x0, 1, 0x2C4B00, 0x0, 0x0, 0x0, 0x0, false⟩,  -- ENTROPY_STATUS
  ⟨0x3820, 0x0, 1, 0x0, 0x0, 0x0, 0x0, 0x0, false⟩,  -- DRBG_STATUS
  ⟨0x3828, 0x0, 1, 0x0, 0x0, 0x0, 0x0, 0x0, false⟩,  -- SIG_STATUS
  ⟨0x2800, 0x0, 1, 0x0, 0x0, 0xFFFFFF, 0x0, 0x0, false⟩,  -- TH_PORT_CLASS
  ⟨0x2840, 0x8, 16, 0x8000000000, 0x0, 0xFFFFFFF000, 0x0, 0x0, false⟩,  -- TH_CLASSn_CFG
  ⟨0x28C0, 0x8, 16, 0x8040000, 0x0, 0xFFFFFFFF, 0x0, 0x0, false⟩,  -- TH_PROFILEn
  ⟨0x2940, 0x0, 1, 0x3E80040, 0xFFF00FF, 0x0, 0x0, 0x0, false⟩,  -- TH_PUNT_LEARN
  ⟨0x2948, 0x0, 1, 0x640010, 0xFFF00FF, 0x0, 0x0, 0x0, false⟩,  -- TH_PUNT_FAULT
  ⟨0x2950, 0x0, 1, 0x0, 0x0, 0x0, 0x0, 0x0, false⟩,  -- TH_UPDATE_STATUS
  ⟨0x2960, 0x8, 4, 0x0, 0x0, 0x0, 0x0, 0x0, false⟩,  -- TH_TABLEn_STATUS
  ⟨0x2980, 0x0, 1, 0x0, 0x0, 0x0, 0x0, 0x0, false⟩,  -- TH_CFG_STATUS
  ⟨0x3000, 0x0, 1, 0x100000, 0x0, 0xFFFFFC, 0x0, 0x0, false⟩,  -- GRAN_BANK_CFG
  ⟨0x3008, 0x0, 1, 0xABA0ABA000, 0x0, 0x0, 0x0, 0x80, false⟩,  -- GRAN_STATUS
  ⟨0x3010, 0x0, 1, 0x514, 0x0, 0xFFFF, 0x0, 0x0, false⟩,  -- QM_OVERHEAD
  ⟨0x3018, 0x0, 1, 0x2, 0x0, 0xFF, 0x0, 0x0, false⟩,  -- QM_HOLDDOWN
  ⟨0x3020, 0x0, 1, 0x0, 0x7FF8000000, 0x0, 0x0, 0x8000000000, false⟩,  -- QM_IND_SEL
  ⟨0x3028, 0x0, 1, 0x0, 0xFFFFFFFFFF, 0x0, 0x0, 0x0, false⟩,  -- QM_IND_DATA0
  ⟨0x3030, 0x0, 1, 0x0, 0xFFFFFFFFFF, 0x0, 0x0, 0x0, false⟩,  -- QM_IND_DATA1
  ⟨0x3038, 0x0, 1, 0x0, 0xFFFFFFFFFF, 0x0, 0x0, 0x0, false⟩,  -- QM_IND_DATA2
  ⟨0x50, 0x0, 1, 0x0, 0x1, 0x0, 0x0, 0x0, false⟩,  -- RUN_CTRL
  ⟨0x2000, 0x0, 1, 0x0, 0x0, 0x0, 0x0, 0x0, false⟩,  -- PCIE_CTRL
  ⟨0x2008, 0x0, 1, 0x6, 0x1FFFF06, 0x0, 0x0, 0x0, true⟩ ]  -- RING_MODE

/-- Part 3 of the register table: HRE_CTRL to MIDIk_CFG. -/
def regRows3 : List RegRow := [
  ⟨0x2010, 0x0, 1, 0x8, 0x1, 0x0, 0x0, 0x0, false⟩,  -- HRE_CTRL
  ⟨0x2018, 0x0, 1, 0x0, 0x0, 0x0, 0x0, 0x0, false⟩,  -- HRE_STATUS
  ⟨0x2020, 0x0, 1, 0x0, 0x0, 0x0, 0x0, 0x0, false⟩,  -- HRE_STOPPED
  ⟨0x2028, 0x0, 1, 0x0, 0xFFFFFFFFFF, 0x0, 0x0, 0x0, true⟩,  -- DB_PAGE
  ⟨0x2030, 0x0, 1, 0x0, 0xFFFFFFFFFF, 0x0, 0x0, 0x0, true⟩,  -- ST_PAGE
  ⟨0x2038, 0x0, 1, 0x0, 0xFFFFF, 0x0, 0x100000, 0x0, true⟩,  -- INT_CFG
  ⟨0x2040, 0x0, 1, 0x0, 0x0, 0x0, 0x0, 0x0, false⟩,  -- CMD_SEQ
  ⟨0x4000, 0x40, 4, 0x5EA71, 0x0, 0xFFFFF, 0x0, 0x0, false⟩,  -- ETHk_CFG 0-3
  ⟨0x4100, 0x40, 2, 0x5EA65, 0x0, 0xFFFFF, 0x0, 0x0, false⟩,  -- ETHk_CFG 4-5
  ⟨0x4008, 0x40, 6, 0x0, 0x0, 0x0, 0x0, 0x0, false⟩,  -- ETHk_STATUS
  ⟨0x4010, 0x40, 6, 0x0, 0x0, 0xFFFFFFFFFF, 0x0, 0x0, false⟩,  -- ETHk_PTP_ADJ
  ⟨0x4200, 0x0, 1, 0x10A8080000, 0x0, 0x1FFFFFFFFF, 0x0, 0x0, false⟩,  -- PTP_CFG
  ⟨0x4208, 0x0, 1, 0x300000001, 0x0, 0xFFFFFFFFF, 0x0, 0x0, false⟩,  -- PTP_INTERVALS
  ⟨0x4210, 0x0, 1, 0xF8, 0x0, 0x0, 0x0, 0x0, false⟩,  -- PTP_STATUS
  ⟨0x4800, 0x0, 1, 0x802, 0x0, 0xFFFF, 0x0, 0x0, false⟩,  -- SHOW_CFG
  ⟨0x4808, 0x0, 1, 0x0, 0x0, 0x0, 0x0, 0x0, false⟩,  -- SHOW_STATUS
  ⟨0x4840, 0x8, 8, 0x882A0, 0x0, 0xFFFFE, 0x0, 0x0, false⟩,  -- TDMk_CFG
  ⟨0x4900, 0x8, 8, 0x8804508000, 0x0, 0xFFFFFFFFFF, 0x0, 0x0, false⟩,  -- DMXk_CFG
  ⟨0x4940, 0x0, 1, 0x883E8040B0, 0x0, 0xFFFFFFFFFF, 0x0, 0x0, false⟩,  -- DMX_TIMING
  ⟨0x4980, 0x8, 2, 0x3310100, 0x0, 0x1FFFFF03, 0x0, 0x0, false⟩,  -- LTCk_CFG
  ⟨0x4990, 0x8, 2, 0x0, 0x0, 0x3FFFFF, 0x0, 0x0, false⟩,  -- LTCk_START
  ⟨0x49A0, 0x8, 2, 0x0, 0x0, 0xFFFFFFFFFF, 0x0, 0x0, false⟩,  -- LTCk_ORIGIN
  ⟨0x49B0, 0x8, 2, 0x0, 0x0, 0x0, 0x0, 0x0, false⟩,  -- LTCk_RX
  ⟨0x49C0, 0x8, 2, 0x880, 0x0, 0xFFF, 0x0, 0x0, false⟩ ]  -- MIDIk_CFG

/-- Part 4 of the register table: CUE_CFG to AFE_SLOTn_CFG. -/
def regRows4 : List RegRow := [
  ⟨0x4A00, 0x0, 1, 0x288, 0x0, 0xFFFFFFFFFF, 0x0, 0x0, false⟩,  -- CUE_CFG
  ⟨0x4A08, 0x0, 1, 0xC0, 0x0, 0x3FE, 0x0, 0x0, false⟩,  -- CUE_OUT_CFG
  ⟨0x4A10, 0x0, 1, 0x0, 0x0, 0x0, 0x0, 0x0, false⟩,  -- CUE_STATE
  ⟨0x4A80, 0x8, 32, 0x0, 0x0, 0xFFFF000000, 0x0, 0x0, false⟩,  -- EXPRESS_MAPn
  ⟨0x4C00, 0x10, 4, 0x19000100, 0x0, 0xFFFFFFFF03, 0x0, 0x0, false⟩,  -- GENk_CFG
  ⟨0x4C08, 0x10, 4, 0xA, 0x0, 0xFFFFFFFFFF, 0x0, 0x0, false⟩,  -- GENk_PULSE
  ⟨0x5000, 0x100, 2, 0x88007A0000, 0x0, 0xFFFFFFB300, 0x0, 0x0, false⟩,  -- AXk_CFG
  ⟨0x5008, 0x100, 2, 0x2828183030, 0x0, 0xFFFFFFFFFF, 0x0, 0x0, false⟩,  -- AXk_TIMING
  ⟨0x5010, 0x100, 2, 0x400000, 0x0, 0xFFFFFFFF, 0x0, 0x0, false⟩,  -- AXk_VMAX
  ⟨0x5018, 0x100, 2, 0x10000, 0x0, 0xFFFFFFFF, 0x0, 0x0, false⟩,  -- AXk_AMAX
  ⟨0x5038, 0x100, 2, 0x400000, 0x0, 0xFFFFFFFF, 0x0, 0x0, false⟩,  -- AXk_PWM_FS
  ⟨0x5020, 0x100, 2, 0x800004, 0x0, 0xFFFFFFFFFF, 0x0, 0x0, false⟩,  -- AXk_RD_CFG
  ⟨0x5028, 0x100, 2, 0x7D0, 0x0, 0xFFFFFF0FFF, 0x0, 0x0, false⟩,  -- AXk_RD_LIMIT
  ⟨0x5030, 0x100, 2, 0x4E00008000, 0x0, 0xFFFFFFFF00, 0x0, 0x0, false⟩,  -- AXk_PWM
  ⟨0x5040, 0x100, 2, 0x8000000000, 0x0, 0xFFFFFFFFFF, 0x0, 0x0, false⟩,  -- AXk_SOFT_MIN
  ⟨0x5048, 0x100, 2, 0x7FFFFFFFFF, 0x0, 0xFFFFFFFFFF, 0x0, 0x0, false⟩,  -- AXk_SOFT_MAX
  ⟨0x5050, 0x100, 2, 0x0, 0xFFFFFFFFFF, 0x0, 0x0, 0x0, false⟩,  -- AXk_POS_CMD
  ⟨0x5058, 0x100, 2, 0x0, 0xFFFFFFFFFF, 0x0, 0x0, 0x0, false⟩,  -- AXk_POS_ENC
  ⟨0x5060, 0x100, 2, 0x0, 0x0, 0x0, 0x0, 0x0, false⟩,  -- AXk_INDEX
  ⟨0x5068, 0x100, 2, 0x0, 0x0, 0x0, 0x40, 0x0, false⟩,  -- AXk_STATUS
  ⟨0x5200, 0x0, 1, 0xA, 0x0, 0xFF, 0x0, 0x0, false⟩,  -- MOT_HOLD
  ⟨0x5800, 0x0, 1, 0x8804, 0x0, 0xFF06, 0x0, 0x0, false⟩,  -- AFE_CFG
  ⟨0x5808, 0x0, 1, 0x0, 0x0, 0x0, 0x0, 0x0, false⟩,  -- AFE_STATUS
  ⟨0x5840, 0x10, 16, 0x1E040000, 0x0, 0xFFFFFFFFC0, 0x0, 0x0, false⟩ ]  -- AFE_SLOTn_CFG

/-- Part 5 of the register table: AFE_SLOTn_PINS to GLEAN_CFG. -/
def regRows5 : List RegRow := [
  ⟨0x5848, 0x10, 16, 0x843FFF81F0, 0x0, 0xFFFFFFFFF0, 0x0, 0x0, false⟩,  -- AFE_SLOTn_PINS
  ⟨0x5A18, 0x60, 8, 0x3F800000, 0x0, 0xFFFFFFFF, 0x0, 0x0, false⟩,  -- AFE_LIN i=1 j=0
  ⟨0x5A00, 0x8, 96, 0x0, 0x0, 0xFFFFFFFF, 0x0, 0x0, false⟩,  -- AFE_LIN
  ⟨0x5D00, 0x8, 13, 0x400000, 0xFFFFFFFFFF, 0x0, 0x0, 0x0, false⟩,  -- AFE_CALg
  ⟨0x5D80, 0x0, 1, 0x0, 0x1FFF, 0x0, 0x0, 0x10000, false⟩,  -- AFE_CAL_CTRL
  ⟨0x5D88, 0x0, 1, 0x0, 0x0, 0x0, 0x0, 0x0, false⟩,  -- AFE_DIE_TEMP
  ⟨0x5E00, 0x8, 16, 0x0, 0x0, 0x0, 0x0, 0x0, false⟩,  -- AFE_RESULTn
  ⟨0x5F00, 0x40, 4, 0x1E061800, 0x0, 0xFEFFFFFFFF, 0x0, 0x0, false⟩,  -- PFOk_CFG
  ⟨0x5F08, 0x40, 4, 0x0, 0x0, 0xFFFFFFFF, 0x0, 0x0, false⟩,  -- PFOk_Y0
  ⟨0x5F10, 0x40, 4, 0x3F800000, 0x0, 0xFFFFFFFF, 0x0, 0x0, false⟩,  -- PFOk_Y1
  ⟨0x5F18, 0x40, 4, 0x0, 0x0, 0xFFFFFFFF, 0x0, 0x0, false⟩,  -- PFOk_OUT0
  ⟨0x5F20, 0x40, 4, 0x3F800000, 0x0, 0xFFFFFFFF, 0x0, 0x0, false⟩,  -- PFOk_OUT1
  ⟨0x8C0, 0x0, 1, 0x0, 0x0, 0x0, 0x0, 0x0, false⟩,  -- PWR_PENDING
  ⟨0x8C8, 0x0, 1, 0x280F0, 0xFF8FF0, 0x0, 0x0, 0x0, false⟩,  -- WAKE_CFG
  ⟨0x8D0, 0x0, 1, 0xFFF07F, 0xFFFFFF, 0x0, 0x0, 0x0, false⟩,  -- WAKE_MASK
  ⟨0x8D8, 0x0, 1, 0x0, 0x0, 0x0, 0x0, 0x0, false⟩,  -- WAKE_STATUS
  ⟨0x8E0, 0x0, 1, 0x0, 0x100FFFFFF, 0x0, 0x0, 0x0, false⟩,  -- KTIMER_CFG
  ⟨0x8E8, 0x0, 1, 0x0, 0x0, 0x0, 0x0, 0x0, false⟩,  -- KTIMER_STATUS
  ⟨0x8F0, 0x0, 1, 0x7D00, 0x0, 0x0, 0x0, 0x0, false⟩,  -- KEEPER_RC
  ⟨0x7000, 0x0, 1, 0x30, 0x0, 0x0, 0x0, 0x0, false⟩,  -- ZWD_ADDR
  ⟨0x7008, 0x0, 1, 0x2, 0x13F, 0x0, 0x0, 0x0, false⟩,  -- ZWD_CFG
  ⟨0x7010, 0x0, 1, 0x0, 0x0, 0x0, 0x3F, 0x0, false⟩,  -- ZWD_ALERT
  ⟨0x7018, 0x0, 1, 0x0, 0x0, 0x0, 0x0, 0x0, false⟩,  -- ZWD_STATUS
  ⟨0x6800, 0x0, 1, 0x6DDD01, 0x0, 0x1FFFFFF, 0x0, 0x0, false⟩ ]  -- GLEAN_CFG

/-- Part 6 of the register table: GLEAN_STATUS to FLn_CFG. -/
def regRows6 : List RegRow := [
  ⟨0x6808, 0x0, 1, 0x0, 0x0, 0x0, 0x0, 0x0, false⟩,  -- GLEAN_STATUS
  ⟨0x6810, 0x0, 1, 0x0, 0x0, 0x0, 0x0, 0x0, false⟩,  -- IMAGE_RUNNING
  ⟨0x6818, 0x0, 1, 0x0, 0x0, 0x0, 0x0, 0x0, false⟩,  -- IMAGE_STAGED
  ⟨0x6820, 0x0, 1, 0x0, 0x0, 0x0, 0x0, 0x0, false⟩,  -- FLASH_INFO
  ⟨0x6828, 0x0, 1, 0x0, 0x0, 0x0, 0x0, 0x0, false⟩,  -- SETTINGS_STATUS
  ⟨0x1820, 0x80, 8, 0x2AA00, 0xFFFF03FF7F, 0x0, 0x0, 0x0, false⟩,  -- LANEn_PRBS_CFG
  ⟨0x1828, 0x80, 8, 0x0, 0x0, 0x0, 0xC, 0x0, false⟩,  -- LANEn_PRBS_STATUS
  ⟨0x1830, 0x80, 8, 0x0, 0x0, 0x0, 0x0, 0x0, false⟩,  -- LANEn_PRBS_BITS
  ⟨0x1838, 0x80, 8, 0x0, 0x0, 0x0, 0x0, 0x0, false⟩,  -- LANEn_PRBS_ERR
  ⟨0x1840, 0x80, 8, 0x1401, 0xFFFF, 0x0, 0x0, 0x0, false⟩,  -- LANEn_INJECT
  ⟨0x1848, 0x80, 8, 0x0, 0x3, 0x0, 0x0, 0x0, false⟩,  -- LANEn_LOOP
  ⟨0x6700, 0x8, 16, 0x0, 0x0, 0x0, 0x0, 0x0, false⟩,  -- LEDGER_GRPg_SAT
  ⟨0x6780, 0x0, 1, 0x0, 0x0, 0x0, 0x0, 0x0, false⟩,  -- LEDGER_SUMMARY
  ⟨0x6788, 0x0, 1, 0x0, 0x0, 0x0, 0x0, 0x1FFFF, false⟩,  -- LEDGER_CLEAR
  ⟨0x2080, 0x0, 1, 0x0, 0xFFFFFFFFFF, 0x0, 0x0, 0x0, true⟩,  -- CMD_BASE
  ⟨0x2088, 0x0, 1, 0xC, 0x1FFF, 0x0, 0x0, 0x0, true⟩,  -- CMD_CFG
  ⟨0x2090, 0x0, 1, 0x0, 0xFFFFFFFFFF, 0x0, 0x0, 0x0, true⟩,  -- EVT_BASE
  ⟨0x2098, 0x0, 1, 0xC, 0x1FFF, 0x0, 0x0, 0x0, true⟩,  -- EVT_CFG
  ⟨0x2100, 0x10, 16, 0x0, 0xFFFFFFFFFF, 0x0, 0x0, 0x0, true⟩,  -- TXQn_BASE
  ⟨0x2108, 0x10, 16, 0xC, 0x1FFF, 0x0, 0x0, 0x0, true⟩,  -- TXQn_CFG
  ⟨0x2200, 0x10, 16, 0x0, 0xFFFFFFFFFF, 0x0, 0x0, 0x0, true⟩,  -- RXQn_BASE
  ⟨0x2208, 0x10, 16, 0xC, 0x1FFF, 0x0, 0x0, 0x0, true⟩,  -- RXQn_CFG
  ⟨0x2300, 0x10, 16, 0x0, 0xFFFFFFFFFF, 0x0, 0x0, 0x0, true⟩,  -- FLn_BASE
  ⟨0x2308, 0x10, 16, 0xC, 0x1FFF, 0x0, 0x0, 0x0, true⟩ ]  -- FLn_CFG

/-- Part 7 of the register table: COUNTER to PWR_TARGETk. -/
def regRows7 : List RegRow := [
  ⟨0x6000, 0x8, 222, 0x0, 0x0, 0x0, 0x0, 0x0, false⟩,  -- COUNTER
  ⟨0x4400, 0x8, 15, 0x0, 0x0, 0x0, 0x0, 0x0, false⟩,  -- PORT0_COUNTER
  ⟨0x4480, 0x8, 15, 0x0, 0x0, 0x0, 0x0, 0x0, false⟩,  -- PORT1_COUNTER
  ⟨0x4500, 0x8, 15, 0x0, 0x0, 0x0, 0x0, 0x0, false⟩,  -- PORT2_COUNTER
  ⟨0x4580, 0x8, 15, 0x0, 0x0, 0x0, 0x0, 0x0, false⟩,  -- PORT3_COUNTER
  ⟨0x4600, 0x8, 15, 0x0, 0x0, 0x0, 0x0, 0x0, false⟩,  -- PORT4_COUNTER
  ⟨0x4680, 0x8, 15, 0x0, 0x0, 0x0, 0x0, 0x0, false⟩,  -- PORT5_COUNTER
  ⟨0x800, 0x8, 24, 0x20, 0x3F0003, 0x0, 0x0, 0x0, false⟩ ]  -- PWR_TARGETk

/-- The whole register table. -/
def regRows : List RegRow :=
  regRows0 ++ regRows1 ++ regRows2 ++ regRows3 ++ regRows4 ++ regRows5 ++ regRows6 ++ regRows7

/-- Does the row cover this register offset? -/
def RegRow.covers (r : RegRow) (off : Nat) : Bool :=
  if r.count = 1 then off == r.base
  else decide (r.base ≤ off) && (off - r.base) % r.stride == 0 && decide ((off - r.base) / r.stride < r.count)

/-- The row of the index that holds this offset, if it is assigned (R493). -/
def regRow (off : Nat) : Option RegRow := regRows.find? (fun r => r.covers off)

/-- Is the offset an assigned register (R491, R493)? -/
def regAssigned (off : Nat) : Bool := (regRow off).isSome

/-- The value the register takes at a reset that gives it its default, every strap at zero. -/
def regDefault (off : Nat) : BitVec 40 := match regRow off with | some r => r.dflt | none => 0

end Sys2Proof.Machine
end

