-- ==== Sys2Proof/Machine/Codes.lean ====
section
/-! DEFINITION. The catalogue of the ledger (spec/20_lane_tests_counter_ledger.md R461-R462), the event codes of every
chapter (spec/12_host_rings_pcie.md "Event codes") and the alert bits (spec/18_zwirdo_sideband.md R426). -/

namespace Sys2Proof.Machine

/-! ### Ledger counters, by index -/

def C.SPAN_ROW_LOST : Nat := 0
def C.SPAN_ROW_PICK_WEST : Nat := 1
def C.SPAN_ROW_PICK_EAST : Nat := 2
def C.SPAN_ROW_FAIL_W : Nat := 3
def C.SPAN_ROW_FAIL_E : Nat := 4
def C.TURNED_ROWS : Nat := 5
def C.ROW_MARKER_BAD_W : Nat := 6
def C.ROW_MARKER_BAD_E : Nat := 7
def C.TICK_SEQ_JUMP_W : Nat := 8
def C.TICK_SEQ_JUMP_E : Nat := 9
def C.TICK_MARKER_MISS_W : Nat := 10
def C.TICK_MARKER_MISS_E : Nat := 11
def C.FRAME_ID_MISMATCH : Nat := 12
def C.HDR_CHECK_BAD : Nat := 13
def C.HDR_RESCUED : Nat := 14
def C.HDR_LOST : Nat := 15
def C.HE_STATE_BAD : Nat := 16
def C.GEN_CONFLICT : Nat := 17
def C.GEN_JUMP : Nat := 18
def C.PRES_DELAY_BAD : Nat := 19
def C.PRES_LATE : Nat := 20
def C.PRES_SKIPPED : Nat := 21
def C.LINE_CODE_ERR_W : Nat := 22
def C.LINE_CODE_ERR_E : Nat := 23
def C.WORD_INVALID_W : Nat := 24
def C.WORD_INVALID_E : Nat := 25
def C.ERROR_WORD_RX_W : Nat := 26
def C.ERROR_WORD_RX_E : Nat := 27
def C.SPAN_LOS_W : Nat := 28
def C.SPAN_LOS_E : Nat := 29
def C.STORE_RESET_W : Nat := 30
def C.STORE_RESET_E : Nat := 31
def C.HEADLAND_DEL_W : Nat := 32
def C.HEADLAND_DEL_E : Nat := 33
def C.HEADLAND_INS_W : Nat := 34
def C.HEADLAND_INS_E : Nat := 35
def C.HEADLAND_DEFER_W : Nat := 36
def C.HEADLAND_DEFER_E : Nat := 37
def C.HEADLAND_BAD_W : Nat := 38
def C.HEADLAND_BAD_E : Nat := 39
def C.SPAN_SLIP_W : Nat := 40
def C.SPAN_SLIP_E : Nat := 41
def C.EQ_ADAPT_FAIL : Nat := 42
def C.WAKE_MATCH : Nat := 43
def C.BYPASS_FALL : Nat := 44
def C.TURN_LATE : Nat := 45
def C.TURN_AUTO : Nat := 46
def C.TURN_IGNORED : Nat := 47
def C.ADMIT_LATE : Nat := 48
def C.ADMIT_FAIL : Nat := 49
def C.CLAIM_SENT : Nat := 50
def C.CLAIM_TAKEN : Nat := 51
def C.CLAIM_RETRY : Nat := 52
def C.DISC_TOO_SMALL : Nat := 53
def C.ASSIGN_BAD : Nat := 54
def C.ASSIGN_STALE : Nat := 55
def C.ASSIGN_DUP : Nat := 56
def C.ASSIGN_CHANGED : Nat := 57
def C.ID_RELEASED : Nat := 58
def C.GRANT_TIMEOUT : Nat := 59
def C.RANGE_OK_STALE : Nat := 60
def C.RANGE_JUMP : Nat := 61
def C.DELAY_STEP_W : Nat := 62
def C.DELAY_STEP_E : Nat := 63
def C.DELAY_STEP_STALE : Nat := 64
def C.DELAY_STEP_BAD : Nat := 65
def C.FLYWHEEL_ENTRY : Nat := 66
def C.TIME_STEP : Nat := 67
def C.TIME_MAP_BAD : Nat := 68
def C.MAP_ENTRY_BAD : Nat := 69
def C.MAP_INCOMPLETE : Nat := 70
def C.MAP_DESC_STALE : Nat := 71
def C.CONTAINER_BAD : Nat := 72
def C.CONTAINER_MISSING : Nat := 73
def C.SUB_KIND_MISMATCH : Nat := 74
def C.EXPRESS_DONE : Nat := 75
def C.EXPRESS_BAD : Nat := 76
def C.EXPRESS_DUP : Nat := 77
def C.NOTE_RX : Nat := 78
def C.NOTE_MALFORMED : Nat := 79
def C.NOTE_WRONG_STATE : Nat := 80
def C.NOTE_DUP : Nat := 81
def C.NOTE_REJECTED : Nat := 82
def C.NOTE_T_LATE : Nat := 83
def C.NOTE_UNKNOWN : Nat := 84
def C.NOTE_UP_DROPPED : Nat := 85
def C.NOTE_UP_EXPIRED : Nat := 86
def C.GRANT_MALFORMED : Nat := 87
def C.GRANT_OVERLAP : Nat := 88
def C.GRANT_EXCESS : Nat := 89
def C.WIN_NO_DATA : Nat := 90
def C.WIN_NO_BUFFER : Nat := 91
def C.WIN_WITHHELD : Nat := 92
def C.WIN_RX_NOT_CLEAR : Nat := 93
def C.WIN_WORD_LOST : Nat := 94
def C.WIN_CUT : Nat := 95
def C.NO_HOUSE_KEY : Nat := 96
def C.ASSIGN_KEY_BAD : Nat := 97
def C.ASSIGN_FORGED : Nat := 98
def C.KEY_DISABLED : Nat := 99
def C.KEY_MISSING_DN : Nat := 100
def C.KEY_MISSING_UP : Nat := 101
def C.ENC_SHORT : Nat := 102
def C.IV_MISMATCH : Nat := 103
def C.TAG_FAIL : Nat := 104
def C.CIPHER_LATE : Nat := 105
def C.ENTROPY_FAIL_RCT : Nat := 106
def C.ENTROPY_FAIL_APT : Nat := 107
def C.DRBG_RESEED_LATE : Nat := 108
def C.SIG_OP_FAIL : Nat := 109
def C.TH_CLASS_OFF : Nat := 110
def C.TH_SEG_BAD : Nat := 111
def C.TH_SEG_LOST : Nat := 112
def C.TH_SEG_LONG : Nat := 113
def C.TH_PARSE_FAIL : Nat := 114
def C.TH_MISS : Nat := 115
def C.TH_CHAIN_END : Nat := 116
def C.TH_DROP : Nat := 117
def C.TH_ACTION_BAD : Nat := 118
def C.TH_PUNT_DROP_LEARN : Nat := 119
def C.TH_PUNT_DROP_FAULT : Nat := 120
def C.TH_UPDATE_FULL : Nat := 121
def C.TH_IN_FULL : Nat := 122
def C.CSUM_SKIPPED : Nat := 123
def C.GRAN_FULL_DROP : Nat := 124
def C.GRAN_CFG_BAD : Nat := 125
def C.QUEUE_BAD : Nat := 126
def C.QUEUE_OFF_DROP : Nat := 127
def C.QUEUE_LIMIT_DROP : Nat := 128
def C.YELLOW_DROP : Nat := 129
def C.METER_RED_DROP : Nat := 130
def C.METER_YELLOW_DROP : Nat := 131
def C.DEADLINE_DROP_SPAN : Nat := 132
def C.DEADLINE_DROP_SHOW : Nat := 133
def C.DEADLINE_DROP_ETH : Nat := 134
def C.DEADLINE_DROP_HOST : Nat := 135
def C.DEADLINE_DROP_PUNT : Nat := 136
def C.HOLDDOWN_FLUSH : Nat := 137
def C.PORT_DOWN_DROP : Nat := 138
def C.PWR_FLUSH : Nat := 139
def C.HOST_TX_BAD : Nat := 140
def C.HOST_TX_LATE : Nat := 141
def C.HOST_DMA_ERR : Nat := 142
def C.DB_INDEX_BAD : Nat := 143
def C.POLL_SKIPPED : Nat := 144
def C.HOST_RX_NOBUF : Nat := 145
def C.HOST_RX_TOOBIG : Nat := 146
def C.HOST_MSG_NOHOST : Nat := 147
def C.CMD_REPEAT : Nat := 148
def C.CMD_BAD_SEQ : Nat := 149
def C.EVT_LOST : Nat := 150
def C.SHOW_ITEM_BAD : Nat := 151
def C.SHOW_UNDERRUN : Nat := 152
def C.SHOW_MISSING_AUD : Nat := 153
def C.SHOW_MISSING_DMX : Nat := 154
def C.SHOW_MISSING_TC : Nat := 155
def C.SHOW_MISSING_CUE : Nat := 156
def C.SHOW_REALIGN : Nat := 157
def C.SHOW_IN_DROP : Nat := 158
def C.SHOW_RECORD_BAD : Nat := 159
def C.AUD_IN_CLIP : Nat := 160
def C.DMX_RX_PKT : Nat := 161
def C.DMX_RX_BAD : Nat := 162
def C.RDM_TIMEOUT : Nat := 163
def C.RDM_BAD : Nat := 164
def C.LTC_FREEWHEEL : Nat := 165
def C.LTC_RX_FRAME : Nat := 166
def C.LTC_RX_BAD : Nat := 167
def C.MIDI_TX_OVERFLOW : Nat := 168
def C.MIDI_RX_ERR : Nat := 169
def C.CUE_EDGE : Nat := 170
def C.EXPRESS_UNMAPPED : Nat := 171
def C.GENLOCK_SKIP : Nat := 172
def C.AFE_INVALID : Nat := 187
def C.AFE_OVR : Nat := 188
def C.AFE_OPEN : Nat := 189
def C.AFE_LIN_BAD : Nat := 190
def C.AFE_TSRC_NONE : Nat := 191
def C.AFE_CAP_DROP : Nat := 192
def C.AFE_CAL_RANGE : Nat := 193
def C.AFE_PFO_FAULT : Nat := 194
def C.AFE_REALIGN : Nat := 195
def C.TICK_OVERRUN_FRM : Nat := 196
def C.TICK_OVERRUN_WRT : Nat := 197
def C.TICK_OVERRUN_THR : Nat := 198
def C.TICK_OVERRUN_CIP : Nat := 199
def C.TICK_OVERRUN_QSC : Nat := 200
def C.TICK_OVERRUN_SHW : Nat := 201
def C.TICK_OVERRUN_MOT : Nat := 202
def C.TICK_OVERRUN_AFE : Nat := 203
def C.TICK_OVERRUN_HRE : Nat := 204
def C.STAGE_SUPERSEDED : Nat := 205
def C.REG_ACCESS_BAD : Nat := 206
def C.REG_LOCKED_WRITE : Nat := 207
def C.PWR_REFUSED : Nat := 208
def C.PWR_WAKE : Nat := 209
def C.ZWD_PEC_BAD : Nat := 210
def C.ZWD_TIMEOUT : Nat := 211
def C.ZWD_CMD_BAD : Nat := 212
def C.GLEAN_PIECE_BAD : Nat := 213
def C.GLEAN_PIECE_DUP : Nat := 214
def C.GLEAN_PIECE_DROP : Nat := 215
def C.GLEAN_IGNORED : Nat := 216
def C.GLEAN_RESTART : Nat := 217
def C.GLEAN_VERIFY_FAIL : Nat := 218
def C.TRIAL_EXPIRED : Nat := 219
def C.FLASH_ERR : Nat := 220
def C.SETTINGS_CRC_BAD : Nat := 221

def C.MOT_ENC_ERR (k : Nat) : Nat := 173 + 7 * k
def C.MOT_SP_REJECT (k : Nat) : Nat := 174 + 7 * k
def C.MOT_SP_MISSING (k : Nat) : Nat := 175 + 7 * k
def C.MOT_PROFILE_CLAMP (k : Nat) : Nat := 176 + 7 * k
def C.MOT_RUNDOWN (k : Nat) : Nat := 177 + 7 * k
def C.MOT_CUT (k : Nat) : Nat := 178 + 7 * k
def C.MOT_CAP_DROP (k : Nat) : Nat := 179 + 7 * k
def C.ETH_RX_OK (k : Nat) : Nat := 222 + 15 * k
def C.ETH_RX_FCS (k : Nat) : Nat := 223 + 15 * k
def C.ETH_RX_RUNT (k : Nat) : Nat := 224 + 15 * k
def C.ETH_RX_TOOLONG (k : Nat) : Nat := 225 + 15 * k
def C.ETH_RX_ABORT (k : Nat) : Nat := 226 + 15 * k
def C.ETH_RX_PAUSE (k : Nat) : Nat := 227 + 15 * k
def C.ETH_RX_MACCTL (k : Nat) : Nat := 228 + 15 * k
def C.ETH_TX_ABORT (k : Nat) : Nat := 229 + 15 * k
def C.ETH_TX_TOOLONG (k : Nat) : Nat := 230 + 15 * k
def C.ETH_LINK_DOWN (k : Nat) : Nat := 231 + 15 * k
def C.ETH_AN_HALF (k : Nat) : Nat := 232 + 15 * k
def C.ETH_AN_RF (k : Nat) : Nat := 233 + 15 * k
def C.PTP_RX (k : Nat) : Nat := 234 + 15 * k
def C.PTP_RX_DOMAIN (k : Nat) : Nat := 235 + 15 * k
def C.PTP_RX_ONESTEP (k : Nat) : Nat := 236 + 15 * k

/-- Does a per-side counter name: West first, East next (the catalogue lists `_W` then `_E`). -/
def sided (west : Nat) (east : Bool) : Nat := west + b2n east

/-- First index and size of each ledger group, group 0 first. -/
def ledgerGroups : List (Nat × Nat) :=
  [(0, 22), (22, 22), (44, 25), (69, 18), (87, 9), (96, 14), (110, 14), (124, 16), (140, 11), (151, 22), (173, 23), (196, 17), (213, 9), (222, 30), (252, 30), (282, 30)]

/-- The group a counter belongs to. -/
def groupOf (i : Nat) : Nat := ledgerGroups.findIdx (fun g => decide (g.1 ≤ i) && decide (i < g.1 + g.2))

/-- R462: the BAR0 offset of counter `i`. -/
def counterAddr (i : Nat) : Nat :=
  if i < 222 then 0x6000 + 8 * i else 0x4400 + 0x80 * ((i - 222) / 15 % 6) + 8 * ((i - 222) % 15)

/-! ### Event codes -/

def E.REG_LOCKED : Nat := 0x0001
def E.SELFTEST_WARN : Nat := 0x0002
def E.STATE_CHANGE : Nat := 0x0003
def E.PWR_REFUSED : Nat := 0x0101
def E.TICK_OVERRUN : Nat := 0x0201
def E.BYPASS_FALL : Nat := 0x0202
def E.ADMIT_DONE : Nat := 0x0203
def E.ADMIT_FAIL : Nat := 0x0204
def E.LEAVE_DONE : Nat := 0x0205
def E.TURN_AUTO : Nat := 0x0206
def E.SPAN_LOS : Nat := 0x0207
def E.SPAN_SLIP : Nat := 0x0208
def E.TRACK_LOST : Nat := 0x0209
def E.HE_STOPPING : Nat := 0x020A
def E.GEN_JUMP : Nat := 0x020B
def E.MAP_INCOMPLETE : Nat := 0x020C
def E.REGISTERED : Nat := 0x020D
def E.RELEASED : Nat := 0x020E
def E.RANGED : Nat := 0x020F
def E.DELAY_STEP : Nat := 0x0210
def E.DELAY_STEP_DONE : Nat := 0x0211
def E.FLYWHEEL_IN : Nat := 0x0212
def E.TIME_STEP : Nat := 0x0213
def E.WORD_LOCK_LOST : Nat := 0x0301
def E.RING_STOPPED : Nat := 0x0401
def E.HOST_ABSENT : Nat := 0x0402
def E.HOST_PRESENT : Nat := 0x0403
def E.EVT_OVERFLOW : Nat := 0x0404
def E.HOST_RESET : Nat := 0x0405
def E.TH_TABLE_FULL : Nat := 0x0501
def E.PORT_FLUSHED : Nat := 0x0601
def E.NO_HOUSE_KEY : Nat := 0x0701
def E.ASSIGN_FORGED : Nat := 0x0702
def E.KEY_DISABLED : Nat := 0x0703
def E.ENTROPY_FAIL : Nat := 0x0704
def E.DRBG_STOPPED : Nat := 0x0705
def E.LINK_DOWN : Nat := 0x0801
def E.LINK_UP : Nat := 0x0802
def E.PTP_PORT_STATE : Nat := 0x0803
def E.PTP_CLASS : Nat := 0x0804
def E.SHOW_IDLE : Nat := 0x0901
def E.RDM_DISC_DONE : Nat := 0x0902
def E.MOT_RUNDOWN : Nat := 0x0A01
def E.MOT_HELD : Nat := 0x0A02
def E.MOT_CUT : Nat := 0x0A03
def E.AFE_OPEN : Nat := 0x0B01
def E.AFE_CAL_DONE : Nat := 0x0B02
def E.AFE_PFO_FAULT : Nat := 0x0B03
def E.PWR_DONE : Nat := 0x0102
def E.WAKE : Nat := 0x0103
def E.IMAGE_STATE : Nat := 0x0D01
def E.GLEAN_RESTART : Nat := 0x0D02
def E.FLASH_FAULT : Nat := 0x0D03
def E.SETTINGS_FULL : Nat := 0x0D04
def E.LANE_TEST_REFUSED : Nat := 0x0302
def E.LANE_TEST_END : Nat := 0x0303
def E.LEDGER_SAT : Nat := 0x0C01

/-! ### Zwirdo alert bits (R426) -/

def A.STATE : Nat := 0
def A.HOLD : Nat := 1
def A.BYPASS : Nat := 2
def A.OVERRUN : Nat := 3
def A.SAT : Nat := 4
def A.MBOX : Nat := 5

end Sys2Proof.Machine
end

