-- ==== Sys2Proof/Machine/State.lean ====
section
/-! DEFINITION. The state of the block: every register, FIFO, buffer, counter, mode and pin the spec gives it, as plain
data, and the queue of waiting commands. -/

namespace Sys2Proof.Machine

/-! ### Register access -/

/-- A latch: the register it is tagged with and bits [39:32] (R3-R6, R495). -/
structure Latch where
  tag : Option Nat := none
  val : Byte := 0
deriving DecidableEq, Repr

/-- One path's latches. -/
structure PathLatches where
  snap : Latch := {}
  hold : Latch := {}
deriving DecidableEq, Repr

/-- The terminal states (spec/02 TERM_STATE). OFF is the unpowered part and takes no command. -/
inductive TermState where
  | reset | selftest | holding | listening | admitted | claiming | ranging | running | flywheel | leaving
deriving DecidableEq, Repr

/-! ### Events and what the block sends -/

/-- An event not yet written to EVT (R302). -/
structure Event where
  code : Nat
  arg0 : Nat
  arg1 : Nat
  count : Nat
  tick : Nat
  wc : BitVec 13
deriving DecidableEq, Repr

/-- What the block sends to the outside, newest first in the state's history (notes/assumptions/6.md). -/
inductive Output where
  | regData (p : Path) (data : BitVec 64)
  | regBytes (p : Path) (bytes : List Byte)
  | hostWrite (addr : Nat) (bytes : List Byte)
  | hostRead (addr len : Nat)
  /-- The same in hostless mode, at a location in the Granary (R307). -/
  | granWrite (addr : Nat) (bytes : List Byte)
  | granRead (addr len : Nat)
  | msix (vec : Nat) (addr data : Nat)
  | intx (asserted : Bool)
  | spi (tx : List Byte) (rxLen : Nat)
  | outputsIdle
  | rowOut (port : Side) (row : Nat) (rd : Bool) (words : List (Bool × Word))
  | wordsOut (port : Side) (rd : Bool) (words : List (Bool × Word))
  | fillOut (port : Side) (rd : Bool)
  | burstOut (side : Side) (start : Nat) (words : List (Bool × Word))
  | ethFrame (port : Nat) (bytes : List Byte)
  | ptp (port : Nat) (kind : Nat) (bytes : List Byte)
  | anWord (port : Nat) (word : Nat)
  | laneIdle (lane : Nat) (idle : Bool)
  | tdm (port : Nat) (words : List Word)
  | dmx (univ : Nat) (slots : List Byte)
  | rdm (univ : Nat) (bytes : List Byte)
  | ltc (k : Nat) (code : List Byte)
  | midi (k : Nat) (b : Byte)
  | cue (n : Nat) (closed : Bool)
  /-- A pulse: whether its leading edge rises, and its width in ns. -/
  | genlock (k : Nat) (rises : Bool) (width : Nat)
  /-- Pulses on AXk_STEP, counting up (AXk_DIR high) or down, each `width` wc and `setup` wc after a change of direction. -/
  | steps (axis : Nat) (up : Bool) (n width setup : Nat)
  /-- AXk_PWM's duty in 1/65536, AXk_DIR, and the period in fc. -/
  | pwm (axis : Nat) (duty : Nat) (dir : Bool) (period : Nat)
  /-- A pulse output: driven low, PWM with its high time and period in fc, or a frequency by its phase increment. -/
  | pfo (k mode val period : Nat)
  | zwd (bytes : List Byte) (ack : Bool)
  /-- A lane's generator starts (R452), and errors placed: in its pattern, or by replacing data code-groups (R455). -/
  | pattern (lane pat fixed : Nat) (invert : Bool)
  | inject (lane n : Nat) (codeGroup : Bool)
  | sigResult (out : List Byte) (status : Nat)
deriving DecidableEq, Repr

/-! ### Staged changes (R20) -/

/-- A change staged for an effective tick. -/
inductive StagedOp where
  | regWrite (off : Nat) (val : Word)
  | qmWrite (obj idx : Nat) (rec : List Word)
  | softReset
deriving DecidableEq, Repr

/-- A staged change with its effective tick. -/
structure Staged where
  t : Nat
  op : StagedOp
deriving DecidableEq, Repr

/-! ### Boot, bypass -/

/-- Hidden state of the reset sequencer and self-test (spec/02). -/
structure BootSt where
  /-- The straps are to be latched at the coming release (after a power-on or pin reset, R40). -/
  strapsDue : Bool := true
  /-- Self-test steps run; false once the last step has passed (R60). -/
  passed : Bool := false
  /-- The image step waits for GO (R45). -/
  waitGo : Bool := false
  /-- A soft reset is under way and runs the axes down first (R38). -/
  softPending : Bool := false
  /-- The default targets have been applied (R408). -/
  targetsDone : Bool := false
  /-- Building ticks begun since LISTENING was entered first; none before (R285, R408). -/
  listened : Option Nat := none
  /-- SELFTEST_WARN is still to be raised (R51). -/
  warnDue : Bool := false
  /-- Bytes the running flash bridge transaction reads (R54). -/
  bridgeLen : Nat := 0
deriving DecidableEq, Repr

/-- What ends when the class time has elapsed after the last edge (R67-R69). -/
inductive EndKind where
  | fall | leave | reset
deriving DecidableEq, Repr

/-- Bypass, admission and turn-back (spec/03). -/
structure BypassSt where
  txdisW : Bool := true
  txdisE : Bool := true
  /-- Line ticks since the last BYP_KA edge. -/
  sinceEdge : Nat := 0
  ending : Option EndKind := none
  /-- The pending insertion tick TI (R77). -/
  ti : Option Nat := none
  /-- The line tick that stands for TI while the insertion check is open (R79). -/
  checkFrom : Option Nat := none
  /-- The insertion has completed (R79). -/
  admitted : Bool := false
  /-- The pending stop tick TL (R81). -/
  tl : Option Nat := none
  /-- Staged turns (R73): effective tick and the side given up, none for a turn end. -/
  turns : List (Nat × Option Side) := []
  /-- A LEAVE has been asked for and none has come: counted cycles since the first LEAVE_REQ was sent (R82). -/
  leaveReq : Option Nat := none
  /-- That first LEAVE_REQ has been sent. -/
  leaveSent : Bool := false
  /-- Counted cycles since the last LEAVE_REQ was sent or queued (R182). -/
  leaveRep : Nat := 0
  wdExpired : Bool := false
  /-- The frame engine overran in this line tick (R24). -/
  frmOverrun : Bool := false
  /-- Engines whose TICK_OVERRUN has been raised in this cycle (R23). -/
  overruns : Nat := 0
  /-- Consecutive ticks with a good marker on each input (R79). -/
  goodW : Nat := 0
  goodE : Nat := 0
deriving DecidableEq, Repr

/-! ### The Span -/

/-- A tick tracker (R120-R122). `REP_STATUS_x.TRACKING` holds whether it has frame position. -/
structure Track where
  cyc8 : Nat := 0
  tick : Nat := 0
  misses : Nat := 0
  /-- The tick marker of the frame in progress is missing (R122). -/
  missing : Bool := false
  /-- The marker of the frame in progress is turned (R72). -/
  turned : Bool := false
  /-- A valid tick marker has arrived in this line tick. -/
  seen : Bool := false
deriving DecidableEq, Repr

/-- One tick marker's arrival (R154). -/
structure Arrival where
  tick : Nat
  time : Nat
  turned : Bool
deriving DecidableEq, Repr

/-- What one Span side keeps beyond its registers: the receiver and the repeater path of its input, and the transmitter
of its output (spec/04). -/
structure SpanSide where
  /-- Running disparity of the transmitter (R86). -/
  txRd : Bool := false
  /-- A valid tick marker has been received since the path began to fill (R104). -/
  marker : Bool := false
  /-- Occupancy O of the store, as the last decision or restart left it (R104, R106). -/
  occ : Nat := 0
  /-- The Headland as the path forwards it, until the row 31 check word goes (R105-R111). -/
  head : List (Bool × Word) := []
  /-- TERM_ID when the path began to fill (R90). -/
  fillId : Nat := 0
  /-- The comma-bearing word that lost word lock counts as the first of four (R92). -/
  carried : Bool := false
  /-- The input carries valid rows (R75), and consecutive rows that have not passed. -/
  rowsOk : Bool := false
  fails : Nat := 0
  /-- An automatic turn that gives this side up waits for the other input's next tick marker (R75). -/
  autoDue : Bool := false
  /-- The tick markers last received while the input was tracked, newest first: the frame's tick, the time of arrival in
  phases of the word clock, and whether the marker was turned (R154). -/
  arr : List Arrival := []
  /-- How far the last arrival lies from where the one before it puts it, in phases, until DELAY_STEP judges it (R163). -/
  dev : Option Int := none
  /-- The input has been tracked since the last reset. -/
  had : Bool := false
  /-- Words received for the wake matcher, and the places among them of the last matches (R96). -/
  heard : Nat := 0
  hits : List Nat := []
deriving DecidableEq, Repr

/-- Both Span sides. -/
structure SpanSt where
  w : SpanSide := {}
  e : SpanSide := {}
deriving DecidableEq, Repr

/-- How a row was judged on one copy (R119). -/
inductive Verdict where
  | pass | fail | turned
deriving DecidableEq, Repr

/-- The selector's record of one row of one frame (R131, R132). -/
structure RowRec where
  cyc8 : Nat
  tick : Nat
  row : Nat
  w : Option Verdict := none
  e : Option Verdict := none
  sel : Option Side := none
  lost : Bool := false
  /-- Line tick at which the first copy was judged. -/
  since : Nat := 0
  /-- Row 0: the frame's header has been taken, or is lost (R124). -/
  hdr : Bool := false
  /-- Row 0: HE_STATE of the frame's header (R207). -/
  he : Option Nat := none
deriving DecidableEq, Repr

/-- A container map (R134-R137). -/
structure CMap where
  gen : Nat := 0
  count : Option Nat := none
  crc : Nat := 0
  /-- Descriptor number to descriptor, held ones only. -/
  descs : List (Nat × Word) := []
  complete : Bool := false
deriving DecidableEq, Repr

/-- One subscription (R185). -/
structure Sub where
  cont : Nat
  dest : Nat
  param : Nat
deriving DecidableEq, Repr

/-- A staged SUBSCRIBE note: effective tick and entry words. -/
structure SubStage where
  t : Nat
  entries : List Word
deriving DecidableEq, Repr

/-- Data waiting for its presentation instant (R25-R28): the frame's tick, the tick of presentation, destination and
parameter of R185, the container and its words; `none` for a missing container. -/
structure PresItem where
  tag : Nat
  at_ : Nat
  dest : Nat
  param : Nat
  cont : Nat
  data : Option (List Word)
deriving DecidableEq, Repr

/-- The discovery offer of the last header (R129). -/
structure DiscOffer where
  frame : FrameId
  start : Nat
  foot : Nat
deriving DecidableEq, Repr

/-- The frame engine's state beyond its registers (spec/05). -/
structure FrameSt where
  trkW : Track := {}
  trkE : Track := {}
  /-- Consecutive ticks with no valid marker on either input (R166). -/
  noMarker : Nat := 0
  rows : List RowRec := []
  /-- A usable header has been taken since reset, so a generation is held (R127). -/
  hdrSeen : Bool := false
  /-- The frame whose header was taken last. -/
  hdrFrame : Option FrameId := none
  /-- The frame whose row 0 was selected last. -/
  row0Frame : Option FrameId := none
  /-- The terminal ID held when that row 0 was selected (R194). -/
  row0Id : Nat := 0
  /-- The carousel slot of that row 0 has still to be read (R130). -/
  slotDue : Bool := false
  /-- The latest frame whose row 0 was selected or lost. -/
  row0Last : Option FrameId := none
  /-- Staged P: effective tick and value (R127). -/
  pNext : Option (Nat × Nat) := none
  /-- P for work tagged before `pFrom` (R20, R29). -/
  pFrom : Nat := 0
  prevP : Nat := 0
  mapNext : Option Nat := none
  keyNext : Option Nat := none
  loopE : Nat := 0
  loopW : Nat := 0
  disc : Option DiscOffer := none
  carId : Nat := 0
  carPieces : Nat := 0
  /-- R152: this line cycle holds a usable header whose HE_STATE was not STARTING. -/
  counted : Bool := false
  curMap : CMap := {}
  pendMap : CMap := {}
  /-- The map that was current before `curFrom`, for work tagged earlier (R20). -/
  prevMap : CMap := {}
  curFrom : Nat := 0
  /-- Counted cycles since the last MAP_REQ for the current and the pending map (R184). -/
  curReq : Option Nat := none
  pendReq : Option Nat := none
  /-- The subscriptions before every staged change. -/
  subs : List Sub := []
  /-- Staged SUBSCRIBE notes by effective tick, those of one tick in the order they were staged (R185). A note stays here
  until no work tagged earlier than its tick is left (R20). -/
  subStage : List SubStage := []
  /-- LAST of each express channel that holds one, and the line tick at which it was set (R142). -/
  express : List (Nat × (Nat × Nat)) := []
  pres : List PresItem := []
  /-- The ticks lately counted in PRES_LATE (R28). -/
  lateTicks : List Nat := []
  /-- Tick and container of every subscribed container already delivered or found missing, of frames in progress (R139). -/
  settled : List (Nat × Nat) := []
  /-- A note header was malformed in this frame: the region is no longer parsed (R174). -/
  regionStopped : Bool := false
deriving DecidableEq, Repr

/-! ### Registration, ranging, time -/

/-- A held direction (R163-R164). -/
structure Held where
  /-- A LOOP_GEN first received after the step has come. -/
  fresh : Bool := false
  /-- Counted cycles since the step. -/
  cycles : Nat := 0
  stale : Bool := false
  /-- The step in arrival that caused it, in phases. -/
  step : Int := 0
deriving DecidableEq, Repr

/-- What the measurement under way has gathered (R155, R156): how many ticks, the last of them, and the sums over them of
t_W - t_E in phases and of the two store occupancies in words. On an open chain `d` sums the arrival at East of the turned
eastbound marker less t_E. -/
structure Meas where
  n : Nat := 0
  last : Nat := 0
  d : Int := 0
  oW : Nat := 0
  oE : Nat := 0
deriving DecidableEq, Repr

/-- A ranging result waiting for the next tick boundary (R157). -/
structure RangeRes where
  dE : Int
  dW : Int
  mode : Nat
  gen : Nat
  step : Bool
  /-- Both holds end with it (R164). -/
  release : Bool
  /-- What building time moves by, in phases, where it is a time step. -/
  diff : Int
deriving DecidableEq, Repr

/-- The post-ACK work on an ASSIGN (R217). -/
structure AssignWork where
  nonce : List Byte
  id : Nat
  eH : List Byte
  sig : List Byte
deriving DecidableEq, Repr

/-- Registration, ranging and time (spec/06). -/
structure RegSt where
  /-- A CLAIM is being prepared (R214). -/
  preparing : Bool := false
  prepared : Bool := false
  ePub : List Byte := []
  claimBody : List Byte := []
  zS : List Byte := []
  /-- e_T as the signature unit's registration operations use it (R217; notes/assumptions/31.md). -/
  eT : List Byte := []
  /-- Discovery offers still to skip (R146). -/
  backoff : Nat := 0
  /-- A grant entry bearing the ID has come in this cycle (R151). -/
  granted : Bool := false
  /-- Counted cycles since the last CLAIM (R147). -/
  claimTimer : Option Nat := none
  /-- The last matching ASSIGN body and the tag it was answered with (R218). -/
  lastAssign : Option (List Byte × List Byte) := none
  assignWork : Option AssignWork := none
  /-- The LOOP_GEN in use was first received after ADMIT_DONE (R155). -/
  loopFresh : Bool := false
  meas : Meas := {}
  pendRange : Option RangeRes := none
  /-- What each applied delay still has to move, in phases (R162). -/
  slewE : Int := 0
  slewW : Int := 0
  /-- What building time still has to move after FLYWHEEL (R168). -/
  slewT : Int := 0
  heldE : Option Held := none
  heldW : Option Held := none
  jumps : Nat := 0
  report : Option (List Byte) := none
  reportRep : Nat := 0
  ackE : Int := 0
  ackW : Int := 0
  /-- Signed D and R of the last result, in phases. -/
  lastD : Int := 0
  lastR : Int := 0
  flyPrior : Option TermState := none
  /-- Time held on the oscillator with both directions held (R165). -/
  bothHeld : Bool := false
  pendTime : Option (List Byte × Nat) := none
  pendStep : Option Nat := none
deriving DecidableEq, Repr

/-! ### Notes and windows -/

/-- An upstream note in the queue (R192). -/
structure UpNote where
  type : Nat
  seq : Nat
  body : List Byte
  age : Nat
deriving DecidableEq, Repr

/-- Notes (spec/07). -/
structure NoteSt where
  up : List UpNote := []
  upSeq : Nat := 0
  /-- SEQ and body of the last note of each type: a repeat keeps its SEQ. -/
  last : List (Nat × (Nat × List Byte)) := []
  heldKey : Option Note := none
  /-- The status of the last note of the ID stream, for its duplicates (R178); `none` while it is held. -/
  idStatus : Option Nat := none
deriving DecidableEq, Repr

/-- An accepted window (R195, R201). -/
structure Win where
  frame : FrameId
  id : Nat
  mask : Nat
  start : Nat
  foot : Nat
  tag : Nat
  cls : Nat
deriving DecidableEq, Repr

/-- A locked burst: the words after the delimiter up to the window check, and where it has still to go (R203). -/
structure Burst where
  win : Win
  words : List Word
  toW : Bool
  toE : Bool
  /-- Line tick of the lock, and from the window's start on the first copy on, of that. -/
  since : Nat
  started : Bool := false
  notClear : Bool := false
  wrote : Bool := false
  /-- It was kept from a copy that met R205, by R207 or because its time was up. -/
  refused : Bool := false
deriving DecidableEq, Repr

/-- Words a window put into a row that is still passing: side, row, index within the row, words, and what is XORed into
the row check word (R210). -/
structure Over where
  side : Side
  row : Nat
  at_ : Nat
  words : List (Bool × Word)
  delta : Word
deriving DecidableEq, Repr

/-- Upstream windows (spec/08). Burst buffers 0 to 7; places from 8 on stand for NO_DATA bursts that found no buffer free
(R203). -/
structure WinSt where
  wins : List Win := []
  bufs : List (Option Burst) := List.replicate 8 none
  puts : List Over := []
  /-- The window being written on each side, which a stop cuts, and the windows lately cut (R207). -/
  openW : Option Win := none
  openE : Option Win := none
  cuts : List Win := []
  /-- What came too late for a window of a frame, so that its other window does not take it: queues and notes (R202). -/
  lateQ : List (FrameId × Nat) := []
  lateN : List (FrameId × UpNote) := []
deriving DecidableEq, Repr

/-! ### Keys and the cipher engine -/

/-- A cipher job (R229-R231): downstream for a container, upstream for a window start. -/
structure Job where
  up : Bool
  tag : Nat
  obj : Nat
  blocks : Nat
  /-- The deadline, in words from the start of the frame of its tag (R230). -/
  due : Int
  /-- The core it runs on. -/
  core : Option Nat := none
  done : Bool := false
  /-- The container's words, held until the keystream is there. -/
  words : Option (List Word) := none
deriving DecidableEq, Repr

/-- Use of one key in its generation (R222). -/
structure KeyUse where
  invocations : Nat := 0
  failures : Nat := 0
  disabled : Bool := false
deriving DecidableEq, Repr

/-- Keys, cipher, entropy and signature unit (spec/09). -/
structure KeySt where
  /-- The key store: slot to key bytes (R213). -/
  slots : List (Nat × List Byte) := []
  /-- Keys accepted and not yet usable: slot, building tick at which they are. -/
  expanding : List (Nat × Nat) := []
  uses : List (Nat × KeyUse) := []
  /-- Pending erasures of earlier generations: tick and generation (R221). -/
  eraseAt : List (Nat × Nat) := []
  prevGen : Nat := 0
  genFrom : Nat := 0
  jobs : List Job := []
  demand : Nat := 0
  /-- Blocks demanded by the jobs of each frame lately (R231). -/
  loads : List (Nat × Nat) := []
  /-- Event ENTROPY_FAIL has been raised in this cycle (R233). -/
  entRaised : Bool := false
  housePub : List Byte := []
deriving DecidableEq, Repr

/-! ### The Thresher -/

/-- A table entry in use (R243); VALID is its presence. -/
structure TEntry where
  add : Bool
  del : Bool
  profile : Nat
  key : Nat
  action : Word
  md : Word
deriving DecidableEq, Repr

/-- A partial packet of one packet-stream container (R239). -/
structure Partial where
  pseq : Nat
  bytes : List Byte
  /-- It grew beyond 2048 bytes: the rest of its segments are discarded. -/
  long : Bool
deriving DecidableEq, Repr

/-- A packet on the work list (R255): its tag tick, source code, class, container and bytes. -/
structure Packet where
  tag : Nat
  src : Nat
  cls : Nat
  cont : Nat
  bytes : List Byte
deriving DecidableEq, Repr

/-- The Thresher (spec/10). A table maps a place to the entry it holds: `way * 8192 + bucket * 4 + i`, and
16384 onward for the stash. -/
structure ThSt where
  tables : List (List (Nat × TEntry)) := [[], [], [], []]
  /-- Effective tick of the committed batch (R253). -/
  commitT : Option Nat := none
  partials : List (Nat × Partial) := []
  work : List Packet := []
  /-- Tokens in 1/48 of a punt, and the RATE and BURST in use (R250). -/
  learnTok : Nat := 64 * 48
  faultTok : Nat := 16 * 48
  learnCfg : Nat × Nat := (1000, 64)
  faultCfg : Nat × Nat := (100, 16)
  /-- Registers a staged write has changed: effective tick, offset and the value that work tagged earlier still meets
  (R20); oldest first. -/
  prior : List (Nat × Nat × Word) := []
deriving DecidableEq, Repr

/-! ### The Granary -/

/-- A stored item (R260): its header's fields, the bytes, its tag tick and what the Span sink has already sent. -/
structure Item where
  deadline : Nat
  md : Word
  colour : Nat
  csum : Bool
  src : Nat
  pflags : Nat
  cont : Nat
  tag : Nat
  bytes : List Byte
  /-- An opaque container's tick (R297). -/
  container : Bool := false
  /-- The first bytes hold a 5-byte punt header (R249). -/
  punt : Bool := false
  sent : Nat := 0
  /-- Cells the item holds: those taken on arrival and any its sink's reserve added (R280). -/
  cells : Nat := 0
deriving DecidableEq, Repr

/-- An indirect operation in progress (R266). -/
structure IndOp where
  write : Bool
  obj : Nat
  idx : Nat
deriving DecidableEq, Repr

/-- The Granary, queues and schedulers (spec/11). Sparse maps from queue, port or meter number. -/
structure QueueSt where
  /-- Configuration records that differ from their default, three words each. -/
  cfg : List (Nat × List Word) := []
  queues : List (Nat × List Item) := []
  /-- Deficit, in sink units, signed. -/
  deficit : List (Nat × Int) := []
  /-- How far each queue's shaper bucket lies below its BURST, in 1/256 units. -/
  shaperDebt : List (Nat × Nat) := []
  pseq : List (Nat × Nat) := []
  /-- The queues that hold items, in the order of their turns. -/
  turn : List Nat := []
  portCfg : List (Nat × List Word) := []
  portDebt : List (Nat × Nat) := []
  meterCfg : List (Nat × List Word) := []
  /-- How far Tc and Tp lie below CBS and PBS, in 1/256 units. -/
  tcDebt : List (Nat × Nat) := []
  tpDebt : List (Nat × Nat) := []
  ind : Option IndOp := none
  /-- The five reserves, Span first (R280). -/
  reserve : List Nat := [64, 64, 64, 64, 64]
  /-- A written bank map waiting for the tick boundary (R259). -/
  bankNext : Option Word := none
  /-- Boundaries left until each port's hold-down has ended with its last tick over, and ports whose hold-down ended with the link down (R278). -/
  hold : List (Nat × Nat) := []
  flushed : List Nat := []
deriving DecidableEq, Repr

/-! ### The host ring engine -/

/-- The record of one executed command (R299, R301). -/
structure CmdRec where
  cseq : Nat
  status : Nat
  sub : Nat
  result : Nat
deriving DecidableEq, Repr

/-- A TX descriptor whose data is being read (R295). -/
structure TxFlight where
  q : Nat
  /-- Building tick of the poll point at which the descriptor was fetched (R292). -/
  tick : Nat
  queue : Nat
  flags : Nat
  meter : Nat
  deadline : Nat
  md : Word
  len : Nat
deriving DecidableEq, Repr

/-- The ring engine (spec/12). Ring codes: 0x00-0x0F TXQ, 0x10-0x1F RXQ, 0x20-0x2F FL, 0x30 EVT, 0x31 CMD. -/
structure HostSt where
  /-- Producer and consumer index of each ring. -/
  idx : List (Nat × (Nat × Nat)) := []
  records : List CmdRec := []
  /-- The command in execution that holds back the ring (R298). -/
  wait : Option CmdHdr := none
  /-- A HARVEST waiting for its tick boundary, and its buffer (R466). -/
  harvest : Option (CmdHdr × Nat × Nat) := none
  events : List Event := []
  evtLost : Nat := 0
  pollPend : Bool := false
  pollNo : Nat := 0
  /-- Building tick of the last poll point. -/
  pollTick : Nat := 0
  /-- An orderly stop is in progress (R288). -/
  stopping : Bool := false
  statusSeq : Nat := 0
  lastTxq : Nat := 15
  heartbeat : Nat := 0
  /-- Ticks since the heartbeat last changed, and whether that made the host absent (R289). -/
  hbTicks : Nat := 0
  hbAbsent : Bool := false
  flight : Option TxFlight := none
  /-- For each TXQ: producer indices adopted, each with the building tick of the poll point whose read covered it, oldest
  first; what has been consumed is forgotten (R292). -/
  marks : List (Nat × List (Nat × Nat)) := []
  /-- TXQs whose head descriptor the pool could not take since the last doorbell read (R263, R294). -/
  blocked : List Nat := []
  /-- What the host has programmed in configuration space, and the pending-bit array (R282, R303). -/
  pci : PciHost := {}
  pba : List Nat := []
  /-- Vectors to be signalled at the end of the poll point, and poll points each must still wait (R303). -/
  vecs : List Nat := []
  holdoff : List (Nat × Nat) := []
deriving DecidableEq, Repr
/-! ### Local Ethernet ports and the boundary clock -/

/-- The data set an Announce message carries (R323): grandmaster identity and quality, and who sent it. -/
structure Announce where
  prio1 : Nat
  cls : Nat
  acc : Nat
  var : Nat
  prio2 : Nat
  gm : Nat
  steps : Nat
  sender : Nat
deriving DecidableEq, Repr

/-- A foreign master heard on a port: its latest data set and the building ticks of its last two Announce messages, the
latest first. -/
structure Foreign where
  ds : Announce
  heard : List Nat
deriving DecidableEq, Repr

/-- A PTP message that waits for its port to send again (R322, R328): one a timer made due, or the answer to a request
with its receive capture. -/
inductive PtpOut where
  | due (kind : PtpKind)
  | delayResp (req : List Byte) (cap : Nat)
  | pdelayResp (req : List Byte) (cap : Nat)
deriving DecidableEq, Repr

/-- A local port beyond its registers (spec/13). -/
structure PortSt where
  /-- The transmitter is in electrical idle (R58, R311). -/
  txIdle : Bool := true
  /-- The configuration word the port sends while it negotiates (R312, R314). -/
  advert : Nat := 0
  /-- The partner advertised half duplex; held until negotiation restarts (R313). -/
  anHalf : Bool := false
  /-- The partner signals remote fault (R313). -/
  anRf : Bool := false
  /-- The SGMII PHY word holds the link down (R314). -/
  sgDown : Bool := false
  /-- Quanta last loaded into the running pause timer (R322). -/
  quanta : Nat := 0
  foreign : List Foreign := []
  /-- PTP messages diverted from the MAC, oldest first, with the receive capture of R329. -/
  ptpIn : List (List Byte × Nat) := []
  seqAnnounce : Nat := 0
  seqSync : Nat := 0
  seqPdelay : Nat := 0
  /-- The Pdelay_Req outstanding: sequence number and transmit time in phases. -/
  pdReq : Option (Nat × Nat) := none
  /-- The Pdelay_Resp heard for it: its receive time in phases and the partner's receipt time in ns, and its
  correctionField. -/
  pdResp : Option (Nat × Nat × Int) := none
  /-- PTP messages waiting for the port to send again, oldest first (R322). -/
  ptpWait : List PtpOut := []
  /-- Building tick of the last Announce, or of the entry to PTP LISTENING (R323, R326). -/
  annAt : Nat := 0
deriving DecidableEq, Repr

/-- The ports and the boundary clock. -/
structure EthSt where
  ports : List PortSt := List.replicate 6 {}
  /-- clockClass before FLYWHEEL, 6 or 13 (R325). -/
  flyClass : Option Nat := none
  holdoverOver : Bool := false
  /-- Ticks in FLYWHEEL. -/
  flyTicks : Nat := 0
deriving DecidableEq, Repr

/-! ### Show ports -/

/-- One TDM output slot (R341): the last original sample word and its place in the loss run. -/
structure SlotSt where
  last : Word := 0
  run : Nat := 0
  /-- A sample has been presented on it since it was last idle. -/
  fed : Bool := false
deriving DecidableEq, Repr

/-- An LTC generator (R350). -/
structure LtcSt where
  /-- The 8 data bytes of the frame sent last, and its number in GEN mode. -/
  last : Option (List Byte) := none
  /-- Building time, in phases, at which the last frame began. -/
  began : Option Nat := none
  /-- A record or item whose frame starts at this presentation instant. -/
  first : Option (List Byte) := none
  /-- A record to be sent when the frame in progress has ended. -/
  waiting : Option (List Byte) := none
  /-- Number of the last frame sent in GEN mode. -/
  frame : Option Nat := none
  /-- Frames sent in free run since the last record. -/
  freewheel : Nat := 0
deriving DecidableEq, Repr

/-- A step of an RDM discovery (R347): un-mute all, search a range of UIDs, or mute a responder found in one. -/
inductive DiscTask where
  | unmute
  | branch (lo hi : Nat)
  | mute (uid lo hi : Nat)
deriving DecidableEq, Repr

/-- A discovery under way (R347): what is left to do, the responders found, oldest first, whether its request is the one on
the line, and whether its turn comes next. -/
structure Disc where
  todo : List DiscTask
  found : List Nat := []
  active : Bool := false
  turn : Bool := true
deriving DecidableEq, Repr

/-- A DMX universe (spec/14). -/
structure DmxSt where
  /-- Slots that differ from zero, 1 to 512. -/
  buf : List (Nat × Byte) := []
  /-- Ticks since data last came. -/
  quiet : Nat := 0
  /-- Building tick up to which a packet or RDM transaction holds the line. -/
  busyTo : Option Nat := none
  /-- Alternate start code packets and RDM requests waiting for a gap. -/
  alternates : List (List Byte) := []
  requests : List (List Byte) := []
  /-- The RDM request in progress and its tick stamp. -/
  rdm : Option (List Byte × Word) := none
  /-- A NULL packet has been sent and its gap is not yet used. -/
  gap : Bool := false
  /-- A scheduled break is due, or waits for the line (R343). -/
  breakDue : Bool := false
  /-- An express GO waits for the end of an RDM transaction (R356). -/
  goDue : Bool := false
  /-- The discovery under way (R347), and RDM_EN at the last tick boundary. -/
  disc : Option Disc := none
  rdmWas : Bool := false
deriving DecidableEq, Repr

/-- The show-port engine (spec/14). -/
structure ShowSt where
  slots : List (Nat × SlotSt) := []
  /-- Data taken from a show queue in the last tick, to be presented in the next (R332). -/
  taken : List (Nat × List Byte) := []
  /-- Show queues found empty in the last tick with the host absent and HA_POLICY IDLE (R336). -/
  idleTaken : List Nat := []
  dmx : List DmxSt := List.replicate 8 {}
  ltc : List LtcSt := List.replicate 2 {}
  midi : List (List Byte) := [[], []]
  /-- A byte is on the wire. -/
  midiBusy : List Bool := [false, false]
  /-- Contacts closed by this terminal, and those last set from queue 132. -/
  cueOut : BitVec 24 := 0
  cueFromQueue : BitVec 24 := 0
  /-- Express pulses running: contact and ticks left. -/
  pulses : List (Nat × Nat) := []
  /-- Edges that qualified in this tick: entry bytes and the tick of the edge, oldest first. -/
  edges : List (Nat × List Byte) := []
  /-- Output groups (the numbers of event SHOW_IDLE) that have started (R331); the others are idle. -/
  started : List Nat := []
  /-- Capture items of the current tick: queue and bytes (R332). -/
  caps : List (Nat × List Byte) := []
  /-- Index of the last edge emitted by each genlock output. -/
  glkLast : List (Option Int) := List.replicate 4 none
  /-- The terminal was RUNNING with SHW ON at the last tick boundary (R347). -/
  wasRunning : Bool := false
deriving DecidableEq, Repr

/-! ### Motion -/

/-- One profile segment (R188, R368): acceleration limit and end velocity in Q16.16, duration in ticks. -/
structure Seg where
  acc : Nat
  vEnd : Int
  dur : Nat
deriving DecidableEq, Repr

/-- One motion axis beyond its registers (spec/15). -/
structure AxSt where
  /-- Fraction of the commanded position, 1/65536 count. -/
  frac : Nat := 0
  /-- Commanded velocity in Q16.16 counts per tick; in ACTIVE, V_prev. -/
  v : Int := 0
  /-- ENABLE of the setpoint presented last. -/
  lastEn : Option Bool := none
  /-- Ticks left of the ENABLING step or of BRAKE_SET. -/
  timer : Nat := 0
  /-- BRAKING ends in HELD. -/
  toHeld : Bool := false
  /-- Ticks since the run-down began. -/
  rdTicks : Nat := 0
  /-- Velocity and position (in 1/65536 count) at the start of the run-down. -/
  v0 : Int := 0
  p0 : Int := 0
  /-- The profile running: number, segment, ticks of it done. -/
  prof : Option (Nat × Nat × Nat) := none
  /-- Stored profiles: number to length and segments. -/
  profiles : List (Nat × Nat × List Seg) := []
  /-- The drive enable pin. -/
  drvEn : Bool := false
  idxSeen : Bool := false
deriving DecidableEq, Repr

/-- Both axes. -/
structure MotSt where
  axes : List AxSt := [{}, {}]
deriving DecidableEq, Repr

/-! ### The sensor front end -/

/-- The half now running (R385): latched settings, reason bits that changed, and what it has delivered. -/
structure HalfRun where
  slot : Nat
  second : Bool
  cfg : Word
  pins : Word
  /-- Calibration of its setting (R391). -/
  cal : Word
  /-- Groups of R387 that changed: bit 0 CHAN, 1 GAIN, 2 FILT, 3 EXC. -/
  changed : Nat
  firstTag : Nat
  words : List Word
deriving DecidableEq, Repr

/-- The sensor front end (spec/16). -/
structure AfeSt where
  /-- The sequencer has started. -/
  started : Bool := false
  run : Option HalfRun := none
  /-- Slot and half to run next. -/
  next : Nat × Bool := (0, false)
  /-- First tick at which it may start. -/
  nextAt : Option Nat := none
  /-- Settings of the half that ran last on the converter; `none` after a start. -/
  prev : Option (Word × Word × Bool) := none
  /-- Last valid result of each slot, as binary32. -/
  lastValid : List (Nat × BitVec 32) := []
  openNow : Nat := 0
  openRaised : Nat := 0
  /-- Settings waiting for calibration, and those being calibrated. -/
  calReq : Nat := 0
  cal : Nat := 0
  /-- Ticks the calibration still takes (R392). -/
  calLeft : Nat := 0
  /-- Items waiting for the end of the tick. -/
  items : List (List Byte) := []
  /-- New output values, due at the next tick, and the values in force. -/
  pfoDue : List (Nat × BitVec 32) := []
  pfoOut : List (Nat × Nat) := []
  /-- Ticks since the source slot of each output last gave a valid result. -/
  pfoSince : List Nat := [0, 0, 0, 0]
  pfoFault : Nat := 0
deriving DecidableEq, Repr

/-! ### Power -/

/-- A requested transition (R405): its tick, the targets a POWER_ORDER carries, the WAIT it completes, and whether a
wake asked for it. -/
structure PwrReq where
  t : Nat
  order : Option (List Nat) := none
  cmd : Option CmdHdr := none
  wake : Bool := false
deriving DecidableEq, Repr

/-- The power controller and the keeper (spec/17). -/
structure PwrSt where
  reqs : List PwrReq := []
  /-- The transition running: its request and the targets it moves to. -/
  run : Option (PwrReq × List Nat) := none
  resting : Bool := false
  /-- Ticks of the present rest, as the keeper measures it (R411). -/
  rest : Nat := 0
  /-- Keeper countdown, in ticks. -/
  ktimer : Option Nat := none
  /-- The lane gates of the local ports in force, and a write of PORT_OFF that waits for the tick boundary (R10, R401). -/
  gates : Nat := 0
  gateDue : Bool := false
  /-- Spine rest was ended by a Zwirdo match that woke nothing; it resumes at the next tick boundary (R419). -/
  restAgain : Bool := false
  /-- MGT has been OFF, and the firmware is to be loaded again when it returns (R403). -/
  reload : Bool := false
deriving DecidableEq, Repr

/-! ### Zwirdo, gleaning, lane tests, ledger, JTAG -/

/-- The Zwirdo port (spec/18). -/
structure ZwdSt where
  mbox : List Byte := List.replicate 256 0
  /-- The mailbox request running: 1 write, 2 read, 3 delete. -/
  req : Option Nat := none
deriving DecidableEq, Repr

/-- Gleaning, images and settings (spec/19), beyond what the flash holds. -/
structure GleanSt where
  /-- Accepted pieces waiting for flash, oldest first. -/
  buf : List (Nat × List Byte) := []
  /-- Next staging offset of a host collection. -/
  hostNext : Option Nat := none
  /-- A staged swap: its tick and the RESET_CAUSE bit of its source. -/
  swap : Option (Nat × Nat) := none
  /-- Ticks since the end of self-test, while on trial. -/
  trialTicks : Nat := 0
  /-- SETTINGS_FRESH of the running image (R450). -/
  fresh : Bool := false
  /-- Every piece is held and verification is due. -/
  verifyDue : Bool := false
  /-- Records applied since the last reset and not stored, key to value (R187). -/
  live : List (Nat × List Byte) := []
deriving DecidableEq, Repr

/-- A checker (R454): its own generator's last bits, newest first; the bits that matched while it is not locked; and while
it is, the bits compared and the places of the errors among the last 1024. -/
structure ChkSt where
  reg : List Bool := []
  run : Nat := 0
  pos : Nat := 0
  errs : List Nat := []
deriving DecidableEq, Repr

/-- One lane's tests (R451-R459), beyond its registers. -/
structure LaneSt where
  startDue : Bool := false
  /-- A start, and an end with its END_CAUSE, that wait for the next tick boundary (R451, R458). -/
  startAsk : Bool := false
  endAsk : Option Nat := none
  /-- A running test is to end at the next tick boundary: END_CAUSE. -/
  endDue : Option Nat := none
  ticks : Nat := 0
  /-- Compared bits below 1024, carried. -/
  rem : Nat := 0
  chk : ChkSt := {}
  /-- Errors still to place; `none` while none is placed, `some 0` for a continuous run. -/
  inject : Option Nat := none
  /-- Line bits since the last error placed, in 1/6 bit. -/
  injBits : Nat := 0
  /-- The lane is newly in CDR lock and adaptation is due (R97, R451). -/
  adaptDue : Bool := false
  /-- LANEn_TX in force (R98). -/
  tx : Word := 0x52
deriving DecidableEq, Repr

/-- A staged clear (R465): its groups, whether it came from LEDGER_CLEAR, whether it waits for a Harvest, and the tick
from which it applies. -/
structure ClearReq where
  groups : Nat
  fromReg : Bool
  onHarvest : Bool
  t : Nat
deriving DecidableEq, Repr

/-- The ledger's staged clears, oldest first (R465). -/
structure LedgerSt where
  clears : List ClearReq := []
deriving DecidableEq, Repr

/-- The test access port's selected instruction. -/
inductive JtagIr where
  | extest | sample | highz | clamp | bypass
deriving DecidableEq, Repr

/-- The test access port (R485). -/
structure JtagSt where
  ir : JtagIr := .bypass
  capture : BitVec 512 := 0
  update : BitVec 512 := 0
deriving DecidableEq, Repr

/-! ### The state -/

/-- Faults. The spec gives every command an effect in every state this model can be in, so no meaning raises one. -/
inductive Fault where
  /-- Raised by no meaning (safe): kept so that the type is inhabited. -/
  | neverRaised
deriving DecidableEq, Repr

/-- Refusals. -/
inductive Refusal where
  /-- Raised by an arm of `exec` whose command has no meaning yet (safe: the model stops). -/
  | notModelled (mnemonic : String)
deriving DecidableEq, Repr

/-- The state of the block. Registers whose contents are plain are in `regs`, a canonical sparse map from BAR0 offset
to value whose default is the register's reset value; the rest of the machine stands in the records above. -/
structure State where
  term : TermState
  regs : SMap Word
  pcie : PathLatches
  zwirdo : PathLatches
  mgmt : PathLatches
  /-- The line tick and the building tick, counted from cycle 0 modulo the epoch (R13, R14). -/
  line : Nat
  bt : Nat
  staged : List Staged
  /-- Registers that take effect at a tick boundary and have been written since the last one (R21). -/
  wrote : List Nat
  boot : BootSt
  byp : BypassSt
  span : SpanSt
  frame : FrameSt
  regn : RegSt
  note : NoteSt
  win : WinSt
  key : KeySt
  th : ThSt
  q : QueueSt
  host : HostSt
  eth : EthSt
  show_ : ShowSt
  mot : MotSt
  afe : AfeSt
  pwr : PwrSt
  zwd : ZwdSt
  glean : GleanSt
  lanes : List LaneSt
  ledger : LedgerSt
  jtag : JtagSt
  /-- The flash: addressed bytes in canonical form (notes/assumptions/8.md). -/
  flash : List Host.Cell
  /-- The model's own counter of free values (notes/assumptions/3.md). -/
  freeCtr : Nat
  /-- What the block has sent, newest first (notes/assumptions/6.md). -/
  out : List Output
  /-- Commands waiting, first in, first out. -/
  pending : List Instr
deriving DecidableEq, Repr

/-- The machine right after a power-on reset, held in RESET with the straps not yet latched (spec/02 R33, R40): every
register at its default (RESET_CAUSE.POR set among them), the flash with nothing listed, no command waiting. -/
def State.reset : State where
  term := .reset
  regs := []
  pcie := {}
  zwirdo := {}
  mgmt := {}
  line := 0
  bt := 0
  staged := []
  wrote := []
  boot := {}
  byp := {}
  span := {}
  frame := {}
  regn := {}
  note := {}
  win := {}
  key := {}
  th := {}
  q := {}
  host := {}
  eth := {}
  show_ := {}
  mot := {}
  afe := {}
  pwr := {}
  zwd := {}
  glean := {}
  lanes := List.replicate 8 {}
  ledger := {}
  jtag := {}
  flash := []
  freeCtr := 0
  out := []
  pending := []

end Sys2Proof.Machine
end

