-- ==== Sys2Proof/Machine/Ops.lean ====
section
/-! DEFINITION. The shared operations over the state: registers and their fields, the ledger (R461-R463), the alert
(R426), the event queue (R302), free values, what is sent outside, and the record of times (R13, R18, R173). Every
operation takes the state last. -/

namespace Sys2Proof.Machine

/-- What a command's meaning answers. -/
abbrev Res := Host.Outcome State Fault Refusal

/-- A meaning that always completes. -/
def done (s : State) : Res := .next s

/-! ### Registers -/

/-- The stored value of a register. -/
def reg (off : Nat) (s : State) : Word := SMap.get (regDefault off) s.regs off

/-- Store a register. -/
def setReg (off : Nat) (v : Word) (s : State) : State := { s with regs := SMap.put (regDefault off) s.regs off v }

/-- A field of a register. -/
def rd (f : Fld) (s : State) : Nat := fget (reg f.off s) f.hi f.lo

/-- Replace a field. -/
def wr (f : Fld) (v : Nat) (s : State) : State := setReg f.off (fput (reg f.off s) f.hi f.lo v) s

/-- Is a one-bit field set. -/
def on (f : Fld) (s : State) : Bool := rd f s != 0

/-- A field as signed two's complement of its own width. -/
def rdS (f : Fld) (s : State) : Int := toSigned (f.hi + 1 - f.lo) (rd f s)

/-! ### Parts of the state -/

/-- Update the converter. -/
def setAfe (f : AfeSt → AfeSt) (s : State) : State := { s with afe := f s.afe }

/-- Update the boot sequencer. -/
def setBoot (f : BootSt → BootSt) (s : State) : State := { s with boot := f s.boot }

/-- Update the bypass and keep-alive. -/
def setByp (f : BypassSt → BypassSt) (s : State) : State := { s with byp := f s.byp }

/-- Update the image collection. -/
def setGlean (f : GleanSt → GleanSt) (s : State) : State := { s with glean := f s.glean }

/-- Update the registration. -/
def setRegn (f : RegSt → RegSt) (s : State) : State := { s with regn := f s.regn }

/-- Update the keys. -/
def setKey (f : KeySt → KeySt) (s : State) : State := { s with key := f s.key }

/-- Update the test engine of lane `n`. -/
def setLane (n : Nat) (f : LaneSt → LaneSt) (s : State) : State := { s with lanes := modAt s.lanes n f }

/-- Update the power controller. -/
def setPwr (f : PwrSt → PwrSt) (s : State) : State := { s with pwr := f s.pwr }

/-- Update the host engine. -/
def setHost (f : HostSt → HostSt) (s : State) : State := { s with host := f s.host }

/-- Update the show engine. -/
def setShow (f : ShowSt → ShowSt) (s : State) : State := { s with show_ := f s.show_ }

/-- Update the frame engine. -/
def setFrame (f : FrameSt → FrameSt) (s : State) : State := { s with frame := f s.frame }

/-- Update what a Span side keeps. -/
def setSpan (sd : Side) (f : SpanSide → SpanSide) (s : State) : State :=
  match sd with
  | .west => { s with span := { s.span with w := f s.span.w } }
  | .east => { s with span := { s.span with e := f s.span.e } }

/-- Update the windows. -/
def setWin (f : WinSt → WinSt) (s : State) : State := { s with win := f s.win }

/-- Update the notes. -/
def setNote (f : NoteSt → NoteSt) (s : State) : State := { s with note := f s.note }

/-- Update the Zwirdo. -/
def setZwd (f : ZwdSt → ZwdSt) (s : State) : State := { s with zwd := f s.zwd }

/-- The building tick moves (R13). -/
def setBt (t : Nat) (s : State) : State := { s with bt := t }

/-- The line tick moves (R13). -/
def setLine (t : Nat) (s : State) : State := { s with line := t }
def setWrote (l : List Nat) (s : State) : State := { s with wrote := l }

/-- Do `f` where the condition holds. -/
def whenB (c : Bool) (f : State → State) (s : State) : State := if c then f s else s

/-! ### Alert, ledger, events -/

/-- R426: a condition sets its sticky alert bit; a newly set enabled bit asserts the alert again. -/
def alertSet (bit : Nat) (s : State) : State :=
  let st := rd F.ZWD_ALERT_STATUS s
  if nbit st bit then s
  else
    let s1 := wr F.ZWD_ALERT_STATUS (st + 2 ^ bit) s
    if nbit (rd F.ZWD_CFG_ALERT_EN s) bit then wr F.ZWD_ALERT_ACKED 0 s1 else s1

/-- The largest count (R461). -/
def countMax : Nat := 2 ^ 40 - 1

/-- Add to a counter with saturation; also tell whether it newly saturated. -/
def bump (i n : Nat) (s : State) : State × Bool :=
  let a := counterAddr i
  let v := (reg a s).toNat
  let v' := if countMax ≤ v + n then countMax else v + n
  (setReg a (BitVec.ofNat 40 v') s, decide (v < countMax) && decide (v' = countMax))

/-- R463: set a counter's group bit; tell whether its group's summary bit went from 0 to 1. -/
def satMark (i : Nat) (s : State) : State × Bool :=
  let g := groupOf i
  let b := i - (ledgerGroups.getD g (0, 0)).1
  let f := F.LEDGER_GRP_SAT_SAT g
  let s1 := wr f (rd f s ||| 2 ^ b) s
  let sm := rd F.LEDGER_SUMMARY_SAT s1
  if nbit sm g then (s1, false) else (alertSet A.SAT (wr F.LEDGER_SUMMARY_SAT (sm + 2 ^ g) s1), true)

/-- R52, R464: in RESET and HOLDING the engines are stopped and counting has no effect. -/
def countsNow (s : State) : Bool :=
  match s.term with
  | .reset | .holding => false
  | _ => true

/-- R302: an event that finds the internal queue of 64 full is dropped and counted in EVT_LOST. If that counter
saturates here, its LEDGER_SAT event is dropped in the same way. -/
def dropEvent (s : State) : State :=
  let s0 := { s with host := { s.host with evtLost := s.host.evtLost + 1 } }
  if countsNow s0 then
    let (s1, sat) := bump C.EVT_LOST 1 s0
    if sat then
      let (s2, newGroup) := satMark C.EVT_LOST s1
      if newGroup then { s2 with host := { s2.host with evtLost := s2.host.evtLost + 1 } } else s2
    else s1
  else s0

/-- One fresh free value of `w` bits: the spec leaves the value open. -/
def fresh (w : Nat) (s : State) : BitVec w × State :=
  (Config.freeBits w s.freeCtr, { s with freeCtr := s.freeCtr + 1 })

/-- R173: the tick stamp of an absolute tick: the low 34 bits of the cycle, then the tick. -/
def stampOf (t : Nat) : Word := BitVec.ofNat 40 (t / 48 % 2 ^ 34 * 64 + t % 48)

/-- R302: the events EVT can take at the next poll point: its free entries while the engine is RUNNING and the ring is
enabled and not stopped; a ring has at most 2^16 (R287). -/
def evtRoom (s : State) : Nat :=
  let i := SMap.get (0, 0) s.host.idx 0x30
  let cfg := reg R.EVT_CFG s
  if rd F.HRE_CTRL_STATE s == 1 && fget cfg 0 0 == 1 && !on F.HRE_STOPPED_EVT s then
    2 ^ min (fget cfg 5 1) 16 - (i.1 + 2 ^ 32 - i.2 % 2 ^ 32) % 2 ^ 32
  else 0

/-- R302: raise an event. One not yet written with the same code and ARG0 absorbs it. The wc of its TIME within the tick
is a free value. -/
def raiseWith (code arg0 arg1 : Nat) (s : State) : State :=
  let es := s.host.events
  match es.findIdx? (fun e => e.code == code && e.arg0 == arg0) with
  | some k =>
    let es' := es.modify k (fun e => { e with count := e.count + 1 })
    { s with host := { s.host with events := es' } }
  | none =>
    if es.length < 64 + evtRoom s then
      let (wc, s1) := fresh 13 s
      let e : Event := { code, arg0, arg1, count := 1, tick := s.bt, wc }
      { s1 with host := { s1.host with events := es ++ [e] } }
    else dropEvent s

/-- R426: the alert bits that follow an event. -/
def alertOfEvent (code : Nat) (s : State) : State :=
  if code = E.BYPASS_FALL then alertSet A.BYPASS s
  else if code = E.TICK_OVERRUN then alertSet A.OVERRUN s
  else s

/-- Raise an event with ARG1 zero. -/
def raise (code arg0 : Nat) (s : State) : State := alertOfEvent code (raiseWith code arg0 0 s)

/-- R461, R463: count `n` occurrences. -/
def countN (i n : Nat) (s : State) : State :=
  if countsNow s && decide (0 < n) then
    let (s1, sat) := bump i n s
    if sat then
      let (s2, newGroup) := satMark i s1
      if newGroup then raise E.LEDGER_SAT (groupOf i + 16 * i) s2 else s2
    else s1
  else s

/-- Count one occurrence. -/
def count (i : Nat) (s : State) : State := countN i 1 s

/-! ### What is sent -/

/-- Send something outside. -/
def emit (o : Output) (s : State) : State := { s with out := o :: s.out }

/-! ### Terminal state -/

/-- The code of TERM_STATE.STATE (spec/02). -/
def termCode : TermState → Nat
  | .reset => 0
  | .selftest => 1
  | .holding => 2
  | .listening => 3
  | .admitted => 4
  | .claiming => 5
  | .ranging => 6
  | .running => 7
  | .flywheel => 8
  | .leaving => 9

/-- LISTENING or a later state. -/
def fromListening (s : State) : Bool := decide (3 ≤ termCode s.term)

/-- RUNNING or FLYWHEEL. -/
def runOrFly (s : State) : Bool := s.term == .running || s.term == .flywheel

/-- R62, R426: change TERM_STATE.STATE; from LISTENING onward every change raises STATE_CHANGE, and every change sets
alert bit STATE. -/
def changeTerm (t : TermState) (s : State) : State :=
  if s.term == t then s
  else
    let s1 := alertSet A.STATE { s with term := t }
    let s2 := if t == .holding then alertSet A.HOLD s1 else s1
    if decide (3 ≤ termCode t) then raise E.STATE_CHANGE (termCode t + 16 * termCode s.term) s2 else s2

/-! ### Times -/

/-- The signed distance `a - b` between two absolute ticks, modulo the epoch (R18). -/
def tickDiff (a b : Nat) : Int :=
  let m := ticksPerEpoch
  let d := (a + m - b % m) % m
  if d < m / 2 then (d : Int) else (d : Int) - (m : Int)

/-- An absolute tick moved by a signed number of ticks. -/
def tickAdd (t : Nat) (d : Int) : Nat := (((t : Int) + d) % (ticksPerEpoch : Int)).toNat

/-- Is tick `t` reached at tick `now`. -/
def tickDue (t now : Nat) : Bool := decide (0 ≤ tickDiff now t)

/-- Does a tick stamp hold a tick of its cycle (0-47). -/
def stampOk (w : Word) : Bool := decide (w.toNat % 64 < 48)

/-- R18, R173: how many ticks a stamp lies after `ref`: its cycle field compared by serial number, then its tick. -/
def stampDelta (ref : Nat) (w : Word) : Int :=
  let dc := toSigned 34 (w.toNat / 64 + 2 ^ 34 - ref / 48 % 2 ^ 34)
  dc * 48 + ((w.toNat % 64 : Nat) : Int) - ((ref % 48 : Nat) : Int)

/-- The absolute tick a stamp names, near `ref`. -/
def stampTick (ref : Nat) (w : Word) : Nat := tickAdd ref (stampDelta ref w)

/-- R21: do two staged changes change the same object. -/
def sameObject : StagedOp → StagedOp → Bool
  | .regWrite a _, .regWrite b _ => a == b
  | .qmWrite o i _, .qmWrite p j _ => o == p && i == j
  | .softReset, .softReset => true
  | _, _ => false

/-- Stage a change (R20). Of two changes of one object for one tick the later stands, and the earlier is counted (R21). -/
def stage (x : Staged) (s : State) : State :=
  let old (y : Staged) : Bool := y.t == x.t && sameObject y.op x.op
  let s1 := if s.staged.any old then count C.STAGE_SUPERSEDED s else s
  { s1 with staged := s1.staged.filter (fun y => !old y) ++ [x] }

/-- A register that takes effect at the next tick boundary is written: an earlier write since the last boundary is
superseded (R21). -/
def boundaryWrite (off : Nat) (s : State) : State :=
  if s.wrote.contains off then count C.STAGE_SUPERSEDED s else { s with wrote := off :: s.wrote }

/-- The next building tick: the earliest effective tick of a local change (R20). -/
def nextTick (s : State) : Nat := tickAdd s.bt 1

/-! ### Subscriptions (R20, R185) -/

/-- One entry word of a SUBSCRIBE: set or replace, remove, or remove all. The list stands in CONT_ID order. -/
def subEntry (l : List Sub) (w : Word) : List Sub :=
  let c := fget w 39 30
  let lower := l.filter (fun b => decide (b.cont < c))
  let higher := l.filter (fun b => decide (c < b.cont))
  match fget w 29 28 with
  | 1 => lower ++ { cont := c, dest := fget w 27 20, param := fget w 19 0 } :: higher
  | 2 => lower ++ higher
  | 3 => []
  | _ => l

/-- The subscriptions after a staged note. -/
def subNote (l : List Sub) (x : SubStage) : List Sub := x.entries.foldl subEntry l

/-- The subscriptions in force for work tagged `t`. -/
def subsFor (t : Nat) (s : State) : List Sub := (s.frame.subStage.filter (fun x => tickDue x.t t)).foldl subNote s.frame.subs

/-- The data tick whose presentation instant is this building tick (R26, R29): P ticks back; `none` before the first valid
P. -/
def dataTick (s : State) : Option Nat :=
  let p := rd F.TIME_STATUS_P s
  let n := tickAdd s.bt (-(p : Int))
  if p = 0 then none
  else if tickDiff n s.frame.pFrom < 0 then
    (if s.frame.prevP = 0 then none else some (tickAdd s.bt (-(s.frame.prevP : Int))))
  else some n

/-- The subscriptions of the data tick presented now. -/
def subsDue (s : State) : List Sub :=
  match dataTick s with
  | none => []
  | some n => subsFor n s

/-- Do presentation outputs run: not before the first ranging result (R14). -/
def presentsNow (s : State) : Bool := on F.TIME_STATUS_RANGED s

/-! ### Domains -/

/-- Domain numbers (R401). -/
def dSPW : Nat := 0
def dSPE : Nat := 1
def dFRM : Nat := 2
def dMGT : Nat := 3
def dTHR : Nat := 4
def dCIP : Nat := 5
def dQSC : Nat := 6
def dPCI : Nat := 7
def dLAN : Nat := 8
def dSHW : Nat := 9
def dMOT : Nat := 10
def dAFE : Nat := 11
def dGR (k : Nat) : Nat := 12 + k

/-- The domain's present state: 0 ON, 1 RETENTION, 2 OFF, 3 in transition (R401). -/
def domState (k : Nat) (s : State) : Nat := rd (F.PWR_TARGET_STATE k) s

/-- Is the domain ON. -/
def domOn (k : Nat) (s : State) : Bool := domState k s == 0

/-- Does the frame engine run. -/
def frmRuns (s : State) : Bool := fromListening s && domOn dFRM s

/-- Is the terminal inserted (R67): from its admission tick until the class time has elapsed after the last BYP_KA edge,
a reset taken while inserted included (R37). -/
def inserted (s : State) : Bool := on F.BYPASS_STATUS_INSERTED s

/-! ### Sparse state kept in lists -/

/-- The entry of a sparse list map. -/
def lget {α : Type} (d : α) (m : List (Nat × α)) (k : Nat) : α := SMap.get d m k

/-- Write a sparse list map. -/
def lput {α : Type} [DecidableEq α] (d : α) (k : Nat) (v : α) (m : List (Nat × α)) : List (Nat × α) := SMap.put d m k v

end Sys2Proof.Machine
end

