-- ==== Sys2Proof/Machine/Flags.lean ====
section
/-! DEFINITION. Check codes: the CRC-32 of R118 and its raw form (R210), CRC-32C (R244), the CRC-8 of R141, and the
one's complement sums of the Internet checksums (R256). -/

namespace Sys2Proof.Machine

/-- One bit of a reflected CRC. -/
def crcBit (poly r : Nat) : Nat := if r % 2 = 1 then (r / 2) ^^^ poly else r / 2

/-- One byte of a reflected CRC, least significant bit first. -/
def crcByte (poly r : Nat) (b : Byte) : Nat :=
  let f := crcBit poly
  f (f (f (f (f (f (f (f (r ^^^ b.toNat))))))))

/-- A reflected CRC register run over bytes. -/
def crcRaw (poly init : Nat) (bs : List Byte) : Nat := bs.foldl (crcByte poly) init

/-- R118: the IEEE 802.3 CRC-32. -/
def crc32 (bs : List Byte) : Nat := crcRaw 0xEDB88320 0xFFFFFFFF bs ^^^ 0xFFFFFFFF

/-- R210: the raw register started at zero, with no final XOR. -/
def crc0 (bs : List Byte) : Nat := crcRaw 0xEDB88320 0 bs

/-- R244: CRC-32C. -/
def crc32c (bs : List Byte) : Nat := crcRaw 0x82F63B78 0xFFFFFFFF bs ^^^ 0xFFFFFFFF

/-- One bit of the CRC-8 of R141, most significant first. -/
def crc8Bit (r : Nat) : Nat := if 128 ≤ r then (2 * r % 256) ^^^ 7 else 2 * r

/-- One byte of the CRC-8. -/
def crc8Byte (r : Nat) (b : Byte) : Nat :=
  let f := crc8Bit
  f (f (f (f (f (f (f (f (r ^^^ b.toNat))))))))

/-- R141: CRC-8, polynomial 0x07, initial value 0. -/
def crc8 (bs : List Byte) : Nat := bs.foldl crc8Byte 0

/-- Sum of big-endian 16-bit words, an odd last byte padded with zero. -/
def sum16 : List Byte → Nat
  | [] => 0
  | [a] => a.toNat * 256
  | a :: b :: r => a.toNat * 256 + b.toNat + sum16 r

/-- Fold carries into 16 bits. -/
def fold16 (n : Nat) : Nat :=
  let a := n % 65536 + n / 65536
  let b := a % 65536 + a / 65536
  b % 65536 + b / 65536

/-- R256: the one's complement of the one's complement sum. -/
def inetSum (bs : List Byte) : Nat := 65535 - fold16 (sum16 bs)

end Sys2Proof.Machine
end

