-- ==== Sys2Proof/Machine/Granary.lean ====
section
/-! DEFINITION. The Granary, the queues, Winnow and the schedulers (spec/11_granary_queues_scheduling.md R258-R281). -/

namespace Sys2Proof.Machine

/-! ### Configuration records (spec/11 "Registers") -/

/-- The default queue configuration record: reserved queues 133-135 are not enabled. -/
def qDefault (q : Nat) : List Word :=
  let en := if q ≤ 132 || (136 ≤ q && q ≤ 152) then 2 ^ 39 else 0
  let quantum := if q < 64 then 128 else 2048
  [BitVec.ofNat 40 (en + 7 * 2 ^ 35 + quantum * 2 ^ 22 + 1024 * 2 ^ 6), 0xFFFFFFFF00,
    BitVec.ofNat 40 (0xFFFF * 2 ^ 24 + 48 * 2 ^ 12 + 128)]

/-- The default port shaper record. -/
def portDefault : List Word := [0xFFFFFFFF00, 0xFFFFFF0000, 0]

/-- The default meter record. -/
def meterDefault : List Word := [0, 20, 0]

/-- The queue configuration record in force. -/
def qRec (q : Nat) (s : State) : List Word := lget (qDefault q) s.q.cfg q

/-- The port shaper record in force. -/
def portRec (k : Nat) (s : State) : List Word := lget portDefault s.q.portCfg k

/-- The meter record in force. -/
def meterRec (m : Nat) (s : State) : List Word := lget meterDefault s.q.meterCfg m

/-- A field of a record's word. -/
def recField (r : List Word) (w hi lo : Nat) : Nat := fget (r.getD w 0) hi lo

def qEnabled (q : Nat) (s : State) : Bool := recField (qRec q s) 0 39 39 == 1
def qCarryMeta (q : Nat) (s : State) : Bool := recField (qRec q s) 0 38 38 == 1
def qPrio (q : Nat) (s : State) : Nat := recField (qRec q s) 0 37 35
def qQuantum (q : Nat) (s : State) : Nat := recField (qRec q s) 0 34 22
def qLimit (q : Nat) (s : State) : Nat := recField (qRec q s) 0 21 6
def qRate (q : Nat) (s : State) : Nat := recField (qRec q s) 1 39 0
def qBurst (q : Nat) (s : State) : Nat := recField (qRec q s) 2 39 24
def qYellow (q : Nat) (s : State) : Nat := 4 * recField (qRec q s) 2 11 0

/-- LIFE in ticks; 0 acts as 1. -/
def qLife (q : Nat) (s : State) : Nat := max 1 (recField (qRec q s) 2 23 12)

/-- R273: the rate that disables a shaper. -/
def rateOff : Nat := 0xFFFFFFFF00

/-! ### Queues and sinks (R261) -/

/-- The items of a queue, head first. -/
def qItems (q : Nat) (s : State) : List Item := lget [] s.q.queues q

/-- Set a queue's items. -/
def setItems (q : Nat) (l : List Item) (s : State) : State :=
  { s with q := { s.q with queues := lput [] q l s.q.queues } }

/-- Queue numbers that exist and take items (R261). -/
def qExists (q : Nat) : Bool := decide (q ≤ 132) || (decide (136 ≤ q) && decide (q ≤ 152))

/-- The sink class of a queue: 0 Span, 1 show, 2 Ethernet, 3 host, 4 punt. -/
def sinkOf (q : Nat) : Nat :=
  if q < 64 then 0 else if q < 112 then 2 else if q < 136 then 1 else if q < 152 then 3 else 4

/-- The local port an Ethernet queue serves. -/
def portOfQueue (q : Nat) : Option Nat := if 64 ≤ q && q < 112 then some ((q - 64) / 8) else none

/-- Cells held by a queue. -/
def qCells (q : Nat) (s : State) : Nat := (qItems q s).foldl (fun n i => n + i.cells) 0

/-! ### Cells (R260, R263, R280) -/

/-- R260: the cells an item of `b` bytes takes. -/
def cellsOf (b : Nat) : Nat := (3 + (b + 4) / 5 + 31) / 32

def freeCells (s : State) : Nat := rd F.GRAN_STATUS_FREE s

/-- Show which sink classes have a reserve below 64 cells. -/
def showShort (s : State) : State :=
  let bits := (List.range 5).foldl (fun n k => if s.q.reserve.getD k 64 < 64 then n + 2 ^ k else n) 0
  wr F.GRAN_STATUS_RES_SHORT bits s

/-- Take free pool cells; LOW follows the least FREE seen. -/
def takeCells (n : Nat) (s : State) : State :=
  let f := freeCells s - n
  let s1 := wr F.GRAN_STATUS_FREE f s
  if f < rd F.GRAN_STATUS_LOW s1 then wr F.GRAN_STATUS_LOW f s1 else s1

/-- Give cells back to the free pool. -/
def giveFree (n : Nat) (s : State) : State := wr F.GRAN_STATUS_FREE (freeCells s + n) s

/-- R280: cells freed by draining refill the sink's own reserve first, and only then the free pool. -/
def giveCells (cls n : Nat) (s : State) : State :=
  let r := s.q.reserve.getD cls 64
  let up := min n (64 - r)
  let s1 := { s with q := { s.q with reserve := setAt s.q.reserve cls (r + up) } }
  giveFree (n - up) (showShort s1)

/-- Cells a sink needs beyond those an item holds come from its reserve, and what the reserve lacks from the free pool;
`none` where both together are short (notes/assumptions/80.md). -/
def takeReserve (cls n : Nat) (s : State) : Option State :=
  let r := s.q.reserve.getD cls 64
  let own := min n r
  if freeCells s < n - own then none
  else
    let s1 := showShort { s with q := { s.q with reserve := setAt s.q.reserve cls (r - own) } }
    some (if n ≤ r then s1 else takeCells (n - own) s1)

/-! ### Taking items out -/

def deficitOf (q : Nat) (s : State) : Int := lget 0 s.q.deficit q

def setDeficit (q : Nat) (d : Int) (s : State) : State :=
  { s with q := { s.q with deficit := lput 0 q d s.q.deficit } }

/-- Leave the turn list with deficit 0. -/
def leaveTurn (q : Nat) (s : State) : State :=
  setDeficit q 0 { s with q := { s.q with turn := s.q.turn.filter (· != q) } }

/-- Move to the tail of the turn list. -/
def rotateTurn (q : Nat) (s : State) : State :=
  { s with q := { s.q with turn := s.q.turn.filter (· != q) ++ [q] } }

/-- R276: the next item of the queue takes the next PSEQ. -/
def nextPseq (q : Nat) (s : State) : State :=
  { s with q := { s.q with pseq := lput 0 q ((lget 0 s.q.pseq q + 1) % 4096) s.q.pseq } }

/-- Replace a queue's items by those kept; the cells of the others go back to the sink. -/
def keepItems (q : Nat) (keep : Item → Bool) (s : State) : State :=
  let l := qItems q s
  let gone := l.filter (fun i => !keep i)
  let n := gone.foldl (fun n i => n + i.cells) 0
  let s1 := giveCells (sinkOf q) n (setItems q (l.filter keep) s)
  let s2 := if (gone.any (fun i => decide (0 < i.sent))) then nextPseq q s1 else s1
  if (qItems q s2).isEmpty then leaveTurn q s2 else s2

/-- Remove the head item, its cells returned. -/
def popHead (q : Nat) (s : State) : State :=
  match qItems q s with
  | [] => s
  | i :: r =>
    let s1 := giveCells (sinkOf q) i.cells (setItems q r s)
    if r.isEmpty then leaveTurn q s1 else s1

/-- Discard every item of a queue and count each. -/
def flushQueue (q counter : Nat) (s : State) : State :=
  let n := (qItems q s).length
  countN counter n (keepItems q (fun _ => false) s)

/-! ### Deadlines (R267, R268) -/

/-- The counter of a deadline discard, by sink class. -/
def deadlineCounter (cls : Nat) : Nat :=
  match cls with
  | 0 => C.DEADLINE_DROP_SPAN
  | 1 => C.DEADLINE_DROP_SHOW
  | 2 => C.DEADLINE_DROP_ETH
  | 3 => C.DEADLINE_DROP_HOST
  | _ => C.DEADLINE_DROP_PUNT

/-- R267: an item may be served up to and including its deadline tick. -/
def inTime (now : Nat) (i : Item) : Bool := decide (0 ≤ tickDiff i.deadline now)

/-- Discard a queue's expired items. -/
def sweepQueue (q : Nat) (s : State) : State :=
  let n := ((qItems q s).filter (fun i => !inTime s.bt i)).length
  if n = 0 then s else countN (deadlineCounter (sinkOf q)) n (keepItems q (inTime s.bt) s)

/-- Discard the expired items of every queue, while the queue manager runs (R267, R403). -/
def deadlineSweep (s : State) : State :=
  if domOn dQSC s then eachOf (s.q.queues.map Prod.fst) (fun s q => sweepQueue q s) s else s

/-! ### Admission (R262-R264) -/

/-- Append an admitted item; a queue that held nothing joins the tail of its list with deficit 0 (R270). -/
def enqueue (q : Nat) (it : Item) (s : State) : State :=
  let old := qItems q s
  let s1 := setItems q (old ++ [it]) s
  if old.isEmpty then rotateTurn q (setDeficit q 0 s1) else s1

/-- Refuse an item: its cells go back, and the reason is counted. -/
def refuseItem (q counter : Nat) (it : Item) (s : State) : State :=
  count counter (giveCells (sinkOf q) it.cells s)

/-- R262, R261, R278: take an item into a queue or drop it. The item's cells are already taken. -/
def offer (q : Nat) (it : Item) (s : State) : State × Bool :=
  if !qExists q then (refuseItem q C.QUEUE_BAD it s, false)
  else if (portOfQueue q).any (fun k => s.q.flushed.contains k) then (refuseItem q C.PORT_DOWN_DROP it s, false)
  else if !qEnabled q s then (refuseItem q C.QUEUE_OFF_DROP it s, false)
  else if qLimit q s < qCells q s + it.cells then (refuseItem q C.QUEUE_LIMIT_DROP it s, false)
  else if it.colour == 1 && decide (qYellow q s ≤ qCells q s) then (refuseItem q C.YELLOW_DROP it s, false)
  else (enqueue q it s, true)

/-- The source code the model keeps for a capture item: the spec gives it none. -/
def srcCapture : Nat := 16

/-- An item that arises in the device (a capture item, or a submission of the management processor): it takes its cells,
gets the deadline of R267 from its tag tick, and is admitted or dropped. -/
def submit (q src tag : Nat) (bytes : List Byte) (s : State) : State × Bool :=
  let n := cellsOf bytes.length
  if freeCells s < n then (count C.GRAN_FULL_DROP s, false)
  else
    offer q { deadline := tickAdd tag (qLife q s : Int), md := 0, colour := 3, csum := false, src, pflags := 0,
              cont := 0, tag, bytes, cells := n } (takeCells n s)

/-- The same, counting a refusal in the port's own counter. -/
def submitOr (counter q src tag : Nat) (bytes : List Byte) (s : State) : State :=
  let (s1, ok) := submit q src tag bytes s
  if ok then s1 else count counter s1

/-! ### Winnow (R265, R266) -/

def meterWordUnits (m : Nat) (s : State) : Bool := recField (meterRec m s) 0 7 7 == 1

/-- R265: the charge of a packet of `b` bytes. -/
def meterCharge (m b : Nat) (s : State) : Nat :=
  let ovh := recField (meterRec m s) 1 7 0
  if meterWordUnits m s then 1 + (b + 4) / 5 + ovh else b + ovh

/-- Tc and Tp of a meter, in 1/256 units: its depths less the debts the state holds. -/
def meterTc (m : Nat) (s : State) : Nat := 256 * recField (meterRec m s) 2 39 20 - lget 0 s.q.tcDebt m
def meterTp (m : Nat) (s : State) : Nat := 256 * recField (meterRec m s) 2 19 0 - lget 0 s.q.tpDebt m

/-- R265: colour a packet: 0 green, 1 yellow, 2 red. -/
def meterColour (m b : Nat) (s : State) : Nat × State :=
  let c := 256 * meterCharge m b s
  let debtC := lget 0 s.q.tcDebt m
  let debtP := lget 0 s.q.tpDebt m
  if meterTp m s < c then (2, s)
  else if meterTc m s < c then (1, { s with q := { s.q with tpDebt := lput 0 m (debtP + c) s.q.tpDebt } })
  else (0, { s with q := { s.q with tpDebt := lput 0 m (debtP + c) s.q.tpDebt,
                                    tcDebt := lput 0 m (debtC + c) s.q.tcDebt } })

/-- R265: meter a packet; `none` when it is dropped and counted. -/
def meterPacket (m b : Nat) (s : State) : Option Nat × State :=
  let (c, s1) := meterColour m b s
  let r := meterRec m s
  if c == 2 && recField r 0 6 5 != 1 then (none, count C.METER_RED_DROP s1)
  else if c == 1 && recField r 0 4 4 == 1 then (none, count C.METER_YELLOW_DROP s1)
  else (some c, s1)

/-! ### Shapers (R273) -/

/-- A shaper bucket, in 1/256 units: its BURST less the debt. -/
def shaperBucket (q : Nat) (s : State) : Int :=
  (256 * qBurst q s : Nat) - (lget 0 s.q.shaperDebt q : Nat)

/-- The port shaper's bucket. -/
def portBucket (k : Nat) (s : State) : Int :=
  (256 * recField (portRec k s) 1 39 16 : Nat) - (lget 0 s.q.portDebt k : Nat)

/-- Is the queue's shaper bucket above zero, or the shaper disabled. -/
def shaperOpen (q : Nat) (s : State) : Bool := qRate q s == rateOff || decide (0 < shaperBucket q s)

/-- Is the port's shaper bucket above zero, or the shaper disabled. -/
def portOpen (k : Nat) (s : State) : Bool :=
  recField (portRec k s) 0 39 0 == rateOff || decide (0 < portBucket k s)

/-- Charge a queue's shaper. -/
def chargeShaper (q units : Nat) (s : State) : State :=
  if qRate q s == rateOff then s
  else { s with q := { s.q with shaperDebt := lput 0 q (lget 0 s.q.shaperDebt q + 256 * units) s.q.shaperDebt } }

/-- Charge a port's shaper. -/
def chargePort (k units : Nat) (s : State) : State :=
  if recField (portRec k s) 0 39 0 == rateOff then s
  else { s with q := { s.q with portDebt := lput 0 k (lget 0 s.q.portDebt k + 256 * units) s.q.portDebt } }

/-- One tick's gain of a queue's shaper; a queue that becomes eligible by it joins the tail with deficit 0 (R270). -/
def gainShaper (q : Nat) (s : State) : State :=
  let shut := !shaperOpen q s
  let d := lget 0 s.q.shaperDebt q
  let s1 := { s with q := { s.q with shaperDebt := lput 0 q (d - qRate q s) s.q.shaperDebt } }
  if shut && shaperOpen q s1 && !(qItems q s1).isEmpty then rotateTurn q (setDeficit q 0 s1) else s1

/-- R265, R273: at wc 0 of a building tick every bucket gains its rate. -/
def refillBuckets (s : State) : State :=
  let s1 := eachOf (s.q.shaperDebt.map Prod.fst) (fun s q => gainShaper q s) s
  let s2 := eachOf (s1.q.portDebt.map Prod.fst)
    (fun s k => { s with q := { s.q with
      portDebt := lput 0 k (lget 0 s.q.portDebt k - recField (portRec k s) 0 39 0) s.q.portDebt } }) s1
  let s3 := eachOf (s2.q.tcDebt.map Prod.fst)
    (fun s m => { s with q := { s.q with
      tcDebt := lput 0 m (lget 0 s.q.tcDebt m - recField (meterRec m s) 0 39 8) s.q.tcDebt } }) s2
  eachOf (s3.q.tpDebt.map Prod.fst)
    (fun s m => { s with q := { s.q with
      tpDebt := lput 0 m (lget 0 s.q.tpDebt m - recField (meterRec m s) 1 39 8) s.q.tpDebt } }) s3

/-! ### The scheduler (R270, R271) -/

/-- R270: the queues of a set that are eligible, in the order of their turns. -/
def eligible (inSet : Nat → Bool) (s : State) : List Nat :=
  s.q.turn.filter (fun q => inSet q && !(qItems q s).isEmpty && shaperOpen q s)

/-- The head of the list with the lowest PRIO. -/
def headQueue (inSet : Nat → Bool) (s : State) : Option Nat :=
  let l := eligible inSet s
  let p := l.foldl (fun m q => min m (qPrio q s)) 8
  l.find? (fun q => qPrio q s == p)

/-- R270: give quanta and rotate until a queue of the set may send. `fits` is asked before any quantum is added. -/
def pickQueue (inSet : Nat → Bool) (fits : Nat → State → Bool) : (fuel : Nat) → State → Option Nat × State
  | 0, s => (none, s)
  | fuel + 1, s =>
    match headQueue inSet s with
    | none => (none, s)
    | some q =>
      if !fits q s then (none, s)
      else if 0 < deficitOf q s then (some q, s)
      else
        let s1 := setDeficit q (deficitOf q s + (qQuantum q s : Nat)) s
        if deficitOf q s1 ≤ 0 then pickQueue inSet fits fuel (rotateTurn q s1) else (some q, s1)

/-- Enough rounds for the deepest debt a unit can leave and the smallest quantum. -/
def pickFuel : Nat := 40000

/-- R270: after a unit of charge `c` was sent from `q`. -/
def afterSend (q : Nat) (c : Nat) (s : State) : State :=
  let s1 := chargeShaper q c (setDeficit q (deficitOf q s - (c : Nat)) s)
  if (qItems q s1).isEmpty then leaveTurn q s1
  else if deficitOf q s1 ≤ 0 then rotateTurn q s1 else s1

/-! ### Span windows (R275, R276) -/

/-- The words a queue's next segment needs at least. -/
def smallestSegment (q : Nat) (s : State) : Nat :=
  match qItems q s with
  | [] => 2
  | i :: _ => if i.sent = 0 && qCarryMeta q s then 3 else 2

/-- R275: an upstream segment header. -/
def segHeader (pos bytes pseq q : Nat) (hasMeta : Bool) : Word :=
  BitVec.ofNat 40 (pos * 2 ^ 38 + bytes * 2 ^ 28 + pseq * 2 ^ 16 + q * 2 ^ 10 + b2n hasMeta * 2 ^ 9)

/-- R276: cut the next segment of a queue into at most `room` words and take it out. -/
def takeSegment (q room : Nat) (s : State) : List Word × State :=
  match qItems q s with
  | [] => ([], s)
  | i :: r =>
    let md := decide (i.sent = 0) && qCarryMeta q s
    let avail := room - 1 - b2n md
    let left := i.bytes.length - i.sent
    let whole := decide ((left + 4) / 5 ≤ avail)
    let n := if whole then left else 5 * avail
    let pos := if whole then (if i.sent = 0 then 3 else 1) else (if i.sent = 0 then 2 else 0)
    let hd := segHeader pos n (lget 0 s.q.pseq q) q md
    let ws := hd :: ((if md then [i.md] else []) ++ toWords ((i.bytes.drop i.sent).take n))
    if whole then (ws, nextPseq q (popKeepTurn q i r s)) else (ws, setItems q ({ i with sent := i.sent + n } :: r) s)
where
  /-- Remove the head; the turn is settled by `afterSend`. -/
  popKeepTurn (q : Nat) (i : Item) (r : List Item) (s : State) : State :=
    giveCells (sinkOf q) i.cells (setItems q r s)

/-- R270-R276: fill a DATA window of `room` payload words from queue group `g`, the queues in `skip` left out. -/
def fillWindow (g : Nat) (skip : List Nat) : (fuel : Nat) → (room : Nat) → (first : Bool) → State → List Word × State
  | 0, _, _, s => ([], s)
  | fuel + 1, room, first, s =>
    if room < 2 then ([], s)
    else
      match pickQueue (fun q => decide (8 * g ≤ q) && decide (q < 8 * g + 8) && !skip.contains q)
          (fun q s => decide (smallestSegment q s ≤ room)) pickFuel s with
      | (none, s1) => ([], s1)
      | (some q, s1) =>
        let (ws, s2) := takeSegment q room s1
        let c := ws.length + (if first then rd F.QM_OVERHEAD_SPAN_OVH s2 else 0)
        let (rest, s3) := fillWindow g skip fuel (room - ws.length) false (afterSend q c s2)
        (ws ++ rest, s3)

/-- R267, R270: serve a DATA window: no item past its deadline goes into it. -/
def serveWindow (g : Nat) (skip : List Nat) (room : Nat) (s : State) : List Word × State :=
  fillWindow g skip 130 room true (eachOf ((List.range 8).map (8 * g + ·)) (fun s q => sweepQueue q s) s)

/-- Words left in a queue group after a window, as segments would carry them whole; items past their deadline are not
counted (R200). -/
def groupBacklog (g : Nat) (s : State) : Nat :=
  ((List.range 8).map (fun j =>
    let q := 8 * g + j
    ((qItems q s).filter (inTime s.bt)).foldl (fun n i =>
      n + 1 + b2n (decide (i.sent = 0) && qCarryMeta q s) + (i.bytes.length - i.sent + 4) / 5) 0)).foldl (· + ·) 0

/-! ### Other sinks -/

/-- R271, R319: the charge of an Ethernet frame: as sent, padded and with its FCS, plus ETH_OVH. -/
def ethCharge (b : Nat) (s : State) : Nat := max 60 b + 4 + rd F.QM_OVERHEAD_ETH_OVH s

/-- The queues of a local port. -/
def portQueues (k : Nat) : List Nat := (List.range 8).map (fun j => 64 + 8 * k + j)

/-- R267, R270: take the next frame of a local port; its queue's and the port's shapers are charged. -/
def takeFrame (k : Nat) (s : State) : Option Item × State :=
  if !portOpen k s then (none, s)
  else
    match pickQueue (fun q => portOfQueue q == some k) (fun _ _ => true) pickFuel
        (eachOf (portQueues k) (fun s q => sweepQueue q s) s) with
    | (none, s1) => (none, s1)
    | (some q, s1) =>
      match qItems q s1 with
      | [] => (none, s1)
      | i :: r =>
        let s2 := giveCells 2 i.cells (setItems q r s1)
        let c := ethCharge i.bytes.length s2
        (some i, chargePort k c (afterSend q c s2))

/-- Take the head item of a queue served item by item (show, host delivery, punt): charged its bytes. -/
def takeHead (q : Nat) (s0 : State) : Option Item × State :=
  let s := sweepQueue q s0
  match qItems q s with
  | [] => (none, s)
  | i :: r =>
    if !shaperOpen q s then (none, s)
    else
      let s1 := giveCells (sinkOf q) i.cells (setItems q r s)
      (some i, afterSend q i.bytes.length s1)

/-! ### Indirect records (R264, R266) -/

/-- R266: is a meter record refused. -/
def meterRefused (r : List Word) : Bool :=
  decide (recField r 1 39 8 < recField r 0 39 8) || decide (recField r 2 19 0 < recField r 2 39 20)

/-- Is an operation's object and index in range: queue 0-152, port 0-5, meter 0-255. -/
def indInRange (obj idx : Nat) : Bool :=
  match obj with
  | 0 | 1 => decide (idx ≤ 152)
  | 2 => decide (idx ≤ 5)
  | 3 => decide (idx ≤ 255)
  | _ => false

/-- May a record be written (the locks of RUN apart). -/
def indWritable (obj idx : Nat) (r : List Word) : Bool :=
  indInRange obj idx && obj != 1 && !(obj == 3 && meterRefused r)

/-- The record with its reserved bits zero. -/
def maskRec (obj : Nat) (r : List Word) : List Word :=
  let w (k : Nat) := r.getD k 0
  match obj with
  | 0 => [fput (w 0) 5 0 0, w 1, w 2]
  | 2 => [w 0, fput (w 1) 15 0 0, 0]
  | _ => [fput (w 0) 3 0 0, w 1, w 2]

/-- Keep a bucket's level across a change of its depth, clipped to the new depth. -/
def rebase (oldDepth newDepth debt : Nat) : Nat :=
  ((newDepth : Int) - min ((oldDepth : Int) - debt) newDepth).toNat

/-- R264, R266: a configuration record takes effect. Disabling a queue discards its items; a meter starts with full
buckets. -/
def applyRec (obj idx : Nat) (r : List Word) (s : State) : State :=
  let m := maskRec obj r
  match obj with
  | 0 =>
    let old := 256 * qBurst idx s
    let s1 := { s with q := { s.q with cfg := lput (qDefault idx) idx m s.q.cfg } }
    let debt := rebase old (256 * qBurst idx s1) (lget 0 s.q.shaperDebt idx)
    let s2 := { s1 with q := { s1.q with shaperDebt := lput 0 idx debt s1.q.shaperDebt } }
    if qEnabled idx s2 then s2 else flushQueue idx C.QUEUE_OFF_DROP s2
  | 2 =>
    let old := 256 * recField (portRec idx s) 1 39 16
    let s1 := { s with q := { s.q with portCfg := lput portDefault idx m s.q.portCfg } }
    let debt := rebase old (256 * recField (portRec idx s1) 1 39 16) (lget 0 s.q.portDebt idx)
    { s1 with q := { s1.q with portDebt := lput 0 idx debt s1.q.portDebt } }
  | _ =>
    { s with q := { s.q with meterCfg := lput meterDefault idx m s.q.meterCfg,
                             tcDebt := lput 0 idx 0 s.q.tcDebt, tpDebt := lput 0 idx 0 s.q.tpDebt } }

/-- The record an indirect read returns (R266). -/
def readRec (obj idx : Nat) (s : State) : List Word :=
  match obj with
  | 0 => qRec idx s
  | 1 =>
    let l := qItems idx s
    [BitVec.ofNat 40 (qCells idx s % 65536 * 2 ^ 24 + l.length % 65536 * 2 ^ 8),
      BitVec.ofNat 40 (ofSigned 40 (deficitOf idx s)), BitVec.ofNat 40 (ofSigned 40 (shaperBucket idx s))]
  | 2 => portRec idx s
  | _ => meterRec idx s

/-! ### Banks (R258, R259) -/

/-- Pool banks of a bank map. -/
def poolBanks (w : Word) : List Nat := (List.range 12).filter (fun k => k == 0 || fget w (2 * k + 1) (2 * k) == 0)

/-- Cells of the pool less the system area and the reserves. -/
def poolCells (w : Word) : Nat := 4096 * (poolBanks w).length - 1120

/-- R259: at the tick boundary a written bank map takes effect, unless a cell of a bank leaving the pool is allocated.
Which banks hold the allocated cells is not stated: while any cell is allocated and the others could hold them all, a
free value decides. -/
def applyBanks (s : State) : State :=
  match s.q.bankNext with
  | none => s
  | some w =>
    let s0 := { s with q := { s.q with bankNext := none } }
    let old := reg R.GRAN_BANK_CFG s0
    let leaving := (poolBanks old).filter (fun k => !(poolBanks w).contains k)
    let used := poolCells old - freeCells s0
    let (bit, s1) := fresh 1 s0
    let stay := poolCells old - 4096 * leaving.length
    let busy := !leaving.isEmpty && decide (0 < used) && (decide (stay < used) || bit == 1)
    if busy then count C.GRAN_CFG_BAD s1
    else
      let f := poolCells w - used
      let s2 := wr F.GRAN_STATUS_FREE f (setReg R.GRAN_BANK_CFG w s1)
      if f < rd F.GRAN_STATUS_LOW s2 then wr F.GRAN_STATUS_LOW f s2 else s2

/-! ### Port hold-down (R278) -/

/-- Flush a port's queues. -/
def flushPort (k : Nat) (s : State) : State :=
  let n := (portQueues k).foldl (fun n q => n + (qItems q s).length) 0
  let s1 := eachOf (portQueues k) (fun s q => keepItems q (fun _ => false) s) s
  let s2 := { s1 with q := { s1.q with hold := s1.q.hold.filter (fun p => p.1 != k),
                                       flushed := s1.q.flushed.filter (· != k) ++ [k] } }
  raise E.PORT_FLUSHED k (countN C.HOLDDOWN_FLUSH n (wr (F.ETH_STATUS_HOLDDOWN k) 0 s2))

/-- The link is lost: the hold-down starts, or ends at once with CYCLES = 0. The count runs to the boundary after the tick
in which the hold-down ends: a link that returns in that tick counts as returned in time. -/
def startHold (k : Nat) (s : State) : State :=
  let c := rd F.QM_HOLDDOWN_CYCLES s
  if c = 0 then flushPort k s
  else wr (F.ETH_STATUS_HOLDDOWN k) 1
    { s with q := { s.q with hold := s.q.hold.filter (fun p => p.1 != k) ++ [(k, 48 * c + 1)] } }

/-- The link returns. -/
def endHold (k : Nat) (s : State) : State :=
  wr (F.ETH_STATUS_HOLDDOWN k) 0
    { s with q := { s.q with hold := s.q.hold.filter (fun p => p.1 != k), flushed := s.q.flushed.filter (· != k) } }

/-- One building tick of every hold-down. -/
def holdTick (s : State) : State :=
  { s with q := { s.q with hold := s.q.hold.map (fun p => (p.1, p.2 - 1)) } }

/-! ### Meanings -/

/-- DEADLINE_DISCARD (R267, R268): items past their deadline are discarded before any service. -/
def execDeadlineDiscard (s : State) : Res := done (deadlineSweep s)

/-- HOLDDOWN_FLUSH (R278): the hold-down of a port has run out with its link still down. -/
def execHolddownFlush (port : Fin 6) (s : State) : Res :=
  done (if s.q.hold.any (fun p => p.1 == port.val && p.2 == 0) && !on (F.ETH_STATUS_LINK port) s
    then flushPort port s else s)

/-- Commit a QM_IND_SEL write (R266): with GO, start the operation or refuse it. -/
def indSelect (v : Word) (s : State) : State :=
  let s0 := setReg R.QM_IND_SEL (fput (fput v 39 39 0) 26 0 (fget (reg R.QM_IND_SEL s) 26 0)) s
  if fget v 39 39 = 0 then s0
  else
    let obj := fget v 38 36
    let idx := fget v 35 28
    let write := fget v 27 27 == 1
    let r := [reg R.QM_IND_DATA0 s0, reg R.QM_IND_DATA1 s0, reg R.QM_IND_DATA2 s0]
    let ok := if write then indWritable obj idx r && !on F.RUN_CTRL_RUN s0 else indInRange obj idx
    if !ok then wr F.QM_IND_SEL_ERR 1 s0
    else
      let s1 := wr F.QM_IND_SEL_BUSY 1 (wr F.QM_IND_SEL_ERR 0 s0)
      let s2 := if write then stage { t := nextTick s1, op := .qmWrite obj idx (maskRec obj r) } s1 else s1
      { s2 with q := { s2.q with ind := some { write, obj, idx } } }

/-- QM_IND_DONE (R266): the operation completes; a read loads the data registers. -/
def execQmIndDone (s : State) : Res :=
  done (match s.q.ind with
    | none => s
    | some op =>
      let s1 := wr F.QM_IND_SEL_BUSY 0 { s with q := { s.q with ind := none } }
      if op.write then s1
      else
        let r := readRec op.obj op.idx s1
        s1 |> setReg R.QM_IND_DATA0 (r.getD 0 0) |> setReg R.QM_IND_DATA1 (r.getD 1 0)
           |> setReg R.QM_IND_DATA2 (r.getD 2 0))

/-- GRAN_STATUS.LOW_RELOAD (R258): load LOW with FREE. -/
def lowReload (v : Word) (s : State) : State :=
  if nbit v.toNat 7 then wr F.GRAN_STATUS_LOW (freeCells s) s else s

end Sys2Proof.Machine
end

