-- ==== Sys2Proof/Machine/SoftFloat.lean ====
section
/-! DEFINITION. IEEE 754 binary32, round to nearest even, subnormals kept, one NaN (spec/16_sensor_front_end.md R394).
Values are worked out exactly and rounded once. -/

namespace Sys2Proof.Machine

/-- A binary32 bit pattern. -/
abbrev F32 := BitVec 32

/-- R394: the NaN that is delivered. -/
def f32Nan : F32 := 0x7FC00000

def f32Exp (a : F32) : Nat := a.toNat / 2 ^ 23 % 256
def f32Man (a : F32) : Nat := a.toNat % 2 ^ 23
def f32Neg (a : F32) : Bool := nbit a.toNat 31
def f32IsNan (a : F32) : Bool := f32Exp a == 255 && f32Man a != 0
def f32IsInf (a : F32) : Bool := f32Exp a == 255 && f32Man a == 0
def f32Finite (a : F32) : Bool := f32Exp a != 255
def f32IsZero (a : F32) : Bool := a.toNat % 2 ^ 31 == 0

/-- Significand and exponent of a finite number: its magnitude is `m * 2^e`. -/
def f32Parts (a : F32) : Nat × Int :=
  if f32Exp a = 0 then (f32Man a, -149) else (f32Man a + 2 ^ 23, (f32Exp a : Int) - 150)

def f32Inf (neg : Bool) : F32 := BitVec.ofNat 32 (b2n neg * 2 ^ 31 + 255 * 2 ^ 23)
def f32Zero (neg : Bool) : F32 := BitVec.ofNat 32 (b2n neg * 2 ^ 31)

/-- Round `n * 2^e`, a little more where `sticky`, to the nearest binary32, ties to even. -/
def f32Round (neg : Bool) (n : Nat) (e : Int) (sticky : Bool) : F32 :=
  if n = 0 then f32Zero neg
  else
    let q : Int := max (e + ((Nat.log2 n : Nat) : Int) - 23) (-149)
    let sh := q - e
    let m :=
      if sh ≤ 0 then n * 2 ^ (-sh).toNat
      else
        let k := sh.toNat
        let m0 := n / 2 ^ k
        let r := n % 2 ^ k
        let half := 2 ^ (k - 1)
        if half < r || (r == half && (sticky || m0 % 2 == 1)) then m0 + 1 else m0
    let (m', q') : Nat × Int := if m = 2 ^ 24 then (2 ^ 23, q + 1) else (m, q)
    if 104 < q' then f32Inf neg
    else if m' < 2 ^ 23 then BitVec.ofNat 32 (b2n neg * 2 ^ 31 + m')
    else BitVec.ofNat 32 (b2n neg * 2 ^ 31 + (q' + 150).toNat * 2 ^ 23 + (m' - 2 ^ 23))

/-- Product. -/
def fmul (a b : F32) : F32 :=
  let neg := f32Neg a != f32Neg b
  if f32IsNan a || f32IsNan b then f32Nan
  else if f32IsInf a || f32IsInf b then (if f32IsZero a || f32IsZero b then f32Nan else f32Inf neg)
  else
    let (m, e) := f32Parts a
    let (n, f) := f32Parts b
    f32Round neg (m * n) (e + f) false

/-- Sum. -/
def fadd (a b : F32) : F32 :=
  if f32IsNan a || f32IsNan b then f32Nan
  else if f32IsInf a then (if f32IsInf b && f32Neg a != f32Neg b then f32Nan else a)
  else if f32IsInf b then b
  else
    let (m, e) := f32Parts a
    let (n, f) := f32Parts b
    let g := min e f
    let sg (neg : Bool) (x : Nat) : Int := if neg then -(x : Int) else (x : Int)
    let t := sg (f32Neg a) (m * 2 ^ (e - g).toNat) + sg (f32Neg b) (n * 2 ^ (f - g).toNat)
    if t = 0 then f32Zero (f32Neg a && f32Neg b) else f32Round (decide (t < 0)) t.natAbs g false

/-- Difference. -/
def fsub (a b : F32) : F32 := if f32IsNan b then f32Nan else fadd a (b ^^^ BitVec.ofNat 32 (2 ^ 31))

/-- Quotient. -/
def fdiv (a b : F32) : F32 :=
  let neg := f32Neg a != f32Neg b
  if f32IsNan a || f32IsNan b then f32Nan
  else if f32IsInf a then (if f32IsInf b then f32Nan else f32Inf neg)
  else if f32IsInf b then f32Zero neg
  else if f32IsZero b then (if f32IsZero a then f32Nan else f32Inf neg)
  else
    let (m, e) := f32Parts a
    let (n, f) := f32Parts b
    f32Round neg (m * 2 ^ 64 / n) (e - f - 64) (m * 2 ^ 64 % n != 0)

/-- Order of two numbers that are not NaN. -/
def flt (a b : F32) : Bool :=
  let v (x : F32) : Int := if f32Neg x then -((x.toNat % 2 ^ 31 : Nat) : Int) else ((x.toNat % 2 ^ 31 : Nat) : Int)
  decide (v a < v b)

/-- Equality of two numbers that are not NaN: the zeros are equal. -/
def feq (a b : F32) : Bool := !flt a b && !flt b a

/-- `i / 2^23`, exact for a 24-bit code. -/
def codeToF32 (i : Int) : F32 := f32Round (decide (i < 0)) i.natAbs (-23) false

/-- The nearest integer to `x * k / d` for a finite `x`, halves upward. -/
def f32Scale (x : F32) (k d : Nat) : Int :=
  let (m, e) := f32Parts x
  let n : Int := if f32Neg x then -((m * k : Nat) : Int) else ((m * k : Nat) : Int)
  if 0 ≤ e then (2 * (n * 2 ^ e.toNat) + d) / (2 * d) else (2 * n + (d * 2 ^ (-e).toNat : Nat)) / (2 * (d * 2 ^ (-e).toNat) : Nat)

end Sys2Proof.Machine
end

