-- ==== Sys2Proof/Machine/Afe.lean ====
section
/-! DEFINITION. The sensor front end (spec/16_sensor_front_end.md R380-R400). The filtered input, the voltages at
the excited pins and the calibration readings are operands: they come from the analogue side. -/

namespace Sys2Proof.Machine

/-! ### Slots (R380-R383) -/

/-- Fields of a slot's two words, as one record. -/
structure SlotCfg where
  count : Nat
  d : Nat
  filt : Nat
  mode : Nat
  gain : Nat
  rf : Nat
  linEn : Bool
  linSet : Nat
  swap : Bool
  pos : Nat
  neg : Nat
  exa : Nat
  exb : Nat
  gnd : Nat
  iexa : Nat
  iexb : Nat
  tsrc : Nat
deriving DecidableEq, Repr

/-- The settings of a slot, with the excitation pins exchanged in the second half (R385). -/
def slotCfg (cfg pins : Word) (second : Bool) : SlotCfg :=
  let a := fget pins 29 25
  let b := fget pins 24 20
  { count := fget cfg 39 32, d := fget cfg 31 19, filt := fget cfg 18 18, mode := fget cfg 17 17,
    gain := fget cfg 16 14, rf := fget cfg 13 11, linEn := fget cfg 10 10 == 1, linSet := fget cfg 9 7,
    swap := fget cfg 6 6 == 1, pos := fget pins 39 35, neg := fget pins 34 30,
    exa := if second then b else a, exb := if second then a else b, gnd := fget pins 19 15,
    iexa := fget pins 14 12, iexb := fget pins 11 9, tsrc := fget pins 8 4 }

/-- R380: is a slot badly configured. -/
def slotBad (c : SlotCfg) : Bool :=
  let pin (x : Nat) : Bool := decide (x < 16)
  let roleOk (x : Nat) : Bool := pin x || x == 0x1F
  let srcBad (i x : Nat) : Bool := (i != 0) != (x != 0x1F)
  !(decide (c.pos ≤ 0x12) || c.pos == 0x1F) || !(decide (c.neg ≤ 0x10) || c.neg == 0x1F) ||
    !roleOk c.exa || !roleOk c.exb || !roleOk c.gnd || c.pos == c.neg ||
    (pin c.exa && c.exa == c.exb) || (pin c.gnd && (c.exa == c.gnd || c.exb == c.gnd)) ||
    srcBad c.iexa c.exa || srcBad c.iexb c.exb ||
    (c.mode == 1 && (c.neg != 0x1F || decide (4 < c.rf))) || c.d == 0 || decide (4800 < c.d) ||
    c.iexa == 7 || c.iexb == 7

/-- The settings of slot `n` as they stand. -/
def slotNow (n : Nat) (second : Bool) (s : State) : SlotCfg :=
  slotCfg (reg (R.AFE_SLOT_CFG n) s) (reg (R.AFE_SLOT_PINS n) s) second

/-- Does slot `n` run. -/
def slotRuns (n : Nat) (s : State) : Bool :=
  let c := slotNow n false s
  decide (1 ≤ c.count) && !slotBad c

/-- R382: the setting a slot uses. -/
def slotSetting (c : SlotCfg) : Nat := if c.mode = 0 then c.gain else 8 + c.rf

/-- R387: the groups that differ between two halves. -/
def slotChanges (a b : SlotCfg) : Nat :=
  b2n (a.pos != b.pos || a.neg != b.neg)
    + 2 * b2n (a.mode != b.mode || a.gain != b.gain || a.rf != b.rf)
    + 4 * b2n (a.filt != b.filt || a.d != b.d)
    + 8 * b2n (a.exa != b.exa || a.exb != b.exb || a.iexa != b.iexa || a.iexb != b.iexb)

/-- R387: the reason bits sample `i` of a half carries. -/
def reasons (changed filt i : Nat) : Nat :=
  let r (bit n : Nat) : Nat := if nbit changed bit && decide (i < n) then 2 ^ bit else 0
  r 0 3 + r 1 4 + r 2 (if filt == 0 then 4 else 6) + r 3 3

/-! ### The sequencer (R385, R386) -/

/-- R386: may the sequencer run. -/
def seqMayRun (s : State) : Bool := on F.AFE_CFG_SEQ_EN s && domOn dAFE s && s.afe.cal == 0 && fromListening s

/-- The slot and half that run next, from `(n, second)` on. -/
def nextHalf (s : State) : (fuel : Nat) → (n : Nat) → (second : Bool) → Option (Nat × Bool)
  | 0, _, _ => none
  | fuel + 1, n, second =>
    let m := n % 16
    if second then
      (if slotRuns m s && (slotNow m false s).swap then some (m, true) else nextHalf s fuel (m + 1) false)
    else if slotRuns m s then some (m, false)
    else nextHalf s fuel (m + 1) false

/-- A calibration begins: the sequencer pauses (R393); each setting takes 704 ticks (R392). -/
def calBegin (settings : Nat) (s : State) : State :=
  s |> setAfe (fun a => { a with cal := settings, calReq := 0 }) |> wr F.AFE_CAL_CTRL_BUSY 1
    |> wr F.AFE_STATUS_CAL_BUSY 1 |> wr F.AFE_STATUS_RUNNING 0
    |> setAfe (fun a => { a with calLeft := 704 * ((List.range 13).filter (nbit settings)).length })

/-- R393: the settings the enabled slots use. -/
def autoSettings (s : State) : Nat :=
  ((List.range 13).filter (fun g => (List.range 16).any (fun n =>
    slotRuns n s && slotSetting (slotNow n false s) == g))).foldl (fun v g => v + 2 ^ g) 0

/-- SLOT_HALF_START (R385, R387): at wc 0 of a tick the next half starts. -/
def execSlotHalfStart (s : State) : Res :=
  done (if !seqMayRun s || !s.afe.started || s.afe.run.isSome || !(s.afe.nextAt.all (fun t => tickDue t s.bt)) then s
    else
      match nextHalf s 33 s.afe.next.1 s.afe.next.2 with
      | none => wr F.AFE_STATUS_RUNNING 0 s
      | some (n, second) =>
        let cfg := reg (R.AFE_SLOT_CFG n) s
        let pins := reg (R.AFE_SLOT_PINS n) s
        let c := slotCfg cfg pins second
        let changed := match s.afe.prev with
          | none => 15
          | some (pc, pp, p2) => slotChanges (slotCfg pc pp p2) c
        let h : HalfRun := { slot := n, second, cfg, pins, cal := reg (R.AFE_CAL (slotSetting c)) s, changed,
                             firstTag := s.bt, words := [] }
        s |> setAfe (fun a => { a with run := some h, prev := some (cfg, pins, second) })
          |> wr F.AFE_STATUS_RUNNING 1 |> wr F.AFE_STATUS_CUR_SLOT n |> wr F.AFE_STATUS_HALF (b2n second))

/-! ### Results (R389-R391, R394, R395) -/

/-- R391: the corrected code and whether it saturated. -/
def correctCode (cal : Word) (code : Int) : Int × Bool :=
  let c := ((code - toSigned 16 (fget cal 39 24)) * ((fget cal 23 0 : Nat) : Int)) / 4194304
  if c < -0x800000 then (-0x800000, true) else if 0x7FFFFF < c then (0x7FFFFF, true) else (c, false)

/-- A lineariser coefficient. -/
def linCoef (set i j : Nat) (s : State) : F32 := BitVec.ofNat 32 (rd (F.AFE_LIN_C (12 * set + 3 * i + j)) s)

/-- R394. -/
def linearise (set : Nat) (x t : F32) (s : State) : F32 :=
  let c (i j : Nat) : F32 := linCoef set i j s
  let p (j : Nat) : F32 := fadd (fmul (fadd (fmul (fadd (fmul (c 3 j) x) (c 2 j)) x) (c 1 j)) x) (c 0 j)
  fadd (fmul (fadd (fmul (p 2) t) (p 1)) t) (p 0)

/-- R395: the temperature input. The codes the table does not list give a free value. -/
def tempInput (tsrc : Nat) (s : State) : F32 × State :=
  if tsrc < 16 then
    match SMap.find s.afe.lastValid tsrc with
    | some v => (v, s)
    | none => (0, count C.AFE_TSRC_NONE s)
  else if tsrc == 0x1E then (BitVec.ofNat 32 (rd F.AFE_DIE_TEMP_TEMP s), s)
  else if tsrc == 0x1F then (0, s)
  else fresh 32 s

/-- R389: AFE_OPEN is raised when a slot's OPEN goes from clear to set, once per slot and cycle. -/
def noteOpen (n : Nat) (open_ : Bool) (s : State) : State :=
  let was := nbit s.afe.openNow n
  let s1 := setAfe (fun a => { a with openNow := if was == open_ then a.openNow
                                                 else if open_ then a.openNow + 2 ^ n else a.openNow - 2 ^ n }) s
  let s2 := whenB open_ (count C.AFE_OPEN) s1
  if open_ && !was && !nbit s.afe.openRaised n then
    raise E.AFE_OPEN n (setAfe (fun a => { a with openRaised := a.openRaised + 2 ^ n }) s2)
  else s2

/-- R397: a valid result reaches the pulse outputs that follow the slot. -/
def feedPfo (n : Nat) (y : F32) (s : State) : State :=
  eachOf (List.range 4) (fun s k =>
    if rd (F.PFO_CFG_SRC k) s == n then
      setAfe (fun a => { a with pfoDue := (a.pfoDue.filter (fun p => p.1 != k)) ++ [(k, y)], pfoSince := setAt a.pfoSince k 0 }) s
    else s) s

/-- R382: the raw code of a filtered input, in pV in PGA mode and in fA in TIA mode: full scale is 2.5 V / 2^GAIN or
2.5 mA / 10^RF. A tie rounds up. -/
def rawCode (c : SlotCfg) (input : Int) : Int :=
  let gain : Nat := if c.mode = 0 then 2 ^ c.gain else 10 ^ c.rf
  satSigned 24 ((2 * (input * (gain : Int) * 2 ^ 23) + 2500000000000) / 5000000000000)

/-- R381: the compliance voltage in mV. -/
def compliance (s : State) : Nat := if on F.AFE_CFG_COMPLIANCE s then 4000 else 2300

/-- R381, R384: has a source in use left compliance: `va` and `vb` are the highest voltages in mV at the pins of sources A
and B during the sample. -/
def leftCompliance (c : SlotCfg) (va vb : Nat) (s : State) : Bool :=
  (c.iexa != 0 && decide (compliance s < va)) || (c.iexb != 0 && decide (compliance s < vb))

/-- Deliver the result of one sample of a half. -/
def sampleResult (h : HalfRun) (input : Int) (va vb : Nat) (s : State) : Word × State :=
  let c := slotCfg h.cfg h.pins h.second
  let code := rawCode c input
  let (cc, sat) := correctCode h.cal code
  let ovr := sat || code == -0x800000 || code == 0x7FFFFF
  let rs := reasons h.changed c.filt h.words.length
  let op := leftCompliance c va vb s
  let (v, s1) : F32 × State :=
    if c.linEn then let (t, s1) := tempInput c.tsrc s; (linearise c.linSet (codeToF32 cc) t s1, s1)
    else (BitVec.ofNat 32 (ofSigned 24 cc * 256), s)
  let fin := !c.linEn || f32Finite v
  let valid := rs == 0 && !ovr && !op && fin
  let w := BitVec.ofNat 40 (v.toNat * 256 + b2n valid * 128 + rs * 8 + b2n ovr * 4 + b2n op * 2 + b2n c.linEn)
  let s2 := s1 |> whenB (rs != 0) (count C.AFE_INVALID) |> whenB ovr (count C.AFE_OVR) |> noteOpen h.slot op
               |> whenB (!fin) (count C.AFE_LIN_BAD) |> setReg (R.AFE_RESULT h.slot) w
  let y := if c.linEn then v else codeToF32 cc
  let s3 := if valid then feedPfo h.slot y (setAfe (fun a => { a with
      lastValid := (SMap.del a.lastValid h.slot).ins h.slot y }) s2) else s2
  (w, s3)

/-- R390: the capture item of a half. -/
def halfItem (h : HalfRun) (cut : Bool) : List Byte :=
  bytesBE 5 (stampOf h.firstTag).toNat ++
    [BitVec.ofNat 8 (h.slot + 16 * b2n h.second + 32 * b2n cut), BitVec.ofNat 8 h.words.length] ++ toBytes h.words

/-- R390: keep the item of a half until the end of the tick. -/
def deliverHalf (h : HalfRun) (cut : Bool) (s : State) : State :=
  setAfe (fun a => { a with items := a.items ++ [halfItem h cut] }) s

/-- SAMPLE_DONE (R388-R390): the converter completes sample s of the running half in the last tick of its period.
After a calibration that waited for the half the slot that follows comes next (R393). -/
def execSampleDone (input : Int) (va vb : Nat) (s : State) : Res :=
  done (match s.afe.run with
    | none => s
    | some h =>
      let c := slotCfg h.cfg h.pins h.second
      let n := h.words.length
      if !tickDue (tickAdd h.firstTag (((n + 1) * c.d : Nat) - 1)) s.bt then s
      else
        let (w, s1) := sampleResult h input va vb s
        let h1 := { h with words := h.words ++ [w] }
        if h1.words.length < c.count then setAfe (fun a => { a with run := some h1 }) s1
        else
          let nx := if !h.second && c.swap then (h.slot, true) else ((h.slot + 1) % 16, false)
          let s2 := deliverHalf h1 false
            (setAfe (fun a => { a with run := none, next := nx, nextAt := some (tickAdd h.firstTag (c.count * c.d : Nat)) }) s1)
          if s2.afe.calReq != 0 then
            calBegin s2.afe.calReq (setAfe (fun a => { a with next := ((h.slot + 1) % 16, false) }) s2)
          else s2)

/-! ### Calibration (R391-R393) -/

/-- Commit a write of AFE_CAL_CTRL (R393). -/
def calCtrlWrite (v : Word) (s : State) : State :=
  let s1 := wr F.AFE_CAL_CTRL_SETTINGS (fget v 12 0) s
  if fget v 16 16 == 0 || on F.AFE_CAL_CTRL_BUSY s || fget v 12 0 == 0 || !domOn dAFE s then s1
  else if s.afe.run.isSome then setAfe (fun a => { a with calReq := fget v 12 0 }) s1
  else calBegin (fget v 12 0) s1

/-- R393: commit a write of AFE_CALg. -/
def calRegWrite (g : Nat) (v : Word) (s : State) : State :=
  if nbit s.afe.cal g then count C.REG_LOCKED_WRITE s else setReg (R.AFE_CAL g) v s

/-- R392: one setting's calibration from the sums of its samples 6 to 21 in the two steps. A gain with no positive
denominator is not stated. -/
def calSetting (g : Nat) (sum0 sum1 : Int) (s : State) : State :=
  let m0 := (2 * sum0 + 16) / 32
  let ofs := max (-32767) (min 32767 m0)
  let den := sum1 - 16 * ofs
  let (gain, s1) : Int × State :=
    if 0 < den then ((2 * (6710886 * 2 ^ 26) + den) / (2 * den), s)
    else let (x, s1) := fresh 24 s; ((x.toNat : Int), s1)
  let gc := min 0xFFFFFF gain
  let s2 := whenB (ofs != m0 || gc != gain) (count C.AFE_CAL_RANGE) s1
  s2 |> wr (F.AFE_CAL_OFS g) (ofSigned 16 ofs) |> wr (F.AFE_CAL_GCAL g) gc.toNat

/-- AFE_CAL_DONE (R392, R393): `sums` are those of the settings calibrated, in ascending order. -/
def execAfeCalDone (sums : List (Int × Int)) (s : State) : Res :=
  done (if s.afe.cal == 0 || s.afe.calLeft != 0 then s
    else
      let gs := (List.range 13).filter (nbit s.afe.cal)
      let s1 := eachOf (gs.zip (sums ++ List.replicate 13 (0, 0))) (fun s p => calSetting p.1 p.2.1 p.2.2 s) s
      s1 |> setAfe (fun a => { a with cal := 0, prev := none, nextAt := none, started := on F.AFE_CFG_SEQ_EN s })
         |> wr F.AFE_CAL_CTRL_BUSY 0 |> wr F.AFE_STATUS_CAL_BUSY 0 |> raise E.AFE_CAL_DONE s.afe.cal)

/-! ### Pulse outputs (R396-R398) -/

def pfoParam (f : Nat → Fld) (k : Nat) (s : State) : F32 := BitVec.ofNat 32 (rd (f k) s)

/-- R396: is an output badly configured. -/
def pfoBad (k : Nat) (s : State) : Bool :=
  let y0 := pfoParam F.PFO_Y0_VALUE k s
  let y1 := pfoParam F.PFO_Y1_VALUE k s
  let fin := f32Finite y0 && f32Finite y1 && f32Finite (pfoParam F.PFO_OUT0_VALUE k s) &&
    f32Finite (pfoParam F.PFO_OUT1_VALUE k s)
  !fin || feq y0 y1 || rd (F.PFO_CFG_MODE k) s == 3

/-- Does an output run. -/
def pfoRuns (k : Nat) (s : State) : Bool := rd (F.PFO_CFG_MODE k) s != 0 && !pfoBad k s

/-- R396: the high time in fc or the phase increment for an input value; a value that is not a number is not stated. -/
def pfoValue (k : Nat) (y : F32) (s : State) : Nat × State :=
  let y0 := pfoParam F.PFO_Y0_VALUE k s
  let o0 := pfoParam F.PFO_OUT0_VALUE k s
  let r0 := fdiv (fsub y y0) (fsub (pfoParam F.PFO_Y1_VALUE k s) y0)
  let r1 := if flt r0 0 then 0 else r0
  let r := if flt 0x3F800000 r1 then 0x3F800000 else r1
  let out := fadd o0 (fmul r (fsub (pfoParam F.PFO_OUT1_VALUE k s) o0))
  if f32IsNan r0 || !f32Finite out then let (x, s1) := fresh 32 s; (x.toNat, s1)
  else if rd (F.PFO_CFG_MODE k) s == 1 then
    let p := max 256 (rd (F.PFO_CFG_PERIOD k) s)
    ((max 0 (min (p : Int) (f32Scale out p 1))).toNat, s)
  else
    let o := if flt out 0x3F800000 then 0x3F800000 else if flt 0x48435000 out then 0x48435000 else out
    ((f32Scale o (2 ^ 32) 399360000).toNat, s)

/-- Say what an output's pin does: `mode` 0 is driven low. -/
def showPfo (k mode v : Nat) (s : State) : State := emit (.pfo k mode v (max 256 (rd (F.PFO_CFG_PERIOD k) s))) s

/-- Set what an output's pin does. -/
def setPfo (k mode v : Nat) (s : State) : State :=
  showPfo k mode v (setAfe (fun a => { a with pfoOut := lput 0 k v a.pfoOut }) s)

/-- R397: the results of the last tick update the outputs. -/
def pfoUpdate (s : State) : State :=
  eachOf s.afe.pfoDue (fun s p =>
    if pfoRuns p.1 s then
      let (v, s1) := pfoValue p.1 p.2 s
      setPfo p.1 (rd (F.PFO_CFG_MODE p.1) s) v (setAfe (fun a => { a with pfoFault := if nbit a.pfoFault p.1 then a.pfoFault - 2 ^ p.1 else a.pfoFault }) s1)
    else s) (setAfe (fun a => { a with pfoDue := [] }) s)

/-- R396, PFOk_CFG: an output that is off or badly configured is held idle, driven low. -/
def pfoIdle (s : State) : State :=
  eachOf (List.range 4) (fun s k => if !pfoRuns k s && lget 0 s.afe.pfoOut k != 0 then setPfo k 0 0 s else s) s

/-- AFE_PFO_FAULT (R398): HOLD ticks have passed without a valid result. -/
def execAfePfoFault (k : Fin 4) (s : State) : Res :=
  let n := k.val
  let hold := rd (F.PFO_CFG_HOLD n) s
  done (if pfoRuns n s && hold != 0 && decide (hold ≤ s.afe.pfoSince.getD n 0) && !nbit s.afe.pfoFault n && fromListening s then
      let s1 := raise E.AFE_PFO_FAULT n (count C.AFE_PFO_FAULT
        (setAfe (fun a => { a with pfoFault := a.pfoFault + 2 ^ n }) s))
      if on (F.PFO_CFG_FAULT_ACT n) s then setPfo n 0 0 s1 else s1
    else s)

/-- AFE_STATUS as it reads: bad slots (those enabled) and bad outputs follow the configuration. -/
def afeStatusView (s : State) : Word :=
  let bits (n : Nat) (b : Nat → Bool) : Nat := (List.range n).foldl (fun v k => if b k then v + 2 ^ k else v) 0
  let w := fput (reg R.AFE_STATUS s) 15 0 (bits 16 (fun n =>
    let c := slotNow n false s; decide (1 ≤ c.count) && slotBad c))
  fput w 27 24 (bits 4 (fun k => pfoBad k s))

/-! ### The engine at a tick boundary -/

/-- R390: IN_QUEUE; a queue that takes no capture items acts as 136. -/
def afeQueue (s : State) : Nat :=
  let q := rd F.AFE_CFG_IN_QUEUE s
  if q ≤ 63 || (136 ≤ q && q ≤ 151) then q else 136

/-- End of a tick: the items completed in it go to their queue. -/
def afeEnd (s : State) : State :=
  eachOf s.afe.items (fun s b => submitOr C.AFE_CAP_DROP (afeQueue s) srcCapture s.bt b s) (setAfe (fun a => { a with items := [] }) s)

/-- The engine stops: what it was doing is dropped and its outputs are driven low. -/
def afeStop (s : State) : State :=
  let s1 := eachOf (s.afe.pfoOut.map Prod.fst) (fun s k => setPfo k 0 0 s) s
  s1 |> setAfe (fun a => { lastValid := a.lastValid, items := a.items })
     |> wr F.AFE_STATUS_RUNNING 0 |> wr F.AFE_STATUS_CAL_BUSY 0 |> wr F.AFE_CAL_CTRL_BUSY 0

/-- Start of a tick (R386, R393, R397). -/
def afeBegin (dieTemp : Option F32) (s : State) : State :=
  let s0 := match dieTemp with
    | some t => wr F.AFE_DIE_TEMP_TEMP t.toNat s
    | none => s
  if !domOn dAFE s0 || !fromListening s0 then
    (if s0.afe = { lastValid := s0.afe.lastValid, items := s0.afe.items } then s0 else afeStop s0)
  else
    let s1 := pfoUpdate (pfoIdle s0)
    let s2 := setAfe (fun a => { a with
      calLeft := a.calLeft - 1
      openRaised := if s1.bt % 48 == 0 then 0 else a.openRaised
      pfoFault := (List.range 4).foldl (fun v k => if pfoRuns k s1 && nbit a.pfoFault k then v + 2 ^ k else v) 0
      pfoSince := (List.range 4).map (fun k => if pfoRuns k s1 then a.pfoSince.getD k 0 + 1 else 0) }) s1
    if on F.AFE_CFG_SEQ_EN s2 then
      if s2.afe.started || s2.afe.cal != 0 then s2
      else
        let st := setAfe (fun a => { a with next := (0, false), prev := none, nextAt := none }) s2
        if on F.AFE_CFG_AUTOCAL s2 && autoSettings s2 != 0 then calBegin (autoSettings s2) st
        else setAfe (fun a => { a with started := true }) st
    else if s2.afe.run.isNone && s2.afe.started then
      wr F.AFE_STATUS_RUNNING 0 (setAfe (fun a => { a with started := false }) s2)
    else s2

/-- R400: a PWM output starts a new period. -/
def pfoRestart (s : State) : State :=
  eachOf s.afe.pfoOut (fun s p => if pfoRuns p.1 s && rd (F.PFO_CFG_MODE p.1) s == 1 then showPfo p.1 1 p.2 s else s) s

/-- R400: a time step cuts the running half short, delivers what it has, and restarts the slot; a half that has ended
lets the next start on the new time base. -/
def afeStep (s0 : State) : State :=
  let s := pfoRestart s0
  match s.afe.run with
  | none => setAfe (fun a => { a with nextAt := none }) s
  | some h =>
    let s1 := if h.words.isEmpty then s else deliverHalf h true s
    count C.AFE_REALIGN (setAfe (fun a => { a with run := none, prev := none, next := (h.slot, false), nextAt := none }) s1)

end Sys2Proof.Machine
end

