-- ==== Sys2Proof/Machine/CryptoHash.lean ====
section
/-! DEFINITION. SHA-256 (FIPS 180-4), HMAC and HKDF (RFC 5869), as spec/09_keys_cipher_signatures.md R216 and R235 name
them; their steps are those of the named standards (notes/assumptions/4.md). -/

namespace Sys2Proof.Machine

/-- A 32-bit word of SHA-256. -/
abbrev W32 := BitVec 32

/-- The 64 round constants. -/
def shaK : List W32 :=
  [0x428A2F98, 0x71374491, 0xB5C0FBCF, 0xE9B5DBA5, 0x3956C25B, 0x59F111F1, 0x923F82A4, 0xAB1C5ED5] ++
  [0xD807AA98, 0x12835B01, 0x243185BE, 0x550C7DC3, 0x72BE5D74, 0x80DEB1FE, 0x9BDC06A7, 0xC19BF174] ++
  [0xE49B69C1, 0xEFBE4786, 0x0FC19DC6, 0x240CA1CC, 0x2DE92C6F, 0x4A7484AA, 0x5CB0A9DC, 0x76F988DA] ++
  [0x983E5152, 0xA831C66D, 0xB00327C8, 0xBF597FC7, 0xC6E00BF3, 0xD5A79147, 0x06CA6351, 0x14292967] ++
  [0x27B70A85, 0x2E1B2138, 0x4D2C6DFC, 0x53380D13, 0x650A7354, 0x766A0ABB, 0x81C2C92E, 0x92722C85] ++
  [0xA2BFE8A1, 0xA81A664B, 0xC24B8B70, 0xC76C51A3, 0xD192E819, 0xD6990624, 0xF40E3585, 0x106AA070] ++
  [0x19A4C116, 0x1E376C08, 0x2748774C, 0x34B0BCB5, 0x391C0CB3, 0x4ED8AA4A, 0x5B9CCA4F, 0x682E6FF3] ++
  [0x748F82EE, 0x78A5636F, 0x84C87814, 0x8CC70208, 0x90BEFFFA, 0xA4506CEB, 0xBEF9A3F7, 0xC67178F2]

/-- The initial hash value. -/
def shaH : List W32 := [0x6A09E667, 0xBB67AE85, 0x3C6EF372, 0xA54FF53A, 0x510E527F, 0x9B05688C, 0x1F83D9AB, 0x5BE0CD19]

/-- Rotate right. -/
def rotr (x : W32) (n : Nat) : W32 := (x >>> n) ||| (x <<< (32 - n))

/-- The next word of the message schedule, from the sixteen before it, the newest first. -/
def shaNext (w : List W32) : W32 :=
  let a := w.getD 1 0
  let b := w.getD 14 0
  (rotr a 17 ^^^ rotr a 19 ^^^ (a >>> 10)) + w.getD 6 0 + (rotr b 7 ^^^ rotr b 18 ^^^ (b >>> 3)) + w.getD 15 0

/-- Extend the schedule, newest first. -/
def shaExtend : (n : Nat) → List W32 → List W32
  | 0, w => w
  | n + 1, w => shaExtend n (shaNext w :: w)

/-- The eight working variables. -/
structure ShaVars where
  a : W32
  b : W32
  c : W32
  d : W32
  e : W32
  f : W32
  g : W32
  h : W32
  deriving DecidableEq, Repr

/-- One round. -/
def shaRound (v : ShaVars) (kw : W32 × W32) : ShaVars :=
  let t1 := v.h + (rotr v.e 6 ^^^ rotr v.e 11 ^^^ rotr v.e 25) + ((v.e &&& v.f) ^^^ (~~~v.e &&& v.g)) + kw.1 + kw.2
  let t2 := (rotr v.a 2 ^^^ rotr v.a 13 ^^^ rotr v.a 22) + ((v.a &&& v.b) ^^^ (v.a &&& v.c) ^^^ (v.b &&& v.c))
  { a := t1 + t2, b := v.a, c := v.b, d := v.c, e := v.d + t1, f := v.e, g := v.f, h := v.g }

/-- The words of a 64-byte block, newest first. -/
def shaWords : (n : Nat) → List Byte → List W32 → List W32
  | 0, _, acc => acc
  | n + 1, b, acc => shaWords n (b.drop 4) (BitVec.ofNat 32 (beNat (b.take 4)) :: acc)

/-- One compression. -/
def shaCompress (h : List W32) (block : List Byte) : List W32 :=
  let w := (shaExtend 48 (shaWords 16 block [])).reverse
  let v0 : ShaVars :=
    { a := h.getD 0 0, b := h.getD 1 0, c := h.getD 2 0, d := h.getD 3 0,
      e := h.getD 4 0, f := h.getD 5 0, g := h.getD 6 0, h := h.getD 7 0 }
  let v := (shaK.zip w).foldl shaRound v0
  List.zipWith (· + ·) h [v.a, v.b, v.c, v.d, v.e, v.f, v.g, v.h]

/-- The padded message. -/
def shaPad (m : List Byte) : List Byte :=
  m ++ 0x80 :: List.replicate ((119 - m.length % 64) % 64) 0 ++ bytesBE 8 (8 * m.length)

/-- Compress block after block. -/
def shaBlocks : (n : Nat) → List Byte → List W32 → List W32
  | 0, _, h => h
  | n + 1, b, h => shaBlocks n (b.drop 64) (shaCompress h (b.take 64))

/-- SHA-256. -/
def sha256 (m : List Byte) : List Byte :=
  let p := shaPad m
  (shaBlocks (p.length / 64) p shaH).flatMap (fun w => bytesBE 4 w.toNat)

/-- HMAC-SHA-256. -/
def hmac (key m : List Byte) : List Byte :=
  let k := slice (if 64 < key.length then sha256 key else key) 0 64
  sha256 (k.map (· ^^^ 0x5C) ++ sha256 (k.map (· ^^^ 0x36) ++ m))

/-- The expand step of HKDF: `n` more blocks after block `i - 1`, whose value is `t`. -/
def hkdfExpand (prk info : List Byte) : (n : Nat) → (i : Nat) → (t : List Byte) → List Byte
  | 0, _, _ => []
  | n + 1, i, t =>
    let t1 := hmac prk (t ++ info ++ [BitVec.ofNat 8 i])
    t1 ++ hkdfExpand prk info n (i + 1) t1

/-- HKDF with SHA-256; at most 255 blocks. -/
def hkdf (salt ikm info : List Byte) (len : Nat) : List Byte :=
  (hkdfExpand (hmac salt ikm) info (min 255 ((len + 31) / 32)) 1 []).take len

/-- The bytes of an ASCII label. -/
def ascii (s : String) : List Byte := s.toList.map (fun c => BitVec.ofNat 8 c.toNat)

end Sys2Proof.Machine
end

