-- ==== Sys2Proof/Machine/CryptoAes.lean ====
section
/-! DEFINITION. AES-256, AES-256-GCM with a 32-bit tag (spec/09 R223-R226) and RFC 3394 key unwrap (R220); the steps are
those of the named standards (notes/assumptions/4.md). -/

namespace Sys2Proof.Machine

/-- The S-box, 32 entries a row, entry 0 of a row in its most significant byte. -/
def aesBox : List Nat :=
  [0x637C777BF26B6FC53001672BFED7AB76CA82C97DFA5947F0ADD4A2AF9CA472C0,
   0xB7FD9326363FF7CC34A5E5F171D8311504C723C31896059A071280E2EB27B275,
   0x09832C1A1B6E5AA0523BD6B329E32F8453D100ED20FCB15B6ACBBE394A4C58CF,
   0xD0EFAAFB434D338545F9027F503C9FA851A3408F929D38F5BCB6DA2110FFF3D2,
   0xCD0C13EC5F974417C4A77E3D645D197360814FDC222A908846EEB814DE5E0BDB,
   0xE0323A0A4906245CC2D3AC629195E479E7C8376D8DD54EA96C56F4EA657AAE08,
   0xBA78252E1CA6B4C6E8DD741F4BBD8B8A703EB5664803F60E613557B986C11D9E,
   0xE1F8981169D98E949B1E87E9CE5528DF8CA1890DBFE6426841992D0FB054BB16]

/-- The inverse S-box. -/
def aesInvBox : List Nat :=
  [0x52096AD53036A538BF40A39E81F3D7FB7CE339829B2FFF87348E4344C4DEE9CB,
   0x547B9432A6C2233DEE4C950B42FAC34E082EA16628D924B2765BA2496D8BD125,
   0x72F8F66486689816D4A45CCC5D65B6926C704850FDEDB9DA5E154657A78D9D84,
   0x90D8AB008CBCD30AF7E45805B8B34506D02C1E8FCA3F0F02C1AFBD0301138A6B,
   0x3A9111414F67DCEA97F2CFCEF0B4E67396AC7422E7AD3585E2F937E81C75DF6E,
   0x47F11A711D29C5896FB7620EAA18BE1BFC563E4BC6D279209ADBC0FE78CD5AF4,
   0x1FDDA8338807C731B11210592780EC5F60517FA919B54A0D2DE57A9F93C99CEF,
   0xA0E03B4DAE2AF5B0C8EBBB3C83539961172B047EBA77D626E169146355210C7D]

/-- Look a byte up. -/
def boxAt (t : List Nat) (b : Byte) : Byte :=
  BitVec.ofNat 8 (t.getD (b.toNat / 32) 0 / 256 ^ (31 - b.toNat % 32))

/-- Multiply by x in GF(2^8). -/
def xtime (b : Byte) : Byte := (b <<< 1) ^^^ (if b.msb then 0x1B else 0)

/-- Multiply by a constant below 16. -/
def gmul (c : Nat) (b : Byte) : Byte :=
  let b2 := xtime b
  let b4 := xtime b2
  let b8 := xtime b4
  (if nbit c 0 then b else 0) ^^^ (if nbit c 1 then b2 else 0) ^^^ (if nbit c 2 then b4 else 0) ^^^ (if nbit c 3 then b8 else 0)

/-- The next word of the key schedule; `ws` holds the words so far, the newest first. -/
def aesKeyNext (i : Nat) (rcon : Byte) (ws : List (List Byte)) : List Byte :=
  let t := ws.getD 0 []
  let t1 :=
    if i % 8 == 0 then
      match (t.drop 1 ++ t.take 1).map (boxAt aesBox) with
      | a :: r => (a ^^^ rcon) :: r
      | [] => []
    else if i % 8 == 4 then t.map (boxAt aesBox)
    else t
  xorBytes (ws.getD 7 []) t1

/-- Extend the key schedule by `n` words. -/
def aesKeyExtend : (n : Nat) → (i : Nat) → (rcon : Byte) → List (List Byte) → List (List Byte)
  | 0, _, _, ws => ws
  | n + 1, i, rcon, ws =>
    aesKeyExtend n (i + 1) (if i % 8 == 0 then xtime rcon else rcon) (aesKeyNext i rcon ws :: ws)

/-- The 15 round keys. -/
def aesKeys (key : List Byte) : List (List Byte) :=
  let ws := (aesKeyExtend 52 8 1 ((List.range 8).map (fun i => slice key (4 * (7 - i)) 4))).reverse
  (List.range 15).map (fun r => (List.range 4).flatMap (fun j => ws.getD (4 * r + j) []))

/-- Byte `i` of the state after moving row r left by `d * r`. -/
def shiftRows (d : Nat) (b : List Byte) : List Byte :=
  (List.range 16).map (fun i => b.getD ((i + 4 * (d * (i % 4))) % 16) 0)

/-- Mix each column with the coefficients of its first row. -/
def mixColumns (c : List Nat) (b : List Byte) : List Byte :=
  (List.range 16).map (fun i =>
    (List.range 4).foldl (fun a j => a ^^^ gmul (c.getD ((j + 4 - i % 4) % 4) 0) (b.getD (4 * (i / 4) + j) 0)) 0)

/-- One block of AES-256 from its round keys. -/
def aesEncKeys (ks : List (List Byte)) (b : List Byte) : List Byte :=
  let s1 := (List.range 13).foldl (fun s r =>
    xorBytes (mixColumns [2, 3, 1, 1] (shiftRows 1 (s.map (boxAt aesBox)))) (ks.getD (r + 1) [])) (xorBytes b (ks.getD 0 []))
  xorBytes (shiftRows 1 (s1.map (boxAt aesBox))) (ks.getD 14 [])

/-- AES-256. -/
def aesEnc (key b : List Byte) : List Byte := aesEncKeys (aesKeys key) b

/-- The inverse cipher. -/
def aesDec (key b : List Byte) : List Byte :=
  let ks := aesKeys key
  let s1 := (List.range 13).foldl (fun s r =>
    mixColumns [14, 11, 13, 9] (xorBytes ((shiftRows 3 s).map (boxAt aesInvBox)) (ks.getD (13 - r) []))) (xorBytes b (ks.getD 14 []))
  xorBytes ((shiftRows 3 s1).map (boxAt aesInvBox)) (ks.getD 0 [])

/-! ### Key unwrap (RFC 3394) -/

/-- One of the 24 unwrap steps, from step 24 down. -/
def unwrapStep (kek : List Byte) (st : List Byte × List (List Byte)) (k : Nat) : List Byte × List (List Byte) :=
  let t := 24 - k
  let i := (t - 1) % 4
  let b := aesDec kek (xorBytes st.1 (bytesBE 8 t) ++ st.2.getD i [])
  (b.take 8, setAt st.2 i (b.drop 8))

/-- Unwrap a 40-byte field to 32 bytes; `none` where the check value differs. -/
def keyUnwrap (kek c : List Byte) : Option (List Byte) :=
  let r := (List.range 24).foldl (unwrapStep kek)
    (slice c 0 8, (List.range 4).map (fun i => slice c (8 * (i + 1)) 8))
  if r.1 = List.replicate 8 0xA6 then some r.2.flatten else none

/-! ### GCM -/

/-- Multiply in GF(2^128) as GCM numbers bits: `n` bits of `x` left. -/
def ghashMul : (n : Nat) → (x z v : Nat) → Nat
  | 0, _, z, _ => z
  | n + 1, x, z, v =>
    ghashMul n x (if nbit x n then z ^^^ v else z)
      (if v % 2 == 1 then (v / 2) ^^^ (0xE1 * 2 ^ 120) else v / 2)

/-- GHASH over whole blocks. -/
def ghashBlocks (h : Nat) : (n : Nat) → List Byte → (y : Nat) → Nat
  | 0, _, y => y
  | n + 1, b, y => ghashBlocks h n (b.drop 16) (ghashMul 128 (y ^^^ beNat (slice b 0 16)) 0 h)

/-- Pad with zeros to whole blocks. -/
def pad16 (b : List Byte) : List Byte := b ++ List.replicate ((16 - b.length % 16) % 16) 0

/-- The keystream of `n` blocks from counter `c`. -/
def gcmStream (ks : List (List Byte)) (iv : List Byte) : (n : Nat) → (c : Nat) → List Byte
  | 0, _ => []
  | n + 1, c => aesEncKeys ks (iv ++ bytesBE 4 c) ++ gcmStream ks iv n (c + 1)

/-- The 32-bit tag over associated data and ciphertext. -/
def gcmTag (key iv aad ct : List Byte) : List Byte :=
  let ks := aesKeys key
  let h := beNat (aesEncKeys ks (List.replicate 16 0))
  let data := pad16 aad ++ pad16 ct ++ bytesBE 8 (8 * aad.length) ++ bytesBE 8 (8 * ct.length)
  let y := ghashBlocks h (data.length / 16) data 0
  (xorBytes (bytesBE 16 y) (aesEncKeys ks (iv ++ bytesBE 4 1))).take 4

/-- XOR with the keystream that starts at J0 + 1. -/
def gcmCrypt (key iv text : List Byte) : List Byte :=
  xorBytes text (gcmStream (aesKeys key) iv ((text.length + 15) / 16) 2)

end Sys2Proof.Machine
end

