-- ==== Sys2Proof/Machine/CryptoCurve.lean ====
section
/-! DEFINITION. The curve P-256 and the operations of the signature unit with their statuses (spec/09 R235, R236). The
arithmetic is that of the named standards (notes/assumptions/4.md). -/

namespace Sys2Proof.Machine

def p256p : Nat := 0xFFFFFFFF00000001000000000000000000000000FFFFFFFFFFFFFFFFFFFFFFFF
def p256n : Nat := 0xFFFFFFFF00000000FFFFFFFFFFFFFFFFBCE6FAADA7179E84F3B9CAC2FC632551
def p256b : Nat := 0x5AC635D8AA3A93E7B3EBBD55769886BC651D06B0CC53B0F63BCE3C3E27D2604B
def p256gx : Nat := 0x6B17D1F2E12C4247F8BCE6E563A440F277037D812DEB33A0F4A13945D898C296
def p256gy : Nat := 0x4FE342E2FE1A7F9B8EE7EB4A7C0F9E162BCE33576B315ECECBB6406837BF51F5

/-- `b ^ e * acc` modulo `m`, over the low `n` bits of `e`. -/
def powMod (m : Nat) : (n : Nat) → (b e acc : Nat) → Nat
  | 0, _, _, acc => acc
  | n + 1, b, e, acc => powMod m n (b * b % m) (e / 2) (if e % 2 == 1 then acc * b % m else acc)

/-- The inverse modulo a prime below 2^256. -/
def invMod (m a : Nat) : Nat := powMod m 256 (a % m) (m - 2) 1

/-- A point of the curve; `none` is the point at infinity. -/
abbrev Point := Option (Nat × Nat)

/-- Point addition. -/
def ptAdd (a b : Point) : Point :=
  match a, b with
  | none, q => q
  | q, none => q
  | some (x1, y1), some (x2, y2) =>
    if x1 == x2 && (y1 + y2) % p256p == 0 then none
    else
      let l :=
        if x1 == x2 then (3 * x1 * x1 + (p256p - 3)) % p256p * invMod p256p (2 * y1) % p256p
        else (y2 + p256p - y1) * invMod p256p (x2 + p256p - x1) % p256p
      let x := (l * l + 2 * p256p - x1 - x2) % p256p
      some (x, (l * (x1 + p256p - x) + p256p - y1) % p256p)

/-- `d` times a point, over the low `n` bits of `d`. -/
def ptMulAcc : (n : Nat) → (d : Nat) → (q acc : Point) → Point
  | 0, _, _, acc => acc
  | n + 1, d, q, acc => ptMulAcc n (d / 2) (ptAdd q q) (if d % 2 == 1 then ptAdd acc q else acc)

def ptMul (d : Nat) (q : Point) : Point := ptMulAcc 256 d q none

/-- The base point. -/
def p256G : Point := some (p256gx, p256gy)

/-- Is a point with coordinates below p on the curve. -/
def onCurve (x y : Nat) : Bool := y * y % p256p == (x * x * x + (p256p - 3) * x + p256b) % p256p

/-- Curve statuses of R236. -/
def sigOK : Nat := 0
def sigBAD_SCALAR : Nat := 1
def sigBAD_RANGE : Nat := 2
def sigBAD_POINT : Nat := 3
def sigBAD_RESULT : Nat := 4
def sigREJECT : Nat := 5
def sigNO_RANDOM : Nat := 6

/-- R236: the checks on a point. -/
def pointStatus (x y : Nat) : Nat :=
  if p256p ≤ x || p256p ≤ y then sigBAD_RANGE else if !onCurve x y then sigBAD_POINT else sigOK

/-- Is a scalar zero or n and above. -/
def badScalar (d : Nat) : Bool := d == 0 || decide (p256n ≤ d)

/-- A point as the 64-byte string x then y (R212). -/
def pointBytes (q : Nat × Nat) : List Byte := bytesBE 32 q.1 ++ bytesBE 32 q.2

/-- A point from its 64 bytes. -/
def bytesPoint (b : List Byte) : Nat × Nat := (beNat (slice b 0 32), beNat (slice b 32 32))

/-- ECDH: the 32-byte x-coordinate. -/
def ecdhOp (d x y : Nat) : Nat × List Byte :=
  let st := pointStatus x y
  if st != sigOK then (st, List.replicate 32 0)
  else if badScalar d then (sigBAD_SCALAR, List.replicate 32 0)
  else
    match ptMul d (some (x, y)) with
    | none => (sigBAD_RESULT, List.replicate 32 0)
    | some q => (sigOK, bytesBE 32 q.1)

/-- The key pair of a scalar: the public key. -/
def publicOf (d : Nat) : List Byte :=
  match ptMul d p256G with
  | none => List.replicate 64 0
  | some q => pointBytes q

/-- R235: a scalar from 320 drawn bits. -/
def scalarOf (draw : List Byte) : Nat := beNat draw % (p256n - 1) + 1

/-- ECDSA sign of a digest with a drawn k: r and s. -/
def signOp (d k e : Nat) : Nat × List Byte :=
  if badScalar d then (sigBAD_SCALAR, List.replicate 64 0)
  else
    match ptMul k p256G with
    | none => (sigBAD_RESULT, List.replicate 64 0)
    | some q =>
      let r := q.1 % p256n
      let s := invMod p256n k * (e + r * d) % p256n
      if r == 0 || s == 0 then (sigBAD_RESULT, List.replicate 64 0) else (sigOK, bytesBE 32 r ++ bytesBE 32 s)

/-- ECDSA verify of a digest. -/
def verifyOp (x y r s e : Nat) : Nat :=
  let st := pointStatus x y
  if st != sigOK then st
  else if badScalar r || badScalar s then sigREJECT
  else
    let w := invMod p256n s
    match ptAdd (ptMul (e * w % p256n) p256G) (ptMul (r * w % p256n) (some (x, y))) with
    | none => sigREJECT
    | some q => if q.1 % p256n == r then sigOK else sigREJECT

end Sys2Proof.Machine
end

