-- ==== Sys2Proof/Machine/Flash.lean ====
section
/-! DEFINITION. The flash as an addressed memory (R427), the swap journal's records (R440), the collection bitmap (R434)
and the settings store (R446-R450). -/

namespace Sys2Proof.Machine

/-! ### Bytes -/

/-- What an unlisted byte of the flash reads: erased (notes/assumptions/8.md). -/
def flashErased : Byte := 0xFF

/-- The canonical form: addresses strictly rising, no entry equal to the erased byte. -/
def Memory.wf (m : List Host.Cell) : Bool := SMap.wf (fun _ => flashErased) m

/-- Read one byte. -/
def flashByte (a : Nat) (s : State) : Byte := SMap.get flashErased s.flash a

/-- Read bytes. -/
def flashRead (a n : Nat) (s : State) : List Byte := (List.range n).map (fun i => flashByte (a + i) s)

/-- Store one byte as it is. -/
def flashPut (a : Nat) (b : Byte) (s : State) : State := { s with flash := SMap.put flashErased s.flash a b }

/-- R427: programming turns bits from 1 to 0 only. -/
def flashProg (a : Nat) (b : Byte) (s : State) : State := flashPut a (flashByte a s &&& b) s

/-- Program bytes from an address. -/
def flashProgAll : (a : Nat) → List Byte → State → State
  | _, [], s => s
  | a, b :: r, s => flashProgAll (a + 1) r (flashProg a b s)

/-- Erase the 4 KiB sector that holds an address. -/
def flashErase (a : Nat) (s : State) : State :=
  let b := a / 4096 * 4096
  { s with flash := s.flash.filter (fun p => decide (p.1 < b) || decide (b + 4096 ≤ p.1)) }

/-- Erase `n` sectors. -/
def flashEraseN (a n : Nat) (s : State) : State := eachOf (List.range n) (fun s i => flashErase (a + 4096 * i) s) s

/-! ### What a bridge transaction does to the flash (R54, R424; notes/assumptions/9.md) -/

/-- Program bytes from an address, wrapping within its 256-byte page. -/
def pageProgram (addr : Nat) : (i : Nat) → List Byte → State → State
  | _, [], s => s
  | i, b :: r, s => pageProgram addr (i + 1) r (flashProg (addr / 256 * 256 + (addr + i) % 256) b s)

/-- The common program and erase opcodes; any other leaves the contents as they are. -/
def spiEffect (op a : Nat) (addr : Nat) (data : List Byte) (s : State) : State :=
  if a == 0 then (if op == 0x60 || op == 0xC7 then { s with flash := [] } else s)
  else if op == 0x02 || op == 0x12 then pageProgram addr 0 data s
  else if op == 0x20 || op == 0x21 then flashEraseN (addr / 4096 * 4096) 1 s
  else if op == 0x52 || op == 0x5C then flashEraseN (addr / 32768 * 32768) 8 s
  else if op == 0xD8 || op == 0xDC then flashEraseN (addr / 65536 * 65536) 16 s
  else s

/-! ### Layout (R427) -/

def fPRIMARY : Nat := 0x010000
def fSTAGING : Nat := 0x110000
def fSCRATCH : Nat := 0x210000
def fJOURNAL : Nat := 0x211000
def fBITMAP : Nat := 0x213000
def fBANKA : Nat := 0x214000
def fBANKB : Nat := 0x218000

/-- Is the layout usable: FLASH_INFO.LAYOUT_OK. -/
def layoutOk (s : State) : Bool := on F.FLASH_INFO_LAYOUT_OK s

/-! ### The journal (R440) -/

/-- A journal record with its check byte. -/
def journalRec (b : List Byte) : List Byte :=
  let b7 := slice b 0 7
  b7 ++ [BitVec.ofNat 8 (crc8 b7)]

/-- The valid records, first to last: an unwritten or torn record ends them. -/
def journalFrom : (fuel : Nat) → (a : Nat) → State → List (List Byte)
  | 0, _, _ => []
  | fuel + 1, a, s =>
    let r := flashRead a 8 s
    if r.all (· == 0xFF) || crc8 (r.take 7) != byteAt r 7 then [] else r :: journalFrom fuel (a + 8) s

/-- The journal. -/
def journal (s : State) : List (List Byte) := journalFrom 1024 fJOURNAL s

/-- The first unwritten record's address: past the valid ones. -/
def journalEnd (s : State) : Nat := fJOURNAL + 8 * (journal s).length

/-- Write a record. -/
def journalWrite (b : List Byte) (s : State) : State := flashProgAll (journalEnd s) (journalRec b) s

/-- The last valid record. -/
def journalLast (s : State) : List Byte := (journal s).getLastD []

/-! ### The collection bitmap (R434) -/

/-- The header's magic. -/
def bitmapMagic : List Byte := [0x43, 0x47, 0x4C, 0x42]

def bitmapOk (s : State) : Bool := flashRead fBITMAP 4 s == bitmapMagic
def bitmapCar (s : State) : Nat := (flashByte (fBITMAP + 4) s).toNat
def bitmapPieces (s : State) : Nat := beNat (flashRead (fBITMAP + 5) 3 s)
def bitmapCrc (s : State) : Nat := beNat (flashRead (fBITMAP + 8) 4 s)

/-- Is a bit of the bitmap area still 1. -/
def bitmapBit (base i : Nat) (s : State) : Bool := nbit (flashByte (fBITMAP + base + i / 8) s).toNat (i % 8)

/-- Program a bit to 0. -/
def bitmapClear (base i : Nat) (s : State) : State :=
  flashProg (fBITMAP + base + i / 8) (BitVec.ofNat 8 (255 - 2 ^ (i % 8))) s

/-- Is piece `p` held. -/
def pieceHeld (p : Nat) (s : State) : Bool := !bitmapBit 64 p s

/-- Pieces held, of `n`. -/
def piecesHeld (n : Nat) (s : State) : Nat := ((List.range n).filter (fun p => pieceHeld p s)).length

/-! ### The settings store (R446-R450) -/

/-- A stored entry: key, stored flags, value, and its offset in the bank. -/
structure SetEntry where
  key : Nat
  tentative : Bool
  val : List Byte
  off : Nat
deriving DecidableEq, Repr

/-- The bytes of an entry. -/
def entryBytes (key : Nat) (tentative : Bool) (val : List Byte) : List Byte :=
  let body (f : Byte) : List Byte := 0xA5 :: bytesBE 2 key ++ [f] ++ bytesBE 2 val.length ++ val
  body (if tentative then 0xFF else 0x7F) ++ bytesBE 4 (crc32 (body 0x7F))

/-- A bank header. -/
def bankHeader (gen : Nat) : List Byte :=
  let h : List Byte := [0x43, 0x53, 0x45, 0x54] ++ bytesBE 4 gen
  h ++ bytesBE 4 (crc32 h) ++ [0xFF, 0xFF, 0xFF, 0xFF]

/-- Has a bank a valid header. -/
def bankValid (base : Nat) (s : State) : Bool :=
  flashRead base 4 s == [0x43, 0x53, 0x45, 0x54] &&
    beNat (flashRead (base + 8) 4 s) == crc32 (flashRead base 8 s)

def bankGen (base : Nat) (s : State) : Nat := beNat (flashRead (base + 4) 4 s)

/-- R449: the current bank: valid, with the higher generation as serial numbers. -/
def currentBank (s : State) : Option Nat :=
  match bankValid fBANKA s, bankValid fBANKB s with
  | true, true => some (if laterK 32 (bankGen fBANKB s) (bankGen fBANKA s) then fBANKB else fBANKA)
  | true, false => some fBANKA
  | false, true => some fBANKB
  | false, false => none

/-- R448: scan a bank's entries; the flag tells that a CRC failure ended the scan, the number where it ended. -/
def scanBank (base : Nat) : (fuel : Nat) → (off : Nat) → State → List SetEntry × Bool × Nat
  | 0, off, _ => ([], false, off)
  | fuel + 1, off, s =>
    if 16384 < off + 10 || flashByte (base + off) s != 0xA5 then ([], false, off)
    else
      let hd := flashRead (base + off) 6 s
      let n := be2 hd 4
      let body := flashRead (base + off) (6 + n) s
      if 16384 < off + 10 + n then ([], true, off)
      else if crc32 (body.set 3 0x7F) != beNat (flashRead (base + off + 6 + n) 4 s) then ([], true, off)
      else
        let e : SetEntry := { key := be2 hd 1, tentative := hd.getD 3 0 == 0xFF, val := body.drop 6, off }
        let (r, bad, fin) := scanBank base fuel (off + 10 + n) s
        (e :: r, bad, fin)
where
  /-- Two bytes, big-endian. -/
  be2 (b : List Byte) (o : Nat) : Nat := byteAt b o * 256 + byteAt b (o + 1)

/-- The entries of the current bank. -/
def storeEntries (s : State) : List SetEntry :=
  match currentBank s with
  | none => []
  | some b => (scanBank b 1640 16 s).1

/-- R446: is the key a system key. -/
def systemKey (k : Nat) : Bool := decide (1 ≤ k) && decide (k ≤ 0xFF)

/-- Is the running image on trial. -/
def onTrial (s : State) : Bool := on F.IMAGE_RUNNING_TRIAL s

/-- R450: does the running image read an entry. -/
def entryVisible (s : State) (e : SetEntry) : Bool :=
  if onTrial s then e.tentative || !s.glean.fresh || systemKey e.key else !e.tentative

/-- The value stored for a key. -/
def settingGet (key : Nat) (s : State) : Option (List Byte) :=
  match ((storeEntries s).filter (fun e => entryVisible s e && e.key == key)).getLast? with
  | some e => if e.val.isEmpty then none else some e.val
  | none => none

/-- The keys with a stored value, ascending. -/
def settingKeys (s : State) : List Nat :=
  ((((storeEntries s).map SetEntry.key).dedup).filter (fun k => (settingGet k s).isSome)).mergeSort (· ≤ ·)

/-- R449: the entries a compaction keeps, in their order: the latest committed entry of each key unless it deletes the
key, and during a trial the latest tentative entry of each key. -/
def liveEntries (s : State) : List SetEntry :=
  let es := storeEntries s
  let last (e : SetEntry) : Bool :=
    !(es.any (fun x => x.key == e.key && x.tentative == e.tentative && decide (e.off < x.off)))
  es.filter (fun e => last e && (if e.tentative then onTrial s else !e.val.isEmpty))

/-- SETTINGS_STATUS follows the store. -/
def settingsRefresh (s : State) : State :=
  match currentBank s with
  | none => setReg R.SETTINGS_STATUS 0 s
  | some b =>
    s |> wr F.SETTINGS_STATUS_VALID 1 |> wr F.SETTINGS_STATUS_BANK (b2n (b == fBANKB))
      |> wr F.SETTINGS_STATUS_GEN (bankGen b s) |> wr F.SETTINGS_STATUS_USED (scanBank b 1640 16 s).2.2

/-- R448: count a scan that a CRC failure ended. -/
def settingsCheck (s : State) : State :=
  let bad (b : Nat) (s : State) : State :=
    if bankValid b s && (scanBank b 1640 16 s).2.1 then count C.SETTINGS_CRC_BAD s else s
  bad fBANKB (bad fBANKA s)

/-- R449: compact into the other bank, keeping `keep`. -/
def compact (keep : List SetEntry) (s : State) : State :=
  let (dst, gen) := match currentBank s with
    | some b => (if b == fBANKA then fBANKB else fBANKA, (bankGen b s + 1) % 2 ^ 32)
    | none => (fBANKA, 1)
  let src := currentBank s
  let s1 := flashEraseN dst 4 s
  let bytes := keep.flatMap (fun e => entryBytes e.key e.tentative e.val)
  let s2 := flashProgAll dst (bankHeader gen) (flashProgAll (dst + 16) bytes s1)
  match src with
  | some b => flashEraseN b 4 s2
  | none => s2

/-- Bytes of the entries. -/
def entriesLen (l : List SetEntry) : Nat := l.foldl (fun n e => n + 10 + e.val.length) 0

/-- R446-R449: store a value (empty: delete the key). `false` when the store is full: nothing has changed. -/
def settingStore (key : Nat) (val : List Byte) (s : State) : Bool × State :=
  let need := 10 + val.length
  let append (s : State) : State :=
    match currentBank s with
    | some b => flashProgAll (b + (scanBank b 1640 16 s).2.2) (entryBytes key (onTrial s) val) s
    | none => s
  let room := match currentBank s with
    | some b => let sc := scanBank b 1640 16 s
                !sc.2.1 && decide (sc.2.2 + need ≤ 16384)
    | none => false
  if room then (true, settingsRefresh (append s))
  else
    let live := (liveEntries s).filter (fun e => !(e.key == key && e.tentative == onTrial s))
    if 16368 < entriesLen live + need then (false, raise E.SETTINGS_FULL key s)
    else (true, settingsRefresh (append (compact live s)))

/-- R448, R450: CONFIRMED makes the tentative entries permanent. -/
def settingsConfirm (fresh : Bool) (s : State) : State :=
  match currentBank s with
  | none => s
  | some b =>
    let es := storeEntries s
    let s1 :=
      if fresh then
        compact ((liveEntries s).filterMap (fun e =>
          if e.tentative then (if e.val.isEmpty then none else some { e with tentative := false })
          else if systemKey e.key && !(es.any (fun x => x.tentative && x.key == e.key)) then some e else none)) s
      else eachOf (es.filter (fun e => e.tentative)) (fun s e => flashProg (b + e.off + 3) 0x7F s) s
    settingsRefresh s1

/-- R446: is a VLEN allowed for a key (0 deletes). -/
def vlenOk (key n : Nat) : Bool :=
  if key == 1 then n == 64
  else if 0x10 ≤ key && key ≤ 0x15 then n == 6
  else if 0x18 ≤ key && key ≤ 0x1D then n == 4 || n == 8
  else if 0x2000 ≤ key && key ≤ 0x3FFF then n == 5
  else decide (0x8000 ≤ key) && decide (key ≤ 0xFFFF) && decide (1 ≤ n) && decide (n ≤ 220)

/-- R446: is a key known. -/
def keyKnown (key : Nat) : Bool :=
  key == 1 || (decide (0x10 ≤ key) && decide (key ≤ 0x15)) || (decide (0x18 ≤ key) && decide (key ≤ 0x1D)) ||
    (decide (0x2000 ≤ key) && decide (key ≤ 0x3FFF)) || (decide (0x8000 ≤ key) && decide (key ≤ 0xFFFF))

/-- R187: the value in force for a key: one applied since the reset, else the stored one. -/
def settingValue (key : Nat) (s : State) : Option (List Byte) :=
  match SMap.find s.glean.live key with
  | some v => some v
  | none => settingGet key s

/-- The MAC address of a local port (R446). -/
def portMac (k : Nat) (s : State) : Nat :=
  match settingValue (0x10 + k) s with
  | some v => beNat v
  | none => (Config.portMac k).toNat

/-- The IPv4 address of a local port (R446). -/
def portIp (k : Nat) (s : State) : Nat :=
  match settingValue (0x18 + k) s with
  | some v => beNat (v.take 4)
  | none => (Config.portIp k).toNat

end Sys2Proof.Machine
end

