-- ==== Sys2Proof/Machine/Jtag.lean ====
section
/-! DEFINITION. The test access port (spec/21_electrical_package.md R485). -/

namespace Sys2Proof.Machine

/-- R485: EXTEST, HIGHZ and CLAMP take effect only while RESET_N is low or the terminal is in HOLDING. -/
def jtagAllowed (s : State) : Bool := s.term == .reset || s.term == .holding

/-- Select an instruction. -/
def jtagSelect (ir : JtagIr) (s : State) : State := { s with jtag := { s.jtag with ir } }

/-- Select an instruction that drives or floats pins, or BYPASS where it is not allowed. -/
def jtagDrive (ir : JtagIr) (s : State) : State := jtagSelect (if jtagAllowed s then ir else .bypass) s

/-- Capture the pins into the boundary register and update it with the bits shifted in. -/
def jtagScan (pins scan : BitVec 512) (s : State) : State :=
  { s with jtag := { s.jtag with capture := pins, update := scan } }

/-- EXTEST (R485): the pins are captured, and driven from the boundary register. -/
def execExtest (pins scan : BitVec 512) (s : State) : Res :=
  done (if jtagAllowed s then jtagScan pins scan (jtagDrive .extest s) else jtagDrive .extest s)

/-- SAMPLE/PRELOAD (R485): the pins are captured and the boundary register is preloaded. -/
def execSamplePreload (pins scan : BitVec 512) (s : State) : Res := done (jtagScan pins scan (jtagSelect .sample s))

/-- HIGHZ (R485). -/
def execHighz (s : State) : Res := done (jtagDrive .highz s)

/-- CLAMP (R485). -/
def execClamp (s : State) : Res := done (jtagDrive .clamp s)

/-- BYPASS (R485): code 0xFF, and every code not listed. A listed code is not this command. -/
def execBypass (code : Byte) (s : State) : Res :=
  done (if code.toNat ≤ 3 then s else jtagSelect .bypass s)

end Sys2Proof.Machine
end

