-- ==== Sys2Proof/Machine/Thresher.lean ====
section
/-! DEFINITION. The Thresher: segments, parsing, keys, tables, actions, punts and table updates
(spec/10_thresher.md R237-R257). -/

namespace Sys2Proof.Machine

/-! ### Parsing (R240, R241) -/

/-- What the parser found: the flags, a failure reason, the offset of the EtherType after the tags, and the fields. -/
structure Parsed where
  fail : Option Nat := none
  flags : Nat := 0
  outer : Nat := 0
  inner : Nat := 0
  ethType : Nat := 0
  /-- Offset of what follows the EtherType. -/
  l3 : Nat := 14
  /-- Offset of the L4 header, and the IPv4 header and total lengths. -/
  l4 : Nat := 0
  ihl : Nat := 0
  total : Nat := 0
  ipDst : Nat := 0
  ipSrc : Nat := 0
  proto : Nat := 0
  dscp : Nat := 0
  dport : Nat := 0
  sport : Nat := 0
deriving DecidableEq, Repr

/-- Two bytes, big-endian. -/
def be16 (b : List Byte) (o : Nat) : Nat := byteAt b o * 256 + byteAt b (o + 1)

/-- `n` bytes, big-endian. -/
def beAt (b : List Byte) (o n : Nat) : Nat := beNat (slice b o n)

/-- Is this a tag's TPID (outer tag, R240). -/
def isTpid (t : Nat) : Bool := t == 0x88A8 || t == 0x8100

/-- Parse an L4 header (R240, R241). -/
def parseL4 (b : List Byte) (p : Parsed) : Parsed :=
  let o := p.l4
  let ports (p : Parsed) (flag : Nat) : Parsed :=
    { p with flags := p.flags + flag, sport := be16 b o, dport := be16 b (o + 2) }
  if p.proto == 17 then
    let n := be16 b (o + 4)
    if 160 < o + 8 || b.length < o + 8 || n < 8 || p.total - p.ihl * 4 < n then { p with fail := some 0x14 }
    else
      let q := ports p 8
      if q.dport == 319 || q.dport == 320 then { q with flags := q.flags + 2 } else q
  else if p.proto == 6 then
    let d := byteAt b (o + 12) / 16
    if 160 < o + 20 || b.length < o + 20 || d < 5 || 160 < o + 4 * d || b.length < o + 4 * d then
      { p with fail := some 0x14 }
    else ports p 4
  else p

/-- Parse an IPv4 header (R240, R241). -/
def parseIp (b : List Byte) (p : Parsed) : Parsed :=
  let o := p.l3
  let ihl := byteAt b o % 16
  let total := be16 b (o + 2)
  if byteAt b o / 16 != 4 || ihl < 5 || total < ihl * 4 || b.length < o + total then { p with fail := some 0x12 }
  else if fold16 (sum16 (slice b o (ihl * 4))) != 0xFFFF then { p with fail := some 0x13 }
  else
    let fr := be16 b (o + 6)
    let frag := nbit fr 13 || fr % 8192 != 0
    let q := { p with flags := p.flags + 32 + (if frag then 16 else 0) + (if 5 < ihl then 1 else 0),
                      l4 := o + ihl * 4, ihl, total, proto := byteAt b (o + 9), dscp := byteAt b (o + 1) / 4,
                      ipSrc := beAt b (o + 12) 4, ipDst := beAt b (o + 16) 4 }
    if frag then q else parseL4 b q

/-- Parse what follows the tags. -/
def parseType (b : List Byte) (p : Parsed) : Parsed :=
  if p.ethType == 0x88F7 then { p with flags := p.flags + 2 }
  else if p.ethType == 0x0800 then parseIp b p else p

/-- R240, R241: parse a packet. -/
def parsePacket (b : List Byte) : Parsed :=
  if b.length < 14 then { fail := some 0x10 }
  else if !isTpid (be16 b 12) then parseType b { ethType := be16 b 12, l3 := 14 }
  else if b.length < 18 then { fail := some 0x10 }
  else if be16 b 16 != 0x8100 then
    parseType b { flags := 128, outer := be16 b 14, ethType := be16 b 16, l3 := 18 }
  else if b.length < 22 then { fail := some 0x10, flags := 128, outer := be16 b 14 }
  else if isTpid (be16 b 20) then { fail := some 0x11, flags := 192, outer := be16 b 14, inner := be16 b 18 }
  else parseType b { flags := 192, outer := be16 b 14, inner := be16 b 18, ethType := be16 b 20, l3 := 22 }

/-! ### Keys (R242) -/

/-- A key field's width and value. -/
def keyField (code cls src cont : Nat) (b : List Byte) (p : Parsed) (md : Word) : Nat × Nat :=
  match code with
  | 0x01 => (4, cls)
  | 0x02 => (4, src)
  | 0x03 => (10, cont)
  | 0x04 => (12, p.outer % 4096)
  | 0x05 => (3, p.outer / 8192)
  | 0x06 => (12, p.inner % 4096)
  | 0x07 => (16, p.ethType)
  | 0x08 => (48, beAt b 0 6)
  | 0x09 => (48, beAt b 6 6)
  | 0x0A => (32, p.ipDst)
  | 0x0B => (32, p.ipSrc)
  | 0x0C => (8, p.proto)
  | 0x0D => (6, p.dscp)
  | 0x0E => (16, p.dport)
  | 0x0F => (16, p.sport)
  | 0x10 => (8, p.flags)
  | 0x11 => (40, md.toNat)
  | _ => (0, 0)

/-- Place fields left-justified in the 104 bits; the first that does not fit, and all after it, are left out. -/
def placeFields : List (Nat × Nat) → (room : Nat) → Nat
  | [], _ => 0
  | (w, v) :: r, room => if room < w then 0 else v % 2 ^ w * 2 ^ (room - w) + placeFields r (room - w)

/-- R20: a register as work tagged `tag` meets it: a staged write of a later tick has not changed it. -/
def regFor (tag off : Nat) (s : State) : Word :=
  match s.th.prior.find? (fun x => x.2.1 == off && !tickDue x.1 tag) with
  | some x => x.2.2
  | none => reg off s

/-- The four field codes of a profile register. -/
def profileCodes (w : Word) : List Nat := [fget w 31 24, fget w 23 16, fget w 15 8, fget w 7 0]

/-- R242: the key of a lookup. -/
def makeKey (prof : Word) (cls src cont : Nat) (b : List Byte) (p : Parsed) (md : Word) : Nat :=
  placeFields ((profileCodes prof).map (fun c => keyField c cls src cont b p md)) 104

/-- TH_CFG_STATUS.PROFILE_TRUNC: profiles whose fields exceed 104 bits. -/
def profileTrunc (s : State) : Nat :=
  (List.range 16).foldl (fun n k =>
    let w := ((profileCodes (reg (R.TH_PROFILE k) s)).map (fun c => (keyField c 0 0 0 [] {} 0).1)).foldl (· + ·) 0
    if 104 < w then n + 2 ^ k else n) 0

/-! ### Tables (R243-R245) -/

/-- R244: the hash input. -/
def hashInput (prof key : Nat) : List Byte := BitVec.ofNat 8 (prof % 16) :: bytesBE 13 key

/-- The bucket of a key in a way. -/
def bucketOf (way prof key : Nat) : Nat :=
  (if way = 0 then crc32c (hashInput prof key) else crc32 (hashInput prof key)) % 2048

/-- The place of entry `i` of a bucket. -/
def placeOf (way bucket i : Nat) : Nat := way * 8192 + bucket * 4 + i

/-- A table. -/
def tableOf (n : Nat) (s : State) : List (Nat × TEntry) := s.th.tables.getD n []

/-- Replace a table. -/
def setTable (n : Nat) (t : List (Nat × TEntry)) (s : State) : State :=
  { s with th := { s.th with tables := setAt s.th.tables n t } }

/-- The places a key may stand in: way 0, way 1, the stash. -/
def placesOf (prof key : Nat) : List Nat :=
  (List.range 4).map (placeOf 0 (bucketOf 0 prof key)) ++ (List.range 4).map (placeOf 1 (bucketOf 1 prof key))
    ++ (List.range 32).map (16384 + ·)

/-- The first entry of a key that satisfies a condition, with its place. -/
def findEntry (t : List (Nat × TEntry)) (prof key : Nat) (ok : TEntry → Bool) : Option (Nat × TEntry) :=
  (placesOf prof key).findSome? (fun p =>
    match SMap.find t p with
    | some e => if e.profile == prof && e.key == key && ok e then some (p, e) else none
    | none => none)

/-- R245: is an entry in effect for work tagged `tag`. -/
def entryInEffect (tag : Nat) (s : State) (e : TEntry) : Bool :=
  match s.th.commitT with
  | none => !e.add
  | some T => if 0 ≤ tickDiff tag T then !e.del else !e.add

/-- R245: a lookup. -/
def lookup (n prof key tag : Nat) (s : State) : Option TEntry :=
  (findEntry (tableOf n s) prof key (entryInEffect tag s)).map Prod.snd

/-! ### VLAN operations (R248) -/

/-- R248: apply the action's VLAN operation to a packet. -/
def vlanOp (op vid pcp : Nat) (p : Parsed) (b : List Byte) : List Byte :=
  let tagged := nbit p.flags 7
  let tci (old : Nat) : List Byte := bytesBE 2 (pcp * 8192 + old % 8192 / 4096 * 4096 + vid)
  match op with
  | 1 => if tagged then b.take 12 ++ b.drop 16 else b
  | 2 => b.take 12 ++ bytesBE 2 0x8100 ++ tci 0 ++ b.drop 12
  | 3 => if tagged then b.take 14 ++ tci p.outer ++ b.drop 16 else b
  | _ => b

/-! ### Punts (R249, R250) -/

/-- R249: the punt header word. -/
def puntHeader (reason cls src stg tag len : Nat) : Word :=
  BitVec.ofNat 40 (reason * 2 ^ 32 + cls * 2 ^ 28 + src * 2 ^ 24 + stg * 2 ^ 22 + tag % 48 * 2 ^ 16 + len % 4096 * 16)

/-- R250: take a token of the learn (false) or fault (true) bucket. -/
def puntToken (fault : Bool) (s : State) : Bool × State :=
  if fault then
    if s.th.faultCfg.1 = 0 || s.th.faultTok < 48 then (false, count C.TH_PUNT_DROP_FAULT s)
    else (true, { s with th := { s.th with faultTok := s.th.faultTok - 48 } })
  else
    if s.th.learnCfg.1 = 0 || s.th.learnTok < 48 then (false, count C.TH_PUNT_DROP_LEARN s)
    else (true, { s with th := { s.th with learnTok := s.th.learnTok - 48 } })

/-- R250: one tick's gain of both buckets, from the registers as they now stand. -/
def puntTick (s : State) : State :=
  let lr := rd F.TH_PUNT_LEARN_RATE s
  let lb := rd F.TH_PUNT_LEARN_BURST s
  let fr := rd F.TH_PUNT_FAULT_RATE s
  let fb := rd F.TH_PUNT_FAULT_BURST s
  { s with th := { s.th with
      learnCfg := (lr, lb), faultCfg := (fr, fb),
      learnTok := min (lb * 48) (min s.th.learnTok (lb * 48) + lr),
      faultTok := min (fb * 48) (min s.th.faultTok (fb * 48) + fr) } }

/-- R297: the resident firmware takes the punt queue's items; with PUNT_EN it delivers each to pair PUNT_RXQ. -/
def servePunts : (fuel : Nat) → State → State
  | 0, s => s
  | fuel + 1, s =>
    if !domOn dMGT s then s
    else
      match takeHead 152 s with
      | (none, s1) => s1
      | (some i, s1) =>
        if on F.RING_MODE_PUNT_EN s1 then
          let q := 136 + rd F.RING_MODE_PUNT_RXQ s1
          if freeCells s1 < i.cells then servePunts fuel (count C.GRAN_FULL_DROP s1)
          else
            servePunts fuel
              (offer q { i with deadline := tickAdd i.tag (qLife q s1 : Int), src := 0xD, cont := 0, punt := true }
                (takeCells i.cells s1)).1
        else servePunts fuel s1

/-- R280: the cells of an item that has grown from `have_` to `need` cells. -/
def extend (cls have_ need : Nat) (s : State) : Option State :=
  if have_ < need then takeReserve cls (need - have_) s else some s

/-- R249, R250: punt a packet whose cells are held by it, under the learn or fault bucket. -/
def puntItem (fault : Bool) (reason stg : Nat) (pk : Packet) (cells pflags : Nat) (md : Word) (bytes : List Byte)
    (s : State) : State :=
  let (ok, s1) := puntToken fault s
  if !ok then giveCells 4 cells s1
  else
    let b := wordBytes (puntHeader reason pk.cls pk.src stg pk.tag bytes.length) ++ bytes
    let need := cellsOf b.length
    match extend 4 cells need s1 with
    | none => count C.GRAN_FULL_DROP (giveCells 4 cells s1)
    | some s2 =>
      let it : Item :=
        { deadline := tickAdd pk.tag (qLife 152 s2 : Int), md, colour := 3, csum := false, src := pk.src, pflags,
          cont := pk.cont, tag := pk.tag, bytes := b, punt := true, cells := max cells need }
      servePunts 4096 (offer 152 it s2).1

/-! ### Actions (R247, R248) -/

/-- R248: queue a forwarded packet after its VLAN operation, metered where the action says so. -/
def forwardPacket (act md : Word) (p : Parsed) (pk : Packet) (cells : Nat) (s : State) : State :=
  let q := fget act 36 29
  let b := vlanOp (fget act 19 18) (fget act 17 6) (fget act 5 3) p pk.bytes
  let (col, s1) := if fget act 20 20 == 1 then meterPacket (fget act 28 21) b.length s else (some 3, s)
  match col with
  | none => giveCells (sinkOf q) cells s1
  | some c =>
    let need := cellsOf b.length
    match extend (sinkOf q) cells need s1 with
    | none => count C.GRAN_FULL_DROP (giveCells (sinkOf q) cells s1)
    | some s2 =>
      (offer q { deadline := tickAdd pk.tag (qLife q s2 : Int), md, colour := c, csum := fget act 2 2 == 1,
                 src := pk.src, pflags := p.flags, cont := pk.cont, tag := pk.tag, bytes := b,
                 cells := max cells need } s2).1

/-- R248: take an action. -/
def takeAction (act md : Word) (stg : Nat) (p : Parsed) (pk : Packet) (cells : Nat) (s : State) : State :=
  match fget act 39 37 with
  | 0 => forwardPacket act md p pk cells s
  | 1 => count C.TH_DROP (giveFree cells s)
  | 2 => puntItem false 0x02 stg pk cells p.flags md pk.bytes s
  | 4 =>
    let s1 := forwardPacket act md p pk cells s
    let n := cellsOf pk.bytes.length
    if freeCells s1 < n then count C.GRAN_FULL_DROP s1
    else puntItem false 0x03 stg pk n p.flags md pk.bytes (takeCells n s1)
  | _ => count C.TH_ACTION_BAD (giveFree cells s)

/-- R246, R247: run the stages from `k`, `n` of them left. -/
def runStages (p : Parsed) (pk : Packet) (cells : Nat) : (n k : Nat) → (md : Word) → State → State
  | 0, _, _, s => s
  | n + 1, k, md, s =>
    let c := regFor pk.tag (R.TH_CLASS_CFG pk.cls) s
    let tbl := fget c (29 + 2 * k) (28 + 2 * k)
    let prof := fget c (15 + 4 * k) (12 + 4 * k)
    let key := makeKey (regFor pk.tag (R.TH_PROFILE prof) s) pk.cls pk.src pk.cont pk.bytes p md
    match lookup tbl prof key pk.tag s with
    | none => puntItem false 0x01 k pk cells p.flags md pk.bytes (count C.TH_MISS s)
    | some e =>
      if fget e.action 39 37 == 3 then
        if n = 0 then puntItem false 0x04 k pk cells p.flags e.md pk.bytes (count C.TH_MISS (count C.TH_CHAIN_END s))
        else runStages p pk cells n (k + 1) e.md s
      else takeAction e.action e.md k p pk cells s

/-- R247: the metadata a packet's first stage takes in. -/
def metaIn (cls src cont : Nat) : Word := BitVec.ofNat 40 (cls * 2 ^ 36 + src * 2 ^ 32 + cont * 2 ^ 22)

/-- R237-R248: classify a packet. -/
def classify (pk : Packet) (s : State) : State :=
  let cells := cellsOf pk.bytes.length
  let c := regFor pk.tag (R.TH_CLASS_CFG pk.cls) s
  if fget c 39 39 == 0 then count C.TH_CLASS_OFF (giveFree cells s)
  else
    let p := parsePacket pk.bytes
    match p.fail with
    | some r => puntItem true r 0 pk cells p.flags 0 pk.bytes (count C.TH_PARSE_FAIL s)
    | none =>
      let stages := if fget c 38 38 == 1 then fget c 37 36 + 1 else 1
      runStages p pk cells stages 0 (metaIn pk.cls pk.src (if pk.src == 0xF then pk.cont else 0)) s

/-! ### Arrivals (R255, R262) -/

/-- Does a packet go before another in the work list: oldest tag first, then the Span, then ports in order. -/
def workBefore (a b : Packet) : Bool :=
  let d := tickDiff a.tag b.tag
  let rank (p : Packet) : Nat := if p.src == 0xF then 0 else p.src + 1
  decide (d < 0) || (decide (d = 0) && decide (rank a < rank b))

/-- Insert a packet behind its equals. -/
def insertWork (p : Packet) : List Packet → List Packet
  | [] => [p]
  | x :: r => if workBefore p x then p :: x :: r else x :: insertWork p r

/-- A packet arrives: it takes its cells and joins the work list, or is dropped. -/
def arrivePacket (pk : Packet) (s : State) : State :=
  let n := cellsOf pk.bytes.length
  if freeCells s < n then count C.GRAN_FULL_DROP s
  else if 4096 ≤ s.th.work.length then count C.TH_IN_FULL s
  else
    let s1 := takeCells n s
    { s1 with th := { s1.th with work := insertWork pk s1.th.work } }

/-! ### Segments (R238, R239) -/

def partialOf (cont : Nat) (s : State) : Option Partial := SMap.find s.th.partials cont

def setPartial (cont : Nat) (p : Partial) (s : State) : State :=
  { s with th := { s.th with partials := (SMap.del s.th.partials cont).ins cont p } }

def dropPartial (cont : Nat) (s : State) : State := { s with th := { s.th with partials := SMap.del s.th.partials cont } }

/-- Is a partial packet held (one being thrown away as too long is not). -/
def holdsPartial (cont : Nat) (s : State) : Bool := (partialOf cont s).any (fun p => !p.long)

/-- R239: a container's tick is missing. -/
def segmentsMissing (cont : Nat) (s : State) : State :=
  let s1 := dropPartial cont s
  if holdsPartial cont s then count C.TH_SEG_LOST s1 else s1

/-- R239: one segment. -/
def takeSegmentIn (cont cls tag pos pseq : Nat) (bytes : List Byte) (s : State) : State :=
  let deliver (b : List Byte) (s : State) : State := arrivePacket { tag, src := 0xF, cls, cont, bytes := b } s
  if pos == 3 || pos == 2 then
    let s1 := segmentsMissing cont s
    if pos == 3 then deliver bytes s1 else setPartial cont { pseq, bytes, long := false } s1
  else
    match partialOf cont s with
    | none => count C.TH_SEG_LOST s
    | some p =>
      if p.pseq != pseq then count C.TH_SEG_LOST s
      else if p.long then (if pos == 1 then dropPartial cont s else s)
      else if 2048 < p.bytes.length + bytes.length then
        count C.TH_SEG_LONG (if pos == 1 then dropPartial cont s else setPartial cont { p with bytes := [], long := true } s)
      else if pos == 1 then deliver (p.bytes ++ bytes) (dropPartial cont s)
      else setPartial cont { p with bytes := p.bytes ++ bytes } s

/-- R238, R239: the segments of a packet-stream container, for one tick. -/
def takeSegments (cont cls tag : Nat) : (fuel : Nat) → List Word → State → State
  | 0, _, s => s
  | _ + 1, [], s => s
  | fuel + 1, h :: r, s =>
    if h = 0 then s
    else
      let n := fget h 37 28
      let k := (n + 4) / 5
      if n = 0 || fget h 15 0 != 0 || 635 < n || r.length < k then
        count C.TH_SEG_BAD (dropPartial cont s)
      else
        takeSegments cont cls tag fuel (r.drop k)
          (takeSegmentIn cont cls tag (fget h 39 38) (fget h 27 16) ((toBytes (r.take k)).take n) s)

/-! ### Table updates (R251-R254) -/

/-- The lowest free place of a bucket. -/
def freeIn (t : List (Nat × TEntry)) (way bucket : Nat) : Option Nat :=
  ((List.range 4).map (placeOf way bucket)).find? (fun p => (SMap.find t p).isNone)

/-- Put an entry at a place. -/
def putEntry (t : List (Nat × TEntry)) (p : Nat) (e : TEntry) : List (Nat × TEntry) := (SMap.del t p).ins p e

/-- R252: displacement number `d` on: `e` has no place yet; the bucket last tried is `bucket` of `way`. -/
def displace : (fuel : Nat) → (d : Nat) → List (Nat × TEntry) → (way bucket : Nat) → TEntry →
    Option (List (Nat × TEntry) × Nat)
  | 0, d, t, _, _, e =>
    match ((List.range 32).map (16384 + ·)).find? (fun p => (SMap.find t p).isNone) with
    | some p => some (putEntry t p e, d)
    | none => none
  | fuel + 1, d, t, way, bucket, e =>
    let p := placeOf way bucket (d % 4)
    match SMap.find t p with
    | none => some (putEntry t p e, d)
    | some v =>
      let t1 := putEntry t p e
      let w' := 1 - way
      let b' := bucketOf w' v.profile v.key
      match freeIn t1 w' b' with
      | some p' => some (putEntry t1 p' v, d + 1)
      | none => displace fuel (d + 1) t1 w' b' v

/-- R252: place a new entry; the number is the displacements it took. -/
def placeEntry (t : List (Nat × TEntry)) (e : TEntry) : Option (List (Nat × TEntry) × Nat) :=
  match freeIn t 0 (bucketOf 0 e.profile e.key) with
  | some p => some (putEntry t p e, 0)
  | none =>
    match freeIn t 1 (bucketOf 1 e.profile e.key) with
    | some p => some (putEntry t p e, 0)
    | none => displace 64 0 t 1 (bucketOf 1 e.profile e.key) e

/-- Update results (R251). -/
def uADDED : Nat := 0
def uREPLACED : Nat := 1
def uDELETED : Nat := 2
def uNOT_FOUND : Nat := 3
def uFULL : Nat := 4
def uBUSY : Nat := 6
def uLATE : Nat := 7
def uCOMMITTED : Nat := 8

/-- Can the open batch take an operation. -/
def batchOpen (s : State) : Bool :=
  rd F.TH_UPDATE_STATUS_STATE s == 0 && decide (rd F.TH_UPDATE_STATUS_OPS s < 512)

/-- An operation joins the open batch. -/
def addOp (s : State) : State := wr F.TH_UPDATE_STATUS_OPS (rd F.TH_UPDATE_STATUS_OPS s + 1) s

/-- Fields of an update operation (R251): table, profile, key. -/
def updTable (u : List Word) : Nat := fget (u.getD 0 0) 35 34
def updProfile (u : List Word) : Nat := fget (u.getD 0 0) 33 30
def updKey (u : List Word) : Nat :=
  (u.getD 1 0).toNat * 2 ^ 64 + (u.getD 2 0).toNat * 2 ^ 24 + fget (u.getD 3 0) 39 16

/-- R252: place a new pending entry, or FULL. -/
def setNew (n : Nat) (e : TEntry) (t : List (Nat × TEntry)) (result : Nat) (s : State) : Nat × State :=
  match placeEntry t e with
  | none => (uFULL, raise E.TH_TABLE_FULL n (count C.TH_UPDATE_FULL s))
  | some (t1, kicks) =>
    let f := F.TH_TABLE_STATUS_MAX_KICKS n
    let s1 := if rd f s < kicks then wr f kicks s else s
    (result, addOp (setTable n t1 s1))

/-- R252: SET. -/
def updSet (u : List Word) (s : State) : Nat × State :=
  if !batchOpen s then (uBUSY, s)
  else
    let n := updTable u
    let prof := updProfile u
    let key := updKey u
    let act := u.getD 4 0
    let md := u.getD 5 0
    let t := tableOf n s
    let e : TEntry := { add := true, del := false, profile := prof, key, action := act, md }
    match findEntry t prof key (fun e => e.add) with
    | some (p, _) => (uREPLACED, addOp (setTable n (putEntry t p e) s))
    | none =>
      match findEntry t prof key (fun e => !e.add && !e.del) with
      | some (p, old) => setNew n e (putEntry t p { old with del := true }) uREPLACED s
      | none =>
        match findEntry t prof key (fun x => x.del && x.action == act && x.md == md) with
        | some (p, old) => (uADDED, addOp (setTable n (putEntry t p { old with del := false }) s))
        | none => setNew n e t uADDED s

/-- R252: DELETE. -/
def updDelete (u : List Word) (s : State) : Nat × State :=
  if !batchOpen s then (uBUSY, s)
  else
    let n := updTable u
    let prof := updProfile u
    let key := updKey u
    let t := tableOf n s
    match findEntry t prof key (fun e => e.add) with
    | some (p, _) => (uDELETED, addOp (setTable n (SMap.del t p) s))
    | none =>
      match findEntry t prof key (fun e => !e.del) with
      | some (p, old) => (uDELETED, addOp (setTable n (putEntry t p { old with del := true }) s))
      | none => (uNOT_FOUND, s)

/-- R253: COMMIT for absolute tick `T`. -/
def updCommit (T : Nat) (s : State) : Nat × State :=
  if rd F.TH_UPDATE_STATUS_STATE s != 0 then (uBUSY, s)
  else if tickDiff T s.bt < 1 then (uLATE, s)
  else
    let s1 := s |> wr F.TH_UPDATE_STATUS_STATE 1 |> wr F.TH_UPDATE_STATUS_T_TICK (T % 48)
                |> wr F.TH_UPDATE_STATUS_T_CYCLE_LO (T / 48)
    (uCOMMITTED, { s1 with th := { s1.th with commitT := some T } })

/-- R254: what the sweep leaves of a table. -/
def sweepTable (t : List (Nat × TEntry)) : List (Nat × TEntry) :=
  (t.filter (fun p => !p.2.del)).map (fun p => (p.1, { p.2 with add := false }))

/-- R254: empty every table. -/
def emptyTables (s : State) : State :=
  let s1 := { s with th := { s.th with tables := [[], [], [], []], commitT := none } }
  setReg R.TH_UPDATE_STATUS 0 s1

/-- TH_TABLEn_STATUS as it reads: ENTRIES, STASH and PENDING from the table. -/
def tableStatus (n : Nat) (s : State) : Word :=
  let t := tableOf n s
  let stash := (t.filter (fun p => decide (16384 ≤ p.1))).length
  let pend := (t.filter (fun p => p.2.add || p.2.del)).length
  fput (fput (fput (reg (R.TH_TABLE_STATUS n) s) 39 25 (t.length - stash)) 24 19 stash) 18 8 pend

/-! ### Egress checksums (R256, R257) -/

/-- Replace two bytes. -/
def put16 (b : List Byte) (o v : Nat) : List Byte := b.take o ++ bytesBE 2 v ++ b.drop (o + 2)

/-- R256: insert the IPv4 header checksum. -/
def insertIpSum (p : Parsed) (b : List Byte) : List Byte :=
  let z := put16 b (p.l3 + 10) 0
  put16 z (p.l3 + 10) (inetSum (slice z p.l3 (p.ihl * 4)))

/-- R256: insert the UDP or TCP checksum. -/
def insertL4Sum (p : Parsed) (b : List Byte) : List Byte :=
  let udp := nbit p.flags 3
  let tcp := nbit p.flags 2
  if !udp && !tcp then b
  else
    let at_ := if udp then p.l4 + 6 else p.l4 + 16
    let len := if udp then be16 b (p.l4 + 4) else p.total - p.ihl * 4
    let z := put16 b at_ 0
    let pseudo := slice z (p.l3 + 12) 8 ++ bytesBE 2 (if udp then 17 else 6) ++ bytesBE 2 len
    let c := inetSum (pseudo ++ slice z p.l4 len)
    put16 z at_ (if udp && c == 0 then 0xFFFF else c)

/-- R256: insert checksums into a frame that leaves; `none` where nothing can be inserted. The egress parse is that of
R240 and R241 over the frame as it leaves. -/
def insertChecksums (b : List Byte) : Option (List Byte) :=
  let p := parsePacket b
  if p.fail.isSome || !nbit p.flags 5 then none else some (insertL4Sum p (insertIpSum p b))

/-! ### Meanings -/

/-- THRESHER_PACKET (R240): the packet at the head of the work list is classified. -/
def execThresherPacket (s : State) : Res :=
  done (if !domOn dTHR s then s else match s.th.work with
    | [] => s
    | pk :: r => classify pk { s with th := { s.th with work := r } })

/-- Can work tagged before tick `t` no longer arrive: `t` lies two line ticks back (R22), and building time has reached
it. -/
def settled (t : Nat) (s : State) : Bool := decide (tickDiff t s.line ≤ -2) && tickDue t s.bt

/-- R20: remember what a register held before a staged write of tick `t`, and forget what no work can meet any more. -/
def keepPrior (t off : Nat) (s : State) : State :=
  let stale (x : Nat × Nat × Word) : Bool := settled x.1 s && s.th.work.all (fun p => tickDue x.1 p.tag)
  { s with th := { s.th with prior := s.th.prior.filter (fun x => !stale x) ++ [(t, off, reg off s)] } }

/-- TABLE_SWEEP (R254): tick T has begun and no work tagged before T remains, nor can any still arrive (R20, R22). -/
def execTableSweep (s : State) : Res :=
  done (if !domOn dTHR s then s else match s.th.commitT with
    | none => s
    | some T =>
      if rd F.TH_UPDATE_STATUS_STATE s == 1 && settled T s
          && s.th.work.all (fun p => decide (0 ≤ tickDiff p.tag T)) then
        wr F.TH_UPDATE_STATUS_STATE 2 { s with th := { s.th with tables := s.th.tables.map sweepTable } }
      else s)

/-- TABLE_SWEEP_DONE (R254): updates are accepted again. -/
def execTableSweepDone (s : State) : Res :=
  done (if rd F.TH_UPDATE_STATUS_STATE s == 2 then
      setReg R.TH_UPDATE_STATUS 0 { s with th := { s.th with commitT := none } }
    else s)

end Sys2Proof.Machine
end

