-- ==== Sys2Proof/Machine/Ethernet.lean ====
section
/-! DEFINITION. The local Ethernet ports and the boundary clock (spec/13_local_ethernet_ptp.md R308-R330), with the TAI
mapping of R170. -/

namespace Sys2Proof.Machine

/-! ### Ports -/

def portSt (k : Nat) (s : State) : PortSt := s.eth.ports.getD k {}

def setPort (k : Nat) (f : PortSt → PortSt) (s : State) : State :=
  { s with eth := { s.eth with ports := modAt s.eth.ports k f } }

/-- R308: does the port support its MODE. -/
def modeOk (k : Nat) (s : State) : Bool :=
  match rd (F.ETH_CFG_MODE k) s with
  | 0 => true
  | 1 => decide (k < 4)
  | 2 => decide (4 ≤ k)
  | _ => false

/-- Is the port's lane gate closed: by the gates in force (R401), or because the lane failed self-test (R49). -/
def laneGated (k : Nat) (s : State) : Bool :=
  nbit s.pwr.gates k || nbit (rd (F.PWR_TARGET_PORT_HELD dLAN) s) k

/-- R311, R58: is the port down for a reason of its own; before LISTENING every output is idle. -/
def portDown (k : Nat) (s : State) : Bool :=
  !fromListening s || !on (F.ETH_CFG_ENABLE k) s || !modeOk k s || !domOn dLAN s || laneGated k s

def linkUp (k : Nat) (s : State) : Bool := on (F.ETH_STATUS_LINK k) s

/-- Is a lane in a test, a local lane then being link down (R459). -/
def laneInTest (lane : Nat) (s : State) : Bool := on (F.LANE_PRBS_STATUS_RUNNING lane) s

/-- SPEED of a port that comes up (R308, R314, R315). -/
def portSpeed (k : Nat) (s : State) : Nat :=
  match rd (F.ETH_CFG_MODE k) s with
  | 2 => 3
  | 1 => if on (F.ETH_CFG_AN_EN k) s then nbits (rd (F.ETH_STATUS_PARTNER k) s) 11 10 else 2
  | _ => 2

/-- R312: the base page the port advertises: FD, PS1 and PS2 as PAUSE_HONOUR, no remote fault, no next page. -/
def basePage (k : Nat) (s : State) : Nat := 0x20 + 0x180 * rd (F.ETH_CFG_PAUSE_HONOUR k) s

/-- The configuration word a port sends while it negotiates changes. -/
def sendConfig (k w : Nat) (s : State) : State := emit (.anWord k w) (setPort k (fun p => { p with advert := w }) s)

/-- R312, R313, R316: negotiation starts again: what the partner said is forgotten and a Clause 37 port advertises its
base page. -/
def anStart (k : Nat) (s : State) : State :=
  let s1 := wr (F.ETH_STATUS_AN_DONE k) 0 (setPort k (fun p => { p with anHalf := false, anRf := false, sgDown := false }) s)
  if on (F.ETH_CFG_AN_EN k) s && rd (F.ETH_CFG_MODE k) s != 1 && !portDown k s then sendConfig k (basePage k s) s1 else s1

/-- R316: sync_status of a port's lane, as SYM_ALIGN shows it (R311). -/
def setSync (k : Nat) (ok : Bool) (s : State) : State := wr (F.LANE_STATUS_SYM_ALIGN (k + 2)) (b2n ok) s

/-- R316, R317: a change to link down, with what it cut. PTP messages due on the port are gone. -/
def linkDownOp (k : Nat) (txCut rxCut : Bool) (s : State) : State :=
  if !linkUp k s then s
  else
    s |> wr (F.ETH_STATUS_LINK k) 0
      |> wr (F.ETH_STATUS_PAUSED k) 0
      |> setPort k (fun p => { p with quanta := 0, ptpWait := [] })
      |> whenB (on (F.ETH_CFG_AN_EN k) s) (wr (F.ETH_STATUS_AN_DONE k) 0)
      |> whenB txCut (count (C.ETH_TX_ABORT k))
      |> whenB rxCut (count (C.ETH_RX_ABORT k))
      |> count (C.ETH_LINK_DOWN k)
      |> raise E.LINK_DOWN k
      |> startHold k

/-- R317: a change to link down from inside the block. Whether a frame was under way at that moment, in either direction,
is not in the state: two free bits tell. -/
def linkCut (k : Nat) (s : State) : State :=
  if !linkUp k s then s
  else
    let (tx, s1) := fresh 1 s
    let (rx, s2) := fresh 1 s1
    linkDownOp k (tx == 1) (rx == 1) s2

/-- R313, R314: does what the partner sent in the port's mode let the link up. -/
def partnerOk (k : Nat) (s : State) : Bool :=
  let p := portSt k s
  if rd (F.ETH_CFG_MODE k) s == 1 then !p.sgDown else !p.anHalf && !p.anRf

/-- R316: may the port come up, synchronisation apart. -/
def mayLink (k : Nat) (s : State) : Bool :=
  !portDown k s && !linkUp k s && !laneInTest (k + 2) s &&
    (!on (F.ETH_CFG_AN_EN k) s || (on (F.ETH_STATUS_AN_DONE k) s && partnerOk k s))

/-- R316: a change to link up; the queues of R278 go on. -/
def linkUpOp (k : Nat) (s : State) : State :=
  if !mayLink k s then s
  else
    let sp := portSpeed k s
    s |> setSync k true |> wr (F.ETH_STATUS_LINK k) 1 |> wr (F.ETH_STATUS_SPEED k) sp |> wr (F.ETH_STATUS_PAUSED k) 0
      |> setPort k (fun p => { p with quanta := 0 })
      |> raise E.LINK_UP (k + 8 * sp) |> endHold k

/-- LINK_UP (R316). -/
def execLinkUp (port : Fin 6) (s : State) : Res := done (linkUpOp port.val s)

/-- LINK_DOWN (R316, R317): synchronisation is lost, which takes the link down and starts negotiation again. -/
def execLinkDown (port : Fin 6) (txCut rxCut : Bool) (s : State) : Res :=
  let k := port.val
  let s1 := linkDownOp k txCut rxCut (setSync k false s)
  done (if on (F.ETH_CFG_AN_EN k) s then anStart k s1 else s1)

/-- AN_BASE_PAGE (R312, R313): a Clause 37 base page. -/
def execAnBasePage (port : Fin 6) (page : BitVec 16) (s : State) : Res :=
  let k := port.val
  done (if portDown k s || !on (F.ETH_CFG_AN_EN k) s || rd (F.ETH_CFG_MODE k) s == 1 then s
    else
      let n := page.toNat
      let half := !nbit n 5
      let rf := nbits n 13 12 != 0
      let s1 := s |> setSync k true |> wr (F.ETH_STATUS_PARTNER k) n
                  |> whenB half (count (C.ETH_AN_HALF k))
                  |> whenB rf (count (C.ETH_AN_RF k))
                  |> setPort k (fun p => { p with anHalf := p.anHalf || half, anRf := rf })
      if half || rf then wr (F.ETH_STATUS_AN_DONE k) 0 (linkCut k s1)
      else wr (F.ETH_STATUS_AN_DONE k) (b2n (!(portSt k s1).anHalf)) s1)

/-- AN_RESTART (R313): one link timer after a half-duplex partner, negotiation starts again. -/
def execAnRestart (port : Fin 6) (s : State) : Res :=
  let k := port.val
  done (if (portSt k s).anHalf && on (F.ETH_CFG_AN_EN k) s then anStart k s else s)

/-- SGMII_WORD (R314): the PHY's word is acknowledged with 0x4001. -/
def execSgmiiWord (port : Fin 6) (word : BitVec 16) (s : State) : Res :=
  let k := port.val
  done (if portDown k s || !on (F.ETH_CFG_AN_EN k) s || rd (F.ETH_CFG_MODE k) s != 1 then s
    else
      let n := word.toNat
      let bad := !nbit n 12 || nbits n 11 10 == 3
      let noLink := !nbit n 15
      let changed := linkUp k s && rd (F.ETH_STATUS_SPEED k) s != nbits n 11 10
      let s1 := s |> setSync k true |> wr (F.ETH_STATUS_PARTNER k) n |> sendConfig k 0x4001
                  |> whenB bad (count (C.ETH_AN_HALF k))
                  |> setPort k (fun p => { p with sgDown := bad || noLink })
      if bad || noLink then wr (F.ETH_STATUS_AN_DONE k) 0 (linkCut k s1)
      else wr (F.ETH_STATUS_AN_DONE k) 1 (if changed then linkCut k s1 else s1))

/-- R456: is a lane in a near-end loop, whose transmit pins are in electrical idle. -/
def nearLoop (lane : Nat) (s : State) : Bool :=
  laneInTest lane s && (rd (F.LANE_LOOP_MODE lane) s == 1 || rd (F.LANE_LOOP_MODE lane) s == 2)

/-- R311, R456: a port's transmitter enters or leaves electrical idle as the port goes down or may run, or its lane is
looped; where it leaves it, negotiation starts. -/
def txRefresh (k : Nat) (s : State) : State :=
  let idle := portDown k s || nearLoop (k + 2) s
  if (portSt k s).txIdle == idle then s
  else
    let s1 := emit (.laneIdle (k + 2) idle) (setPort k (fun p => { p with txIdle := idle }) s)
    if idle then s1 else anStart k s1

/-- R308, R311: after a change of a port's configuration: a change of MODE or AN_EN, or a port now down, takes the link
down, and negotiation starts afresh. -/
def ethCfgChanged (k : Nat) (old : Word) (s : State) : State :=
  let new := reg (R.ETH_CFG k) s
  txRefresh k (if portDown k s || fget old 4 1 != fget new 4 1 then anStart k (linkCut k s) else s)

/-- LAN leaves ON: every link is down (R311, R403). -/
def lanOff (s : State) : State := eachOf (List.range 6) (fun s k => linkCut k s) s

/-- Every port's transmitter and link follow what holds the port down (R311). -/
def portsRefresh (s : State) : State :=
  eachOf (List.range 6) (fun s k => txRefresh k (if portDown k s then linkCut k s else s)) s

/-- R10, R401: a write of PORT_OFF takes effect at the tick boundary. -/
def applyGates (s : State) : State :=
  if s.pwr.gateDue then
    setPwr (fun p => { p with gates := rd (F.PWR_TARGET_PORT_OFF dLAN) s, gateDue := false }) s
  else s

/-- ETHk_STATUS as it reads: MODE_BAD from the mode. -/
def ethStatusView (k : Nat) (s : State) : Word := fput (reg (R.ETH_STATUS k) s) 6 6 (b2n (!modeOk k s))

/-! ### TAI (R170) and timestamps (R329, R330) -/

/-- Phases in a cycle. -/
def phasesPerCycle : Nat := 48 * 4160 * 64

/-- R170: TAI of a building-time instant given in phases from cycle 0: nanoseconds, and frac16. -/
def taiOf (ph : Int) (s : State) : Int × Nat :=
  let cyc := ph / (phasesPerCycle : Int)
  let inCyc := (ph % (phasesPerCycle : Int)).toNat
  let q := inCyc * 3125
  let dc := toSigned 40 ((cyc % (2 ^ 40 : Int)).toNat + 2 ^ 40 - (reg R.TAI_ORIGIN_CYCLE s).toNat)
  let ns := (rd F.TAI_ORIGIN_NS_NS s : Int) + dc * 1000000 + ((q / 39936 : Nat) : Int)
  (((reg R.TAI_ORIGIN_SEC s).toNat : Int) * 1000000000 + ns, q % 39936 * 65536 / 39936)

/-- R329: the fixed latency of a port, transmit then receive, in phases. -/
def fixedLat (k : Nat) (s : State) : Nat × Nat :=
  if rd (F.ETH_CFG_MODE k) s == 2 then (4096, 4608) else (5120, 6144)

/-- R329: the timestamp of a transmitted frame. -/
def txStamp (k cap : Nat) (s : State) : Int :=
  (cap : Int) + ((fixedLat k s).1 : Nat) + rdS (F.ETH_PTP_ADJ_TX_ADJ k) s

/-- R329: the timestamp of a received frame. -/
def rxStamp (k cap : Nat) (s : State) : Int :=
  (cap : Int) - ((fixedLat k s).2 : Nat) - rdS (F.ETH_PTP_ADJ_RX_ADJ k) s

/-! ### The boundary clock (R323-R328) -/

/-- R326: PROFILE, 0b11 acting as 0b00. -/
def ptpProfile (s : State) : Nat := let p := rd F.PTP_CFG_PROFILE s; if p == 3 then 0 else p

/-- R326: peer-to-peer delay mechanism. -/
def ptpP2P (s : State) : Bool := ptpProfile s == 1

/-- R326: is the transport UDP over IPv4. -/
def ptpUdp (s : State) : Bool := ptpProfile s == 2 || rd F.PTP_CFG_TRANSPORT s == 1

/-- R326: the domain in use. -/
def ptpDomain (s : State) : Nat :=
  if on F.PTP_CFG_USE_DEFAULTS s then (if ptpProfile s == 2 then 127 else 0) else rd F.PTP_CFG_DOMAIN s

/-- An interval register field, bounded to -7..+4. -/
def ptpInterval (f : Fld) (s : State) : Int := max (-7) (min 4 (rdS f s))

/-- R326: logAnnounceInterval, logSyncInterval and the delay interval in use. -/
def ptpLogs (s : State) : Int × Int × Int :=
  if on F.PTP_CFG_USE_DEFAULTS s then (if ptpProfile s == 2 then (-2, -3, -3) else (1, 0, 0))
  else (ptpInterval F.PTP_INTERVALS_LOG_ANNOUNCE s, ptpInterval F.PTP_INTERVALS_LOG_SYNC s,
    if ptpP2P s then ptpInterval F.PTP_INTERVALS_LOG_PDREQ s else ptpInterval F.PTP_INTERVALS_LOG_DREQ s)

/-- R324: is the local time valid. -/
def timeValid (s : State) : Bool := on F.TAI_ORIGIN_NS_VALID s && on F.TIME_STATUS_RANGED s && runOrFly s

/-- R325: clockClass by the conditions of the table. -/
def clockClass (s : State) : Nat :=
  if !timeValid s then 248
  else if s.term == .flywheel then
    match s.eth.flyClass with
    | some 6 => if s.eth.holdoverOver then 52 else 7
    | some 13 => if s.eth.holdoverOver then 58 else 14
    | _ => 248
  else if on F.TAI_UTC_TRACEABLE s then 6 else 13

/-- R325: clockAccuracy of a class. -/
def clockAccuracy (c : Nat) : Nat :=
  if c == 6 || c == 13 then 0x21 else if c == 7 || c == 14 then 0x23 else 0xFE

/-- R325: clockIdentity, the EUI-64 of the port 0 MAC address. -/
def clockIdentity (s : State) : Nat :=
  let m := portMac 0 s
  m / 2 ^ 24 * 2 ^ 40 + 0xFFFE * 2 ^ 24 + m % 2 ^ 24

def ptpState (k : Nat) (s : State) : Nat := rd (F.PTP_STATUS_PORT_STATE k) s

/-- R323: change a port's state. The wait for Announce messages begins with LISTENING. -/
def setPtpState (k st : Nat) (s : State) : State :=
  if ptpState k s == st then s
  else
    raise E.PTP_PORT_STATE (k + 8 * st) (wr (F.PTP_STATUS_PORT_STATE k) st
      (whenB (st == 2) (setPort k (fun p => { p with annAt := s.bt })) s))

/-- R328: SGMII at 10 or 100 Mb/s. -/
def slowSgmii (k : Nat) (s : State) : Bool :=
  rd (F.ETH_CFG_MODE k) s == 1 && linkUp k s && decide (rd (F.ETH_STATUS_SPEED k) s < 2)

/-- The clock's own data set (R325). -/
def ownDataSet (s : State) : Announce :=
  { prio1 := rd F.PTP_CFG_PRIORITY1 s, cls := clockClass s, acc := clockAccuracy (clockClass s),
    var := Config.ptpVariance.toNat, prio2 := rd F.PTP_CFG_PRIORITY2 s, gm := clockIdentity s, steps := 0,
    sender := clockIdentity s * 65536 }

/-- 1588-2019: does data set `a` rank before `b`: by grandmaster, and for one grandmaster by steps and sender. -/
def dsBefore (a b : Announce) : Bool :=
  let key (x : Announce) : List Nat :=
    if a.gm == b.gm then [x.steps, x.sender] else [x.prio1, x.cls, x.acc, x.var, x.prio2, x.gm]
  lexLt (key a) (key b)
where
  /-- Lexicographic order. -/
  lexLt : List Nat → List Nat → Bool
    | a :: r, b :: t => decide (a < b) || (a == b && lexLt r t)
    | _, _ => false

/-- 2 to the power `l`, a log interval of -7 to +4, times `n` (a multiple of 128). -/
def scaleLog (n : Nat) (l : Int) : Nat := n / 128 * 2 ^ (l + 7).toNat

/-- Ticks of `n` announce intervals (R326). -/
def announceTicks (n : Nat) (s : State) : Nat := scaleLog (n * 48000) (ptpLogs s).1

/-- 1588-2019: a foreign master is qualified by two Announce messages within the FOREIGN_MASTER_TIME_WINDOW of four
announce intervals. -/
def qualified (s : State) (f : Foreign) : Bool :=
  match f.heard with
  | _ :: b :: _ => decide (tickDiff s.bt b ≤ (announceTicks 4 s : Nat))
  | _ => false

/-- The better of a data set and another, if there is one. -/
def bestOf (m : Option Announce) (d : Announce) : Option Announce :=
  match m with
  | none => some d
  | some b => if dsBefore d b then some d else some b

/-- Erbest: the best qualified foreign master of a port. -/
def bestForeign (k : Nat) (s : State) : Option Announce :=
  (((portSt k s).foreign.filter (qualified s)).map Foreign.ds).foldl bestOf none

/-- Ebest: the best qualified foreign master of all ports. -/
def bestOfAll (s : State) : Option Announce :=
  (List.range 6).foldl (fun m k => (bestForeign k s).elim m (bestOf m)) none

/-- 1588-2019: is the recommended state of a port with Erbest `e` MASTER. A clock of class 1 to 127 compares itself with
the port's best; any other compares itself with the best of all ports, and where that is better only the port with the
better path to it gives way. -/
def recommendsMaster (e : Announce) (s : State) : Bool :=
  let d := ownDataSet s
  if d.cls < 128 then dsBefore d e
  else
    match bestOfAll s with
    | none => true
    | some b => dsBefore d b || (b != e && !(b.gm == e.gm))

/-- R323: one port's best master decision; a recommended SLAVE is PASSIVE. -/
def bmcaPort (k : Nat) (s : State) : State :=
  let st := ptpState k s
  if !timeValid s || !on (F.ETH_CFG_PTP_EN k) s || st < 2 then s
  else
    match bestForeign k s with
    | none => s
    | some e =>
      if recommendsMaster e s then (if st == 2 || st == 5 then setPtpState k 3 s else s)
      else setPtpState k 5 s

/-- The decision on every port. -/
def bmca (s : State) : State := eachOf (List.range 6) (fun s k => bmcaPort k s) s

/-- R323, R324, R325, R328: the clock's quality and the port states follow their conditions. -/
def ptpRefresh (s : State) : State :=
  let old := rd F.PTP_STATUS_CLOCK_CLASS s
  let fly := s.term == .flywheel
  let e := s.eth
  let e1 : EthSt := if !fly then { e with flyClass := none, holdoverOver := false, flyTicks := 0 }
    else if e.flyClass.isNone then { e with flyClass := some old } else e
  let s1 := { s with eth := e1 }
  let c := clockClass s1
  let s2 := if old == c then s1 else bmca (raise E.PTP_CLASS c (wr F.PTP_STATUS_CLOCK_CLASS c s1))
  eachOf (List.range 6) (fun s k =>
    let st := ptpState k s
    if !on (F.ETH_CFG_PTP_EN k) s then setPtpState k 0 s
    else if slowSgmii k s then setPtpState k 1 s
    else if st < 2 then setPtpState k 2 s
    else if !timeValid s then setPtpState k 2 s
    else s) s2

/-! ### PTP messages (R328) -/

/-- The 34-byte header of a PTP message. -/
def ptpHeader (k typ len flags0 flags1 corr seq ctl : Nat) (log : Int) (s : State) : List Byte :=
  [BitVec.ofNat 8 typ, 0x12] ++ bytesBE 2 len ++ [BitVec.ofNat 8 (ptpDomain s), 0, BitVec.ofNat 8 flags0,
    BitVec.ofNat 8 flags1] ++ bytesBE 8 corr ++ bytesBE 4 0 ++ bytesBE 8 (clockIdentity s) ++ bytesBE 2 (k + 1)
    ++ bytesBE 2 seq ++ [BitVec.ofNat 8 ctl, BitVec.ofNat 8 (ofSigned 8 log)]

/-- A PTP timestamp field: 48-bit seconds, 32-bit nanoseconds. -/
def ptpTime (ns : Int) : List Byte :=
  bytesBE 6 ((ns / 1000000000) % (2 ^ 48 : Int)).toNat ++ bytesBE 4 (ns % 1000000000).toNat

/-- Is a PTP message type one of the peer delay mechanism. -/
def ptpPeer (kind : Nat) : Bool := kind == 2 || kind == 3 || kind == 0xA

/-- R326: the frame of a message on Layer 2: its multicast address, the port's MAC address, EtherType 0x88F7. -/
def ptpL2 (k kind : Nat) (b : List Byte) (s : State) : List Byte :=
  bytesBE 6 (if ptpPeer kind then 0x0180C200000E else 0x011B19000000) ++ bytesBE 6 (portMac k s) ++ bytesBE 2 0x88F7 ++ b

/-- R326: the frame of a message over UDP and IPv4: event messages to port 319, general ones to 320. The identification,
the type of service, the time to live of 224.0.1.129 and whether a UDP checksum is sent are not given: `open_`. -/
def ptpUdp4 (k kind : Nat) (b : List Byte) (open_ : Nat) (s : State) : List Byte :=
  let dst := if ptpPeer kind then 0xE000006B else 0xE0000181
  let port := if kind < 8 then 319 else 320
  let n := b.length + 8
  let addrs := bytesBE 4 (portIp k s) ++ bytesBE 4 dst
  let udp (c : Nat) : List Byte := bytesBE 2 port ++ bytesBE 2 port ++ bytesBE 2 n ++ bytesBE 2 c ++ b
  let sum := inetSum (addrs ++ bytesBE 2 17 ++ bytesBE 2 n ++ udp 0)
  let ip (c : Nat) : List Byte :=
    [0x45, BitVec.ofNat 8 open_] ++ bytesBE 2 (n + 20) ++ bytesBE 2 (open_ / 2 ^ 16) ++ bytesBE 2 0 ++
      [if ptpPeer kind then 1 else BitVec.ofNat 8 (open_ / 2 ^ 8), 17] ++ bytesBE 2 c ++ addrs
  bytesBE 6 (0x01005E000000 + dst % 2 ^ 23) ++ bytesBE 6 (portMac k s) ++ bytesBE 2 0x0800 ++ ip (inetSum (ip 0)) ++
    udp (if open_ / 2 ^ 32 == 1 then (if sum == 0 then 0xFFFF else sum) else 0)

/-- R319: a frame padded to 60 bytes, its FCS behind it. -/
def withFcs (b : List Byte) : List Byte :=
  let f := b ++ List.replicate (60 - b.length) 0
  f ++ bytesLE 4 (crc32 f)

/-- R326, R328: send a PTP message through the port's dedicated slot, in the transport in use. -/
def sendPtp (k kind : Nat) (b : List Byte) (s : State) : State :=
  if ptpUdp s then
    let (v, s1) := fresh 33 s
    emit (.ptp k kind (withFcs (ptpUdp4 k kind b v.toNat s))) s1
  else emit (.ptp k kind (withFcs (ptpL2 k kind b s))) s

/-- The flags of an Announce (R325): leap61, leap59, currentUtcOffsetValid, ptpTimescale, traceable. -/
def announceFlags (s : State) : Nat :=
  let c := clockClass s
  let tr := b2n (c == 6 || c == 7)
  rd F.TAI_UTC_LEAP61 s + 2 * rd F.TAI_UTC_LEAP59 s + 4 + 8 + 16 * tr + 32 * tr

/-- R325: an Announce. -/
def announceMsg (k seq : Nat) (s : State) : List Byte :=
  let d := ownDataSet s
  ptpHeader k 0xB 64 0 (announceFlags s) 0 seq 5 (ptpLogs s).1 s ++ ptpTime 0 ++
    bytesBE 2 (rd F.TAI_UTC_UTC_OFFSET s) ++ [0, BitVec.ofNat 8 d.prio1, BitVec.ofNat 8 d.cls, BitVec.ofNat 8 d.acc]
    ++ bytesBE 2 d.var ++ [BitVec.ofNat 8 d.prio2] ++ bytesBE 8 d.gm ++ bytesBE 2 0 ++
    [if d.cls == 248 then 0xA0 else 0x90]

/-- Does the port run PTP with its link up (R317). -/
def ptpRuns (k : Nat) (s : State) : Bool :=
  on (F.ETH_CFG_PTP_EN k) s && linkUp k s && decide (2 ≤ ptpState k s)

/-- Must the port's dedicated slot wait: PAUSE holds it, or an earlier message waits (R322). -/
def ptpHeld (k : Nat) (s : State) : Bool := on (F.ETH_STATUS_PAUSED k) s || !(portSt k s).ptpWait.isEmpty

/-- R328: an Announce, a Sync with its Follow_Up, or a Pdelay_Req is sent, leaving at `txCap`. -/
def sendDue (k : Nat) (kind : PtpKind) (txCap : Nat) (s : State) : State :=
  let p := portSt k s
  match kind with
  | .announce =>
    if timeValid s && ptpState k s == 4 then
      sendPtp k 0xB (announceMsg k p.seqAnnounce s)
        (setPort k (fun p => { p with seqAnnounce := (p.seqAnnounce + 1) % 65536 }) s)
    else s
  | .sync =>
    if timeValid s && ptpState k s == 4 then
      let (ns, frac) := taiOf (txStamp k txCap s) s
      let lg := (ptpLogs s).2.1
      s |> setPort k (fun p => { p with seqSync := (p.seqSync + 1) % 65536 })
        |> sendPtp k 0 (ptpHeader k 0 44 2 8 0 p.seqSync 0 lg s ++ ptpTime 0)
        |> sendPtp k 8 (ptpHeader k 8 44 0 8 frac p.seqSync 2 lg s ++ ptpTime ns)
    else s
  | .pdelayReq =>
    if ptpP2P s then
      s |> setPort k (fun p => { p with seqPdelay := (p.seqPdelay + 1) % 65536,
                                        pdReq := some (p.seqPdelay, (txStamp k txCap s).toNat), pdResp := none })
        |> sendPtp k 2 (ptpHeader k 2 54 0 8 0 p.seqPdelay 5 0x7F s ++ ptpTime 0 ++ bytesBE 10 0)
    else s

/-- R328: an end-to-end delay request is answered. -/
def answerDelayReq (k : Nat) (b : List Byte) (cap : Nat) (s : State) : State :=
  if !ptpP2P s && timeValid s && ptpState k s == 4 then
    let (ns, frac) := taiOf (rxStamp k cap s) s
    sendPtp k 9 (ptpHeader k 9 54 0 8 frac (be16 b 30) 3 (ptpLogs s).2.2 s ++ ptpTime ns ++ slice b 20 10) s
  else s

/-- R328: a peer delay request is answered in two steps. -/
def answerPdelayReq (k : Nat) (b : List Byte) (cap txCap : Nat) (s : State) : State :=
  if ptpP2P s && timeValid s then
    let (t2, _) := taiOf (rxStamp k cap s) s
    let (t3, frac) := taiOf (txStamp k txCap s) s
    s |> sendPtp k 3 (ptpHeader k 3 54 2 8 0 (be16 b 30) 5 0x7F s ++ ptpTime t2 ++ slice b 20 10)
      |> sendPtp k 0xA (ptpHeader k 0xA 54 0 8 frac (be16 b 30) 5 0x7F s ++ ptpTime t3 ++ slice b 20 10)
  else s

/-- R328: one message of the dedicated slot. -/
def sendOut (k : Nat) (x : PtpOut) (txCap : Nat) (s : State) : State :=
  match x with
  | .due kind => sendDue k kind txCap s
  | .delayResp b cap => answerDelayReq k b cap s
  | .pdelayResp b cap => answerPdelayReq k b cap txCap s

/-- R322, R328: a message for the dedicated slot is sent, or waits while PAUSE holds the port. -/
def ptpOut (k : Nat) (x : PtpOut) (txCap : Nat) (s : State) : State :=
  if !ptpRuns k s then s
  else if ptpHeld k s then setPort k (fun p => { p with ptpWait := p.ptpWait ++ [x] }) s
  else sendOut k x txCap s

/-- PTP_MESSAGE_DUE (R328): a timer has made a message due, which leaves at `txCap` unless PAUSE holds it. -/
def execPtpMessageDue (port : Fin 6) (kind : PtpKind) (txCap : Nat) (s : State) : Res :=
  done (ptpOut port.val (.due kind) txCap s)

/-- The data set an Announce message carries. -/
def parseAnnounce (b : List Byte) : Announce :=
  { prio1 := byteAt b 47, cls := byteAt b 48, acc := byteAt b 49, var := be16 b 50, prio2 := byteAt b 52,
    gm := beAt b 53 8, steps := be16 b 61, sender := beAt b 20 10 }

/-- An Announce is heard: the foreign master's record and the decisions follow. -/
def hearAnnounce (k : Nat) (b : List Byte) (s : State) : State :=
  let a := parseAnnounce b
  if a.sender / 65536 == clockIdentity s || 255 ≤ a.steps || nbit (byteAt b 6) 0 then s
  else
    let heard := ((portSt k s).foreign.find? (fun f => f.ds.sender == a.sender)).elim [] Foreign.heard
    bmca (setPort k (fun p => { p with annAt := s.bt, foreign :=
      (p.foreign.filter (fun f => f.ds.sender != a.sender)) ++ [{ ds := a, heard := (s.bt :: heard).take 2 }] }) s)

/-- Nanoseconds of a timestamp field. -/
def nsAt (b : List Byte) (o : Nat) : Nat := beAt b o 6 * 1000000000 + beAt b (o + 6) 4

/-- R328: the measured link delay, in ns, for diagnosis; `corr` sums the correctionFields of both responses. -/
def peerDelay (t1 t4 t2 t3 : Nat) (corr : Int) : Nat :=
  let turn : Int := ((t4 : Int) - t1) * 3125 / 39936
  min 16383 ((turn - ((t3 : Int) - t2) - corr / 65536) / 2).toNat

/-- R328: the lowest-numbered port that runs PTP. -/
def firstPtpPort (s : State) : Nat := ((List.range 6).find? (fun k => on (F.ETH_CFG_PTP_EN k) s)).getD 6

/-- Handle a diverted message (R327, R328). -/
def handlePtp (k : Nat) (b : List Byte) (cap txCap : Nat) (s : State) : State :=
  let two := nbit (byteAt b 6) 1
  let own := beAt b 44 10 == clockIdentity s * 65536 + k + 1
  match byteAt b 0 % 16 with
  | 0 => if two then s else count (C.PTP_RX_ONESTEP k) s
  | 1 => ptpOut k (.delayResp b cap) txCap s
  | 2 => ptpOut k (.pdelayResp b cap) txCap s
  | 3 =>
    if !two then count (C.PTP_RX_ONESTEP k) s
    else
      match (portSt k s).pdReq with
      | some (q, _) =>
        if own && be16 b 30 == q then
          setPort k (fun p => { p with
            pdResp := some ((rxStamp k cap s).toNat, nsAt b 34, toSigned 64 (beAt b 8 8)) }) s
        else s
      | none => s
  | 0xA =>
    match (portSt k s).pdReq, (portSt k s).pdResp with
    | some (q, t1), some (t4, t2, c) =>
      if own && be16 b 30 == q then
        let d := peerDelay t1 t4 t2 (nsAt b 34) (c + toSigned 64 (beAt b 8 8))
        let s1 := setPort k (fun p => { p with pdReq := none, pdResp := none }) s
        if firstPtpPort s == k then wr F.PTP_STATUS_PEER_DELAY d s1 else s1
      else s
    | _, _ => s
  | 0xB => hearAnnounce k b s
  | _ => s

/-- PTP_RX (R327, R328): the oldest diverted message of a port. -/
def execPtpRx (port : Fin 6) (txCap : Nat) (s : State) : Res :=
  let k := port.val
  done (match (portSt k s).ptpIn with
    | [] => s
    | (b, cap) :: r =>
      let s1 := setPort k (fun p => { p with ptpIn := r }) s
      if on (F.ETH_CFG_PTP_EN k) s1 && decide (2 ≤ ptpState k s1) then handlePtp k b cap txCap s1 else s1)

/-- R326: announceReceiptTimeout. -/
def receiptTimeout (s : State) : Nat :=
  if on F.PTP_CFG_USE_DEFAULTS s then 3 else max 2 (rd F.PTP_INTERVALS_RECEIPT_TIMEOUT s)

/-- ANNOUNCE_RECEIPT_TIMEOUT (R323, R326): once no Announce has come for announceReceiptTimeout intervals, the masters
heard on the port are forgotten and it becomes MASTER where the time is valid. -/
def execAnnounceReceiptTimeout (port : Fin 6) (s : State) : Res :=
  let k := port.val
  let st := ptpState k s
  let waited := tickDiff s.bt (portSt k s).annAt
  done (if !on (F.ETH_CFG_PTP_EN k) s || decide (waited < (announceTicks (receiptTimeout s) s : Nat)) then s
    else
      let s1 := setPort k (fun p => { p with foreign := [] }) s
      if timeValid s && (st == 2 || st == 5) then setPtpState k 4 s1 else s1)

/-- QUALIFICATION_TIMEOUT (R323): PRE_MASTER becomes MASTER. -/
def execQualificationTimeout (port : Fin 6) (s : State) : Res :=
  done (if ptpState port.val s == 3 then setPtpState port.val 4 s else s)

/-- HOLDOVER_EXPIRY (R325): FLYWHEEL has lasted beyond HOLDOVER seconds. -/
def execHoldoverExpiry (s : State) : Res :=
  done (if s.term == .flywheel && decide (rd F.PTP_CFG_HOLDOVER s * 48000 ≤ s.eth.flyTicks) then
      ptpRefresh { s with eth := { s.eth with holdoverOver := true } }
    else s)

/-! ### Frames (R318-R322) -/

/-- R318: leading tags, counting at most two. -/
def leadingTags (b : List Byte) : Nat :=
  if !isTpid (be16 b 12) then 0 else if !isTpid (be16 b 16) then 1 else 2

/-- R318, R319: the longest frame without FCS. -/
def maxLen (k : Nat) (b : List Byte) (s : State) : Nat := min 2048 (rd (F.ETH_CFG_MAX_LEN k) s) + 4 * leadingTags b

/-- R322: a PAUSE frame: counted, and honoured where the port is set to and the frame is for it. -/
def pauseFrame (k : Nat) (b : List Byte) (s : State) : State :=
  let s1 := count (C.ETH_RX_PAUSE k) s
  let dst := beAt b 0 6
  if on (F.ETH_CFG_PAUSE_HONOUR k) s && (dst == 0x0180C2000001 || dst == portMac k s) then
    let q := be16 b 16
    wr (F.ETH_STATUS_PAUSED k) (b2n (decide (0 < q))) (setPort k (fun p => { p with quanta := q }) s1)
  else s1

/-- PAUSE (R322): a PAUSE frame with its FCS correct arrives. -/
def execPause (port : Fin 6) (bytes : List Byte) (s : State) : Res :=
  done (if linkUp port.val s then pauseFrame port.val bytes s else s)

/-- PAUSE_END (R322). -/
def execPauseEnd (port : Fin 6) (s : State) : Res :=
  done (if on (F.ETH_STATUS_PAUSED port.val) s then
      wr (F.ETH_STATUS_PAUSED port.val) 0 (setPort port.val (fun p => { p with quanta := 0 }) s)
    else s)

/-- R327: the PTP message of a frame diverted to the boundary clock. -/
def ptpOf (k : Nat) (b : List Byte) (s : State) : Option (List Byte) :=
  if !on (F.ETH_CFG_PTP_EN k) s then none
  else
    let p := parsePacket b
    if ptpUdp s then
      let dst := p.ipDst
      if p.fail.isNone && nbit p.flags 3 && (p.dport == 319 || p.dport == 320) &&
          (dst == 0xE0000181 || dst == 0xE000006B || dst == portIp k s) then
        some (slice b (p.l4 + 8) (be16 b (p.l4 + 4) - 8))
      else none
    else
      let d := beAt b 0 6
      if p.fail.isNone && p.ethType == 0x88F7 && (d == 0x011B19000000 || d == 0x0180C200000E) then some (b.drop p.l3)
      else none

/-- R318, R327: a good frame goes to the boundary clock or to the Thresher. -/
def goodFrame (k : Nat) (b : List Byte) (cap : Nat) (s : State) : State :=
  let s1 := count (C.ETH_RX_OK k) s
  match ptpOf k b s1 with
  | some m =>
    let s2 := count (C.PTP_RX k) s1
    if byteAt m 4 != ptpDomain s2 then count (C.PTP_RX_DOMAIN k) s2
    else setPort k (fun p => { p with ptpIn := p.ptpIn ++ [(m, cap)] }) s2
  | none => arrivePacket { tag := s.bt, src := k, cls := fget (reg R.TH_PORT_CLASS s) (4 * k + 3) (4 * k), cont := 0,
                           bytes := b } s1

/-- ETH_FRAME_RX (R318): `bytes` run from the destination address to the FCS. -/
def execEthFrameRx (port : Fin 6) (bytes : List Byte) (codeErr : Bool) (cap : Nat) (s : State) : Res :=
  let k := port.val
  done (if !linkUp k s then s
    else
      let b := bytes.take (bytes.length - 4)
      if codeErr || bytes.drop (bytes.length - 4) != bytesLE 4 (crc32 b) then count (C.ETH_RX_FCS k) s
      else if bytes.length < 64 then count (C.ETH_RX_RUNT k) s
      else if maxLen k b s < b.length then count (C.ETH_RX_TOOLONG k) s
      else if be16 b 12 == 0x8808 then
        (if be16 b 14 == 1 then pauseFrame k b s else count (C.ETH_RX_MACCTL k) s)
      else goodFrame k b cap s)

/-- R256, R321: the frame after checksum insertion, or unchanged and counted. -/
def withChecksums (k : Nat) (i : Item) (s : State) : List Byte × State :=
  if !i.csum then (i.bytes, s)
  else if !on (F.ETH_CFG_CSUM_EN k) s then (i.bytes, count C.CSUM_SKIPPED s)
  else
    match insertChecksums i.bytes with
    | some b => (b, s)
    | none => (i.bytes, count C.CSUM_SKIPPED s)

/-- R319: the MAC takes the next frame of its scheduler and sends it. -/
def sendFrame (k : Nat) (s : State) : State :=
  let s0 := eachOf (portQueues k) (fun s q => sweepQueue q s) s
  match takeFrame k s0 with
  | (none, s1) => s1
  | (some i, s1) =>
    if maxLen k i.bytes s1 < i.bytes.length then count (C.ETH_TX_TOOLONG k) s1
    else
      let (b, s2) := withChecksums k i s1
      emit (.ethFrame k (withFcs b)) s2

/-- FRAME_TRANSMIT (R319, R328): at a frame boundary a PTP message that waits goes ahead of the port scheduler, leaving at
`txCap`; else the MAC takes the next frame. -/
def execFrameTransmit (port : Fin 6) (txCap : Nat) (s : State) : Res :=
  let k := port.val
  done (if !linkUp k s || on (F.ETH_STATUS_PAUSED k) s then s
    else
      match (portSt k s).ptpWait with
      | [] => sendFrame k s
      | x :: r =>
        let s1 := setPort k (fun p => { p with ptpWait := r }) s
        if ptpRuns k s1 then sendOut k x txCap s1 else s1)

end Sys2Proof.Machine
end

