-- ==== Sys2Proof/Machine/Motion.lean ====
section
/-! DEFINITION. Motion axes and the run-down (spec/15_motion_axes.md R359-R378). Velocities are Q16.16 counts per tick
and positions are kept to 1/65536 count. -/

namespace Sys2Proof.Machine

/-! ### An axis -/

def axSt (k : Nat) (s : State) : AxSt := s.mot.axes.getD k {}
def setAx (k : Nat) (f : AxSt → AxSt) (s : State) : State := { s with mot := { s.mot with axes := modAt s.mot.axes k f } }

/-- States of R359. -/
def xDISABLED : Nat := 0
def xENABLING : Nat := 1
def xACTIVE : Nat := 2
def xPROFILE : Nat := 3
def xRUNDOWN : Nat := 4
def xBRAKING : Nat := 5
def xHELD : Nat := 6

def axState (k : Nat) (s : State) : Nat := rd (F.AX_STATUS_STATE k) s
def axGo (k st : Nat) (s : State) : State := wr (F.AX_STATUS_STATE k) st s

/-- DISABLED or HELD. -/
def axIdle (k : Nat) (s : State) : Bool := axState k s == xDISABLED || axState k s == xHELD

/-- R360, R14: may the axis be live: not before the first ranging result. -/
def motLive (s : State) : Bool := runOrFly s && domOn dMOT s && presentsNow s

/-- The commanded position, in 1/65536 count. -/
def posQ (k : Nat) (s : State) : Int := rdS (F.AX_POS_CMD_POS k) s * 65536 + ((axSt k s).frac : Nat)

/-- Set the commanded position. -/
def setPosQ (k : Nat) (p : Int) (s : State) : State :=
  setAx k (fun a => { a with frac := (p % 65536).toNat }) (wr (F.AX_POS_CMD_POS k) (ofSigned 40 (p / 65536)) s)

/-- R369: the pulses of a change of the integer commanded position, in step mode; STEP_W below 8 acts as 8. -/
def stepOut (k : Nat) (a b : Int) (s : State) : State :=
  if rd (F.AX_CFG_OUT_MODE k) s == 0 && a != b then
    emit (.steps k (decide (a < b)) (b - a).natAbs (max 8 (rd (F.AX_TIMING_STEP_W k) s)) (rd (F.AX_TIMING_DIR_SETUP k) s)) s
  else s

/-- The commanded position moves to `p` by way of `via`, in 1/65536 count. -/
def moveTo (k : Nat) (via p : Int) (s : State) : State :=
  setPosQ k p (stepOut k (via / 65536) (p / 65536) (stepOut k (posQ k s / 65536) (via / 65536) s))

/-- The following error e of R369, in 1/65536 count: 0 without an encoder. -/
def axError (k : Nat) (s : State) : Int :=
  if on (F.AX_CFG_ENC_EN k) s then
    toSigned 40 (rd (F.AX_POS_CMD_POS k) s + 2 ^ 40 - rd (F.AX_POS_ENC_POS k) s) * 65536 + ((axSt k s).frac : Nat)
  else 0

/-- R365: VMAX, in step mode no more than 4160 / (2 x STEP_W). -/
def axVmax (k : Nat) (s : State) : Nat :=
  let v := rd (F.AX_VMAX_VALUE k) s
  if rd (F.AX_CFG_OUT_MODE k) s == 0 then min v (4160 * 65536 / (2 * max 8 (rd (F.AX_TIMING_STEP_W k) s))) else v

def axAmax (k : Nat) (s : State) : Nat := rd (F.AX_AMAX_VALUE k) s

/-- RD_DECEL; 0 acts as 1. -/
def rdDecel (k : Nat) (s : State) : Nat := max 1 (rd (F.AX_RD_CFG_RD_DECEL k) s)

/-- Is the position outside the soft limits. -/
def softHigh (k : Nat) (s : State) : Bool := decide (rdS (F.AX_SOFT_MAX_POS k) s * 65536 < posQ k s)
def softLow (k : Nat) (s : State) : Bool := decide (posQ k s < rdS (F.AX_SOFT_MIN_POS k) s * 65536)

/-- R371: is an active limit in the direction of a signed motion. -/
def limitTowards (k : Nat) (d : Int) (s : State) : Bool :=
  on (F.AX_CFG_LIM_EN k) s &&
    ((decide (0 < d) && on (F.AX_STATUS_LIM_P k) s) || (decide (d < 0) && on (F.AX_STATUS_LIM_N k) s))

/-- R370: is the following error above FE_MAX. -/
def followingOver (k : Nat) (s : State) : Bool :=
  let fe := rd (F.AX_RD_LIMIT_FE_MAX k) s
  on (F.AX_CFG_ENC_EN k) s && fe != 0 && decide (65536 * fe < (axError k s).natAbs)

/-- R368: has the commanded position crossed an enabled soft limit in the direction it moves. -/
def softCrossed (k : Nat) (s : State) : Bool :=
  let v := (axSt k s).v
  on (F.AX_CFG_SOFT_LIM_EN k) s && ((softHigh k s && decide (0 < v)) || (softLow k s && decide (v < 0)))

/-- R367: have SP_LOSS consecutive setpoints been missing; SP_LOSS = 0 acts as 1. -/
def setpointLost (k : Nat) (s : State) : Bool :=
  decide (max 1 (rd (F.AX_RD_CFG_SP_LOSS k) s) ≤ rd (F.AX_STATUS_LOSS_RUN k) s)

/-- R377: the cause recorded when several triggers fall together is the lowest code: `cause`, or a trigger that stands
at the same instant. -/
def lowestCause (k cause : Nat) (s : State) : Nat :=
  let towards := limitTowards k (axSt k s).v s
  [(setpointLost k s, 1), (towards, 6), (softCrossed k s, 7), (followingOver k s, 8)].foldl
    (fun c x => if x.1 then min c x.2 else c) cause

/-- AXk_STATUS as it reads: CFG_BAD and SOFT follow the configuration and the position. -/
def axStatusView (k : Nat) (s : State) : Word :=
  let w := fput (reg (R.AX_STATUS k) s) 7 7 (b2n (rd (F.AX_CFG_OUT_MODE k) s == 3))
  fput w 3 3 (b2n (softHigh k s || softLow k s))

/-! ### The run-down (R374-R377) -/

/-- R375: the brake falls and the commanded position is held. -/
def enterBraking (k : Nat) (toHeld : Bool) (s : State) : State :=
  s |> axGo k xBRAKING |> wr (F.AX_STATUS_BRAKE k) 0
    |> setAx k (fun a => { a with v := 0, timer := rd (F.AX_TIMING_BRAKE_SET k) s, toHeld, prof := none })

/-- R374, R377: a run-down trigger. It acts only in ACTIVE, PROFILE or ENABLING. -/
def rundown (k cause : Nat) (s : State) : State :=
  let st := axState k s
  let code := lowestCause k cause s
  let start (s : State) : State :=
    raise E.MOT_RUNDOWN (k + 16 * code) (wr (F.AX_STATUS_CAUSE k) code
      (setAx k (fun a => { a with rdTicks := 0, v0 := a.v, p0 := posQ k s, prof := none }) s))
  if st == xACTIVE || st == xPROFILE then axGo k xRUNDOWN (start s)
  else if st == xENABLING then enterBraking k true (start s)
  else s

/-- A trigger on both axes. -/
def rundownAll (cause : Nat) (s : State) : State := rundown 1 cause (rundown 0 cause s)

/-- R375: how many ticks the run-down lasts. -/
def rdLength (k : Nat) (s : State) : Nat := ((axSt k s).v0.natAbs + rdDecel k s - 1) / rdDecel k s

/-- Position `t` ticks into a run-down of `D` ticks from `p0` at `v0`: the velocity falls evenly to zero. -/
def rdPos (p0 v0 : Int) (D t : Nat) : Int :=
  if D ≤ t then p0 + v0 * (D : Int) / 2 else p0 + v0 * (t : Int) - v0 * (t : Int) * (t : Int) / (2 * (D : Int))

/-- Velocity `t` ticks into it: it never changes sign. -/
def rdVel (v0 : Int) (dec t : Nat) : Int :=
  let m := v0.natAbs - dec * t
  if v0 < 0 then -(m : Int) else (m : Int)

/-- Both outputs fall and the axis is HELD. -/
def dropToHeld (k cause : Nat) (s : State) : State :=
  s |> axGo k xHELD |> wr (F.AX_STATUS_BRAKE k) 0 |> wr (F.AX_STATUS_CAUSE k) cause
    |> setAx k (fun a => { a with drvEn := false, v := 0, timer := 0, prof := none })

/-! ### Profiles (R368) -/

/-- Length and segments of a stored profile. -/
def profileOf (k n : Nat) (s : State) : Nat × List Seg := lget (0, []) (axSt k s).profiles n

/-- R188, R368: store segments from `first`. -/
def storeProfile (k n first : Nat) (segs : List Seg) (s : State) : State :=
  let old := (profileOf k n s).2
  let pad := old ++ List.replicate (first - old.length) { acc := 0, vEnd := 0, dur := 0 }
  let l := pad.take first ++ segs ++ pad.drop (first + segs.length)
  setAx k (fun a => { a with profiles := lput (0, []) n (first + segs.length, l) a.profiles }) s

/-- A segment as executed: its clamped acceleration and end velocity, and how many clamps that took. -/
def segClamped (k : Nat) (g : Seg) (s : State) : Nat × Int × Nat :=
  let badA := g.acc == 0 || decide (axAmax k s < g.acc)
  let vm : Int := (axVmax k s : Nat)
  let badV := decide (vm < g.vEnd) || decide (g.vEnd < -vm)
  (if badA then axAmax k s else g.acc, max (-vm) (min vm g.vEnd), b2n badA + b2n badV)

/-- Begin a segment, or pass over those of no duration; past the last the profile is at its end. -/
def beginSeg (k n : Nat) : (fuel : Nat) → (seg : Nat) → State → State
  | 0, _, s => s
  | fuel + 1, seg, s =>
    let (len, l) := profileOf k n s
    let at_ := setAx k (fun a => { a with prof := some (n, seg, 0) }) s
    if len ≤ seg then at_
    else
      match l[seg]? with
      | none => at_
      | some g =>
        let s1 := countN (C.MOT_PROFILE_CLAMP k) (segClamped k g s).2.2 at_
        if g.dur == 0 then beginSeg k n fuel (seg + 1) s1 else s1

/-- One tick of motion at acceleration `a` towards `e`: the new velocity and the distance. -/
def segMove (a : Nat) (e v : Int) : Int × Int :=
  let d := e - v
  if a = 0 then (v, v)
  else if d.natAbs ≤ a then (e, e - d * (d.natAbs : Int) / (2 * (a : Int)))
  else
    let v' := if 0 < d then v + (a : Int) else v - (a : Int)
    (v', (v + v') / 2)

/-- Where a tick from velocity `v` to `v'` at acceleration `a` turns back, as a distance; a tick that does not turn back
ends at `d`. -/
def turnAt (a : Nat) (v v' d : Int) : Int :=
  if a != 0 && decide (v * v' < 0) then v * (v.natAbs : Int) / (2 * (a : Int)) else d

/-- One tick of a running profile. -/
def profTick (k : Nat) (s : State) : State :=
  let a := axSt k s
  match a.prof with
  | none => s
  | some (n, seg, t) =>
    let (len, l) := profileOf k n s
    match l[seg]? with
    | none => moveTo k (posQ k s + a.v) (posQ k s + a.v) s
    | some g =>
      if len ≤ seg then moveTo k (posQ k s + a.v) (posQ k s + a.v) s
      else
        let c := segClamped k g s
        let (v', d) := segMove c.1 c.2.1 a.v
        let s1 := moveTo k (posQ k s + turnAt c.1 a.v v' d) (posQ k s + d) (setAx k (fun a => { a with v := v', prof := some (n, seg, t + 1) }) s)
        if g.dur ≤ t + 1 then beginSeg k n 65 (seg + 1) s1 else s1

/-- Has the running profile ended its last segment. -/
def profEnded (k : Nat) (s : State) : Bool :=
  (axSt k s).prof.any (fun p => decide ((profileOf k p.1 s).1 ≤ p.2.1))

/-! ### Setpoints (R365-R367) -/

/-- A setpoint container's fields. -/
structure Setpoint where
  pos : Nat
  cmd : Nat
  en : Bool
  zero : Bool
deriving DecidableEq, Repr

/-- R365: the setpoint of a container of LEN 2. -/
def setpointOf (ws : List Word) : Option Setpoint :=
  match ws with
  | [a, b] => some { pos := a.toNat, cmd := fget b 39 38, en := fget b 37 37 == 1, zero := fget b 36 0 == 0 }
  | _ => none

/-- Δ of a setpoint, in 1/65536 count: positions compare as wrapping 40-bit counts. -/
def spDelta (k : Nat) (p : Setpoint) (s : State) : Int :=
  toSigned 40 (p.pos + 2 ^ 40 - rd (F.AX_POS_CMD_POS k) s) * 65536 - ((axSt k s).frac : Nat)

/-- R365, R366, R371: is the setpoint rejected. -/
def spRejected (k : Nat) (p : Setpoint) (s : State) : Bool :=
  let st := axState k s
  let a := axSt k s
  let d := spDelta k p s
  let pos := toSigned 40 p.pos
  p.cmd == 3 || !p.zero ||
    (st == xENABLING && p.en && p.pos % 2 ^ 40 != rd (F.AX_POS_CMD_POS k) s) ||
    (st == xACTIVE && p.cmd == 0 && (decide (axVmax k s < d.natAbs) || decide (axAmax k s < (d - a.v).natAbs))) ||
    (st == xACTIVE && p.cmd == 0 && on (F.AX_CFG_SOFT_LIM_EN k) s &&
      (decide (pos < rdS (F.AX_SOFT_MIN_POS k) s) || decide (rdS (F.AX_SOFT_MAX_POS k) s < pos))) ||
    (p.cmd == 0 && limitTowards k d s) ||
    (st == xPROFILE && p.cmd == 0) ||
    (p.cmd == 1 && p.en &&
      !((st == xACTIVE && a.v == 0) || (st == xPROFILE && a.prof.any (fun q => q.1 == p.pos % 8))))

/-- R360, R370, R373: may the axis be armed: it is live, can be enabled (R369), and no run-down trigger is active. -/
def mayArm (k : Nat) (s : State) : Bool :=
  motLive s && rd (F.AX_CFG_OUT_MODE k) s != 3 && !on F.MOT_HOLD_LEVEL s && !on (F.AX_STATUS_FLT k) s &&
    !followingOver k s && !s.boot.softPending

/-- R361: enter ENABLING. -/
def enterEnabling (k : Nat) (s : State) : State :=
  let s1 := if on (F.AX_CFG_ENC_EN k) s then
      setAx k (fun a => { a with frac := 0 }) (wr (F.AX_POS_CMD_POS k) (rd (F.AX_POS_ENC_POS k) s) s) else s
  s1 |> axGo k xENABLING |> wr (F.AX_STATUS_LOSS_RUN k) 0 |> wr (F.AX_STATUS_BRAKE k) 0
     |> setAx k (fun a => { a with drvEn := true, v := 0, timer := rd (F.AX_TIMING_EN_DELAY k) s })

/-- R366: STOP, or ENABLE = 0. -/
def orderedStop (k : Nat) (s : State) : State :=
  if (axSt k s).v == 0 then enterBraking k false s else rundown k 0xA s

/-- R360, R367: a valid setpoint has been presented, whether or not it acts. -/
def spSeen (k : Nat) (p : Setpoint) (s : State) : State :=
  setAx k (fun a => { a with lastEn := some p.en }) (wr (F.AX_STATUS_LOSS_RUN k) 0 s)

/-- A valid setpoint acts (R360, R366). In RUNDOWN and BRAKING it is ignored (R377). -/
def spAct (k : Nat) (p : Setpoint) (s : State) : State :=
  let st := axState k s
  let s1 := spSeen k p s
  if st == xRUNDOWN || st == xBRAKING then s1
  else
    let armed := (axSt k s).lastEn == some false
    if st == xDISABLED || st == xHELD then
      (if p.en && p.cmd == 0 && armed && mayArm k s1 then enterEnabling k s1 else s1)
    else if !p.en || p.cmd == 2 then orderedStop k s1
    else if st == xACTIVE && p.cmd == 0 then setAx k (fun a => { a with v := spDelta k p s }) s1
    else if st == xACTIVE && p.cmd == 1 then beginSeg k (p.pos % 8) 65 0 (axGo k xPROFILE s1)
    else s1

/-- R367: no valid setpoint at this instant. -/
def spMissing (k : Nat) (s : State) : State :=
  let st := axState k s
  let s1 := if st == xACTIVE || st == xPROFILE then count (C.MOT_SP_MISSING k) s else s
  if st == xACTIVE || st == xPROFILE || st == xENABLING then
    wr (F.AX_STATUS_LOSS_RUN k) (min 255 (rd (F.AX_STATUS_LOSS_RUN k) s + 1)) s1
  else s1

/-- R365-R367: one presentation instant of an axis; a valid setpoint acts if `act` (R377). -/
def spPresent (k : Nat) (act : Bool) (sp : Option Setpoint) (s : State) : State :=
  match sp with
  | none => spMissing k s
  | some p =>
    if !act && !spRejected k p s then spSeen k p s
    else if (axState k s == xRUNDOWN || axState k s == xBRAKING) && p.cmd != 3 && p.zero &&
        !(p.cmd == 0 && limitTowards k (spDelta k p s) s) then spAct k p s
    else if spRejected k p s then spMissing k (count (C.MOT_SP_REJECT k) s)
    else spAct k p s

/-! ### One building tick -/

/-- The motion of the tick now ended. -/
def axAdvance (k : Nat) (s : State) : State :=
  let a := axSt k s
  let st := axState k s
  let s1 := setAx k (fun a => { a with timer := a.timer - 1 }) s
  if st == xACTIVE then moveTo k (posQ k s1 + a.v) (posQ k s1 + a.v) s1
  else if st == xPROFILE then profTick k s1
  else if st == xRUNDOWN then
    let t := a.rdTicks + 1
    let D := rdLength k s1
    moveTo k (rdPos a.p0 a.v0 D t) (rdPos a.p0 a.v0 D t) (setAx k (fun a => { a with rdTicks := t, v := rdVel a.v0 (rdDecel k s1) t }) s1)
  else if st == xBRAKING && a.toHeld then setAx k (fun a => { a with rdTicks := a.rdTicks + 1 }) s1
  else s1

/-- R364: the capture item of an axis. -/
def axItem (k : Nat) (s : State) : List Byte :=
  let st := reg (R.AX_STATUS k) s
  let bits := b2n (on (F.AX_STATUS_LIM_P k) s) + 2 * b2n (on (F.AX_STATUS_LIM_N k) s) +
    4 * b2n (on (F.AX_STATUS_FLT k) s) + 8 * b2n (on (F.AX_STATUS_HOLD k) s) + 16 * b2n (axSt k s).idxSeen
  bytesBE 5 (stampOf s.bt).toNat ++ bytesBE 5 (rd (F.AX_POS_ENC_POS k) s) ++ bytesBE 5 (rd (F.AX_POS_CMD_POS k) s) ++
    [BitVec.ofNat 8 (16 * fget st 35 32 + fget st 39 36), BitVec.ofNat 8 bits] ++ bytesBE 5 (reg (R.AX_INDEX k) s).toNat

/-- R364: make the capture item of this tick, if it is due. -/
def axCapture (k : Nat) (s : State) : State :=
  let n := rd (F.AX_CFG_CAP_DIV k) s
  if n = 0 || s.bt % n != 0 then s
  else
    submitOr (C.MOT_CAP_DROP k) (rd (F.AX_CFG_IN_QUEUE k) s) srcCapture s.bt (axItem k s)
      (setAx k (fun a => { a with idxSeen := false }) s)

/-- R369: the command u = v + KP x e, in 1/65536 count per tick. -/
def axCommand (k : Nat) (s : State) : Int := (axSt k s).v + (rd (F.AX_PWM_KP k) s : Nat) * axError k s / 256

/-- R369: the duty of AXk_PWM from here, in 1/65536; the spec states none where FS is 0. -/
def axDuty (k : Nat) (s : State) : Nat × State :=
  let u := axCommand k s
  let fs := rd (F.AX_PWM_FS_VALUE k) s
  if fs = 0 then
    let (x, s1) := fresh 17 s
    (min 65536 x.toNat, s1)
  else if rd (F.AX_CFG_OUT_MODE k) s = 1 then (min (u.natAbs * 65536 / fs) 65536, s)
  else ((max 0 (min 65536 (32768 + u * 32768 / (fs : Int)))).toNat, s)

/-- R369: AXk_PWM in the two PWM modes; PERIOD below 256 acts as 256. -/
def axDrive (k : Nat) (s : State) : State :=
  let mode := rd (F.AX_CFG_OUT_MODE k) s
  if mode = 1 || mode = 2 then
    let dir := mode = 1 && decide (0 < axCommand k s)
    let (duty, s1) := axDuty k s
    emit (.pwm k duty dir (max 256 (rd (F.AX_PWM_PERIOD k) s))) s1
  else s

/-- The setpoint presented to axis `k` now (R26, R28): the item of its container that is due. -/
def axFeed (due : List PresItem) (k : Nat) : Option Setpoint :=
  ((due.find? (fun i => i.dest == 7 && i.param % 2 == k)).bind PresItem.data).bind setpointOf

/-- R139, R365: is the container of axis `k` that is due one of a LEN other than 2, and so missing. -/
def axMisfit (due : List PresItem) (k : Nat) : Bool :=
  (due.find? (fun i => i.dest == 7 && i.param % 2 == k)).any (fun i => i.data.any (fun ws => (setpointOf ws).isNone))

/-- Does the axis follow setpoints or a profile. -/
def axMoving (k : Nat) (s : State) : Bool := axState k s == xACTIVE || axState k s == xPROFILE

/-- R371: a limit active in the direction of motion. -/
def limitCheck (k : Nat) (s : State) : State :=
  if axMoving k s && limitTowards k (axSt k s).v s then rundown k 6 s else s

/-- R368, R370, R371: does a trigger stand at this instant: a limit in the way, a crossed soft limit, a following error. -/
def triggerStands (k : Nat) (s : State) : Bool :=
  axMoving k s && (limitTowards k (axSt k s).v s || softCrossed k s || followingOver k s)

/-- R363: encoder counts as they change the position: `n` counts, up where A leads B, since wc 0. ENC_INV reverses them, and
the filter passes at most one count in ENC_FILT + 1 of a tick's 66,560 fc. -/
def encCounts (k : Nat) (n : Int) (s : State) : Int :=
  if !on (F.AX_CFG_ENC_EN k) s then 0
  else
    let most : Int := (66560 / (rd (F.AX_CFG_ENC_FILT k) s + 1) : Nat)
    let c := max (-most) (min most n)
    if on (F.AX_CFG_ENC_INV k) s then -c else c

/-- The encoder position `n` counts on. -/
def encPos (k : Nat) (n : Int) (s : State) : Nat := ofSigned 40 (rdS (F.AX_POS_ENC_POS k) s + encCounts k n s)

/-- R363, R364, R366, R371, R377: one axis at wc 0 of a building tick; `enc` is the count since the last. A trigger
that stands now comes before the setpoint. -/
def axTick (due : List PresItem) (k : Nat) (enc : Int) (s : State) : State :=
  if !domOn dMOT s then s
  else
    let s1 := axAdvance k (wr (F.AX_POS_ENC_POS k) (encPos k enc s) s)
    let stop := triggerStands k s1
    let s2 := if motLive s1 then
        spPresent k (!stop) (axFeed due k) (whenB (axMisfit due k) (count C.CONTAINER_MISSING) s1) else s1
    let s3 := axCapture k (whenB stop (rundown k 8) s2)
    if (axSt k s3).drvEn then axDrive k s3 else s3

/-- Both axes. -/
def motionTick (due : List PresItem) (enc : List Int) (s : State) : State :=
  axTick due 1 (enc.getD 1 0) (axTick due 0 (enc.getD 0 0) s)

/-! ### Meanings -/

/-- SETPOINT_LOSS (R367): the SP_LOSS-th consecutive setpoint is missing. -/
def execSetpointLoss (ax : Fin 2) (s : State) : Res :=
  done (if setpointLost ax.val s then rundown ax.val 1 s else s)

/-- BRAKE_RELEASE (R361). -/
def execBrakeRelease (ax : Fin 2) (s : State) : Res :=
  let k := ax.val
  done (if axState k s == xENABLING && !on (F.AX_STATUS_BRAKE k) s && (axSt k s).timer == 0 then
      setAx k (fun a => { a with timer := rd (F.AX_TIMING_BRAKE_REL k) s }) (wr (F.AX_STATUS_BRAKE k) 1 s)
    else s)

/-- ENABLING_DONE (R361). -/
def execEnablingDone (ax : Fin 2) (s : State) : Res :=
  let k := ax.val
  done (if axState k s == xENABLING && on (F.AX_STATUS_BRAKE k) s && (axSt k s).timer == 0 then axGo k xACTIVE s else s)

/-- ENC_ERROR (R363): the count is unchanged. -/
def execEncError (ax : Fin 2) (s : State) : Res :=
  done (if domOn dMOT s && on (F.AX_CFG_ENC_EN ax.val) s then rundown ax.val 9 (count (C.MOT_ENC_ERR ax.val) s) else s)

/-- INDEX_EDGE (R364): `delta` counts have come since wc 0, as in `encCounts`. -/
def execIndexEdge (ax : Fin 2) (delta : Int) (s : State) : Res :=
  let k := ax.val
  done (if domOn dMOT s then
      s |> wr (F.AX_INDEX_POS k) (encPos k delta s) |> wr (F.AX_STATUS_INDEX_SEEN k) 1
        |> setAx k (fun a => { a with idxSeen := true })
    else s)

/-- LIMIT (R371): the levels of the limit pins change. -/
def execLimit (ax : Fin 2) (pHigh nHigh : Bool) (s : State) : Res :=
  let k := ax.val
  let pol := on (F.AX_CFG_LIM_POL k) s
  let s1 := s |> wr (F.AX_STATUS_LIM_P k) (b2n (pHigh != pol)) |> wr (F.AX_STATUS_LIM_N k) (b2n (nHigh != pol))
  done (limitCheck k s1)

/-- R372: what an active drive fault does to an axis that is neither DISABLED nor HELD. -/
def faultCheck (k : Nat) (s : State) : State :=
  if on (F.AX_STATUS_FLT k) s && !axIdle k s then raise E.MOT_HELD (k + 16 * 0xC) (dropToHeld k 0xC s) else s

/-- DRIVE_FAULT (R372): the level of the fault pin changes. -/
def execDriveFault (ax : Fin 2) (high : Bool) (s : State) : Res :=
  let k := ax.val
  done (faultCheck k (wr (F.AX_STATUS_FLT k) (b2n (high != on (F.AX_CFG_FLT_POL k) s)) s))

/-- R371, R372: a new AXk_CFG. The pins stand as they are, so a limit or the fault whose polarity changes changes state. -/
def axCfgWrite (k : Nat) (new : Word) (s : State) : State :=
  let old := reg (R.AX_CFG k) s
  let flipL := fget old 16 16 != fget new 16 16
  let flipF := fget old 15 15 != fget new 15 15
  let flip (f : Fld) (s : State) : State := wr f (1 - rd f s) s
  setReg (R.AX_CFG k) new s |> whenB flipL (fun s => flip (F.AX_STATUS_LIM_N k) (flip (F.AX_STATUS_LIM_P k) s))
    |> whenB flipF (flip (F.AX_STATUS_FLT k)) |> limitCheck k |> faultCheck k

/-- HOLD (R373): MOT_HOLD_N stands at a level for `us` µs; low for HOLD_FILT µs (0 acts as 1) is HOLD. -/
def execHold (low : Bool) (us : Nat) (s : State) : Res :=
  let s1 := s |> wr F.MOT_HOLD_LEVEL (b2n low) |> wr (F.AX_STATUS_HOLD 0) (b2n low) |> wr (F.AX_STATUS_HOLD 1) (b2n low)
  done (if low && decide (us < max 1 (rd F.MOT_HOLD_HOLD_FILT s)) then s
    else eachOf [0, 1] (fun s k => if low && on (F.AX_CFG_HOLD_EN k) s then rundown k 5 s else s) s1)

/-- FOLLOWING_ERROR (R370). -/
def execFollowingError (ax : Fin 2) (s : State) : Res :=
  let k := ax.val
  done (if followingOver k s then rundown k 8 s else s)

/-- SOFT_LIMIT (R368): the commanded position crosses a soft limit. -/
def execSoftLimit (ax : Fin 2) (s : State) : Res :=
  done (if softCrossed ax.val s then rundown ax.val 7 s else s)

/-- PROFILE_END (R368): the last segment has ended. -/
def execProfileEnd (ax : Fin 2) (s : State) : Res :=
  let k := ax.val
  done (if axState k s == xPROFILE && profEnded k s then
      if (axSt k s).v == 0 then axGo k xACTIVE (setAx k (fun a => { a with prof := none }) s) else rundown k 0xB s
    else s)

/-- RUNDOWN_END (R375): the velocity has reached zero. -/
def execRundownEnd (ax : Fin 2) (s : State) : Res :=
  let k := ax.val
  done (if axState k s == xRUNDOWN && decide (rdLength k s ≤ (axSt k s).rdTicks) then enterBraking k true s else s)

/-- BRAKE_SET_EXPIRY (R375): the drive enable falls. -/
def execBrakeSetExpiry (ax : Fin 2) (s : State) : Res :=
  let k := ax.val
  done (if axState k s == xBRAKING && (axSt k s).timer == 0 then
      let s1 := setAx k (fun a => { a with drvEn := false }) s
      if (axSt k s).toHeld then
        s1 |> axGo k xHELD |> raise E.MOT_HELD (k + 16 * rd (F.AX_STATUS_CAUSE k) s) |> count (C.MOT_RUNDOWN k)
      else axGo k xDISABLED s1
    else s)

/-- Is a run-down in progress. -/
def inRundown (k : Nat) (s : State) : Bool := axState k s == xRUNDOWN || (axState k s == xBRAKING && (axSt k s).toHeld)

/-- MOT_CUT (R376): RD_MAX cycles have passed. -/
def execMotCut (ax : Fin 2) (s : State) : Res :=
  let k := ax.val
  done (if inRundown k s && decide (48 * max 1 (rd (F.AX_RD_LIMIT_RD_MAX k) s) ≤ (axSt k s).rdTicks) then
      raise E.MOT_CUT k (count (C.MOT_CUT k) (dropToHeld k 0xD s))
    else s)

/-- R359: commit a write of AXk_POS_CMD or AXk_POS_ENC. -/
def posCommit (k : Nat) (enc : Bool) (v : Word) (s : State) : State :=
  if !axIdle k s then count C.REG_LOCKED_WRITE s
  else if enc then setReg (R.AX_POS_ENC k) v s
  else setAx k (fun a => { a with frac := 0 }) (setReg (R.AX_POS_CMD k) v s)

/-- R58, R378: both axes lose their outputs and are DISABLED, with no run-down. -/
def motDrop (s : State) : State := { s with mot := { axes := [{}, {}] } }

end Sys2Proof.Machine
end

