-- ==== Sys2Proof/Machine/Rings.lean ====
section
/-! DEFINITION. The host ring engine: start and stop, poll points, the descriptor rings, commands' sequence numbers and
completions, events, interrupts and host resets (spec/12_host_rings_pcie.md R282-R306). Host memory is outside the
block: what a read returned is an operand, and writes are sent outside. -/

namespace Sys2Proof.Machine

/-! ### Rings and indices (R290) -/

/-- Ring codes. -/
def ringTX (n : Nat) : Nat := n
def ringRX (n : Nat) : Nat := 0x10 + n
def ringFL (n : Nat) : Nat := 0x20 + n
def ringEVT : Nat := 0x30
def ringCMD : Nat := 0x31

/-- BASE register of a ring; its CFG register follows it. -/
def ringBase (r : Nat) : Nat :=
  if r < 0x10 then R.TXQ_BASE r
  else if r < 0x20 then R.RXQ_BASE (r - 0x10)
  else if r < 0x30 then R.FL_BASE (r - 0x20)
  else if r = 0x30 then R.EVT_BASE else R.CMD_BASE

def ringCfg (r : Nat) (s : State) : Word := reg (ringBase r + 8) s
def ringEnabled (r : Nat) (s : State) : Bool := fget (ringCfg r s) 0 0 == 1
def ringLog (r : Nat) (s : State) : Nat := fget (ringCfg r s) 5 1
def ringSize (r : Nat) (s : State) : Nat := 2 ^ ringLog r s
def ringProd (r : Nat) (s : State) : Nat := (lget (0, 0) s.host.idx r).1
def ringCons (r : Nat) (s : State) : Nat := (lget (0, 0) s.host.idx r).2

def setProd (r v : Nat) (s : State) : State :=
  setHost (fun h => { h with idx := lput (0, 0) r (v % 2 ^ 32, (lget (0, 0) h.idx r).2) h.idx }) s

def setCons (r v : Nat) (s : State) : State :=
  setHost (fun h => { h with idx := lput (0, 0) r ((lget (0, 0) h.idx r).1, v % 2 ^ 32) h.idx }) s

/-- Entries between two indices. -/
def span32 (p c : Nat) : Nat := (p + 2 ^ 32 - c % 2 ^ 32) % 2 ^ 32

/-- Has the ring something for its consumer. -/
def ringHas (r : Nat) (s : State) : Bool := ringProd r s != ringCons r s

/-- Has the ring room for its producer. -/
def ringRoom (r : Nat) (s : State) : Bool := decide (span32 (ringProd r s) (ringCons r s) < ringSize r s)

/-- Host address of descriptor `i`. -/
def descAddr (r i : Nat) (s : State) : Nat := (reg (ringBase r) s).toNat * 4096 + 32 * (i % ringSize r s)

/-- Hostless mode (R307). -/
def hostless (s : State) : Bool := on F.RING_MODE_HOSTLESS s

/-- R292, R307: a write of the engine into host memory, or, in hostless mode, into the Granary. -/
def dmaOut (s : State) (addr : Nat) (bytes : List Byte) : Output :=
  if hostless s then .granWrite addr bytes else .hostWrite addr bytes

/-- The same for a read. -/
def dmaIn (s : State) (addr len : Nat) : Output := if hostless s then .granRead addr len else .hostRead addr len

def dmaWrite (addr : Nat) (bytes : List Byte) (s : State) : State := emit (dmaOut s addr bytes) s
def dmaRead (addr len : Nat) (s : State) : State := emit (dmaIn s addr len) s

/-- PHASE of an index (R296). -/
def phaseBit (r i : Nat) (s : State) : Nat := 1 - i / ringSize r s % 2

/-! ### Engine state (R285-R289) -/

def hreSTOPPED : Nat := 0
def hreRUNNING : Nat := 1
def hreHALTED : Nat := 2
def hreRESETTING : Nat := 3

def hreState (s : State) : Nat := rd F.HRE_CTRL_STATE s

/-- Does the engine poll and serve. -/
def hreServes (s : State) : Bool := hreState s == hreRUNNING && !s.host.stopping

/-- Is a ring stopped (R304); for 0x10 to 0x2F, its receive pair. -/
def ringStopped (r : Nat) (s : State) : Bool :=
  if r < 0x10 then nbit (rd F.HRE_STOPPED_TXQ s) r
  else if r < 0x30 then nbit (rd F.HRE_STOPPED_RXP s) (r % 16)
  else if r = 0x30 then on F.HRE_STOPPED_EVT s else on F.HRE_STOPPED_CMD s

/-- Set or clear a ring's stopped bit. -/
def setStopped (r : Nat) (v : Bool) (s : State) : State :=
  let upd (f : Fld) (n : Nat) : State := wr f (if nbit (rd f s) n == v then rd f s else if v then rd f s + 2 ^ n else rd f s - 2 ^ n) s
  if r < 0x10 then upd F.HRE_STOPPED_TXQ r
  else if r < 0x30 then upd F.HRE_STOPPED_RXP (r % 16)
  else if r = 0x30 then wr F.HRE_STOPPED_EVT (b2n v) s else wr F.HRE_STOPPED_CMD (b2n v) s

/-- R304: stop a ring with a cause; 0x5 is an unacceptable index. -/
def stopRing (r cause : Nat) (s : State) : State :=
  let code := if 0x20 ≤ r && r < 0x30 then r - 0x10 else r
  s |> setStopped r true |> count (if cause == 5 then C.DB_INDEX_BAD else C.HOST_DMA_ERR)
    |> wr F.HRE_STATUS_LAST_ERR_CAUSE cause |> wr F.HRE_STATUS_LAST_ERR_RING code
    |> raiseWith E.RING_STOPPED code cause

/-- R289, R307: is the host absent now; in hostless mode it is not while the firmware runs. -/
def hostAway (s : State) : Bool :=
  if hostless s && fromListening s && domOn dMGT s then false else hreState s != hreRUNNING || s.host.hbAbsent

/-- R289: HRE_CTRL.HOST_ABSENT follows, with an event on each change. -/
def refreshHost (s : State) : State :=
  let was := on F.HRE_CTRL_HOST_ABSENT s
  let now := hostAway s
  if was == now then s
  else
    let s1 := wr F.HRE_CTRL_HOST_ABSENT (b2n now) s
    if now then raise E.HOST_ABSENT (b2n (hreState s == hreRUNNING)) s1 else raise E.HOST_PRESENT 0 s1

/-- Clear every ring index, the CMD and EVT state and the stopped bits, and the read in flight with its cells (R288, R304,
R305). -/
def clearRings (s : State) : State :=
  setHost (fun h =>
    { records := h.records, events := h.events, evtLost := h.evtLost, statusSeq := h.statusSeq, harvest := h.harvest
      pci := h.pci, pba := h.pba })
    (setReg R.HRE_STOPPED 0 (giveFree (s.host.flight.elim 0 (fun f => cellsOf f.len)) s))

/-- Is every enabled ring of a size R287 allows. -/
def ringsOk (s : State) : Bool :=
  ((List.range 0x32).filter (fun r => ringEnabled r s)).all (fun r => decide (6 ≤ ringLog r s) && decide (ringLog r s ≤ 16))

/-- R51: SELFTEST_WARN is raised once after the engine starts. -/
def selftestWarn (s : State) : State :=
  if s.boot.warnDue then raise E.SELFTEST_WARN (reg R.SELFTEST_FLAGS s).toNat { s with boot := { s.boot with warnDue := false } }
  else s

/-- R283, R287: may the engine run at all: over PCI Express only where the straps enable it and its domain is ON, else in
hostless mode alone. -/
def hreMayRun (s : State) : Bool := hostless s || (on F.PCIE_CTRL_ENABLE s && domOn dPCI s)

/-- Commit a write of HRE_CTRL (R283, R287, R288, R307). -/
def hreCtrlWrite (p : Path) (v : Word) (s : State) : State :=
  if p == .pcie && hostless s then count C.REG_LOCKED_WRITE s
  else if fget v 0 0 == 1 then
    if hreState s != hreSTOPPED then s
    else if reg R.DB_PAGE s == 0 || reg R.ST_PAGE s == 0 || !ringsOk s || !fromListening s || !hreMayRun s then
      wr F.HRE_STATUS_LAST_ERR_CAUSE 6 s
    else
      selftestWarn (refreshHost (wr F.HRE_CTRL_STATE hreRUNNING (wr F.HRE_CTRL_START 1 (clearRings s))))
  else if hreState s == hreRUNNING || hreState s == hreHALTED then
    setHost (fun h => { h with stopping := true }) (wr F.HRE_CTRL_START 0 s)
  else wr F.HRE_CTRL_START 0 s

/-! ### Interrupts (R303) -/

/-- A vector is to be signalled at the end of the poll point's writes. -/
def wantVec (v : Nat) (s : State) : State :=
  if s.host.vecs.contains v then s else setHost (fun h => { h with vecs := h.vecs ++ [v] }) s

/-- Signal a ring's own vector, where it is enabled. -/
def wantRing (r : Nat) (s : State) : State :=
  if fget (ringCfg r s) 6 6 == 1 then
    wantVec (if r == ringCMD then rd F.INT_CFG_CMD_VEC s else if r == ringEVT then rd F.INT_CFG_EVT_VEC s
             else fget (ringCfg r s) 12 7) s
  else s

/-- Is a vector masked, by its entry or the function's mask (R303). -/
def vecMasked (v : Nat) (s : State) : Bool := s.host.pci.msixMask || (s.host.pci.entries.getD v {}).mask

/-- The message of a vector: what its table entry says is written where (R282, R303). -/
def sendMsix (v : Nat) (s : State) : State :=
  let e := s.host.pci.entries.getD v {}
  emit (.msix v e.addr.toNat e.data.toNat) s

/-- R303: the message of a masked vector waits as its pending bit. -/
def msixSignal (v : Nat) (s : State) : State :=
  if !vecMasked v s then sendMsix v s
  else if s.host.pba.contains v then s else setHost (fun h => { h with pba := h.pba ++ [v] }) s

/-- R303: adopt what the host has programmed; a pending vector that is no longer masked sends its message. -/
def adoptPci (pci : PciHost) (s : State) : State :=
  let s1 := setHost (fun h => { h with pci }) s
  if !pci.msixEn then s1
  else
    let free := s1.host.pba.filter (fun v => !vecMasked v s1)
    eachOf free (fun s v => sendMsix v s) (setHost (fun h => { h with pba := h.pba.filter (fun v => !free.contains v) }) s1)

/-- Signal one vector by MSI-X, or by INTA. -/
def signalOne (s : State) (v : Nat) : State :=
  let h := rd F.INT_CFG_HOLDOFF s
  let s1 := setHost (fun x => { x with holdoff := lput 0 v h x.holdoff }) s
  if s1.host.pci.msixEn then msixSignal v s1
  else if s1.host.pci.intxDis then s1
  else emit (.intx true) (wr F.INT_CFG_INTX_PEND 1 s1)

/-- The end of a poll point's writes: vectors not held off are signalled once; the others wait. -/
def signalVecs (s : State) : State :=
  let held (v : Nat) : Bool := lget 0 s.host.holdoff v != 0
  let s1 := setHost (fun h => { h with vecs := h.vecs.filter held, holdoff := h.holdoff.map (fun p => (p.1, p.2 - 1)) }) s
  let s2 := setHost (fun h => { h with holdoff := h.holdoff.filter (fun p => p.2 != 0) }) s1
  eachOf (s.host.vecs.filter (fun v => !held v)) signalOne s2

/-! ### Events (R302) -/

/-- The 32 bytes of an event. -/
def eventBytes (e : Event) (phase : Nat) : List Byte :=
  bytesLE 2 e.code ++ bytesLE 2 0 ++ bytesLE 4 e.count ++
    bytesLE 8 ((stampOf e.tick).toNat + e.wc.toNat * 2 ^ 40) ++ bytesLE 8 (e.arg0 % 2 ^ 40) ++
    bytesLE 8 (e.arg1 % 2 ^ 56 + phase * 2 ^ 63)

/-- Write one event to EVT. -/
def writeEvent (e : Event) (s : State) : State :=
  let i := ringProd ringEVT s
  wantRing ringEVT (setProd ringEVT (i + 1) (dmaWrite (descAddr ringEVT i s) (eventBytes e (phaseBit ringEVT i s)) s))

/-- May EVT take an event. -/
def evtOpen (s : State) : Bool := ringEnabled ringEVT s && !ringStopped ringEVT s && ringRoom ringEVT s

/-- R302: write the waiting events in order; those lost are told first. -/
def writeEvents : (fuel : Nat) → State → State
  | 0, s => s
  | fuel + 1, s =>
    if !evtOpen s then s
    else if s.host.evtLost != 0 then
      let (wc, s1) := fresh 13 s
      writeEvents fuel (writeEvent { code := E.EVT_OVERFLOW, arg0 := s.host.evtLost, arg1 := 0, count := 1, tick := s.bt, wc }
        (setHost (fun h => { h with evtLost := 0 }) s1))
    else
      match s.host.events with
      | [] => s
      | e :: r => writeEvents fuel (writeEvent e (setHost (fun h => { h with events := r }) s))

/-- Write all the events EVT has room for. -/
def writeAllEvents (s : State) : State := writeEvents (s.host.events.length + 2) s

/-! ### The status page and poll points (R292, R293) -/

/-- Poll points per tick. -/
def pollsPerTick (s : State) : Nat := 2 ^ rd F.RING_MODE_POLL s

/-- The status page's bytes 0x000 to 0x0FF. -/
def statusPage (s : State) : List Byte :=
  let flags := b2n (ringStopped ringCMD s) + 2 * b2n (ringStopped ringEVT s) + 4 * b2n (on F.HRE_CTRL_HOST_ABSENT s)
    + 8 * b2n (on F.RUN_CTRL_RUN s) + 16 * termCode s.term
  bytesLE 4 (ringCons ringCMD s) ++ bytesLE 4 (ringProd ringEVT s) ++ bytesLE 8 (s.bt / 48 % 2 ^ 40) ++
    bytesLE 4 (s.bt % 48 + 64 * s.host.pollNo) ++ bytesLE 4 (s.host.statusSeq + 1) ++
    bytesLE 4 (rd F.HRE_STOPPED_TXQ s + 2 ^ 16 * rd F.HRE_STOPPED_RXP s) ++ bytesLE 4 flags ++ List.replicate 32 0 ++
    (List.range 16).flatMap (fun n => bytesLE 4 (ringCons (ringTX n) s)) ++
    (List.range 16).flatMap (fun n => bytesLE 4 (ringCons (ringFL n) s)) ++
    (List.range 16).flatMap (fun n => bytesLE 4 (ringProd (ringRX n) s))

/-- Write the status page; its SEQ advances. -/
def writeStatus (s : State) : State :=
  setHost (fun h => { h with statusSeq := (h.statusSeq + 1) % 2 ^ 32 })
    (dmaWrite ((reg R.ST_PAGE s).toNat * 4096) (statusPage s) s)

/-- R304: a fault on a page halts the engine; the ring state is cleared. -/
def haltEngine (ring cause : Nat) (s : State) : State :=
  clearRings s |> wr F.HRE_CTRL_STATE hreHALTED |> wr F.HRE_STATUS_LAST_ERR_RING ring
    |> wr F.HRE_STATUS_LAST_ERR_CAUSE cause |> raise E.HOST_RESET 4 |> refreshHost

/-- POLL_POINT (R292, R293, R303): poll point `k` of the tick. `pci` is what the host has programmed by then; `stFault`
tells that the host refused the status-page write. -/
def execPollPoint (k : Fin 8) (pci : PciHost) (stFault : Bool) (s : State) : Res :=
  done (if !hreServes s || decide (pollsPerTick s ≤ k.val) then s
    else if s.host.pollPend then count C.POLL_SKIPPED s
    else
      let s1 := writeAllEvents (setHost (fun h => { h with pollNo := k.val, pollTick := s.bt }) (adoptPci pci s))
      if stFault then haltEngine 0x33 1 s1
      else
        s1 |> writeStatus |> signalVecs |> dmaRead ((reg R.DB_PAGE s).toNat * 4096) 0x104
           |> setHost (fun h => { h with pollPend := true }))

/-- Four bytes of a page, little-endian. -/
def le4 (b : List Byte) (o : Nat) : Nat := leNat (slice b o 4)

/-- R294: the reads that fetch `n` descriptors from index `i` on, up to 16 in each; none runs over the ring's end. -/
def fetchReads (r : Nat) : (fuel : Nat) → (i n : Nat) → State → State
  | 0, _, _, s => s
  | fuel + 1, i, n, s =>
    if n = 0 then s
    else
      let k := min 16 (min n (ringSize r s - i % ringSize r s))
      fetchReads r fuel (i + k) (n - k) (dmaRead (descAddr r i s) (32 * k) s)

/-- Fetch the descriptors from index `i` up to the producer's; none where the producer's index went back. -/
def fetchFrom (r i : Nat) (s : State) : State :=
  let n := span32 (ringProd r s) i
  if ringSize r s < n then s else fetchReads r n i n s

/-- Adopt a producer index the host wrote, and fetch the descriptors it covers anew. -/
def adoptProd (r v : Nat) (s : State) : State :=
  if !ringEnabled r s || ringStopped r s then s
  else if ringSize r s < span32 v (ringCons r s) then stopRing r 5 s
  else fetchFrom r (ringProd r s) (setProd r v s)

/-- R292: descriptors of TXQ `q` newly covered belong to the poll point's building tick. -/
def markTx (q was : Nat) (s : State) : State :=
  if ringProd (ringTX q) s == was then s
  else
    let m := lget [] s.host.marks q ++ [(ringProd (ringTX q) s, s.host.pollTick)]
    setHost (fun h => { h with marks := lput [] q m h.marks }) s

/-- Adopt a consumer index the host wrote. -/
def adoptCons (r v : Nat) (s : State) : State :=
  if !ringEnabled r s || ringStopped r s then s
  else if ringSize r s < span32 (ringProd r s) v then stopRing r 5 s else setCons r v s

/-- R294: the TXQs in rotation, from the one after that served last. -/
def txOrder (s : State) : List Nat := (List.range 16).map (fun k => (s.host.lastTxq + 1 + k) % 16)

/-- DOORBELL_READ_DONE (R294, R289, R290, R304): the indices are adopted in the order the rings are served; the rows of
the commands, TX_DESCRIPTOR and HOST_DELIVERY serve them. -/
def execDoorbellReadDone (d : DmaBytes) (s : State) : Res :=
  done (if !s.host.pollPend || hreState s != hreRUNNING then s
    else
      let s0 := setHost (fun h => { h with pollPend := false, blocked := [] }) s
      match d with
      | .err c => haltEngine 0x32 c.toNat s0
      | .ok b =>
        let hb := le4 b 0x100
        let s1 := if hb != s0.host.heartbeat then
            setHost (fun h => { h with heartbeat := hb, hbTicks := 0, hbAbsent := false }) s0 else s0
        let s2 := adoptCons ringEVT (le4 b 4) (adoptProd ringCMD (le4 b 0) (refreshHost s1))
        let s3 := eachOf (List.range 16) (fun s n => adoptProd (ringFL n) (le4 b (0x80 + 4 * n)) s) s2
        let s4 := eachOf (txOrder s3) (fun s n =>
          markTx n (ringProd (ringTX n) s) (adoptProd (ringTX n) (le4 b (0x40 + 4 * n)) s)) s3
        eachOf (List.range 16) (fun s n => adoptCons (ringRX n) (le4 b (0xC0 + 4 * n)) s) s4)

/-- R282: the data link as it now stands, at most as wide as MAX_WIDTH. -/
def linkTick (l : Option PciLink) (s : State) : State :=
  match l with
  | none => s
  | some .down => s |> wr F.PCIE_CTRL_LINK_UP 0 |> wr F.PCIE_CTRL_SPEED 0 |> wr F.PCIE_CTRL_WIDTH 0
  | some (.up w g) =>
    if on F.PCIE_CTRL_ENABLE s && domOn dPCI s then
      s |> wr F.PCIE_CTRL_LINK_UP 1 |> wr F.PCIE_CTRL_SPEED (if g then 2 else 1)
        |> wr F.PCIE_CTRL_WIDTH (if decide (4 ≤ w) && rd F.PCIE_CTRL_MAX_WIDTH s == 2 then 4
             else if decide (2 ≤ w) && rd F.PCIE_CTRL_MAX_WIDTH s != 0 then 2 else 1)
    else s

/-- R305: an engine that was RESETTING has drained. -/
def drained (s : State) : State :=
  if hreState s == hreRESETTING then wr F.HRE_CTRL_STATE hreSTOPPED s else s

/-- One building tick of the link, of a draining engine and of the heartbeat watch. -/
def hostTick (l : Option PciLink) (s : State) : State :=
  let s1 := drained (linkTick l s)
  if hreState s1 == hreRUNNING then setHost (fun h => { h with hbTicks := h.hbTicks + 1 }) s1 else s1

/-- HOST_ABSENT (R289): the heartbeat has not changed for HB_TIMEOUT cycles. -/
def execHostAbsent (s : State) : Res :=
  let n := rd F.RING_MODE_HB_TIMEOUT s
  done (if hreState s == hreRUNNING && n != 0 && decide (48 * n ≤ s.host.hbTicks) && !s.host.hbAbsent then
      refreshHost (setHost (fun h => { h with hbAbsent := true }) s)
    else s)

/-- R288: what is due is written, the status page once more, and the engine is STOPPED. -/
def orderlyStop (s : State) : State :=
  let s1 := if hreState s == hreRUNNING then writeStatus (writeAllEvents s)
    else if hreState s == hreHALTED then writeStatus s else s
  refreshHost (wr F.HRE_CTRL_START 0 (wr F.HRE_CTRL_STATE hreSTOPPED (clearRings s1)))

/-- ORDERLY_STOP_DONE (R288): no request is in flight any more. -/
def execOrderlyStopDone (s : State) : Res :=
  done (if s.host.stopping && s.host.flight.isNone && !s.host.pollPend then orderlyStop s else s)

/-- RING_STOPPED (R304): a fault on a ring's DMA, or an unacceptable index. Only 0x0-0x1F, 0x30 and 0x31 name rings. -/
def execRingStopped (ring : Byte) (cause : BitVec 4) (s : State) : Res :=
  let r := ring.toNat
  done (if hreServes s && (decide (r < 0x20) || r == 0x30 || r == 0x31) && ringEnabled r s && !ringStopped r s &&
        decide (1 ≤ cause.toNat) && decide (cause.toNat ≤ 5) then
      stopRing r cause.toNat s
    else s)

/-! ### TX descriptors (R295) -/

/-- R292: the building tick of the poll point at which the head descriptor of TXQ `q` was fetched. -/
def txTick (q : Nat) (s : State) : Nat :=
  match lget [] s.host.marks q with
  | [] => s.host.pollTick
  | m :: _ => m.2

/-- The marks a TXQ still needs once its consumer index is `i`. -/
def unmark (q i : Nat) (s : State) : State :=
  let m := (lget [] s.host.marks q).filter (fun m => m.1 != i % 2 ^ 32)
  setHost (fun h => { h with marks := lput [] q m h.marks }) s

/-- Write a TX completion, with the stamp of the descriptor's poll point, and advance. -/
def txComplete (q tick status : Nat) (irq : Bool) (s : State) : State :=
  let r := ringTX q
  let i := ringCons r s
  let w := (stampOf tick).toNat + status * 2 ^ 48 + 2 ^ 63
  let s1 := setHost (fun h => { h with lastTxq := q })
    (unmark q (i + 1) (setCons r (i + 1) (dmaWrite (descAddr r i s + 24) (bytesLE 8 w) s)))
  if irq then wantRing r s1 else s1

/-- Does the engine take its next command now. -/
def cmdReady (s : State) : Bool :=
  hreServes s && ringEnabled ringCMD s && !ringStopped ringCMD s && ringHas ringCMD s && s.host.wait.isNone

/-- May TXQ `q` be served at all: the pool has not turned its head descriptor away since the last doorbell read. -/
def txOpen (q : Nat) (s : State) : Bool :=
  ringEnabled (ringTX q) s && !ringStopped (ringTX q) s && ringHas (ringTX q) s && !s.host.blocked.contains q

/-- R294: the TXQ that serves its next descriptor: commands go first, one descriptor is served at a time, and the TXQs
rotate. -/
def txNext (s : State) : Option Nat :=
  if !hreServes s || s.host.flight.isSome || cmdReady s then none else (txOrder s).find? (fun m => txOpen m s)

/-- R294: may TXQ `q` serve its next descriptor. -/
def txReady (q : Nat) (s : State) : Bool := txNext s == some q

/-- TX_DESCRIPTOR (R294, R295, R263): the descriptor at the head of TXQ `q` has been read. -/
def execTxDescriptor (q : Fin 16) (d : DmaBytes) (s : State) : Res :=
  let n := q.val
  done (if !txReady n s then s
    else
      match d with
      | .err c => stopRing (ringTX n) c.toNat s
      | .ok b =>
        let len := leNat (slice b 8 2)
        let queue := byteAt b 10
        let flags := byteAt b 11
        let irq := nbit flags 0
        let at_ := txTick n s
        let dl := stampTick at_ (BitVec.ofNat 40 (leNat (slice b 16 5)))
        if len = 0 then txComplete n at_ 1 irq s
        else if 133 ≤ queue then txComplete n at_ 3 irq (count (if queue < 153 then C.HOST_TX_BAD else C.QUEUE_BAD) s)
        else if 2048 < len then txComplete n at_ 4 irq (count C.HOST_TX_BAD s)
        else if nbit flags 3 && decide (tickDiff dl at_ < 0) then txComplete n at_ 5 irq (count C.HOST_TX_LATE s)
        else if freeCells s < cellsOf len then setHost (fun h => { h with lastTxq := n, blocked := n :: h.blocked }) s
        else
          let deadline := if nbit flags 3 then dl else tickAdd at_ (qLife queue s : Int)
          let fl : TxFlight :=
            { q := n, tick := at_, queue, flags, meter := byteAt b 12, deadline, md := BitVec.ofNat 40 (leNat (slice b 24 5)), len }
          s |> takeCells (cellsOf len) |> dmaRead (leNat (slice b 0 8)) len
            |> setHost (fun h => { h with flight := some fl }))

/-- TX_DATA_READ_DONE (R295, R262, R265, R304). -/
def execTxDataReadDone (q : Fin 16) (d : DmaBytes) (s : State) : Res :=
  let n := q.val
  done (match s.host.flight with
    | none => s
    | some f =>
      if f.q != n then s
      else
        let s0 := setHost (fun h => { h with flight := none }) s
        let irq := nbit f.flags 0
        let cells := cellsOf f.len
        match d with
        | .err c => stopRing (ringTX n) c.toNat (txComplete n f.tick 6 irq (giveFree cells s0))
        | .ok b =>
          let (col, s1) := if nbit f.flags 2 then meterPacket f.meter f.len s0 else (some 3, s0)
          match col with
          | none => txComplete n f.tick 2 irq (giveCells (sinkOf f.queue) cells s1)
          | some c =>
            let it : Item :=
              { deadline := f.deadline, md := f.md, colour := c, csum := nbit f.flags 1, src := srcCapture, pflags := 0,
                cont := 0, tag := f.tick, bytes := slice b 0 f.len, cells }
            let (s2, ok) := offer f.queue it s1
            txComplete n f.tick (if ok then 0 else 2) irq s2)

/-! ### Host delivery (R296, R297) -/

/-- An item for receive pair `n`: a container, which is opaque, or a message. -/
def deliverHost (n src cont tag : Nat) (bytes : List Byte) (s : State) : State :=
  let k := cellsOf bytes.length
  if freeCells s < k then count C.GRAN_FULL_DROP s
  else
    (offer (136 + n) { deadline := tickAdd tag (qLife (136 + n) s : Int), md := 0, colour := 3, csum := false, src,
                       pflags := 0, cont, tag, bytes, container := src == 0xF, cells := k } (takeCells k s)).1

/-- R296: the metadata of an RX descriptor: the stage-0 form with CONT_ID for a container. -/
def rxMeta (i : Item) : Word := if i.container then metaIn 0 0xF i.cont else i.md

/-- The RX descriptor of an item. SOURCE of an item the table does not list is a free value. -/
def rxDescriptor (cookie : List Byte) (i : Item) (phase : Nat) (s : State) : List Byte × State :=
  let (src, s1) := if i.src == srcCapture then let (x, s1) := fresh 8 s; (x.toNat, s1) else (i.src, s)
  (cookie ++ bytesLE 8 (rxMeta i).toNat ++ bytesLE 8 (stampOf i.tag).toNat ++ bytesLE 2 i.bytes.length ++
    [BitVec.ofNat 8 src, BitVec.ofNat 8 i.pflags] ++ bytesLE 2 (if i.src == 0xF then i.cont else 0) ++
    [BitVec.ofNat 8 (i.colour + 4 * b2n i.punt), BitVec.ofNat 8 (phase * 128)], s1)

/-- R270: the host-delivery sink's scheduler: the queue among 136 to 151 whose turn it is, its quantum given; a stopped
pair's queue waits. -/
def pickHost (s : State) : Option Nat × State :=
  let live := (List.range 16).filter (fun n => !ringStopped (ringRX n) s)
  pickQueue (fun q => (live.map (136 + ·)).contains q) (fun _ _ => true) pickFuel
    (eachOf (live.map (136 + ·)) (fun s q => sweepQueue q s) s)

/-- R294: does the engine come to host delivery: no command and no TX descriptor can be served before it. -/
def deliverReady (s : State) : Bool := hreServes s && s.host.flight.isNone && !cmdReady s && (txNext s).isNone

/-- HOST_DELIVERY (R270, R294, R296, R307): the head item of queue 136 + n, whose turn it is; `fl` is the free-list
descriptor read for it. -/
def execHostDelivery (n : Fin 16) (fl : Option DmaBytes) (s : State) : Res :=
  let k := n.val
  let q := 136 + k
  let rx := ringRX k
  let f := ringFL k
  done (if !deliverReady s then s
    else
      match pickHost s with
      | (none, s0) => s0
      | (some p, s0) =>
        if p != q then s
        else
          match qItems q s0 with
          | [] => s0
          | i :: _ =>
            if (hostless s0 && i.container) || !ringEnabled rx s0 || !ringEnabled f s0 || !ringHas f s0 || !ringRoom rx s0 then
              count C.HOST_RX_NOBUF (popHead q s0)
            else
              match fl with
              | none => s
              | some (.err c) => stopRing rx c.toNat s0
              | some (.ok b) =>
                if leNat (slice b 8 2) < i.bytes.length then count C.HOST_RX_TOOBIG (popHead q s0)
                else
                  let p := ringProd rx s0
                  let (desc, s1) := rxDescriptor (slice b 16 8) i (phaseBit rx p s0) (takeHead q s0).2
                  s1 |> dmaWrite (leNat (slice b 0 8)) i.bytes |> dmaWrite (descAddr rx p s1) desc
                     |> setProd rx (p + 1) |> setCons f (ringCons f s1 + 1) |> wantRing rx)

/-! ### Commands (R298-R301) -/

/-- Statuses of a command. -/
def cDONE : Nat := 0
def cBAD_OPCODE : Nat := 1
def cBAD_VALUE : Nat := 3
def cREFUSED : Nat := 4
def cLATE : Nat := 5
def cFULL : Nat := 6
def cDMA_ERR : Nat := 7

/-- How a command ends at once: status, SUBCODE and RESULT, or it waits. -/
inductive CmdEnd where
  | ends (status sub result : Nat)
  | waits
deriving DecidableEq, Repr

/-- Write a completion and advance CMD_CONS. -/
def cmdComplete (h : CmdHdr) (status sub result : Nat) (again : Bool) (s : State) : State :=
  let i := ringCons ringCMD s
  let b := bytesLE 5 result ++ [BitVec.ofNat 8 sub, BitVec.ofNat 8 status, BitVec.ofNat 8 (128 + 64 * b2n again)]
  let s1 := setCons ringCMD (i + 1) (dmaWrite (descAddr ringCMD i s + 24) b s)
  if h.irq then wantRing ringCMD s1 else s1

/-- R299, R301: keep the record of a command, the 64 most recent. -/
def cmdRecord (h : CmdHdr) (status sub result : Nat) (s : State) : State :=
  setHost (fun x => { x with records := (({ cseq := h.cseq.toNat, status, sub, result } : CmdRec) ::
    x.records.filter (fun r => r.cseq != h.cseq.toNat)).take 64 }) s

/-- R298, R299, R301: judge a command's CSEQ and run it; `post` is what follows its completion, given the status. -/
def runCmd (h : CmdHdr) (recorded : Bool) (act : State → CmdEnd × State) (s : State)
    (post : Nat → State → State := fun _ s => s) : State :=
  if !cmdReady s then s
  else
    let last := rd F.CMD_SEQ_LAST s
    let cs := h.cseq.toNat
    let held := on F.CMD_SEQ_VALID s
    let exec_ (s : State) : State :=
      match act s with
      | (.ends st sub res, s1) =>
        post st (cmdComplete h st sub res false (if recorded then cmdRecord h st sub res s1 else s1))
      | (.waits, s1) => setHost (fun x => { x with wait := some h }) s1
    if !held || cs == (last + 1) % 65536 then exec_ (wr F.CMD_SEQ_VALID 1 (wr F.CMD_SEQ_LAST cs s))
    else if (last + 65536 - cs) % 65536 ≤ 63 then
      match s.host.records.find? (fun r => r.cseq == cs) with
      | some r => cmdComplete h r.status r.sub r.result true (count C.CMD_REPEAT s)
      | none => exec_ s
    else cmdComplete h 2 0 0 false (count C.CMD_BAD_SEQ s)

/-- A waiting command completes: it is recorded, and answered where it still holds the ring (R305). -/
def finishWait (h : CmdHdr) (recorded : Bool) (status sub result : Nat) (s : State) : State :=
  let s1 := if recorded then cmdRecord h status sub result s else s
  if s1.host.wait == some h then
    let s2 := setHost (fun x => { x with wait := none }) s1
    if hreState s2 == hreRUNNING then cmdComplete h status sub result false s2 else s2
  else s1

/-! ### Host resets (R305) -/

/-- R305: every register of the ring engine that goes back to its default. -/
def hostRegs : List Nat :=
  [R.HRE_STOPPED, R.DB_PAGE, R.ST_PAGE, R.INT_CFG] ++
    (List.range 0x32).flatMap (fun r => [ringBase r, ringBase r + 8])

/-- R305: a host reset; `kind` as in event HOST_RESET. Configuration space and the MSI-X table are as after a reset, INTA
is deasserted, and the engine drains until the next building tick. -/
def hostResetOp (kind : Nat) (s : State) : State :=
  let s0 := whenB (on F.INT_CFG_INTX_PEND s) (emit (.intx false)) s
  let s1 := setHost (fun h => { h with pci := {}, pba := [] }) (clearRings s0)
  let s2 := { s1 with pcie := {} }
  let s3 := eachOf hostRegs (fun s r => setReg r (regDefault r) s) s2
  let mode := fput (regDefault R.RING_MODE) 0 0 (rd F.RING_MODE_HOSTLESS s3)
  s3 |> setReg R.RING_MODE mode |> wr F.HRE_CTRL_START 0 |> wr F.HRE_CTRL_STATE hreRESETTING
     |> raise E.HOST_RESET kind |> refreshHost

end Sys2Proof.Machine
end

