-- ==== Sys2Proof/Machine/Show.lean ====
section
/-! DEFINITION. The show ports: TDM audio, DMX512-A and RDM, timecode, MIDI, cue contacts, the express map and genlock
(spec/14_show_ports.md R331-R358). -/

namespace Sys2Proof.Machine

/-! ### Common rules -/

/-- R331: are the show ports live. -/
def showLive (s : State) : Bool := runOrFly s && domOn dSHW s

/-- Do show outputs run: while live, and not before the first ranging result (R14, R331). -/
def showOn (s : State) : Bool := showLive s && presentsNow s

/-- R289: is the host absent. -/
def hostAbsent (s : State) : Bool := on F.HRE_CTRL_HOST_ABSENT s

def dmxSt (u : Nat) (s : State) : DmxSt := s.show_.dmx.getD u {}
def setDmx (u : Nat) (f : DmxSt → DmxSt) (s : State) : State := setShow (fun w => { w with dmx := modAt w.dmx u f }) s
def ltcSt (k : Nat) (s : State) : LtcSt := s.show_.ltc.getD k {}
def setLtc (k : Nat) (f : LtcSt → LtcSt) (s : State) : State := setShow (fun w => { w with ltc := modAt w.ltc k f }) s

/-- Output groups, numbered as in event SHOW_IDLE. -/
def gTDM (k : Nat) : Nat := k
def gDMX (u : Nat) : Nat := 8 + u
def gLTC (k : Nat) : Nat := 16 + k
def gMIDI (k : Nat) : Nat := 18 + k
def gCUE : Nat := 20

def isStarted (g : Nat) (s : State) : Bool := s.show_.started.contains g

/-- An output starts with its first data (R331). -/
def startGroup (g : Nat) (s : State) : State :=
  if isStarted g s then s else setShow (fun w => { w with started := g :: w.started }) s

/-- An output takes its idle state. -/
def idleGroup (g : Nat) (s : State) : State := setShow (fun w => { w with started := w.started.filter (· != g) }) s

/-- R332: keep a capture item until the end of the tick. -/
def capture (q : Nat) (b : List Byte) (s : State) : State := setShow (fun w => { w with caps := w.caps ++ [(q, b)] }) s

/-- The first 7 bytes of a capture item: the tick stamp and the wc of an instant. -/
def instBytes (i : Inst) (s : State) : List Byte :=
  bytesBE 5 (stampOf (tickAdd s.bt (-(i.ago : Int)))).toNat ++ bytesBE 2 i.wc.toNat

/-! ### Configuration checks -/

def tdmSlots (k : Nat) (s : State) : Nat := 2 ^ (1 + rd (F.TDM_CFG_SLOTS k) s)
def tdmWidth (k : Nat) (s : State) : Nat := 16 + 8 * rd (F.TDM_CFG_WIDTH k) s

/-- Sample instants per tick (R334). -/
def tdmS (k : Nat) (s : State) : Nat := 1 + rd (F.TDM_CFG_RATE k) s

/-- R338. -/
def tdmBad (k : Nat) (s : State) : Bool :=
  rd (F.TDM_CFG_WIDTH k) s == 3 || decide (24576000 < 48000 * tdmS k s * tdmSlots k s * tdmWidth k s)

/-- R343 and the DMXk_CFG table. -/
def dmxBad (u : Nat) (s : State) : Bool :=
  let p := rd (F.DMX_CFG_PERIOD u) s
  let n := rd (F.DMX_CFG_SLOTS u) s
  decide (p < 58) || decide (60000 < p) || decide (n < 1) || decide (512 < n)

/-- R350: a START the drop-frame count skips, or the reserved source. -/
def ltcBad (k : Nat) (s : State) : Bool :=
  rd (F.LTC_CFG_SRC k) s == 3 ||
    (rd (F.LTC_CFG_RATE k) s == 2 && rd (F.LTC_START_FF k) s < 2 && rd (F.LTC_START_SS k) s == 0 &&
      rd (F.LTC_START_MM k) s % 10 != 0)

/-- R357. -/
def genBad (k : Nat) (s : State) : Bool :=
  let n := rd (F.GEN_CFG_NUM k) s
  let d := rd (F.GEN_CFG_DEN k) s
  n == 0 || d == 0 || decide (n < d) || decide (1000 * d < n)

/-- SHOW_STATUS as it reads. -/
def showStatusView (s : State) : Word :=
  let bits (base n : Nat) (bad : Nat → Bool) : Nat :=
    (List.range n).foldl (fun v k => if bad k then v + 2 ^ (base + k) else v) 0
  BitVec.ofNat 40 (bits 0 8 (fun k => tdmBad k s) + bits 8 8 (fun u => dmxBad u s) + bits 16 2 (fun k => ltcBad k s)
    + bits 20 4 (fun k => genBad k s))

/-- Is an output universe in use. -/
def dmxOut (u : Nat) (s : State) : Bool := on (F.DMX_CFG_ENABLE u) s && !on (F.DMX_CFG_IN u) s && !dmxBad u s

def tdmOut (k : Nat) (s : State) : Bool := on (F.TDM_CFG_OUT_EN k) s && !tdmBad k s
def ltcOut (k : Nat) (s : State) : Bool := on (F.LTC_CFG_OUT_EN k) s && !ltcBad k s

/-- R333: is a PARAM allowed for a show destination, with the registers as `look` gives them. -/
def showParamOk (dest param : Nat) (look : Nat → Word) : Bool :=
  let bit (f : Fld) : Bool := fget (look f.off) f.hi f.lo != 0
  match dest with
  | 3 => param / 128 == 0 && bit (F.TDM_CFG_OUT_EN (param % 8))
  | 4 =>
    let first := nbits param 12 3
    param / 2 ^ 13 == 0 && decide (1 ≤ first) && decide (first ≤ 512) && bit (F.DMX_CFG_ENABLE (param % 8)) &&
      !bit (F.DMX_CFG_IN (param % 8))
  | 5 =>
    param / 8 == 0 && (!nbit param 1 || bit (F.LTC_CFG_OUT_EN (param % 2))) &&
      (!nbit param 2 || bit (F.MIDI_CFG_OUT_EN (param % 2)))
  | 6 => param == 0
  | _ => false

/-! ### What feeds a port in a tick -/

/-- The items for a destination and PARAM test, in CONT_ID order (R333). -/
def feedsOf (due : List PresItem) (dest : Nat) (mine : Nat → Bool) : List PresItem :=
  (due.filter (fun i => i.dest == dest && mine i.param)).mergeSort (fun a b => decide (a.cont ≤ b.cont))

/-- Is a port named by a subscription of the data tick presented now. -/
def subscribed (dest : Nat) (mine : Nat → Bool) (s : State) : Bool :=
  (subsDue s).any (fun x => x.dest == dest && mine x.param)

/-- Data a show queue gave in the last tick. -/
def takenOf (q : Nat) (s : State) : Option (List Byte) := (s.show_.taken.find? (fun p => p.1 == q)).map Prod.snd

/-- A queue-fed output for which the last tick found nothing to take: HA_POLICY IDLE where that tick found the host absent
and the queue empty (R336), else R335. `idle` takes the output to its idle state. -/
def queueMissing (q g missing : Nat) (idle : State → State) (s : State) : State :=
  if s.show_.idleTaken.contains q then
    (if isStarted g s then raise E.SHOW_IDLE g (idle (idleGroup g s)) else s)
  else count missing s

/-! ### TDM audio (R338-R342) -/

/-- R341: one concealed word from the last original word at place `i` of the loss run. -/
def conceal (x : Word) (i : Nat) (s : State) : Word :=
  let h := rd F.SHOW_CFG_CONCEAL_HOLD s
  let f := max 1 (rd F.SHOW_CFG_CONCEAL_FADE s)
  let smp := toSigned 32 (x.toNat / 256)
  let (v, st) : Int × Nat :=
    if i ≤ h then (smp, 1)
    else if i < h + f then ((smp * ((h + f - i : Nat) : Int)).tdiv (f : Int), 2)
    else (0, 3)
  BitVec.ofNat 40 (ofSigned 32 v * 256 + st * 64 + x.toNat % 16)

/-- R339, R340: what a slot of width `w` carries of a sample word: its tag, and the sample cut to the width, zero with
MUTE set. -/
def slotWord (w : Nat) (x : Word) : Word :=
  let n := x.toNat
  let smp := if nbit n 4 then 0 else n / 256 / 2 ^ (32 - w) * 2 ^ (32 - w)
  BitVec.ofNat 40 (smp * 256 + n % 256)

/-- A received sample word presented as original: STATE 0b00 (R339). -/
def original (x : Word) : Word := fput x 7 6 0

/-- The S words a slot gets from Span containers: the highest CONT_ID wins (R333, R340). -/
def spanSlot (S j : Nat) (items : List (Nat × List Word)) : Option (List Word) :=
  items.foldl (fun acc it =>
    let c := it.2.length / S
    if it.1 ≤ j && j < it.1 + c then some ((List.range S).map (fun i => it.2.getD (i * c + (j - it.1)) 0)) else acc) none

/-- One slot for one tick: its words and the slot's new state. -/
def slotTick (S : Nat) (fed : Option (List Word)) (covered : Bool) (old : SlotSt) (s : State) : List Word × SlotSt :=
  match fed with
  | some ws =>
    let o := ws.map original
    (o, { last := o.getLastD 0, run := 0, fed := true })
  | none =>
    if covered && old.fed then (List.replicate S (conceal old.last (old.run + 1) s), { old with run := old.run + 1 })
    else (List.replicate S 0, {})

/-- The slots of a port from `j` on. -/
def slotsTick (k S : Nat) (fed : Nat → Option (List Word)) (covered : Nat → Bool) :
    (n j : Nat) → State → List (List Word) × State
  | 0, _, s => ([], s)
  | n + 1, j, s =>
    let key := 16 * k + j
    let (ws, st) := slotTick S (fed j) (covered j) (lget {} s.show_.slots key) s
    let s1 := setShow (fun w => { w with slots := lput {} key st w.slots }) s
    let (rest, s2) := slotsTick k S fed covered n (j + 1) s1
    (ws :: rest, s2)

/-- Forget a port's slots: it is idle. -/
def clearSlots (k : Nat) (s : State) : State :=
  setShow (fun w => { w with slots := w.slots.filter (fun p => p.1 / 16 != k) }) s

/-- R332, R340, R341: present one tick on a TDM port. A container whose LEN is no multiple of S is missing (R139). -/
def tdmPresent (due : List PresItem) (k : Nat) (s : State) : State :=
  if !tdmOut k s then clearSlots k (idleGroup (gTDM k) s)
  else
    let S := tdmS k s
    let n := tdmSlots k s
    let mine (p : Nat) : Bool := p % 8 == k
    let src := rd (F.TDM_CFG_SRC k) s
    let feeds := feedsOf due 3 mine
    let misfits := (feeds.filter (fun i => i.data.any (fun ws => ws.length % S != 0))).length
    let items := feeds.filterMap (fun i =>
      i.data.bind (fun ws => if ws.length % S == 0 then some (nbits i.param 6 3, ws) else none))
    let block := (takenOf (112 + k) s).map toWords
    let s0 := countN C.CONTAINER_MISSING misfits s
    let have_ := if src == 1 then block.isSome else !items.isEmpty
    let s1 :=
      if have_ then startGroup (gTDM k) s0
      else if src == 1 then
        queueMissing (112 + k) (gTDM k) C.SHOW_MISSING_AUD (clearSlots k) s0
      else if subscribed 3 mine s then count C.SHOW_MISSING_AUD s0 else s0
    if !isStarted (gTDM k) s1 then s1
    else
      let fed (j : Nat) : Option (List Word) :=
        if src == 1 then block.map (fun b => (List.range S).map (fun i => b.getD (i * n + j) 0)) else spanSlot S j items
      let covered (j : Nat) : Bool :=
        src == 1 || (subsDue s1).any (fun x => x.dest == 3 && mine x.param && decide (nbits x.param 6 3 ≤ j))
      let (ws, s2) := slotsTick k S fed covered n 0 s1
      emit (.tdm k ((List.range S).flatMap (fun i => ws.map (fun sl => slotWord (tdmWidth k s) (sl.getD i 0))))) s2

/-- R342: a captured sample word of a slot of width `w`: left-justified, CLIP at full scale. -/
def capturedWord (w : Nat) (x : Word) : Word × Bool :=
  let smp := x.toNat / 256 / 2 ^ (32 - w)
  let clip := smp == 2 ^ (w - 1) || smp == 2 ^ (w - 1) - 1
  (BitVec.ofNat 40 (smp * 2 ^ (32 - w) * 256 + b2n clip * 32), clip)

/-- R342: the capture of one TDM port for the tick now ended. -/
def tdmCapture (k : Nat) (words : List Word) (s : State) : State :=
  if !on (F.TDM_CFG_IN_EN k) s || tdmBad k s then s
  else
    let n := tdmSlots k s * tdmS k s
    let cs := ((words ++ List.replicate n 0).take n).map (capturedWord (tdmWidth k s))
    capture (rd (F.TDM_CFG_IN_QUEUE k) s) (toBytes (cs.map Prod.fst))
      (countN C.AUD_IN_CLIP (cs.filter Prod.snd).length s)

/-! ### Taking from show queues (R334) -/

/-- Take the next `n` bytes of the head item; the item leaves with its last byte. -/
def takeBlock (q n : Nat) (s : State) : Option (List Byte) × State :=
  match qItems q s with
  | [] => (none, s)
  | i :: r =>
    if !shaperOpen q s then (none, s)
    else
      let b := (i.bytes.drop i.sent).take n
      let s1 := if i.bytes.length ≤ i.sent + n then giveCells (sinkOf q) i.cells (setItems q r s)
                else setItems q ({ i with sent := i.sent + n } :: r) s
      (some b, afterSend q n s1)

/-- Discard head items that do not fit the format of the queue, and count each. -/
def dropBadItems (q : Nat) (ok : List Byte → Bool) : (fuel : Nat) → State → State
  | 0, s => s
  | fuel + 1, s =>
    match qItems q s with
    | [] => s
    | i :: _ => if ok i.bytes then s else dropBadItems q ok fuel (count C.SHOW_ITEM_BAD (popHead q s))

/-- Take one tick's quantity; `n = none` takes a whole item, and `fits` may leave the head queued. An empty-handed take
counts SHOW_UNDERRUN (R335) unless HA_POLICY is followed instead (R336). -/
def takeShow (q haPolicy : Nat) (ok fits : List Byte → Bool) (n : Option Nat) (s : State) : State :=
  let s1 := dropBadItems q ok ((qItems q s).length) (sweepQueue q s)
  let want := (qItems q s1).head?.any (fun i => fits i.bytes)
  let (r, s2) := if !want then (none, s1)
    else match n with
      | some m => takeBlock q m s1
      | none => let (i, s2) := takeHead q s1; (i.map Item.bytes, s2)
  match r with
  | some b => setShow (fun w => { w with taken := w.taken ++ [(q, b)] }) s2
  | none =>
    if hostAbsent s2 && haPolicy == 1 && (qItems q s2).isEmpty then
      setShow (fun w => { w with idleTaken := q :: w.idleTaken }) s2
    else count C.SHOW_UNDERRUN s2

/-! ### DMX512-A and RDM (R343-R347) -/

/-- R344: put bytes into the slot buffer from a slot on; slots outside 1 to 512 are ignored. -/
def dmxFill (u first : Nat) (bytes : List Byte) (s : State) : State :=
  let put (m : List (Nat × Byte)) (p : Byte × Nat) : List (Nat × Byte) :=
    let slot := first + p.2
    if 1 ≤ slot && slot ≤ 512 then lput 0 slot p.1 m else m
  setDmx u (fun d => { d with buf := bytes.zipIdx.foldl put d.buf, quiet := 0 }) s

/-- The slots a NULL packet carries. -/
def dmxSlots (u : Nat) (s : State) : List Byte :=
  (List.range (rd (F.DMX_CFG_SLOTS u) s)).map (fun j => lget 0 (dmxSt u s).buf (j + 1))

/-- Ticks a packet of `n` slots holds the line: break, mark and n + 1 slots of 44 us; one tick is 125/6 us. -/
def dmxTicks (n : Nat) (s : State) : Nat :=
  let brk := max 92 (min 1000 (rd F.DMX_TIMING_BREAK s))
  let mab := max 12 (min 1000 (rd F.DMX_TIMING_MAB s))
  ((brk + mab + 44 * (n + 1)) * 6 + 124) / 125

/-- Is the line free at this tick. -/
def dmxFree (u : Nat) (s : State) : Bool :=
  (dmxSt u s).rdm.isNone && (dmxSt u s).busyTo.all (fun t => tickDue t s.bt)

/-- Hold the line for some ticks from now. -/
def dmxHold (u n : Nat) (s : State) : State := setDmx u (fun d => { d with busyTo := some (tickAdd s.bt n) }) s

/-- Send a NULL packet from the buffer as it stands. -/
def dmxSend (u : Nat) (s : State) : State :=
  let b := dmxSlots u s
  setDmx u (fun d => { d with gap := true }) (dmxHold u (dmxTicks b.length s) (emit (.dmx u (0 :: b)) s))

/-- R344: what an item of the universe's queue carries: a slot run, an RDM request or an alternate start code packet. -/
def dmxItem (u : Nat) (b : List Byte) (s : State) : State :=
  let sc := byteAt b 2
  if sc == 0 then dmxFill u (byteAt b 0 * 256 + byteAt b 1) (b.drop 3) s
  else if sc == 0xCC then
    whenB (on (F.DMX_CFG_RDM_EN u) s) (setDmx u (fun d => { d with requests := d.requests ++ [b.drop 3] })) s
  else setDmx u (fun d => { d with alternates := d.alternates ++ [b.drop 2] }) s

/-- R335: a tick in which nothing came for the universe. -/
def dmxMissed (u : Nat) (s : State) : State :=
  let s1 := setDmx u (fun d => { d with quiet := d.quiet + 1 }) s
  if on (F.DMX_CFG_SRC u) s1 then
    queueMissing (120 + u) (gDMX u) C.SHOW_MISSING_DMX id s1
  else whenB (subscribed 4 (fun p => p % 8 == u) s1) (count C.SHOW_MISSING_DMX) s1

/-- R344: an alternate start code packet goes out in the gap after a NULL packet. -/
def dmxGap (u : Nat) (s : State) : State :=
  match (dmxSt u s).alternates with
  | [] => s
  | a :: r =>
    if dmxFree u s && !(dmxSt u s).breakDue && (dmxSt u s).gap then
      dmxHold u (dmxTicks (a.length - 1) s) (emit (.dmx u a) (setDmx u (fun d => { d with alternates := r }) s))
    else s

/-- R343: a break is due at every PERIOD-th tick. -/
def dmxClock (u : Nat) (s : State) : State :=
  whenB (s.bt % rd (F.DMX_CFG_PERIOD u) s == 0 && isStarted (gDMX u) s) (setDmx u (fun d => { d with breakDue := true })) s

/-- R344: one tick's data of a universe: containers first, then a queue item. -/
def dmxPresent (due : List PresItem) (u : Nat) (s : State) : State :=
  if !dmxOut u s then
    setDmx u (fun d => { d with breakDue := false, gap := false, goDue := false }) (idleGroup (gDMX u) s)
  else
    let feeds := (feedsOf due 4 (fun p => p % 8 == u)).filterMap
      (fun i => i.data.map (fun ws => (nbits i.param 12 3, toBytes ws)))
    let item := if on (F.DMX_CFG_SRC u) s then takenOf (120 + u) s else none
    let s1 := eachOf item.toList (fun s b => dmxItem u b s) (eachOf feeds (fun s f => dmxFill u f.1 f.2 s) s)
    dmxGap u (dmxClock u (if !feeds.isEmpty || item.isSome then startGroup (gDMX u) s1 else dmxMissed u s1))

/-- R347: what a discovery starts with: every responder is un-muted, and the whole range of UIDs is searched. -/
def discStart : Disc := { todo := [.unmute, .branch 0 0xFFFFFFFFFFFE] }

/-- R347: discovery is due on entry to RUNNING and whenever RDM_EN changes to 1. -/
def rdmArm (entered : Bool) (u : Nat) (s : State) : State :=
  let en := dmxOut u s && on (F.DMX_CFG_RDM_EN u) s
  setDmx u (fun d => { d with
    disc := if !en then none else if entered || !d.rdmWas then some discStart else d.disc, rdmWas := en }) s

/-- DMX_BREAK (R343, R344): a scheduled break, at its tick or at the first boundary at which the line is free. -/
def execDmxBreak (u : Fin 8) (s : State) : Res :=
  let n := u.val
  done (if showOn s && dmxOut n s && isStarted (gDMX n) s && (dmxSt n s).breakDue && dmxFree n s then
      dmxSend n (setDmx n (fun d => { d with breakDue := false }) s)
    else s)

/-- Sum of bytes. -/
def byteSum (b : List Byte) : Nat := b.foldl (fun n x => n + x.toNat) 0

/-- An ANSI E1.20 request from its sub-start code on, with its checksum. The source UID, the transaction number and the
port ID are free values: the spec gives none. -/
def rdmRequest (dest cc pid : Nat) (pd : List Byte) (s : State) : List Byte × State :=
  let (x, s1) := fresh 64 s
  let b := [1, BitVec.ofNat 8 (24 + pd.length)] ++ bytesBE 6 dest ++ bytesBE 8 x.toNat ++ [0, 0, 0, BitVec.ofNat 8 cc] ++
    bytesBE 2 pid ++ [BitVec.ofNat 8 pd.length] ++ pd
  (b ++ bytesBE 2 (0xCC + byteSum b), s1)

/-- R347: the request of a discovery step: DISC_UN_MUTE, DISC_UNIQUE_BRANCH or DISC_MUTE (ANSI E1.20). -/
def discRequest (t : DiscTask) (s : State) : List Byte × State :=
  match t with
  | .unmute => rdmRequest 0xFFFFFFFFFFFF 0x10 3 [] s
  | .branch lo hi => rdmRequest 0xFFFFFFFFFFFF 0x10 1 (bytesBE 6 lo ++ bytesBE 6 hi) s
  | .mute uid _ _ => rdmRequest uid 0x10 2 [] s

/-- R347: does discovery send the next request: it takes turns with queued ones. -/
def discTurn (d : DmxSt) : Option DiscTask :=
  match d.disc with
  | none => none
  | some x => if d.requests.isEmpty || x.turn then x.todo.head? else none

/-- R346: send a request. -/
def rdmSend (n : Nat) (r : List Byte) (s : State) : State :=
  emit (.rdm n (0xCC :: r)) (setDmx n (fun d => { d with rdm := some (r, stampOf s.bt), gap := false }) s)

/-- RDM_TRANSACTION (R346, R347): in the gap after a NULL packet the next request is sent. -/
def execRdmTransaction (u : Fin 8) (s : State) : Res :=
  let n := u.val
  let d := dmxSt n s
  done (if !(showOn s && dmxOut n s && on (F.DMX_CFG_RDM_EN n) s && d.gap && dmxFree n s && !d.breakDue) then s
    else
      match discTurn d with
      | some t =>
        let (r, s1) := discRequest t s
        rdmSend n r (setDmx n (fun d => { d with disc := d.disc.map (fun x => { x with active := true, turn := false }) }) s1)
      | none =>
        match d.requests with
        | [] => s
        | r :: rest =>
          rdmSend n r (setDmx n (fun d => { d with
            requests := rest, disc := d.disc.map (fun x => { x with turn := true }) }) s))

/-- Is a request (from its sub-start code on) a DISC_UNIQUE_BRANCH, by ANSI E1.20. -/
def isDub (r : List Byte) : Bool := byteAt r 19 == 0x10 && byteAt r 20 == 0 && byteAt r 21 == 1

/-- Is it addressed to a broadcast UID. -/
def isBroadcast (r : List Byte) : Bool := (slice r 4 4).all (· == 0xFF)

/-- The checksum of an RDM response, by ANSI E1.20. -/
def rdmSumOk (b : List Byte) : Bool :=
  let n := byteAt b 2
  byteAt b 0 == 0xCC && decide (n + 2 ≤ b.length) && beNat (slice b n 2) == byteSum (b.take n) % 65536

/-- The checksum of a DISC_UNIQUE_BRANCH response, by ANSI E1.20: an encoded UID after the 0xAA separator. -/
def dubSumOk (b : List Byte) : Bool :=
  let e := (b.dropWhile (· == 0xFE)).drop 1
  let hi := (e.getD 12 0 &&& e.getD 13 0).toNat
  let lo := (e.getD 14 0 &&& e.getD 15 0).toNat
  (b.dropWhile (· == 0xFE)).head? == some 0xAA && decide (16 ≤ e.length) &&
    hi * 256 + lo == byteSum (e.take 12) % 65536

/-- R346: the status of a transaction. -/
def rdmStatus (r bytes : List Byte) (framingErr : Bool) : Nat :=
  if isBroadcast r && !isDub r then 4
  else if framingErr then 2
  else if bytes.isEmpty then 1
  else if isDub r then (if dubSumOk bytes then 3 else 2)
  else if rdmSumOk bytes then 0 else 2

/-- Queue an item on DMX_TIMING.RDM_QUEUE. -/
def rdmItem (status u : Nat) (stamp : Word) (bytes : List Byte) (s : State) : State :=
  capture (rd F.DMX_TIMING_RDM_QUEUE s)
    ([BitVec.ofNat 8 status, BitVec.ofNat 8 u] ++ bytesBE 5 stamp.toNat ++ bytes) s

/-- The UID a DISC_UNIQUE_BRANCH response encodes, by ANSI E1.20. -/
def dubUid (b : List Byte) : Nat :=
  let e := (b.dropWhile (· == 0xFE)).drop 1
  beNat ((List.range 6).map (fun i => e.getD (2 * i) 0 &&& e.getD (2 * i + 1) 0))

/-- R347: search the two halves of a range, or give a single UID up. -/
def discSplit (lo hi : Nat) (rest : List DiscTask) : List DiscTask :=
  if lo < hi then .branch lo ((lo + hi) / 2) :: .branch ((lo + hi) / 2 + 1) hi :: rest else rest

/-- R347: a discovery's step has ended with a status of R346; binary search by ANSI E1.20. A range with a collision is
halved, a single UID is muted, and a range is searched again after the responder found in it is muted. -/
def discStep (status : Nat) (bytes : List Byte) (x : Disc) : Disc :=
  let y : Disc := { x with active := false }
  match x.todo with
  | [] => y
  | .unmute :: rest => { y with todo := rest }
  | .branch lo hi :: rest =>
    if status == 1 then { y with todo := rest }
    else if status == 3 && !x.found.contains (dubUid bytes) then { y with todo := .mute (dubUid bytes) lo hi :: rest }
    else if lo == hi && !x.found.contains lo then { y with todo := .mute lo lo hi :: rest }
    else { y with todo := discSplit lo hi rest }
  | .mute uid lo hi :: rest =>
    if status == 0 then { y with todo := .branch lo hi :: rest, found := x.found ++ [uid] }
    else { y with todo := discSplit lo hi rest }

/-- Is the request on the line the discovery's. -/
def discActive (n : Nat) (s : State) : Bool := (dmxSt n s).disc.any Disc.active

/-- R346: the item of a transaction; a discovery's requests give none of their own. -/
def rdmResult (n st : Nat) (stamp : Word) (bytes : List Byte) (s : State) : State :=
  if discActive n s then setDmx n (fun d => { d with disc := d.disc.map (discStep st bytes) }) s
  else rdmItem st n stamp (if st == 4 then [] else bytes) s

/-- RDM_TRANSACTION_END (R346, R347): the response has ended or the listen time has run out. -/
def execRdmTransactionEnd (u : Fin 8) (bytes : List Byte) (framingErr : Bool) (s : State) : Res :=
  let n := u.val
  done (match (dmxSt n s).rdm with
    | none => s
    | some (r, stamp) =>
      let st := rdmStatus r bytes framingErr
      let s1 := s |> setDmx n (fun d => { d with rdm := none }) |> dmxHold n 9
                  |> whenB (st == 1) (count C.RDM_TIMEOUT) |> whenB (st == 2) (count C.RDM_BAD)
                  |> rdmResult n st stamp bytes
      if (dmxSt n s1).goDue then dmxSend n (setDmx n (fun d => { d with goDue := false }) s1) else s1)

/-- R347: the responders of a discovery whose search is over. -/
def discOver (n : Nat) (s : State) : Option (List Nat) :=
  match (dmxSt n s).disc with
  | none => none
  | some x => if x.todo.isEmpty && !x.active then some x.found else none

/-- RDM_DISCOVERY (R347): the search has ended: the responders it found are delivered. -/
def execRdmDiscovery (u : Fin 8) (s : State) : Res :=
  let n := u.val
  done (match discOver n s with
    | none => s
    | some uids =>
      if !showOn s then s
      else
        let st := stampOf s.bt
        let s1 := eachOf uids (fun s x => rdmItem 5 n st (bytesBE 6 x) s)
          (setDmx n (fun d => { d with disc := none }) s)
        raise E.RDM_DISC_DONE (n + 8 * (uids.length % 2 ^ 13)) (rdmItem 6 n st [] s1))

/-- DMX_RX_PACKET (R345): `bytes` are the start code and the slots. -/
def execDmxRxPacket (u : Fin 8) (start : Inst) (breakUs mabUs : Nat) (framingErr : Bool) (bytes : List Byte)
    (s : State) : Res :=
  let n := u.val
  done (if !(showLive s && on (F.DMX_CFG_ENABLE n) s && on (F.DMX_CFG_IN n) s) then s
    else if breakUs < 88 || mabUs < 8 then count C.DMX_RX_BAD s
    else
      let item := instBytes start s ++ [BitVec.ofNat 8 (b2n framingErr)] ++ bytesBE 2 (bytes.length - 1) ++ bytes
      capture (rd (F.DMX_CFG_IN_QUEUE n) s) item (count (if framingErr then C.DMX_RX_BAD else C.DMX_RX_PKT) s))

/-- DMX_LOSS (R335): LOSS cycles without data take the universe to idle where LOSS_ACT is set. -/
def execDmxLoss (u : Fin 8) (s : State) : Res :=
  let n := u.val
  let l := rd F.DMX_TIMING_LOSS s
  done (if showOn s && dmxOut n s && on (F.DMX_CFG_LOSS_ACT n) s && l != 0 && decide (48 * l ≤ (dmxSt n s).quiet) then
      setDmx n (fun d => { d with breakDue := false }) (idleGroup (gDMX n) s)
    else s)

/-! ### LTC (R349-R351) -/

/-- Frames per second the count runs at. -/
def ltcFps (rate : Nat) : Nat := [24, 25, 30, 30].getD rate 25

/-- Length of a frame in phases: 2000, 1920, 1601.6 or 1600 ticks. -/
def ltcLen (rate : Nat) : Nat := [20000, 19200, 16016, 16000].getD rate 19200 * 26624

/-- Frames since 00:00:00:00 of a timecode, with the drop-frame rule at 29.97. -/
def ltcCount (rate h m sec f : Nat) : Nat :=
  let mins := h * 60 + m
  (mins * 60 + sec) * ltcFps rate + f - (if rate == 2 then 2 * (mins - mins / 10) else 0)

/-- Frames in a day. -/
def ltcDay (rate : Nat) : Nat := if rate == 2 then 2589408 else 86400 * ltcFps rate

/-- Hours, minutes, seconds and frames of a count. -/
def ltcTime (rate n0 : Nat) : Nat × Nat × Nat × Nat :=
  let n1 := n0 % ltcDay rate
  let r := n1 % 17982
  let n := if rate == 2 then n1 + 18 * (n1 / 17982) + (if 2 ≤ r then 2 * ((r - 2) / 1798) else 0) else n1
  let fps := ltcFps rate
  (n / (fps * 3600), n / (fps * 60) % 60, n / fps % 60, n % fps)

/-- ST 12-1: the data bits that hold the time digits, and the polarity-correction bit. -/
def ltcTimeMask : Nat := 0x0000000000000000 + 0x30F + 0x70F0000 + 0x70F * 2 ^ 32 + 0x30F * 2 ^ 48
def ltcPolBit (rate : Nat) : Nat := if rate == 1 then 59 else 27

/-- Number of ones in the low 64 bits. -/
def ones64 (n : Nat) : Nat := ((List.range 64).filter (nbit n)).length

/-- Data bits with the given time and the other bits of `other`; the polarity bit makes the number of zeros of the 80
bits even (ST 12-1). -/
def ltcBits (rate other : Nat) (t : Nat × Nat × Nat × Nat) : Nat :=
  let bcd (n : Nat) : Nat := n % 10 + n / 10 * 256
  let (h, m, sec, f) := t
  let keep := ((List.range 64).filter (fun i => nbit other i && !nbit ltcTimeMask i && i != ltcPolBit rate)).foldl
    (fun a i => a + 2 ^ i) 0
  let v := keep + bcd f + bcd sec * 2 ^ 16 + bcd m * 2 ^ 32 + bcd h * 2 ^ 48
  if ones64 v % 2 == 0 then v + 2 ^ ltcPolBit rate else v

/-- The time digits of data bits. -/
def ltcDigits (v : Nat) : Nat × Nat × Nat × Nat :=
  (nbits v 51 48 + 10 * nbits v 57 56, nbits v 35 32 + 10 * nbits v 42 40, nbits v 19 16 + 10 * nbits v 26 24,
    nbits v 3 0 + 10 * nbits v 9 8)

/-- R350: data bits of frame `n` in GEN mode. -/
def ltcGenBits (k n : Nat) (s : State) : Nat :=
  let rate := rd (F.LTC_CFG_RATE k) s
  let c := ltcCount rate (rd (F.LTC_START_HH k) s) (rd (F.LTC_START_MM k) s) (rd (F.LTC_START_SS k) s)
    (rd (F.LTC_START_FF k) s)
  ltcBits rate (if rate == 2 then 2 ^ 10 else 0) (ltcTime rate (c + n))

/-- R349: send a codeword: its 8 data bytes and the sync word. -/
def ltcSend (k : Nat) (b : List Byte) (s : State) : State := emit (.ltc k (slice b 0 8 ++ [0xFC, 0xBF])) s

/-- Phases in a tick. -/
def phasesPerTick : Nat := 266240

/-- The frame of GEN mode that begins in this tick, if one does. -/
def ltcGenDue (k : Nat) (s : State) : Option Nat :=
  let d := tickDiff s.bt (stampTick s.bt (reg (R.LTC_ORIGIN k) s))
  if d < 0 then none
  else
    let a := d.toNat * phasesPerTick
    let L := ltcLen (rd (F.LTC_CFG_RATE k) s)
    let n := (a + L - 1) / L
    if n * L < a + phasesPerTick then some n else none

/-- Is a frame being sent at wc 0 of this tick (SPAN and QUEUE). -/
def ltcBusy (k : Nat) (s : State) : Bool :=
  (ltcSt k s).began.any (fun b => decide (s.bt * phasesPerTick < b + ltcLen (rd (F.LTC_CFG_RATE k) s)))

/-- R350: the next frame's data bits in free run. -/
def ltcNext (k : Nat) (b : List Byte) (s : State) : List Byte :=
  let rate := rd (F.LTC_CFG_RATE k) s
  let v := leNat b
  let (h, m, sec, f) := ltcDigits v
  bytesLE 8 (ltcBits rate v (ltcTime rate (ltcCount rate h m sec f + 1)))

/-- R350: a frame begins at `at_` (in phases) with a record's or an item's data bits. -/
def ltcStart (n at_ : Nat) (b : List Byte) (s : State) : State :=
  ltcSend n b (setLtc n (fun l => { l with last := some b, began := some at_, freewheel := 0 }) s)

/-- R350: no data is there at the moment a frame is due: the last frame plus one, for up to FREEWHEEL frames, then idle. -/
def ltcFree (n at_ : Nat) (b : List Byte) (s : State) : State :=
  let l := ltcSt n s
  if l.freewheel < rd (F.LTC_CFG_FREEWHEEL n) s then
    let nb := ltcNext n b s
    ltcSend n nb (count C.LTC_FREEWHEEL
      (setLtc n (fun l => { l with last := some nb, began := some at_, freewheel := l.freewheel + 1 }) s))
  else setLtc n (fun l => { l with last := none, began := none, freewheel := 0 }) (idleGroup (gLTC n) s)

/-- R350: a frame of SPAN or QUEUE data. What is presented now starts now; a waiting record, or the free run, begins one
frame time after the last frame. An item taken in this tick starts at the next boundary. -/
def ltcFed (n : Nat) (s : State) : State :=
  let l := ltcSt n s
  let now := s.bt * phasesPerTick
  let next := match l.began with
    | some b => b + ltcLen (rd (F.LTC_CFG_RATE n) s)
    | none => now
  match l.first with
  | some b => ltcStart n now b (setLtc n (fun l => { l with first := none }) s)
  | none =>
    if now + phasesPerTick ≤ next then s
    else
      match l.waiting, l.last with
      | some b, _ => ltcStart n (max now next) b (setLtc n (fun l => { l with waiting := none }) s)
      | none, some b =>
        if rd (F.LTC_CFG_SRC n) s == 2 && (takenOf (128 + n) s).isSome then s else ltcFree n (max now next) b s
      | none, none => s

/-- LTC_FRAME (R350): a frame is due in this tick. -/
def execLtcFrame (k : Fin 2) (s : State) : Res :=
  let n := k.val
  done (if !(showOn s && ltcOut n s) then s
    else if rd (F.LTC_CFG_SRC n) s == 0 then
      match ltcGenDue n s with
      | none => s
      | some i =>
        if (ltcSt n s).frame == some i then s
        else ltcSend n (bytesLE 8 (ltcGenBits n i s)) (setLtc n (fun l => { l with frame := some i }) s)
    else ltcFed n s)

/-- LTC_RX_CODEWORD (R351). -/
def execLtcRxCodeword (k : Fin 2) (at_ : Inst) (bits : BitVec 64) (reverse : Bool) (rate : BitVec 3) (good : Bool)
    (s : State) : Res :=
  let n := k.val
  done (if !(showLive s && on (F.LTC_CFG_IN_EN n) s) then s
    else if !good then count C.LTC_RX_BAD s
    else
      let (h, m, sec, f) := ltcDigits bits.toNat
      let rx := 2 ^ 39 + b2n reverse * 2 ^ 38 + rate.toNat * 2 ^ 35 + h % 32 * 2 ^ 17 + m % 64 * 2 ^ 11 + sec % 64 * 2 ^ 5
        + f % 32
      let item := instBytes at_ s ++ [BitVec.ofNat 8 (b2n reverse + 2 * rate.toNat)] ++ bytesLE 8 bits.toNat
      s |> count C.LTC_RX_FRAME |> setReg (R.LTC_RX n) (BitVec.ofNat 40 rx)
        |> capture (rd (F.LTC_CFG_IN_QUEUE n) s) item)

/-! ### Timecode and MIDI records (R348, R352, R353) -/

/-- The records of a byte stream, and whether parsing ended on a bad one. -/
def parseRecords : (fuel : Nat) → List Byte → List (Nat × List Byte) × Bool
  | 0, _ => ([], false)
  | _ + 1, [] => ([], false)
  | fuel + 1, h :: r =>
    let typ := h.toNat / 16
    let n := h.toNat % 16
    if typ == 0 then ([], false)
    else if (typ == 1 && n == 8 || typ == 2 && decide (1 ≤ n)) && decide (n ≤ r.length) then
      let (rest, bad) := parseRecords fuel (r.drop n)
      ((typ, r.take n) :: rest, bad)
    else ([], true)

def midiFifo (k : Nat) (s : State) : List Byte := s.show_.midi.getD k []

/-- R352: bytes enter an output's FIFO; the first into an idle output starts at once. -/
def midiPush (k : Nat) (bytes : List Byte) (s : State) : State :=
  eachOf bytes (fun s b =>
    if !s.show_.midiBusy.getD k false then
      emit (.midi k b) (setShow (fun w => { w with midiBusy := setAt w.midiBusy k true }) s)
    else if 64 ≤ (midiFifo k s).length then count C.MIDI_TX_OVERFLOW s
    else setShow (fun w => { w with midi := modAt w.midi k (· ++ [b]) }) s) s

/-- The records of one container for output `k`, as PARAM selects them. -/
def recordsFor (i : PresItem) (s : State) : List (Nat × List Byte) × State :=
  match i.data with
  | none => ([], s)
  | some ws =>
    let b := toBytes ws
    let (rs, bad) := parseRecords (b.length + 1) b
    (rs.filter (fun r => nbit i.param r.1), whenB bad (count C.SHOW_RECORD_BAD) s)

/-- Collect the records of several containers. -/
def allRecords : List PresItem → State → List (Nat × List Byte) × State
  | [], s => ([], s)
  | i :: r, s =>
    let (a, s1) := recordsFor i s
    let (b, s2) := allRecords r s1
    (a ++ b, s2)

/-- R348, R350, R352: one tick of timecode output `k` and MIDI output `k`. -/
def tcPresent (due : List PresItem) (k : Nat) (s : State) : State :=
  let items := feedsOf due 5 (fun p => p % 2 == k)
  let (rs, s0) := allRecords items s
  let has (bit : Nat) : Bool := items.any (fun i => i.data.isSome && nbit i.param bit)
  let sub (bit : Nat) : Bool := subscribed 5 (fun p => p % 2 == k && nbit p bit) s
  let wait (b : List Byte) (s : State) : State :=
    let l := ltcSt k s
    let free := !ltcBusy k s && l.first.isNone && l.waiting.isNone
    startGroup (gLTC k) (setLtc k (fun l => if free then { l with first := some b } else { l with waiting := some b }) s)
  let stop (s : State) : State := setLtc k (fun _ => {}) s
  let s1 :=
    if !ltcOut k s0 then stop (idleGroup (gLTC k) s0)
    else
      match rd (F.LTC_CFG_SRC k) s0 with
      | 1 =>
        let s1 := eachOf (rs.filter (fun r => r.1 == 1)) (fun s r => wait r.2 s) s0
        if sub 1 && !has 1 then count C.SHOW_MISSING_TC s1 else s1
      | 2 =>
        match takenOf (128 + k) s0 with
        | some b => wait b s0
        | none => queueMissing (128 + k) (gLTC k) C.SHOW_MISSING_TC stop s0
      | _ => s0
  let clear (s : State) : State :=
    setShow (fun w => { w with midi := setAt w.midi k [], midiBusy := setAt w.midiBusy k false }) s
  if !on (F.MIDI_CFG_OUT_EN k) s1 then clear (idleGroup (gMIDI k) s1)
  else if on (F.MIDI_CFG_SRC k) s1 then
    match takenOf (130 + k) s1 with
    | some b => midiPush k b (startGroup (gMIDI k) s1)
    | none => queueMissing (130 + k) (gMIDI k) C.SHOW_MISSING_TC clear s1
  else
    let s2 := midiPush k ((rs.filter (fun r => r.1 == 2)).flatMap Prod.snd) s1
    if has 2 then startGroup (gMIDI k) s2
    else if sub 2 then count C.SHOW_MISSING_TC s2 else s2

/-- MIDI_TX_BYTE (R352): the byte on the wire has ended; the next follows back to back. -/
def execMidiTxByte (k : Fin 2) (s : State) : Res :=
  let n := k.val
  done (if !s.show_.midiBusy.getD n false then s
    else
      match midiFifo n s with
      | [] => setShow (fun w => { w with midiBusy := setAt w.midiBusy n false }) s
      | b :: r => emit (.midi n b) (setShow (fun w => { w with midi := setAt w.midi n r }) s))

/-- MIDI_RX_BYTE (R353). -/
def execMidiRxByte (k : Fin 2) (at_ : Inst) (b : Byte) (framingErr : Bool) (s : State) : Res :=
  let n := k.val
  done (if !(showLive s && on (F.MIDI_CFG_IN_EN n) s) then s
    else if framingErr then count C.MIDI_RX_ERR s
    else capture (rd (F.MIDI_CFG_IN_QUEUE n) s) (instBytes at_ s ++ [b]) s)

/-! ### Cue contacts (R354-R356) -/

/-- Is contact `n` an output. -/
def cueIsOut (n : Nat) (s : State) : Bool := decide (n < 24) && nbit (rd F.CUE_CFG_DIR s) n

/-- Set one output contact, and tell the pin when it changes. -/
def cueSet (n : Nat) (closed fromQueue : Bool) (s : State) : State :=
  let bit : BitVec 24 := BitVec.ofNat 24 (2 ^ n)
  let upd (v : BitVec 24) (b : Bool) : BitVec 24 := if b then v ||| bit else v &&& ~~~bit
  let s1 := setShow (fun w => { w with cueOut := upd w.cueOut closed, cueFromQueue := upd w.cueFromQueue fromQueue }) s
  if nbit s.show_.cueOut.toNat n == closed then s1 else emit (.cue n closed) s1

/-- R355: apply STATE where MASK is 1 and the contact is an output. -/
def cueApply (st mask : Nat) (fromQueue : Bool) (s : State) : State :=
  eachOf (List.range 24) (fun s n => if nbit mask n && cueIsOut n s then cueSet n (nbit st n) fromQueue s else s) s

/-- R336: only the outputs last set from the queue are opened. -/
def cueOpenQueued (s : State) : State :=
  let m := s.show_.cueFromQueue.toNat
  eachOf (List.range 24) (fun s n => if nbit m n && cueIsOut n s then cueSet n false false s else s) s

/-- CUE_STATE as it reads: the level of every contact. -/
def cueStateView (s : State) : Word :=
  let dir := rd F.CUE_CFG_DIR s
  let lv := rd F.CUE_STATE_LEVEL s
  let v := (List.range 24).foldl (fun a n =>
    a + (if nbit dir n then b2n (nbit s.show_.cueOut.toNat n) else b2n (nbit lv n)) * 2 ^ n) 0
  BitVec.ofNat 40 (v * 2 ^ 16)

/-- One tick of the contacts: container data, then queue data. A container of a LEN other than 2 is missing (R139, R355). -/
def cuePresent (due : List PresItem) (s : State) : State :=
  let all := feedsOf due 6 (fun _ => true)
  let s0 := countN C.CONTAINER_MISSING (all.filter (fun i => i.data.any (fun ws => ws.length != 2))).length s
  let feeds := all.filterMap (fun i => i.data.bind (fun ws =>
    if ws.length == 2 then some (fget (ws.getD 0 0) 39 16, fget (ws.getD 1 0) 39 16) else none))
  let s1 := eachOf feeds (fun s f => cueApply f.1 f.2 false s) s0
  let s2 := if feeds.isEmpty && subscribed 6 (fun _ => true) s1 then count C.SHOW_MISSING_CUE s1 else s1
  match takenOf 132 s2 with
  | some b => startGroup gCUE (cueApply (beNat (b.take 3)) (beNat (b.drop 3)) true s2)
  | none =>
    if isStarted gCUE s2 then
      queueMissing 132 gCUE C.SHOW_MISSING_CUE cueOpenQueued s2
    else s2

/-- CUE_EDGE (R354): an input's new level has been stable for DEBOUNCE ticks; `at_` is its first transition. An edge to the
level already reported is none. -/
def execCueEdge (n : Fin 24) (closed : Bool) (at_ : Inst) (s : State) : Res :=
  let k := n.val
  let lv := rd F.CUE_STATE_LEVEL s
  done (if cueIsOut k s || nbit lv k == closed || at_.ago != rd F.CUE_CFG_DEBOUNCE s then s
    else
      let s1 := wr F.CUE_STATE_LEVEL (if closed then lv + 2 ^ k else lv - 2 ^ k) s
      if !showLive s then s1
      else
        let e := BitVec.ofNat 8 (b2n closed * 128 + k) :: bytesBE 2 at_.wc.toNat
        setShow (fun w => { w with edges := w.edges ++ [(tickAdd s.bt (-(at_.ago : Int)), e)] }) (count C.CUE_EDGE s1))

/-- CUE_PULSE_END (R356): an express pulse has lasted PULSE ticks; the contact opens. -/
def execCuePulseEnd (n : Fin 24) (s : State) : Res :=
  done (if s.show_.pulses.any (fun p => p.1 == n.val && p.2 == 0) then
      cueSet n.val false false (setShow (fun w => { w with pulses := w.pulses.filter (fun p => p.1 != n.val) }) s)
    else s)

/-- R356: a contact action of the express map. -/
def expressContact (n value : Nat) (s : State) : State :=
  let s1 := setShow (fun w => { w with pulses := w.pulses.filter (fun p => p.1 != n) }) s
  if nbit value 1 then
    cueSet n true false (setShow (fun w => { w with pulses := w.pulses ++ [(n, max 1 (rd F.CUE_OUT_CFG_PULSE s))] }) s1)
  else cueSet n (nbit value 0) false s1

/-- R356: DMX GO: an extra packet at once, or after the RDM transaction under way. -/
def expressGo (u : Nat) (s : State) : State :=
  if (dmxSt u s).rdm.isSome then setDmx u (fun d => { d with goDue := true }) s else dmxSend u s

/-- R356, R331: the actions of an accepted express word, while the outputs are live; an entry without effect makes the
word unmapped. -/
def expressShow (ch value : Nat) (s : State) : State :=
  if !domOn dSHW s then s
  else
    let es := (List.range 32).filter (fun n => on (F.EXPRESS_MAP_VALID n) s && rd (F.EXPRESS_MAP_CHANNEL n) s == ch)
    let act (n : Nat) : Nat := rd (F.EXPRESS_MAP_ACTION n) s
    let tgt (n : Nat) : Nat := rd (F.EXPRESS_MAP_TARGET n) s
    let bad (n : Nat) : Bool :=
      (act n == 1 && !cueIsOut (tgt n) s) || (act n == 2 && !(decide (tgt n < 8) && dmxOut (tgt n) s))
    let s1 := whenB (es.isEmpty || es.any bad) (count C.EXPRESS_UNMAPPED) s
    if !showOn s then s1
    else eachOf (es.filter (fun n => !bad n)) (fun s n =>
      if act n == 1 then expressContact (tgt n) value s
      else if act n == 2 then expressGo (tgt n) s else s) s1

/-! ### Genlock (R357, R358) -/

/-- May output `k` give edges. -/
def genActive (k : Nat) (s : State) : Bool :=
  showOn s && on (F.GEN_CFG_ENABLE k) s && !genBad k s && on F.TAI_ORIGIN_NS_VALID s

/-- The instant of edge `n`, in phases after wc 0 of this tick, to the nearest phase. -/
def genPhase (k : Nat) (n : Int) (s : State) : Int :=
  let num : Int := (rd (F.GEN_CFG_NUM k) s : Nat)
  let den : Int := (rd (F.GEN_CFG_DEN k) s : Nat)
  let off := rdS (F.GEN_PULSE_OFFSET k) s
  let q : Int := ((s.bt % 48 * phasesPerTick : Nat) : Int)
  let dc := toSigned 40 (s.bt / 48 + 2 ^ 40 - (reg R.TAI_ORIGIN_CYCLE s).toNat)
  let base : Int := ((reg R.TAI_ORIGIN_SEC s).toNat : Int) * 1000000000 + (rd F.TAI_ORIGIN_NS_NS s : Nat) + dc * 1000000
  -- phases = (n * DEN * 10^9 / NUM + OFFSET - base) * 39936 / 3125 - q, rounded
  let top := (n * den * 1000000000 + (off - base) * num) * 39936
  let bot := num * 3125
  (2 * top + bot) / (2 * bot) - q

/-- The first edge at or after wc 0 of this tick. -/
def genFirst (k : Nat) (s : State) : Int :=
  let num : Int := (rd (F.GEN_CFG_NUM k) s : Nat)
  let den : Int := (rd (F.GEN_CFG_DEN k) s : Nat)
  let off := rdS (F.GEN_PULSE_OFFSET k) s
  let q : Int := ((s.bt % 48 * phasesPerTick : Nat) : Int)
  let dc := toSigned 40 (s.bt / 48 + 2 ^ 40 - (reg R.TAI_ORIGIN_CYCLE s).toNat)
  let base : Int := ((reg R.TAI_ORIGIN_SEC s).toNat : Int) * 1000000000 + (rd F.TAI_ORIGIN_NS_NS s : Nat) + dc * 1000000
  -- an estimate not above the edge sought, then at most two steps up
  let est := ((base - off) * 39936 + q * 3125) * num / (den * 1000000000 * 39936) - 1
  if 0 ≤ genPhase k est s then est else if 0 ≤ genPhase k (est + 1) s then est + 1
  else if 0 ≤ genPhase k (est + 2) s then est + 2 else est + 3

/-- R357: the width of a pulse in ns: WIDTH, 0 acting as 1, clipped to half the period. -/
def genWidth (k : Nat) (s : State) : Nat :=
  min (1000 * max 1 (rd (F.GEN_PULSE_WIDTH k) s))
    (rd (F.GEN_CFG_DEN k) s * 1000000000 / (2 * rd (F.GEN_CFG_NUM k) s))

/-- GENLOCK_EDGE (R357, R358): the output's edge of this tick, never an edge twice. -/
def execGenlockEdge (k : Fin 4) (s : State) : Res :=
  let n := genFirst k.val s
  let later := (s.show_.glkLast.getD k.val none).all (fun l => decide (l < n))
  done (if genActive k.val s && decide (genPhase k.val n s < (phasesPerTick : Nat)) && later then
      emit (.genlock k.val (!on (F.GEN_CFG_POLARITY k.val) s) (genWidth k.val s)) (setShow (fun w => { w with glkLast := setAt w.glkLast k.val (some n) }) s)
    else s)

/-- R358: after a new TIME_MAP or a time step, edges passed over are skipped and counted. -/
def genlockRealign (s : State) : State :=
  eachOf (List.range 4) (fun s k =>
    if !genActive k s then s
    else
      match s.show_.glkLast.getD k none with
      | none => s
      | some l =>
        let n := genFirst k s
        if l + 1 < n then
          countN C.GENLOCK_SKIP (n - l - 1).toNat (setShow (fun w => { w with glkLast := setAt w.glkLast k (some (n - 1)) }) s)
        else s) s

/-! ### The engine at a tick boundary -/

/-- R331: every show output takes its idle state. -/
def showIdle (s : State) : State :=
  let s1 := eachOf (List.range 24) (fun s n => if nbit s.show_.cueOut.toNat n then emit (.cue n false) s else s) s
  { s1 with show_ := { cueOut := 0, caps := s1.show_.caps, edges := s1.show_.edges,
                       dmx := s1.show_.dmx.map (fun d => { buf := d.buf }) } }

/-- End of a tick (R332, R342, R354): what was captured in it goes to its queues. -/
def showEnd (tdm : List (List Word)) (s : State) : State :=
  let s1 := if showLive s then eachOf (List.range 8) (fun s k => tdmCapture k (tdm.getD k []) s) s else s
  let s2 := match s1.show_.edges with
    | [] => s1
    | e :: _ =>
      let es := s1.show_.edges.mergeSort (fun a b => decide (beNat (a.2.drop 1) ≤ beNat (b.2.drop 1)))
      capture (rd F.CUE_CFG_IN_QUEUE s1) (bytesBE 5 (stampOf e.1).toNat ++ es.flatMap Prod.snd)
        (setShow (fun w => { w with edges := [] }) s1)
  eachOf s2.show_.caps (fun s c => submitOr C.SHOW_IN_DROP c.1 srcCapture s.bt c.2 s) (setShow (fun w => { w with caps := [] }) s2)

/-- R334: the sinks take what they need for one tick. -/
def showTake (s : State) : State :=
  let s1 := eachOf (List.range 8) (fun s k =>
    if tdmOut k s && on (F.TDM_CFG_SRC k) s then
      let block := 5 * tdmSlots k s * tdmS k s
      takeShow (112 + k) (rd (F.TDM_CFG_HA_POLICY k) s) (fun b => b.length != 0 && b.length % block == 0) (fun _ => true)
        (some block) s
    else s) s
  let s2 := eachOf (List.range 8) (fun s u =>
    if dmxOut u s && on (F.DMX_CFG_SRC u) s then
      takeShow (120 + u) (rd (F.DMX_CFG_HA_POLICY u) s) (fun b => decide (3 ≤ b.length)) (fun _ => true) none s
    else s) s1
  let s3 := eachOf (List.range 2) (fun s k =>
    if ltcOut k s && rd (F.LTC_CFG_SRC k) s == 2 then
      takeShow (128 + k) (rd (F.LTC_CFG_HA_POLICY k) s) (fun b => b.length == 8) (fun _ => !ltcBusy k s) none s
    else s) s2
  let s4 := eachOf (List.range 2) (fun s k =>
    if on (F.MIDI_CFG_OUT_EN k) s && on (F.MIDI_CFG_SRC k) s then
      takeShow (130 + k) (rd (F.MIDI_CFG_HA_POLICY k) s) (fun b => decide (1 ≤ b.length) && decide (b.length ≤ 64))
        (fun b => decide ((midiFifo k s).length + b.length ≤ 64)) none s
    else s) s3
  if isStarted gCUE s4 || !(qItems 132 s4).isEmpty then
    takeShow 132 (rd F.CUE_OUT_CFG_HA_POLICY s4) (fun b => b.length == 6) (fun _ => true) none s4
  else s4

/-- Start of a tick (R331, R332): present what is due, then take what the next tick presents. -/
def showBegin (due : List PresItem) (s : State) : State :=
  let running := s.term == .running && domOn dSHW s
  if !showOn s then setShow (fun w => { w with wasRunning := false }) (showIdle s)
  else
    let entered := running && !s.show_.wasRunning
    let s0 := setShow (fun w => { w with wasRunning := running, pulses := w.pulses.map (fun p => (p.1, p.2 - 1)) }) s
    let s1 := eachOf (List.range 8) (fun s u => rdmArm entered u s) s0
    let s2 := eachOf (List.range 8) (fun s k => tdmPresent due k s) s1
    let s3 := eachOf (List.range 8) (fun s u => dmxPresent due u s) s2
    let s4 := eachOf (List.range 2) (fun s k => tcPresent due k s) s3
    let s5 := cuePresent due s4
    showTake (setShow (fun w => { w with taken := [], idleTaken := [] }) s5)

/-- Has the generator of output `k` begun its frames in GEN mode: they follow one another without a gap. -/
def ltcGenRuns (k : Nat) (s : State) : Bool := rd (F.LTC_CFG_SRC k) s == 0 && (ltcSt k s).frame.isSome

/-- R337: a time step of `delta` ticks: each port with a frame or packet in progress completes it and is realigned. -/
def showStep (delta : Int) (s : State) : State :=
  let tdm := ((List.range 8).filter (fun k =>
    (tdmOut k s && isStarted (gTDM k) s) || (showLive s && on (F.TDM_CFG_IN_EN k) s && !tdmBad k s))).length
  let dmx := ((List.range 8).filter (fun u => !dmxFree u s)).length
  let ltc := ((List.range 2).filter (fun k => ltcOut k s && (ltcBusy k s || ltcGenRuns k s))).length
  let s1 := countN C.SHOW_REALIGN (tdm + dmx + ltc) s
  setShow (fun w => { w with
    dmx := w.dmx.map (fun d => { d with busyTo := d.busyTo.map (fun t => tickAdd t delta) })
    ltc := w.ltc.map (fun l => { l with began := l.began.map (fun b => ((b : Int) + delta * (phasesPerTick : Nat)).toNat) }) })
    s1

end Sys2Proof.Machine
end

