-- ==== Sys2Proof/Machine/Straps.lean ====
section
/-! DEFINITION. The straps and the register defaults they set (spec/02_power_up_straps_selftest.md R40-R41). -/

namespace Sys2Proof.Machine

/-- Latched strap STn. -/
def strap (n : Nat) (s : State) : Bool := nbit (rd F.STRAP_LATCH_STRAPS s) n

/-- A field of the latched straps. -/
def strapField (hi lo : Nat) (s : State) : Nat := nbits (rd F.STRAP_LATCH_STRAPS s) hi lo

/-- R258, R260: with ST1:0 = 0b11 bank 11 holds the hostless rings, and the pool has 39,840 free cells in place of
43,936. -/
def strapBanks (s : State) : State :=
  let hostless := strapField 1 0 s == 3
  let free := if hostless then 39840 else 43936
  s |> wr ⟨R.GRAN_BANK_CFG, 23, 22⟩ (if hostless then 2 else 0) |> wr F.GRAN_STATUS_FREE free
    |> wr F.GRAN_STATUS_LOW free

/-- R40, R41, and the TARGET, HELD and PORT_OFF defaults of spec/17: fields whose default comes from a strap take it. -/
def applyStraps (s : State) : State :=
  let width := strapField 4 3 s
  s |> wr F.BOOT_STATUS_SOURCE (strapField 1 0 s)
    |> wr F.RING_MODE_HOSTLESS (b2n (strapField 1 0 s == 3))
    |> wr F.PCIE_CTRL_ENABLE (b2n (strap 2 s))
    |> wr (F.PWR_TARGET_TARGET dPCI) (if strap 2 s then 0 else 2)
    |> wr (F.PWR_TARGET_HELD dPCI) (b2n (!strap 2 s))
    |> wr F.PCIE_CTRL_MAX_WIDTH (if width == 3 then 0 else width)
    |> wr F.SELFTEST_FLAGS_STRAP_WARN (b2n (width == 3))
    |> wr F.ZWD_ADDR_ADDR (0x30 + strapField 7 5 s)
    |> wr F.BYPASS_CFG_SWITCH_CLASS (strapField 9 8 s)
    |> wr F.SPAN_CFG_SIDES (b2n (strap 10 s))
    |> wr F.DEVICE_IDENT_STRAP_SIDES (b2n (strap 10 s))
    |> wr (F.PWR_TARGET_TARGET dSPE) (if strap 10 s then 2 else 0)
    |> wr F.BYPASS_STATUS_TURNED_E (b2n (strap 10 s))
    |> wr F.AFE_CFG_COMPLIANCE (b2n (strap 11 s)) |> strapBanks

/-- Single-sided (R43). -/
def singleSided (s : State) : Bool := on F.SPAN_CFG_SIDES s

/-- The class time in ticks of a SWITCH_CLASS (R69). -/
def classOf (c : Nat) : Nat := [96, 240, 480, 960].getD c 96

/-- The class time of BYPASS_CFG. -/
def classTicks (s : State) : Nat := classOf (rd F.BYPASS_CFG_SWITCH_CLASS s)

end Sys2Proof.Machine
end

