-- ==== Sys2Proof/Machine/Line8b10b.lean ====
section
/-! DEFINITION. The 8b/10b line code of a Span lane: the two sub-block tables, running disparity, the decoding of a
received word and the encoding of a sent one (spec/04_span_line_and_repeater.md R85-R88; spec/01 R16). A code-group
stands as a number of ten bits, the bit sent first (a) the most significant. Running disparity is `true` where it is
positive. -/

namespace Sys2Proof.Machine

/-! ### Sub-blocks (R85: the coding of IEEE 802.3 Clause 36; notes/assumptions/70.md) -/

/-- How many of the low `n` bits of a number are ones. -/
def ones : (n v : Nat) → Nat
  | 0, _ => 0
  | n + 1, v => v % 2 + ones n (v / 2)

/-- The six bits of D.x at negative disparity. -/
def code6Neg : List Nat :=
  [0b100111, 0b011101, 0b101101, 0b110001, 0b110101, 0b101001, 0b011001, 0b111000,
   0b111001, 0b100101, 0b010101, 0b110100, 0b001101, 0b101100, 0b011100, 0b010111,
   0b011011, 0b100011, 0b010011, 0b110010, 0b001011, 0b101010, 0b011010, 0b111010,
   0b110011, 0b100110, 0b010110, 0b110110, 0b001110, 0b101110, 0b011110, 0b101011]

/-- The four bits of .y at negative disparity. -/
def code4Neg : List Nat := [0b1011, 0b1001, 0b0101, 0b1100, 0b1101, 0b1010, 0b0110, 0b1110]

/-- The ten bits of each K character at negative disparity. -/
def codeKNeg : List (Nat × Nat) :=
  [(0x1C, 0b0011110100), (0x3C, 0b0011111001), (0x5C, 0b0011110101), (0x7C, 0b0011110011), (0x9C, 0b0011110010),
   (0xBC, 0b0011111010), (0xDC, 0b0011110110), (0xFC, 0b0011111000), (0xF7, 0b1110101000), (0xFB, 0b1101101000),
   (0xFD, 0b1011101000), (0xFE, 0b0111101000)]

/-- The six bits of D.x. -/
def code6 (x : Nat) (rd : Bool) : Nat :=
  let c := code6Neg.getD x 0
  if rd && (ones 6 c != 3 || c == 0b111000) then 63 - c else c

/-- The four bits of .y; `x` decides whether .7 takes its alternate form. -/
def code4 (x y : Nat) (rd : Bool) : Nat :=
  if y == 7 && (if rd then [11, 13, 14] else [17, 18, 20]).contains x then (if rd then 0b1000 else 0b0111)
  else
    let c := code4Neg.getD y 0
    if rd && (ones 4 c != 2 || c == 0b1100) then 15 - c else c

/-- Running disparity after a received sub-block of `n` bits. -/
def rdAfterSub (n v : Nat) (rd : Bool) : Bool :=
  let k := 2 * ones n v
  if n < k || v == (if n == 6 then 0b000111 else 0b0011) then true
  else if k < n || v == (if n == 6 then 0b111000 else 0b1100) then false
  else rd

/-- Running disparity after a code-group. -/
def rdAfter (cg : Nat) (rd : Bool) : Bool := rdAfterSub 4 (cg % 16) (rdAfterSub 6 (cg / 16) rd)

/-! ### Symbols -/

/-- A decoded symbol: its K flag and byte, or a code-group error (R86). -/
structure Sym where
  k : Bool
  byte : Nat
  err : Bool
deriving DecidableEq, Repr

/-- The code-group of a symbol at a running disparity. -/
def encodeSym (k : Bool) (b : Nat) (rd : Bool) : Nat :=
  if k then
    let c := SMap.get 0 codeKNeg b
    if rd then 1023 - c else c
  else
    let six := code6 (b % 32) rd
    six * 16 + code4 (b % 32) (b / 32) (rdAfterSub 6 six rd)

/-- R86: a code-group that is not in the tables, or has the wrong disparity, is an error. -/
def decodeSym (cg : Nat) (rd : Bool) : Sym :=
  match codeKNeg.find? (fun p => (if rd then 1023 - p.2 else p.2) == cg) with
  | some p => { k := true, byte := p.1, err := false }
  | none =>
    match (List.range 32).find? (fun x => code6 x rd == cg / 16) with
    | none => { k := false, byte := 0, err := true }
    | some x =>
      match (List.range 8).find? (fun y => code4 x y (rdAfterSub 6 (cg / 16) rd) == cg % 16) with
      | none => { k := false, byte := 0, err := true }
      | some y => { k := false, byte := 32 * y + x, err := false }

/-! ### Words (R16, R85, R86) -/

/-- Code-group `i` of a word's fifty bits, symbol 0 first. -/
def groupAt (code : BitVec 50) (i : Nat) : Nat := code.toNat / 2 ^ (40 - 10 * i) % 1024

/-- Decode code-groups in order; also the disparity after them. -/
def decodeSyms : List Nat → Bool → List Sym × Bool
  | [], rd => ([], rd)
  | g :: gs, rd =>
    let (r, rd1) := decodeSyms gs (rdAfter g rd)
    (decodeSym g rd :: r, rd1)

/-- The five code-groups of a received word. -/
def rxGroups (w : RxWord) : List Nat := (List.range 5).map (groupAt w.code)

/-- The five symbols of a received word. -/
def rxSyms (w : RxWord) : List Sym := (decodeSyms (rxGroups w) w.rd).1

/-- Encode symbols in order; also the disparity after them. -/
def encodeSyms : List (Bool × Nat) → Bool → List Nat × Bool
  | [], rd => ([], rd)
  | (k, b) :: r, rd =>
    let g := encodeSym k b rd
    let (gs, rd1) := encodeSyms r (rdAfter g rd)
    (g :: gs, rd1)

/-- The symbols of a word: a K character stands in symbol 0 alone (R87). -/
def wordSyms (w : Bool × Word) : List (Bool × Nat) :=
  match wordBytes w.2 with
  | [] => []
  | b :: r => (w.1, b.toNat) :: r.map (fun b => (false, b.toNat))

/-- A word as it goes on the line: its code-groups, and the disparity after it. -/
def encodeWord (w : Bool × Word) (rd : Bool) : BitVec 50 × Bool :=
  let (gs, rd1) := encodeSyms (wordSyms w) rd
  (BitVec.ofNat 50 (gs.foldl (fun n g => n * 1024 + g) 0), rd1)

/-- R86: running disparity after sending words in order: it is continuous across them. -/
def rdSent (ws : List (Bool × Word)) (rd : Bool) : Bool := ws.foldl (fun rd w => (encodeWord w rd).2) rd

/-- Words as a receiver would take them from a line on which they are sent. -/
def onLine : List (Bool × Word) → Bool → List RxWord
  | [], _ => []
  | w :: r, rd => { rd, code := (encodeWord w rd).1 } :: onLine r (encodeWord w rd).2

end Sys2Proof.Machine

namespace Sys2Proof

/-- R16: is it a control word. -/
def RxWord.k (w : RxWord) : Bool := (Machine.decodeSym (Machine.groupAt w.code 0) w.rd).k

/-- Its forty bits, symbol 0 in bits [39:32]. -/
def RxWord.data (w : RxWord) : Word := BitVec.ofNat 40 ((Machine.rxSyms w).foldl (fun n x => n * 256 + x.byte) 0)

/-- R86: how many of its code-groups are errors. -/
def RxWord.errors (w : RxWord) : Nat := ((Machine.rxSyms w).filter Machine.Sym.err).length

/-- R86: does it hold a code-group error. -/
def RxWord.codeErr (w : RxWord) : Bool := (Machine.rxSyms w).any Machine.Sym.err

/-- R16: a K character stands in symbols 1 to 4. -/
def RxWord.invalid (w : RxWord) : Bool := ((Machine.rxSyms w).drop 1).any Machine.Sym.k

/-- R86: the receiver's running disparity after it. -/
def RxWord.after (w : RxWord) : Bool := (Machine.decodeSyms (Machine.rxGroups w) w.rd).2

/-- R86: disparity runs on from word to word: words received in order, the first at `rd`. -/
def RxWord.chainFrom : Bool → List RxWord → List RxWord
  | _, [] => []
  | rd, w :: r => { w with rd } :: RxWord.chainFrom { w with rd }.after r

/-- Words received in order, from the first word's disparity. -/
def RxWord.chain (ws : List RxWord) : List RxWord :=
  match ws with
  | [] => []
  | w :: _ => RxWord.chainFrom w.rd ws

/-- A word that is not there: its code-groups are in no table. -/
def RxWord.absent : RxWord := { rd := false, code := 0 }

end Sys2Proof
end

