-- ==== Sys2Proof/Machine/Words.lean ====
section
/-! DEFINITION. The words of the Span as the frame engine sees them: control characters, markers, idle, wake and error
words, and what a repeater does to a bad word (spec/04_span_line_and_repeater.md R87-R94; spec/05 R115, R116). -/

namespace Sys2Proof.Machine

/-! ### Sides -/

/-- Is it the East side. -/
def isEast : Side → Bool
  | .west => false
  | .east => true

/-- The lane of a side (R85). -/
def laneOf : Side → Nat
  | .west => 0
  | .east => 1

/-- The side of a Span lane. -/
def sideOf (lane : Nat) : Side := if lane == 0 then .west else .east

/-- The other side. -/
def otherSide : Side → Side
  | .west => .east
  | .east => .west

/-- What a Span side keeps. -/
def spanOf (sd : Side) (s : State) : SpanSide := match sd with | .west => s.span.w | .east => s.span.e

/-! ### Words -/

/-- The terminal ID held, 0 when unregistered. -/
def termId (s : State) : Nat := rd F.REG_STATUS_TERM_ID s

/-- Byte `i` of a word, byte 0 first. -/
def wbyte (w : Word) (i : Nat) : Nat := fget w (39 - 8 * i) (32 - 8 * i)

/-- The characters of R87. -/
def kTick : Nat := 0xBC
def kRow : Nat := 0x3C
def kExpress : Nat := 0xF7
def kDelim : Nat := 0xFB
def kIdle : Nat := 0x7C
def kWake : Nat := 0xDC
def kError : Nat := 0xFE

/-- A control word of a given character. -/
def isK (c : Nat) (w : RxWord) : Bool := w.k && wbyte w.data 0 == c

/-- R16, R88: invalid, code-group errors apart. -/
def badK (w : RxWord) : Bool :=
  w.invalid || (w.k && !([kTick, kRow, kExpress, kDelim, kIdle, kWake, kError].contains (wbyte w.data 0)))

/-- R90: a word the repeater replaces. -/
def badWord (w : RxWord) : Bool := w.codeErr || badK w

/-- A word that is, or has become, an error word. -/
def isErr (w : RxWord) : Bool := badWord w || isK kError w

/-- R89: an idle word: any K28.3 word, whatever its bytes 1 to 4 hold. -/
def isIdle (w : RxWord) : Bool := isK kIdle w && !badWord w

/-- R92: a comma-bearing word. -/
def hasComma (w : RxWord) : Bool := !(decodeSym (groupAt w.code 0) w.rd).err && (isK kTick w || isK kRow w)

/-- The idle word a terminal makes, and a clearing word (R89). -/
def clearWord : Bool × Word := (true, 0x7C4A4A4A4A)

/-- R90: an error word of this terminal. -/
def errorWord (reason : Nat) (s : State) : Bool × Word :=
  (true, BitVec.ofNat 40 (kError * 2 ^ 32 + reason * 2 ^ 24 + termId s * 2 ^ 16 + 0x4A4A))

/-- R90, R103: a received word as the path forwards it. -/
def forwardWord (s : State) (w : RxWord) : Bool × Word := if badWord w then errorWord 3 s else (w.k, w.data)

/-- Are bytes 3 and 4 the complements of bytes 1 and 2. -/
def complements (w : Word) : Bool := wbyte w 1 + wbyte w 3 == 255 && wbyte w 2 + wbyte w 4 == 255

/-- R115: the DIR, TICK and CYCLE bits of a valid tick marker. -/
def tickMarker (w : RxWord) : Option (Bool × Nat × Nat) :=
  if isK kTick w && !isErr w && complements w.data && fget w.data 30 30 == 0 && decide (fget w.data 29 24 ≤ 47) then
    some (fget w.data 31 31 == 1, fget w.data 29 24, wbyte w.data 2)
  else none

/-- R116: the DIR, ROW and TICK of a valid row marker. -/
def rowMarker (w : RxWord) : Option (Bool × Nat × Nat) :=
  if isK kRow w && !isErr w && complements w.data && fget w.data 30 29 == 0 && fget w.data 23 22 == 0 &&
      fget w.data 28 24 != 0 then
    some (fget w.data 31 31 == 1, fget w.data 28 24, fget w.data 21 16)
  else none

/-- R94, R96: a wake word for this terminal: its target is the WAKE_ID or 63. -/
def wakeWord (s : State) (w : RxWord) : Bool :=
  let id := wbyte w.data 1
  isK kWake w && !badWord w && decide (id < 64) && wbyte w.data 2 == 255 - id && id != 0 &&
    (id == 63 || id == rd F.SPAN_WAKE_WAKE_ID s)

end Sys2Proof.Machine
end

