-- ==== Sys2Proof/Machine/Power.lean ====
section
/-! DEFINITION. Power domains, transitions, refusals, spine rest, the wake sources and the keeper timer
(spec/17_power_domains_wake.md R401-R414, spec/04 R94-R96). -/

namespace Sys2Proof.Machine

/-! ### Needs and refusals (R401, R409) -/

/-- Banks of a role in GRAN_BANK_CFG: 1 the show ring, 2 the hostless rings. -/
def roleBanks (role : Nat) (s : State) : List Nat :=
  (List.range 12).filter (fun k => k != 0 && fget (reg R.GRAN_BANK_CFG s) (2 * k + 1) (2 * k) == role)

/-- R401: the domains a domain needs ON. -/
def needsOf (k : Nat) (s : State) : List Nat :=
  if k == dTHR || k == dPCI || k == dAFE then [dQSC]
  else if k == dLAN then [dQSC, dTHR]
  else if k == dSHW then dQSC :: (roleBanks 1 s).map dGR
  else if k == dQSC then (poolBanks (reg R.GRAN_BANK_CFG s)).map dGR
  else []

/-- R409: is target `t` of domain `k` refused, given the resulting set. -/
def targetRefused (set : Nat → Nat) (k t : Nat) (s : State) : Bool :=
  if t == 0 then
    (needsOf k s).any (fun d => set d != 0) || ((k == dAFE || k == dPCI) && on (F.PWR_TARGET_HELD k) s)
  else
    ((k == dSPW || k == dSPE || k == dFRM) && (inserted s || on F.ADMIT_TICK_PENDING s) && !(k == dSPE && singleSided s))
      || ((k == dMGT || k == dCIP || k == dQSC) && inserted s)
      || (k == dMGT && t == 2 && rd F.BOOT_STATUS_SOURCE s == 1)
      || (set dQSC == 0 && ((poolBanks (reg R.GRAN_BANK_CFG s)).map dGR).contains k)
      || (set dSHW == 0 && ((roleBanks 1 s).map dGR).contains k)
      || (on F.RING_MODE_HOSTLESS s && set dMGT == 0 && ((roleBanks 2 s).map dGR).contains k)
      || (k == dMOT && !(axIdle 0 s && axIdle 1 s))
      || (k == dAFE && on F.AFE_CFG_SEQ_EN s)

/-- The wanted state of a domain. -/
def targetOf (s : State) (k : Nat) : Nat := rd (F.PWR_TARGET_TARGET k) s

/-- The 24 domains. -/
def domains : List Nat := List.range 24

/-- R409: the refused domains of a whole set, as a bitmap. -/
def refusedSet (set : Nat → Nat) (s : State) : Nat :=
  domains.foldl (fun n k => if targetRefused set k (set k) s then n + 2 ^ k else n) 0

/-- R404: tell of refused domains. -/
def powerRefused (bits : Nat) (s : State) : State := raise E.PWR_REFUSED bits (count C.PWR_REFUSED s)

/-- The resulting set of a request: an order's state where it names one, else TARGET. -/
def resultingSet (order : Option (List Nat)) (s : State) (k : Nat) : Nat :=
  let o := (order.getD []).getD k 3
  if o == 3 then targetOf s k else o

/-! ### Writing PWR_TARGET_x (R404) -/

/-- R10, R401: a write of PORT_OFF waits for the tick boundary; a second one in the same tick supersedes it (R21). -/
def portOffWrite (off : Nat) (s : State) : State :=
  let s1 := whenB s.pwr.gateDue (count C.STAGE_SUPERSEDED) s
  setPwr (fun p => { p with gateDue := true }) (wr (F.PWR_TARGET_PORT_OFF dLAN) off s1)

/-- Commit a write of PWR_TARGET_x: each field is judged alone (notes/assumptions/60.md). -/
def pwrTargetWrite (k : Nat) (v : Word) (s : State) : State :=
  let t := fget v 1 0
  let s1 :=
    if t == 3 then s
    else if targetRefused (fun d => if d == k then t else targetOf s d) k t s then powerRefused (2 ^ k) s
    else wr (F.PWR_TARGET_TARGET k) t s
  if k == dLAN then
    let off := fget v 21 16
    let held := rd (F.PWR_TARGET_PORT_HELD dLAN) s1
    if (held &&& off) != held then powerRefused (2 ^ k) s1 else portOffWrite off s1
  else s1

/-! ### What a domain keeps and loses (R402, R403) -/

/-- R402: the RO and W1C fields of the registers in `[lo, hi)` read their defaults. -/
def statusDefaults (lo hi : Nat) (s : State) : State :=
  eachOf ((s.regs.map Prod.fst).filter (fun a => decide (lo ≤ a) && decide (a < hi)))
    (fun s a =>
      let keep := match regRow a with | some r => r.rw ||| r.rws | none => 0
      setReg a ((reg a s &&& keep) ||| (regDefault a &&& ~~~keep)) s) s

/-- Lane registers of lanes `n` to `n + m - 1`. -/
def laneDefaults (n m : Nat) (s : State) : State := statusDefaults (0x1800 + 0x80 * n) (0x1800 + 0x80 * (n + m)) s

/-- R403: everything in a Span lane stops; an adaptation that was due, and what its receiver had seen, are gone. -/
def laneOff (n : Nat) (s : State) : State :=
  setSpan (sideOf n) (fun x => { x with carried := false, heard := 0, hits := [] })
    (setLane n (fun l => { l with adaptDue := false }) (laneDefaults n 1 s))

/-- A path whose tracker has no position has seen no valid rows, and has yet to see a tick marker (R75, R104). -/
def noRows (x : SpanSide) : SpanSide := { x with marker := false, rowsOk := false, fails := 0, autoDue := false, head := [], arr := [], dev := none }

/-- A tracker's position is lost. -/
def untrack (s : State) : State :=
  setSpan .west noRows (setSpan .east noRows
    (setFrame (fun f => { f with trkW := {}, trkE := {} })
      (s |> wr F.REP_STATUS_W_TRACKING 0 |> wr F.REP_STATUS_E_TRACKING 0)))

/-- R403: every queued item is discarded and counted; deficits, buckets and sequence numbers are lost. -/
def queuesOff (s : State) : State :=
  let s1 := eachOf (s.q.queues.map Prod.fst) (fun s q => flushQueue q C.PWR_FLUSH s) s
  let s2 := { s1 with q := { cfg := s1.q.cfg, portCfg := s1.q.portCfg, meterCfg := s1.q.meterCfg,
                             bankNext := s1.q.bankNext, hold := s1.q.hold, flushed := s1.q.flushed } }
  let f := poolCells (reg R.GRAN_BANK_CFG s2)
  s2 |> statusDefaults 0x3000 0x3800 |> wr F.GRAN_STATUS_FREE f |> wr F.GRAN_STATUS_LOW f

/-- R403: keys 1 to 255 are erased and the DRBG is uninstantiated. -/
def cipherOff (s : State) : State :=
  statusDefaults 0x3800 0x4000
    { s with key := { slots := s.key.slots.filter (fun p => p.1 == 0), prevGen := s.key.prevGen,
                      genFrom := s.key.genFrom, housePub := s.key.housePub } }

/-- A bank that loses its contents while items are stored: which items it held is not kept, so each item's bytes are a
free choice between what they were and free bytes (spec/17 "GRk"). -/
def loseItem (i : Item) (s : State) : Item × State :=
  let (c, s1) := fresh 1 s
  if c == 1 then
    let (v, s2) := fresh (8 * i.bytes.length) s1
    ({ i with bytes := bytesBE i.bytes.length v.toNat }, s2)
  else (i, s1)

/-- Every item of a list, in turn. -/
def loseItems : List Item → State → List Item × State
  | [], s => ([], s)
  | i :: r, s =>
    let (i1, s1) := loseItem i s
    let (r1, s2) := loseItems r s1
    (i1 :: r1, s2)

/-- A pool bank of the Granary goes OFF. -/
def bankOff (s : State) : State :=
  eachOf (s.q.queues.map Prod.fst) (fun s q =>
    let (l, s1) := loseItems (qItems q s) s
    setItems q l s1) s

/-- R403: what FRM loses in OFF: its frame and window state. Its copy of the gleaning bitmap is rebuilt from flash (R433). -/
def loseFrame (s : State) : State := setFrame (fun _ => {}) (setWin (fun _ => {}) s)

/-- R403: the notes MGT loses in OFF. -/
def loseNotes (s : State) : State := setNote (fun _ => {}) s

/-- R403: the registration MGT loses in OFF. -/
def loseRegistration (s : State) : State := setRegn (fun _ => {}) s

/-- R403, R437: pieces not yet in flash, a host collection under way and records not stored are lost with MGT's RAM. -/
def losePieces (s : State) : State :=
  setGlean (fun g => { g with buf := [], hostNext := none, verifyDue := false, live := [] }) s

/-- R402, R403: what MGT loses in OFF in all; its status of the collection and of the settings store reads its defaults. -/
def loseFirmware (s : State) : State :=
  s |> loseNotes |> loseRegistration |> losePieces |> statusDefaults 0x6808 0x6810 |> statusDefaults 0x6818 0x6820
    |> statusDefaults 0x6828 0x6830 |> setPwr (fun p => { p with reload := true })

/-- R403: what THR loses in OFF beside its tables. -/
def loseThresher (s : State) : State := { s with th := {} }

/-- R403: what LAN loses in OFF. -/
def losePorts (s : State) : State := { s with eth := {} }

/-- R403: what SHW loses in OFF. -/
def loseShow (s : State) : State := { s with show_ := {} }

/-- R403: what AFE loses in OFF. -/
def loseAfe (s : State) : State := { s with afe := {} }

/-- R403: MOT in OFF: positions zero, profiles lost. -/
def loseMotion (s : State) : State :=
  eachOf (List.range 2) (fun s k => setReg (R.AX_POS_ENC k) 0 (setReg (R.AX_POS_CMD k) 0 s))
    (statusDefaults 0x5000 0x5800 (motDrop s))

/-- R402, R403: FRM in OFF: the window writer's status too. -/
def frameOff (s : State) : State :=
  statusDefaults 0x1500 0x1600 (statusDefaults 0x1100 0x1300 (untrack (loseFrame s)))

/-- R403: a domain moves from state `a` to RETENTION or OFF (`b`). -/
def domainLeaves (k a b : Nat) (s : State) : State :=
  let off := b == 2
  if k == dSPW then (if off then laneOff 0 s else s)
  else if k == dSPE then (if off then laneOff 1 s else s)
  else if k == dFRM then
    if off then frameOff s else untrack s
  else if k == dMGT then (if off then loseFirmware s else s)
  else if k == dTHR then (if off then statusDefaults 0x2800 0x3000 (emptyTables (loseThresher s)) else s)
  else if k == dCIP then (if off then cipherOff s else s)
  else if k == dQSC then (if off then queuesOff s else s)
  else if k == dPCI then whenB off (setHost (fun h => { h with pci := {}, pba := [] })) (linkTick (some .down) s)
  else if k == dLAN then
    let s1 := whenB (a == 0) lanOff s
    if off then laneDefaults 2 6 (statusDefaults 0x4000 0x4400 (losePorts s1)) else s1
  else if k == dSHW then
    let s1 := whenB (a == 0) showIdle s
    if off then statusDefaults 0x4800 0x5000 (loseShow s1) else s1
  else if k == dMOT then
    (if off then loseMotion s else s)
  else if k == dAFE then
    let s1 := whenB (a == 0) afeStop s
    if off then statusDefaults 0x5D80 0x5F00 (wr F.AFE_STATUS_CUR_SLOT 0 (wr F.AFE_STATUS_HALF 0 (loseAfe s1))) else s1
  else (if off && ((poolBanks (reg R.GRAN_BANK_CFG s)).map dGR).contains k then bankOff s else s)

/-- R403, R410: a domain begins its return to ON from state `a`: the entropy source starts with its tests (R232). -/
def domainReturns (k a : Nat) (s : State) : State :=
  if k == dCIP && a == 2 then wr F.ENTROPY_STATUS_STATE 1 s else s

/-- The lanes of a domain. -/
def lanesOf (k : Nat) : List Nat := if k == dSPW then [0] else if k == dSPE then [1] else if k == dLAN then [2, 3, 4, 5, 6, 7] else []

/-- R97: a lane in fixed mode uses PEAK whenever it runs. -/
def fixedPeak (n : Nat) (s : State) : State :=
  if rd (F.LANE_EQ_MODE n) s == 0 then
    s |> wr (F.LANE_STATUS_ADAPT n) 3 |> wr (F.LANE_STATUS_PEAK_NOW n) (rd (F.LANE_EQ_PEAK n) s)
  else s

/-- R403, R410: a domain has returned to ON: where the entropy source was starting, its tests have passed and the DRBG is
instantiated; lanes in fixed mode take their setting. -/
def domainBack (k : Nat) (s0 : State) : State :=
  let s := eachOf (lanesOf k) (fun s n => fixedPeak n s) s0
  if k == dCIP && rd F.ENTROPY_STATUS_STATE s == 1 then s |> wr F.ENTROPY_STATUS_STATE 2 |> wr F.DRBG_STATUS_STATE 1 else s

/-! ### Requests and transitions (R405-R408) -/

/-- The stamp of a request's tick, as RESULT and ARG0 carry it. -/
def pwrStamp (t : Nat) : Nat := (stampOf t).toNat

/-- A request ends: a WAIT completes. -/
def pwrAnswer (r : PwrReq) (status sub result : Nat) (s : State) : State :=
  match r.cmd with
  | some h => finishWait h true status sub result s
  | none => s

/-- Insert a request in the order of ticks. -/
def insertReq (r : PwrReq) : List PwrReq → List PwrReq
  | [] => [r]
  | x :: l => if tickDiff r.t x.t < 0 then r :: x :: l else x :: insertReq r l

/-- R406: stage a request; one that names the same tick is superseded. -/
def powerRequest (r : PwrReq) (s : State) : State :=
  let old := s.pwr.reqs.filter (fun x => x.t == r.t)
  let s1 := setPwr (fun p => { p with reqs := insertReq r (p.reqs.filter (fun x => x.t != r.t)) }) s
  eachOf old (fun s x => pwrAnswer x cREFUSED 2 0 (count C.STAGE_SUPERSEDED s)) s1

/-- The tick stamp of the next pending request (PWR_PENDING). -/
def pwrPending (s : State) : Word := match s.pwr.reqs with | [] => 0 | r :: _ => stampOf r.t

/-- Every domain is in RETENTION or OFF. -/
def allAsleep (s : State) : Bool := domains.all (fun k => domState k s == 1 || domState k s == 2)

/-- R405: the order in which domains leave ON; they come ON in the reverse order. -/
def leaveOrder : List Nat :=
  [dAFE, dMOT, dSHW, dLAN, dPCI, dSPE, dSPW, dFRM, dTHR, dMGT, dCIP, dQSC] ++ (List.range 12).reverse.map dGR

/-- R405: the domains `moving` move to `tgt`, in order: what leaves loses what R403 says. -/
def moveDomains (moving : List Nat) (tgt : List Nat) (s : State) : State :=
  let s1 := eachOf (moving.filter (fun k => tgt.getD k 0 != 0)) (fun s k => domainLeaves k (domState k s) (tgt.getD k 0) s) s
  eachOf (moving.reverse.filter (fun k => tgt.getD k 0 == 0)) (fun s k => domainReturns k (domState k s) s) s1

/-- The domains that `tgt` moves. -/
def movingTo (tgt : List Nat) (s : State) : List Nat := leaveOrder.filter (fun k => domState k s != tgt.getD k 0)

/-- R288, R407: with the completion and one status page written, the engine begins its orderly stop. -/
def stopForPower (r : PwrReq) (s : State) : State :=
  let s1 := pwrAnswer r cDONE 0 (pwrStamp r.t) s
  if hreServes s1 then
    let s2 := setHost (fun h => { h with stopping := true }) (wr F.HRE_CTRL_START 0 (writeStatus s1))
    if s2.host.flight.isNone && !s2.host.pollPend then orderlyStop s2 else s2
  else if s1.host.stopping then s1 else orderlyStop s1

/-- R405, R407: begin a transition to `tgt`. While the ring engine still stops, QSC, PCI and the banks stay as they are. -/
def beginTransition (r : PwrReq) (tgt : List Nat) (s : State) : State :=
  let moving := movingTo tgt s
  let hostLeaves := (moving.contains dQSC && domOn dQSC s) || (moving.contains dPCI && domOn dPCI s)
  let s1 := if hostLeaves then stopForPower r s else s
  let r1 := if hostLeaves then { r with cmd := none } else r
  let now := if s1.host.stopping then moving.filter (fun k => k != dQSC && k != dPCI && decide (k < 12)) else moving
  let s2 := portsRefresh (eachOf now (fun s k => wr (F.PWR_TARGET_STATE k) 3 s) (moveDomains now tgt s1))
  refreshHost (setPwr (fun p => { p with run := some (r1, tgt) }) s2)

/-- R411: the spine rests. -/
def beginRest (s : State) : State :=
  wr F.WAKE_STATUS_RESTING 1 (setPwr (fun p => { p with resting := true, rest := 0, restAgain := false }) s)

/-- R405, R411: a transition ends: what waited for the ring engine moves, every domain stands at its target, the request completes, and with every domain asleep
the spine rests. -/
def pwrFinish (r : PwrReq) (tgt : List Nat) (s : State) : State :=
  let back := domains.filter (fun k => domState k s == 3 && tgt.getD k 0 == 0)
  let rest := (movingTo tgt s).filter (fun k => domState k s != 3)
  let s1 := eachOf domains (fun s k => wr (F.PWR_TARGET_STATE k) (tgt.getD k 0) s) (moveDomains rest tgt s)
  let s2 := refreshHost (portsRefresh (eachOf back (fun s k => domainBack k s) (setPwr (fun p => { p with run := none }) s1)))
  let s3 := pwrAnswer r cDONE 0 (pwrStamp r.t) (raise E.PWR_DONE (pwrStamp r.t) s2)
  if allAsleep s3 then beginRest s3 else s3

/-! ### Waking (R411-R413) -/

/-- R411: spine rest ends: building time resumes at its value at entry plus the rest. -/
def endRest (s : State) : State :=
  if s.pwr.resting then
    let n := s.pwr.rest
    s |> setPwr (fun p => { p with resting := false, rest := 0 }) |> wr F.WAKE_STATUS_RESTING 0
      |> wr F.TIME_STATUS_RANGED 0 |> wr F.TAI_ORIGIN_NS_VALID 0
      |> setBt (tickAdd s.bt n) |> setLine (tickAdd s.line n)
  else s

/-- WAKE_STATUS as it reads: RESTING reads 0, since any read ends the rest. -/
def wakeStatusView (s : State) : Word := fput (reg R.WAKE_STATUS s) 11 11 0

/-- Is domain `k` in WAKE_MASK. -/
def inMask (k : Nat) (s : State) : Bool := nbit (rd F.WAKE_MASK_MASK s) k

/-- R413: would a request take a WAKE_MASK domain out of ON. -/
def reqSleeps (s : State) (r : PwrReq) : Bool := domains.any (fun k => inMask k s && resultingSet r.order s k != 0)

/-- R413: a wake acts. Before LISTENING and in HOLDING nothing runs that it could wake (R52, R58). -/
def wake (src detail : Nat) (s : State) : State :=
  let bits := refusedSet (fun k => if inMask k s then 0 else targetOf s k) s
  if !fromListening s then s
  else if bits != 0 then powerRefused bits s
  else
    let gone := s.pwr.reqs.filter (reqSleeps s)
    let s1 := endRest s
    let s2 := setPwr (fun p => { p with reqs := p.reqs.filter (fun r => !reqSleeps s r), restAgain := false }) s1
    let s3 := eachOf (domains.filter (fun k => inMask k s)) (fun s k => wr (F.PWR_TARGET_TARGET k) 0 s) s2
    let s4 := eachOf gone (fun s r => pwrAnswer r cREFUSED 3 0 s) s3
    powerRequest { t := nextTick s4, wake := true }
      (s4 |> wr F.WAKE_STATUS_SOURCE src |> wr F.WAKE_STATUS_DETAIL detail |> raise E.WAKE (src + 16 * detail)
          |> count C.PWR_WAKE)

/-- R412: is some WAKE_MASK domain not ON. -/
def maskAsleep (s : State) : Bool := domains.any (fun k => inMask k s && !domOn k s)

/-- R96: the wake matcher of a lane takes one received word: its own place among them, and the places of the matches of
the last 49,920 words; also whether this word makes eight, which starts the count again (notes/assumptions/71.md). -/
def matchWake (s : State) (m : SpanSide × Nat × Bool) (w : RxWord) : SpanSide × Nat × Bool :=
  let (x, n, fired) := m
  let here := x.heard + 1
  if wakeWord s w then
    let hits := here :: x.hits.filter (fun h => decide (here - h < 49920))
    if 8 ≤ hits.length then ({ x with heard := here, hits := [] }, n + 1, true)
    else ({ x with heard := here, hits }, n + 1, fired)
  else ({ x with heard := here }, n, fired)

/-- SPAN_WAKE_SET (R96, R412): the words a Span lane received since the last such command. -/
def execSpanWakeSet (lane : Fin 2) (words : List RxWord) (s : State) : Res :=
  let st := domState lane.val s
  done (if !on F.SPAN_WAKE_WAKE_EN s || !(st == 0 || st == 1) then s
    else
      let (x, n, fired) := (RxWord.chain words).foldl (matchWake s) (spanOf (sideOf lane.val) s, 0, false)
      let s1 := countN C.WAKE_MATCH n (setSpan (sideOf lane.val) (fun _ => x) s)
      if fired && on F.WAKE_CFG_SPAN_EN s1 && !domOn dFRM s1 then wake (lane.val + 1) lane.val s1 else s1)

/-- LANE_ACTIVITY_WAKE (R412): source 0x3. -/
def execLaneActivityWake (port : Fin 6) (s : State) : Res :=
  done (if domState dLAN s == 1 && nbit (rd F.WAKE_CFG_LANE_EN s) port.val && maskAsleep s then wake 3 port.val s else s)

/-- CUE_WAKE (R412): source 0x5; the new level is the one CUE_CLOSE chooses. -/
def execCueWake (n : Fin 4) (closing : Bool) (s : State) : Res :=
  done (if nbit (rd F.WAKE_CFG_CUE_EN s) n.val && nbit (rd F.WAKE_CFG_CUE_CLOSE s) n.val == closing && maskAsleep s then
      wake 5 n.val s
    else s)

/-! ### The keeper timer (R414) -/

/-- Commit a write of KTIMER_CFG: with ENABLE = 1 the countdown is loaded, MS 0 acting as 1. -/
def ktimerWrite (v : Word) (s : State) : State :=
  let s1 := setReg R.KTIMER_CFG (v &&& 0x100FFFFFF) s
  if fget v 32 32 == 1 then setPwr (fun p => { p with ktimer := some (48 * max 1 (fget v 23 0)) }) s1
  else setPwr (fun p => { p with ktimer := none }) s1

/-- KTIMER_STATUS as it reads: milliseconds left. -/
def ktimerView (s : State) : Word := BitVec.ofNat 40 ((s.pwr.ktimer.getD 0 + 47) / 48)

/-- One tick of the countdown. -/
def ktimerTick (s : State) : State := setPwr (fun p => { p with ktimer := p.ktimer.map (· - 1) }) s

/-- KEEPER_TIMER_EXPIRY (R414, R412): source 0x6. -/
def execKeeperTimerExpiry (s : State) : Res :=
  done (if s.pwr.ktimer == some 0 then
      let s1 := wr F.KTIMER_CFG_ENABLE 0 (setPwr (fun p => { p with ktimer := none }) s)
      if on F.WAKE_CFG_TIMER_EN s1 && maskAsleep s1 then wake 6 0 s1 else s1
    else s)

/-- R419: rest ended for a Zwirdo transaction alone resumes, if every domain still sleeps. -/
def restResume (s : State) : State :=
  if s.pwr.restAgain && allAsleep s && s.pwr.run.isNone then beginRest s else s

end Sys2Proof.Machine
end

