-- ==== Sys2Proof/Machine/Reset.lean ====
section
/-! DEFINITION. Taking a reset, what each kind of it keeps, and the request of a soft reset
(spec/02_power_up_straps_selftest.md R36-R41, R58; spec/04 R96). -/

namespace Sys2Proof.Machine

/-- The four kinds of reset. -/
inductive ResetKind where
  | powerOn | pin | brownOut | soft
deriving DecidableEq, Repr

/-- The RESET_CAUSE bit a reset of this kind sets itself; a soft reset's source has set its bit (R39). -/
def causeOf : ResetKind → Nat
  | .powerOn => 2
  | .pin => 4
  | .brownOut => 8
  | .soft => 0

/-- R37: the bypass record: a reset other than a power-on reset that finds the generator armed. -/
def bypassRecord (kind : ResetKind) (s : State) : Bool := kind != .powerOn && on F.BYPASS_STATUS_KA_ARMED s

/-- The keeper registers a reset of this kind keeps, with their values (R37, R39, R41, R96; notes/assumptions/20.md). -/
def keeperRegs (kind : ResetKind) (s : State) : List (Nat × Word) :=
  let cause := (reg R.RESET_CAUSE s).toNat ||| causeOf kind
  match kind with
  | .powerOn => [(R.RESET_CAUSE, 2)]
  | .pin => [(R.RESET_CAUSE, BitVec.ofNat 40 cause), (R.STRAP_LATCH, reg R.STRAP_LATCH s)]
  | .brownOut | .soft =>
    [(R.RESET_CAUSE, BitVec.ofNat 40 cause), (R.STRAP_LATCH, reg R.STRAP_LATCH s), (R.SPAN_WAKE, reg R.SPAN_WAKE s),
     (R.WAKE_CFG, reg R.WAKE_CFG s), (R.WAKE_MASK, reg R.WAKE_MASK s), (R.WAKE_STATUS, reg R.WAKE_STATUS s),
     (R.KTIMER_CFG, reg R.KTIMER_CFG s), (R.KEEPER_RC, reg R.KEEPER_RC s)]

/-- What the keeper keeps of the power controller's state: its countdown. -/
def keeperPwr (kind : ResetKind) (s : State) : PwrSt :=
  match kind with
  | .powerOn | .pin => {}
  | .brownOut | .soft => { ktimer := s.pwr.ktimer }

/-- R37: the bypass record in the registers. -/
def recordBypass (rec_ : Bool) (s : State) : State :=
  if rec_ then
    { (s |> wr F.BYPASS_STATUS_CAUSE 1 |> wr F.BYPASS_STATUS_INSERTED 1) with byp := { s.byp with ending := some .reset } }
  else s

/-- R213: the key store after a reset: the identity key is erased only without power. -/
def keptKeys (kind : ResetKind) (s : State) : List (Nat × List Byte) :=
  if kind == .powerOn then [] else s.key.slots.filter (fun p => p.1 == 0)

/-- R41, R58, R213, R464: every block at its reset values, but the keeper; the flash, the commands waiting and what was sent
stay; the outputs take their idle state. -/
def blocksReset (kind : ResetKind) (s : State) : State :=
  { State.reset with
    regs := [], pwr := keeperPwr kind s, jtag := if kind == .powerOn then {} else s.jtag
    key := { slots := keptKeys kind s }
    flash := s.flash, freeCtr := s.freeCtr, out := .outputsIdle :: s.out, pending := s.pending }

/-- R40: the straps are latched again after a power-on or a pin reset; `due` tells that the release of an earlier one has
not come yet. -/
def strapsAgain (kind : ResetKind) (due : Bool) (s : State) : State :=
  { s with boot := { strapsDue := kind == .powerOn || kind == .pin || due } }

/-- R37-R39, R41, R58, R464: take a reset. The keeper's registers are carried over, the latched straps give their
defaults again, and the bypass keeps its record. -/
def takeReset (kind : ResetKind) (s : State) : State :=
  let s1 := eachOf (keeperRegs kind s) (fun s p => setReg p.1 p.2 s) (blocksReset kind s)
  let s2 := recordBypass (bypassRecord kind s) (applyStraps (strapsAgain kind s.boot.strapsDue s1))
  if kind == .powerOn then s2 else alertSet A.STATE s2

/-- R38, R39: a request of a soft reset: its source's bit is set; the first one starts the run-down of both axes, and a
second is merged with it. -/
def softRequest (cause : Fld) (s : State) : State :=
  let s1 := wr ⟨R.RESET_CAUSE, cause.hi, cause.lo⟩ 1 s
  if s1.boot.softPending then s1
  else rundownAll 4 { s1 with boot := { s1.boot with softPending := true } }

/-- May a soft reset be requested: in every state from SELFTEST onward (R423). -/
def softServed (s : State) : Bool := s.term != .reset

end Sys2Proof.Machine
end

