-- ==== Sys2Proof/Machine/UpQueue.lean ====
section
/-! DEFINITION. The upstream note queue (spec/07_management_notes.md R192, "Upstream notes"). -/

namespace Sys2Proof.Machine

/-- Upstream note types. -/
def nASSIGN_ACK : Nat := 0x41
def nNOTE_ACK : Nat := 0x42
def nRANGE_REPORT : Nat := 0x43
def nLEAVE_REQ : Nat := 0x44
def nMAP_REQ : Nat := 0x45
def nSTATUS : Nat := 0x46
def nIMAGE_STATUS : Nat := 0x47
def nHOST_MSG_UP : Nat := 0x60

/-- R192: place in the priority order, 1 first. -/
def upRank (type : Nat) : Nat := if type == nHOST_MSG_UP then 8 else type - 0x40

/-- R192: the note that gives way when 17 are present: the newest of the lowest priority. -/
def upVictim (l : List UpNote) : Nat :=
  let low := l.foldl (fun m n => max m (upRank n.type)) 0
  l.length - 1 - (l.reverse.findIdx (fun n => upRank n.type == low))

/-- R192: a note arrives at the queue. -/
def upPush (n : UpNote) (s : State) : State :=
  let l := s.note.up ++ [n]
  if l.length ≤ 16 then setNote (fun x => { x with up := l }) s
  else count C.NOTE_UP_DROPPED (setNote (fun x => { x with up := l.eraseIdx (upVictim l) }) s)

/-- A new upstream note: it takes the next SEQ of the terminal's one counter. -/
def queueUp (type : Nat) (body : List Byte) (s : State) : State :=
  let seq := s.note.upSeq
  upPush { type, seq, body, age := 0 }
    (setNote (fun x => { x with upSeq := (seq + 1) % 256, last := lput (256, []) type (seq, body) x.last }) s)

/-- R182: a note sent again keeps its SEQ. -/
def queueAgain (type : Nat) (body : List Byte) (s : State) : State :=
  let l := lget (256, []) s.note.last type
  if l.1 < 256 && l.2 == body then upPush { type, seq := l.1, body, age := 0 } s else queueUp type body s

/-- R192: a note due for repetition is not queued while an identical copy still waits; a repeat keeps its SEQ. -/
def queueRepeat (type : Nat) (body : List Byte) (s : State) : State :=
  if s.note.up.any (fun n => n.type == type && n.body == body) then s
  else
    let l := lget (256, []) s.note.last type
    if l.1 < 256 && l.2 == body then upPush { type, seq := l.1, body, age := 0 } s else queueUp type body s

/-- Words a note takes: its header and its body. -/
def upWords (n : UpNote) : Nat := 1 + (n.body.length + 4) / 5

/-- R171: the words of a note sent by terminal `id`. -/
def upEncode (id : Nat) (n : UpNote) : List Word :=
  let hid := if n.type == 0x40 then 0 else id
  BitVec.ofNat 40 (n.type * 2 ^ 32 + hid * 2 ^ 24 + n.seq * 2 ^ 16 + n.body.length * 2 ^ 6) :: toWords n.body

/-- R192: fill `room` words in priority order, oldest first; a note that does not fit waits, and a smaller one behind it
may go. Answers the notes taken, in order. -/
def upTake : (ranked : List UpNote) → (room : Nat) → List UpNote
  | [], _ => []
  | n :: r, room => if upWords n ≤ room then n :: upTake r (room - upWords n) else upTake r room

/-- Notes in the order of R192. -/
def byRank (l : List UpNote) : List UpNote := (List.range 9).flatMap (fun k => l.filter (fun n => upRank n.type == k))

/-- NOTE_UP_STATUS as it reads. -/
def noteUpView (s : State) : Word :=
  let age := s.note.up.foldl (fun m n => max m n.age) 0
  BitVec.ofNat 40 (s.note.up.length * 256 + min 127 age)

end Sys2Proof.Machine
end

