-- ==== Sys2Proof/Machine/Glean.lean ====
section
/-! DEFINITION. Images, the carousel collection, the swap and its journal, the trial, host staging
(spec/19_gleaning_firmware_settings.md R427-R445). -/

namespace Sys2Proof.Machine

/-! ### One-time memory (R212) -/

/-- Bytes of the one-time memory. -/
def otpBytes (o n : Nat) : List Byte := (List.range n).map (fun i => Config.otp (o + i))

def identityPub : List Byte := otpBytes 0 64
def wrappingKey : List Byte := otpBytes 64 32
def wrappedIdentity : List Byte := otpBytes 96 40
def rootDigest (secondary : Bool) : List Byte := otpBytes (if secondary then 168 else 136) 32

/-- The admission fingerprint (spec/03): bytes 0 to 4 of the SHA-256 digest of the identity public key. -/
def fingerprint : List Byte := (sha256 identityPub).take 5

/-! ### Image verification (R429, R430) -/

/-- BODY_LEN of a manifest. -/
def bodyLen (m : List Byte) : Nat := beNat (slice m 16 4)

/-- VERSION of a manifest. -/
def imageVersion (m : List Byte) : Nat := beNat (slice m 12 4)

/-- Flag SETTINGS_FRESH of a manifest. -/
def imageFresh (m : List Byte) : Bool := nbit (byteAt m 5) 0

/-- R430, check 1. -/
def manifestOk (m : List Byte) (s : State) : Bool :=
  slice m 0 4 == [0x43, 0x52, 0x4C, 0x49] && byteAt m 4 == 1 && decide (byteAt m 5 ≤ 1) && beNat (slice m 6 2) == 0x0F40 &&
    decide (byteAt m 8 ≤ rd F.DEVICE_IDENT_SILICON s) && slice m 9 3 == [0, 0, 0] && imageVersion m != 0 &&
    slice m 308 76 == List.replicate 76 0 && decide (1 ≤ bodyLen m) && decide (bodyLen m ≤ 1048192)

/-- R430, check 2. -/
def keysOk (m : List Byte) : Bool :=
  sha256 (slice m 52 64) == rootDigest false && sha256 (slice m 116 64) == rootDigest true

/-- One signature of a manifest. -/
def signatureOk (m : List Byte) (key sig : Nat) : Bool :=
  let q := bytesPoint (slice m key 64)
  let rs := bytesPoint (slice m sig 64)
  verifyOp q.1 q.2 rs.1 rs.2 (beNat (sha256 (slice m 0 180))) == sigOK

/-- R430: the sub-code of the first check that fails, 0 where the image verifies. -/
def verifyImage (m body : List Byte) (s : State) : Nat :=
  if !manifestOk m s || !keysOk m then 2
  else if !(signatureOk m 52 180 && signatureOk m 116 244) then 1
  else if sha256 body != slice m 20 32 then 1 else 0

/-- The manifest in a slot. -/
def slotManifest (base : Nat) (s : State) : List Byte := flashRead base 384 s

/-- R430 applied to a slot. -/
def verifySlot (base : Nat) (s : State) : Nat :=
  let m := slotManifest base s
  if !manifestOk m s || !keysOk m then 2 else verifyImage m (flashRead (base + 384) (bodyLen m) s) s

/-- Bytes of the image in a slot; a slot with no valid manifest counts as a whole slot. -/
def slotLen (base : Nat) (s : State) : Nat :=
  let m := slotManifest base s
  if manifestOk m s then 384 + bodyLen m else 1048576

/-! ### Image state and the notes that tell it (R443, R183) -/

def iNONE : Nat := 0
def iCOLLECTING : Nat := 1
def iVERIFIED : Nat := 2
def iTRIAL : Nat := 3
def iCONFIRMED : Nat := 4
def iREVERTED : Nat := 5

def imageState (s : State) : Nat := rd F.GLEAN_STATUS_STATE s

/-- The body of IMAGE_STATUS: VERSION is the running image's in trial and confirmed, else the staged one's. -/
def imageStatusBody (s : State) : List Byte :=
  let st := imageState s
  let v := if st == iTRIAL || st == iCONFIRMED then rd F.IMAGE_RUNNING_VERSION s else rd F.IMAGE_STAGED_VERSION s
  [BitVec.ofNat 8 (rd F.GLEAN_STATUS_CAR_ID s), BitVec.ofNat 8 st] ++ bytesBE 3 (rd F.GLEAN_STATUS_PIECES s) ++ bytesBE 4 v

/-- Each change of image state raises IMAGE_STATE and sends IMAGE_STATUS. -/
def setImageState (st : Nat) (s : State) : State :=
  if imageState s == st then s
  else
    let s1 := raise E.IMAGE_STATE st (wr F.GLEAN_STATUS_STATE st s)
    queueUp nIMAGE_STATUS (imageStatusBody s1) s1

/-! ### The journal and the swap (R439-R442) -/

def jSWAP_REQ : Nat := 1
def jSWAP_BEGIN : Nat := 2
def jSTEP : Nat := 3
def jSWAP_END : Nat := 4
def jTRIAL_BOOTED : Nat := 5
def jCONFIRMED : Nat := 6

/-- Write a record of bytes 0 to 6. -/
def jWrite (code : Nat) (rest : List Byte) (s : State) : State := journalWrite (BitVec.ofNat 8 code :: rest) s

/-- Erase both journal sectors. -/
def journalErase (s : State) : State := flashEraseN fJOURNAL 2 s

/-- Erase a sector and copy another into it. -/
def copySector (dst src : Nat) (s : State) : State :=
  let s1 := flashErase dst s
  let cells := s1.flash.filter (fun p => decide (src ≤ p.1) && decide (p.1 < src + 4096))
  eachOf cells (fun s p => flashPut (dst + (p.1 - src)) p.2 s) s1

/-- R441: one of the three steps for sector `i`. -/
def swapStep (i step : Nat) (s : State) : State :=
  let p := fPRIMARY + 4096 * i
  let g := fSTAGING + 4096 * i
  let s1 := if step == 1 then copySector fSCRATCH g s else if step == 2 then copySector g p s else copySector p fSCRATCH s
  jWrite jSTEP (BitVec.ofNat 8 step :: bytesBE 2 i) s1

/-- R441: the steps from number `from_` (0 for sector 0, step 1) to the last, then SWAP_END. -/
def swapFrom (purpose n from_ : Nat) (s : State) : State :=
  let s1 := eachOf ((List.range (3 * n)).filter (fun k => decide (from_ ≤ k))) (fun s k => swapStep (k / 3) (k % 3 + 1) s) s
  jWrite jSWAP_END (BitVec.ofNat 8 purpose :: bytesBE 4 (imageVersion (slotManifest fPRIMARY s1))) s1

/-- R440, R441: a whole swap. -/
def swapWhole (purpose : Nat) (s : State) : State :=
  let n := (max (slotLen fPRIMARY s) (slotLen fSTAGING s) + 4095) / 4096
  swapFrom purpose n 0 (jWrite jSWAP_BEGIN (BitVec.ofNat 8 purpose :: bytesBE 2 n) (journalErase s))

/-- R441: the step to resume at: after the last STEP record, or the first. -/
def resumeAt (recs : List (List Byte)) : Nat :=
  match recs.getLast? with
  | some r => if byteAt r 0 == jSTEP then 3 * beNat (slice r 2 2) + byteAt r 1 else 0
  | none => 0

/-- R442: the loader acts on the journal: a swap is made, resumed or reverted, and a trial boot is recorded. -/
def loaderActs (s : State) : State :=
  let l := journalLast s
  let c := byteAt l 0
  let swapped :=
    if c == jSWAP_REQ then swapWhole (byteAt l 1) s
    else if c == jSWAP_BEGIN || c == jSTEP then
      let b := ((journal s).find? (fun r => byteAt r 0 == jSWAP_BEGIN)).getD []
      swapFrom (byteAt b 1) (beNat (slice b 2 2)) (resumeAt (journal s)) s
    else if c == jTRIAL_BOOTED then
      swapWhole 2 (jWrite jSWAP_REQ (2 :: bytesBE 4 (imageVersion (slotManifest fSTAGING s))) s)
    else s
  let e := journalLast swapped
  if byteAt e 0 == jSWAP_END && byteAt e 1 == 1 then jWrite jTRIAL_BOOTED (slice e 2 4) swapped else swapped

/-! ### Collection (R432-R438) -/

/-- The staging slot is held by a trial, a reverted image or the host. -/
def slotHeld (s : State) : Bool := imageState s == iTRIAL || imageState s == iREVERTED || on F.GLEAN_STATUS_HOST s

/-- R433: does the terminal collect. -/
def collecting (s : State) : Bool :=
  on F.GLEAN_CFG_ENABLE s && layoutOk s && domOn dMGT s && fromListening s && s.term != .leaving && !slotHeld s

/-- R435: start a collection with a bitmap header. -/
def startCollection (car pieces cause : Nat) (s : State) : State :=
  let s1 := flashProgAll fBITMAP (bitmapMagic ++ [BitVec.ofNat 8 car] ++ bytesBE 3 pieces) (flashErase fBITMAP s)
  let s2 := setGlean (fun g => { g with buf := [], hostNext := none, verifyDue := false }) s1
  s2 |> wr F.GLEAN_STATUS_CAR_ID car |> wr F.GLEAN_STATUS_PIECES 0 |> wr F.GLEAN_STATUS_HOST 0
     |> wr F.IMAGE_STAGED_VERSION 0 |> count C.GLEAN_RESTART |> raise E.GLEAN_RESTART cause |> setImageState iCOLLECTING

/-- The length of the image being collected, once piece 0 is held. -/
def collectedLen (s : State) : Option Nat :=
  if pieceHeld 0 s then some (384 + beNat (flashRead (fSTAGING + 16) 4 s)) else none

/-- A received piece: CAR_ID, piece number, VALID, and its 40 bytes (R431). -/
structure Piece where
  car : Nat
  num : Nat
  valid : Nat
  bytes : List Byte
  deriving DecidableEq, Repr

/-- The piece in frame words 119 to 128. -/
def pieceOf (ws : List Word) : Piece :=
  let h := ws.getD 0 0
  { car := fget h 39 32, num := fget h 31 14, valid := fget h 13 8, bytes := toBytes ((ws.drop 1).take 8) }

/-- R432: is VALID right for the piece. -/
def validOk (p : Piece) (n : Nat) (s : State) : Bool :=
  if p.num + 1 != n then p.valid == 40
  else
    match collectedLen s with
    | some len => if p.car == bitmapCar s && n == bitmapPieces s then p.valid + 40 * (n - 1) == len
                  else decide (1 ≤ p.valid) && decide (p.valid ≤ 40)
    | none => decide (1 ≤ p.valid) && decide (p.valid ≤ 40)

/-- R432: is a piece accepted. -/
def pieceOk (ws : List Word) (s : State) : Bool :=
  let p := pieceOf ws
  let n := s.frame.carPieces
  let chk := ws.getD 9 0
  s.frame.carId != 0 && p.car == s.frame.carId && fget chk 39 8 == crc32 (toBytes (ws.take 9)) && fget chk 7 0 == 0 &&
    fget (ws.getD 0 0) 7 0 == 0 && (p.bytes.drop p.valid).all (· == 0) && validOk p n s && decide (p.num < n) &&
    decide (n ≤ 26215)

/-- R435: start a new collection where the piece asks for one. -/
def restartFor (p : Piece) (n : Nat) (s : State) : State :=
  if !bitmapOk s || bitmapCar s != p.car || bitmapPieces s != n then startCollection p.car n 0 s
  else if p.num == 0 && pieceHeld 0 s && bitmapCrc s != crc32 p.bytes then startCollection p.car n 1 s
  else s

/-- A piece is judged and kept (R431-R433, R435, R437). -/
def takePiece (words : List Word) (s : State) : State :=
  if !collecting s then count C.GLEAN_IGNORED s
  else if !pieceOk words s then count C.GLEAN_PIECE_BAD s
  else
    let p := pieceOf words
    let s1 := restartFor p s.frame.carPieces s
    if pieceHeld p.num s1 then count C.GLEAN_PIECE_DUP s1
    else if 256 ≤ s1.glean.buf.length then count C.GLEAN_PIECE_DROP s1
    else setImageState iCOLLECTING (setGlean (fun g => { g with buf := g.buf ++ [(p.num, p.bytes.take p.valid)] }) s1)

/-- CAROUSEL_PIECE (R130, R431-R433, R435, R437): frame words 119 to 128 of a selected row 0, read once. -/
def execCarouselPiece (words : List Word) (s : State) : Res :=
  done (if frmRuns s && s.frame.slotDue then takePiece words (setFrame (fun f => { f with slotDue := false }) s) else s)

/-- R436: erase a staging sector once per collection. -/
def prepareSector (sec : Nat) (s : State) : State :=
  if bitmapBit 32 sec s then bitmapClear 32 sec (flashErase (fSTAGING + 4096 * sec) s) else s

/-- Sectors that `n` bytes from staging offset `o` touch. -/
def sectorsOf (o n : Nat) : List Nat := ((List.range 256).filter (fun k => decide (o / 4096 ≤ k) && decide (k ≤ (o + n - 1) / 4096)))

/-- R428: a second read-back mismatch at a flash address. -/
def flashFault (a : Nat) (s : State) : State := raise E.FLASH_FAULT (a / 4096 * 4096) (count C.FLASH_ERR s)

/-- R436: program one piece. -/
def programPiece (p : Nat) (b : List Byte) (s : State) : State :=
  let s1 := eachOf (sectorsOf (40 * p) b.length) (fun s k => prepareSector k s) s
  let s2 := bitmapClear 64 p (flashProgAll (fSTAGING + 40 * p) b s1)
  let s3 := if p == 0 then flashProgAll (fBITMAP + 8) (bytesBE 4 (crc32 (slice b 0 40))) s2 else s2
  let held := rd F.GLEAN_STATUS_PIECES s3 + 1
  let s4 := wr F.GLEAN_STATUS_PIECES held s3
  if held == bitmapPieces s4 then setGlean (fun g => { g with verifyDue := true }) s4 else s4

/-- PIECE_PROGRAM (R436, R428, R437): the oldest waiting piece; `fault` tells of a second read-back mismatch. -/
def execPieceProgram (fault : Bool) (s : State) : Res :=
  done (match s.glean.buf with
    | [] => s
    | (p, b) :: r =>
      if !domOn dMGT s then s
      else
        let s1 := setGlean (fun g => { g with buf := r }) s
        if pieceHeld p s1 then s1
        else if fault then
          startCollection (bitmapCar s1) (bitmapPieces s1) 4 (flashFault (fSTAGING + 40 * p) s1)
        else programPiece p b s1)

/-- R438: the staging slot is verified. -/
def stagedVerified (s : State) : State :=
  setImageState iVERIFIED (wr F.IMAGE_STAGED_VERSION (imageVersion (slotManifest fSTAGING s)) s)

/-- GLEAN_VERIFY (R438). -/
def execGleanVerify (s : State) : Res :=
  done (if !s.glean.verifyDue || !domOn dMGT s then s
    else
      let s1 := setGlean (fun g => { g with verifyDue := false }) s
      if verifySlot fSTAGING s1 == 0 then stagedVerified s1
      else startCollection (bitmapCar s1) (bitmapPieces s1) 2 (count C.GLEAN_VERIFY_FAIL s1))

/-! ### Start-up (R435, R442, R443) -/

/-- Does the staging slot still hold what its bitmap collected: piece 0 has the CRC the bitmap keeps. -/
def slotMatchesBitmap (s : State) : Bool := bitmapCrc s == crc32 (flashRead fSTAGING 40 s)

/-- At start-up the firmware takes the collection's state from the bitmap and the journal. -/
def gleanStart (s : State) : State :=
  if !layoutOk s then s
  else
    let last := journalLast s
    let s0 := s |> wr F.GLEAN_STATUS_CAR_ID (bitmapCar s) |> wr F.GLEAN_STATUS_HOST (b2n (bitmapOk s && bitmapCar s == 0))
    let n := bitmapPieces s
    let s1 := wr F.GLEAN_STATUS_PIECES (piecesHeld (min n 26215) s) s0
    if byteAt last 0 == jTRIAL_BOOTED then setImageState iTRIAL s1
    else if !bitmapOk s then
      s1 |> flashErase fBITMAP |> wr F.GLEAN_STATUS_CAR_ID 0 |> wr F.GLEAN_STATUS_PIECES 0 |> count C.GLEAN_RESTART
         |> raise E.GLEAN_RESTART 3
    else if bitmapCar s == 0 then (if byteAt last 0 == jSWAP_END then setImageState iREVERTED s1 else s1)
    else if rd F.GLEAN_STATUS_PIECES s1 < n then setImageState iCOLLECTING s1
    else if byteAt last 0 == jSWAP_END then setImageState iREVERTED s1
    else if byteAt last 0 == jCONFIRMED && !slotMatchesBitmap s then setImageState iCONFIRMED s1
    else setImageState iCOLLECTING (setGlean (fun g => { g with verifyDue := true }) s1)

/-! ### Orders (R439, R443, R190) -/

/-- R439: may the staged image of that CAR_ID and version be swapped in. -/
def swapAllowed (car version : Option Nat) (s : State) : Bool :=
  layoutOk s && imageState s == iVERIFIED && car.all (· == rd F.GLEAN_STATUS_CAR_ID s) &&
    version.all (· == rd F.IMAGE_STAGED_VERSION s) && rd F.IMAGE_STAGED_VERSION s != rd F.IMAGE_RUNNING_VERSION s &&
    rd F.BOOT_STATUS_SOURCE s != 1 && !onTrial s

/-- Stage a swap; `bit` is the RESET_CAUSE bit of its source. Of two, the earlier tick stands (R21 for the same tick). -/
def stageSwap (t bit : Nat) (s : State) : State :=
  match s.glean.swap with
  | some (t0, _) =>
    if t0 == t then count C.STAGE_SUPERSEDED (setGlean (fun g => { g with swap := some (t, bit) }) s)
    else if tickDiff t t0 < 0 then setGlean (fun g => { g with swap := some (t, bit) }) s else s
  | none => setGlean (fun g => { g with swap := some (t, bit) }) s

/-- The RESET_CAUSE field of a bit number. -/
def causeField (bit : Nat) : Fld := ⟨R.RESET_CAUSE, bit, bit⟩

/-- SWAP_TICK (R439): the record SWAP_REQ is written and a soft reset taken. A swap whose image is no longer held
verified is dropped. -/
def execSwapTick (s : State) : Res :=
  done (match s.glean.swap with
    | none => s
    | some (t, bit) =>
      if !tickDue t s.bt then s
      else
        let s1 := setGlean (fun g => { g with swap := none }) s
        if imageState s1 != iVERIFIED then s1
        else softRequest (causeField bit) (jWrite jSWAP_REQ (1 :: bytesBE 4 (rd F.IMAGE_STAGED_VERSION s1)) s1))

/-- R443: CONFIRM. -/
def confirmTrial (s : State) : State :=
  let s1 := jWrite jCONFIRMED (bytesBE 4 (rd F.IMAGE_RUNNING_VERSION s)) s
  setImageState iCONFIRMED (wr F.IMAGE_RUNNING_TRIAL 0 (settingsConfirm s1.glean.fresh s1))

/-- TRIAL_EXPIRED (R443): TRIAL_LIMIT cycles have passed since the end of self-test. No bit of RESET_CAUSE names
this source, and none is set (notes/assumptions/62.md). -/
def execTrialExpired (s : State) : Res :=
  let lim := rd F.GLEAN_CFG_TRIAL_LIMIT s
  done (if onTrial s && lim != 0 && decide (48 * lim ≤ s.glean.trialTicks) && !s.boot.softPending then
      rundownAll 4 { (count C.TRIAL_EXPIRED s) with boot := { s.boot with softPending := true } }
    else s)

/-! ### Host staging (R445) -/

/-- R445: may the host write the staging slot. -/
def stagingOpen (s : State) : Bool := layoutOk s && !onTrial s && s.glean.swap.isNone && imageState s != iTRIAL

/-- R445: give up a host collection. -/
def releaseStaging (s : State) : State :=
  setGlean (fun g => { g with hostNext := none })
    (setImageState iNONE (wr F.GLEAN_STATUS_HOST 0 (wr F.IMAGE_STAGED_VERSION 0 (flashErase fBITMAP s))))

/-- R445: offset 0 starts a host collection: a bitmap header with CAR_ID 0. -/
def beginHostStaging (s : State) : State :=
  let s1 := flashProgAll fBITMAP (bitmapMagic ++ [0, 0, 0, 0]) (flashErase fBITMAP s)
  let s2 := setGlean (fun g => { g with buf := [], hostNext := some 0, verifyDue := false }) s1
  s2 |> wr F.GLEAN_STATUS_CAR_ID 0 |> wr F.GLEAN_STATUS_PIECES 0 |> wr F.GLEAN_STATUS_HOST 1 |> wr F.IMAGE_STAGED_VERSION 0
     |> setImageState iCOLLECTING

/-- R445: write bytes at a staging offset. -/
def writeStaging (off : Nat) (b : List Byte) (s : State) : State :=
  let s1 := eachOf (sectorsOf off b.length) (fun s k => prepareSector k s) s
  setGlean (fun g => { g with hostNext := some (off + b.length) }) (flashProgAll (fSTAGING + off) b s1)

end Sys2Proof.Machine
end

