-- ==== Sys2Proof/Machine/Keys.lean ====
section
/-! DEFINITION. The key store, the use of keys, protection of containers and windows, the entropy source, the DRBG and
the signature unit (spec/09_keys_cipher_signatures.md R212-R236). -/

namespace Sys2Proof.Machine

/-! ### Draws (R144, R146, R214, R235) -/

/-- `n` bytes drawn from the DRBG. -/
def drawBytes (n : Nat) (s : State) : List Byte × State :=
  ((List.range n).map (fun i => Config.drawByte s.freeCtr i), { s with freeCtr := s.freeCtr + 1 })

/-- R232-R234: does the DRBG give output. -/
def drbgRuns (s : State) : Bool := rd F.DRBG_STATUS_STATE s == 1 || rd F.DRBG_STATUS_STATE s == 2

/-- R234: do the AES cores run. -/
def coresRun (s : State) : Bool := domOn dCIP s && drbgRuns s

/-! ### Slots (R213, R221, R222) -/

/-- The key a slot holds. -/
def keySlot (n : Nat) (s : State) : Option (List Byte) := SMap.find s.key.slots n

/-- Fill a slot; its use starts afresh. -/
def putSlot (n : Nat) (k : List Byte) (s : State) : State :=
  setKey (fun x => { x with slots := (SMap.del x.slots n).ins n k, uses := SMap.del x.uses n,
                            expanding := x.expanding.filter (fun p => p.1 != n) }) s

/-- Erase the slots a test names. -/
def eraseSlots (p : Nat → Bool) (s : State) : State :=
  setKey (fun x => { x with slots := x.slots.filter (fun e => !p e.1), uses := x.uses.filter (fun e => !p e.1),
                            expanding := x.expanding.filter (fun e => !p e.1) }) s

/-- The session's slots 1 to 3. -/
def isSession (n : Nat) : Bool := decide (1 ≤ n) && decide (n ≤ 3)

/-- A group key's slot. -/
def isGroup (n : Nat) : Bool := decide (16 ≤ n) && decide (n < 32)

/-- A terminal key's slot. -/
def isTerminal (n : Nat) : Bool := decide (32 ≤ n) && decide (n < 48)

/-- The slot of a key kind and generation. -/
def keyNo (terminal : Bool) (g : Nat) : Nat := (if terminal then 32 else 16) + g

/-- R20, R221: the generation in effect for work tagged `t`; from an announced effective tick on it is the next one. -/
def genFor (t : Nat) (s : State) : Nat :=
  if tickDiff t s.key.genFrom < 0 then s.key.prevGen
  else if s.frame.keyNext.any (fun n => tickDue n t) then (rd F.FRAME_GEN_KEY_GEN s + 1) % 16
  else rd F.FRAME_GEN_KEY_GEN s

def keyUse (n : Nat) (s : State) : KeyUse := lget {} s.key.uses n

/-- R222: a key that is held, usable and not disabled. -/
def usableKey (n : Nat) (s : State) : Option (List Byte) :=
  if (keyUse n s).disabled || s.key.expanding.any (fun p => p.1 == n) then none else keySlot n s

/-- R222: disable a key. -/
def disableKey (n : Nat) (s : State) : State :=
  if (keyUse n s).disabled then s
  else
    let s1 := setKey (fun x => { x with uses := lput {} n { keyUse n s with disabled := true } x.uses }) s
    raise E.KEY_DISABLED (n % 16 + (if isTerminal n then 16 else 0)) (count C.KEY_DISABLED s1)

/-- R222: one invocation. -/
def invokeKey (n : Nat) (s : State) : State :=
  let u := keyUse n s
  let s1 := setKey (fun x => { x with uses := lput {} n { u with invocations := u.invocations + 1 } x.uses }) s
  let lim := rd F.CIPHER_CFG_INVOC_LOG2 s
  if lim != 63 && decide (2 ^ lim ≤ u.invocations + 1) then disableKey n s1 else s1

/-- R222: one tag failure. -/
def failKey (n : Nat) (s : State) : State :=
  let u := keyUse n s
  let s1 := setKey (fun x => { x with uses := lput {} n { u with failures := u.failures + 1 } x.uses }) s
  if 2 ^ rd F.CIPHER_CFG_FAIL_LOG2 s ≤ u.failures + 1 then disableKey n s1 else s1

/-- R213, R215: is a valid HOUSE_PUB held. -/
def houseHeld (s : State) : Bool :=
  let q := bytesPoint s.key.housePub
  s.key.housePub.length == 64 && pointStatus q.1 q.2 == sigOK

/-- Bits of the slots held from `base`. -/
def heldBits (base : Nat) (s : State) : Nat :=
  (List.range 16).foldl (fun n g => if (keySlot (base + g) s).isSome then n + 2 ^ g else n) 0

/-- KEY_STATUS as it reads. -/
def keyStatusView (s : State) : Word :=
  let g := rd F.FRAME_GEN_KEY_GEN s
  let dis := (keyUse (16 + g) s).disabled || (keyUse (32 + g) s).disabled
  BitVec.ofNat 40 (heldBits 16 s * 2 ^ 24 + heldBits 32 s * 2 ^ 8 + b2n dis * 16 + b2n (keySlot 3 s).isSome * 8 +
    b2n (keySlot 2 s).isSome * 4 + b2n (houseHeld s) * 2 + b2n (keySlot 0 s).isSome)

/-- KEY_READY (R220): two ticks after its answer an accepted key is usable. -/
def execKeyReady (terminal : Bool) (gen : BitVec 4) (s : State) : Res :=
  let n := keyNo terminal gen.toNat
  done (setKey (fun x => { x with expanding := x.expanding.filter (fun p => !(p.1 == n && tickDue p.2 s.bt)) }) s)

/-- KEY_ERASE (R221): at T + 48 ticks the keys of the generation before are erased. -/
def execKeyErase (s : State) : Res :=
  let due := s.key.eraseAt.filter (fun p => tickDue p.1 s.line)
  done (eachOf due (fun s p => eraseSlots (fun n => n == 16 + p.2 || n == 32 + p.2) s)
    (setKey (fun x => { x with eraseAt := x.eraseAt.filter (fun p => !tickDue p.1 s.line) }) s))

/-! ### Protection (R223-R227) -/

/-- R223: the IV. -/
def gcmIv (tick : Nat) (up : Bool) (tid obj : Nat) : List Byte :=
  bytesBE 5 (tick / 48) ++ [BitVec.ofNat 8 (tick % 48), if up then 1 else 0, BitVec.ofNat 8 tid] ++ bytesBE 2 obj ++ [0, 0]

/-- R224: the IV word of a container. -/
def ivWordDown (gen cont tick : Nat) : Word :=
  BitVec.ofNat 40 (gen * 2 ^ 36 + cont * 2 ^ 26 + tick % 48 * 2 ^ 20 + tick / 48 % 2 ^ 20)

/-- R225: the IV word of a window. -/
def ivWordUp (gen tid start used tick : Nat) : Word :=
  BitVec.ofNat 40 (gen * 2 ^ 36 + tid * 2 ^ 30 + start * 2 ^ 17 + used * 2 ^ 10 + tick % 48 * 2 ^ 4)

/-- R229: blocks a job costs for `c` ciphertext bytes. -/
def jobBlocks (c : Nat) : Nat := (c + 15) / 16 + 1

/-- R224, R226, R234: open a protected container; `none` where it is missing. -/
def openContainer (cont tick : Nat) (ws : List Word) (s : State) : Option (List Word) × State :=
  let g := genFor tick s
  let n := keyNo false g
  match (if coresRun s then usableKey n s else none) with
  | none => (none, count C.KEY_MISSING_DN s)
  | some k =>
    if ws.length < 2 then (none, count C.ENC_SHORT s)
    else if ws.getD 0 0 != ivWordDown g cont tick then (none, count C.IV_MISMATCH s)
    else
      let ct := (ws.drop 1).take (ws.length - 2)
      let tag := ws.getD (ws.length - 1) 0
      let iv := gcmIv tick false 0 cont
      let s1 := invokeKey n s
      if wordBytes tag == gcmTag k iv (wordBytes (ws.getD 0 0)) (toBytes ct) ++ [0] then
        (some (toWords (gcmCrypt k iv (toBytes ct))), s1)
      else (none, count C.TAG_FAIL (failKey n s1))

/-- R225, R227: protect the items of a burst; the payload words, `none` where the terminal key is absent. -/
def sealBurst (tid start tick : Nat) (items : List Word) (s : State) : Option (List Word) × State :=
  let g := genFor tick s
  let n := keyNo true g
  match (if coresRun s then usableKey n s else none) with
  | none => (none, count C.KEY_MISSING_UP s)
  | some k =>
    let ivw := ivWordUp g tid start (items.length + 2) tick
    let iv := gcmIv tick true tid start
    let ct := gcmCrypt k iv (toBytes items)
    (some (ivw :: toWords ct ++ [bytesWord (gcmTag k iv (wordBytes ivw) ct)]), invokeKey n s)

/-! ### Jobs (R229-R231) -/

/-- Is it the job of that kind, tag and object. -/
def isJob (up : Bool) (tag obj : Nat) (j : Job) : Bool := j.up == up && j.tag == tag && j.obj == obj

def findJob (up : Bool) (tag obj : Nat) (s : State) : Option Job := s.key.jobs.find? (isJob up tag obj)

def dropJob (up : Bool) (tag obj : Nat) (s : State) : State :=
  setKey (fun x => { x with jobs := x.jobs.filter (fun j => !isJob up tag obj j) }) s

/-- Blocks are demanded in this tick (CIPHER_LOAD). -/
def demandBlocks (n : Nat) (s : State) : State := setKey (fun x => { x with demand := x.demand + n }) s

/-- A new job of a frame. -/
def addJob (j : Job) (s : State) : State :=
  if (findJob j.up j.tag j.obj s).isSome then s
  else setKey (fun x => { x with jobs := x.jobs ++ [j], loads := lput 0 j.tag (lget 0 x.loads j.tag + j.blocks) x.loads }) s

/-- R230: does a job's deadline come before another's. -/
def jobBefore (a b : Job) : Bool := decide (tickDiff a.tag b.tag * 4160 + a.due < b.due)

/-- R230: of the jobs that wait for a core, the one with the earliest deadline. -/
def nextJob (s : State) : Option Job :=
  (s.key.jobs.filter (fun j => !j.done && j.core.isNone)).foldl
    (fun best j => match best with | none => some j | some b => if jobBefore j b then some j else best) none

/-- The job that runs on a core. -/
def jobOn (c : Nat) (s : State) : Option Job := s.key.jobs.find? (fun j => !j.done && j.core == some c)

/-- Change a job. -/
def modJob (j : Job) (f : Job → Job) (s : State) : State :=
  setKey (fun x => { x with jobs := x.jobs.map (fun k => if k == j then f k else k) }) s

/-- R230: a free core starts the job that comes first. -/
def startCore (s : State) (c : Nat) : State :=
  if (jobOn c s).isSome then s
  else
    match nextJob s with
    | some j => modJob j (fun k => { k with core := some c }) s
    | none => s

/-- R230: every free core starts a job. -/
def startCores (s : State) : State := if coresRun s then eachOf (List.range 6) startCore s else s

/-- R231: has a frame lately demanded more than the 1519 blocks that always finish by their deadlines. -/
def overloaded (s : State) : Bool := s.key.loads.any (fun p => decide (1519 < p.2))

/-- R231: is a job's keystream there when it is needed: always, short of an overload. -/
def jobReady (j : Job) (s : State) : Bool := j.done || !overloaded s

/-- When a side's tick marker of frame tick `t` is expected, in phases of the word clock (R230). -/
def expectAt (t : Nat) (x : SpanSide) : Option Int :=
  x.arr.head?.map (fun a => (a.time : Int) + 266240 * tickDiff t a.tick)

/-- R230: a job's deadline, in phases of the word clock: on the input that expects it first. -/
def jobDeadline (j : Job) (s : State) : Option Int :=
  (([s.span.w, s.span.e].filterMap (expectAt j.tag)).foldl
    (fun m t => match m with | none => some t | some u => some (min t u)) none).map (· + 64 * j.due)

/-- R231: does a downstream job that ends at time `now` miss its deadline. -/
def jobLate (j : Job) (now : Nat) (s : State) : Bool :=
  overloaded s && (j.words.isSome || (jobDeadline j s).any (fun d => decide (d < (now : Int))))

/-- CIPHER_LOAD at the end of a line tick. -/
def cipherTick (s : State) : State :=
  let n := min 4095 s.key.demand
  setKey (fun x => { x with demand := 0 })
    (wr F.CIPHER_LOAD_MAX_BLOCKS (max n (rd F.CIPHER_LOAD_MAX_BLOCKS s)) (wr F.CIPHER_LOAD_LAST_BLOCKS n s))

/-! ### Erasure with the ID (R221) -/

/-- Session and terminal keys go; group keys stay. -/
def eraseOnRelease (s : State) : State := eraseSlots (fun n => isSession n || isTerminal n) s

/-- Session, group and terminal keys go. -/
def eraseOnClear (s : State) : State :=
  setKey (fun x => { x with eraseAt := [] }) (eraseSlots (fun n => isSession n || isGroup n || isTerminal n) s)

/-! ### Key agreement (R214-R217) -/

/-- R216: K_CONF. -/
def kConf (nonce : List Byte) (id : Nat) (zS : List Byte) : List Byte :=
  hkdf (nonce ++ [BitVec.ofNat 8 id]) zS (ascii "CORLOS conf") 32

/-- R216: the ASSIGN_ACK tag. -/
def ackTag (nonce : List Byte) (id : Nat) (zS eT eH : List Byte) : List Byte :=
  (hmac (kConf nonce id zS) (nonce ++ [BitVec.ofNat 8 id] ++ eT ++ eH)).take 16

/-- R216: K_WRAP. -/
def kWrap (nonce : List Byte) (id : Nat) (zS zE : List Byte) : List Byte :=
  hkdf (nonce ++ [BitVec.ofNat 8 id]) (zS ++ zE) (ascii "CORLOS wrap") 32

/-! ### KEY_LOAD (R186, R220) -/

/-- R220: is the generation of a KEY_LOAD next, past, or too far ahead. -/
def loadGen (gen g : Nat) : Nat :=
  let d := (gen + 16 - g) % 16
  if d == 1 then 0 else if d == 0 || decide (9 ≤ d) then 0x06 else 0x03

/-- Judge a KEY_LOAD body: the NOTE_ACK status. An accepted key is usable 2 ticks later. -/
def keyLoad (body : List Byte) (s : State) : Nat × State :=
  let gen := byteAt body 0
  let kind := byteAt body 1
  if 16 ≤ gen || 2 ≤ kind || (slice body 2 3).any (· != 0) then (0x03, s)
  else
    match keySlot 3 s with
    | none => (0x07, s)
    | some kw =>
      match keyUnwrap kw (slice body 5 40) with
      | none => (0x07, s)
      | some k =>
        let r := loadGen gen (rd F.FRAME_GEN_KEY_GEN s)
        if r != 0 then (r, s)
        else
          let n := keyNo (kind == 1) gen
          (0x00, setKey (fun x => { x with expanding := x.expanding ++ [(n, tickAdd s.bt 2)] }) (putSlot n k s))

/-! ### Entropy and the DRBG (R232-R234) -/

/-- R232: the repetition count test: a run of 11 equal samples fails; `run` of `last` came before. -/
def rctFails : (last : Option Byte) → (run : Nat) → List Byte → Bool
  | _, _, [] => false
  | last, run, x :: r =>
    let n := if last == some x then run + 1 else 1
    decide (11 ≤ n) || rctFails (some x) n r

/-- R232: the adaptive proportion test of one window of at most 512 samples. -/
def aptFails (ws : List Byte) : Bool :=
  match ws.take 512 with
  | [] => false
  | x :: r => decide (177 ≤ (x :: r).count x)

/-- R232: do `n` consecutive samples pass both tests, window by window. -/
def samplesPass (n : Nat) (ws : List Byte) : Bool :=
  ws.length == n && !rctFails none 0 ws && !(List.range ((n + 511) / 512)).any (fun k => aptFails (ws.drop (512 * k)))

/-- ENTROPY_FAIL (R232, R233): `samples` are those of the window under test; it is discarded if a test fails on it. -/
def execEntropyFail (samples : List Byte) (s : State) : Res :=
  let rct := rctFails none 0 samples
  done (if !domOn dCIP s || rd F.ENTROPY_STATUS_STATE s < 2 || !(rct || aptFails samples) then s
    else
      let s1 := wr F.ENTROPY_STATUS_STATE 3 (count (if rct then C.ENTROPY_FAIL_RCT else C.ENTROPY_FAIL_APT) s)
      if s1.key.entRaised then s1
      else raise E.ENTROPY_FAIL (b2n (!rct)) (setKey (fun x => { x with entRaised := true }) s1))

/-- DRBG_RESEED (R233): the reseed of this cycle, from 192 samples; it is deferred where the source withholds output or the
samples fail. -/
def execDrbgReseed (samples : List Byte) (s : State) : Res :=
  done (if !drbgRuns s || !domOn dCIP s then s
    else
      if samplesPass 192 samples && rd F.ENTROPY_STATUS_STATE s == 2 then
        s |> wr F.DRBG_STATUS_SINCE_RESEED 0 |> wr F.DRBG_STATUS_STATE 1
      else
        s |> wr F.DRBG_STATUS_SINCE_RESEED (min 255 (rd F.DRBG_STATUS_SINCE_RESEED s + 1)) |> wr F.DRBG_STATUS_STATE 2
           |> count C.DRBG_RESEED_LATE)

/-- A source that was withholding output releases it. -/
def entropyBack (s : State) : State := if rd F.ENTROPY_STATUS_STATE s == 3 then wr F.ENTROPY_STATUS_STATE 2 s else s

/-- DRBG_REINSTANTIATE (R233): 1024 consecutive samples passed, which ends a retest too. -/
def execDrbgReinstantiate (samples : List Byte) (s : State) : Res :=
  done (if rd F.DRBG_STATUS_STATE s == 3 && domOn dCIP s && samplesPass 1024 samples then
      startCores (entropyBack (s |> wr F.DRBG_STATUS_STATE 1 |> wr F.DRBG_STATUS_SINCE_RESEED 0))
    else s)

/-- ENTROPY_RETEST_PASS (R233): 1024 consecutive samples passed. -/
def execEntropyRetestPass (samples : List Byte) (s : State) : Res :=
  done (if domOn dCIP s && samplesPass 1024 samples then entropyBack s else s)

/-! ### The signature unit (R235, R236) -/

/-- Operation codes. -/
def sigCode : SigOp → Nat
  | .sha256 _ => 1
  | .hmac _ _ => 2
  | .hkdf _ _ _ _ => 3
  | .pointCheck _ _ => 4
  | .keyGen => 5
  | .ecdh _ _ _ => 6
  | .sign _ _ => 7
  | .verify _ _ _ _ _ => 8

/-- Status, output and the state after the draws of an operation. -/
def sigRun (op : SigOp) (s : State) : Nat × List Byte × State :=
  match op with
  | .sha256 m => (sigOK, sha256 m, s)
  | .hmac k m => (sigOK, hmac k m, s)
  | .hkdf salt ikm info len => (sigOK, hkdf salt ikm info len, s)
  | .pointCheck x y => (pointStatus x y, [], s)
  | .keyGen =>
    if !drbgRuns s then (sigNO_RANDOM, List.replicate 64 0, s)
    else
      let (draw, s1) := drawBytes 40 s
      (sigOK, publicOf (scalarOf draw), s1)
  | .ecdh d x y => let r := ecdhOp d x y; (r.1, r.2, s)
  | .sign d m =>
    if badScalar d then (sigBAD_SCALAR, List.replicate 64 0, s)
    else if !drbgRuns s then (sigNO_RANDOM, List.replicate 64 0, s)
    else
      let (draw, s1) := drawBytes 40 s
      let r := signOp d (scalarOf draw) (beNat (sha256 m))
      (r.1, r.2, s1)
  | .verify x y r t m => (verifyOp x y r t (beNat (sha256 m)), [], s)

/-- SIG_OP_DONE (R235, R236). -/
def execSigOpDone (op : SigOp) (s : State) : Res :=
  done (if !domOn dCIP s then s
    else
      let (st, out, s1) := sigRun op s
      s1 |> wr F.SIG_STATUS_LAST_OP (sigCode op) |> wr F.SIG_STATUS_LAST_STATUS st
         |> whenB (st != sigOK) (count C.SIG_OP_FAIL) |> emit (.sigResult out st))

end Sys2Proof.Machine
end

