-- ==== Sys2Proof/Machine/LaneTest.lean ====
section
/-! DEFINITION. Lane tests: refusals, injection, checker and the tick of a lane (spec/20_lane_tests_counter_ledger.md
R451-R458; spec/04 R97-R98). Their start and end are in LaneRun.lean. -/

namespace Sys2Proof.Machine

def laneSt (n : Nat) (s : State) : LaneSt := s.lanes.getD n {}

/-- The domain of a lane: SPW, SPE, or LAN for the local lanes (R401). -/
def laneDomain (n : Nat) : Nat := if n = 0 then dSPW else if n = 1 then dSPE else dLAN

/-- Is the lane's domain ON and its gate open. -/
def laneReady (n : Nat) (s : State) : Bool :=
  domOn (laneDomain n) s && (decide (n < 2) || !laneGated (n - 2) s)

/-- R97: a write of LANEn_EQ. Fixed mode uses PEAK at once; a lane taken out of it, or out of tracking, keeps the setting it
has, and sweeps when it next gains CDR lock. -/
def laneEqWrite (n : Nat) (v : Word) (s : State) : State :=
  let s1 := setReg (R.LANE_EQ n) v s
  let mode := fget v 9 8
  let adapt := rd (F.LANE_STATUS_ADAPT n) s
  if mode == 0 && decide (domState (laneDomain n) s ≤ 1) then
    s1 |> wr (F.LANE_STATUS_ADAPT n) 3 |> wr (F.LANE_STATUS_PEAK_NOW n) (fget v 3 0)
  else if !on (F.LANE_STATUS_CDR_LOCK n) s then (if adapt == 3 then wr (F.LANE_STATUS_ADAPT n) 0 s1 else s1)
  else if adapt == 3 || (mode == 1 && adapt == 2) then wr (F.LANE_STATUS_ADAPT n) 0 s1
  else s1

/-- R457: why a write that would start a test is refused; 0 when it is not. `cfg` and `loop` are the registers as the
write would leave them. -/
def testRefusal (n : Nat) (cfg loop : Word) (s : State) : Nat :=
  if decide (n < 2) && (s.term != .listening || on F.ADMIT_TICK_PENDING s) then 1
  else if !laneReady n s then 2
  else if fget loop 1 0 == 3 && fget cfg 1 1 == 1 then 3
  else if 5 ≤ fget cfg 6 4 then 4 else 0

/-- R457: a refused write changes no field. -/
def refuseTest (n cause : Nat) (s : State) : State :=
  s |> wr (F.LANE_PRBS_STATUS_REFUSED n) 1 |> wr (F.LANE_PRBS_STATUS_CAUSE n) cause
    |> raise E.LANE_TEST_REFUSED (n + 16 * cause)

/-- R451, R458: what a write of either register asks of the next tick boundary; of two writes of one register in a tick
the later stands (R21). -/
def laneWritten (n off : Nat) (starts : Bool) (s : State) : State :=
  let s1 := boundaryWrite off s
  if starts then setLane n (fun l => { l with startAsk := true, endAsk := none }) s1
  else if rd (F.LANE_PRBS_CFG_RUN n) s1 == 0 && rd (F.LANE_LOOP_MODE n) s1 == 0 then
    setLane n (fun l => { l with startAsk := false, startDue := false,
                                 endAsk := if laneInTest n s1 then some 1 else none }) s1
  else s1

/-- Commit a write of LANEn_PRBS_CFG (R457). -/
def prbsCfgWrite (n : Nat) (v : Word) (s : State) : State :=
  let cause := if fget v 0 0 == 1 then testRefusal n v (reg (R.LANE_LOOP n) s) s else 0
  if cause != 0 then refuseTest n cause s
  else laneWritten n (R.LANE_PRBS_CFG n) (fget v 0 0 == 1) (setReg (R.LANE_PRBS_CFG n) v s)

/-- Commit a write of LANEn_LOOP (R456, R457). -/
def laneLoopWrite (n : Nat) (v : Word) (s : State) : State :=
  let cause := if fget v 1 0 != 0 then testRefusal n (reg (R.LANE_PRBS_CFG n) s) v s else 0
  if cause != 0 then refuseTest n cause s
  else laneWritten n (R.LANE_LOOP n) (fget v 1 0 != 0) (setReg (R.LANE_LOOP n) v s)

/-- R455: errors are placed in the running generator's pattern, or else replace data code-groups. -/
def placeErrors (n k : Nat) (s : State) : State :=
  emit (.inject n k (!(laneInTest n s && on (F.LANE_PRBS_CFG_RUN n) s && on (F.LANE_PRBS_CFG_GEN_EN n) s))) s

/-- Commit a write of LANEn_INJECT (R455, R457): refused for cause 0x2 only. A single error is placed at once; the first
of several also, and the rest follow as the line bits pass. -/
def injectWrite (n : Nat) (v : Word) (s : State) : State :=
  if fget v 7 6 != 0 && !laneReady n s then refuseTest n 2 s
  else
    let s1 := setReg (R.LANE_INJECT n) v s
    let total := max 1 (fget v 5 0)
    match fget v 7 6 with
    | 0 => setLane n (fun l => { l with inject := none, injBits := 0 }) s1
    | 1 => placeErrors n 1 (wr (F.LANE_INJECT_MODE n) 0 (setLane n (fun l => { l with inject := none, injBits := 0 }) s1))
    | 2 =>
      let s2 := placeErrors n 1 s1
      if total ≤ 1 then wr (F.LANE_INJECT_MODE n) 0 (setLane n (fun l => { l with inject := none, injBits := 0 }) s2)
      else setLane n (fun l => { l with inject := some (total - 1), injBits := 0 }) s2
    | _ => placeErrors n 1 (setLane n (fun l => { l with inject := some 0, injBits := 0 }) s1)

/-- Line bits of a tick, in 1/6 bit: 9.984 GBd, 3.125 GBd or 1.25 GBd (R308, R453). -/
def laneBits (n : Nat) (s : State) : Nat :=
  if n < 2 then 1248000 else if rd (F.ETH_CFG_MODE (n - 2)) s == 2 then 390625 else 156250

/-- R455: RATE, 10 to 40, and the nearer bound outside. -/
def injectRate (n : Nat) (s : State) : Nat := max 10 (min 40 (rd (F.LANE_INJECT_RATE n) s))

/-- One tick of a lane's injector. -/
def injectTick (n : Nat) (s : State) : State :=
  match (laneSt n s).inject with
  | none => s
  | some left =>
    let step := 6 * 2 ^ injectRate n s
    let acc := (laneSt n s).injBits + laneBits n s
    let k := acc / step
    let cont := rd (F.LANE_INJECT_MODE n) s == 3
    let placed := if cont then k else min k left
    let s1 := if placed = 0 then s else placeErrors n placed s
    if !cont && left ≤ k then
      wr (F.LANE_INJECT_MODE n) 0 (setLane n (fun l => { l with inject := none, injBits := 0 }) s1)
    else setLane n (fun l => { l with inject := some (if cont then 0 else left - k), injBits := acc % step }) s1

/-- Add to a 40-bit saturating checker register. -/
def satAdd (off n : Nat) (s : State) : State :=
  let v := (reg off s).toNat + n
  setReg off (BitVec.ofNat 40 (if countMax < v then countMax else v)) s

/-- R98, R451: LANEn_TX, and the start or end of a test that was asked for, come into force at the tick boundary. -/
def laneBoundary (n : Nat) (s : State) : State :=
  setLane n (fun l => { l with tx := reg (R.LANE_TX n) s, startDue := l.startDue || l.startAsk, startAsk := false,
                               endDue := l.endAsk.or l.endDue, endAsk := none }) s

/-! ### Patterns and the checker (R452, R454) -/

/-- R452: the degree of a pattern's sequence; the fixed pattern repeats every 10 bits. -/
def patDegree (p : Nat) : Nat := [7, 15, 23, 31].getD p 10

/-- The second tap of a PRBS polynomial. -/
def patTap (p : Nat) : Nat := [6, 14, 18, 28].getD p 10

/-- R452: the bit that follows the bits `r`, newest first. -/
def patNext (p : Nat) (r : List Bool) : Bool :=
  let last := r.getD (patDegree p - 1) false
  if p < 4 then last != r.getD (patTap p - 1) false else last

/-- R452: FIXED10 in the order it is sent. -/
def fixedBits (cfg : Word) : List Bool := (List.range 10).map (fun i => nbit (fget cfg 17 8) (9 - i))

/-- R454: do ten bits, newest first, match FIXED10 in one of its ten alignments. -/
def alignedFixed (cfg : Word) (r : List Bool) : Bool :=
  (List.range 10).any (fun k => (fixedBits cfg).rotateLeft k == r.reverse)

/-- A checker at work: what it holds, whether it is locked and has lost lock, and the bits and errors it has counted. -/
structure ChkRun where
  st : ChkSt
  locked : Bool
  lost : Bool := false
  bits : Nat := 0
  errs : Nat := 0
deriving DecidableEq, Repr

/-- R454: the checker takes one received bit, as LANEn_PRBS_CFG `cfg` says. -/
def chkBit (cfg : Word) (x : ChkRun) (raw : Bool) : ChkRun :=
  let p := fget cfg 6 4
  let b := raw != (fget cfg 3 3 == 1)
  let r := x.st.reg
  let e := patNext p r
  let next := (e :: r).take (patDegree p)
  if x.locked then
    let pos := x.st.pos + 1
    let recent := x.st.errs.filter (fun q => decide (pos - q < 1024))
    let errs := if b == e then recent else pos :: recent
    let y := { x with bits := x.bits + 1, errs := x.errs + b2n (b != e) }
    if 128 ≤ errs.length then { y with st := {}, locked := false, lost := true }
    else { y with st := { x.st with reg := next, pos, errs } }
  else if r.length < patDegree p then
    let seed := b :: r
    { x with st := { reg := if p == 4 && seed.length == 10 && !alignedFixed cfg seed then seed.take 9 else seed } }
  else if b == e then
    if x.st.run + 1 = 256 then { x with st := { reg := next }, locked := true, bits := x.bits + 256 }
    else { x with st := { x.st with reg := next, run := x.st.run + 1 } }
  else { x with st := {} }

/-- The checker of a lane over received bits. -/
def chkBits (n : Nat) (bits : List Bool) (s : State) : ChkRun :=
  bits.foldl (chkBit (reg (R.LANE_PRBS_CFG n) s)) { st := (laneSt n s).chk, locked := on (F.LANE_PRBS_STATUS_LOCKED n) s }

/-- R454: the bits a lane in a test has received go through its checker, and what it compared is counted. -/
def checkLane (n : Nat) (bits : List Bool) (s : State) : State :=
  if laneInTest n s && on (F.LANE_PRBS_CFG_CHK_EN n) s then
    let x := chkBits n bits s
    let acc := (laneSt n s).rem + x.bits
    s |> wr (F.LANE_PRBS_STATUS_LOCKED n) (b2n x.locked) |> whenB x.lost (wr (F.LANE_PRBS_STATUS_SYNC_LOSS n) 1)
      |> satAdd (R.LANE_PRBS_BITS n) (acc / 1024) |> satAdd (R.LANE_PRBS_ERR n) x.errs
      |> setLane n (fun l => { l with rem := acc % 1024, chk := x.st })
  else s

/-- One tick of a lane: the time of a running test, and the bits its checker received. -/
def laneTick (n : Nat) (bits : List Bool) (s : State) : State :=
  let s0 := injectTick n (laneBoundary n s)
  if !laneInTest n s0 then s0
  else
    let t := (laneSt n s0).ticks + 1
    checkLane n bits (wr (F.LANE_PRBS_STATUS_ELAPSED n) (min 65535 (t / 48)) (setLane n (fun l => { l with ticks := t }) s0))

/-- R458: an accepted ADMIT ends the tests of the Span lanes at the next tick boundary. -/
def endSpanTests (s : State) : State :=
  let stop (n : Nat) (s : State) : State :=
    if laneInTest n s || (laneSt n s).startDue || (laneSt n s).startAsk then
      setLane n (fun l => { l with endAsk := some 4 }) s
    else s
  stop 1 (stop 0 s)

/-- CHECKER_LOCK (R454): the bits received since the tick began, or the last such command, after which the checker may
be locked. -/
def execCheckerLock (lane : Fin 8) (bits : List Bool) (s : State) : Res := done (checkLane lane.val bits s)

/-- SYNC_LOSS (R454): the bits received since, in which the checker may lose lock; it then seeds again. -/
def execSyncLoss (lane : Fin 8) (bits : List Bool) (s : State) : Res := done (checkLane lane.val bits s)

end Sys2Proof.Machine
end

