-- ==== Sys2Proof/Machine/Span.lean ====
section
/-! DEFINITION. The Span lanes and the repeater paths: word lock, loss of signal, the equaliser, fill, the Headland and
store resets (spec/04_span_line_and_repeater.md R85-R112). -/

namespace Sys2Proof.Machine

/-! ### Registers of a side -/

/-- A field of REP_STATUS_x. -/
def repFld (sd : Side) (hi lo : Nat) : Fld := ⟨if isEast sd then R.REP_STATUS_E else R.REP_STATUS_W, hi, lo⟩

def fHL_IN (sd : Side) : Fld := repFld sd 23 18
def fHL_OUT (sd : Side) : Fld := repFld sd 17 12
def fOCC (sd : Side) : Fld := repFld sd 11 6
def fFILLING (sd : Side) : Fld := repFld sd 2 2
def fTRACKING (sd : Side) : Fld := repFld sd 1 1
def fSLIP (sd : Side) : Fld := repFld sd 0 0

/-- A per-side counter, from its West index. -/
def countSide (west : Nat) (sd : Side) (s : State) : State := count (sided west (isEast sd)) s

/-- A side's tick tracker. -/
def trk (sd : Side) (s : State) : Track := match sd with | .west => s.frame.trkW | .east => s.frame.trkE

def setTrk (sd : Side) (f : Track → Track) (s : State) : State :=
  match sd with
  | .west => setFrame (fun x => { x with trkW := f x.trkW }) s
  | .east => setFrame (fun x => { x with trkE := f x.trkE }) s

/-- Does a side's tracker hold frame position. -/
def tracking (sd : Side) (s : State) : Bool := on (fTRACKING sd) s

/-- Word lock of a side. -/
def wordLock (sd : Side) (s : State) : Bool := on (F.LANE_STATUS_WORD_LOCK (laneOf sd)) s

/-- Does a Span lane's receiver run: its domain is ON or in RETENTION, no reset is taken and no lane test holds it (R93,
R403, R457). -/
def rxRuns (lane : Nat) (s : State) : Bool :=
  s.term != .reset && decide (domState (laneDomain lane) s ≤ 1) && !laneInTest lane s

/-! ### What the paths send (R72-R76, R86, R103) -/

/-- BYPASS_STATUS.TURNED_x. -/
def fTURNED (sd : Side) : Fld := match sd with | .west => F.BYPASS_STATUS_TURNED_W | .east => F.BYPASS_STATUS_TURNED_E

/-- Does a port's output carry the stream of the path that starts at the same port: turned East, the West output does. -/
def crossed (port : Side) (s : State) : Bool := on (fTURNED (otherSide port)) s

/-- Does a port's output carry a path's stream. -/
def feeds (path port : Side) (s : State) : Bool := if port == path then crossed port s else !crossed port s

/-- Does a port's transmitter send what its path gives it: its light is on and no lane test holds the lane. -/
def sends (port : Side) (s : State) : Bool :=
  !(match port with | .west => s.byp.txdisW | .east => s.byp.txdisE) && !laneInTest (laneOf port) s

/-- A port sends words: running disparity goes on through them (R86). -/
def sendAt (port : Side) (mk : Bool → List (Bool × Word) → Output) (ws : List (Bool × Word)) (s : State) : State :=
  let rd := (spanOf port s).txRd
  emit (mk rd ws) (setSpan port (fun x => { x with txRd := rdSent ws rd }) s)

/-- A path sends words to every port it feeds. -/
def sendPath (path : Side) (mk : Side → Bool → List (Bool × Word) → Output) (ws : List (Bool × Word)) (s : State) : State :=
  let at_ (port : Side) (s : State) : State := whenB (feeds path port s && sends port s) (sendAt port (mk port) ws) s
  at_ .east (at_ .west s)

/-- R104: a port sends fill from now on. -/
def fillAt (path port : Side) (s : State) : State :=
  whenB (feeds path port s && sends port s) (emit (.fillOut port (spanOf port s).txRd)) s

/-- Running disparity after `n` fill words of a terminal ID. -/
def rdFill (n : Nat) (w : Bool × Word) (rd : Bool) : Bool := if (encodeWord w rd).2 == rd || n % 2 == 0 then rd else !rd

/-- R86, R104: `n` fill words have gone out of a port. The spec fixes them by the terminal ID; where that changed during
the fill, the disparity after it is a free bit (notes/assumptions/72.md). -/
def fillSent (path port : Side) (n : Nat) (s : State) : State :=
  if !(feeds path port s && sends port s) then s
  else if (spanOf path s).fillId == termId s then
    setSpan port (fun x => { x with txRd := rdFill n (errorWord 2 s) x.txRd }) s
  else
    let (b, s1) := fresh 1 s
    setSpan port (fun x => { x with txRd := b == 1 }) s1

/-! ### Writing stops (R207) -/

/-- Does a burst still wait on a side. -/
def waitsOn (sd : Side) (b : Burst) : Bool := if isEast sd then b.toE else b.toW

/-- A burst no longer waits on a side. -/
def stopOn (sd : Side) (b : Burst) : Burst := if isEast sd then { b with toE := false } else { b with toW := false }

/-- R207: a window is cut; it is counted where it is cut first. -/
def cutWin (w : Win) (s : State) : State :=
  if s.win.cuts.contains w then s else count C.WIN_CUT (setWin (fun x => { x with cuts := w :: x.cuts }) s)

/-- The window being written on a side. -/
def openWin (sd : Side) (s : State) : Option Win := if isEast sd then s.win.openE else s.win.openW

/-- What is being written on a side. -/
def setOpen (sd : Side) (o : Option Win) (s : State) : State :=
  if isEast sd then setWin (fun w => { w with openE := o }) s else setWin (fun w => { w with openW := o }) s

/-- R207: the window being written on a side is cut and counted; no other window is written there. `lost` tells that the
copy itself is lost, so that bursts that wait for it no longer do (R203). -/
def cutSide (sd : Side) (lost : Bool) (s : State) : State :=
  let s1 := match openWin sd s with
    | some w => cutWin w s
    | none => s
  whenB lost (setWin (fun w => { w with bufs := w.bufs.map (fun b => b.map (stopOn sd)) })) (setOpen sd none s1)

/-- R207: writing stops in both copies, and every burst held is dropped with the windows it was for. -/
def cutWindows (s : State) : State :=
  setWin (fun w => { w with wins := [], bufs := List.replicate 8 none }) (cutSide .east true (cutSide .west true s))

/-! ### Losing an input -/

/-- R155, R162: the measurement starts again at the next tick, and no run of discarded results goes on over it. -/
def measBreak (s : State) : State := setRegn (fun x => { x with meas := {}, jumps := 0 }) s

/-- R122: the tracker of a side loses frame position; it has no rows. -/
def loseTrack (sd : Side) (s : State) : State :=
  let s1 := setSpan sd noRows (setTrk sd (fun _ => {}) (measBreak s))
  if tracking sd s then raise E.TRACK_LOST (laneOf sd) (wr (fTRACKING sd) 0 s1) else s1

/-- R104: the path begins to send fill; it goes on from a tick marker received from now on. -/
def startFill (sd : Side) (s : State) : State :=
  if on (fFILLING sd) s then s
  else
    countSide C.STORE_RESET_W sd (wr (fFILLING sd) 1 s)
      |> setSpan sd (fun x => { x with marker := false, head := [], fillId := termId s })
      |> fillAt sd .west |> fillAt sd .east

/-- R104, R122, R207: the path's input is absent: the tracker loses frame position, fill begins, windows are cut. -/
def inputAbsent (sd : Side) (s : State) : State := s |> loseTrack sd |> startFill sd |> cutSide sd true

/-- Word lock and symbol alignment are no longer held. -/
def unlock (sd : Side) (s : State) : State :=
  s |> wr (F.LANE_STATUS_WORD_LOCK (laneOf sd)) 0 |> wr (F.LANE_STATUS_SYM_ALIGN (laneOf sd)) 0

/-- R93, R104, R122, R207: word lock is lost. -/
def loseLock (sd : Side) (s : State) : State :=
  if wordLock sd s then s |> unlock sd |> raise E.WORD_LOCK_LOST (laneOf sd) |> inputAbsent sd else s

/-- R90: count a received word that is a fault, once. -/
def countFault (sd : Side) (s : State) (w : RxWord) : State :=
  if w.codeErr then countSide C.LINE_CODE_ERR_W sd s
  else if badK w then countSide C.WORD_INVALID_W sd s
  else if isK kError w then countSide C.ERROR_WORD_RX_W sd s
  else s

/-- LANEn_STATUS.RD follows the last word received (R86). -/
def keepRd (sd : Side) (ws : List RxWord) (s : State) : State :=
  match ws.getLast? with
  | some w => wr (F.LANE_STATUS_RD (laneOf sd)) (b2n w.after) s
  | none => s

/-- R92: four comma-bearing words on one word boundary with no code-group error between the first and the fourth; three
where the word that lost lock counts as the first. -/
def fourCommas (carried : Bool) (ws : List RxWord) : Bool :=
  !(ws.any RxWord.codeErr) && decide ((if carried then 3 else 4) ≤ (ws.filter hasComma).length) &&
    (carried || (ws.head?).any hasComma) && (ws.getLast?).any hasComma

/-- WORD_LOCK (R92): `words` are those received on the boundary, up to the fourth comma-bearing one. -/
def execWordLock (side : Side) (words : List RxWord) (s : State) : Res :=
  let n := laneOf side
  let ws := RxWord.chain words
  done (if rxRuns n s && on (F.LANE_STATUS_CDR_LOCK n) s && !on (F.LANE_STATUS_LOS n) s && !wordLock side s &&
        fourCommas (spanOf side s).carried ws then
      s |> wr (F.LANE_STATUS_WORD_LOCK n) 1 |> wr (F.LANE_STATUS_SYM_ALIGN n) 1 |> keepRd side ws
        |> setSpan side (fun x => { x with carried := false })
    else s)

/-- R93: 16 code-group errors within 1040 consecutive wc. -/
def errorBurst (ws : List RxWord) : Bool :=
  decide (ws.length ≤ 1040) && decide (16 ≤ (ws.map RxWord.errors).sum)

/-- R93: a comma off the locked boundary and a second one on the same new boundary, with none on the locked boundary
between; `seen` are the new boundaries since the last. -/
def boundaryMoved (seen : List Nat) : List (Fin 50) → Bool
  | [] => false
  | b :: r => if b.val == 0 then boundaryMoved [] r else seen.contains b.val || boundaryMoved (b.val :: seen) r

/-- WORD_LOCK_LOST (R93, cases 1 and 2; loss of signal is SPAN_LOS). -/
def execWordLockLost (side : Side) (cause : LockLoss) (s : State) : Res :=
  done (if !rxRuns (laneOf side) s || !wordLock side s then s
    else
      match cause with
      | .errors ws => if errorBurst (RxWord.chain ws) then loseLock side s else s
      | .commas at_ =>
        if boundaryMoved [] at_ then setSpan side (fun x => { x with carried := true }) (loseLock side s) else s)

/-- R93: what loss of signal is: the LOS input where it counts, clock recovery not locked, or 64 consecutive words that
each hold a code-group error. -/
def signalLost (pin cdrLock : Bool) (ws : List RxWord) (s : State) : Bool :=
  (pin && on F.SPAN_CFG_LOS_PIN_EN s) || !cdrLock || (decide (64 ≤ ws.length) && ws.all RxWord.codeErr)

/-- SPAN_LOS (R93): `pin` is the LOS input, `cdrLock` tells whether clock recovery is still locked, `words` are the last
received. Only a change from no loss to loss is counted and raised. -/
def execSpanLos (side : Side) (pin cdrLock : Bool) (words : List RxWord) (s : State) : Res :=
  let n := laneOf side
  done (if !rxRuns n s || on (F.LANE_STATUS_LOS n) s || !signalLost pin cdrLock (RxWord.chain words) s then s
    else
      s |> wr (F.LANE_STATUS_LOS n) 1 |> whenB (!cdrLock) (wr (F.LANE_STATUS_CDR_LOCK n) 0)
        |> countSide C.SPAN_LOS_W side |> raise E.SPAN_LOS n |> loseLock side
        |> setSpan side (fun x => { x with carried := false }))

/-- LOSS_OF_SIGNAL_END (R93): a word without a code-group error, which needs clock recovery in lock, while the LOS input
`pin`, where enabled, is negated. -/
def execLossOfSignalEnd (side : Side) (pin : Bool) (w : RxWord) (s : State) : Res :=
  let n := laneOf side
  done (if rxRuns n s && on (F.LANE_STATUS_CDR_LOCK n) s && !(pin && on F.SPAN_CFG_LOS_PIN_EN s) && !w.codeErr then
      wr (F.LANE_STATUS_LOS n) 0 s
    else s)

/-! ### The equaliser (R97) -/

/-- Start what LANEn_EQ.MODE asks for. -/
def startAdapt (n : Nat) (s : State) : State :=
  if rd (F.LANE_EQ_MODE n) s == 0 then
    s |> wr (F.LANE_STATUS_ADAPT n) 3 |> wr (F.LANE_STATUS_PEAK_NOW n) (rd (F.LANE_EQ_PEAK n) s)
  else wr (F.LANE_STATUS_ADAPT n) 1 s

/-- May a lane gain clock recovery lock: a Span receiver runs in RETENTION too (R403). -/
def laneHears (n : Nat) (s : State) : Bool :=
  s.term != .reset && (laneReady n s || (decide (n < 2) && domState (laneDomain n) s == 1))

/-- CDR_LOCK (R97, R451): the lane gains clock recovery lock. In RETENTION the equaliser keeps its setting (R403). -/
def execCdrLock (lane : Fin 8) (s : State) : Res :=
  let n := lane.val
  done (if !laneHears n s then s
    else if on (F.LANE_STATUS_CDR_LOCK n) s && !(laneSt n s).adaptDue then s
    else
      let s1 := wr (F.LANE_STATUS_CDR_LOCK n) 1 s
      if laneReady n s then startAdapt n (setLane n (fun l => { l with adaptDue := false }) s1) else s1)

/-- The error-free setting with the least spread, the lower of two that tie. -/
def bestSpread : (k : Nat) → List (Option Nat) → Option (Nat × Nat)
  | _, [] => none
  | k, x :: r =>
    match x, bestSpread (k + 1) r with
    | none, b => b
    | some v, none => some (k, v)
    | some v, some (j, u) => if v ≤ u then some (k, v) else some (j, u)

/-- EQ_SWEEP_DONE (R97): `spreads` gives each of the 16 settings its edge spread, none where it met an error. -/
def execEqSweepDone (lane : Fin 8) (spreads : List (Option Nat)) (s : State) : Res :=
  let n := lane.val
  done (if rd (F.LANE_STATUS_ADAPT n) s != 1 then s
    else
      let s1 := wr (F.LANE_STATUS_ADAPT n) (if 2 ≤ rd (F.LANE_EQ_MODE n) s then 2 else 0) s
      match bestSpread 0 (spreads.take 16) with
      | some (k, _) => wr (F.LANE_STATUS_PEAK_NOW n) k s1
      | none => count C.EQ_ADAPT_FAIL (wr (F.LANE_STATUS_PEAK_NOW n) (rd (F.LANE_EQ_PEAK n) s) s1))

/-- R97: is a neighbour's spread at least 10 % lower. -/
def tenLower (neighbour now : Nat) : Bool := decide (10 * neighbour ≤ 9 * now)

/-- EQ_TRACK (R97): of two neighbours that both qualify the one with the less spread is taken, the lower on a tie. -/
def execEqTrack (lane : Fin 8) (below now above : Nat) (s : State) : Res :=
  let n := lane.val
  let k := rd (F.LANE_STATUS_PEAK_NOW n) s
  let lo := decide (0 < k) && tenLower below now
  let hi := decide (k < 15) && tenLower above now
  done (if rd (F.LANE_STATUS_ADAPT n) s != 2 then s
    else if lo && (!hi || decide (below ≤ above)) then wr (F.LANE_STATUS_PEAK_NOW n) (k - 1) s
    else if hi then wr (F.LANE_STATUS_PEAK_NOW n) (k + 1) s
    else s)

/-! ### Fill, Headland, store resets -/

/-- FILL_END (R104): the path reads from the tick marker, with O = 16; `sent` fill words went out since it began to fill,
or since the transmitters came on. -/
def execFillEnd (side : Side) (sent : Nat) (s : State) : Res :=
  done (if rxRuns (laneOf side) s && wordLock side s && tracking side s && on (fFILLING side) s && (spanOf side s).marker then
      s |> fillSent side .west sent |> fillSent side .east sent |> wr (fFILLING side) 0
        |> setSpan side (fun x => { x with occ := 16, head := [] })
    else s)

/-- R105: the Headland among the words received from row 31 body word 112 on: the idles up to the first non-idle word. -/
def headlandOf (ws : List RxWord) : List RxWord := ws.takeWhile isIdle

/-- R106-R109, R111: what the path does with a received Headland of `hl` idles at occupancy `o`. -/
inductive HeadAct where
  | none_ | insert | delete | deferred | slip
deriving DecidableEq, Repr

/-- R106, R108: the decision. -/
def headDecide (o hl : Nat) : HeadAct :=
  if o < 8 || 24 < o then .slip
  else if o < 16 then (if hl ≤ 19 then .insert else .deferred)
  else if o == 16 then .none_
  else if 13 ≤ hl then .delete else .deferred

/-- R106, R107, R111: a Headland as the path forwards it: the 13th idle not written, one more sent before the check word,
the first ones skipped, or as many more as bring the store to 16. -/
def headForward (o : Nat) (hl : List (Bool × Word)) : List (Bool × Word) :=
  match headDecide o hl.length with
  | .none_ | .deferred => hl
  | .insert => hl ++ [clearWord]
  | .delete => hl.eraseIdx 12
  | .slip => if o < 8 then hl ++ List.replicate (16 - o) clearWord else hl.drop (o - 16)

/-- HEADLAND_DECISION (R105-R111): the occupancy when row 31 body word 111 is written, and the words received from there up
to the row 31 check word. The forwarded Headland goes out with that row. -/
def execHeadlandDecision (side : Side) (occ : BitVec 6) (words : List RxWord) (s : State) : Res :=
  let o := occ.toNat
  done (if !rxRuns (laneOf side) s || !wordLock side s || !tracking side s || on (fFILLING side) s then s
    else
      let hl := (headlandOf (RxWord.chain words)).map (fun w => (w.k, w.data))
      let fwd := headForward o hl
      let s1 := s |> wr (fOCC side) o |> wr (fHL_IN side) (min 63 hl.length) |> wr (fHL_OUT side) (min 63 fwd.length)
                  |> setSpan side (fun x => { x with head := fwd, occ := o + fwd.length - hl.length })
      let s2 := whenB (decide (hl.length < 12) || decide (20 < hl.length)) (countSide C.HEADLAND_BAD_W side) s1
      match headDecide o hl.length with
      | .none_ => s2
      | .insert => countSide C.HEADLAND_INS_W side s2
      | .delete => countSide C.HEADLAND_DEL_W side s2
      | .deferred => countSide C.HEADLAND_DEFER_W side s2
      | .slip => raise E.SPAN_SLIP (laneOf side) (countSide C.SPAN_SLIP_W side (wr (fSLIP side) 1 s2)))

/-- STORE_RESET (R112): the store reached 0 or 32 words: the lost word becomes an error word of reason 0x01 and the path
recovers as after an absent input. -/
def execStoreReset (side : Side) (s : State) : Res :=
  done (if !rxRuns (laneOf side) s || on (fFILLING side) s then s
    else cutSide side false (startFill side (sendPath side (fun p rd ws => .wordsOut p rd ws) [errorWord 1 s] s)))

end Sys2Proof.Machine
end

