-- ==== Sys2Proof/Machine/Maps.lean ====
section
/-! DEFINITION. Container descriptors, the current and the pending map, and the staged generations of P, map and key
(spec/05_tick_frame.md R126-R127, R134-R137; spec/01 R20, R27, R29; spec/09 R221). -/

namespace Sys2Proof.Machine

/-! ### Descriptors (R134, R135) -/

def dCont (w : Word) : Nat := fget w 39 30
def dStart (w : Word) : Nat := fget w 29 17
def dLen (w : Word) : Nat := fget w 16 9
def dKind (w : Word) : Nat := fget w 8 5
def dEnc (w : Word) : Bool := fget w 4 4 == 1

/-- Do `n` words from frame word `start` lie in the body of one row 1 to 31, the Headland left out (R135, R194). -/
def inOneRow (start n : Nat) : Bool :=
  let r := start / 130
  let last := start + n - 1
  decide (1 ≤ r) && decide (r ≤ 31) && decide (1 ≤ start % 130) && decide (start % 130 ≤ 128) &&
    last / 130 == r && decide (last % 130 ≤ 128) && (r != 31 || decide (last ≤ 4142))

/-- R194: the footprint and range rules of a window. -/
def rangeOk (start foot : Nat) : Bool := decide (5 ≤ foot) && decide (foot ≤ 128) && inOneRow start foot

/-- R135: a valid descriptor with LEN from 1 to 128. -/
def descValid (w : Word) : Bool :=
  decide (1 ≤ dLen w) && decide (dLen w ≤ 128) && inOneRow (dStart w) (dLen w) && decide (dKind w ≤ 6)

/-- R135: the descriptor a container's subscription reads: the valid one with the lowest number. -/
def chosen (m : CMap) (cont : Nat) : Option Word :=
  (m.descs.find? (fun p => descValid p.2 && dCont p.2 == cont)).map Prod.snd

/-- R135: how many descriptors of LEN other than 0 are treated as LEN 0. -/
def badDescs (ds : List (Nat × Word)) : Nat :=
  let bad (p : Nat × Word) : Bool :=
    dLen p.2 != 0 && (!descValid p.2 || ds.any (fun q => decide (q.1 < p.1) && descValid q.2 && dCont q.2 == dCont p.2))
  (ds.filter bad).length

/-! ### Completeness (R136, R184) -/

/-- Judge a map after a change: its descriptors at or above MAP_COUNT are dropped; with all held it is complete if the
CRC matches, and loses them all if it does not. Also the descriptors to count in MAP_ENTRY_BAD. -/
def mapSettle (m : CMap) : CMap × Nat :=
  match m.count with
  | none => ({ m with complete := false }, 0)
  | some n =>
    let ds := m.descs.filter (fun p => decide (p.1 < n))
    if ds.length != n then ({ m with descs := ds, complete := false }, 0)
    else if crc32 (ds.flatMap (fun p => wordBytes p.2)) == m.crc then
      ({ m with descs := ds, complete := true }, if m.complete then 0 else badDescs ds)
    else ({ m with descs := [], complete := false }, 0)

/-- Replace the current map. -/
def putCur (m : CMap) (s : State) : State :=
  let (m1, bad) := mapSettle m
  countN C.MAP_ENTRY_BAD bad (setFrame (fun f => { f with curMap := m1 }) s)

/-- Replace the pending map. -/
def putPend (m : CMap) (s : State) : State :=
  let (m1, bad) := mapSettle m
  countN C.MAP_ENTRY_BAD bad (setFrame (fun f => { f with pendMap := m1 }) s)

/-- R20: the map in effect for work tagged `t`; from an announced effective tick on it is the pending one. -/
def mapFor (t : Nat) (s : State) : CMap :=
  if tickDiff t s.frame.curFrom < 0 then s.frame.prevMap
  else if s.frame.mapNext.any (fun n => tickDue n t) then s.frame.pendMap else s.frame.curMap

/-- MAP_STATUS as it reads. -/
def mapStatusView (s : State) : Word :=
  let p := s.frame.pendMap
  BitVec.ofNat 40 (s.frame.curMap.count.getD 0 * 2 ^ 29 + p.count.getD 0 * 2 ^ 18 + p.descs.length * 2 ^ 7 +
    b2n p.complete * 2 + b2n s.frame.curMap.complete)

/-! ### Generations taking effect (R20, R127, R137, R221) -/

/-- R137: generation `g` becomes current for work tagged `t` onward. A map taken silently after a reset is not
counted. -/
def switchMap (t g : Nat) (silent : Bool) (s : State) : State :=
  let f := s.frame
  let new : CMap := if f.pendMap.gen == g && f.pendMap.count.isSome then f.pendMap else { gen := g }
  let s1 := wr F.FRAME_GEN_MAP_GEN g { s with frame :=
    { f with prevMap := f.curMap, curMap := new, curFrom := t, pendMap := {}, mapNext := none, curReq := none,
             pendReq := none } }
  if silent || new.complete then s1 else raise E.MAP_INCOMPLETE g (count C.MAP_INCOMPLETE s1)

/-- R29: P becomes `p` for work tagged `t` onward; what newer data overtakes is dropped. -/
def switchP (t g p : Nat) (s : State) : State :=
  let old := rd F.TIME_STATUS_P s
  let k := if p < old then old - p else 0
  let overtaken (i : PresItem) : Bool := decide (tickDiff i.tag t < 0) && decide (-(k : Int) ≤ tickDiff i.tag t)
  let s1 := { s with frame :=
    { s.frame with pFrom := t, prevP := old, pNext := none, pres := s.frame.pres.filter (fun i => !overtaken i) } }
  countN C.PRES_SKIPPED k (s1 |> wr F.TIME_STATUS_P p |> wr F.TIME_STATUS_P_GEN g)

/-- R221: key generation `g` applies to work tagged `t` onward; the keys of the one before are erased at T + 48. -/
def switchKey (t g : Nat) (s : State) : State :=
  let old := rd F.FRAME_GEN_KEY_GEN s
  let s1 := setFrame (fun f => { f with keyNext := none }) (wr F.FRAME_GEN_KEY_GEN g s)
  setKey (fun x => { x with prevGen := old, genFrom := t,
                            eraseAt := if old == g then x.eraseAt else x.eraseAt ++ [(tickAdd t 48, old)] }) s1

/-- R127: apply the staged change of one kind if its tick has come at tick `n`. -/
def genDue (kind : GenKind) (n : Nat) (s : State) : State :=
  match kind with
  | .p =>
    match s.frame.pNext with
    | some (t, p) => if tickDue t n then switchP t ((rd F.TIME_STATUS_P_GEN s + 1) % 16) p s else s
    | none => s
  | .map =>
    match s.frame.mapNext with
    | some t => if tickDue t n then switchMap t ((rd F.FRAME_GEN_MAP_GEN s + 1) % 16) false s else s
    | none => s
  | .key =>
    match s.frame.keyNext with
    | some t => if tickDue t n then switchKey t ((rd F.FRAME_GEN_KEY_GEN s + 1) % 16) s else s
    | none => s

/-- GENERATION_EFFECTIVE (R127). -/
def execGenerationEffective (kind : GenKind) (s : State) : Res := done (genDue kind s.line s)

/-- The countdown of a pending change, 0 if none (FRAME_GEN). -/
def nextIn (t : Option Nat) (s : State) : Nat :=
  match t with
  | some t => (tickDiff t s.line).toNat
  | none => 0

/-- FRAME_GEN as it reads. -/
def frameGenView (s : State) : Word :=
  let w := reg R.FRAME_GEN s
  let w1 := fput w 35 30 (nextIn s.frame.mapNext s)
  let w2 := fput w1 25 20 (nextIn s.frame.keyNext s)
  fput w2 19 14 (nextIn (s.frame.pNext.map Prod.fst) s)

/-! ### What a header says of the generations (R123, R127) -/

/-- Count and raise a jump. -/
def genJump (code : Nat) (s : State) : State := raise E.GEN_JUMP code (count C.GEN_JUMP s)

/-- A pending change is announced for tick `t`; a different one pending is a conflict. -/
def genConflict (old : Option Nat) (t : Nat) (s : State) : State :=
  match old with
  | some t0 => if t0 == t then s else count C.GEN_CONFLICT s
  | none => s

/-- P, P_GEN, P_NEXT_IN `k` and P_NEXT of the header of frame `n`. -/
def headerP (n g p k next : Nat) (s : State) : State :=
  let ok (x : Nat) : Bool := decide (2 ≤ x) && decide (x ≤ 15)
  let s0 := whenB (!ok p || (k != 0 && !ok next)) (count C.PRES_DELAY_BAD) s
  let cur := rd F.TIME_STATUS_P
  let val (s : State) : Nat := if ok p then p else cur s
  let s1 :=
    if !s0.frame.hdrSeen then
      setFrame (fun f => { f with pFrom := n, prevP := val s0, pNext := none })
        (s0 |> wr F.TIME_STATUS_P (val s0) |> wr F.TIME_STATUS_P_GEN g)
    else
      let d := genDue .p n s0
      if g != rd F.TIME_STATUS_P_GEN d then switchP n g (val d) (genJump 0 d)
      else if val d != cur d then
        let keep := d.frame.pNext
        setFrame (fun f => { f with pNext := keep }) (switchP n g (val d) d)
      else d
  if k != 0 && ok next then
    let t := tickAdd n k
    setFrame (fun f => { f with pNext := some (t, next) }) (genConflict (s1.frame.pNext.map Prod.fst) t s1)
  else s1

/-- MAP_GEN, MAP_NEXT_IN `k`, MAP_COUNT and MAP_CRC. -/
def headerMap (n g k cnt crc : Nat) (s : State) : State :=
  let s1 :=
    if !s.frame.hdrSeen then switchMap n g true s
    else
      let d := genDue .map n s
      if g != rd F.FRAME_GEN_MAP_GEN d then switchMap n g false (genJump 1 d) else d
  if k == 0 then putCur { s1.frame.curMap with count := some cnt, crc } s1
  else
    let t := tickAdd n k
    let s2 := setFrame (fun f => { f with mapNext := some t }) (genConflict s1.frame.mapNext t s1)
    let g1 := (g + 1) % 16
    let p := s2.frame.pendMap
    let base : CMap := if p.gen == g1 && p.count.isSome then p else { gen := g1 }
    putPend { base with count := some cnt, crc } s2

/-- KEY_GEN and KEY_NEXT_IN `k`. -/
def headerKey (n g k : Nat) (s : State) : State :=
  let s1 :=
    if !s.frame.hdrSeen then
      setKey (fun x => { x with prevGen := g, genFrom := n })
        (setFrame (fun f => { f with keyNext := none }) (wr F.FRAME_GEN_KEY_GEN g s))
    else
      let d := genDue .key n s
      if g != rd F.FRAME_GEN_KEY_GEN d then switchKey n g (genJump 2 d) else d
  if k == 0 then s1
  else
    let t := tickAdd n k
    setFrame (fun f => { f with keyNext := some t }) (genConflict s1.frame.keyNext t s1)

end Sys2Proof.Machine
end

