-- ==== Sys2Proof/Machine/Containers.lean ====
section
/-! DEFINITION. Subscriptions, reading containers, handing their words to their destinations, and the cipher jobs that
open protected ones (spec/05_tick_frame.md R138-R139; spec/07 R185; spec/09 R226, R229-R231; spec/01 R25-R29). -/

namespace Sys2Proof.Machine

/-! ### Subscriptions and presentation -/

/-- R185: does the destination take containers of this kind. -/
def kindOk (dest kind : Nat) : Bool := dest == kind + 1

/-- R25-R29: the tick at which data of tick `t` is presented; none before the first valid P and for data that newer data
overtakes. -/
def presAt (t : Nat) (s : State) : Option Nat :=
  let p := rd F.TIME_STATUS_P s
  let old := s.frame.prevP
  let d := tickDiff t s.frame.pFrom
  let use := if d < 0 then old else p
  if use == 0 then none
  else if decide (d < 0) && decide (p < old) && decide (-((old - p : Nat) : Int) ≤ d) then none
  else some (tickAdd t use)

/-- R28: tick `t` is counted in PRES_LATE, once. -/
def lateOnce (s : State) (t : Nat) : State :=
  if s.frame.lateTicks.contains t then s
  else
    count C.PRES_LATE (setFrame (fun f => { f with
      lateTicks := t :: f.lateTicks.filter (fun u => decide (tickDiff s.line u < 64)) }) s)

/-- R28: hand one tick's data, or its absence, to presentation at tick `due`, if it has one; data that comes after its
instant is not presented. -/
def presentAt (due : Option Nat) (t : Nat) (b : Sub) (data : Option (List Word)) (s : State) : State :=
  match due with
  | none => s
  | some at_ =>
    if tickDue at_ s.bt then (if data.isSome then lateOnce s t else s)
    else
      setFrame (fun f => { f with
        pres := f.pres ++ [{ tag := t, at_, dest := b.dest, param := b.param, cont := b.cont, data }] }) s

/-- R25-R29: present one tick's data, or its absence. -/
def present (t : Nat) (b : Sub) (data : Option (List Word)) (s : State) : State := presentAt (presAt t s) t b data s

/-- A container's words, free of protection, reach their destination (R237, R238, R297, R25). -/
def deliver (t : Nat) (b : Sub) (ws : List Word) (s : State) : State :=
  if b.dest == 1 then
    (if domOn dQSC s then deliverHost (b.param % 16) 0xF b.cont t (toBytes ws) s else s)
  else if b.dest == 2 then
    (if domOn dTHR s && domOn dQSC s then takeSegments b.cont (b.param % 16) t (ws.length + 1) ws s else s)
  else present t b (some ws) s

/-- R139: a container is missing for tick `t`. -/
def missing (t : Nat) (b : Sub) (s : State) : State :=
  let s1 := count C.CONTAINER_MISSING s
  if b.dest == 2 then segmentsMissing b.cont s1
  else if 3 ≤ b.dest then present t b none s1
  else s1

/-! ### Protected containers (R226, R229-R231) -/

/-- Open a protected container's words and deliver them. -/
def openAndDeliver (t : Nat) (b : Sub) (ws : List Word) (s : State) : State :=
  let (r, s1) := openContainer b.cont t ws s
  match r with
  | none => missing t b s1
  | some p => deliver t b p s1

/-- Blocks a container of `n` words costs. -/
def downBlocks (n : Nat) : Nat := jobBlocks (5 * (n - 2))

/-- R229, R230: the job of a container whose words begin at frame word `start`; its blocks are demanded in this tick. -/
def addDownJob (t cont start n : Nat) (words : Option (List Word)) (s : State) : State :=
  if (findJob false t cont s).isSome then s
  else
    demandBlocks (downBlocks n)
      (addJob { up := false, tag := t, obj := cont, blocks := downBlocks n, due := (start / 130 * 130 : Nat), words } s)

/-- R229, R230: frame `t`'s downstream jobs. -/
def addDownJobs (t : Nat) (s : State) : State :=
  if !(mapFor t s).complete || !coresRun s then s
  else
    startCores (eachOf (subsFor t s) (fun s b =>
      match chosen (mapFor t s) b.cont with
      | some w => if dEnc w && kindOk b.dest (dKind w) then addDownJob t b.cont (dStart w) (dLen w) none s else s
      | none => s) s)

/-- A job ends or is given up, and its core takes the next. -/
def endJob (up : Bool) (tag obj : Nat) (s : State) : State := startCores (dropJob up tag obj s)

/-- A protected container, read from frame word `start` on, is opened once its keystream is there; where no key or no core
can serve it, at once. -/
def readProtected (t start : Nat) (b : Sub) (ws : List Word) (s : State) : State :=
  if !coresRun s || (usableKey (keyNo false (genFor t s)) s).isNone || ws.length < 2 then
    openAndDeliver t b ws (endJob false t b.cont s)
  else
    let s1 := addDownJob t b.cont start ws.length none s
    match findJob false t b.cont s1 with
    | some j =>
      if jobReady j s1 then openAndDeliver t b ws (endJob false t b.cont s1)
      else startCores (modJob j (fun k => { k with words := some ws }) s1)
    | none => s1

/-- A downstream job's keystream is there: the container that waits for it is opened. -/
def keystreamThere (j : Job) (s : State) : State :=
  match j.words with
  | none => modJob j (fun k => { k with done := true }) s
  | some ws =>
    let s1 := dropJob false j.tag j.obj s
    match (subsFor j.tag s1).find? (fun b => b.cont == j.obj) with
    | some b => openAndDeliver j.tag b ws s1
    | none => s1

/-- CIPHER_JOB_DONE (R230, R231): the job on a core ends, at a time in phases of the word clock; the core takes the next. A
late upstream job has missed its lock and is no longer there. -/
def execCipherJobDone (core : Fin 6) (at_ : Nat) (s : State) : Res :=
  done (match (if coresRun s then jobOn core.val s else none) with
    | none => s
    | some j =>
      startCores (if j.up then modJob j (fun k => { k with done := true }) s
        else keystreamThere j (whenB (jobLate j at_ s) (count C.CIPHER_LATE) s)))

/-- R234: a container that waits for its keystream when the DRBG stops is missing, for want of a key. -/
def jobLost (s : State) (j : Job) : State :=
  if j.up || j.words.isNone then s
  else
    let s1 := count C.KEY_MISSING_DN (dropJob false j.tag j.obj s)
    match (subsFor j.tag s1).find? (fun b => b.cont == j.obj) with
    | some b => missing j.tag b s1
    | none => s1

/-- DRBG_STOPPED (R233, R234). -/
def execDrbgStopped (s : State) : Res :=
  done (if drbgRuns s && decide (64 ≤ rd F.DRBG_STATUS_SINCE_RESEED s) then
      eachOf s.key.jobs jobLost (raise E.DRBG_STOPPED 0 (wr F.DRBG_STATUS_STATE 3 s))
    else s)

/-- Jobs of frames long past, whose rows never came, are dropped. -/
def purgeJobs (s : State) : State :=
  setKey (fun x => { x with
    jobs := x.jobs.filter (fun j => j.words.isSome || decide (tickDiff s.line j.tag < 8))
    loads := x.loads.filter (fun p => decide (tickDiff s.line p.1 < 8)) }) s

/-! ### Reading rows (R138, R139, R185) -/

/-- R139: a container of tick `t` is settled: it is neither read nor counted missing again. -/
def settle (t cont : Nat) (s : State) : State := setFrame (fun f => { f with settled := (t, cont) :: f.settled }) s

/-- R139: a container is missing for tick `t`, and its job is of no further use. -/
def missingRow (t : Nat) (b : Sub) (s : State) : State := missing t b (endJob false t b.cont s)

/-- The container that descriptor `w` describes, in frame `t`; `row` is its row as selected, or none where it is lost. -/
def readChosen (w : Word) (t : Nat) (row : Option (List RxWord)) (b : Sub) (s : State) : State :=
  if !kindOk b.dest (dKind w) then missingRow t b (count C.SUB_KIND_MISMATCH s)
  else
    match row with
    | none => missingRow t b s
    | some ws =>
      let mine := (ws.drop (dStart w % 130)).take (dLen w)
      if mine.any (·.k) then missingRow t b (count C.CONTAINER_BAD s)
      else if dEnc w then readProtected t (dStart w) b (mine.map (·.data)) s
      else deliver t b (mine.map (·.data)) s

/-- The descriptor of frame `t` that a subscription chooses, once the map is complete. -/
def chosenNow (t : Nat) (b : Sub) (s : State) : Option Word :=
  let m := mapFor t s
  if m.complete then chosen m b.cont else none

/-- Is a container of tick `t` settled. -/
def isSettled (t : Nat) (b : Sub) (s : State) : Bool := s.frame.settled.contains (t, b.cont)

/-- The container a descriptor places, where it lies in row `r` of frame `t`. -/
def readIn (t r : Nat) (row : Option (List RxWord)) (b : Sub) (d : Option Word) (s : State) : State :=
  match d with
  | none => s
  | some w => if dStart w / 130 != r || isSettled t b s then s else readChosen w t row b (settle t b.cont s)

/-- One subscription's container, where it lies in row `r` of frame `t`. -/
def readOne (t r : Nat) (row : Option (List RxWord)) (s : State) (b : Sub) : State :=
  readIn t r row b (chosenNow t b s) s

/-- The containers of a row. -/
def readRow (t r : Nat) (row : Option (List RxWord)) (s : State) : State := eachOf (subsFor t s) (readOne t r row) s

/-- R137, R139: the containers missing for a whole frame: no complete map, or an inert or absent descriptor. They are judged
when the frame's header is taken or lost (notes/assumptions/75.md). -/
def missingWhole (t : Nat) (s : State) : State :=
  eachOf (subsFor t s) (fun s b =>
    if (chosenNow t b s).isSome || isSettled t b s then s else missing t b (settle t b.cont s)) s

end Sys2Proof.Machine
end

