-- ==== Sys2Proof/Machine/Ident.lean ====
section
/-! DEFINITION. The terminal ID: entering CLAIMING, taking and dropping an ID, and ranging reports
(spec/06_registration_ranging_time.md R144, R148-R153, R159; spec/07 R177; spec/09 R214-R215, R221). -/

namespace Sys2Proof.Machine

/-- R153, R331, R374: the terminal changes state; leaving RUNNING and FLYWHEEL, or entering FLYWHEEL, runs the axes down,
and outside them every show output is idle. -/
def goTerm (t : TermState) (s : State) : State :=
  let s1 := whenB (runOrFly s && t != .running && t != .flywheel) showIdle (changeTerm t s)
  if t == .flywheel then (if s.term == .flywheel then s1 else rundownAll 2 s1)
  else if runOrFly s && t != .running then rundownAll 3 s1
  else s1

/-- R131: the absolute tick of a frame named by the low 8 bits of its cycle and its tick, near line time. -/
def absTick (f : FrameId) (s : State) : Nat :=
  let c := s.line / 48
  let d := toSigned 8 (f.cyc8 + 256 - c % 256)
  tickAdd (tickAdd s.line (48 * d)) ((f.tick : Int) - ((s.line % 48 : Nat) : Int))

/-- The frame of an absolute tick. -/
def frameOf (t : Nat) : FrameId := { cyc8 := t / 48 % 256, tick := t % 48 }

/-- R177, R148: the ID stream loses its last SEQ; a KEY_LOAD held for the ID and the ASSIGN_ACKs that bear it go. -/
def idStreamLost (s : State) : State :=
  setNote (fun x => { x with heldKey := none, idStatus := none, up := x.up.filter (fun n => n.type != nASSIGN_ACK) })
    (wr F.NOTE_SEQ_ID_LAST 0 (wr F.NOTE_SEQ_ID_VALID 0 s))

/-- Take an ID. -/
def setId (n : Nat) (s : State) : State :=
  let s1 := if termId s == n then s else idStreamLost s
  setRegn (fun x => { x with granted := false }) (wr F.REG_STATUS_GRANT_IDLE 0 (wr F.REG_STATUS_TERM_ID n s1))

/-- R151, R207: windows of later frames are not written. -/
def dropLaterWindows (s : State) : State :=
  let later (f : FrameId) : Bool := decide (0 < tickDiff (absTick f s) s.line)
  setWin (fun w => { w with wins := w.wins.filter (fun x => !later x.frame),
                            bufs := w.bufs.map (fun b => b.filter (fun x => !later x.win.frame)) }) s

/-- The subscriptions, staged ones included, are dropped. -/
def dropSubs (s : State) : State :=
  setFrame (fun f => { f with subs := [], subStage := [], pres := [] }) s

/-- R151 steps 1 to 3. -/
def dropId (s : State) : State :=
  setRegn (fun x => { x with report := none, assignWork := none, claimTimer := none })
    (eraseOnRelease (dropSubs (setId 0 (dropLaterWindows s))))

/-- R68, R81, R221: the ID is cleared on the return to LISTENING. -/
def clearId (s : State) : State :=
  setRegn (fun x => { x with report := none, assignWork := none, claimTimer := none, preparing := false, prepared := false,
                             eT := [], backoff := 0, lastAssign := none })
    (wr F.REG_STATUS_BACKOFF 0 (eraseOnClear (dropSubs (setId 0 s))))

/-- R144: a nonce: a draw of zero is discarded, and what is drawn in the end is a free value other than zero
(notes/assumptions/76.md). -/
def drawNonce (s : State) : List Byte × State :=
  let (n, s1) := drawBytes 5 s
  if beNat n != 0 then (n, s1)
  else
    let (m, s2) := drawBytes 5 s1
    (bytesBE 5 (beNat m % (2 ^ 40 - 1) + 1), s2)

/-- Is the terminal in CLAIMING, or in FLYWHEEL on its way back there. -/
def claiming (s : State) : Bool := s.term == .claiming || (s.term == .flywheel && s.regn.flyPrior == some .claiming)

/-- R214, R215: prepare a CLAIM where a house key is held. -/
def beginClaim (s : State) : State :=
  if houseHeld s then setRegn (fun x => { x with preparing := true }) s
  else raise E.NO_HOUSE_KEY 0 (count C.NO_HOUSE_KEY s)

/-- R153: the terminal is to be in CLAIMING: in FLYWHEEL, when it leaves it. -/
def toClaiming (s : State) : State :=
  if s.term == .flywheel then setRegn (fun x => { x with flyPrior := some .claiming }) s else goTerm .claiming s

/-- R144, R153, R214, R221: enter CLAIMING. -/
def enterClaiming (s : State) : State :=
  let (n, s1) := drawNonce (eraseOnRelease s)
  let s2 := setRegn (fun x => { x with preparing := false, prepared := false, ePub := [], claimBody := [], zS := [], eT := [],
                                       backoff := 0, claimTimer := none, lastAssign := none, assignWork := none }) s1
  s2 |> wr F.REG_STATUS_BACKOFF 0 |> setReg R.CLAIM_NONCE (bytesWord n) |> toClaiming |> beginClaim

/-- R215: HOUSE_PUB has been written; a CLAIM is prepared as soon as it is valid. -/
def houseChanged (pub : List Byte) (s : State) : State :=
  let s1 := setKey (fun x => { x with housePub := pub }) s
  if claiming s1 && !s1.regn.preparing && !s1.regn.prepared && houseHeld s1 then
    setRegn (fun x => { x with preparing := true }) s1
  else s1

/-- A measurement begins (R155, R160). -/
def beginMeasure (s : State) : State := setRegn (fun x => { x with meas := {} }) (wr F.RANGE_STATUS_MEASURING 1 s)

/-- Enter RANGING. -/
def enterRanging (s : State) : State := beginMeasure (goTerm .ranging s)

/-- A signature-unit operation of registration ends (R236). -/
def sigEnds (op st : Nat) (s : State) : State :=
  s |> wr F.SIG_STATUS_LAST_OP op |> wr F.SIG_STATUS_LAST_STATUS st |> whenB (st != sigOK) (count C.SIG_OP_FAIL)

/-- SIG_STATUS as it reads: the curve part runs while a CLAIM is prepared or an ASSIGN verified. -/
def sigStatusView (s : State) : Word :=
  fput (reg R.SIG_STATUS s) 0 0 (b2n (s.regn.preparing || s.regn.assignWork.isSome))

/-! ### Ranging reports (R159) -/

/-- The applied delay of a copy, in phases. -/
def delayE (s : State) : Int := rdS F.RANGE_E_D s
def delayW (s : State) : Int := rdS F.RANGE_W_D s

/-- R159: queue a new report of the given delays. -/
def newReport (dE dW : Int) (gen mode : Nat) (s : State) : State :=
  let seq := (rd F.RANGE_STATUS_REPORT_SEQ s + 1) % 256
  let body := BitVec.ofNat 8 seq :: (bytesBE 3 (ofSigned 24 dE) ++ bytesBE 3 (ofSigned 24 dW) ++
    bytesBE 4 (ofSigned 32 s.regn.lastD) ++ bytesBE 3 (ofSigned 24 s.regn.lastR) ++ [BitVec.ofNat 8 (gen * 16 + mode)])
  queueUp nRANGE_REPORT body
    (setRegn (fun x => { x with report := some body, reportRep := 0 })
      (wr F.RANGE_STATUS_ACKED 0 (wr F.RANGE_STATUS_REPORT_SEQ seq s)))

end Sys2Proof.Machine
end

