-- ==== Sys2Proof/Machine/Ranging.lean ====
section
/-! DEFINITION. Arrival times of the tick markers and the measurement they feed
(spec/06_registration_ranging_time.md R154-R156, R162, R163). -/

namespace Sys2Proof.Machine

/-- 2 wc, in phases. -/
def twoWc : Int := 128

/-- Is a difference of phases more than 2 wc. -/
def beyond (d : Int) : Bool := decide (twoWc < (d.natAbs : Int))

/-- The arrival of frame tick `t` on a side, if its marker came lately. -/
def arrivalOf (sd : Side) (t : Nat) (s : State) : Option Arrival := (spanOf sd s).arr.find? (fun a => a.tick == t)

/-- A measurement with tick `t` added, the first of one where `m` is empty. -/
def measAdd (t : Nat) (d : Int) (s : State) (m : Meas) : Meas :=
  { n := m.n + 1, last := t, d := m.d + d, oW := m.oW + s.span.w.occ, oE := m.oE + s.span.e.occ }

/-- Keep a measurement. -/
def setMeas (m : Meas) (s : State) : State := setRegn (fun x => { x with meas := m }) s

/-- R155: can a measurement run: in RANGING and RUNNING, under a LOOP_GEN first received after ADMIT_DONE. -/
def measures (s : State) : Bool := (s.term == .ranging || s.term == .running) && s.regn.loopFresh

/-- R155, R162: one more tick, whose copies came `d` phases apart. The recompute of RUNNING runs over a line cycle; a
measurement that is asked for begins at any tick. -/
def measTick (t : Nat) (d : Int) (s : State) : State :=
  let m := s.regn.meas
  let asked := on F.RANGE_STATUS_MEASURING s
  if !measures s then s
  else if !asked && t % 48 == 0 then setMeas (measAdd t d s {}) (if m.n == 0 then s else measBreak s)
  else if m.n == 0 then (if asked then setMeas (measAdd t d s {}) s else s)
  else if 48 ≤ m.n then s
  else if t == tickAdd m.last 1 then setMeas (measAdd t d s m) s
  else if asked then setMeas (measAdd t d s {}) s
  else measBreak s

/-- R154-R156: the marker of frame tick `t` has come on a side: the tick counts once it has come on every input the form
in use needs, turned at East on an open chain and nowhere else. -/
def measMatch (sd : Side) (t : Nat) (s : State) : State :=
  if singleSided s then
    match sd, arrivalOf .west t s with
    | .west, some w => if w.turned then measBreak s else measTick t 0 s
    | _, _ => s
  else
    match arrivalOf .west t s, arrivalOf .east t s with
    | some w, some e =>
      if !w.turned && e.turned == (s.frame.loopW == 0) then measTick t ((e.time : Int) - (w.time : Int)) s else measBreak s
    | _, _ => s

/-- R154, R163: the marker of frame tick `t` arrives `time` phases into the word clock; `since` ticks have passed since the
one before, whose numbering it leaves where `jump` says so. A step breaks the measurement. -/
def arrive (sd : Side) (t time since : Nat) (turned jump : Bool) (s : State) : State :=
  let x := spanOf sd s
  let dev := x.arr.head?.map (fun a => (time : Int) - ((a.time : Int) + 266240 * (since : Int)))
  let kept := if jump then [] else x.arr
  let s1 := setSpan sd (fun x => { x with arr := ({ tick := t, time, turned } :: kept).take 8, dev, had := true }) s
  if dev.any beyond then measBreak s1 else measMatch sd t s1

end Sys2Proof.Machine
end

