-- ==== Sys2Proof/Machine/Frame.lean ====
section
/-! DEFINITION. The frame engine: tick trackers, the row check, row selection, the frame header and express words
(spec/05_tick_frame.md R115-R132, R141-R142; spec/03 R72; spec/04 R90). -/

namespace Sys2Proof.Machine

/-- The direction a port expects (R114): 0 eastbound at West, 1 westbound at East. -/
def portDir (sd : Side) : Bool := isEast sd

/-! ### Inputs in use -/

/-- R133, R76: does the row selector use an input. -/
def usedSide (sd : Side) (s : State) : Bool :=
  if singleSided s then !isEast sd
  else match rd F.SEL_CFG_USE s with
    | 1 => !isEast sd
    | 2 => isEast sd
    | _ => true

/-- R132: only one input is received. -/
def oneInput (s : State) : Bool := singleSided s || rd F.SEL_CFG_USE s == 1 || rd F.SEL_CFG_USE s == 2

/-! ### The tick tracker (R120-R122) -/

/-- The frame that follows another. -/
def nextFrame (f : FrameId) : FrameId :=
  if f.tick == 47 then { cyc8 := (f.cyc8 + 1) % 256, tick := 0 } else { cyc8 := f.cyc8, tick := f.tick + 1 }

/-- The frame a tracker is in. -/
def trkFrame (sd : Side) (s : State) : FrameId := { cyc8 := (trk sd s).cyc8, tick := (trk sd s).tick }

/-- Old selector records and old window words of a side are forgotten; nothing is being written into its copy. -/
def purgeRows (sd : Side) (s : State) : State :=
  let age (r : RowRec) : Int := tickDiff s.line (absTick { cyc8 := r.cyc8, tick := r.tick } s)
  let keep (r : RowRec) : Bool := decide (age r < 6) && decide (-6 < age r)
  let recent (p : Nat × Nat) : Bool := decide (tickDiff s.line p.1 < 6)
  let late (w : Win) : Bool := decide (tickDiff s.line (absTick w.frame s) < 6)
  setOpen sd none <| setWin (fun w => { w with puts := w.puts.filter (fun p => p.side != sd), cuts := w.cuts.filter late })
    (setFrame (fun f => { f with rows := f.rows.filter keep, settled := f.settled.filter recent }) s)

/-- R75: a tick marker on an input ends the wait of an automatic turn that gives the other side up. -/
def autoTurnAt (sd : Side) (s : State) : State :=
  let given := otherSide sd
  if !(spanOf given s).autoDue then s
  else
    s |> setSpan given (fun x => { x with autoDue := false }) |> wr (fTURNED given) 1 |> wr (fTURNED sd) 0
      |> wr F.BYPASS_STATUS_TURN_AUTO 1

/-- R90, R103: words that belong to no row are counted and forwarded as they are. -/
def strayWords (sd : Side) (ws : List RxWord) (s : State) : State :=
  let s1 := keepRd sd ws (eachOf ws (countFault sd) s)
  if on (fFILLING sd) s1 || ws.isEmpty then s1
  else sendPath sd (fun p rd ws => .wordsOut p rd ws) (ws.map (forwardWord s)) s1

/-- TICK_MARKER (R115, R120, R121, R154, R229): `at_` is when its first symbol arrived, in phases of the word clock. -/
def execTickMarker (side : Side) (w : RxWord) (at_ : Nat) (s : State) : Res :=
  done (match tickMarker w with
    | none => s
    | some (dir, tick, cyc) =>
      if !frmRuns s || !wordLock side s then s
      else
        let f : FrameId := { cyc8 := cyc, tick }
        let jump := tracking side s && nextFrame (trkFrame side s) != f &&
          !((trk side s).missing && trkFrame side s == f)
        let s1 := s |> whenB jump (countSide C.TICK_SEQ_JUMP_W side) |> wr (fTRACKING side) 1
                    |> setTrk side (fun _ => { cyc8 := cyc, tick, turned := dir != portDir side, seen := true })
                    |> setSpan side (fun x => { x with marker := true }) |> autoTurnAt side
        let t := absTick f s1
        s1 |> purgeRows side |> arrive side t at_ ((trk side s).misses + 1) (dir != portDir side) jump
           |> addDownJobs (tickAdd t 1))

/-- TICK_MARKER_MISS (R122): `stray` are the words received between the check word taken for row 31 and the place the
missing marker is carried forward to; the path forwards them (R90, R103). -/
def execTickMarkerMiss (side : Side) (stray : List RxWord) (s : State) : Res :=
  done (if !frmRuns s || !tracking side s then s
    else
      let f := nextFrame (trkFrame side s)
      let m := (trk side s).misses + 1
      let s0 := strayWords side (RxWord.chain stray) (whenB (!(singleSided s && isEast side)) measBreak s)
      let s1 := setTrk side (fun t => { t with cyc8 := f.cyc8, tick := f.tick, misses := m, missing := true })
        (countSide C.TICK_MARKER_MISS_W side s0)
      if 4 ≤ m then loseTrack side s1 else s1)

/-! ### The row check (R118, R119) -/

/-- A word as it is fed to a CRC (R118, R209). -/
def feed (w : RxWord) : List Byte := wordBytes w.data

/-- R119 conditions 1 to 4 on a row's words, header to check word; `n` is how many words the CRC covers. -/
def rowGood (row : Nat) (dir headOk : Bool) (n : Nat) (ws : List RxWord) : Bool :=
  let chk := ws.getD n RxWord.absent
  headOk && ws.length == n + 1 && !(ws.any isErr) && !chk.k && fget chk.data 6 5 == 0 && fget chk.data 4 0 == row &&
    (fget chk.data 7 7 == 1) == dir && fget chk.data 39 8 == crc32 ((ws.take n).flatMap feed)

/-- R119 condition 5: does the header's check hold; does its identity agree with the marker. -/
def hdrChecks (ws : List RxWord) : Bool :=
  fget (ws.getD 8 (ws.headD RxWord.absent)).data 39 8 == crc32 (((ws.drop 1).take 7).flatMap feed)

def hdrIdent (tick cyc : Nat) (ws : List RxWord) : Bool :=
  let w (i : Nat) : Word := (ws.getD i RxWord.absent).data
  fget (w 2) 39 34 == tick && fget (w 1) 7 0 == cyc

/-- Words of a row under its CRC: 129, or 113 in row 31. -/
def rowLen (row : Nat) : Nat := if row == 31 then 113 else 129

/-- R119, R121, R72: judge a row on an input; also count what the judgement counts. -/
def judgeRow (sd : Side) (row : Nat) (ws : List RxWord) (s : State) : Verdict × State :=
  let t := trk sd s
  let h := ws.headD RxWord.absent
  let (dir, ok, bad) :=
    if row == 0 then
      match tickMarker h with
      | some (d, tick, cyc) => (d, !t.missing && tick == t.tick && cyc == t.cyc8, false)
      | none => (false, false, false)
    else
      match rowMarker h with
      | some (d, r, tick) => (d, !t.missing && r == row && tick == t.tick, r != row || (!t.missing && tick != t.tick))
      | none => (false, false, true)
  let s1 := whenB bad (countSide C.ROW_MARKER_BAD_W sd) s
  let chk := hdrChecks ws
  let idn := hdrIdent t.tick t.cyc8 ws
  let five := row != 0 || (chk && idn)
  if rowGood row dir ok (rowLen row) ws && five then
    if dir != portDir sd then (.turned, count C.TURNED_ROWS s1) else (.pass, s1)
  else
    let s2 := countSide C.SPAN_ROW_FAIL_W sd s1
    (.fail, if row == 0 && ok && !five then count (if !chk then C.HDR_CHECK_BAD else C.FRAME_ID_MISMATCH) s2 else s2)

/-! ### Selection (R131, R132) -/

/-- Is it the record of a row. -/
def isRow (f : FrameId) (row : Nat) (r : RowRec) : Bool := r.cyc8 == f.cyc8 && r.tick == f.tick && r.row == row

/-- A row's record. -/
def rowRec (f : FrameId) (row : Nat) (s : State) : Option RowRec := s.frame.rows.find? (isRow f row)

/-- A side's verdict in a record. -/
def recVerdict (sd : Side) (r : RowRec) : Option Verdict := match sd with | .west => r.w | .east => r.e

/-- Note a verdict. -/
def noteVerdict (sd : Side) (f : FrameId) (row : Nat) (v : Verdict) (s : State) : State :=
  let base : RowRec := (rowRec f row s).getD { cyc8 := f.cyc8, tick := f.tick, row, since := s.line }
  let r : RowRec := match sd with | .west => { base with w := some v } | .east => { base with e := some v }
  setFrame (fun x => { x with rows := x.rows.filter (fun r => !isRow f row r) ++ [r] }) s

/-- Change a row's record. -/
def modRow (f : FrameId) (row : Nat) (g : RowRec → RowRec) (s : State) : State :=
  setFrame (fun x => { x with rows := x.rows.map (fun r => if isRow f row r then g r else r) }) s

/-- TIME_STATUS.SOURCE of a side. -/
def sourceOf (sd : Side) : Nat := match sd with | .west => 1 | .east => 2

/-- Is the direction received on a side held after a step (R163). -/
def heldSide (sd : Side) (s : State) : Bool := match sd with | .west => s.regn.heldE.isSome | .east => s.regn.heldW.isSome

/-- R84: does a side not serve for time: its direction is held after a step, the side is given up, or turned rows arrive on
it. -/
def offTime (sd : Side) (s : State) : Bool :=
  heldSide sd s || on (fTURNED sd) s || (tracking sd s && (trk sd s).turned)

/-- R13, R84: the word clock follows the direction last used for row 0, unless time is held on the oscillator or that
direction does not serve. -/
def followRow0 (sd : Side) (s : State) : State :=
  if s.term == .flywheel || s.regn.bothHeld || offTime sd s then s else wr F.TIME_STATUS_SOURCE (sourceOf sd) s

/-- Is tick `t` no later than tick `u`, by four ticks at most: the later copy of a row comes within three (R132). A tick
further back is one of a numbering adopted anew (R121). -/
def lateTick (t u : Nat) : Bool := decide (0 ≤ tickDiff u t) && decide (tickDiff u t ≤ 4)

/-- Is frame `f` later than the frame `o`, if there is one. -/
def laterFrame (o : Option FrameId) (f : FrameId) (s : State) : Bool :=
  o.all (fun g => !lateTick (absTick f s) (absTick g s))

/-- R131, R132: row 0 of a frame was selected (`ok`) or lost; ROW0_OK tells of the latest such frame. -/
def row0Judged (f : FrameId) (ok : Bool) (s : State) : State :=
  if laterFrame s.frame.row0Last f s then
    setFrame (fun x => { x with row0Last := some f }) (wr F.FRAME_STATUS_ROW0_OK (b2n ok) s)
  else s

/-- R131: select a row from a side. -/
def selectRow (sd : Side) (f : FrameId) (row : Nat) (ws : List RxWord) (s : State) : State :=
  let s1 := modRow f row (fun r => { r with sel := some sd })
    (count (if isEast sd then C.SPAN_ROW_PICK_EAST else C.SPAN_ROW_PICK_WEST) s)
  if row == 0 then
    followRow0 sd (row0Judged f true (setFrame (fun x => { x with row0Frame := some f, row0Id := termId s, slotDue := true, regionStopped := false }) s1))
  else readRow (absTick f s1) row (some ws) s1

/-! ### Forwarding (R90, R103, R206, R210) -/

/-- Lay a window's words over a row. -/
def layPut (row : List (Bool × Word)) (p : Over) : List (Bool × Word) :=
  row.take p.at_ ++ p.words ++ row.drop (p.at_ + p.words.length)

/-- The row as the path sends it: error words put in, window words laid over, the row check corrected, and in row 31 the
forwarded Headland before the check word. -/
def forwardRow (sd : Side) (row : Nat) (ws : List RxWord) (s : State) : State :=
  let mine := s.win.puts.filter (fun p => p.side == sd && p.row == row)
  let out := mine.foldl layPut (ws.map (forwardWord s))
  let delta := mine.foldl (fun d p => d ^^^ p.delta) 0
  let n := ws.length - 1
  let fix (w : Bool × Word) : Bool × Word := if w.1 then w else (false, w.2 ^^^ delta)
  let hl := if row == 31 then (spanOf sd s).head else []
  s |> sendPath sd (fun p rd ws => .rowOut p row rd ws) (out.take n ++ hl ++ (out.drop n).map fix)
    |> setWin (fun w => { w with puts := w.puts.filter (fun p => !(p.side == sd && p.row == row)) })
    |> setSpan sd (fun x => { x with head := if row == 31 then [] else x.head })

/-- R86: a row's words in the order they came: disparity runs on through them, but over the Headland before row 31's check
word, which that word's own disparity follows. -/
def chainRow (row : Nat) (ws : List RxWord) : List RxWord :=
  if row == 31 then RxWord.chain (ws.take 113) ++ ws.drop 113 else RxWord.chain ws

/-- R75: does an input carry valid rows: turned rows count, and eight row times in which none passes end it. -/
def noteRows (sd : Side) (v : Verdict) (s : State) : State :=
  setSpan sd (fun x =>
    if v == .fail then { x with fails := x.fails + 1, rowsOk := x.rowsOk && decide (x.fails + 1 < 8) }
    else { x with fails := 0, rowsOk := true }) s

/-- ROW_CHECK (R90, R118, R119, R131, R138): one row as received, from its header word to its check word, row 31 without
its Headland. Of two checks in one fc cycle West's is given first (R131; notes/assumptions/73.md). -/
def execRowCheck (side : Side) (row : BitVec 5) (words : List RxWord) (s : State) : Res :=
  done (if !frmRuns s || !wordLock side s then s
    else
      let r := row.toNat
      let ws := chainRow r words
      let s1 := keepRd side ws (eachOf ws (countFault side) s)
      let s2 := if on (fFILLING side) s1 then s1 else forwardRow side r ws s1
      if !tracking side s2 then s2
      else
        let f := trkFrame side s2
        let (v, s3) := judgeRow side r ws s2
        let s4 := noteRows side v s3
        if !usedSide side s4 then s4
        else
          let s5 := noteVerdict side f r v s4
          match rowRec f r s5 with
          | some x => if v == .pass && x.sel.isNone && !x.lost then selectRow side f r ws s5 else s5
          | none => s5)

/-- R124: has the header of a frame been taken, or counted lost. -/
def hdrSettled (f : FrameId) (s : State) : Bool :=
  s.frame.hdrFrame == some f || (rowRec f 0 s).any RowRec.hdr

/-- R124: a frame without a usable header. -/
def headerLost (f : FrameId) (s : State) : State :=
  let s1 := modRow f 0 (fun r => { r with hdr := true }) (count C.HDR_LOST s)
  let s2 := whenB (laterFrame s.frame.hdrFrame f s)
    (fun s => wr F.FRAME_STATUS_HDR_OK 0 (setFrame (fun x => { x with hdrFrame := some f, disc := none }) s)) s1
  let s3 := s2 |> genDue .p s.line |> genDue .map s.line |> genDue .key s.line
  missingWhole (absTick f s3) s3

/-- R132: is a row lost: both copies, or the only one, failed; or (`expired`) 3 ticks have passed since the first
copy. -/
def rowIsLost (expired : Bool) (r : RowRec) (s : State) : Bool :=
  let failed (sd : Side) : Bool := recVerdict sd r == some .fail
  r.sel.isNone && !r.lost &&
    ((failed .west && failed .east) || (oneInput s && (failed .west || failed .east)) ||
     (expired && (failed .west || failed .east) && decide (3 ≤ tickDiff s.line r.since)))

/-- SPAN_ROW_LOST (R132, R124, R139). -/
def execSpanRowLost (frame : FrameId) (row : BitVec 5) (expired : Bool) (s : State) : Res :=
  done (match rowRec frame row.toNat s with
    | none => s
    | some r =>
      if !frmRuns s || !rowIsLost expired r s then s
      else
        let s1 := count C.SPAN_ROW_LOST (modRow frame row.toNat (fun r => { r with lost := true }) s)
        if row.toNat == 0 then
          let s2 := row0Judged frame false s1
          if hdrSettled frame s then s2 else headerLost frame s2
        else readRow (absTick frame s1) row.toNat none s1)

/-! ### The frame header (R123-R127) -/

/-- R124: how a copy's header is usable: 1 West row 0, 2 East row 0, 3 rescued; none if it is not. -/
def headerSource (sd : Side) (ws : List RxWord) (s : State) : Option Nat :=
  match tickMarker (ws.headD RxWord.absent) with
  | none => none
  | some (_, tick, cyc) =>
    match (rowRec { cyc8 := cyc, tick } 0 s).bind (recVerdict sd) with
    | some .pass => some (sourceOf sd)
    | some .fail => if !((ws.take 9).any isErr) && hdrChecks ws && hdrIdent tick cyc ws then some 3 else none
    | _ => none

/-- R125: the head-end state of a header. -/
def headState (he : Nat) (s : State) : State :=
  s |> whenB (decide (3 < he)) (count C.HE_STATE_BAD)
    |> whenB (he == 3 && rd F.FRAME_STATUS_HE_STATE s != 3) (raise E.HE_STOPPING 0)
    |> wr F.FRAME_STATUS_HE_STATE he

/-- R155, R164, R168: a header's LOOP_GEN and loop delays. A generation first received in FLYWHEEL holds both directions; a
measurement does not go on over a change of the generation or of the form. -/
def headLoop (gen loopE loopW : Nat) (s : State) : State :=
  let new := !s.frame.hdrSeen || gen != rd F.FRAME_GEN_LOOP_GEN s
  let form := (loopW == 0) != (s.frame.loopW == 0)
  let s1 := setFrame (fun f => { f with loopE, loopW }) (wr F.FRAME_GEN_LOOP_GEN gen s) |> whenB (new || form) measBreak
  if !new then s1
  else if !s.frame.hdrSeen then setRegn (fun x => { x with loopFresh := s.byp.admitted }) s1
  else
    let fly := s.term == .flywheel && on F.TIME_STATUS_RANGED s
    let mark (h : Option Held) : Option Held := h.map (fun x => { x with fresh := true })
    let hold (h : Option Held) : Option Held := if fly then some { h.getD {} with fresh := true } else mark h
    setRegn (fun x => { x with loopFresh := s.byp.admitted, heldE := hold x.heldE, heldW := hold x.heldW,
                               bothHeld := x.bothHeld || fly }) s1

/-- R152: a header whose HE_STATE is not STARTING makes its line cycle one that counts. -/
def cycleCounts (he : Nat) (s : State) : State := setFrame (fun x => { x with counted := x.counted || he != 0 }) s

/-- R124, R132: the header of an earlier frame, which the slower copy brings after a later frame's header: it is taken, so
that it is not counted lost, and supplies nothing the later one has (notes/assumptions/74.md). -/
def lateHeader (f : FrameId) (n he src : Nat) (s : State) : State :=
  s |> whenB (src == 3) (count C.HDR_RESCUED) |> whenB (decide (3 < he)) (count C.HE_STATE_BAD) |> cycleCounts he
    |> modRow f 0 (fun r => { r with hdr := true, he := some he }) |> missingWhole n

/-- The discovery offer of a header: H6 of frame `n`, unless the head end is starting (R125, R129). -/
def discOffer (n he : Nat) (h6 : Word) : Option DiscOffer :=
  if fget h6 39 39 == 1 && he != 0 then
    some { frame := frameOf (tickAdd n 1), start := fget h6 38 26, foot := fget h6 25 18 }
  else none

/-- R195: is a discovery window usable. -/
def discOk (o : DiscOffer) : Bool := rangeOk o.start o.foot

/-- FRAME_HEADER (R123-R127, R129, R152, R153): the tick marker and H0 to H7 of one copy of row 0. -/
def execFrameHeader (side : Side) (words : List RxWord) (s : State) : Res :=
  let ws := RxWord.chain words
  let w (i : Nat) : Word := (ws.getD i RxWord.absent).data
  done (match (if frmRuns s && usedSide side s then headerSource side ws s else none) with
    | none => s
    | some src =>
      let n := (w 1).toNat * 48 + fget (w 2) 39 34
      let f := frameOf n
      let he := fget (w 2) 33 30
      if hdrSettled f s then s
      else if s.frame.hdrFrame.any (fun g => lateTick n (absTick g s)) then lateHeader f n he src s
      else
        let s1 := { s with line := n } |> whenB (src == 3) (count C.HDR_RESCUED) |> headState he
                    |> wr F.FRAME_STATUS_HDR_SRC src |> wr F.FRAME_STATUS_HDR_OK 1
        let s2 := s1 |> headerP n (fget (w 2) 25 22) (fget (w 2) 29 26) (fget (w 2) 21 16) (fget (w 2) 15 12)
                     |> headerMap n (fget (w 5) 39 36) (fget (w 5) 35 30) (fget (w 5) 29 19) (fget (w 6) 39 8)
                     |> headerKey n (fget (w 5) 18 15) (fget (w 5) 14 9)
                     |> headLoop (fget (w 3) 15 12) (fget (w 3) 39 16) (fget (w 4) 39 16)
        let offer := discOffer n he (w 7)
        let s3 := setFrame (fun x => { x with hdrSeen := true, hdrFrame := some f, disc := offer.filter discOk,
                                              carId := fget (w 4) 15 8, carPieces := fget (w 7) 17 0 }) (cycleCounts he s2)
        let s4 := s3 |> modRow f 0 (fun r => { r with hdr := true, he := some he }) |> missingWhole n
                     |> whenB (s.term != .listening && offer.any (fun o => !discOk o)) (count C.GRANT_MALFORMED)
        if s4.term == .admitted && s4.byp.admitted && offer.isSome then enterClaiming s4 else s4)

/-! ### Express words (R141, R142) -/

/-- R142: is a SEQ new for its channel. -/
def expressNew (ch seq : Nat) (s : State) : Bool :=
  match SMap.find s.frame.express ch with
  | none => true
  | some (last, t) =>
    let d := (seq + 16 - last) % 16
    decide (7 ≤ tickDiff s.line t) || (decide (1 ≤ d) && decide (d ≤ 7))

/-- EXPRESS_WORD (R141, R142); `rowDir` is the DIR of its row's marker. -/
def execExpressWord (side : Side) (w : RxWord) (rowDir : Bool) (s : State) : Res :=
  let b := wbyte w.data
  let target := b 1 % 64
  let ch := b 2
  let seq := b 3 / 16
  done (if !frmRuns s || !isK kExpress w || badWord w || !on F.SEL_CFG_EXPRESS_EN s || s.term != .running ||
        !tracking side s || rowDir != portDir side then s
    else if crc8 ((wordBytes w.data).drop 1 |>.take 3) != b 4 then count C.EXPRESS_BAD s
    else if target != termId s && target != 63 then s
    else if !expressNew ch seq s then count C.EXPRESS_DUP s
    else
      let s1 := setFrame (fun f => { f with express := (SMap.del f.express ch).ins ch (seq, s.line) }) s
      expressShow ch (b 3 % 16) (count C.EXPRESS_DONE s1))

/-- CHANNEL_LAST_EXPIRY (R142): 6 ticks have passed. -/
def execChannelLastExpiry (ch : BitVec 8) (s : State) : Res :=
  done (match SMap.find s.frame.express ch.toNat with
    | some (_, t) =>
      if 6 ≤ tickDiff s.line t then setFrame (fun f => { f with express := SMap.del f.express ch.toNat }) s else s
    | none => s)

end Sys2Proof.Machine
end

