-- ==== Sys2Proof/Machine/Windows.lean ====
section
/-! DEFINITION. Upstream windows: the grant map, building and locking a burst, writing it into the copies, and the burst
buffers (spec/08_upstream_windows.md R193-R210; spec/09 R225, R227, R229). -/

namespace Sys2Proof.Machine

/-! ### Grant entries (R193-R195) -/

def gTid (w : Word) : Nat := fget w 39 34
def gMask (w : Word) : Nat := fget w 33 32
def gStart (w : Word) : Nat := fget w 31 19
def gFoot (w : Word) : Nat := fget w 18 11
def gTag (w : Word) : Nat := fget w 10 4
def gClass (w : Word) : Nat := fget w 3 0

/-- R194: is an entry bearing the terminal's ID malformed. -/
def grantBad (w : Word) : Bool := !rangeOk (gStart w) (gFoot w) || gMask w == 0 || decide (9 < gClass w)

/-- Does a window overlap another (R195). -/
def overlaps (start foot : Nat) (w : Win) : Bool := decide (start < w.start + w.foot) && decide (w.start < start + foot)

/-- R225: are the payloads of a DATA class protected: its bit of UP_ENC. -/
def upProtected (cls : Nat) (s : State) : Bool := nbit (rd F.CIPHER_CFG_UP_ENC s) (cls - 2)

/-- R201: where a window's burst locks, in words from the start of its frame. -/
def lockWord (w : Win) (s : State) : Int := (w.start : Int) - (rd F.WIN_CFG_LOCK_LEAD s : Int)

/-- R229, R230: the upstream job of an accepted window: a DATA window whose payload is protected. What it will carry is
known only at its lock; until then it stands for a full payload. -/
def addUpJob (w : Win) (tag : Nat) (s : State) : State :=
  if 2 ≤ w.cls && 8 ≤ w.foot && upProtected w.cls s && coresRun s then
    addJob { up := true, tag, obj := w.start, blocks := jobBlocks (5 * (w.foot - 7)), due := lockWord w s } s
  else s

/-- The windows accepted for a frame, those whose burst is locked among them. -/
def frameWins (f : FrameId) (s : State) : List Win :=
  s.win.wins.filter (fun w => w.frame == f) ++
    (s.win.bufs.filterMap (fun b => b.map Burst.win)).filter (fun w => w.frame == f && w.id != 0)

/-- R194, R195: accept an entry that bears the ID, for a window of frame tick `t`, or refuse it. -/
def acceptEntry (t : Nat) (e : Word) (s : State) : State :=
  let f := frameOf t
  let mine := frameWins f s
  if mine.any (overlaps (gStart e) (gFoot e)) then count C.GRANT_OVERLAP s
  else if 2 ≤ mine.length then count C.GRANT_EXCESS s
  else
    let w : Win := { frame := f, id := gTid e, mask := gMask e, start := gStart e, foot := gFoot e, tag := gTag e, cls := gClass e }
    addUpJob w t (setReg R.WIN_LAST_GRANT e (setWin (fun x => { x with wins := x.wins ++ [w] }) s))

/-- R207: may windows be accepted from the grant map of frame `f`: the terminal may write, and the head end is not
starting. -/
def grantWrites (f : FrameId) (s : State) : Bool :=
  (s.term == .admitted || s.term == .claiming || s.term == .ranging || s.term == .running) && s.byp.ending.isNone &&
    (rowRec f 0 s).all (fun r => r.he != some 0)

/-- R128, R194, R195: one entry of the grant map of frame `f`; its windows lie in the next frame. -/
def grantEntry (f : FrameId) (s : State) (e : Word) : State :=
  let t := gTid e
  if e == 0 then s
  else if t == 0 || t == 63 then count C.GRANT_MALFORMED s
  else if t != s.frame.row0Id then s
  else
    let s1 := whenB (t == termId s) (fun s => setRegn (fun x => { x with granted := true }) (wr F.REG_STATUS_GRANT_IDLE 0 s)) s
    if grantBad e then count C.GRANT_MALFORMED s1
    else if grantWrites f s1 && t == termId s1 then acceptEntry (tickAdd (absTick f s1) 1) e s1
    else s1

/-- GRANT_MAP (R128, R194, R195, R207): the grant map of the frame whose row 0 was selected. LISTENING does not act on it
(R70), nor does a terminal whose head end is starting (R125). -/
def execGrantMap (entries : List Word) (s : State) : Res :=
  done (match s.frame.row0Frame with
    | none => s
    | some f =>
      if !frmRuns s || s.term == .listening || (rowRec f 0 s).any (fun r => r.he == some 0) then s
      else startCores (eachOf entries (grantEntry f) s))

/-! ### Framing (R196-R200) -/

/-- R196: the delimiter. -/
def delimiter (id tag : Nat) : Bool × Word :=
  (true, BitVec.ofNat 40 (kDelim * 2 ^ 32 + id * 2 ^ 24 + tag * 2 ^ 16 + (255 - id) * 2 ^ 8 + (255 - tag)))

/-- R197: the window header. -/
def winHeader (w : Win) (noData enc : Bool) (used backlog : Nat) : Word :=
  BitVec.ofNat 40 (w.id * 2 ^ 34 + w.tag * 2 ^ 27 + w.cls * 2 ^ 23 + b2n noData * 2 ^ 22 + b2n enc * 2 ^ 21 + used * 2 ^ 14 + backlog)

/-- R198: the window check. -/
def winCheck (hdr : Word) (payload : List Word) (tick : Nat) : Word :=
  BitVec.ofNat 40 (crc32 (toBytes (hdr :: payload)) * 256 + tick)

/-- R200: a count of words as BACKLOG reports it. -/
def backlogUnits (n : Nat) : Nat := min 0x3FFF ((n + 7) / 8)

/-- Words the note queue still holds. -/
def noteBacklog (s : State) : Nat := s.note.up.foldl (fun n x => n + upWords x) 0

/-- R200: words still held for a class. -/
def classBacklog (cls : Nat) (s : State) : Nat :=
  if cls == 1 then noteBacklog s
  else if cls == 0 then noteBacklog s + (List.range 8).foldl (fun n g => n + groupBacklog g s) 0
  else groupBacklog (cls - 2) s

/-- The words of a burst from its delimiter's successor to its check: header, payload padded with zeros, check. -/
def burstWords (w : Win) (noData enc : Bool) (payload : List Word) (s : State) : List Word :=
  let room := w.foot - 5
  let full := payload ++ List.replicate (room - payload.length) 0
  let hdr := winHeader w noData enc payload.length (backlogUnits (classBacklog w.cls s))
  hdr :: full ++ [winCheck hdr full w.frame.tick]

/-! ### Locking (R201-R204, R225, R227) -/

/-- The notes leave the queue, each once; counters that wait for a copy to be sent restart (R182, R184, R192). -/
def notesSent (ns : List UpNote) (s : State) : State :=
  let sent (t : Nat) : Bool := ns.any (fun n => n.type == t)
  let mapSent (g : Nat) : Bool := ns.any (fun n => n.type == nMAP_REQ && byteAt n.body 0 == g)
  let s1 := setNote (fun x => { x with up := ns.foldl List.erase x.up }) s
  let s2 := whenB (sent nRANGE_REPORT) (setRegn (fun x => { x with reportRep := 0 })) s1
  let s3 := whenB (sent nLEAVE_REQ) (setByp (fun b => { b with leaveRep := 0, leaveSent := b.leaveReq.isSome })) s2
  setFrame (fun f => { f with
    curReq := if mapSent f.curMap.gen then f.curReq.map (fun _ => 0) else f.curReq
    pendReq := if mapSent f.pendMap.gen then f.pendReq.map (fun _ => 0) else f.pendReq }) s3

/-- R202: the notes that may go into a window: those complete at its lock, and not late for the frame's other window. -/
def readyNotes (w : Win) (late : List Nat) (s : State) : List UpNote :=
  let kept := (s.note.up.zipIdx.filter (fun p => !late.contains p.2)).map Prod.fst
  (s.win.lateN.filter (fun p => p.1 == w.frame)).foldl (fun l p => l.erase p.2) kept

/-- R202: the notes that would have been taken but were not complete. -/
def markLateNotes (w : Win) (late : List Nat) (room : Nat) (s : State) : State :=
  let tooLate := (s.note.up.zipIdx.filter (fun p => late.contains p.2 && decide (upWords p.1 ≤ room))).map (fun p => (w.frame, p.1))
  setWin (fun x => { x with lateN := x.lateN.filter (fun p => p.1 == w.frame) ++ tooLate }) s

/-- R202: queues with an item that was taken but not complete. -/
def markLateQueues (w : Win) (qs : List Nat) (s : State) : State :=
  setWin (fun x => { x with lateQ := x.lateQ.filter (fun p => p.1 == w.frame) ++ qs.map (fun q => (w.frame, q)) }) s

/-- Queues that serve no window of a frame any more (R202). -/
def lateQueues (f : FrameId) (s : State) : List Nat := (s.win.lateQ.filter (fun p => p.1 == f)).map Prod.snd

/-- The queues of a class that have items. -/
def classQueues (cls : Nat) (s : State) : List Nat :=
  ((List.range 8).map (fun j => 8 * (cls - 2) + j)).filter (fun q => !(qItems q s).isEmpty)

/-- R201, R270: the items of a DATA window, from queues whose head is complete; `none` where there is none. -/
def takeItems (w : Win) (late : List Nat) (room : Nat) (s : State) : Option (List Word) × State :=
  if !domOn dQSC s then (none, s)
  else
    match serveWindow (w.cls - 2) (lateQueues w.frame s ++ late) room s with
    | ([], s1) => (none, s1)
    | (items, s1) => (some items, s1)

/-- What a window's class queues can put into `room` payload words: the payload, whether it is protected, and the state
with it taken out; `none` where the class holds data and nothing could be assembled. `late` names what is not complete: the
places of notes in the queue, or the queues whose head item is not. -/
def assemble (w : Win) (room : Nat) (late : List Nat) (s : State) : Option (List Word × Bool) × State :=
  if classBacklog w.cls s == 0 then (some ([], false), s)
  else if w.cls == 1 then
    match upTake (byRank (readyNotes w late s)) room with
    | [] => (none, markLateNotes w late room s)
    | ns => (some (ns.flatMap (upEncode w.id), false), notesSent ns (markLateNotes w late room s))
  else
    let s0 := markLateQueues w late s
    if upProtected w.cls s then
      let tag := absTick w.frame s
      if !coresRun s || (usableKey (keyNo true (genFor tag s)) s).isNone then (none, count C.KEY_MISSING_UP s0)
      else if !(findJob true tag w.start s).any (fun j => jobReady j s) then
        (none, markLateQueues w (classQueues w.cls s) s)
      else
        match takeItems w late (room - 2) s0 with
        | (none, s1) => (none, s1)
        | (some items, s1) =>
          let (p, s2) := sealBurst w.id w.start tag items (demandBlocks (jobBlocks (5 * items.length)) s1)
          (p.map (fun p => (p, true)), s2)
    else
      match takeItems w late room s0 with
      | (none, s1) => (none, s1)
      | (some items, s1) => (some (items, false), s1)

/-- The first free place from `lo` to `hi - 1`. -/
def freeBuf (lo hi : Nat) (s : State) : Option Nat :=
  ((List.range (hi - lo)).map (· + lo)).find? (fun k => (s.win.bufs.getD k none).isNone)

/-- Which copies a window is to be written to (R205): a single-sided terminal writes the eastbound copy only. -/
def toWest (w : Win) : Bool := w.mask % 2 == 1
def toEast (w : Win) (s : State) : Bool := decide (2 ≤ w.mask) && !singleSided s

/-- Put a burst into a place, a new one where the places are all taken. -/
def putBurst (k : Nat) (w : Win) (ws : List Word) (s : State) : State :=
  let b : Burst := { win := w, words := ws, toW := toWest w, toE := toEast w s, since := s.line }
  setWin (fun x => { x with bufs := if k < x.bufs.length then setAt x.bufs k (some b) else x.bufs ++ [some b] }) s

/-- A NO_DATA burst (R204) in a place. -/
def noDataBurst (k : Nat) (w : Win) (s : State) : State :=
  putBurst k w (burstWords w true false [] s) (count C.WIN_NO_DATA s)

/-- The place of a NO_DATA burst that found no buffer free (R203). -/
def sparePlace (s : State) : Nat := (freeBuf 8 s.win.bufs.length s).getD s.win.bufs.length

/-- Lock a window's burst. -/
def lockWindow (w : Win) (late : List Nat) (s : State) : State :=
  let s0 := setWin (fun x => { x with wins := x.wins.erase w }) s
  match freeBuf 0 8 s0 with
  | none => noDataBurst (sparePlace s0) w (endJob true (absTick w.frame s0) w.start (count C.WIN_NO_BUFFER s0))
  | some k =>
    if w.foot == 5 || w.cls == 0 then putBurst k w (burstWords w false false [] s0) s0
    else
      let (r, s1) := assemble w (w.foot - 5) late s0
      let s2 := endJob true (absTick w.frame s1) w.start s1
      match r with
      | none => noDataBurst k w s2
      | some (p, enc) => putBurst k w (burstWords w false enc p s2) s2

/-- R201, R274: the window that locks next: of the earliest frame, the one that starts first. -/
def nextWin (s : State) : Option Win :=
  match s.win.wins with
  | [] => none
  | w :: _ => (s.win.wins.filter (fun x => x.frame == w.frame)).foldl
      (fun best x => match best with | none => some x | some b => if x.start < b.start then some x else some b) none

/-- BURST_LOCK (R201, R202, R204): the window that is due locks; `late` names what of its class is not complete: the places
of notes in the note queue, or the queues whose head item is not. -/
def execBurstLock (late : List Nat) (s : State) : Res :=
  done (match nextWin s with
    | none => s
    | some w => lockWindow w late s)

/-! ### Writing (R205-R210) -/

/-- May the writer write a burst now (R207). -/
def mayWrite (b : Burst) (s : State) : Bool :=
  s.byp.ending.isNone && (if b.win.id == 0 then s.term == .claiming else s.term == .ranging || s.term == .running)

/-- The words of a footprint. -/
def footprint (b : Burst) : List (Bool × Word) :=
  clearWord :: delimiter b.win.id b.win.tag :: b.words.map (fun w => (false, w)) ++ [clearWord]

/-- R206: the word sent in place of a received one. -/
def overWord (s : State) (rx : RxWord) (tx : Bool × Word) : Bool × Word := if isErr rx then forwardWord s rx else tx

/-- R210: the change of a word, as it is fed to the CRC. -/
def overDelta (rx : RxWord) (tx : Bool × Word) : List Byte :=
  if isErr rx then [0, 0, 0, 0, 0] else xorBytes (feed rx) (wordBytes tx.2)

/-- R210: what is XORed into the row check word for a window written at `start`, whose words end `foot` words later. -/
def rowDelta (start : Nat) (d : List Byte) : Word :=
  let after := rowLen (start / 130) - start % 130 - d.length / 5
  BitVec.ofNat 40 (crc0 (d ++ List.replicate (5 * after) 0) * 256)

/-- R146, R147: a CLAIM has been written. -/
def claimWritten (s : State) : State := setRegn (fun x => { x with claimTimer := some 0 }) (count C.CLAIM_SENT s)

/-- Does a burst carry a CLAIM: it is for a discovery window and not a NO_DATA burst. -/
def isClaim (b : Burst) : Bool := b.win.id == 0 && fget (b.words.headD 0) 22 22 == 0

/-- Write a burst into a side's copy. -/
def writeBurst (sd : Side) (k : Nat) (b : Burst) (rx : List RxWord) (s : State) : State :=
  let fp := footprint b
  let tx := List.zipWith (overWord s) rx fp
  let d := (List.zipWith overDelta rx fp).flatten
  let errs := ((rx.take fp.length).filter isErr).length
  let dirty := (rx.take fp.length).any (fun w => !isErr w && (w.k || w.data != 0))
  let part := decide (rx.length < fp.length)
  let p : Over := { side := sd, row := b.win.start / 130, at_ := b.win.start % 130, words := tx, delta := rowDelta b.win.start d }
  s |> countN C.WIN_WORD_LOST errs
    |> whenB (dirty && !b.notClear) (count C.WIN_RX_NOT_CLEAR)
    |> whenB (isClaim b && !b.wrote) claimWritten
    |> setOpen sd (if part then some b.win else none)
    |> setWin (fun x => { x with
        puts := x.puts ++ [p]
        bufs := setAt x.bufs k (some { stopOn sd b with wrote := true, notClear := b.notClear || dirty }) })
    |> emit (.burstOut sd b.win.start tx)

/-- R205: does a copy meet what the writer asks of it; `rowDir` is the DIR of the row's marker if that was the valid one
expected there. -/
def copyTakes (sd : Side) (rowDir : Option Bool) (s : State) : Bool :=
  tracking sd s && rowDir == some (portDir sd) && !on (fFILLING sd) s

/-- A burst as its window passes on a copy: 12,480 wc run from its start on the first one (R203). -/
def passing (b : Burst) (s : State) : Burst := if b.started then b else { b with started := true, since := s.line }

/-- WINDOW_WRITE (R205-R207, R210): the footprint of the burst in place `buf` passes the writer of a side, `rx` being the
words as they come in; fewer than the footprint tell that writing stops after them. -/
def execWindowWrite (side : Side) (buf : Nat) (rowDir : Option Bool) (rx : List RxWord) (s : State) : Res :=
  done (match s.win.bufs.getD buf none with
    | none => s
    | some b0 =>
      if !waitsOn side b0 || (tracking side s && trkFrame side s != b0.win.frame) then s
      else
        let b := passing b0 s
        let keep (b : Burst) : State := setWin (fun x => { x with bufs := setAt x.bufs buf (some (stopOn side b)) }) s
        if !copyTakes side rowDir s then keep b
        else if mayWrite b s then writeBurst side buf b rx s
        else keep { b with refused := true })

/-- R203: does a burst still wait for a copy: one that is lost or carries only turned rows is waited for no more. -/
def stillWaits (b : Burst) (s : State) : Bool :=
  (b.toW && tracking .west s && !(trk .west s).turned) || (b.toE && tracking .east s && !(trk .east s).turned)

/-- R203: 12,480 wc have passed since the window started on the first copy: 3 ticks. -/
def burstOver (b : Burst) (s : State) : Bool := decide (3 ≤ tickDiff s.line b.since)

/-- BURST_BUFFER_RELEASE (R203, R205): the buffer is freed when the burst waits on no copy, or after 12,480 wc; a window
whose conditions failed on every copy is counted. -/
def execBurstBufferRelease (buf : Nat) (s : State) : Res :=
  done (match s.win.bufs.getD buf none with
    | none => s
    | some b =>
      if stillWaits b s && !burstOver b s then s
      else
        whenB (!b.wrote && !b.refused && !stillWaits b s) (count C.WIN_WITHHELD)
          (setWin (fun x => { x with bufs := setAt x.bufs buf none }) s))

/-- WIN_STATUS as it reads. -/
def winStatusView (s : State) : Word :=
  let busy := (List.range 8).foldl (fun n k => n + (if (s.win.bufs.getD k none).isSome then 2 ^ k else 0)) 0
  let next := frameOf (tickAdd s.line 1)
  let n := (s.win.wins.filter (fun w => w.frame == next)).length +
    (s.win.bufs.filter (fun b => b.any (fun b => b.win.frame == next && b.win.id != 0))).length
  BitVec.ofNat 40 (busy * 256 + min 2 n)

end Sys2Proof.Machine
end

