-- ==== Sys2Proof/Machine/NoteRx.lean ====
section
/-! DEFINITION. Receiving a downstream note: addressing, the states a type acts in, the streams, the answers and the tick
stamps (spec/07_management_notes.md R171-R182). -/

namespace Sys2Proof.Machine

/-- NOTE_ACK status codes (R178). -/
def nDONE : Nat := 0
def nSTAGED : Nat := 1
def nBAD_LEN : Nat := 2
def nBAD_VALUE : Nat := 3
def nREFUSED : Nat := 4
def nFULL : Nat := 5
def nLATE : Nat := 6
def nUNKNOWN : Nat := 8

/-- How a note is addressed. -/
inductive NAddr where
  | id | all | fprint
deriving DecidableEq, Repr

/-- A line of the catalogue (R182). -/
structure NKind where
  modes : List NAddr
  sequenced : Bool
  acts : TermState → NAddr → Bool
  lenOk : List Byte → Bool

/-! ### States of the catalogue (R176) -/

def inRR (t : TermState) (_ : NAddr) : Bool := t == .ranging || t == .running

/-- Inserted, not LEAVING. -/
def insertedState (t : TermState) : Bool :=
  t == .admitted || t == .claiming || t == .ranging || t == .running || t == .flywheel

/-- Orders: RANGING and RUNNING, by fingerprint LISTENING. -/
def orderState (t : TermState) (a : NAddr) : Bool := if a == .fprint then t == .listening else inRR t a

/-! ### Headers -/

/-- R174: a header that stops parsing: reserved MODE, an ID that does not go with it, or no room for the fingerprint. -/
def headerBad (mode id len : Nat) : Bool :=
  decide (2 ≤ mode) || (mode == 0 && id == 0) || (mode == 1 && (id != 0 || decide (len < 5)))

/-- How the note is addressed, where it is addressed to this terminal. -/
def addressed (n : Note) (s : State) : Option NAddr :=
  if n.mode == 1 then (if slice n.body 0 5 == fingerprint then some .fprint else none)
  else if n.id == 63 then some .all
  else if n.id != 0 && n.id.toNat == termId s then some .id
  else none

/-- The body after any fingerprint. -/
def noteFields (n : Note) (a : NAddr) : List Byte := if a == .fprint then n.body.drop 5 else n.body

/-- R174: the rest of the region is not parsed. -/
def endRegion (s : State) : State := setFrame (fun f => { f with regionStopped := true }) s

/-- R174: a malformed header ends parsing. -/
def stopRegion (s : State) : State := count C.NOTE_MALFORMED (endRegion s)

/-- Is the note region of a selected row 0 being parsed. -/
def parsing (s : State) : Bool := frmRuns s && s.frame.row0Frame.isSome && !s.frame.regionStopped

/-! ### Streams and answers (R177, R178) -/

/-- A stream's last SEQ. -/
def lastSeq (a : NAddr) (s : State) : Option Nat :=
  match a with
  | .id => if on F.NOTE_SEQ_ID_VALID s then some (rd F.NOTE_SEQ_ID_LAST s) else none
  | .all => if on F.NOTE_SEQ_BC_VALID s then some (rd F.NOTE_SEQ_BC_LAST s) else none
  | .fprint => if on F.NOTE_SEQ_FP_VALID s then some (rd F.NOTE_SEQ_FP_LAST s) else none

/-- Record a stream's SEQ. -/
def recordSeq (a : NAddr) (q : Nat) (s : State) : State :=
  match a with
  | .id => s |> wr F.NOTE_SEQ_ID_LAST q |> wr F.NOTE_SEQ_ID_VALID 1
  | .all => s |> wr F.NOTE_SEQ_BC_LAST q |> wr F.NOTE_SEQ_BC_VALID 1
  | .fprint => s |> wr F.NOTE_SEQ_FP_LAST q |> wr F.NOTE_SEQ_FP_VALID 1

/-- Queue the NOTE_ACK of an ID-stream note. -/
def ackNote (n : Note) (status : Nat) (s : State) : State :=
  queueAgain nNOTE_ACK [n.seq, n.type, BitVec.ofNat 8 status] s

/-- Keep the status of the ID stream's last note, for its duplicates. -/
def keepStatus (n : Note) (status : Nat) (s : State) : State :=
  if lastSeq .id s == some n.seq.toNat then
    setNote (fun x => { x with idStatus := some status }) (wr F.NOTE_SEQ_LAST_STATUS status s)
  else s

/-- R178: a note has been given a status. -/
def answer (n : Note) (stream : Option NAddr) (status : Nat) (s : State) : State :=
  let s1 := whenB (decide (2 ≤ status)) (count C.NOTE_REJECTED) s
  if stream == some .id then ackNote n status (keepStatus n status s1) else s1

/-- R177, R178: a duplicate; on the ID stream the stored status is sent again, unless the note is still held. -/
def duplicate (n : Note) (a : NAddr) (s : State) : State :=
  let s1 := count C.NOTE_DUP s
  match (if a == .id then s.note.idStatus else none) with
  | some st => ackNote n st s1
  | none => s1

/-- R177: a sequenced note with a new SEQ: it is recorded, and the note has no status yet. -/
def newSeq (a : NAddr) (q : Nat) (s : State) : State :=
  let s1 := recordSeq a q s
  if a == .id then setNote (fun x => { x with idStatus := none }) s1 else s1

/-- R174-R182: take a note of a listed type. `act` has its fields and answers the status, `none` where it is held. -/
def takeNote (k : NKind) (n : Note) (act : List Byte → NAddr → State → Option Nat × State) (s : State) : State :=
  if !parsing s then s
  else if headerBad n.mode.toNat n.id.toNat n.len.toNat then stopRegion s
  else
    match addressed n s with
    | none => s
    | some a =>
      let s1 := count C.NOTE_RX s
      let stream := if k.sequenced then some a else none
      let run (s : State) : State :=
        let b := noteFields n a
        if !k.lenOk b || b.length + (if a == .fprint then 5 else 0) != n.len.toNat then
          if stream == some .id then answer n stream nBAD_LEN s else count C.NOTE_MALFORMED s
        else
          match act b a s with
          | (none, s2) => s2
          | (some st, s2) => answer n stream st s2
      if !k.acts s1.term a then count C.NOTE_WRONG_STATE s1
      else if !k.modes.contains a then count C.NOTE_MALFORMED s1
      else if !k.sequenced then run s1
      else if lastSeq a s1 == some n.seq.toNat then duplicate n a s1
      else run (newSeq a n.seq.toNat s1)

/-! ### Tick stamps (R173, R180) -/

/-- The first word of a body. -/
def stampAt (b : List Byte) (o : Nat) : Word := bytesWord (slice b o 5)

/-- R180: the tick of the frame that carries the notes now handled. -/
def noteN (s : State) : Nat :=
  match s.frame.row0Frame with
  | some f => absTick f s
  | none => s.line

/-- What a tick stamp names, `least` ticks after the arrival tick being the earliest allowed; `error` holds the status. -/
def noteTick (w : Word) (least : Nat) (s : State) : Except Nat Nat :=
  let n := noteN s
  if w == 0 then .ok (tickAdd n least)
  else if !stampOk w then .error nBAD_VALUE
  else
    let d := stampDelta n w
    if d < least then .error nLATE else .ok (tickAdd n d)

/-- Use a note's tick; a stamp that is invalid or too near is answered, the latter also counted in NOTE_T_LATE (R180). -/
def withTick (w : Word) (least : Nat) (f : Nat → State → Option Nat × State) (s : State) : Option Nat × State :=
  match noteTick w least s with
  | .ok t => f t s
  | .error e => (some e, whenB (e == nLATE) (count C.NOTE_T_LATE) s)

/-- R73, R77, R81: as `withTick` for a note of its own limit, whose lateness is counted in `late` and is no rejection. -/
def withOwnTick (w : Word) (least late : Nat) (f : Nat → State → Option Nat × State) (s : State) : Option Nat × State :=
  match noteTick w least s with
  | .ok t => f t s
  | .error e => if e == nLATE then (none, count late s) else (some e, s)

end Sys2Proof.Machine
end

