-- ==== Sys2Proof/Machine/Bypass.lean ====
section
/-! DEFINITION. Bypass, listening, admission, turn-back and leaving: the keep-alive generator, the end of a line tick and of
a line cycle (spec/03_bypass_listening_admission.md R63-R84; spec/06 R152, R166; spec/01 R23-R24). -/

namespace Sys2Proof.Machine

/-! ### The keep-alive (R64-R68) -/

/-- R64: disarm; a high level falls, which is an edge. -/
def disarm (cause : Nat) (s : State) : State :=
  let edge := on F.BYPASS_STATUS_KA_LEVEL s
  let s1 := s |> wr F.BYPASS_STATUS_KA_ARMED 0 |> wr F.BYPASS_STATUS_KA_LEVEL 0 |> wr F.BYPASS_STATUS_CAUSE cause
  setByp (fun b => { b with sinceEdge := if edge then 0 else b.sinceEdge }) s1

/-- R68: an unplanned fall back to bypass, steps 1 to 3. -/
def bypassFall (cause : Nat) (s : State) : State :=
  disarm cause s |> count C.BYPASS_FALL |> raise E.BYPASS_FALL cause |> cutWindows |> rundownAll 3
    |> setByp (fun b => { b with ending := some .fall, ti := none, tl := none, checkFrom := none, leaveReq := none, leaveSent := false })

/-- The states R65 allows. -/
def healthyState (t : TermState) : Bool := insertedState t

/-- R65, R68: the lowest cause that keeps the tick from being healthy, none for a healthy one. -/
def unhealthy (parityErr boundaryLate : Bool) (s : State) : Option Nat :=
  if s.byp.frmOverrun then some 2
  else if boundaryLate then some 3
  else if parityErr then some 4
  else if s.byp.wdExpired then some 5
  else none

/-- R65: what the frame engine sends the generator at the end of a line tick. -/
def healthReport (parityErr boundaryLate : Bool) (s : State) : State :=
  if !on F.BYPASS_STATUS_KA_ARMED s then s
  else if s.term == .leaving then setByp (fun b => { b with ending := some .leave }) (disarm 6 s)
  else if !healthyState s.term then s
  else
    match unhealthy parityErr boundaryLate s with
    | some c => bypassFall c s
    | none =>
      setByp (fun b => { b with sinceEdge := 0 }) (wr F.BYPASS_STATUS_KA_LEVEL (1 - rd F.BYPASS_STATUS_KA_LEVEL s) s)

/-! ### The end of a line tick and of a line cycle -/

/-- R79: has the insertion check begun at this line tick. -/
def checkOpen (s : State) : Bool :=
  match s.byp.checkFrom with
  | some c => decide (0 ≤ tickDiff s.line (tickAdd c (classTicks s)))
  | none => false

/-- R79: count good markers on each input. -/
def goodTicks (s : State) : State :=
  let next (sd : Side) (n : Nat) : Nat := if checkOpen s && (trk sd s).seen && !(trk sd s).turned then n + 1 else 0
  setByp (fun b => { b with goodW := next .west b.goodW, goodE := next .east b.goodE }) s

/-- R166: count ticks with no valid tick marker on either input, and forget this tick's markers. -/
def markerTick (s : State) : State :=
  let none_ := !s.frame.trkW.seen && !s.frame.trkE.seen
  setFrame (fun f => { f with
    noMarker := if none_ then f.noMarker + 1 else 0
    trkW := { f.trkW with seen := false }
    trkE := { f.trkE with seen := false } }) s

/-- Advance a count that runs. -/
def oneMore (x : Option Nat) : Option Nat := x.map (· + 1)

/-- A held member is one cycle older. -/
def heldOlder (h : Held) : Held := { h with cycles := h.cycles + 1 }

/-- R147, R151, R152, R159, R182, R184, R192: what a counted cycle advances. -/
def countedCycle (s : State) : State :=
  let idle := if s.regn.granted || termId s == 0 then 0 else min 64 (rd F.REG_STATUS_GRANT_IDLE s + 1)
  s |> setRegn (fun r => { r with claimTimer := oneMore r.claimTimer, reportRep := r.reportRep + 1
                                  heldE := r.heldE.map heldOlder, heldW := r.heldW.map heldOlder })
    |> setNote (fun x => { x with up := x.up.map (fun n => { n with age := n.age + 1 }) })
    |> setFrame (fun f => { f with curReq := oneMore f.curReq, pendReq := oneMore f.pendReq })
    |> setByp (fun b => { b with leaveReq := if b.leaveSent then oneMore b.leaveReq else b.leaveReq, leaveRep := b.leaveRep + 1 })
    |> wr F.REG_STATUS_GRANT_IDLE idle

/-- R66: one cycle of the keep-alive watchdog, which runs from LISTENING on. -/
def watchdogCycle (s : State) : State :=
  if fromListening s then wr F.KA_WATCHDOG_REMAIN (rd F.KA_WATCHDOG_REMAIN s - 1) s else s

/-- The end of a line cycle. -/
def cycleEnd (s : State) : State :=
  let s1 := watchdogCycle (whenB s.frame.counted countedCycle s)
  s1 |> setRegn (fun r => { r with granted := false }) |> setFrame (fun f => { f with counted := false })
    |> setByp (fun b => { b with overruns := 0 }) |> setKey (fun x => { x with entRaised := false })

/-- A line tick ends: the keep-alive, then the tick's own bookkeeping. -/
def lineTickEnd (parityErr boundaryLate : Bool) (s : State) : State :=
  let s0 := setByp (fun b => { b with sinceEdge := b.sinceEdge + 1 }) s
  let s1 := markerTick (goodTicks (healthReport parityErr boundaryLate s0))
  let s2 := purgeJobs (cipherTick (setByp (fun b => { b with frmOverrun := false }) s1))
  whenB (s.line % 48 == 47) cycleEnd (setLine (tickAdd s2.line 1) s2)

/-- HEALTH_PULSE (R65): the end of a line tick. In RESET and HOLDING the frame engine is stopped (R52). -/
def execHealthPulse (parityErr boundaryLate : Bool) (s : State) : Res :=
  done (if countsNow s then lineTickEnd parityErr boundaryLate s else s)

/-- No automatic turn waits any more. -/
def noAutoTurn (s : State) : State :=
  let off (x : SpanSide) : SpanSide := { x with autoDue := false }
  setSpan .west off (setSpan .east off s)

/-- R68, R81: back to LISTENING with the ID cleared and both transmitters off; a turn, or one still to come, ends with it
(notes/assumptions/77.md). -/
def backToListening (s : State) : State :=
  let s1 := setByp (fun b => { b with txdisW := true, txdisE := true, ending := none, admitted := false, tl := none, ti := none,
                                      turns := [], leaveReq := none, leaveSent := false, goodW := 0, goodE := 0 })
              (noAutoTurn s)
  let s2 := s1 |> wr F.BYPASS_STATUS_INSERTED 0 |> wr F.BYPASS_STATUS_TURN_AUTO 0 |> wr F.BYPASS_STATUS_TURNED_W 0
              |> wr F.BYPASS_STATUS_TURNED_E (b2n (strap 10 s)) |> wr F.TIME_STATUS_FLYWHEEL 0 |> wr F.RANGE_STATUS_MEASURING 0
  goTerm .listening (clearId (setRegn (fun x =>
    { x with flyPrior := none, bothHeld := false, heldE := none, heldW := none, meas := {}, jumps := 0 }) s2))

/-- CLASS_TIME_ELAPSED (R37, R67, R68, R81). -/
def execClassTimeElapsed (s : State) : Res :=
  done (match s.byp.ending with
    | none => s
    | some .reset => setByp (fun b => { b with ending := none }) (wr F.BYPASS_STATUS_INSERTED 0 s)
    | some .fall => if fromListening s && decide (classTicks s ≤ s.byp.sinceEdge) then backToListening s else s
    | some .leave => if fromListening s && decide (classTicks s ≤ s.byp.sinceEdge) then raise E.LEAVE_DONE 0 (backToListening s) else s)

/-- R66: a write of KA_WATCHDOG. -/
def kaWatchdogWrite (p : Path) (v : Word) (s : State) : State :=
  if p == .mgmt && fget v 7 0 == 0xA5 then setByp (fun b => { b with wdExpired := false }) (wr F.KA_WATCHDOG_REMAIN 8 s) else s

/-- WATCHDOG_EXPIRY (R66): no cycle is left. -/
def execWatchdogExpiry (s : State) : Res :=
  done (if fromListening s && rd F.KA_WATCHDOG_REMAIN s == 0 then setByp (fun b => { b with wdExpired := true }) s else s)

/-! ### Admission (R77-R79) -/

def kADMIT : NKind := { modes := [.fprint], sequenced := false, acts := fun t _ => t == .listening, lenOk := fun b => b.length == 5 }

/-- Make TI pending (R77); ADMIT_TICK shows it. -/
def pendAdmit (t : Nat) (s : State) : State :=
  setByp (fun b => { b with ti := some t })
    (s |> wr F.ADMIT_TICK_CYCLE_LO (t / 48) |> wr F.ADMIT_TICK_TICK (t % 48) |> wr F.ADMIT_TICK_PENDING 1)

/-- ADMIT (R77). -/
def execAdmit (n : Note) (s : State) : Res :=
  done (takeNote kADMIT n (fun b _ s => withOwnTick (stampAt b 0) 48 C.ADMIT_LATE (fun t s => (some nDONE, pendAdmit t s)) s) s)

/-- The transmitters come on: each leaves electrical idle with running disparity negative (R86), and forwards its stream, or
fill where its path is filling (R104). -/
def lightsOn (s : State) : State :=
  let on_ (x : SpanSide) : SpanSide := { x with txRd := false, fillId := termId s }
  let s1 := setSpan .west on_ (setSpan .east on_ (setByp (fun b => { b with txdisW := false, txdisE := b.txdisE && singleSided s }) s))
  let fill (path : Side) (s : State) : State := whenB (on (fFILLING path) s) (fun s => fillAt path .east (fillAt path .west s)) s
  fill .east (fill .west s1)

/-- INSERTION (R77, R78): line tick TI, or the first line tick after it, begins. -/
def execInsertion (s : State) : Res :=
  done (match s.byp.ti with
    | none => s
    | some t =>
      if s.term != .listening || !tickDue t s.line || !(tracking .west s || tracking .east s) then s
      else
        s |> lightsOn
          |> setByp (fun b => { b with ti := none, checkFrom := some s.line, admitted := false, sinceEdge := 0, goodW := 0, goodE := 0 })
          |> setRegn (fun x => { x with loopFresh := false, meas := {}, jumps := 0 })
          |> goTerm .admitted |> wr F.BYPASS_STATUS_KA_ARMED 1 |> wr F.BYPASS_STATUS_INSERTED 1 |> wr F.ADMIT_TICK_PENDING 0)

/-- R79: has the deadline of the insertion check passed. -/
def checkOver (c : Nat) (s : State) : Bool := decide (0 < tickDiff s.line (tickAdd c (classTicks s + 96)))

/-- ADMIT_DONE (R79): 16 good ticks on every used input. -/
def execAdmitDone (s : State) : Res :=
  done (match s.byp.checkFrom with
    | none => s
    | some c =>
      if s.term == .admitted && decide (16 ≤ s.byp.goodW) && (singleSided s || decide (16 ≤ s.byp.goodE)) && !checkOver c s then
        raise E.ADMIT_DONE 0 (setByp (fun b => { b with admitted := true, checkFrom := none }) s)
      else s)

/-- ADMIT_FAIL (R79). -/
def execAdmitFail (s : State) : Res :=
  done (match s.byp.checkFrom with
    | none => s
    | some c =>
      if (s.term == .admitted || s.term == .flywheel) && checkOver c s then
        raise E.ADMIT_FAIL 0 (count C.ADMIT_FAIL (bypassFall 7 s))
      else s)

/-! ### Turns (R73-R76) -/

def turnStates (t : TermState) (_ : NAddr) : Bool := insertedState t

def kTURN : NKind := { modes := [.id], sequenced := false, acts := turnStates, lenOk := fun b => b.length == 6 }
def kTURN_END : NKind := { modes := [.id], sequenced := false, acts := turnStates, lenOk := fun b => b.length == 5 }

/-- Stage a turn or a turn end; of two for one tick the later stands (R21), and a repeat changes nothing. -/
def stageTurn (t : Nat) (sd : Option Side) (s : State) : State :=
  if s.byp.turns.contains (t, sd) then s
  else
    whenB (s.byp.turns.any (fun p => p.1 == t)) (count C.STAGE_SUPERSEDED)
      (setByp (fun b => { b with turns := b.turns.filter (fun p => p.1 != t) ++ [(t, sd)] }) s)

/-- TURN (R73, R76). -/
def execTurn (n : Note) (s : State) : Res :=
  done (takeNote kTURN n (fun b _ s =>
    if singleSided s then (none, count C.TURN_IGNORED s)
    else if 2 ≤ byteAt b 5 then (some nBAD_VALUE, s)
    else
      withOwnTick (stampAt b 0) 8 C.TURN_LATE
        (fun t s => (some nDONE, stageTurn t (some (if byteAt b 5 == 0 then .east else .west)) s)) s) s)

/-- TURN_END (R73, R76). -/
def execTurnEnd (n : Note) (s : State) : Res :=
  done (takeNote kTURN_END n (fun b _ s =>
    if singleSided s then (none, count C.TURN_IGNORED s)
    else withOwnTick (stampAt b 0) 8 C.TURN_LATE (fun t s => (some nDONE, stageTurn t none s)) s) s)

/-- The staged turn that is due first. -/
def dueTurn (s : State) : Option (Nat × Option Side) :=
  (s.byp.turns.filter (fun p => tickDue p.1 s.line)).foldl
    (fun best p => match best with | none => some p | some q => if tickDiff p.1 q.1 < 0 then some p else some q) none

/-- R73: has the tick marker of frame tick `t`, or a later one, come from an input. -/
def markerFrom (sd : Side) (t : Nat) (s : State) : Bool := tracking sd s && tickDue t (absTick (trkFrame sd s) s)

/-- A staged turn has been carried out. -/
def turnDone (p : Nat × Option Side) (s : State) : State :=
  setByp (fun b => { b with turns := b.turns.filter (fun q => q != p) }) s

/-- R73: the terminal gives side `d` up; a turn that names the other side replaces the one in force
(notes/assumptions/77.md). A side already given up changes nothing. -/
def turnTo (d : Side) (s : State) : State :=
  if on (fTURNED d) s then s
  else s |> wr (fTURNED d) 1 |> wr (fTURNED (otherSide d)) 0 |> wr F.BYPASS_STATUS_TURN_AUTO 0 |> noAutoTurn

/-- R73, R75: the turn ends on a side, or there was none. -/
def turnOff (d : Side) (s : State) : State := s |> wr (fTURNED d) 0 |> wr F.BYPASS_STATUS_TURN_AUTO 0 |> noAutoTurn

/-- TURN_EFFECTIVE (R73): the first staged turn or turn end that is due takes effect once the new source's tick marker has
come; `side` is the side given up or taken back. From then on its output carries the other stream, and the words of the
frame that was in progress there are not sent on. -/
def execTurnEffective (side : Side) (s : State) : Res :=
  done (match dueTurn s with
    | none => s
    | some (t, sd) =>
      if singleSided s || !(insertedState s.term || s.term == .leaving) then s
      else
        match sd with
        | none => if markerFrom side t s && !on (fTURNED (otherSide side)) s then turnOff side (turnDone (t, sd) s) else s
        | some d => if d == side && markerFrom (otherSide d) t s then turnTo d (turnDone (t, sd) s) else s)

/-- R75: has an input lost valid signal while the other still carries valid rows. -/
def signalGone (sd : Side) (s : State) : Bool :=
  (!(spanOf sd s).rowsOk || on (F.LANE_STATUS_LOS (laneOf sd)) s) && (spanOf (otherSide sd) s).rowsOk

/-- TURN_AUTO (R75): `side` is the input that has lost valid signal; the turn takes effect at the other input's next tick
marker. -/
def execTurnAuto (side : Side) (s : State) : Res :=
  done (if singleSided s || !on F.BYPASS_CFG_AUTO_TURN s || !insertedState s.term || s.byp.ending.isSome ||
        on (fTURNED side) s || on (fTURNED (otherSide side)) s || s.span.w.autoDue || s.span.e.autoDue || !signalGone side s then s
    else
      s |> setSpan side (fun x => { x with autoDue := true }) |> count C.TURN_AUTO |> raise E.TURN_AUTO (if isEast side then 0 else 1))

/-! ### Leaving (R81, R82) -/

def kLEAVE : NKind := { modes := [.id], sequenced := false, acts := inRR, lenOk := fun b => b.length == 5 }

/-- LEAVE (R81). -/
def execLeave (n : Note) (s : State) : Res :=
  done (takeNote kLEAVE n (fun b _ s => withOwnTick (stampAt b 0) 8 C.TURN_LATE
    (fun t s => (some nDONE, setByp (fun b => { b with tl := some t, leaveReq := none, leaveSent := false }) s)) s) s)

/-- R81 step 1: enter LEAVING. -/
def beginLeaving (s : State) : State :=
  goTerm .leaving (setByp (fun b => { b with tl := none, leaveReq := none, leaveSent := false, checkFrom := none }) (cutWindows s))

/-- May the terminal leave: it is inserted and no fall is under way. -/
def mayLeave (s : State) : Bool := insertedState s.term && s.byp.ending.isNone

/-- LEAVING (R81): line tick TL, or the first line tick after it, begins. -/
def execLeaving (s : State) : Res :=
  done (match s.byp.tl with
    | none => s
    | some t => if mayLeave s && tickDue t s.line then beginLeaving s else s)

/-- LEAVE_REQ_TIMEOUT (R82): at a cycle boundary. -/
def execLeaveReqTimeout (s : State) : Res :=
  done (match s.byp.leaveReq with
    | none => s
    | some k => if mayLeave s && decide (256 ≤ k) && s.line % 48 == 0 then beginLeaving s else s)

/-- LEAVE_REQ_REPEAT (R182). -/
def execLeaveReqRepeat (s : State) : Res :=
  done (if s.byp.leaveReq.isSome && decide (8 ≤ s.byp.leaveRep) && termId s != 0 then
      queueRepeat nLEAVE_REQ [] (setByp (fun b => { b with leaveRep := 0 }) s)
    else s)

end Sys2Proof.Machine
end

