-- ==== Sys2Proof/Machine/Registration.lean ====
section
/-! DEFINITION. Claiming, assignment, release, ranging, keeping time and FLYWHEEL
(spec/06_registration_ranging_time.md R144-R170; spec/09 R214-R218). -/

namespace Sys2Proof.Machine

/-! ### The CLAIM (R144-R147, R214) -/

/-- R214 steps 2 and 3: the key pair and Z_s. -/
def ephemeral (s : State) : State :=
  let (draw, s1) := drawBytes 40 s
  let d := scalarOf draw
  let h := bytesPoint s.key.housePub
  setRegn (fun x => { x with eT := bytesBE 32 d, ePub := publicOf d, zS := (ecdhOp d h.1 h.2).2 }) (putSlot 1 (bytesBE 32 d) s1)

/-- R214 steps 4 and 5: the body and its signature. The firmware signs again after BAD_RESULT (R236). -/
def signClaim (s : State) : State :=
  let body := fingerprint ++ wordBytes (reg R.CLAIM_NONCE s) ++ identityPub ++ s.regn.ePub
  let (draw, s1) := drawBytes 40 s
  let r := signOp (beNat ((keySlot 0 s).getD [])) (scalarOf draw) (beNat (sha256 body))
  let s2 := sigEnds 7 r.1 s1
  if r.1 == sigBAD_RESULT then s2
  else setRegn (fun x => { x with preparing := false, prepared := true, claimBody := body ++ r.2 }) s2

/-- CLAIM_PREPARED (R214, R236). Without a DRBG nothing can be drawn, and the preparation goes on, as it does where the
signature has to be made again. -/
def execClaimPrepared (s : State) : Res :=
  let drawn := !s.regn.ePub.isEmpty
  done (if !s.regn.preparing || !claiming s || !houseHeld s || !domOn dCIP s then s
    else if !drbgRuns s then sigEnds (if drawn then 7 else 5) sigNO_RANDOM s
    else signClaim (if drawn then s else ephemeral s))

/-- Set the offers still to skip; BACKOFF shows at most 15. -/
def setBackoff (n : Nat) (s : State) : State :=
  setRegn (fun x => { x with backoff := n }) (wr F.REG_STATUS_BACKOFF (min 15 n) s)

/-- The CLAIM as an upstream note: a re-claim keeps its SEQ. -/
def claimNote (s : State) : UpNote × State :=
  let body := s.regn.claimBody
  let l := lget (256, []) s.note.last 0x40
  if l.1 < 256 && l.2 == body then ({ type := 0x40, seq := l.1, body, age := 0 }, s)
  else
    let seq := s.note.upSeq
    ({ type := 0x40, seq, body, age := 0 },
     setNote (fun x => { x with upSeq := (seq + 1) % 256, last := lput (256, []) 0x40 (seq, body) x.last }) s)

/-- A CLAIM for the copies on which the window is not taken (R146). -/
def sendClaim (o : DiscOffer) (west east : Bool) (s : State) : State :=
  let w : Win := { frame := o.frame, id := 0, mask := b2n west + 2 * b2n east, start := o.start, foot := o.foot, tag := 0, cls := 1 }
  match freeBuf 0 8 s with
  | none => noDataBurst (sparePlace s) w (count C.WIN_NO_BUFFER s)
  | some k =>
    let (n, s1) := claimNote s
    putBurst k w (burstWords w false false (upEncode 0 n) s1) s1

/-- The smallest discovery window a CLAIM fits. -/
def claimFoot : Nat := 47

/-- R145: is the discovery window taken on a copy, by its second word as received. -/
def takenBy (w : RxWord) : Bool := isK kDelim w && !badWord w

/-- R207: was row 0 of the frame that made an offer selected. -/
def offerStands (o : DiscOffer) (s : State) : Bool :=
  (rowRec (frameOf (tickAdd (absTick o.frame s) (-1))) 0 s).any (fun r => r.sel.isSome)

/-- Does a CLAIM still wait to be written, or its ASSIGN to come. -/
def claimOut (s : State) : Bool :=
  s.regn.claimTimer.isSome || s.win.bufs.any (fun b => b.any (fun b => b.win.id == 0))

/-- CLAIM (R145, R146): the discovery window offered for this frame is about to pass; `west` and `east` are its second word as
received on each input, none where that copy is not there. -/
def execClaim (west east : Option RxWord) (s : State) : Res :=
  done (match s.frame.disc with
    | none => s
    | some o =>
      if s.term != .claiming || s.byp.ending.isSome then s
      else
        let s1 := setFrame (fun f => { f with disc := none }) s
        let copies := west.toList ++ (if singleSided s then [] else east.toList)
        if !s.regn.prepared || !houseHeld s || claimOut s then s1
        else if 0 < s.regn.backoff then setBackoff (s.regn.backoff - 1) s1
        else if !offerStands o s then s1
        else if o.foot < claimFoot then count C.DISC_TOO_SMALL s1
        else if copies.isEmpty then s1
        else if copies.all takenBy then
          let (d, s2) := drawBytes 1 s1
          setBackoff (beNat d % 16 + 1) (count C.CLAIM_TAKEN s2)
        else sendClaim o (west.any (fun w => !takenBy w)) (!singleSided s && east.any (fun w => !takenBy w)) s1)

/-- CLAIM_RETRY (R147): the next offer is used again. -/
def execClaimRetry (s : State) : Res :=
  done (match s.regn.claimTimer with
    | none => s
    | some k =>
      if s.term == .claiming && decide (16 ≤ k) then
        count C.CLAIM_RETRY (setRegn (fun x => { x with claimTimer := none }) s)
      else s)

/-! ### ASSIGN (R148, R149, R216-R218) -/

def kASSIGN : NKind :=
  { modes := [.fprint], sequenced := false, acts := fun t _ => t == .claiming || t == .ranging || t == .running
    lenOk := fun b => b.length == 134 }

/-- Adopt the ID of a matching ASSIGN. -/
def adoptId (id : Nat) (s : State) : State :=
  if s.term == .claiming then
    s |> setId id |> wr F.SPAN_WAKE_WAKE_ID id |> enterRanging |> raise E.REGISTERED id
  else if termId s == id then count C.ASSIGN_DUP s
  else s |> count C.ASSIGN_CHANGED |> eraseOnRelease |> setId id |> wr F.SPAN_WAKE_WAKE_ID id |> enterRanging

/-- A matching ASSIGN that is to be worked on: K_CONF, the tag, the answer, and what follows it. -/
def matchAssign (b : List Byte) (s : State) : State :=
  let nonce := b.take 5
  let id := byteAt b 5
  let eH := slice b 6 64
  let tag := ackTag nonce id s.regn.zS s.regn.ePub eH
  s |> adoptId id |> putSlot 2 (kConf nonce id s.regn.zS)
    |> setRegn (fun x => { x with claimTimer := none, lastAssign := some (b, tag),
                                  assignWork := some { nonce, id, eH, sig := slice b 70 64 } })
    |> sigEnds 4 sigOK |> queueUp nASSIGN_ACK (b.take 6 ++ tag)

/-- R216: the key-agreement checks. -/
def assignChecked (b : List Byte) (q : Nat × Nat) (s : State) : State :=
  if !houseHeld s || !s.regn.prepared then count C.ASSIGN_KEY_BAD s
  else if pointStatus q.1 q.2 != sigOK then sigEnds 4 (pointStatus q.1 q.2) (count C.ASSIGN_KEY_BAD s)
  else matchAssign b s

/-- ASSIGN's effect: one that repeats the nonce, the ID and the E_H of the last changes nothing but is answered with the
same tag (R149, R218). -/
def takeAssign (b : List Byte) (s : State) : State :=
  let id := byteAt b 5
  let q := bytesPoint (slice b 6 64)
  if id == 0 || decide (62 < id) then count C.ASSIGN_BAD s
  else if bytesWord (b.take 5) != reg R.CLAIM_NONCE s then count C.ASSIGN_STALE s
  else
    match s.regn.lastAssign with
    | some (old, tag) =>
      if old == b || (old.take 70 == b.take 70 && houseHeld s) then
        queueAgain nASSIGN_ACK (b.take 6 ++ tag) (count C.ASSIGN_DUP s)
      else assignChecked b q s
    | none => assignChecked b q s

/-- ASSIGN (R148). -/
def execAssign (n : Note) (s : State) : Res := done (takeNote kASSIGN n (fun b _ s => (some nDONE, takeAssign b s)) s)

/-- R220: answer the KEY_LOAD that waited for K_WRAP. -/
def answerHeldKey (s : State) : State :=
  match s.note.heldKey with
  | none => s
  | some n =>
    let (st, s1) := keyLoad n.body (setNote (fun x => { x with heldKey := none }) s)
    answer n (some .id) st s1

/-- ASSIGN_VERIFY_DONE (R217, R151). A forged one drops the ID; a terminal that is leaving goes on leaving (R153). -/
def execAssignVerifyDone (s : State) : Res :=
  done (match s.regn.assignWork with
    | none => s
    | some w =>
      if !countsNow s || !domOn dCIP s then s
      else
        let msg := w.nonce ++ [BitVec.ofNat 8 w.id] ++ w.eH ++ fingerprint ++ s.regn.ePub
        let h := bytesPoint s.key.housePub
        let st := verifyOp h.1 h.2 (beNat (slice w.sig 0 32)) (beNat (slice w.sig 32 32)) (beNat (sha256 msg))
        if st != sigOK then
          let s1 := s |> sigEnds 8 st |> count C.ASSIGN_FORGED |> raise E.ASSIGN_FORGED 0 |> dropId
          if s.term == .leaving then s1 else enterClaiming s1
        else
          let q := bytesPoint w.eH
          let z := ecdhOp (beNat s.regn.eT) q.1 q.2
          s |> putSlot 3 (kWrap w.nonce w.id s.regn.zS z.2) |> setRegn (fun x => { x with assignWork := none })
            |> sigEnds 6 z.1 |> answerHeldKey)

/-! ### Release (R151) -/

def kRELEASE : NKind := { modes := [.id, .all], sequenced := false, acts := inRR, lenOk := fun b => b.length == 0 }

/-- RELEASE (R151). -/
def execRelease (n : Note) (s : State) : Res :=
  done (takeNote kRELEASE n (fun _ _ s =>
    (some nDONE, s |> count C.ID_RELEASED |> raise E.RELEASED 0 |> dropId |> enterClaiming)) s)

/-- GRANT_TIMEOUT (R151). -/
def execGrantTimeout (s : State) : Res :=
  done (if (s.term == .ranging || s.term == .running) && termId s != 0 && decide (64 ≤ rd F.REG_STATUS_GRANT_IDLE s) then
      s |> count C.GRANT_TIMEOUT |> raise E.RELEASED 1 |> dropId |> enterClaiming
    else s)

/-! ### Ranging (R154-R161) -/

/-- R155, R156: d_E, d_W, MODE, D and R of a full measurement; none for a form the terminal cannot measure. -/
structure Ranged where
  dE : Int
  dW : Int
  mode : Nat
  d : Int
  r : Int
deriving DecidableEq, Repr

/-- R155, R156: the result of a full measurement. -/
def computeRange (m : Meas) (s : State) : Option Ranged :=
  let asym := rdS F.RANGE_STATUS_ASYM s
  let le : Int := s.frame.loopE
  let lw : Int := s.frame.loopW
  let d := m.d.tdiv 48
  let oW : Int := (m.oW / 48 : Nat)
  let oE : Int := (m.oE / 48 : Nat)
  if s.frame.loopW == 0 then
    if singleSided s then
      let r := 64 * (8 + oW)
      some { dE := (le - r).tdiv 2 + asym, dW := 0, mode := 2, d := 0, r }
    else
      let r := 64 * (8 + oE)
      some { dE := (le - r - d).tdiv 2 + asym, dW := 0, mode := 1, d, r }
  else if singleSided s then none
  else
    let r := 64 * (16 + oW + oE)
    let sum := le + lw
    some { dE := (sum - r - 2 * d).tdiv 4 + asym, dW := (sum - r + 2 * d).tdiv 4 - asym, mode := 0, d, r }

/-- The result of the 48 ticks of a cycle, once they have come. -/
def measured (s : State) : Option Ranged :=
  if s.regn.meas.n == 48 && measures s then computeRange s.regn.meas s else none

/-- How far the delay building time follows moves. -/
def followedDiff (x : Ranged) (s : State) : Int :=
  if rd F.TIME_STATUS_SOURCE s == 2 && x.mode == 0 then x.dW - delayW s else x.dE - delayE s

/-- Make a result wait for the next tick boundary. -/
def pendResult (x : Ranged) (step release : Bool) (s : State) : State :=
  setRegn (fun r => { r with
    lastD := x.d, lastR := x.r, jumps := 0
    pendRange := some { dE := x.dE, dW := x.dW, mode := x.mode, gen := rd F.FRAME_GEN_LOOP_GEN s, step, release
                        diff := followedDiff x s } }) s

/-- Is either direction held. -/
def anyHeld (s : State) : Bool := s.regn.heldE.isSome || s.regn.heldW.isSome

/-- R164: every hold has seen a LOOP_GEN first received after its step. -/
def holdsFresh (s : State) : Bool := s.regn.heldE.all (fun h => h.fresh) && s.regn.heldW.all (fun h => h.fresh)

/-- R164, R165: does a result give, for the direction not held, a delay within 2 wc of the applied one; with both held, before
the first result and on an open chain there is none to compare. -/
def nearUnheld (x : Ranged) (s : State) : Bool :=
  s.regn.bothHeld || (s.regn.heldE.isSome && s.regn.heldW.isSome) || !on F.TIME_STATUS_RANGED s || x.mode != 0 ||
    !beyond (if s.regn.heldE.isSome then x.dW - delayW s else x.dE - delayE s)

/-- RANGE_RESULT (R155-R157, R159, R164): the measurement asked for is complete. -/
def execRangeResult (s : State) : Res :=
  done (match (if on F.RANGE_STATUS_MEASURING s then measured s else none) with
    | none => s
    | some x =>
      let s1 := pendResult x false (anyHeld s && holdsFresh s && nearUnheld x s) (wr F.RANGE_STATUS_MEASURING 0 s)
      newReport x.dE x.dW (rd F.FRAME_GEN_LOOP_GEN s) x.mode (setMeas {} s1))

/-- RANGE_REPORT_REPEAT (R159). -/
def execRangeReportRepeat (s : State) : Res :=
  done (match s.regn.report with
    | none => s
    | some b =>
      if (s.term == .ranging || s.term == .running) && !on F.RANGE_STATUS_ACKED s && decide (8 ≤ s.regn.reportRep) then
        queueRepeat nRANGE_REPORT b (setRegn (fun x => { x with reportRep := 0 }) s)
      else s)

def kRANGE_OK : NKind := { modes := [.id], sequenced := false, acts := inRR, lenOk := fun b => b.length == 1 }

/-- RANGE_OK (R160). -/
def execRangeOk (n : Note) (s : State) : Res :=
  done (takeNote kRANGE_OK n (fun b _ s =>
    match s.regn.report with
    | none => (some nDONE, count C.RANGE_OK_STALE s)
    | some rep =>
      if byteAt b 0 != rd F.RANGE_STATUS_REPORT_SEQ s then (some nDONE, count C.RANGE_OK_STALE s)
      else
        let s1 := setRegn (fun x => { x with ackE := toSigned 24 (beNat (slice rep 1 3)), ackW := toSigned 24 (beNat (slice rep 4 3)) })
          (wr F.RANGE_STATUS_ACKED 1 s)
        (some nDONE, if s1.term == .ranging then goTerm .running s1 else s1)) s)

def kRANGE_RETRY : NKind := { modes := [.id], sequenced := true, acts := inRR, lenOk := fun b => b.length == 0 }
def kRANGE_ADJ : NKind := { modes := [.id], sequenced := true, acts := inRR, lenOk := fun b => b.length == 2 }

/-- RANGE_RETRY (R160). -/
def execRangeRetry (n : Note) (s : State) : Res :=
  done (takeNote kRANGE_RETRY n (fun _ _ s => (some nDONE, beginMeasure s)) s)

/-- RANGE_ADJ (R160). -/
def execRangeAdj (n : Note) (s : State) : Res :=
  done (takeNote kRANGE_ADJ n (fun b _ s => (some nDONE, wr F.RANGE_STATUS_ASYM (beNat (slice b 0 2)) s)) s)

/-! ### Keeping time (R162-R165) -/

/-- R156: with only d_E computed, d_W is 0 and time is kept on the eastbound copy. -/
def eastboundOnly (mode : Nat) (s : State) : State :=
  if mode == 0 then s
  else s |> wr F.RANGE_W_D 0 |> whenB (rd F.TIME_STATUS_SOURCE s == 2) (wr F.TIME_STATUS_SOURCE 1)

/-- R162: a recompute while no direction is held. The two results are judged together (notes/assumptions/78.md). -/
def recomputeFree (x : Ranged) (s : State) : State :=
  let eE := x.dE - delayE s
  let eW := if x.mode == 0 then x.dW - delayW s else 0
  let g := rd F.FRAME_GEN_LOOP_GEN s
  if beyond eE || beyond eW then
    let s1 := count C.RANGE_JUMP s
    if 8 ≤ s.regn.jumps + 1 then newReport x.dE x.dW g x.mode (pendResult x true false s1)
    else setRegn (fun r => { r with jumps := r.jumps + 1 }) s1
  else
    s |> wr F.RANGE_E_LOOP_GEN g |> wr F.RANGE_W_LOOP_GEN g |> wr F.RANGE_STATUS_MODE x.mode |> eastboundOnly x.mode
      |> setRegn (fun r => { r with jumps := 0, lastD := x.d, lastR := x.r, slewE := eE, slewW := eW })

/-- R164, R165: a recompute while a direction is held. -/
def recomputeHeld (x : Ranged) (s : State) : State :=
  let stale := s.regn.heldE.any (fun h => h.stale) || s.regn.heldW.any (fun h => h.stale)
  if !holdsFresh s then s
  else if nearUnheld x s || stale then
    newReport x.dE x.dW (rd F.FRAME_GEN_LOOP_GEN s) x.mode (pendResult x (!nearUnheld x s) true s)
  else count C.DELAY_STEP_BAD s

/-- RANGE_RECOMPUTE (R162, R164): the end of a cycle measured in full. -/
def execRangeRecompute (s : State) : Res :=
  done (match (if s.term == .running && !on F.RANGE_STATUS_MEASURING s && on F.TIME_STATUS_RANGED s then measured s else none) with
    | none => s
    | some x =>
      let s1 := setMeas {} s
      if anyHeld s then recomputeHeld x s1 else recomputeFree x s1)

/-- Is a direction, named by the input that receives it, of no use for time: held after a step, lost, or given up
(R84, R163). -/
def dirHeld (sd : Side) (s : State) : Bool :=
  heldSide sd s || !tracking sd s || (trk sd s).turned || on (fTURNED sd) s

/-- R165: a step on one direction while the other is held: time is held on the oscillator. -/
def holdOscillator (sd : Side) (s : State) : State :=
  if singleSided s || dirHeld (otherSide sd) s then
    setRegn (fun r => { r with bothHeld := true }) (s |> wr F.TIME_STATUS_FLYWHEEL 1 |> wr F.TIME_STATUS_SOURCE 0)
  else s

/-- R163: the direction received on a side is held. The West input carries the eastbound copy. -/
def holdDir (sd : Side) (d : Int) (s : State) : State :=
  let h : Held := { step := d }
  measBreak (match sd with
    | .west => setRegn (fun r => { r with heldE := some h }) s
    | .east => setRegn (fun r => { r with heldW := some h }) s)

/-- DELAY_STEP (R84, R163, R165): the last tick marker of `side` came more than 2 wc from where the one before puts it. -/
def execDelayStep (side : Side) (s : State) : Res :=
  done (match (spanOf side s).dev with
    | none => s
    | some d =>
      if !frmRuns s || !tracking side s || !beyond d then s
      else
        s |> setSpan side (fun x => { x with dev := none }) |> countSide C.DELAY_STEP_W side |> raise E.DELAY_STEP (laneOf side)
          |> holdDir side d |> holdOscillator side)

/-- DELAY_STEP_STALE (R164). -/
def execDelayStepStale (s : State) : Res :=
  let due (h : Option Held) : Bool := h.any (fun h => decide (32 ≤ h.cycles) && !h.stale)
  let mark (h : Option Held) : Option Held := if due h then h.map (fun h => { h with stale := true }) else h
  done (s |> countN C.DELAY_STEP_STALE (b2n (due s.regn.heldE) + b2n (due s.regn.heldW))
          |> setRegn (fun r => { r with heldE := mark r.heldE, heldW := mark r.heldW }))

/-! ### At the tick boundary (R157, R162, R164, R168) -/

/-- R168: a time step by `d` phases. -/
def timeStep (d : Int) (s : State) : State :=
  let s1 := raise E.TIME_STEP (ofSigned 40 d) (count C.TIME_STEP s)
  { s1 with bt := tickAdd s1.bt (d / phasesPerTick) }

/-- Store a result as the applied delays. -/
def storeRange (x : RangeRes) (s : State) : State :=
  setRegn (fun r => { r with pendRange := none, slewE := 0, slewW := 0 })
    (s |> wr F.RANGE_E_D (ofSigned 24 x.dE) |> wr F.RANGE_W_D (ofSigned 24 x.dW) |> wr F.RANGE_E_LOOP_GEN x.gen
       |> wr F.RANGE_W_LOOP_GEN x.gen |> wr F.RANGE_STATUS_MODE x.mode |> eastboundOnly x.mode)

/-- R164, R165: both holds end. -/
def releaseHolds (s : State) : State :=
  let s1 := setRegn (fun r => { r with heldE := none, heldW := none, bothHeld := false }) s
  raise E.DELAY_STEP_DONE 0 (whenB (s.term != .flywheel) (wr F.TIME_STATUS_FLYWHEEL 0) s1)

/-- R157, R162, R164: apply the waiting result. The first one sets RANGED and begins building time. -/
def applyRange (s : State) : State :=
  match s.regn.pendRange with
  | none => s
  | some x =>
    let s1 := storeRange x s
    if !on F.TIME_STATUS_RANGED s then
      let d := if rd F.TIME_STATUS_SOURCE s == 2 && x.mode == 0 then x.dW else x.dE
      raise E.RANGED 0 (setBt (tickAdd s1.line (d / phasesPerTick)) (wr F.TIME_STATUS_RANGED 1 s1))
    else
      let s2 := if x.step || beyond x.diff then timeStep x.diff s1
        else setRegn (fun r => { r with slewT := r.slewT + x.diff }) s1
      whenB x.release releaseHolds s2

/-- One phase toward zero. -/
def slewOne (x : Int) : Int := if 0 < x then x - 1 else if x < 0 then x + 1 else 0

/-- The sign of a slew. -/
def slewSign (x : Int) : Int := if 0 < x then 1 else if x < 0 then -1 else 0

/-- R162, R168: each slew moves by 1 phase per tick; R159: a report once an applied delay has moved by more than 2 wc. -/
def slewTick (s : State) : State :=
  let r := s.regn
  let s1 := setRegn (fun r => { r with slewE := slewOne r.slewE, slewW := slewOne r.slewW, slewT := slewOne r.slewT })
    (s |> whenB (r.slewE != 0) (wr F.RANGE_E_D (ofSigned 24 (delayE s + slewSign r.slewE)))
       |> whenB (r.slewW != 0) (wr F.RANGE_W_D (ofSigned 24 (delayW s + slewSign r.slewW))))
  let moved := 128 < (delayE s1 - r.ackE).natAbs || 128 < (delayW s1 - r.ackW).natAbs
  if s1.term == .running && on F.RANGE_STATUS_ACKED s1 && moved then
    newReport (delayE s1) (delayW s1) (rd F.RANGE_E_LOOP_GEN s1) (rd F.RANGE_STATUS_MODE s1) s1
  else s1

/-- R163: the word clock moves off a held direction at the tick boundary, where the other is good. -/
def moveSource (s : State) : State :=
  let src := rd F.TIME_STATUS_SOURCE s
  if s.term == .flywheel || s.regn.bothHeld then s
  else if src == 1 && dirHeld .west s && !dirHeld .east s && !singleSided s then wr F.TIME_STATUS_SOURCE 2 s
  else if src == 2 && dirHeld .east s && !dirHeld .west s then wr F.TIME_STATUS_SOURCE 1 s
  else s

/-- RANGE_E and RANGE_W as they read: HELD also while the input is lost or carries only turned rows. -/
def rangeView (sd : Side) (s : State) : Word :=
  let a := match sd with | .west => R.RANGE_E | .east => R.RANGE_W
  let gone := if tracking sd s then (trk sd s).turned else (spanOf sd s).had
  fput (reg a s) 0 0 (b2n (heldSide sd s || gone))

/-! ### FLYWHEEL (R166-R168) -/

/-- FLYWHEEL_ENTRY (R166). -/
def execFlywheelEntry (s : State) : Res :=
  let from_ := s.term == .admitted || s.term == .claiming || s.term == .ranging || s.term == .running
  done (if from_ && decide (4 ≤ s.frame.noMarker) then
      setRegn (fun r => { r with flyPrior := some s.term })
        (s |> measBreak |> wr F.TIME_STATUS_FLYWHEEL 1 |> wr F.TIME_STATUS_SOURCE 0 |> cutWindows |> goTerm .flywheel
           |> count C.FLYWHEEL_ENTRY |> raise E.FLYWHEEL_IN 0)
    else s)

/-- R153: is a usable header of the frame of a tracker that holds position there. -/
def headerBack (s : State) : Bool :=
  on F.FRAME_STATUS_HDR_OK s &&
    [Side.west, Side.east].any (fun sd => tracking sd s && s.frame.hdrFrame == some (trkFrame sd s))

/-- The input the word clock follows when time leaves the oscillator. -/
def sourceBack (s : State) : Nat :=
  if tracking .west s && s.frame.hdrFrame == some (trkFrame .west s) && rd F.FRAME_STATUS_HDR_SRC s != 2 then 1
  else if tracking .east s then 2 else 1

/-- R168: how far the building time that the received copy gives lies ahead of the flywheel's, in phases: line tick, begun
at the marker, plus the applied delay of the copy now followed, against the marker's place `pos` in building tick bt. -/
def exitDiff (pos : Int) (s : State) : Int :=
  tickDiff s.line s.bt * phasesPerTick + (if rd F.TIME_STATUS_SOURCE s == 2 then delayW s else delayE s) - pos

/-- R168: is the cycle at the marker another by the received copy than by the flywheel. -/
def exitCycle (pos : Int) (s : State) : Bool :=
  let now := (s.bt : Int) * phasesPerTick + pos
  let c (x : Int) : Int := x / (48 * phasesPerTick : Nat) % (ticksPerEpoch / 48 : Nat)
  c now != c (now + exitDiff pos s)

/-- R168: time returns to the received copy. -/
def exitTime (pos : Int) (s : State) : State :=
  let d := exitDiff pos s
  if !on F.TIME_STATUS_RANGED s then s
  else if !beyond d && !exitCycle pos s then setRegn (fun r => { r with slewT := r.slewT + d }) s
  else
    setRegn (fun r => { r with pendStep := some (tickAdd (nextTick s) (d / phasesPerTick)) })
      (raise E.TIME_STEP (ofSigned 40 d) (count C.TIME_STEP s))

/-- FLYWHEEL_EXIT (R153, R168): `pos` is where the tick marker of the frame lies from the start of the present building
tick, in phases. -/
def execFlywheelExit (pos : Int) (s : State) : Res :=
  done (match s.regn.flyPrior with
    | none => s
    | some t =>
      if s.term != .flywheel || !headerBack s then s
      else
        let s1 := setRegn (fun r => { r with flyPrior := none }) (goTerm t s)
        if s1.regn.bothHeld then s1
        else exitTime pos (s1 |> wr F.TIME_STATUS_FLYWHEEL 0 |> wr F.TIME_STATUS_SOURCE (sourceBack s1)))

/-! ### TIME_MAP (R169) -/

def kTIME_MAP : NKind := { modes := [.all], sequenced := false, acts := fun _ _ => true, lenOk := fun b => b.length == 17 }

/-- TIME_MAP (R169). -/
def execTimeMap (n : Note) (s : State) : Res :=
  done (takeNote kTIME_MAP n (fun b _ s =>
    if on F.TAI_ORIGIN_NS_VALID s && rd F.TAI_UTC_SEQ s == n.seq.toNat then (some nDONE, s)
    else if 1000000000 ≤ beNat (slice b 10 4) then (some nDONE, count C.TIME_MAP_BAD s)
    else (some nDONE, setRegn (fun r => { r with pendTime := some (b, n.seq.toNat) }) s)) s)

/-- The waiting TIME_MAP is loaded at the tick boundary. -/
def applyTimeMap (s : State) : State :=
  match s.regn.pendTime with
  | none => s
  | some (b, q) =>
    setRegn (fun r => { r with pendTime := none })
      (s |> setReg R.TAI_ORIGIN_CYCLE (bytesWord (slice b 0 5)) |> setReg R.TAI_ORIGIN_SEC (bytesWord (slice b 5 5))
         |> wr F.TAI_ORIGIN_NS_NS (beNat (slice b 10 4)) |> wr F.TAI_ORIGIN_NS_VALID 1
         |> wr F.TAI_UTC_UTC_OFFSET (beNat (slice b 14 2)) |> wr F.TAI_UTC_LEAP61 (byteAt b 16 % 2)
         |> wr F.TAI_UTC_LEAP59 (byteAt b 16 / 2 % 2) |> wr F.TAI_UTC_TRACEABLE (byteAt b 16 / 4 % 2) |> wr F.TAI_UTC_SEQ q)

end Sys2Proof.Machine
end

