-- ==== Sys2Proof/Machine/BootSteps.lean ====
section
/-! DEFINITION. The release of reset, the self-test steps, HOLDING, the image step and the PCI Express flash bridge
(spec/02_power_up_straps_selftest.md R40-R57). -/

namespace Sys2Proof.Machine

/-! ### HOLDING and the step running -/

/-- The step running or last run. -/
def bootStep (s : State) : Nat := rd F.SELFTEST_RESULT_STEP s

/-- Boot source (R44-R46): 0 flash, 1 host, 2 factory hold, 3 hostless. -/
def bootSource (s : State) : Nat := rd F.BOOT_STATUS_SOURCE s

/-- R52: enter HOLDING with a hold code. -/
def enterHolding (code : Nat) (s : State) : State := changeTerm .holding (wr F.SELFTEST_RESULT_HOLD_CODE code s)

/-- The sub-code and detail of a failure. -/
def noteFailure (sub detail : Nat) (s : State) : State :=
  s |> wr F.SELFTEST_RESULT_SUBCODE sub |> wr F.SELFTEST_RESULT_DETAIL detail

/-- A fatal failure of step `n`. -/
def failStep (n sub detail : Nat) (s : State) : State := enterHolding n (noteFailure sub detail s)

/-- R42, R48: self-test begins at step 0x01, unless the straps conflict. -/
def beginSelftest (s : State) : State :=
  if bootSource s == 1 && !strap 2 s then enterHolding 0x10 s
  else changeTerm .selftest (wr F.SELFTEST_RESULT_STEP 1 s)

/-- RELEASE_OF_RESET (R35, R40, R41). -/
def execReleaseOfReset (straps : BitVec 12) (s : State) : Res :=
  done (if s.term != .reset then s
    else if s.boot.strapsDue then
      beginSelftest (setBoot (fun b => { b with strapsDue := false }) (applyStraps (wr F.STRAP_LATCH_STRAPS straps.toNat s)))
    else beginSelftest s)

/-! ### The image step (R44, R45, R430, R442, R444) -/

/-- The image that runs from now on. -/
def bootImage (m : List Byte) (fallback : Bool) (s : State) : State :=
  setGlean (fun g => { g with fresh := imageFresh m })
    (s |> wr F.BOOT_STATUS_IMAGE (b2n fallback) |> wr F.IMAGE_RUNNING_VERSION (imageVersion m))

/-- The next step begins; with step 0x07 the start-up tests of the noise source (R232). -/
def stepTo (n : Nat) (s : State) : State := whenB (n == 7) (wr F.ENTROPY_STATUS_STATE 1) (wr F.SELFTEST_RESULT_STEP n s)

/-- The image step with flash or hostless boot: the loader acts on the journal, then boots the primary slot, or the
staging slot where that one fails. A flash that does not meet R427 has the primary slot read only. -/
def flashImage (s : State) : State :=
  let s1 := if layoutOk s then loaderActs s else s
  let p := verifySlot fPRIMARY s1
  if p == 0 then
    let trial := layoutOk s1 && byteAt (journalLast s1) 0 == jTRIAL_BOOTED
    stepTo 0x0B (wr F.IMAGE_RUNNING_TRIAL (b2n trial) (bootImage (slotManifest fPRIMARY s1) false s1))
  else if !layoutOk s1 then failStep 0x0A p 0 s1
  else if verifySlot fSTAGING s1 == 0 then
    stepTo 0x0B (bootImage (slotManifest fSTAGING s1) true (noteFailure p 0 s1))
  else failStep 0x0A 4 0 s1

/-- R45: GO is set while the image step waits: the read begins, or the length fails the step. -/
def hostLoad (s : State) : State :=
  if s.term != .selftest || !s.boot.waitGo || !on F.BOOT_LOAD_CTRL_GO s then s
  else
    let len := rd F.BOOT_LOAD_CTRL_LEN s
    let s1 := setBoot (fun b => { b with waitGo := false }) s
    if len == 0 || decide (1024 < len) then failStep 0x0A 3 0 (wr F.BOOT_LOAD_CTRL_GO 0 s1)
    else emit (.hostRead (rd F.BOOT_LOAD_ADDR_PAGE s1 * 4096) (len * 1024)) s1

/-- Is the image being read from the host. -/
def hostLoading (s : State) : Bool :=
  s.term == .selftest && bootStep s == 0x0A && bootSource s == 1 && !s.boot.waitGo && on F.BOOT_LOAD_CTRL_GO s

/-- R45: a load ends without verification: GO clears and the step waits again. -/
def loadCut (cause : Nat) (s : State) : State :=
  setBoot (fun b => { b with waitGo := true }) (noteFailure 5 cause (wr F.BOOT_LOAD_CTRL_GO 0 s))

/-- IMAGE_LOAD_DONE (R45, R430). -/
def execImageLoadDone (d : DmaBytes) (s : State) : Res :=
  done (if !hostLoading s then s
    else
      match d with
      | .err c => loadCut c.toNat s
      | .ok b =>
        let s1 := wr F.BOOT_LOAD_CTRL_GO 0 s
        let m := slice b 0 384
        let v := verifyImage m (slice b 384 (bodyLen m)) s1
        if v == 0 then stepTo 0x0B (bootImage m false s1) else failStep 0x0A v 0 s1)

/-! ### The steps (R48-R50) -/

/-- Step 0x03 passed: the identity private key is unwrapped into slot 0 (R212, R213). -/
def loadIdentity (s : State) : State :=
  match keyUnwrap wrappingKey wrappedIdentity with
  | some k => putSlot 0 k s
  | none => s

/-- R232: the 1024 samples of the start-up tests, and the 192 and 96 of the instantiation after them, pass. -/
def entropyTested (ws : List Byte) : Bool := samplesPass 1024 (ws.take 1024) && samplesPass 288 (ws.drop 1024)

/-- Step 0x07 passed: the noise source and the DRBG run (R232; what the DRBG gives is a free value,
notes/assumptions/4.md). -/
def entropyStarts (s : State) : State := s |> wr F.ENTROPY_STATUS_STATE 2 |> wr F.DRBG_STATUS_STATE 1

/-- Step 0x09 passed; DETAIL's low byte is the base-2 logarithm of the flash's size in bytes (R427). -/
def flashFound (log2 : Nat) (s : State) : State :=
  s |> wr F.FLASH_INFO_DENSITY_LOG2 log2 |> wr F.FLASH_INFO_LAYOUT_OK (b2n (decide (22 ≤ log2)))

/-- R49: lanes that failed are flagged, and the ports of the local ones held OFF. -/
def lanesFailed (bits : Nat) (s : State) : State :=
  let ports := bits / 4
  s |> wr F.SELFTEST_FLAGS_LANE_FAIL bits |> wr (F.PWR_TARGET_PORT_HELD dLAN) ports
    |> wr (F.PWR_TARGET_PORT_OFF dLAN) ports |> setPwr (fun p => { p with gates := ports })

/-- R50: the front end is held OFF. -/
def afeFailed (s : State) : State :=
  s |> wr F.SELFTEST_FLAGS_AFE_FAIL 1 |> wr (F.PWR_TARGET_TARGET dAFE) 2 |> wr (F.PWR_TARGET_HELD dAFE) 1

/-- The image step begins. -/
def imageStep (s : State) : State :=
  let s1 := stepTo 0x0A s
  if bootSource s == 1 then hostLoad (setBoot (fun b => { b with waitGo := true }) s1) else s1

/-- What step 0x0B's bitmap holds for the lanes tested: lane 1 is not tested on a single-sided terminal. -/
def lanesTested (bits : Nat) (s : State) : Nat := if strap 10 s then bits - bits / 2 % 2 * 2 else bits

/-- A step of self-test ends. -/
def stepDone (r : StepResult) (s : State) : State :=
  let n := bootStep s
  let sub := r.sub.toNat
  let det := r.detail.toNat
  if n == 0x0A then (if bootSource s == 1 then s else flashImage s)
  else if n == 0x0B then
    let bits := lanesTested (det % 256) s
    if r.pass || bits == 0 then stepTo 0x0C s
    else if bits % 4 != 0 then failStep 0x0B sub bits (lanesFailed bits s)
    else stepTo 0x0C (lanesFailed bits (noteFailure sub bits s))
  else if n == 0x0C then
    stepTo 0x0D (if r.pass then s else afeFailed (noteFailure sub det s))
  else if n == 0x0D then
    if r.pass then setBoot (fun b => { b with passed := true }) s else failStep 0x0D sub det s
  else if n == 0x09 then
    if r.pass then
      let s1 := flashFound (det % 256) s
      if bootSource s == 2 then enterHolding 0x0F s1 else imageStep s1
    else if bootSource s == 1 then imageStep (wr F.SELFTEST_FLAGS_FLASH_FAIL 1 (noteFailure sub det s))
    else failStep 0x09 sub det s
  else if !r.pass || (n == 7 && !entropyTested r.samples) then failStep n sub det s
  else stepTo (n + 1) (if n == 3 then loadIdentity s else if n == 7 then entropyStarts s else s)

/-- SELFTEST_STEP_DONE (R48): the running step ends with the outcome the hardware found. -/
def execSelftestStepDone (r : StepResult) (s : State) : Res :=
  done (if s.term != .selftest || s.boot.passed then s else stepDone r s)

/-! ### The PCI Express flash bridge (R54) -/

/-- Is a GO acceptable: HOLDING, A of 0, 3 or 4, and both lengths at most 35. -/
def bridgeOk (s : State) : Bool :=
  let a := rd F.FLASH_BRIDGE_CTRL_A s
  s.term == .holding && (a == 0 || a == 3 || a == 4) && decide (rd F.FLASH_BRIDGE_CTRL_W s ≤ 35) &&
    decide (rd F.FLASH_BRIDGE_CTRL_RLEN s ≤ 35)

/-- The 35 bytes of the bridge's data registers. -/
def bridgeData (s : State) : List Byte := (List.range 7).flatMap (fun m => wordBytes (reg (R.FLASH_BRIDGE_DATA m) s))

/-- GO = 1 written to FLASH_BRIDGE_CTRL, its other fields stored. -/
def bridgeGo (s : State) : State :=
  if on F.FLASH_BRIDGE_CTRL_BUSY s then s
  else if !bridgeOk s then wr F.FLASH_BRIDGE_CTRL_ERR 1 s
  else
    let a := rd F.FLASH_BRIDGE_CTRL_A s
    let addr := rd F.FLASH_BRIDGE_ADDR_ADDR s % 256 ^ a
    let op := rd F.FLASH_BRIDGE_CTRL_OPCODE s
    let data := slice (bridgeData s) 0 (rd F.FLASH_BRIDGE_CTRL_W s)
    let tx := BitVec.ofNat 8 op :: bytesBE a addr ++ List.replicate (rd F.FLASH_BRIDGE_CTRL_DUMMY s) 0 ++ data
    s |> wr F.FLASH_BRIDGE_CTRL_ERR 0 |> wr F.FLASH_BRIDGE_CTRL_BUSY 1
      |> emit (.spi tx (rd F.FLASH_BRIDGE_CTRL_RLEN s)) |> spiEffect op a addr data
      |> setBoot (fun b => { b with bridgeLen := rd F.FLASH_BRIDGE_CTRL_RLEN s })

/-- FLASH_BRIDGE_DONE (R54): the bytes read are placed into the data registers. -/
def execFlashBridgeDone (bytes : List Byte) (s : State) : Res :=
  done (if !on F.FLASH_BRIDGE_CTRL_BUSY s then s
    else
      let n := s.boot.bridgeLen
      let all := slice bytes 0 n ++ (bridgeData s).drop n
      let s1 := eachOf (List.range 7) (fun s m => setReg (R.FLASH_BRIDGE_DATA m) (bytesWord (slice all (5 * m) 5)) s) s
      wr F.FLASH_BRIDGE_CTRL_BUSY 0 s1)

/-! ### The hold report and the status LED (R55-R57) -/

/-- R55: the 8 bytes of the Zwirdo hold report. -/
def holdReport (s : State) : List Byte :=
  BitVec.ofNat 8 (termCode s.term) :: BitVec.ofNat 8 (rd F.SELFTEST_RESULT_HOLD_CODE s) ::
    BitVec.ofNat 8 (bootStep s) :: BitVec.ofNat 8 (rd F.SELFTEST_RESULT_SUBCODE s) ::
    bytesBE 2 (rd F.SELFTEST_RESULT_DETAIL s) ++
    [BitVec.ofNat 8 (rd F.SELFTEST_FLAGS_LANE_FAIL s),
     BitVec.ofNat 8 (b2n (on F.SELFTEST_FLAGS_AFE_FAIL s) + 2 * b2n (on F.SELFTEST_FLAGS_STRAP_WARN s) +
       4 * b2n (on F.SELFTEST_FLAGS_FLASH_FAIL s))]

/-- One hexadecimal digit of the blink code: on or dark, and for how many tenths of a second. -/
def blinkDigit (v : Nat) : List (Bool × Nat) :=
  if v == 0 then [(true, 16), (false, 4)] else (List.replicate v [(true, 4), (false, 4)]).flatten

/-- The pin STATUS_LED: one repetition of its pattern, on or dark and for how many microseconds; an endless state is
given as one second of it. -/
def statusLed (s : State) : List (Bool × Nat) :=
  match s.term with
  | .reset => [(false, 1000000)]
  | .selftest => if s.boot.waitGo then [(true, 500000), (false, 500000)] else [(true, 62500), (false, 62500)]
  | .holding =>
    let c := rd F.SELFTEST_RESULT_HOLD_CODE s
    ((false, 20) :: blinkDigit (c / 16) ++ (false, 6) :: blinkDigit (c % 16)).map (fun p => (p.1, 100000 * p.2))
  | .listening => [(true, 200000), (false, 1800000)]
  | .admitted | .claiming | .ranging => [(true, 125000), (false, 125000)]
  | .running => [(true, 1000000)]
  | .flywheel => [(true, 900000), (false, 100000)]
  | .leaving => [(true, 25000), (false, 225000)]

end Sys2Proof.Machine
end

