-- ==== Sys2Proof/Machine/Ledger.lean ====
section
/-! DEFINITION. Clears of the ledger and the Harvest image (spec/20_lane_tests_counter_ledger.md R461-R467). -/

namespace Sys2Proof.Machine

/-- Zero one group: its counters, its saturation register and its summary bit. -/
def clearGroup (g : Nat) (s : State) : State :=
  let (first, n) := ledgerGroups.getD g (0, 0)
  let s1 := eachOf (List.range n) (fun s j => setReg (counterAddr (first + j)) 0 s) s
  let sm := rd F.LEDGER_SUMMARY_SAT s1
  let s2 := setReg (R.LEDGER_GRP_SAT g) 0 s1
  if nbit sm g then wr F.LEDGER_SUMMARY_SAT (sm - 2 ^ g) s2 else s2

/-- Zero the groups of a bitmap; bits above 15 are ignored. -/
def clearGroups (groups : Nat) (s : State) : State :=
  eachOf ((List.range 16).filter (nbit groups)) (fun s g => clearGroup g s) s

/-- R465: stage a clear. -/
def stageClear (c : ClearReq) (s : State) : State :=
  { s with ledger := { s.ledger with clears := s.ledger.clears ++ [c] } }

/-- R465: commit a write of LEDGER_CLEAR. A write while one is pending replaces it. -/
def ledgerClearWrite (v : Word) (s : State) : State :=
  let groups := fget v 15 0
  if groups = 0 then s
  else
    let s1 := whenB (s.ledger.clears.any ClearReq.fromReg) (count C.STAGE_SUPERSEDED) s
    let s2 := { s1 with ledger := { s1.ledger with clears := s1.ledger.clears.filter (fun c => !c.fromReg) } }
    wr F.LEDGER_CLEAR_PENDING 1
      (stageClear { groups, fromReg := true, onHarvest := nbit v.toNat 16, t := nextTick s2 } s2)

/-- Is a clear to apply now. -/
def clearDue (s : State) (c : ClearReq) : Bool := !c.onHarvest && tickDue c.t s.bt

/-- R465: of the clears of one boundary, oldest first, those that share a group with a later one. -/
def supersededClears : List ClearReq → Nat
  | [] => 0
  | c :: r => (if r.any (fun d => (c.groups &&& d.groups) % 65536 != 0) then 1 else 0) + supersededClears r

/-- LEDGER_CLEAR_APPLY (R465): the clears due at this boundary combine. -/
def execLedgerClearApply (s : State) : Res :=
  let now := s.ledger.clears.filter (clearDue s)
  done (if now.isEmpty then s
    else
      let s1 := { s with ledger := { s.ledger with clears := s.ledger.clears.filter (fun c => !clearDue s c) } }
      let s2 := clearGroups (now.foldl (fun n c => n ||| c.groups) 0) s1
      let s3 := whenB (now.any ClearReq.fromReg) (wr F.LEDGER_CLEAR_PENDING 0) s2
      countN C.STAGE_SUPERSEDED (supersededClears now) s3)

/-- R467: the clears that wait for a Harvest apply at this boundary, after the snapshot. -/
def releaseHarvestClears (s : State) : State :=
  { s with ledger := { s.ledger with
      clears := s.ledger.clears.map (fun c => if c.onHarvest then { c with onHarvest := false, t := s.bt } else c) } }

/-- R466: HARVEST_SEQ advances by one at each snapshot. -/
def harvestStep (s : State) : State :=
  wr F.LEDGER_SUMMARY_HARVEST_SEQ (rd F.LEDGER_SUMMARY_HARVEST_SEQ s + 1) s

/-- R466: the Harvest buffer. -/
def harvestImage (t : Nat) (s : State) : List Byte :=
  bytesLE 2 1 ++ bytesLE 2 312 ++ bytesLE 4 (rd F.LEDGER_SUMMARY_HARVEST_SEQ s) ++ bytesLE 8 (stampOf t).toNat
    ++ bytesLE 8 (reg R.LEDGER_SUMMARY s).toNat ++ List.replicate 104 0
    ++ (List.range 16).flatMap (fun g => bytesLE 8 (reg (R.LEDGER_GRP_SAT g) s).toNat)
    ++ (List.range 312).flatMap (fun i => bytesLE 8 (reg (counterAddr i) s).toNat)
    ++ List.replicate 1344 0

end Sys2Proof.Machine
end

