-- ==== Sys2Proof/Machine/Access.lean ====
section
/-! DEFINITION. The three register access paths: reads as each register reads, the latches, the commit of a write with
its access codes, locks and the effects defining chapters give it (spec/00_scope.md R3-R10, R495;
spec/02_power_up_straps_selftest.md R53; spec/12_host_rings_pcie.md R284-R286). -/

namespace Sys2Proof.Machine

/-! ### Latches -/

/-- A path's latches. -/
def latches (p : Path) (s : State) : PathLatches :=
  match p with
  | .pcie => s.pcie
  | .zwirdo => s.zwirdo
  | .mgmt => s.mgmt

def setLatches (p : Path) (l : PathLatches) (s : State) : State :=
  match p with
  | .pcie => { s with pcie := l }
  | .zwirdo => { s with zwirdo := l }
  | .mgmt => { s with mgmt := l }

/-- R3: load the snapshot latch. -/
def setSnap (p : Path) (off : Nat) (b : Byte) (s : State) : State :=
  setLatches p { latches p s with snap := { tag := some off, val := b } } s

/-- R5: load the holding latch. -/
def setHold (p : Path) (off : Nat) (b : Byte) (s : State) : State :=
  setLatches p { latches p s with hold := { tag := some off, val := b } } s

/-- R6: clear the holding latch and void its tag. -/
def clearHold (p : Path) (s : State) : State := setLatches p { latches p s with hold := {} } s

/-! ### What HOLDING lets through (R53) -/

/-- Blocks 0x0000 and 0x7000 read normally. -/
def holdReadable (off : Nat) : Bool := decide (off < 0x800) || (decide (0x7000 ≤ off) && decide (off < 0x7800))

/-- The registers that take writes. -/
def holdWritable (off : Nat) : Bool :=
  off == R.SOFT_RESET || off == R.BOOT_LOAD_ADDR || off == R.BOOT_LOAD_CTRL ||
    (decide (R.FLASH_BRIDGE_CTRL ≤ off) && decide (off ≤ R.FLASH_BRIDGE_DATA 6)) || off == R.ZWD_CFG || off == R.ZWD_ALERT

/-- Do register accesses work: from SELFTEST onward (R11). -/
def regsAnswer (s : State) : Bool := s.term != .reset

/-- May the register be written now. -/
def mayWriteReg (off : Nat) (s : State) : Bool := regsAnswer s && (s.term != .holding || holdWritable off)

/-! ### Reads -/

/-- TIME_NOW (R15) at a wc and phase of the present building tick. -/
def timeNow (wc phase : Nat) (s : State) : Word :=
  let t : Fld → Nat → Word → Word := fun f v w => fput w f.hi f.lo v
  (0 : Word) |> t F.TIME_NOW_CYCLE_LO (s.bt / 48) |> t F.TIME_NOW_TICK (s.bt % 48) |> t F.TIME_NOW_WC wc
    |> t F.TIME_NOW_PHASE phase

/-- Which of `n` registers of an array an offset is. -/
def indexIn (r : Nat → Nat) (n off : Nat) : Option Nat := (List.range n).find? (fun k => r k == off)

/-- TERM_STATE. -/
def termView (s : State) : Word := BitVec.ofNat 40 (termCode s.term)

/-- ADMIT_FPRINT (spec/03). -/
def fprintView : Word := bytesWord fingerprint

/-- TH_CFG_STATUS. -/
def thCfgView (s : State) : Word := BitVec.ofNat 40 (profileTrunc s)

/-- A register whose value follows the rest of the state. -/
def statusView (off : Nat) (s : State) : Option Word :=
  if off = R.TERM_STATE then some (termView s)
  else if off = R.TIME_NOW then some (timeNow 0 0 s)
  else if off = R.ADMIT_FPRINT then some fprintView
  else if off = R.FRAME_GEN then some (frameGenView s)
  else if off = R.MAP_STATUS then some (mapStatusView s)
  else if off = R.RANGE_E then some (rangeView .east s)
  else if off = R.RANGE_W then some (rangeView .west s)
  else if off = R.NOTE_UP_STATUS then some (noteUpView s)
  else if off = R.WIN_STATUS then some (winStatusView s)
  else if off = R.KEY_STATUS then some (keyStatusView s)
  else if off = R.SIG_STATUS then some (sigStatusView s)
  else if off = R.TH_CFG_STATUS then some (thCfgView s)
  else if off = R.SHOW_STATUS then some (showStatusView s)
  else if off = R.CUE_STATE then some (cueStateView s)
  else if off = R.AFE_STATUS then some (afeStatusView s)
  else if off = R.KTIMER_STATUS then some (ktimerView s)
  else if off = R.PWR_PENDING then some (pwrPending s)
  else if off = R.WAKE_STATUS then some (wakeStatusView s)
  else
    match indexIn R.TH_TABLE_STATUS 4 off, indexIn R.ETH_STATUS 6 off, indexIn R.AX_STATUS 2 off with
    | some n, _, _ => some (tableStatus n s)
    | _, some k, _ => some (ethStatusView k s)
    | _, _, some k => some (axStatusView k s)
    | _, _, _ => none

/-- The live 40 bits of a register; WO fields are never stored, so they read zero. -/
def liveReg (off : Nat) (s : State) : Word := (statusView off s).getD (reg off s)

/-- What a path reads of a register: in HOLDING most blocks read zero. -/
def readable (off : Nat) (s : State) : Bool := s.term != .holding || holdReadable off

def readReg (off : Nat) (s : State) : Word := if readable off s then liveReg off s else 0

/-- R15: a low-half read of TIME_NOW at a given wc and phase; the cycle count is captured. -/
def captureTime (wc phase : Nat) (s : State) : Word × State :=
  (timeNow wc phase s, wr F.TIME_EPOCH_SNAP_CYCLE (s.bt / 48) s)

/-- The value a low-half read takes. Within its tick, the instant of a read of TIME_NOW is a free value. -/
def sampleReg (off : Nat) (s : State) : Word × State :=
  if off = R.TIME_NOW && readable off s then
    let (wc, s1) := fresh 13 s
    let (ph, s2) := fresh 6 s1
    captureTime (wc.toNat % wcPerTick) ph.toNat s2
  else (readReg off s, s)

/-- R3: read a low half; the snapshot latch is loaded. -/
def readLow (p : Path) (off : Nat) (s : State) : Word × State :=
  let (v, s1) := sampleReg off s
  (v, setSnap p off (BitVec.ofNat 8 (fget v 39 32)) s1)

/-- R4: read a high half. -/
def readHigh (p : Path) (off : Nat) (s : State) : Byte :=
  let l := (latches p s).snap
  if l.tag = some off then l.val else BitVec.ofNat 8 (fget (readReg off s) 39 32)

/-- The register that doubleword `d` of BAR0 belongs to. -/
def dwordReg (d : Nat) : Nat := 8 * (d / 2)

/-- R3, R4, R8: a 4-byte read of doubleword `d`. -/
def readDword (p : Path) (d : Nat) (s : State) : Nat × State :=
  let off := dwordReg d
  if !regAssigned off then (0, s)
  else if d % 2 = 0 then
    let (v, s1) := readLow p off s
    (fget v 31 0, s1)
  else ((readHigh p off s).toNat, s)

/-- R7: the doublewords of a read of another size or alignment, in ascending order, as bytes. -/
def readDwords (p : Path) (d : Nat) : (n : Nat) → State → List Byte × State
  | 0, s => ([], s)
  | n + 1, s =>
    let (v, s1) := readDword p d s
    let (r, s2) := readDwords p (d + 1) n s1
    (bytesLE 4 v ++ r, s2)

/-- R7: an 8-byte read is a low-then-high read. -/
def readEight (p : Path) (off : Nat) (s : State) : Nat × State :=
  let (lo, s1) := readDword p (off / 4) s
  let (hi, s2) := readDword p (off / 4 + 1) s1
  (hi * 2 ^ 32 + lo, s2)

/-! ### The commit of a write (R6, R9, R10, R286) -/

/-- R9: a write to a locked field is counted and reported. -/
def lockedWrite (off : Nat) (s : State) : State := raise E.REG_LOCKED off (count C.REG_LOCKED_WRITE s)

/-- The bits of a row that a write may reach now: RWS fields until RUN, fields of an Engine-locked row while the ring
engine is STOPPED. -/
def openBits (r : RegRow) (s : State) : Word :=
  let rws := if on F.RUN_CTRL_RUN s then 0 else r.rws
  let rw := if r.engine && hreState s != hreSTOPPED then 0 else r.rw
  rw ||| rws ||| r.w1c ||| r.wo

/-- Does the write find locked fields. -/
def findsLock (r : RegRow) (s : State) : Bool :=
  (r.rws != 0 && on F.RUN_CTRL_RUN s) || (r.engine && hreState s != hreSTOPPED)

/-- R9: the value after a write of `v` to the bits `m`: RW and RWS take it, W1C clear on ones, WO and RO keep. -/
def mergeReg (r : RegRow) (m old v : Word) : Word :=
  let set := m &&& (r.rw ||| r.rws)
  ((old &&& ~~~set) ||| (v &&& set)) &&& ~~~(v &&& m &&& r.w1c)

/-- BOOT_LOAD_CTRL (R45): LEN is stored, writing 1 sets GO, and a waiting image step starts its read. -/
def bootLoadWrite (v : Word) (s : State) : State :=
  let s1 := wr F.BOOT_LOAD_CTRL_LEN (fget v 11 1) s
  if fget v 0 0 == 1 then hostLoad (wr F.BOOT_LOAD_CTRL_GO 1 s1) else s1

/-- FLASH_BRIDGE_CTRL (R54): the fields are stored, then GO acts. -/
def bridgeWrite (new v : Word) (s : State) : State :=
  let s1 := setReg R.FLASH_BRIDGE_CTRL new s
  if fget v 0 0 == 1 then bridgeGo s1 else s1

/-- INT_CFG (R303): clearing INTX_PEND deasserts INTA. -/
def intCfgWrite (new : Word) (s : State) : State :=
  let s1 := setReg R.INT_CFG new s
  if on F.INT_CFG_INTX_PEND s && !on F.INT_CFG_INTX_PEND s1 then emit (.intx false) s1 else s1

/-- RUN_CTRL (R284). -/
def runWrite (v : Word) (s : State) : State :=
  if fget v 0 0 == 1 && fromListening s then wr F.RUN_CTRL_RUN 1 s else s

/-- SOFT_RESET (R38). -/
def softResetWrite (v : Word) (s : State) : State :=
  if fget v 15 0 == 0x5AFE && softServed s then softRequest F.RESET_CAUSE_SOFT_REG s else s

/-- The write of member `i` of an array of registers, if the offset is one, else `rest`. -/
def orHook (i : Option Nat) (f : Nat → State → State) (rest : Option (State → State)) : Option (State → State) :=
  match i with
  | some n => some (f n)
  | none => rest

/-- GRAN_BANK_CFG (R259): the bank map waits for the tick boundary. -/
def bankWrite (new : Word) (s : State) : State :=
  boundaryWrite R.GRAN_BANK_CFG { s with q := { s.q with bankNext := some new } }

/-- Registers of arrays whose write does what their chapter says in place of, or beside, storing the value. -/
def arrayHook (off : Nat) (v new : Word) : Option (State → State) :=
  orHook (indexIn R.LANE_EQ 8 off) (fun n => laneEqWrite n new) <|
  orHook (indexIn R.LANE_TX 8 off) (fun _ s => setReg off new (boundaryWrite off s)) <|
  orHook (indexIn R.LANE_PRBS_CFG 8 off) (fun n => prbsCfgWrite n new) <|
  orHook (indexIn R.LANE_LOOP 8 off) (fun n => laneLoopWrite n new) <|
  orHook (indexIn R.LANE_INJECT 8 off) (fun n => injectWrite n new) <|
  orHook (indexIn R.AX_CFG 2 off) (fun k => axCfgWrite k new) <|
  orHook (indexIn R.AX_POS_CMD 2 off) (fun k => posCommit k false new) <|
  orHook (indexIn R.AX_POS_ENC 2 off) (fun k => posCommit k true new) <|
  orHook (indexIn R.AFE_CAL 13 off) (fun g => calRegWrite g new) <|
  orHook (indexIn R.PWR_TARGET 24 off) (fun k => pwrTargetWrite k v) <|
  orHook (indexIn R.ETH_CFG 6 off) (fun k s => ethCfgChanged k (reg off s) (setReg off new s)) none

/-- Registers whose write does what their chapter says in place of, or beside, storing the value: `v` as written, `new`
as the access codes merge it. -/
def writeHook (p : Path) (off : Nat) (v new : Word) : Option (State → State) :=
  if off = R.SOFT_RESET then some (softResetWrite v)
  else if off = R.BOOT_LOAD_CTRL then some (bootLoadWrite v)
  else if off = R.FLASH_BRIDGE_CTRL then some (bridgeWrite new v)
  else if off = R.RUN_CTRL then some (runWrite v)
  else if off = R.HRE_CTRL then some (hreCtrlWrite p v)
  else if off = R.INT_CFG then some (intCfgWrite new)
  else if off = R.QM_IND_SEL then some (indSelect v)
  else if off = R.GRAN_STATUS then some (lowReload v)
  else if off = R.GRAN_BANK_CFG then some (bankWrite new)
  else if off = R.TH_PUNT_LEARN || off = R.TH_PUNT_FAULT then some (fun s => setReg off new (boundaryWrite off s))
  else if off = R.LEDGER_CLEAR then some (ledgerClearWrite v)
  else if off = R.AFE_CAL_CTRL then some (calCtrlWrite v)
  else if off = R.KTIMER_CFG then some (ktimerWrite v)
  else if off = R.KA_WATCHDOG then some (kaWatchdogWrite p v)
  else arrayHook off v new

/-- Do what a register's own write does, or else `store`. -/
def hooked (o : Option (State → State)) (store : State → State) (s : State) : State :=
  match o with
  | some f => f s
  | none => store s

/-- Write the bits `m` of a row. -/
def storeBits (p : Path) (r : RegRow) (off : Nat) (m v : Word) (s : State) : State :=
  if m = 0 then s
  else
    let new := mergeReg r m (reg off s) v
    hooked (writeHook p off (v &&& m) new) (setReg off new) s

/-- R6, R9: commit 40 bits to a register. -/
def commitReg (p : Path) (off : Nat) (v : Word) (s : State) : State :=
  match regRow off with
  | none => s
  | some r =>
    if !mayWriteReg off s then s
    else storeBits p r off (openBits r s) v (whenB (findsLock r s) (lockedWrite off) s)

/-- R5: write a high half. -/
def writeHigh (p : Path) (off : Nat) (b : Byte) (s : State) : State :=
  if regAssigned off && mayWriteReg off s then setHold p off b s else s

/-- R6: write a low half. -/
def writeLow (p : Path) (off : Nat) (v : Nat) (s : State) : State :=
  if regAssigned off && mayWriteReg off s then
    let l := (latches p s).hold
    let hi := if l.tag = some off then l.val.toNat else 0
    clearHold p (commitReg p off (BitVec.ofNat 40 (hi * 2 ^ 32 + v)) s)
  else s

/-- R6, R7: commit a whole register: its high half is written, then its low half. -/
def write8 (p : Path) (off : Nat) (v : Word) (s : State) : State :=
  writeLow p off (fget v 31 0) (writeHigh p off (BitVec.ofNat 8 (fget v 39 32)) s)

/-! ### The rows -/

/-- LOW_HALF_READ (R3, R8). -/
def execLowHalfRead (p : Path) (r : BitVec 13) (s : State) : Res :=
  done (if !regsAnswer s then s
    else
      let (v, s1) := readDword p (2 * r.toNat) s
      emit (.regData p (BitVec.ofNat 64 v)) s1)

/-- HIGH_HALF_READ (R4, R8). -/
def execHighHalfRead (p : Path) (r : BitVec 13) (s : State) : Res :=
  done (if !regsAnswer s then s
    else
      let (v, s1) := readDword p (2 * r.toNat + 1) s
      emit (.regData p (BitVec.ofNat 64 v)) s1)

/-- HIGH_HALF_WRITE (R5, R8). -/
def execHighHalfWrite (p : Path) (r : BitVec 13) (v : BitVec 32) (s : State) : Res :=
  done (writeHigh p (8 * r.toNat) (BitVec.ofNat 8 v.toNat) s)

/-- LOW_HALF_WRITE (R6, R8, R10). -/
def execLowHalfWrite (p : Path) (r : BitVec 13) (v : BitVec 32) (s : State) : Res :=
  done (writeLow p (8 * r.toNat) v.toNat s)

/-- EIGHT_BYTE_ACCESS (R7). -/
def execEightByteAccess (p : Path) (r : BitVec 13) (w : Option (BitVec 64)) (s : State) : Res :=
  done (if !regsAnswer s then s
    else
      match w with
      | none =>
        let (v, s1) := readEight p (8 * r.toNat) s
        emit (.regData p (BitVec.ofNat 64 v)) s1
      | some v => write8 p (8 * r.toNat) (BitVec.ofNat 40 v.toNat) s)

/-- R7: is an access of another size or alignment than aligned 4 or 8 bytes. -/
def oddAccess (off size : Nat) : Bool := !((size == 4 && off % 4 == 0) || (size == 8 && off % 8 == 0))

/-- BAD_SIZE_WRITE (R7). -/
def execBadSizeWrite (_p : Path) (off : BitVec 16) (size : BitVec 13) (s : State) : Res :=
  done (if oddAccess off.toNat size.toNat then count C.REG_ACCESS_BAD s else s)

/-- PARTIAL_READ (R7): the addressed bytes of each doubleword touched. -/
def execPartialRead (p : Path) (off : BitVec 16) (size : BitVec 13) (s : State) : Res :=
  let o := off.toNat
  let n := size.toNat
  done (if !regsAnswer s || n == 0 then s
    else
      let (b, s1) := readDwords p (o / 4) ((o + n - 1) / 4 + 1 - o / 4) s
      emit (.regBytes p ((b.drop (o % 4)).take n)) s1)

/-- UNASSIGNED_ACCESS (R8): of 4 bytes at a doubleword, or of 8 at an even one. -/
def execUnassignedAccess (p : Path) (dw : BitVec 14) (eight : Bool) (w : Option (BitVec 64)) (s : State) : Res :=
  done (if !regsAnswer s || regAssigned (dwordReg dw.toNat) || (eight && dw.toNat % 2 == 1) then s
    else
      match w with
      | none => emit (.regData p 0) s
      | some _ => s)

/-- TIME_NOW_READ (R15): a low-half read of TIME_NOW at wc `wc` and phase `phase` of the present building tick. -/
def execTimeNowRead (p : Path) (wc : BitVec 13) (phase : BitVec 6) (s : State) : Res :=
  done (if !regsAnswer s then s
    else if !readable R.TIME_NOW s then emit (.regData p 0) (setSnap p R.TIME_NOW 0 s)
    else
      let (v, s1) := captureTime (wc.toNat % wcPerTick) phase.toNat s
      emit (.regData p (BitVec.ofNat 64 (fget v 31 0))) (setSnap p R.TIME_NOW (BitVec.ofNat 8 (fget v 39 32)) s1))

/-- BOOT_LOAD_GO (R45): BOOT_LOAD_CTRL is written with GO = 1. -/
def execBootLoadGo (p : Path) (v : Word) (s : State) : Res := done (write8 p R.BOOT_LOAD_CTRL (v ||| 1) s)

/-- FLASH_BRIDGE_GO (R54): FLASH_BRIDGE_CTRL is written with GO = 1. -/
def execFlashBridgeGo (p : Path) (v : Word) (s : State) : Res := done (write8 p R.FLASH_BRIDGE_CTRL (v ||| 1) s)

/-- SOFT_RESET (R38): the register is written. -/
def execSoftReset (p : Path) (v : Word) (s : State) : Res := done (write8 p R.SOFT_RESET v s)

/-- KA_WATCHDOG (R66): the register is written. -/
def execKaWatchdog (p : Path) (v : Word) (s : State) : Res := done (write8 p R.KA_WATCHDOG v s)

/-- QM_IND_WRITE (R266): QM_IND_SEL is written with GO = 1 and WRITE = 1. -/
def execQmIndWrite (p : Path) (v : Word) (s : State) : Res :=
  done (write8 p R.QM_IND_SEL (fput (fput v 39 39 1) 27 27 1) s)

/-- QM_IND_READ (R266): QM_IND_SEL is written with GO = 1 and WRITE = 0. -/
def execQmIndRead (p : Path) (v : Word) (s : State) : Res :=
  done (write8 p R.QM_IND_SEL (fput (fput v 39 39 1) 27 27 0) s)

/-- LOW_RELOAD (R258): GRAN_STATUS is written with LOW_RELOAD = 1. -/
def execLowReload (p : Path) (v : Word) (s : State) : Res := done (write8 p R.GRAN_STATUS (v ||| 0x80) s)

/-- RUN (R284): RUN_CTRL is written with RUN = 1. -/
def execRun (p : Path) (v : Word) (s : State) : Res := done (write8 p R.RUN_CTRL (v ||| 1) s)

/-- HRE_START (R287): HRE_CTRL is written with START = 1. -/
def execHreStart (p : Path) (v : Word) (s : State) : Res := done (write8 p R.HRE_CTRL (v ||| 1) s)

/-- HRE_STOP (R288): HRE_CTRL is written with START = 0. -/
def execHreStop (p : Path) (v : Word) (s : State) : Res := done (write8 p R.HRE_CTRL (fput v 0 0 0) s)

/-- INTX_PEND (R303): INT_CFG is written with INTX_PEND = 1. -/
def execIntxPend (p : Path) (v : Word) (s : State) : Res := done (write8 p R.INT_CFG (v ||| 0x100000) s)

/-- POS_WRITE (R359): AXk_POS_CMD or AXk_POS_ENC is written. -/
def execPosWrite (p : Path) (ax : Fin 2) (enc : Bool) (v : Word) (s : State) : Res :=
  done (write8 p (if enc then R.AX_POS_ENC ax.val else R.AX_POS_CMD ax.val) v s)

/-- AFE_CAL_START (R393): AFE_CAL_CTRL is written with START = 1. -/
def execAfeCalStart (p : Path) (v : Word) (s : State) : Res := done (write8 p R.AFE_CAL_CTRL (v ||| 0x10000) s)

/-- PWR_TARGET (R404): PWR_TARGET_x is written. -/
def execPwrTarget (p : Path) (k : Fin 24) (v : Word) (s : State) : Res := done (write8 p (R.PWR_TARGET k.val) v s)

/-- KTIMER_CFG (R414): the register is written. -/
def execKtimerCfg (p : Path) (v : Word) (s : State) : Res := done (write8 p R.KTIMER_CFG v s)

/-- LANE_PRBS_CFG (R457): the register is written. -/
def execLanePrbsCfg (p : Path) (lane : Fin 8) (v : Word) (s : State) : Res :=
  done (write8 p (R.LANE_PRBS_CFG lane.val) v s)

/-- LANE_LOOP (R456): the register is written. -/
def execLaneLoop (p : Path) (lane : Fin 8) (v : Word) (s : State) : Res := done (write8 p (R.LANE_LOOP lane.val) v s)

/-- INJECT_SINGLE (R455): LANEn_INJECT is written with MODE 1. -/
def execInjectSingle (p : Path) (lane : Fin 8) (v : Word) (s : State) : Res :=
  done (write8 p (R.LANE_INJECT lane.val) (fput v 7 6 1) s)

/-- INJECT_BURST (R455): LANEn_INJECT is written with MODE 2. -/
def execInjectBurst (p : Path) (lane : Fin 8) (v : Word) (s : State) : Res :=
  done (write8 p (R.LANE_INJECT lane.val) (fput v 7 6 2) s)

/-- INJECT_CONTINUOUS (R455): LANEn_INJECT is written with MODE 3. -/
def execInjectContinuous (p : Path) (lane : Fin 8) (v : Word) (s : State) : Res :=
  done (write8 p (R.LANE_INJECT lane.val) (fput v 7 6 3) s)

/-- INJECT_STOP (R455): LANEn_INJECT is written with MODE 0. -/
def execInjectStop (p : Path) (lane : Fin 8) (v : Word) (s : State) : Res :=
  done (write8 p (R.LANE_INJECT lane.val) (fput v 7 6 0) s)

/-- LEDGER_CLEAR (R465): the register is written. -/
def execLedgerClear (p : Path) (v : Word) (s : State) : Res := done (write8 p R.LEDGER_CLEAR v s)

end Sys2Proof.Machine
end

