-- ==== Sys2Proof/Machine/Settings.lean ====
section
/-! DEFINITION. Applying a settings record, wherever it comes from (spec/19_gleaning_firmware_settings.md R446-R450;
spec/07 R187). -/

namespace Sys2Proof.Machine

/-- How a settings request ends. -/
inductive SetEnd where
  | ok | badValue | refused | full
deriving DecidableEq, Repr

/-- Is a key a REG_PRESET. -/
def isPreset (key : Nat) : Bool := decide (0x2000 ≤ key) && decide (key ≤ 0x3FFF)

/-- R446: the register a REG_PRESET names. -/
def presetOff (key : Nat) : Nat := 8 * (key - 0x2000)

/-- R447: blocks no REG_PRESET may name. -/
def presetBad (key : Nat) : Bool :=
  let b := presetOff key / 0x800
  isPreset key && (b == 0 || b == 0x6000 / 0x800 || b == 0x7800 / 0x800)

/-- R447, R9, R286: apply a REG_PRESET: its RW fields at once, its RWS fields at once before RUN and at the next tick
boundary after it. -/
def presetWrite (off : Nat) (v : Word) (s : State) : State :=
  match regRow off with
  | none => s
  | some r =>
    let w := v &&& (r.rw ||| r.rws)
    if on F.RUN_CTRL_RUN s && r.rws != 0 then
      stage { t := nextTick s, op := .regWrite off w } (storeBits .mgmt r off (openBits r s &&& r.rw) w s)
    else commitReg .mgmt off w s

/-- What a record does when it is applied. -/
def settingApplied (key : Nat) (val : List Byte) (s : State) : State :=
  if key == 1 then houseChanged val s
  else if isPreset key && !val.isEmpty then presetWrite (presetOff key) (bytesWord val) s
  else s

/-- R446, R447: is a record answered BAD_VALUE. -/
def settingBad (key : Nat) (val : List Byte) : Bool :=
  !keyKnown key || (!val.isEmpty && !vlenOk key val.length) || presetBad key

/-- Remember or forget a record applied since the reset and not stored. -/
def setLive (key : Nat) (val : Option (List Byte)) (s : State) : State :=
  setGlean (fun g => { g with live := match val with
                                      | some v => lput [] key v g.live
                                      | none => SMap.del g.live key }) s

/-- R446, R449: apply a record, and store it where PERSIST asks for it; an empty value deletes the key. -/
def setRecord (key : Nat) (persist : Bool) (val : List Byte) (s : State) : SetEnd × State :=
  if settingBad key val then (.badValue, s)
  else if val.isEmpty then
    let s1 := setLive key none s
    if layoutOk s && (settingGet key s).isSome then
      let (ok, s2) := settingStore key [] s1
      if ok then (.ok, settingApplied key [] s2) else (.full, s2)
    else (.ok, settingApplied key [] s1)
  else if persist then
    if !layoutOk s then (.refused, s)
    else
      let (ok, s1) := settingStore key val s
      if ok then (.ok, settingApplied key val (setLive key none s1)) else (.full, s1)
  else (.ok, settingApplied key val (setLive key (some val) s))

/-- Would applying a record program the flash. -/
def recordStored (key : Nat) (persist : Bool) (val : List Byte) (s : State) : Bool :=
  layoutOk s && !settingBad key val && (if val.isEmpty then (settingGet key s).isSome else persist)

/-- The flash address at which a new entry of `n` bytes is programmed: the end of the current bank, or the other bank
where the entry brings a compaction (R449). -/
def storeSpot (n : Nat) (s : State) : Nat :=
  match currentBank s with
  | some b =>
    let sc := scanBank b 1640 16 s
    if !sc.2.1 && decide (sc.2.2 + n ≤ 16384) then b + sc.2.2 else if b == fBANKA then fBANKB else fBANKA
  | none => fBANKA

/-- R428: a record whose programming fails a second read-back: the fault is counted and reported and nothing is applied;
the spec states no status for the request, so none is given. -/
def setRecordOr (fault : Bool) (key : Nat) (persist : Bool) (val : List Byte) (s : State) : Option SetEnd × State :=
  if fault && recordStored key persist val s then (none, flashFault (storeSpot (10 + val.length) s) s)
  else
    let (r, s1) := setRecord key persist val s
    (some r, s1)

/-- The command status of a settings request (R446); where the spec states none, a free value of `w` bits. -/
def setEndStatus (w : Nat) (r : Option SetEnd) (s : State) : Nat × State :=
  match r with
  | some .ok => (cDONE, s)
  | some .badValue => (cBAD_VALUE, s)
  | some .refused => (cREFUSED, s)
  | some .full => (cFULL, s)
  | none =>
    let (x, s1) := fresh w s
    (x.toNat, s1)

/-- The key in the first two bytes of a record, where there are two. -/
def keyIn (b : List Byte) : Option Nat := if b.length < 2 then none else some (beNat (slice b 0 2))

/-- A record as the host and the mailbox carry it: KEY, FLAGS, VLEN and the value. -/
structure Rec where
  key : Nat
  persist : Bool
  val : List Byte
  deriving DecidableEq, Repr

/-- Read a record from bytes; `none` where VLEN exceeds what is there. -/
def recordOf (b : List Byte) : Option Rec :=
  let n := beNat (slice b 3 2)
  if b.length < 5 + n then none
  else some { key := beNat (slice b 0 2), persist := nbit (byteAt b 2) 0, val := slice b 5 n }

/-- A stored record as it is returned: its flags carry PERSIST where it is stored. -/
def recordBytes (key : Nat) (persist : Bool) (val : List Byte) : List Byte :=
  bytesBE 2 key ++ BitVec.ofNat 8 (b2n persist) :: bytesBE 2 val.length ++ val

/-- R446: the stored record returned for a key; one of VLEN 0 where none is stored. -/
def readRecord (key : Nat) (s : State) : List Byte :=
  match (if layoutOk s then settingGet key s else none) with
  | some v => recordBytes key true v
  | none => recordBytes key false []

/-- R447: the stored REG_PRESETs are applied in ascending key order. -/
def applyPresets (s : State) : State :=
  eachOf ((settingKeys s).filter isPreset) (fun s k =>
    match settingGet k s with
    | some v => if presetBad k then s else presetWrite (presetOff k) (bytesWord v) s
    | none => s) s

/-- The firmware takes its settings from the store when it starts (R60, R213, R447, R448). -/
def loadSettings (s : State) : State :=
  if layoutOk s then applyPresets (houseChanged ((settingGet 1 s).getD []) (settingsRefresh (settingsCheck s))) else s

end Sys2Proof.Machine
end

