-- ==== Sys2Proof/Machine/Boot.lean ====
section
/-! DEFINITION. The resets, the first entry to LISTENING, RUN set by the firmware, power transitions, host resets
and tick overruns
(spec/02_power_up_straps_selftest.md R34-R39, R60; spec/12_host_rings_pcie.md R285, R305; spec/17 R403-R408; spec/01 R23-R24). -/

namespace Sys2Proof.Machine

/-! ### Resets -/

/-- POWER_ON_RESET (R39). -/
def execPowerOnReset (s : State) : Res := done (takeReset .powerOn s)

/-- PIN_RESET (R34, R37, R378): a low pulse on RESET_N that resets. -/
def execPinReset (s : State) : Res := done (takeReset .pin s)

/-- BROWN_OUT_RESET (R37, R473). -/
def execBrownOutReset (s : State) : Res := done (takeReset .brownOut s)

/-- SOFT_RESET_PROCEED (R38, R378): once both axes are DISABLED or HELD. -/
def execSoftResetProceed (s : State) : Res :=
  done (if s.boot.softPending && axIdle 0 s && axIdle 1 s then beginSelftest (takeReset .soft s) else s)

/-! ### LISTENING and RUN -/

/-- The terminal stands in LISTENING for the first time since its reset. -/
def firstListening (s : State) : State :=
  setBoot (fun b => { b with listened := some 0, warnDue := reg R.SELFTEST_FLAGS s != 0 }) (changeTerm .listening s)

/-- ENTER_LISTENING (R60, R62): the last step has passed, and the firmware runs. -/
def execEnterListening (s : State) : Res :=
  done (if s.term == .selftest && s.boot.passed then gleanStart (loadSettings (refreshHost (firstListening s))) else s)

/-- R285: has the firmware to set RUN itself: with flash boot 2,000 cycles after LISTENING, with hostless boot at once. -/
def firmwareRunDue (s : State) : Bool :=
  fromListening s && domOn dMGT s && !on F.RUN_CTRL_RUN s &&
    (bootSource s == 3 || (bootSource s == 0 && s.boot.listened.any (fun n => decide (2000 * 48 ≤ n))))

/-- FIRMWARE_RUN (R285). -/
def execFirmwareRun (s : State) : Res := done (if firmwareRunDue s then wr F.RUN_CTRL_RUN 1 s else s)

/-! ### Power transitions (R405-R408) -/

/-- R403, R410: the firmware loaded again after MGT was OFF takes up the settings store and the collection. -/
def firmwareBack (s : State) : State :=
  if s.pwr.reload && domOn dMGT s then
    let s1 := setPwr (fun p => { p with reload := false }) s
    gleanStart (if layoutOk s1 then settingsRefresh (settingsCheck s1) else s1)
  else s

/-- POWER_TRANSITION (R405, R406), from LISTENING on: the earliest request whose tick has come is checked and applied, or refused whole. -/
def execPowerTransition (s : State) : Res :=
  done (match s.pwr.reqs, s.pwr.run with
    | r :: rest, none =>
      if s.pwr.resting || !fromListening s || !tickDue r.t s.bt then s
      else
        let s1 := setPwr (fun p => { p with reqs := rest }) s
        let bits := refusedSet (resultingSet r.order s1) s1
        if bits != 0 then pwrAnswer r cREFUSED 1 0 (powerRefused bits s1)
        else
          let tgt := domains.map (resultingSet r.order s1)
          let s2 := eachOf domains (fun s k => wr (F.PWR_TARGET_TARGET k) (tgt.getD k 0) s) s1
          if domains.all (fun k => domState k s2 == tgt.getD k 0) then firmwareBack (pwrFinish r tgt s2) else beginTransition r tgt s2
    | _, _ => s)

/-- PWR_DONE (R405, R407, R411): not before the ring engine has stopped. -/
def execPwrDone (s : State) : Res :=
  done (match s.pwr.run with
    | none => s
    | some (r, tgt) => if s.host.stopping then s else firmwareBack (pwrFinish r tgt s))

/-- DEFAULT_TARGETS (R408): at the next tick boundary after self-test. -/
def execDefaultTargets (s : State) : Res :=
  done (if s.term != .listening || s.boot.targetsDone || s.pwr.run.isSome ||
        !(s.boot.listened.any (fun n => decide (0 < n))) then s
    else
      beginTransition { t := s.bt } (domains.map (targetOf s)) { s with boot := { s.boot with targetsDone := true } })

/-! ### Host resets -/

/-- R254: every entry of every table goes; a committed batch keeps its tick (R305). -/
def clearTables (s : State) : State := { s with th := { s.th with tables := [[], [], [], []] } }

/-- HOST_RESET (R305, R45, R254): 0 FLR, 1 hot reset, 2 link down, 3 PERST_N. It cuts an image load. -/
def execHostReset (kind : Fin 4) (s : State) : Res :=
  done (if s.term == .reset then s
    else
      let s1 := whenB (kind.val == 0) clearTables (hostResetOp kind.val s)
      if hostLoading s then loadCut 5 s1 else s1)

/-! ### Tick overrun -/

/-- R22, R231: a cipher job has not ended by the end of the line tick after its frame's. -/
def cipherOverrun (s : State) : Bool := s.key.jobs.any (fun j => !j.done && decide (2 ≤ tickDiff s.line j.tag))

/-- TICK_OVERRUN (R23, R24, R231): engine codes as in TICK_OVERRUN_STATUS. The event is raised once per engine and line
cycle (notes/assumptions/79.md). -/
def execTickOverrun (eng : Fin 9) (s : State) : Res :=
  let e := eng.val
  let bit : Fld := ⟨R.TICK_OVERRUN_STATUS, e, e⟩
  done (if !fromListening s || (e == 3 && !cipherOverrun s) then s
    else
      let s1 := wr bit 1 (count (C.TICK_OVERRUN_FRM + e) s)
      let s2 := if nbit s.byp.overruns e then s1
        else setByp (fun b => { b with overruns := b.overruns + 2 ^ e }) (raise E.TICK_OVERRUN e s1)
      if e == 0 then setByp (fun b => { b with frmOverrun := true }) s2 else s2)

end Sys2Proof.Machine
end

