-- ==== Sys2Proof/Machine/Commands.lean ====
section
/-! DEFINITION. The commands of the host's command ring (spec/12_host_rings_pcie.md R298-R301; spec/10 R251-R254;
spec/19 R439, R443, R445, R446; spec/20 R465-R467). A buffer that a command reads comes as an operand. -/

namespace Sys2Proof.Machine

/-! ### Operands -/

/-- A command that ends at once. -/
def ends (st sub res : Nat) (s : State) : CmdEnd × State := (.ends st sub res, s)

/-- The tick a stamp operand names: at least the next building tick, which a zero stamp means (R300). -/
def cmdTick (t : Word) (f : Nat → State → CmdEnd × State) (s : State) : CmdEnd × State :=
  if t = 0 then f (nextTick s) s
  else if !stampOk t then ends cBAD_VALUE 0 0 s
  else
    let at_ := stampTick s.bt t
    if tickDiff at_ (nextTick s) < 0 then ends cLATE 0 0 s else f at_ s

/-- R304: a command whose buffer failed completes with DMA_ERR and is counted; the command ring is not stopped. -/
def cmdDmaErr (s : State) : CmdEnd × State := ends cDMA_ERR 0 0 (count C.HOST_DMA_ERR s)

/-- The stamp of a tick, as RESULT carries it. -/
def resTick (t : Nat) : Nat := (stampOf t).toNat

/-- A command that a domain's engine or the firmware in MGT executes is refused while that domain is not ON. -/
def needsOn (k : Nat) (f : State → CmdEnd × State) (s : State) : CmdEnd × State :=
  if domOn k s then f s else ends cREFUSED 0 0 s

/-! ### TH_UPDATE (R251-R253) -/

/-- R251: is OP reserved. -/
def opReserved (u : List Word) : Bool :=
  let op := fget (u.getD 0 0) 39 36
  op == 0 || decide (3 < op)

def uBAD_OP : Nat := 5

/-- The command status that goes with an update result. -/
def updStatus (r : Nat) : Nat :=
  if r == uFULL then cFULL else if r == uBAD_OP then cBAD_VALUE else if r == uBUSY then cREFUSED
  else if r == uLATE then cLATE else cDONE

/-- An update's result as the command answers it. -/
def updEnds (r : Nat × State) (res : Nat) : CmdEnd × State := ends (updStatus r.1) r.1 res r.2

/-- What TH_UPDATE does with a SET. -/
def updSetCmd (u : List Word) (s : State) : CmdEnd × State :=
  if opReserved u then ends cBAD_VALUE uBAD_OP 0 s else updEnds (updSet u s) 0

/-- What TH_UPDATE does with a DELETE. -/
def updDeleteCmd (u : List Word) (s : State) : CmdEnd × State :=
  if opReserved u then ends cBAD_VALUE uBAD_OP 0 s else updEnds (updDelete u s) 0

/-- What TH_UPDATE does with a COMMIT; a zero stamp means the next tick. -/
def updCommitCmd (u : List Word) (s : State) : CmdEnd × State :=
  let w := u.getD 1 0
  if opReserved u || !stampOk w then ends cBAD_VALUE uBAD_OP 0 s
  else
    let t := if w = 0 then nextTick s else stampTick s.bt w
    let r := updCommit t s
    updEnds r (if r.1 == uCOMMITTED then resTick t else 0)

/-- TH_UPDATE_SET (R252, R300). -/
def execThUpdateSet (h : CmdHdr) (u : List Word) (s : State) : Res := done (runCmd h true (needsOn dTHR (updSetCmd u)) s)

/-- TH_UPDATE_DELETE (R252, R300). -/
def execThUpdateDelete (h : CmdHdr) (u : List Word) (s : State) : Res :=
  done (runCmd h true (needsOn dTHR (updDeleteCmd u)) s)

/-- TH_UPDATE_COMMIT (R253, R300). -/
def execThUpdateCommit (h : CmdHdr) (u : List Word) (s : State) : Res :=
  done (runCmd h true (needsOn dTHR (updCommitCmd u)) s)

/-! ### NOP, WAIT, HARVEST, CLEAR_LEDGER -/

/-- NOP (R300). -/
def execNop (h : CmdHdr) (s : State) : Res := done (runCmd h true (ends cDONE 0 0) s)

/-- WAIT (R300, R405): it completes when its transition has ended or is refused. -/
def execWait (h : CmdHdr) (t : Word) (s : State) : Res :=
  done (runCmd h true (cmdTick t (fun at_ s => (.waits, powerRequest { t := at_, cmd := some h } s))) s)

/-- HARVEST (R300, R466): the snapshot falls at the next tick boundary. -/
def execHarvest (h : CmdHdr) (addr : BitVec 64) (s : State) : Res :=
  done (runCmd h false (fun s =>
    if addr.toNat % 4096 != 0 then ends cBAD_VALUE 0 0 s
    else (.waits, setHost (fun x => { x with harvest := some (h, addr.toNat, nextTick s) }) s)) s)

/-- R306, R467: does a waiting Harvest still hold the ring, so that its buffer is written. -/
def harvestHolds (h : CmdHdr) (s : State) : Bool := s.host.wait == some h && hreState s == hreRUNNING

/-- How a Harvest ends: `fault` tells that a write of its buffer failed (R304). -/
def endHarvest (h : CmdHdr) (t : Nat) (fault : Bool) (s : State) : State :=
  if fault && harvestHolds h s then finishWait h false cDMA_ERR 0 0 (count C.HOST_DMA_ERR s)
  else finishWait h false cDONE 0 (resTick t) s

/-- HARVEST_SNAPSHOT (R466, R467, R304): the copy is taken, HARVEST_SEQ advances, the clears tied to it are released, and
the buffer and then the completion are written. -/
def execHarvestSnapshot (fault : Bool) (s : State) : Res :=
  done (match s.host.harvest with
    | none => s
    | some (h, addr, t) =>
      if !tickDue t s.bt then s
      else
        let s1 := harvestStep (setHost (fun x => { x with harvest := none }) s)
        let s2 := whenB (harvestHolds h s1) (dmaWrite addr (harvestImage t s1)) s1
        endHarvest h t fault (releaseHarvestClears s2))

/-- CLEAR_LEDGER (R300, R465). -/
def execClearLedger (h : CmdHdr) (groups : BitVec 32) (s : State) : Res :=
  done (runCmd h true (fun s =>
    let t := nextTick s
    ends cDONE 0 (resTick t) (stageClear { groups := groups.toNat % 65536, fromReg := false, onHarvest := false, t } s)) s)

/-! ### QM_WRITE, STAGED_WRITE -/

/-- QM_WRITE (R300, R266): OBJ 0, 2 or 3; what R266 refuses is answered BAD_VALUE. -/
def execQmWrite (h : CmdHdr) (obj idx : Byte) (rec : List Word) (t : Word) (s : State) : Res :=
  done (runCmd h true (fun s =>
    if !indWritable obj.toNat idx.toNat rec then ends cBAD_VALUE 0 0 s
    else cmdTick t (fun at_ s =>
      ends cDONE 0 (resTick at_) (stage { t := at_, op := .qmWrite obj.toNat idx.toNat (maskRec obj.toNat rec) } s)) s) s)

/-- R300: may STAGED_WRITE write a register: it has an RWS field and lies outside blocks 0x0000 and 0x2000. -/
def stagedWritable (off : Nat) : Bool :=
  off / 0x800 != 0 && off / 0x800 != 0x2000 / 0x800 && (match regRow off with | some r => r.rws != 0 | none => false)

/-- STAGED_WRITE (R300). -/
def execStagedWrite (h : CmdHdr) (off : BitVec 16) (v t : Word) (s : State) : Res :=
  let o := off.toNat
  done (runCmd h true (fun s =>
    if o % 8 != 0 then ends cBAD_VALUE 0 0 s
    else if !stagedWritable o then ends cREFUSED 0 0 s
    else cmdTick t (fun at_ s => ends cDONE 0 (resTick at_) (stage { t := at_, op := .regWrite o v } s)) s) s)

/-! ### LEAVE, HOST_MSG -/

/-- R81, R82, R182: a LEAVE_REQ is queued: a new note where none is outstanding. -/
def requestLeave (s : State) : State :=
  let s1 := if s.byp.leaveReq.isSome then queueRepeat nLEAVE_REQ [] s
    else setByp (fun b => { b with leaveReq := some 0, leaveSent := false }) (queueUp nLEAVE_REQ [] s)
  setByp (fun b => { b with leaveRep := 0 }) s1

/-- LEAVE_COMMAND (R300, R81, R82). -/
def execLeaveCommand (h : CmdHdr) (s : State) : Res :=
  done (runCmd h true (fun s =>
    if !(s.term == .ranging || s.term == .running) then ends cREFUSED 0 0 s else ends cDONE 0 0 (requestLeave s)) s)

/-- HOST_MSG (R300). -/
def execHostMsg (h : CmdHdr) (len : BitVec 16) (d : DmaBytes) (s : State) : Res :=
  done (runCmd h true (needsOn dMGT (fun s =>
    if 220 < len.toNat then ends cBAD_VALUE 0 0 s
    else if 16 ≤ s.note.up.length then ends cFULL 0 0 s
    else
      match d with
      | .err _ => cmdDmaErr s
      | .ok b => ends cDONE 0 0 (queueUp nHOST_MSG_UP (slice b 0 len.toNat) s))) s)

/-! ### SETTING (R446) -/

/-- The record in a buffer of `len` bytes. -/
def bufRecord (len : BitVec 16) (b : List Byte) : Option Rec := recordOf (b.take len.toNat)

/-- SETTING_WRITE (R300, R446, R449); `fault` tells of a second read-back mismatch (R428). -/
def execSettingWrite (h : CmdHdr) (len : BitVec 16) (d : DmaBytes) (fault : Bool) (s : State) : Res :=
  done (runCmd h true (needsOn dMGT (fun s =>
    match d with
    | .err _ => cmdDmaErr s
    | .ok b =>
      match bufRecord len b with
      | none => ends cBAD_VALUE 0 0 s
      | some r =>
        let (e, s1) := setRecordOr fault r.key r.persist r.val s
        let (st, s2) := setEndStatus 8 e s1
        ends st 0 (if st == cDONE then 5 + r.val.length else 0) s2)) s)

/-- SETTING_READ (R300, R304, R446): the stored record goes into the host's buffer; `fault` tells that its write failed. -/
def execSettingRead (h : CmdHdr) (addr : BitVec 64) (len : BitVec 16) (d : DmaBytes) (fault : Bool) (s : State) : Res :=
  done (runCmd h false (needsOn dMGT (fun s =>
    match d with
    | .err _ => cmdDmaErr s
    | .ok b =>
      match keyIn (b.take len.toNat) with
      | none => ends cBAD_VALUE 0 0 s
      | some k =>
        let r := readRecord k s
        if !keyKnown k || decide (len.toNat < r.length) then ends cBAD_VALUE 0 0 s
        else if fault then cmdDmaErr (dmaWrite addr.toNat r s)
        else ends cDONE 0 r.length (dmaWrite addr.toNat r s))) s)

/-- SETTING_DELETE (R300, R446). -/
def execSettingDelete (h : CmdHdr) (len : BitVec 16) (d : DmaBytes) (s : State) : Res :=
  done (runCmd h true (needsOn dMGT (fun s =>
    match d with
    | .err _ => cmdDmaErr s
    | .ok b =>
      match bufRecord len b with
      | none => ends cBAD_VALUE 0 0 s
      | some r =>
        let (e, s1) := setRecord r.key r.persist [] s
        let (st, s2) := setEndStatus 8 (some e) s1
        ends st 0 (if st == cDONE then 5 + r.val.length else 0) s2)) s)

/-! ### IMAGE (R439, R443, R445) -/

/-- An IMAGE command's end: RESULT is the image state. -/
def imageEnds (st : Nat) (s : State) : CmdEnd × State := ends st 0 (imageState s) s

/-- R445: `len` bytes at staging offset `off`; a refused write changes nothing. -/
def stageBytes (len off : Nat) (b : List Byte) (s : State) : CmdEnd × State :=
  if decide (off != 0) && s.glean.hostNext != some off then imageEnds cBAD_VALUE s
  else
    let s1 := if off == 0 then beginHostStaging s else setImageState iCOLLECTING (wr F.IMAGE_STAGED_VERSION 0 s)
    imageEnds cDONE (writeStaging off (slice b 0 len) s1)

/-- IMAGE_WRITE_STAGING (R445). -/
def execImageWriteStaging (h : CmdHdr) (len : BitVec 16) (off : Word) (d : DmaBytes) (s : State) : Res :=
  let n := len.toNat
  let o := off.toNat
  done (runCmd h true (needsOn dMGT (fun s =>
    if !stagingOpen s then imageEnds cREFUSED s
    else if n == 0 && o == 0 then imageEnds cDONE (whenB (on F.GLEAN_STATUS_HOST s) releaseStaging s)
    else if n == 0 || decide (4096 < n) || decide (1048576 < o + n) then imageEnds cBAD_VALUE s
    else
      match d with
      | .err _ => cmdDmaErr s
      | .ok b => stageBytes n o b s)) s)

/-- R445: do the bytes the host wrote hold a whole image that R430 accepts. -/
def hostImageOk (s : State) : Bool :=
  s.glean.hostNext.any (fun n => decide (384 + bodyLen (slotManifest fSTAGING s) ≤ n)) && verifySlot fSTAGING s == 0

/-- IMAGE_VERIFY (R445): of the bytes a host collection wrote. -/
def execImageVerify (h : CmdHdr) (s : State) : Res :=
  done (runCmd h true (needsOn dMGT (fun s =>
    if !layoutOk s || !on F.GLEAN_STATUS_HOST s then imageEnds cREFUSED s
    else if hostImageOk s then imageEnds cDONE (stagedVerified s)
    else imageEnds cDONE (count C.GLEAN_VERIFY_FAIL s))) s)

/-- IMAGE_SWAP (R439). -/
def execImageSwap (h : CmdHdr) (t : Word) (s : State) : Res :=
  done (runCmd h true (needsOn dMGT (cmdTick t (fun at_ s =>
    if swapAllowed none none s then imageEnds cDONE (stageSwap at_ 5 s) else imageEnds cREFUSED s))) s)

/-- IMAGE_CONFIRM (R443). -/
def execImageConfirm (h : CmdHdr) (s : State) : Res :=
  done (runCmd h true (needsOn dMGT (fun s =>
    if onTrial s then imageEnds cDONE (confirmTrial s) else imageEnds cREFUSED s)) s)

/-- A soft reset follows the completion of a command that was executed. -/
def resetAfter (st : Nat) (s : State) : State := whenB (st == cDONE) (softRequest F.RESET_CAUSE_SOFT_CMD) s

/-- IMAGE_REVERT (R443): a soft reset, which reverts the swap. -/
def execImageRevert (h : CmdHdr) (s : State) : Res :=
  done (runCmd h true (needsOn dMGT (fun s => if onTrial s then imageEnds cDONE s else imageEnds cREFUSED s)) s resetAfter)

/-! ### SOFT_RESET, RING_RESTART, unlisted opcodes -/

/-- SOFT_RESET_COMMAND (R300, R38): the completion is written before the run-down begins. -/
def execSoftResetCommand (h : CmdHdr) (key : BitVec 16) (s : State) : Res :=
  done (runCmd h false (fun s => if key = 0x5AFE then ends cDONE 0 0 s else ends cBAD_VALUE 0 0 s) s resetAfter)

/-- Ring codes RING_RESTART takes. -/
def restartable (r : Nat) : Bool := decide (r < 0x20) || r == 0x30

/-- R300: the descriptors a restarted ring has not consumed are fetched again; a receive pair fetches its free list's. -/
def fetchAgain (r : Nat) (s : State) : State :=
  if r < 0x10 then fetchFrom r (ringCons r s) s
  else if r < 0x20 then fetchFrom (r + 0x10) (ringCons (r + 0x10) s) s
  else s

/-- RING_RESTART (R300): the ring goes on at its present consumer index. -/
def execRingRestart (h : CmdHdr) (ring : Byte) (s : State) : Res :=
  let r := ring.toNat
  done (runCmd h true (fun s =>
    if restartable r && ringStopped r s then ends cDONE 0 0 (fetchAgain r (setStopped r false s))
    else ends cBAD_VALUE 0 0 s) s)

/-- R300: does a SETTING or IMAGE command name an action its opcode does not list. -/
def badAction (op action : Nat) : Bool :=
  (op == 0x09 && (action == 0 || decide (3 < action))) || (op == 0x0A && (action == 0 || decide (5 < action)))

/-- BAD_OPCODE (R298, R300): opcodes above 0x0C are not listed; an action SETTING or IMAGE does not list is out of range. -/
def execBadOpcode (h : CmdHdr) (op action : Byte) (s : State) : Res :=
  done (if 0x0C < op.toNat then runCmd h true (ends cBAD_OPCODE 0 0) s
    else if !badAction op.toNat action.toNat then s
    else runCmd h true (if op == 0x0A then imageEnds cBAD_VALUE else ends cBAD_VALUE 0 0) s)

end Sys2Proof.Machine
end

