-- ==== Sys2Proof/Machine/LaneRun.lean ====
section
/-! DEFINITION. The start and the end of a lane test (spec/20_lane_tests_counter_ledger.md R453, R456, R458-R459). -/

namespace Sys2Proof.Machine

/-- R456: TXDIS of a Span lane in a test: high in a near-end loop, low in a far-end loop and while the generator runs
without a loop, else as in mission. -/
def testTxdis (n : Nat) (mission : Bool) (s : State) : Bool :=
  match rd (F.LANE_LOOP_MODE n) s with
  | 0 => if on (F.LANE_PRBS_CFG_RUN n) s && on (F.LANE_PRBS_CFG_GEN_EN n) s then false else mission
  | 3 => false
  | _ => true

/-- Set TXDIS of a Span lane; a local lane has none. -/
def setTxdis (n : Nat) (v : Bool) (s : State) : State :=
  match n with
  | 0 => setByp (fun b => { b with txdisW := v }) s
  | 1 => setByp (fun b => { b with txdisE := v }) s
  | _ => s

/-- R459: a Span lane in a test is an absent input; a local lane is link down (R316). -/
def testTakesLane (n : Nat) (s : State) : State :=
  match n with
  | 0 => setTxdis 0 (testTxdis 0 true s) (inputAbsent .west (unlock .west s))
  | 1 => setTxdis 1 (testTxdis 1 true s) (inputAbsent .east (unlock .east s))
  | n => linkCut (n - 2) s

/-- R456: the transmit pins of a lane as its loopback leaves them. -/
def loopPins (n : Nat) (was : Bool) (s : State) : State :=
  if 2 ≤ n then txRefresh (n - 2) s else if nearLoop n s == was then s else emit (.laneIdle n (nearLoop n s)) s

/-- R453: a generator that is on sends its pattern. -/
def patternStart (n : Nat) (s : State) : State :=
  let cfg := reg (R.LANE_PRBS_CFG n) s
  if fget cfg 1 0 == 3 then emit (.pattern n (fget cfg 6 4) (fget cfg 17 8) (fget cfg 3 3 == 1)) s else s

/-- LANE_TEST_START (R453, R456, R458, R459): at the tick boundary the test or loopback starts and the counters clear. -/
def execLaneTestStart (lane : Fin 8) (s : State) : Res :=
  let n := lane.val
  done (if !(laneSt n s).startDue then s
    else
      let looped := rd (F.LANE_LOOP_MODE n) s != 0
      let s1 := s |> setReg (R.LANE_PRBS_BITS n) 0 |> setReg (R.LANE_PRBS_ERR n) 0
                  |> wr (F.LANE_PRBS_STATUS_ELAPSED n) 0 |> wr (F.LANE_PRBS_STATUS_LOCKED n) 0
                  |> setLane n (fun l => { l with startDue := false, ticks := 0, rem := 0, chk := {}, adaptDue := l.adaptDue || looped })
      patternStart n (loopPins n (nearLoop n s) (wr (F.LANE_PRBS_STATUS_RUNNING n) 1 (testTakesLane n s1))))

/-- R458: why a running test ends now, if it does. -/
def testEndCause (n : Nat) (s : State) : Option Nat :=
  let dur := fget (reg (R.LANE_PRBS_CFG n) s) 39 24
  if !laneReady n s then some 3
  else
    match (laneSt n s).endDue with
    | some c => some c
    | none => if dur != 0 && decide (48 * dur ≤ (laneSt n s).ticks) then some 2 else none

/-- LANE_TEST_END (R458): the lane returns to mission mode. -/
def execLaneTestEnd (lane : Fin 8) (s : State) : Res :=
  let n := lane.val
  done (if !laneInTest n s then s
    else
      match testEndCause n s with
      | none => s
      | some c =>
        let looped := rd (F.LANE_LOOP_MODE n) s != 0
        s |> wr (F.LANE_LOOP_MODE n) 0 |> wr (F.LANE_PRBS_CFG_RUN n) 0 |> wr (F.LANE_PRBS_STATUS_RUNNING n) 0
          |> wr (F.LANE_PRBS_STATUS_LOCKED n) 0 |> wr (F.LANE_PRBS_STATUS_END_CAUSE n) c
          |> setLane n (fun l => { l with endDue := none, adaptDue := l.adaptDue || looped })
          |> whenB (s.term == .listening) (setTxdis n true) |> loopPins n (nearLoop n s)
          |> raise E.LANE_TEST_END (n + 16 * c))

end Sys2Proof.Machine
end

