-- ==== Sys2Proof/Machine/Notes.lean ====
section
/-! DEFINITION. The downstream notes that carry maps, subscriptions, keys, settings, profiles, orders and messages, and
the upstream notes they ask for (spec/07_management_notes.md R174, R182-R192). -/

namespace Sys2Proof.Machine

/-! ### Headers (R174, R182) -/

/-- NOTE_MALFORMED (R174): a header of the note region that stops parsing; `room` is how many words of the region follow it.
TYPE 0x00 ends the notes. -/
def execNoteMalformed (hdr : Word) (room : Nat) (s : State) : Res :=
  let len := fget hdr 15 6
  done (if !parsing s then s
    else if fget hdr 39 32 == 0 then endRegion s
    else if headerBad (fget hdr 31 30) (fget hdr 29 24) len || decide (room < (len + 4) / 5) then stopRegion s
    else s)

/-- The downstream types of R182. -/
def listedTypes : List Nat := (List.range 0x13).map (· + 1) ++ [0x20]

/-- NOTE_UNKNOWN (R182, R176-R178). -/
def execNoteUnknown (n : Note) (s : State) : Res :=
  done (if !parsing s then s
    else if n.type == 0 then endRegion s
    else if listedTypes.contains n.type.toNat then s
    else if headerBad n.mode.toNat n.id.toNat n.len.toNat then stopRegion s
    else
      match addressed n s with
      | none => s
      | some a =>
        let s1 := count C.NOTE_RX s
        if s1.term == .leaving then count C.NOTE_WRONG_STATE s1
        else
          let s2 := count C.NOTE_UNKNOWN s1
          if a == .id && n.seq != 0 then
            if lastSeq .id s2 == some n.seq.toNat then duplicate n .id s2
            else answer n (some .id) nUNKNOWN (newSeq .id n.seq.toNat s2)
          else s2)

/-! ### Container maps (R184) -/

/-- COUNT of a MAP_DESC. -/
def descCount (b : List Byte) : Nat := beNat (slice b 3 2)

def kMAP_DESC : NKind :=
  { modes := [.all], sequenced := false, acts := fun _ _ => true, lenOk := fun b => b.length == 5 + 5 * descCount b }

/-- Put descriptors into a map from number `first`; those at or above MAP_COUNT are dropped. -/
def putDescs (m : CMap) (first : Nat) (ws : List Word) : CMap :=
  let keep := ws.zipIdx.filter (fun p => m.count.all (fun n => decide (first + p.2 < n)))
  { m with descs := keep.foldl (fun d p => (SMap.del d (first + p.2)).ins (first + p.2) p.1) m.descs }

/-- MAP_DESC's effect. -/
def takeMapDesc (b : List Byte) (s : State) : State :=
  let g := byteAt b 0 % 16
  let first := beNat (slice b 1 2)
  let n := descCount b
  let ws := toWords (slice b 5 (5 * n))
  let cur := rd F.FRAME_GEN_MAP_GEN s
  if 1023 < first || n == 0 || decide (44 < n) then count C.NOTE_MALFORMED s
  else if s.frame.mapNext.isSome && g == (cur + 1) % 16 then putPend (putDescs s.frame.pendMap first ws) s
  else if g == cur && !s.frame.curMap.complete then putCur (putDescs s.frame.curMap first ws) s
  else count C.MAP_DESC_STALE s

/-- MAP_DESC (R184). -/
def execMapDesc (n : Note) (s : State) : Res :=
  done (takeNote kMAP_DESC n (fun b _ s => (none, takeMapDesc b s)) s)

/-- R183, R184: the block bitmap of a map's missing descriptors. -/
def missingBlocks (m : CMap) : Nat :=
  match m.count with
  | none => 2 ^ 24 - 1
  | some n =>
    let gone (k : Nat) : Bool :=
      (List.range 44).any (fun i => decide (44 * k + i < n) && (SMap.find m.descs (44 * k + i)).isNone)
    (List.range 24).foldl (fun b k => if gone k then b + 2 ^ k else b) 0

/-- R184: is a MAP_REQ for the current or the pending map called for. -/
def mapReqDue (pending : Bool) (s : State) : Bool :=
  termId s != 0 && fromListening s &&
    (if pending then
      s.frame.mapNext.any (fun t => decide (tickDiff t s.line ≤ 16)) && !s.frame.pendMap.complete
    else !s.frame.curMap.complete)

/-- MAP_REQ (R184): sent when its condition arises, and again every 8 counted cycles. -/
def execMapReq (pending : Bool) (s : State) : Res :=
  let timer := if pending then s.frame.pendReq else s.frame.curReq
  done (if !mapReqDue pending s || timer.any (fun c => decide (c < 8)) then s
    else
      let g := (rd F.FRAME_GEN_MAP_GEN s + b2n pending) % 16
      let m := if pending then s.frame.pendMap else s.frame.curMap
      let s1 := queueRepeat nMAP_REQ (BitVec.ofNat 8 g :: bytesBE 3 (missingBlocks m)) s
      setFrame (fun f => if pending then { f with pendReq := some 0 } else { f with curReq := some 0 }) s1)

/-! ### Subscriptions (R185, R333, R365) -/

/-- A register as it will stand at tick `t`, the changes staged for it applied. -/
def regAtTick (t off : Nat) (s : State) : Word :=
  let upd (v : Word) (x : Staged) : Word :=
    match x.op with
    | .regWrite o w =>
      if o == off && tickDue x.t t then
        let m := match regRow off with | some r => r.rws | none => 0
        (v &&& ~~~m) ||| (w &&& m)
      else v
    | _ => v
  (s.staged.mergeSort (fun a b => tickDue a.t b.t)).foldl upd (reg off s)

/-- Is a set-or-replace entry's destination and PARAM allowed. -/
def entryOk (t : Nat) (w : Word) (s : State) : Bool :=
  let dest := fget w 27 20
  let param := fget w 19 0
  match fget w 29 28 with
  | 1 =>
    if dest == 1 || dest == 2 then decide (param < 16)
    else if dest == 7 then decide (param < 2)
    else showParamOk dest param (fun off => regAtTick t off s)
  | 2 | 3 => true
  | _ => false

/-- Put a staged note behind those of its tick and earlier. -/
def insertSub (x : SubStage) : List SubStage → List SubStage
  | [] => [x]
  | y :: l => if tickDiff x.t y.t < 0 then x :: y :: l else y :: insertSub x l

/-- R365: is no axis fed by two subscriptions. -/
def axesOnce (l : List Sub) : Bool :=
  (List.range 2).all (fun k => decide ((l.filter (fun b => b.dest == 7 && b.param == k)).length ≤ 1))

/-- The containers a note touches; a remove-all touches every one. -/
def touches (es : List Word) : List Nat :=
  if es.any (fun w => fget w 29 28 == 3) then List.range 1024 else (es.map (fun w => fget w 39 30)).dedup

/-- R185: judge a SUBSCRIBE for tick `t`, and stage it. -/
def stageSubs (t : Nat) (es : List Word) (s : State) : Option Nat × State :=
  let x : SubStage := { t, entries := es }
  let s1 := setFrame (fun f => { f with subStage := insertSub x f.subStage }) s
  let ticks := t :: (s.frame.subStage.filter (fun y => decide (0 < tickDiff y.t t))).map SubStage.t
  if !es.all (fun w => entryOk t w s) || !axesOnce (subsFor t s1) then (some nBAD_VALUE, s)
  else if ticks.any (fun u => decide (128 < (subsFor u s1).length)) then (some nFULL, s)
  else
    let earlier := ((s.frame.subStage.filter (fun y => y.t == t)).flatMap (fun y => touches y.entries)).dedup
    (some nSTAGED, countN C.STAGE_SUPERSEDED ((touches es).filter (fun c => earlier.contains c)).length s1)

def kSUBSCRIBE : NKind :=
  { modes := [.id], sequenced := true, acts := inRR
    lenOk := fun b => decide (10 ≤ b.length) && decide (b.length ≤ 225) && b.length % 5 == 0 }

/-- SUBSCRIBE (R185). -/
def execSubscribe (n : Note) (s : State) : Res :=
  done (takeNote kSUBSCRIBE n (fun b _ s => withTick (stampAt b 0) 2 (fun t s => stageSubs t (toWords (b.drop 5)) s) s) s)

/-! ### KEY_LOAD (R186, R220) -/

def kKEY_LOAD : NKind := { modes := [.id], sequenced := true, acts := inRR, lenOk := fun b => b.length == 45 }

/-- KEY_LOAD (R220): one that comes before K_WRAP is held, and answered when it exists. -/
def execKeyLoad (n : Note) (s : State) : Res :=
  done (takeNote kKEY_LOAD n (fun b _ s =>
    if (keySlot 3 s).isNone then (none, setNote (fun x => { x with heldKey := some n }) s)
    else
      let (st, s1) := keyLoad b s
      (some st, s1)) s)

/-! ### SETTING (R187, R446) -/

def kSETTING : NKind :=
  { modes := [.id, .all], sequenced := true, acts := inRR
    lenOk := fun b => decide (5 ≤ b.length) && decide (b.length ≤ 225) && b.length == 5 + beNat (slice b 3 2) }

/-- The NOTE_ACK status of a settings request. -/
def setEndNote : SetEnd → Nat
  | .ok => nDONE
  | .badValue => nBAD_VALUE
  | .refused => nREFUSED
  | .full => nFULL

/-- SETTING (R187, R446): HOUSE_PUB is refused from a note. -/
def execSetting (n : Note) (s : State) : Res :=
  done (takeNote kSETTING n (fun b _ s =>
    let key := beNat (slice b 0 2)
    if key == 1 then (some nREFUSED, s)
    else
      let (r, s1) := setRecord key (nbit (byteAt b 2) 0) (b.drop 5) s
      (some (setEndNote r), s1)) s)

/-! ### MOTION_PROFILE (R188, R368) -/

def kMOTION_PROFILE : NKind :=
  { modes := [.id], sequenced := true, acts := inRR
    lenOk := fun b => decide (14 ≤ b.length) && decide (b.length ≤ 214) && b.length == 4 + 10 * byteAt b 3 }

/-- The segments of a body. -/
def segsOf (b : List Byte) : List Seg :=
  (List.range (byteAt b 3)).map (fun i =>
    let o := 4 + 10 * i
    { dur := beNat (slice b o 2), vEnd := toSigned 32 (beNat (slice b (o + 2) 4)), acc := beNat (slice b (o + 6) 4) })

/-- MOTION_PROFILE (R188). -/
def execMotionProfile (n : Note) (s : State) : Res :=
  done (takeNote kMOTION_PROFILE n (fun b _ s =>
    let ax := byteAt b 0
    let p := byteAt b 1
    if 1 < ax || decide (7 < p) || decide (64 < byteAt b 2 + byteAt b 3) || (segsOf b).any (fun g => g.dur == 0) then
      (some nBAD_VALUE, s)
    else if axState ax s == xPROFILE && (axSt ax s).prof.any (fun r => r.1 == p) then (some nREFUSED, s)
    else (some nDONE, storeProfile ax p (byteAt b 2) (segsOf b) s)) s)

/-! ### Orders (R189-R191) -/

def orderModes : List NAddr := [.id, .all, .fprint]

def kPOWER_ORDER : NKind := { modes := orderModes, sequenced := true, acts := orderState, lenOk := fun b => b.length == 11 }

/-- The wanted states of a POWER_ORDER, domain by domain; 3 leaves one unchanged. -/
def orderTargets (b : List Byte) : List Nat := domains.map (fun k => nbits (beNat (slice b 5 6)) (2 * k + 1) (2 * k))

/-- POWER_ORDER (R189, R406, R409). -/
def execPowerOrder (n : Note) (s : State) : Res :=
  done (takeNote kPOWER_ORDER n (fun b _ s => withTick (stampAt b 0) 2 (fun t s =>
    let bits := refusedSet (resultingSet (some (orderTargets b)) s) s
    if bits != 0 then (some nREFUSED, powerRefused bits s)
    else (some nSTAGED, powerRequest { t, order := some (orderTargets b) } s)) s) s)

def kIMAGE_ORDER : NKind := { modes := orderModes, sequenced := true, acts := orderState, lenOk := fun b => b.length == 11 }

/-- R190: is the image of an order the one on trial. -/
def trialOf (b : List Byte) (s : State) : Bool :=
  onTrial s && byteAt b 6 == rd F.GLEAN_STATUS_CAR_ID s && beNat (slice b 7 4) == rd F.IMAGE_RUNNING_VERSION s

/-- R190, R439, R443: an IMAGE_ORDER acts by its ACTION. -/
def imageOrder (b : List Byte) (s : State) : Option Nat × State :=
  let act := byteAt b 5
  if act == 0 || decide (3 < act) || (act != 1 && stampAt b 0 != 0) then (some nBAD_VALUE, s)
  else if act == 1 then
    withTick (stampAt b 0) 2 (fun t s =>
      if swapAllowed (some (byteAt b 6)) (some (beNat (slice b 7 4))) s then (some nSTAGED, stageSwap t 7 s)
      else (some nREFUSED, s)) s
  else if !trialOf b s then (some nREFUSED, s)
  else if act == 2 then (some nDONE, confirmTrial s)
  else (some nDONE, softRequest F.RESET_CAUSE_SOFT_NOTE s)

/-- IMAGE_ORDER_SWAP (R190, R439). -/
def execImageOrderSwap (n : Note) (s : State) : Res := done (takeNote kIMAGE_ORDER n (fun b _ s => imageOrder b s) s)

/-- IMAGE_ORDER_CONFIRM (R190, R443). -/
def execImageOrderConfirm (n : Note) (s : State) : Res := done (takeNote kIMAGE_ORDER n (fun b _ s => imageOrder b s) s)

/-- IMAGE_ORDER_REVERT (R190, R443). -/
def execImageOrderRevert (n : Note) (s : State) : Res := done (takeNote kIMAGE_ORDER n (fun b _ s => imageOrder b s) s)

def kRESET_ORDER : NKind :=
  { modes := [.id, .fprint], sequenced := true, acts := orderState, lenOk := fun b => b.length == 5 }

/-- RESET_ORDER (R191). -/
def execResetOrder (n : Note) (s : State) : Res :=
  done (takeNote kRESET_ORDER n (fun b _ s => withTick (stampAt b 0) 8 (fun t s =>
    (some nSTAGED, stage { t, op := .softReset } s)) s) s)

/-- Is a staged reset due. -/
def resetDue (s : State) (x : Staged) : Bool := x.op == .softReset && tickDue x.t s.bt

/-- RESET_ORDER_DUE (R191, R38). -/
def execResetOrderDue (s : State) : Res :=
  done (if s.staged.any (resetDue s) then
      softRequest F.RESET_CAUSE_SOFT_NOTE { s with staged := s.staged.filter (fun x => !resetDue s x) }
    else s)

/-! ### STATUS_REQ and messages -/

/-- The body of STATUS (R183). -/
def statusBody (s : State) : List Byte :=
  let doms := domains.foldl (fun n k => n + domState k s * 4 ^ k) 0
  BitVec.ofNat 8 (termCode s.term) :: bytesBE 2 (fget (reg R.TICK_OVERRUN_STATUS s) 8 0) ++
    bytesBE 2 (fget (reg R.SELFTEST_FLAGS s) 10 0) ++ [BitVec.ofNat 8 (fget (mapStatusView s) 1 0)] ++
    bytesBE 2 (rd F.LEDGER_SUMMARY_SAT s) ++ bytesBE 6 doms

def kSTATUS_REQ : NKind := { modes := [.id, .all], sequenced := false, acts := inRR, lenOk := fun b => b.length == 0 }

/-- STATUS_REQ (R182). -/
def execStatusReq (n : Note) (s : State) : Res :=
  done (takeNote kSTATUS_REQ n (fun _ _ s =>
    (none, queueUp nIMAGE_STATUS (imageStatusBody s) (queueUp nSTATUS (statusBody s) s))) s)

def kHOST_MSG_DN : NKind :=
  { modes := [.id, .all], sequenced := true, acts := inRR, lenOk := fun b => decide (b.length ≤ 220) }

/-- HOST_MSG_DN (R297, R307). -/
def execHostMsgDn (n : Note) (s : State) : Res :=
  done (takeNote kHOST_MSG_DN n (fun b _ s =>
    (some nDONE, if hostless s then count C.HOST_MSG_NOHOST s
      else if domOn dQSC s then deliverHost (rd F.RING_MODE_MSG_RXQ s) 0xE 0 (noteN s) b s else s)) s)

/-! ### The upstream queue (R192) -/

/-- NOTE_UP_EXPIRED (R192): notes still queued after 64 counted cycles are dropped. -/
def execNoteUpExpired (s : State) : Res :=
  let old (n : UpNote) : Bool := decide (64 ≤ n.age)
  done (countN C.NOTE_UP_EXPIRED (s.note.up.filter old).length
    (setNote (fun x => { x with up := x.up.filter (fun n => !old n) }) s))

end Sys2Proof.Machine
end

