-- ==== Sys2Proof/Machine/TimeBase.lean ====
section
/-! DEFINITION. The building-tick boundary: building time, the staged changes whose tick has come, and what every engine
does at wc 0 of a building tick (spec/01_tick_and_word.md R14, R19-R21, R28; spec/06 R157, R162-R168; spec/12 R300). -/

namespace Sys2Proof.Machine

/-! ### Building time (R14, R168) -/

/-- Is the change of building time at this boundary a time step (R168). -/
def stepsNow (s : State) : Bool :=
  on F.TIME_STATUS_RANGED s &&
    (s.regn.pendStep.isSome || s.regn.pendRange.any (fun x => x.step || beyond x.diff))

/-- The next building tick: line time before the first ranging result, the tick stepped to where a step waits, else the
tick that follows. -/
def advanceTime (s : State) : State :=
  if !on F.TIME_STATUS_RANGED s then { s with bt := s.line }
  else
    match s.regn.pendStep with
    | some t => setRegn (fun r => { r with pendStep := none }) { s with bt := t }
    | none => { s with bt := nextTick s }

/-- R28: data whose instant a forward step passed over is not presented; each of its ticks is counted in PRES_LATE, once. -/
def latePres (s : State) : State :=
  let past := s.frame.pres.filter (fun i => decide (tickDiff i.at_ s.bt < 0))
  let tags := ((past.filter (fun i => i.data.isSome)).map PresItem.tag).dedup
  eachOf tags lateOnce
    (setFrame (fun f => { f with pres := f.pres.filter (fun i => decide (0 ≤ tickDiff i.at_ s.bt)) }) s)

/-- R168, R337, R358, R400: what a time step does to work in progress. -/
def stepWork (delta : Int) (s : State) : State := s |> genlockRealign |> showStep delta |> afeStep |> latePres

/-- Move building time over the boundary and apply what waits for it: a ranging result, the slews, a TIME_MAP, the word
clock's source. -/
def boundaryTime (s : State) : State :=
  let want := nextTick s
  let steps := stepsNow s
  let mapped := s.regn.pendTime.isSome
  let s1 := s |> advanceTime |> applyRange |> slewTick |> applyTimeMap |> moveSource
  let s2 := whenB steps (stepWork (tickDiff s1.bt want)) s1
  whenB (mapped && !steps) genlockRealign s2

/-! ### Staged changes (R20, R300) -/

/-- Is a staged write due; a staged reset keeps its own row. -/
def stagedDue (s : State) (x : Staged) : Bool := x.op != .softReset && tickDue x.t s.bt

/-- R300, R447: a staged write of a register changes its RWS fields and no other. -/
def stagedReg (off : Nat) (v : Word) (s : State) : State :=
  match regRow off with
  | none => s
  | some r => storeBits .mgmt r off r.rws v s

/-- One staged change. -/
def applyStaged (s : State) (x : Staged) : State :=
  match x.op with
  | .regWrite off v => stagedReg off v (keepPrior x.t off s)
  | .qmWrite obj idx r => applyRec obj idx r s
  | .softReset => s

/-- Every staged change due, in the order of ticks. -/
def applyAllStaged (s : State) : State :=
  let now := (s.staged.filter (stagedDue s)).mergeSort (fun a b => tickDue a.t b.t)
  eachOf now applyStaged { s with staged := s.staged.filter (fun x => !stagedDue s x) }

/-- R20, R26: has every tick before `t` been presented too, whatever P (at most 15). -/
def presented (t : Nat) (s : State) : Bool := settled t s && decide (tickDiff t s.bt ≤ -16)

/-- R20, R185: staged SUBSCRIBE notes join the subscriptions once no earlier work is left. -/
def settleSubs (s : State) : State :=
  setFrame (fun f => { f with
    subs := (f.subStage.filter (fun x => presented x.t s)).foldl subNote f.subs
    subStage := f.subStage.filter (fun x => !presented x.t s) }) s

/-! ### The tick (R19) -/

/-- The measured RC rate, once per cycle while the spine runs (R414). -/
def keepRc (hz : Option (BitVec 24)) (s : State) : State :=
  match hz with
  | some v => wr F.KEEPER_RC_HZ v.toNat s
  | none => s

/-- Ticks that are counted: since LISTENING (R285), a trial's (R443) and those in FLYWHEEL (R325). -/
def countTicks (s0 : State) : State :=
  let s := setBoot (fun b => { b with listened := b.listened.map (fun n => min (n + 1) (2000 * 48)) }) s0
  let s1 := whenB (onTrial s && fromListening s) (setGlean (fun g => { g with trialTicks := g.trialTicks + 1 })) s
  whenB (s1.term == .flywheel) (fun s => { s with eth := { s.eth with flyTicks := s.eth.flyTicks + 1 } }) s1

/-- The services of a tick boundary that do not present: buckets, hold-downs, banks, lanes, PTP, the host's
heartbeat, the keeper. -/
def boundaryService (i : TickIn) (s : State) : State :=
  let s1 := setWrote [] s |> refillBuckets |> puntTick |> holdTick |> applyBanks |> applyGates |> portsRefresh
  let s2 := eachOf (List.range 8) (fun s n => laneTick n (i.prbs.getD n []) s) s1
  s2 |> countTicks |> ptpRefresh |> hostTick i.link |> ktimerTick |> keepRc i.rcHz |> restResume

/-- The items presented at this boundary, taken from those that wait (R26-R28). -/
def takeDue (s : State) : List PresItem × State :=
  (s.frame.pres.filter (fun x => tickDue x.at_ s.bt),
    setFrame (fun f => { f with pres := f.pres.filter (fun x => !tickDue x.at_ s.bt) }) s)

/-- Presentation: show ports, motion axes, the sensor front end. -/
def boundaryPresent (i : TickIn) (s : State) : State :=
  let (due, s1) := takeDue s
  s1 |> showBegin due |> motionTick due i.encDelta |> afeBegin i.dieTemp

/-- BUILDING_TICK (R19): a building tick ends and the next begins. In RESET and HOLDING the keeper's timer alone runs
(R33, R52), in SELFTEST time too. The queue manager sweeps first and serves the punt sink last (R267, R281). At rest building time stands still and the keeper measures the rest (R411). -/
def execBuildingTick (i : TickIn) (s : State) : Res :=
  done (if s.term == .reset || s.term == .holding then ktimerTick s
    else if s.term == .selftest then keepRc i.rcHz (ktimerTick (drained (linkTick i.link (boundaryTime s))))
    else if s.pwr.resting then ktimerTick (setPwr (fun p => { p with rest := p.rest + 1 }) s)
    else
      s |> showEnd i.tdm |> afeEnd |> boundaryTime |> deadlineSweep |> settleSubs |> applyAllStaged |> boundaryService i
        |> boundaryPresent i |> servePunts 4096)

end Sys2Proof.Machine
end

