-- ==== Sys2Proof/Machine/Zwirdo.lean ====
section
/-! DEFINITION. The Zwirdo sideband: the address comparator, transactions with their PEC and status, the command set,
the mailbox and the alert output (spec/18_zwirdo_sideband.md R415-R426; the hold report is R55's). -/

namespace Sys2Proof.Machine

/-! ### Status codes (R421) -/

def zDONE : Nat := 0
def zBAD_CMD : Nat := 1
def zBAD_LEN : Nat := 2
def zBAD_VALUE : Nat := 3
def zREFUSED : Nat := 4
def zPEC_BAD : Nat := 5
def zBUSY : Nat := 6

/-- R421: every command sets LAST_STATUS; every code but DONE is counted, a bad PEC also in ZWD_PEC_BAD. -/
def zwdStatus (st : Nat) (s : State) : State :=
  s |> wr F.ZWD_STATUS_LAST_STATUS st |> whenB (st != zDONE) (count C.ZWD_CMD_BAD)
    |> whenB (st == zPEC_BAD) (count C.ZWD_PEC_BAD)

/-! ### The wire (R415, R416) -/

/-- The terminal's address byte for a write; the read address is one more. -/
def zwdAddrByte (s : State) : Nat := 2 * rd F.ZWD_ADDR_ADDR s

/-- The bytes of a transaction up to the last one written: address, command, data. -/
def zwdHead (cmd : Nat) (t : ZwdTxn) (s : State) : List Byte :=
  BitVec.ofNat 8 (zwdAddrByte s) :: BitVec.ofNat 8 cmd :: t.data

/-- The PEC byte of the written part. -/
def pecWritten (cmd : Nat) (t : ZwdTxn) (s : State) : Byte := BitVec.ofNat 8 (crc8 (zwdHead cmd t s))

/-- Send the read part; a PEC byte over the whole transaction follows where the controller ACKs the last data byte. -/
def zwdReply (cmd : Nat) (t : ZwdTxn) (bytes : List Byte) (s : State) : State :=
  let all := zwdHead cmd t s ++ BitVec.ofNat 8 (zwdAddrByte s + 1) :: bytes
  emit (.zwd (if t.rdPec then bytes ++ [BitVec.ofNat 8 (crc8 all)] else bytes) true) s

/-- A byte is NACKed: nothing is sent and nothing applied. -/
def zwdNack (s : State) : State := emit (.zwd [] false) s

/-- Is the register file reachable: SELFTEST or a later state (R418). -/
def zwdLive (s : State) : Bool := s.term != .reset

/-- R412, R413, R419: a matching address byte is wake source 0x4 where ZWD_EN is set and some WAKE_MASK domain is not ON;
it ends spine rest in any case. -/
def zwdWakes (s : State) : State := endRest (if on F.WAKE_CFG_ZWD_EN s && maskAsleep s then wake 4 0 s else s)

/-- R418, R419: a transaction that finds the spine at rest ends the rest by its own address byte
(notes/assumptions/55.md). -/
def zwdMatched (s : State) : State := if s.pwr.resting then zwdWakes s else s

/-- R416, R421: why the written part is not acceptable, and whether its bytes are ACKed: a length other than `n` bytes, a
count byte other than what follows it, a bad PEC, or none where a pure write must carry one, which shows at the STOP. -/
def zwdFault (cmd : Nat) (block pure_ : Bool) (n : Nat) (t : ZwdTxn) (s : State) : Option (Nat × Bool) :=
  if t.data.length != n || (block && byteAt t.data 0 + 1 != n) then some (zBAD_LEN, false)
  else
    match t.pec with
    | some p => if p != pecWritten cmd t s then some (zPEC_BAD, false) else none
    | none => if pure_ && on F.ZWD_CFG_PEC_REQ s then some (zBAD_LEN, true) else none

/-- A command is acceptable, as `zwdFault` judges it, and `act` runs, or its fault is answered. -/
def zwdServe (cmd : Nat) (block pure_ : Bool) (n : Nat) (t : ZwdTxn) (act : State → State) (s : State) : State :=
  match zwdFault cmd block pure_ n t s with
  | some (st, acked) => zwdStatus st (emit (.zwd [] acked) s)
  | none => act s

/-- Run a command: `act` where the written part of `n` bytes is acceptable. In RESET every command but STATUS is NACKed;
a transaction cut short has no effect but that of its address byte. -/
def zwdRun (cmd : Nat) (block pure_ : Bool) (n : Nat) (t : ZwdTxn) (act : State → State) (s : State) : State :=
  if !zwdLive s then zwdNack s
  else if t.cut then zwdMatched s
  else zwdServe cmd block pure_ n t act (zwdMatched s)

/-- A command that reads without writing data. -/
def zwdRead (cmd : Nat) (t : ZwdTxn) (bytes : State → List Byte) (s : State) : State :=
  zwdRun cmd false false 0 t (fun s => zwdStatus zDONE (zwdReply cmd t (bytes s) s)) s

/-- A pure write was acknowledged. -/
def zwdAck (st : Nat) (s : State) : State := zwdStatus st (emit (.zwd [] true) s)

/-! ### The address comparator (R418, R419) -/

/-- R419: the STOP of a transaction that ended the rest: the spine rests again at the next tick boundary where every
domain still sleeps and no wake is under way. -/
def zwdStop (s : State) : State :=
  if s.boot.targetsDone && !s.pwr.resting && allAsleep s && s.pwr.run.isNone && s.pwr.reqs.all (fun r => !r.wake) then
    setPwr (fun p => { p with restAgain := true }) s
  else s

/-- ZWIRDO_ADDRESS_MATCH (R418, R419, R412): an address byte, or with `stop` the STOP that ends its transaction. -/
def execZwirdoAddressMatch (byte : Byte) (stop : Bool) (s : State) : Res :=
  done (if byte.toNat / 2 != rd F.ZWD_ADDR_ADDR s then s
    else if stop then zwdStop s
    else
      zwdWakes (emit (.zwd [] true) s))

/-! ### Reports -/

/-- STATUS (R55, R421): the hold report; in RESET it is all zero. -/
def execStatus (t : ZwdTxn) (s : State) : Res :=
  done (if s.term == .reset then (if t.cut then s else zwdReply 0x01 t (8 :: List.replicate 8 0) s)
    else zwdRead 0x01 t (fun s => 8 :: holdReport s) s)

/-- IDENT (R421). -/
def execIdent (t : ZwdTxn) (s : State) : Res :=
  done (zwdRead 0x02 t (fun s => 5 :: wordBytes (reg R.DEVICE_IDENT s)) s)

/-- FPRINT (R421). -/
def execFprint (t : ZwdTxn) (s : State) : Res := done (zwdRead 0x03 t (fun _ => 5 :: wordBytes fprintView) s)

/-- LAST (R421): the status before this command's own. -/
def execLast (t : ZwdTxn) (s : State) : Res :=
  done (zwdRead 0x04 t (fun s => [BitVec.ofNat 8 (rd F.ZWD_STATUS_LAST_STATUS s)]) s)

/-! ### Registers (R422) -/

/-- The BAR0 offset in bytes 1 and 2 of the written data. -/
def zwdOffset (t : ZwdTxn) : Nat := beNat (slice t.data 1 2)

/-- REG_READ (R422). -/
def execRegRead (t : ZwdTxn) (s : State) : Res :=
  done (zwdRun 0x10 true false 3 t (fun s =>
    let off := zwdOffset t
    if off % 8 != 0 then zwdStatus zBAD_VALUE (zwdReply 0x10 t (6 :: 3 :: List.replicate 5 0) s)
    else
      let (v, s1) := readEight .zwirdo off s
      zwdStatus zDONE (zwdReply 0x10 t (6 :: 0 :: wordBytes (BitVec.ofNat 40 v)) s1)) s)

/-- REG_WRITE (R422, R66). -/
def execRegWrite (t : ZwdTxn) (s : State) : Res :=
  done (zwdRun 0x11 true true 8 t (fun s =>
    let off := zwdOffset t
    if off % 8 != 0 then zwdAck zBAD_VALUE s
    else zwdAck zDONE (write8 .zwirdo off (bytesWord (slice t.data 3 5)) s)) s)

/-- ZWD_SOFT_RESET (R423, R38). -/
def execZwdSoftReset (t : ZwdTxn) (s : State) : Res :=
  done (zwdRun 0x20 false true 2 t (fun s =>
    if t.data == [0xFE, 0x5A] then softRequest F.RESET_CAUSE_SOFT_ZWD (zwdAck zDONE s) else zwdAck zBAD_VALUE s) s)

/-! ### FLASH_XFER (R424) -/

/-- Are the operands of a FLASH_XFER in range: count, A, DUMMY, RLEN. -/
def xferOk (d : List Byte) : Bool :=
  let a := byteAt d 2
  decide (byteAt d 0 ≤ 32) && (a == 0 || a == 3 || a == 4) && decide (byteAt d 3 ≤ 15) && decide (byteAt d 4 ≤ 24)

/-- A FLASH_XFER that is not served: its status; the bytes read for it are not stated and are free. -/
def xferFails (st : Nat) (t : ZwdTxn) (s : State) : State :=
  let n := if byteAt t.data 4 ≤ 24 then byteAt t.data 4 else 0
  let (v, s1) := fresh (8 * n) s
  zwdStatus st (zwdReply 0x30 t (BitVec.ofNat 8 (1 + n) :: BitVec.ofNat 8 st :: bytesBE n v.toNat) s1)

/-- The SPI transaction: `rx` is what the flash returned. -/
def xferRuns (t : ZwdTxn) (rx : List Byte) (s : State) : State :=
  let d := t.data
  let a := byteAt d 2
  let n := byteAt d 4
  let addr := slice d 5 a
  let w := d.drop (5 + a)
  s |> emit (.spi (slice d 1 1 ++ addr ++ List.replicate (byteAt d 3) 0 ++ w) n)
    |> spiEffect (byteAt d 1) a (beNat addr) w
    |> zwdReply 0x30 t (BitVec.ofNat 8 (1 + n) :: 0 :: slice rx 0 n) |> zwdStatus zDONE

/-- FLASH_XFER (R424): served only in HOLDING. -/
def execFlashXfer (t : ZwdTxn) (rx : List Byte) (s : State) : Res :=
  done (zwdRun 0x30 true false t.data.length t (fun s =>
    if t.data.length < 5 then zwdStatus zBAD_LEN (zwdNack s)
    else if s.term != .holding then xferFails zREFUSED t s
    else if !xferOk t.data then xferFails zBAD_VALUE t s
    else if byteAt t.data 0 < 4 + byteAt t.data 2 then zwdStatus zBAD_LEN (zwdNack s)
    else xferRuns t rx s) s)

/-! ### The mailbox (R425) -/

/-- Does a mailbox request run. -/
def mboxBusy (s : State) : Bool := on F.ZWD_STATUS_MBOX_BUSY s

/-- Write bytes into the mailbox from an offset; those beyond byte 255 are discarded. -/
def mboxStore (o : Nat) (b : List Byte) (s : State) : State :=
  setZwd (fun z => { z with mbox := (z.mbox.take o ++ b ++ z.mbox.drop (o + b.length)).take 256 }) s

/-- MBOX_PUT (R425): count 1 + n with n from 1 to 31. -/
def execMboxPut (t : ZwdTxn) (s : State) : Res :=
  done (zwdRun 0x40 true true t.data.length t (fun s =>
    let o := byteAt t.data 1
    let b := t.data.drop 2
    if t.data.length < 3 || decide (33 < t.data.length) then zwdStatus zBAD_LEN (zwdNack s)
    else if mboxBusy s then zwdAck zBUSY s
    else zwdAck (if 256 < o + b.length then zBAD_VALUE else zDONE) (mboxStore o b s)) s)

/-- Start a mailbox request. -/
def mboxStart (act : Nat) (t : ZwdTxn) (s : State) : State :=
  zwdRun 0x41 false true 1 t (fun s =>
    let a := byteAt t.data 0
    if a == 0 || decide (3 < a) then zwdAck zBAD_VALUE s
    else if s.term == .holding || !domOn dMGT s || mboxBusy s then zwdAck zREFUSED s
    else zwdAck zDONE (wr F.ZWD_STATUS_MBOX_BUSY 1 (setZwd (fun z => { z with req := some act }) s))) s

/-- MBOX_RUN_WRITE (R425). -/
def execMboxRunWrite (t : ZwdTxn) (s : State) : Res := done (mboxStart 1 t s)

/-- MBOX_RUN_READ (R425). -/
def execMboxRunRead (t : ZwdTxn) (s : State) : Res := done (mboxStart 2 t s)

/-- MBOX_RUN_DELETE (R425). -/
def execMboxRunDelete (t : ZwdTxn) (s : State) : Res := done (mboxStart 3 t s)

/-- What a request does: its result, and the state. -/
def mboxServe (act : Nat) (fault : Bool) (s : State) : Nat × State :=
  let b := s.zwd.mbox
  if act == 2 then
    let k := beNat (slice b 0 2)
    if keyKnown k then (cDONE, mboxStore 0 (readRecord k s) s) else (cBAD_VALUE, s)
  else
    match recordOf b with
    | none => (cBAD_VALUE, s)
    | some r =>
      let (e, s1) := setRecordOr (fault && act == 1) r.key r.persist (if act == 1 then r.val else []) s
      setEndStatus 7 e s1

/-- MBOX_DONE (R425, R426): the request ends; `fault` tells of a second read-back mismatch (R428). -/
def execMboxDone (fault : Bool) (s : State) : Res :=
  done (match s.zwd.req with
    | none => s
    | some act =>
      if !domOn dMGT s then s
      else
        let (r, s1) := mboxServe act fault (setZwd (fun z => { z with req := none }) s)
        s1 |> wr F.ZWD_STATUS_MBOX_BUSY 0 |> wr F.ZWD_STATUS_MBOX_RESULT r |> alertSet A.MBOX)

/-- MBOX_GET (R425): 32 bytes, zero beyond byte 255; while a request runs the bytes read are not stated and are free. -/
def execMboxGet (t : ZwdTxn) (s : State) : Res :=
  done (zwdRun 0x42 true false 2 t (fun s =>
    if mboxBusy s then
      let (v, s1) := fresh 256 s
      zwdStatus zBUSY (zwdReply 0x42 t (32 :: bytesBE 32 v.toNat) s1)
    else zwdStatus zDONE (zwdReply 0x42 t (32 :: slice s.zwd.mbox (byteAt t.data 1) 32) s)) s)

/-- MBOX_STATUS (R425). -/
def execMboxStatus (t : ZwdTxn) (s : State) : Res :=
  done (zwdRead 0x43 t (fun s =>
    [BitVec.ofNat 8 (128 * b2n (mboxBusy s) + rd F.ZWD_STATUS_MBOX_RESULT s)]) s)

/-! ### The alert (R426) -/

/-- ALERT_READ (R426). -/
def execAlertRead (t : ZwdTxn) (s : State) : Res :=
  done (zwdRead 0x50 t (fun s => [BitVec.ofNat 8 (rd F.ZWD_ALERT_STATUS s)]) s)

/-- Is ZWD_ALERT_N driven low. -/
def alertAsserted (s : State) : Bool :=
  (rd F.ZWD_ALERT_STATUS s &&& rd F.ZWD_CFG_ALERT_EN s) != 0 && !on F.ZWD_ALERT_ACKED s

/-- ALERT_RESPONSE (R426): a read at 0x0C; it acknowledges the alert where this terminal wins arbitration. -/
def execAlertResponse (wins : Bool) (s : State) : Res :=
  done (if zwdLive s && alertAsserted s && wins then
      wr F.ZWD_ALERT_ACKED 1 (emit (.zwd [BitVec.ofNat 8 (zwdAddrByte s)] true) (zwdMatched s))
    else s)

/-! ### Errors -/

/-- ZWD_TIMEOUT (R417). -/
def execZwdTimeout (s : State) : Res := done (count C.ZWD_TIMEOUT s)

/-- The command bytes of R421. -/
def zwdListed : List Nat := [0x01, 0x02, 0x03, 0x04, 0x10, 0x11, 0x20, 0x30, 0x40, 0x41, 0x42, 0x43, 0x50]

/-- ZWD_UNKNOWN_COMMAND (R421). -/
def execZwdUnknownCommand (cmd : Byte) (s : State) : Res :=
  done (if zwdListed.contains cmd.toNat then s
    else if !zwdLive s then zwdNack s
    else zwdStatus zBAD_CMD (zwdNack (zwdMatched s)))

end Sys2Proof.Machine
end

