-- ==== Sys2Proof/Machine/Dispatch.lean ====
section
/-! DEFINITION. The dispatch of a command to its meaning: one arm per constructor of `Instr`. -/

namespace Sys2Proof.Machine

def exec (i : Instr) (s : State) : Host.Outcome State Fault Refusal :=
  match i with
  | .lowHalfRead p r => Sys2Proof.Machine.execLowHalfRead p r s
  | .highHalfRead p r => Sys2Proof.Machine.execHighHalfRead p r s
  | .highHalfWrite p r v => Sys2Proof.Machine.execHighHalfWrite p r v s
  | .lowHalfWrite p r v => Sys2Proof.Machine.execLowHalfWrite p r v s
  | .eightByteAccess p r w => Sys2Proof.Machine.execEightByteAccess p r w s
  | .badSizeWrite p off size => Sys2Proof.Machine.execBadSizeWrite p off size s
  | .partialRead p off size => Sys2Proof.Machine.execPartialRead p off size s
  | .unassignedAccess p dw eight w => Sys2Proof.Machine.execUnassignedAccess p dw eight w s
  | .timeNowRead p wc phase => Sys2Proof.Machine.execTimeNowRead p wc phase s
  | .powerOnReset => Sys2Proof.Machine.execPowerOnReset s
  | .pinReset => Sys2Proof.Machine.execPinReset s
  | .brownOutReset => Sys2Proof.Machine.execBrownOutReset s
  | .releaseOfReset straps => Sys2Proof.Machine.execReleaseOfReset straps s
  | .selftestStepDone r => Sys2Proof.Machine.execSelftestStepDone r s
  | .bootLoadGo p v => Sys2Proof.Machine.execBootLoadGo p v s
  | .imageLoadDone d => Sys2Proof.Machine.execImageLoadDone d s
  | .flashBridgeGo p v => Sys2Proof.Machine.execFlashBridgeGo p v s
  | .flashBridgeDone bytes => Sys2Proof.Machine.execFlashBridgeDone bytes s
  | .softReset p v => Sys2Proof.Machine.execSoftReset p v s
  | .softResetProceed => Sys2Proof.Machine.execSoftResetProceed s
  | .enterListening => Sys2Proof.Machine.execEnterListening s
  | .defaultTargets => Sys2Proof.Machine.execDefaultTargets s
  | .tickOverrun eng => Sys2Proof.Machine.execTickOverrun eng s
  | .buildingTick t => Sys2Proof.Machine.execBuildingTick t s
  | .healthPulse parityErr boundaryLate => Sys2Proof.Machine.execHealthPulse parityErr boundaryLate s
  | .classTimeElapsed => Sys2Proof.Machine.execClassTimeElapsed s
  | .kaWatchdog p v => Sys2Proof.Machine.execKaWatchdog p v s
  | .watchdogExpiry => Sys2Proof.Machine.execWatchdogExpiry s
  | .admission n => Sys2Proof.Machine.execAdmit n s
  | .insertion => Sys2Proof.Machine.execInsertion s
  | .admitDone => Sys2Proof.Machine.execAdmitDone s
  | .admitFail => Sys2Proof.Machine.execAdmitFail s
  | .turn n => Sys2Proof.Machine.execTurn n s
  | .turnEnd n => Sys2Proof.Machine.execTurnEnd n s
  | .turnEffective side => Sys2Proof.Machine.execTurnEffective side s
  | .turnAuto side => Sys2Proof.Machine.execTurnAuto side s
  | .leave n => Sys2Proof.Machine.execLeave n s
  | .leaving => Sys2Proof.Machine.execLeaving s
  | .leaveReqTimeout => Sys2Proof.Machine.execLeaveReqTimeout s
  | .delayStep side => Sys2Proof.Machine.execDelayStep side s
  | .wordLock side words => Sys2Proof.Machine.execWordLock side words s
  | .wordLockLost side cause => Sys2Proof.Machine.execWordLockLost side cause s
  | .spanLos side pin cdrLock words => Sys2Proof.Machine.execSpanLos side pin cdrLock words s
  | .lossOfSignalEnd side pin w => Sys2Proof.Machine.execLossOfSignalEnd side pin w s
  | .cdrLock lane => Sys2Proof.Machine.execCdrLock lane s
  | .eqSweepDone lane spreads => Sys2Proof.Machine.execEqSweepDone lane spreads s
  | .eqTrack lane below now above => Sys2Proof.Machine.execEqTrack lane below now above s
  | .fillEnd side sent => Sys2Proof.Machine.execFillEnd side sent s
  | .headlandDecision side occ words => Sys2Proof.Machine.execHeadlandDecision side occ words s
  | .storeReset side => Sys2Proof.Machine.execStoreReset side s
  | .tickMarker side w at_ => Sys2Proof.Machine.execTickMarker side w at_ s
  | .tickMarkerMiss side stray => Sys2Proof.Machine.execTickMarkerMiss side stray s
  | .rowCheck side row words => Sys2Proof.Machine.execRowCheck side row words s
  | .spanRowLost frame row expired => Sys2Proof.Machine.execSpanRowLost frame row expired s
  | .frameHeader side words => Sys2Proof.Machine.execFrameHeader side words s
  | .generationEffective kind => Sys2Proof.Machine.execGenerationEffective kind s
  | .grantMap entries => Sys2Proof.Machine.execGrantMap entries s
  | .expressWord side w rowDir => Sys2Proof.Machine.execExpressWord side w rowDir s
  | .channelLastExpiry ch => Sys2Proof.Machine.execChannelLastExpiry ch s
  | .claimPrepared => Sys2Proof.Machine.execClaimPrepared s
  | .claim west east => Sys2Proof.Machine.execClaim west east s
  | .claimRetry => Sys2Proof.Machine.execClaimRetry s
  | .assign n => Sys2Proof.Machine.execAssign n s
  | .assignVerifyDone => Sys2Proof.Machine.execAssignVerifyDone s
  | .release n => Sys2Proof.Machine.execRelease n s
  | .grantTimeout => Sys2Proof.Machine.execGrantTimeout s
  | .rangeResult => Sys2Proof.Machine.execRangeResult s
  | .rangeReportRepeat => Sys2Proof.Machine.execRangeReportRepeat s
  | .rangeOk n => Sys2Proof.Machine.execRangeOk n s
  | .rangeRetry n => Sys2Proof.Machine.execRangeRetry n s
  | .rangeAdj n => Sys2Proof.Machine.execRangeAdj n s
  | .rangeRecompute => Sys2Proof.Machine.execRangeRecompute s
  | .delayStepStale => Sys2Proof.Machine.execDelayStepStale s
  | .flywheelEntry => Sys2Proof.Machine.execFlywheelEntry s
  | .flywheelExit pos => Sys2Proof.Machine.execFlywheelExit pos s
  | .timeMap n => Sys2Proof.Machine.execTimeMap n s
  | .noteMalformed hdr room => Sys2Proof.Machine.execNoteMalformed hdr room s
  | .noteUnknown n => Sys2Proof.Machine.execNoteUnknown n s
  | .mapDesc n => Sys2Proof.Machine.execMapDesc n s
  | .subscribe n => Sys2Proof.Machine.execSubscribe n s
  | .keyLoad n => Sys2Proof.Machine.execKeyLoad n s
  | .setting n => Sys2Proof.Machine.execSetting n s
  | .motionProfile n => Sys2Proof.Machine.execMotionProfile n s
  | .powerOrder n => Sys2Proof.Machine.execPowerOrder n s
  | .imageOrderSwap n => Sys2Proof.Machine.execImageOrderSwap n s
  | .imageOrderConfirm n => Sys2Proof.Machine.execImageOrderConfirm n s
  | .imageOrderRevert n => Sys2Proof.Machine.execImageOrderRevert n s
  | .resetOrder n => Sys2Proof.Machine.execResetOrder n s
  | .resetOrderDue => Sys2Proof.Machine.execResetOrderDue s
  | .statusReq n => Sys2Proof.Machine.execStatusReq n s
  | .hostMsgDn n => Sys2Proof.Machine.execHostMsgDn n s
  | .mapReq pending => Sys2Proof.Machine.execMapReq pending s
  | .noteUpExpired => Sys2Proof.Machine.execNoteUpExpired s
  | .burstLock late => Sys2Proof.Machine.execBurstLock late s
  | .windowWrite side buf rowDir rx => Sys2Proof.Machine.execWindowWrite side buf rowDir rx s
  | .burstBufferRelease buf => Sys2Proof.Machine.execBurstBufferRelease buf s
  | .cipherJobDone core at_ => Sys2Proof.Machine.execCipherJobDone core at_ s
  | .keyReady terminal gen => Sys2Proof.Machine.execKeyReady terminal gen s
  | .keyErase => Sys2Proof.Machine.execKeyErase s
  | .entropyFail samples => Sys2Proof.Machine.execEntropyFail samples s
  | .drbgReseed samples => Sys2Proof.Machine.execDrbgReseed samples s
  | .drbgStopped => Sys2Proof.Machine.execDrbgStopped s
  | .drbgReinstantiate samples => Sys2Proof.Machine.execDrbgReinstantiate samples s
  | .sigOpDone op => Sys2Proof.Machine.execSigOpDone op s
  | .thresherPacket => Sys2Proof.Machine.execThresherPacket s
  | .thUpdateSet h u => Sys2Proof.Machine.execThUpdateSet h u s
  | .thUpdateDelete h u => Sys2Proof.Machine.execThUpdateDelete h u s
  | .thUpdateCommit h u => Sys2Proof.Machine.execThUpdateCommit h u s
  | .tableSweep => Sys2Proof.Machine.execTableSweep s
  | .tableSweepDone => Sys2Proof.Machine.execTableSweepDone s
  | .deadlineDiscard => Sys2Proof.Machine.execDeadlineDiscard s
  | .holddownFlush port => Sys2Proof.Machine.execHolddownFlush port s
  | .qmIndWrite p v => Sys2Proof.Machine.execQmIndWrite p v s
  | .qmIndRead p v => Sys2Proof.Machine.execQmIndRead p v s
  | .qmIndDone => Sys2Proof.Machine.execQmIndDone s
  | .lowReload p v => Sys2Proof.Machine.execLowReload p v s
  | .run p v => Sys2Proof.Machine.execRun p v s
  | .firmwareRun => Sys2Proof.Machine.execFirmwareRun s
  | .hreStart p v => Sys2Proof.Machine.execHreStart p v s
  | .hreStop p v => Sys2Proof.Machine.execHreStop p v s
  | .orderlyStopDone => Sys2Proof.Machine.execOrderlyStopDone s
  | .hostAbsent => Sys2Proof.Machine.execHostAbsent s
  | .pollPoint k pci stFault => Sys2Proof.Machine.execPollPoint k pci stFault s
  | .doorbellReadDone d => Sys2Proof.Machine.execDoorbellReadDone d s
  | .txDescriptor q d => Sys2Proof.Machine.execTxDescriptor q d s
  | .txDataReadDone q d => Sys2Proof.Machine.execTxDataReadDone q d s
  | .hostDelivery n fl => Sys2Proof.Machine.execHostDelivery n fl s
  | .nop h => Sys2Proof.Machine.execNop h s
  | .wait h t => Sys2Proof.Machine.execWait h t s
  | .harvest h addr => Sys2Proof.Machine.execHarvest h addr s
  | .harvestSnapshot fault => Sys2Proof.Machine.execHarvestSnapshot fault s
  | .clearLedger h groups => Sys2Proof.Machine.execClearLedger h groups s
  | .qmWrite h obj idx rec t => Sys2Proof.Machine.execQmWrite h obj idx rec t s
  | .stagedWrite h off v t => Sys2Proof.Machine.execStagedWrite h off v t s
  | .leaveCommand h => Sys2Proof.Machine.execLeaveCommand h s
  | .hostMsg h len d => Sys2Proof.Machine.execHostMsg h len d s
  | .settingWrite h len d fault => Sys2Proof.Machine.execSettingWrite h len d fault s
  | .settingRead h addr len d fault => Sys2Proof.Machine.execSettingRead h addr len d fault s
  | .settingDelete h len d => Sys2Proof.Machine.execSettingDelete h len d s
  | .imageWriteStaging h len off d => Sys2Proof.Machine.execImageWriteStaging h len off d s
  | .imageVerify h => Sys2Proof.Machine.execImageVerify h s
  | .imageSwap h t => Sys2Proof.Machine.execImageSwap h t s
  | .imageConfirm h => Sys2Proof.Machine.execImageConfirm h s
  | .imageRevert h => Sys2Proof.Machine.execImageRevert h s
  | .softResetCommand h key => Sys2Proof.Machine.execSoftResetCommand h key s
  | .ringRestart h ring => Sys2Proof.Machine.execRingRestart h ring s
  | .badOpcode h op action => Sys2Proof.Machine.execBadOpcode h op action s
  | .intxPend p v => Sys2Proof.Machine.execIntxPend p v s
  | .ringStopped ring cause => Sys2Proof.Machine.execRingStopped ring cause s
  | .hostReset kind => Sys2Proof.Machine.execHostReset kind s
  | .linkUp port => Sys2Proof.Machine.execLinkUp port s
  | .linkDown port txCut rxCut => Sys2Proof.Machine.execLinkDown port txCut rxCut s
  | .anBasePage port page => Sys2Proof.Machine.execAnBasePage port page s
  | .sgmiiWord port word => Sys2Proof.Machine.execSgmiiWord port word s
  | .anRestart port => Sys2Proof.Machine.execAnRestart port s
  | .ethFrameRx port bytes codeErr cap => Sys2Proof.Machine.execEthFrameRx port bytes codeErr cap s
  | .pause port bytes => Sys2Proof.Machine.execPause port bytes s
  | .pauseEnd port => Sys2Proof.Machine.execPauseEnd port s
  | .frameTransmit port txCap => Sys2Proof.Machine.execFrameTransmit port txCap s
  | .ptpRx port txCap => Sys2Proof.Machine.execPtpRx port txCap s
  | .ptpMessageDue port kind txCap => Sys2Proof.Machine.execPtpMessageDue port kind txCap s
  | .announceReceiptTimeout port => Sys2Proof.Machine.execAnnounceReceiptTimeout port s
  | .holdoverExpiry => Sys2Proof.Machine.execHoldoverExpiry s
  | .dmxBreak u => Sys2Proof.Machine.execDmxBreak u s
  | .rdmTransaction u => Sys2Proof.Machine.execRdmTransaction u s
  | .rdmTransactionEnd u bytes framingErr => Sys2Proof.Machine.execRdmTransactionEnd u bytes framingErr s
  | .rdmDiscovery u => Sys2Proof.Machine.execRdmDiscovery u s
  | .dmxRxPacket u start breakUs mabUs framingErr bytes => Sys2Proof.Machine.execDmxRxPacket u start breakUs mabUs framingErr bytes s
  | .dmxLoss u => Sys2Proof.Machine.execDmxLoss u s
  | .ltcFrame k => Sys2Proof.Machine.execLtcFrame k s
  | .ltcRxCodeword k at_ bits reverse rate good => Sys2Proof.Machine.execLtcRxCodeword k at_ bits reverse rate good s
  | .midiTxByte k => Sys2Proof.Machine.execMidiTxByte k s
  | .midiRxByte k at_ b framingErr => Sys2Proof.Machine.execMidiRxByte k at_ b framingErr s
  | .cueEdge n closed at_ => Sys2Proof.Machine.execCueEdge n closed at_ s
  | .cuePulseEnd n => Sys2Proof.Machine.execCuePulseEnd n s
  | .genlockEdge k => Sys2Proof.Machine.execGenlockEdge k s
  | .setpointLoss ax => Sys2Proof.Machine.execSetpointLoss ax s
  | .brakeRelease ax => Sys2Proof.Machine.execBrakeRelease ax s
  | .enablingDone ax => Sys2Proof.Machine.execEnablingDone ax s
  | .encError ax => Sys2Proof.Machine.execEncError ax s
  | .indexEdge ax delta => Sys2Proof.Machine.execIndexEdge ax delta s
  | .limit ax pHigh nHigh => Sys2Proof.Machine.execLimit ax pHigh nHigh s
  | .driveFault ax high => Sys2Proof.Machine.execDriveFault ax high s
  | .hold low us => Sys2Proof.Machine.execHold low us s
  | .followingError ax => Sys2Proof.Machine.execFollowingError ax s
  | .softLimit ax => Sys2Proof.Machine.execSoftLimit ax s
  | .profileEnd ax => Sys2Proof.Machine.execProfileEnd ax s
  | .rundownEnd ax => Sys2Proof.Machine.execRundownEnd ax s
  | .brakeSetExpiry ax => Sys2Proof.Machine.execBrakeSetExpiry ax s
  | .motCut ax => Sys2Proof.Machine.execMotCut ax s
  | .posWrite p ax enc v => Sys2Proof.Machine.execPosWrite p ax enc v s
  | .slotHalfStart => Sys2Proof.Machine.execSlotHalfStart s
  | .sampleDone input va vb => Sys2Proof.Machine.execSampleDone input va vb s
  | .afeCalStart p v => Sys2Proof.Machine.execAfeCalStart p v s
  | .afeCalDone sums => Sys2Proof.Machine.execAfeCalDone sums s
  | .afePfoFault k => Sys2Proof.Machine.execAfePfoFault k s
  | .pwrTarget p k v => Sys2Proof.Machine.execPwrTarget p k v s
  | .powerTransition => Sys2Proof.Machine.execPowerTransition s
  | .pwrDone => Sys2Proof.Machine.execPwrDone s
  | .spanWakeSet lane words => Sys2Proof.Machine.execSpanWakeSet lane words s
  | .laneActivityWake port => Sys2Proof.Machine.execLaneActivityWake port s
  | .cueWake n closing => Sys2Proof.Machine.execCueWake n closing s
  | .ktimerCfg p v => Sys2Proof.Machine.execKtimerCfg p v s
  | .keeperTimerExpiry => Sys2Proof.Machine.execKeeperTimerExpiry s
  | .zwirdoAddressMatch byte stop => Sys2Proof.Machine.execZwirdoAddressMatch byte stop s
  | .status t => Sys2Proof.Machine.execStatus t s
  | .ident t => Sys2Proof.Machine.execIdent t s
  | .fprint t => Sys2Proof.Machine.execFprint t s
  | .last t => Sys2Proof.Machine.execLast t s
  | .regRead t => Sys2Proof.Machine.execRegRead t s
  | .regWrite t => Sys2Proof.Machine.execRegWrite t s
  | .zwdSoftReset t => Sys2Proof.Machine.execZwdSoftReset t s
  | .flashXfer t rx => Sys2Proof.Machine.execFlashXfer t rx s
  | .mboxPut t => Sys2Proof.Machine.execMboxPut t s
  | .mboxRunWrite t => Sys2Proof.Machine.execMboxRunWrite t s
  | .mboxRunRead t => Sys2Proof.Machine.execMboxRunRead t s
  | .mboxRunDelete t => Sys2Proof.Machine.execMboxRunDelete t s
  | .mboxDone fault => Sys2Proof.Machine.execMboxDone fault s
  | .mboxGet t => Sys2Proof.Machine.execMboxGet t s
  | .mboxStatus t => Sys2Proof.Machine.execMboxStatus t s
  | .alertRead t => Sys2Proof.Machine.execAlertRead t s
  | .alertResponse wins => Sys2Proof.Machine.execAlertResponse wins s
  | .zwdTimeout => Sys2Proof.Machine.execZwdTimeout s
  | .zwdUnknownCommand cmd => Sys2Proof.Machine.execZwdUnknownCommand cmd s
  | .carouselPiece words => Sys2Proof.Machine.execCarouselPiece words s
  | .pieceProgram fault => Sys2Proof.Machine.execPieceProgram fault s
  | .gleanVerify => Sys2Proof.Machine.execGleanVerify s
  | .swapTick => Sys2Proof.Machine.execSwapTick s
  | .trialExpired => Sys2Proof.Machine.execTrialExpired s
  | .lanePrbsCfg p lane v => Sys2Proof.Machine.execLanePrbsCfg p lane v s
  | .laneLoop p lane v => Sys2Proof.Machine.execLaneLoop p lane v s
  | .laneTestStart lane => Sys2Proof.Machine.execLaneTestStart lane s
  | .laneTestEnd lane => Sys2Proof.Machine.execLaneTestEnd lane s
  | .checkerLock lane bits => Sys2Proof.Machine.execCheckerLock lane bits s
  | .syncLoss lane bits => Sys2Proof.Machine.execSyncLoss lane bits s
  | .injectSingle p lane v => Sys2Proof.Machine.execInjectSingle p lane v s
  | .injectBurst p lane v => Sys2Proof.Machine.execInjectBurst p lane v s
  | .injectContinuous p lane v => Sys2Proof.Machine.execInjectContinuous p lane v s
  | .injectStop p lane v => Sys2Proof.Machine.execInjectStop p lane v s
  | .ledgerClear p v => Sys2Proof.Machine.execLedgerClear p v s
  | .ledgerClearApply => Sys2Proof.Machine.execLedgerClearApply s
  | .extest pins scan => Sys2Proof.Machine.execExtest pins scan s
  | .samplePreload pins scan => Sys2Proof.Machine.execSamplePreload pins scan s
  | .highz => Sys2Proof.Machine.execHighz s
  | .clamp => Sys2Proof.Machine.execClamp s
  | .bypass code => Sys2Proof.Machine.execBypass code s
  | .leaveReqRepeat => Sys2Proof.Machine.execLeaveReqRepeat s
  | .entropyRetestPass samples => Sys2Proof.Machine.execEntropyRetestPass samples s
  | .qualificationTimeout port => Sys2Proof.Machine.execQualificationTimeout port s

end Sys2Proof.Machine
end

