-- ==== Sys2Proof/Reach.lean ====
section
/-! DEFINITION. What a command may reach: a set of registers and of parts of the state, as the bits of a number, and what
it means that everything outside the set is unchanged. The frame statements speak of these. -/

namespace Sys2Proof.Reach

open Sys2Proof.Machine

/-- One register, or an array of them: first offset, distance, number. -/
structure Row where
  base : Nat
  stride : Nat
  count : Nat
deriving DecidableEq, Repr

/-- Is the offset one of the row's registers. -/
def Row.has (r : Row) (off : Nat) : Bool :=
  decide (r.base ≤ off) && (off - r.base) % r.stride == 0 && decide ((off - r.base) / r.stride < r.count)

/-! ### The registers, each with its bit: row `i` has bit `32 + i`. A register that stands alone is an array of one. -/

def rows0 : List Row := [
  ⟨0x0, 0x8, 1⟩,
  ⟨0x1700, 0x8, 1⟩,
  ⟨0x1708, 0x8, 1⟩,
  ⟨0x1710, 0x8, 1⟩,
  ⟨0x1718, 0x8, 1⟩,
  ⟨0x8, 0x8, 1⟩,
  ⟨0x10, 0x8, 1⟩,
  ⟨0x18, 0x8, 1⟩,
  ⟨0x20, 0x8, 1⟩,
  ⟨0x28, 0x8, 1⟩,
  ⟨0x30, 0x8, 1⟩,
  ⟨0x38, 0x8, 1⟩,
  ⟨0x40, 0x8, 1⟩,
  ⟨0x48, 0x8, 1⟩,
  ⟨0x58, 0x8, 1⟩,
  ⟨0x60, 0x8, 1⟩,
  ⟨0x68, 0x8, 7⟩,
  ⟨0x1600, 0x8, 1⟩,
  ⟨0x1608, 0x8, 1⟩,
  ⟨0x1610, 0x8, 1⟩,
  ⟨0x1618, 0x8, 1⟩,
  ⟨0x1620, 0x8, 1⟩,
  ⟨0x1000, 0x8, 1⟩,
  ⟨0x1008, 0x8, 1⟩ ]

def rows1 : List Row := [
  ⟨0x1100, 0x8, 1⟩,
  ⟨0x1108, 0x8, 1⟩,
  ⟨0x1800, 0x80, 8⟩,
  ⟨0x1808, 0x80, 8⟩,
  ⟨0x1810, 0x80, 8⟩,
  ⟨0x1200, 0x8, 1⟩,
  ⟨0x1208, 0x8, 1⟩,
  ⟨0x1210, 0x8, 1⟩,
  ⟨0x1218, 0x8, 1⟩,
  ⟨0x1300, 0x8, 1⟩,
  ⟨0x1308, 0x8, 1⟩,
  ⟨0x1310, 0x8, 1⟩,
  ⟨0x1318, 0x8, 1⟩,
  ⟨0x1320, 0x8, 1⟩,
  ⟨0x1720, 0x8, 1⟩,
  ⟨0x1728, 0x8, 1⟩,
  ⟨0x1730, 0x8, 1⟩,
  ⟨0x1738, 0x8, 1⟩,
  ⟨0x1400, 0x8, 1⟩,
  ⟨0x1408, 0x8, 1⟩,
  ⟨0x1500, 0x8, 1⟩,
  ⟨0x1508, 0x8, 1⟩,
  ⟨0x1510, 0x8, 1⟩,
  ⟨0x3800, 0x8, 1⟩ ]

def rows2 : List Row := [
  ⟨0x3808, 0x8, 1⟩,
  ⟨0x3810, 0x8, 1⟩,
  ⟨0x3818, 0x8, 1⟩,
  ⟨0x3820, 0x8, 1⟩,
  ⟨0x3828, 0x8, 1⟩,
  ⟨0x2800, 0x8, 1⟩,
  ⟨0x2840, 0x8, 16⟩,
  ⟨0x28c0, 0x8, 16⟩,
  ⟨0x2940, 0x8, 1⟩,
  ⟨0x2948, 0x8, 1⟩,
  ⟨0x2950, 0x8, 1⟩,
  ⟨0x2960, 0x8, 4⟩,
  ⟨0x2980, 0x8, 1⟩,
  ⟨0x3000, 0x8, 1⟩,
  ⟨0x3008, 0x8, 1⟩,
  ⟨0x3010, 0x8, 1⟩,
  ⟨0x3018, 0x8, 1⟩,
  ⟨0x3020, 0x8, 1⟩,
  ⟨0x3028, 0x8, 1⟩,
  ⟨0x3030, 0x8, 1⟩,
  ⟨0x3038, 0x8, 1⟩,
  ⟨0x50, 0x8, 1⟩,
  ⟨0x2000, 0x8, 1⟩,
  ⟨0x2008, 0x8, 1⟩ ]

def rows3 : List Row := [
  ⟨0x2010, 0x8, 1⟩,
  ⟨0x2018, 0x8, 1⟩,
  ⟨0x2020, 0x8, 1⟩,
  ⟨0x2028, 0x8, 1⟩,
  ⟨0x2030, 0x8, 1⟩,
  ⟨0x2038, 0x8, 1⟩,
  ⟨0x2040, 0x8, 1⟩,
  ⟨0x4000, 0x40, 6⟩,
  ⟨0x4008, 0x40, 6⟩,
  ⟨0x4010, 0x40, 6⟩,
  ⟨0x4200, 0x8, 1⟩,
  ⟨0x4208, 0x8, 1⟩,
  ⟨0x4210, 0x8, 1⟩,
  ⟨0x4800, 0x8, 1⟩,
  ⟨0x4808, 0x8, 1⟩,
  ⟨0x4840, 0x8, 8⟩,
  ⟨0x4900, 0x8, 8⟩,
  ⟨0x4940, 0x8, 1⟩,
  ⟨0x4980, 0x8, 2⟩,
  ⟨0x4990, 0x8, 2⟩,
  ⟨0x49a0, 0x8, 2⟩,
  ⟨0x49b0, 0x8, 2⟩,
  ⟨0x49c0, 0x8, 2⟩,
  ⟨0x4a00, 0x8, 1⟩ ]

def rows4 : List Row := [
  ⟨0x4a08, 0x8, 1⟩,
  ⟨0x4a10, 0x8, 1⟩,
  ⟨0x4a80, 0x8, 32⟩,
  ⟨0x4c00, 0x10, 4⟩,
  ⟨0x4c08, 0x10, 4⟩,
  ⟨0x5000, 0x100, 2⟩,
  ⟨0x5008, 0x100, 2⟩,
  ⟨0x5010, 0x100, 2⟩,
  ⟨0x5018, 0x100, 2⟩,
  ⟨0x5038, 0x100, 2⟩,
  ⟨0x5020, 0x100, 2⟩,
  ⟨0x5028, 0x100, 2⟩,
  ⟨0x5030, 0x100, 2⟩,
  ⟨0x5040, 0x100, 2⟩,
  ⟨0x5048, 0x100, 2⟩,
  ⟨0x5050, 0x100, 2⟩,
  ⟨0x5058, 0x100, 2⟩,
  ⟨0x5060, 0x100, 2⟩,
  ⟨0x5068, 0x100, 2⟩,
  ⟨0x5200, 0x8, 1⟩,
  ⟨0x5800, 0x8, 1⟩,
  ⟨0x5808, 0x8, 1⟩,
  ⟨0x5840, 0x10, 16⟩,
  ⟨0x5848, 0x10, 16⟩ ]

def rows5 : List Row := [
  ⟨0x5a00, 0x8, 96⟩,
  ⟨0x5d00, 0x8, 13⟩,
  ⟨0x5d80, 0x8, 1⟩,
  ⟨0x5d88, 0x8, 1⟩,
  ⟨0x5e00, 0x8, 16⟩,
  ⟨0x5f00, 0x40, 4⟩,
  ⟨0x5f08, 0x40, 4⟩,
  ⟨0x5f10, 0x40, 4⟩,
  ⟨0x5f18, 0x40, 4⟩,
  ⟨0x5f20, 0x40, 4⟩,
  ⟨0x8c0, 0x8, 1⟩,
  ⟨0x8c8, 0x8, 1⟩,
  ⟨0x8d0, 0x8, 1⟩,
  ⟨0x8d8, 0x8, 1⟩,
  ⟨0x8e0, 0x8, 1⟩,
  ⟨0x8e8, 0x8, 1⟩,
  ⟨0x8f0, 0x8, 1⟩,
  ⟨0x7000, 0x8, 1⟩,
  ⟨0x7008, 0x8, 1⟩,
  ⟨0x7010, 0x8, 1⟩,
  ⟨0x7018, 0x8, 1⟩,
  ⟨0x6800, 0x8, 1⟩,
  ⟨0x6808, 0x8, 1⟩,
  ⟨0x6810, 0x8, 1⟩ ]

def rows6 : List Row := [
  ⟨0x6818, 0x8, 1⟩,
  ⟨0x6820, 0x8, 1⟩,
  ⟨0x6828, 0x8, 1⟩,
  ⟨0x1820, 0x80, 8⟩,
  ⟨0x1828, 0x80, 8⟩,
  ⟨0x1830, 0x80, 8⟩,
  ⟨0x1838, 0x80, 8⟩,
  ⟨0x1840, 0x80, 8⟩,
  ⟨0x1848, 0x80, 8⟩,
  ⟨0x6700, 0x8, 16⟩,
  ⟨0x6780, 0x8, 1⟩,
  ⟨0x6788, 0x8, 1⟩,
  ⟨0x2080, 0x8, 1⟩,
  ⟨0x2088, 0x8, 1⟩,
  ⟨0x2090, 0x8, 1⟩,
  ⟨0x2098, 0x8, 1⟩,
  ⟨0x2100, 0x10, 16⟩,
  ⟨0x2108, 0x10, 16⟩,
  ⟨0x2200, 0x10, 16⟩,
  ⟨0x2208, 0x10, 16⟩,
  ⟨0x2300, 0x10, 16⟩,
  ⟨0x2308, 0x10, 16⟩,
  ⟨0x6000, 0x8, 222⟩,
  ⟨0x800, 0x8, 24⟩ ]

def rows7 : List Row := [
  ⟨0x4400, 0x8, 96⟩ ]

/-- All rows, in the order of their bits. -/
def rows : List Row :=
  rows0 ++ rows1 ++ rows2 ++ rows3 ++ rows4 ++ rows5 ++ rows6 ++ rows7

def T.DEVICE_IDENT : Nat := 2 ^ 32
def T.TIME_NOW : Nat := 2 ^ 33
def T.TIME_EPOCH_SNAP : Nat := 2 ^ 34
def T.TIME_STATUS : Nat := 2 ^ 35
def T.TICK_OVERRUN_STATUS : Nat := 2 ^ 36
def T.STRAP_LATCH : Nat := 2 ^ 37
def T.TERM_STATE : Nat := 2 ^ 38
def T.RESET_CAUSE : Nat := 2 ^ 39
def T.SELFTEST_RESULT : Nat := 2 ^ 40
def T.SELFTEST_FLAGS : Nat := 2 ^ 41
def T.SOFT_RESET : Nat := 2 ^ 42
def T.BOOT_STATUS : Nat := 2 ^ 43
def T.BOOT_LOAD_ADDR : Nat := 2 ^ 44
def T.BOOT_LOAD_CTRL : Nat := 2 ^ 45
def T.FLASH_BRIDGE_CTRL : Nat := 2 ^ 46
def T.FLASH_BRIDGE_ADDR : Nat := 2 ^ 47
def T.FLASH_BRIDGE_DATA : Nat := 2 ^ 48
def T.BYPASS_CFG : Nat := 2 ^ 49
def T.BYPASS_STATUS : Nat := 2 ^ 50
def T.ADMIT_FPRINT : Nat := 2 ^ 51
def T.ADMIT_TICK : Nat := 2 ^ 52
def T.KA_WATCHDOG : Nat := 2 ^ 53
def T.SPAN_CFG : Nat := 2 ^ 54
def T.SPAN_WAKE : Nat := 2 ^ 55
def T.REP_STATUS_W : Nat := 2 ^ 56
def T.REP_STATUS_E : Nat := 2 ^ 57
def T.LANE_EQ : Nat := 2 ^ 58
def T.LANE_TX : Nat := 2 ^ 59
def T.LANE_STATUS : Nat := 2 ^ 60
def T.FRAME_STATUS : Nat := 2 ^ 61
def T.FRAME_GEN : Nat := 2 ^ 62
def T.MAP_STATUS : Nat := 2 ^ 63
def T.SEL_CFG : Nat := 2 ^ 64
def T.REG_STATUS : Nat := 2 ^ 65
def T.CLAIM_NONCE : Nat := 2 ^ 66
def T.RANGE_E : Nat := 2 ^ 67
def T.RANGE_W : Nat := 2 ^ 68
def T.RANGE_STATUS : Nat := 2 ^ 69
def T.TAI_ORIGIN_CYCLE : Nat := 2 ^ 70
def T.TAI_ORIGIN_SEC : Nat := 2 ^ 71
def T.TAI_ORIGIN_NS : Nat := 2 ^ 72
def T.TAI_UTC : Nat := 2 ^ 73
def T.NOTE_SEQ : Nat := 2 ^ 74
def T.NOTE_UP_STATUS : Nat := 2 ^ 75
def T.WIN_STATUS : Nat := 2 ^ 76
def T.WIN_LAST_GRANT : Nat := 2 ^ 77
def T.WIN_CFG : Nat := 2 ^ 78
def T.CIPHER_CFG : Nat := 2 ^ 79
def T.KEY_STATUS : Nat := 2 ^ 80
def T.CIPHER_LOAD : Nat := 2 ^ 81
def T.ENTROPY_STATUS : Nat := 2 ^ 82
def T.DRBG_STATUS : Nat := 2 ^ 83
def T.SIG_STATUS : Nat := 2 ^ 84
def T.TH_PORT_CLASS : Nat := 2 ^ 85
def T.TH_CLASS_CFG : Nat := 2 ^ 86
def T.TH_PROFILE : Nat := 2 ^ 87
def T.TH_PUNT_LEARN : Nat := 2 ^ 88
def T.TH_PUNT_FAULT : Nat := 2 ^ 89
def T.TH_UPDATE_STATUS : Nat := 2 ^ 90
def T.TH_TABLE_STATUS : Nat := 2 ^ 91
def T.TH_CFG_STATUS : Nat := 2 ^ 92
def T.GRAN_BANK_CFG : Nat := 2 ^ 93
def T.GRAN_STATUS : Nat := 2 ^ 94
def T.QM_OVERHEAD : Nat := 2 ^ 95
def T.QM_HOLDDOWN : Nat := 2 ^ 96
def T.QM_IND_SEL : Nat := 2 ^ 97
def T.QM_IND_DATA0 : Nat := 2 ^ 98
def T.QM_IND_DATA1 : Nat := 2 ^ 99
def T.QM_IND_DATA2 : Nat := 2 ^ 100
def T.RUN_CTRL : Nat := 2 ^ 101
def T.PCIE_CTRL : Nat := 2 ^ 102
def T.RING_MODE : Nat := 2 ^ 103
def T.HRE_CTRL : Nat := 2 ^ 104
def T.HRE_STATUS : Nat := 2 ^ 105
def T.HRE_STOPPED : Nat := 2 ^ 106
def T.DB_PAGE : Nat := 2 ^ 107
def T.ST_PAGE : Nat := 2 ^ 108
def T.INT_CFG : Nat := 2 ^ 109
def T.CMD_SEQ : Nat := 2 ^ 110
def T.ETH_CFG : Nat := 2 ^ 111
def T.ETH_STATUS : Nat := 2 ^ 112
def T.ETH_PTP_ADJ : Nat := 2 ^ 113
def T.PTP_CFG : Nat := 2 ^ 114
def T.PTP_INTERVALS : Nat := 2 ^ 115
def T.PTP_STATUS : Nat := 2 ^ 116
def T.SHOW_CFG : Nat := 2 ^ 117
def T.SHOW_STATUS : Nat := 2 ^ 118
def T.TDM_CFG : Nat := 2 ^ 119
def T.DMX_CFG : Nat := 2 ^ 120
def T.DMX_TIMING : Nat := 2 ^ 121
def T.LTC_CFG : Nat := 2 ^ 122
def T.LTC_START : Nat := 2 ^ 123
def T.LTC_ORIGIN : Nat := 2 ^ 124
def T.LTC_RX : Nat := 2 ^ 125
def T.MIDI_CFG : Nat := 2 ^ 126
def T.CUE_CFG : Nat := 2 ^ 127
def T.CUE_OUT_CFG : Nat := 2 ^ 128
def T.CUE_STATE : Nat := 2 ^ 129
def T.EXPRESS_MAP : Nat := 2 ^ 130
def T.GEN_CFG : Nat := 2 ^ 131
def T.GEN_PULSE : Nat := 2 ^ 132
def T.AX_CFG : Nat := 2 ^ 133
def T.AX_TIMING : Nat := 2 ^ 134
def T.AX_VMAX : Nat := 2 ^ 135
def T.AX_AMAX : Nat := 2 ^ 136
def T.AX_PWM_FS : Nat := 2 ^ 137
def T.AX_RD_CFG : Nat := 2 ^ 138
def T.AX_RD_LIMIT : Nat := 2 ^ 139
def T.AX_PWM : Nat := 2 ^ 140
def T.AX_SOFT_MIN : Nat := 2 ^ 141
def T.AX_SOFT_MAX : Nat := 2 ^ 142
def T.AX_POS_CMD : Nat := 2 ^ 143
def T.AX_POS_ENC : Nat := 2 ^ 144
def T.AX_INDEX : Nat := 2 ^ 145
def T.AX_STATUS : Nat := 2 ^ 146
def T.MOT_HOLD : Nat := 2 ^ 147
def T.AFE_CFG : Nat := 2 ^ 148
def T.AFE_STATUS : Nat := 2 ^ 149
def T.AFE_SLOT_CFG : Nat := 2 ^ 150
def T.AFE_SLOT_PINS : Nat := 2 ^ 151
def T.AFE_LIN : Nat := 2 ^ 152
def T.AFE_CAL : Nat := 2 ^ 153
def T.AFE_CAL_CTRL : Nat := 2 ^ 154
def T.AFE_DIE_TEMP : Nat := 2 ^ 155
def T.AFE_RESULT : Nat := 2 ^ 156
def T.PFO_CFG : Nat := 2 ^ 157
def T.PFO_Y0 : Nat := 2 ^ 158
def T.PFO_Y1 : Nat := 2 ^ 159
def T.PFO_OUT0 : Nat := 2 ^ 160
def T.PFO_OUT1 : Nat := 2 ^ 161
def T.PWR_PENDING : Nat := 2 ^ 162
def T.WAKE_CFG : Nat := 2 ^ 163
def T.WAKE_MASK : Nat := 2 ^ 164
def T.WAKE_STATUS : Nat := 2 ^ 165
def T.KTIMER_CFG : Nat := 2 ^ 166
def T.KTIMER_STATUS : Nat := 2 ^ 167
def T.KEEPER_RC : Nat := 2 ^ 168
def T.ZWD_ADDR : Nat := 2 ^ 169
def T.ZWD_CFG : Nat := 2 ^ 170
def T.ZWD_ALERT : Nat := 2 ^ 171
def T.ZWD_STATUS : Nat := 2 ^ 172
def T.GLEAN_CFG : Nat := 2 ^ 173
def T.GLEAN_STATUS : Nat := 2 ^ 174
def T.IMAGE_RUNNING : Nat := 2 ^ 175
def T.IMAGE_STAGED : Nat := 2 ^ 176
def T.FLASH_INFO : Nat := 2 ^ 177
def T.SETTINGS_STATUS : Nat := 2 ^ 178
def T.LANE_PRBS_CFG : Nat := 2 ^ 179
def T.LANE_PRBS_STATUS : Nat := 2 ^ 180
def T.LANE_PRBS_BITS : Nat := 2 ^ 181
def T.LANE_PRBS_ERR : Nat := 2 ^ 182
def T.LANE_INJECT : Nat := 2 ^ 183
def T.LANE_LOOP : Nat := 2 ^ 184
def T.LEDGER_GRP_SAT : Nat := 2 ^ 185
def T.LEDGER_SUMMARY : Nat := 2 ^ 186
def T.LEDGER_CLEAR : Nat := 2 ^ 187
def T.CMD_BASE : Nat := 2 ^ 188
def T.CMD_CFG : Nat := 2 ^ 189
def T.EVT_BASE : Nat := 2 ^ 190
def T.EVT_CFG : Nat := 2 ^ 191
def T.TXQ_BASE : Nat := 2 ^ 192
def T.TXQ_CFG : Nat := 2 ^ 193
def T.RXQ_BASE : Nat := 2 ^ 194
def T.RXQ_CFG : Nat := 2 ^ 195
def T.FL_BASE : Nat := 2 ^ 196
def T.FL_CFG : Nat := 2 ^ 197
def T.COUNTER : Nat := 2 ^ 198
def T.PWR_TARGET : Nat := 2 ^ 199
def T.PORT_COUNTER : Nat := 2 ^ 200

/-! ### The parts of the state, each with its bit, and any register at all. -/

def T.term : Nat := 2 ^ 0
def T.pcie : Nat := 2 ^ 1
def T.zwirdo : Nat := 2 ^ 2
def T.mgmt : Nat := 2 ^ 3
def T.line : Nat := 2 ^ 4
def T.bt : Nat := 2 ^ 5
def T.staged : Nat := 2 ^ 6
def T.boot : Nat := 2 ^ 7
def T.byp : Nat := 2 ^ 8
def T.frame : Nat := 2 ^ 9
def T.regn : Nat := 2 ^ 10
def T.note : Nat := 2 ^ 11
def T.win : Nat := 2 ^ 12
def T.key : Nat := 2 ^ 13
def T.th : Nat := 2 ^ 14
def T.q : Nat := 2 ^ 15
def T.host : Nat := 2 ^ 16
def T.eth : Nat := 2 ^ 17
def T.show_ : Nat := 2 ^ 18
def T.mot : Nat := 2 ^ 19
def T.afe : Nat := 2 ^ 20
def T.pwr : Nat := 2 ^ 21
def T.zwd : Nat := 2 ^ 22
def T.glean : Nat := 2 ^ 23
def T.lanes : Nat := 2 ^ 24
def T.ledger : Nat := 2 ^ 25
def T.jtag : Nat := 2 ^ 26
def T.flash : Nat := 2 ^ 27
def T.freeCtr : Nat := 2 ^ 28
def T.out : Nat := 2 ^ 29
def T.span : Nat := 2 ^ 30
def T.wrote : Nat := 2 ^ 201
/-- Any register at all: every row's bit, and bit 31 for a register that no row names. -/
def T.anyReg : Nat := 2 ^ 201 - 2 ^ 31

/-- Does the set name a row of `l`, numbered from bit `i`, that has the offset. -/
def anyRow : List Row → Nat → Nat → Nat → Bool
  | [], _, _, _ => false
  | r :: l, i, m, off => (m.testBit i && r.has off) || anyRow l (i + 1) m off

/-- Does the set name the register. -/
def reg (m off : Nat) : Bool := m.testBit 31 || anyRow rows 32 m off

/-- Everything outside the set is as before. -/
structure Unchanged (m : Nat) (s t : State) : Prop where
  regs : ∀ off, Reach.reg m off = false → Machine.reg off t = Machine.reg off s
  term : m.testBit 0 = false → t.term = s.term
  pcie : m.testBit 1 = false → t.pcie = s.pcie
  zwirdo : m.testBit 2 = false → t.zwirdo = s.zwirdo
  mgmt : m.testBit 3 = false → t.mgmt = s.mgmt
  line : m.testBit 4 = false → t.line = s.line
  bt : m.testBit 5 = false → t.bt = s.bt
  staged : m.testBit 6 = false → t.staged = s.staged
  boot : m.testBit 7 = false → t.boot = s.boot
  byp : m.testBit 8 = false → t.byp = s.byp
  frame : m.testBit 9 = false → t.frame = s.frame
  regn : m.testBit 10 = false → t.regn = s.regn
  note : m.testBit 11 = false → t.note = s.note
  win : m.testBit 12 = false → t.win = s.win
  key : m.testBit 13 = false → t.key = s.key
  th : m.testBit 14 = false → t.th = s.th
  q : m.testBit 15 = false → t.q = s.q
  host : m.testBit 16 = false → t.host = s.host
  eth : m.testBit 17 = false → t.eth = s.eth
  show_ : m.testBit 18 = false → t.show_ = s.show_
  mot : m.testBit 19 = false → t.mot = s.mot
  afe : m.testBit 20 = false → t.afe = s.afe
  pwr : m.testBit 21 = false → t.pwr = s.pwr
  zwd : m.testBit 22 = false → t.zwd = s.zwd
  glean : m.testBit 23 = false → t.glean = s.glean
  lanes : m.testBit 24 = false → t.lanes = s.lanes
  ledger : m.testBit 25 = false → t.ledger = s.ledger
  jtag : m.testBit 26 = false → t.jtag = s.jtag
  flash : m.testBit 27 = false → t.flash = s.flash
  freeCtr : m.testBit 28 = false → t.freeCtr = s.freeCtr
  out : m.testBit 29 = false → t.out = s.out
  span : m.testBit 30 = false → t.span = s.span
  wrote : m.testBit 201 = false → t.wrote = s.wrote

end Sys2Proof.Reach
end

