-- ==== Sys2Proof/Claims.lean ====
section
/-! DEFINITION. What the statements about commands speak of: what each command may reach, a counter's count, and an event
that waits. -/

namespace Sys2Proof.Claims

open Sys2Proof Sys2Proof.Machine Sys2Proof.Reach

/-- R461: counter `i` has counted `n` more, standing at its largest value. -/
def Tallied (i n : Nat) (s t : State) : Prop :=
  Machine.reg (counterAddr i) t = BitVec.ofNat 40 (min countMax ((Machine.reg (counterAddr i) s).toNat + n))

/-- R302: an event with this code and ARG0 waits to be written. -/
def Waits (code arg0 : Nat) (t : State) : Prop := ∃ e ∈ t.host.events, e.code = code ∧ e.arg0 = arg0

/-- R302: the queue of 64 waiting events has room for all that one command raises, the LEDGER_SAT of a counter that
saturates on the way among them (R463). -/
def Room (s : State) : Prop := s.host.events.length ≤ 48

/-- R174-R177: a note of a kind is heard and acted on: the region is parsed, the header is good, the note is addressed to
this terminal as `a`, in a mode and a state the catalogue allows, it is no duplicate, and its length is the catalogue's. -/
def Heard (k : NKind) (n : Note) (a : NAddr) (s : State) : Prop :=
  parsing s = true ∧ headerBad n.mode.toNat n.id.toNat n.len.toNat = false ∧ addressed n s = some a ∧
  k.modes.contains a = true ∧ k.acts s.term a = true ∧ (k.sequenced = true → lastSeq a s ≠ some n.seq.toNat) ∧
  k.lenOk (noteFields n a) = true ∧ (noteFields n a).length + (if a == .fprint then 5 else 0) = n.len.toNat

/-- R177: the state in which a sequenced note of the ID stream is judged: it is counted, its SEQ is recorded, and it has no
status yet. -/
def noted (n : Note) (s : State) : State := newSeq .id n.seq.toNat (count C.NOTE_RX s)

/-- R178: a note of the ID stream has been answered: the status stands in NOTE_SEQ and its NOTE_ACK waits. -/
def Acked (n : Note) (status : Nat) (t : State) : Prop :=
  rd F.NOTE_SEQ_LAST_STATUS t = status ∧
    ∃ u ∈ t.note.up, u.type = nNOTE_ACK ∧ u.body = [n.seq, n.type, BitVec.ofNat 8 status]

/-- R192: the queue of 16 upstream notes has room for what one command queues. -/
def Space (s : State) : Prop := s.note.up.length ≤ 13

/-- An upstream note of a type waits. -/
def Queued (type : Nat) (body : List Byte) (t : State) : Prop := ∃ u ∈ t.note.up, u.type = type ∧ u.body = body

/-- R298, R299: the engine takes this command of the command ring now, and it is the next in sequence. -/
def Due (h : CmdHdr) (s : State) : Prop :=
  cmdReady s = true ∧ (on F.CMD_SEQ_VALID s = false ∨ h.cseq.toNat = (rd F.CMD_SEQ_LAST s + 1) % 65536)

/-- R298, R299: the command's completion has been written to its descriptor with this status, SUBCODE and RESULT, the
consumer index has moved on, and its CSEQ is the last. -/
def Completed (h : CmdHdr) (status sub result : Nat) (s t : State) : Prop :=
  dmaOut s (descAddr ringCMD (ringCons ringCMD s) s + 24)
      (bytesLE 5 result ++ [BitVec.ofNat 8 sub, BitVec.ofNat 8 status, 128]) ∈ t.out ∧
    ringCons ringCMD t = (ringCons ringCMD s + 1) % 2 ^ 32 ∧ rd F.CMD_SEQ_LAST t = h.cseq.toNat

/-- R300: the tick `x` that a command's stamp operand names: the next building tick for zero, else a valid stamp not
earlier than that. -/
def CmdAt (w : Word) (x : Nat) (s : State) : Prop :=
  (w = 0 ∧ x = nextTick s) ∨ (w ≠ 0 ∧ stampOk w = true ∧ x = stampTick s.bt w ∧ 0 ≤ tickDiff x (nextTick s))

/-- R326: the frame of a PTP message in the transport in use; over UDP `v` are its open fields. -/
def ptpFrame (k kind : Nat) (b : List Byte) (v : Nat) (s : State) : List Byte :=
  withFcs (if ptpUdp s then ptpUdp4 k kind b v s else ptpL2 k kind b s)

/-- R374, R375: a run-down of axis `k` with this cause has begun from `s`: the axis is in RUNDOWN, its velocity and its
commanded position at the start are kept, and the event waits. -/
def RunsDown (k cause : Nat) (s t : State) : Prop :=
  axState k t = xRUNDOWN ∧ rd (F.AX_STATUS_CAUSE k) t = cause ∧ Waits E.MOT_RUNDOWN (k + 16 * cause) t ∧
    (axSt k t).v0 = (axSt k s).v ∧ (axSt k t).p0 = posQ k s ∧ (axSt k t).rdTicks = 0

/-- The axis is in ACTIVE or PROFILE, and there is room for what it raises. -/
def Moving (k : Nat) (s : State) : Prop :=
  (axState k s = xACTIVE ∨ axState k s = xPROFILE) ∧ s.mot.axes.length = 2 ∧ Room s

/-- R411-R413: a wake with this source and detail has acted: it is told and counted, the spine runs, WAKE_MASK's domains
have their targets ON, and the transition is asked for at the next tick. -/
def Woken (src detail : Nat) (t : State) : Prop :=
  Waits E.WAKE (src + 16 * detail) t ∧ rd F.WAKE_STATUS_SOURCE t = src ∧ rd F.WAKE_STATUS_DETAIL t = detail ∧
    t.pwr.resting = false ∧ (∀ k < 24, inMask k t = true → targetOf t k = 0) ∧
    ∃ r ∈ t.pwr.reqs, r.wake = true ∧ r.t = tickAdd t.bt 1

/-- R413: a wake may act: from LISTENING on, where the set it asks for is not refused. -/
def MayWake (s : State) : Prop :=
  fromListening s = true ∧ refusedSet (fun k => if inMask k s then 0 else targetOf s k) s = 0 ∧ Room s

/-- R416-R421: a Zwirdo command whose written part is acceptable is served: the register file is reachable, the spine runs,
the transaction is whole, its length, count byte and PEC are right. -/
def Served (cmd : Nat) (block pure_ : Bool) (n : Nat) (x : ZwdTxn) (s : State) : Prop :=
  zwdLive s = true ∧ s.pwr.resting = false ∧ x.cut = false ∧ zwdFault cmd block pure_ n x s = none

/-- R416, R421: the command was answered with these bytes, a PEC byte over the whole transaction behind them where the
controller ACKs the last, and its status is the last. -/
def Replied (cmd status : Nat) (x : ZwdTxn) (bytes : List Byte) (s t : State) : Prop :=
  t.out = .zwd (bytes ++ if x.rdPec then [BitVec.ofNat 8 (crc8 (zwdHead cmd x s ++ BitVec.ofNat 8 (zwdAddrByte s + 1) :: bytes))]
    else []) true :: s.out ∧ rd F.ZWD_STATUS_LAST_STATUS t = status

/-- R416, R421: a written part was ACKed with this status. -/
def Acknowledged (status : Nat) (t : State) : Prop :=
  .zwd [] true ∈ t.out ∧ rd F.ZWD_STATUS_LAST_STATUS t = status

/-- The registers that counting, raising an event and setting an alert may change. -/
def bookkeeping (off : Nat) : Bool :=
  off == R.ZWD_ALERT || (decide (0x6000 ≤ off) && decide (off < 0x6800)) || (decide (0x4400 ≤ off) && decide (off < 0x4800))

/-- The path a register access comes by (R2, R7); the rows that write one register are accesses too. -/
def accessPath : Instr → Option Path
  | .lowHalfRead p _ => some p
  | .highHalfRead p _ => some p
  | .highHalfWrite p _ _ => some p
  | .lowHalfWrite p _ _ => some p
  | .eightByteAccess p _ _ => some p
  | .partialRead p _ _ => some p
  | .timeNowRead p _ _ => some p
  | .bootLoadGo p _ => some p
  | .flashBridgeGo p _ => some p
  | .softReset p _ => some p
  | .kaWatchdog p _ => some p
  | .qmIndWrite p _ => some p
  | .qmIndRead p _ => some p
  | .lowReload p _ => some p
  | .run p _ => some p
  | .hreStart p _ => some p
  | .hreStop p _ => some p
  | .intxPend p _ => some p
  | .posWrite p _ _ _ => some p
  | .afeCalStart p _ => some p
  | .pwrTarget p _ _ => some p
  | .ktimerCfg p _ => some p
  | .lanePrbsCfg p _ _ => some p
  | .laneLoop p _ _ => some p
  | .injectSingle p _ _ => some p
  | .injectBurst p _ _ => some p
  | .injectContinuous p _ _ => some p
  | .injectStop p _ _ => some p
  | .ledgerClear p _ => some p
  | .regRead _ => some .zwirdo
  | .regWrite _ => some .zwirdo
  | _ => none

/-! ### What each command may reach -/

/-- Counting, an event, an alert bit (R302, R426, R461, R463). -/
def T.counting : Nat :=
  T.host ||| T.freeCtr ||| T.COUNTER ||| T.PORT_COUNTER ||| T.LEDGER_GRP_SAT ||| T.LEDGER_SUMMARY ||| T.ZWD_ALERT

/-- The register latches of the three paths (R2). -/
def T.latches : Nat := T.pcie ||| T.zwirdo ||| T.mgmt

/-- Everything but the queue. -/
def T.everything : Nat := 2 ^ 202 - 1

/-- The set of registers and parts of the state that a command may change, whatever the state: at least what its rules
name, and nothing outside it ever changes. -/
def reach : Instr → Nat
  | .lowHalfRead .. => T.latches ||| T.freeCtr ||| T.out ||| T.TIME_EPOCH_SNAP
  | .highHalfRead .. => T.latches ||| T.freeCtr ||| T.out ||| T.TIME_EPOCH_SNAP
  | .highHalfWrite .. => T.latches
  | .lowHalfWrite .. => T.counting ||| T.latches ||| T.term ||| T.staged ||| T.boot ||| T.byp ||| T.q ||| T.eth |||
      T.mot ||| T.afe ||| T.pwr ||| T.lanes ||| T.ledger ||| T.flash ||| T.out ||| T.anyReg ||| T.wrote
  | .eightByteAccess .. => T.counting ||| T.latches ||| T.term ||| T.staged ||| T.boot ||| T.byp ||| T.q |||
      T.eth ||| T.mot ||| T.afe ||| T.pwr ||| T.lanes ||| T.ledger ||| T.flash ||| T.out ||| T.anyReg ||| T.wrote
  | .badSizeWrite .. => T.counting
  | .partialRead .. => T.latches ||| T.freeCtr ||| T.out ||| T.TIME_EPOCH_SNAP
  | .unassignedAccess .. => T.out
  | .timeNowRead .. => T.latches ||| T.out ||| T.TIME_EPOCH_SNAP
  | .powerOnReset => T.everything
  | .pinReset => T.everything
  | .brownOutReset => T.everything
  | .releaseOfReset .. => T.counting ||| T.term ||| T.boot ||| T.DEVICE_IDENT ||| T.STRAP_LATCH |||
      T.SELFTEST_RESULT ||| T.SELFTEST_FLAGS ||| T.BOOT_STATUS ||| T.BYPASS_CFG ||| T.BYPASS_STATUS |||
      T.SPAN_CFG ||| T.PCIE_CTRL ||| T.RING_MODE ||| T.AFE_CFG ||| T.ZWD_ADDR ||| T.PWR_TARGET |||
      T.GRAN_BANK_CFG ||| T.GRAN_STATUS
  | .selftestStepDone .. => T.counting ||| T.term ||| T.boot ||| T.key ||| T.glean ||| T.flash ||| T.out |||
      T.SELFTEST_RESULT ||| T.SELFTEST_FLAGS ||| T.BOOT_STATUS ||| T.BOOT_LOAD_CTRL ||| T.ENTROPY_STATUS |||
      T.DRBG_STATUS ||| T.IMAGE_RUNNING ||| T.FLASH_INFO ||| T.PWR_TARGET ||| T.pwr
  | .bootLoadGo .. => T.counting ||| T.latches ||| T.term ||| T.boot ||| T.out ||| T.SELFTEST_RESULT |||
      T.BOOT_LOAD_CTRL
  | .imageLoadDone .. => T.counting ||| T.term ||| T.boot ||| T.glean ||| T.SELFTEST_RESULT ||| T.BOOT_STATUS |||
      T.BOOT_LOAD_CTRL ||| T.IMAGE_RUNNING ||| T.ENTROPY_STATUS
  | .flashBridgeGo .. => T.counting ||| T.latches ||| T.boot ||| T.flash ||| T.out ||| T.FLASH_BRIDGE_CTRL
  | .flashBridgeDone .. => T.FLASH_BRIDGE_CTRL ||| T.FLASH_BRIDGE_DATA
  | .softReset .. => T.counting ||| T.latches ||| T.boot ||| T.mot ||| T.RESET_CAUSE ||| T.SOFT_RESET |||
      T.AX_STATUS
  | .softResetProceed => T.everything
  | .enterListening => T.counting ||| T.term ||| T.staged ||| T.boot ||| T.byp ||| T.regn ||| T.note ||| T.key |||
      T.q ||| T.eth ||| T.mot ||| T.afe ||| T.pwr ||| T.glean ||| T.lanes ||| T.ledger ||| T.flash ||| T.out |||
      T.anyReg ||| T.wrote
  | .defaultTargets => T.counting ||| T.boot ||| T.frame ||| T.regn ||| T.note ||| T.win ||| T.key ||| T.th |||
      T.q ||| T.eth ||| T.show_ ||| T.mot ||| T.afe ||| T.pwr ||| T.glean ||| T.out ||| T.anyReg ||| T.lanes |||
      T.span
  | .tickOverrun .. => T.counting ||| T.byp ||| T.TICK_OVERRUN_STATUS
  | .buildingTick .. => T.counting ||| T.term ||| T.bt ||| T.staged ||| T.boot ||| T.byp ||| T.frame ||| T.regn |||
      T.note ||| T.th ||| T.q ||| T.eth ||| T.show_ ||| T.mot ||| T.afe ||| T.pwr ||| T.glean ||| T.lanes |||
      T.ledger ||| T.flash ||| T.out ||| T.anyReg ||| T.wrote
  | .healthPulse .. => T.counting ||| T.line ||| T.byp ||| T.frame ||| T.regn ||| T.note ||| T.win ||| T.key |||
      T.mot ||| T.BYPASS_STATUS ||| T.KA_WATCHDOG ||| T.REG_STATUS ||| T.CIPHER_LOAD ||| T.AX_STATUS
  | .classTimeElapsed => T.counting ||| T.term ||| T.byp ||| T.frame ||| T.regn ||| T.note ||| T.key ||| T.mot |||
      T.TIME_STATUS ||| T.BYPASS_STATUS ||| T.REG_STATUS ||| T.RANGE_STATUS ||| T.NOTE_SEQ ||| T.AX_STATUS |||
      T.show_ ||| T.out ||| T.span
  | .kaWatchdog .. => T.counting ||| T.latches ||| T.byp ||| T.KA_WATCHDOG
  | .watchdogExpiry => T.byp
  | .admission .. => T.counting ||| T.byp ||| T.frame ||| T.note ||| T.ADMIT_TICK ||| T.NOTE_SEQ
  | .insertion => T.counting ||| T.term ||| T.byp ||| T.mot ||| T.BYPASS_STATUS ||| T.ADMIT_TICK |||
      T.AX_STATUS ||| T.show_ ||| T.out ||| T.regn ||| T.span
  | .admitDone => T.counting ||| T.byp
  | .admitFail => T.counting ||| T.byp ||| T.win ||| T.mot ||| T.BYPASS_STATUS ||| T.AX_STATUS
  | .turn .. => T.counting ||| T.byp ||| T.frame ||| T.note ||| T.NOTE_SEQ
  | .turnEnd .. => T.counting ||| T.byp ||| T.frame ||| T.note ||| T.NOTE_SEQ
  | .turnEffective .. => T.byp ||| T.BYPASS_STATUS ||| T.span
  | .turnAuto .. => T.counting ||| T.BYPASS_STATUS ||| T.span
  | .leave .. => T.counting ||| T.byp ||| T.frame ||| T.note ||| T.NOTE_SEQ
  | .leaving => T.counting ||| T.term ||| T.byp ||| T.win ||| T.mot ||| T.AX_STATUS ||| T.show_ ||| T.out
  | .leaveReqTimeout => T.counting ||| T.term ||| T.byp ||| T.win ||| T.mot ||| T.AX_STATUS ||| T.show_ ||| T.out
  | .delayStep .. => T.counting ||| T.regn ||| T.TIME_STATUS ||| T.span
  | .wordLock .. => T.LANE_STATUS ||| T.span
  | .wordLockLost .. => T.counting ||| T.frame ||| T.win ||| T.REP_STATUS_W ||| T.REP_STATUS_E |||
      T.LANE_STATUS ||| T.regn ||| T.out ||| T.span
  | .spanLos .. => T.counting ||| T.frame ||| T.win ||| T.REP_STATUS_W ||| T.REP_STATUS_E ||| T.LANE_STATUS |||
      T.regn ||| T.out ||| T.span
  | .lossOfSignalEnd .. => T.LANE_STATUS
  | .cdrLock .. => T.lanes ||| T.LANE_STATUS
  | .eqSweepDone .. => T.counting ||| T.LANE_STATUS
  | .eqTrack .. => T.LANE_STATUS
  | .fillEnd .. => T.REP_STATUS_W ||| T.REP_STATUS_E ||| T.freeCtr ||| T.span
  | .headlandDecision .. => T.counting ||| T.REP_STATUS_W ||| T.REP_STATUS_E ||| T.span
  | .storeReset .. => T.counting ||| T.win ||| T.out ||| T.REP_STATUS_W ||| T.REP_STATUS_E ||| T.span
  | .tickMarker .. => T.counting ||| T.frame ||| T.win ||| T.key ||| T.REP_STATUS_W ||| T.REP_STATUS_E |||
      T.BYPASS_STATUS ||| T.regn ||| T.span
  | .tickMarkerMiss .. => T.counting ||| T.frame ||| T.th ||| T.REP_STATUS_W ||| T.REP_STATUS_E |||
      T.LANE_STATUS ||| T.regn ||| T.out ||| T.span
  | .rowCheck .. => T.counting ||| T.frame ||| T.win ||| T.key ||| T.th ||| T.q ||| T.out ||| T.TIME_STATUS |||
      T.LANE_STATUS ||| T.FRAME_STATUS ||| T.GRAN_STATUS ||| T.span
  | .spanRowLost .. => T.counting ||| T.frame ||| T.key ||| T.th ||| T.q ||| T.TIME_STATUS ||| T.FRAME_STATUS |||
      T.FRAME_GEN ||| T.GRAN_STATUS
  | .frameHeader .. => T.counting ||| T.term ||| T.line ||| T.frame ||| T.regn ||| T.key ||| T.th ||| T.mot |||
      T.TIME_STATUS ||| T.FRAME_STATUS ||| T.FRAME_GEN ||| T.REG_STATUS ||| T.CLAIM_NONCE ||| T.AX_STATUS |||
      T.q ||| T.show_ ||| T.out ||| T.GRAN_STATUS
  | .generationEffective .. => T.counting ||| T.frame ||| T.key ||| T.TIME_STATUS ||| T.FRAME_GEN
  | .grantMap .. => T.counting ||| T.regn ||| T.win ||| T.key ||| T.REG_STATUS ||| T.WIN_LAST_GRANT
  | .expressWord .. => T.counting ||| T.frame ||| T.show_ ||| T.out
  | .channelLastExpiry .. => T.frame
  | .claimPrepared => T.counting ||| T.regn ||| T.key ||| T.SIG_STATUS
  | .claim .. => T.counting ||| T.frame ||| T.regn ||| T.note ||| T.win ||| T.REG_STATUS
  | .claimRetry => T.counting ||| T.regn
  | .assign .. => T.counting ||| T.term ||| T.frame ||| T.regn ||| T.note ||| T.key ||| T.mot ||| T.SPAN_WAKE |||
      T.REG_STATUS ||| T.RANGE_STATUS ||| T.NOTE_SEQ ||| T.SIG_STATUS ||| T.AX_STATUS ||| T.show_ ||| T.out
  | .assignVerifyDone => T.counting ||| T.term ||| T.frame ||| T.regn ||| T.note ||| T.win ||| T.key ||| T.mot |||
      T.REG_STATUS ||| T.CLAIM_NONCE ||| T.NOTE_SEQ ||| T.SIG_STATUS ||| T.AX_STATUS ||| T.show_ ||| T.out
  | .release .. => T.counting ||| T.term ||| T.frame ||| T.regn ||| T.note ||| T.win ||| T.key ||| T.mot |||
      T.REG_STATUS ||| T.CLAIM_NONCE ||| T.NOTE_SEQ ||| T.AX_STATUS ||| T.show_ ||| T.out
  | .grantTimeout => T.counting ||| T.term ||| T.frame ||| T.regn ||| T.note ||| T.win ||| T.key ||| T.mot |||
      T.REG_STATUS ||| T.CLAIM_NONCE ||| T.NOTE_SEQ ||| T.AX_STATUS ||| T.show_ ||| T.out
  | .rangeResult => T.counting ||| T.regn ||| T.note ||| T.RANGE_STATUS
  | .rangeReportRepeat => T.counting ||| T.regn ||| T.note
  | .rangeOk .. => T.counting ||| T.term ||| T.frame ||| T.regn ||| T.note ||| T.mot ||| T.RANGE_STATUS |||
      T.NOTE_SEQ ||| T.AX_STATUS ||| T.show_ ||| T.out
  | .rangeRetry .. => T.counting ||| T.frame ||| T.note ||| T.RANGE_STATUS ||| T.NOTE_SEQ ||| T.regn
  | .rangeAdj .. => T.counting ||| T.frame ||| T.note ||| T.RANGE_STATUS ||| T.NOTE_SEQ
  | .rangeRecompute => T.counting ||| T.regn ||| T.note ||| T.RANGE_E ||| T.RANGE_W ||| T.RANGE_STATUS |||
      T.TIME_STATUS
  | .delayStepStale => T.counting ||| T.regn
  | .flywheelEntry => T.counting ||| T.term ||| T.regn ||| T.win ||| T.mot ||| T.TIME_STATUS ||| T.AX_STATUS |||
      T.show_ ||| T.out
  | .flywheelExit .. => T.counting ||| T.term ||| T.regn ||| T.mot ||| T.TIME_STATUS ||| T.AX_STATUS |||
      T.show_ ||| T.out
  | .timeMap .. => T.counting ||| T.frame ||| T.regn ||| T.note ||| T.NOTE_SEQ
  | .noteMalformed .. => T.counting ||| T.frame
  | .noteUnknown .. => T.counting ||| T.frame ||| T.note ||| T.NOTE_SEQ
  | .mapDesc .. => T.counting ||| T.frame ||| T.note ||| T.NOTE_SEQ
  | .subscribe .. => T.counting ||| T.frame ||| T.note ||| T.NOTE_SEQ
  | .keyLoad .. => T.counting ||| T.frame ||| T.note ||| T.key ||| T.NOTE_SEQ
  | .setting .. => T.counting ||| T.term ||| T.staged ||| T.boot ||| T.byp ||| T.frame ||| T.regn ||| T.note |||
      T.key ||| T.q ||| T.eth ||| T.mot ||| T.afe ||| T.pwr ||| T.glean ||| T.lanes ||| T.ledger ||| T.flash |||
      T.out ||| T.anyReg ||| T.wrote
  | .motionProfile .. => T.counting ||| T.frame ||| T.note ||| T.mot ||| T.NOTE_SEQ
  | .powerOrder .. => T.counting ||| T.frame ||| T.note ||| T.pwr ||| T.out ||| T.NOTE_SEQ
  | .imageOrderSwap .. => T.counting ||| T.boot ||| T.frame ||| T.note ||| T.mot ||| T.glean ||| T.flash |||
      T.RESET_CAUSE ||| T.NOTE_SEQ ||| T.AX_STATUS ||| T.GLEAN_STATUS ||| T.IMAGE_RUNNING ||| T.SETTINGS_STATUS
  | .imageOrderConfirm .. => T.counting ||| T.boot ||| T.frame ||| T.note ||| T.mot ||| T.glean ||| T.flash |||
      T.RESET_CAUSE ||| T.NOTE_SEQ ||| T.AX_STATUS ||| T.GLEAN_STATUS ||| T.IMAGE_RUNNING ||| T.SETTINGS_STATUS
  | .imageOrderRevert .. => T.counting ||| T.boot ||| T.frame ||| T.note ||| T.mot ||| T.glean ||| T.flash |||
      T.RESET_CAUSE ||| T.NOTE_SEQ ||| T.AX_STATUS ||| T.GLEAN_STATUS ||| T.IMAGE_RUNNING ||| T.SETTINGS_STATUS
  | .resetOrder .. => T.counting ||| T.staged ||| T.frame ||| T.note ||| T.NOTE_SEQ
  | .resetOrderDue => T.counting ||| T.staged ||| T.boot ||| T.mot ||| T.RESET_CAUSE ||| T.AX_STATUS
  | .statusReq .. => T.counting ||| T.frame ||| T.note ||| T.NOTE_SEQ
  | .hostMsgDn .. => T.counting ||| T.frame ||| T.note ||| T.q ||| T.NOTE_SEQ ||| T.GRAN_STATUS
  | .mapReq .. => T.counting ||| T.frame ||| T.note
  | .noteUpExpired => T.counting ||| T.note
  | .burstLock .. => T.counting ||| T.byp ||| T.frame ||| T.regn ||| T.note ||| T.win ||| T.key ||| T.q |||
      T.GRAN_STATUS
  | .windowWrite .. => T.counting ||| T.win ||| T.out ||| T.regn
  | .burstBufferRelease .. => T.counting ||| T.win
  | .cipherJobDone .. => T.counting ||| T.frame ||| T.key ||| T.th ||| T.q ||| T.GRAN_STATUS
  | .keyReady .. => T.key
  | .keyErase => T.key
  | .entropyFail .. => T.counting ||| T.key ||| T.ENTROPY_STATUS
  | .drbgReseed .. => T.counting ||| T.DRBG_STATUS
  | .drbgStopped => T.counting ||| T.DRBG_STATUS ||| T.frame ||| T.key ||| T.th
  | .drbgReinstantiate .. => T.ENTROPY_STATUS ||| T.DRBG_STATUS ||| T.key
  | .sigOpDone .. => T.counting ||| T.out ||| T.SIG_STATUS
  | .thresherPacket => T.counting ||| T.th ||| T.q ||| T.GRAN_STATUS
  | .thUpdateSet .. => T.counting ||| T.th ||| T.out ||| T.TH_UPDATE_STATUS ||| T.TH_TABLE_STATUS ||| T.CMD_SEQ
  | .thUpdateDelete .. => T.counting ||| T.th ||| T.out ||| T.TH_UPDATE_STATUS ||| T.CMD_SEQ
  | .thUpdateCommit .. => T.counting ||| T.th ||| T.out ||| T.TH_UPDATE_STATUS ||| T.CMD_SEQ
  | .tableSweep => T.th ||| T.TH_UPDATE_STATUS
  | .tableSweepDone => T.th ||| T.TH_UPDATE_STATUS
  | .deadlineDiscard => T.counting ||| T.q ||| T.GRAN_STATUS
  | .holddownFlush .. => T.counting ||| T.q ||| T.GRAN_STATUS ||| T.ETH_STATUS
  | .qmIndWrite .. => T.counting ||| T.latches ||| T.staged ||| T.q ||| T.QM_IND_SEL
  | .qmIndRead .. => T.counting ||| T.latches ||| T.staged ||| T.q ||| T.QM_IND_SEL
  | .qmIndDone => T.q ||| T.QM_IND_SEL ||| T.QM_IND_DATA0 ||| T.QM_IND_DATA1 ||| T.QM_IND_DATA2
  | .lowReload .. => T.counting ||| T.latches ||| T.GRAN_STATUS
  | .run .. => T.counting ||| T.latches ||| T.RUN_CTRL
  | .firmwareRun => T.RUN_CTRL
  | .hreStart .. => T.counting ||| T.latches ||| T.boot ||| T.GRAN_STATUS ||| T.HRE_CTRL ||| T.HRE_STATUS |||
      T.HRE_STOPPED
  | .hreStop .. => T.counting ||| T.latches ||| T.boot ||| T.GRAN_STATUS ||| T.HRE_CTRL ||| T.HRE_STATUS |||
      T.HRE_STOPPED
  | .orderlyStopDone => T.counting ||| T.out ||| T.GRAN_STATUS ||| T.HRE_CTRL ||| T.HRE_STOPPED
  | .hostAbsent => T.counting ||| T.HRE_CTRL
  | .pollPoint .. => T.counting ||| T.out ||| T.GRAN_STATUS ||| T.HRE_CTRL ||| T.HRE_STATUS ||| T.INT_CFG |||
      T.HRE_STOPPED
  | .doorbellReadDone .. => T.counting ||| T.GRAN_STATUS ||| T.HRE_CTRL ||| T.HRE_STATUS ||| T.HRE_STOPPED |||
      T.out
  | .txDescriptor .. => T.counting ||| T.out ||| T.GRAN_STATUS ||| T.HRE_STATUS ||| T.HRE_STOPPED
  | .txDataReadDone .. => T.counting ||| T.q ||| T.out ||| T.GRAN_STATUS ||| T.HRE_STATUS ||| T.HRE_STOPPED
  | .hostDelivery .. => T.counting ||| T.q ||| T.out ||| T.GRAN_STATUS ||| T.HRE_STATUS ||| T.HRE_STOPPED
  | .nop .. => T.counting ||| T.out ||| T.CMD_SEQ
  | .wait .. => T.counting ||| T.pwr ||| T.out ||| T.CMD_SEQ
  | .harvest .. => T.counting ||| T.out ||| T.CMD_SEQ
  | .harvestSnapshot .. => T.counting ||| T.ledger ||| T.out
  | .clearLedger .. => T.counting ||| T.ledger ||| T.out ||| T.CMD_SEQ
  | .qmWrite .. => T.counting ||| T.staged ||| T.out ||| T.CMD_SEQ
  | .stagedWrite .. => T.counting ||| T.staged ||| T.out ||| T.CMD_SEQ
  | .leaveCommand .. => T.counting ||| T.byp ||| T.note ||| T.out ||| T.CMD_SEQ
  | .hostMsg .. => T.counting ||| T.note ||| T.out ||| T.CMD_SEQ
  | .settingWrite .. => T.counting ||| T.term ||| T.staged ||| T.boot ||| T.byp ||| T.regn ||| T.key ||| T.q |||
      T.eth ||| T.mot ||| T.afe ||| T.pwr ||| T.glean ||| T.lanes ||| T.ledger ||| T.flash ||| T.out |||
      T.anyReg ||| T.wrote
  | .settingRead .. => T.counting ||| T.out ||| T.CMD_SEQ
  | .settingDelete .. => T.counting ||| T.term ||| T.staged ||| T.boot ||| T.byp ||| T.regn ||| T.key ||| T.q |||
      T.eth ||| T.mot ||| T.afe ||| T.pwr ||| T.glean ||| T.lanes ||| T.ledger ||| T.flash ||| T.out |||
      T.anyReg ||| T.wrote
  | .imageWriteStaging .. => T.counting ||| T.note ||| T.glean ||| T.flash ||| T.out ||| T.CMD_SEQ |||
      T.GLEAN_STATUS ||| T.IMAGE_STAGED
  | .imageVerify .. => T.counting ||| T.note ||| T.out ||| T.CMD_SEQ ||| T.GLEAN_STATUS ||| T.IMAGE_STAGED
  | .imageSwap .. => T.counting ||| T.glean ||| T.out ||| T.CMD_SEQ
  | .imageConfirm .. => T.counting ||| T.note ||| T.flash ||| T.out ||| T.CMD_SEQ ||| T.GLEAN_STATUS |||
      T.IMAGE_RUNNING ||| T.SETTINGS_STATUS
  | .imageRevert .. => T.counting ||| T.boot ||| T.mot ||| T.out ||| T.RESET_CAUSE ||| T.CMD_SEQ ||| T.AX_STATUS
  | .softResetCommand .. => T.counting ||| T.boot ||| T.mot ||| T.out ||| T.RESET_CAUSE ||| T.CMD_SEQ |||
      T.AX_STATUS
  | .ringRestart .. => T.counting ||| T.out ||| T.HRE_STOPPED ||| T.CMD_SEQ
  | .badOpcode .. => T.counting ||| T.out ||| T.CMD_SEQ
  | .intxPend .. => T.counting ||| T.latches ||| T.out ||| T.INT_CFG
  | .ringStopped .. => T.counting ||| T.HRE_STATUS ||| T.HRE_STOPPED
  | .hostReset .. => T.counting ||| T.pcie ||| T.boot ||| T.SELFTEST_RESULT ||| T.BOOT_LOAD_CTRL |||
      T.GRAN_STATUS ||| T.RING_MODE ||| T.HRE_CTRL ||| T.HRE_STOPPED ||| T.DB_PAGE ||| T.ST_PAGE ||| T.INT_CFG |||
      T.CMD_BASE ||| T.CMD_CFG ||| T.EVT_BASE ||| T.EVT_CFG ||| T.TXQ_BASE ||| T.TXQ_CFG ||| T.RXQ_BASE |||
      T.RXQ_CFG ||| T.FL_BASE ||| T.FL_CFG ||| T.th ||| T.out
  | .linkUp .. => T.counting ||| T.q ||| T.eth ||| T.ETH_STATUS ||| T.LANE_STATUS
  | .linkDown .. => T.counting ||| T.q ||| T.eth ||| T.GRAN_STATUS ||| T.ETH_STATUS ||| T.LANE_STATUS ||| T.out
  | .anBasePage .. => T.counting ||| T.q ||| T.eth ||| T.GRAN_STATUS ||| T.ETH_STATUS ||| T.LANE_STATUS
  | .sgmiiWord .. => T.counting ||| T.q ||| T.eth ||| T.GRAN_STATUS ||| T.ETH_STATUS ||| T.LANE_STATUS ||| T.out
  | .anRestart .. => T.eth ||| T.ETH_STATUS ||| T.out
  | .ethFrameRx .. => T.counting ||| T.th ||| T.eth ||| T.GRAN_STATUS ||| T.ETH_STATUS
  | .pause .. => T.counting ||| T.eth ||| T.ETH_STATUS
  | .pauseEnd .. => T.eth ||| T.ETH_STATUS
  | .frameTransmit .. => T.counting ||| T.q ||| T.out ||| T.GRAN_STATUS ||| T.eth
  | .ptpRx .. => T.counting ||| T.eth ||| T.out ||| T.PTP_STATUS
  | .ptpMessageDue .. => T.eth ||| T.out ||| T.freeCtr
  | .announceReceiptTimeout .. => T.counting ||| T.eth ||| T.PTP_STATUS
  | .holdoverExpiry => T.counting ||| T.eth ||| T.PTP_STATUS
  | .dmxBreak .. => T.show_ ||| T.out
  | .rdmTransaction .. => T.show_ ||| T.out ||| T.freeCtr
  | .rdmTransactionEnd .. => T.counting ||| T.show_ ||| T.out
  | .rdmDiscovery .. => T.counting ||| T.show_
  | .dmxRxPacket .. => T.counting ||| T.show_
  | .dmxLoss .. => T.show_
  | .ltcFrame .. => T.counting ||| T.show_ ||| T.out
  | .ltcRxCodeword .. => T.counting ||| T.show_ ||| T.LTC_RX
  | .midiTxByte .. => T.show_ ||| T.out
  | .midiRxByte .. => T.counting ||| T.show_
  | .cueEdge .. => T.counting ||| T.show_ ||| T.CUE_STATE
  | .cuePulseEnd .. => T.show_ ||| T.out
  | .genlockEdge .. => T.show_ ||| T.out
  | .setpointLoss .. => T.counting ||| T.mot ||| T.AX_STATUS
  | .brakeRelease .. => T.mot ||| T.AX_STATUS
  | .enablingDone .. => T.AX_STATUS
  | .encError .. => T.counting ||| T.mot ||| T.AX_STATUS
  | .indexEdge .. => T.mot ||| T.AX_INDEX ||| T.AX_STATUS
  | .limit .. => T.counting ||| T.mot ||| T.AX_STATUS
  | .driveFault .. => T.counting ||| T.mot ||| T.AX_STATUS
  | .hold .. => T.counting ||| T.mot ||| T.AX_STATUS ||| T.MOT_HOLD
  | .followingError .. => T.counting ||| T.mot ||| T.AX_STATUS
  | .softLimit .. => T.counting ||| T.mot ||| T.AX_STATUS
  | .profileEnd .. => T.counting ||| T.mot ||| T.AX_STATUS
  | .rundownEnd .. => T.mot ||| T.AX_STATUS
  | .brakeSetExpiry .. => T.counting ||| T.mot ||| T.AX_STATUS
  | .motCut .. => T.counting ||| T.mot ||| T.AX_STATUS
  | .posWrite .. => T.counting ||| T.latches ||| T.mot ||| T.AX_POS_CMD ||| T.AX_POS_ENC
  | .slotHalfStart => T.afe ||| T.AFE_STATUS
  | .sampleDone .. => T.counting ||| T.afe ||| T.AFE_STATUS ||| T.AFE_CAL_CTRL ||| T.AFE_RESULT
  | .afeCalStart .. => T.counting ||| T.latches ||| T.afe ||| T.AFE_STATUS ||| T.AFE_CAL_CTRL
  | .afeCalDone .. => T.counting ||| T.afe ||| T.AFE_STATUS ||| T.AFE_CAL ||| T.AFE_CAL_CTRL
  | .afePfoFault .. => T.counting ||| T.afe ||| T.out
  | .pwrTarget .. => T.counting ||| T.latches ||| T.PWR_TARGET ||| T.pwr
  | .powerTransition => T.counting ||| T.frame ||| T.regn ||| T.note ||| T.win ||| T.key ||| T.th ||| T.q |||
      T.eth ||| T.show_ ||| T.mot ||| T.afe ||| T.pwr ||| T.glean ||| T.out ||| T.anyReg ||| T.lanes |||
      T.flash ||| T.span
  | .pwrDone => T.pwr ||| T.out ||| T.frame ||| T.regn ||| T.note ||| T.win ||| T.key ||| T.th ||| T.q |||
      T.eth ||| T.show_ ||| T.mot ||| T.afe ||| T.glean ||| T.lanes ||| T.flash ||| T.span ||| T.anyReg |||
      T.host ||| T.freeCtr
  | .spanWakeSet .. => T.counting ||| T.line ||| T.bt ||| T.pwr ||| T.out ||| T.TIME_STATUS ||| T.TAI_ORIGIN_NS |||
      T.WAKE_STATUS ||| T.PWR_TARGET ||| T.span
  | .laneActivityWake .. => T.counting ||| T.line ||| T.bt ||| T.pwr ||| T.out ||| T.TIME_STATUS |||
      T.TAI_ORIGIN_NS ||| T.WAKE_STATUS ||| T.PWR_TARGET
  | .cueWake .. => T.counting ||| T.line ||| T.bt ||| T.pwr ||| T.out ||| T.TIME_STATUS ||| T.TAI_ORIGIN_NS |||
      T.WAKE_STATUS ||| T.PWR_TARGET
  | .ktimerCfg .. => T.counting ||| T.latches ||| T.pwr ||| T.KTIMER_CFG
  | .keeperTimerExpiry => T.counting ||| T.line ||| T.bt ||| T.pwr ||| T.out ||| T.TIME_STATUS |||
      T.TAI_ORIGIN_NS ||| T.WAKE_STATUS ||| T.KTIMER_CFG ||| T.PWR_TARGET
  | .zwirdoAddressMatch .. => T.counting ||| T.line ||| T.bt ||| T.pwr ||| T.out ||| T.TIME_STATUS |||
      T.TAI_ORIGIN_NS ||| T.WAKE_STATUS ||| T.PWR_TARGET
  | .status .. => T.counting ||| T.out ||| T.ZWD_STATUS ||| T.line ||| T.bt ||| T.pwr ||| T.TIME_STATUS |||
      T.TAI_ORIGIN_NS ||| T.WAKE_STATUS ||| T.PWR_TARGET
  | .ident .. => T.counting ||| T.out ||| T.ZWD_STATUS ||| T.line ||| T.bt ||| T.pwr ||| T.TIME_STATUS |||
      T.TAI_ORIGIN_NS ||| T.WAKE_STATUS ||| T.PWR_TARGET
  | .fprint .. => T.counting ||| T.out ||| T.ZWD_STATUS ||| T.line ||| T.bt ||| T.pwr ||| T.TIME_STATUS |||
      T.TAI_ORIGIN_NS ||| T.WAKE_STATUS ||| T.PWR_TARGET
  | .last .. => T.counting ||| T.out ||| T.ZWD_STATUS ||| T.line ||| T.bt ||| T.pwr ||| T.TIME_STATUS |||
      T.TAI_ORIGIN_NS ||| T.WAKE_STATUS ||| T.PWR_TARGET
  | .regRead .. => T.counting ||| T.latches ||| T.out ||| T.TIME_EPOCH_SNAP ||| T.ZWD_STATUS ||| T.line |||
      T.bt ||| T.pwr ||| T.TIME_STATUS ||| T.TAI_ORIGIN_NS ||| T.WAKE_STATUS ||| T.PWR_TARGET
  | .regWrite .. => T.counting ||| T.latches ||| T.term ||| T.staged ||| T.boot ||| T.byp ||| T.q ||| T.eth |||
      T.mot ||| T.afe ||| T.pwr ||| T.lanes ||| T.ledger ||| T.flash ||| T.out ||| T.anyReg ||| T.line ||| T.bt |||
      T.wrote
  | .zwdSoftReset .. => T.counting ||| T.boot ||| T.mot ||| T.out ||| T.RESET_CAUSE ||| T.AX_STATUS |||
      T.ZWD_STATUS ||| T.line ||| T.bt ||| T.pwr ||| T.TIME_STATUS ||| T.TAI_ORIGIN_NS ||| T.WAKE_STATUS |||
      T.PWR_TARGET
  | .flashXfer .. => T.counting ||| T.flash ||| T.out ||| T.ZWD_STATUS ||| T.line ||| T.bt ||| T.pwr |||
      T.TIME_STATUS ||| T.TAI_ORIGIN_NS ||| T.WAKE_STATUS ||| T.PWR_TARGET
  | .mboxPut .. => T.counting ||| T.zwd ||| T.out ||| T.ZWD_STATUS ||| T.line ||| T.bt ||| T.pwr |||
      T.TIME_STATUS ||| T.TAI_ORIGIN_NS ||| T.WAKE_STATUS ||| T.PWR_TARGET
  | .mboxRunWrite .. => T.counting ||| T.zwd ||| T.out ||| T.ZWD_STATUS ||| T.line ||| T.bt ||| T.pwr |||
      T.TIME_STATUS ||| T.TAI_ORIGIN_NS ||| T.WAKE_STATUS ||| T.PWR_TARGET
  | .mboxRunRead .. => T.counting ||| T.zwd ||| T.out ||| T.ZWD_STATUS ||| T.line ||| T.bt ||| T.pwr |||
      T.TIME_STATUS ||| T.TAI_ORIGIN_NS ||| T.WAKE_STATUS ||| T.PWR_TARGET
  | .mboxRunDelete .. => T.counting ||| T.zwd ||| T.out ||| T.ZWD_STATUS ||| T.line ||| T.bt ||| T.pwr |||
      T.TIME_STATUS ||| T.TAI_ORIGIN_NS ||| T.WAKE_STATUS ||| T.PWR_TARGET
  | .mboxDone .. => T.counting ||| T.term ||| T.staged ||| T.boot ||| T.byp ||| T.regn ||| T.key ||| T.q |||
      T.eth ||| T.mot ||| T.afe ||| T.pwr ||| T.zwd ||| T.glean ||| T.lanes ||| T.ledger ||| T.flash ||| T.out |||
      T.anyReg ||| T.wrote
  | .mboxGet .. => T.counting ||| T.out ||| T.ZWD_STATUS ||| T.line ||| T.bt ||| T.pwr ||| T.TIME_STATUS |||
      T.TAI_ORIGIN_NS ||| T.WAKE_STATUS ||| T.PWR_TARGET
  | .mboxStatus .. => T.counting ||| T.out ||| T.ZWD_STATUS ||| T.line ||| T.bt ||| T.pwr ||| T.TIME_STATUS |||
      T.TAI_ORIGIN_NS ||| T.WAKE_STATUS ||| T.PWR_TARGET
  | .alertRead .. => T.counting ||| T.out ||| T.ZWD_STATUS ||| T.line ||| T.bt ||| T.pwr ||| T.TIME_STATUS |||
      T.TAI_ORIGIN_NS ||| T.WAKE_STATUS ||| T.PWR_TARGET
  | .alertResponse .. => T.counting ||| T.out ||| T.line ||| T.bt ||| T.pwr ||| T.TIME_STATUS |||
      T.TAI_ORIGIN_NS ||| T.WAKE_STATUS ||| T.PWR_TARGET
  | .zwdTimeout => T.counting
  | .zwdUnknownCommand .. => T.counting ||| T.out ||| T.ZWD_STATUS ||| T.line ||| T.bt ||| T.pwr |||
      T.TIME_STATUS ||| T.TAI_ORIGIN_NS ||| T.WAKE_STATUS ||| T.PWR_TARGET
  | .carouselPiece .. => T.counting ||| T.note ||| T.glean ||| T.flash ||| T.GLEAN_STATUS ||| T.IMAGE_STAGED |||
      T.frame
  | .pieceProgram .. => T.counting ||| T.note ||| T.glean ||| T.flash ||| T.GLEAN_STATUS ||| T.IMAGE_STAGED
  | .gleanVerify => T.counting ||| T.note ||| T.glean ||| T.flash ||| T.GLEAN_STATUS ||| T.IMAGE_STAGED
  | .swapTick => T.counting ||| T.boot ||| T.mot ||| T.glean ||| T.flash ||| T.RESET_CAUSE ||| T.AX_STATUS
  | .trialExpired => T.counting ||| T.boot ||| T.mot ||| T.AX_STATUS
  | .lanePrbsCfg .. => T.counting ||| T.latches ||| T.lanes ||| T.LANE_PRBS_CFG ||| T.LANE_PRBS_STATUS ||| T.wrote
  | .laneLoop .. => T.counting ||| T.latches ||| T.lanes ||| T.LANE_PRBS_STATUS ||| T.LANE_LOOP ||| T.wrote
  | .laneTestStart .. => T.counting ||| T.q ||| T.eth ||| T.lanes ||| T.GRAN_STATUS ||| T.ETH_STATUS |||
      T.LANE_PRBS_STATUS ||| T.LANE_PRBS_BITS ||| T.LANE_PRBS_ERR ||| T.byp ||| T.frame ||| T.win |||
      T.REP_STATUS_W ||| T.REP_STATUS_E ||| T.LANE_STATUS ||| T.regn ||| T.out ||| T.span
  | .laneTestEnd .. => T.counting ||| T.lanes ||| T.LANE_PRBS_CFG ||| T.LANE_PRBS_STATUS ||| T.LANE_LOOP |||
      T.byp ||| T.ETH_STATUS ||| T.eth ||| T.out
  | .checkerLock .. => T.lanes ||| T.LANE_PRBS_STATUS ||| T.LANE_PRBS_BITS ||| T.LANE_PRBS_ERR
  | .syncLoss .. => T.LANE_PRBS_STATUS ||| T.LANE_PRBS_BITS ||| T.LANE_PRBS_ERR ||| T.lanes
  | .injectSingle .. => T.counting ||| T.latches ||| T.lanes ||| T.out ||| T.LANE_PRBS_STATUS ||| T.LANE_INJECT
  | .injectBurst .. => T.counting ||| T.latches ||| T.lanes ||| T.out ||| T.LANE_PRBS_STATUS ||| T.LANE_INJECT
  | .injectContinuous .. => T.counting ||| T.latches ||| T.lanes ||| T.out ||| T.LANE_PRBS_STATUS ||| T.LANE_INJECT
  | .injectStop .. => T.counting ||| T.latches ||| T.lanes ||| T.out ||| T.LANE_PRBS_STATUS ||| T.LANE_INJECT
  | .ledgerClear .. => T.counting ||| T.latches ||| T.ledger ||| T.LEDGER_CLEAR
  | .ledgerClearApply => T.counting ||| T.ledger ||| T.LEDGER_CLEAR
  | .extest .. => T.show_ ||| T.jtag
  | .samplePreload .. => T.show_ ||| T.jtag
  | .highz => T.jtag
  | .clamp => T.jtag
  | .bypass .. => T.jtag
  | .leaveReqRepeat => T.counting ||| T.byp ||| T.note
  | .entropyRetestPass .. => T.ENTROPY_STATUS
  | .qualificationTimeout .. => T.counting ||| T.PTP_STATUS ||| T.eth

end Sys2Proof.Claims
end

