-- ==== Sys2Proof/Safety.lean ====
section
/-! DEFINITION. What counts as a safe run: the invariant that every step keeps, in the terms claims use. -/

namespace Sys2Proof.Safety

open Sys2Proof.Machine

/-- The invariant of a run: the register store and the flash stand in their canonical form (so that equal contents are
equal data), and no store of the block outgrows what the spec gives it: 64 events waiting beyond the at most 2^16 entries of EVT
(R287, R302), 64 command records
(R299), 16 upstream notes (R192), 256 pieces waiting for flash (R437), 256 mailbox bytes (spec/18), 8 lanes. -/
structure Inv (s : State) : Prop where
  regs : SMap.wf regDefault s.regs = true
  flash : Memory.wf s.flash = true
  events : s.host.events.length ≤ 64 + 65536
  records : s.host.records.length ≤ 64
  up : s.note.up.length ≤ 16
  pieces : s.glean.buf.length ≤ 256
  mbox : s.zwd.mbox.length = 256
  lanes : s.lanes.length = 8

end Sys2Proof.Safety
end

