-- ==== Sys2Proof/Certificates/Slice0/Obligations.lean ====
section
/-! DEFINITION. The statements for the provers. Each says which rules of spec/ it formalises, or that it rests on a choice
of the model, with the log entry. -/

open Sys2Proof Sys2Proof.Machine Sys2Proof.Safety Sys2Proof.Claims

/-! ### The block as a whole -/

/-- Taking a step with a command in front of the queue is running that command on the state with the queue's rest; with
nothing waiting the block idles (both are the form of this model, notes/assumptions/2.md). -/
def Obligations.StepRunsTheFrontCommand : Prop :=
  (∀ (c : Instr) (rest : List Instr) (s : State), s.pending = c :: rest → step s = exec c { s with pending := rest }) ∧
  (∀ s : State, s.pending = [] → step s = .next s)

/-- The invariant of Safety.lean holds in the state after reset. The reset values the spec does not give are the model's
choice (notes/assumptions/8.md, 10.md, 11.md). -/
def Obligations.ResetMeetsTheInvariant : Prop :=
  Inv State.reset

/-- Every step, whatever command it takes, keeps the invariant of Safety.lean: the register store and the flash in canonical
form, at most 64 waiting events beyond the 65,536 entries of the largest event ring (R302), 64 command records (R299), 16
upstream notes (R192), 256 pieces waiting for flash (R437), a mailbox of 256 bytes (R425) and eight lanes. The canonical form
of the register store and of the flash is the model's (notes/assumptions/8.md). -/
def Obligations.EveryStepKeepsTheInvariant : Prop :=
  ∀ s t : State, Inv s → step s = .next t → Inv t

/-- Every command completes in every state, by a fault or a refusal in none, and stays in its frame: it changes no register
and no part of the state outside the set that `reach` (Claims.lean) names for it, and never the queue of waiting commands.
That no command ends in a fault or a refusal is this model's (notes/assumptions/1.md, 2.md, 5.md). -/
def Obligations.EveryCommandCompletesInItsReach : Prop :=
  ∀ (i : Instr) (s : State), ∃ t, exec i s = .next t ∧ Reach.Unchanged (reach i) s t ∧ t.pending = s.pending

/-! ### Register access (spec/00_scope.md) -/

/-- R3: a low-half read returns bits [31:0] and loads the path's snapshot latch with bits [39:32], tagged with the
register; it changes no register and no other latch. TIME_NOW is read at some wc and phase of the building tick, and
the read captures the cycle count (R15). R4: a high-half read returns the snapshot latch where its tag names the
register, and the live bits [39:32] where it does not; nothing but what is sent changes. In HOLDING it returns a matching
latch too, which is the model's choice (notes/assumptions/12.md). R5: a high-half write loads and tags the holding latch;
no register changes. A write that HOLDING or RESET discards changes nothing, and in RESET no read is answered. -/
def Obligations.HalvesGoThroughTheLatches : Prop :=
  (∀ (p : Path) (r : BitVec 13) (s : State),
    regsAnswer s = true → regAssigned (8 * r.toNat) = true → (8 * r.toNat ≠ R.TIME_NOW ∨ s.term = .holding) →
    ∃ t, exec (.lowHalfRead p r) s = .next t ∧
      t.out = .regData p (BitVec.ofNat 64 (fget (readReg (8 * r.toNat) s) 31 0)) :: s.out ∧
      (latches p t).snap = { tag := some (8 * r.toNat), val := BitVec.ofNat 8 (fget (readReg (8 * r.toNat) s) 39 32) } ∧
      (latches p t).hold = (latches p s).hold ∧ (∀ q, q ≠ p → latches q t = latches q s) ∧
      ∀ off, reg off t = reg off s) ∧
  (∀ (p : Path) (r : BitVec 13) (s : State), regsAnswer s = true → 8 * r.toNat = R.TIME_NOW → s.term ≠ .holding →
    ∃ t wc ph, exec (.lowHalfRead p r) s = .next t ∧ wc < 4160 ∧ ph < 64 ∧
      t.out = .regData p (BitVec.ofNat 64 (fget (timeNow wc ph s) 31 0)) :: s.out ∧
      (latches p t).snap = { tag := some R.TIME_NOW, val := BitVec.ofNat 8 (fget (timeNow wc ph s) 39 32) } ∧
      rd F.TIME_EPOCH_SNAP_CYCLE t = s.bt / 48 % 2 ^ 40 ∧ ∀ off, off ≠ R.TIME_EPOCH_SNAP → reg off t = reg off s) ∧
  (∀ (p : Path) (r : BitVec 13) (s : State), regsAnswer s = true → regAssigned (8 * r.toNat) = true →
    ∃ b : Byte, exec (.highHalfRead p r) s = .next { s with out := .regData p (BitVec.ofNat 64 b.toNat) :: s.out } ∧
      ((latches p s).snap.tag = some (8 * r.toNat) → b = (latches p s).snap.val) ∧
      ((latches p s).snap.tag ≠ some (8 * r.toNat) → b = BitVec.ofNat 8 (fget (readReg (8 * r.toNat) s) 39 32))) ∧
  (∀ (p : Path) (r : BitVec 13) (v : BitVec 32) (s : State),
    regAssigned (8 * r.toNat) = true → mayWriteReg (8 * r.toNat) s = true →
    ∃ t, exec (.highHalfWrite p r v) s = .next t ∧
      (latches p t).hold = { tag := some (8 * r.toNat), val := BitVec.ofNat 8 v.toNat } ∧
      (latches p t).snap = (latches p s).snap ∧ (∀ q, q ≠ p → latches q t = latches q s) ∧ ∀ off, reg off t = reg off s) ∧
  (∀ (p : Path) (r : BitVec 13) (v : BitVec 32) (s : State), mayWriteReg (8 * r.toNat) s = false →
    exec (.highHalfWrite p r v) s = .next s) ∧
  (∀ (p : Path) (r : BitVec 13) (s : State), s.term = .reset →
    exec (.lowHalfRead p r) s = .next s ∧ exec (.highHalfRead p r) s = .next s)

/-- R6, R9: a low-half write of a register that has no write effect of its own commits bits [31:0] with the holding latch
where its tag names the register, and with zero where it does not; RW fields and, before RUN, RWS fields take the value, W1C
fields clear on ones, the rest keep theirs; the latch is voided and no other register changes. R9, R286: a write that meets
RWS fields after RUN, or Engine-locked fields while the ring engine is not STOPPED, is counted in REG_LOCKED_WRITE and
reported with event REG_LOCKED; no locked field changes. A write that HOLDING or RESET discards changes nothing. What HOLDING
and RESET do to the latches is the model's reading (notes/assumptions/12.md). -/
def Obligations.LowHalfWriteCommits : Prop :=
  (∀ (p : Path) (r : BitVec 13) (v : BitVec 32) (row : RegRow) (s : State),
    regRow (8 * r.toNat) = some row → mayWriteReg (8 * r.toNat) s = true → findsLock row s = false →
    (∀ x n, writeHook p (8 * r.toNat) x n = none) →
    ∃ t hi, exec (.lowHalfWrite p r v) s = .next t ∧
      hi = (if (latches p s).hold.tag = some (8 * r.toNat) then (latches p s).hold.val.toNat else 0) ∧
      (openBits row s ≠ 0 → reg (8 * r.toNat) t =
        mergeReg row (openBits row s) (reg (8 * r.toNat) s) (BitVec.ofNat 40 (hi * 2 ^ 32 + v.toNat))) ∧
      (latches p t).hold = {} ∧ ∀ off, off ≠ 8 * r.toNat → reg off t = reg off s) ∧
  (∀ (p : Path) (r : BitVec 13) (v : BitVec 32) (row : RegRow) (s : State),
    regRow (8 * r.toNat) = some row → mayWriteReg (8 * r.toNat) s = true → countsNow s = true → Room s →
    findsLock row s = true → bookkeeping (8 * r.toNat) = false → (∀ x n, writeHook p (8 * r.toNat) x n = none) →
    ∃ t, exec (.lowHalfWrite p r v) s = .next t ∧ Tallied C.REG_LOCKED_WRITE 1 s t ∧ Waits E.REG_LOCKED (8 * r.toNat) t ∧
      (latches p t).hold = {} ∧
      (∀ k, (openBits row s).getLsbD k = false → (reg (8 * r.toNat) t).getLsbD k = (reg (8 * r.toNat) s).getLsbD k) ∧
      ∀ off, off ≠ 8 * r.toNat → bookkeeping off = false → reg off t = reg off s) ∧
  (∀ (p : Path) (r : BitVec 13) (v : BitVec 32) (s : State), mayWriteReg (8 * r.toNat) s = false →
    exec (.lowHalfWrite p r v) s = .next s)

/-- R7: an 8-byte read is the low-half read and the high-half read in one step, an 8-byte write the high-half write and the
low-half write; a write of any other size or alignment is counted and changes no register, whatever it addresses; a read of
another size or alignment returns the addressed bytes, doubleword by doubleword in ascending order. R8: a read of an
unassigned offset returns zero, a write of one is discarded without a count, and neither touches a latch: nothing changes but
what is sent. In RESET the register file does not answer (notes/assumptions/12.md). -/
def Obligations.OtherAccessesAndOffsets : Prop :=
  (∀ (p : Path) (r : BitVec 13) (s : State), regsAnswer s = true → regAssigned (8 * r.toNat) = true →
    ∃ t1 t2 t lo hi, exec (.lowHalfRead p r) s = .next t1 ∧ t1.out = .regData p lo :: s.out ∧
      exec (.highHalfRead p r) t1 = .next t2 ∧ t2.out = .regData p hi :: t1.out ∧
      exec (.eightByteAccess p r none) s = .next t ∧ t.out = .regData p (hi <<< 32 ||| lo) :: s.out ∧
      { t with out := t2.out } = t2) ∧
  (∀ (p : Path) (r : BitVec 13) (v : BitVec 64) (s : State), regsAnswer s = true →
    ∃ t1 t, exec (.highHalfWrite p r (v.extractLsb' 32 32)) s = .next t1 ∧
      exec (.lowHalfWrite p r (v.extractLsb' 0 32)) t1 = .next t ∧ exec (.eightByteAccess p r (some v)) s = .next t) ∧
  (∀ (p : Path) (off : BitVec 16) (size : BitVec 13) (s : State), oddAccess off.toNat size.toNat = true → countsNow s = true →
    ∃ t, exec (.badSizeWrite p off size) s = .next t ∧ Tallied C.REG_ACCESS_BAD 1 s t ∧
      ∀ a, bookkeeping a = false → reg a t = reg a s) ∧
  (∀ (p : Path) (off : BitVec 16) (size : BitVec 13) (s : State), regsAnswer s = true → 0 < size.toNat →
    off.toNat % 4 + size.toNat ≤ 4 →
    ∃ t v, readDword p (off.toNat / 4) s = (v, t) ∧ exec (.partialRead p off size) s =
      .next { t with out := .regBytes p (((bytesLE 4 v).drop (off.toNat % 4)).take size.toNat) :: s.out }) ∧
  (∀ (p : Path) (off : BitVec 16) (size : BitVec 13) (s : State), regsAnswer s = true → 4 < off.toNat % 4 + size.toNat →
    off.toNat + size.toNat ≤ 65536 →
    ∃ t1 t2 x y, exec (.partialRead p off (BitVec.ofNat 13 (4 - off.toNat % 4))) s = .next t1 ∧ t1.out = .regBytes p x :: s.out ∧
      exec (.partialRead p (BitVec.ofNat 16 (off.toNat / 4 * 4 + 4)) (BitVec.ofNat 13 (off.toNat % 4 + size.toNat - 4)))
        { t1 with out := s.out } = .next t2 ∧ t2.out = .regBytes p y :: s.out ∧
      exec (.partialRead p off size) s = .next { t2 with out := .regBytes p (x ++ y) :: s.out }) ∧
  (∀ (p : Path) (dw : BitVec 14) (eight : Bool) (s : State), regsAnswer s = true → regAssigned (8 * (dw.toNat / 2)) = false →
    (eight = true → dw.toNat % 2 = 0) →
    exec (.unassignedAccess p dw eight none) s = .next { s with out := .regData p 0 :: s.out } ∧
    ∀ w, exec (.unassignedAccess p dw eight (some w)) s = .next s) ∧
  (∀ (p : Path) (r : BitVec 13) (s : State), regsAnswer s = true → regAssigned (8 * r.toNat) = false →
    exec (.lowHalfRead p r) s = .next { s with out := .regData p 0 :: s.out } ∧
    exec (.highHalfRead p r) s = .next { s with out := .regData p 0 :: s.out } ∧
    ∀ v, exec (.highHalfWrite p r v) s = .next s ∧ exec (.lowHalfWrite p r v) s = .next s)

/-- R495: a power-on, pin, brown-out or soft reset clears every latch of every path and voids its tag; a host reset
clears the latches of the PCI Express path and leaves the other two; no other command but an access of the path changes a
path's latches. -/
def Obligations.ResetsAloneClearTheLatches : Prop :=
  (∀ (i : Instr) (s : State), i ∈ [.powerOnReset, .pinReset, .brownOutReset] →
    ∃ t, exec i s = .next t ∧ ∀ q, latches q t = {}) ∧
  (∀ s : State, s.boot.softPending = true → axIdle 0 s = true → axIdle 1 s = true →
    ∃ t, exec .softResetProceed s = .next t ∧ ∀ q, latches q t = {}) ∧
  (∀ (k : Fin 4) (s : State), s.term ≠ .reset →
    ∃ t, exec (.hostReset k) s = .next t ∧ latches .pcie t = {} ∧ latches .zwirdo t = latches .zwirdo s ∧
      latches .mgmt t = latches .mgmt s) ∧
  (∀ (i : Instr) (q : Path) (s t : State), exec i s = .next t → accessPath i ≠ some q →
    i ∉ [.powerOnReset, .pinReset, .brownOutReset, .softResetProceed] → (∀ k, i ≠ .hostReset k) → latches q t = latches q s)

/-- R15: a low-half read of TIME_NOW returns building time at its wc and phase, keeps bits [39:32] in the snapshot
latch, and captures the full cycle count in TIME_EPOCH_SNAP; no other register changes. -/
def Obligations.TimeNowReadCapturesTheCycle : Prop :=
  ∀ (p : Path) (wc : BitVec 13) (ph : BitVec 6) (s : State), regsAnswer s = true → s.term ≠ .holding → wc.toNat < 4160 →
    ∃ t w, exec (.timeNowRead p wc ph) s = .next t ∧ t.out = .regData p (BitVec.ofNat 64 (fget w 31 0)) :: s.out ∧
      (latches p t).snap = { tag := some R.TIME_NOW, val := BitVec.ofNat 8 (fget w 39 32) } ∧
      fget w F.TIME_NOW_CYCLE_LO.hi F.TIME_NOW_CYCLE_LO.lo = s.bt / 48 % 2 ^ 15 ∧
      fget w F.TIME_NOW_TICK.hi F.TIME_NOW_TICK.lo = s.bt % 48 ∧ fget w F.TIME_NOW_WC.hi F.TIME_NOW_WC.lo = wc.toNat ∧
      fget w F.TIME_NOW_PHASE.hi F.TIME_NOW_PHASE.lo = ph.toNat ∧
      rd F.TIME_EPOCH_SNAP_CYCLE t = s.bt / 48 % 2 ^ 40 ∧ ∀ off, off ≠ R.TIME_EPOCH_SNAP → reg off t = reg off s

/-! ### Reset, self-test, boot (spec/02_power_up_straps_selftest.md) -/

/-- R39: every reset sets its bit of RESET_CAUSE and leaves the others; a power-on reset clears them and sets POR; a
soft-reset request by register sets its source's bit. R37, R41, R58, R213: what a power-on, pin or brown-out reset leaves:
every register that no strap sets and the keeper does not hold is at its reset value, the outputs take their idle state, the
flash stands, the identity key stands but for a power-on reset, the straps are latched again after a power-on and a pin
reset, and a reset taken with the generator armed is recorded. Which keeper registers a reset keeps is read from several
rules (notes/assumptions/20.md). -/
def Obligations.ResetsLeaveWhatTheSpecSays : Prop :=
  (∀ s : State, ∃ t, exec .powerOnReset s = .next t ∧ t.term = .reset ∧ reg R.RESET_CAUSE t = 2) ∧
  (∀ s : State, ∃ t, exec .pinReset s = .next t ∧ t.term = .reset ∧ reg R.RESET_CAUSE t = reg R.RESET_CAUSE s ||| 4) ∧
  (∀ s : State, ∃ t, exec .brownOutReset s = .next t ∧ t.term = .reset ∧ reg R.RESET_CAUSE t = reg R.RESET_CAUSE s ||| 8) ∧
  (∀ (p : Path) (v : Word) (s : State), s.term ≠ .reset → fget v 15 0 = 0x5AFE →
    ∃ t, exec (.softReset p v) s = .next t ∧ reg R.RESET_CAUSE t = reg R.RESET_CAUSE s ||| 16 ∧ t.boot.softPending = true) ∧
  (∀ (i : Instr) (k : ResetKind) (s : State), (i, k) ∈ [(.powerOnReset, .powerOn), (.pinReset, .pin), (.brownOutReset, .brownOut)] →
    ∃ t, exec i s = .next t ∧ t.flash = s.flash ∧ t.out = .outputsIdle :: s.out ∧ t.staged = [] ∧ t.host = State.reset.host ∧
      (k ≠ .powerOn → reg R.STRAP_LATCH t = reg R.STRAP_LATCH s ∧ t.key.slots = s.key.slots.filter (fun p => p.1 == 0)) ∧
      (k = .powerOn → t.key.slots = []) ∧ t.boot.strapsDue = (decide (k ≠ .brownOut) || s.boot.strapsDue) ∧
      (k = .brownOut → reg R.SPAN_WAKE t = reg R.SPAN_WAKE s ∧ reg R.KTIMER_CFG t = reg R.KTIMER_CFG s ∧
        reg R.WAKE_CFG t = reg R.WAKE_CFG s ∧ reg R.WAKE_MASK t = reg R.WAKE_MASK s ∧
        t.pwr = { ktimer := s.pwr.ktimer }) ∧
      (k ≠ .powerOn → on F.BYPASS_STATUS_KA_ARMED s = true →
        rd F.BYPASS_STATUS_CAUSE t = 1 ∧ rd F.BYPASS_STATUS_INSERTED t = 1 ∧ t.byp.ending = some .reset) ∧
      ∀ off, off ∉ [R.RESET_CAUSE, R.STRAP_LATCH, R.SPAN_WAKE, R.KTIMER_CFG, R.KEEPER_RC, R.WAKE_CFG,
        R.WAKE_MASK, R.WAKE_STATUS, R.BYPASS_STATUS, R.BOOT_STATUS,
        R.RING_MODE, R.PCIE_CTRL, R.SELFTEST_FLAGS, R.ZWD_ADDR, R.BYPASS_CFG, R.SPAN_CFG, R.DEVICE_IDENT, R.AFE_CFG,
        R.ZWD_ALERT, R.PWR_TARGET dPCI, R.PWR_TARGET dSPE, R.GRAN_BANK_CFG, R.GRAN_STATUS] → reg off t = regDefault off)

/-- R40, R41, R42, R258: at the release after a power-on or pin reset the straps are latched and every field whose default
comes from a strap takes it; self-test begins at step 0x01, or, with boot source 0b01 and ST2 = 0, the terminal enters
HOLDING with hold code 0x10. At the release after a brown-out reset alone the straps latched before stand. R38: once both
axes are DISABLED or HELD a requested soft reset resets every block but the keeper and runs self-test again from step 0x01
with the straps already latched; before, it waits. That a soft reset goes to self-test at once, and the others wait for their
release, is the model's reading (notes/assumptions/23.md). A command outside its conditions changes nothing
(notes/assumptions/5.md). -/
def Obligations.SelfTestBeginsAfterAReset : Prop :=
  (∀ (straps : BitVec 12) (s : State), s.term = .reset → s.boot.strapsDue = true →
    ∃ t, exec (.releaseOfReset straps) s = .next t ∧ t.boot.strapsDue = false ∧ rd F.STRAP_LATCH_STRAPS t = straps.toNat ∧
      rd F.BOOT_STATUS_SOURCE t = straps.toNat % 4 ∧ rd F.RING_MODE_HOSTLESS t = (if straps.toNat % 4 = 3 then 1 else 0) ∧
      rd ⟨R.GRAN_BANK_CFG, 23, 22⟩ t = (if straps.toNat % 4 = 3 then 2 else 0) ∧
      rd F.GRAN_STATUS_FREE t = (if straps.toNat % 4 = 3 then 39840 else 43936) ∧
      rd F.GRAN_STATUS_LOW t = (if straps.toNat % 4 = 3 then 39840 else 43936) ∧
      rd F.PCIE_CTRL_ENABLE t = straps.toNat / 4 % 2 ∧
      rd (F.PWR_TARGET_TARGET dPCI) t = (if straps.toNat / 4 % 2 = 1 then 0 else 2) ∧
      rd (F.PWR_TARGET_HELD dPCI) t = 1 - straps.toNat / 4 % 2 ∧
      rd F.PCIE_CTRL_MAX_WIDTH t = (if straps.toNat / 8 % 4 = 3 then 0 else straps.toNat / 8 % 4) ∧
      rd F.SELFTEST_FLAGS_STRAP_WARN t = (if straps.toNat / 8 % 4 = 3 then 1 else 0) ∧
      rd F.ZWD_ADDR_ADDR t = 0x30 + straps.toNat / 32 % 8 ∧ rd F.BYPASS_CFG_SWITCH_CLASS t = straps.toNat / 256 % 4 ∧
      rd F.SPAN_CFG_SIDES t = straps.toNat / 1024 % 2 ∧ rd F.DEVICE_IDENT_STRAP_SIDES t = straps.toNat / 1024 % 2 ∧
      rd (F.PWR_TARGET_TARGET dSPE) t = (if straps.toNat / 1024 % 2 = 1 then 2 else 0) ∧
      rd F.BYPASS_STATUS_TURNED_E t = straps.toNat / 1024 % 2 ∧ rd F.AFE_CFG_COMPLIANCE t = straps.toNat / 2048 % 2 ∧
      (straps.toNat % 8 = 1 → t.term = .holding ∧ rd F.SELFTEST_RESULT_HOLD_CODE t = 0x10) ∧
      (straps.toNat % 8 ≠ 1 → t.term = .selftest ∧ rd F.SELFTEST_RESULT_STEP t = 1)) ∧
  (∀ (straps : BitVec 12) (s : State), s.term = .reset → s.boot.strapsDue = false →
    ∃ t, exec (.releaseOfReset straps) s = .next t ∧ reg R.STRAP_LATCH t = reg R.STRAP_LATCH s ∧
      (bootSource s = 1 → strap 2 s = false → t.term = .holding ∧ rd F.SELFTEST_RESULT_HOLD_CODE t = 0x10) ∧
      (bootSource s ≠ 1 ∨ strap 2 s = true → t.term = .selftest ∧ bootStep t = 1)) ∧
  (∀ s : State, s.boot.softPending = true → axIdle 0 s = true → axIdle 1 s = true → strapField 2 0 s ≠ 1 →
    ∃ t, exec .softResetProceed s = .next t ∧ t.term = .selftest ∧ bootStep t = 1 ∧ t.boot.softPending = false ∧
      reg R.STRAP_LATCH t = reg R.STRAP_LATCH s ∧ reg R.RESET_CAUSE t = reg R.RESET_CAUSE s ∧ t.staged = [] ∧
      t.host = State.reset.host ∧ t.out = .outputsIdle :: s.out) ∧
  (∀ s : State, (axIdle 0 s = false ∨ axIdle 1 s = false) → exec .softResetProceed s = .next s)

/-- R48, R46, R49, R50, R44: self-test runs its steps in code order; a fatal failure of a step enters HOLDING with the
step's code as hold code, its sub-code and its detail; step 0x07 passes only where its 1024 samples and the 288 of the
instantiation pass the health tests (R232); with factory hold step 0x09 ends in HOLDING with code 0x0F; with host load a
failure of it sets FLASH_FAIL and the image step waits for GO; with flash or hostless boot the image step boots the
primary slot, the staging slot where that one fails and the flash meets R427, or enters HOLDING; step 0x0B fails on lanes 0
and 1, and holds the failed ports of lanes 2 to 7 OFF; a failure of step 0x0C holds the front end OFF and goes on. -/
def Obligations.SelfTestRunsInCodeOrder : Prop :=
  ∀ (r : StepResult) (s : State) (n : Nat), s.term = .selftest → s.boot.passed = false → bootStep s = n →
    ((n ≤ 8 → r.pass = true → (n = 7 → entropyTested r.samples = true) →
        ∃ t, exec (.selftestStepDone r) s = .next t ∧ t.term = .selftest ∧ bootStep t = n + 1) ∧
     (n ≤ 8 ∨ (n = 9 ∧ bootSource s ≠ 1) ∨ n = 13 → r.pass = false ∨ (n = 7 ∧ entropyTested r.samples = false) →
        ∃ t, exec (.selftestStepDone r) s = .next t ∧ t.term = .holding ∧ bootStep t = n ∧
          rd F.SELFTEST_RESULT_HOLD_CODE t = n ∧ rd F.SELFTEST_RESULT_SUBCODE t = r.sub.toNat ∧
          rd F.SELFTEST_RESULT_DETAIL t = r.detail.toNat) ∧
     (n = 9 → r.pass = true → bootSource s = 2 → ∃ t, exec (.selftestStepDone r) s = .next t ∧ t.term = .holding ∧
        rd F.SELFTEST_RESULT_HOLD_CODE t = 0x0F) ∧
     (n = 9 → r.pass = true → bootSource s ≠ 2 → bootSource s ≠ 1 → ∃ t, exec (.selftestStepDone r) s = .next t ∧
        t.term = .selftest ∧ bootStep t = 10 ∧ rd F.FLASH_INFO_DENSITY_LOG2 t = r.detail.toNat % 256 ∧
        (on F.FLASH_INFO_LAYOUT_OK t = true ↔ 22 ≤ r.detail.toNat % 256)) ∧
     (n = 9 → bootSource s = 1 → on F.BOOT_LOAD_CTRL_GO s = false → ∃ t, exec (.selftestStepDone r) s = .next t ∧
        t.term = .selftest ∧ bootStep t = 10 ∧ t.boot.waitGo = true ∧
        (r.pass = false → rd F.SELFTEST_FLAGS_FLASH_FAIL t = 1 ∧ rd F.SELFTEST_RESULT_SUBCODE t = r.sub.toNat)) ∧
     (n = 10 → bootSource s ≠ 1 → ∃ t s1, exec (.selftestStepDone r) s = .next t ∧
        s1 = (if layoutOk s = true then loaderActs s else s) ∧
        (verifySlot fPRIMARY s1 = 0 → t.term = .selftest ∧ bootStep t = 11 ∧ rd F.BOOT_STATUS_IMAGE t = 0) ∧
        (verifySlot fPRIMARY s1 ≠ 0 → layoutOk s1 = true → verifySlot fSTAGING s1 = 0 →
          t.term = .selftest ∧ bootStep t = 11 ∧ rd F.BOOT_STATUS_IMAGE t = 1) ∧
        (verifySlot fPRIMARY s1 ≠ 0 → layoutOk s1 = false ∨ verifySlot fSTAGING s1 ≠ 0 →
          t.term = .holding ∧ rd F.SELFTEST_RESULT_HOLD_CODE t = 10)) ∧
     (n = 11 → r.pass = true ∨ lanesTested (r.detail.toNat % 256) s = 0 →
        ∃ t, exec (.selftestStepDone r) s = .next t ∧ t.term = .selftest ∧ bootStep t = 12) ∧
     (n = 11 → r.pass = false → lanesTested (r.detail.toNat % 256) s ≠ 0 → ∃ t, exec (.selftestStepDone r) s = .next t ∧
        rd F.SELFTEST_FLAGS_LANE_FAIL t = lanesTested (r.detail.toNat % 256) s ∧
        rd (F.PWR_TARGET_PORT_OFF dLAN) t = r.detail.toNat % 256 / 4 ∧
        rd (F.PWR_TARGET_PORT_HELD dLAN) t = r.detail.toNat % 256 / 4 ∧
        (lanesTested (r.detail.toNat % 256) s % 4 ≠ 0 → t.term = .holding ∧ rd F.SELFTEST_RESULT_HOLD_CODE t = 11) ∧
        (lanesTested (r.detail.toNat % 256) s % 4 = 0 → t.term = .selftest ∧ bootStep t = 12)) ∧
     (n = 12 → r.pass = true → ∃ t, exec (.selftestStepDone r) s = .next t ∧ t.term = .selftest ∧ bootStep t = 13) ∧
     (n = 12 → r.pass = false → ∃ t, exec (.selftestStepDone r) s = .next t ∧ t.term = .selftest ∧ bootStep t = 13 ∧
        rd F.SELFTEST_FLAGS_AFE_FAIL t = 1 ∧ rd (F.PWR_TARGET_TARGET dAFE) t = 2 ∧ rd (F.PWR_TARGET_HELD dAFE) t = 1) ∧
     (n = 13 → r.pass = true → ∃ t, exec (.selftestStepDone r) s = .next t ∧ t.boot.passed = true ∧ t.term = .selftest))

/-- R45: with host load, GO sends the read of the image while the image step waits; a length of 0 or over 1024 KiB fails the
step with sub-code 0x03; the end of the read boots a verified image, fails the step with the verification's sub-code, or,
where the read is cut, clears GO and waits again. R54: in HOLDING a GO with A of 0, 3 or 4 and both lengths at most 35 sends
the transaction and sets BUSY; a GO with another A or length sets ERR and sends nothing; a GO while BUSY is ignored; the
end of the transaction puts the bytes read into the data registers and clears BUSY. That the dummy bytes are 0x00 is the
model's choice (notes/assumptions/21.md). -/
def Obligations.HostLoadAndFlashBridge : Prop :=
  (∀ (p : Path) (v : Word) (s : State), s.term = .selftest → s.boot.waitGo = true → 1 ≤ fget v 11 1 → fget v 11 1 ≤ 1024 →
    ∃ t, exec (.bootLoadGo p v) s = .next t ∧ t.boot.waitGo = false ∧ rd F.BOOT_LOAD_CTRL_GO t = 1 ∧
      rd F.BOOT_LOAD_CTRL_LEN t = fget v 11 1 ∧ t.term = .selftest ∧
      t.out = .hostRead (rd F.BOOT_LOAD_ADDR_PAGE s * 4096) (fget v 11 1 * 1024) :: s.out) ∧
  (∀ (p : Path) (v : Word) (s : State), s.term = .selftest → s.boot.waitGo = true → fget v 11 1 = 0 ∨ 1024 < fget v 11 1 →
    ∃ t, exec (.bootLoadGo p v) s = .next t ∧ t.term = .holding ∧ rd F.SELFTEST_RESULT_HOLD_CODE t = 10 ∧
      rd F.SELFTEST_RESULT_SUBCODE t = 3 ∧ t.out = s.out) ∧
  (∀ (c : BitVec 4) (s : State), hostLoading s = true → ∃ t, exec (.imageLoadDone (.err c)) s = .next t ∧
    t.boot.waitGo = true ∧ rd F.BOOT_LOAD_CTRL_GO t = 0 ∧ rd F.SELFTEST_RESULT_SUBCODE t = 5 ∧
    rd F.SELFTEST_RESULT_DETAIL t = c.toNat ∧ t.term = .selftest) ∧
  (∀ (b : List Byte) (s : State), hostLoading s = true → ∃ t, exec (.imageLoadDone (.ok b)) s = .next t ∧
    rd F.BOOT_LOAD_CTRL_GO t = 0 ∧
    ∀ v, v = verifyImage (slice b 0 384) (slice b 384 (bodyLen (slice b 0 384))) (wr F.BOOT_LOAD_CTRL_GO 0 s) →
      (v = 0 → t.term = .selftest ∧ bootStep t = 11 ∧ rd F.BOOT_STATUS_IMAGE t = 0) ∧
      (v ≠ 0 → t.term = .holding ∧ rd F.SELFTEST_RESULT_HOLD_CODE t = 10 ∧ rd F.SELFTEST_RESULT_SUBCODE t = v % 256)) ∧
  (∀ (p : Path) (v : Word) (s : State), s.term = .holding → on F.FLASH_BRIDGE_CTRL_BUSY s = false →
    fget v 23 21 ∈ [0, 3, 4] → fget v 16 11 ≤ 35 → fget v 10 5 ≤ 35 →
    ∃ t tx, exec (.flashBridgeGo p v) s = .next t ∧ rd F.FLASH_BRIDGE_CTRL_BUSY t = 1 ∧ rd F.FLASH_BRIDGE_CTRL_ERR t = 0 ∧
      t.out = .spi tx (fget v 10 5) :: s.out ∧ t.boot.bridgeLen = fget v 10 5 ∧
      tx = BitVec.ofNat 8 (fget v 31 24) :: bytesBE (fget v 23 21) (rd F.FLASH_BRIDGE_ADDR_ADDR s % 256 ^ fget v 23 21) ++
        List.replicate (fget v 20 17) 0 ++ slice (bridgeData s) 0 (fget v 16 11)) ∧
  (∀ (p : Path) (v : Word) (s : State), s.term = .holding → on F.FLASH_BRIDGE_CTRL_BUSY s = false →
    fget v 23 21 ∉ [0, 3, 4] ∨ 35 < fget v 16 11 ∨ 35 < fget v 10 5 →
    ∃ t, exec (.flashBridgeGo p v) s = .next t ∧ rd F.FLASH_BRIDGE_CTRL_ERR t = 1 ∧ rd F.FLASH_BRIDGE_CTRL_BUSY t = 0 ∧
      t.out = s.out ∧ t.flash = s.flash) ∧
  (∀ (p : Path) (v : Word) (s : State), regsAnswer s = true → on F.FLASH_BRIDGE_CTRL_BUSY s = true →
    ∃ t, exec (.flashBridgeGo p v) s = .next t ∧ t.out = s.out ∧ t.flash = s.flash ∧ rd F.FLASH_BRIDGE_CTRL_BUSY t = 1) ∧
  (∀ (bytes : List Byte) (s : State), on F.FLASH_BRIDGE_CTRL_BUSY s = true → s.boot.bridgeLen ≤ 35 →
    ∃ t, exec (.flashBridgeDone bytes) s = .next t ∧ rd F.FLASH_BRIDGE_CTRL_BUSY t = 0 ∧
      slice (bridgeData t) 0 s.boot.bridgeLen = slice bytes 0 s.boot.bridgeLen ∧
      (bridgeData t).drop s.boot.bridgeLen = (bridgeData s).drop s.boot.bridgeLen)

/-- R52: the terminal leaves HOLDING only through a reset: by the power-on, pin, brown-out and soft reset commands. -/
def Obligations.OnlyAResetEndsHolding : Prop :=
  ∀ (i : Instr) (s t : State), s.term = .holding → exec i s = .next t →
    i ∉ [.powerOnReset, .pinReset, .brownOutReset, .softResetProceed] → t.term = .holding

/-- R61: LISTENING is left for ADMITTED by the insertion at a pending admission tick alone, and an admission tick becomes
pending only by an ADMIT that the terminal hears from the head end, addressed by its fingerprint, which names that tick. -/
def Obligations.OnlyInsertionAdmits : Prop :=
  (∀ (i : Instr) (s t : State), s.term = .listening → exec i s = .next t → t.term = .admitted →
    i = .insertion ∧ ∃ ti, s.byp.ti = some ti ∧ tickDue ti s.line = true) ∧
  (∀ (i : Instr) (ti : Nat) (s t : State), exec i s = .next t → t.byp.ti = some ti → s.byp.ti ≠ some ti →
    ∃ n, i = .admission n ∧ Heard kADMIT n .fprint s ∧ noteTick (stampAt (noteFields n .fprint) 0) 48 s = .ok ti)

/-- R60, R62, R408: when the last step has passed the terminal enters LISTENING with event STATE_CHANGE, and then the
firmware takes its settings; from the first tick boundary after that on, DEFAULT_TARGETS begins the transition to the default
targets, in which every domain that moves, the ring engine being stopped, reads MOVING. R284, R285: RUN is set by a write of
RUN_CTRL from LISTENING on and by none before, and by the firmware where no host sets it: at once with hostless boot, 2,000
cycles after LISTENING with flash boot. That the firmware takes its settings at that moment is the model's reading
(notes/assumptions/22.md). -/
def Obligations.ListeningBeginsAndRunIsSet : Prop :=
  (∀ s : State, s.term = .selftest → s.boot.passed = true → Room s →
    ∃ l, l.term = .listening ∧ l.boot.listened = some 0 ∧ Waits E.STATE_CHANGE 0x13 l ∧
      (∀ off, bookkeeping off = false → reg off l = reg off s) ∧
      exec .enterListening s = .next (gleanStart (loadSettings (refreshHost l)))) ∧
  (∀ (s : State) (n : Nat), s.term = .listening → s.boot.targetsDone = false → s.pwr.run = none → s.boot.listened = some n →
    0 < n →
    ∃ t r, exec .defaultTargets s = .next t ∧ t.boot.targetsDone = true ∧ t.term = .listening ∧
      t.pwr.run = some (r, domains.map (targetOf s)) ∧ r.t = s.bt ∧
      (hreState s = hreSTOPPED → s.host.stopping = false → ∀ k, k < 24 → domState k s ≠ targetOf s k → domState k t = 3)) ∧
  (∀ (p : Path) (v : Word) (s : State), fromListening s = true → ∃ t, exec (.run p v) s = .next t ∧ on F.RUN_CTRL_RUN t = true) ∧
  (∀ (p : Path) (v : Word) (s : State), fromListening s = false →
    ∃ t, exec (.run p v) s = .next t ∧ reg R.RUN_CTRL t = reg R.RUN_CTRL s) ∧
  (∀ s : State, fromListening s = true → domOn dMGT s = true → on F.RUN_CTRL_RUN s = false → bootSource s = 3 →
    ∃ t, exec .firmwareRun s = .next t ∧ on F.RUN_CTRL_RUN t = true) ∧
  (∀ (s : State) (n : Nat), fromListening s = true → domOn dMGT s = true → on F.RUN_CTRL_RUN s = false → bootSource s = 0 →
    s.boot.listened = some n → 96000 ≤ n → ∃ t, exec .firmwareRun s = .next t ∧ on F.RUN_CTRL_RUN t = true)

/-! ### The tick, bypass, admission, turns, leaving (spec/01_tick_and_word.md, spec/03_bypass_listening_admission.md) -/

/-- R14, R19: a building tick ends and the next begins: before the first ranging result building time is line time where
no result waits, after it building time is one tick later where no result and no step waits; at rest only the rest is
measured (R411); in RESET and HOLDING only the keeper's timer runs (R33, R52). R23, R24: an overrun is counted for its
engine, sets its bit, raises TICK_OVERRUN once per engine and cycle (the line cycle, for every engine: the model's choice,
notes/assumptions/79.md), and a frame-engine overrun makes the tick unhealthy. R231: the cipher overruns only where a job
has not ended by the end of its line tick. -/
def Obligations.BuildingTicksAndOverruns : Prop :=
  (∀ (i : TickIn) (s : State), s.term ≠ .reset → s.term ≠ .holding → s.pwr.resting = false →
    on F.TIME_STATUS_RANGED s = false → s.regn.pendRange = none →
    ∃ t, exec (.buildingTick i) s = .next t ∧ t.bt = s.line) ∧
  (∀ (i : TickIn) (s : State), s.term ≠ .reset → s.term ≠ .holding → s.pwr.resting = false →
    on F.TIME_STATUS_RANGED s = true → s.regn.pendRange = none → s.regn.pendStep = none →
    ∃ t, exec (.buildingTick i) s = .next t ∧ t.bt = tickAdd s.bt 1) ∧
  (∀ (i : TickIn) (s : State), fromListening s = true → s.pwr.resting = true →
    ∃ t, exec (.buildingTick i) s = .next t ∧ t.pwr.rest = s.pwr.rest + 1 ∧ t.bt = s.bt ∧ t.line = s.line) ∧
  (∀ (i : TickIn) (s : State), s.term = .reset ∨ s.term = .holding →
    exec (.buildingTick i) s = .next { s with pwr := { s.pwr with ktimer := s.pwr.ktimer.map (· - 1) } }) ∧
  (∀ (e : Fin 9) (s : State), fromListening s = true → Room s → (e.val = 3 → cipherOverrun s = true) →
    ∃ t, exec (.tickOverrun e) s = .next t ∧ Tallied (C.TICK_OVERRUN_FRM + e.val) 1 s t ∧
      rd ⟨R.TICK_OVERRUN_STATUS, e.val, e.val⟩ t = 1 ∧ nbit t.byp.overruns e.val = true ∧
      (nbit s.byp.overruns e.val = false → Waits E.TICK_OVERRUN e.val t) ∧ (e.val = 0 → t.byp.frmOverrun = true)) ∧
  (∀ s : State, cipherOverrun s = false → exec (.tickOverrun 3) s = .next s)

/-- R64, R65, R68, R81: at the end of a healthy line tick of an inserted state the armed generator toggles BYP_KA; after
an unhealthy one it is disarmed with the lowest cause, BYPASS_FALL is raised and the fall begins; the first tick in
LEAVING ends in a disarm of cause 6. R67, R68, R81: when the class time has elapsed after the last edge, a fall and a
leave bring the terminal back to LISTENING with both transmitters off, its ID cleared and its turn ended (that a turn ends
there is the model's choice, notes/assumptions/77.md), a leave with event LEAVE_DONE; after a reset INSERTED clears.
R66: the firmware's refresh gives the watchdog 8 cycles, a write from PCI Express or Zwirdo is discarded, and with no cycle
left the watchdog expires. -/
def Obligations.KeepAliveFallAndWatchdog : Prop :=
  (∀ s : State, on F.BYPASS_STATUS_KA_ARMED s = true → insertedState s.term = true → unhealthy false false s = none →
    ∃ t, exec (.healthPulse false false) s = .next t ∧ t.line = tickAdd s.line 1 ∧
      rd F.BYPASS_STATUS_KA_LEVEL t = 1 - rd F.BYPASS_STATUS_KA_LEVEL s ∧ t.byp.sinceEdge = 0 ∧ t.term = s.term ∧
      on F.BYPASS_STATUS_KA_ARMED t = true) ∧
  (∀ (p b : Bool) (c : Nat) (s : State), on F.BYPASS_STATUS_KA_ARMED s = true → insertedState s.term = true → unhealthy p b s = some c →
    Room s → ∃ t, exec (.healthPulse p b) s = .next t ∧ rd F.BYPASS_STATUS_KA_ARMED t = 0 ∧
      rd F.BYPASS_STATUS_KA_LEVEL t = 0 ∧ rd F.BYPASS_STATUS_CAUSE t = c ∧ t.byp.ending = some .fall ∧ Waits E.BYPASS_FALL c t) ∧
  (∀ (p b : Bool) (s : State), on F.BYPASS_STATUS_KA_ARMED s = true → s.term = .leaving →
    ∃ t, exec (.healthPulse p b) s = .next t ∧ rd F.BYPASS_STATUS_KA_ARMED t = 0 ∧ rd F.BYPASS_STATUS_CAUSE t = 6 ∧
      t.byp.ending = some .leave) ∧
  (∀ (k : EndKind) (s : State), s.byp.ending = some k → k ≠ .reset → fromListening s = true → classTicks s ≤ s.byp.sinceEdge → Room s →
    ∃ t, exec .classTimeElapsed s = .next t ∧ t.term = .listening ∧ t.byp.txdisW = true ∧ t.byp.txdisE = true ∧
      rd F.REG_STATUS_TERM_ID t = 0 ∧ rd F.BYPASS_STATUS_INSERTED t = 0 ∧ t.byp.ending = none ∧
      rd F.BYPASS_STATUS_TURNED_W t = 0 ∧ t.byp.turns = [] ∧ (k = .leave → Waits E.LEAVE_DONE 0 t)) ∧
  (∀ s : State, s.byp.ending = some .reset → ∃ t, exec .classTimeElapsed s = .next t ∧ rd F.BYPASS_STATUS_INSERTED t = 0 ∧
    t.byp.ending = none ∧ t.term = s.term) ∧
  (∀ (v : Word) (s : State), s.term ≠ .reset → s.term ≠ .holding → fget v 7 0 = 0xA5 →
    ∃ t, exec (.kaWatchdog .mgmt v) s = .next t ∧ rd F.KA_WATCHDOG_REMAIN t = 8 ∧ t.byp.wdExpired = false) ∧
  (∀ (p : Path) (v : Word) (s : State), p ≠ .mgmt →
    ∃ t, exec (.kaWatchdog p v) s = .next t ∧ reg R.KA_WATCHDOG t = reg R.KA_WATCHDOG s ∧ t.byp = s.byp) ∧
  (∀ s : State, fromListening s = true → rd F.KA_WATCHDOG_REMAIN s = 0 →
    ∃ t, exec .watchdogExpiry s = .next t ∧ t.byp.wdExpired = true)

/-- R77: an ADMIT heard by fingerprint in LISTENING names TI; a nearer one is ignored and counted in ADMIT_LATE. R78:
insertion at TI with an input tracked: the transmitters in use come on and the keep-alive generator is armed. R79: the
check ends with ADMIT_DONE once 16 good ticks have come on every input in use before its deadline, and with ADMIT_FAIL and
a fall of cause 0x7 once the deadline has passed. -/
def Obligations.AdmissionRuns : Prop :=
  (∀ (n : Note) (ti : Nat) (s : State), Heard kADMIT n .fprint s → noteTick (stampAt (noteFields n .fprint) 0) 48 s = .ok ti →
    ∃ t, exec (.admission n) s = .next t ∧ t.byp.ti = some ti ∧ rd F.ADMIT_TICK_TICK t = ti % 48 ∧
      rd F.ADMIT_TICK_PENDING t = 1 ∧ t.term = .listening) ∧
  (∀ (n : Note) (s : State), Heard kADMIT n .fprint s → noteTick (stampAt (noteFields n .fprint) 0) 48 s = .error nLATE →
    ∃ t, exec (.admission n) s = .next t ∧ t.byp.ti = s.byp.ti ∧ Tallied C.ADMIT_LATE 1 s t) ∧
  (∀ (ti : Nat) (s : State), s.byp.ti = some ti → s.term = .listening → tickDue ti s.line = true →
    (tracking .west s || tracking .east s) = true →
    ∃ t, exec .insertion s = .next t ∧ t.term = .admitted ∧ rd F.BYPASS_STATUS_KA_ARMED t = 1 ∧ rd F.BYPASS_STATUS_INSERTED t = 1 ∧
      t.byp.txdisW = false ∧ (singleSided s = false → t.byp.txdisE = false) ∧ t.byp.ti = none ∧ rd F.ADMIT_TICK_PENDING t = 0 ∧
      t.byp.checkFrom = some s.line) ∧
  (∀ (c : Nat) (s : State), s.byp.checkFrom = some c → s.term = .admitted → 16 ≤ s.byp.goodW →
    (singleSided s = true ∨ 16 ≤ s.byp.goodE) → checkOver c s = false → Room s → ∃ t, exec .admitDone s = .next t ∧ t.byp.admitted = true ∧ t.byp.checkFrom = none ∧
      t.term = .admitted ∧ Waits E.ADMIT_DONE 0 t) ∧
  (∀ (c : Nat) (s : State), s.byp.checkFrom = some c → (s.term = .admitted ∨ s.term = .flywheel) → checkOver c s = true → Room s →
    ∃ t, exec .admitFail s = .next t ∧ rd F.BYPASS_STATUS_KA_ARMED t = 0 ∧ rd F.BYPASS_STATUS_CAUSE t = 7 ∧
      t.byp.ending = some .fall ∧ t.byp.checkFrom = none ∧ Waits E.ADMIT_FAIL 0 t)

/-- R73, R76: a TURN or TURN_END is staged for its tick, one nearer than eight ticks is counted in TURN_LATE, and a
single-sided terminal counts both in TURN_IGNORED; it takes effect once the new source's tick marker of that tick has come,
and not before: the named side is given up, or taken back. A turn that names the other side replaces the one in force, the
model's choice (notes/assumptions/77.md). R75: an input that has lost valid signal while the other carries valid rows starts
an automatic turn, counted and raised, which takes effect at the other input's next tick marker. R81, R82, R182: a LEAVE
names the stop tick; at it, or 256 counted cycles after a LEAVE_REQ first went out unanswered, the terminal enters LEAVING; a
LEAVE_REQ is repeated while it is unanswered. A command outside its conditions changes nothing (notes/assumptions/5.md). -/
def Obligations.TurnsAndLeavesTakeEffect : Prop :=
  (∀ (n : Note) (x : Nat) (s : State), Heard kTURN n .id s → singleSided s = false → byteAt (noteFields n .id) 5 ≤ 1 →
    noteTick (stampAt (noteFields n .id) 0) 8 s = .ok x → ∃ t, exec (.turn n) s = .next t ∧
      (x, some (if byteAt (noteFields n .id) 5 = 0 then Side.east else .west)) ∈ t.byp.turns) ∧
  (∀ (n : Note) (x : Nat) (s : State), Heard kTURN_END n .id s → singleSided s = false →
    noteTick (stampAt (noteFields n .id) 0) 8 s = .ok x → ∃ t, exec (.turnEnd n) s = .next t ∧ (x, none) ∈ t.byp.turns) ∧
  (∀ (n : Note) (s : State), singleSided s = false → noteTick (stampAt (noteFields n .id) 0) 8 s = .error nLATE →
    (Heard kTURN n .id s → byteAt (noteFields n .id) 5 ≤ 1 →
      ∃ t, exec (.turn n) s = .next t ∧ Tallied C.TURN_LATE 1 s t ∧ t.byp.turns = s.byp.turns) ∧
    (Heard kTURN_END n .id s → ∃ t, exec (.turnEnd n) s = .next t ∧ Tallied C.TURN_LATE 1 s t ∧ t.byp.turns = s.byp.turns)) ∧
  (∀ (n : Note) (s : State), singleSided s = true →
    (Heard kTURN n .id s → ∃ t, exec (.turn n) s = .next t ∧ Tallied C.TURN_IGNORED 1 s t ∧ t.byp.turns = s.byp.turns) ∧
    (Heard kTURN_END n .id s →
      ∃ t, exec (.turnEnd n) s = .next t ∧ Tallied C.TURN_IGNORED 1 s t ∧ t.byp.turns = s.byp.turns)) ∧
  (∀ (sd : Side) (x : Nat) (s : State), dueTurn s = some (x, some sd) → singleSided s = false →
    insertedState s.term = true ∨ s.term = .leaving →
    (markerFrom (otherSide sd) x s = true → ∃ t, exec (.turnEffective sd) s = .next t ∧ on (fTURNED sd) t = true ∧
      (x, some sd) ∉ t.byp.turns ∧ (on (fTURNED sd) s = false → on (fTURNED (otherSide sd)) t = false)) ∧
    (markerFrom (otherSide sd) x s = false → exec (.turnEffective sd) s = .next s)) ∧
  (∀ (sd : Side) (x : Nat) (s : State), dueTurn s = some (x, none) → singleSided s = false →
    insertedState s.term = true ∨ s.term = .leaving → on (fTURNED (otherSide sd)) s = false →
    (markerFrom sd x s = true → ∃ t, exec (.turnEffective sd) s = .next t ∧ on F.BYPASS_STATUS_TURNED_W t = false ∧
      on F.BYPASS_STATUS_TURNED_E t = false ∧ on F.BYPASS_STATUS_TURN_AUTO t = false ∧ (x, none) ∉ t.byp.turns) ∧
    (markerFrom sd x s = false → exec (.turnEffective sd) s = .next s)) ∧
  (∀ (sd : Side) (s : State), singleSided s = false → on F.BYPASS_CFG_AUTO_TURN s = true → insertedState s.term = true →
    s.byp.ending = none → on (fTURNED sd) s = false → on (fTURNED (otherSide sd)) s = false → s.span.w.autoDue = false →
    s.span.e.autoDue = false → (spanOf sd s).rowsOk = false ∨ on (F.LANE_STATUS_LOS (laneOf sd)) s = true →
    (spanOf (otherSide sd) s).rowsOk = true → Room s →
    ∃ t, exec (.turnAuto sd) s = .next t ∧ (spanOf sd t).autoDue = true ∧ Tallied C.TURN_AUTO 1 s t ∧
      Waits E.TURN_AUTO (if sd = .east then 0 else 1) t) ∧
  (∀ (sd : Side) (w : RxWord) (a : Nat) (m : Bool × Nat × Nat) (s : State), tickMarker w = some m → frmRuns s = true →
    wordLock sd s = true → (spanOf (otherSide sd) s).autoDue = true →
    ∃ t, exec (.tickMarker sd w a) s = .next t ∧ on (fTURNED (otherSide sd)) t = true ∧ on F.BYPASS_STATUS_TURN_AUTO t = true ∧
      (spanOf (otherSide sd) t).autoDue = false) ∧
  (∀ (n : Note) (tl : Nat) (s : State), Heard kLEAVE n .id s → noteTick (stampAt (noteFields n .id) 0) 8 s = .ok tl →
    ∃ t, exec (.leave n) s = .next t ∧ t.byp.tl = some tl ∧ t.byp.leaveReq = none ∧ t.term = s.term) ∧
  (∀ (tl : Nat) (s : State), s.byp.tl = some tl → insertedState s.term = true → s.byp.ending = none → tickDue tl s.line = true →
    ∃ t, exec .leaving s = .next t ∧ t.term = .leaving ∧ t.byp.tl = none) ∧
  (∀ (k : Nat) (s : State), s.byp.leaveReq = some k → insertedState s.term = true → s.byp.ending = none → 256 ≤ k →
    s.line % 48 = 0 → ∃ t, exec .leaveReqTimeout s = .next t ∧ t.term = .leaving ∧ t.byp.leaveReq = none) ∧
  (∀ (k : Nat) (s : State), s.byp.leaveReq = some k → 8 ≤ s.byp.leaveRep → termId s ≠ 0 → s.note.up.length < 16 →
    ∃ t, exec .leaveReqRepeat s = .next t ∧ t.byp.leaveRep = 0 ∧ ∃ u ∈ t.note.up, u.type = nLEAVE_REQ)

/-! ### The Span lanes and the repeater (spec/04_span_line_and_repeater.md) -/

/-- R92, R93: word lock is declared on four comma-bearing words of one boundary without a code-group error, three where the
word that lost lock counts, on a running receiver with signal; it is lost, with its event, on 16 code-group errors within
1040 words and on two commas of one new boundary; signal is lost on the LOS input where enabled, on clock recovery out of
lock and on 64 words with errors, and found again by a word without one; only a change to loss is counted. R97: CDR lock
starts the adaptation LANEn_EQ.MODE asks for, and a Span lane in RETENTION keeps its setting; a sweep ends at the error-free
setting of least spread and counts EQ_ADAPT_FAIL where there is none; tracking moves one setting toward a neighbour at least
10 % better. What a lane in RETENTION does at CDR lock is the model's reading (notes/assumptions/81.md). A command outside
its conditions changes nothing (notes/assumptions/5.md). -/
def Obligations.LanesLockAndAdapt : Prop :=
  (∀ (sd : Side) (ws : List RxWord) (s : State), rxRuns (laneOf sd) s = true → on (F.LANE_STATUS_CDR_LOCK (laneOf sd)) s = true →
    on (F.LANE_STATUS_LOS (laneOf sd)) s = false → wordLock sd s = false → fourCommas (spanOf sd s).carried (RxWord.chain ws) = true →
    ∃ t, exec (.wordLock sd ws) s = .next t ∧ wordLock sd t = true ∧ (spanOf sd t).carried = false ∧
      ∀ off, off ≠ R.LANE_STATUS (laneOf sd) → reg off t = reg off s) ∧
  (∀ (sd : Side) (c : LockLoss) (s : State), rxRuns (laneOf sd) s = true → wordLock sd s = true → Room s →
    (∃ ws, c = .errors ws ∧ (RxWord.chain ws).length ≤ 1040 ∧ 16 ≤ ((RxWord.chain ws).map RxWord.errors).sum) ∨
      (∃ l, c = .commas l ∧ boundaryMoved [] l = true) →
    ∃ t, exec (.wordLockLost sd c) s = .next t ∧ wordLock sd t = false ∧ tracking sd t = false ∧ on (fFILLING sd) t = true ∧
      Waits E.WORD_LOCK_LOST (laneOf sd) t) ∧
  (∀ (sd : Side) (pin cdr : Bool) (ws : List RxWord) (s : State), rxRuns (laneOf sd) s = true →
    on (F.LANE_STATUS_LOS (laneOf sd)) s = false → Room s →
    (pin = true ∧ on F.SPAN_CFG_LOS_PIN_EN s = true) ∨ cdr = false ∨
      (64 ≤ (RxWord.chain ws).length ∧ ∀ w ∈ RxWord.chain ws, w.codeErr = true) →
    ∃ t, exec (.spanLos sd pin cdr ws) s = .next t ∧ on (F.LANE_STATUS_LOS (laneOf sd)) t = true ∧ wordLock sd t = false ∧
      Waits E.SPAN_LOS (laneOf sd) t ∧ (cdr = false → on (F.LANE_STATUS_CDR_LOCK (laneOf sd)) t = false) ∧
      (countsNow s = true → Tallied (sided C.SPAN_LOS_W (isEast sd)) 1 s t)) ∧
  (∀ (sd : Side) (pin cdr : Bool) (ws : List RxWord) (s : State), on (F.LANE_STATUS_LOS (laneOf sd)) s = true →
    exec (.spanLos sd pin cdr ws) s = .next s) ∧
  (∀ (sd : Side) (pin : Bool) (w : RxWord) (s : State), rxRuns (laneOf sd) s = true →
    on (F.LANE_STATUS_CDR_LOCK (laneOf sd)) s = true → (pin = true → on F.SPAN_CFG_LOS_PIN_EN s = false) → w.codeErr = false →
    ∃ t, exec (.lossOfSignalEnd sd pin w) s = .next t ∧ on (F.LANE_STATUS_LOS (laneOf sd)) t = false) ∧
  (∀ (l : Fin 8) (s : State), s.term ≠ .reset → laneReady l.val s = true → on (F.LANE_STATUS_CDR_LOCK l.val) s = false →
    ∃ t, exec (.cdrLock l) s = .next t ∧ on (F.LANE_STATUS_CDR_LOCK l.val) t = true ∧
      (rd (F.LANE_EQ_MODE l.val) s = 0 → rd (F.LANE_STATUS_ADAPT l.val) t = 3 ∧
        rd (F.LANE_STATUS_PEAK_NOW l.val) t = rd (F.LANE_EQ_PEAK l.val) s) ∧
      (rd (F.LANE_EQ_MODE l.val) s ≠ 0 → rd (F.LANE_STATUS_ADAPT l.val) t = 1)) ∧
  (∀ (l : Fin 8) (s : State), s.term ≠ .reset → l.val < 2 → domState (laneDomain l.val) s = 1 →
    on (F.LANE_STATUS_CDR_LOCK l.val) s = false → laneReady l.val s = false →
    ∃ t, exec (.cdrLock l) s = .next t ∧ on (F.LANE_STATUS_CDR_LOCK l.val) t = true ∧
      rd (F.LANE_STATUS_PEAK_NOW l.val) t = rd (F.LANE_STATUS_PEAK_NOW l.val) s) ∧
  (∀ (l : Fin 8) (sp : List (Option Nat)) (k v : Nat) (s : State), rd (F.LANE_STATUS_ADAPT l.val) s = 1 →
    sp.length = 16 → sp[k]? = some (some v) →
    (∀ j u : Nat, sp[j]? = some (some u) → v ≤ u ∧ (u = v → k ≤ j)) →
    ∃ t, exec (.eqSweepDone l sp) s = .next t ∧ rd (F.LANE_STATUS_PEAK_NOW l.val) t = k) ∧
  (∀ (l : Fin 8) (s : State), rd (F.LANE_STATUS_ADAPT l.val) s = 1 → countsNow s = true →
    ∃ t, exec (.eqSweepDone l (List.replicate 16 none)) s = .next t ∧ Tallied C.EQ_ADAPT_FAIL 1 s t ∧
      rd (F.LANE_STATUS_PEAK_NOW l.val) t = rd (F.LANE_EQ_PEAK l.val) s) ∧
  (∀ (l : Fin 8) (below now above k : Nat) (s : State), rd (F.LANE_STATUS_ADAPT l.val) s = 2 →
    rd (F.LANE_STATUS_PEAK_NOW l.val) s = k →
    ∃ t, exec (.eqTrack l below now above) s = .next t ∧
      (0 < k → 10 * below ≤ 9 * now → below ≤ above → rd (F.LANE_STATUS_PEAK_NOW l.val) t = k - 1) ∧
      (k < 15 → 10 * above ≤ 9 * now → above < below → rd (F.LANE_STATUS_PEAK_NOW l.val) t = k + 1) ∧
      (9 * now < 10 * below → 9 * now < 10 * above → rd (F.LANE_STATUS_PEAK_NOW l.val) t = k))

/-- R104: the path leaves fill once lock and frame position hold and a tick marker has come since it began, with O = 16, and
not before. R105-R109, R111: of a received Headland, the idles up to the first other word, the path forwards one idle more
below occupancy 16, or none more where it has over 19; one less above 16, the 13th, or none less where it has under 13; and
outside 8 to 24 it slips to 16. R112: a store reset sends an error word of reason 0x01 on every output the path feeds and
starts fill, which is counted. A command outside its conditions changes nothing (notes/assumptions/5.md). -/
def Obligations.RepeaterKeepsItsStore : Prop :=
  (∀ (sd : Side) (n : Nat) (s : State), rxRuns (laneOf sd) s = true → wordLock sd s = true → tracking sd s = true →
    on (fFILLING sd) s = true →
    ((spanOf sd s).marker = true → ∃ t, exec (.fillEnd sd n) s = .next t ∧ on (fFILLING sd) t = false ∧ (spanOf sd t).occ = 16) ∧
    ((spanOf sd s).marker = false → exec (.fillEnd sd n) s = .next s)) ∧
  (∀ (sd : Side) (occ : BitVec 6) (ws : List RxWord) (s : State), rxRuns (laneOf sd) s = true → wordLock sd s = true →
    tracking sd s = true → on (fFILLING sd) s = false →
    ∃ t h f, exec (.headlandDecision sd occ ws) s = .next t ∧
      h = ((RxWord.chain ws).takeWhile isIdle).map (fun w => (w.k, w.data)) ∧ (spanOf sd t).head = f ∧ rd (fOCC sd) t = occ.toNat ∧
      (occ.toNat = 16 → f = h) ∧
      (8 ≤ occ.toNat → occ.toNat < 16 → f = if h.length ≤ 19 then h ++ [clearWord] else h) ∧
      (16 < occ.toNat → occ.toNat ≤ 24 → f = if 13 ≤ h.length then h.eraseIdx 12 else h) ∧
      (occ.toNat < 8 → f = h ++ List.replicate (16 - occ.toNat) clearWord) ∧
      (24 < occ.toNat → f = h.drop (occ.toNat - 16)) ∧
      (occ.toNat < 8 ∨ 24 < occ.toNat → on (fSLIP sd) t = true ∧ (Room s → Waits E.SPAN_SLIP (laneOf sd) t))) ∧
  (∀ (sd : Side) (s : State), rxRuns (laneOf sd) s = true → on (fFILLING sd) s = false →
    ∃ t, exec (.storeReset sd) s = .next t ∧ on (fFILLING sd) t = true ∧
      (countsNow s = true → Tallied (sided C.STORE_RESET_W (isEast sd)) 1 s t) ∧
      ∀ p, feeds sd p s = true → sends p s = true → .wordsOut p (spanOf p s).txRd [errorWord 1 s] ∈ t.out)

/-! ### The tick frame (spec/05_tick_frame.md) -/

/-- R115, R120, R122: a valid tick marker gives a tracker its frame position; a missed one moves it to the frame that
follows, and the fourth miss in a row loses it. R118, R119, R131: a row is judged against its copy's tracker, and the
first copy that passes is selected: verdict and side stand in the row's record, and row 0 of the latest frame sets
ROW0_OK; the copy that passes second, of two in one fc cycle the East one (the order of the commands,
notes/assumptions/73.md), changes no selection. R132, R124: a row whose copies have failed is counted in SPAN_ROW_LOST, and a
lost row 0 of the latest frame clears ROW0_OK and, with no usable header taken or lost, HDR_OK. -/
def Obligations.RowsAreTrackedAndSelected : Prop :=
  (∀ (sd : Side) (w : RxWord) (a : Nat) (dir : Bool) (tick cyc : Nat) (s : State), tickMarker w = some (dir, tick, cyc) →
    frmRuns s = true → wordLock sd s = true → ∃ t, exec (.tickMarker sd w a) s = .next t ∧ tracking sd t = true ∧
      trkFrame sd t = { cyc8 := cyc, tick } ∧ (trk sd t).seen = true ∧ (trk sd t).misses = 0) ∧
  (∀ (sd : Side) (ws : List RxWord) (s : State), frmRuns s = true → tracking sd s = true → (trk sd s).misses < 3 →
    ∃ t, exec (.tickMarkerMiss sd ws) s = .next t ∧ tracking sd t = true ∧ trkFrame sd t = nextFrame (trkFrame sd s) ∧
      (trk sd t).misses = (trk sd s).misses + 1 ∧ Tallied (sided C.TICK_MARKER_MISS_W (isEast sd)) 1 s t) ∧
  (∀ (sd : Side) (ws : List RxWord) (s : State), frmRuns s = true → tracking sd s = true → 3 ≤ (trk sd s).misses → Room s →
    ∃ t, exec (.tickMarkerMiss sd ws) s = .next t ∧ tracking sd t = false ∧ Waits E.TRACK_LOST (laneOf sd) t) ∧
  (∀ (sd : Side) (row : BitVec 5) (words : List RxWord) (s : State), frmRuns s = true → wordLock sd s = true →
    tracking sd s = true → usedSide sd s = true → (judgeRow sd row.toNat (chainRow row.toNat words) s).1 = .pass →
    (rowRec (trkFrame sd s) row.toNat s = none →
      ∃ t r, exec (.rowCheck sd row words) s = .next t ∧ rowRec (trkFrame sd s) row.toNat t = some r ∧ r.sel = some sd ∧
        recVerdict sd r = some .pass ∧
        (row = 0 → t.frame.row0Frame = some (trkFrame sd s) ∧ t.frame.row0Id = termId s ∧
          (laterFrame s.frame.row0Last (trkFrame sd s) s = true → on F.FRAME_STATUS_ROW0_OK t = true))) ∧
    (∀ x sel, rowRec (trkFrame sd s) row.toNat s = some x → x.sel = some sel →
      ∃ t r, exec (.rowCheck sd row words) s = .next t ∧ rowRec (trkFrame sd s) row.toNat t = some r ∧ r.sel = some sel ∧
        recVerdict sd r = some .pass ∧ t.frame.row0Frame = s.frame.row0Frame)) ∧
  (∀ (f : FrameId) (row : BitVec 5) (e : Bool) (r : RowRec) (s : State), rowRec f row.toNat s = some r → frmRuns s = true →
    rowIsLost e r s = true →
    ∃ t, exec (.spanRowLost f row e) s = .next t ∧ Tallied C.SPAN_ROW_LOST 1 s t ∧
      (row.toNat = 0 → (laterFrame s.frame.row0Last f s = true → on F.FRAME_STATUS_ROW0_OK t = false) ∧
        (hdrSettled f s = false → laterFrame s.frame.hdrFrame f s = true → on F.FRAME_STATUS_HDR_OK t = false)) ∧
      (rowRec f row.toNat t).any (fun x => x.lost) = true)

/-- R123, R124, R125, R127: a usable header gives line time, its source, the head-end state and the generations. One of an
earlier frame, which the slower copy brings later, leaves line time and the latest header as they are, the model's reading
(notes/assumptions/74.md). R127, R29, R137, R221: a staged generation of P, map or key takes effect at its tick. -/
def Obligations.HeadersGiveTimeAndGenerations : Prop :=
  (∀ (sd : Side) (words ws : List RxWord) (n src : Nat) (s : State), frmRuns s = true → usedSide sd s = true →
    ws = RxWord.chain words → headerSource sd ws s = some src →
    n = (ws.getD 1 RxWord.absent).data.toNat * 48 + fget (ws.getD 2 RxWord.absent).data 39 34 → hdrSettled (frameOf n) s = false →
    (s.frame.hdrFrame.any (fun g => lateTick n (absTick g s)) = false →
      ∃ t, exec (.frameHeader sd words) s = .next t ∧ t.line = n ∧
        rd F.FRAME_STATUS_HDR_SRC t = src % 4 ∧ on F.FRAME_STATUS_HDR_OK t = true ∧
        rd F.FRAME_STATUS_HE_STATE t = fget (ws.getD 2 RxWord.absent).data 33 30 ∧ t.frame.hdrSeen = true ∧
        rd F.FRAME_GEN_LOOP_GEN t = fget (ws.getD 3 RxWord.absent).data 15 12 ∧
        t.frame.hdrFrame = some (frameOf n)) ∧
    (s.frame.hdrFrame.any (fun g => lateTick n (absTick g s)) = true →
      ∃ t, exec (.frameHeader sd words) s = .next t ∧ t.line = s.line ∧ t.frame.hdrFrame = s.frame.hdrFrame ∧
        rd F.FRAME_STATUS_HDR_SRC t = rd F.FRAME_STATUS_HDR_SRC s ∧ rd F.FRAME_GEN_LOOP_GEN t = rd F.FRAME_GEN_LOOP_GEN s)) ∧
  (∀ (x p : Nat) (s : State), s.frame.pNext = some (x, p) → tickDue x s.line = true → p ≤ 15 →
    ∃ t, exec (.generationEffective .p) s = .next t ∧ rd F.TIME_STATUS_P t = p ∧ t.frame.pNext = none ∧
      rd F.TIME_STATUS_P_GEN t = (rd F.TIME_STATUS_P_GEN s + 1) % 16 ∧ t.frame.pFrom = x ∧ t.frame.prevP = rd F.TIME_STATUS_P s) ∧
  (∀ (x : Nat) (s : State), s.frame.mapNext = some x → tickDue x s.line = true →
    ∃ t, exec (.generationEffective .map) s = .next t ∧ rd F.FRAME_GEN_MAP_GEN t = (rd F.FRAME_GEN_MAP_GEN s + 1) % 16 ∧
      t.frame.curFrom = x ∧ t.frame.mapNext = none ∧ t.frame.prevMap = s.frame.curMap) ∧
  (∀ (x : Nat) (s : State), s.frame.keyNext = some x → tickDue x s.line = true →
    ∃ t, exec (.generationEffective .key) s = .next t ∧ rd F.FRAME_GEN_KEY_GEN t = (rd F.FRAME_GEN_KEY_GEN s + 1) % 16 ∧
      t.key.prevGen = rd F.FRAME_GEN_KEY_GEN s ∧ t.key.genFrom = x ∧ t.frame.keyNext = none)

/-- R141, R142: a good express word for this terminal with a new SEQ is executed once: it is counted in EXPRESS_DONE and its
channel keeps its SEQ; a copy of it is counted in EXPRESS_DUP and does nothing; one whose check fails is counted in
EXPRESS_BAD; the channel's SEQ is forgotten after 6 ticks. -/
def Obligations.ExpressWordActsOnce : Prop :=
  (∀ (sd : Side) (w : RxWord) (s : State), frmRuns s = true → isK kExpress w = true → badWord w = false →
    on F.SEL_CFG_EXPRESS_EN s = true → s.term = .running → tracking sd s = true → Room s →
    (crc8 ((wordBytes w.data).drop 1 |>.take 3) = wbyte w.data 4 →
      (wbyte w.data 1 % 64 = 63 ∨ wbyte w.data 1 % 64 = termId s) →
      ∃ t, exec (.expressWord sd w (portDir sd)) s = .next t ∧
        (expressNew (wbyte w.data 2) (wbyte w.data 3 / 16) s = true → Tallied C.EXPRESS_DONE 1 s t ∧
          SMap.find t.frame.express (wbyte w.data 2) = some (wbyte w.data 3 / 16, s.line)) ∧
        (expressNew (wbyte w.data 2) (wbyte w.data 3 / 16) s = false →
          t.frame = s.frame ∧ t.show_ = s.show_ ∧ Tallied C.EXPRESS_DUP 1 s t)) ∧
    (crc8 ((wordBytes w.data).drop 1 |>.take 3) ≠ wbyte w.data 4 →
      ∃ t, exec (.expressWord sd w (portDir sd)) s = .next t ∧ t.frame = s.frame ∧ Tallied C.EXPRESS_BAD 1 s t)) ∧
  (∀ (ch : BitVec 8) (q x : Nat) (s : State), SMap.find s.frame.express ch.toNat = some (q, x) → 6 ≤ tickDiff s.line x →
    ∃ t, exec (.channelLastExpiry ch) s = .next t ∧ t.frame.express = SMap.del s.frame.express ch.toNat)

/-! ### Upstream windows and the cipher (spec/08_upstream_windows.md, spec/09_keys_cipher_signatures.md) -/

/-- R128, R194, R195: an entry of the grant map that bears the terminal's ID and breaks no rule gives it a window of the next
frame, kept in WIN_LAST_GRANT, unless it overlaps another or is a third, which is counted; one with TID 0 or 63 and a
malformed one are counted in GRANT_MALFORMED; an all-zero entry is skipped. R201, R203: of the windows that wait the next
one's burst locks into a free buffer. R205, R206, R207: a waiting burst is written into a copy that meets the conditions,
laid over its row, and then no longer waits on that copy; a copy that does not meet them is passed over. R203, R205: a buffer
whose burst waits on no copy, or for longer than 12,480 wc, is freed, and one whose window's conditions failed on every copy
is counted in WIN_WITHHELD. What of a window's class is not complete at its lock is an operand (notes/assumptions/87.md). -/
def Obligations.WindowsAreGrantedAndWritten : Prop :=
  (∀ (e : Word) (f : FrameId) (s : State), s.frame.row0Frame = some f → frmRuns s = true → s.term ≠ .listening →
    (rowRec f 0 s).any (fun r => r.he == some 0) = false → gTid e = s.frame.row0Id → gTid e = termId s → gTid e ≠ 0 →
    gTid e ≠ 63 → grantBad e = false → s.byp.ending = none → s.term ∈ [TermState.admitted, .claiming, .ranging, .running] →
    ∃ t, exec (.grantMap [e]) s = .next t ∧ t.regn.granted = true ∧ rd F.REG_STATUS_GRANT_IDLE t = 0 ∧
      ((frameWins (frameOf (tickAdd (absTick f s) 1)) s).any (overlaps (gStart e) (gFoot e)) = true →
        t.win = s.win ∧ Tallied C.GRANT_OVERLAP 1 s t) ∧
      ((frameWins (frameOf (tickAdd (absTick f s) 1)) s).any (overlaps (gStart e) (gFoot e)) = false →
        2 ≤ (frameWins (frameOf (tickAdd (absTick f s) 1)) s).length → t.win = s.win ∧ Tallied C.GRANT_EXCESS 1 s t) ∧
      ((frameWins (frameOf (tickAdd (absTick f s) 1)) s).any (overlaps (gStart e) (gFoot e)) = false →
        (frameWins (frameOf (tickAdd (absTick f s) 1)) s).length < 2 → reg R.WIN_LAST_GRANT t = e ∧
        { frame := frameOf (tickAdd (absTick f s) 1), id := gTid e, mask := gMask e, start := gStart e, foot := gFoot e,
          tag := gTag e, cls := gClass e : Win } ∈ t.win.wins)) ∧
  (∀ (e : Word) (f : FrameId) (s : State), s.frame.row0Frame = some f → frmRuns s = true → s.term ≠ .listening →
    (rowRec f 0 s).any (fun r => r.he == some 0) = false → e ≠ 0 →
    (gTid e = 0 ∨ gTid e = 63 ∨ (gTid e = s.frame.row0Id ∧ grantBad e = true)) →
    ∃ t, exec (.grantMap [e]) s = .next t ∧ t.win = s.win ∧ Tallied C.GRANT_MALFORMED 1 s t) ∧
  (∀ (f : FrameId) (s : State), s.frame.row0Frame = some f → frmRuns s = true →
    ∃ t, exec (.grantMap [0]) s = .next t ∧ t.win = s.win ∧ ∀ off, reg off t = reg off s) ∧
  (∀ (l : List Nat) (w : Win) (b : Nat) (s : State), nextWin s = some w → freeBuf 0 8 s = some b → 8 ≤ s.win.bufs.length →
    ∃ t x, exec (.burstLock l) s = .next t ∧ t.win.bufs.getD b none = some x ∧ x.win = w ∧ x.wrote = false ∧
      t.win.wins = s.win.wins.erase w) ∧
  (∀ (sd : Side) (k : Nat) (b : Burst) (rx : List RxWord) (s : State), s.win.bufs.getD k none = some b → waitsOn sd b = true →
    tracking sd s = true → trkFrame sd s = b.win.frame →
    (on (fFILLING sd) s = false → mayWrite b s = true →
      ∃ t x p, exec (.windowWrite sd k (some (portDir sd)) rx) s = .next t ∧ t.win.bufs.getD k none = some x ∧ x.wrote = true ∧
        waitsOn sd x = false ∧ t.out = .burstOut sd b.win.start (List.zipWith (overWord s) rx (footprint b)) :: s.out ∧
        p ∈ t.win.puts ∧ p.side = sd ∧ p.row = b.win.start / 130 ∧ p.at_ = b.win.start % 130 ∧
        p.words = List.zipWith (overWord s) rx (footprint b)) ∧
    (∀ d, on (fFILLING sd) s = true ∨ d ≠ some (portDir sd) →
      ∃ t x, exec (.windowWrite sd k d rx) s = .next t ∧ t.win.bufs.getD k none = some x ∧ x.wrote = b.wrote ∧
        waitsOn sd x = false ∧ t.out = s.out)) ∧
  (∀ (k : Nat) (b : Burst) (s : State), s.win.bufs.getD k none = some b →
    (stillWaits b s = false ∨ 3 ≤ tickDiff s.line b.since →
      ∃ t, exec (.burstBufferRelease k) s = .next t ∧ t.win.bufs.getD k none = none ∧
        (b.wrote = false → b.refused = false → stillWaits b s = false → countsNow s = true → Tallied C.WIN_WITHHELD 1 s t)) ∧
    (stillWaits b s = true → tickDiff s.line b.since < 3 → exec (.burstBufferRelease k) s = .next s))

/-- R220, R221, R230, R231: an accepted key becomes usable at its tick, the keys of the generation before are erased at
theirs, and the job a core runs, once it is done, is marked or, downstream with its words held, opened and gone. R232, R233:
a failed continuous test withholds the entropy source's output and is counted; the DRBG reseeds on 192 good samples or is
deferred and counted, stops after 64 cycles without a reseed, the keys standing (R234), and instantiates again on 1024 good
samples; the source's output is released after 1024 good samples. R235, R236: an operation of the signature unit ends with
its code and status in SIG_STATUS and its output; one whose inputs fail gives a status other than OK and is counted in
SIG_OP_FAIL. -/
def Obligations.KeysCipherAndRandomness : Prop :=
  (∀ (term : Bool) (g : BitVec 4) (x : Nat) (s : State), (keyNo term g.toNat, x) ∈ s.key.expanding → tickDue x s.bt = true →
    ∃ t, exec (.keyReady term g) s = .next t ∧ (keyNo term g.toNat, x) ∉ t.key.expanding ∧ t.key.slots = s.key.slots) ∧
  (∀ (x g : Nat) (s : State), (x, g) ∈ s.key.eraseAt → tickDue x s.line = true →
    ∃ t, exec .keyErase s = .next t ∧ (x, g) ∉ t.key.eraseAt ∧ keySlot (16 + g) t = none ∧ keySlot (32 + g) t = none ∧
      ∀ n, (∀ p ∈ s.key.eraseAt, n ≠ 16 + p.2 ∧ n ≠ 32 + p.2) → keySlot n t = keySlot n s) ∧
  (∀ (c : Fin 6) (a : Nat) (j : Job) (s : State), coresRun s = true → jobOn c.val s = some j → (j.up = true ∨ j.words = none) →
    ∃ t, exec (.cipherJobDone c a) s = .next t ∧ ({ j with done := true } : Job) ∈ t.key.jobs) ∧
  (∀ (c : Fin 6) (a : Nat) (j : Job) (ws : List Word) (s : State), coresRun s = true → jobOn c.val s = some j →
    j.up = false → j.words = some ws →
    ∃ t, exec (.cipherJobDone c a) s = .next t ∧ ∀ i ∈ t.key.jobs, isJob false j.tag j.obj i = false) ∧
  (∀ (ws : List Byte) (s : State), domOn dCIP s = true → 2 ≤ rd F.ENTROPY_STATUS_STATE s → countsNow s = true → Room s →
    (rctFails none 0 ws = true ∨ aptFails ws = true) →
    ∃ t, exec (.entropyFail ws) s = .next t ∧ rd F.ENTROPY_STATUS_STATE t = 3 ∧
      Tallied (if rctFails none 0 ws then C.ENTROPY_FAIL_RCT else C.ENTROPY_FAIL_APT) 1 s t ∧
      (s.key.entRaised = false → Waits E.ENTROPY_FAIL (if rctFails none 0 ws then 0 else 1) t)) ∧
  (∀ (ws : List Byte) (s : State), drbgRuns s = true → domOn dCIP s = true →
    ∃ t, exec (.drbgReseed ws) s = .next t ∧
      (samplesPass 192 ws = true → rd F.ENTROPY_STATUS_STATE s = 2 → rd F.DRBG_STATUS_SINCE_RESEED t = 0 ∧ rd F.DRBG_STATUS_STATE t = 1) ∧
      (samplesPass 192 ws = false ∨ rd F.ENTROPY_STATUS_STATE s ≠ 2 →
        rd F.DRBG_STATUS_SINCE_RESEED t = min 255 (rd F.DRBG_STATUS_SINCE_RESEED s + 1) ∧ rd F.DRBG_STATUS_STATE t = 2 ∧
        (countsNow s = true → Tallied C.DRBG_RESEED_LATE 1 s t))) ∧
  (∀ s : State, drbgRuns s = true → 64 ≤ rd F.DRBG_STATUS_SINCE_RESEED s → Room s →
    ∃ t, exec .drbgStopped s = .next t ∧ rd F.DRBG_STATUS_STATE t = 3 ∧ Waits E.DRBG_STOPPED 0 t ∧ t.key.slots = s.key.slots) ∧
  (∀ (ws : List Byte) (s : State), rd F.DRBG_STATUS_STATE s = 3 → domOn dCIP s = true → samplesPass 1024 ws = true →
    ∃ t, exec (.drbgReinstantiate ws) s = .next t ∧ rd F.DRBG_STATUS_STATE t = 1 ∧ rd F.DRBG_STATUS_SINCE_RESEED t = 0) ∧
  (∀ (ws : List Byte) (s : State), domOn dCIP s = true → rd F.ENTROPY_STATUS_STATE s = 3 → samplesPass 1024 ws = true →
    ∃ t, exec (.entropyRetestPass ws) s = .next t ∧ rd F.ENTROPY_STATUS_STATE t = 2) ∧
  (∀ (op : SigOp) (s : State), domOn dCIP s = true → countsNow s = true →
    ∃ t u st o, sigRun op s = (st, o, u) ∧ exec (.sigOpDone op) s = .next t ∧ rd F.SIG_STATUS_LAST_OP t = sigCode op ∧
      rd F.SIG_STATUS_LAST_STATUS t = st % 16 ∧ t.out = .sigResult o st :: s.out ∧ (st ≠ sigOK → Tallied C.SIG_OP_FAIL 1 s t))

/-! ### Registration, ranging and time (spec/06_registration_ranging_time.md) -/

/-- R214, R236: a CLAIM is prepared with a key pair and a signature, and is made again where the signature unit answers
BAD_RESULT. R145, R146, R147: it goes into a discovery window of enough words that is free on a copy, no earlier than its
back-off, is counted in CLAIM_SENT once it has been written, and is offered again 16 counted cycles later where no ASSIGN
came. R148, R149, R216, R217: an ASSIGN that bears this CLAIM's nonce and passes the key agreement gives the ID, RANGING and
an ASSIGN_ACK; its signature is verified after it: K_WRAP is then held, or the ID is dropped and a new CLAIM begins, in
FLYWHEEL when that ends. R151: a RELEASE, and 64 counted cycles without a grant, drop the ID, its subscriptions and its keys,
and the terminal claims again. -/
def Obligations.ClaimsGiveAndLoseTheID : Prop :=
  (∀ s : State, s.regn.preparing = true → claiming s = true → houseHeld s = true → domOn dCIP s = true → drbgRuns s = true →
    ∃ t st, exec .claimPrepared s = .next t ∧ t.term = s.term ∧ rd F.SIG_STATUS_LAST_OP t = 7 ∧ rd F.SIG_STATUS_LAST_STATUS t = st % 16 ∧
      (s.regn.ePub = [] → (keySlot 1 t).isSome = true ∧ t.regn.ePub ≠ []) ∧
      (st ≠ sigBAD_RESULT → t.regn.prepared = true ∧ t.regn.preparing = false) ∧
      (st = sigBAD_RESULT → t.regn.prepared = s.regn.prepared ∧ t.regn.preparing = true)) ∧
  (∀ (o : DiscOffer) (w e : Option RxWord) (k : Nat) (s : State), s.frame.disc = some o → s.term = .claiming → s.byp.ending = none →
    claimFoot ≤ o.foot → s.regn.prepared = true → houseHeld s = true → claimOut s = false → s.regn.backoff = 0 →
    offerStands o s = true → (w.any (fun x => !takenBy x) = true ∨ (e.any (fun x => !takenBy x) = true ∧ singleSided s = false)) →
    freeBuf 0 8 s = some k → 8 ≤ s.win.bufs.length →
    ∃ t b, exec (.claim w e) s = .next t ∧ t.frame.disc = none ∧ t.win.bufs.getD k none = some b ∧ b.win.id = 0 ∧
      b.win.start = o.start ∧ b.win.frame = o.frame ∧ b.toW = w.any (fun x => !takenBy x) ∧
      b.toE = (!singleSided s && e.any (fun x => !takenBy x))) ∧
  (∀ (o : DiscOffer) (w e : Option RxWord) (s : State), s.frame.disc = some o → s.term = .claiming → s.byp.ending = none →
    s.regn.prepared = true → houseHeld s = true → claimOut s = false → 0 < s.regn.backoff →
    ∃ t, exec (.claim w e) s = .next t ∧ t.regn.backoff = s.regn.backoff - 1 ∧ t.win = s.win) ∧
  (∀ (sd : Side) (k : Nat) (b : Burst) (rx : List RxWord) (s : State), s.win.bufs.getD k none = some b → isClaim b = true →
    b.wrote = false → waitsOn sd b = true → tracking sd s = true → trkFrame sd s = b.win.frame → on (fFILLING sd) s = false →
    s.term = .claiming → s.byp.ending = none →
    ∃ t, exec (.windowWrite sd k (some (portDir sd)) rx) s = .next t ∧ t.regn.claimTimer = some 0 ∧ Tallied C.CLAIM_SENT 1 s t) ∧
  (∀ (k : Nat) (s : State), s.regn.claimTimer = some k → s.term = .claiming → 16 ≤ k →
    ∃ t, exec .claimRetry s = .next t ∧ t.regn.claimTimer = none ∧ Tallied C.CLAIM_RETRY 1 s t) ∧
  (∀ (n : Note) (s : State), Heard kASSIGN n .fprint s → s.term = .claiming → Room s → Space s →
    1 ≤ byteAt (noteFields n .fprint) 5 → byteAt (noteFields n .fprint) 5 ≤ 62 →
    bytesWord ((noteFields n .fprint).take 5) = reg R.CLAIM_NONCE s → s.regn.lastAssign = none → houseHeld s = true →
    s.regn.prepared = true → pointStatus (bytesPoint (slice (noteFields n .fprint) 6 64)).1 (bytesPoint (slice (noteFields n .fprint) 6 64)).2 = sigOK →
    ∃ t, exec (.assign n) s = .next t ∧ t.term = .ranging ∧ rd F.REG_STATUS_TERM_ID t = byteAt (noteFields n .fprint) 5 ∧
      rd F.SPAN_WAKE_WAKE_ID t = byteAt (noteFields n .fprint) 5 ∧ t.regn.assignWork.isSome = true ∧ t.regn.claimTimer = none ∧
      rd F.RANGE_STATUS_MEASURING t = 1 ∧ Waits E.REGISTERED (byteAt (noteFields n .fprint) 5) t ∧ (∃ u ∈ t.note.up, u.type = nASSIGN_ACK)) ∧
  (∀ (w : AssignWork) (v : Nat) (s : State), s.regn.assignWork = some w → domOn dCIP s = true → countsNow s = true → Room s →
    v = verifyOp (bytesPoint s.key.housePub).1 (bytesPoint s.key.housePub).2 (beNat (slice w.sig 0 32)) (beNat (slice w.sig 32 32))
      (beNat (sha256 (w.nonce ++ [BitVec.ofNat 8 w.id] ++ w.eH ++ fingerprint ++ s.regn.ePub))) →
    ∃ t, exec .assignVerifyDone s = .next t ∧ (v = sigOK → (keySlot 3 t).isSome = true ∧ t.regn.assignWork = none) ∧
      (v ≠ sigOK → rd F.REG_STATUS_TERM_ID t = 0 ∧ t.regn.assignWork = none ∧ Waits E.ASSIGN_FORGED 0 t ∧
        (s.term = .leaving → t.term = .leaving) ∧ (s.term = .flywheel → t.term = .flywheel ∧ t.regn.flyPrior = some .claiming) ∧
        (s.term ≠ .leaving → s.term ≠ .flywheel → t.term = .claiming))) ∧
  (∀ (n : Note) (a : NAddr) (s : State), Heard kRELEASE n a s → Room s →
    ∃ t, exec (.release n) s = .next t ∧ t.term = .claiming ∧ rd F.REG_STATUS_TERM_ID t = 0 ∧ t.frame.subs = [] ∧ t.frame.subStage = [] ∧
      (∀ k, (isSession k || isTerminal k) = true → keySlot k t = none) ∧ Waits E.RELEASED 0 t) ∧
  (∀ s : State, (s.term = .ranging ∨ s.term = .running) → termId s ≠ 0 → 64 ≤ rd F.REG_STATUS_GRANT_IDLE s → Room s →
    ∃ t, exec .grantTimeout s = .next t ∧ t.term = .claiming ∧ rd F.REG_STATUS_TERM_ID t = 0 ∧ t.frame.subs = [] ∧
      (∀ k, (isSession k || isTerminal k) = true → keySlot k t = none) ∧ Waits E.RELEASED 1 t)

/-- R155, R157, R159, R160: a measurement of 48 ticks in full ends, waits as the result for the next tick boundary and is
reported, and one that is not in full goes on; the report is repeated while it is not acknowledged; the head end's answers
acknowledge it, ask for another, or set ASYM. A command outside its conditions changes nothing (notes/assumptions/5.md). -/
def Obligations.RangingReportsItsResult : Prop :=
  (∀ (x : Ranged) (s : State), on F.RANGE_STATUS_MEASURING s = true → measured s = some x →
    ∃ t, exec .rangeResult s = .next t ∧ rd F.RANGE_STATUS_MEASURING t = 0 ∧
      (t.regn.pendRange.any (fun r => r.dE == x.dE && r.dW == x.dW && r.mode == x.mode)) = true ∧
      rd F.RANGE_STATUS_REPORT_SEQ t = (rd F.RANGE_STATUS_REPORT_SEQ s + 1) % 256 ∧ rd F.RANGE_STATUS_ACKED t = 0 ∧ t.regn.report.isSome = true) ∧
  (∀ s : State, measured s = none → exec .rangeResult s = .next s) ∧
  (∀ (b : List Byte) (s : State), s.regn.report = some b → (s.term = .ranging ∨ s.term = .running) → on F.RANGE_STATUS_ACKED s = false →
    8 ≤ s.regn.reportRep → Space s → ∃ t, exec .rangeReportRepeat s = .next t ∧ t.regn.reportRep = 0 ∧ Queued nRANGE_REPORT b t) ∧
  (∀ (n : Note) (b : List Byte) (s : State), Heard kRANGE_OK n .id s → s.regn.report = some b →
    byteAt (noteFields n .id) 0 = rd F.RANGE_STATUS_REPORT_SEQ s →
    ∃ t, exec (.rangeOk n) s = .next t ∧ rd F.RANGE_STATUS_ACKED t = 1 ∧ t.term = .running) ∧
  (∀ (n : Note) (s : State), Heard kRANGE_RETRY n .id s → Space s →
    ∃ t, exec (.rangeRetry n) s = .next t ∧ rd F.RANGE_STATUS_MEASURING t = 1 ∧ Acked n nDONE t) ∧
  (∀ (n : Note) (s : State), Heard kRANGE_ADJ n .id s → Space s →
    ∃ t, exec (.rangeAdj n) s = .next t ∧ rd F.RANGE_STATUS_ASYM t = beNat (slice (noteFields n .id) 0 2) ∧ Acked n nDONE t)

/-- R162: a recompute within 2 wc slews the applied delays to it; one beyond on a direction counts RANGE_JUMP, once for the
two judged together (the model's choice, notes/assumptions/78.md), and changes neither, but the eighth in a row waits as a
step; with one delay alone computed the other is 0 (R156). R163, R165: a delay step of more than 2 wc holds its direction and
raises DELAY_STEP, and time on the oscillator where the other serves no more; R164: it is stale after 32 counted cycles.
R166, R168, R153: four ticks without a marker enter FLYWHEEL on the oscillator; a usable header of a tracked frame brings
the former state back. R169: a TIME_MAP with a new SEQ and fewer than 10^9 nanoseconds waits for the next tick boundary. -/
def Obligations.TimeIsKept : Prop :=
  (∀ (x : Ranged) (s : State), s.term = .running → on F.RANGE_STATUS_MEASURING s = false → on F.TIME_STATUS_RANGED s = true →
    measured s = some x → anyHeld s = false →
    ∃ t, exec .rangeRecompute s = .next t ∧
      ((x.dE - delayE s).natAbs ≤ 128 → (x.mode = 0 → (x.dW - delayW s).natAbs ≤ 128) → t.regn.slewE = x.dE - delayE s ∧
        t.regn.slewW = (if x.mode = 0 then x.dW - delayW s else 0) ∧ t.regn.jumps = 0 ∧ (x.mode ≠ 0 → rd F.RANGE_W_D t = 0)) ∧
      (128 < (x.dE - delayE s).natAbs ∨ (x.mode = 0 ∧ 128 < (x.dW - delayW s).natAbs) → Tallied C.RANGE_JUMP 1 s t ∧
        t.regn.slewE = s.regn.slewE ∧ t.regn.slewW = s.regn.slewW ∧ (s.regn.jumps < 7 → t.regn.jumps = s.regn.jumps + 1) ∧
        (7 ≤ s.regn.jumps → t.regn.pendRange.any (fun r => r.step) = true))) ∧
  (∀ (sd : Side) (d : Int) (s : State), (spanOf sd s).dev = some d → frmRuns s = true → tracking sd s = true →
    (128 < d.natAbs → Room s →
      ∃ t, exec (.delayStep sd) s = .next t ∧ Tallied (sided C.DELAY_STEP_W (isEast sd)) 1 s t ∧ Waits E.DELAY_STEP (laneOf sd) t ∧
        heldSide sd t = true ∧ (singleSided s = true ∨ dirHeld (otherSide sd) s = true →
          t.regn.bothHeld = true ∧ rd F.TIME_STATUS_FLYWHEEL t = 1 ∧ rd F.TIME_STATUS_SOURCE t = 0)) ∧
    (d.natAbs ≤ 128 → exec (.delayStep sd) s = .next s)) ∧
  (∀ (h : Held) (s : State), s.regn.heldE = some h → s.regn.heldW = none → 32 ≤ h.cycles → h.stale = false → countsNow s = true →
    ∃ t, exec .delayStepStale s = .next t ∧ t.regn.heldE = some { h with stale := true } ∧ Tallied C.DELAY_STEP_STALE 1 s t) ∧
  (∀ s : State, s.term ∈ [TermState.admitted, .claiming, .ranging, .running] → 4 ≤ s.frame.noMarker → Room s →
    ∃ t, exec .flywheelEntry s = .next t ∧ t.term = .flywheel ∧ t.regn.flyPrior = some s.term ∧ rd F.TIME_STATUS_FLYWHEEL t = 1 ∧
      rd F.TIME_STATUS_SOURCE t = 0 ∧ Waits E.FLYWHEEL_IN 0 t) ∧
  (∀ (p : TermState) (x : Int) (s : State), s.regn.flyPrior = some p → s.term = .flywheel →
    headerBack s = true → s.regn.bothHeld = false →
    ∃ t, exec (.flywheelExit x) s = .next t ∧ t.term = p ∧ t.regn.flyPrior = none ∧ rd F.TIME_STATUS_FLYWHEEL t = 0) ∧
  (∀ (n : Note) (s : State), Heard kTIME_MAP n .all s →
    (on F.TAI_ORIGIN_NS_VALID s = false ∨ rd F.TAI_UTC_SEQ s ≠ n.seq.toNat) → beNat (slice (noteFields n .all) 10 4) < 1000000000 →
    ∃ t, exec (.timeMap n) s = .next t ∧ t.regn.pendTime = some (noteFields n .all, n.seq.toNat))

/-! ### Management notes (spec/07_management_notes.md) -/

/-- R174, R182, R192: TYPE 0x00 ends the notes of a region; a malformed header stops the parsing of the region and is
counted; a type that is not listed is skipped, and answered UNKNOWN on the ID stream; upstream notes of 64 counted cycles are
dropped and counted. R182, R183, R297: a STATUS_REQ queues STATUS and IMAGE_STATUS; a HOST_MSG reaches the host's queue or,
without a host, is counted. -/
def Obligations.NotesAreJudgedAndAnswered : Prop :=
  (∀ (h : Word) (room : Nat) (s : State), parsing s = true → fget h 39 32 = 0 →
    exec (.noteMalformed h room) s = .next { s with frame := { s.frame with regionStopped := true } }) ∧
  (∀ (h : Word) (room : Nat) (s : State), parsing s = true → fget h 39 32 ≠ 0 →
    (headerBad (fget h 31 30) (fget h 29 24) (fget h 15 6) = true ∨ room < (fget h 15 6 + 4) / 5) →
    ∃ t, exec (.noteMalformed h room) s = .next t ∧ t.frame.regionStopped = true ∧ Tallied C.NOTE_MALFORMED 1 s t) ∧
  (∀ (n : Note) (s : State), parsing s = true → n.type ≠ 0 → n.type.toNat ∉ listedTypes →
    headerBad n.mode.toNat n.id.toNat n.len.toNat = false → addressed n s = some .id → n.seq ≠ 0 → s.term ≠ .leaving →
    lastSeq .id s ≠ some n.seq.toNat → Space s →
    ∃ t, exec (.noteUnknown n) s = .next t ∧ Tallied C.NOTE_UNKNOWN 1 s t ∧ Acked n nUNKNOWN t ∧ lastSeq .id t = some n.seq.toNat ∧
      t.frame = s.frame) ∧
  (∀ s : State, countsNow s = true → ∃ t, exec .noteUpExpired s = .next t ∧
    t.note.up = s.note.up.filter (fun u => !decide (64 ≤ u.age)) ∧
    Tallied C.NOTE_UP_EXPIRED (s.note.up.filter (fun u => decide (64 ≤ u.age))).length s t) ∧
  (∀ (n : Note) (a : NAddr) (s : State), Heard kSTATUS_REQ n a s → Space s →
    ∃ t, exec (.statusReq n) s = .next t ∧ (∃ u ∈ t.note.up, u.type = nSTATUS) ∧ (∃ u ∈ t.note.up, u.type = nIMAGE_STATUS)) ∧
  (∀ (n : Note) (s : State), Heard kHOST_MSG_DN n .id s → Space s → hostless s = true →
    ∃ t, exec (.hostMsgDn n) s = .next t ∧ Tallied C.HOST_MSG_NOHOST 1 s t ∧ Acked n nDONE t) ∧
  (∀ (n : Note) (s : State), Heard kHOST_MSG_DN n .id s → Space s → hostless s = false → domOn dQSC s = true →
    ∃ t, exec (.hostMsgDn n) s = .next t ∧ Acked n nDONE t ∧
      t.q = (deliverHost (rd F.RING_MODE_MSG_RXQ s) 0xE 0 (noteN s) (noteFields n .id) (noted n s)).q)

/-- R184: a MAP_DESC of the current, incomplete generation puts its descriptors into the map, one of the announced next
generation into the pending map, and one of another generation is counted in MAP_DESC_STALE; a MAP_REQ names the missing
blocks while a map is incomplete, and again each 8 counted cycles. R185: a SUBSCRIBE whose entries are allowed is staged for
its tick, at least 2 ticks ahead, and answered STAGED; one with an entry that is not allowed is answered BAD_VALUE and
stages nothing. -/
def Obligations.MapsAndSubscriptions : Prop :=
  (∀ (n : Note) (s : State), Heard kMAP_DESC n .all s → beNat (slice (noteFields n .all) 1 2) ≤ 1023 →
    1 ≤ descCount (noteFields n .all) → descCount (noteFields n .all) ≤ 44 →
    ∃ t, exec (.mapDesc n) s = .next t ∧
      (s.frame.mapNext = none → byteAt (noteFields n .all) 0 % 16 = rd F.FRAME_GEN_MAP_GEN s → s.frame.curMap.complete = false →
        t.frame.curMap = (mapSettle (putDescs s.frame.curMap (beNat (slice (noteFields n .all) 1 2))
          (toWords (slice (noteFields n .all) 5 (5 * descCount (noteFields n .all)))))).1) ∧
      (s.frame.mapNext.isSome = true → byteAt (noteFields n .all) 0 % 16 = (rd F.FRAME_GEN_MAP_GEN s + 1) % 16 →
        t.frame.pendMap = (mapSettle (putDescs s.frame.pendMap (beNat (slice (noteFields n .all) 1 2))
          (toWords (slice (noteFields n .all) 5 (5 * descCount (noteFields n .all)))))).1) ∧
      (byteAt (noteFields n .all) 0 % 16 ≠ rd F.FRAME_GEN_MAP_GEN s →
        (s.frame.mapNext = none ∨ byteAt (noteFields n .all) 0 % 16 ≠ (rd F.FRAME_GEN_MAP_GEN s + 1) % 16) →
        t.frame = s.frame ∧ Tallied C.MAP_DESC_STALE 1 s t)) ∧
  (∀ (p : Bool) (s : State), mapReqDue p s = true → (∀ c, (if p then s.frame.pendReq else s.frame.curReq) = some c → 8 ≤ c) → Space s →
    ∃ t, exec (.mapReq p) s = .next t ∧ (if p then t.frame.pendReq else t.frame.curReq) = some 0 ∧
      Queued nMAP_REQ (BitVec.ofNat 8 ((rd F.FRAME_GEN_MAP_GEN s + b2n p) % 16) ::
        bytesBE 3 (missingBlocks (if p then s.frame.pendMap else s.frame.curMap))) t) ∧
  (∀ (n : Note) (x : Nat) (es : List Word) (s : State), Heard kSUBSCRIBE n .id s → Space s → es = toWords ((noteFields n .id).drop 5) →
    noteTick (stampAt (noteFields n .id) 0) 2 s = .ok x → (∀ w ∈ es, entryOk x w (noted n s) = true) → s.frame.subStage = [] →
    axesOnce (subNote s.frame.subs { t := x, entries := es }) = true → (subNote s.frame.subs { t := x, entries := es }).length ≤ 128 →
    ∃ t, exec (.subscribe n) s = .next t ∧ t.frame.subStage = [{ t := x, entries := es }] ∧ t.frame.subs = s.frame.subs ∧ Acked n nSTAGED t) ∧
  (∀ (n : Note) (x : Nat) (w : Word) (s : State), Heard kSUBSCRIBE n .id s → Space s →
    noteTick (stampAt (noteFields n .id) 0) 2 s = .ok x → w ∈ toWords ((noteFields n .id).drop 5) →
    entryOk x w (noted n s) = false →
    ∃ t, exec (.subscribe n) s = .next t ∧ t.frame.subStage = s.frame.subStage ∧ Acked n nBAD_VALUE t)

/-- R186, R220: a KEY_LOAD before K_WRAP is held; one that unwraps and is of the next generation fills its slot, usable
2 ticks later, and is answered DONE. R187, R188: a SETTING that is applied and not kept stands as a live record;
HOUSE_PUB is refused from a note; a MOTION_PROFILE stores its segments. -/
def Obligations.KeysSettingsAndProfilesArrive : Prop :=
  (∀ (n : Note) (s : State), Heard kKEY_LOAD n .id s → keySlot 3 s = none →
    ∃ t, exec (.keyLoad n) s = .next t ∧ t.note.heldKey = some n ∧ t.key = s.key ∧ t.note.up = s.note.up) ∧
  (∀ (n : Note) (kw k : List Byte) (s : State), Heard kKEY_LOAD n .id s → Space s → keySlot 3 s = some kw →
    byteAt (noteFields n .id) 0 = (rd F.FRAME_GEN_KEY_GEN s + 1) % 16 → byteAt (noteFields n .id) 1 ≤ 1 →
    slice (noteFields n .id) 2 3 = [0, 0, 0] → keyUnwrap kw (slice (noteFields n .id) 5 40) = some k →
    ∃ t, exec (.keyLoad n) s = .next t ∧ Acked n nDONE t ∧
      keySlot (keyNo (byteAt (noteFields n .id) 1 == 1) (byteAt (noteFields n .id) 0)) t = some k ∧
      (keyNo (byteAt (noteFields n .id) 1 == 1) (byteAt (noteFields n .id) 0), tickAdd s.bt 2) ∈ t.key.expanding) ∧
  (∀ (n : Note) (a : NAddr) (s : State), Heard kSETTING n a s → a = .id → Space s → beNat (slice (noteFields n a) 0 2) = 1 →
    ∃ t, exec (.setting n) s = .next t ∧ Acked n nREFUSED t ∧ t.key = s.key ∧ t.glean = s.glean ∧ t.flash = s.flash) ∧
  (∀ (n : Note) (s : State), Heard kSETTING n .id s → Space s → settingBad (beNat (slice (noteFields n .id) 0 2)) ((noteFields n .id).drop 5) = false →
    beNat (slice (noteFields n .id) 0 2) ≠ 1 → isPreset (beNat (slice (noteFields n .id) 0 2)) = false →
    (noteFields n .id).drop 5 ≠ [] → nbit (byteAt (noteFields n .id) 2) 0 = false →
    ∃ t, exec (.setting n) s = .next t ∧ Acked n nDONE t ∧
      lget [] t.glean.live (beNat (slice (noteFields n .id) 0 2)) = (noteFields n .id).drop 5) ∧
  (∀ (n : Note) (s : State), Heard kMOTION_PROFILE n .id s → Space s → byteAt (noteFields n .id) 0 ≤ 1 → byteAt (noteFields n .id) 1 ≤ 7 →
    byteAt (noteFields n .id) 2 + byteAt (noteFields n .id) 3 ≤ 64 → (∀ g ∈ segsOf (noteFields n .id), g.dur ≠ 0) →
    axState (byteAt (noteFields n .id) 0) s ≠ xPROFILE → s.mot.axes.length = 2 →
    ∃ t, exec (.motionProfile n) s = .next t ∧ Acked n nDONE t ∧
      ((profileOf (byteAt (noteFields n .id) 0) (byteAt (noteFields n .id) 1) t).2.drop (byteAt (noteFields n .id) 2)).take
        (byteAt (noteFields n .id) 3) = segsOf (noteFields n .id))

/-- R189, R190, R191: orders of power, image and reset are staged for their tick or refused; a due reset order asks for
the soft reset with its own cause. -/
def Obligations.OrdersAreStaged : Prop :=
  (∀ (n : Note) (x : Nat) (s : State), Heard kPOWER_ORDER n .id s → noteTick (stampAt (noteFields n .id) 0) 2 s = .ok x → Space s →
    s.pwr.reqs = [] → refusedSet (resultingSet (some (orderTargets (noteFields n .id))) (noted n s)) (noted n s) = 0 →
    ∃ t, exec (.powerOrder n) s = .next t ∧ t.pwr.reqs = [{ t := x, order := some (orderTargets (noteFields n .id)) }] ∧ Acked n nSTAGED t) ∧
  (∀ (n : Note) (x : Nat) (s : State), Heard kIMAGE_ORDER n .id s → noteTick (stampAt (noteFields n .id) 0) 2 s = .ok x → Space s →
    byteAt (noteFields n .id) 5 = 1 → swapAllowed (some (byteAt (noteFields n .id) 6)) (some (beNat (slice (noteFields n .id) 7 4))) (noted n s) = true →
    s.glean.swap = none → ∃ t, exec (.imageOrderSwap n) s = .next t ∧ t.glean.swap = some (x, 7) ∧ Acked n nSTAGED t) ∧
  (∀ (n : Note) (s : State), Heard kIMAGE_ORDER n .id s → Space s → stampAt (noteFields n .id) 0 = 0 → trialOf (noteFields n .id) (noted n s) = true →
    byteAt (noteFields n .id) 5 = 2 → ∃ t, exec (.imageOrderConfirm n) s = .next t ∧ rd F.IMAGE_RUNNING_TRIAL t = 0 ∧ Acked n nDONE t) ∧
  (∀ (n : Note) (s : State), Heard kIMAGE_ORDER n .id s → Space s → stampAt (noteFields n .id) 0 = 0 → trialOf (noteFields n .id) (noted n s) = true →
    byteAt (noteFields n .id) 5 = 3 → ∃ t, exec (.imageOrderRevert n) s = .next t ∧ rd F.RESET_CAUSE_SOFT_NOTE t = 1 ∧
      t.boot.softPending = true ∧ Acked n nDONE t) ∧
  (∀ (n : Note) (x : Nat) (s : State), Heard kRESET_ORDER n .id s → noteTick (stampAt (noteFields n .id) 0) 8 s = .ok x → Space s →
    ∃ t, exec (.resetOrder n) s = .next t ∧ ({ t := x, op := .softReset } : Staged) ∈ t.staged ∧ Acked n nSTAGED t) ∧
  (∀ (x : Staged) (s : State), x ∈ s.staged → resetDue s x = true →
    ∃ t, exec .resetOrderDue s = .next t ∧ rd F.RESET_CAUSE_SOFT_NOTE t = 1 ∧ t.boot.softPending = true ∧ x ∉ t.staged)

/-! ### The Thresher, the Granary and the queues (spec/10, spec/11) -/

/-- R240, R245, R247, R248: while THR is ON the packet at the head of the work list is classified, by the registers its tick
meets (R20): a class that is off drops it, an entry that drops drops it, and one that forwards without a meter puts it, after
its VLAN operation, at the tail of the action's queue with its deadline, where the queue takes it and cells for what it has
grown are there (log 80 says where they come from: notes/assumptions/80.md). A command outside its conditions changes nothing
(notes/assumptions/5.md). -/
def Obligations.PacketsAreClassified : Prop :=
  (∀ (pk : Packet) (r : List Packet) (s : State), domOn dTHR s = true → s.th.work = pk :: r → countsNow s = true →
    fget (regFor pk.tag (R.TH_CLASS_CFG pk.cls) s) 39 39 = 0 →
    ∃ t, exec .thresherPacket s = .next t ∧ t.th.work = r ∧ t.q = s.q ∧ Tallied C.TH_CLASS_OFF 1 s t) ∧
  (∀ (pk : Packet) (r : List Packet) (c : Word) (e : TEntry) (s : State), domOn dTHR s = true → s.th.work = pk :: r →
    countsNow s = true → c = regFor pk.tag (R.TH_CLASS_CFG pk.cls) s → fget c 39 39 = 1 → (parsePacket pk.bytes).fail = none →
    lookup (fget c 29 28) (fget c 15 12)
      (makeKey (regFor pk.tag (R.TH_PROFILE (fget c 15 12)) s) pk.cls pk.src pk.cont pk.bytes (parsePacket pk.bytes)
        (metaIn pk.cls pk.src (if pk.src == 0xF then pk.cont else 0))) pk.tag s = some e →
    (fget e.action 39 37 = 1 → ∃ t, exec .thresherPacket s = .next t ∧ t.th.work = r ∧ t.q = s.q ∧ Tallied C.TH_DROP 1 s t) ∧
    (∀ q, q = fget e.action 36 29 → fget e.action 39 37 = 0 → fget e.action 20 20 = 0 → qExists q = true →
      (∀ k, portOfQueue q = some k → k ∉ s.q.flushed) → qEnabled q s = true →
      (extend (sinkOf q) (cellsOf pk.bytes.length)
        (cellsOf (vlanOp (fget e.action 19 18) (fget e.action 17 6) (fget e.action 5 3) (parsePacket pk.bytes) pk.bytes).length) s).isSome = true →
      qCells q s + max (cellsOf pk.bytes.length)
        (cellsOf (vlanOp (fget e.action 19 18) (fget e.action 17 6) (fget e.action 5 3) (parsePacket pk.bytes) pk.bytes).length) ≤ qLimit q s →
      ∃ t it, exec .thresherPacket s = .next t ∧ t.th.work = r ∧ qItems q t = qItems q s ++ [it] ∧
        it.bytes = vlanOp (fget e.action 19 18) (fget e.action 17 6) (fget e.action 5 3) (parsePacket pk.bytes) pk.bytes ∧
        it.deadline = tickAdd pk.tag (qLife q s : Int) ∧ it.md = e.md ∧ it.tag = pk.tag ∧
        (it.csum = true ↔ fget e.action 2 2 = 1) ∧ (∀ p, p ≠ q → qItems p t = qItems p s))) ∧
  (∀ s : State, domOn dTHR s = false → exec .thresherPacket s = .next s)

/-- R245, R252-R254: a SET of a new key puts a pending entry into its table, a DELETE marks an entry, a COMMIT gives the
batch its tick, and once that tick has begun and no older work remains or can still come (two line ticks on, R22; the model's
reading, notes/assumptions/84.md) the sweep makes the batch final; updates are then accepted again. While a batch is
committed, updates are answered BUSY. Which status of the command goes with which result is the model's reading
(notes/assumptions/36.md). -/
def Obligations.TablesAreUpdatedAtTheirTick : Prop :=
  (∀ (h : CmdHdr) (u : List Word) (p : Nat) (s : State), Due h s → domOn dTHR s = true → opReserved u = false →
    batchOpen s = true → s.th.tables.length = 4 →
    findEntry (tableOf (updTable u) s) (updProfile u) (updKey u) (fun _ => true) = none →
    freeIn (tableOf (updTable u) s) 0 (bucketOf 0 (updProfile u) (updKey u)) = some p →
    ∃ t, exec (.thUpdateSet h u) s = .next t ∧ Completed h cDONE uADDED 0 s t ∧
      rd F.TH_UPDATE_STATUS_OPS t = rd F.TH_UPDATE_STATUS_OPS s + 1 ∧
      SMap.find (tableOf (updTable u) t) p = some { add := true, del := false, profile := updProfile u, key := updKey u,
                                                    action := u.getD 4 0, md := u.getD 5 0 }) ∧
  (∀ (h : CmdHdr) (u : List Word) (p : Nat) (old : TEntry) (s : State), Due h s → domOn dTHR s = true → opReserved u = false →
    batchOpen s = true → s.th.tables.length = 4 →
    findEntry (tableOf (updTable u) s) (updProfile u) (updKey u) (fun e => e.add) = none →
    findEntry (tableOf (updTable u) s) (updProfile u) (updKey u) (fun e => !e.del) = some (p, old) →
    ∃ t, exec (.thUpdateDelete h u) s = .next t ∧ Completed h cDONE uDELETED 0 s t ∧
      SMap.find (tableOf (updTable u) t) p = some { old with del := true }) ∧
  (∀ (h : CmdHdr) (u : List Word) (T : Nat) (s : State), Due h s → domOn dTHR s = true → opReserved u = false →
    rd F.TH_UPDATE_STATUS_STATE s = 0 → stampOk (u.getD 1 0) = true →
    T = (if u.getD 1 0 = 0 then nextTick s else stampTick s.bt (u.getD 1 0)) → 1 ≤ tickDiff T s.bt →
    ∃ t, exec (.thUpdateCommit h u) s = .next t ∧ Completed h cDONE uCOMMITTED (stampOf T).toNat s t ∧
      t.th.commitT = some T ∧ rd F.TH_UPDATE_STATUS_STATE t = 1 ∧ t.th.tables = s.th.tables) ∧
  (∀ (i : CmdHdr → List Word → Instr) (h : CmdHdr) (u : List Word) (s : State),
    i ∈ [Instr.thUpdateSet, Instr.thUpdateDelete, Instr.thUpdateCommit] → Due h s → domOn dTHR s = true → opReserved u = false →
    rd F.TH_UPDATE_STATUS_STATE s ≠ 0 → stampOk (u.getD 1 0) = true →
    ∃ t, exec (i h u) s = .next t ∧ Completed h cREFUSED uBUSY 0 s t ∧ t.th = s.th) ∧
  (∀ (T : Nat) (s : State), domOn dTHR s = true → s.th.commitT = some T → rd F.TH_UPDATE_STATUS_STATE s = 1 → settled T s = true →
    (∀ p ∈ s.th.work, 0 ≤ tickDiff p.tag T) →
    ∃ t, exec .tableSweep s = .next t ∧ rd F.TH_UPDATE_STATUS_STATE t = 2 ∧ t.th.tables = s.th.tables.map sweepTable ∧
      ∀ tb ∈ t.th.tables, ∀ e ∈ tb, e.2.add = false ∧ e.2.del = false) ∧
  (∀ s : State, rd F.TH_UPDATE_STATUS_STATE s = 2 →
    ∃ t, exec .tableSweepDone s = .next t ∧ t.th.commitT = none ∧ rd F.TH_UPDATE_STATUS_STATE t = 0 ∧
      rd F.TH_UPDATE_STATUS_OPS t = 0 ∧ t.th.tables = s.th.tables)

/-- R267, R278: while QSC is ON items past their deadline leave every queue and the others stay, in order; a port whose hold-down has
run out with its link down loses all its items. R258, R264, R266: an indirect write that is allowed is staged for the
next tick, one that is not, a meter whose PIR is below its CIR among them, sets ERR; an indirect read loads the data
registers when it is done; LOW_RELOAD loads LOW. -/
def Obligations.QueuesExpireAndRecordsAreWritten : Prop :=
  (∀ s : State, domOn dQSC s = true → ∃ t, exec .deadlineDiscard s = .next t ∧ ∀ q, qItems q t = (qItems q s).filter (inTime s.bt)) ∧
  (∀ (k : Fin 6) (s : State), (k.val, 0) ∈ s.q.hold → on (F.ETH_STATUS_LINK k) s = false → Room s →
    ∃ t, exec (.holddownFlush k) s = .next t ∧ (∀ q ∈ portQueues k, qItems q t = []) ∧ k.val ∈ t.q.flushed ∧
      (∀ q, q ∉ portQueues k → qItems q t = qItems q s) ∧ rd (F.ETH_STATUS_HOLDDOWN k) t = 0 ∧ Waits E.PORT_FLUSHED k t) ∧
  (∀ (p : Path) (v : Word) (r : List Word) (s : State), mayWriteReg R.QM_IND_SEL s = true → on F.RUN_CTRL_RUN s = false →
    r = [reg R.QM_IND_DATA0 s, reg R.QM_IND_DATA1 s, reg R.QM_IND_DATA2 s] →
    (indWritable (fget v 38 36) (fget v 35 28) r = true →
      ∃ t, exec (.qmIndWrite p v) s = .next t ∧ rd F.QM_IND_SEL_BUSY t = 1 ∧ rd F.QM_IND_SEL_ERR t = 0 ∧
        t.q.ind = some { write := true, obj := fget v 38 36, idx := fget v 35 28 } ∧
        { t := tickAdd s.bt 1, op := .qmWrite (fget v 38 36) (fget v 35 28) (maskRec (fget v 38 36) r) } ∈ t.staged) ∧
    (indWritable (fget v 38 36) (fget v 35 28) r = false →
      ∃ t, exec (.qmIndWrite p v) s = .next t ∧ rd F.QM_IND_SEL_ERR t = 1 ∧ t.q.ind = s.q.ind ∧ t.staged = s.staged)) ∧
  (∀ r : List Word, fget (r.getD 1 0) 39 8 < fget (r.getD 0 0) 39 8 → ∀ i, indWritable 3 i r = false) ∧
  (∀ (p : Path) (v : Word) (s : State), mayWriteReg R.QM_IND_SEL s = true → on F.RUN_CTRL_RUN s = false →
    indInRange (fget v 38 36) (fget v 35 28) = true →
    ∃ t, exec (.qmIndRead p v) s = .next t ∧ rd F.QM_IND_SEL_BUSY t = 1 ∧ t.staged = s.staged ∧
      t.q.ind = some { write := false, obj := fget v 38 36, idx := fget v 35 28 }) ∧
  (∀ (obj idx : Nat) (s : State), s.q.ind = some { write := false, obj, idx } →
    ∃ t, exec .qmIndDone s = .next t ∧ t.q.ind = none ∧ rd F.QM_IND_SEL_BUSY t = 0 ∧
      reg R.QM_IND_DATA0 t = (readRec obj idx s).getD 0 0 ∧ reg R.QM_IND_DATA1 t = (readRec obj idx s).getD 1 0 ∧
      reg R.QM_IND_DATA2 t = (readRec obj idx s).getD 2 0) ∧
  (∀ (p : Path) (v : Word) (s : State), mayWriteReg R.GRAN_STATUS s = true →
    ∃ t, exec (.lowReload p v) s = .next t ∧ rd F.GRAN_STATUS_LOW t = rd F.GRAN_STATUS_FREE s)

/-! ### Host rings (spec/12_host_rings_pcie.md) -/

/-- R283, R287, R307: in STOPPED the ring engine starts where its conditions hold and the straps let it run, with every index
zero, and else is refused with LAST_ERR_CAUSE 6; over PCI Express HRE_CTRL is locked in hostless mode. A start refused where
ST2 = 0 or PCI is not ON takes cause 6 too, which is the model's choice (notes/assumptions/85.md). R288: a stop is orderly:
it waits for what is in flight. R289: a heartbeat that stands still makes the host absent. R303: INTX_PEND deasserts INTA.
R304: a bad ring is stopped, counted and told. R300: RING_RESTART lets it go on. R305: a host reset clears the indices, the
latches of its path and the registers it names, keeps the commands' records, and leads to STOPPED through RESETTING, which
lasts until the next building tick (the model's choice, notes/assumptions/85.md). A command outside its conditions changes
nothing (notes/assumptions/5.md). -/
def Obligations.TheRingEngineStartsAndStops : Prop :=
  (∀ (p : Path) (v : Word) (s : State), mayWriteReg R.HRE_CTRL s = true → (p = .pcie → hostless s = false) →
    hreState s = hreSTOPPED →
    (reg R.DB_PAGE s ≠ 0 → reg R.ST_PAGE s ≠ 0 → ringsOk s = true → fromListening s = true → hreMayRun s = true →
      ∃ t, exec (.hreStart p v) s = .next t ∧ hreState t = hreRUNNING ∧ rd F.HRE_CTRL_START t = 1 ∧ t.host.idx = [] ∧
        t.host.pollPend = false ∧ t.host.stopping = false) ∧
    ((reg R.DB_PAGE s = 0 ∨ reg R.ST_PAGE s = 0 ∨ ringsOk s = false ∨ fromListening s = false ∨ hreMayRun s = false) →
      ∃ t, exec (.hreStart p v) s = .next t ∧ hreState t = hreSTOPPED ∧ rd F.HRE_STATUS_LAST_ERR_CAUSE t = 6 ∧ t.host = s.host)) ∧
  (∀ (v : Word) (s : State), mayWriteReg R.HRE_CTRL s = true → hostless s = true → countsNow s = true →
    (∃ t, exec (.hreStart .pcie v) s = .next t ∧ Tallied C.REG_LOCKED_WRITE 1 s t ∧ hreState t = hreState s) ∧
    (∃ t, exec (.hreStop .pcie v) s = .next t ∧ Tallied C.REG_LOCKED_WRITE 1 s t ∧ hreState t = hreState s ∧
      t.host.stopping = s.host.stopping)) ∧
  (∀ (p : Path) (v : Word) (s : State), mayWriteReg R.HRE_CTRL s = true → (p = .pcie → hostless s = false) →
    hreState s = hreRUNNING ∨ hreState s = hreHALTED →
    ∃ t, exec (.hreStop p v) s = .next t ∧ rd F.HRE_CTRL_START t = 0 ∧ t.host.stopping = true ∧ hreState t = hreState s) ∧
  (∀ s : State, s.host.stopping = true → s.host.flight = none → s.host.pollPend = false →
    ∃ t, exec .orderlyStopDone s = .next t ∧ hreState t = hreSTOPPED ∧ rd F.HRE_CTRL_START t = 0 ∧ t.host.idx = [] ∧
      t.host.stopping = false ∧ reg R.HRE_STOPPED t = 0 ∧ t.q = s.q ∧
      (hreState s = hreRUNNING ∨ hreState s = hreHALTED →
        ∃ page, t.out.head? = some (dmaOut s ((reg R.ST_PAGE s).toNat * 4096) page))) ∧
  (∀ s : State, s.host.stopping = true → s.host.flight ≠ none ∨ s.host.pollPend = true → exec .orderlyStopDone s = .next s) ∧
  (∀ s : State, hreState s = hreRUNNING → hostless s = false → rd F.RING_MODE_HB_TIMEOUT s ≠ 0 → s.host.hbAbsent = false →
    48 * rd F.RING_MODE_HB_TIMEOUT s ≤ s.host.hbTicks → on F.HRE_CTRL_HOST_ABSENT s = false → Room s →
    ∃ t, exec .hostAbsent s = .next t ∧ rd F.HRE_CTRL_HOST_ABSENT t = 1 ∧ t.host.hbAbsent = true ∧ Waits E.HOST_ABSENT 1 t) ∧
  (∀ (p : Path) (v : Word) (s : State), mayWriteReg R.INT_CFG s = true → on F.INT_CFG_INTX_PEND s = true →
    ∃ t, exec (.intxPend p v) s = .next t ∧ rd F.INT_CFG_INTX_PEND t = 0 ∧ .intx false ∈ t.out) ∧
  (∀ (ring : Byte) (cause : BitVec 4) (s : State), hreServes s = true →
    ring.toNat < 0x20 ∨ ring.toNat = 0x30 ∨ ring.toNat = 0x31 → ringEnabled ring.toNat s = true →
    ringStopped ring.toNat s = false → 1 ≤ cause.toNat → cause.toNat ≤ 5 → countsNow s = true → Room s →
    ∃ t, exec (.ringStopped ring cause) s = .next t ∧ ringStopped ring.toNat t = true ∧
      rd F.HRE_STATUS_LAST_ERR_CAUSE t = cause.toNat ∧ rd F.HRE_STATUS_LAST_ERR_RING t = ring.toNat ∧
      Waits E.RING_STOPPED ring.toNat t ∧ Tallied (if cause = 5 then C.DB_INDEX_BAD else C.HOST_DMA_ERR) 1 s t) ∧
  (∀ (h : CmdHdr) (ring : Byte) (s : State), Due h s →
    (ring.toNat < 0x20 ∨ ring.toNat = 0x30 → ringStopped ring.toNat s = true →
      ∃ t, exec (.ringRestart h ring) s = .next t ∧ Completed h cDONE 0 0 s t ∧ ringStopped ring.toNat t = false ∧
        ringCons ring.toNat t = ringCons ring.toNat s) ∧
    (restartable ring.toNat = false ∨ ringStopped ring.toNat s = false →
      ∃ t, exec (.ringRestart h ring) s = .next t ∧ Completed h cBAD_VALUE 0 0 s t)) ∧
  (∀ (k : Fin 4) (s : State), s.term ≠ .reset → Room s →
    ∃ t, exec (.hostReset k) s = .next t ∧ hreState t = hreRESETTING ∧ rd F.HRE_CTRL_START t = 0 ∧ t.host.idx = [] ∧
      t.pcie = {} ∧ (∀ off ∈ hostRegs, reg off t = regDefault off) ∧
      rd F.RING_MODE_HOSTLESS t = rd F.RING_MODE_HOSTLESS s ∧ rd F.CMD_SEQ_LAST t = rd F.CMD_SEQ_LAST s ∧
      t.host.records = s.host.records ∧ (∀ q, qItems q t = qItems q s) ∧ Waits E.HOST_RESET k.val t ∧
      (on F.INT_CFG_INTX_PEND s = true → .intx false ∈ t.out)) ∧
  (∀ (l : Option PciLink) (s : State), hreState s = hreRESETTING → hreState (hostTick l s) = hreSTOPPED)

/-- R292, R302, R303: a poll point writes the waiting events where EVT has room, then the status page, and reads the
doorbell page; one whose predecessor's read has not completed is skipped and counted; a refused status page halts the
engine. R290, R294: the read's producer indices are adopted and the descriptors they newly cover fetched; an index out of
range stops its ring; in hostless mode the same goes to and from the Granary (R307). R304: a fault on the page halts the
engine. -/
def Obligations.PollPointsServeTheHost : Prop :=
  (∀ (k : Fin 8) (pci : PciHost) (s : State), hreServes s = true → k.val < pollsPerTick s → s.host.pollPend = false →
    ∃ t page, exec (.pollPoint k pci false) s = .next t ∧ t.host.pollPend = true ∧ t.host.pollNo = k.val ∧
      t.host.pollTick = s.bt ∧ t.host.pci = pci ∧ t.host.statusSeq = (s.host.statusSeq + 1) % 2 ^ 32 ∧
      t.out.head? = some (dmaIn s ((reg R.DB_PAGE s).toNat * 4096) 0x104) ∧
      dmaOut s ((reg R.ST_PAGE s).toNat * 4096) page ∈ t.out ∧ page.length = 256 ∧
      page.take 8 = bytesLE 4 (ringCons ringCMD s) ++ bytesLE 4 (ringProd ringEVT t) ∧
      (ringEnabled ringEVT s = true → ringStopped ringEVT s = false → s.host.events.length ≤ 64 →
        span32 (ringProd ringEVT s) (ringCons ringEVT s) + 65 ≤ ringSize ringEVT s →
        t.host.events = [] ∧ t.host.evtLost = 0 ∧
        span32 (ringProd ringEVT t) (ringProd ringEVT s) = s.host.events.length + (if s.host.evtLost = 0 then 0 else 1))) ∧
  (∀ (k : Fin 8) (pci : PciHost) (s : State), hreServes s = true → k.val < pollsPerTick s → s.host.pollPend = false → Room s →
    ∃ t, exec (.pollPoint k pci true) s = .next t ∧ hreState t = hreHALTED ∧ rd F.HRE_STATUS_LAST_ERR_RING t = 0x33 ∧
      t.host.idx = [] ∧ Waits E.HOST_RESET 4 t) ∧
  (∀ (k : Fin 8) (pci : PciHost) (f : Bool) (s : State), hreServes s = true → k.val < pollsPerTick s → s.host.pollPend = true →
    countsNow s = true → ∃ t, exec (.pollPoint k pci f) s = .next t ∧ Tallied C.POLL_SKIPPED 1 s t ∧ t.out = s.out) ∧
  (∀ (b : List Byte) (s : State), s.host.pollPend = true → hreState s = hreRUNNING → ringEnabled ringCMD s = true →
    ringStopped ringCMD s = false →
    (span32 (le4 b 0) (ringCons ringCMD s) ≤ ringSize ringCMD s →
      ∃ t, exec (.doorbellReadDone (.ok b)) s = .next t ∧ t.host.pollPend = false ∧ t.host.heartbeat = le4 b 0x100 ∧
        ringProd ringCMD t = le4 b 0 ∧
        (0 < span32 (le4 b 0) (ringProd ringCMD s) → span32 (le4 b 0) (ringProd ringCMD s) ≤ ringSize ringCMD s →
          ∃ n, 1 ≤ n ∧ n ≤ 16 ∧ dmaIn s (descAddr ringCMD (ringProd ringCMD s) s) (32 * n) ∈ t.out)) ∧
    (ringSize ringCMD s < span32 (le4 b 0) (ringCons ringCMD s) →
      ∃ t, exec (.doorbellReadDone (.ok b)) s = .next t ∧ t.host.pollPend = false ∧ ringStopped ringCMD t = true ∧
        ringProd ringCMD t = ringProd ringCMD s)) ∧
  (∀ (b : List Byte) (q : Fin 16) (s : State), s.host.pollPend = true → hreState s = hreRUNNING →
    ringEnabled (ringTX q.val) s = true → ringStopped (ringTX q.val) s = false →
    span32 (le4 b (0x40 + 4 * q.val)) (ringCons (ringTX q.val) s) ≤ ringSize (ringTX q.val) s →
    ∃ t, exec (.doorbellReadDone (.ok b)) s = .next t ∧ ringProd (ringTX q.val) t = le4 b (0x40 + 4 * q.val) ∧
      (lget [] s.host.marks q.val = [] → ringProd (ringTX q.val) t ≠ ringProd (ringTX q.val) s →
        txTick q.val t = s.host.pollTick)) ∧
  (∀ (c : BitVec 4) (s : State), s.host.pollPend = true → hreState s = hreRUNNING → Room s →
    ∃ t, exec (.doorbellReadDone (.err c)) s = .next t ∧ hreState t = hreHALTED ∧ rd F.HRE_STATUS_LAST_ERR_RING t = 0x32 ∧
      rd F.HRE_STATUS_LAST_ERR_CAUSE t = c.toNat ∧ t.host.idx = [] ∧ Waits E.HOST_RESET 4 t)

/-- R294, R295: the descriptor whose turn it is among the TX rings brings its data into the Granary: its item belongs to
the poll point's tick at which it was fetched, from which its deadline is reckoned where it names none; a fence is completed
at once, a bad queue, a bad length and a passed deadline with their status; a pool that cannot take the data leaves the
descriptor where it is; the completion is written when the item has been admitted or refused, and with DMA_ERR, and the ring stopped,
where the data's read failed. R270, R296, R307: the head item of the host-delivery queue whose turn it is goes into the
buffer the free list gives, with its descriptor; it is counted and dropped where no buffer is free, the ring is full or it
is a container in hostless mode, and where it is too long for the buffer, which is kept. -/
def Obligations.ItemsGoToAndFromTheHost : Prop :=
  (∀ (q : Fin 16) (b : List Byte) (s : State), txReady q.val s = true → leNat (slice b 8 2) ≠ 0 → byteAt b 10 < 133 →
    leNat (slice b 8 2) ≤ 2048 →
    (nbit (byteAt b 11) 3 = true → 0 ≤ tickDiff (stampTick (txTick q.val s) (BitVec.ofNat 40 (leNat (slice b 16 5)))) (txTick q.val s)) →
    (cellsOf (leNat (slice b 8 2)) ≤ freeCells s →
      ∃ t f, exec (.txDescriptor q (.ok b)) s = .next t ∧ t.host.flight = some f ∧ f.q = q.val ∧ f.queue = byteAt b 10 ∧
        f.tick = txTick q.val s ∧ f.flags = byteAt b 11 ∧ f.meter = byteAt b 12 ∧ f.len = leNat (slice b 8 2) ∧
        f.deadline = (if nbit (byteAt b 11) 3 then stampTick (txTick q.val s) (BitVec.ofNat 40 (leNat (slice b 16 5)))
          else tickAdd (txTick q.val s) (qLife (byteAt b 10) s : Int)) ∧
        f.md = BitVec.ofNat 40 (leNat (slice b 24 5)) ∧
        t.out.head? = some (dmaIn s (leNat (slice b 0 8)) (leNat (slice b 8 2))) ∧ freeCells t = freeCells s - cellsOf f.len) ∧
    (freeCells s < cellsOf (leNat (slice b 8 2)) →
      ∃ t, exec (.txDescriptor q (.ok b)) s = .next t ∧ t.host.flight = none ∧ t.out = s.out ∧ txOpen q.val t = false ∧
        ringCons (ringTX q.val) t = ringCons (ringTX q.val) s)) ∧
  (∀ (q : Fin 16) (b : List Byte) (st : Nat) (s : State), txReady q.val s = true →
    ((leNat (slice b 8 2) = 0 ∧ st = 1) ∨ (leNat (slice b 8 2) ≠ 0 ∧ 133 ≤ byteAt b 10 ∧ st = 3) ∨
      (byteAt b 10 < 133 ∧ 2048 < leNat (slice b 8 2) ∧ st = 4) ∨
      (byteAt b 10 < 133 ∧ leNat (slice b 8 2) ≠ 0 ∧ leNat (slice b 8 2) ≤ 2048 ∧ nbit (byteAt b 11) 3 = true ∧
        tickDiff (stampTick (txTick q.val s) (BitVec.ofNat 40 (leNat (slice b 16 5)))) (txTick q.val s) < 0 ∧ st = 5)) →
    ∃ t, exec (.txDescriptor q (.ok b)) s = .next t ∧ t.q = s.q ∧ ringCons (ringTX q.val) t = (ringCons (ringTX q.val) s + 1) % 2 ^ 32 ∧
      t.out.head? = some (dmaOut s (descAddr (ringTX q.val) (ringCons (ringTX q.val) s) s + 24)
        (bytesLE 8 ((stampOf (txTick q.val s)).toNat + st * 2 ^ 48 + 2 ^ 63)))) ∧
  (∀ (q : Fin 16) (c : BitVec 4) (s : State), txReady q.val s = true →
    ∃ t, exec (.txDescriptor q (.err c)) s = .next t ∧ ringStopped (ringTX q.val) t = true ∧ t.out = s.out) ∧
  (∀ (q : Fin 16) (b : List Byte) (f : TxFlight) (s : State), s.host.flight = some f → f.q = q.val →
    (nbit f.flags 2 = true → ∃ c, (meterPacket f.meter f.len (setHost (fun h => { h with flight := none }) s)).1 = some c ∧
      (c = 1 → qCells f.queue s < qYellow f.queue s)) →
    qExists f.queue = true → (∀ k, portOfQueue f.queue = some k → k ∉ s.q.flushed) → qEnabled f.queue s = true →
    qCells f.queue s + cellsOf f.len ≤ qLimit f.queue s →
    ∃ t it, exec (.txDataReadDone q (.ok b)) s = .next t ∧ t.host.flight = none ∧ qItems f.queue t = qItems f.queue s ++ [it] ∧
      it.bytes = slice b 0 f.len ∧ it.deadline = f.deadline ∧ it.tag = f.tick ∧ it.md = f.md ∧
      (it.csum = true ↔ nbit f.flags 1 = true) ∧
      ringCons (ringTX q.val) t = (ringCons (ringTX q.val) s + 1) % 2 ^ 32 ∧
      dmaOut s (descAddr (ringTX q.val) (ringCons (ringTX q.val) s) s + 24)
        (bytesLE 8 ((stampOf f.tick).toNat + 2 ^ 63)) ∈ t.out) ∧
  (∀ (q : Fin 16) (b : List Byte) (f : TxFlight) (s : State), s.host.flight = some f → f.q = q.val →
    (nbit f.flags 2 = true ∧ (meterPacket f.meter f.len (setHost (fun h => { h with flight := none }) s)).1 = none) ∨
      qEnabled f.queue s = false →
    ∃ t, exec (.txDataReadDone q (.ok b)) s = .next t ∧ t.host.flight = none ∧ (∀ q, qItems q t = qItems q s) ∧
      ringCons (ringTX q.val) t = (ringCons (ringTX q.val) s + 1) % 2 ^ 32 ∧
      dmaOut s (descAddr (ringTX q.val) (ringCons (ringTX q.val) s) s + 24)
        (bytesLE 8 ((stampOf f.tick).toNat + 2 * 2 ^ 48 + 2 ^ 63)) ∈ t.out) ∧
  (∀ (q : Fin 16) (c : BitVec 4) (f : TxFlight) (s : State), s.host.flight = some f → f.q = q.val → countsNow s = true →
    ∃ t, exec (.txDataReadDone q (.err c)) s = .next t ∧ t.host.flight = none ∧ ringStopped (ringTX q.val) t = true ∧
      Tallied (if c = 5 then C.DB_INDEX_BAD else C.HOST_DMA_ERR) 1 s t ∧ freeCells t = freeCells s + cellsOf f.len ∧
      t.out.head? = some (dmaOut s (descAddr (ringTX q.val) (ringCons (ringTX q.val) s) s + 24)
        (bytesLE 8 ((stampOf f.tick).toNat + 6 * 2 ^ 48 + 2 ^ 63)))) ∧
  (∀ (n : Fin 16) (b : List Byte) (i : Item) (r : List Item) (s s0 : State), deliverReady s = true →
    pickHost s = (some (136 + n.val), s0) → qItems (136 + n.val) s0 = i :: r → shaperOpen (136 + n.val) s0 = true →
    (∀ x ∈ i :: r, inTime s0.bt x = true) → ¬ (hostless s = true ∧ i.container = true) → ringEnabled (ringRX n.val) s = true →
    ringEnabled (ringFL n.val) s = true → ringHas (ringFL n.val) s = true → ringRoom (ringRX n.val) s = true →
    (i.bytes.length ≤ leNat (slice b 8 2) →
      ∃ (t x : State), exec (.hostDelivery n (some (.ok b))) s = .next t ∧ qItems (136 + n.val) t = r ∧
        dmaOut s (leNat (slice b 0 8)) i.bytes ∈ t.out ∧
        dmaOut s (descAddr (ringRX n.val) (ringProd (ringRX n.val) s) s)
          (rxDescriptor (slice b 16 8) i (phaseBit (ringRX n.val) (ringProd (ringRX n.val) s) s) x).1 ∈ t.out ∧
        ringProd (ringRX n.val) t = (ringProd (ringRX n.val) s + 1) % 2 ^ 32 ∧
        ringCons (ringFL n.val) t = (ringCons (ringFL n.val) s + 1) % 2 ^ 32) ∧
    (leNat (slice b 8 2) < i.bytes.length → countsNow s = true →
      ∃ t, exec (.hostDelivery n (some (.ok b))) s = .next t ∧ qItems (136 + n.val) t = r ∧ Tallied C.HOST_RX_TOOBIG 1 s0 t ∧
        ringCons (ringFL n.val) t = ringCons (ringFL n.val) s)) ∧
  (∀ (n : Fin 16) (fl : Option DmaBytes) (i : Item) (r : List Item) (s s0 : State), deliverReady s = true →
    pickHost s = (some (136 + n.val), s0) → qItems (136 + n.val) s0 = i :: r →
    (hostless s = true ∧ i.container = true) ∨ ringHas (ringFL n.val) s = false ∨ ringRoom (ringRX n.val) s = false →
    countsNow s = true →
    ∃ t, exec (.hostDelivery n fl) s = .next t ∧ qItems (136 + n.val) t = r ∧ Tallied C.HOST_RX_NOBUF 1 s0 t)

/-- R298-R301: a new command completes with its status and is recorded; one posted again is answered from its record with
REPEAT and does nothing more; a CSEQ out of sequence is answered BAD_SEQ and not executed; an opcode that is not listed is
answered BAD_OPCODE, and an action that SETTING or IMAGE does not list BAD_VALUE, with the image's state as IMAGE's RESULT.
That BAD_OPCODE is recorded like any command is the model's reading (notes/assumptions/43.md). -/
def Obligations.CommandsCompleteInSequence : Prop :=
  (∀ (h : CmdHdr) (s : State), Due h s → ∃ t, exec (.nop h) s = .next t ∧ Completed h cDONE 0 0 s t ∧
    ∃ r ∈ t.host.records, r.cseq = h.cseq.toNat ∧ r.status = cDONE) ∧
  (∀ (h : CmdHdr) (op a : Byte) (s : State), Due h s → 0x0C < op.toNat →
    ∃ t, exec (.badOpcode h op a) s = .next t ∧ Completed h cBAD_OPCODE 0 0 s t) ∧
  (∀ (h : CmdHdr) (a : Byte) (s : State), Due h s →
    (a = 0 ∨ 3 < a.toNat → ∃ t, exec (.badOpcode h 0x09 a) s = .next t ∧ Completed h cBAD_VALUE 0 0 s t) ∧
    (a = 0 ∨ 5 < a.toNat → ∃ t, exec (.badOpcode h 0x0A a) s = .next t ∧ Completed h cBAD_VALUE 0 (imageState s) s t)) ∧
  (∀ (h : CmdHdr) (w : Word) (r : CmdRec) (s : State), cmdReady s = true → on F.CMD_SEQ_VALID s = true →
    (rd F.CMD_SEQ_LAST s + 65536 - h.cseq.toNat) % 65536 ≤ 63 → s.host.records.find? (fun r => r.cseq == h.cseq.toNat) = some r →
    ∃ t, exec (.wait h w) s = .next t ∧ t.pwr = s.pwr ∧ t.host.wait = none ∧ rd F.CMD_SEQ_LAST t = rd F.CMD_SEQ_LAST s ∧
      dmaOut s (descAddr ringCMD (ringCons ringCMD s) s + 24)
        (bytesLE 5 r.result ++ [BitVec.ofNat 8 r.sub, BitVec.ofNat 8 r.status, 192]) ∈ t.out ∧
      (countsNow s = true → Tallied C.CMD_REPEAT 1 s t)) ∧
  (∀ (h : CmdHdr) (w : Word) (s : State), cmdReady s = true → on F.CMD_SEQ_VALID s = true →
    63 < (rd F.CMD_SEQ_LAST s + 65536 - h.cseq.toNat) % 65536 → h.cseq.toNat ≠ (rd F.CMD_SEQ_LAST s + 1) % 65536 →
    ∃ t, exec (.wait h w) s = .next t ∧ t.pwr = s.pwr ∧ t.host.wait = none ∧ rd F.CMD_SEQ_LAST t = rd F.CMD_SEQ_LAST s ∧
      dmaOut s (descAddr ringCMD (ringCons ringCMD s) s + 24) (bytesLE 5 0 ++ [0, 2, 128]) ∈ t.out ∧
      (countsNow s = true → Tallied C.CMD_BAD_SEQ 1 s t))

/-- R300, R405: WAIT asks for a transition at its tick and holds the ring. R466, R467, R304: a Harvest takes its snapshot at
its boundary, writes its buffer and then completes, with DMA_ERR where the buffer's write failed; its address is to be
aligned. R465: CLEAR_LEDGER, QM_WRITE and STAGED_WRITE are staged for their tick and answered with its stamp; what may not be
written is refused, a stamp that is none or has passed is answered BAD_VALUE or LATE. That an address that is not aligned,
and a register no stage may write, are answered so is the model's reading (notes/assumptions/38.md, 44.md). -/
def Obligations.CommandsActAtTheirTick : Prop :=
  (∀ (h : CmdHdr) (w : Word) (x : Nat) (s : State), Due h s → CmdAt w x s →
    ∃ t, exec (.wait h w) s = .next t ∧ t.host.wait = some h ∧ rd F.CMD_SEQ_LAST t = h.cseq.toNat ∧ t.out = s.out ∧
      ∃ r ∈ t.pwr.reqs, r.t = x ∧ r.cmd = some h ∧ r.order = none) ∧
  (∀ (h : CmdHdr) (a : BitVec 64) (s : State), Due h s → a.toNat % 4096 = 0 →
    ∃ t, exec (.harvest h a) s = .next t ∧ t.host.wait = some h ∧ t.host.harvest = some (h, a.toNat, nextTick s) ∧ t.out = s.out) ∧
  (∀ (h : CmdHdr) (a : BitVec 64) (s : State), Due h s → a.toNat % 4096 ≠ 0 →
    ∃ t, exec (.harvest h a) s = .next t ∧ Completed h cBAD_VALUE 0 0 s t ∧ t.host.harvest = s.host.harvest) ∧
  (∀ (h : CmdHdr) (a x : Nat) (s : State), s.host.harvest = some (h, a, x) → tickDue x s.bt = true → s.host.wait = some h →
    hreState s = hreRUNNING →
    (∃ t, exec (.harvestSnapshot false) s = .next t ∧ t.host.harvest = none ∧ t.host.wait = none ∧
      rd F.LEDGER_SUMMARY_HARVEST_SEQ t = (rd F.LEDGER_SUMMARY_HARVEST_SEQ s + 1) % 2 ^ 24 ∧
      dmaOut s a (harvestImage x (harvestStep s)) ∈ t.out ∧ (∀ c ∈ t.ledger.clears, c.onHarvest = false) ∧
      t.out.head? = some (dmaOut s (descAddr ringCMD (ringCons ringCMD s) s + 24) (bytesLE 5 (stampOf x).toNat ++ [0, 0, 128]))) ∧
    (countsNow s = true → ∃ t, exec (.harvestSnapshot true) s = .next t ∧ t.host.harvest = none ∧ t.host.wait = none ∧
      Tallied C.HOST_DMA_ERR 1 s t ∧
      t.out.head? = some (dmaOut s (descAddr ringCMD (ringCons ringCMD s) s + 24) (bytesLE 5 0 ++ [0, 7, 128])))) ∧
  (∀ (h : CmdHdr) (g : BitVec 32) (s : State), Due h s →
    ∃ t, exec (.clearLedger h g) s = .next t ∧ Completed h cDONE 0 (stampOf (nextTick s)).toNat s t ∧
      t.ledger.clears = s.ledger.clears ++ [{ groups := g.toNat % 65536, fromReg := false, onHarvest := false, t := nextTick s }]) ∧
  (∀ (h : CmdHdr) (obj idx : Byte) (r : List Word) (w : Word) (x : Nat) (s : State), Due h s → CmdAt w x s →
    (indWritable obj.toNat idx.toNat r = true →
      ∃ t, exec (.qmWrite h obj idx r w) s = .next t ∧ Completed h cDONE 0 (stampOf x).toNat s t ∧
        { t := x, op := .qmWrite obj.toNat idx.toNat (maskRec obj.toNat r) } ∈ t.staged) ∧
    (indWritable obj.toNat idx.toNat r = false →
      ∃ t, exec (.qmWrite h obj idx r w) s = .next t ∧ Completed h cBAD_VALUE 0 0 s t ∧ t.staged = s.staged)) ∧
  (∀ (h : CmdHdr) (off : BitVec 16) (v w : Word) (x : Nat) (s : State), Due h s → CmdAt w x s → off.toNat % 8 = 0 →
    (stagedWritable off.toNat = true →
      ∃ t, exec (.stagedWrite h off v w) s = .next t ∧ Completed h cDONE 0 (stampOf x).toNat s t ∧
        { t := x, op := .regWrite off.toNat v } ∈ t.staged) ∧
    (stagedWritable off.toNat = false →
      ∃ t, exec (.stagedWrite h off v w) s = .next t ∧ Completed h cREFUSED 0 0 s t ∧ t.staged = s.staged)) ∧
  (∀ (h : CmdHdr) (off : BitVec 16) (v w : Word) (s : State), Due h s → off.toNat % 8 ≠ 0 →
    ∃ t, exec (.stagedWrite h off v w) s = .next t ∧ Completed h cBAD_VALUE 0 0 s t ∧ t.staged = s.staged) ∧
  (∀ (h : CmdHdr) (w v : Word) (off : BitVec 16) (obj idx : Byte) (r : List Word) (s : State), Due h s → w ≠ 0 →
    stagedWritable off.toNat = true → off.toNat % 8 = 0 → indWritable obj.toNat idx.toNat r = true →
    (stampOk w = true → tickDiff (stampTick s.bt w) (nextTick s) < 0 →
      (∃ t, exec (.stagedWrite h off v w) s = .next t ∧ Completed h cLATE 0 0 s t ∧ t.staged = s.staged) ∧
      (∃ t, exec (.qmWrite h obj idx r w) s = .next t ∧ Completed h cLATE 0 0 s t ∧ t.staged = s.staged) ∧
      (∃ t, exec (.wait h w) s = .next t ∧ Completed h cLATE 0 0 s t ∧ t.pwr = s.pwr)) ∧
    (stampOk w = false →
      (∃ t, exec (.stagedWrite h off v w) s = .next t ∧ Completed h cBAD_VALUE 0 0 s t ∧ t.staged = s.staged) ∧
      (∃ t, exec (.qmWrite h obj idx r w) s = .next t ∧ Completed h cBAD_VALUE 0 0 s t ∧ t.staged = s.staged) ∧
      (∃ t, exec (.wait h w) s = .next t ∧ Completed h cBAD_VALUE 0 0 s t ∧ t.pwr = s.pwr)))

/-- R300, R81, R82: a host's LEAVE queues a LEAVE_REQ and starts its count anew. A HOST_MSG is queued upstream, refused when
the queue is full and answered BAD_VALUE when it is too long. R446, R447, R449: settings are applied, stored, read and
deleted by the records in the host's buffer; a preset is applied as its register's write; a store that has no room answers
FULL with event SETTINGS_FULL. R428: a record whose programming fails twice is not applied; its status is a free value, since
the spec states none (notes/assumptions/41.md). R300: what the firmware executes is refused while MGT is not ON, and a buffer
whose read failed is answered DMA_ERR and counted (R304). The statuses where MGT is not ON and where a buffer's read failed,
and RESULT, are the model's reading (notes/assumptions/37.md, 39.md, 40.md). -/
def Obligations.HostMessagesAndSettings : Prop :=
  (∀ (h : CmdHdr) (s : State), Due h s → s.term = .ranging ∨ s.term = .running → Space s →
    ∃ t, exec (.leaveCommand h) s = .next t ∧ Completed h cDONE 0 0 s t ∧ t.byp.leaveReq = some (s.byp.leaveReq.getD 0) ∧
      (s.byp.leaveReq = none → t.byp.leaveSent = false) ∧ Queued nLEAVE_REQ [] t) ∧
  (∀ (h : CmdHdr) (s : State), Due h s → s.term ≠ .ranging → s.term ≠ .running →
    ∃ t, exec (.leaveCommand h) s = .next t ∧ Completed h cREFUSED 0 0 s t ∧ t.byp = s.byp ∧ t.note = s.note) ∧
  (∀ (h : CmdHdr) (len : BitVec 16) (b : List Byte) (s : State), Due h s → domOn dMGT s = true → len.toNat ≤ 220 →
    (s.note.up.length < 16 → ∃ t, exec (.hostMsg h len (.ok b)) s = .next t ∧ Completed h cDONE 0 0 s t ∧
      Queued nHOST_MSG_UP (slice b 0 len.toNat) t) ∧
    (16 ≤ s.note.up.length → ∃ t, exec (.hostMsg h len (.ok b)) s = .next t ∧ Completed h cFULL 0 0 s t ∧ t.note = s.note)) ∧
  (∀ (h : CmdHdr) (len : BitVec 16) (d : DmaBytes) (s : State), Due h s → domOn dMGT s = true → 220 < len.toNat →
    ∃ t, exec (.hostMsg h len d) s = .next t ∧ Completed h cBAD_VALUE 0 0 s t ∧ t.note = s.note) ∧
  (∀ (h : CmdHdr) (a : BitVec 64) (len : BitVec 16) (d : DmaBytes) (f : Bool) (i : Instr) (s : State), Due h s →
    i ∈ [.hostMsg h len d, .settingWrite h len d f, .settingRead h a len d f, .settingDelete h len d] →
    (domOn dMGT s = false → ∃ t, exec i s = .next t ∧ Completed h cREFUSED 0 0 s t ∧ t.note = s.note ∧ t.glean = s.glean ∧
      t.flash = s.flash) ∧
    (∀ c, domOn dMGT s = true → d = .err c → len.toNat ≤ 220 → s.note.up.length < 16 → countsNow s = true →
      ∃ t, exec i s = .next t ∧ Completed h cDMA_ERR 0 0 s t ∧ Tallied C.HOST_DMA_ERR 1 s t ∧ t.note = s.note ∧
        t.glean = s.glean ∧ t.flash = s.flash)) ∧
  (∀ (h : CmdHdr) (len : BitVec 16) (b : List Byte) (r : Rec) (s : State), Due h s → domOn dMGT s = true →
    bufRecord len b = some r → settingBad r.key r.val = false → r.val ≠ [] →
    (r.persist = false → isPreset r.key = false →
      ∃ t, exec (.settingWrite h len (.ok b) false) s = .next t ∧ lget [] t.glean.live r.key = r.val ∧ t.flash = s.flash ∧
        Completed h cDONE 0 (5 + r.val.length) s t) ∧
    (r.persist = false → isPreset r.key = true →
      exec (.settingWrite h len (.ok b) false) s = .next (cmdComplete h cDONE 0 (5 + r.val.length) false
        (cmdRecord h cDONE 0 (5 + r.val.length) (presetWrite (presetOff r.key) (bytesWord r.val)
          (setLive r.key (some r.val) (wr F.CMD_SEQ_VALID 1 (wr F.CMD_SEQ_LAST h.cseq.toNat s))))))) ∧
    (r.persist = true → isPreset r.key = true → layoutOk s = true → ∀ u,
      settingStore r.key r.val (wr F.CMD_SEQ_VALID 1 (wr F.CMD_SEQ_LAST h.cseq.toNat s)) = (true, u) →
      exec (.settingWrite h len (.ok b) false) s = .next (cmdComplete h cDONE 0 (5 + r.val.length) false
        (cmdRecord h cDONE 0 (5 + r.val.length) (presetWrite (presetOff r.key) (bytesWord r.val) (setLive r.key none u))))) ∧
    (r.persist = true → layoutOk s = false →
      ∃ t, exec (.settingWrite h len (.ok b) false) s = .next t ∧ Completed h cREFUSED 0 0 s t ∧ t.glean = s.glean ∧
        t.flash = s.flash) ∧
    (r.persist = true → isPreset r.key = false → layoutOk s = true → (settingStore r.key r.val s).1 = true →
      ∃ t, exec (.settingWrite h len (.ok b) false) s = .next t ∧ t.flash = (settingStore r.key r.val s).2.flash ∧
        Completed h cDONE 0 (5 + r.val.length) s t) ∧
    (r.persist = true → layoutOk s = true → (settingStore r.key r.val s).1 = false → Room s →
      ∃ t, exec (.settingWrite h len (.ok b) false) s = .next t ∧ t.flash = s.flash ∧ Waits E.SETTINGS_FULL r.key t ∧
        Completed h cFULL 0 0 s t) ∧
    (recordStored r.key r.persist r.val s = true →
      ∃ t st, exec (.settingWrite h len (.ok b) true) s = .next t ∧ t.glean.live = s.glean.live ∧ t.key = s.key ∧
        Completed h st 0 (if st = cDONE then 5 + r.val.length else 0) s t)) ∧
  (∀ (h : CmdHdr) (len : BitVec 16) (b : List Byte) (r : Rec) (s : State), Due h s → domOn dMGT s = true →
    bufRecord len b = some r → settingBad r.key r.val = true →
    ∃ t, exec (.settingWrite h len (.ok b) false) s = .next t ∧ Completed h cBAD_VALUE 0 0 s t ∧ t.glean = s.glean ∧ t.flash = s.flash) ∧
  (∀ (h : CmdHdr) (a : BitVec 64) (len : BitVec 16) (b : List Byte) (k : Nat) (s : State), Due h s → domOn dMGT s = true →
    keyIn (b.take len.toNat) = some k → keyKnown k = true → (readRecord k s).length ≤ len.toNat →
    (∃ t, exec (.settingRead h a len (.ok b) false) s = .next t ∧ dmaOut s a.toNat (readRecord k s) ∈ t.out ∧
      Completed h cDONE 0 (readRecord k s).length s t) ∧
    (countsNow s = true → ∃ t, exec (.settingRead h a len (.ok b) true) s = .next t ∧ Completed h cDMA_ERR 0 0 s t ∧
      Tallied C.HOST_DMA_ERR 1 s t)) ∧
  (∀ (h : CmdHdr) (a : BitVec 64) (len : BitVec 16) (b : List Byte) (f : Bool) (s : State), Due h s → domOn dMGT s = true →
    (∀ k, keyIn (b.take len.toNat) = some k → keyKnown k = false ∨ len.toNat < (readRecord k s).length) →
    ∃ t, exec (.settingRead h a len (.ok b) f) s = .next t ∧ Completed h cBAD_VALUE 0 0 s t ∧ t.glean = s.glean) ∧
  (∀ (h : CmdHdr) (len : BitVec 16) (b : List Byte) (r : Rec) (s : State), Due h s → domOn dMGT s = true →
    bufRecord len b = some r → settingBad r.key [] = false →
    (settingGet r.key s = none ∨ layoutOk s = false →
      ∃ t, exec (.settingDelete h len (.ok b)) s = .next t ∧ SMap.find t.glean.live r.key = none ∧ t.flash = s.flash ∧
        Completed h cDONE 0 (5 + r.val.length) s t) ∧
    (layoutOk s = true → (settingGet r.key s).isSome = true → (settingStore r.key [] (setLive r.key none s)).1 = true →
      ∃ t, exec (.settingDelete h len (.ok b)) s = .next t ∧ t.flash = (settingStore r.key [] (setLive r.key none s)).2.flash ∧
        Completed h cDONE 0 (5 + r.val.length) s t))

/-- R445: the host writes an image from offset 0 on into the staging slot, each write where the last one ended, and gives the
slot back with an empty one; a buffer whose read failed is answered DMA_ERR (R304), what is out of range or out of order is
answered BAD_VALUE, and a slot that may not be written REFUSED. R445, R439, R443: the collected image is verified, swapped at
its tick, confirmed or reverted during its trial, each refused where it may not be, and all while MGT is not ON. R300, R38:
SOFT_RESET with its key is answered before the reset is asked for. These refusals, and DMA_ERR, are the model's reading where
no rule pairs them (notes/assumptions/37.md, 39.md, 42.md). -/
def Obligations.HostImageCommands : Prop :=
  (∀ (h : CmdHdr) (len : BitVec 16) (b : List Byte) (s : State), Due h s → domOn dMGT s = true → stagingOpen s = true →
    1 ≤ len.toNat → len.toNat ≤ 4096 → b.length = len.toNat →
    ∃ t, exec (.imageWriteStaging h len 0 (.ok b)) s = .next t ∧ Completed h cDONE 0 iCOLLECTING s t ∧
      imageState t = iCOLLECTING ∧ rd F.GLEAN_STATUS_HOST t = 1 ∧ t.glean.hostNext = some len.toNat ∧
      flashRead fSTAGING len.toNat t = b) ∧
  (∀ (h : CmdHdr) (len : BitVec 16) (off : Word) (b : List Byte) (s : State), Due h s → domOn dMGT s = true → stagingOpen s = true →
    1 ≤ len.toNat → len.toNat ≤ 4096 → off ≠ 0 → off.toNat + len.toNat ≤ 1048576 → b.length = len.toNat →
    s.glean.hostNext = some off.toNat →
    ∃ t, exec (.imageWriteStaging h len off (.ok b)) s = .next t ∧ Completed h cDONE 0 iCOLLECTING s t ∧
      imageState t = iCOLLECTING ∧ t.glean.hostNext = some (off.toNat + len.toNat)) ∧
  (∀ (h : CmdHdr) (len : BitVec 16) (off : Word) (b : List Byte) (s : State), Due h s → domOn dMGT s = true → stagingOpen s = true →
    (len = 0 ∧ off ≠ 0) ∨ 4096 < len.toNat ∨ 1048576 < off.toNat + len.toNat ∨
      (1 ≤ len.toNat ∧ off ≠ 0 ∧ s.glean.hostNext ≠ some off.toNat) →
    ∃ t, exec (.imageWriteStaging h len off (.ok b)) s = .next t ∧ Completed h cBAD_VALUE 0 (imageState s) s t ∧ t.flash = s.flash ∧
      t.glean = s.glean) ∧
  (∀ (h : CmdHdr) (len : BitVec 16) (off : Word) (c : BitVec 4) (s : State), Due h s → domOn dMGT s = true →
    stagingOpen s = true → 1 ≤ len.toNat → len.toNat ≤ 4096 → off.toNat + len.toNat ≤ 1048576 → countsNow s = true →
    ∃ t, exec (.imageWriteStaging h len off (.err c)) s = .next t ∧ Completed h cDMA_ERR 0 0 s t ∧
      Tallied C.HOST_DMA_ERR 1 s t ∧ t.flash = s.flash ∧ t.glean = s.glean) ∧
  (∀ (h : CmdHdr) (d : DmaBytes) (s : State), Due h s → domOn dMGT s = true → stagingOpen s = true →
    (on F.GLEAN_STATUS_HOST s = true → ∃ t, exec (.imageWriteStaging h 0 0 d) s = .next t ∧ Completed h cDONE 0 iNONE s t ∧
      rd F.GLEAN_STATUS_HOST t = 0 ∧ t.glean.hostNext = none) ∧
    (on F.GLEAN_STATUS_HOST s = false → ∃ t, exec (.imageWriteStaging h 0 0 d) s = .next t ∧
      Completed h cDONE 0 (imageState s) s t ∧ t.flash = s.flash ∧ t.glean = s.glean)) ∧
  (∀ (h : CmdHdr) (len : BitVec 16) (off : Word) (d : DmaBytes) (i : Instr) (s : State), Due h s →
    i ∈ [.imageWriteStaging h len off d, .imageVerify h, .imageConfirm h, .imageRevert h] →
    domOn dMGT s = false → ∃ t, exec i s = .next t ∧ Completed h cREFUSED 0 0 s t ∧ t.flash = s.flash ∧ t.glean = s.glean) ∧
  (∀ (h : CmdHdr) (len : BitVec 16) (off : Word) (d : DmaBytes) (s : State), Due h s → domOn dMGT s = true → stagingOpen s = false →
    ∃ t, exec (.imageWriteStaging h len off d) s = .next t ∧ Completed h cREFUSED 0 (imageState s) s t ∧ t.flash = s.flash ∧
      t.glean = s.glean) ∧
  (∀ (h : CmdHdr) (s : State), Due h s → domOn dMGT s = true → layoutOk s = true → on F.GLEAN_STATUS_HOST s = true → countsNow s = true →
    ∃ t, exec (.imageVerify h) s = .next t ∧
      (hostImageOk s = true → imageState t = iVERIFIED ∧ Completed h cDONE 0 iVERIFIED s t) ∧
      (hostImageOk s = false → imageState t = imageState s ∧ Completed h cDONE 0 (imageState s) s t ∧ Tallied C.GLEAN_VERIFY_FAIL 1 s t)) ∧
  (∀ (h : CmdHdr) (s : State), Due h s → domOn dMGT s = true → layoutOk s = false ∨ on F.GLEAN_STATUS_HOST s = false →
    ∃ t, exec (.imageVerify h) s = .next t ∧ Completed h cREFUSED 0 (imageState s) s t ∧ imageState t = imageState s) ∧
  (∀ (h : CmdHdr) (w : Word) (x : Nat) (s : State), Due h s → domOn dMGT s = true → CmdAt w x s → s.glean.swap = none →
    (swapAllowed none none s = true → ∃ t, exec (.imageSwap h w) s = .next t ∧ t.glean.swap = some (x, 5) ∧
      Completed h cDONE 0 iVERIFIED s t) ∧
    (swapAllowed none none s = false → ∃ t, exec (.imageSwap h w) s = .next t ∧ t.glean.swap = none ∧
      Completed h cREFUSED 0 (imageState s) s t)) ∧
  (∀ (h : CmdHdr) (s : State), Due h s → domOn dMGT s = true →
    (onTrial s = true →
      (∃ t, exec (.imageConfirm h) s = .next t ∧ rd F.IMAGE_RUNNING_TRIAL t = 0 ∧ imageState t = iCONFIRMED ∧
        Completed h cDONE 0 iCONFIRMED s t) ∧
      (∃ t, exec (.imageRevert h) s = .next t ∧ t.boot.softPending = true ∧ rd F.RESET_CAUSE_SOFT_CMD t = 1 ∧
        Completed h cDONE 0 (imageState s) s t)) ∧
    (onTrial s = false →
      (∃ t, exec (.imageConfirm h) s = .next t ∧ Completed h cREFUSED 0 (imageState s) s t ∧ t.flash = s.flash) ∧
      (∃ t, exec (.imageRevert h) s = .next t ∧ Completed h cREFUSED 0 (imageState s) s t ∧ t.boot = s.boot))) ∧
  (∀ (h : CmdHdr) (s : State), Due h s →
    ∃ t, exec (.softResetCommand h 0x5AFE) s = .next t ∧ t.boot.softPending = true ∧ rd F.RESET_CAUSE_SOFT_CMD t = 1 ∧
      Completed h cDONE 0 0 s t) ∧
  (∀ (h : CmdHdr) (k : BitVec 16) (s : State), Due h s → k ≠ 0x5AFE →
    ∃ t, exec (.softResetCommand h k) s = .next t ∧ t.boot = s.boot ∧ Completed h cBAD_VALUE 0 0 s t)

/-! ### Local Ethernet and PTP (spec/13_local_ethernet_ptp.md) -/

/-- R316: a port that may come up does, with its speed, and its queues go on; one that may not stays as it is. R317, R278: a
port that loses its link is counted with what it cut, told, and its hold-down begins, counted to the boundary that ends its
last tick (notes/assumptions/89.md). R312, R313: a base page sets the
partner's word and completes negotiation; a half-duplex partner is counted and bars the link until AN_RESTART, a remote fault
is counted and bars it until the next page. R314: an SGMII word is acknowledged with 0x4001, sets the partner's word and
completes negotiation; another speed takes the link down, so does a word without link, and one without full duplex or of a
reserved speed is counted too. A command outside its conditions changes nothing (notes/assumptions/5.md). -/
def Obligations.LinksComeUpAndGoDown : Prop :=
  (∀ (k : Fin 6) (s : State),
    (mayLink k.val s = true → Room s →
      ∃ t, exec (.linkUp k) s = .next t ∧ linkUp k.val t = true ∧ rd (F.ETH_STATUS_SPEED k.val) t = portSpeed k.val s ∧
        k.val ∉ t.q.flushed ∧ (∀ c, (k.val, c) ∉ t.q.hold) ∧ Waits E.LINK_UP (k.val + 8 * portSpeed k.val s) t) ∧
    (mayLink k.val s = false → exec (.linkUp k) s = .next s)) ∧
  (∀ (k : Fin 6) (a b : Bool) (s : State), linkUp k.val s = true → countsNow s = true → Room s →
    ∃ t, exec (.linkDown k a b) s = .next t ∧ linkUp k.val t = false ∧ Tallied (C.ETH_LINK_DOWN k.val) 1 s t ∧
      Waits E.LINK_DOWN k.val t ∧ Tallied (C.ETH_TX_ABORT k.val) (b2n a) s t ∧ Tallied (C.ETH_RX_ABORT k.val) (b2n b) s t ∧
      (rd F.QM_HOLDDOWN_CYCLES s ≠ 0 → (k.val, 48 * rd F.QM_HOLDDOWN_CYCLES s + 1) ∈ t.q.hold)) ∧
  (∀ (k : Fin 6) (page : BitVec 16) (s : State), portDown k.val s = false → on (F.ETH_CFG_AN_EN k.val) s = true →
    rd (F.ETH_CFG_MODE k.val) s ≠ 1 → countsNow s = true → s.eth.ports.length = 6 →
    (nbit page.toNat 5 = true → nbits page.toNat 13 12 = 0 →
      ∃ t, exec (.anBasePage k page) s = .next t ∧ rd (F.ETH_STATUS_PARTNER k.val) t = page.toNat ∧
        rd (F.ETH_STATUS_AN_DONE k.val) t = b2n (!(portSt k.val s).anHalf)) ∧
    (nbit page.toNat 5 = false →
      ∃ t, exec (.anBasePage k page) s = .next t ∧ rd (F.ETH_STATUS_PARTNER k.val) t = page.toNat ∧
        rd (F.ETH_STATUS_AN_DONE k.val) t = 0 ∧ linkUp k.val t = false ∧ (portSt k.val t).anHalf = true ∧
        mayLink k.val t = false ∧ Tallied (C.ETH_AN_HALF k.val) 1 s t) ∧
    (nbits page.toNat 13 12 ≠ 0 →
      ∃ t, exec (.anBasePage k page) s = .next t ∧ rd (F.ETH_STATUS_PARTNER k.val) t = page.toNat ∧
        rd (F.ETH_STATUS_AN_DONE k.val) t = 0 ∧ linkUp k.val t = false ∧ mayLink k.val t = false ∧
        Tallied (C.ETH_AN_RF k.val) 1 s t)) ∧
  (∀ (k : Fin 6) (s : State), (portSt k.val s).anHalf = true → on (F.ETH_CFG_AN_EN k.val) s = true →
    s.eth.ports.length = 6 →
    ∃ t, exec (.anRestart k) s = .next t ∧ (portSt k.val t).anHalf = false ∧ rd (F.ETH_STATUS_AN_DONE k.val) t = 0 ∧
      (rd (F.ETH_CFG_MODE k.val) s ≠ 1 → portDown k.val s = false →
        t.out = .anWord k.val (basePage k.val s) :: s.out)) ∧
  (∀ (k : Fin 6) (w : BitVec 16) (s : State), portDown k.val s = false → on (F.ETH_CFG_AN_EN k.val) s = true →
    rd (F.ETH_CFG_MODE k.val) s = 1 → countsNow s = true →
    (nbit w.toNat 12 = true → nbits w.toNat 11 10 ≠ 3 → nbit w.toNat 15 = true →
      ∃ t, exec (.sgmiiWord k w) s = .next t ∧ rd (F.ETH_STATUS_PARTNER k.val) t = w.toNat ∧
        rd (F.ETH_STATUS_AN_DONE k.val) t = 1 ∧ .anWord k.val 0x4001 ∈ t.out ∧
        (linkUp k.val s = true → rd (F.ETH_STATUS_SPEED k.val) s ≠ nbits w.toNat 11 10 → linkUp k.val t = false)) ∧
    (nbit w.toNat 12 = false ∨ nbits w.toNat 11 10 = 3 →
      ∃ t, exec (.sgmiiWord k w) s = .next t ∧ rd (F.ETH_STATUS_AN_DONE k.val) t = 0 ∧ linkUp k.val t = false ∧
        .anWord k.val 0x4001 ∈ t.out ∧ Tallied (C.ETH_AN_HALF k.val) 1 s t) ∧
    (nbit w.toNat 15 = false →
      ∃ t, exec (.sgmiiWord k w) s = .next t ∧ rd (F.ETH_STATUS_AN_DONE k.val) t = 0 ∧ linkUp k.val t = false ∧
        .anWord k.val 0x4001 ∈ t.out))

/-- R318, R320, R322: a good frame is counted and joins the Thresher's work; one with a bad FCS, a runt, one that is too long
and a MAC control frame other than PAUSE are dropped, each in its counter; R327: a PTP message is diverted to the boundary
clock, one of another domain is counted and dropped. R322: a PAUSE that is for the port holds its transmitter, until it ends.
R319, R321: the frame the scheduler gives leaves with its checksums, padded, with its FCS; one that is too long is counted
and not sent. R328: a PTP message that waits goes ahead of the scheduler. A command outside its conditions changes nothing
(notes/assumptions/5.md). -/
def Obligations.FramesAreReceivedAndSent : Prop :=
  (∀ (k : Fin 6) (b : List Byte) (cap : Nat) (s : State), linkUp k.val s = true → countsNow s = true →
    (60 ≤ b.length → b.length ≤ maxLen k.val b s → be16 b 12 ≠ 0x8808 → ptpOf k.val b s = none →
      cellsOf b.length ≤ freeCells s → s.th.work.length < 4096 →
      ∃ t, exec (.ethFrameRx k (b ++ bytesLE 4 (crc32 b)) false cap) s = .next t ∧ Tallied (C.ETH_RX_OK k.val) 1 s t ∧
        freeCells t = freeCells s - cellsOf b.length ∧
        t.th.work = insertWork { tag := s.bt, src := k.val, cls := fget (reg R.TH_PORT_CLASS s) (4 * k.val + 3) (4 * k.val),
                                 cont := 0, bytes := b } s.th.work) ∧
    (∀ m, 60 ≤ b.length → b.length ≤ maxLen k.val b s → be16 b 12 ≠ 0x8808 → ptpOf k.val b s = some m →
      s.eth.ports.length = 6 →
      ∃ t, exec (.ethFrameRx k (b ++ bytesLE 4 (crc32 b)) false cap) s = .next t ∧ Tallied (C.ETH_RX_OK k.val) 1 s t ∧
        Tallied (C.PTP_RX k.val) 1 s t ∧ t.th = s.th ∧
        (byteAt m 4 = ptpDomain s → (portSt k.val t).ptpIn = (portSt k.val s).ptpIn ++ [(m, cap)]) ∧
        (byteAt m 4 ≠ ptpDomain s → (portSt k.val t).ptpIn = (portSt k.val s).ptpIn ∧ Tallied (C.PTP_RX_DOMAIN k.val) 1 s t)) ∧
    (b.length < 60 →
      ∃ t, exec (.ethFrameRx k (b ++ bytesLE 4 (crc32 b)) false cap) s = .next t ∧ Tallied (C.ETH_RX_RUNT k.val) 1 s t ∧
        t.th = s.th ∧ t.q = s.q) ∧
    (60 ≤ b.length → maxLen k.val b s < b.length →
      ∃ t, exec (.ethFrameRx k (b ++ bytesLE 4 (crc32 b)) false cap) s = .next t ∧ Tallied (C.ETH_RX_TOOLONG k.val) 1 s t ∧
        t.th = s.th ∧ t.q = s.q) ∧
    (60 ≤ b.length → b.length ≤ maxLen k.val b s → be16 b 12 = 0x8808 →
      ∃ t, exec (.ethFrameRx k (b ++ bytesLE 4 (crc32 b)) false cap) s = .next t ∧ t.th = s.th ∧ t.q = s.q ∧
        Tallied (if be16 b 14 = 1 then C.ETH_RX_PAUSE k.val else C.ETH_RX_MACCTL k.val) 1 s t)) ∧
  (∀ (k : Fin 6) (b f : List Byte) (e : Bool) (cap : Nat) (s : State), linkUp k.val s = true → countsNow s = true →
    f.length = 4 → e = true ∨ f ≠ bytesLE 4 (crc32 b) →
    ∃ t, exec (.ethFrameRx k (b ++ f) e cap) s = .next t ∧ Tallied (C.ETH_RX_FCS k.val) 1 s t ∧ t.th = s.th ∧ t.q = s.q) ∧
  (∀ (k : Fin 6) (b : List Byte) (s : State), linkUp k.val s = true → s.eth.ports.length = 6 → countsNow s = true →
    (on (F.ETH_CFG_PAUSE_HONOUR k.val) s = true → beAt b 0 6 = 0x0180C2000001 ∨ beAt b 0 6 = portMac k.val s →
      ∃ t, exec (.pause k b) s = .next t ∧ Tallied (C.ETH_RX_PAUSE k.val) 1 s t ∧ (portSt k.val t).quanta = be16 b 16 ∧
        rd (F.ETH_STATUS_PAUSED k.val) t = b2n (decide (0 < be16 b 16))) ∧
    (on (F.ETH_CFG_PAUSE_HONOUR k.val) s = false ∨ (beAt b 0 6 ≠ 0x0180C2000001 ∧ beAt b 0 6 ≠ portMac k.val s) →
      ∃ t, exec (.pause k b) s = .next t ∧ Tallied (C.ETH_RX_PAUSE k.val) 1 s t ∧ t.eth = s.eth ∧
        rd (F.ETH_STATUS_PAUSED k.val) t = rd (F.ETH_STATUS_PAUSED k.val) s)) ∧
  (∀ (k : Fin 6) (s : State), on (F.ETH_STATUS_PAUSED k.val) s = true →
    ∃ t, exec (.pauseEnd k) s = .next t ∧ rd (F.ETH_STATUS_PAUSED k.val) t = 0 ∧
      ∀ c, exec (.frameTransmit k c) s = .next s) ∧
  (∀ (k : Fin 6) (c : Nat) (i : Item) (u s : State), linkUp k.val s = true → on (F.ETH_STATUS_PAUSED k.val) s = false →
    (portSt k.val s).ptpWait = [] →
    takeFrame k.val (eachOf (portQueues k.val) (fun s q => sweepQueue q s) s) = (some i, u) →
    (i.bytes.length ≤ maxLen k.val i.bytes u →
      ∃ t, exec (.frameTransmit k c) s = .next t ∧ t.q = u.q ∧
        t.out = .ethFrame k.val (withFcs (withChecksums k.val i u).1) :: u.out) ∧
    (maxLen k.val i.bytes u < i.bytes.length → countsNow u = true →
      ∃ t, exec (.frameTransmit k c) s = .next t ∧ t.q = u.q ∧ t.out = u.out ∧ Tallied (C.ETH_TX_TOOLONG k.val) 1 u t)) ∧
  (∀ (k : Fin 6) (c : Nat) (r : List PtpOut) (s : State), linkUp k.val s = true → on (F.ETH_STATUS_PAUSED k.val) s = false →
    (portSt k.val s).ptpWait = .due .announce :: r → ptpRuns k.val s = true → timeValid s = true → ptpState k.val s = 4 →
    s.eth.ports.length = 6 →
    ∃ t v, exec (.frameTransmit k c) s = .next t ∧ t.q = s.q ∧ (portSt k.val t).ptpWait = r ∧
      t.out = .ptp k.val 0xB (ptpFrame k.val 0xB (announceMsg k.val (portSt k.val s).seqAnnounce s) v s) :: s.out)

/-- R326, R328: the messages of the boundary clock go out in the transport in use when they are due, a Sync with its
Follow_Up, and wait while PAUSE holds the port (over UDP the identification, the type of service, the time to live and
whether a checksum is sent are free values, notes/assumptions/48.md). R328: a delay request and a peer delay request are
answered, a peer's answer gives the link delay, a one-step message is counted. R323: an Announce is kept and the best master
decides the port's state (the flag alternateMaster and the time window of four intervals are read from IEEE 1588,
notes/assumptions/48.md); a receipt timeout and a qualification end the waits. R325: the end of holdover changes the clock's
class. -/
def Obligations.TheBoundaryClockRuns : Prop :=
  (∀ (k : Fin 6) (c : Nat) (s : State), ptpRuns k.val s = true → ptpHeld k.val s = false → timeValid s = true →
    ptpState k.val s = 4 → s.eth.ports.length = 6 →
    (∃ t v, exec (.ptpMessageDue k .announce c) s = .next t ∧
      t.out = .ptp k.val 0xB (ptpFrame k.val 0xB (announceMsg k.val (portSt k.val s).seqAnnounce s) v s) :: s.out ∧
      (portSt k.val t).seqAnnounce = ((portSt k.val s).seqAnnounce + 1) % 65536) ∧
    (∃ t v w, exec (.ptpMessageDue k .sync c) s = .next t ∧
      t.out = .ptp k.val 8 (ptpFrame k.val 8 (ptpHeader k.val 8 44 0 8 (taiOf (txStamp k.val c s) s).2 (portSt k.val s).seqSync 2
          (ptpLogs s).2.1 s ++ ptpTime (taiOf (txStamp k.val c s) s).1) w s) ::
        .ptp k.val 0 (ptpFrame k.val 0 (ptpHeader k.val 0 44 2 8 0 (portSt k.val s).seqSync 0 (ptpLogs s).2.1 s ++ ptpTime 0) v s) ::
        s.out ∧
      (portSt k.val t).seqSync = ((portSt k.val s).seqSync + 1) % 65536)) ∧
  (∀ (k : Fin 6) (c : Nat) (s : State), ptpRuns k.val s = true → ptpHeld k.val s = false → ptpP2P s = true →
    s.eth.ports.length = 6 →
    ∃ t m, exec (.ptpMessageDue k .pdelayReq c) s = .next t ∧ t.out = .ptp k.val 2 m :: s.out ∧
      (portSt k.val t).pdReq = some ((portSt k.val s).seqPdelay, (txStamp k.val c s).toNat)) ∧
  (∀ (k : Fin 6) (c : Nat) (kind : PtpKind) (s : State), ptpRuns k.val s = true → ptpHeld k.val s = true →
    s.eth.ports.length = 6 →
    ∃ t, exec (.ptpMessageDue k kind c) s = .next t ∧ t.out = s.out ∧
      (portSt k.val t).ptpWait = (portSt k.val s).ptpWait ++ [.due kind]) ∧
  (∀ (k : Fin 6) (c cap : Nat) (b : List Byte) (r : List (List Byte × Nat)) (s : State), (portSt k.val s).ptpIn = (b, cap) :: r →
    on (F.ETH_CFG_PTP_EN k.val) s = true → 2 ≤ ptpState k.val s → countsNow s = true → s.eth.ports.length = 6 →
    (byteAt b 0 % 16 = 0 ∨ byteAt b 0 % 16 = 3 → nbit (byteAt b 6) 1 = false →
      ∃ t, exec (.ptpRx k c) s = .next t ∧ (portSt k.val t).ptpIn = r ∧ Tallied (C.PTP_RX_ONESTEP k.val) 1 s t) ∧
    (byteAt b 0 % 16 = 1 → ptpP2P s = false → timeValid s = true → ptpState k.val s = 4 → linkUp k.val s = true →
      ptpHeld k.val s = false →
      ∃ t v, exec (.ptpRx k c) s = .next t ∧ (portSt k.val t).ptpIn = r ∧
        t.out = .ptp k.val 9 (ptpFrame k.val 9 (ptpHeader k.val 9 54 0 8 (taiOf (rxStamp k.val cap s) s).2 (be16 b 30) 3
          (ptpLogs s).2.2 s ++ ptpTime (taiOf (rxStamp k.val cap s) s).1 ++ slice b 20 10) v s) :: s.out) ∧
    (byteAt b 0 % 16 = 2 → ptpP2P s = true → timeValid s = true → linkUp k.val s = true → ptpHeld k.val s = false →
      ∃ t m n, exec (.ptpRx k c) s = .next t ∧ (portSt k.val t).ptpIn = r ∧ t.out = .ptp k.val 0xA n :: .ptp k.val 3 m :: s.out) ∧
    (∀ q t1 t4 t2 x, byteAt b 0 % 16 = 0xA → (portSt k.val s).pdReq = some (q, t1) → (portSt k.val s).pdResp = some (t4, t2, x) →
      beAt b 44 10 = clockIdentity s * 65536 + k.val + 1 → be16 b 30 = q → firstPtpPort s = k.val →
      ∃ t, exec (.ptpRx k c) s = .next t ∧ (portSt k.val t).pdReq = none ∧
        rd F.PTP_STATUS_PEER_DELAY t = peerDelay t1 t4 t2 (nsAt b 34) (x + toSigned 64 (beAt b 8 8))) ∧
    (byteAt b 0 % 16 = 0xB → nbit (byteAt b 6) 0 = false → (parseAnnounce b).steps < 255 →
      (parseAnnounce b).sender / 65536 ≠ clockIdentity s →
      ∃ t, exec (.ptpRx k c) s = .next t ∧ (portSt k.val t).ptpIn = r ∧ (portSt k.val t).annAt = s.bt ∧
        (∃ f ∈ (portSt k.val t).foreign, f.ds = parseAnnounce b) ∧
        (timeValid s = true → ∀ e, bestForeign k.val t = some e → ptpState k.val t =
          if recommendsMaster e t then (if ptpState k.val s = 2 ∨ ptpState k.val s = 5 then 3 else ptpState k.val s) else 5))) ∧
  (∀ (k : Fin 6) (s : State), on (F.ETH_CFG_PTP_EN k.val) s = true → s.eth.ports.length = 6 →
    (announceTicks (receiptTimeout s) s : Int) ≤ tickDiff s.bt (portSt k.val s).annAt →
    (timeValid s = true → ptpState k.val s = 2 ∨ ptpState k.val s = 5 → Room s →
      ∃ t, exec (.announceReceiptTimeout k) s = .next t ∧ ptpState k.val t = 4 ∧ (portSt k.val t).foreign = [] ∧
        Waits E.PTP_PORT_STATE (k.val + 8 * 4) t) ∧
    (timeValid s = false ∨ (ptpState k.val s ≠ 2 ∧ ptpState k.val s ≠ 5) →
      ∃ t, exec (.announceReceiptTimeout k) s = .next t ∧ ptpState k.val t = ptpState k.val s ∧
      (portSt k.val t).foreign = [])) ∧
  (∀ (k : Fin 6) (s : State), ptpState k.val s = 3 → Room s →
    ∃ t, exec (.qualificationTimeout k) s = .next t ∧ ptpState k.val t = 4 ∧ Waits E.PTP_PORT_STATE (k.val + 8 * 4) t) ∧
  (∀ s : State, s.term = .flywheel → rd F.PTP_CFG_HOLDOVER s * 48000 ≤ s.eth.flyTicks →
    ∃ t, exec .holdoverExpiry s = .next t ∧ t.eth.holdoverOver = true ∧
      (timeValid s = true → s.eth.flyClass = some 6 → rd F.PTP_STATUS_CLOCK_CLASS t = 52) ∧
      (timeValid s = true → s.eth.flyClass = some 13 → rd F.PTP_STATUS_CLOCK_CLASS t = 58))

/-! ### Show ports (spec/14_show_ports.md) -/

/-- R343, R344: a due break sends the universe's packet and opens the gap. R346, R347: in the gap an RDM request goes out,
the discovery's by turns with the queued ones; a queued one's transaction ends with an item of its status, a discovery's
takes its search one step on, and a packet that waited for its end follows; a search that is over ends with an item for
each responder found and event RDM_DISC_DONE (the search follows ANSI E1.20; a discovery request's source UID, transaction
number and port ID are free values, notes/assumptions/49.md). R345: a received packet is captured or counted. R335: a
universe without data for the loss time goes idle. -/
def Obligations.UniversesRun : Prop :=
  (∀ (u : Fin 8) (s : State), showOn s = true → dmxOut u.val s = true → isStarted (gDMX u.val) s = true →
    (dmxSt u.val s).breakDue = true → dmxFree u.val s = true →
    ∃ t, exec (.dmxBreak u) s = .next t ∧ t.out = .dmx u.val (0 :: dmxSlots u.val s) :: s.out ∧
      (dmxSt u.val t).breakDue = false ∧ (dmxSt u.val t).gap = true ∧
      (dmxSt u.val t).busyTo = some (tickAdd s.bt (dmxTicks (rd (F.DMX_CFG_SLOTS u.val) s) s : Int))) ∧
  (∀ (u : Fin 8) (s : State), showOn s = true → dmxOut u.val s = true → on (F.DMX_CFG_RDM_EN u.val) s = true →
    (dmxSt u.val s).gap = true → dmxFree u.val s = true → (dmxSt u.val s).breakDue = false →
    (∀ r l, discTurn (dmxSt u.val s) = none → (dmxSt u.val s).requests = r :: l →
      ∃ t, exec (.rdmTransaction u) s = .next t ∧ t.out = .rdm u.val (0xCC :: r) :: s.out ∧ (dmxSt u.val t).requests = l ∧
        (dmxSt u.val t).rdm = some (r, stampOf s.bt) ∧ (dmxSt u.val t).gap = false) ∧
    (∀ x, discTurn (dmxSt u.val s) = some x →
      ∃ t, exec (.rdmTransaction u) s = .next t ∧ t.out = .rdm u.val (0xCC :: (discRequest x s).1) :: s.out ∧
        (dmxSt u.val t).requests = (dmxSt u.val s).requests ∧ discActive u.val t = true ∧
        (dmxSt u.val t).rdm = some ((discRequest x s).1, stampOf s.bt) ∧ (dmxSt u.val t).gap = false)) ∧
  (∀ (u : Fin 8) (b r : List Byte) (f : Bool) (w : Word) (s : State), (dmxSt u.val s).rdm = some (r, w) → countsNow s = true →
    ∃ t, exec (.rdmTransactionEnd u b f) s = .next t ∧ (dmxSt u.val t).rdm = none ∧ (dmxSt u.val t).goDue = false ∧
      (discActive u.val s = false → (dmxSt u.val t).disc = (dmxSt u.val s).disc ∧
        t.show_.caps = s.show_.caps ++ [(rd F.DMX_TIMING_RDM_QUEUE s,
          [BitVec.ofNat 8 (rdmStatus r b f), BitVec.ofNat 8 u.val] ++ bytesBE 5 w.toNat ++ (if rdmStatus r b f = 4 then [] else b))]) ∧
      (discActive u.val s = true → t.show_.caps = s.show_.caps ∧
        (dmxSt u.val t).disc = (dmxSt u.val s).disc.map (discStep (rdmStatus r b f) b)) ∧
      ((dmxSt u.val s).goDue = true → t.out = .dmx u.val (0 :: dmxSlots u.val s) :: s.out) ∧
      ((dmxSt u.val s).goDue = false → t.out = s.out) ∧
      (rdmStatus r b f = 1 → Tallied C.RDM_TIMEOUT 1 s t) ∧ (rdmStatus r b f = 2 → Tallied C.RDM_BAD 1 s t)) ∧
  (∀ (u : Fin 8) (x : List Nat) (s : State), showOn s = true → discOver u.val s = some x → Room s →
    ∃ t, exec (.rdmDiscovery u) s = .next t ∧ (dmxSt u.val t).disc = none ∧
      t.show_.caps = s.show_.caps ++ x.map (fun y => (rd F.DMX_TIMING_RDM_QUEUE s,
        [5, BitVec.ofNat 8 u.val] ++ bytesBE 5 (stampOf s.bt).toNat ++ bytesBE 6 y)) ++
        [(rd F.DMX_TIMING_RDM_QUEUE s, [6, BitVec.ofNat 8 u.val] ++ bytesBE 5 (stampOf s.bt).toNat)] ∧
      Waits E.RDM_DISC_DONE (u.val + 8 * (x.length % 2 ^ 13)) t) ∧
  (∀ (u : Fin 8) (i : Inst) (k m : Nat) (f : Bool) (b : List Byte) (s : State), showLive s = true →
    on (F.DMX_CFG_ENABLE u.val) s = true → on (F.DMX_CFG_IN u.val) s = true → countsNow s = true →
    (88 ≤ k → 8 ≤ m → ∃ t, exec (.dmxRxPacket u i k m f b) s = .next t ∧
      t.show_.caps = s.show_.caps ++ [(rd (F.DMX_CFG_IN_QUEUE u.val) s,
        instBytes i s ++ [BitVec.ofNat 8 (b2n f)] ++ bytesBE 2 (b.length - 1) ++ b)] ∧
      Tallied (if f then C.DMX_RX_BAD else C.DMX_RX_PKT) 1 s t) ∧
    (k < 88 ∨ m < 8 → ∃ t, exec (.dmxRxPacket u i k m f b) s = .next t ∧ t.show_ = s.show_ ∧ Tallied C.DMX_RX_BAD 1 s t)) ∧
  (∀ (u : Fin 8) (s : State), showOn s = true → dmxOut u.val s = true → on (F.DMX_CFG_LOSS_ACT u.val) s = true →
    rd F.DMX_TIMING_LOSS s ≠ 0 → 48 * rd F.DMX_TIMING_LOSS s ≤ (dmxSt u.val s).quiet →
    ∃ t, exec (.dmxLoss u) s = .next t ∧ isStarted (gDMX u.val) t = false ∧ (dmxSt u.val t).breakDue = false)

/-- R349, R350: a timecode frame that is due goes out with its sync word: the generator's, what is presented now at once, a
waiting record after the last frame, and else the last frame plus one up to FREEWHEEL times, after which the output goes
idle; a queue's item taken in the tick in which a frame is due starts at the next boundary, which is the model's choice
(notes/assumptions/50.md). R351: a received codeword is shown in LTC_RX and captured. R352, R353: the next MIDI byte follows
at once, and one received is captured. R354: an input's new level, stable for DEBOUNCE ticks, is shown, counted and captured
with its first transition. R356: an express pulse ends with its contact open. R357, R358: a genlock output gives each edge
once, with its polarity and width. A command outside its conditions changes nothing (notes/assumptions/5.md). -/
def Obligations.TimecodeMidiContactsGenlock : Prop :=
  (∀ (k : Fin 2) (i : Nat) (s : State), showOn s = true → ltcOut k.val s = true → rd (F.LTC_CFG_SRC k.val) s = 0 →
    ltcGenDue k.val s = some i → (ltcSt k.val s).frame ≠ some i → s.show_.ltc.length = 2 →
    ∃ t, exec (.ltcFrame k) s = .next t ∧ (ltcSt k.val t).frame = some i ∧
      t.out = .ltc k.val (slice (bytesLE 8 (ltcGenBits k.val i s)) 0 8 ++ [0xFC, 0xBF]) :: s.out) ∧
  (∀ (k : Fin 2) (b : List Byte) (s : State), showOn s = true → ltcOut k.val s = true → rd (F.LTC_CFG_SRC k.val) s ≠ 0 →
    (ltcSt k.val s).first = some b ∨ ((ltcSt k.val s).first = none ∧
      (∀ x, (ltcSt k.val s).began = some x → x + ltcLen (rd (F.LTC_CFG_RATE k.val) s) < (s.bt + 1) * phasesPerTick) ∧
      (ltcSt k.val s).waiting = some b) →
    ∃ t, exec (.ltcFrame k) s = .next t ∧ (ltcSt k.val t).first = none ∧ (ltcSt k.val t).last = some b ∧
      (ltcSt k.val t).freewheel = 0 ∧ ((ltcSt k.val s).first = none → (ltcSt k.val t).waiting = none) ∧
      t.out = .ltc k.val (slice b 0 8 ++ [0xFC, 0xBF]) :: s.out) ∧
  (∀ (k : Fin 2) (b : List Byte) (s : State), showOn s = true → ltcOut k.val s = true → rd (F.LTC_CFG_SRC k.val) s ≠ 0 →
    (ltcSt k.val s).first = none → (ltcSt k.val s).waiting = none → (ltcSt k.val s).last = some b → countsNow s = true →
    (∀ x, (ltcSt k.val s).began = some x → (s.bt + 1) * phasesPerTick ≤ x + ltcLen (rd (F.LTC_CFG_RATE k.val) s) →
      exec (.ltcFrame k) s = .next s) ∧
    (rd (F.LTC_CFG_SRC k.val) s = 2 → takenOf (128 + k.val) s ≠ none → exec (.ltcFrame k) s = .next s) ∧
    ((∀ x, (ltcSt k.val s).began = some x → x + ltcLen (rd (F.LTC_CFG_RATE k.val) s) < (s.bt + 1) * phasesPerTick) → (rd (F.LTC_CFG_SRC k.val) s = 2 → takenOf (128 + k.val) s = none) →
      ((ltcSt k.val s).freewheel < rd (F.LTC_CFG_FREEWHEEL k.val) s →
        ∃ t, exec (.ltcFrame k) s = .next t ∧ Tallied C.LTC_FREEWHEEL 1 s t ∧ (ltcSt k.val t).last = some (ltcNext k.val b s) ∧
          t.out = .ltc k.val (slice (ltcNext k.val b s) 0 8 ++ [0xFC, 0xBF]) :: s.out) ∧
      (rd (F.LTC_CFG_FREEWHEEL k.val) s ≤ (ltcSt k.val s).freewheel →
        ∃ t, exec (.ltcFrame k) s = .next t ∧ isStarted (gLTC k.val) t = false ∧ (ltcSt k.val t).last = none ∧ t.out = s.out))) ∧
  (∀ (k : Fin 2) (i : Inst) (b : BitVec 64) (rv : Bool) (r : BitVec 3) (s : State), showLive s = true →
    on (F.LTC_CFG_IN_EN k.val) s = true → countsNow s = true →
    (∃ t, exec (.ltcRxCodeword k i b rv r true) s = .next t ∧ Tallied C.LTC_RX_FRAME 1 s t ∧
      fget (reg (R.LTC_RX k.val) t) 39 38 = 2 + b2n rv ∧ fget (reg (R.LTC_RX k.val) t) 37 35 = r.toNat ∧
      t.show_.caps = s.show_.caps ++ [(rd (F.LTC_CFG_IN_QUEUE k.val) s,
        instBytes i s ++ [BitVec.ofNat 8 (b2n rv + 2 * r.toNat)] ++ bytesLE 8 b.toNat)]) ∧
    (∃ t, exec (.ltcRxCodeword k i b rv r false) s = .next t ∧ Tallied C.LTC_RX_BAD 1 s t ∧ t.show_ = s.show_)) ∧
  (∀ (k : Fin 2) (s : State), s.show_.midiBusy.getD k.val false = true →
    (∀ b r, midiFifo k.val s = b :: r → ∃ t, exec (.midiTxByte k) s = .next t ∧ t.out = .midi k.val b :: s.out ∧
      midiFifo k.val t = r ∧ t.show_.midiBusy = s.show_.midiBusy) ∧
    (midiFifo k.val s = [] → ∃ t, exec (.midiTxByte k) s = .next t ∧ t.out = s.out ∧ t.show_.midiBusy.getD k.val true = false)) ∧
  (∀ (k : Fin 2) (i : Inst) (b : Byte) (s : State), showLive s = true → on (F.MIDI_CFG_IN_EN k.val) s = true →
    (∃ t, exec (.midiRxByte k i b false) s = .next t ∧
      t.show_.caps = s.show_.caps ++ [(rd (F.MIDI_CFG_IN_QUEUE k.val) s, instBytes i s ++ [b])]) ∧
    (countsNow s = true → ∃ t, exec (.midiRxByte k i b true) s = .next t ∧ Tallied C.MIDI_RX_ERR 1 s t ∧ t.show_ = s.show_)) ∧
  (∀ (n : Fin 24) (c : Bool) (i : Inst) (s : State),
    (cueIsOut n.val s = false → nbit (rd F.CUE_STATE_LEVEL s) n.val ≠ c → i.ago = rd F.CUE_CFG_DEBOUNCE s →
      ∃ t, exec (.cueEdge n c i) s = .next t ∧ nbit (rd F.CUE_STATE_LEVEL t) n.val = c ∧
        (∀ m, m < 24 → m ≠ n.val → nbit (rd F.CUE_STATE_LEVEL t) m = nbit (rd F.CUE_STATE_LEVEL s) m) ∧
        (showLive s = true → countsNow s = true → Tallied C.CUE_EDGE 1 s t ∧
          t.show_.edges = s.show_.edges ++ [(tickAdd s.bt (-(i.ago : Int)),
            BitVec.ofNat 8 (b2n c * 128 + n.val) :: bytesBE 2 i.wc.toNat)])) ∧
    (cueIsOut n.val s = true ∨ nbit (rd F.CUE_STATE_LEVEL s) n.val = c ∨ i.ago ≠ rd F.CUE_CFG_DEBOUNCE s →
      exec (.cueEdge n c i) s = .next s)) ∧
  (∀ (n : Fin 24) (s : State), (n.val, 0) ∈ s.show_.pulses →
    ∃ t, exec (.cuePulseEnd n) s = .next t ∧ nbit t.show_.cueOut.toNat n.val = false ∧
      t.show_.pulses = s.show_.pulses.filter (fun p => p.1 != n.val) ∧
      (nbit s.show_.cueOut.toNat n.val = true → t.out = .cue n.val false :: s.out)) ∧
  (∀ (k : Fin 4) (s : State), genActive k.val s = true → genPhase k.val (genFirst k.val s) s < (phasesPerTick : Nat) →
    (∀ l, s.show_.glkLast.getD k.val none = some l → l < genFirst k.val s) → s.show_.glkLast.length = 4 →
    ∃ t, exec (.genlockEdge k) s = .next t ∧ t.out = .genlock k.val (!on (F.GEN_CFG_POLARITY k.val) s) (genWidth k.val s) :: s.out ∧
      t.show_.glkLast.getD k.val none = some (genFirst k.val s) ∧
      ∃ v, exec (.genlockEdge k) t = .next v ∧ v.out = t.out)

/-! ### Motion axes and the sensor front end (spec/15_motion_axes.md, spec/16_sensor_front_end.md) -/

/-- R367, R363, R371, R373, R370, R368, R374: every trigger starts the run-down of a moving axis with its own cause, or the
lowest of those that stand at that instant (R377), and takes an axis in ENABLING to BRAKING at once; elsewhere it does
nothing. R373: HOLD acts after HOLD_FILT. R375: the run-down ends in BRAKING and then HELD. R372, R376: a drive fault, and a
run-down that takes too long, drop both outputs at once. A command outside its conditions changes nothing
(notes/assumptions/5.md). -/
def Obligations.AxesRunDown : Prop :=
  (∀ (k : Fin 2) (s : State), Moving k.val s → setpointLost k.val s = true →
    ∃ t, exec (.setpointLoss k) s = .next t ∧ RunsDown k.val 1 s t) ∧
  (∀ (k : Fin 2) (s : State), Moving k.val s → domOn dMOT s = true → on (F.AX_CFG_ENC_EN k.val) s = true → countsNow s = true →
    ∃ t, exec (.encError k) s = .next t ∧ RunsDown k.val (lowestCause k.val 9 s) s t ∧ Tallied (C.MOT_ENC_ERR k.val) 1 s t ∧
      reg (R.AX_POS_ENC k.val) t = reg (R.AX_POS_ENC k.val) s) ∧
  (∀ (k : Fin 2) (p n : Bool) (s : State), Moving k.val s → on (F.AX_CFG_LIM_EN k.val) s = true →
    ∃ t, exec (.limit k p n) s = .next t ∧ on (F.AX_STATUS_LIM_P k.val) t = (p != on (F.AX_CFG_LIM_POL k.val) s) ∧
      on (F.AX_STATUS_LIM_N k.val) t = (n != on (F.AX_CFG_LIM_POL k.val) s) ∧
      ((0 < (axSt k.val s).v ∧ p ≠ on (F.AX_CFG_LIM_POL k.val) s) ∨ ((axSt k.val s).v < 0 ∧ n ≠ on (F.AX_CFG_LIM_POL k.val) s) →
        RunsDown k.val (lowestCause k.val 6 t) s t) ∧
      (¬ (0 < (axSt k.val s).v ∧ p ≠ on (F.AX_CFG_LIM_POL k.val) s) → ¬ ((axSt k.val s).v < 0 ∧ n ≠ on (F.AX_CFG_LIM_POL k.val) s) →
        axState k.val t = axState k.val s ∧ t.mot = s.mot)) ∧
  (∀ (us : Nat) (s : State),
    ((∀ k < 2, Moving k s ∧ on (F.AX_CFG_HOLD_EN k) s = true) → max 1 (rd F.MOT_HOLD_HOLD_FILT s) ≤ us →
      ∃ t, exec (.hold true us) s = .next t ∧ on F.MOT_HOLD_LEVEL t = true ∧ ∀ k < 2, RunsDown k (lowestCause k 5 s) s t) ∧
    (us < max 1 (rd F.MOT_HOLD_HOLD_FILT s) → exec (.hold true us) s = .next s) ∧
    (∃ t, exec (.hold false us) s = .next t ∧ on F.MOT_HOLD_LEVEL t = false ∧ t.mot = s.mot ∧ ∀ k < 2, axState k t = axState k s)) ∧
  (∀ (k : Fin 2) (s : State), Moving k.val s → followingOver k.val s = true →
    ∃ t, exec (.followingError k) s = .next t ∧ RunsDown k.val (lowestCause k.val 8 s) s t) ∧
  (∀ (k : Fin 2) (s : State), Moving k.val s → softCrossed k.val s = true →
    ∃ t, exec (.softLimit k) s = .next t ∧ RunsDown k.val (lowestCause k.val 7 s) s t) ∧
  (∀ (k : Fin 2) (s : State), Moving k.val s → axState k.val s = xPROFILE → profEnded k.val s = true →
    ∃ t, exec (.profileEnd k) s = .next t ∧ ((axSt k.val s).v = 0 → axState k.val t = xACTIVE ∧ (axSt k.val t).prof = none) ∧
      ((axSt k.val s).v ≠ 0 → RunsDown k.val (lowestCause k.val 0xB s) s t)) ∧
  (∀ (k : Fin 2) (us : Nat) (i : Instr) (c : Nat) (s : State), s.mot.axes.length = 2 → axState k.val s = xENABLING → Room s →
    (i = .setpointLoss k ∧ setpointLost k.val s = true ∧ c = 1) ∨
      (i = .encError k ∧ domOn dMOT s = true ∧ on (F.AX_CFG_ENC_EN k.val) s = true ∧ c = 9) ∨
      (i = .hold true us ∧ max 1 (rd F.MOT_HOLD_HOLD_FILT s) ≤ us ∧ on (F.AX_CFG_HOLD_EN k.val) s = true ∧ c = 5) ∨
      (i = .followingError k ∧ followingOver k.val s = true ∧ c = 8) →
    ∃ t, exec i s = .next t ∧ axState k.val t = xBRAKING ∧ on (F.AX_STATUS_BRAKE k.val) t = false ∧
      rd (F.AX_STATUS_CAUSE k.val) t = lowestCause k.val c s ∧ (axSt k.val t).toHeld = true ∧
      Waits E.MOT_RUNDOWN (k.val + 16 * lowestCause k.val c s) t) ∧
  (∀ (k : Fin 2) (i : Instr) (s : State), i ∈ [.setpointLoss k, .followingError k, .softLimit k, .profileEnd k] →
    axState k.val s ∉ [xENABLING, xACTIVE, xPROFILE] → exec i s = .next s) ∧
  (∀ (k : Fin 2) (s : State), s.mot.axes.length = 2 → axState k.val s = xRUNDOWN → rdLength k.val s ≤ (axSt k.val s).rdTicks →
    ∃ t, exec (.rundownEnd k) s = .next t ∧ axState k.val t = xBRAKING ∧ on (F.AX_STATUS_BRAKE k.val) t = false ∧
      (axSt k.val t).timer = rd (F.AX_TIMING_BRAKE_SET k.val) s ∧ (axSt k.val t).toHeld = true ∧ (axSt k.val t).v = 0) ∧
  (∀ (k : Fin 2) (s : State), s.mot.axes.length = 2 → axState k.val s = xBRAKING → (axSt k.val s).timer = 0 → Room s →
    countsNow s = true →
    ∃ t, exec (.brakeSetExpiry k) s = .next t ∧ (axSt k.val t).drvEn = false ∧
      ((axSt k.val s).toHeld = true → axState k.val t = xHELD ∧ Tallied (C.MOT_RUNDOWN k.val) 1 s t ∧
        Waits E.MOT_HELD (k.val + 16 * rd (F.AX_STATUS_CAUSE k.val) s) t) ∧
      ((axSt k.val s).toHeld = false → axState k.val t = xDISABLED)) ∧
  (∀ (k : Fin 2) (high : Bool) (s : State), s.mot.axes.length = 2 → Room s →
    (high ≠ on (F.AX_CFG_FLT_POL k.val) s → axIdle k.val s = false →
      ∃ t, exec (.driveFault k high) s = .next t ∧ on (F.AX_STATUS_FLT k.val) t = true ∧ axState k.val t = xHELD ∧
        rd (F.AX_STATUS_CAUSE k.val) t = 0xC ∧ on (F.AX_STATUS_BRAKE k.val) t = false ∧ (axSt k.val t).drvEn = false ∧
        Waits E.MOT_HELD (k.val + 16 * 0xC) t) ∧
    (high = on (F.AX_CFG_FLT_POL k.val) s ∨ axIdle k.val s = true →
      ∃ t, exec (.driveFault k high) s = .next t ∧ on (F.AX_STATUS_FLT k.val) t = (high != on (F.AX_CFG_FLT_POL k.val) s) ∧
        axState k.val t = axState k.val s ∧ t.mot = s.mot)) ∧
  (∀ (k : Fin 2) (s : State), s.mot.axes.length = 2 → Room s → countsNow s = true → inRundown k.val s = true →
    48 * max 1 (rd (F.AX_RD_LIMIT_RD_MAX k.val) s) ≤ (axSt k.val s).rdTicks →
    ∃ t, exec (.motCut k) s = .next t ∧ axState k.val t = xHELD ∧ rd (F.AX_STATUS_CAUSE k.val) t = 0xD ∧
      on (F.AX_STATUS_BRAKE k.val) t = false ∧ (axSt k.val t).drvEn = false ∧ Tallied (C.MOT_CUT k.val) 1 s t ∧
      Waits E.MOT_CUT k.val t)

/-- R359, R361, R364: the brake is released after its delay and the axis then becomes ACTIVE; an index edge latches the
position with the counts since wc 0 (an operand, notes/assumptions/51.md); a position register is written only while the axis is DISABLED or HELD. -/
def Obligations.AxesEnableAndMeasure : Prop :=
  (∀ (k : Fin 2) (s : State), s.mot.axes.length = 2 → axState k.val s = xENABLING → on (F.AX_STATUS_BRAKE k.val) s = false →
    (axSt k.val s).timer = 0 →
    ∃ t, exec (.brakeRelease k) s = .next t ∧ on (F.AX_STATUS_BRAKE k.val) t = true ∧
      (axSt k.val t).timer = rd (F.AX_TIMING_BRAKE_REL k.val) s ∧ axState k.val t = xENABLING) ∧
  (∀ (k : Fin 2) (s : State), axState k.val s = xENABLING → on (F.AX_STATUS_BRAKE k.val) s = true → (axSt k.val s).timer = 0 →
    ∃ t, exec (.enablingDone k) s = .next t ∧ axState k.val t = xACTIVE ∧ t.mot = s.mot) ∧
  (∀ (k : Fin 2) (d : Int) (s : State), domOn dMOT s = true → s.mot.axes.length = 2 →
    ∃ t, exec (.indexEdge k d) s = .next t ∧
      rd (F.AX_INDEX_POS k.val) t = ofSigned 40 (rdS (F.AX_POS_ENC_POS k.val) s + encCounts k.val d s) ∧ on (F.AX_STATUS_INDEX_SEEN k.val) t = true ∧
      (axSt k.val t).idxSeen = true) ∧
  (∀ (p : Path) (k : Fin 2) (enc : Bool) (v : Word) (s : State), mayWriteReg (R.AX_POS_CMD 0) s = true →
    (axIdle k.val s = true → ∃ t, exec (.posWrite p k enc v) s = .next t ∧
      reg (if enc then R.AX_POS_ENC k.val else R.AX_POS_CMD k.val) t = v) ∧
    (axIdle k.val s = false → countsNow s = true → ∃ t, exec (.posWrite p k enc v) s = .next t ∧
      Tallied C.REG_LOCKED_WRITE 1 s t ∧ t.mot = s.mot ∧ reg (R.AX_POS_ENC k.val) t = reg (R.AX_POS_ENC k.val) s ∧
      reg (R.AX_POS_CMD k.val) t = reg (R.AX_POS_CMD k.val) s))

/-- R385, R388-R393, R398: a half starts at its tick with its settings latched; each sample's word is kept and its half's
item made with the last; a calibration pauses the sequencer and writes its settings' constants; a pulse output without a
valid result faults. A converter's input is an operand (notes/assumptions/52.md). A command outside its conditions changes
nothing (notes/assumptions/5.md). -/
def Obligations.TheFrontEndConverts : Prop :=
  (∀ (n : Nat) (second : Bool) (s : State), seqMayRun s = true → s.afe.started = true → s.afe.run = none →
    s.afe.nextAt.all (fun t => tickDue t s.bt) = true →
    nextHalf s 33 s.afe.next.1 s.afe.next.2 = some (n, second) → n < 16 →
    ∃ t h, exec .slotHalfStart s = .next t ∧ t.afe.run = some h ∧ h.slot = n ∧ h.second = second ∧
      h.cfg = reg (R.AFE_SLOT_CFG n) s ∧ h.pins = reg (R.AFE_SLOT_PINS n) s ∧ h.words = [] ∧ h.firstTag = s.bt ∧
      h.cal = reg (R.AFE_CAL (slotSetting (slotCfg h.cfg h.pins second))) s ∧
      rd F.AFE_STATUS_CUR_SLOT t = n ∧ on F.AFE_STATUS_HALF t = second ∧ on F.AFE_STATUS_RUNNING t = true) ∧
  (∀ (x : Int) (va vb : Nat) (h : HalfRun) (s : State), s.afe.run = some h → h.slot < 16 →
    tickDue (tickAdd h.firstTag (((h.words.length + 1) * (slotCfg h.cfg h.pins h.second).d : Nat) - 1)) s.bt = true →
    ∃ t w, exec (.sampleDone x va vb) s = .next t ∧ w = (sampleResult h x va vb s).1 ∧ reg (R.AFE_RESULT h.slot) t = w ∧
      ((slotCfg h.cfg h.pins h.second).linEn = false →
        fget w 39 8 = ofSigned 24 (correctCode h.cal (rawCode (slotCfg h.cfg h.pins h.second) x)).1 * 256) ∧
      (nbit w.toNat 1 = leftCompliance (slotCfg h.cfg h.pins h.second) va vb s) ∧
      (h.words.length + 1 < (slotCfg h.cfg h.pins h.second).count →
        t.afe.run = some { h with words := h.words ++ [w] } ∧ t.afe.items = s.afe.items) ∧
      ((slotCfg h.cfg h.pins h.second).count ≤ h.words.length + 1 →
        t.afe.run = none ∧ t.afe.items = s.afe.items ++ [halfItem { h with words := h.words ++ [w] } false] ∧
        (s.afe.calReq ≠ 0 → t.afe.cal = s.afe.calReq ∧ t.afe.calReq = 0 ∧ on F.AFE_STATUS_CAL_BUSY t = true))) ∧
  (∀ (p : Path) (v : Word) (s : State), mayWriteReg R.AFE_CAL_CTRL s = true → fget v 12 0 ≠ 0 →
    on F.AFE_CAL_CTRL_BUSY s = false → domOn dAFE s = true →
    ∃ t, exec (.afeCalStart p v) s = .next t ∧ rd F.AFE_CAL_CTRL_SETTINGS t = fget v 12 0 ∧
      (s.afe.run = none → t.afe.cal = fget v 12 0 ∧ on F.AFE_CAL_CTRL_BUSY t = true ∧ on F.AFE_STATUS_CAL_BUSY t = true) ∧
      (s.afe.run ≠ none → t.afe.calReq = fget v 12 0 ∧ t.afe.run = s.afe.run)) ∧
  (∀ (sums : List (Int × Int)) (s : State), s.afe.cal ≠ 0 → s.afe.calLeft = 0 → Room s →
    ∃ t, exec (.afeCalDone sums) s = .next t ∧ t.afe.cal = 0 ∧ on F.AFE_CAL_CTRL_BUSY t = false ∧
      on F.AFE_STATUS_CAL_BUSY t = false ∧ Waits E.AFE_CAL_DONE s.afe.cal t) ∧
  (∀ (sums : List (Int × Int)) (s : State), s.afe.calLeft ≠ 0 → exec (.afeCalDone sums) s = .next s) ∧
  (∀ (g : Fin 13) (a b : Int) (s : State), s.afe.cal = 2 ^ g.val → s.afe.calLeft = 0 → -1000000 ≤ 2 * a + 16 → 2 * a + 16 < 1000000 →
    0 < b - 16 * ((2 * a + 16) / 32) → (2 * (6710886 * 2 ^ 26) + (b - 16 * ((2 * a + 16) / 32))) / (2 * (b - 16 * ((2 * a + 16) / 32))) < 2 ^ 24 →
    ∃ t, exec (.afeCalDone [(a, b)]) s = .next t ∧ rdS (F.AFE_CAL_OFS g.val) t = (2 * a + 16) / 32 ∧
      (rd (F.AFE_CAL_GCAL g.val) t : Int) =
        (2 * (6710886 * 2 ^ 26) + (b - 16 * ((2 * a + 16) / 32))) / (2 * (b - 16 * ((2 * a + 16) / 32)))) ∧
  (∀ (k : Fin 4) (s : State), pfoRuns k.val s = true → rd (F.PFO_CFG_HOLD k.val) s ≠ 0 → Room s → countsNow s = true →
    rd (F.PFO_CFG_HOLD k.val) s ≤ s.afe.pfoSince.getD k.val 0 → nbit s.afe.pfoFault k.val = false → fromListening s = true →
    ∃ t, exec (.afePfoFault k) s = .next t ∧ Tallied C.AFE_PFO_FAULT 1 s t ∧ Waits E.AFE_PFO_FAULT k.val t ∧
      nbit t.afe.pfoFault k.val = true ∧ (on (F.PFO_CFG_FAULT_ACT k.val) s = true → 
        t.out = .pfo k.val 0 0 (max 256 (rd (F.PFO_CFG_PERIOD k.val) s)) :: s.out))

/-! ### Power domains and wake (spec/17_power_domains_wake.md) -/

/-- R404: a target is judged alone: one that would be refused leaves TARGET, is counted and told. R401, R10: PORT_OFF waits
for the tick boundary, where it closes its gates; it may not open a held port's. R405, R406, R409: a due request whose
resulting set is refused changes no domain, names them and answers its WAIT; one that is not begins its transition, in which
each domain that changes is in transition; one that changes none is done at once. R407: where the ring engine's domains
leave, its WAIT is answered and the engine stops first. R405, R411: the end puts the domains in their states, is told and
answers the WAIT; the spine rests when none is ON. Each field of a write is judged alone, against the standing TARGETs, which
is the model's choice (notes/assumptions/60.md). -/
def Obligations.PowerTransitionsRun : Prop :=
  (∀ (p : Path) (k : Fin 24) (v : Word) (s : State), mayWriteReg (R.PWR_TARGET k.val) s = true →
    (fget v 1 0 ≠ 3 → targetRefused (fun d => if d == k.val then fget v 1 0 else targetOf s d) k.val (fget v 1 0) s = false →
      ∃ t, exec (.pwrTarget p k v) s = .next t ∧ targetOf t k.val = fget v 1 0 ∧ ∀ d < 24, d ≠ k.val → targetOf t d = targetOf s d) ∧
    (fget v 1 0 ≠ 3 → targetRefused (fun d => if d == k.val then fget v 1 0 else targetOf s d) k.val (fget v 1 0) s = true →
      Room s → countsNow s = true →
      ∃ t, exec (.pwrTarget p k v) s = .next t ∧ targetOf t k.val = targetOf s k.val ∧ Waits E.PWR_REFUSED (2 ^ k.val) t ∧
        (k.val ≠ dLAN → Tallied C.PWR_REFUSED 1 s t)) ∧
    (fget v 1 0 = 3 → ∃ t, exec (.pwrTarget p k v) s = .next t ∧ targetOf t k.val = targetOf s k.val)) ∧
  (∀ (p : Path) (k : Fin 24) (v : Word) (s : State), mayWriteReg (R.PWR_TARGET k.val) s = true → k.val = dLAN →
    (rd (F.PWR_TARGET_PORT_HELD dLAN) s &&& fget v 21 16 = rd (F.PWR_TARGET_PORT_HELD dLAN) s →
      ∃ t, exec (.pwrTarget p k v) s = .next t ∧ rd (F.PWR_TARGET_PORT_OFF dLAN) t = fget v 21 16 ∧ t.pwr.gateDue = true ∧
        t.pwr.gates = s.pwr.gates ∧ (applyGates t).pwr.gates = fget v 21 16) ∧
    (rd (F.PWR_TARGET_PORT_HELD dLAN) s &&& fget v 21 16 ≠ rd (F.PWR_TARGET_PORT_HELD dLAN) s → Room s →
      ∃ t, exec (.pwrTarget p k v) s = .next t ∧ rd (F.PWR_TARGET_PORT_OFF dLAN) t = rd (F.PWR_TARGET_PORT_OFF dLAN) s ∧
        t.pwr = s.pwr ∧ Waits E.PWR_REFUSED (2 ^ k.val) t)) ∧
  (∀ (r : PwrReq) (l : List PwrReq) (s : State), s.pwr.reqs = r :: l → s.pwr.run = none → s.pwr.resting = false →
    fromListening s = true → tickDue r.t s.bt = true →
    (refusedSet (resultingSet r.order s) s ≠ 0 → Room s → countsNow s = true →
      ∃ t, exec .powerTransition s = .next t ∧ t.pwr.reqs = l ∧ t.pwr.run = none ∧ Tallied C.PWR_REFUSED 1 s t ∧
        Waits E.PWR_REFUSED (refusedSet (resultingSet r.order s) s) t ∧ (∀ k < 24, domState k t = domState k s) ∧
        (∀ h, r.cmd = some h → s.host.wait = some h → hreState s = hreRUNNING → t.host.wait = none ∧
          dmaOut s (descAddr ringCMD (ringCons ringCMD s) s + 24) (bytesLE 5 0 ++ [1, 4, 128]) ∈ t.out)) ∧
    (refusedSet (resultingSet r.order s) s = 0 → (∀ k < 24, resultingSet r.order s k < 3) →
      s.host.stopping = false → (∀ k ∈ [dQSC, dPCI], domState k s = 0 → resultingSet r.order s k = 0) →
      (∃ k < 24, domState k s ≠ resultingSet r.order s k) →
      ∃ t q, exec .powerTransition s = .next t ∧ t.pwr.reqs = l ∧ t.pwr.run = some (q, domains.map (resultingSet r.order s)) ∧
        q.t = r.t ∧ ∀ k < 24, targetOf t k = resultingSet r.order s k ∧
          domState k t = if domState k s = resultingSet r.order s k then domState k s else 3) ∧
    (refusedSet (resultingSet r.order s) s = 0 → (∀ k < 24, resultingSet r.order s k < 3) →
      (∀ k < 24, domState k s = resultingSet r.order s k) → Room s →
      ∃ t, exec .powerTransition s = .next t ∧ t.pwr.reqs = l ∧ t.pwr.run = none ∧ Waits E.PWR_DONE (stampOf r.t).toNat t ∧
        ∀ k < 24, domState k t = domState k s) ∧
    (refusedSet (resultingSet r.order s) s = 0 → (∀ k < 24, resultingSet r.order s k < 3) → hreServes s = true →
      (∃ k ∈ [dQSC, dPCI], domState k s = 0 ∧ resultingSet r.order s k ≠ 0) →
      ∃ t, exec .powerTransition s = .next t ∧ t.pwr.run.isSome = true ∧
        (∀ h, r.cmd = some h → s.host.wait = some h → t.host.wait = none ∧
          dmaOut s (descAddr ringCMD (ringCons ringCMD s) s + 24) (bytesLE 5 (stampOf r.t).toNat ++ [0, 0, 128]) ∈ t.out) ∧
        ((s.host.flight = none ∧ s.host.pollPend = false) → hreState t = hreSTOPPED) ∧
        ((s.host.flight ≠ none ∨ s.host.pollPend = true) → t.host.stopping = true ∧ exec .pwrDone t = .next t ∧
          ∀ k ∈ [dQSC, dPCI], domState k t = domState k s))) ∧
  (∀ (r : PwrReq) (tgt : List Nat) (s : State), s.pwr.run = some (r, tgt) → s.host.stopping = false →
    (∀ k < 24, tgt.getD k 0 < 3) → Room s →
    ∃ t, exec .pwrDone s = .next t ∧ t.pwr.run = none ∧ (∀ k < 24, domState k t = tgt.getD k 0) ∧
      Waits E.PWR_DONE (stampOf r.t).toNat t ∧
      (∀ h, r.cmd = some h → s.host.wait = some h → hreState s = hreRUNNING → t.host.wait = none ∧
        dmaOut s (descAddr ringCMD (ringCons ringCMD s) s + 24) (bytesLE 5 (stampOf r.t).toNat ++ [0, 0, 128]) ∈ t.out) ∧
      ((∀ k < 24, tgt.getD k 0 ≠ 0) → t.pwr.resting = true ∧ t.pwr.rest = 0 ∧ on F.WAKE_STATUS_RESTING t = true) ∧
      ((∃ k < 24, tgt.getD k 0 = 0) → t.pwr.resting = s.pwr.resting))

/-- R412-R414, R418, R419: each enabled wake source, where a domain of WAKE_MASK is not ON, ends the rest with its own code,
puts the masked domains' targets ON and asks for the transition at the next tick; a wake whose set is refused only reports,
and before LISTENING none acts (the model's choice, notes/assumptions/86.md). R96: eight wake words within 49,920 words wake
through their lane; the matcher then starts anew, which is the model's choice (notes/assumptions/71.md). R414: the keeper
timer counts from the write that arms it. R419: a Zwirdo address ends the rest, and its STOP lets it begin again. A command
outside its conditions changes nothing (notes/assumptions/5.md). -/
def Obligations.WakesActAndReport : Prop :=
  (∀ (lane : Fin 2) (ws : List RxWord) (s : State), on F.SPAN_WAKE_WAKE_EN s = true → domState lane.val s ≤ 1 →
    countsNow s = true →
    ∃ t, exec (.spanWakeSet lane ws) s = .next t ∧ Tallied C.WAKE_MATCH ((RxWord.chain ws).filter (wakeWord s)).length s t ∧
      (((RxWord.chain ws).foldl (matchWake s) (spanOf (sideOf lane.val) s, 0, false)).2.2 = true → on F.WAKE_CFG_SPAN_EN s = true →
        domOn dFRM s = false → MayWake s → Woken (lane.val + 1) lane.val t) ∧
      ((∀ w ∈ RxWord.chain ws, wakeWord s w = true) → (spanOf (sideOf lane.val) s).hits = [] →
        (ws.length = 8 → on F.WAKE_CFG_SPAN_EN s = true → domOn dFRM s = false → MayWake s → Woken (lane.val + 1) lane.val t) ∧
        (ws.length < 8 → t.pwr = s.pwr))) ∧
  (∀ (port : Fin 6) (s : State), domState dLAN s = 1 → nbit (rd F.WAKE_CFG_LANE_EN s) port.val = true → maskAsleep s = true → MayWake s →
    ∃ t, exec (.laneActivityWake port) s = .next t ∧ Woken 3 port.val t) ∧
  (∀ (n : Fin 4) (s : State), nbit (rd F.WAKE_CFG_CUE_EN s) n.val = true → maskAsleep s = true → MayWake s →
    ∃ t, exec (.cueWake n (nbit (rd F.WAKE_CFG_CUE_CLOSE s) n.val)) s = .next t ∧ Woken 5 n.val t) ∧
  (∀ (p : Path) (v : Word) (s : State), mayWriteReg R.KTIMER_CFG s = true →
    ∃ t, exec (.ktimerCfg p v) s = .next t ∧ rd F.KTIMER_CFG_MS t = fget v 23 0 ∧
      t.pwr.ktimer = if fget v 32 32 = 1 then some (48 * max 1 (fget v 23 0)) else none) ∧
  (∀ (s : State), s.pwr.ktimer = some 0 →
    ∃ t, exec .keeperTimerExpiry s = .next t ∧ t.pwr.ktimer = none ∧ on F.KTIMER_CFG_ENABLE t = false ∧
      (on F.WAKE_CFG_TIMER_EN s = true → maskAsleep s = true → MayWake s → Woken 6 0 t) ∧
      (on F.WAKE_CFG_TIMER_EN s = false ∨ maskAsleep s = false → t.pwr.reqs = s.pwr.reqs ∧ t.pwr.resting = s.pwr.resting)) ∧
  (∀ (b : Byte) (s : State), b.toNat / 2 = rd F.ZWD_ADDR_ADDR s → on F.WAKE_CFG_ZWD_EN s = true → maskAsleep s = true → MayWake s →
    ∃ t, exec (.zwirdoAddressMatch b false) s = .next t ∧ Woken 4 0 t ∧ .zwd [] true ∈ t.out) ∧
  (∀ (b : Byte) (s : State), b.toNat / 2 = rd F.ZWD_ADDR_ADDR s → s.pwr.resting = true → on F.WAKE_CFG_ZWD_EN s = false →
    ∃ t u, exec (.zwirdoAddressMatch b false) s = .next t ∧ t.pwr.resting = false ∧ t.bt = tickAdd s.bt s.pwr.rest ∧
      (s.boot.targetsDone = true → allAsleep s = true → s.pwr.run = none → (∀ r ∈ s.pwr.reqs, r.wake = false) →
        exec (.zwirdoAddressMatch b true) t = .next u ∧ u.pwr.restAgain = true)) ∧
  (∀ (port : Fin 6) (n : Fin 4) (s : State), maskAsleep s = true →
    refusedSet (fun k => if inMask k s then 0 else targetOf s k) s ≠ 0 → fromListening s = true →
    (domState dLAN s = 1 → nbit (rd F.WAKE_CFG_LANE_EN s) port.val = true →
      ∃ t, exec (.laneActivityWake port) s = .next t ∧ t.pwr = s.pwr ∧ (countsNow s = true → Tallied C.PWR_REFUSED 1 s t)) ∧
    (nbit (rd F.WAKE_CFG_CUE_EN s) n.val = true →
      ∃ t, exec (.cueWake n (nbit (rd F.WAKE_CFG_CUE_CLOSE s) n.val)) s = .next t ∧ t.pwr = s.pwr ∧
        (countsNow s = true → Tallied C.PWR_REFUSED 1 s t))) ∧
  (∀ (port : Fin 6) (n : Fin 4) (c : Bool) (s : State), fromListening s = false →
    exec (.laneActivityWake port) s = .next s ∧ exec (.cueWake n c) s = .next s)

/-! ### The Zwirdo sideband (spec/18_zwirdo_sideband.md) -/

/-- R55, R416, R421, R426: the reading commands answer with their bytes and DONE; in RESET the hold report is zero and every
other command is NACKed; a command byte not listed, and a written part with a bad PEC, a wrong length or count, or no PEC
where one is required (which shows only at the STOP, so that its bytes are ACKed), is answered with its status, counted, and
changes nothing else that is commanded; the alert response acknowledges where this terminal wins. R418, R419: while the spine
rests, a command does what it does once its address byte has ended the rest. R421: a written part
cut short has no effect. That it sets no status, and that LAST returns the status before its own, is the model's reading
(notes/assumptions/56.md). -/
def Obligations.ZwirdoReportsAreAnswered : Prop :=
  (∀ (x : ZwdTxn) (s : State), Served 1 false false 0 x s →
    ∃ t, exec (.status x) s = .next t ∧ Replied 1 zDONE x (8 :: holdReport s) s t) ∧
  (∀ (x : ZwdTxn) (s : State), s.term = .reset → x.cut = false → x.rdPec = false →
    exec (.status x) s = .next { s with out := .zwd [8, 0, 0, 0, 0, 0, 0, 0, 0] true :: s.out }) ∧
  (∀ (x : ZwdTxn) (s : State), Served 2 false false 0 x s →
    ∃ t, exec (.ident x) s = .next t ∧ Replied 2 zDONE x (5 :: wordBytes (reg R.DEVICE_IDENT s)) s t) ∧
  (∀ (x : ZwdTxn) (s : State), Served 3 false false 0 x s →
    ∃ t, exec (.fprint x) s = .next t ∧ Replied 3 zDONE x (5 :: wordBytes fprintView) s t) ∧
  (∀ (x : ZwdTxn) (s : State), Served 4 false false 0 x s →
    ∃ t, exec (.last x) s = .next t ∧ Replied 4 zDONE x [BitVec.ofNat 8 (rd F.ZWD_STATUS_LAST_STATUS s)] s t) ∧
  (∀ (x : ZwdTxn) (s : State), Served 0x43 false false 0 x s →
    ∃ t, exec (.mboxStatus x) s = .next t ∧
      Replied 0x43 zDONE x [BitVec.ofNat 8 (128 * b2n (mboxBusy s) + rd F.ZWD_STATUS_MBOX_RESULT s)] s t) ∧
  (∀ (x : ZwdTxn) (s : State), Served 0x50 false false 0 x s →
    ∃ t, exec (.alertRead x) s = .next t ∧ Replied 0x50 zDONE x [BitVec.ofNat 8 (rd F.ZWD_ALERT_STATUS s)] s t) ∧
  (∀ (s : State), zwdLive s = true → s.pwr.resting = false → alertAsserted s = true →
    (∃ t, exec (.alertResponse true) s = .next t ∧ t.out = .zwd [BitVec.ofNat 8 (zwdAddrByte s)] true :: s.out ∧
      on F.ZWD_ALERT_ACKED t = true ∧ alertAsserted t = false) ∧
    exec (.alertResponse false) s = .next s) ∧
  (∀ (c : Byte) (s : State), zwdListed.contains c.toNat = false → zwdLive s = true → s.pwr.resting = false → countsNow s = true →
    ∃ t, exec (.zwdUnknownCommand c) s = .next t ∧ t.out = .zwd [] false :: s.out ∧ rd F.ZWD_STATUS_LAST_STATUS t = zBAD_CMD ∧
      Tallied C.ZWD_CMD_BAD 1 s t) ∧
  (∀ (x : ZwdTxn) (c : Byte) (rx : List Byte) (i : Instr) (s : State), s.term = .reset → zwdListed.contains c.toNat = false →
    i ∈ [.ident x, .fprint x, .last x, .regRead x, .regWrite x, .zwdSoftReset x, .flashXfer x rx, .mboxPut x,
      .mboxRunWrite x, .mboxRunRead x, .mboxRunDelete x, .mboxGet x, .mboxStatus x, .alertRead x, .zwdUnknownCommand c] →
    exec i s = .next { s with out := .zwd [] false :: s.out }) ∧
  (∀ (x : ZwdTxn) (st : Nat) (a : Bool) (s : State), zwdLive s = true → s.pwr.resting = false → x.cut = false → zwdFault 0x11 true true 8 x s = some (st, a) →
    countsNow s = true →
    ∃ t, exec (.regWrite x) s = .next t ∧ t.out = .zwd [] a :: s.out ∧ rd F.ZWD_STATUS_LAST_STATUS t = st ∧
      Tallied C.ZWD_CMD_BAD 1 s t ∧ (st = zPEC_BAD → Tallied C.ZWD_PEC_BAD 1 s t) ∧
      ∀ off, bookkeeping off = false → off ≠ R.ZWD_STATUS → reg off t = reg off s) ∧
  (∀ (x : ZwdTxn) (s : State), zwdLive s = true → x.cut = true → exec (.regWrite x) s = .next (zwdMatched s)) ∧
  (∀ (x : ZwdTxn) (c : Byte) (rx : List Byte) (i : Instr) (s : State), zwdLive s = true → s.pwr.resting = true →
    zwdListed.contains c.toNat = false →
    i ∈ [.status x, .ident x, .fprint x, .last x, .regRead x, .regWrite x, .zwdSoftReset x, .flashXfer x rx, .mboxPut x,
      .mboxRunWrite x, .mboxRunRead x, .mboxRunDelete x, .mboxGet x, .mboxStatus x, .alertRead x, .zwdUnknownCommand c] →
    (zwdMatched s).pwr.resting = false ∧ ∃ t, exec i s = .next t ∧ exec i (zwdMatched s) = .next t) ∧
  (∀ (s : State), zwdLive s = true → s.pwr.resting = true → alertAsserted s = true →
    ∃ t, exec (.alertResponse true) s = .next t ∧ t.pwr.resting = false ∧ on F.ZWD_ALERT_ACKED t = true ∧
      .zwd [BitVec.ofNat 8 (zwdAddrByte s)] true ∈ t.out) ∧
  (∀ (s : State), countsNow s = true → ∃ t, exec .zwdTimeout s = .next t ∧ Tallied C.ZWD_TIMEOUT 1 s t ∧
    ∀ off, bookkeeping off = false → reg off t = reg off s)

/-- R422: a register read or write is the 8-byte access of the Zwirdo path; an offset that is no multiple of 8 is answered
BAD_VALUE. R423: the soft reset takes its key alone. R424: the flash is reached in HOLDING, with operands in range. R425, R426,
R446: the mailbox takes bytes, runs its request once, gives its result with an alert, and gives 32 bytes back, but not while
it is busy (the bytes read then, and those of a FLASH_XFER that is not served, are free values, notes/assumptions/56.md). -/
def Obligations.ZwirdoCommandsAct : Prop :=
  (∀ (x : ZwdTxn) (r : BitVec 13) (s : State), Served 0x10 true false 3 x s → zwdOffset x = 8 * r.toNat →
    ∃ t u v, exec (.eightByteAccess .zwirdo r none) s = .next u ∧ u.out = .regData .zwirdo v :: s.out ∧
      exec (.regRead x) s = .next t ∧ Replied 0x10 zDONE x (6 :: 0 :: wordBytes (v.setWidth 40)) s t ∧ t.zwirdo = u.zwirdo ∧
      ∀ off, off ≠ R.ZWD_STATUS → reg off t = reg off u) ∧
  (∀ (x : ZwdTxn) (s : State), Served 0x10 true false 3 x s → zwdOffset x % 8 ≠ 0 →
    ∃ t, exec (.regRead x) s = .next t ∧ Replied 0x10 zBAD_VALUE x [6, 3, 0, 0, 0, 0, 0] s t ∧ t.zwirdo = s.zwirdo) ∧
  (∀ (x : ZwdTxn) (r : BitVec 13) (s : State), Served 0x11 true true 8 x s → zwdOffset x = 8 * r.toNat →
    ∃ t u, exec (.eightByteAccess .zwirdo r (some (BitVec.ofNat 64 (beNat (slice x.data 3 5))))) s = .next u ∧
      exec (.regWrite x) s = .next t ∧ Acknowledged zDONE t ∧ ∀ off, off ≠ R.ZWD_STATUS → reg off t = reg off u) ∧
  (∀ (x : ZwdTxn) (s : State), Served 0x11 true true 8 x s → zwdOffset x % 8 ≠ 0 →
    ∃ t, exec (.regWrite x) s = .next t ∧ Acknowledged zBAD_VALUE t ∧ ∀ off, bookkeeping off = false → off ≠ R.ZWD_STATUS →
      reg off t = reg off s) ∧
  (∀ (x : ZwdTxn) (s : State), Served 0x20 false true 2 x s →
    (x.data = [0xFE, 0x5A] → ∃ t, exec (.zwdSoftReset x) s = .next t ∧ Acknowledged zDONE t ∧ t.boot.softPending = true ∧
      on F.RESET_CAUSE_SOFT_ZWD t = true) ∧
    (x.data ≠ [0xFE, 0x5A] → ∃ t, exec (.zwdSoftReset x) s = .next t ∧ Acknowledged zBAD_VALUE t ∧
      t.boot = s.boot ∧ reg R.RESET_CAUSE t = reg R.RESET_CAUSE s)) ∧
  (∀ (x : ZwdTxn) (rx : List Byte) (s : State), Served 0x30 true false x.data.length x s → s.term = .holding → xferOk x.data = true →
    4 + byteAt x.data 2 ≤ byteAt x.data 0 → 5 ≤ x.data.length →
    ∃ t, exec (.flashXfer x rx) s = .next t ∧
      .spi (slice x.data 1 1 ++ slice x.data 5 (byteAt x.data 2) ++ List.replicate (byteAt x.data 3) 0 ++ x.data.drop (5 + byteAt x.data 2))
        (byteAt x.data 4) ∈ t.out ∧ rd F.ZWD_STATUS_LAST_STATUS t = zDONE ∧
      (x.rdPec = false → .zwd (BitVec.ofNat 8 (1 + byteAt x.data 4) :: 0 :: slice rx 0 (byteAt x.data 4)) true ∈ t.out)) ∧
  (∀ (x : ZwdTxn) (rx : List Byte) (s : State), Served 0x30 true false x.data.length x s → s.term ≠ .holding → 5 ≤ x.data.length →
    ∃ t, exec (.flashXfer x rx) s = .next t ∧ t.flash = s.flash ∧ rd F.ZWD_STATUS_LAST_STATUS t = zREFUSED) ∧
  (∀ (x : ZwdTxn) (rx : List Byte) (s : State), Served 0x30 true false x.data.length x s → s.term = .holding → 5 ≤ x.data.length →
    (xferOk x.data = false → ∃ t, exec (.flashXfer x rx) s = .next t ∧ t.flash = s.flash ∧ rd F.ZWD_STATUS_LAST_STATUS t = zBAD_VALUE) ∧
    (xferOk x.data = true → byteAt x.data 0 < 4 + byteAt x.data 2 →
      ∃ t, exec (.flashXfer x rx) s = .next t ∧ t.flash = s.flash ∧ rd F.ZWD_STATUS_LAST_STATUS t = zBAD_LEN)) ∧
  (∀ (x : ZwdTxn) (s : State), Served 0x40 true true x.data.length x s → 3 ≤ x.data.length → x.data.length ≤ 33 →
    s.zwd.mbox.length = 256 →
    (mboxBusy s = false → ∃ t, exec (.mboxPut x) s = .next t ∧
      Acknowledged (if 256 < byteAt x.data 1 + (x.data.length - 2) then zBAD_VALUE else zDONE) t ∧
      ∀ i < 256, t.zwd.mbox.getD i 0 = if byteAt x.data 1 ≤ i ∧ i < byteAt x.data 1 + (x.data.length - 2) then
        x.data.getD (i - byteAt x.data 1 + 2) 0 else s.zwd.mbox.getD i 0) ∧
    (mboxBusy s = true → ∃ t, exec (.mboxPut x) s = .next t ∧ Acknowledged zBUSY t ∧ t.zwd = s.zwd)) ∧
  (∀ (x : ZwdTxn) (s : State), Served 0x41 false true 1 x s →
    (s.term ≠ .holding → domOn dMGT s = true → mboxBusy s = false →
      (x.data = [1] → ∃ t, exec (.mboxRunWrite x) s = .next t ∧ Acknowledged zDONE t ∧ t.zwd.req = some 1 ∧ mboxBusy t = true) ∧
      (x.data = [2] → ∃ t, exec (.mboxRunRead x) s = .next t ∧ Acknowledged zDONE t ∧ t.zwd.req = some 2 ∧ mboxBusy t = true) ∧
      (x.data = [3] → ∃ t, exec (.mboxRunDelete x) s = .next t ∧ Acknowledged zDONE t ∧ t.zwd.req = some 3 ∧ mboxBusy t = true)) ∧
    (∀ i, i ∈ [.mboxRunWrite x, .mboxRunRead x, .mboxRunDelete x] →
      (s.term = .holding ∨ domOn dMGT s = false ∨ mboxBusy s = true → 1 ≤ byteAt x.data 0 → byteAt x.data 0 ≤ 3 →
        ∃ t, exec i s = .next t ∧ Acknowledged zREFUSED t ∧ t.zwd = s.zwd) ∧
      (byteAt x.data 0 = 0 ∨ 3 < byteAt x.data 0 → ∃ t, exec i s = .next t ∧ Acknowledged zBAD_VALUE t ∧ t.zwd = s.zwd))) ∧
  (∀ (act : Nat) (s : State), s.zwd.req = some act → act = 1 ∨ act = 3 → domOn dMGT s = true →
    (recordOf s.zwd.mbox = none → ∃ t, exec (.mboxDone false) s = .next t ∧ mboxBusy t = false ∧ t.zwd.req = none ∧
      rd F.ZWD_STATUS_MBOX_RESULT t = cBAD_VALUE ∧ t.flash = s.flash) ∧
    (∀ r e u, recordOf s.zwd.mbox = some r →
      setRecord r.key r.persist (if act = 1 then r.val else []) (setZwd (fun z => { z with req := none }) s) = (e, u) →
      ∃ t, exec (.mboxDone false) s = .next t ∧ mboxBusy t = false ∧ nbit (rd F.ZWD_ALERT_STATUS t) A.MBOX = true ∧
        rd F.ZWD_STATUS_MBOX_RESULT t = (setEndStatus 7 (some e) u).1 ∧ t.flash = u.flash ∧ t.glean = u.glean ∧ t.key = u.key)) ∧
  (∀ (fault : Bool) (k : Nat) (s : State), s.zwd.req = some 2 → domOn dMGT s = true → k = beNat (slice s.zwd.mbox 0 2) →
    ∃ t, exec (.mboxDone fault) s = .next t ∧ mboxBusy t = false ∧ t.zwd.req = none ∧ nbit (rd F.ZWD_ALERT_STATUS t) A.MBOX = true ∧
      (keyKnown k = true → rd F.ZWD_STATUS_MBOX_RESULT t = cDONE ∧
        t.zwd.mbox = (mboxStore 0 (readRecord k s) s).zwd.mbox) ∧
      (keyKnown k = false → rd F.ZWD_STATUS_MBOX_RESULT t = cBAD_VALUE ∧ t.zwd.mbox = s.zwd.mbox)) ∧
  (∀ (x : ZwdTxn) (s : State), Served 0x42 true false 2 x s →
    (mboxBusy s = false → ∃ t, exec (.mboxGet x) s = .next t ∧ Replied 0x42 zDONE x (32 :: slice s.zwd.mbox (byteAt x.data 1) 32) s t) ∧
    (mboxBusy s = true → ∃ t, exec (.mboxGet x) s = .next t ∧ rd F.ZWD_STATUS_LAST_STATUS t = zBUSY ∧ t.zwd = s.zwd))

/-! ### The image carousel, lane tests, the ledger and the test access port (spec/19, spec/20, spec/21) -/

/-- R130, R432-R439, R443: the carousel slot of a selected row 0 is read once, while FRM runs. A piece of the collection that
is not yet held waits for its sector, any other is counted, and one of another collection starts that; a programmed piece is
held, and the last makes the verification due; what does not verify starts the collection again; the swap is journalled and
resets at its tick; a trial that is not confirmed ends in a soft reset. A command outside its conditions changes nothing (notes/assumptions/5.md). -/
def Obligations.ImagesAreCollectedAndSwapped : Prop :=
  (∀ (ws : List Word) (s : State), frmRuns s = false ∨ s.frame.slotDue = false → exec (.carouselPiece ws) s = .next s) ∧
  (∀ (ws : List Word) (s : State), frmRuns s = true → s.frame.slotDue = true → countsNow s = true →
    (collecting s = false → ∃ t, exec (.carouselPiece ws) s = .next t ∧ Tallied C.GLEAN_IGNORED 1 s t ∧ t.glean = s.glean ∧
      t.flash = s.flash ∧ t.frame.slotDue = false) ∧
    (collecting s = true → pieceOk ws s = false → ∃ t, exec (.carouselPiece ws) s = .next t ∧ Tallied C.GLEAN_PIECE_BAD 1 s t ∧
      t.glean = s.glean ∧ t.flash = s.flash ∧ t.frame.slotDue = false) ∧
    (collecting s = true → pieceOk ws s = true → bitmapOk s = true → bitmapCar s = (pieceOf ws).car →
      bitmapPieces s = s.frame.carPieces → ((pieceOf ws).num = 0 → pieceHeld 0 s = true → bitmapCrc s = crc32 (pieceOf ws).bytes) →
      (pieceHeld (pieceOf ws).num s = true → ∃ t, exec (.carouselPiece ws) s = .next t ∧ Tallied C.GLEAN_PIECE_DUP 1 s t ∧ t.glean = s.glean) ∧
      (pieceHeld (pieceOf ws).num s = false → 256 ≤ s.glean.buf.length →
        ∃ t, exec (.carouselPiece ws) s = .next t ∧ Tallied C.GLEAN_PIECE_DROP 1 s t ∧ t.glean = s.glean) ∧
      (pieceHeld (pieceOf ws).num s = false → s.glean.buf.length < 256 →
        ∃ t, exec (.carouselPiece ws) s = .next t ∧ imageState t = iCOLLECTING ∧
          t.glean.buf = s.glean.buf ++ [((pieceOf ws).num, (pieceOf ws).bytes.take (pieceOf ws).valid)])) ∧
    (collecting s = true → pieceOk ws s = true → Room s →
      (bitmapOk s = false ∨ bitmapCar s ≠ (pieceOf ws).car ∨ bitmapPieces s ≠ s.frame.carPieces →
        ∃ t, exec (.carouselPiece ws) s = .next t ∧ Tallied C.GLEAN_RESTART 1 s t ∧ Waits E.GLEAN_RESTART 0 t ∧
          rd F.GLEAN_STATUS_CAR_ID t = (pieceOf ws).car) ∧
      (bitmapOk s = true → bitmapCar s = (pieceOf ws).car → bitmapPieces s = s.frame.carPieces → (pieceOf ws).num = 0 →
        pieceHeld 0 s = true → bitmapCrc s ≠ crc32 (pieceOf ws).bytes →
        ∃ t, exec (.carouselPiece ws) s = .next t ∧ Tallied C.GLEAN_RESTART 1 s t ∧ Waits E.GLEAN_RESTART 1 t))) ∧
  (∀ (p : Nat) (b : List Byte) (l : List (Nat × List Byte)) (s : State), s.glean.buf = (p, b) :: l → domOn dMGT s = true →
    pieceHeld p s = false → rd F.GLEAN_STATUS_PIECES s < 26215 →
    (∃ t, exec (.pieceProgram false) s = .next t ∧ t.glean.buf = l ∧ rd F.GLEAN_STATUS_PIECES t = rd F.GLEAN_STATUS_PIECES s + 1 ∧
      t.flash = (programPiece p b s).flash) ∧
    (Room s → countsNow s = true → ∃ t, exec (.pieceProgram true) s = .next t ∧ Tallied C.FLASH_ERR 1 s t ∧
      Tallied C.GLEAN_RESTART 1 s t ∧ Waits E.GLEAN_RESTART 4 t ∧ rd F.GLEAN_STATUS_PIECES t = 0)) ∧
  (∀ (s : State), s.glean.verifyDue = true → domOn dMGT s = true →
    (verifySlot fSTAGING s = 0 → ∃ t, exec .gleanVerify s = .next t ∧ imageState t = iVERIFIED ∧ t.glean.verifyDue = false ∧
      rd F.IMAGE_STAGED_VERSION t = imageVersion (slotManifest fSTAGING s) % 2 ^ 32) ∧
    (verifySlot fSTAGING s ≠ 0 → countsNow s = true → Room s → ∃ t, exec .gleanVerify s = .next t ∧
      Tallied C.GLEAN_VERIFY_FAIL 1 s t ∧ Tallied C.GLEAN_RESTART 1 s t ∧ Waits E.GLEAN_RESTART 2 t ∧ imageState t = iCOLLECTING)) ∧
  (∀ (x bit : Nat) (s : State), s.glean.swap = some (x, bit) → bit < 40 → tickDue x s.bt = true → imageState s = iVERIFIED →
    ∃ t, exec .swapTick s = .next t ∧ t.glean.swap = none ∧ t.boot.softPending = true ∧ (reg R.RESET_CAUSE t).getLsbD bit = true ∧
      t.flash = (jWrite jSWAP_REQ (1 :: bytesBE 4 (rd F.IMAGE_STAGED_VERSION s)) s).flash) ∧
  (∀ (s : State), onTrial s = true → rd F.GLEAN_CFG_TRIAL_LIMIT s ≠ 0 → s.boot.softPending = false → countsNow s = true →
    48 * rd F.GLEAN_CFG_TRIAL_LIMIT s ≤ s.glean.trialTicks →
    ∃ t, exec .trialExpired s = .next t ∧ t.boot.softPending = true ∧ Tallied C.TRIAL_EXPIRED 1 s t)

/-- R457: a test or a loopback is refused with its cause or asked for; R451, R458, R453: it starts at the tick boundary with
its counters clear and its pattern sent, and ends by its cause, a write that leaves neither asks for its end. R454: the
checker takes the bits received (operands, notes/assumptions/53.md), is locked only after 256 right ones, which it counts,
and tells of a lost lock; without a test it takes none. R455: errors are injected one, several or on and on, in the running
pattern or else in place of code-groups, until they are stopped, and refused only where the lane is not ready. A command
outside its conditions changes nothing (notes/assumptions/5.md). -/
def Obligations.LaneTestsRun : Prop :=
  (∀ (p : Path) (n : Fin 8) (v : Word) (s : State), mayWriteReg (R.LANE_PRBS_CFG n.val) s = true → fget v 0 0 = 1 →
    s.lanes.length = 8 →
    (testRefusal n.val v (reg (R.LANE_LOOP n.val) s) s = 0 →
      ∃ t, exec (.lanePrbsCfg p n v) s = .next t ∧ (laneSt n.val t).startAsk = true ∧ on (F.LANE_PRBS_CFG_RUN n.val) t = true ∧
        (laneSt n.val (laneBoundary n.val t)).startDue = true) ∧
    (testRefusal n.val v (reg (R.LANE_LOOP n.val) s) s ≠ 0 → Room s → ∃ t, exec (.lanePrbsCfg p n v) s = .next t ∧
      reg (R.LANE_PRBS_CFG n.val) t = reg (R.LANE_PRBS_CFG n.val) s ∧ on (F.LANE_PRBS_STATUS_REFUSED n.val) t = true ∧
      rd (F.LANE_PRBS_STATUS_CAUSE n.val) t = testRefusal n.val v (reg (R.LANE_LOOP n.val) s) s ∧ t.lanes = s.lanes ∧
      Waits E.LANE_TEST_REFUSED (n.val + 16 * testRefusal n.val v (reg (R.LANE_LOOP n.val) s) s) t)) ∧
  (∀ (p : Path) (n : Fin 8) (v : Word) (s : State), mayWriteReg (R.LANE_LOOP n.val) s = true → fget v 1 0 ≠ 0 →
    s.lanes.length = 8 →
    (testRefusal n.val (reg (R.LANE_PRBS_CFG n.val) s) v s = 0 →
      ∃ t, exec (.laneLoop p n v) s = .next t ∧ (laneSt n.val t).startAsk = true ∧ rd (F.LANE_LOOP_MODE n.val) t = fget v 1 0 ∧
        (laneSt n.val (laneBoundary n.val t)).startDue = true) ∧
    (testRefusal n.val (reg (R.LANE_PRBS_CFG n.val) s) v s ≠ 0 → Room s → ∃ t, exec (.laneLoop p n v) s = .next t ∧
      reg (R.LANE_LOOP n.val) t = reg (R.LANE_LOOP n.val) s ∧ on (F.LANE_PRBS_STATUS_REFUSED n.val) t = true ∧ t.lanes = s.lanes)) ∧
  (∀ (p : Path) (n : Fin 8) (v : Word) (s : State), s.lanes.length = 8 →
    (mayWriteReg (R.LANE_PRBS_CFG n.val) s = true → fget v 0 0 = 0 → rd (F.LANE_LOOP_MODE n.val) s = 0 →
      ∃ t, exec (.lanePrbsCfg p n v) s = .next t ∧ on (F.LANE_PRBS_CFG_RUN n.val) t = false ∧
        (laneSt n.val t).startAsk = false ∧ (laneSt n.val t).endAsk = (if laneInTest n.val s then some 1 else none)) ∧
    (mayWriteReg (R.LANE_LOOP n.val) s = true → fget v 1 0 = 0 → rd (F.LANE_PRBS_CFG_RUN n.val) s = 0 →
      ∃ t, exec (.laneLoop p n v) s = .next t ∧ rd (F.LANE_LOOP_MODE n.val) t = 0 ∧
        (laneSt n.val t).startAsk = false ∧ (laneSt n.val t).endAsk = (if laneInTest n.val s then some 1 else none))) ∧
  (∀ (n : Fin 8) (s : State), (laneSt n.val s).startDue = true → s.lanes.length = 8 →
    ∃ t, exec (.laneTestStart n) s = .next t ∧ (laneSt n.val t).startDue = false ∧ laneInTest n.val t = true ∧
      reg (R.LANE_PRBS_BITS n.val) t = 0 ∧ reg (R.LANE_PRBS_ERR n.val) t = 0 ∧ rd (F.LANE_PRBS_STATUS_ELAPSED n.val) t = 0 ∧
      on (F.LANE_PRBS_STATUS_LOCKED n.val) t = false ∧
      (fget (reg (R.LANE_PRBS_CFG n.val) s) 1 0 = 3 → t.out.head? = some (.pattern n.val (rd (F.LANE_PRBS_CFG_PATTERN n.val) s)
        (fget (reg (R.LANE_PRBS_CFG n.val) s) 17 8) (fget (reg (R.LANE_PRBS_CFG n.val) s) 3 3 == 1)))) ∧
  (∀ (n : Fin 8) (c : Nat) (s : State), laneInTest n.val s = true → testEndCause n.val s = some c → c ≤ 4 → Room s →
    ∃ t, exec (.laneTestEnd n) s = .next t ∧ laneInTest n.val t = false ∧ rd (F.LANE_LOOP_MODE n.val) t = 0 ∧
      on (F.LANE_PRBS_CFG_RUN n.val) t = false ∧ rd (F.LANE_PRBS_STATUS_END_CAUSE n.val) t = c ∧
      Waits E.LANE_TEST_END (n.val + 16 * c) t) ∧
  (∀ (n : Fin 8) (bits : List Bool) (i : Instr) (s : State), i ∈ [.checkerLock n bits, .syncLoss n bits] → s.lanes.length = 8 →
    (laneInTest n.val s = true → on (F.LANE_PRBS_CFG_CHK_EN n.val) s = true →
      ∃ t x, exec i s = .next t ∧ x = chkBits n.val bits s ∧ on (F.LANE_PRBS_STATUS_LOCKED n.val) t = x.locked ∧
        (laneSt n.val t).chk = x.st ∧ (laneSt n.val t).rem = ((laneSt n.val s).rem + x.bits) % 1024 ∧
        (reg (R.LANE_PRBS_ERR n.val) t).toNat = min countMax ((reg (R.LANE_PRBS_ERR n.val) s).toNat + x.errs) ∧
        (reg (R.LANE_PRBS_BITS n.val) t).toNat =
          min countMax ((reg (R.LANE_PRBS_BITS n.val) s).toNat + ((laneSt n.val s).rem + x.bits) / 1024) ∧
        (on (F.LANE_PRBS_STATUS_LOCKED n.val) s = false → x.locked = true → 256 ≤ x.bits) ∧
        (on (F.LANE_PRBS_STATUS_LOCKED n.val) s = true → x.locked = false → on (F.LANE_PRBS_STATUS_SYNC_LOSS n.val) t = true)) ∧
    (laneInTest n.val s = false ∨ on (F.LANE_PRBS_CFG_CHK_EN n.val) s = false → exec i s = .next s)) ∧
  (∀ (p : Path) (n : Fin 8) (v : Word) (g : Bool) (s : State), mayWriteReg (R.LANE_INJECT n.val) s = true → laneReady n.val s = true →
    s.lanes.length = 8 →
    g = (!(laneInTest n.val s && on (F.LANE_PRBS_CFG_RUN n.val) s && on (F.LANE_PRBS_CFG_GEN_EN n.val) s)) →
    (∃ t, exec (.injectSingle p n v) s = .next t ∧ t.out = .inject n.val 1 g :: s.out ∧ rd (F.LANE_INJECT_MODE n.val) t = 0 ∧
      (laneSt n.val t).inject = none) ∧
    (∃ t, exec (.injectBurst p n v) s = .next t ∧ t.out = .inject n.val 1 g :: s.out ∧
      (fget v 5 0 ≤ 1 → (laneSt n.val t).inject = none) ∧ (1 < fget v 5 0 → (laneSt n.val t).inject = some (fget v 5 0 - 1))) ∧
    (∃ t, exec (.injectContinuous p n v) s = .next t ∧ t.out = .inject n.val 1 g :: s.out ∧ rd (F.LANE_INJECT_MODE n.val) t = 3 ∧
      (laneSt n.val t).inject = some 0)) ∧
  (∀ (p : Path) (n : Fin 8) (v : Word) (s : State), mayWriteReg (R.LANE_INJECT n.val) s = true → s.lanes.length = 8 →
    ∃ t, exec (.injectStop p n v) s = .next t ∧ t.out = s.out ∧ rd (F.LANE_INJECT_MODE n.val) t = 0 ∧ (laneSt n.val t).inject = none) ∧
  (∀ (p : Path) (n : Fin 8) (v : Word) (i : Instr) (s : State), mayWriteReg (R.LANE_INJECT n.val) s = true → laneReady n.val s = false →
    Room s → i ∈ [.injectSingle p n v, .injectBurst p n v, .injectContinuous p n v] →
    ∃ t, exec i s = .next t ∧ t.out = s.out ∧ t.lanes = s.lanes ∧ Waits E.LANE_TEST_REFUSED (n.val + 32) t)

/-- R465: a clear of ledger groups waits for its boundary, one write replacing the other, and then zeroes every counter
of its groups, their saturation registers and their summary bits, and no other group's. -/
def Obligations.LedgerGroupsAreCleared : Prop :=
  (∀ (p : Path) (v : Word) (s : State), mayWriteReg R.LEDGER_CLEAR s = true → fget v 15 0 ≠ 0 →
    ∃ t, exec (.ledgerClear p v) s = .next t ∧ on F.LEDGER_CLEAR_PENDING t = true ∧
      t.ledger.clears = s.ledger.clears.filter (fun c => !c.fromReg) ++
        [{ groups := fget v 15 0, fromReg := true, onHarvest := fget v 16 16 == 1, t := nextTick s }] ∧
      (s.ledger.clears.any ClearReq.fromReg = true → countsNow s = true → Tallied C.STAGE_SUPERSEDED 1 s t)) ∧
  (∀ (c : ClearReq) (s : State), s.ledger.clears = [c] → clearDue s c = true →
    ∃ t, exec .ledgerClearApply s = .next t ∧ t.ledger.clears = [] ∧ (c.fromReg = true → on F.LEDGER_CLEAR_PENDING t = false) ∧
      ∀ g < 16, (nbit c.groups g = true → reg (R.LEDGER_GRP_SAT g) t = 0 ∧ nbit (rd F.LEDGER_SUMMARY_SAT t) g = false ∧
          ∀ j < (ledgerGroups.getD g (0, 0)).2, reg (counterAddr ((ledgerGroups.getD g (0, 0)).1 + j)) t = 0) ∧
        (nbit c.groups g = false → reg (R.LEDGER_GRP_SAT g) t = reg (R.LEDGER_GRP_SAT g) s ∧
          ∀ j < (ledgerGroups.getD g (0, 0)).2, reg (counterAddr ((ledgerGroups.getD g (0, 0)).1 + j)) t =
            reg (counterAddr ((ledgerGroups.getD g (0, 0)).1 + j)) s))

/-- R485: EXTEST, HIGHZ and CLAMP are selected only in RESET and HOLDING, and act as BYPASS elsewhere; SAMPLE/PRELOAD
and EXTEST capture the pins and load the boundary register; nothing but the test port changes. -/
def Obligations.TestPortInstructionsAreSelected : Prop :=
  (∀ (a b : BitVec 512) (s : State), (s.term = .reset ∨ s.term = .holding →
      exec (.extest a b) s = .next { s with jtag := { s.jtag with ir := .extest, capture := a, update := b } } ∧
      exec .highz s = .next { s with jtag := { s.jtag with ir := .highz } } ∧
      exec .clamp s = .next { s with jtag := { s.jtag with ir := .clamp } }) ∧
    (s.term ≠ .reset → s.term ≠ .holding →
      exec (.extest a b) s = .next { s with jtag := { s.jtag with ir := .bypass } } ∧
      exec .highz s = .next { s with jtag := { s.jtag with ir := .bypass } } ∧
      exec .clamp s = .next { s with jtag := { s.jtag with ir := .bypass } }) ∧
    exec (.samplePreload a b) s = .next { s with jtag := { s.jtag with ir := .sample, capture := a, update := b } }) ∧
  (∀ (c : Byte) (s : State), 3 < c.toNat → exec (.bypass c) s = .next { s with jtag := { s.jtag with ir := .bypass } })
end

