-- ==== Sys2Proof/Laws/SMap.lean ====
section
/-! SUPPORT. Sparse maps: reading after writing, and that writing keeps the canonical form. -/

namespace Sys2Proof.Laws

open Sys2Proof Sys2Proof.Machine

variable {α : Type} [DecidableEq α]

omit [DecidableEq α] in
theorem find_ins_same (m : SMap α) (j : Nat) (v : α) (h : SMap.find m j = none) : SMap.find (m.ins j v) j = some v := by
  induction m with
  | nil => simp [SMap.ins, SMap.find]
  | cons p m ih =>
    obtain ⟨k, x⟩ := p
    simp only [SMap.find] at h
    split at h
    · simp at h
    · next hk =>
      simp only [SMap.ins]
      split
      · simp [SMap.find]
      · simp [SMap.find, hk, ih h]

omit [DecidableEq α] in
theorem find_ins_other (m : SMap α) (i j : Nat) (v : α) (h : i ≠ j) : SMap.find (m.ins j v) i = SMap.find m i := by
  induction m with
  | nil => simp [SMap.ins, SMap.find, Ne.symm h]
  | cons p m ih =>
    obtain ⟨k, x⟩ := p
    simp only [SMap.ins]
    split
    · simp [SMap.find, Ne.symm h]
    · simp only [SMap.find, ih]

omit [DecidableEq α] in
theorem find_del_same (m : SMap α) (j : Nat) : SMap.find (m.del j) j = none := by
  induction m with
  | nil => rfl
  | cons p m ih =>
    obtain ⟨k, x⟩ := p
    simp only [SMap.del, List.filter_cons] at ih ⊢
    split
    · next hk => simp at hk; simp [SMap.find, hk, ih]
    · exact ih

omit [DecidableEq α] in
theorem find_del_other (m : SMap α) (i j : Nat) (h : i ≠ j) : SMap.find (m.del j) i = SMap.find m i := by
  induction m with
  | nil => rfl
  | cons p m ih =>
    obtain ⟨k, x⟩ := p
    simp only [SMap.del, List.filter_cons] at ih ⊢
    split
    · simp [SMap.find, ih]
    · next hk =>
      have : k = j := by simpa using hk
      subst this
      simp [SMap.find, Ne.symm h, ih]

/-- Reading the key just written. -/
theorem get_put_same (d v : α) (m : SMap α) (j : Nat) : SMap.get d (SMap.put d m j v) j = v := by
  simp only [SMap.put, SMap.get]
  split
  · next h => simp [find_del_same, h]
  · simp [find_ins_same _ _ _ (find_del_same m j)]

/-- Reading any other key. -/
theorem get_put_other (d e v : α) (m : SMap α) (i j : Nat) (h : i ≠ j) :
    SMap.get e (SMap.put d m j v) i = SMap.get e m i := by
  simp only [SMap.put, SMap.get]
  split
  · simp [find_del_other _ _ _ h]
  · simp [find_ins_other _ _ _ _ h, find_del_other _ _ _ h]

/-! ### The canonical form -/

theorem wf_tail {d : Nat → α} {p : Nat × α} {m : SMap α} (h : SMap.wf d (p :: m) = true) : SMap.wf d m = true := by
  cases m with
  | nil => rfl
  | cons q m => obtain ⟨k, v⟩ := p; obtain ⟨k', v'⟩ := q; simp [SMap.wf] at h; exact h.2

/-- Canonical: no entry is its key's default, and the keys rise. -/
theorem wf_iff {d : Nat → α} {m : SMap α} :
    SMap.wf d m = true ↔ (∀ p ∈ m, p.2 ≠ d p.1) ∧ m.Pairwise (fun a b => a.1 < b.1) := by
  induction m with
  | nil => simp [SMap.wf]
  | cons p m ih =>
    obtain ⟨k, v⟩ := p
    cases m with
    | nil => simp [SMap.wf]
    | cons q m =>
      obtain ⟨k', v'⟩ := q
      simp only [SMap.wf, Bool.and_eq_true, decide_eq_true_eq, ih, List.mem_cons, forall_eq_or_imp, List.pairwise_cons]
      constructor
      · rintro ⟨⟨h1, h2⟩, ⟨h3, h4⟩, h5, h6⟩
        exact ⟨⟨h1, h3, h4⟩, ⟨h2, fun a ha => Nat.lt_trans h2 (h5 a ha)⟩, h5, h6⟩
      · rintro ⟨⟨h1, h3, h4⟩, ⟨h2, _⟩, h5, h6⟩
        exact ⟨⟨h1, h2⟩, ⟨h3, h4⟩, h5, h6⟩

/-- Dropping entries keeps the form. -/
theorem wf_filter {d : Nat → α} {m : SMap α} (f : Nat × α → Bool) (h : SMap.wf d m = true) :
    SMap.wf d (m.filter f) = true := by
  rw [wf_iff] at h ⊢
  exact ⟨fun p hp => h.1 p (List.mem_filter.mp hp).1, h.2.filter f⟩

omit [DecidableEq α] in
theorem mem_ins {m : SMap α} {j : Nat} {v : α} {p : Nat × α} (h : p ∈ m.ins j v) : p = (j, v) ∨ p ∈ m := by
  induction m with
  | nil => simp [SMap.ins] at h; exact .inl h
  | cons q m ih =>
    obtain ⟨k, x⟩ := q
    simp only [SMap.ins] at h
    split at h
    · rcases List.mem_cons.mp h with h | h
      · exact .inl h
      · exact .inr h
    · rcases List.mem_cons.mp h with h | h
      · exact .inr (by simp [h])
      · rcases ih h with h | h
        · exact .inl h
        · exact .inr (List.mem_cons_of_mem _ h)

omit [DecidableEq α] in
theorem pairwise_ins {m : SMap α} {j : Nat} {v : α} (hm : m.Pairwise (fun a b => a.1 < b.1)) (hj : ∀ p ∈ m, p.1 ≠ j) :
    (m.ins j v).Pairwise (fun a b => a.1 < b.1) := by
  induction m with
  | nil => simp [SMap.ins]
  | cons q m ih =>
    obtain ⟨k, x⟩ := q
    rw [List.pairwise_cons] at hm
    simp only [SMap.ins]
    split
    · next hlt =>
      rw [List.pairwise_cons]
      refine ⟨fun p hp => ?_, List.pairwise_cons.mpr hm⟩
      rcases List.mem_cons.mp hp with hp | hp
      · subst hp; exact hlt
      · exact Nat.lt_trans hlt (hm.1 p hp)
    · next hge =>
      rw [List.pairwise_cons]
      refine ⟨fun p hp => ?_, ih hm.2 (fun p hp => hj p (List.mem_cons_of_mem _ hp))⟩
      have hne := hj (k, x) (List.mem_cons_self ..)
      rcases mem_ins hp with hp | hp
      · subst hp; simp at hne ⊢; omega
      · exact hm.1 p hp

/-- Writing a key of default `d j` keeps the form. -/
theorem wf_put {d : Nat → α} {m : SMap α} (j : Nat) (v : α) (h : SMap.wf d m = true) :
    SMap.wf d (SMap.put (d j) m j v) = true := by
  simp only [SMap.put]
  split
  · exact wf_filter _ h
  · next hv =>
    have hd : SMap.wf d (m.del j) = true := wf_filter _ h
    rw [wf_iff] at hd ⊢
    refine ⟨fun p hp => ?_, pairwise_ins hd.2 (fun p hp => ?_)⟩
    · rcases mem_ins hp with hp | hp
      · subst hp; exact hv
      · exact hd.1 p hp
    · simpa using (List.mem_filter.mp hp).2

end Sys2Proof.Laws
end

