-- ==== Sys2Proof/Laws/KeepsBase.lean ====
section
/-! SUPPORT. `Keeps A s t`: all that an operation of the model may do. The queue of waiting commands stands, the invariant
of Safety.lean holds afterwards where it held before, and everything outside the set `A` (Reach.lean) is unchanged. One
lemma per operation, each over its callees' lemmas. -/

namespace Sys2Proof.Laws

open Sys2Proof Sys2Proof.Machine Sys2Proof.Safety

/-- The queue stands, the invariant is handed on, and nothing outside `A` changes. -/
structure Keeps (A : Nat) (s t : State) : Prop where
  pending : t.pending = s.pending
  inv : Inv s → Inv t
  rest : Reach.Unchanged A s t

/-- The set `m` lies within `A`. -/
def Within (m A : Nat) : Prop := m &&& A = m

theorem sub_self (m : Nat) : Within m m := Nat.and_self m

theorem sub_of {m n A : Nat} (h : Within n A) (k : Nat.land m n = m) : Within m A := by
  have k' : m &&& n = m := k
  unfold Within at *
  rw [← k', Nat.and_assoc, h]

theorem has_of {A : Nat} (k : Nat) (h : Within (2 ^ k) A) : A.testBit k = true := by
  have := congrArg (fun x => x.testBit k) (show 2 ^ k &&& A = 2 ^ k from h)
  simpa [Nat.testBit_two_pow_self] using this

theorem no_of {A : Nat} {P : Prop} (k : Nat) (h : Within (2 ^ k) A) (n : A.testBit k = false) : P := by
  rw [has_of k h] at n; contradiction

theorem Reach.Unchanged.refl (m : Nat) (s : State) : Reach.Unchanged m s s := by
  constructor <;> intros <;> rfl

theorem Keeps.refl (A : Nat) (s : State) : Keeps A s s := ⟨rfl, id, Reach.Unchanged.refl A s⟩

/-- The outcome of a meaning. -/
def KeepsRes (A : Nat) (a₀ : State) (r : Res) : Prop := ∀ t, r = .next t → Keeps A a₀ t

theorem keepsRes_done {A : Nat} {a₀ s : State} (h : Keeps A a₀ s) : KeepsRes A a₀ (done s) := by
  intro t ht
  cases ht
  exact h

variable {A : Nat} {a₀ s : State}

/-! ### Registers -/

theorem anyRow_of {l : List Reach.Row} {i : Nat} {r : Reach.Row} {k : Nat} {m off : Nat} (h : l[i]? = some r)
    (hb : m.testBit (k + i) = true) (hr : r.has off = true) : Reach.anyRow l k m off = true := by
  induction l generalizing i k with
  | nil => simp at h
  | cons x l ih =>
    cases i with
    | zero => simp at h; subst h; simp at hb; simp [Reach.anyRow, hb, hr]
    | succ i =>
      simp at h
      have := ih (k := k + 1) h (by rw [← hb]; congr 1; omega)
      simp [Reach.anyRow, this]

theorem row_one (b off : Nat) (h : off = b) : Reach.Row.has ⟨b, 8, 1⟩ off = true := by
  subst h; simp [Reach.Row.has]

theorem row_many (b st c n off : Nat) (hs : 0 < st) (hc : 0 < c) (h : off = b + st * (n % c)) :
    Reach.Row.has ⟨b, st, c⟩ off = true := by
  subst h
  have := Nat.mod_lt n hc
  simp [Reach.Row.has, Nat.mul_div_cancel_left _ hs, this]

theorem reach_of (i : Nat) (r : Reach.Row) (off : Nat) (h : Reach.rows[i]? = some r) (hb : Within (2 ^ (32 + i)) A)
    (hr : r.has off = true) : Reach.reg A off = true := by
  simp [Reach.reg, anyRow_of h (has_of _ hb) hr]

theorem bit_mono {m : Nat} (h : Within m A) {i : Nat} (k : m.testBit i = true) : A.testBit i = true := by
  have := congrArg (fun x => x.testBit i) (show m &&& A = m from h)
  simp only [Nat.testBit_and, k, Bool.true_and] at this
  exact this

theorem anyRow_mono {m : Nat} (h : Within m A) {l : List Reach.Row} {i off : Nat} (k : Reach.anyRow l i m off = true) :
    Reach.anyRow l i A off = true := by
  induction l generalizing i with
  | nil => exact k
  | cons r l ih =>
    simp only [Reach.anyRow, Bool.or_eq_true, Bool.and_eq_true] at k ⊢
    exact k.imp (fun x => ⟨bit_mono h x.1, x.2⟩) ih

theorem reach_mono {m off : Nat} (h : Within m A) (k : Reach.reg m off = true) : Reach.reg A off = true := by
  simp only [Reach.reg, Bool.or_eq_true] at k ⊢
  exact k.imp (bit_mono h) (anyRow_mono h)

theorem cov_any (off : Nat) (hb : Within (2 ^ 31) A) : Reach.reg A off = true := by
  simp [Reach.reg, has_of 31 hb]

theorem cov_DEVICE_IDENT (off : Nat) (h : off = R.DEVICE_IDENT) (hb : Within 0x100000000 A) : Reach.reg A off = true :=
  reach_of 0 _ off rfl hb (row_one _ _ h)

theorem cov_TIME_NOW (off : Nat) (h : off = R.TIME_NOW) (hb : Within 0x200000000 A) : Reach.reg A off = true :=
  reach_of 1 _ off rfl hb (row_one _ _ h)

theorem cov_TIME_EPOCH_SNAP (off : Nat) (h : off = R.TIME_EPOCH_SNAP) (hb : Within 0x400000000 A) : Reach.reg A off = true :=
  reach_of 2 _ off rfl hb (row_one _ _ h)

theorem cov_TIME_STATUS (off : Nat) (h : off = R.TIME_STATUS) (hb : Within 0x800000000 A) : Reach.reg A off = true :=
  reach_of 3 _ off rfl hb (row_one _ _ h)

theorem cov_TICK_OVERRUN_STATUS (off : Nat) (h : off = R.TICK_OVERRUN_STATUS) (hb : Within 0x1000000000 A) : Reach.reg A off = true :=
  reach_of 4 _ off rfl hb (row_one _ _ h)

theorem cov_STRAP_LATCH (off : Nat) (h : off = R.STRAP_LATCH) (hb : Within 0x2000000000 A) : Reach.reg A off = true :=
  reach_of 5 _ off rfl hb (row_one _ _ h)

theorem cov_TERM_STATE (off : Nat) (h : off = R.TERM_STATE) (hb : Within 0x4000000000 A) : Reach.reg A off = true :=
  reach_of 6 _ off rfl hb (row_one _ _ h)

theorem cov_RESET_CAUSE (off : Nat) (h : off = R.RESET_CAUSE) (hb : Within 0x8000000000 A) : Reach.reg A off = true :=
  reach_of 7 _ off rfl hb (row_one _ _ h)

theorem cov_SELFTEST_RESULT (off : Nat) (h : off = R.SELFTEST_RESULT) (hb : Within 0x10000000000 A) : Reach.reg A off = true :=
  reach_of 8 _ off rfl hb (row_one _ _ h)

theorem cov_SELFTEST_FLAGS (off : Nat) (h : off = R.SELFTEST_FLAGS) (hb : Within 0x20000000000 A) : Reach.reg A off = true :=
  reach_of 9 _ off rfl hb (row_one _ _ h)

theorem cov_SOFT_RESET (off : Nat) (h : off = R.SOFT_RESET) (hb : Within 0x40000000000 A) : Reach.reg A off = true :=
  reach_of 10 _ off rfl hb (row_one _ _ h)

theorem cov_BOOT_STATUS (off : Nat) (h : off = R.BOOT_STATUS) (hb : Within 0x80000000000 A) : Reach.reg A off = true :=
  reach_of 11 _ off rfl hb (row_one _ _ h)

theorem cov_BOOT_LOAD_ADDR (off : Nat) (h : off = R.BOOT_LOAD_ADDR) (hb : Within 0x100000000000 A) : Reach.reg A off = true :=
  reach_of 12 _ off rfl hb (row_one _ _ h)

theorem cov_BOOT_LOAD_CTRL (off : Nat) (h : off = R.BOOT_LOAD_CTRL) (hb : Within 0x200000000000 A) : Reach.reg A off = true :=
  reach_of 13 _ off rfl hb (row_one _ _ h)

theorem cov_FLASH_BRIDGE_CTRL (off : Nat) (h : off = R.FLASH_BRIDGE_CTRL) (hb : Within 0x400000000000 A) : Reach.reg A off = true :=
  reach_of 14 _ off rfl hb (row_one _ _ h)

theorem cov_FLASH_BRIDGE_ADDR (off : Nat) (h : off = R.FLASH_BRIDGE_ADDR) (hb : Within 0x800000000000 A) : Reach.reg A off = true :=
  reach_of 15 _ off rfl hb (row_one _ _ h)

theorem cov_FLASH_BRIDGE_DATA (n off : Nat) (h : off = R.FLASH_BRIDGE_DATA n) (hb : Within 0x1000000000000 A) : Reach.reg A off = true :=
  reach_of 16 _ off rfl hb (row_many _ _ _ n _ (by decide) (by decide) h)

theorem cov_BYPASS_CFG (off : Nat) (h : off = R.BYPASS_CFG) (hb : Within 0x2000000000000 A) : Reach.reg A off = true :=
  reach_of 17 _ off rfl hb (row_one _ _ h)

theorem cov_BYPASS_STATUS (off : Nat) (h : off = R.BYPASS_STATUS) (hb : Within 0x4000000000000 A) : Reach.reg A off = true :=
  reach_of 18 _ off rfl hb (row_one _ _ h)

theorem cov_ADMIT_FPRINT (off : Nat) (h : off = R.ADMIT_FPRINT) (hb : Within 0x8000000000000 A) : Reach.reg A off = true :=
  reach_of 19 _ off rfl hb (row_one _ _ h)

theorem cov_ADMIT_TICK (off : Nat) (h : off = R.ADMIT_TICK) (hb : Within 0x10000000000000 A) : Reach.reg A off = true :=
  reach_of 20 _ off rfl hb (row_one _ _ h)

theorem cov_KA_WATCHDOG (off : Nat) (h : off = R.KA_WATCHDOG) (hb : Within 0x20000000000000 A) : Reach.reg A off = true :=
  reach_of 21 _ off rfl hb (row_one _ _ h)

theorem cov_SPAN_CFG (off : Nat) (h : off = R.SPAN_CFG) (hb : Within 0x40000000000000 A) : Reach.reg A off = true :=
  reach_of 22 _ off rfl hb (row_one _ _ h)

theorem cov_SPAN_WAKE (off : Nat) (h : off = R.SPAN_WAKE) (hb : Within 0x80000000000000 A) : Reach.reg A off = true :=
  reach_of 23 _ off rfl hb (row_one _ _ h)

theorem cov_REP_STATUS_W (off : Nat) (h : off = R.REP_STATUS_W) (hb : Within 0x100000000000000 A) : Reach.reg A off = true :=
  reach_of 24 _ off rfl hb (row_one _ _ h)

theorem cov_REP_STATUS_E (off : Nat) (h : off = R.REP_STATUS_E) (hb : Within 0x200000000000000 A) : Reach.reg A off = true :=
  reach_of 25 _ off rfl hb (row_one _ _ h)

theorem cov_LANE_EQ (n off : Nat) (h : off = R.LANE_EQ n) (hb : Within 0x400000000000000 A) : Reach.reg A off = true :=
  reach_of 26 _ off rfl hb (row_many _ _ _ n _ (by decide) (by decide) h)

theorem cov_LANE_TX (n off : Nat) (h : off = R.LANE_TX n) (hb : Within 0x800000000000000 A) : Reach.reg A off = true :=
  reach_of 27 _ off rfl hb (row_many _ _ _ n _ (by decide) (by decide) h)

theorem cov_LANE_STATUS (n off : Nat) (h : off = R.LANE_STATUS n) (hb : Within 0x1000000000000000 A) : Reach.reg A off = true :=
  reach_of 28 _ off rfl hb (row_many _ _ _ n _ (by decide) (by decide) h)

theorem cov_FRAME_STATUS (off : Nat) (h : off = R.FRAME_STATUS) (hb : Within 0x2000000000000000 A) : Reach.reg A off = true :=
  reach_of 29 _ off rfl hb (row_one _ _ h)

theorem cov_FRAME_GEN (off : Nat) (h : off = R.FRAME_GEN) (hb : Within 0x4000000000000000 A) : Reach.reg A off = true :=
  reach_of 30 _ off rfl hb (row_one _ _ h)

theorem cov_MAP_STATUS (off : Nat) (h : off = R.MAP_STATUS) (hb : Within 0x8000000000000000 A) : Reach.reg A off = true :=
  reach_of 31 _ off rfl hb (row_one _ _ h)

theorem cov_SEL_CFG (off : Nat) (h : off = R.SEL_CFG) (hb : Within 0x10000000000000000 A) : Reach.reg A off = true :=
  reach_of 32 _ off rfl hb (row_one _ _ h)

theorem cov_REG_STATUS (off : Nat) (h : off = R.REG_STATUS) (hb : Within 0x20000000000000000 A) : Reach.reg A off = true :=
  reach_of 33 _ off rfl hb (row_one _ _ h)

theorem cov_CLAIM_NONCE (off : Nat) (h : off = R.CLAIM_NONCE) (hb : Within 0x40000000000000000 A) : Reach.reg A off = true :=
  reach_of 34 _ off rfl hb (row_one _ _ h)

theorem cov_RANGE_E (off : Nat) (h : off = R.RANGE_E) (hb : Within 0x80000000000000000 A) : Reach.reg A off = true :=
  reach_of 35 _ off rfl hb (row_one _ _ h)

theorem cov_RANGE_W (off : Nat) (h : off = R.RANGE_W) (hb : Within 0x100000000000000000 A) : Reach.reg A off = true :=
  reach_of 36 _ off rfl hb (row_one _ _ h)

theorem cov_RANGE_STATUS (off : Nat) (h : off = R.RANGE_STATUS) (hb : Within 0x200000000000000000 A) : Reach.reg A off = true :=
  reach_of 37 _ off rfl hb (row_one _ _ h)

theorem cov_TAI_ORIGIN_CYCLE (off : Nat) (h : off = R.TAI_ORIGIN_CYCLE) (hb : Within 0x400000000000000000 A) : Reach.reg A off = true :=
  reach_of 38 _ off rfl hb (row_one _ _ h)

theorem cov_TAI_ORIGIN_SEC (off : Nat) (h : off = R.TAI_ORIGIN_SEC) (hb : Within 0x800000000000000000 A) : Reach.reg A off = true :=
  reach_of 39 _ off rfl hb (row_one _ _ h)

theorem cov_TAI_ORIGIN_NS (off : Nat) (h : off = R.TAI_ORIGIN_NS) (hb : Within 0x1000000000000000000 A) : Reach.reg A off = true :=
  reach_of 40 _ off rfl hb (row_one _ _ h)

theorem cov_TAI_UTC (off : Nat) (h : off = R.TAI_UTC) (hb : Within 0x2000000000000000000 A) : Reach.reg A off = true :=
  reach_of 41 _ off rfl hb (row_one _ _ h)

theorem cov_NOTE_SEQ (off : Nat) (h : off = R.NOTE_SEQ) (hb : Within 0x4000000000000000000 A) : Reach.reg A off = true :=
  reach_of 42 _ off rfl hb (row_one _ _ h)

theorem cov_NOTE_UP_STATUS (off : Nat) (h : off = R.NOTE_UP_STATUS) (hb : Within 0x8000000000000000000 A) : Reach.reg A off = true :=
  reach_of 43 _ off rfl hb (row_one _ _ h)

theorem cov_WIN_STATUS (off : Nat) (h : off = R.WIN_STATUS) (hb : Within 0x10000000000000000000 A) : Reach.reg A off = true :=
  reach_of 44 _ off rfl hb (row_one _ _ h)

theorem cov_WIN_LAST_GRANT (off : Nat) (h : off = R.WIN_LAST_GRANT) (hb : Within 0x20000000000000000000 A) : Reach.reg A off = true :=
  reach_of 45 _ off rfl hb (row_one _ _ h)

theorem cov_WIN_CFG (off : Nat) (h : off = R.WIN_CFG) (hb : Within 0x40000000000000000000 A) : Reach.reg A off = true :=
  reach_of 46 _ off rfl hb (row_one _ _ h)

theorem cov_CIPHER_CFG (off : Nat) (h : off = R.CIPHER_CFG) (hb : Within 0x80000000000000000000 A) : Reach.reg A off = true :=
  reach_of 47 _ off rfl hb (row_one _ _ h)

theorem cov_KEY_STATUS (off : Nat) (h : off = R.KEY_STATUS) (hb : Within 0x100000000000000000000 A) : Reach.reg A off = true :=
  reach_of 48 _ off rfl hb (row_one _ _ h)

theorem cov_CIPHER_LOAD (off : Nat) (h : off = R.CIPHER_LOAD) (hb : Within 0x200000000000000000000 A) : Reach.reg A off = true :=
  reach_of 49 _ off rfl hb (row_one _ _ h)

theorem cov_ENTROPY_STATUS (off : Nat) (h : off = R.ENTROPY_STATUS) (hb : Within 0x400000000000000000000 A) : Reach.reg A off = true :=
  reach_of 50 _ off rfl hb (row_one _ _ h)

theorem cov_DRBG_STATUS (off : Nat) (h : off = R.DRBG_STATUS) (hb : Within 0x800000000000000000000 A) : Reach.reg A off = true :=
  reach_of 51 _ off rfl hb (row_one _ _ h)

theorem cov_SIG_STATUS (off : Nat) (h : off = R.SIG_STATUS) (hb : Within 0x1000000000000000000000 A) : Reach.reg A off = true :=
  reach_of 52 _ off rfl hb (row_one _ _ h)

theorem cov_TH_PORT_CLASS (off : Nat) (h : off = R.TH_PORT_CLASS) (hb : Within 0x2000000000000000000000 A) : Reach.reg A off = true :=
  reach_of 53 _ off rfl hb (row_one _ _ h)

theorem cov_TH_CLASS_CFG (n off : Nat) (h : off = R.TH_CLASS_CFG n) (hb : Within 0x4000000000000000000000 A) : Reach.reg A off = true :=
  reach_of 54 _ off rfl hb (row_many _ _ _ n _ (by decide) (by decide) h)

theorem cov_TH_PROFILE (n off : Nat) (h : off = R.TH_PROFILE n) (hb : Within 0x8000000000000000000000 A) : Reach.reg A off = true :=
  reach_of 55 _ off rfl hb (row_many _ _ _ n _ (by decide) (by decide) h)

theorem cov_TH_PUNT_LEARN (off : Nat) (h : off = R.TH_PUNT_LEARN) (hb : Within 0x10000000000000000000000 A) : Reach.reg A off = true :=
  reach_of 56 _ off rfl hb (row_one _ _ h)

theorem cov_TH_PUNT_FAULT (off : Nat) (h : off = R.TH_PUNT_FAULT) (hb : Within 0x20000000000000000000000 A) : Reach.reg A off = true :=
  reach_of 57 _ off rfl hb (row_one _ _ h)

theorem cov_TH_UPDATE_STATUS (off : Nat) (h : off = R.TH_UPDATE_STATUS) (hb : Within 0x40000000000000000000000 A) : Reach.reg A off = true :=
  reach_of 58 _ off rfl hb (row_one _ _ h)

theorem cov_TH_TABLE_STATUS (n off : Nat) (h : off = R.TH_TABLE_STATUS n) (hb : Within 0x80000000000000000000000 A) : Reach.reg A off = true :=
  reach_of 59 _ off rfl hb (row_many _ _ _ n _ (by decide) (by decide) h)

theorem cov_TH_CFG_STATUS (off : Nat) (h : off = R.TH_CFG_STATUS) (hb : Within 0x100000000000000000000000 A) : Reach.reg A off = true :=
  reach_of 60 _ off rfl hb (row_one _ _ h)

theorem cov_GRAN_BANK_CFG (off : Nat) (h : off = R.GRAN_BANK_CFG) (hb : Within 0x200000000000000000000000 A) : Reach.reg A off = true :=
  reach_of 61 _ off rfl hb (row_one _ _ h)

theorem cov_GRAN_STATUS (off : Nat) (h : off = R.GRAN_STATUS) (hb : Within 0x400000000000000000000000 A) : Reach.reg A off = true :=
  reach_of 62 _ off rfl hb (row_one _ _ h)

theorem cov_QM_OVERHEAD (off : Nat) (h : off = R.QM_OVERHEAD) (hb : Within 0x800000000000000000000000 A) : Reach.reg A off = true :=
  reach_of 63 _ off rfl hb (row_one _ _ h)

theorem cov_QM_HOLDDOWN (off : Nat) (h : off = R.QM_HOLDDOWN) (hb : Within 0x1000000000000000000000000 A) : Reach.reg A off = true :=
  reach_of 64 _ off rfl hb (row_one _ _ h)

theorem cov_QM_IND_SEL (off : Nat) (h : off = R.QM_IND_SEL) (hb : Within 0x2000000000000000000000000 A) : Reach.reg A off = true :=
  reach_of 65 _ off rfl hb (row_one _ _ h)

theorem cov_QM_IND_DATA0 (off : Nat) (h : off = R.QM_IND_DATA0) (hb : Within 0x4000000000000000000000000 A) : Reach.reg A off = true :=
  reach_of 66 _ off rfl hb (row_one _ _ h)

theorem cov_QM_IND_DATA1 (off : Nat) (h : off = R.QM_IND_DATA1) (hb : Within 0x8000000000000000000000000 A) : Reach.reg A off = true :=
  reach_of 67 _ off rfl hb (row_one _ _ h)

theorem cov_QM_IND_DATA2 (off : Nat) (h : off = R.QM_IND_DATA2) (hb : Within 0x10000000000000000000000000 A) : Reach.reg A off = true :=
  reach_of 68 _ off rfl hb (row_one _ _ h)

theorem cov_RUN_CTRL (off : Nat) (h : off = R.RUN_CTRL) (hb : Within 0x20000000000000000000000000 A) : Reach.reg A off = true :=
  reach_of 69 _ off rfl hb (row_one _ _ h)

theorem cov_PCIE_CTRL (off : Nat) (h : off = R.PCIE_CTRL) (hb : Within 0x40000000000000000000000000 A) : Reach.reg A off = true :=
  reach_of 70 _ off rfl hb (row_one _ _ h)

theorem cov_RING_MODE (off : Nat) (h : off = R.RING_MODE) (hb : Within 0x80000000000000000000000000 A) : Reach.reg A off = true :=
  reach_of 71 _ off rfl hb (row_one _ _ h)

theorem cov_HRE_CTRL (off : Nat) (h : off = R.HRE_CTRL) (hb : Within 0x100000000000000000000000000 A) : Reach.reg A off = true :=
  reach_of 72 _ off rfl hb (row_one _ _ h)

theorem cov_HRE_STATUS (off : Nat) (h : off = R.HRE_STATUS) (hb : Within 0x200000000000000000000000000 A) : Reach.reg A off = true :=
  reach_of 73 _ off rfl hb (row_one _ _ h)

theorem cov_HRE_STOPPED (off : Nat) (h : off = R.HRE_STOPPED) (hb : Within 0x400000000000000000000000000 A) : Reach.reg A off = true :=
  reach_of 74 _ off rfl hb (row_one _ _ h)

theorem cov_DB_PAGE (off : Nat) (h : off = R.DB_PAGE) (hb : Within 0x800000000000000000000000000 A) : Reach.reg A off = true :=
  reach_of 75 _ off rfl hb (row_one _ _ h)

theorem cov_ST_PAGE (off : Nat) (h : off = R.ST_PAGE) (hb : Within 0x1000000000000000000000000000 A) : Reach.reg A off = true :=
  reach_of 76 _ off rfl hb (row_one _ _ h)

theorem cov_INT_CFG (off : Nat) (h : off = R.INT_CFG) (hb : Within 0x2000000000000000000000000000 A) : Reach.reg A off = true :=
  reach_of 77 _ off rfl hb (row_one _ _ h)

theorem cov_CMD_SEQ (off : Nat) (h : off = R.CMD_SEQ) (hb : Within 0x4000000000000000000000000000 A) : Reach.reg A off = true :=
  reach_of 78 _ off rfl hb (row_one _ _ h)

theorem cov_ETH_CFG (n off : Nat) (h : off = R.ETH_CFG n) (hb : Within 0x8000000000000000000000000000 A) : Reach.reg A off = true :=
  reach_of 79 _ off rfl hb (row_many _ _ _ n _ (by decide) (by decide) h)

theorem cov_ETH_STATUS (n off : Nat) (h : off = R.ETH_STATUS n) (hb : Within 0x10000000000000000000000000000 A) : Reach.reg A off = true :=
  reach_of 80 _ off rfl hb (row_many _ _ _ n _ (by decide) (by decide) h)

theorem cov_ETH_PTP_ADJ (n off : Nat) (h : off = R.ETH_PTP_ADJ n) (hb : Within 0x20000000000000000000000000000 A) : Reach.reg A off = true :=
  reach_of 81 _ off rfl hb (row_many _ _ _ n _ (by decide) (by decide) h)

theorem cov_PTP_CFG (off : Nat) (h : off = R.PTP_CFG) (hb : Within 0x40000000000000000000000000000 A) : Reach.reg A off = true :=
  reach_of 82 _ off rfl hb (row_one _ _ h)

theorem cov_PTP_INTERVALS (off : Nat) (h : off = R.PTP_INTERVALS) (hb : Within 0x80000000000000000000000000000 A) : Reach.reg A off = true :=
  reach_of 83 _ off rfl hb (row_one _ _ h)

theorem cov_PTP_STATUS (off : Nat) (h : off = R.PTP_STATUS) (hb : Within 0x100000000000000000000000000000 A) : Reach.reg A off = true :=
  reach_of 84 _ off rfl hb (row_one _ _ h)

theorem cov_SHOW_CFG (off : Nat) (h : off = R.SHOW_CFG) (hb : Within 0x200000000000000000000000000000 A) : Reach.reg A off = true :=
  reach_of 85 _ off rfl hb (row_one _ _ h)

theorem cov_SHOW_STATUS (off : Nat) (h : off = R.SHOW_STATUS) (hb : Within 0x400000000000000000000000000000 A) : Reach.reg A off = true :=
  reach_of 86 _ off rfl hb (row_one _ _ h)

theorem cov_TDM_CFG (n off : Nat) (h : off = R.TDM_CFG n) (hb : Within 0x800000000000000000000000000000 A) : Reach.reg A off = true :=
  reach_of 87 _ off rfl hb (row_many _ _ _ n _ (by decide) (by decide) h)

theorem cov_DMX_CFG (n off : Nat) (h : off = R.DMX_CFG n) (hb : Within 0x1000000000000000000000000000000 A) : Reach.reg A off = true :=
  reach_of 88 _ off rfl hb (row_many _ _ _ n _ (by decide) (by decide) h)

theorem cov_DMX_TIMING (off : Nat) (h : off = R.DMX_TIMING) (hb : Within 0x2000000000000000000000000000000 A) : Reach.reg A off = true :=
  reach_of 89 _ off rfl hb (row_one _ _ h)

theorem cov_LTC_CFG (n off : Nat) (h : off = R.LTC_CFG n) (hb : Within 0x4000000000000000000000000000000 A) : Reach.reg A off = true :=
  reach_of 90 _ off rfl hb (row_many _ _ _ n _ (by decide) (by decide) h)

theorem cov_LTC_START (n off : Nat) (h : off = R.LTC_START n) (hb : Within 0x8000000000000000000000000000000 A) : Reach.reg A off = true :=
  reach_of 91 _ off rfl hb (row_many _ _ _ n _ (by decide) (by decide) h)

theorem cov_LTC_ORIGIN (n off : Nat) (h : off = R.LTC_ORIGIN n) (hb : Within 0x10000000000000000000000000000000 A) : Reach.reg A off = true :=
  reach_of 92 _ off rfl hb (row_many _ _ _ n _ (by decide) (by decide) h)

theorem cov_LTC_RX (n off : Nat) (h : off = R.LTC_RX n) (hb : Within 0x20000000000000000000000000000000 A) : Reach.reg A off = true :=
  reach_of 93 _ off rfl hb (row_many _ _ _ n _ (by decide) (by decide) h)

theorem cov_MIDI_CFG (n off : Nat) (h : off = R.MIDI_CFG n) (hb : Within 0x40000000000000000000000000000000 A) : Reach.reg A off = true :=
  reach_of 94 _ off rfl hb (row_many _ _ _ n _ (by decide) (by decide) h)

theorem cov_CUE_CFG (off : Nat) (h : off = R.CUE_CFG) (hb : Within 0x80000000000000000000000000000000 A) : Reach.reg A off = true :=
  reach_of 95 _ off rfl hb (row_one _ _ h)

theorem cov_CUE_OUT_CFG (off : Nat) (h : off = R.CUE_OUT_CFG) (hb : Within 0x100000000000000000000000000000000 A) : Reach.reg A off = true :=
  reach_of 96 _ off rfl hb (row_one _ _ h)

theorem cov_CUE_STATE (off : Nat) (h : off = R.CUE_STATE) (hb : Within 0x200000000000000000000000000000000 A) : Reach.reg A off = true :=
  reach_of 97 _ off rfl hb (row_one _ _ h)

theorem cov_EXPRESS_MAP (n off : Nat) (h : off = R.EXPRESS_MAP n) (hb : Within 0x400000000000000000000000000000000 A) : Reach.reg A off = true :=
  reach_of 98 _ off rfl hb (row_many _ _ _ n _ (by decide) (by decide) h)

theorem cov_GEN_CFG (n off : Nat) (h : off = R.GEN_CFG n) (hb : Within 0x800000000000000000000000000000000 A) : Reach.reg A off = true :=
  reach_of 99 _ off rfl hb (row_many _ _ _ n _ (by decide) (by decide) h)

theorem cov_GEN_PULSE (n off : Nat) (h : off = R.GEN_PULSE n) (hb : Within 0x1000000000000000000000000000000000 A) : Reach.reg A off = true :=
  reach_of 100 _ off rfl hb (row_many _ _ _ n _ (by decide) (by decide) h)

theorem cov_AX_CFG (n off : Nat) (h : off = R.AX_CFG n) (hb : Within 0x2000000000000000000000000000000000 A) : Reach.reg A off = true :=
  reach_of 101 _ off rfl hb (row_many _ _ _ n _ (by decide) (by decide) h)

theorem cov_AX_TIMING (n off : Nat) (h : off = R.AX_TIMING n) (hb : Within 0x4000000000000000000000000000000000 A) : Reach.reg A off = true :=
  reach_of 102 _ off rfl hb (row_many _ _ _ n _ (by decide) (by decide) h)

theorem cov_AX_VMAX (n off : Nat) (h : off = R.AX_VMAX n) (hb : Within 0x8000000000000000000000000000000000 A) : Reach.reg A off = true :=
  reach_of 103 _ off rfl hb (row_many _ _ _ n _ (by decide) (by decide) h)

theorem cov_AX_AMAX (n off : Nat) (h : off = R.AX_AMAX n) (hb : Within 0x10000000000000000000000000000000000 A) : Reach.reg A off = true :=
  reach_of 104 _ off rfl hb (row_many _ _ _ n _ (by decide) (by decide) h)

theorem cov_AX_PWM_FS (n off : Nat) (h : off = R.AX_PWM_FS n) (hb : Within 0x20000000000000000000000000000000000 A) : Reach.reg A off = true :=
  reach_of 105 _ off rfl hb (row_many _ _ _ n _ (by decide) (by decide) h)

theorem cov_AX_RD_CFG (n off : Nat) (h : off = R.AX_RD_CFG n) (hb : Within 0x40000000000000000000000000000000000 A) : Reach.reg A off = true :=
  reach_of 106 _ off rfl hb (row_many _ _ _ n _ (by decide) (by decide) h)

theorem cov_AX_RD_LIMIT (n off : Nat) (h : off = R.AX_RD_LIMIT n) (hb : Within 0x80000000000000000000000000000000000 A) : Reach.reg A off = true :=
  reach_of 107 _ off rfl hb (row_many _ _ _ n _ (by decide) (by decide) h)

theorem cov_AX_PWM (n off : Nat) (h : off = R.AX_PWM n) (hb : Within 0x100000000000000000000000000000000000 A) : Reach.reg A off = true :=
  reach_of 108 _ off rfl hb (row_many _ _ _ n _ (by decide) (by decide) h)

theorem cov_AX_SOFT_MIN (n off : Nat) (h : off = R.AX_SOFT_MIN n) (hb : Within 0x200000000000000000000000000000000000 A) : Reach.reg A off = true :=
  reach_of 109 _ off rfl hb (row_many _ _ _ n _ (by decide) (by decide) h)

theorem cov_AX_SOFT_MAX (n off : Nat) (h : off = R.AX_SOFT_MAX n) (hb : Within 0x400000000000000000000000000000000000 A) : Reach.reg A off = true :=
  reach_of 110 _ off rfl hb (row_many _ _ _ n _ (by decide) (by decide) h)

theorem cov_AX_POS_CMD (n off : Nat) (h : off = R.AX_POS_CMD n) (hb : Within 0x800000000000000000000000000000000000 A) : Reach.reg A off = true :=
  reach_of 111 _ off rfl hb (row_many _ _ _ n _ (by decide) (by decide) h)

theorem cov_AX_POS_ENC (n off : Nat) (h : off = R.AX_POS_ENC n) (hb : Within 0x1000000000000000000000000000000000000 A) : Reach.reg A off = true :=
  reach_of 112 _ off rfl hb (row_many _ _ _ n _ (by decide) (by decide) h)

theorem cov_AX_INDEX (n off : Nat) (h : off = R.AX_INDEX n) (hb : Within 0x2000000000000000000000000000000000000 A) : Reach.reg A off = true :=
  reach_of 113 _ off rfl hb (row_many _ _ _ n _ (by decide) (by decide) h)

theorem cov_AX_STATUS (n off : Nat) (h : off = R.AX_STATUS n) (hb : Within 0x4000000000000000000000000000000000000 A) : Reach.reg A off = true :=
  reach_of 114 _ off rfl hb (row_many _ _ _ n _ (by decide) (by decide) h)

theorem cov_MOT_HOLD (off : Nat) (h : off = R.MOT_HOLD) (hb : Within 0x8000000000000000000000000000000000000 A) : Reach.reg A off = true :=
  reach_of 115 _ off rfl hb (row_one _ _ h)

theorem cov_AFE_CFG (off : Nat) (h : off = R.AFE_CFG) (hb : Within 0x10000000000000000000000000000000000000 A) : Reach.reg A off = true :=
  reach_of 116 _ off rfl hb (row_one _ _ h)

theorem cov_AFE_STATUS (off : Nat) (h : off = R.AFE_STATUS) (hb : Within 0x20000000000000000000000000000000000000 A) : Reach.reg A off = true :=
  reach_of 117 _ off rfl hb (row_one _ _ h)

theorem cov_AFE_SLOT_CFG (n off : Nat) (h : off = R.AFE_SLOT_CFG n) (hb : Within 0x40000000000000000000000000000000000000 A) : Reach.reg A off = true :=
  reach_of 118 _ off rfl hb (row_many _ _ _ n _ (by decide) (by decide) h)

theorem cov_AFE_SLOT_PINS (n off : Nat) (h : off = R.AFE_SLOT_PINS n) (hb : Within 0x80000000000000000000000000000000000000 A) : Reach.reg A off = true :=
  reach_of 119 _ off rfl hb (row_many _ _ _ n _ (by decide) (by decide) h)

theorem cov_AFE_LIN (n off : Nat) (h : off = R.AFE_LIN n) (hb : Within 0x100000000000000000000000000000000000000 A) : Reach.reg A off = true :=
  reach_of 120 _ off rfl hb (row_many _ _ _ n _ (by decide) (by decide) h)

theorem cov_AFE_CAL (n off : Nat) (h : off = R.AFE_CAL n) (hb : Within 0x200000000000000000000000000000000000000 A) : Reach.reg A off = true :=
  reach_of 121 _ off rfl hb (row_many _ _ _ n _ (by decide) (by decide) h)

theorem cov_AFE_CAL_CTRL (off : Nat) (h : off = R.AFE_CAL_CTRL) (hb : Within 0x400000000000000000000000000000000000000 A) : Reach.reg A off = true :=
  reach_of 122 _ off rfl hb (row_one _ _ h)

theorem cov_AFE_DIE_TEMP (off : Nat) (h : off = R.AFE_DIE_TEMP) (hb : Within 0x800000000000000000000000000000000000000 A) : Reach.reg A off = true :=
  reach_of 123 _ off rfl hb (row_one _ _ h)

theorem cov_AFE_RESULT (n off : Nat) (h : off = R.AFE_RESULT n) (hb : Within 0x1000000000000000000000000000000000000000 A) : Reach.reg A off = true :=
  reach_of 124 _ off rfl hb (row_many _ _ _ n _ (by decide) (by decide) h)

theorem cov_PFO_CFG (n off : Nat) (h : off = R.PFO_CFG n) (hb : Within 0x2000000000000000000000000000000000000000 A) : Reach.reg A off = true :=
  reach_of 125 _ off rfl hb (row_many _ _ _ n _ (by decide) (by decide) h)

theorem cov_PFO_Y0 (n off : Nat) (h : off = R.PFO_Y0 n) (hb : Within 0x4000000000000000000000000000000000000000 A) : Reach.reg A off = true :=
  reach_of 126 _ off rfl hb (row_many _ _ _ n _ (by decide) (by decide) h)

theorem cov_PFO_Y1 (n off : Nat) (h : off = R.PFO_Y1 n) (hb : Within 0x8000000000000000000000000000000000000000 A) : Reach.reg A off = true :=
  reach_of 127 _ off rfl hb (row_many _ _ _ n _ (by decide) (by decide) h)

theorem cov_PFO_OUT0 (n off : Nat) (h : off = R.PFO_OUT0 n) (hb : Within 0x10000000000000000000000000000000000000000 A) : Reach.reg A off = true :=
  reach_of 128 _ off rfl hb (row_many _ _ _ n _ (by decide) (by decide) h)

theorem cov_PFO_OUT1 (n off : Nat) (h : off = R.PFO_OUT1 n) (hb : Within 0x20000000000000000000000000000000000000000 A) : Reach.reg A off = true :=
  reach_of 129 _ off rfl hb (row_many _ _ _ n _ (by decide) (by decide) h)

theorem cov_PWR_PENDING (off : Nat) (h : off = R.PWR_PENDING) (hb : Within 0x40000000000000000000000000000000000000000 A) : Reach.reg A off = true :=
  reach_of 130 _ off rfl hb (row_one _ _ h)

theorem cov_WAKE_CFG (off : Nat) (h : off = R.WAKE_CFG) (hb : Within 0x80000000000000000000000000000000000000000 A) : Reach.reg A off = true :=
  reach_of 131 _ off rfl hb (row_one _ _ h)

theorem cov_WAKE_MASK (off : Nat) (h : off = R.WAKE_MASK) (hb : Within 0x100000000000000000000000000000000000000000 A) : Reach.reg A off = true :=
  reach_of 132 _ off rfl hb (row_one _ _ h)

theorem cov_WAKE_STATUS (off : Nat) (h : off = R.WAKE_STATUS) (hb : Within 0x200000000000000000000000000000000000000000 A) : Reach.reg A off = true :=
  reach_of 133 _ off rfl hb (row_one _ _ h)

theorem cov_KTIMER_CFG (off : Nat) (h : off = R.KTIMER_CFG) (hb : Within 0x400000000000000000000000000000000000000000 A) : Reach.reg A off = true :=
  reach_of 134 _ off rfl hb (row_one _ _ h)

theorem cov_KTIMER_STATUS (off : Nat) (h : off = R.KTIMER_STATUS) (hb : Within 0x800000000000000000000000000000000000000000 A) : Reach.reg A off = true :=
  reach_of 135 _ off rfl hb (row_one _ _ h)

theorem cov_KEEPER_RC (off : Nat) (h : off = R.KEEPER_RC) (hb : Within 0x1000000000000000000000000000000000000000000 A) : Reach.reg A off = true :=
  reach_of 136 _ off rfl hb (row_one _ _ h)

theorem cov_ZWD_ADDR (off : Nat) (h : off = R.ZWD_ADDR) (hb : Within 0x2000000000000000000000000000000000000000000 A) : Reach.reg A off = true :=
  reach_of 137 _ off rfl hb (row_one _ _ h)

theorem cov_ZWD_CFG (off : Nat) (h : off = R.ZWD_CFG) (hb : Within 0x4000000000000000000000000000000000000000000 A) : Reach.reg A off = true :=
  reach_of 138 _ off rfl hb (row_one _ _ h)

theorem cov_ZWD_ALERT (off : Nat) (h : off = R.ZWD_ALERT) (hb : Within 0x8000000000000000000000000000000000000000000 A) : Reach.reg A off = true :=
  reach_of 139 _ off rfl hb (row_one _ _ h)

theorem cov_ZWD_STATUS (off : Nat) (h : off = R.ZWD_STATUS) (hb : Within 0x10000000000000000000000000000000000000000000 A) : Reach.reg A off = true :=
  reach_of 140 _ off rfl hb (row_one _ _ h)

theorem cov_GLEAN_CFG (off : Nat) (h : off = R.GLEAN_CFG) (hb : Within 0x20000000000000000000000000000000000000000000 A) : Reach.reg A off = true :=
  reach_of 141 _ off rfl hb (row_one _ _ h)

theorem cov_GLEAN_STATUS (off : Nat) (h : off = R.GLEAN_STATUS) (hb : Within 0x40000000000000000000000000000000000000000000 A) : Reach.reg A off = true :=
  reach_of 142 _ off rfl hb (row_one _ _ h)

theorem cov_IMAGE_RUNNING (off : Nat) (h : off = R.IMAGE_RUNNING) (hb : Within 0x80000000000000000000000000000000000000000000 A) : Reach.reg A off = true :=
  reach_of 143 _ off rfl hb (row_one _ _ h)

theorem cov_IMAGE_STAGED (off : Nat) (h : off = R.IMAGE_STAGED) (hb : Within 0x100000000000000000000000000000000000000000000 A) : Reach.reg A off = true :=
  reach_of 144 _ off rfl hb (row_one _ _ h)

theorem cov_FLASH_INFO (off : Nat) (h : off = R.FLASH_INFO) (hb : Within 0x200000000000000000000000000000000000000000000 A) : Reach.reg A off = true :=
  reach_of 145 _ off rfl hb (row_one _ _ h)

theorem cov_SETTINGS_STATUS (off : Nat) (h : off = R.SETTINGS_STATUS) (hb : Within 0x400000000000000000000000000000000000000000000 A) : Reach.reg A off = true :=
  reach_of 146 _ off rfl hb (row_one _ _ h)

theorem cov_LANE_PRBS_CFG (n off : Nat) (h : off = R.LANE_PRBS_CFG n) (hb : Within 0x800000000000000000000000000000000000000000000 A) : Reach.reg A off = true :=
  reach_of 147 _ off rfl hb (row_many _ _ _ n _ (by decide) (by decide) h)

theorem cov_LANE_PRBS_STATUS (n off : Nat) (h : off = R.LANE_PRBS_STATUS n) (hb : Within 0x1000000000000000000000000000000000000000000000 A) : Reach.reg A off = true :=
  reach_of 148 _ off rfl hb (row_many _ _ _ n _ (by decide) (by decide) h)

theorem cov_LANE_PRBS_BITS (n off : Nat) (h : off = R.LANE_PRBS_BITS n) (hb : Within 0x2000000000000000000000000000000000000000000000 A) : Reach.reg A off = true :=
  reach_of 149 _ off rfl hb (row_many _ _ _ n _ (by decide) (by decide) h)

theorem cov_LANE_PRBS_ERR (n off : Nat) (h : off = R.LANE_PRBS_ERR n) (hb : Within 0x4000000000000000000000000000000000000000000000 A) : Reach.reg A off = true :=
  reach_of 150 _ off rfl hb (row_many _ _ _ n _ (by decide) (by decide) h)

theorem cov_LANE_INJECT (n off : Nat) (h : off = R.LANE_INJECT n) (hb : Within 0x8000000000000000000000000000000000000000000000 A) : Reach.reg A off = true :=
  reach_of 151 _ off rfl hb (row_many _ _ _ n _ (by decide) (by decide) h)

theorem cov_LANE_LOOP (n off : Nat) (h : off = R.LANE_LOOP n) (hb : Within 0x10000000000000000000000000000000000000000000000 A) : Reach.reg A off = true :=
  reach_of 152 _ off rfl hb (row_many _ _ _ n _ (by decide) (by decide) h)

theorem cov_LEDGER_GRP_SAT (n off : Nat) (h : off = R.LEDGER_GRP_SAT n) (hb : Within 0x20000000000000000000000000000000000000000000000 A) : Reach.reg A off = true :=
  reach_of 153 _ off rfl hb (row_many _ _ _ n _ (by decide) (by decide) h)

theorem cov_LEDGER_SUMMARY (off : Nat) (h : off = R.LEDGER_SUMMARY) (hb : Within 0x40000000000000000000000000000000000000000000000 A) : Reach.reg A off = true :=
  reach_of 154 _ off rfl hb (row_one _ _ h)

theorem cov_LEDGER_CLEAR (off : Nat) (h : off = R.LEDGER_CLEAR) (hb : Within 0x80000000000000000000000000000000000000000000000 A) : Reach.reg A off = true :=
  reach_of 155 _ off rfl hb (row_one _ _ h)

theorem cov_CMD_BASE (off : Nat) (h : off = R.CMD_BASE) (hb : Within 0x100000000000000000000000000000000000000000000000 A) : Reach.reg A off = true :=
  reach_of 156 _ off rfl hb (row_one _ _ h)

theorem cov_CMD_CFG (off : Nat) (h : off = R.CMD_CFG) (hb : Within 0x200000000000000000000000000000000000000000000000 A) : Reach.reg A off = true :=
  reach_of 157 _ off rfl hb (row_one _ _ h)

theorem cov_EVT_BASE (off : Nat) (h : off = R.EVT_BASE) (hb : Within 0x400000000000000000000000000000000000000000000000 A) : Reach.reg A off = true :=
  reach_of 158 _ off rfl hb (row_one _ _ h)

theorem cov_EVT_CFG (off : Nat) (h : off = R.EVT_CFG) (hb : Within 0x800000000000000000000000000000000000000000000000 A) : Reach.reg A off = true :=
  reach_of 159 _ off rfl hb (row_one _ _ h)

theorem cov_TXQ_BASE (n off : Nat) (h : off = R.TXQ_BASE n) (hb : Within 0x1000000000000000000000000000000000000000000000000 A) : Reach.reg A off = true :=
  reach_of 160 _ off rfl hb (row_many _ _ _ n _ (by decide) (by decide) h)

theorem cov_TXQ_CFG (n off : Nat) (h : off = R.TXQ_CFG n) (hb : Within 0x2000000000000000000000000000000000000000000000000 A) : Reach.reg A off = true :=
  reach_of 161 _ off rfl hb (row_many _ _ _ n _ (by decide) (by decide) h)

theorem cov_RXQ_BASE (n off : Nat) (h : off = R.RXQ_BASE n) (hb : Within 0x4000000000000000000000000000000000000000000000000 A) : Reach.reg A off = true :=
  reach_of 162 _ off rfl hb (row_many _ _ _ n _ (by decide) (by decide) h)

theorem cov_RXQ_CFG (n off : Nat) (h : off = R.RXQ_CFG n) (hb : Within 0x8000000000000000000000000000000000000000000000000 A) : Reach.reg A off = true :=
  reach_of 163 _ off rfl hb (row_many _ _ _ n _ (by decide) (by decide) h)

theorem cov_FL_BASE (n off : Nat) (h : off = R.FL_BASE n) (hb : Within 0x10000000000000000000000000000000000000000000000000 A) : Reach.reg A off = true :=
  reach_of 164 _ off rfl hb (row_many _ _ _ n _ (by decide) (by decide) h)

theorem cov_FL_CFG (n off : Nat) (h : off = R.FL_CFG n) (hb : Within 0x20000000000000000000000000000000000000000000000000 A) : Reach.reg A off = true :=
  reach_of 165 _ off rfl hb (row_many _ _ _ n _ (by decide) (by decide) h)

theorem cov_COUNTER (n off : Nat) (h : off = R.COUNTER n) (hb : Within 0x40000000000000000000000000000000000000000000000000 A) : Reach.reg A off = true :=
  reach_of 166 _ off rfl hb (row_many _ _ _ n _ (by decide) (by decide) h)

theorem cov_PWR_TARGET (n off : Nat) (h : off = R.PWR_TARGET n) (hb : Within 0x80000000000000000000000000000000000000000000000000 A) : Reach.reg A off = true :=
  reach_of 167 _ off rfl hb (row_many _ _ _ n _ (by decide) (by decide) h)

theorem cov_counterAddr (i : Nat) (hb : Within 0x140000000000000000000000000000000000000000000000000 A) : Reach.reg A (counterAddr i) = true := by
  unfold counterAddr
  split
  · next h => exact reach_of 166 _ _ rfl (sub_of hb rfl) (row_many _ _ _ i _ (by decide) (by decide) (by omega))
  · exact reach_of 168 _ _ rfl (sub_of hb rfl) (row_many _ _ _ (16 * ((i - 222) / 15 % 6) + (i - 222) % 15) _ (by decide)
      (by decide) (by omega))

theorem cov_rep (sd : Side) (off : Nat) (h : off = (repFld sd 0 0).off) (hb : Within 0x300000000000000 A) :
    Reach.reg A off = true := by
  cases sd
  · exact cov_REP_STATUS_W _ h (sub_of hb rfl)
  · exact cov_REP_STATUS_E _ h (sub_of hb rfl)

theorem cov_turned (sd : Side) (hb : Within 0x4000000000000 A) : Reach.reg A (fTURNED sd).off = true := by
  cases sd
  · exact cov_BYPASS_STATUS _ rfl hb
  · exact cov_BYPASS_STATUS _ rfl hb

theorem ne_reach {off o : Nat} (hc : Reach.reg A off = true) (ho : Reach.reg A o = false) : o ≠ off := by
  rintro rfl
  rw [hc] at ho
  contradiction

theorem keeps_setReg (off : Nat) (v : Word) (hc : Reach.reg A off = true) (h : Keeps A a₀ s) :
    Keeps A a₀ (setReg off v s) :=
  ⟨h.pending, fun i => let j := h.inv i; ⟨wf_put off v j.regs, j.flash, j.events, j.records, j.up, j.pieces, j.mbox, j.lanes⟩,
    { h.rest with regs := fun o ho => (get_put_other _ _ _ _ _ _ (ne_reach hc ho)).trans (h.rest.regs o ho) }⟩

theorem keeps_wr (f : Fld) (v : Nat) (hc : Reach.reg A f.off = true) (h : Keeps A a₀ s) : Keeps A a₀ (wr f v s) :=
  keeps_setReg _ _ hc h

/-! ### Parts -/

theorem keeps_part_term (x : TermState) (hb : Within 0x1 A)
    (h : Keeps A a₀ s) : Keeps A a₀ { s with term := x } :=
  ⟨h.pending, fun i => let j := h.inv i; ⟨j.regs, j.flash, j.events, j.records, j.up, j.pieces, j.mbox, j.lanes⟩,
    { h.rest with term := no_of 0 hb }⟩

theorem keeps_part_pcie (x : PathLatches) (hb : Within 0x2 A)
    (h : Keeps A a₀ s) : Keeps A a₀ { s with pcie := x } :=
  ⟨h.pending, fun i => let j := h.inv i; ⟨j.regs, j.flash, j.events, j.records, j.up, j.pieces, j.mbox, j.lanes⟩,
    { h.rest with pcie := no_of 1 hb }⟩

theorem keeps_part_zwirdo (x : PathLatches) (hb : Within 0x4 A)
    (h : Keeps A a₀ s) : Keeps A a₀ { s with zwirdo := x } :=
  ⟨h.pending, fun i => let j := h.inv i; ⟨j.regs, j.flash, j.events, j.records, j.up, j.pieces, j.mbox, j.lanes⟩,
    { h.rest with zwirdo := no_of 2 hb }⟩

theorem keeps_part_mgmt (x : PathLatches) (hb : Within 0x8 A)
    (h : Keeps A a₀ s) : Keeps A a₀ { s with mgmt := x } :=
  ⟨h.pending, fun i => let j := h.inv i; ⟨j.regs, j.flash, j.events, j.records, j.up, j.pieces, j.mbox, j.lanes⟩,
    { h.rest with mgmt := no_of 3 hb }⟩

theorem keeps_part_line (x : Nat) (hb : Within 0x10 A)
    (h : Keeps A a₀ s) : Keeps A a₀ { s with line := x } :=
  ⟨h.pending, fun i => let j := h.inv i; ⟨j.regs, j.flash, j.events, j.records, j.up, j.pieces, j.mbox, j.lanes⟩,
    { h.rest with line := no_of 4 hb }⟩

theorem keeps_part_bt (x : Nat) (hb : Within 0x20 A)
    (h : Keeps A a₀ s) : Keeps A a₀ { s with bt := x } :=
  ⟨h.pending, fun i => let j := h.inv i; ⟨j.regs, j.flash, j.events, j.records, j.up, j.pieces, j.mbox, j.lanes⟩,
    { h.rest with bt := no_of 5 hb }⟩

theorem keeps_part_staged (x : List Staged) (hb : Within 0x40 A)
    (h : Keeps A a₀ s) : Keeps A a₀ { s with staged := x } :=
  ⟨h.pending, fun i => let j := h.inv i; ⟨j.regs, j.flash, j.events, j.records, j.up, j.pieces, j.mbox, j.lanes⟩,
    { h.rest with staged := no_of 6 hb }⟩

theorem keeps_part_boot (x : BootSt) (hb : Within 0x80 A)
    (h : Keeps A a₀ s) : Keeps A a₀ { s with boot := x } :=
  ⟨h.pending, fun i => let j := h.inv i; ⟨j.regs, j.flash, j.events, j.records, j.up, j.pieces, j.mbox, j.lanes⟩,
    { h.rest with boot := no_of 7 hb }⟩

theorem keeps_part_byp (x : BypassSt) (hb : Within 0x100 A)
    (h : Keeps A a₀ s) : Keeps A a₀ { s with byp := x } :=
  ⟨h.pending, fun i => let j := h.inv i; ⟨j.regs, j.flash, j.events, j.records, j.up, j.pieces, j.mbox, j.lanes⟩,
    { h.rest with byp := no_of 8 hb }⟩

theorem keeps_part_frame (x : FrameSt) (hb : Within 0x200 A)
    (h : Keeps A a₀ s) : Keeps A a₀ { s with frame := x } :=
  ⟨h.pending, fun i => let j := h.inv i; ⟨j.regs, j.flash, j.events, j.records, j.up, j.pieces, j.mbox, j.lanes⟩,
    { h.rest with frame := no_of 9 hb }⟩

theorem keeps_part_regn (x : RegSt) (hb : Within 0x400 A)
    (h : Keeps A a₀ s) : Keeps A a₀ { s with regn := x } :=
  ⟨h.pending, fun i => let j := h.inv i; ⟨j.regs, j.flash, j.events, j.records, j.up, j.pieces, j.mbox, j.lanes⟩,
    { h.rest with regn := no_of 10 hb }⟩

theorem keeps_part_note (x : NoteSt) (hb : Within 0x800 A) (hu : s.note.up.length ≤ 16 → x.up.length ≤ 16)
    (h : Keeps A a₀ s) : Keeps A a₀ { s with note := x } :=
  ⟨h.pending, fun i => let j := h.inv i; ⟨j.regs, j.flash, j.events, j.records, hu j.up, j.pieces, j.mbox, j.lanes⟩,
    { h.rest with note := no_of 11 hb }⟩

theorem keeps_part_win (x : WinSt) (hb : Within 0x1000 A)
    (h : Keeps A a₀ s) : Keeps A a₀ { s with win := x } :=
  ⟨h.pending, fun i => let j := h.inv i; ⟨j.regs, j.flash, j.events, j.records, j.up, j.pieces, j.mbox, j.lanes⟩,
    { h.rest with win := no_of 12 hb }⟩

theorem keeps_part_key (x : KeySt) (hb : Within 0x2000 A)
    (h : Keeps A a₀ s) : Keeps A a₀ { s with key := x } :=
  ⟨h.pending, fun i => let j := h.inv i; ⟨j.regs, j.flash, j.events, j.records, j.up, j.pieces, j.mbox, j.lanes⟩,
    { h.rest with key := no_of 13 hb }⟩

theorem keeps_part_th (x : ThSt) (hb : Within 0x4000 A)
    (h : Keeps A a₀ s) : Keeps A a₀ { s with th := x } :=
  ⟨h.pending, fun i => let j := h.inv i; ⟨j.regs, j.flash, j.events, j.records, j.up, j.pieces, j.mbox, j.lanes⟩,
    { h.rest with th := no_of 14 hb }⟩

theorem keeps_part_q (x : QueueSt) (hb : Within 0x8000 A)
    (h : Keeps A a₀ s) : Keeps A a₀ { s with q := x } :=
  ⟨h.pending, fun i => let j := h.inv i; ⟨j.regs, j.flash, j.events, j.records, j.up, j.pieces, j.mbox, j.lanes⟩,
    { h.rest with q := no_of 15 hb }⟩

theorem keeps_part_host (x : HostSt) (hb : Within 0x10000 A) (he : s.host.events.length ≤ 64 + 65536 → x.events.length ≤ 64 + 65536) (hc : s.host.records.length ≤ 64 → x.records.length ≤ 64)
    (h : Keeps A a₀ s) : Keeps A a₀ { s with host := x } :=
  ⟨h.pending, fun i => let j := h.inv i; ⟨j.regs, j.flash, he j.events, hc j.records, j.up, j.pieces, j.mbox, j.lanes⟩,
    { h.rest with host := no_of 16 hb }⟩

theorem keeps_part_eth (x : EthSt) (hb : Within 0x20000 A)
    (h : Keeps A a₀ s) : Keeps A a₀ { s with eth := x } :=
  ⟨h.pending, fun i => let j := h.inv i; ⟨j.regs, j.flash, j.events, j.records, j.up, j.pieces, j.mbox, j.lanes⟩,
    { h.rest with eth := no_of 17 hb }⟩

theorem keeps_part_show_ (x : ShowSt) (hb : Within 0x40000 A)
    (h : Keeps A a₀ s) : Keeps A a₀ { s with show_ := x } :=
  ⟨h.pending, fun i => let j := h.inv i; ⟨j.regs, j.flash, j.events, j.records, j.up, j.pieces, j.mbox, j.lanes⟩,
    { h.rest with show_ := no_of 18 hb }⟩

theorem keeps_part_mot (x : MotSt) (hb : Within 0x80000 A)
    (h : Keeps A a₀ s) : Keeps A a₀ { s with mot := x } :=
  ⟨h.pending, fun i => let j := h.inv i; ⟨j.regs, j.flash, j.events, j.records, j.up, j.pieces, j.mbox, j.lanes⟩,
    { h.rest with mot := no_of 19 hb }⟩

theorem keeps_part_afe (x : AfeSt) (hb : Within 0x100000 A)
    (h : Keeps A a₀ s) : Keeps A a₀ { s with afe := x } :=
  ⟨h.pending, fun i => let j := h.inv i; ⟨j.regs, j.flash, j.events, j.records, j.up, j.pieces, j.mbox, j.lanes⟩,
    { h.rest with afe := no_of 20 hb }⟩

theorem keeps_part_pwr (x : PwrSt) (hb : Within 0x200000 A)
    (h : Keeps A a₀ s) : Keeps A a₀ { s with pwr := x } :=
  ⟨h.pending, fun i => let j := h.inv i; ⟨j.regs, j.flash, j.events, j.records, j.up, j.pieces, j.mbox, j.lanes⟩,
    { h.rest with pwr := no_of 21 hb }⟩

theorem keeps_part_zwd (x : ZwdSt) (hb : Within 0x400000 A) (hm : s.zwd.mbox.length = 256 → x.mbox.length = 256)
    (h : Keeps A a₀ s) : Keeps A a₀ { s with zwd := x } :=
  ⟨h.pending, fun i => let j := h.inv i; ⟨j.regs, j.flash, j.events, j.records, j.up, j.pieces, hm j.mbox, j.lanes⟩,
    { h.rest with zwd := no_of 22 hb }⟩

theorem keeps_part_glean (x : GleanSt) (hb : Within 0x800000 A) (hl : s.glean.buf.length ≤ 256 → x.buf.length ≤ 256)
    (h : Keeps A a₀ s) : Keeps A a₀ { s with glean := x } :=
  ⟨h.pending, fun i => let j := h.inv i; ⟨j.regs, j.flash, j.events, j.records, j.up, hl j.pieces, j.mbox, j.lanes⟩,
    { h.rest with glean := no_of 23 hb }⟩

theorem keeps_part_lanes (x : List LaneSt) (hb : Within 0x1000000 A) (hl : s.lanes.length = 8 → x.length = 8)
    (h : Keeps A a₀ s) : Keeps A a₀ { s with lanes := x } :=
  ⟨h.pending, fun i => let j := h.inv i; ⟨j.regs, j.flash, j.events, j.records, j.up, j.pieces, j.mbox, hl j.lanes⟩,
    { h.rest with lanes := no_of 24 hb }⟩

theorem keeps_part_ledger (x : LedgerSt) (hb : Within 0x2000000 A)
    (h : Keeps A a₀ s) : Keeps A a₀ { s with ledger := x } :=
  ⟨h.pending, fun i => let j := h.inv i; ⟨j.regs, j.flash, j.events, j.records, j.up, j.pieces, j.mbox, j.lanes⟩,
    { h.rest with ledger := no_of 25 hb }⟩

theorem keeps_part_jtag (x : JtagSt) (hb : Within 0x4000000 A)
    (h : Keeps A a₀ s) : Keeps A a₀ { s with jtag := x } :=
  ⟨h.pending, fun i => let j := h.inv i; ⟨j.regs, j.flash, j.events, j.records, j.up, j.pieces, j.mbox, j.lanes⟩,
    { h.rest with jtag := no_of 26 hb }⟩

theorem keeps_part_freeCtr (x : Nat) (hb : Within 0x10000000 A)
    (h : Keeps A a₀ s) : Keeps A a₀ { s with freeCtr := x } :=
  ⟨h.pending, fun i => let j := h.inv i; ⟨j.regs, j.flash, j.events, j.records, j.up, j.pieces, j.mbox, j.lanes⟩,
    { h.rest with freeCtr := no_of 28 hb }⟩

theorem keeps_part_out (x : List Output) (hb : Within 0x20000000 A)
    (h : Keeps A a₀ s) : Keeps A a₀ { s with out := x } :=
  ⟨h.pending, fun i => let j := h.inv i; ⟨j.regs, j.flash, j.events, j.records, j.up, j.pieces, j.mbox, j.lanes⟩,
    { h.rest with out := no_of 29 hb }⟩

theorem keeps_part_span (x : SpanSt) (hb : Within 0x40000000 A)
    (h : Keeps A a₀ s) : Keeps A a₀ { s with span := x } :=
  ⟨h.pending, fun i => let j := h.inv i; ⟨j.regs, j.flash, j.events, j.records, j.up, j.pieces, j.mbox, j.lanes⟩,
    { h.rest with span := no_of 30 hb }⟩

theorem keeps_part_wrote (x : List Nat) (hb : Within 0x200000000000000000000000000000000000000000000000000 A)
    (h : Keeps A a₀ s) : Keeps A a₀ { s with wrote := x } :=
  ⟨h.pending, fun i => let j := h.inv i; ⟨j.regs, j.flash, j.events, j.records, j.up, j.pieces, j.mbox, j.lanes⟩,
    { h.rest with wrote := no_of 201 hb }⟩

theorem keeps_part_flash (x : List Host.Cell) (hb : Within 0x8000000 A) (hf : Memory.wf s.flash = true → Memory.wf x = true)
    (h : Keeps A a₀ s) : Keeps A a₀ { s with flash := x } :=
  ⟨h.pending, fun i => let j := h.inv i; ⟨j.regs, hf j.flash, j.events, j.records, j.up, j.pieces, j.mbox, j.lanes⟩,
    { h.rest with flash := no_of 27 hb }⟩

theorem keeps_flashPut (x : Nat) (b : Byte) (hb : Within 0x8000000 A) (h : Keeps A a₀ s) : Keeps A a₀ (flashPut x b s) :=
  keeps_part_flash _ hb (wf_put (d := fun _ => flashErased) x b) h

theorem keeps_flashErase (x : Nat) (hb : Within 0x8000000 A) (h : Keeps A a₀ s) : Keeps A a₀ (flashErase x s) :=
  keeps_part_flash _ hb (wf_filter (d := fun _ => flashErased) _) h

theorem keeps_flashNone (hb : Within 0x8000000 A) (h : Keeps A a₀ s) : Keeps A a₀ { s with flash := [] } :=
  keeps_part_flash _ hb (fun _ => rfl) h

theorem keeps_setSpan (sd : Side) (f : SpanSide → SpanSide) (hb : Within 0x40000000 A) (h : Keeps A a₀ s) :
    Keeps A a₀ (setSpan sd f s) := by
  cases sd <;> exact keeps_part_span _ hb h

theorem keeps_setWrote (l : List Nat) (hb : Within 0x200000000000000000000000000000000000000000000000000 A)
    (h : Keeps A a₀ s) : Keeps A a₀ (setWrote l s) := keeps_part_wrote _ hb h

theorem keeps_setAfe (f : AfeSt → AfeSt) (hb : Within 0x100000 A) (h : Keeps A a₀ s) : Keeps A a₀ (setAfe f s) :=
  keeps_part_afe _ hb h

theorem keeps_setBoot (f : BootSt → BootSt) (hb : Within 0x80 A) (h : Keeps A a₀ s) : Keeps A a₀ (setBoot f s) :=
  keeps_part_boot _ hb h

theorem keeps_setByp (f : BypassSt → BypassSt) (hb : Within 0x100 A) (h : Keeps A a₀ s) : Keeps A a₀ (setByp f s) :=
  keeps_part_byp _ hb h

theorem keeps_setRegn (f : RegSt → RegSt) (hb : Within 0x400 A) (h : Keeps A a₀ s) : Keeps A a₀ (setRegn f s) :=
  keeps_part_regn _ hb h

theorem keeps_setKey (f : KeySt → KeySt) (hb : Within 0x2000 A) (h : Keeps A a₀ s) : Keeps A a₀ (setKey f s) :=
  keeps_part_key _ hb h

theorem keeps_setPwr (f : PwrSt → PwrSt) (hb : Within 0x200000 A) (h : Keeps A a₀ s) : Keeps A a₀ (setPwr f s) :=
  keeps_part_pwr _ hb h

theorem keeps_setShow (f : ShowSt → ShowSt) (hb : Within 0x40000 A) (h : Keeps A a₀ s) : Keeps A a₀ (setShow f s) :=
  keeps_part_show_ _ hb h

theorem keeps_setFrame (f : FrameSt → FrameSt) (hb : Within 0x200 A) (h : Keeps A a₀ s) : Keeps A a₀ (setFrame f s) :=
  keeps_part_frame _ hb h

theorem keeps_setWin (f : WinSt → WinSt) (hb : Within 0x1000 A) (h : Keeps A a₀ s) : Keeps A a₀ (setWin f s) :=
  keeps_part_win _ hb h

theorem keeps_setHost (f : HostSt → HostSt) (hb : Within 0x10000 A)
    (he : s.host.events.length ≤ 64 + 65536 → (f s.host).events.length ≤ 64 + 65536)
    (hc : s.host.records.length ≤ 64 → (f s.host).records.length ≤ 64) (h : Keeps A a₀ s) : Keeps A a₀ (setHost f s) :=
  keeps_part_host _ hb he hc h

theorem keeps_setNote (f : NoteSt → NoteSt) (hb : Within 0x800 A)
    (hu : s.note.up.length ≤ 16 → (f s.note).up.length ≤ 16) (h : Keeps A a₀ s) : Keeps A a₀ (setNote f s) :=
  keeps_part_note _ hb hu h

theorem keeps_setGlean (f : GleanSt → GleanSt) (hb : Within 0x800000 A)
    (hl : s.glean.buf.length ≤ 256 → (f s.glean).buf.length ≤ 256) (h : Keeps A a₀ s) : Keeps A a₀ (setGlean f s) :=
  keeps_part_glean _ hb hl h

theorem keeps_setZwd (f : ZwdSt → ZwdSt) (hb : Within 0x400000 A)
    (hm : s.zwd.mbox.length = 256 → (f s.zwd).mbox.length = 256) (h : Keeps A a₀ s) : Keeps A a₀ (setZwd f s) :=
  keeps_part_zwd _ hb hm h

theorem keeps_setLane (n : Nat) (f : LaneSt → LaneSt) (hb : Within 0x1000000 A) (h : Keeps A a₀ s) :
    Keeps A a₀ (setLane n f s) :=
  keeps_part_lanes _ hb (fun hl => by simpa [modAt] using hl) h

/-! ### Shapes -/

theorem keeps_eachOf {α : Type} (l : List α) (f : State → α → State) (hf : ∀ s x, Keeps A a₀ s → Keeps A a₀ (f s x))
    (h : Keeps A a₀ s) : Keeps A a₀ (eachOf l f s) := by
  unfold eachOf
  induction l generalizing s with
  | nil => exact h
  | cons x l ih => exact ih (hf _ _ h)

theorem keeps_eachOf_mem {α : Type} (l : List α) (f : State → α → State)
    (hf : ∀ s x, x ∈ l → Keeps A a₀ s → Keeps A a₀ (f s x)) (h : Keeps A a₀ s) : Keeps A a₀ (eachOf l f s) := by
  unfold eachOf
  induction l generalizing s with
  | nil => exact h
  | cons x l ih => exact ih (fun s y hy => hf s y (List.mem_cons_of_mem _ hy)) (hf _ _ (List.mem_cons_self ..) h)

theorem keeps_whenB (c : Bool) (f : State → State) (hf : ∀ s, Keeps A a₀ s → Keeps A a₀ (f s)) (h : Keeps A a₀ s) :
    Keeps A a₀ (whenB c f s) := by
  unfold whenB
  split
  · exact hf _ h
  · exact h

theorem keeps_foldl {α : Type} (l : List α) (f : State → α → State) (hf : ∀ s x, Keeps A a₀ s → Keeps A a₀ (f s x))
    (h : Keeps A a₀ s) : Keeps A a₀ (l.foldl f s) := keeps_eachOf l f hf h

theorem keeps_of_snd {α : Type} {p : α × State} {x : α} {t : State} (e : p = (x, t)) (h : Keeps A a₀ p.2) : Keeps A a₀ t := by
  subst e; exact h

theorem keeps_of_fst {α : Type} {p : State × α} {x : α} {t : State} (e : p = (t, x)) (h : Keeps A a₀ p.1) : Keeps A a₀ t := by
  subst e; exact h

theorem keeps_ite {c : Prop} [Decidable c] {t u : State} (ht : c → Keeps A a₀ t) (hu : ¬c → Keeps A a₀ u) :
    Keeps A a₀ (if c then t else u) := by
  split <;> simp_all

theorem keeps_ite_snd {α : Type} {c : Prop} [Decidable c] {t u : α × State} (ht : c → Keeps A a₀ t.2)
    (hu : ¬c → Keeps A a₀ u.2) : Keeps A a₀ (if c then t else u).2 := by
  split <;> simp_all


theorem lengthTail {α : Type} {l r : List α} {x : α} {n : Nat} (h : l = x :: r) (k : l.length ≤ n) : r.length ≤ n :=
  Nat.le_trans (Nat.le_succ r.length) (by rwa [h] at k)

theorem lengthMap {α : Type} {l : List α} {n : Nat} (f : α → α) (k : l.length ≤ n) :
    (l.map f).length ≤ n := by rwa [List.length_map]

theorem lengthNil {α : Type} (n : Nat) : ([] : List α).length ≤ n := Nat.zero_le n

end Sys2Proof.Laws
end

