-- ==== Sys2Proof/Laws/KeepsOps.lean ====
section
/-! SUPPORT. `Keeps` for the operations of Machine/Ops.lean. -/

set_option linter.unusedTactic false
set_option linter.unreachableTactic false

namespace Sys2Proof.Laws

open Sys2Proof Sys2Proof.Machine Sys2Proof.Safety

variable {A : Nat} {a₀ s : State}

theorem keeps_setBt (t : Nat) (hA : Within 0x20 A) (hK : Keeps A a₀ s) : Keeps A a₀ (setBt t s) := by
  unfold setBt
  repeat' first
      | with_reducible assumption | ((with_reducible apply sub_of hA); exact rfl) | dsimp only | intro _
      | with_reducible apply keeps_part_bt

theorem keeps_setLine (t : Nat) (hA : Within 0x10 A) (hK : Keeps A a₀ s) : Keeps A a₀ (setLine t s) := by
  unfold setLine
  repeat' first
      | with_reducible assumption | ((with_reducible apply sub_of hA); exact rfl) | dsimp only | intro _
      | with_reducible apply keeps_part_line

theorem keeps_alertSet (bit : Nat) (hA : Within 0x8000000000000000000000000000000000000000000 A) (hK : Keeps A a₀ s) : Keeps A a₀ (alertSet bit s) := by
  unfold alertSet
  repeat' first
      | with_reducible assumption | ((with_reducible apply sub_of hA); exact rfl) | dsimp only
      | with_reducible apply keeps_wr | exact cov_ZWD_ALERT _ rfl (sub_of hA rfl)
      | with_reducible refine keeps_ite (fun _ => ?_) (fun _ => ?_) | split | intro _

theorem keeps_bump (i n : Nat) (hA : Within 0x140000000000000000000000000000000000000000000000000 A) (h : Keeps A a₀ s) : Keeps A a₀ (bump i n s).1 :=
  keeps_setReg _ _ (cov_counterAddr i (sub_of hA rfl)) h

theorem keeps_satMark (i : Nat) (hA : Within 0x60008000000000000000000000000000000000000000000 A) (hK : Keeps A a₀ s) : Keeps A a₀ (satMark i s).1 := by
  unfold satMark
  repeat' first
      | with_reducible assumption | ((with_reducible apply sub_of hA); exact rfl) | dsimp only
      | with_reducible apply keeps_alertSet | with_reducible apply keeps_wr
      | exact cov_LEDGER_SUMMARY _ rfl (sub_of hA rfl) | exact cov_LEDGER_GRP_SAT _ _ rfl (sub_of hA rfl)
      | with_reducible refine keeps_ite (fun _ => ?_) (fun _ => ?_)
      | with_reducible refine keeps_ite_snd (fun _ => ?_) (fun _ => ?_) | split | intro _

theorem keeps_dropEvent  (hA : Within 0x140060008000000000000000000000000000000000000010000 A) (hK : Keeps A a₀ s) : Keeps A a₀ (dropEvent s) := by
  unfold dropEvent
  repeat' first
      | with_reducible assumption | ((with_reducible apply sub_of hA); exact rfl) | exact fun h => h | dsimp only
      | with_reducible apply keeps_bump | with_reducible apply keeps_satMark
      | with_reducible refine keeps_ite (fun _ => ?_) (fun _ => ?_)
      | with_reducible refine keeps_ite_snd (fun _ => ?_) (fun _ => ?_) | split | intro _
      | with_reducible refine keeps_of_snd (by with_reducible assumption) ?_
      | with_reducible refine keeps_of_fst (by with_reducible assumption) ?_ | with_reducible apply keeps_part_host

theorem keeps_fresh (w : Nat) (hA : Within 0x10000000 A) (hK : Keeps A a₀ s) : Keeps A a₀ (fresh w s).2 := by
  unfold fresh
  repeat' first
      | with_reducible assumption | ((with_reducible apply sub_of hA); exact rfl) | dsimp only | intro _
      | with_reducible apply keeps_part_freeCtr

/-- R287: no ring is larger than 2^16. -/
theorem evtRoom_le (s : State) : evtRoom s ≤ 65536 := by
  unfold evtRoom
  dsimp only
  split
  · refine Nat.le_trans (Nat.sub_le _ _) (Nat.le_trans (Nat.pow_le_pow_right (by decide) (Nat.min_le_right _ 16)) ?_)
    decide
  · exact Nat.zero_le _

theorem keeps_raiseWith (code arg0 arg1 : Nat) (hA : Within 0x140060008000000000000000000000000000000000010010000 A) (h : Keeps A a₀ s) :
    Keeps A a₀ (raiseWith code arg0 arg1 s) := by
  unfold raiseWith
  dsimp only
  split
  · exact keeps_part_host _ (sub_of hA rfl) (fun h => by simpa using h) (fun h => h) h
  · split
    · next hl =>
      refine keeps_part_host _ (sub_of hA rfl) (fun _ => ?_) (fun h => h) (keeps_fresh _ (sub_of hA rfl) h)
      have := evtRoom_le s
      simp
      omega
    · exact keeps_dropEvent (sub_of hA rfl) h

theorem keeps_alertOfEvent (code : Nat) (hA : Within 0x8000000000000000000000000000000000000000000 A) (hK : Keeps A a₀ s) : Keeps A a₀ (alertOfEvent code s) := by
  unfold alertOfEvent
  repeat' first
      | with_reducible assumption | ((with_reducible apply sub_of hA); exact rfl) | dsimp only
      | with_reducible apply keeps_alertSet | with_reducible refine keeps_ite (fun _ => ?_) (fun _ => ?_) | split
      | intro _

theorem keeps_raise (code : Nat) (arg0 : Nat) (hA : Within 0x140060008000000000000000000000000000000000010010000 A) (hK : Keeps A a₀ s) : Keeps A a₀ (raise code arg0 s) := by
  unfold raise
  repeat' first
      | with_reducible assumption | ((with_reducible apply sub_of hA); exact rfl) | dsimp only
      | with_reducible apply keeps_alertOfEvent | with_reducible apply keeps_raiseWith | intro _

theorem keeps_countN (i : Nat) (n : Nat) (hA : Within 0x140060008000000000000000000000000000000000010010000 A) (hK : Keeps A a₀ s) : Keeps A a₀ (countN i n s) := by
  unfold countN
  repeat' first
      | with_reducible assumption | ((with_reducible apply sub_of hA); exact rfl) | dsimp only
      | with_reducible apply keeps_bump | with_reducible apply keeps_raise | with_reducible apply keeps_satMark
      | with_reducible refine keeps_ite (fun _ => ?_) (fun _ => ?_)
      | with_reducible refine keeps_ite_snd (fun _ => ?_) (fun _ => ?_) | split | intro _
      | with_reducible refine keeps_of_snd (by with_reducible assumption) ?_
      | with_reducible refine keeps_of_fst (by with_reducible assumption) ?_

theorem keeps_count (i : Nat) (hA : Within 0x140060008000000000000000000000000000000000010010000 A) (hK : Keeps A a₀ s) : Keeps A a₀ (count i s) := by
  unfold count
  repeat' first
      | with_reducible assumption | ((with_reducible apply sub_of hA); exact rfl) | dsimp only
      | with_reducible apply keeps_countN | intro _

theorem keeps_emit (o : Output) (hA : Within 0x20000000 A) (hK : Keeps A a₀ s) : Keeps A a₀ (emit o s) := by
  unfold emit
  repeat' first
      | with_reducible assumption | ((with_reducible apply sub_of hA); exact rfl) | dsimp only | intro _
      | with_reducible apply keeps_part_out

theorem keeps_changeTerm (t : TermState) (hA : Within 0x140060008000000000000000000000000000000000010010001 A) (hK : Keeps A a₀ s) : Keeps A a₀ (changeTerm t s) := by
  unfold changeTerm
  repeat' first
      | with_reducible assumption | ((with_reducible apply sub_of hA); exact rfl) | dsimp only
      | with_reducible apply keeps_alertSet | with_reducible apply keeps_raise
      | with_reducible refine keeps_ite (fun _ => ?_) (fun _ => ?_) | split | intro _
      | with_reducible apply keeps_part_term

theorem keeps_stage (x : Staged) (hA : Within 0x140060008000000000000000000000000000000000010010040 A) (hK : Keeps A a₀ s) : Keeps A a₀ (stage x s) := by
  unfold stage
  repeat' first
      | with_reducible assumption | ((with_reducible apply sub_of hA); exact rfl) | dsimp only
      | with_reducible apply keeps_count | with_reducible refine keeps_ite (fun _ => ?_) (fun _ => ?_) | split
      | intro _ | with_reducible apply keeps_part_staged

theorem keeps_boundaryWrite (off : Nat) (hA : Within 0x340060008000000000000000000000000000000000010010000 A)
    (hK : Keeps A a₀ s) : Keeps A a₀ (boundaryWrite off s) := by
  unfold boundaryWrite
  repeat' first
      | with_reducible assumption | ((with_reducible apply sub_of hA); exact rfl) | dsimp only
      | with_reducible apply keeps_count | with_reducible refine keeps_ite (fun _ => ?_) (fun _ => ?_) | split
      | intro _ | with_reducible apply keeps_part_wrote

end Sys2Proof.Laws
end

