-- ==== Sys2Proof/Laws/Regs.lean ====
section
/-! SUPPORT. Registers and fields: what a read gives after a write of the same field, of another field, of another
register; and what counting, events and alerts leave alone. -/

namespace Sys2Proof.Laws

open Sys2Proof Sys2Proof.Machine Sys2Proof.Claims

/-! ### Fields of a word -/

theorem testBit_fmask (hi lo i : Nat) (h : i < 40) : (fmask hi lo).getLsbD i = (decide (lo ≤ i) && decide (i < hi + 1)) := by
  simp only [fmask, BitVec.getLsbD_ofNat, h, decide_true, Bool.true_and, Nat.testBit_mul_two_pow, Nat.testBit_two_pow_sub_one]
  by_cases hl : lo ≤ i
  · have : i - lo < hi + 1 - lo ↔ i < hi + 1 := by omega
    simp [hl, this]
  · simp [hl]

theorem testBit_fput (w : BitVec 40) (hi lo v i : Nat) (h : i < 40) :
    (fput w hi lo v).getLsbD i =
      if lo ≤ i ∧ i < hi + 1 then v.testBit (i - lo) else w.getLsbD i := by
  simp only [fput, BitVec.getLsbD_or, BitVec.getLsbD_and, BitVec.getLsbD_not, testBit_fmask hi lo i h, h, decide_true,
    Bool.true_and, BitVec.getLsbD_ofNat, Nat.testBit_mul_two_pow, Nat.testBit_mod_two_pow]
  by_cases hl : lo ≤ i
  · by_cases hh : i < hi + 1
    · have : i - lo < hi + 1 - lo := by omega
      simp [hl, hh, this]
    · have : ¬ i - lo < hi + 1 - lo := by omega
      simp [hl, hh, this]
  · simp [hl]

theorem testBit_fget (w : BitVec 40) (hi lo i : Nat) : (fget w hi lo).testBit i = (decide (i < hi + 1 - lo) && w.getLsbD (lo + i)) := by
  simp only [fget, Nat.testBit_mod_two_pow, Nat.testBit_div_two_pow, BitVec.getLsbD,
    Nat.add_comm]

/-- A field just written. -/
theorem fget_fput_same (w : BitVec 40) (hi lo v : Nat) (h : hi < 40) :
    fget (fput w hi lo v) hi lo = v % 2 ^ (hi + 1 - lo) := by
  apply Nat.eq_of_testBit_eq
  intro i
  rw [testBit_fget, Nat.testBit_mod_two_pow]
  by_cases hi' : i < hi + 1 - lo
  · rw [testBit_fput _ _ _ _ _ (by omega)]
    have : lo ≤ lo + i ∧ lo + i < hi + 1 := by omega
    simp [hi', this]
  · simp [hi']

/-- A field beside the one written. -/
theorem fget_fput_apart (w : BitVec 40) (hi lo v hi' lo' : Nat) (h : hi' < lo ∨ hi < lo') (hh : hi' < 40) :
    fget (fput w hi lo v) hi' lo' = fget w hi' lo' := by
  apply Nat.eq_of_testBit_eq
  intro i
  rw [testBit_fget, testBit_fget]
  by_cases hi'' : i < hi' + 1 - lo'
  · rw [testBit_fput _ _ _ _ _ (by omega)]
    rw [if_neg (by omega)]
  · simp [hi'']

/-! ### Registers -/

@[simp] theorem reg_setReg_same (off : Nat) (v : Word) (s : State) : reg off (setReg off v s) = v :=
  get_put_same _ _ _ _

theorem reg_setReg_other (off off' : Nat) (v : Word) (s : State) (h : off ≠ off') :
    reg off (setReg off' v s) = reg off s := get_put_other _ _ _ _ _ _ h

theorem reg_wr_other (off : Nat) (f : Fld) (v : Nat) (s : State) (h : off ≠ f.off) : reg off (wr f v s) = reg off s :=
  reg_setReg_other _ _ _ _ h

/-- A field just written. -/
theorem rd_wr_same (f : Fld) (v : Nat) (s : State) (h : f.hi < 40) : rd f (wr f v s) = v % 2 ^ (f.hi + 1 - f.lo) := by
  simp only [rd, wr, reg_setReg_same]
  exact fget_fput_same _ _ _ _ h

/-- Another field: of another register, or beside the one written. -/
theorem rd_wr_other (f g : Fld) (v : Nat) (s : State) (h : f.off ≠ g.off ∨ f.hi < g.lo ∨ g.hi < f.lo) (hh : f.hi < 40) :
    rd f (wr g v s) = rd f s := by
  by_cases ho : f.off = g.off
  · have := h.resolve_left (fun n => n ho)
    simp only [rd, wr, ho, reg_setReg_same]
    exact fget_fput_apart _ _ _ _ _ _ this hh
  · simp only [rd, wr]
    rw [reg_setReg_other _ _ _ _ ho]

theorem rd_setReg_other (f : Fld) (off : Nat) (v : Word) (s : State) (h : f.off ≠ off) : rd f (setReg off v s) = rd f s := by
  simp only [rd, reg_setReg_other _ _ _ _ h]

theorem rd_of_reg {s t : State} (f : Fld) (h : reg f.off t = reg f.off s) : rd f t = rd f s := by simp only [rd, h]

theorem on_of_rd {s t : State} {f : Fld} (h : rd f t = rd f s) : on f t = on f s := by simp only [on, h]

/-- A field of a register outside what an operation may reach. -/
theorem Keeps.rd {A : Nat} {s t : State} (h : Keeps A s t) (f : Fld) (hf : Reach.reg A f.off = false) :
    rd f t = rd f s := rd_of_reg f (h.rest.regs _ hf)

/-- The value of a field fits its width. -/
theorem rd_lt (f : Fld) (s : State) : rd f s < 2 ^ (f.hi + 1 - f.lo) := Nat.mod_lt _ (Nat.two_pow_pos _)

/-! ### Counting, events, alerts -/

/-- What counting may reach. -/
def countingSet : Nat := 0x140060008000000000000000000000000000000000010010000

theorem counting_reg (off : Nat) (h : bookkeeping off = false) : Reach.reg countingSet off = false := by
  have hz : ∀ l : List Reach.Row, ∀ i, (∀ k r, l[k]? = some r → countingSet.testBit (i + k) = true → r.has off = false) →
      Reach.anyRow l i countingSet off = false := by
    intro l
    induction l with
    | nil => intros; rfl
    | cons x l ih =>
      intro i hl
      simp only [Reach.anyRow, Bool.or_eq_false_iff]
      refine ⟨?_, ih (i + 1) (fun k r hk hb => hl (k + 1) r hk (by rw [← hb]; congr 1; omega))⟩
      cases hb : countingSet.testBit i with
      | false => rfl
      | true => simpa using hl 0 x rfl hb
  simp only [bookkeeping, Bool.or_eq_false_iff, Bool.and_eq_false_iff, beq_eq_false_iff_ne, decide_eq_false_iff_not] at h
  have hs : ∀ k : Fin 169, countingSet.testBit (32 + k) = true → k ∈ [(139 : Fin 169), (153 : Fin 169), (154 : Fin 169), (166 : Fin 169), (168 : Fin 169)] := by
    decide +kernel
  have hn : Reach.rows.length = 169 := by decide +kernel
  simp only [Reach.reg, Bool.or_eq_false_iff]
  refine ⟨by decide +kernel, hz _ _ (fun k r hk hb => ?_)⟩
  have hlt : k < 169 := by
    have := (List.getElem?_eq_some_iff.mp hk).1
    omega
  have hm := hs ⟨k, hlt⟩ hb
  simp only [List.mem_cons, List.not_mem_nil, or_false, Fin.ext_iff] at hm
  have hcl : r.has off = false := by
    obtain ⟨⟨h1, h2⟩, h3⟩ := h
    have hz : off ≠ 0x7010 := h1
    rcases hm with hm | hm | hm | hm | hm <;> (
      have hk' := hk
      simp only [hm] at hk'
      obtain rfl : _ = r := Option.some.inj hk'
      simp only [Reach.Row.has, Bool.and_eq_false_iff, decide_eq_false_iff_not, beq_eq_false_iff_ne]
      omega)
  exact hcl

theorem keeps_counting_reg {s t : State} (h : Keeps countingSet s t) (off : Nat) (ho : bookkeeping off = false) :
    reg off t = reg off s := h.rest.regs _ (counting_reg _ ho)

theorem keeps_counting_rd {s t : State} (h : Keeps countingSet s t) (f : Fld) (hf : bookkeeping f.off = false) :
    rd f t = rd f s := rd_of_reg f (keeps_counting_reg h _ hf)

theorem counting_countN (i n : Nat) (s : State) : Keeps countingSet s (countN i n s) := keeps_countN _ _ rfl (Keeps.refl _ s)
theorem counting_count (i : Nat) (s : State) : Keeps countingSet s (count i s) := keeps_count _ rfl (Keeps.refl _ s)
theorem counting_raise (c a : Nat) (s : State) : Keeps countingSet s (raise c a s) := keeps_raise _ _ rfl (Keeps.refl _ s)

theorem rd_countN (f : Fld) (i n : Nat) (s : State) (h : bookkeeping f.off = false) : rd f (countN i n s) = rd f s :=
  keeps_counting_rd (counting_countN i n s) f h
theorem rd_count (f : Fld) (i : Nat) (s : State) (h : bookkeeping f.off = false) : rd f (count i s) = rd f s :=
  keeps_counting_rd (counting_count i s) f h
theorem rd_raise (f : Fld) (c a : Nat) (s : State) (h : bookkeeping f.off = false) : rd f (raise c a s) = rd f s :=
  keeps_counting_rd (counting_raise c a s) f h
theorem reg_countN (off i n : Nat) (s : State) (h : bookkeeping off = false) : reg off (countN i n s) = reg off s :=
  keeps_counting_reg (counting_countN i n s) off h
theorem reg_count (off i : Nat) (s : State) (h : bookkeeping off = false) : reg off (count i s) = reg off s :=
  keeps_counting_reg (counting_count i s) off h
theorem reg_raise (off c a : Nat) (s : State) (h : bookkeeping off = false) : reg off (raise c a s) = reg off s :=
  keeps_counting_reg (counting_raise c a s) off h

end Sys2Proof.Laws
end

