-- ==== Sys2Proof/Laws/State.lean ====
section
/-! SUPPORT. What each update of the state leaves alone: one lemma per part and update. -/

namespace Sys2Proof.Laws

open Sys2Proof Sys2Proof.Machine

@[simp] theorem setAfe_term (f : AfeSt → AfeSt) (s : State) : (setAfe f s).term = s.term := rfl
@[simp] theorem setAfe_pcie (f : AfeSt → AfeSt) (s : State) : (setAfe f s).pcie = s.pcie := rfl
@[simp] theorem setAfe_zwirdo (f : AfeSt → AfeSt) (s : State) : (setAfe f s).zwirdo = s.zwirdo := rfl
@[simp] theorem setAfe_mgmt (f : AfeSt → AfeSt) (s : State) : (setAfe f s).mgmt = s.mgmt := rfl
@[simp] theorem setAfe_line (f : AfeSt → AfeSt) (s : State) : (setAfe f s).line = s.line := rfl
@[simp] theorem setAfe_bt (f : AfeSt → AfeSt) (s : State) : (setAfe f s).bt = s.bt := rfl
@[simp] theorem setAfe_staged (f : AfeSt → AfeSt) (s : State) : (setAfe f s).staged = s.staged := rfl
@[simp] theorem setAfe_wrote (f : AfeSt → AfeSt) (s : State) : (setAfe f s).wrote = s.wrote := rfl
@[simp] theorem setAfe_boot (f : AfeSt → AfeSt) (s : State) : (setAfe f s).boot = s.boot := rfl
@[simp] theorem setAfe_byp (f : AfeSt → AfeSt) (s : State) : (setAfe f s).byp = s.byp := rfl
@[simp] theorem setAfe_span (f : AfeSt → AfeSt) (s : State) : (setAfe f s).span = s.span := rfl
@[simp] theorem setAfe_frame (f : AfeSt → AfeSt) (s : State) : (setAfe f s).frame = s.frame := rfl
@[simp] theorem setAfe_regn (f : AfeSt → AfeSt) (s : State) : (setAfe f s).regn = s.regn := rfl
@[simp] theorem setAfe_note (f : AfeSt → AfeSt) (s : State) : (setAfe f s).note = s.note := rfl
@[simp] theorem setAfe_win (f : AfeSt → AfeSt) (s : State) : (setAfe f s).win = s.win := rfl
@[simp] theorem setAfe_key (f : AfeSt → AfeSt) (s : State) : (setAfe f s).key = s.key := rfl
@[simp] theorem setAfe_th (f : AfeSt → AfeSt) (s : State) : (setAfe f s).th = s.th := rfl
@[simp] theorem setAfe_q (f : AfeSt → AfeSt) (s : State) : (setAfe f s).q = s.q := rfl
@[simp] theorem setAfe_host (f : AfeSt → AfeSt) (s : State) : (setAfe f s).host = s.host := rfl
@[simp] theorem setAfe_eth (f : AfeSt → AfeSt) (s : State) : (setAfe f s).eth = s.eth := rfl
@[simp] theorem setAfe_show_ (f : AfeSt → AfeSt) (s : State) : (setAfe f s).show_ = s.show_ := rfl
@[simp] theorem setAfe_mot (f : AfeSt → AfeSt) (s : State) : (setAfe f s).mot = s.mot := rfl
@[simp] theorem setAfe_pwr (f : AfeSt → AfeSt) (s : State) : (setAfe f s).pwr = s.pwr := rfl
@[simp] theorem setAfe_zwd (f : AfeSt → AfeSt) (s : State) : (setAfe f s).zwd = s.zwd := rfl
@[simp] theorem setAfe_glean (f : AfeSt → AfeSt) (s : State) : (setAfe f s).glean = s.glean := rfl
@[simp] theorem setAfe_lanes (f : AfeSt → AfeSt) (s : State) : (setAfe f s).lanes = s.lanes := rfl
@[simp] theorem setAfe_ledger (f : AfeSt → AfeSt) (s : State) : (setAfe f s).ledger = s.ledger := rfl
@[simp] theorem setAfe_jtag (f : AfeSt → AfeSt) (s : State) : (setAfe f s).jtag = s.jtag := rfl
@[simp] theorem setAfe_flash (f : AfeSt → AfeSt) (s : State) : (setAfe f s).flash = s.flash := rfl
@[simp] theorem setAfe_freeCtr (f : AfeSt → AfeSt) (s : State) : (setAfe f s).freeCtr = s.freeCtr := rfl
@[simp] theorem setAfe_out (f : AfeSt → AfeSt) (s : State) : (setAfe f s).out = s.out := rfl
@[simp] theorem setAfe_pending (f : AfeSt → AfeSt) (s : State) : (setAfe f s).pending = s.pending := rfl
@[simp] theorem setAfe_afe (f : AfeSt → AfeSt) (s : State) : (setAfe f s).afe = f s.afe := rfl
@[simp] theorem reg_setAfe (off : Nat) (f : AfeSt → AfeSt) (s : State) : reg off (setAfe f s) = reg off s := rfl
@[simp] theorem rd_setAfe (g : Fld) (f : AfeSt → AfeSt) (s : State) : rd g (setAfe f s) = rd g s := rfl
@[simp] theorem on_setAfe (g : Fld) (f : AfeSt → AfeSt) (s : State) : on g (setAfe f s) = on g s := rfl

@[simp] theorem setBoot_term (f : BootSt → BootSt) (s : State) : (setBoot f s).term = s.term := rfl
@[simp] theorem setBoot_pcie (f : BootSt → BootSt) (s : State) : (setBoot f s).pcie = s.pcie := rfl
@[simp] theorem setBoot_zwirdo (f : BootSt → BootSt) (s : State) : (setBoot f s).zwirdo = s.zwirdo := rfl
@[simp] theorem setBoot_mgmt (f : BootSt → BootSt) (s : State) : (setBoot f s).mgmt = s.mgmt := rfl
@[simp] theorem setBoot_line (f : BootSt → BootSt) (s : State) : (setBoot f s).line = s.line := rfl
@[simp] theorem setBoot_bt (f : BootSt → BootSt) (s : State) : (setBoot f s).bt = s.bt := rfl
@[simp] theorem setBoot_staged (f : BootSt → BootSt) (s : State) : (setBoot f s).staged = s.staged := rfl
@[simp] theorem setBoot_wrote (f : BootSt → BootSt) (s : State) : (setBoot f s).wrote = s.wrote := rfl
@[simp] theorem setBoot_byp (f : BootSt → BootSt) (s : State) : (setBoot f s).byp = s.byp := rfl
@[simp] theorem setBoot_span (f : BootSt → BootSt) (s : State) : (setBoot f s).span = s.span := rfl
@[simp] theorem setBoot_frame (f : BootSt → BootSt) (s : State) : (setBoot f s).frame = s.frame := rfl
@[simp] theorem setBoot_regn (f : BootSt → BootSt) (s : State) : (setBoot f s).regn = s.regn := rfl
@[simp] theorem setBoot_note (f : BootSt → BootSt) (s : State) : (setBoot f s).note = s.note := rfl
@[simp] theorem setBoot_win (f : BootSt → BootSt) (s : State) : (setBoot f s).win = s.win := rfl
@[simp] theorem setBoot_key (f : BootSt → BootSt) (s : State) : (setBoot f s).key = s.key := rfl
@[simp] theorem setBoot_th (f : BootSt → BootSt) (s : State) : (setBoot f s).th = s.th := rfl
@[simp] theorem setBoot_q (f : BootSt → BootSt) (s : State) : (setBoot f s).q = s.q := rfl
@[simp] theorem setBoot_host (f : BootSt → BootSt) (s : State) : (setBoot f s).host = s.host := rfl
@[simp] theorem setBoot_eth (f : BootSt → BootSt) (s : State) : (setBoot f s).eth = s.eth := rfl
@[simp] theorem setBoot_show_ (f : BootSt → BootSt) (s : State) : (setBoot f s).show_ = s.show_ := rfl
@[simp] theorem setBoot_mot (f : BootSt → BootSt) (s : State) : (setBoot f s).mot = s.mot := rfl
@[simp] theorem setBoot_afe (f : BootSt → BootSt) (s : State) : (setBoot f s).afe = s.afe := rfl
@[simp] theorem setBoot_pwr (f : BootSt → BootSt) (s : State) : (setBoot f s).pwr = s.pwr := rfl
@[simp] theorem setBoot_zwd (f : BootSt → BootSt) (s : State) : (setBoot f s).zwd = s.zwd := rfl
@[simp] theorem setBoot_glean (f : BootSt → BootSt) (s : State) : (setBoot f s).glean = s.glean := rfl
@[simp] theorem setBoot_lanes (f : BootSt → BootSt) (s : State) : (setBoot f s).lanes = s.lanes := rfl
@[simp] theorem setBoot_ledger (f : BootSt → BootSt) (s : State) : (setBoot f s).ledger = s.ledger := rfl
@[simp] theorem setBoot_jtag (f : BootSt → BootSt) (s : State) : (setBoot f s).jtag = s.jtag := rfl
@[simp] theorem setBoot_flash (f : BootSt → BootSt) (s : State) : (setBoot f s).flash = s.flash := rfl
@[simp] theorem setBoot_freeCtr (f : BootSt → BootSt) (s : State) : (setBoot f s).freeCtr = s.freeCtr := rfl
@[simp] theorem setBoot_out (f : BootSt → BootSt) (s : State) : (setBoot f s).out = s.out := rfl
@[simp] theorem setBoot_pending (f : BootSt → BootSt) (s : State) : (setBoot f s).pending = s.pending := rfl
@[simp] theorem setBoot_boot (f : BootSt → BootSt) (s : State) : (setBoot f s).boot = f s.boot := rfl
@[simp] theorem reg_setBoot (off : Nat) (f : BootSt → BootSt) (s : State) : reg off (setBoot f s) = reg off s := rfl
@[simp] theorem rd_setBoot (g : Fld) (f : BootSt → BootSt) (s : State) : rd g (setBoot f s) = rd g s := rfl
@[simp] theorem on_setBoot (g : Fld) (f : BootSt → BootSt) (s : State) : on g (setBoot f s) = on g s := rfl

@[simp] theorem setByp_term (f : BypassSt → BypassSt) (s : State) : (setByp f s).term = s.term := rfl
@[simp] theorem setByp_pcie (f : BypassSt → BypassSt) (s : State) : (setByp f s).pcie = s.pcie := rfl
@[simp] theorem setByp_zwirdo (f : BypassSt → BypassSt) (s : State) : (setByp f s).zwirdo = s.zwirdo := rfl
@[simp] theorem setByp_mgmt (f : BypassSt → BypassSt) (s : State) : (setByp f s).mgmt = s.mgmt := rfl
@[simp] theorem setByp_line (f : BypassSt → BypassSt) (s : State) : (setByp f s).line = s.line := rfl
@[simp] theorem setByp_bt (f : BypassSt → BypassSt) (s : State) : (setByp f s).bt = s.bt := rfl
@[simp] theorem setByp_staged (f : BypassSt → BypassSt) (s : State) : (setByp f s).staged = s.staged := rfl
@[simp] theorem setByp_wrote (f : BypassSt → BypassSt) (s : State) : (setByp f s).wrote = s.wrote := rfl
@[simp] theorem setByp_boot (f : BypassSt → BypassSt) (s : State) : (setByp f s).boot = s.boot := rfl
@[simp] theorem setByp_span (f : BypassSt → BypassSt) (s : State) : (setByp f s).span = s.span := rfl
@[simp] theorem setByp_frame (f : BypassSt → BypassSt) (s : State) : (setByp f s).frame = s.frame := rfl
@[simp] theorem setByp_regn (f : BypassSt → BypassSt) (s : State) : (setByp f s).regn = s.regn := rfl
@[simp] theorem setByp_note (f : BypassSt → BypassSt) (s : State) : (setByp f s).note = s.note := rfl
@[simp] theorem setByp_win (f : BypassSt → BypassSt) (s : State) : (setByp f s).win = s.win := rfl
@[simp] theorem setByp_key (f : BypassSt → BypassSt) (s : State) : (setByp f s).key = s.key := rfl
@[simp] theorem setByp_th (f : BypassSt → BypassSt) (s : State) : (setByp f s).th = s.th := rfl
@[simp] theorem setByp_q (f : BypassSt → BypassSt) (s : State) : (setByp f s).q = s.q := rfl
@[simp] theorem setByp_host (f : BypassSt → BypassSt) (s : State) : (setByp f s).host = s.host := rfl
@[simp] theorem setByp_eth (f : BypassSt → BypassSt) (s : State) : (setByp f s).eth = s.eth := rfl
@[simp] theorem setByp_show_ (f : BypassSt → BypassSt) (s : State) : (setByp f s).show_ = s.show_ := rfl
@[simp] theorem setByp_mot (f : BypassSt → BypassSt) (s : State) : (setByp f s).mot = s.mot := rfl
@[simp] theorem setByp_afe (f : BypassSt → BypassSt) (s : State) : (setByp f s).afe = s.afe := rfl
@[simp] theorem setByp_pwr (f : BypassSt → BypassSt) (s : State) : (setByp f s).pwr = s.pwr := rfl
@[simp] theorem setByp_zwd (f : BypassSt → BypassSt) (s : State) : (setByp f s).zwd = s.zwd := rfl
@[simp] theorem setByp_glean (f : BypassSt → BypassSt) (s : State) : (setByp f s).glean = s.glean := rfl
@[simp] theorem setByp_lanes (f : BypassSt → BypassSt) (s : State) : (setByp f s).lanes = s.lanes := rfl
@[simp] theorem setByp_ledger (f : BypassSt → BypassSt) (s : State) : (setByp f s).ledger = s.ledger := rfl
@[simp] theorem setByp_jtag (f : BypassSt → BypassSt) (s : State) : (setByp f s).jtag = s.jtag := rfl
@[simp] theorem setByp_flash (f : BypassSt → BypassSt) (s : State) : (setByp f s).flash = s.flash := rfl
@[simp] theorem setByp_freeCtr (f : BypassSt → BypassSt) (s : State) : (setByp f s).freeCtr = s.freeCtr := rfl
@[simp] theorem setByp_out (f : BypassSt → BypassSt) (s : State) : (setByp f s).out = s.out := rfl
@[simp] theorem setByp_pending (f : BypassSt → BypassSt) (s : State) : (setByp f s).pending = s.pending := rfl
@[simp] theorem setByp_byp (f : BypassSt → BypassSt) (s : State) : (setByp f s).byp = f s.byp := rfl
@[simp] theorem reg_setByp (off : Nat) (f : BypassSt → BypassSt) (s : State) : reg off (setByp f s) = reg off s := rfl
@[simp] theorem rd_setByp (g : Fld) (f : BypassSt → BypassSt) (s : State) : rd g (setByp f s) = rd g s := rfl
@[simp] theorem on_setByp (g : Fld) (f : BypassSt → BypassSt) (s : State) : on g (setByp f s) = on g s := rfl

@[simp] theorem setRegn_term (f : RegSt → RegSt) (s : State) : (setRegn f s).term = s.term := rfl
@[simp] theorem setRegn_pcie (f : RegSt → RegSt) (s : State) : (setRegn f s).pcie = s.pcie := rfl
@[simp] theorem setRegn_zwirdo (f : RegSt → RegSt) (s : State) : (setRegn f s).zwirdo = s.zwirdo := rfl
@[simp] theorem setRegn_mgmt (f : RegSt → RegSt) (s : State) : (setRegn f s).mgmt = s.mgmt := rfl
@[simp] theorem setRegn_line (f : RegSt → RegSt) (s : State) : (setRegn f s).line = s.line := rfl
@[simp] theorem setRegn_bt (f : RegSt → RegSt) (s : State) : (setRegn f s).bt = s.bt := rfl
@[simp] theorem setRegn_staged (f : RegSt → RegSt) (s : State) : (setRegn f s).staged = s.staged := rfl
@[simp] theorem setRegn_wrote (f : RegSt → RegSt) (s : State) : (setRegn f s).wrote = s.wrote := rfl
@[simp] theorem setRegn_boot (f : RegSt → RegSt) (s : State) : (setRegn f s).boot = s.boot := rfl
@[simp] theorem setRegn_byp (f : RegSt → RegSt) (s : State) : (setRegn f s).byp = s.byp := rfl
@[simp] theorem setRegn_span (f : RegSt → RegSt) (s : State) : (setRegn f s).span = s.span := rfl
@[simp] theorem setRegn_frame (f : RegSt → RegSt) (s : State) : (setRegn f s).frame = s.frame := rfl
@[simp] theorem setRegn_note (f : RegSt → RegSt) (s : State) : (setRegn f s).note = s.note := rfl
@[simp] theorem setRegn_win (f : RegSt → RegSt) (s : State) : (setRegn f s).win = s.win := rfl
@[simp] theorem setRegn_key (f : RegSt → RegSt) (s : State) : (setRegn f s).key = s.key := rfl
@[simp] theorem setRegn_th (f : RegSt → RegSt) (s : State) : (setRegn f s).th = s.th := rfl
@[simp] theorem setRegn_q (f : RegSt → RegSt) (s : State) : (setRegn f s).q = s.q := rfl
@[simp] theorem setRegn_host (f : RegSt → RegSt) (s : State) : (setRegn f s).host = s.host := rfl
@[simp] theorem setRegn_eth (f : RegSt → RegSt) (s : State) : (setRegn f s).eth = s.eth := rfl
@[simp] theorem setRegn_show_ (f : RegSt → RegSt) (s : State) : (setRegn f s).show_ = s.show_ := rfl
@[simp] theorem setRegn_mot (f : RegSt → RegSt) (s : State) : (setRegn f s).mot = s.mot := rfl
@[simp] theorem setRegn_afe (f : RegSt → RegSt) (s : State) : (setRegn f s).afe = s.afe := rfl
@[simp] theorem setRegn_pwr (f : RegSt → RegSt) (s : State) : (setRegn f s).pwr = s.pwr := rfl
@[simp] theorem setRegn_zwd (f : RegSt → RegSt) (s : State) : (setRegn f s).zwd = s.zwd := rfl
@[simp] theorem setRegn_glean (f : RegSt → RegSt) (s : State) : (setRegn f s).glean = s.glean := rfl
@[simp] theorem setRegn_lanes (f : RegSt → RegSt) (s : State) : (setRegn f s).lanes = s.lanes := rfl
@[simp] theorem setRegn_ledger (f : RegSt → RegSt) (s : State) : (setRegn f s).ledger = s.ledger := rfl
@[simp] theorem setRegn_jtag (f : RegSt → RegSt) (s : State) : (setRegn f s).jtag = s.jtag := rfl
@[simp] theorem setRegn_flash (f : RegSt → RegSt) (s : State) : (setRegn f s).flash = s.flash := rfl
@[simp] theorem setRegn_freeCtr (f : RegSt → RegSt) (s : State) : (setRegn f s).freeCtr = s.freeCtr := rfl
@[simp] theorem setRegn_out (f : RegSt → RegSt) (s : State) : (setRegn f s).out = s.out := rfl
@[simp] theorem setRegn_pending (f : RegSt → RegSt) (s : State) : (setRegn f s).pending = s.pending := rfl
@[simp] theorem setRegn_regn (f : RegSt → RegSt) (s : State) : (setRegn f s).regn = f s.regn := rfl
@[simp] theorem reg_setRegn (off : Nat) (f : RegSt → RegSt) (s : State) : reg off (setRegn f s) = reg off s := rfl
@[simp] theorem rd_setRegn (g : Fld) (f : RegSt → RegSt) (s : State) : rd g (setRegn f s) = rd g s := rfl
@[simp] theorem on_setRegn (g : Fld) (f : RegSt → RegSt) (s : State) : on g (setRegn f s) = on g s := rfl

@[simp] theorem setKey_term (f : KeySt → KeySt) (s : State) : (setKey f s).term = s.term := rfl
@[simp] theorem setKey_pcie (f : KeySt → KeySt) (s : State) : (setKey f s).pcie = s.pcie := rfl
@[simp] theorem setKey_zwirdo (f : KeySt → KeySt) (s : State) : (setKey f s).zwirdo = s.zwirdo := rfl
@[simp] theorem setKey_mgmt (f : KeySt → KeySt) (s : State) : (setKey f s).mgmt = s.mgmt := rfl
@[simp] theorem setKey_line (f : KeySt → KeySt) (s : State) : (setKey f s).line = s.line := rfl
@[simp] theorem setKey_bt (f : KeySt → KeySt) (s : State) : (setKey f s).bt = s.bt := rfl
@[simp] theorem setKey_staged (f : KeySt → KeySt) (s : State) : (setKey f s).staged = s.staged := rfl
@[simp] theorem setKey_wrote (f : KeySt → KeySt) (s : State) : (setKey f s).wrote = s.wrote := rfl
@[simp] theorem setKey_boot (f : KeySt → KeySt) (s : State) : (setKey f s).boot = s.boot := rfl
@[simp] theorem setKey_byp (f : KeySt → KeySt) (s : State) : (setKey f s).byp = s.byp := rfl
@[simp] theorem setKey_span (f : KeySt → KeySt) (s : State) : (setKey f s).span = s.span := rfl
@[simp] theorem setKey_frame (f : KeySt → KeySt) (s : State) : (setKey f s).frame = s.frame := rfl
@[simp] theorem setKey_regn (f : KeySt → KeySt) (s : State) : (setKey f s).regn = s.regn := rfl
@[simp] theorem setKey_note (f : KeySt → KeySt) (s : State) : (setKey f s).note = s.note := rfl
@[simp] theorem setKey_win (f : KeySt → KeySt) (s : State) : (setKey f s).win = s.win := rfl
@[simp] theorem setKey_th (f : KeySt → KeySt) (s : State) : (setKey f s).th = s.th := rfl
@[simp] theorem setKey_q (f : KeySt → KeySt) (s : State) : (setKey f s).q = s.q := rfl
@[simp] theorem setKey_host (f : KeySt → KeySt) (s : State) : (setKey f s).host = s.host := rfl
@[simp] theorem setKey_eth (f : KeySt → KeySt) (s : State) : (setKey f s).eth = s.eth := rfl
@[simp] theorem setKey_show_ (f : KeySt → KeySt) (s : State) : (setKey f s).show_ = s.show_ := rfl
@[simp] theorem setKey_mot (f : KeySt → KeySt) (s : State) : (setKey f s).mot = s.mot := rfl
@[simp] theorem setKey_afe (f : KeySt → KeySt) (s : State) : (setKey f s).afe = s.afe := rfl
@[simp] theorem setKey_pwr (f : KeySt → KeySt) (s : State) : (setKey f s).pwr = s.pwr := rfl
@[simp] theorem setKey_zwd (f : KeySt → KeySt) (s : State) : (setKey f s).zwd = s.zwd := rfl
@[simp] theorem setKey_glean (f : KeySt → KeySt) (s : State) : (setKey f s).glean = s.glean := rfl
@[simp] theorem setKey_lanes (f : KeySt → KeySt) (s : State) : (setKey f s).lanes = s.lanes := rfl
@[simp] theorem setKey_ledger (f : KeySt → KeySt) (s : State) : (setKey f s).ledger = s.ledger := rfl
@[simp] theorem setKey_jtag (f : KeySt → KeySt) (s : State) : (setKey f s).jtag = s.jtag := rfl
@[simp] theorem setKey_flash (f : KeySt → KeySt) (s : State) : (setKey f s).flash = s.flash := rfl
@[simp] theorem setKey_freeCtr (f : KeySt → KeySt) (s : State) : (setKey f s).freeCtr = s.freeCtr := rfl
@[simp] theorem setKey_out (f : KeySt → KeySt) (s : State) : (setKey f s).out = s.out := rfl
@[simp] theorem setKey_pending (f : KeySt → KeySt) (s : State) : (setKey f s).pending = s.pending := rfl
@[simp] theorem setKey_key (f : KeySt → KeySt) (s : State) : (setKey f s).key = f s.key := rfl
@[simp] theorem reg_setKey (off : Nat) (f : KeySt → KeySt) (s : State) : reg off (setKey f s) = reg off s := rfl
@[simp] theorem rd_setKey (g : Fld) (f : KeySt → KeySt) (s : State) : rd g (setKey f s) = rd g s := rfl
@[simp] theorem on_setKey (g : Fld) (f : KeySt → KeySt) (s : State) : on g (setKey f s) = on g s := rfl

@[simp] theorem setPwr_term (f : PwrSt → PwrSt) (s : State) : (setPwr f s).term = s.term := rfl
@[simp] theorem setPwr_pcie (f : PwrSt → PwrSt) (s : State) : (setPwr f s).pcie = s.pcie := rfl
@[simp] theorem setPwr_zwirdo (f : PwrSt → PwrSt) (s : State) : (setPwr f s).zwirdo = s.zwirdo := rfl
@[simp] theorem setPwr_mgmt (f : PwrSt → PwrSt) (s : State) : (setPwr f s).mgmt = s.mgmt := rfl
@[simp] theorem setPwr_line (f : PwrSt → PwrSt) (s : State) : (setPwr f s).line = s.line := rfl
@[simp] theorem setPwr_bt (f : PwrSt → PwrSt) (s : State) : (setPwr f s).bt = s.bt := rfl
@[simp] theorem setPwr_staged (f : PwrSt → PwrSt) (s : State) : (setPwr f s).staged = s.staged := rfl
@[simp] theorem setPwr_wrote (f : PwrSt → PwrSt) (s : State) : (setPwr f s).wrote = s.wrote := rfl
@[simp] theorem setPwr_boot (f : PwrSt → PwrSt) (s : State) : (setPwr f s).boot = s.boot := rfl
@[simp] theorem setPwr_byp (f : PwrSt → PwrSt) (s : State) : (setPwr f s).byp = s.byp := rfl
@[simp] theorem setPwr_span (f : PwrSt → PwrSt) (s : State) : (setPwr f s).span = s.span := rfl
@[simp] theorem setPwr_frame (f : PwrSt → PwrSt) (s : State) : (setPwr f s).frame = s.frame := rfl
@[simp] theorem setPwr_regn (f : PwrSt → PwrSt) (s : State) : (setPwr f s).regn = s.regn := rfl
@[simp] theorem setPwr_note (f : PwrSt → PwrSt) (s : State) : (setPwr f s).note = s.note := rfl
@[simp] theorem setPwr_win (f : PwrSt → PwrSt) (s : State) : (setPwr f s).win = s.win := rfl
@[simp] theorem setPwr_key (f : PwrSt → PwrSt) (s : State) : (setPwr f s).key = s.key := rfl
@[simp] theorem setPwr_th (f : PwrSt → PwrSt) (s : State) : (setPwr f s).th = s.th := rfl
@[simp] theorem setPwr_q (f : PwrSt → PwrSt) (s : State) : (setPwr f s).q = s.q := rfl
@[simp] theorem setPwr_host (f : PwrSt → PwrSt) (s : State) : (setPwr f s).host = s.host := rfl
@[simp] theorem setPwr_eth (f : PwrSt → PwrSt) (s : State) : (setPwr f s).eth = s.eth := rfl
@[simp] theorem setPwr_show_ (f : PwrSt → PwrSt) (s : State) : (setPwr f s).show_ = s.show_ := rfl
@[simp] theorem setPwr_mot (f : PwrSt → PwrSt) (s : State) : (setPwr f s).mot = s.mot := rfl
@[simp] theorem setPwr_afe (f : PwrSt → PwrSt) (s : State) : (setPwr f s).afe = s.afe := rfl
@[simp] theorem setPwr_zwd (f : PwrSt → PwrSt) (s : State) : (setPwr f s).zwd = s.zwd := rfl
@[simp] theorem setPwr_glean (f : PwrSt → PwrSt) (s : State) : (setPwr f s).glean = s.glean := rfl
@[simp] theorem setPwr_lanes (f : PwrSt → PwrSt) (s : State) : (setPwr f s).lanes = s.lanes := rfl
@[simp] theorem setPwr_ledger (f : PwrSt → PwrSt) (s : State) : (setPwr f s).ledger = s.ledger := rfl
@[simp] theorem setPwr_jtag (f : PwrSt → PwrSt) (s : State) : (setPwr f s).jtag = s.jtag := rfl
@[simp] theorem setPwr_flash (f : PwrSt → PwrSt) (s : State) : (setPwr f s).flash = s.flash := rfl
@[simp] theorem setPwr_freeCtr (f : PwrSt → PwrSt) (s : State) : (setPwr f s).freeCtr = s.freeCtr := rfl
@[simp] theorem setPwr_out (f : PwrSt → PwrSt) (s : State) : (setPwr f s).out = s.out := rfl
@[simp] theorem setPwr_pending (f : PwrSt → PwrSt) (s : State) : (setPwr f s).pending = s.pending := rfl
@[simp] theorem setPwr_pwr (f : PwrSt → PwrSt) (s : State) : (setPwr f s).pwr = f s.pwr := rfl
@[simp] theorem reg_setPwr (off : Nat) (f : PwrSt → PwrSt) (s : State) : reg off (setPwr f s) = reg off s := rfl
@[simp] theorem rd_setPwr (g : Fld) (f : PwrSt → PwrSt) (s : State) : rd g (setPwr f s) = rd g s := rfl
@[simp] theorem on_setPwr (g : Fld) (f : PwrSt → PwrSt) (s : State) : on g (setPwr f s) = on g s := rfl

@[simp] theorem setShow_term (f : ShowSt → ShowSt) (s : State) : (setShow f s).term = s.term := rfl
@[simp] theorem setShow_pcie (f : ShowSt → ShowSt) (s : State) : (setShow f s).pcie = s.pcie := rfl
@[simp] theorem setShow_zwirdo (f : ShowSt → ShowSt) (s : State) : (setShow f s).zwirdo = s.zwirdo := rfl
@[simp] theorem setShow_mgmt (f : ShowSt → ShowSt) (s : State) : (setShow f s).mgmt = s.mgmt := rfl
@[simp] theorem setShow_line (f : ShowSt → ShowSt) (s : State) : (setShow f s).line = s.line := rfl
@[simp] theorem setShow_bt (f : ShowSt → ShowSt) (s : State) : (setShow f s).bt = s.bt := rfl
@[simp] theorem setShow_staged (f : ShowSt → ShowSt) (s : State) : (setShow f s).staged = s.staged := rfl
@[simp] theorem setShow_wrote (f : ShowSt → ShowSt) (s : State) : (setShow f s).wrote = s.wrote := rfl
@[simp] theorem setShow_boot (f : ShowSt → ShowSt) (s : State) : (setShow f s).boot = s.boot := rfl
@[simp] theorem setShow_byp (f : ShowSt → ShowSt) (s : State) : (setShow f s).byp = s.byp := rfl
@[simp] theorem setShow_span (f : ShowSt → ShowSt) (s : State) : (setShow f s).span = s.span := rfl
@[simp] theorem setShow_frame (f : ShowSt → ShowSt) (s : State) : (setShow f s).frame = s.frame := rfl
@[simp] theorem setShow_regn (f : ShowSt → ShowSt) (s : State) : (setShow f s).regn = s.regn := rfl
@[simp] theorem setShow_note (f : ShowSt → ShowSt) (s : State) : (setShow f s).note = s.note := rfl
@[simp] theorem setShow_win (f : ShowSt → ShowSt) (s : State) : (setShow f s).win = s.win := rfl
@[simp] theorem setShow_key (f : ShowSt → ShowSt) (s : State) : (setShow f s).key = s.key := rfl
@[simp] theorem setShow_th (f : ShowSt → ShowSt) (s : State) : (setShow f s).th = s.th := rfl
@[simp] theorem setShow_q (f : ShowSt → ShowSt) (s : State) : (setShow f s).q = s.q := rfl
@[simp] theorem setShow_host (f : ShowSt → ShowSt) (s : State) : (setShow f s).host = s.host := rfl
@[simp] theorem setShow_eth (f : ShowSt → ShowSt) (s : State) : (setShow f s).eth = s.eth := rfl
@[simp] theorem setShow_mot (f : ShowSt → ShowSt) (s : State) : (setShow f s).mot = s.mot := rfl
@[simp] theorem setShow_afe (f : ShowSt → ShowSt) (s : State) : (setShow f s).afe = s.afe := rfl
@[simp] theorem setShow_pwr (f : ShowSt → ShowSt) (s : State) : (setShow f s).pwr = s.pwr := rfl
@[simp] theorem setShow_zwd (f : ShowSt → ShowSt) (s : State) : (setShow f s).zwd = s.zwd := rfl
@[simp] theorem setShow_glean (f : ShowSt → ShowSt) (s : State) : (setShow f s).glean = s.glean := rfl
@[simp] theorem setShow_lanes (f : ShowSt → ShowSt) (s : State) : (setShow f s).lanes = s.lanes := rfl
@[simp] theorem setShow_ledger (f : ShowSt → ShowSt) (s : State) : (setShow f s).ledger = s.ledger := rfl
@[simp] theorem setShow_jtag (f : ShowSt → ShowSt) (s : State) : (setShow f s).jtag = s.jtag := rfl
@[simp] theorem setShow_flash (f : ShowSt → ShowSt) (s : State) : (setShow f s).flash = s.flash := rfl
@[simp] theorem setShow_freeCtr (f : ShowSt → ShowSt) (s : State) : (setShow f s).freeCtr = s.freeCtr := rfl
@[simp] theorem setShow_out (f : ShowSt → ShowSt) (s : State) : (setShow f s).out = s.out := rfl
@[simp] theorem setShow_pending (f : ShowSt → ShowSt) (s : State) : (setShow f s).pending = s.pending := rfl
@[simp] theorem setShow_show_ (f : ShowSt → ShowSt) (s : State) : (setShow f s).show_ = f s.show_ := rfl
@[simp] theorem reg_setShow (off : Nat) (f : ShowSt → ShowSt) (s : State) : reg off (setShow f s) = reg off s := rfl
@[simp] theorem rd_setShow (g : Fld) (f : ShowSt → ShowSt) (s : State) : rd g (setShow f s) = rd g s := rfl
@[simp] theorem on_setShow (g : Fld) (f : ShowSt → ShowSt) (s : State) : on g (setShow f s) = on g s := rfl

@[simp] theorem setFrame_term (f : FrameSt → FrameSt) (s : State) : (setFrame f s).term = s.term := rfl
@[simp] theorem setFrame_pcie (f : FrameSt → FrameSt) (s : State) : (setFrame f s).pcie = s.pcie := rfl
@[simp] theorem setFrame_zwirdo (f : FrameSt → FrameSt) (s : State) : (setFrame f s).zwirdo = s.zwirdo := rfl
@[simp] theorem setFrame_mgmt (f : FrameSt → FrameSt) (s : State) : (setFrame f s).mgmt = s.mgmt := rfl
@[simp] theorem setFrame_line (f : FrameSt → FrameSt) (s : State) : (setFrame f s).line = s.line := rfl
@[simp] theorem setFrame_bt (f : FrameSt → FrameSt) (s : State) : (setFrame f s).bt = s.bt := rfl
@[simp] theorem setFrame_staged (f : FrameSt → FrameSt) (s : State) : (setFrame f s).staged = s.staged := rfl
@[simp] theorem setFrame_wrote (f : FrameSt → FrameSt) (s : State) : (setFrame f s).wrote = s.wrote := rfl
@[simp] theorem setFrame_boot (f : FrameSt → FrameSt) (s : State) : (setFrame f s).boot = s.boot := rfl
@[simp] theorem setFrame_byp (f : FrameSt → FrameSt) (s : State) : (setFrame f s).byp = s.byp := rfl
@[simp] theorem setFrame_span (f : FrameSt → FrameSt) (s : State) : (setFrame f s).span = s.span := rfl
@[simp] theorem setFrame_regn (f : FrameSt → FrameSt) (s : State) : (setFrame f s).regn = s.regn := rfl
@[simp] theorem setFrame_note (f : FrameSt → FrameSt) (s : State) : (setFrame f s).note = s.note := rfl
@[simp] theorem setFrame_win (f : FrameSt → FrameSt) (s : State) : (setFrame f s).win = s.win := rfl
@[simp] theorem setFrame_key (f : FrameSt → FrameSt) (s : State) : (setFrame f s).key = s.key := rfl
@[simp] theorem setFrame_th (f : FrameSt → FrameSt) (s : State) : (setFrame f s).th = s.th := rfl
@[simp] theorem setFrame_q (f : FrameSt → FrameSt) (s : State) : (setFrame f s).q = s.q := rfl
@[simp] theorem setFrame_host (f : FrameSt → FrameSt) (s : State) : (setFrame f s).host = s.host := rfl
@[simp] theorem setFrame_eth (f : FrameSt → FrameSt) (s : State) : (setFrame f s).eth = s.eth := rfl
@[simp] theorem setFrame_show_ (f : FrameSt → FrameSt) (s : State) : (setFrame f s).show_ = s.show_ := rfl
@[simp] theorem setFrame_mot (f : FrameSt → FrameSt) (s : State) : (setFrame f s).mot = s.mot := rfl
@[simp] theorem setFrame_afe (f : FrameSt → FrameSt) (s : State) : (setFrame f s).afe = s.afe := rfl
@[simp] theorem setFrame_pwr (f : FrameSt → FrameSt) (s : State) : (setFrame f s).pwr = s.pwr := rfl
@[simp] theorem setFrame_zwd (f : FrameSt → FrameSt) (s : State) : (setFrame f s).zwd = s.zwd := rfl
@[simp] theorem setFrame_glean (f : FrameSt → FrameSt) (s : State) : (setFrame f s).glean = s.glean := rfl
@[simp] theorem setFrame_lanes (f : FrameSt → FrameSt) (s : State) : (setFrame f s).lanes = s.lanes := rfl
@[simp] theorem setFrame_ledger (f : FrameSt → FrameSt) (s : State) : (setFrame f s).ledger = s.ledger := rfl
@[simp] theorem setFrame_jtag (f : FrameSt → FrameSt) (s : State) : (setFrame f s).jtag = s.jtag := rfl
@[simp] theorem setFrame_flash (f : FrameSt → FrameSt) (s : State) : (setFrame f s).flash = s.flash := rfl
@[simp] theorem setFrame_freeCtr (f : FrameSt → FrameSt) (s : State) : (setFrame f s).freeCtr = s.freeCtr := rfl
@[simp] theorem setFrame_out (f : FrameSt → FrameSt) (s : State) : (setFrame f s).out = s.out := rfl
@[simp] theorem setFrame_pending (f : FrameSt → FrameSt) (s : State) : (setFrame f s).pending = s.pending := rfl
@[simp] theorem setFrame_frame (f : FrameSt → FrameSt) (s : State) : (setFrame f s).frame = f s.frame := rfl
@[simp] theorem reg_setFrame (off : Nat) (f : FrameSt → FrameSt) (s : State) : reg off (setFrame f s) = reg off s := rfl
@[simp] theorem rd_setFrame (g : Fld) (f : FrameSt → FrameSt) (s : State) : rd g (setFrame f s) = rd g s := rfl
@[simp] theorem on_setFrame (g : Fld) (f : FrameSt → FrameSt) (s : State) : on g (setFrame f s) = on g s := rfl

@[simp] theorem setWin_term (f : WinSt → WinSt) (s : State) : (setWin f s).term = s.term := rfl
@[simp] theorem setWin_pcie (f : WinSt → WinSt) (s : State) : (setWin f s).pcie = s.pcie := rfl
@[simp] theorem setWin_zwirdo (f : WinSt → WinSt) (s : State) : (setWin f s).zwirdo = s.zwirdo := rfl
@[simp] theorem setWin_mgmt (f : WinSt → WinSt) (s : State) : (setWin f s).mgmt = s.mgmt := rfl
@[simp] theorem setWin_line (f : WinSt → WinSt) (s : State) : (setWin f s).line = s.line := rfl
@[simp] theorem setWin_bt (f : WinSt → WinSt) (s : State) : (setWin f s).bt = s.bt := rfl
@[simp] theorem setWin_staged (f : WinSt → WinSt) (s : State) : (setWin f s).staged = s.staged := rfl
@[simp] theorem setWin_wrote (f : WinSt → WinSt) (s : State) : (setWin f s).wrote = s.wrote := rfl
@[simp] theorem setWin_boot (f : WinSt → WinSt) (s : State) : (setWin f s).boot = s.boot := rfl
@[simp] theorem setWin_byp (f : WinSt → WinSt) (s : State) : (setWin f s).byp = s.byp := rfl
@[simp] theorem setWin_span (f : WinSt → WinSt) (s : State) : (setWin f s).span = s.span := rfl
@[simp] theorem setWin_frame (f : WinSt → WinSt) (s : State) : (setWin f s).frame = s.frame := rfl
@[simp] theorem setWin_regn (f : WinSt → WinSt) (s : State) : (setWin f s).regn = s.regn := rfl
@[simp] theorem setWin_note (f : WinSt → WinSt) (s : State) : (setWin f s).note = s.note := rfl
@[simp] theorem setWin_key (f : WinSt → WinSt) (s : State) : (setWin f s).key = s.key := rfl
@[simp] theorem setWin_th (f : WinSt → WinSt) (s : State) : (setWin f s).th = s.th := rfl
@[simp] theorem setWin_q (f : WinSt → WinSt) (s : State) : (setWin f s).q = s.q := rfl
@[simp] theorem setWin_host (f : WinSt → WinSt) (s : State) : (setWin f s).host = s.host := rfl
@[simp] theorem setWin_eth (f : WinSt → WinSt) (s : State) : (setWin f s).eth = s.eth := rfl
@[simp] theorem setWin_show_ (f : WinSt → WinSt) (s : State) : (setWin f s).show_ = s.show_ := rfl
@[simp] theorem setWin_mot (f : WinSt → WinSt) (s : State) : (setWin f s).mot = s.mot := rfl
@[simp] theorem setWin_afe (f : WinSt → WinSt) (s : State) : (setWin f s).afe = s.afe := rfl
@[simp] theorem setWin_pwr (f : WinSt → WinSt) (s : State) : (setWin f s).pwr = s.pwr := rfl
@[simp] theorem setWin_zwd (f : WinSt → WinSt) (s : State) : (setWin f s).zwd = s.zwd := rfl
@[simp] theorem setWin_glean (f : WinSt → WinSt) (s : State) : (setWin f s).glean = s.glean := rfl
@[simp] theorem setWin_lanes (f : WinSt → WinSt) (s : State) : (setWin f s).lanes = s.lanes := rfl
@[simp] theorem setWin_ledger (f : WinSt → WinSt) (s : State) : (setWin f s).ledger = s.ledger := rfl
@[simp] theorem setWin_jtag (f : WinSt → WinSt) (s : State) : (setWin f s).jtag = s.jtag := rfl
@[simp] theorem setWin_flash (f : WinSt → WinSt) (s : State) : (setWin f s).flash = s.flash := rfl
@[simp] theorem setWin_freeCtr (f : WinSt → WinSt) (s : State) : (setWin f s).freeCtr = s.freeCtr := rfl
@[simp] theorem setWin_out (f : WinSt → WinSt) (s : State) : (setWin f s).out = s.out := rfl
@[simp] theorem setWin_pending (f : WinSt → WinSt) (s : State) : (setWin f s).pending = s.pending := rfl
@[simp] theorem setWin_win (f : WinSt → WinSt) (s : State) : (setWin f s).win = f s.win := rfl
@[simp] theorem reg_setWin (off : Nat) (f : WinSt → WinSt) (s : State) : reg off (setWin f s) = reg off s := rfl
@[simp] theorem rd_setWin (g : Fld) (f : WinSt → WinSt) (s : State) : rd g (setWin f s) = rd g s := rfl
@[simp] theorem on_setWin (g : Fld) (f : WinSt → WinSt) (s : State) : on g (setWin f s) = on g s := rfl

@[simp] theorem setHost_term (f : HostSt → HostSt) (s : State) : (setHost f s).term = s.term := rfl
@[simp] theorem setHost_pcie (f : HostSt → HostSt) (s : State) : (setHost f s).pcie = s.pcie := rfl
@[simp] theorem setHost_zwirdo (f : HostSt → HostSt) (s : State) : (setHost f s).zwirdo = s.zwirdo := rfl
@[simp] theorem setHost_mgmt (f : HostSt → HostSt) (s : State) : (setHost f s).mgmt = s.mgmt := rfl
@[simp] theorem setHost_line (f : HostSt → HostSt) (s : State) : (setHost f s).line = s.line := rfl
@[simp] theorem setHost_bt (f : HostSt → HostSt) (s : State) : (setHost f s).bt = s.bt := rfl
@[simp] theorem setHost_staged (f : HostSt → HostSt) (s : State) : (setHost f s).staged = s.staged := rfl
@[simp] theorem setHost_wrote (f : HostSt → HostSt) (s : State) : (setHost f s).wrote = s.wrote := rfl
@[simp] theorem setHost_boot (f : HostSt → HostSt) (s : State) : (setHost f s).boot = s.boot := rfl
@[simp] theorem setHost_byp (f : HostSt → HostSt) (s : State) : (setHost f s).byp = s.byp := rfl
@[simp] theorem setHost_span (f : HostSt → HostSt) (s : State) : (setHost f s).span = s.span := rfl
@[simp] theorem setHost_frame (f : HostSt → HostSt) (s : State) : (setHost f s).frame = s.frame := rfl
@[simp] theorem setHost_regn (f : HostSt → HostSt) (s : State) : (setHost f s).regn = s.regn := rfl
@[simp] theorem setHost_note (f : HostSt → HostSt) (s : State) : (setHost f s).note = s.note := rfl
@[simp] theorem setHost_win (f : HostSt → HostSt) (s : State) : (setHost f s).win = s.win := rfl
@[simp] theorem setHost_key (f : HostSt → HostSt) (s : State) : (setHost f s).key = s.key := rfl
@[simp] theorem setHost_th (f : HostSt → HostSt) (s : State) : (setHost f s).th = s.th := rfl
@[simp] theorem setHost_q (f : HostSt → HostSt) (s : State) : (setHost f s).q = s.q := rfl
@[simp] theorem setHost_eth (f : HostSt → HostSt) (s : State) : (setHost f s).eth = s.eth := rfl
@[simp] theorem setHost_show_ (f : HostSt → HostSt) (s : State) : (setHost f s).show_ = s.show_ := rfl
@[simp] theorem setHost_mot (f : HostSt → HostSt) (s : State) : (setHost f s).mot = s.mot := rfl
@[simp] theorem setHost_afe (f : HostSt → HostSt) (s : State) : (setHost f s).afe = s.afe := rfl
@[simp] theorem setHost_pwr (f : HostSt → HostSt) (s : State) : (setHost f s).pwr = s.pwr := rfl
@[simp] theorem setHost_zwd (f : HostSt → HostSt) (s : State) : (setHost f s).zwd = s.zwd := rfl
@[simp] theorem setHost_glean (f : HostSt → HostSt) (s : State) : (setHost f s).glean = s.glean := rfl
@[simp] theorem setHost_lanes (f : HostSt → HostSt) (s : State) : (setHost f s).lanes = s.lanes := rfl
@[simp] theorem setHost_ledger (f : HostSt → HostSt) (s : State) : (setHost f s).ledger = s.ledger := rfl
@[simp] theorem setHost_jtag (f : HostSt → HostSt) (s : State) : (setHost f s).jtag = s.jtag := rfl
@[simp] theorem setHost_flash (f : HostSt → HostSt) (s : State) : (setHost f s).flash = s.flash := rfl
@[simp] theorem setHost_freeCtr (f : HostSt → HostSt) (s : State) : (setHost f s).freeCtr = s.freeCtr := rfl
@[simp] theorem setHost_out (f : HostSt → HostSt) (s : State) : (setHost f s).out = s.out := rfl
@[simp] theorem setHost_pending (f : HostSt → HostSt) (s : State) : (setHost f s).pending = s.pending := rfl
@[simp] theorem setHost_host (f : HostSt → HostSt) (s : State) : (setHost f s).host = f s.host := rfl
@[simp] theorem reg_setHost (off : Nat) (f : HostSt → HostSt) (s : State) : reg off (setHost f s) = reg off s := rfl
@[simp] theorem rd_setHost (g : Fld) (f : HostSt → HostSt) (s : State) : rd g (setHost f s) = rd g s := rfl
@[simp] theorem on_setHost (g : Fld) (f : HostSt → HostSt) (s : State) : on g (setHost f s) = on g s := rfl

@[simp] theorem setNote_term (f : NoteSt → NoteSt) (s : State) : (setNote f s).term = s.term := rfl
@[simp] theorem setNote_pcie (f : NoteSt → NoteSt) (s : State) : (setNote f s).pcie = s.pcie := rfl
@[simp] theorem setNote_zwirdo (f : NoteSt → NoteSt) (s : State) : (setNote f s).zwirdo = s.zwirdo := rfl
@[simp] theorem setNote_mgmt (f : NoteSt → NoteSt) (s : State) : (setNote f s).mgmt = s.mgmt := rfl
@[simp] theorem setNote_line (f : NoteSt → NoteSt) (s : State) : (setNote f s).line = s.line := rfl
@[simp] theorem setNote_bt (f : NoteSt → NoteSt) (s : State) : (setNote f s).bt = s.bt := rfl
@[simp] theorem setNote_staged (f : NoteSt → NoteSt) (s : State) : (setNote f s).staged = s.staged := rfl
@[simp] theorem setNote_wrote (f : NoteSt → NoteSt) (s : State) : (setNote f s).wrote = s.wrote := rfl
@[simp] theorem setNote_boot (f : NoteSt → NoteSt) (s : State) : (setNote f s).boot = s.boot := rfl
@[simp] theorem setNote_byp (f : NoteSt → NoteSt) (s : State) : (setNote f s).byp = s.byp := rfl
@[simp] theorem setNote_span (f : NoteSt → NoteSt) (s : State) : (setNote f s).span = s.span := rfl
@[simp] theorem setNote_frame (f : NoteSt → NoteSt) (s : State) : (setNote f s).frame = s.frame := rfl
@[simp] theorem setNote_regn (f : NoteSt → NoteSt) (s : State) : (setNote f s).regn = s.regn := rfl
@[simp] theorem setNote_win (f : NoteSt → NoteSt) (s : State) : (setNote f s).win = s.win := rfl
@[simp] theorem setNote_key (f : NoteSt → NoteSt) (s : State) : (setNote f s).key = s.key := rfl
@[simp] theorem setNote_th (f : NoteSt → NoteSt) (s : State) : (setNote f s).th = s.th := rfl
@[simp] theorem setNote_q (f : NoteSt → NoteSt) (s : State) : (setNote f s).q = s.q := rfl
@[simp] theorem setNote_host (f : NoteSt → NoteSt) (s : State) : (setNote f s).host = s.host := rfl
@[simp] theorem setNote_eth (f : NoteSt → NoteSt) (s : State) : (setNote f s).eth = s.eth := rfl
@[simp] theorem setNote_show_ (f : NoteSt → NoteSt) (s : State) : (setNote f s).show_ = s.show_ := rfl
@[simp] theorem setNote_mot (f : NoteSt → NoteSt) (s : State) : (setNote f s).mot = s.mot := rfl
@[simp] theorem setNote_afe (f : NoteSt → NoteSt) (s : State) : (setNote f s).afe = s.afe := rfl
@[simp] theorem setNote_pwr (f : NoteSt → NoteSt) (s : State) : (setNote f s).pwr = s.pwr := rfl
@[simp] theorem setNote_zwd (f : NoteSt → NoteSt) (s : State) : (setNote f s).zwd = s.zwd := rfl
@[simp] theorem setNote_glean (f : NoteSt → NoteSt) (s : State) : (setNote f s).glean = s.glean := rfl
@[simp] theorem setNote_lanes (f : NoteSt → NoteSt) (s : State) : (setNote f s).lanes = s.lanes := rfl
@[simp] theorem setNote_ledger (f : NoteSt → NoteSt) (s : State) : (setNote f s).ledger = s.ledger := rfl
@[simp] theorem setNote_jtag (f : NoteSt → NoteSt) (s : State) : (setNote f s).jtag = s.jtag := rfl
@[simp] theorem setNote_flash (f : NoteSt → NoteSt) (s : State) : (setNote f s).flash = s.flash := rfl
@[simp] theorem setNote_freeCtr (f : NoteSt → NoteSt) (s : State) : (setNote f s).freeCtr = s.freeCtr := rfl
@[simp] theorem setNote_out (f : NoteSt → NoteSt) (s : State) : (setNote f s).out = s.out := rfl
@[simp] theorem setNote_pending (f : NoteSt → NoteSt) (s : State) : (setNote f s).pending = s.pending := rfl
@[simp] theorem setNote_note (f : NoteSt → NoteSt) (s : State) : (setNote f s).note = f s.note := rfl
@[simp] theorem reg_setNote (off : Nat) (f : NoteSt → NoteSt) (s : State) : reg off (setNote f s) = reg off s := rfl
@[simp] theorem rd_setNote (g : Fld) (f : NoteSt → NoteSt) (s : State) : rd g (setNote f s) = rd g s := rfl
@[simp] theorem on_setNote (g : Fld) (f : NoteSt → NoteSt) (s : State) : on g (setNote f s) = on g s := rfl

@[simp] theorem setGlean_term (f : GleanSt → GleanSt) (s : State) : (setGlean f s).term = s.term := rfl
@[simp] theorem setGlean_pcie (f : GleanSt → GleanSt) (s : State) : (setGlean f s).pcie = s.pcie := rfl
@[simp] theorem setGlean_zwirdo (f : GleanSt → GleanSt) (s : State) : (setGlean f s).zwirdo = s.zwirdo := rfl
@[simp] theorem setGlean_mgmt (f : GleanSt → GleanSt) (s : State) : (setGlean f s).mgmt = s.mgmt := rfl
@[simp] theorem setGlean_line (f : GleanSt → GleanSt) (s : State) : (setGlean f s).line = s.line := rfl
@[simp] theorem setGlean_bt (f : GleanSt → GleanSt) (s : State) : (setGlean f s).bt = s.bt := rfl
@[simp] theorem setGlean_staged (f : GleanSt → GleanSt) (s : State) : (setGlean f s).staged = s.staged := rfl
@[simp] theorem setGlean_wrote (f : GleanSt → GleanSt) (s : State) : (setGlean f s).wrote = s.wrote := rfl
@[simp] theorem setGlean_boot (f : GleanSt → GleanSt) (s : State) : (setGlean f s).boot = s.boot := rfl
@[simp] theorem setGlean_byp (f : GleanSt → GleanSt) (s : State) : (setGlean f s).byp = s.byp := rfl
@[simp] theorem setGlean_span (f : GleanSt → GleanSt) (s : State) : (setGlean f s).span = s.span := rfl
@[simp] theorem setGlean_frame (f : GleanSt → GleanSt) (s : State) : (setGlean f s).frame = s.frame := rfl
@[simp] theorem setGlean_regn (f : GleanSt → GleanSt) (s : State) : (setGlean f s).regn = s.regn := rfl
@[simp] theorem setGlean_note (f : GleanSt → GleanSt) (s : State) : (setGlean f s).note = s.note := rfl
@[simp] theorem setGlean_win (f : GleanSt → GleanSt) (s : State) : (setGlean f s).win = s.win := rfl
@[simp] theorem setGlean_key (f : GleanSt → GleanSt) (s : State) : (setGlean f s).key = s.key := rfl
@[simp] theorem setGlean_th (f : GleanSt → GleanSt) (s : State) : (setGlean f s).th = s.th := rfl
@[simp] theorem setGlean_q (f : GleanSt → GleanSt) (s : State) : (setGlean f s).q = s.q := rfl
@[simp] theorem setGlean_host (f : GleanSt → GleanSt) (s : State) : (setGlean f s).host = s.host := rfl
@[simp] theorem setGlean_eth (f : GleanSt → GleanSt) (s : State) : (setGlean f s).eth = s.eth := rfl
@[simp] theorem setGlean_show_ (f : GleanSt → GleanSt) (s : State) : (setGlean f s).show_ = s.show_ := rfl
@[simp] theorem setGlean_mot (f : GleanSt → GleanSt) (s : State) : (setGlean f s).mot = s.mot := rfl
@[simp] theorem setGlean_afe (f : GleanSt → GleanSt) (s : State) : (setGlean f s).afe = s.afe := rfl
@[simp] theorem setGlean_pwr (f : GleanSt → GleanSt) (s : State) : (setGlean f s).pwr = s.pwr := rfl
@[simp] theorem setGlean_zwd (f : GleanSt → GleanSt) (s : State) : (setGlean f s).zwd = s.zwd := rfl
@[simp] theorem setGlean_lanes (f : GleanSt → GleanSt) (s : State) : (setGlean f s).lanes = s.lanes := rfl
@[simp] theorem setGlean_ledger (f : GleanSt → GleanSt) (s : State) : (setGlean f s).ledger = s.ledger := rfl
@[simp] theorem setGlean_jtag (f : GleanSt → GleanSt) (s : State) : (setGlean f s).jtag = s.jtag := rfl
@[simp] theorem setGlean_flash (f : GleanSt → GleanSt) (s : State) : (setGlean f s).flash = s.flash := rfl
@[simp] theorem setGlean_freeCtr (f : GleanSt → GleanSt) (s : State) : (setGlean f s).freeCtr = s.freeCtr := rfl
@[simp] theorem setGlean_out (f : GleanSt → GleanSt) (s : State) : (setGlean f s).out = s.out := rfl
@[simp] theorem setGlean_pending (f : GleanSt → GleanSt) (s : State) : (setGlean f s).pending = s.pending := rfl
@[simp] theorem setGlean_glean (f : GleanSt → GleanSt) (s : State) : (setGlean f s).glean = f s.glean := rfl
@[simp] theorem reg_setGlean (off : Nat) (f : GleanSt → GleanSt) (s : State) : reg off (setGlean f s) = reg off s := rfl
@[simp] theorem rd_setGlean (g : Fld) (f : GleanSt → GleanSt) (s : State) : rd g (setGlean f s) = rd g s := rfl
@[simp] theorem on_setGlean (g : Fld) (f : GleanSt → GleanSt) (s : State) : on g (setGlean f s) = on g s := rfl

@[simp] theorem setZwd_term (f : ZwdSt → ZwdSt) (s : State) : (setZwd f s).term = s.term := rfl
@[simp] theorem setZwd_pcie (f : ZwdSt → ZwdSt) (s : State) : (setZwd f s).pcie = s.pcie := rfl
@[simp] theorem setZwd_zwirdo (f : ZwdSt → ZwdSt) (s : State) : (setZwd f s).zwirdo = s.zwirdo := rfl
@[simp] theorem setZwd_mgmt (f : ZwdSt → ZwdSt) (s : State) : (setZwd f s).mgmt = s.mgmt := rfl
@[simp] theorem setZwd_line (f : ZwdSt → ZwdSt) (s : State) : (setZwd f s).line = s.line := rfl
@[simp] theorem setZwd_bt (f : ZwdSt → ZwdSt) (s : State) : (setZwd f s).bt = s.bt := rfl
@[simp] theorem setZwd_staged (f : ZwdSt → ZwdSt) (s : State) : (setZwd f s).staged = s.staged := rfl
@[simp] theorem setZwd_wrote (f : ZwdSt → ZwdSt) (s : State) : (setZwd f s).wrote = s.wrote := rfl
@[simp] theorem setZwd_boot (f : ZwdSt → ZwdSt) (s : State) : (setZwd f s).boot = s.boot := rfl
@[simp] theorem setZwd_byp (f : ZwdSt → ZwdSt) (s : State) : (setZwd f s).byp = s.byp := rfl
@[simp] theorem setZwd_span (f : ZwdSt → ZwdSt) (s : State) : (setZwd f s).span = s.span := rfl
@[simp] theorem setZwd_frame (f : ZwdSt → ZwdSt) (s : State) : (setZwd f s).frame = s.frame := rfl
@[simp] theorem setZwd_regn (f : ZwdSt → ZwdSt) (s : State) : (setZwd f s).regn = s.regn := rfl
@[simp] theorem setZwd_note (f : ZwdSt → ZwdSt) (s : State) : (setZwd f s).note = s.note := rfl
@[simp] theorem setZwd_win (f : ZwdSt → ZwdSt) (s : State) : (setZwd f s).win = s.win := rfl
@[simp] theorem setZwd_key (f : ZwdSt → ZwdSt) (s : State) : (setZwd f s).key = s.key := rfl
@[simp] theorem setZwd_th (f : ZwdSt → ZwdSt) (s : State) : (setZwd f s).th = s.th := rfl
@[simp] theorem setZwd_q (f : ZwdSt → ZwdSt) (s : State) : (setZwd f s).q = s.q := rfl
@[simp] theorem setZwd_host (f : ZwdSt → ZwdSt) (s : State) : (setZwd f s).host = s.host := rfl
@[simp] theorem setZwd_eth (f : ZwdSt → ZwdSt) (s : State) : (setZwd f s).eth = s.eth := rfl
@[simp] theorem setZwd_show_ (f : ZwdSt → ZwdSt) (s : State) : (setZwd f s).show_ = s.show_ := rfl
@[simp] theorem setZwd_mot (f : ZwdSt → ZwdSt) (s : State) : (setZwd f s).mot = s.mot := rfl
@[simp] theorem setZwd_afe (f : ZwdSt → ZwdSt) (s : State) : (setZwd f s).afe = s.afe := rfl
@[simp] theorem setZwd_pwr (f : ZwdSt → ZwdSt) (s : State) : (setZwd f s).pwr = s.pwr := rfl
@[simp] theorem setZwd_glean (f : ZwdSt → ZwdSt) (s : State) : (setZwd f s).glean = s.glean := rfl
@[simp] theorem setZwd_lanes (f : ZwdSt → ZwdSt) (s : State) : (setZwd f s).lanes = s.lanes := rfl
@[simp] theorem setZwd_ledger (f : ZwdSt → ZwdSt) (s : State) : (setZwd f s).ledger = s.ledger := rfl
@[simp] theorem setZwd_jtag (f : ZwdSt → ZwdSt) (s : State) : (setZwd f s).jtag = s.jtag := rfl
@[simp] theorem setZwd_flash (f : ZwdSt → ZwdSt) (s : State) : (setZwd f s).flash = s.flash := rfl
@[simp] theorem setZwd_freeCtr (f : ZwdSt → ZwdSt) (s : State) : (setZwd f s).freeCtr = s.freeCtr := rfl
@[simp] theorem setZwd_out (f : ZwdSt → ZwdSt) (s : State) : (setZwd f s).out = s.out := rfl
@[simp] theorem setZwd_pending (f : ZwdSt → ZwdSt) (s : State) : (setZwd f s).pending = s.pending := rfl
@[simp] theorem setZwd_zwd (f : ZwdSt → ZwdSt) (s : State) : (setZwd f s).zwd = f s.zwd := rfl
@[simp] theorem reg_setZwd (off : Nat) (f : ZwdSt → ZwdSt) (s : State) : reg off (setZwd f s) = reg off s := rfl
@[simp] theorem rd_setZwd (g : Fld) (f : ZwdSt → ZwdSt) (s : State) : rd g (setZwd f s) = rd g s := rfl
@[simp] theorem on_setZwd (g : Fld) (f : ZwdSt → ZwdSt) (s : State) : on g (setZwd f s) = on g s := rfl

@[simp] theorem setLane_term (n : Nat) (f : LaneSt → LaneSt) (s : State) : (setLane n f s).term = s.term := rfl
@[simp] theorem setLane_pcie (n : Nat) (f : LaneSt → LaneSt) (s : State) : (setLane n f s).pcie = s.pcie := rfl
@[simp] theorem setLane_zwirdo (n : Nat) (f : LaneSt → LaneSt) (s : State) : (setLane n f s).zwirdo = s.zwirdo := rfl
@[simp] theorem setLane_mgmt (n : Nat) (f : LaneSt → LaneSt) (s : State) : (setLane n f s).mgmt = s.mgmt := rfl
@[simp] theorem setLane_line (n : Nat) (f : LaneSt → LaneSt) (s : State) : (setLane n f s).line = s.line := rfl
@[simp] theorem setLane_bt (n : Nat) (f : LaneSt → LaneSt) (s : State) : (setLane n f s).bt = s.bt := rfl
@[simp] theorem setLane_staged (n : Nat) (f : LaneSt → LaneSt) (s : State) : (setLane n f s).staged = s.staged := rfl
@[simp] theorem setLane_wrote (n : Nat) (f : LaneSt → LaneSt) (s : State) : (setLane n f s).wrote = s.wrote := rfl
@[simp] theorem setLane_boot (n : Nat) (f : LaneSt → LaneSt) (s : State) : (setLane n f s).boot = s.boot := rfl
@[simp] theorem setLane_byp (n : Nat) (f : LaneSt → LaneSt) (s : State) : (setLane n f s).byp = s.byp := rfl
@[simp] theorem setLane_span (n : Nat) (f : LaneSt → LaneSt) (s : State) : (setLane n f s).span = s.span := rfl
@[simp] theorem setLane_frame (n : Nat) (f : LaneSt → LaneSt) (s : State) : (setLane n f s).frame = s.frame := rfl
@[simp] theorem setLane_regn (n : Nat) (f : LaneSt → LaneSt) (s : State) : (setLane n f s).regn = s.regn := rfl
@[simp] theorem setLane_note (n : Nat) (f : LaneSt → LaneSt) (s : State) : (setLane n f s).note = s.note := rfl
@[simp] theorem setLane_win (n : Nat) (f : LaneSt → LaneSt) (s : State) : (setLane n f s).win = s.win := rfl
@[simp] theorem setLane_key (n : Nat) (f : LaneSt → LaneSt) (s : State) : (setLane n f s).key = s.key := rfl
@[simp] theorem setLane_th (n : Nat) (f : LaneSt → LaneSt) (s : State) : (setLane n f s).th = s.th := rfl
@[simp] theorem setLane_q (n : Nat) (f : LaneSt → LaneSt) (s : State) : (setLane n f s).q = s.q := rfl
@[simp] theorem setLane_host (n : Nat) (f : LaneSt → LaneSt) (s : State) : (setLane n f s).host = s.host := rfl
@[simp] theorem setLane_eth (n : Nat) (f : LaneSt → LaneSt) (s : State) : (setLane n f s).eth = s.eth := rfl
@[simp] theorem setLane_show_ (n : Nat) (f : LaneSt → LaneSt) (s : State) : (setLane n f s).show_ = s.show_ := rfl
@[simp] theorem setLane_mot (n : Nat) (f : LaneSt → LaneSt) (s : State) : (setLane n f s).mot = s.mot := rfl
@[simp] theorem setLane_afe (n : Nat) (f : LaneSt → LaneSt) (s : State) : (setLane n f s).afe = s.afe := rfl
@[simp] theorem setLane_pwr (n : Nat) (f : LaneSt → LaneSt) (s : State) : (setLane n f s).pwr = s.pwr := rfl
@[simp] theorem setLane_zwd (n : Nat) (f : LaneSt → LaneSt) (s : State) : (setLane n f s).zwd = s.zwd := rfl
@[simp] theorem setLane_glean (n : Nat) (f : LaneSt → LaneSt) (s : State) : (setLane n f s).glean = s.glean := rfl
@[simp] theorem setLane_ledger (n : Nat) (f : LaneSt → LaneSt) (s : State) : (setLane n f s).ledger = s.ledger := rfl
@[simp] theorem setLane_jtag (n : Nat) (f : LaneSt → LaneSt) (s : State) : (setLane n f s).jtag = s.jtag := rfl
@[simp] theorem setLane_flash (n : Nat) (f : LaneSt → LaneSt) (s : State) : (setLane n f s).flash = s.flash := rfl
@[simp] theorem setLane_freeCtr (n : Nat) (f : LaneSt → LaneSt) (s : State) : (setLane n f s).freeCtr = s.freeCtr := rfl
@[simp] theorem setLane_out (n : Nat) (f : LaneSt → LaneSt) (s : State) : (setLane n f s).out = s.out := rfl
@[simp] theorem setLane_pending (n : Nat) (f : LaneSt → LaneSt) (s : State) : (setLane n f s).pending = s.pending := rfl
@[simp] theorem setLane_lanes (n : Nat) (f : LaneSt → LaneSt) (s : State) : (setLane n f s).lanes = modAt s.lanes n f := rfl
@[simp] theorem reg_setLane (off : Nat) (n : Nat) (f : LaneSt → LaneSt) (s : State) : reg off (setLane n f s) = reg off s := rfl
@[simp] theorem rd_setLane (g : Fld) (n : Nat) (f : LaneSt → LaneSt) (s : State) : rd g (setLane n f s) = rd g s := rfl
@[simp] theorem on_setLane (g : Fld) (n : Nat) (f : LaneSt → LaneSt) (s : State) : on g (setLane n f s) = on g s := rfl

@[simp] theorem setBt_term (t : Nat) (s : State) : (setBt t s).term = s.term := rfl
@[simp] theorem setBt_pcie (t : Nat) (s : State) : (setBt t s).pcie = s.pcie := rfl
@[simp] theorem setBt_zwirdo (t : Nat) (s : State) : (setBt t s).zwirdo = s.zwirdo := rfl
@[simp] theorem setBt_mgmt (t : Nat) (s : State) : (setBt t s).mgmt = s.mgmt := rfl
@[simp] theorem setBt_line (t : Nat) (s : State) : (setBt t s).line = s.line := rfl
@[simp] theorem setBt_staged (t : Nat) (s : State) : (setBt t s).staged = s.staged := rfl
@[simp] theorem setBt_wrote (t : Nat) (s : State) : (setBt t s).wrote = s.wrote := rfl
@[simp] theorem setBt_boot (t : Nat) (s : State) : (setBt t s).boot = s.boot := rfl
@[simp] theorem setBt_byp (t : Nat) (s : State) : (setBt t s).byp = s.byp := rfl
@[simp] theorem setBt_span (t : Nat) (s : State) : (setBt t s).span = s.span := rfl
@[simp] theorem setBt_frame (t : Nat) (s : State) : (setBt t s).frame = s.frame := rfl
@[simp] theorem setBt_regn (t : Nat) (s : State) : (setBt t s).regn = s.regn := rfl
@[simp] theorem setBt_note (t : Nat) (s : State) : (setBt t s).note = s.note := rfl
@[simp] theorem setBt_win (t : Nat) (s : State) : (setBt t s).win = s.win := rfl
@[simp] theorem setBt_key (t : Nat) (s : State) : (setBt t s).key = s.key := rfl
@[simp] theorem setBt_th (t : Nat) (s : State) : (setBt t s).th = s.th := rfl
@[simp] theorem setBt_q (t : Nat) (s : State) : (setBt t s).q = s.q := rfl
@[simp] theorem setBt_host (t : Nat) (s : State) : (setBt t s).host = s.host := rfl
@[simp] theorem setBt_eth (t : Nat) (s : State) : (setBt t s).eth = s.eth := rfl
@[simp] theorem setBt_show_ (t : Nat) (s : State) : (setBt t s).show_ = s.show_ := rfl
@[simp] theorem setBt_mot (t : Nat) (s : State) : (setBt t s).mot = s.mot := rfl
@[simp] theorem setBt_afe (t : Nat) (s : State) : (setBt t s).afe = s.afe := rfl
@[simp] theorem setBt_pwr (t : Nat) (s : State) : (setBt t s).pwr = s.pwr := rfl
@[simp] theorem setBt_zwd (t : Nat) (s : State) : (setBt t s).zwd = s.zwd := rfl
@[simp] theorem setBt_glean (t : Nat) (s : State) : (setBt t s).glean = s.glean := rfl
@[simp] theorem setBt_lanes (t : Nat) (s : State) : (setBt t s).lanes = s.lanes := rfl
@[simp] theorem setBt_ledger (t : Nat) (s : State) : (setBt t s).ledger = s.ledger := rfl
@[simp] theorem setBt_jtag (t : Nat) (s : State) : (setBt t s).jtag = s.jtag := rfl
@[simp] theorem setBt_flash (t : Nat) (s : State) : (setBt t s).flash = s.flash := rfl
@[simp] theorem setBt_freeCtr (t : Nat) (s : State) : (setBt t s).freeCtr = s.freeCtr := rfl
@[simp] theorem setBt_out (t : Nat) (s : State) : (setBt t s).out = s.out := rfl
@[simp] theorem setBt_pending (t : Nat) (s : State) : (setBt t s).pending = s.pending := rfl
@[simp] theorem setBt_bt (t : Nat) (s : State) : (setBt t s).bt = t := rfl
@[simp] theorem reg_setBt (off : Nat) (t : Nat) (s : State) : reg off (setBt t s) = reg off s := rfl
@[simp] theorem rd_setBt (g : Fld) (t : Nat) (s : State) : rd g (setBt t s) = rd g s := rfl
@[simp] theorem on_setBt (g : Fld) (t : Nat) (s : State) : on g (setBt t s) = on g s := rfl

@[simp] theorem setLine_term (t : Nat) (s : State) : (setLine t s).term = s.term := rfl
@[simp] theorem setLine_pcie (t : Nat) (s : State) : (setLine t s).pcie = s.pcie := rfl
@[simp] theorem setLine_zwirdo (t : Nat) (s : State) : (setLine t s).zwirdo = s.zwirdo := rfl
@[simp] theorem setLine_mgmt (t : Nat) (s : State) : (setLine t s).mgmt = s.mgmt := rfl
@[simp] theorem setLine_bt (t : Nat) (s : State) : (setLine t s).bt = s.bt := rfl
@[simp] theorem setLine_staged (t : Nat) (s : State) : (setLine t s).staged = s.staged := rfl
@[simp] theorem setLine_wrote (t : Nat) (s : State) : (setLine t s).wrote = s.wrote := rfl
@[simp] theorem setLine_boot (t : Nat) (s : State) : (setLine t s).boot = s.boot := rfl
@[simp] theorem setLine_byp (t : Nat) (s : State) : (setLine t s).byp = s.byp := rfl
@[simp] theorem setLine_span (t : Nat) (s : State) : (setLine t s).span = s.span := rfl
@[simp] theorem setLine_frame (t : Nat) (s : State) : (setLine t s).frame = s.frame := rfl
@[simp] theorem setLine_regn (t : Nat) (s : State) : (setLine t s).regn = s.regn := rfl
@[simp] theorem setLine_note (t : Nat) (s : State) : (setLine t s).note = s.note := rfl
@[simp] theorem setLine_win (t : Nat) (s : State) : (setLine t s).win = s.win := rfl
@[simp] theorem setLine_key (t : Nat) (s : State) : (setLine t s).key = s.key := rfl
@[simp] theorem setLine_th (t : Nat) (s : State) : (setLine t s).th = s.th := rfl
@[simp] theorem setLine_q (t : Nat) (s : State) : (setLine t s).q = s.q := rfl
@[simp] theorem setLine_host (t : Nat) (s : State) : (setLine t s).host = s.host := rfl
@[simp] theorem setLine_eth (t : Nat) (s : State) : (setLine t s).eth = s.eth := rfl
@[simp] theorem setLine_show_ (t : Nat) (s : State) : (setLine t s).show_ = s.show_ := rfl
@[simp] theorem setLine_mot (t : Nat) (s : State) : (setLine t s).mot = s.mot := rfl
@[simp] theorem setLine_afe (t : Nat) (s : State) : (setLine t s).afe = s.afe := rfl
@[simp] theorem setLine_pwr (t : Nat) (s : State) : (setLine t s).pwr = s.pwr := rfl
@[simp] theorem setLine_zwd (t : Nat) (s : State) : (setLine t s).zwd = s.zwd := rfl
@[simp] theorem setLine_glean (t : Nat) (s : State) : (setLine t s).glean = s.glean := rfl
@[simp] theorem setLine_lanes (t : Nat) (s : State) : (setLine t s).lanes = s.lanes := rfl
@[simp] theorem setLine_ledger (t : Nat) (s : State) : (setLine t s).ledger = s.ledger := rfl
@[simp] theorem setLine_jtag (t : Nat) (s : State) : (setLine t s).jtag = s.jtag := rfl
@[simp] theorem setLine_flash (t : Nat) (s : State) : (setLine t s).flash = s.flash := rfl
@[simp] theorem setLine_freeCtr (t : Nat) (s : State) : (setLine t s).freeCtr = s.freeCtr := rfl
@[simp] theorem setLine_out (t : Nat) (s : State) : (setLine t s).out = s.out := rfl
@[simp] theorem setLine_pending (t : Nat) (s : State) : (setLine t s).pending = s.pending := rfl
@[simp] theorem setLine_line (t : Nat) (s : State) : (setLine t s).line = t := rfl
@[simp] theorem reg_setLine (off : Nat) (t : Nat) (s : State) : reg off (setLine t s) = reg off s := rfl
@[simp] theorem rd_setLine (g : Fld) (t : Nat) (s : State) : rd g (setLine t s) = rd g s := rfl
@[simp] theorem on_setLine (g : Fld) (t : Nat) (s : State) : on g (setLine t s) = on g s := rfl

@[simp] theorem setWrote_term (l : List Nat) (s : State) : (setWrote l s).term = s.term := rfl
@[simp] theorem setWrote_pcie (l : List Nat) (s : State) : (setWrote l s).pcie = s.pcie := rfl
@[simp] theorem setWrote_zwirdo (l : List Nat) (s : State) : (setWrote l s).zwirdo = s.zwirdo := rfl
@[simp] theorem setWrote_mgmt (l : List Nat) (s : State) : (setWrote l s).mgmt = s.mgmt := rfl
@[simp] theorem setWrote_line (l : List Nat) (s : State) : (setWrote l s).line = s.line := rfl
@[simp] theorem setWrote_bt (l : List Nat) (s : State) : (setWrote l s).bt = s.bt := rfl
@[simp] theorem setWrote_staged (l : List Nat) (s : State) : (setWrote l s).staged = s.staged := rfl
@[simp] theorem setWrote_wrote (l : List Nat) (s : State) : (setWrote l s).wrote = l := rfl
@[simp] theorem setWrote_boot (l : List Nat) (s : State) : (setWrote l s).boot = s.boot := rfl
@[simp] theorem setWrote_byp (l : List Nat) (s : State) : (setWrote l s).byp = s.byp := rfl
@[simp] theorem setWrote_span (l : List Nat) (s : State) : (setWrote l s).span = s.span := rfl
@[simp] theorem setWrote_frame (l : List Nat) (s : State) : (setWrote l s).frame = s.frame := rfl
@[simp] theorem setWrote_regn (l : List Nat) (s : State) : (setWrote l s).regn = s.regn := rfl
@[simp] theorem setWrote_note (l : List Nat) (s : State) : (setWrote l s).note = s.note := rfl
@[simp] theorem setWrote_win (l : List Nat) (s : State) : (setWrote l s).win = s.win := rfl
@[simp] theorem setWrote_key (l : List Nat) (s : State) : (setWrote l s).key = s.key := rfl
@[simp] theorem setWrote_th (l : List Nat) (s : State) : (setWrote l s).th = s.th := rfl
@[simp] theorem setWrote_q (l : List Nat) (s : State) : (setWrote l s).q = s.q := rfl
@[simp] theorem setWrote_host (l : List Nat) (s : State) : (setWrote l s).host = s.host := rfl
@[simp] theorem setWrote_eth (l : List Nat) (s : State) : (setWrote l s).eth = s.eth := rfl
@[simp] theorem setWrote_show_ (l : List Nat) (s : State) : (setWrote l s).show_ = s.show_ := rfl
@[simp] theorem setWrote_mot (l : List Nat) (s : State) : (setWrote l s).mot = s.mot := rfl
@[simp] theorem setWrote_afe (l : List Nat) (s : State) : (setWrote l s).afe = s.afe := rfl
@[simp] theorem setWrote_pwr (l : List Nat) (s : State) : (setWrote l s).pwr = s.pwr := rfl
@[simp] theorem setWrote_zwd (l : List Nat) (s : State) : (setWrote l s).zwd = s.zwd := rfl
@[simp] theorem setWrote_glean (l : List Nat) (s : State) : (setWrote l s).glean = s.glean := rfl
@[simp] theorem setWrote_lanes (l : List Nat) (s : State) : (setWrote l s).lanes = s.lanes := rfl
@[simp] theorem setWrote_ledger (l : List Nat) (s : State) : (setWrote l s).ledger = s.ledger := rfl
@[simp] theorem setWrote_jtag (l : List Nat) (s : State) : (setWrote l s).jtag = s.jtag := rfl
@[simp] theorem setWrote_flash (l : List Nat) (s : State) : (setWrote l s).flash = s.flash := rfl
@[simp] theorem setWrote_freeCtr (l : List Nat) (s : State) : (setWrote l s).freeCtr = s.freeCtr := rfl
@[simp] theorem setWrote_out (l : List Nat) (s : State) : (setWrote l s).out = s.out := rfl
@[simp] theorem setWrote_pending (l : List Nat) (s : State) : (setWrote l s).pending = s.pending := rfl
@[simp] theorem reg_setWrote (off : Nat) (l : List Nat) (s : State) : reg off (setWrote l s) = reg off s := rfl
@[simp] theorem rd_setWrote (g : Fld) (l : List Nat) (s : State) : rd g (setWrote l s) = rd g s := rfl
@[simp] theorem on_setWrote (g : Fld) (l : List Nat) (s : State) : on g (setWrote l s) = on g s := rfl

@[simp] theorem setSpan_term (sd : Side) (f : SpanSide → SpanSide) (s : State) : (setSpan sd f s).term = s.term := by
  cases sd <;> rfl
@[simp] theorem setSpan_pcie (sd : Side) (f : SpanSide → SpanSide) (s : State) : (setSpan sd f s).pcie = s.pcie := by
  cases sd <;> rfl
@[simp] theorem setSpan_zwirdo (sd : Side) (f : SpanSide → SpanSide) (s : State) : (setSpan sd f s).zwirdo = s.zwirdo := by
  cases sd <;> rfl
@[simp] theorem setSpan_mgmt (sd : Side) (f : SpanSide → SpanSide) (s : State) : (setSpan sd f s).mgmt = s.mgmt := by
  cases sd <;> rfl
@[simp] theorem setSpan_line (sd : Side) (f : SpanSide → SpanSide) (s : State) : (setSpan sd f s).line = s.line := by
  cases sd <;> rfl
@[simp] theorem setSpan_bt (sd : Side) (f : SpanSide → SpanSide) (s : State) : (setSpan sd f s).bt = s.bt := by
  cases sd <;> rfl
@[simp] theorem setSpan_staged (sd : Side) (f : SpanSide → SpanSide) (s : State) : (setSpan sd f s).staged = s.staged := by
  cases sd <;> rfl
@[simp] theorem setSpan_wrote (sd : Side) (f : SpanSide → SpanSide) (s : State) : (setSpan sd f s).wrote = s.wrote := by
  cases sd <;> rfl
@[simp] theorem setSpan_boot (sd : Side) (f : SpanSide → SpanSide) (s : State) : (setSpan sd f s).boot = s.boot := by
  cases sd <;> rfl
@[simp] theorem setSpan_byp (sd : Side) (f : SpanSide → SpanSide) (s : State) : (setSpan sd f s).byp = s.byp := by
  cases sd <;> rfl
@[simp] theorem setSpan_frame (sd : Side) (f : SpanSide → SpanSide) (s : State) : (setSpan sd f s).frame = s.frame := by
  cases sd <;> rfl
@[simp] theorem setSpan_regn (sd : Side) (f : SpanSide → SpanSide) (s : State) : (setSpan sd f s).regn = s.regn := by
  cases sd <;> rfl
@[simp] theorem setSpan_note (sd : Side) (f : SpanSide → SpanSide) (s : State) : (setSpan sd f s).note = s.note := by
  cases sd <;> rfl
@[simp] theorem setSpan_win (sd : Side) (f : SpanSide → SpanSide) (s : State) : (setSpan sd f s).win = s.win := by
  cases sd <;> rfl
@[simp] theorem setSpan_key (sd : Side) (f : SpanSide → SpanSide) (s : State) : (setSpan sd f s).key = s.key := by
  cases sd <;> rfl
@[simp] theorem setSpan_th (sd : Side) (f : SpanSide → SpanSide) (s : State) : (setSpan sd f s).th = s.th := by
  cases sd <;> rfl
@[simp] theorem setSpan_q (sd : Side) (f : SpanSide → SpanSide) (s : State) : (setSpan sd f s).q = s.q := by
  cases sd <;> rfl
@[simp] theorem setSpan_host (sd : Side) (f : SpanSide → SpanSide) (s : State) : (setSpan sd f s).host = s.host := by
  cases sd <;> rfl
@[simp] theorem setSpan_eth (sd : Side) (f : SpanSide → SpanSide) (s : State) : (setSpan sd f s).eth = s.eth := by
  cases sd <;> rfl
@[simp] theorem setSpan_show_ (sd : Side) (f : SpanSide → SpanSide) (s : State) : (setSpan sd f s).show_ = s.show_ := by
  cases sd <;> rfl
@[simp] theorem setSpan_mot (sd : Side) (f : SpanSide → SpanSide) (s : State) : (setSpan sd f s).mot = s.mot := by
  cases sd <;> rfl
@[simp] theorem setSpan_afe (sd : Side) (f : SpanSide → SpanSide) (s : State) : (setSpan sd f s).afe = s.afe := by
  cases sd <;> rfl
@[simp] theorem setSpan_pwr (sd : Side) (f : SpanSide → SpanSide) (s : State) : (setSpan sd f s).pwr = s.pwr := by
  cases sd <;> rfl
@[simp] theorem setSpan_zwd (sd : Side) (f : SpanSide → SpanSide) (s : State) : (setSpan sd f s).zwd = s.zwd := by
  cases sd <;> rfl
@[simp] theorem setSpan_glean (sd : Side) (f : SpanSide → SpanSide) (s : State) : (setSpan sd f s).glean = s.glean := by
  cases sd <;> rfl
@[simp] theorem setSpan_lanes (sd : Side) (f : SpanSide → SpanSide) (s : State) : (setSpan sd f s).lanes = s.lanes := by
  cases sd <;> rfl
@[simp] theorem setSpan_ledger (sd : Side) (f : SpanSide → SpanSide) (s : State) : (setSpan sd f s).ledger = s.ledger := by
  cases sd <;> rfl
@[simp] theorem setSpan_jtag (sd : Side) (f : SpanSide → SpanSide) (s : State) : (setSpan sd f s).jtag = s.jtag := by
  cases sd <;> rfl
@[simp] theorem setSpan_flash (sd : Side) (f : SpanSide → SpanSide) (s : State) : (setSpan sd f s).flash = s.flash := by
  cases sd <;> rfl
@[simp] theorem setSpan_freeCtr (sd : Side) (f : SpanSide → SpanSide) (s : State) : (setSpan sd f s).freeCtr = s.freeCtr := by
  cases sd <;> rfl
@[simp] theorem setSpan_out (sd : Side) (f : SpanSide → SpanSide) (s : State) : (setSpan sd f s).out = s.out := by
  cases sd <;> rfl
@[simp] theorem setSpan_pending (sd : Side) (f : SpanSide → SpanSide) (s : State) : (setSpan sd f s).pending = s.pending := by
  cases sd <;> rfl
@[simp] theorem spanOf_setSpan (sd : Side) (f : SpanSide → SpanSide) (s : State) :
    spanOf sd (setSpan sd f s) = f (spanOf sd s) := by cases sd <;> rfl
@[simp] theorem reg_setSpan (off : Nat) (sd : Side) (f : SpanSide → SpanSide) (s : State) :
    reg off (setSpan sd f s) = reg off s := by cases sd <;> rfl
@[simp] theorem rd_setSpan (g : Fld) (sd : Side) (f : SpanSide → SpanSide) (s : State) :
    rd g (setSpan sd f s) = rd g s := by cases sd <;> rfl
@[simp] theorem on_setSpan (g : Fld) (sd : Side) (f : SpanSide → SpanSide) (s : State) :
    on g (setSpan sd f s) = on g s := by cases sd <;> rfl

@[simp] theorem emit_term (o : Output) (s : State) : (emit o s).term = s.term := rfl
@[simp] theorem emit_pcie (o : Output) (s : State) : (emit o s).pcie = s.pcie := rfl
@[simp] theorem emit_zwirdo (o : Output) (s : State) : (emit o s).zwirdo = s.zwirdo := rfl
@[simp] theorem emit_mgmt (o : Output) (s : State) : (emit o s).mgmt = s.mgmt := rfl
@[simp] theorem emit_line (o : Output) (s : State) : (emit o s).line = s.line := rfl
@[simp] theorem emit_bt (o : Output) (s : State) : (emit o s).bt = s.bt := rfl
@[simp] theorem emit_staged (o : Output) (s : State) : (emit o s).staged = s.staged := rfl
@[simp] theorem emit_wrote (o : Output) (s : State) : (emit o s).wrote = s.wrote := rfl
@[simp] theorem emit_boot (o : Output) (s : State) : (emit o s).boot = s.boot := rfl
@[simp] theorem emit_byp (o : Output) (s : State) : (emit o s).byp = s.byp := rfl
@[simp] theorem emit_span (o : Output) (s : State) : (emit o s).span = s.span := rfl
@[simp] theorem emit_frame (o : Output) (s : State) : (emit o s).frame = s.frame := rfl
@[simp] theorem emit_regn (o : Output) (s : State) : (emit o s).regn = s.regn := rfl
@[simp] theorem emit_note (o : Output) (s : State) : (emit o s).note = s.note := rfl
@[simp] theorem emit_win (o : Output) (s : State) : (emit o s).win = s.win := rfl
@[simp] theorem emit_key (o : Output) (s : State) : (emit o s).key = s.key := rfl
@[simp] theorem emit_th (o : Output) (s : State) : (emit o s).th = s.th := rfl
@[simp] theorem emit_q (o : Output) (s : State) : (emit o s).q = s.q := rfl
@[simp] theorem emit_host (o : Output) (s : State) : (emit o s).host = s.host := rfl
@[simp] theorem emit_eth (o : Output) (s : State) : (emit o s).eth = s.eth := rfl
@[simp] theorem emit_show_ (o : Output) (s : State) : (emit o s).show_ = s.show_ := rfl
@[simp] theorem emit_mot (o : Output) (s : State) : (emit o s).mot = s.mot := rfl
@[simp] theorem emit_afe (o : Output) (s : State) : (emit o s).afe = s.afe := rfl
@[simp] theorem emit_pwr (o : Output) (s : State) : (emit o s).pwr = s.pwr := rfl
@[simp] theorem emit_zwd (o : Output) (s : State) : (emit o s).zwd = s.zwd := rfl
@[simp] theorem emit_glean (o : Output) (s : State) : (emit o s).glean = s.glean := rfl
@[simp] theorem emit_lanes (o : Output) (s : State) : (emit o s).lanes = s.lanes := rfl
@[simp] theorem emit_ledger (o : Output) (s : State) : (emit o s).ledger = s.ledger := rfl
@[simp] theorem emit_jtag (o : Output) (s : State) : (emit o s).jtag = s.jtag := rfl
@[simp] theorem emit_flash (o : Output) (s : State) : (emit o s).flash = s.flash := rfl
@[simp] theorem emit_freeCtr (o : Output) (s : State) : (emit o s).freeCtr = s.freeCtr := rfl
@[simp] theorem emit_pending (o : Output) (s : State) : (emit o s).pending = s.pending := rfl
@[simp] theorem emit_out (o : Output) (s : State) : (emit o s).out = o :: s.out := rfl
@[simp] theorem reg_emit (off : Nat) (o : Output) (s : State) : reg off (emit o s) = reg off s := rfl
@[simp] theorem rd_emit (g : Fld) (o : Output) (s : State) : rd g (emit o s) = rd g s := rfl
@[simp] theorem on_emit (g : Fld) (o : Output) (s : State) : on g (emit o s) = on g s := rfl

@[simp] theorem setReg_term (off : Nat) (v : Word) (s : State) : (setReg off v s).term = s.term := rfl
@[simp] theorem setReg_pcie (off : Nat) (v : Word) (s : State) : (setReg off v s).pcie = s.pcie := rfl
@[simp] theorem setReg_zwirdo (off : Nat) (v : Word) (s : State) : (setReg off v s).zwirdo = s.zwirdo := rfl
@[simp] theorem setReg_mgmt (off : Nat) (v : Word) (s : State) : (setReg off v s).mgmt = s.mgmt := rfl
@[simp] theorem setReg_line (off : Nat) (v : Word) (s : State) : (setReg off v s).line = s.line := rfl
@[simp] theorem setReg_bt (off : Nat) (v : Word) (s : State) : (setReg off v s).bt = s.bt := rfl
@[simp] theorem setReg_staged (off : Nat) (v : Word) (s : State) : (setReg off v s).staged = s.staged := rfl
@[simp] theorem setReg_wrote (off : Nat) (v : Word) (s : State) : (setReg off v s).wrote = s.wrote := rfl
@[simp] theorem setReg_boot (off : Nat) (v : Word) (s : State) : (setReg off v s).boot = s.boot := rfl
@[simp] theorem setReg_byp (off : Nat) (v : Word) (s : State) : (setReg off v s).byp = s.byp := rfl
@[simp] theorem setReg_span (off : Nat) (v : Word) (s : State) : (setReg off v s).span = s.span := rfl
@[simp] theorem setReg_frame (off : Nat) (v : Word) (s : State) : (setReg off v s).frame = s.frame := rfl
@[simp] theorem setReg_regn (off : Nat) (v : Word) (s : State) : (setReg off v s).regn = s.regn := rfl
@[simp] theorem setReg_note (off : Nat) (v : Word) (s : State) : (setReg off v s).note = s.note := rfl
@[simp] theorem setReg_win (off : Nat) (v : Word) (s : State) : (setReg off v s).win = s.win := rfl
@[simp] theorem setReg_key (off : Nat) (v : Word) (s : State) : (setReg off v s).key = s.key := rfl
@[simp] theorem setReg_th (off : Nat) (v : Word) (s : State) : (setReg off v s).th = s.th := rfl
@[simp] theorem setReg_q (off : Nat) (v : Word) (s : State) : (setReg off v s).q = s.q := rfl
@[simp] theorem setReg_host (off : Nat) (v : Word) (s : State) : (setReg off v s).host = s.host := rfl
@[simp] theorem setReg_eth (off : Nat) (v : Word) (s : State) : (setReg off v s).eth = s.eth := rfl
@[simp] theorem setReg_show_ (off : Nat) (v : Word) (s : State) : (setReg off v s).show_ = s.show_ := rfl
@[simp] theorem setReg_mot (off : Nat) (v : Word) (s : State) : (setReg off v s).mot = s.mot := rfl
@[simp] theorem setReg_afe (off : Nat) (v : Word) (s : State) : (setReg off v s).afe = s.afe := rfl
@[simp] theorem setReg_pwr (off : Nat) (v : Word) (s : State) : (setReg off v s).pwr = s.pwr := rfl
@[simp] theorem setReg_zwd (off : Nat) (v : Word) (s : State) : (setReg off v s).zwd = s.zwd := rfl
@[simp] theorem setReg_glean (off : Nat) (v : Word) (s : State) : (setReg off v s).glean = s.glean := rfl
@[simp] theorem setReg_lanes (off : Nat) (v : Word) (s : State) : (setReg off v s).lanes = s.lanes := rfl
@[simp] theorem setReg_ledger (off : Nat) (v : Word) (s : State) : (setReg off v s).ledger = s.ledger := rfl
@[simp] theorem setReg_jtag (off : Nat) (v : Word) (s : State) : (setReg off v s).jtag = s.jtag := rfl
@[simp] theorem setReg_flash (off : Nat) (v : Word) (s : State) : (setReg off v s).flash = s.flash := rfl
@[simp] theorem setReg_freeCtr (off : Nat) (v : Word) (s : State) : (setReg off v s).freeCtr = s.freeCtr := rfl
@[simp] theorem setReg_out (off : Nat) (v : Word) (s : State) : (setReg off v s).out = s.out := rfl
@[simp] theorem setReg_pending (off : Nat) (v : Word) (s : State) : (setReg off v s).pending = s.pending := rfl

@[simp] theorem wr_term (f : Fld) (v : Nat) (s : State) : (wr f v s).term = s.term := rfl
@[simp] theorem wr_pcie (f : Fld) (v : Nat) (s : State) : (wr f v s).pcie = s.pcie := rfl
@[simp] theorem wr_zwirdo (f : Fld) (v : Nat) (s : State) : (wr f v s).zwirdo = s.zwirdo := rfl
@[simp] theorem wr_mgmt (f : Fld) (v : Nat) (s : State) : (wr f v s).mgmt = s.mgmt := rfl
@[simp] theorem wr_line (f : Fld) (v : Nat) (s : State) : (wr f v s).line = s.line := rfl
@[simp] theorem wr_bt (f : Fld) (v : Nat) (s : State) : (wr f v s).bt = s.bt := rfl
@[simp] theorem wr_staged (f : Fld) (v : Nat) (s : State) : (wr f v s).staged = s.staged := rfl
@[simp] theorem wr_wrote (f : Fld) (v : Nat) (s : State) : (wr f v s).wrote = s.wrote := rfl
@[simp] theorem wr_boot (f : Fld) (v : Nat) (s : State) : (wr f v s).boot = s.boot := rfl
@[simp] theorem wr_byp (f : Fld) (v : Nat) (s : State) : (wr f v s).byp = s.byp := rfl
@[simp] theorem wr_span (f : Fld) (v : Nat) (s : State) : (wr f v s).span = s.span := rfl
@[simp] theorem wr_frame (f : Fld) (v : Nat) (s : State) : (wr f v s).frame = s.frame := rfl
@[simp] theorem wr_regn (f : Fld) (v : Nat) (s : State) : (wr f v s).regn = s.regn := rfl
@[simp] theorem wr_note (f : Fld) (v : Nat) (s : State) : (wr f v s).note = s.note := rfl
@[simp] theorem wr_win (f : Fld) (v : Nat) (s : State) : (wr f v s).win = s.win := rfl
@[simp] theorem wr_key (f : Fld) (v : Nat) (s : State) : (wr f v s).key = s.key := rfl
@[simp] theorem wr_th (f : Fld) (v : Nat) (s : State) : (wr f v s).th = s.th := rfl
@[simp] theorem wr_q (f : Fld) (v : Nat) (s : State) : (wr f v s).q = s.q := rfl
@[simp] theorem wr_host (f : Fld) (v : Nat) (s : State) : (wr f v s).host = s.host := rfl
@[simp] theorem wr_eth (f : Fld) (v : Nat) (s : State) : (wr f v s).eth = s.eth := rfl
@[simp] theorem wr_show_ (f : Fld) (v : Nat) (s : State) : (wr f v s).show_ = s.show_ := rfl
@[simp] theorem wr_mot (f : Fld) (v : Nat) (s : State) : (wr f v s).mot = s.mot := rfl
@[simp] theorem wr_afe (f : Fld) (v : Nat) (s : State) : (wr f v s).afe = s.afe := rfl
@[simp] theorem wr_pwr (f : Fld) (v : Nat) (s : State) : (wr f v s).pwr = s.pwr := rfl
@[simp] theorem wr_zwd (f : Fld) (v : Nat) (s : State) : (wr f v s).zwd = s.zwd := rfl
@[simp] theorem wr_glean (f : Fld) (v : Nat) (s : State) : (wr f v s).glean = s.glean := rfl
@[simp] theorem wr_lanes (f : Fld) (v : Nat) (s : State) : (wr f v s).lanes = s.lanes := rfl
@[simp] theorem wr_ledger (f : Fld) (v : Nat) (s : State) : (wr f v s).ledger = s.ledger := rfl
@[simp] theorem wr_jtag (f : Fld) (v : Nat) (s : State) : (wr f v s).jtag = s.jtag := rfl
@[simp] theorem wr_flash (f : Fld) (v : Nat) (s : State) : (wr f v s).flash = s.flash := rfl
@[simp] theorem wr_freeCtr (f : Fld) (v : Nat) (s : State) : (wr f v s).freeCtr = s.freeCtr := rfl
@[simp] theorem wr_out (f : Fld) (v : Nat) (s : State) : (wr f v s).out = s.out := rfl
@[simp] theorem wr_pending (f : Fld) (v : Nat) (s : State) : (wr f v s).pending = s.pending := rfl

@[simp] theorem countN_term (i n : Nat) (s : State) : (countN i n s).term = s.term := (counting_countN i n s).rest.term rfl
@[simp] theorem countN_pcie (i n : Nat) (s : State) : (countN i n s).pcie = s.pcie := (counting_countN i n s).rest.pcie rfl
@[simp] theorem countN_zwirdo (i n : Nat) (s : State) : (countN i n s).zwirdo = s.zwirdo := (counting_countN i n s).rest.zwirdo rfl
@[simp] theorem countN_mgmt (i n : Nat) (s : State) : (countN i n s).mgmt = s.mgmt := (counting_countN i n s).rest.mgmt rfl
@[simp] theorem countN_line (i n : Nat) (s : State) : (countN i n s).line = s.line := (counting_countN i n s).rest.line rfl
@[simp] theorem countN_bt (i n : Nat) (s : State) : (countN i n s).bt = s.bt := (counting_countN i n s).rest.bt rfl
@[simp] theorem countN_staged (i n : Nat) (s : State) : (countN i n s).staged = s.staged := (counting_countN i n s).rest.staged rfl
@[simp] theorem countN_wrote (i n : Nat) (s : State) : (countN i n s).wrote = s.wrote := (counting_countN i n s).rest.wrote rfl
@[simp] theorem countN_boot (i n : Nat) (s : State) : (countN i n s).boot = s.boot := (counting_countN i n s).rest.boot rfl
@[simp] theorem countN_byp (i n : Nat) (s : State) : (countN i n s).byp = s.byp := (counting_countN i n s).rest.byp rfl
@[simp] theorem countN_span (i n : Nat) (s : State) : (countN i n s).span = s.span := (counting_countN i n s).rest.span rfl
@[simp] theorem countN_frame (i n : Nat) (s : State) : (countN i n s).frame = s.frame := (counting_countN i n s).rest.frame rfl
@[simp] theorem countN_regn (i n : Nat) (s : State) : (countN i n s).regn = s.regn := (counting_countN i n s).rest.regn rfl
@[simp] theorem countN_note (i n : Nat) (s : State) : (countN i n s).note = s.note := (counting_countN i n s).rest.note rfl
@[simp] theorem countN_win (i n : Nat) (s : State) : (countN i n s).win = s.win := (counting_countN i n s).rest.win rfl
@[simp] theorem countN_key (i n : Nat) (s : State) : (countN i n s).key = s.key := (counting_countN i n s).rest.key rfl
@[simp] theorem countN_th (i n : Nat) (s : State) : (countN i n s).th = s.th := (counting_countN i n s).rest.th rfl
@[simp] theorem countN_q (i n : Nat) (s : State) : (countN i n s).q = s.q := (counting_countN i n s).rest.q rfl
@[simp] theorem countN_eth (i n : Nat) (s : State) : (countN i n s).eth = s.eth := (counting_countN i n s).rest.eth rfl
@[simp] theorem countN_show_ (i n : Nat) (s : State) : (countN i n s).show_ = s.show_ := (counting_countN i n s).rest.show_ rfl
@[simp] theorem countN_mot (i n : Nat) (s : State) : (countN i n s).mot = s.mot := (counting_countN i n s).rest.mot rfl
@[simp] theorem countN_afe (i n : Nat) (s : State) : (countN i n s).afe = s.afe := (counting_countN i n s).rest.afe rfl
@[simp] theorem countN_pwr (i n : Nat) (s : State) : (countN i n s).pwr = s.pwr := (counting_countN i n s).rest.pwr rfl
@[simp] theorem countN_zwd (i n : Nat) (s : State) : (countN i n s).zwd = s.zwd := (counting_countN i n s).rest.zwd rfl
@[simp] theorem countN_glean (i n : Nat) (s : State) : (countN i n s).glean = s.glean := (counting_countN i n s).rest.glean rfl
@[simp] theorem countN_lanes (i n : Nat) (s : State) : (countN i n s).lanes = s.lanes := (counting_countN i n s).rest.lanes rfl
@[simp] theorem countN_ledger (i n : Nat) (s : State) : (countN i n s).ledger = s.ledger := (counting_countN i n s).rest.ledger rfl
@[simp] theorem countN_jtag (i n : Nat) (s : State) : (countN i n s).jtag = s.jtag := (counting_countN i n s).rest.jtag rfl
@[simp] theorem countN_flash (i n : Nat) (s : State) : (countN i n s).flash = s.flash := (counting_countN i n s).rest.flash rfl
@[simp] theorem countN_out (i n : Nat) (s : State) : (countN i n s).out = s.out := (counting_countN i n s).rest.out rfl
@[simp] theorem countN_pending (i n : Nat) (s : State) : (countN i n s).pending = s.pending := (counting_countN i n s).pending

@[simp] theorem count_term (i : Nat) (s : State) : (count i s).term = s.term := (counting_count i s).rest.term rfl
@[simp] theorem count_pcie (i : Nat) (s : State) : (count i s).pcie = s.pcie := (counting_count i s).rest.pcie rfl
@[simp] theorem count_zwirdo (i : Nat) (s : State) : (count i s).zwirdo = s.zwirdo := (counting_count i s).rest.zwirdo rfl
@[simp] theorem count_mgmt (i : Nat) (s : State) : (count i s).mgmt = s.mgmt := (counting_count i s).rest.mgmt rfl
@[simp] theorem count_line (i : Nat) (s : State) : (count i s).line = s.line := (counting_count i s).rest.line rfl
@[simp] theorem count_bt (i : Nat) (s : State) : (count i s).bt = s.bt := (counting_count i s).rest.bt rfl
@[simp] theorem count_staged (i : Nat) (s : State) : (count i s).staged = s.staged := (counting_count i s).rest.staged rfl
@[simp] theorem count_wrote (i : Nat) (s : State) : (count i s).wrote = s.wrote := (counting_count i s).rest.wrote rfl
@[simp] theorem count_boot (i : Nat) (s : State) : (count i s).boot = s.boot := (counting_count i s).rest.boot rfl
@[simp] theorem count_byp (i : Nat) (s : State) : (count i s).byp = s.byp := (counting_count i s).rest.byp rfl
@[simp] theorem count_span (i : Nat) (s : State) : (count i s).span = s.span := (counting_count i s).rest.span rfl
@[simp] theorem count_frame (i : Nat) (s : State) : (count i s).frame = s.frame := (counting_count i s).rest.frame rfl
@[simp] theorem count_regn (i : Nat) (s : State) : (count i s).regn = s.regn := (counting_count i s).rest.regn rfl
@[simp] theorem count_note (i : Nat) (s : State) : (count i s).note = s.note := (counting_count i s).rest.note rfl
@[simp] theorem count_win (i : Nat) (s : State) : (count i s).win = s.win := (counting_count i s).rest.win rfl
@[simp] theorem count_key (i : Nat) (s : State) : (count i s).key = s.key := (counting_count i s).rest.key rfl
@[simp] theorem count_th (i : Nat) (s : State) : (count i s).th = s.th := (counting_count i s).rest.th rfl
@[simp] theorem count_q (i : Nat) (s : State) : (count i s).q = s.q := (counting_count i s).rest.q rfl
@[simp] theorem count_eth (i : Nat) (s : State) : (count i s).eth = s.eth := (counting_count i s).rest.eth rfl
@[simp] theorem count_show_ (i : Nat) (s : State) : (count i s).show_ = s.show_ := (counting_count i s).rest.show_ rfl
@[simp] theorem count_mot (i : Nat) (s : State) : (count i s).mot = s.mot := (counting_count i s).rest.mot rfl
@[simp] theorem count_afe (i : Nat) (s : State) : (count i s).afe = s.afe := (counting_count i s).rest.afe rfl
@[simp] theorem count_pwr (i : Nat) (s : State) : (count i s).pwr = s.pwr := (counting_count i s).rest.pwr rfl
@[simp] theorem count_zwd (i : Nat) (s : State) : (count i s).zwd = s.zwd := (counting_count i s).rest.zwd rfl
@[simp] theorem count_glean (i : Nat) (s : State) : (count i s).glean = s.glean := (counting_count i s).rest.glean rfl
@[simp] theorem count_lanes (i : Nat) (s : State) : (count i s).lanes = s.lanes := (counting_count i s).rest.lanes rfl
@[simp] theorem count_ledger (i : Nat) (s : State) : (count i s).ledger = s.ledger := (counting_count i s).rest.ledger rfl
@[simp] theorem count_jtag (i : Nat) (s : State) : (count i s).jtag = s.jtag := (counting_count i s).rest.jtag rfl
@[simp] theorem count_flash (i : Nat) (s : State) : (count i s).flash = s.flash := (counting_count i s).rest.flash rfl
@[simp] theorem count_out (i : Nat) (s : State) : (count i s).out = s.out := (counting_count i s).rest.out rfl
@[simp] theorem count_pending (i : Nat) (s : State) : (count i s).pending = s.pending := (counting_count i s).pending

@[simp] theorem raise_term (c x : Nat) (s : State) : (raise c x s).term = s.term := (counting_raise c x s).rest.term rfl
@[simp] theorem raise_pcie (c x : Nat) (s : State) : (raise c x s).pcie = s.pcie := (counting_raise c x s).rest.pcie rfl
@[simp] theorem raise_zwirdo (c x : Nat) (s : State) : (raise c x s).zwirdo = s.zwirdo := (counting_raise c x s).rest.zwirdo rfl
@[simp] theorem raise_mgmt (c x : Nat) (s : State) : (raise c x s).mgmt = s.mgmt := (counting_raise c x s).rest.mgmt rfl
@[simp] theorem raise_line (c x : Nat) (s : State) : (raise c x s).line = s.line := (counting_raise c x s).rest.line rfl
@[simp] theorem raise_bt (c x : Nat) (s : State) : (raise c x s).bt = s.bt := (counting_raise c x s).rest.bt rfl
@[simp] theorem raise_staged (c x : Nat) (s : State) : (raise c x s).staged = s.staged := (counting_raise c x s).rest.staged rfl
@[simp] theorem raise_wrote (c x : Nat) (s : State) : (raise c x s).wrote = s.wrote := (counting_raise c x s).rest.wrote rfl
@[simp] theorem raise_boot (c x : Nat) (s : State) : (raise c x s).boot = s.boot := (counting_raise c x s).rest.boot rfl
@[simp] theorem raise_byp (c x : Nat) (s : State) : (raise c x s).byp = s.byp := (counting_raise c x s).rest.byp rfl
@[simp] theorem raise_span (c x : Nat) (s : State) : (raise c x s).span = s.span := (counting_raise c x s).rest.span rfl
@[simp] theorem raise_frame (c x : Nat) (s : State) : (raise c x s).frame = s.frame := (counting_raise c x s).rest.frame rfl
@[simp] theorem raise_regn (c x : Nat) (s : State) : (raise c x s).regn = s.regn := (counting_raise c x s).rest.regn rfl
@[simp] theorem raise_note (c x : Nat) (s : State) : (raise c x s).note = s.note := (counting_raise c x s).rest.note rfl
@[simp] theorem raise_win (c x : Nat) (s : State) : (raise c x s).win = s.win := (counting_raise c x s).rest.win rfl
@[simp] theorem raise_key (c x : Nat) (s : State) : (raise c x s).key = s.key := (counting_raise c x s).rest.key rfl
@[simp] theorem raise_th (c x : Nat) (s : State) : (raise c x s).th = s.th := (counting_raise c x s).rest.th rfl
@[simp] theorem raise_q (c x : Nat) (s : State) : (raise c x s).q = s.q := (counting_raise c x s).rest.q rfl
@[simp] theorem raise_eth (c x : Nat) (s : State) : (raise c x s).eth = s.eth := (counting_raise c x s).rest.eth rfl
@[simp] theorem raise_show_ (c x : Nat) (s : State) : (raise c x s).show_ = s.show_ := (counting_raise c x s).rest.show_ rfl
@[simp] theorem raise_mot (c x : Nat) (s : State) : (raise c x s).mot = s.mot := (counting_raise c x s).rest.mot rfl
@[simp] theorem raise_afe (c x : Nat) (s : State) : (raise c x s).afe = s.afe := (counting_raise c x s).rest.afe rfl
@[simp] theorem raise_pwr (c x : Nat) (s : State) : (raise c x s).pwr = s.pwr := (counting_raise c x s).rest.pwr rfl
@[simp] theorem raise_zwd (c x : Nat) (s : State) : (raise c x s).zwd = s.zwd := (counting_raise c x s).rest.zwd rfl
@[simp] theorem raise_glean (c x : Nat) (s : State) : (raise c x s).glean = s.glean := (counting_raise c x s).rest.glean rfl
@[simp] theorem raise_lanes (c x : Nat) (s : State) : (raise c x s).lanes = s.lanes := (counting_raise c x s).rest.lanes rfl
@[simp] theorem raise_ledger (c x : Nat) (s : State) : (raise c x s).ledger = s.ledger := (counting_raise c x s).rest.ledger rfl
@[simp] theorem raise_jtag (c x : Nat) (s : State) : (raise c x s).jtag = s.jtag := (counting_raise c x s).rest.jtag rfl
@[simp] theorem raise_flash (c x : Nat) (s : State) : (raise c x s).flash = s.flash := (counting_raise c x s).rest.flash rfl
@[simp] theorem raise_out (c x : Nat) (s : State) : (raise c x s).out = s.out := (counting_raise c x s).rest.out rfl
@[simp] theorem raise_pending (c x : Nat) (s : State) : (raise c x s).pending = s.pending := (counting_raise c x s).pending

end Sys2Proof.Laws
end

