-- ==== Sys2Proof/Laws/Counting.lean ====
section
/-! SUPPORT. What counting does to the counters (R461) and what raising an event does to the queue of waiting events
(R302). -/

namespace Sys2Proof.Laws

open Sys2Proof Sys2Proof.Machine

variable {s : State}

/-- No counter shares its register with another. -/
theorem counterAddr_inj {i j : Nat} (hi : i < 312) (hj : j < 312) (h : counterAddr i = counterAddr j) : i = j := by
  have ei : (i - 222) / 15 % 6 = (i - 222) / 15 := Nat.mod_eq_of_lt (by omega)
  have ej : (j - 222) / 15 % 6 = (j - 222) / 15 := Nat.mod_eq_of_lt (by omega)
  unfold counterAddr at h
  rw [ei, ej] at h
  split at h <;> split at h <;> omega

/-- A counter is no register of the saturation bits, and not the alert. -/
theorem counterAddr_ne (i : Nat) (hi : i < 312) (n : Nat) :
    counterAddr i ≠ R.LEDGER_GRP_SAT n ∧ counterAddr i ≠ R.LEDGER_SUMMARY ∧ counterAddr i ≠ R.ZWD_ALERT := by
  unfold counterAddr R.LEDGER_GRP_SAT R.LEDGER_SUMMARY R.ZWD_ALERT
  split <;> omega

theorem reg_alertSet (off b : Nat) (h : off ≠ R.ZWD_ALERT) : reg off (alertSet b s) = reg off s := by
  unfold alertSet
  dsimp only
  split
  · rfl
  · split
    · rw [reg_wr_other _ _ _ _ h, reg_wr_other _ _ _ _ h]
    · rw [reg_wr_other _ _ _ _ h]

theorem reg_satMark (off i : Nat) (h : off ≠ R.ZWD_ALERT) (hs : off ≠ R.LEDGER_SUMMARY)
    (hg : off ≠ R.LEDGER_GRP_SAT (groupOf i)) : reg off (satMark i s).1 = reg off s := by
  unfold satMark
  dsimp only
  split
  · rw [reg_wr_other _ _ _ _ hg]
  · rw [reg_alertSet _ _ h, reg_wr_other _ _ _ _ hs, reg_wr_other _ _ _ _ hg]

theorem reg_bump_other (off i n : Nat) (h : off ≠ counterAddr i) : reg off (bump i n s).1 = reg off s :=
  reg_setReg_other _ _ _ _ h

theorem reg_dropEvent_counter (i : Nat) (hi : i < 312) (h : i ≠ C.EVT_LOST) :
    reg (counterAddr i) (dropEvent s) = reg (counterAddr i) s := by
  have hc := counterAddr_ne i hi (groupOf C.EVT_LOST)
  have hb : counterAddr i ≠ counterAddr C.EVT_LOST := fun e => h (counterAddr_inj hi (by decide) e)
  unfold dropEvent
  dsimp only
  repeat' split
  all_goals first
    | exact reg_bump_other _ _ _ hb
    | exact (reg_satMark _ _ hc.2.2 hc.2.1 hc.1).trans (reg_bump_other _ _ _ hb)
    | rfl

/-- Raising an event changes no counter but EVT_LOST. -/
theorem reg_raise_counter (i c a : Nat) (hi : i < 312) (h : i ≠ C.EVT_LOST) :
    reg (counterAddr i) (raise c a s) = reg (counterAddr i) s := by
  have hz := (counterAddr_ne i hi 0).2.2
  have hr : reg (counterAddr i) (raiseWith c a 0 s) = reg (counterAddr i) s := by
    unfold raiseWith
    dsimp only
    split
    · rfl
    · split
      · rfl
      · exact reg_dropEvent_counter i hi h
  unfold raise alertOfEvent
  split
  · rw [reg_alertSet _ _ hz, hr]
  · split
    · rw [reg_alertSet _ _ hz, hr]
    · exact hr

/-- R461: a counter counts, and stands at its largest value. -/
theorem reg_countN_same (i n : Nat) (hi : i < 312) (h : i ≠ C.EVT_LOST) (hc : countsNow s = true) :
    reg (counterAddr i) (countN i n s) = BitVec.ofNat 40 (min countMax ((reg (counterAddr i) s).toNat + n)) := by
  have hs := counterAddr_ne i hi (groupOf i)
  have hb : reg (counterAddr i) (bump i n s).1 = BitVec.ofNat 40 (min countMax ((reg (counterAddr i) s).toNat + n)) := by
    unfold bump
    dsimp only
    rw [reg_setReg_same]
    congr 1
  unfold countN
  by_cases hn : 0 < n
  · simp only [hc, hn, decide_true, Bool.and_self, if_true]
    split
    · split
      · rw [reg_raise_counter _ _ _ hi h, reg_satMark _ _ hs.2.2 hs.2.1 hs.1, hb]
      · rw [reg_satMark _ _ hs.2.2 hs.2.1 hs.1, hb]
    · exact hb
  · have hm : (reg (counterAddr i) s).toNat ≤ countMax := by
      have := (reg (counterAddr i) s).isLt
      unfold countMax
      omega
    have : n = 0 := by omega
    subst this
    simp [Nat.min_eq_right hm]

theorem reg_count_same (i : Nat) (hi : i < 312) (h : i ≠ C.EVT_LOST) (hc : countsNow s = true) :
    reg (counterAddr i) (count i s) = BitVec.ofNat 40 (min countMax ((reg (counterAddr i) s).toNat + 1)) :=
  reg_countN_same i 1 hi h hc

theorem reg_countN_counter (i j n : Nat) (hi : i < 312) (hj : j < 312) (h : i ≠ C.EVT_LOST) (hij : i ≠ j) :
    reg (counterAddr i) (countN j n s) = reg (counterAddr i) s := by
  have hs := counterAddr_ne i hi (groupOf j)
  have hb : reg (counterAddr i) (bump j n s).1 = reg (counterAddr i) s :=
    reg_bump_other _ _ _ (fun e => hij (counterAddr_inj hi hj e))
  unfold countN
  dsimp only
  split
  · split
    · split
      · rw [reg_raise_counter _ _ _ hi h, reg_satMark _ _ hs.2.2 hs.2.1 hs.1, hb]
      · rw [reg_satMark _ _ hs.2.2 hs.2.1 hs.1, hb]
    · exact hb
  · rfl

/-! ### Events -/

theorem alertSet_events (b : Nat) : (alertSet b s).host.events = s.host.events := by
  unfold alertSet
  dsimp only
  split
  · rfl
  · split <;> rfl

/-- R302: an event raised while the queue has room is waiting afterwards. -/
theorem raised (c a : Nat) (h : s.host.events.length < 64) :
    ∃ e ∈ (raise c a s).host.events, e.code = c ∧ e.arg0 = a := by
  have hr : ∃ e ∈ (raiseWith c a 0 s).host.events, e.code = c ∧ e.arg0 = a := by
    unfold raiseWith
    dsimp only
    split
    · next k hk =>
      obtain ⟨hlt, hp, _⟩ := List.findIdx?_eq_some_iff_getElem.mp hk
      simp only [Bool.and_eq_true, beq_iff_eq] at hp
      refine ⟨_, List.getElem_mem (n := k) (by simpa using hlt), ?_⟩
      simpa [List.getElem_modify] using hp
    · rw [if_pos (Nat.lt_of_lt_of_le h (Nat.le_add_right _ _))]
      exact ⟨_, List.mem_append_right _ (List.mem_singleton.mpr rfl), rfl, rfl⟩
  unfold raise alertOfEvent
  split
  · rw [alertSet_events]; exact hr
  · split
    · rw [alertSet_events]; exact hr
    · exact hr

/-- The events that wait are still there, and at most `n` have joined them. -/
def Joined (n : Nat) (s t : State) : Prop :=
  t.host.events.length ≤ s.host.events.length + n ∧ ∀ c a, Claims.Waits c a s → Claims.Waits c a t

theorem Joined.trans {n m : Nat} {s t u : State} (h : Joined n s t) (g : Joined m t u) : Joined (n + m) s u :=
  ⟨by have := h.1; have := g.1; omega, fun c a w => g.2 c a (h.2 c a w)⟩

theorem Joined.of_events {s t : State} (h : t.host.events = s.host.events) : Joined 0 s t :=
  ⟨by rw [h]; omega, fun c a w => by unfold Claims.Waits at *; rw [h]; exact w⟩

theorem Joined.mono {n m : Nat} {s t : State} (h : Joined n s t) (hm : n ≤ m) : Joined m s t := ⟨by have := h.1; omega, h.2⟩

theorem dropEvent_events : (dropEvent s).host.events = s.host.events := by
  have hb : ∀ i n (x : State), (bump i n x).1.host.events = x.host.events := fun _ _ _ => rfl
  have hm : ∀ i (x : State), (satMark i x).1.host.events = x.host.events := by
    intro i x
    unfold satMark
    dsimp only
    split
    · rfl
    · exact alertSet_events _
  unfold dropEvent
  dsimp only
  split
  · split
    · split
      · exact (hm _ _).trans (hb _ _ _)
      · exact (hm _ _).trans (hb _ _ _)
    · exact hb _ _ _
  · rfl

theorem joined_alertSet (b : Nat) : Joined 0 s (alertSet b s) := .of_events (alertSet_events b)

theorem joined_raise (c a : Nat) : Joined 1 s (raise c a s) := by
  have hr : Joined 1 s (raiseWith c a 0 s) := by
    unfold raiseWith
    dsimp only
    split
    · next k _ =>
      refine ⟨by simp, fun c' a' ⟨e, he, h1, h2⟩ => ?_⟩
      obtain ⟨j, hj, rfl⟩ := List.getElem_of_mem he
      refine ⟨_, List.getElem_mem (n := j) (by simpa using hj), ?_⟩
      simp only [List.getElem_modify]
      split <;> exact ⟨h1, h2⟩
    · split
      · exact ⟨by simp [fresh], fun c' a' ⟨e, he, h⟩ => ⟨e, List.mem_append_left _ he, h⟩⟩
      · exact (Joined.of_events dropEvent_events).mono (by omega)
  unfold raise alertOfEvent
  split
  · exact hr.trans (joined_alertSet _)
  · split
    · exact hr.trans (joined_alertSet _)
    · exact hr

theorem joined_satMark (i : Nat) : Joined 0 s (satMark i s).1 := by
  unfold satMark
  dsimp only
  split
  · exact .of_events rfl
  · exact .of_events (alertSet_events _)

theorem joined_countN (i n : Nat) : Joined 1 s (countN i n s) := by
  have hb : Joined 0 s (bump i n s).1 := .of_events rfl
  unfold countN
  dsimp only
  split
  · split
    · split
      · exact (hb.trans (joined_satMark _)).trans (joined_raise _ _)
      · exact (hb.trans (joined_satMark _)).mono (by omega)
    · exact hb.mono (by omega)
  · exact (Joined.of_events rfl).mono (by omega)

theorem joined_count (i : Nat) : Joined 1 s (count i s) := joined_countN i 1

/-- R302: what is raised waits. -/
theorem waits_raise (c a : Nat) (h : s.host.events.length < 64) : Claims.Waits c a (raise c a s) := raised c a h

end Sys2Proof.Laws
end

