-- ==== Sys2Proof/Laws/KeepsGranary.lean ====
section
/-! SUPPORT. `Keeps` for the operations of Machine/Granary.lean. -/

set_option linter.unusedTactic false
set_option linter.unreachableTactic false

namespace Sys2Proof.Laws

open Sys2Proof Sys2Proof.Machine Sys2Proof.Safety

variable {A : Nat} {a₀ s : State}

theorem keeps_setItems (q : Nat) (l : List Item) (hA : Within 0x8000 A) (hK : Keeps A a₀ s) : Keeps A a₀ (setItems q l s) := by
  unfold setItems
  repeat' first
      | with_reducible assumption | ((with_reducible apply sub_of hA); exact rfl) | dsimp only | intro _
      | with_reducible apply keeps_part_q

theorem keeps_showShort  (hA : Within 0x400000000000000000000000 A) (hK : Keeps A a₀ s) : Keeps A a₀ (showShort s) := by
  unfold showShort
  repeat' first
      | with_reducible assumption | ((with_reducible apply sub_of hA); exact rfl) | dsimp only
      | with_reducible apply keeps_foldl | with_reducible apply keeps_wr | exact cov_GRAN_STATUS _ rfl (sub_of hA rfl)
      | with_reducible refine keeps_ite (fun _ => ?_) (fun _ => ?_) | split | intro _

theorem keeps_takeCells (n : Nat) (hA : Within 0x400000000000000000000000 A) (hK : Keeps A a₀ s) : Keeps A a₀ (takeCells n s) := by
  unfold takeCells
  repeat' first
      | with_reducible assumption | ((with_reducible apply sub_of hA); exact rfl) | dsimp only
      | with_reducible apply keeps_wr | exact cov_GRAN_STATUS _ rfl (sub_of hA rfl)
      | with_reducible refine keeps_ite (fun _ => ?_) (fun _ => ?_) | split | intro _

theorem keeps_giveFree (n : Nat) (hA : Within 0x400000000000000000000000 A) (hK : Keeps A a₀ s) : Keeps A a₀ (giveFree n s) := by
  unfold giveFree
  repeat' first
      | with_reducible assumption | ((with_reducible apply sub_of hA); exact rfl) | dsimp only
      | with_reducible apply keeps_wr | exact cov_GRAN_STATUS _ rfl (sub_of hA rfl) | intro _

theorem keeps_giveCells (cls : Nat) (n : Nat) (hA : Within 0x400000000000000000008000 A) (hK : Keeps A a₀ s) : Keeps A a₀ (giveCells cls n s) := by
  unfold giveCells
  repeat' first
      | with_reducible assumption | ((with_reducible apply sub_of hA); exact rfl) | dsimp only
      | with_reducible apply keeps_giveFree | with_reducible apply keeps_showShort | intro _
      | with_reducible apply keeps_part_q

theorem keeps_takeReserve (cls n : Nat) {t : State} (hA : Within 0x400000000000000000008000 A) (e : takeReserve cls n s = some t) (hK : Keeps A a₀ s) :
    Keeps A a₀ t := by
  unfold takeReserve at e
  dsimp only at e
  split at e
  · contradiction
  · obtain rfl := Option.some.inj e
    refine keeps_ite (fun _ => ?_) (fun _ => ?_)
    · exact keeps_showShort (sub_of hA rfl) (keeps_part_q _ (sub_of hA rfl) hK)
    · exact keeps_takeCells _ (sub_of hA rfl) (keeps_showShort (sub_of hA rfl) (keeps_part_q _ (sub_of hA rfl) hK))

theorem keeps_setDeficit (q : Nat) (d : Int) (hA : Within 0x8000 A) (hK : Keeps A a₀ s) : Keeps A a₀ (setDeficit q d s) := by
  unfold setDeficit
  repeat' first
      | with_reducible assumption | ((with_reducible apply sub_of hA); exact rfl) | dsimp only | intro _
      | with_reducible apply keeps_part_q

theorem keeps_leaveTurn (q : Nat) (hA : Within 0x8000 A) (hK : Keeps A a₀ s) : Keeps A a₀ (leaveTurn q s) := by
  unfold leaveTurn
  repeat' first
      | with_reducible assumption | ((with_reducible apply sub_of hA); exact rfl) | dsimp only
      | with_reducible apply keeps_setDeficit | intro _ | with_reducible apply keeps_part_q

theorem keeps_rotateTurn (q : Nat) (hA : Within 0x8000 A) (hK : Keeps A a₀ s) : Keeps A a₀ (rotateTurn q s) := by
  unfold rotateTurn
  repeat' first
      | with_reducible assumption | ((with_reducible apply sub_of hA); exact rfl) | dsimp only | intro _
      | with_reducible apply keeps_part_q

theorem keeps_nextPseq (q : Nat) (hA : Within 0x8000 A) (hK : Keeps A a₀ s) : Keeps A a₀ (nextPseq q s) := by
  unfold nextPseq
  repeat' first
      | with_reducible assumption | ((with_reducible apply sub_of hA); exact rfl) | dsimp only | intro _
      | with_reducible apply keeps_part_q

theorem keeps_keepItems (q : Nat) (keep : Item → Bool) (hA : Within 0x400000000000000000008000 A) (hK : Keeps A a₀ s) : Keeps A a₀ (keepItems q keep s) := by
  unfold keepItems
  repeat' first
      | with_reducible assumption | ((with_reducible apply sub_of hA); exact rfl) | dsimp only
      | with_reducible apply keeps_giveCells | with_reducible apply keeps_leaveTurn
      | with_reducible apply keeps_nextPseq | with_reducible apply keeps_setItems
      | with_reducible refine keeps_ite (fun _ => ?_) (fun _ => ?_) | split | intro _

theorem keeps_popHead (q : Nat) (hA : Within 0x400000000000000000008000 A) (hK : Keeps A a₀ s) : Keeps A a₀ (popHead q s) := by
  unfold popHead
  repeat' first
      | with_reducible assumption | ((with_reducible apply sub_of hA); exact rfl) | dsimp only
      | with_reducible apply keeps_giveCells | with_reducible apply keeps_leaveTurn
      | with_reducible apply keeps_setItems | with_reducible refine keeps_ite (fun _ => ?_) (fun _ => ?_) | split
      | intro _ | with_reducible refine keeps_of_snd (by with_reducible assumption) ?_
      | with_reducible refine keeps_of_fst (by with_reducible assumption) ?_

theorem keeps_flushQueue (q : Nat) (counter : Nat) (hA : Within 0x140060008000000000000000000400000000000000010018000 A) (hK : Keeps A a₀ s) : Keeps A a₀ (flushQueue q counter s) := by
  unfold flushQueue
  repeat' first
      | with_reducible assumption | ((with_reducible apply sub_of hA); exact rfl) | dsimp only
      | with_reducible apply keeps_countN | with_reducible apply keeps_keepItems | intro _

theorem keeps_sweepQueue (q : Nat) (hA : Within 0x140060008000000000000000000400000000000000010018000 A) (hK : Keeps A a₀ s) : Keeps A a₀ (sweepQueue q s) := by
  unfold sweepQueue
  repeat' first
      | with_reducible assumption | ((with_reducible apply sub_of hA); exact rfl) | dsimp only
      | with_reducible apply keeps_countN | with_reducible apply keeps_keepItems
      | with_reducible refine keeps_ite (fun _ => ?_) (fun _ => ?_) | split | intro _

theorem keeps_deadlineSweep (hA : Within 0x140060008000000000000000000400000000000000010018000 A) (hK : Keeps A a₀ s) : Keeps A a₀ (deadlineSweep s) := by
  unfold deadlineSweep
  repeat' first
      | with_reducible assumption | ((with_reducible apply sub_of hA); exact rfl) | dsimp only
      | with_reducible apply keeps_eachOf | with_reducible apply keeps_sweepQueue
      | with_reducible refine keeps_ite (fun _ => ?_) (fun _ => ?_) | split | intro _

theorem keeps_enqueue (q : Nat) (it : Item) (hA : Within 0x8000 A) (hK : Keeps A a₀ s) : Keeps A a₀ (enqueue q it s) := by
  unfold enqueue
  repeat' first
      | with_reducible assumption | ((with_reducible apply sub_of hA); exact rfl) | dsimp only
      | with_reducible apply keeps_rotateTurn | with_reducible apply keeps_setDeficit
      | with_reducible apply keeps_setItems | with_reducible refine keeps_ite (fun _ => ?_) (fun _ => ?_) | split
      | intro _

theorem keeps_refuseItem (q : Nat) (counter : Nat) (it : Item) (hA : Within 0x140060008000000000000000000400000000000000010018000 A) (hK : Keeps A a₀ s) : Keeps A a₀ (refuseItem q counter it s) := by
  unfold refuseItem
  repeat' first
      | with_reducible assumption | ((with_reducible apply sub_of hA); exact rfl) | dsimp only
      | with_reducible apply keeps_count | with_reducible apply keeps_giveCells | intro _

theorem keeps_offer (q : Nat) (it : Item) (hA : Within 0x140060008000000000000000000400000000000000010018000 A) (hK : Keeps A a₀ s) : Keeps A a₀ (offer q it s).1 := by
  unfold offer
  repeat' first
      | with_reducible assumption | ((with_reducible apply sub_of hA); exact rfl) | dsimp only
      | with_reducible apply keeps_enqueue | with_reducible apply keeps_refuseItem
      | with_reducible refine keeps_ite (fun _ => ?_) (fun _ => ?_)
      | with_reducible refine keeps_ite_snd (fun _ => ?_) (fun _ => ?_) | split | intro _

theorem keeps_submit (q : Nat) (src : Nat) (tag : Nat) (bytes : List Byte) (hA : Within 0x140060008000000000000000000400000000000000010018000 A) (hK : Keeps A a₀ s) : Keeps A a₀ (submit q src tag bytes s).1 := by
  unfold submit
  repeat' first
      | with_reducible assumption | ((with_reducible apply sub_of hA); exact rfl) | dsimp only
      | with_reducible apply keeps_count | with_reducible apply keeps_offer | with_reducible apply keeps_takeCells
      | with_reducible refine keeps_ite (fun _ => ?_) (fun _ => ?_)
      | with_reducible refine keeps_ite_snd (fun _ => ?_) (fun _ => ?_) | split | intro _

theorem keeps_submitOr (counter : Nat) (q : Nat) (src : Nat) (tag : Nat) (bytes : List Byte) (hA : Within 0x140060008000000000000000000400000000000000010018000 A) (hK : Keeps A a₀ s) : Keeps A a₀ (submitOr counter q src tag bytes s) := by
  unfold submitOr
  repeat' first
      | with_reducible assumption | ((with_reducible apply sub_of hA); exact rfl) | dsimp only
      | with_reducible apply keeps_count | with_reducible apply keeps_submit
      | with_reducible refine keeps_ite (fun _ => ?_) (fun _ => ?_)
      | with_reducible refine keeps_ite_snd (fun _ => ?_) (fun _ => ?_) | split | intro _
      | with_reducible refine keeps_of_snd (by with_reducible assumption) ?_
      | with_reducible refine keeps_of_fst (by with_reducible assumption) ?_

theorem keeps_meterColour (m : Nat) (b : Nat) (hA : Within 0x8000 A) (hK : Keeps A a₀ s) : Keeps A a₀ (meterColour m b s).2 := by
  unfold meterColour
  repeat' first
      | with_reducible assumption | ((with_reducible apply sub_of hA); exact rfl) | dsimp only
      | with_reducible refine keeps_ite (fun _ => ?_) (fun _ => ?_)
      | with_reducible refine keeps_ite_snd (fun _ => ?_) (fun _ => ?_) | split | intro _
      | with_reducible apply keeps_part_q

theorem keeps_meterPacket (m : Nat) (b : Nat) (hA : Within 0x140060008000000000000000000000000000000000010018000 A) (hK : Keeps A a₀ s) : Keeps A a₀ (meterPacket m b s).2 := by
  unfold meterPacket
  repeat' first
      | with_reducible assumption | ((with_reducible apply sub_of hA); exact rfl) | dsimp only
      | with_reducible apply keeps_count | with_reducible apply keeps_meterColour
      | with_reducible refine keeps_ite (fun _ => ?_) (fun _ => ?_)
      | with_reducible refine keeps_ite_snd (fun _ => ?_) (fun _ => ?_) | split | intro _
      | with_reducible refine keeps_of_snd (by with_reducible assumption) ?_
      | with_reducible refine keeps_of_fst (by with_reducible assumption) ?_

theorem keeps_chargeShaper (q : Nat) (units : Nat) (hA : Within 0x8000 A) (hK : Keeps A a₀ s) : Keeps A a₀ (chargeShaper q units s) := by
  unfold chargeShaper
  repeat' first
      | with_reducible assumption | ((with_reducible apply sub_of hA); exact rfl) | dsimp only
      | with_reducible refine keeps_ite (fun _ => ?_) (fun _ => ?_) | split | intro _
      | with_reducible apply keeps_part_q

theorem keeps_chargePort (k : Nat) (units : Nat) (hA : Within 0x8000 A) (hK : Keeps A a₀ s) : Keeps A a₀ (chargePort k units s) := by
  unfold chargePort
  repeat' first
      | with_reducible assumption | ((with_reducible apply sub_of hA); exact rfl) | dsimp only
      | with_reducible refine keeps_ite (fun _ => ?_) (fun _ => ?_) | split | intro _
      | with_reducible apply keeps_part_q

theorem keeps_gainShaper (q : Nat) (hA : Within 0x8000 A) (hK : Keeps A a₀ s) : Keeps A a₀ (gainShaper q s) := by
  unfold gainShaper
  repeat' first
      | with_reducible assumption | ((with_reducible apply sub_of hA); exact rfl) | dsimp only
      | with_reducible apply keeps_rotateTurn | with_reducible apply keeps_setDeficit
      | with_reducible refine keeps_ite (fun _ => ?_) (fun _ => ?_) | split | intro _
      | with_reducible apply keeps_part_q

theorem keeps_refillBuckets  (hA : Within 0x8000 A) (hK : Keeps A a₀ s) : Keeps A a₀ (refillBuckets s) := by
  unfold refillBuckets
  repeat' first
      | with_reducible assumption | ((with_reducible apply sub_of hA); exact rfl) | dsimp only
      | with_reducible apply keeps_eachOf | with_reducible apply keeps_gainShaper | intro _
      | with_reducible apply keeps_part_q

theorem keeps_pickQueue (inSet : Nat → Bool) (fits : Nat → State → Bool) (fuel : Nat) (hA : Within 0x8000 A) (hK : Keeps A a₀ s) : Keeps A a₀ (pickQueue inSet fits fuel s).2 := by
  induction fuel generalizing s with
  | zero =>
    unfold pickQueue
    repeat' first
        | with_reducible assumption | ((with_reducible apply sub_of hA); exact rfl) | dsimp only
        | with_reducible apply keeps_rotateTurn | with_reducible apply keeps_setDeficit
        | with_reducible refine keeps_ite (fun _ => ?_) (fun _ => ?_)
        | with_reducible refine keeps_ite_snd (fun _ => ?_) (fun _ => ?_) | split | intro _
        | with_reducible refine keeps_of_snd (by with_reducible assumption) ?_
        | with_reducible refine keeps_of_fst (by with_reducible assumption) ?_
  | succ _ ih =>
    unfold pickQueue
    repeat' first
        | with_reducible assumption | ((with_reducible apply sub_of hA); exact rfl) | dsimp only
        | with_reducible apply keeps_rotateTurn | with_reducible apply keeps_setDeficit | with_reducible apply ih
        | with_reducible refine keeps_ite (fun _ => ?_) (fun _ => ?_)
        | with_reducible refine keeps_ite_snd (fun _ => ?_) (fun _ => ?_) | split | intro _
        | with_reducible refine keeps_of_snd (by with_reducible assumption) ?_
        | with_reducible refine keeps_of_fst (by with_reducible assumption) ?_

theorem keeps_afterSend (q : Nat) (c : Nat) (hA : Within 0x8000 A) (hK : Keeps A a₀ s) : Keeps A a₀ (afterSend q c s) := by
  unfold afterSend
  repeat' first
      | with_reducible assumption | ((with_reducible apply sub_of hA); exact rfl) | dsimp only
      | with_reducible apply keeps_chargeShaper | with_reducible apply keeps_leaveTurn
      | with_reducible apply keeps_rotateTurn | with_reducible apply keeps_setDeficit
      | with_reducible refine keeps_ite (fun _ => ?_) (fun _ => ?_) | split | intro _

theorem keeps_popKeepTurn (q : Nat) (i : Item) (r : List Item) (hA : Within 0x400000000000000000008000 A) (h : Keeps A a₀ s) :
    Keeps A a₀ (takeSegment.popKeepTurn q i r s) := keeps_giveCells _ _ (sub_of hA rfl) (keeps_setItems _ _ (sub_of hA rfl) h)

theorem keeps_takeSegment (q room : Nat) (hA : Within 0x400000000000000000008000 A) (h : Keeps A a₀ s) : Keeps A a₀ (takeSegment q room s).2 := by
  unfold takeSegment
  repeat' first
    | with_reducible assumption | ((with_reducible apply sub_of hA); exact rfl) | dsimp only
    | with_reducible apply keeps_nextPseq | with_reducible apply keeps_popKeepTurn
    | with_reducible apply keeps_setItems | split

theorem keeps_fillWindow (g : Nat) (skip : List Nat) (fuel room : Nat) (first : Bool) (hA : Within 0x400000000000000000008000 A) (hK : Keeps A a₀ s) : Keeps A a₀ (fillWindow g skip fuel room first s).2 := by
  induction fuel generalizing s room first with
  | zero =>
    unfold fillWindow
    repeat' first
        | with_reducible assumption | ((with_reducible apply sub_of hA); exact rfl) | dsimp only
        | with_reducible apply keeps_afterSend | with_reducible apply keeps_pickQueue
        | with_reducible apply keeps_popKeepTurn | with_reducible apply keeps_takeSegment
        | with_reducible refine keeps_ite (fun _ => ?_) (fun _ => ?_)
        | with_reducible refine keeps_ite_snd (fun _ => ?_) (fun _ => ?_) | split | intro _
        | with_reducible refine keeps_of_snd (by with_reducible assumption) ?_
        | with_reducible refine keeps_of_fst (by with_reducible assumption) ?_
  | succ _ ih =>
    unfold fillWindow
    repeat' first
        | with_reducible assumption | ((with_reducible apply sub_of hA); exact rfl) | dsimp only
        | with_reducible apply keeps_afterSend | with_reducible apply keeps_pickQueue
        | with_reducible apply keeps_popKeepTurn | with_reducible apply keeps_takeSegment | with_reducible apply ih
        | with_reducible refine keeps_ite (fun _ => ?_) (fun _ => ?_)
        | with_reducible refine keeps_ite_snd (fun _ => ?_) (fun _ => ?_) | split | intro _
        | with_reducible refine keeps_of_snd (by with_reducible assumption) ?_
        | with_reducible refine keeps_of_fst (by with_reducible assumption) ?_

theorem keeps_serveWindow (g : Nat) (skip : List Nat) (room : Nat) (hA : Within 0x140060008000000000000000000400000000000000010018000 A)
    (hK : Keeps A a₀ s) : Keeps A a₀ (serveWindow g skip room s).2 := by
  unfold serveWindow
  repeat' first
      | with_reducible assumption | ((with_reducible apply sub_of hA); exact rfl) | dsimp only
      | with_reducible apply keeps_eachOf | with_reducible apply keeps_fillWindow
      | with_reducible apply keeps_sweepQueue | intro _

theorem keeps_takeFrame (k : Nat) (hA : Within 0x140060008000000000000000000400000000000000010018000 A) (hK : Keeps A a₀ s) : Keeps A a₀ (takeFrame k s).2 := by
  unfold takeFrame
  repeat' first
      | with_reducible assumption | ((with_reducible apply sub_of hA); exact rfl) | dsimp only
      | with_reducible apply keeps_afterSend | with_reducible apply keeps_chargePort
      | with_reducible apply keeps_eachOf | with_reducible apply keeps_giveCells
      | with_reducible apply keeps_pickQueue | with_reducible apply keeps_setItems
      | with_reducible apply keeps_sweepQueue | with_reducible refine keeps_ite (fun _ => ?_) (fun _ => ?_)
      | with_reducible refine keeps_ite_snd (fun _ => ?_) (fun _ => ?_) | split | intro _
      | with_reducible refine keeps_of_snd (by with_reducible assumption) ?_
      | with_reducible refine keeps_of_fst (by with_reducible assumption) ?_

theorem keeps_takeHead (q : Nat) (hA : Within 0x140060008000000000000000000400000000000000010018000 A) (hK : Keeps A a₀ s) : Keeps A a₀ (takeHead q s).2 := by
  unfold takeHead
  repeat' first
      | with_reducible assumption | ((with_reducible apply sub_of hA); exact rfl) | dsimp only
      | with_reducible apply keeps_afterSend | with_reducible apply keeps_giveCells
      | with_reducible apply keeps_setItems | with_reducible apply keeps_sweepQueue
      | with_reducible refine keeps_ite (fun _ => ?_) (fun _ => ?_)
      | with_reducible refine keeps_ite_snd (fun _ => ?_) (fun _ => ?_) | split | intro _
      | with_reducible refine keeps_of_snd (by with_reducible assumption) ?_
      | with_reducible refine keeps_of_fst (by with_reducible assumption) ?_

theorem keeps_applyRec (obj : Nat) (idx : Nat) (r : List Word) (hA : Within 0x140060008000000000000000000400000000000000010018000 A) (hK : Keeps A a₀ s) : Keeps A a₀ (applyRec obj idx r s) := by
  unfold applyRec
  repeat' first
      | with_reducible assumption | ((with_reducible apply sub_of hA); exact rfl) | dsimp only
      | with_reducible apply keeps_flushQueue | with_reducible refine keeps_ite (fun _ => ?_) (fun _ => ?_) | split
      | intro _ | with_reducible refine keeps_of_snd (by with_reducible assumption) ?_
      | with_reducible refine keeps_of_fst (by with_reducible assumption) ?_ | with_reducible apply keeps_part_q

theorem keeps_applyBanks  (hA : Within 0x140060008000000000000000000600000000000000010018000 A) (hK : Keeps A a₀ s) : Keeps A a₀ (applyBanks s) := by
  unfold applyBanks
  repeat' first
      | with_reducible assumption | ((with_reducible apply sub_of hA); exact rfl) | dsimp only
      | with_reducible apply keeps_count | with_reducible apply keeps_fresh | with_reducible apply keeps_setReg
      | with_reducible apply keeps_wr | exact cov_GRAN_STATUS _ rfl (sub_of hA rfl)
      | exact cov_GRAN_BANK_CFG _ rfl (sub_of hA rfl) | with_reducible refine keeps_ite (fun _ => ?_) (fun _ => ?_)
      | with_reducible refine keeps_ite_snd (fun _ => ?_) (fun _ => ?_) | split | intro _
      | with_reducible refine keeps_of_snd (by with_reducible assumption) ?_
      | with_reducible refine keeps_of_fst (by with_reducible assumption) ?_ | with_reducible apply keeps_part_q

theorem keeps_flushPort (k : Nat) (hA : Within 0x140060008000000000000010000400000000000000010018000 A) (hK : Keeps A a₀ s) : Keeps A a₀ (flushPort k s) := by
  unfold flushPort
  repeat' first
      | with_reducible assumption | ((with_reducible apply sub_of hA); exact rfl) | dsimp only
      | with_reducible apply keeps_countN | with_reducible apply keeps_eachOf | with_reducible apply keeps_foldl
      | with_reducible apply keeps_keepItems | with_reducible apply keeps_raise | with_reducible apply keeps_wr
      | exact cov_ETH_STATUS _ _ rfl (sub_of hA rfl) | intro _ | with_reducible apply keeps_part_q

theorem keeps_startHold (k : Nat) (hA : Within 0x140060008000000000000010000400000000000000010018000 A) (hK : Keeps A a₀ s) : Keeps A a₀ (startHold k s) := by
  unfold startHold
  repeat' first
      | with_reducible assumption | ((with_reducible apply sub_of hA); exact rfl) | dsimp only
      | with_reducible apply keeps_flushPort | with_reducible apply keeps_wr
      | exact cov_ETH_STATUS _ _ rfl (sub_of hA rfl)
      | with_reducible refine keeps_ite (fun _ => ?_) (fun _ => ?_) | split | intro _
      | with_reducible apply keeps_part_q

theorem keeps_endHold (k : Nat) (hA : Within 0x10000000000000000000000008000 A) (hK : Keeps A a₀ s) : Keeps A a₀ (endHold k s) := by
  unfold endHold
  repeat' first
      | with_reducible assumption | ((with_reducible apply sub_of hA); exact rfl) | dsimp only
      | with_reducible apply keeps_wr | exact cov_ETH_STATUS _ _ rfl (sub_of hA rfl) | intro _
      | with_reducible apply keeps_part_q

theorem keeps_holdTick  (hA : Within 0x8000 A) (hK : Keeps A a₀ s) : Keeps A a₀ (holdTick s) := by
  unfold holdTick
  repeat' first
      | with_reducible assumption | ((with_reducible apply sub_of hA); exact rfl) | dsimp only | intro _
      | with_reducible apply keeps_part_q

theorem keeps_execDeadlineDiscard  (hA : Within 0x140060008000000000000000000400000000000000010018000 A) (hK : Keeps A a₀ s) : KeepsRes A a₀ (execDeadlineDiscard s) := by
  unfold execDeadlineDiscard
  with_reducible apply keepsRes_done
  repeat' first
      | with_reducible assumption | ((with_reducible apply sub_of hA); exact rfl) | dsimp only
      | with_reducible apply keeps_deadlineSweep | with_reducible apply keeps_done | intro _

theorem keeps_execHolddownFlush (port : Fin 6) (hA : Within 0x140060008000000000000010000400000000000000010018000 A) (hK : Keeps A a₀ s) : KeepsRes A a₀ (execHolddownFlush port s) := by
  unfold execHolddownFlush
  with_reducible apply keepsRes_done
  repeat' first
      | with_reducible assumption | ((with_reducible apply sub_of hA); exact rfl) | dsimp only
      | with_reducible apply keeps_done | with_reducible apply keeps_flushPort
      | with_reducible refine keeps_ite (fun _ => ?_) (fun _ => ?_) | split | intro _

theorem keeps_indSelect (v : Word) (hA : Within 0x140060008000000000000000002000000000000000010018040 A) (hK : Keeps A a₀ s) : Keeps A a₀ (indSelect v s) := by
  unfold indSelect
  repeat' first
      | with_reducible assumption | ((with_reducible apply sub_of hA); exact rfl) | dsimp only
      | with_reducible apply keeps_setReg | with_reducible apply keeps_stage | with_reducible apply keeps_wr
      | exact cov_QM_IND_SEL _ rfl (sub_of hA rfl) | with_reducible refine keeps_ite (fun _ => ?_) (fun _ => ?_)
      | split | intro _ | with_reducible apply keeps_part_q

theorem keeps_execQmIndDone  (hA : Within 0x1e000000000000000000008000 A) (hK : Keeps A a₀ s) : KeepsRes A a₀ (execQmIndDone s) := by
  unfold execQmIndDone
  with_reducible apply keepsRes_done
  repeat' first
      | with_reducible assumption | ((with_reducible apply sub_of hA); exact rfl) | dsimp only
      | with_reducible apply keeps_done | with_reducible apply keeps_setReg | with_reducible apply keeps_wr
      | exact cov_QM_IND_SEL _ rfl (sub_of hA rfl) | exact cov_QM_IND_DATA0 _ rfl (sub_of hA rfl)
      | exact cov_QM_IND_DATA1 _ rfl (sub_of hA rfl) | exact cov_QM_IND_DATA2 _ rfl (sub_of hA rfl)
      | with_reducible refine keeps_ite (fun _ => ?_) (fun _ => ?_) | split | intro _
      | with_reducible refine keeps_of_snd (by with_reducible assumption) ?_
      | with_reducible refine keeps_of_fst (by with_reducible assumption) ?_ | with_reducible apply keeps_part_q

theorem keeps_lowReload (v : Word) (hA : Within 0x400000000000000000000000 A) (hK : Keeps A a₀ s) : Keeps A a₀ (lowReload v s) := by
  unfold lowReload
  repeat' first
      | with_reducible assumption | ((with_reducible apply sub_of hA); exact rfl) | dsimp only
      | with_reducible apply keeps_wr | exact cov_GRAN_STATUS _ rfl (sub_of hA rfl)
      | with_reducible refine keeps_ite (fun _ => ?_) (fun _ => ?_) | split | intro _

end Sys2Proof.Laws
end

