-- ==== Sys2Proof/Laws/KeepsAfe.lean ====
section
/-! SUPPORT. `Keeps` for the operations of Machine/Afe.lean. -/

set_option linter.unusedTactic false
set_option linter.unreachableTactic false

namespace Sys2Proof.Laws

open Sys2Proof Sys2Proof.Machine Sys2Proof.Safety

variable {A : Nat} {a₀ s : State}

theorem keeps_calBegin (settings : Nat) (hA : Within 0x420000000000000000000000000000000100000 A)
    (hK : Keeps A a₀ s) : Keeps A a₀ (calBegin settings s) := by
  unfold calBegin
  repeat' first
      | with_reducible assumption | ((with_reducible apply sub_of hA); exact rfl) | dsimp only
      | with_reducible apply keeps_setAfe | with_reducible apply keeps_wr
      | exact cov_AFE_CAL_CTRL _ rfl (sub_of hA rfl) | exact cov_AFE_STATUS _ rfl (sub_of hA rfl) | intro _

theorem keeps_execSlotHalfStart  (hA : Within 0x20000000000000000000000000000000100000 A) (hK : Keeps A a₀ s) : KeepsRes A a₀ (execSlotHalfStart s) := by
  unfold execSlotHalfStart
  with_reducible apply keepsRes_done
  repeat' first
      | with_reducible assumption | ((with_reducible apply sub_of hA); exact rfl) | dsimp only
      | with_reducible apply keeps_done | with_reducible apply keeps_setAfe | with_reducible apply keeps_wr
      | exact cov_AFE_STATUS _ rfl (sub_of hA rfl) | with_reducible refine keeps_ite (fun _ => ?_) (fun _ => ?_)
      | split | intro _ | with_reducible refine keeps_of_snd (by with_reducible assumption) ?_
      | with_reducible refine keeps_of_fst (by with_reducible assumption) ?_

theorem keeps_tempInput (tsrc : Nat) (hA : Within 0x140060008000000000000000000000000000000000010010000 A) (hK : Keeps A a₀ s) : Keeps A a₀ (tempInput tsrc s).2 := by
  unfold tempInput
  repeat' first
      | with_reducible assumption | ((with_reducible apply sub_of hA); exact rfl) | dsimp only
      | with_reducible apply keeps_count | with_reducible apply keeps_fresh
      | with_reducible refine keeps_ite (fun _ => ?_) (fun _ => ?_)
      | with_reducible refine keeps_ite_snd (fun _ => ?_) (fun _ => ?_) | split | intro _
      | with_reducible refine keeps_of_snd (by with_reducible assumption) ?_
      | with_reducible refine keeps_of_fst (by with_reducible assumption) ?_

theorem keeps_noteOpen (n : Nat) (open_ : Bool) (hA : Within 0x140060008000000000000000000000000000000000010110000 A) (hK : Keeps A a₀ s) : Keeps A a₀ (noteOpen n open_ s) := by
  unfold noteOpen
  repeat' first
      | with_reducible assumption | ((with_reducible apply sub_of hA); exact rfl) | dsimp only
      | with_reducible apply keeps_count | with_reducible apply keeps_raise | with_reducible apply keeps_setAfe
      | with_reducible apply keeps_whenB | with_reducible refine keeps_ite (fun _ => ?_) (fun _ => ?_) | split
      | intro _

theorem keeps_feedPfo (n : Nat) (y : F32) (hA : Within 0x100000 A) (hK : Keeps A a₀ s) : Keeps A a₀ (feedPfo n y s) := by
  unfold feedPfo
  repeat' first
      | with_reducible assumption | ((with_reducible apply sub_of hA); exact rfl) | dsimp only
      | with_reducible apply keeps_eachOf | with_reducible apply keeps_setAfe
      | with_reducible refine keeps_ite (fun _ => ?_) (fun _ => ?_) | split | intro _

theorem keeps_sampleResult (h : HalfRun) (input : Int) (va vb : Nat) (hA : Within 0x140060008001000000000000000000000000000000010110000 A)
    (hK : Keeps A a₀ s) : Keeps A a₀ (sampleResult h input va vb s).2 := by
  unfold sampleResult
  repeat' first
      | with_reducible assumption | ((with_reducible apply sub_of hA); exact rfl) | dsimp only
      | with_reducible apply keeps_count | with_reducible apply keeps_feedPfo
      | with_reducible apply keeps_noteOpen | with_reducible apply keeps_setAfe
      | with_reducible apply keeps_setReg | with_reducible apply keeps_tempInput
      | with_reducible apply keeps_whenB | exact cov_AFE_RESULT _ _ rfl (sub_of hA rfl)
      | with_reducible refine keeps_ite (fun _ => ?_) (fun _ => ?_)
      | with_reducible refine keeps_ite_snd (fun _ => ?_) (fun _ => ?_) | split | intro _
      | with_reducible refine keeps_of_snd (by with_reducible assumption) ?_
      | with_reducible refine keeps_of_fst (by with_reducible assumption) ?_

theorem keeps_deliverHalf (h : HalfRun) (cut : Bool) (hA : Within 0x100000 A) (hK : Keeps A a₀ s) : Keeps A a₀ (deliverHalf h cut s) := by
  unfold deliverHalf
  repeat' first
      | with_reducible assumption | ((with_reducible apply sub_of hA); exact rfl) | dsimp only
      | with_reducible apply keeps_setAfe | intro _

theorem keeps_execSampleDone (input : Int) (va vb : Nat) (hA : Within 0x140060008001420000000000000000000000000000010110000 A)
    (hK : Keeps A a₀ s) : KeepsRes A a₀ (execSampleDone input va vb s) := by
  unfold execSampleDone
  with_reducible apply keepsRes_done
  repeat' first
      | with_reducible assumption | ((with_reducible apply sub_of hA); exact rfl) | dsimp only
      | with_reducible apply keeps_calBegin | with_reducible apply keeps_deliverHalf
      | with_reducible apply keeps_sampleResult | with_reducible apply keeps_setAfe
      | with_reducible refine keeps_ite (fun _ => ?_) (fun _ => ?_)
      | with_reducible refine keeps_ite_snd (fun _ => ?_) (fun _ => ?_) | split | intro _
      | with_reducible refine keeps_of_snd (by with_reducible assumption) ?_
      | with_reducible refine keeps_of_fst (by with_reducible assumption) ?_

theorem keeps_calCtrlWrite (v : Word) (hA : Within 0x420000000000000000000000000000000100000 A) (hK : Keeps A a₀ s) : Keeps A a₀ (calCtrlWrite v s) := by
  unfold calCtrlWrite
  repeat' first
      | with_reducible assumption | ((with_reducible apply sub_of hA); exact rfl) | dsimp only
      | with_reducible apply keeps_calBegin | with_reducible apply keeps_setAfe | with_reducible apply keeps_wr
      | exact cov_AFE_CAL_CTRL _ rfl (sub_of hA rfl) | with_reducible refine keeps_ite (fun _ => ?_) (fun _ => ?_)
      | split | intro _

theorem keeps_calRegWrite (g : Nat) (v : Word) (hA : Within 0x140060008000200000000000000000000000000000010010000 A) (hK : Keeps A a₀ s) : Keeps A a₀ (calRegWrite g v s) := by
  unfold calRegWrite
  repeat' first
      | with_reducible assumption | ((with_reducible apply sub_of hA); exact rfl) | dsimp only
      | with_reducible apply keeps_count | with_reducible apply keeps_setReg
      | exact cov_AFE_CAL _ _ rfl (sub_of hA rfl) | with_reducible refine keeps_ite (fun _ => ?_) (fun _ => ?_)
      | split | intro _

theorem keeps_calSetting (g : Nat) (sum0 : Int) (sum1 : Int) (hA : Within 0x140060008000200000000000000000000000000000010010000 A) (hK : Keeps A a₀ s) : Keeps A a₀ (calSetting g sum0 sum1 s) := by
  unfold calSetting
  repeat' first
      | with_reducible assumption | ((with_reducible apply sub_of hA); exact rfl) | dsimp only
      | with_reducible apply keeps_count | with_reducible apply keeps_fresh | with_reducible apply keeps_whenB
      | with_reducible apply keeps_wr | exact cov_AFE_CAL _ _ rfl (sub_of hA rfl)
      | with_reducible refine keeps_ite (fun _ => ?_) (fun _ => ?_)
      | with_reducible refine keeps_ite_snd (fun _ => ?_) (fun _ => ?_) | split | intro _
      | with_reducible refine keeps_of_snd (by with_reducible assumption) ?_
      | with_reducible refine keeps_of_fst (by with_reducible assumption) ?_

theorem keeps_execAfeCalDone (sums : List (Int × Int)) (hA : Within 0x140060008000620000000000000000000000000000010110000 A)
    (hK : Keeps A a₀ s) : KeepsRes A a₀ (execAfeCalDone sums s) := by
  unfold execAfeCalDone
  with_reducible apply keepsRes_done
  repeat' first
      | with_reducible assumption | ((with_reducible apply sub_of hA); exact rfl) | dsimp only
      | with_reducible apply keeps_calSetting | with_reducible apply keeps_eachOf
      | with_reducible apply keeps_raise | with_reducible apply keeps_setAfe | with_reducible apply keeps_wr
      | exact cov_AFE_CAL_CTRL _ rfl (sub_of hA rfl) | exact cov_AFE_STATUS _ rfl (sub_of hA rfl)
      | with_reducible refine keeps_ite (fun _ => ?_) (fun _ => ?_) | split | intro _

theorem keeps_pfoValue (k : Nat) (y : F32) (hA : Within 0x10000000 A) (hK : Keeps A a₀ s) : Keeps A a₀ (pfoValue k y s).2 := by
  unfold pfoValue
  repeat' first
      | with_reducible assumption | ((with_reducible apply sub_of hA); exact rfl) | dsimp only
      | with_reducible apply keeps_fresh | with_reducible refine keeps_ite (fun _ => ?_) (fun _ => ?_)
      | with_reducible refine keeps_ite_snd (fun _ => ?_) (fun _ => ?_) | split | intro _
      | with_reducible refine keeps_of_snd (by with_reducible assumption) ?_
      | with_reducible refine keeps_of_fst (by with_reducible assumption) ?_

theorem keeps_showPfo (k mode v : Nat) (hA : Within 0x20000000 A) (hK : Keeps A a₀ s) : Keeps A a₀ (showPfo k mode v s) := by
  unfold showPfo
  repeat' first
      | with_reducible assumption | ((with_reducible apply sub_of hA); exact rfl) | dsimp only
      | with_reducible apply keeps_emit | intro _

theorem keeps_setPfo (k mode v : Nat) (hA : Within 0x20100000 A) (hK : Keeps A a₀ s) : Keeps A a₀ (setPfo k mode v s) := by
  unfold setPfo
  repeat' first
      | with_reducible assumption | ((with_reducible apply sub_of hA); exact rfl) | dsimp only
      | with_reducible apply keeps_setAfe | with_reducible apply keeps_showPfo | intro _

theorem keeps_pfoUpdate (hA : Within 0x30100000 A) (hK : Keeps A a₀ s) : Keeps A a₀ (pfoUpdate s) := by
  unfold pfoUpdate
  repeat' first
      | with_reducible assumption | ((with_reducible apply sub_of hA); exact rfl) | dsimp only
      | with_reducible apply keeps_eachOf | with_reducible apply keeps_pfoValue
      | with_reducible apply keeps_setAfe | with_reducible apply keeps_setPfo
      | with_reducible refine keeps_ite (fun _ => ?_) (fun _ => ?_)
      | with_reducible refine keeps_ite_snd (fun _ => ?_) (fun _ => ?_) | split | intro _
      | with_reducible refine keeps_of_snd (by with_reducible assumption) ?_
      | with_reducible refine keeps_of_fst (by with_reducible assumption) ?_

theorem keeps_pfoIdle (hA : Within 0x20100000 A) (hK : Keeps A a₀ s) : Keeps A a₀ (pfoIdle s) := by
  unfold pfoIdle
  repeat' first
      | with_reducible assumption | ((with_reducible apply sub_of hA); exact rfl) | dsimp only
      | with_reducible apply keeps_eachOf | with_reducible apply keeps_setPfo
      | with_reducible refine keeps_ite (fun _ => ?_) (fun _ => ?_) | split | intro _

theorem keeps_execAfePfoFault (k : Fin 4) (hA : Within 0x140060008000000000000000000000000000000000030110000 A)
    (hK : Keeps A a₀ s) : KeepsRes A a₀ (execAfePfoFault k s) := by
  unfold execAfePfoFault
  with_reducible apply keepsRes_done
  repeat' first
      | with_reducible assumption | ((with_reducible apply sub_of hA); exact rfl) | dsimp only
      | with_reducible apply keeps_count | with_reducible apply keeps_raise | with_reducible apply keeps_setAfe
      | with_reducible apply keeps_setPfo | with_reducible refine keeps_ite (fun _ => ?_) (fun _ => ?_) | split
      | intro _

theorem keeps_afeEnd  (hA : Within 0x140060008000000000000000000400000000000000010118000 A) (hK : Keeps A a₀ s) : Keeps A a₀ (afeEnd s) := by
  unfold afeEnd
  repeat' first
      | with_reducible assumption | ((with_reducible apply sub_of hA); exact rfl) | dsimp only
      | with_reducible apply keeps_eachOf | with_reducible apply keeps_setAfe | with_reducible apply keeps_submitOr
      | intro _

theorem keeps_afeStop (hA : Within 0x420000000000000000000000000000020100000 A) (hK : Keeps A a₀ s) : Keeps A a₀ (afeStop s) := by
  unfold afeStop
  repeat' first
      | with_reducible assumption | ((with_reducible apply sub_of hA); exact rfl) | dsimp only
      | with_reducible apply keeps_eachOf | with_reducible apply keeps_setAfe
      | with_reducible apply keeps_setPfo | with_reducible apply keeps_wr
      | exact cov_AFE_STATUS _ rfl (sub_of hA rfl) | exact cov_AFE_CAL_CTRL _ rfl (sub_of hA rfl) | intro _

theorem keeps_afeBegin (dieTemp : Option F32) (hA : Within 0xc20000000000000000000000000000030100000 A)
    (hK : Keeps A a₀ s) : Keeps A a₀ (afeBegin dieTemp s) := by
  unfold afeBegin
  repeat' first
      | with_reducible assumption | ((with_reducible apply sub_of hA); exact rfl) | dsimp only
      | with_reducible apply keeps_afeStop | with_reducible apply keeps_calBegin
      | with_reducible apply keeps_foldl | with_reducible apply keeps_pfoIdle
      | with_reducible apply keeps_pfoUpdate | with_reducible apply keeps_setAfe | with_reducible apply keeps_wr
      | exact cov_AFE_DIE_TEMP _ rfl (sub_of hA rfl) | exact cov_AFE_STATUS _ rfl (sub_of hA rfl)
      | with_reducible refine keeps_ite (fun _ => ?_) (fun _ => ?_) | split | intro _
      | with_reducible refine keeps_of_snd (by with_reducible assumption) ?_
      | with_reducible refine keeps_of_fst (by with_reducible assumption) ?_

theorem keeps_pfoRestart (hA : Within 0x20000000 A) (hK : Keeps A a₀ s) : Keeps A a₀ (pfoRestart s) := by
  unfold pfoRestart
  repeat' first
      | with_reducible assumption | ((with_reducible apply sub_of hA); exact rfl) | dsimp only
      | with_reducible apply keeps_eachOf | with_reducible apply keeps_showPfo
      | with_reducible refine keeps_ite (fun _ => ?_) (fun _ => ?_) | split | intro _

theorem keeps_afeStep (hA : Within 0x140060008000000000000000000000000000000000030110000 A) (hK : Keeps A a₀ s) : Keeps A a₀ (afeStep s) := by
  unfold afeStep
  repeat' first
      | with_reducible assumption | ((with_reducible apply sub_of hA); exact rfl) | dsimp only
      | with_reducible apply keeps_count | with_reducible apply keeps_deliverHalf
      | with_reducible apply keeps_pfoRestart | with_reducible apply keeps_setAfe
      | with_reducible refine keeps_ite (fun _ => ?_) (fun _ => ?_) | split | intro _
      | with_reducible refine keeps_of_snd (by with_reducible assumption) ?_
      | with_reducible refine keeps_of_fst (by with_reducible assumption) ?_

end Sys2Proof.Laws
end

