-- ==== Sys2Proof/Laws/KeepsFlash.lean ====
section
/-! SUPPORT. `Keeps` for the operations of Machine/Flash.lean. -/

set_option linter.unusedTactic false
set_option linter.unreachableTactic false

namespace Sys2Proof.Laws

open Sys2Proof Sys2Proof.Machine Sys2Proof.Safety

variable {A : Nat} {a₀ s : State}

theorem keeps_flashProg (a : Nat) (b : Byte) (hA : Within 0x8000000 A) (hK : Keeps A a₀ s) : Keeps A a₀ (flashProg a b s) := by
  unfold flashProg
  repeat' first
      | with_reducible assumption | ((with_reducible apply sub_of hA); exact rfl) | dsimp only
      | with_reducible apply keeps_flashPut | intro _

theorem keeps_flashProgAll (x : Nat) (l : List Byte) (hA : Within 0x8000000 A) (hK : Keeps A a₀ s) : Keeps A a₀ (flashProgAll x l s) := by
  induction l generalizing s x with
  | nil =>
    unfold flashProgAll
    repeat' first
        | with_reducible assumption | ((with_reducible apply sub_of hA); exact rfl) | dsimp only
        | with_reducible apply keeps_flashProg | intro _
  | cons x l ih =>
    unfold flashProgAll
    repeat' first
        | with_reducible assumption | ((with_reducible apply sub_of hA); exact rfl) | dsimp only
        | with_reducible apply keeps_flashProg | with_reducible apply ih | intro _

theorem keeps_flashEraseN (a : Nat) (n : Nat) (hA : Within 0x8000000 A) (hK : Keeps A a₀ s) : Keeps A a₀ (flashEraseN a n s) := by
  unfold flashEraseN
  repeat' first
      | with_reducible assumption | ((with_reducible apply sub_of hA); exact rfl) | dsimp only
      | with_reducible apply keeps_eachOf | with_reducible apply keeps_flashErase | intro _

theorem keeps_pageProgram (addr i : Nat) (l : List Byte) (hA : Within 0x8000000 A) (hK : Keeps A a₀ s) : Keeps A a₀ (pageProgram addr i l s) := by
  induction l generalizing s i with
  | nil =>
    unfold pageProgram
    repeat' first
        | with_reducible assumption | ((with_reducible apply sub_of hA); exact rfl) | dsimp only
        | with_reducible apply keeps_flashProg | intro _
  | cons x l ih =>
    unfold pageProgram
    repeat' first
        | with_reducible assumption | ((with_reducible apply sub_of hA); exact rfl) | dsimp only
        | with_reducible apply keeps_flashProg | with_reducible apply ih | intro _

theorem keeps_spiEffect (op : Nat) (a : Nat) (addr : Nat) (data : List Byte) (hA : Within 0x8000000 A) (hK : Keeps A a₀ s) : Keeps A a₀ (spiEffect op a addr data s) := by
  unfold spiEffect
  repeat' first
      | with_reducible assumption | ((with_reducible apply sub_of hA); exact rfl) | dsimp only
      | with_reducible apply keeps_flashEraseN | with_reducible apply keeps_pageProgram
      | with_reducible apply keeps_flashNone | with_reducible refine keeps_ite (fun _ => ?_) (fun _ => ?_) | split
      | intro _

theorem keeps_journalWrite (b : List Byte) (hA : Within 0x8000000 A) (hK : Keeps A a₀ s) : Keeps A a₀ (journalWrite b s) := by
  unfold journalWrite
  repeat' first
      | with_reducible assumption | ((with_reducible apply sub_of hA); exact rfl) | dsimp only
      | with_reducible apply keeps_flashProgAll | intro _

theorem keeps_bitmapClear (base : Nat) (i : Nat) (hA : Within 0x8000000 A) (hK : Keeps A a₀ s) : Keeps A a₀ (bitmapClear base i s) := by
  unfold bitmapClear
  repeat' first
      | with_reducible assumption | ((with_reducible apply sub_of hA); exact rfl) | dsimp only
      | with_reducible apply keeps_flashProg | intro _

theorem keeps_settingsRefresh  (hA : Within 0x400000000000000000000000000000000000000000000 A) (hK : Keeps A a₀ s) : Keeps A a₀ (settingsRefresh s) := by
  unfold settingsRefresh
  repeat' first
      | with_reducible assumption | ((with_reducible apply sub_of hA); exact rfl) | dsimp only
      | with_reducible apply keeps_setReg | with_reducible apply keeps_wr
      | exact cov_SETTINGS_STATUS _ rfl (sub_of hA rfl) | split | intro _
      | with_reducible refine keeps_of_snd (by with_reducible assumption) ?_
      | with_reducible refine keeps_of_fst (by with_reducible assumption) ?_

theorem keeps_settingsCheck  (hA : Within 0x140060008000000000000000000000000000000000010010000 A) (hK : Keeps A a₀ s) : Keeps A a₀ (settingsCheck s) := by
  unfold settingsCheck
  repeat' first
      | with_reducible assumption | ((with_reducible apply sub_of hA); exact rfl) | dsimp only
      | with_reducible apply keeps_count | with_reducible refine keeps_ite (fun _ => ?_) (fun _ => ?_) | split
      | intro _

theorem keeps_compact (keep : List SetEntry) (hA : Within 0x8000000 A) (hK : Keeps A a₀ s) : Keeps A a₀ (compact keep s) := by
  unfold compact
  repeat' first
      | with_reducible assumption | ((with_reducible apply sub_of hA); exact rfl) | dsimp only
      | with_reducible apply keeps_flashEraseN | with_reducible apply keeps_flashProgAll
      | with_reducible refine keeps_ite (fun _ => ?_) (fun _ => ?_)
      | with_reducible refine keeps_ite_snd (fun _ => ?_) (fun _ => ?_) | split | intro _
      | with_reducible refine keeps_of_snd (by with_reducible assumption) ?_
      | with_reducible refine keeps_of_fst (by with_reducible assumption) ?_

theorem keeps_settingStore (key : Nat) (val : List Byte) (hA : Within 0x140060408000000000000000000000000000000000018010000 A) (hK : Keeps A a₀ s) : Keeps A a₀ (settingStore key val s).2 := by
  unfold settingStore
  repeat' first
      | with_reducible assumption | ((with_reducible apply sub_of hA); exact rfl) | dsimp only
      | with_reducible apply keeps_compact | with_reducible apply keeps_flashProgAll
      | with_reducible apply keeps_raise | with_reducible apply keeps_settingsRefresh
      | with_reducible refine keeps_ite (fun _ => ?_) (fun _ => ?_)
      | with_reducible refine keeps_ite_snd (fun _ => ?_) (fun _ => ?_) | split | intro _
      | with_reducible refine keeps_of_snd (by with_reducible assumption) ?_
      | with_reducible refine keeps_of_fst (by with_reducible assumption) ?_

theorem keeps_settingsConfirm (fresh : Bool) (hA : Within 0x400000000000000000000000000000000000018000000 A) (hK : Keeps A a₀ s) : Keeps A a₀ (settingsConfirm fresh s) := by
  unfold settingsConfirm
  repeat' first
      | with_reducible assumption | ((with_reducible apply sub_of hA); exact rfl) | dsimp only
      | with_reducible apply keeps_compact | with_reducible apply keeps_eachOf | with_reducible apply keeps_flashProg
      | with_reducible apply keeps_fresh | with_reducible apply keeps_settingsRefresh
      | with_reducible refine keeps_ite (fun _ => ?_) (fun _ => ?_) | split | intro _
      | with_reducible refine keeps_of_snd (by with_reducible assumption) ?_
      | with_reducible refine keeps_of_fst (by with_reducible assumption) ?_

end Sys2Proof.Laws
end

