-- ==== Sys2Proof/Laws/KeepsJtag.lean ====
section
/-! SUPPORT. `Keeps` for the operations of Machine/Jtag.lean. -/

set_option linter.unusedTactic false
set_option linter.unreachableTactic false

namespace Sys2Proof.Laws

open Sys2Proof Sys2Proof.Machine Sys2Proof.Safety

variable {A : Nat} {a₀ s : State}

theorem keeps_jtagSelect (ir : JtagIr) (hA : Within 0x4000000 A) (hK : Keeps A a₀ s) : Keeps A a₀ (jtagSelect ir s) := by
  unfold jtagSelect
  repeat' first
      | with_reducible assumption | ((with_reducible apply sub_of hA); exact rfl) | dsimp only | intro _
      | with_reducible apply keeps_part_jtag

theorem keeps_jtagDrive (ir : JtagIr) (hA : Within 0x4000000 A) (hK : Keeps A a₀ s) : Keeps A a₀ (jtagDrive ir s) := by
  unfold jtagDrive
  repeat' first
      | with_reducible assumption | ((with_reducible apply sub_of hA); exact rfl) | dsimp only
      | with_reducible apply keeps_jtagSelect | with_reducible refine keeps_ite (fun _ => ?_) (fun _ => ?_) | split
      | intro _

theorem keeps_jtagScan (pins : BitVec 512) (scan : BitVec 512) (hA : Within 0x4040000 A) (hK : Keeps A a₀ s) : Keeps A a₀ (jtagScan pins scan s) := by
  unfold jtagScan
  repeat' first
      | with_reducible assumption | ((with_reducible apply sub_of hA); exact rfl) | dsimp only
      | with_reducible apply keeps_capture | intro _ | with_reducible apply keeps_part_jtag

theorem keeps_execExtest (pins : BitVec 512) (scan : BitVec 512) (hA : Within 0x4040000 A) (hK : Keeps A a₀ s) : KeepsRes A a₀ (execExtest pins scan s) := by
  unfold execExtest
  with_reducible apply keepsRes_done
  repeat' first
      | with_reducible assumption | ((with_reducible apply sub_of hA); exact rfl) | dsimp only
      | with_reducible apply keeps_done | with_reducible apply keeps_jtagDrive | with_reducible apply keeps_jtagScan
      | with_reducible refine keeps_ite (fun _ => ?_) (fun _ => ?_) | split | intro _

theorem keeps_execSamplePreload (pins : BitVec 512) (scan : BitVec 512) (hA : Within 0x4040000 A) (hK : Keeps A a₀ s) : KeepsRes A a₀ (execSamplePreload pins scan s) := by
  unfold execSamplePreload
  with_reducible apply keepsRes_done
  repeat' first
      | with_reducible assumption | ((with_reducible apply sub_of hA); exact rfl) | dsimp only
      | with_reducible apply keeps_done | with_reducible apply keeps_jtagScan | with_reducible apply keeps_jtagSelect
      | intro _

theorem keeps_execHighz  (hA : Within 0x4000000 A) (hK : Keeps A a₀ s) : KeepsRes A a₀ (execHighz s) := by
  unfold execHighz
  with_reducible apply keepsRes_done
  repeat' first
      | with_reducible assumption | ((with_reducible apply sub_of hA); exact rfl) | dsimp only
      | with_reducible apply keeps_done | with_reducible apply keeps_jtagDrive | intro _

theorem keeps_execClamp  (hA : Within 0x4000000 A) (hK : Keeps A a₀ s) : KeepsRes A a₀ (execClamp s) := by
  unfold execClamp
  with_reducible apply keepsRes_done
  repeat' first
      | with_reducible assumption | ((with_reducible apply sub_of hA); exact rfl) | dsimp only
      | with_reducible apply keeps_done | with_reducible apply keeps_jtagDrive | intro _

theorem keeps_execBypass (code : Byte) (hA : Within 0x4000000 A) (hK : Keeps A a₀ s) : KeepsRes A a₀ (execBypass code s) := by
  unfold execBypass
  with_reducible apply keepsRes_done
  repeat' first
      | with_reducible assumption | ((with_reducible apply sub_of hA); exact rfl) | dsimp only
      | with_reducible apply keeps_done | with_reducible apply keeps_jtagSelect
      | with_reducible refine keeps_ite (fun _ => ?_) (fun _ => ?_) | split | intro _

end Sys2Proof.Laws
end

