-- ==== Sys2Proof/Laws/KeepsThresher.lean ====
section
/-! SUPPORT. `Keeps` for the operations of Machine/Thresher.lean. -/

set_option linter.unusedTactic false
set_option linter.unreachableTactic false

namespace Sys2Proof.Laws

open Sys2Proof Sys2Proof.Machine Sys2Proof.Safety

variable {A : Nat} {a₀ s : State}

theorem keeps_setTable (n : Nat) (t : List (Nat × TEntry)) (hA : Within 0x4000 A) (hK : Keeps A a₀ s) : Keeps A a₀ (setTable n t s) := by
  unfold setTable
  repeat' first
      | with_reducible assumption | ((with_reducible apply sub_of hA); exact rfl) | dsimp only | intro _
      | with_reducible apply keeps_part_th

theorem keeps_puntToken (fault : Bool) (hA : Within 0x140060008000000000000000000000000000000000010014000 A) (hK : Keeps A a₀ s) : Keeps A a₀ (puntToken fault s).2 := by
  unfold puntToken
  repeat' first
      | with_reducible assumption | ((with_reducible apply sub_of hA); exact rfl) | dsimp only
      | with_reducible apply keeps_count | with_reducible refine keeps_ite (fun _ => ?_) (fun _ => ?_)
      | with_reducible refine keeps_ite_snd (fun _ => ?_) (fun _ => ?_) | split | intro _
      | with_reducible apply keeps_part_th

theorem keeps_puntTick  (hA : Within 0x4000 A) (hK : Keeps A a₀ s) : Keeps A a₀ (puntTick s) := by
  unfold puntTick
  repeat' first
      | with_reducible assumption | ((with_reducible apply sub_of hA); exact rfl) | dsimp only | intro _
      | with_reducible apply keeps_part_th

theorem keeps_servePunts (fuel : Nat) (hA : Within 0x140060008000000000000000000400000000000000010018000 A) (hK : Keeps A a₀ s) : Keeps A a₀ (servePunts fuel s) := by
  induction fuel generalizing s with
  | zero =>
    unfold servePunts
    repeat' first
        | with_reducible assumption | ((with_reducible apply sub_of hA); exact rfl) | dsimp only
        | with_reducible apply keeps_count | with_reducible apply keeps_offer | with_reducible apply keeps_sweepQueue
        | with_reducible apply keeps_takeCells | with_reducible apply keeps_takeHead
        | with_reducible refine keeps_ite (fun _ => ?_) (fun _ => ?_) | split | intro _
        | with_reducible refine keeps_of_snd (by with_reducible assumption) ?_
        | with_reducible refine keeps_of_fst (by with_reducible assumption) ?_
  | succ _ ih =>
    unfold servePunts
    repeat' first
        | with_reducible assumption | ((with_reducible apply sub_of hA); exact rfl) | dsimp only
        | with_reducible apply keeps_count | with_reducible apply keeps_offer | with_reducible apply keeps_sweepQueue
        | with_reducible apply keeps_takeCells | with_reducible apply keeps_takeHead | with_reducible apply ih
        | with_reducible refine keeps_ite (fun _ => ?_) (fun _ => ?_) | split | intro _
        | with_reducible refine keeps_of_snd (by with_reducible assumption) ?_
        | with_reducible refine keeps_of_fst (by with_reducible assumption) ?_

theorem keeps_extend (cls have_ need : Nat) {t : State} (hA : Within 0x400000000000000000008000 A) (e : extend cls have_ need s = some t)
    (hK : Keeps A a₀ s) : Keeps A a₀ t := by
  unfold extend at e
  split at e
  · exact keeps_takeReserve _ _ (sub_of hA rfl) e hK
  · obtain rfl := Option.some.inj e
    exact hK

theorem keeps_puntItem (fault : Bool) (reason stg : Nat) (pk : Packet) (cells pflags : Nat) (md : Word) (bytes : List Byte) (hA : Within 0x14006000800000000000000000040000000000000001001c000 A)
    (hK : Keeps A a₀ s) : Keeps A a₀ (puntItem fault reason stg pk cells pflags md bytes s) := by
  unfold puntItem
  repeat' first
      | with_reducible assumption | ((with_reducible apply sub_of hA); exact rfl)
      | (with_reducible refine keeps_extend _ _ _ ?_ (by with_reducible assumption) ?_) | dsimp only
      | with_reducible apply keeps_count | with_reducible apply keeps_giveCells
      | with_reducible apply keeps_offer | with_reducible apply keeps_puntToken
      | with_reducible apply keeps_servePunts | with_reducible refine keeps_ite (fun _ => ?_) (fun _ => ?_)
      | with_reducible refine keeps_ite_snd (fun _ => ?_) (fun _ => ?_) | split | intro _
      | with_reducible refine keeps_of_snd (by with_reducible assumption) ?_
      | with_reducible refine keeps_of_fst (by with_reducible assumption) ?_

theorem keeps_forwardPacket (act md : Word) (p : Parsed) (pk : Packet) (cells : Nat) (hA : Within 0x140060008000000000000000000400000000000000010018000 A)
    (hK : Keeps A a₀ s) : Keeps A a₀ (forwardPacket act md p pk cells s) := by
  unfold forwardPacket
  repeat' first
      | with_reducible assumption | ((with_reducible apply sub_of hA); exact rfl)
      | (with_reducible refine keeps_extend _ _ _ ?_ (by with_reducible assumption) ?_) | dsimp only
      | with_reducible apply keeps_count | with_reducible apply keeps_giveCells
      | with_reducible apply keeps_meterPacket | with_reducible apply keeps_offer
      | with_reducible refine keeps_ite (fun _ => ?_) (fun _ => ?_)
      | with_reducible refine keeps_ite_snd (fun _ => ?_) (fun _ => ?_) | split | intro _
      | with_reducible refine keeps_of_snd (by with_reducible assumption) ?_
      | with_reducible refine keeps_of_fst (by with_reducible assumption) ?_

theorem keeps_takeAction (act : Word) (md : Word) (stg : Nat) (p : Parsed) (pk : Packet) (cells : Nat) (hA : Within 0x14006000800000000000000000040000000000000001001c000 A) (hK : Keeps A a₀ s) : Keeps A a₀ (takeAction act md stg p pk cells s) := by
  unfold takeAction
  repeat' first
      | with_reducible assumption | ((with_reducible apply sub_of hA); exact rfl) | dsimp only
      | with_reducible apply keeps_count | with_reducible apply keeps_forwardPacket
      | with_reducible apply keeps_giveFree | with_reducible apply keeps_puntItem
      | with_reducible apply keeps_takeCells | with_reducible refine keeps_ite (fun _ => ?_) (fun _ => ?_) | split
      | intro _ | with_reducible refine keeps_of_snd (by with_reducible assumption) ?_
      | with_reducible refine keeps_of_fst (by with_reducible assumption) ?_

theorem keeps_runStages (p : Parsed) (pk : Packet) (cells n k : Nat) (md : Word) (hA : Within 0x14006000800000000000000000040000000000000001001c000 A) (hK : Keeps A a₀ s) : Keeps A a₀ (runStages p pk cells n k md s) := by
  induction n generalizing s k md with
  | zero =>
    unfold runStages
    repeat' first
        | with_reducible assumption | ((with_reducible apply sub_of hA); exact rfl) | dsimp only
        | with_reducible apply keeps_count | with_reducible apply keeps_puntItem
        | with_reducible apply keeps_takeAction | with_reducible refine keeps_ite (fun _ => ?_) (fun _ => ?_) | split
        | intro _ | with_reducible refine keeps_of_snd (by with_reducible assumption) ?_
        | with_reducible refine keeps_of_fst (by with_reducible assumption) ?_
  | succ _ ih =>
    unfold runStages
    repeat' first
        | with_reducible assumption | ((with_reducible apply sub_of hA); exact rfl) | dsimp only
        | with_reducible apply keeps_count | with_reducible apply keeps_puntItem
        | with_reducible apply keeps_takeAction | with_reducible apply ih
        | with_reducible refine keeps_ite (fun _ => ?_) (fun _ => ?_) | split | intro _
        | with_reducible refine keeps_of_snd (by with_reducible assumption) ?_
        | with_reducible refine keeps_of_fst (by with_reducible assumption) ?_

theorem keeps_classify (pk : Packet) (hA : Within 0x14006000800000000000000000040000000000000001001c000 A) (hK : Keeps A a₀ s) : Keeps A a₀ (classify pk s) := by
  unfold classify
  repeat' first
      | with_reducible assumption | ((with_reducible apply sub_of hA); exact rfl) | dsimp only
      | with_reducible apply keeps_count | with_reducible apply keeps_giveFree
      | with_reducible apply keeps_puntItem | with_reducible apply keeps_runStages
      | with_reducible refine keeps_ite (fun _ => ?_) (fun _ => ?_) | split | intro _
      | with_reducible refine keeps_of_snd (by with_reducible assumption) ?_
      | with_reducible refine keeps_of_fst (by with_reducible assumption) ?_

theorem keeps_arrivePacket (pk : Packet) (hA : Within 0x140060008000000000000000000400000000000000010014000 A) (hK : Keeps A a₀ s) : Keeps A a₀ (arrivePacket pk s) := by
  unfold arrivePacket
  repeat' first
      | with_reducible assumption | ((with_reducible apply sub_of hA); exact rfl) | dsimp only
      | with_reducible apply keeps_count | with_reducible apply keeps_takeCells
      | with_reducible refine keeps_ite (fun _ => ?_) (fun _ => ?_) | split | intro _
      | with_reducible apply keeps_part_th

theorem keeps_setPartial (cont : Nat) (p : Partial) (hA : Within 0x4000 A) (hK : Keeps A a₀ s) : Keeps A a₀ (setPartial cont p s) := by
  unfold setPartial
  repeat' first
      | with_reducible assumption | ((with_reducible apply sub_of hA); exact rfl) | dsimp only | intro _
      | with_reducible apply keeps_part_th

theorem keeps_dropPartial (cont : Nat) (hA : Within 0x4000 A) (hK : Keeps A a₀ s) : Keeps A a₀ (dropPartial cont s) := by
  unfold dropPartial
  repeat' first
      | with_reducible assumption | ((with_reducible apply sub_of hA); exact rfl) | dsimp only | intro _
      | with_reducible apply keeps_part_th

theorem keeps_segmentsMissing (cont : Nat) (hA : Within 0x140060008000000000000000000000000000000000010014000 A) (hK : Keeps A a₀ s) : Keeps A a₀ (segmentsMissing cont s) := by
  unfold segmentsMissing
  repeat' first
      | with_reducible assumption | ((with_reducible apply sub_of hA); exact rfl) | dsimp only
      | with_reducible apply keeps_count | with_reducible apply keeps_dropPartial
      | with_reducible refine keeps_ite (fun _ => ?_) (fun _ => ?_) | split | intro _

theorem keeps_takeSegmentIn (cont : Nat) (cls : Nat) (tag : Nat) (pos : Nat) (pseq : Nat) (bytes : List Byte) (hA : Within 0x140060008000000000000000000400000000000000010014000 A) (hK : Keeps A a₀ s) : Keeps A a₀ (takeSegmentIn cont cls tag pos pseq bytes s) := by
  unfold takeSegmentIn
  repeat' first
      | with_reducible assumption | ((with_reducible apply sub_of hA); exact rfl) | dsimp only
      | with_reducible apply keeps_arrivePacket | with_reducible apply keeps_count
      | with_reducible apply keeps_dropPartial | with_reducible apply keeps_segmentsMissing
      | with_reducible apply keeps_setPartial | with_reducible refine keeps_ite (fun _ => ?_) (fun _ => ?_) | split
      | intro _ | with_reducible refine keeps_of_snd (by with_reducible assumption) ?_
      | with_reducible refine keeps_of_fst (by with_reducible assumption) ?_

theorem keeps_takeSegments (cont cls tag fuel : Nat) (l : List Word) (hA : Within 0x140060008000000000000000000400000000000000010014000 A) (h : Keeps A a₀ s) :
    Keeps A a₀ (takeSegments cont cls tag fuel l s) := by
  induction fuel generalizing s l with
  | zero => cases l <;> exact h
  | succ n ih =>
    cases l with
    | nil => exact h
    | cons x r =>
      simp only [takeSegments]
      split
      · exact h
      · split
        · exact keeps_count _ (sub_of hA rfl) (keeps_dropPartial _ (sub_of hA rfl) h)
        · exact ih _ (keeps_takeSegmentIn _ _ _ _ _ _ (sub_of hA rfl) h)

theorem keeps_addOp  (hA : Within 0x40000000000000000000000 A) (hK : Keeps A a₀ s) : Keeps A a₀ (addOp s) := by
  unfold addOp
  repeat' first
      | with_reducible assumption | ((with_reducible apply sub_of hA); exact rfl) | dsimp only
      | with_reducible apply keeps_wr | exact cov_TH_UPDATE_STATUS _ rfl (sub_of hA rfl) | intro _

theorem keeps_setNew (n : Nat) (e : TEntry) (t : List (Nat × TEntry)) (result : Nat) (hA : Within 0x1400600080000000000000000000c0000000000000010014000 A) (hK : Keeps A a₀ s) : Keeps A a₀ (setNew n e t result s).2 := by
  unfold setNew
  repeat' first
      | with_reducible assumption | ((with_reducible apply sub_of hA); exact rfl) | dsimp only
      | with_reducible apply keeps_addOp | with_reducible apply keeps_count | with_reducible apply keeps_raise
      | with_reducible apply keeps_setTable | with_reducible apply keeps_wr
      | exact cov_TH_TABLE_STATUS _ _ rfl (sub_of hA rfl)
      | with_reducible refine keeps_ite (fun _ => ?_) (fun _ => ?_)
      | with_reducible refine keeps_ite_snd (fun _ => ?_) (fun _ => ?_) | split | intro _
      | with_reducible refine keeps_of_snd (by with_reducible assumption) ?_
      | with_reducible refine keeps_of_fst (by with_reducible assumption) ?_

theorem keeps_updSet (u : List Word) (hA : Within 0x1400600080000000000000000000c0000000000000010014000 A) (hK : Keeps A a₀ s) : Keeps A a₀ (updSet u s).2 := by
  unfold updSet
  repeat' first
      | with_reducible assumption | ((with_reducible apply sub_of hA); exact rfl) | dsimp only
      | with_reducible apply keeps_addOp | with_reducible apply keeps_setNew | with_reducible apply keeps_setTable
      | with_reducible refine keeps_ite (fun _ => ?_) (fun _ => ?_)
      | with_reducible refine keeps_ite_snd (fun _ => ?_) (fun _ => ?_) | split | intro _
      | with_reducible refine keeps_of_snd (by with_reducible assumption) ?_
      | with_reducible refine keeps_of_fst (by with_reducible assumption) ?_

theorem keeps_updDelete (u : List Word) (hA : Within 0x40000000000000000004000 A) (hK : Keeps A a₀ s) : Keeps A a₀ (updDelete u s).2 := by
  unfold updDelete
  repeat' first
      | with_reducible assumption | ((with_reducible apply sub_of hA); exact rfl) | dsimp only
      | with_reducible apply keeps_addOp | with_reducible apply keeps_setTable
      | with_reducible refine keeps_ite (fun _ => ?_) (fun _ => ?_)
      | with_reducible refine keeps_ite_snd (fun _ => ?_) (fun _ => ?_) | split | intro _
      | with_reducible refine keeps_of_snd (by with_reducible assumption) ?_
      | with_reducible refine keeps_of_fst (by with_reducible assumption) ?_

theorem keeps_updCommit (T : Nat) (hA : Within 0x40000000000000000004000 A) (hK : Keeps A a₀ s) : Keeps A a₀ (updCommit T s).2 := by
  unfold updCommit
  repeat' first
      | with_reducible assumption | ((with_reducible apply sub_of hA); exact rfl) | dsimp only
      | with_reducible apply keeps_wr | exact cov_TH_UPDATE_STATUS _ rfl (sub_of hA rfl)
      | with_reducible refine keeps_ite (fun _ => ?_) (fun _ => ?_)
      | with_reducible refine keeps_ite_snd (fun _ => ?_) (fun _ => ?_) | split | intro _
      | with_reducible apply keeps_part_th

theorem keeps_emptyTables  (hA : Within 0x40000000000000000004000 A) (hK : Keeps A a₀ s) : Keeps A a₀ (emptyTables s) := by
  unfold emptyTables
  repeat' first
      | with_reducible assumption | ((with_reducible apply sub_of hA); exact rfl) | dsimp only
      | with_reducible apply keeps_setReg | exact cov_TH_UPDATE_STATUS _ rfl (sub_of hA rfl) | intro _
      | with_reducible apply keeps_part_th

theorem keeps_execThresherPacket (hA : Within 0x14006000800000000000000000040000000000000001001c000 A) (hK : Keeps A a₀ s) : KeepsRes A a₀ (execThresherPacket s) := by
  unfold execThresherPacket
  with_reducible apply keepsRes_done
  repeat' first
      | with_reducible assumption | ((with_reducible apply sub_of hA); exact rfl) | dsimp only
      | with_reducible apply keeps_classify | with_reducible refine keeps_ite (fun _ => ?_) (fun _ => ?_)
      | split | intro _ | with_reducible refine keeps_of_snd (by with_reducible assumption) ?_
      | with_reducible refine keeps_of_fst (by with_reducible assumption) ?_
      | with_reducible apply keeps_part_th

theorem keeps_keepPrior (t off : Nat) (hA : Within 0x4000 A) (hK : Keeps A a₀ s) : Keeps A a₀ (keepPrior t off s) := by
  unfold keepPrior
  repeat' first
      | with_reducible assumption | ((with_reducible apply sub_of hA); exact rfl) | dsimp only | intro _
      | with_reducible apply keeps_part_th

theorem keeps_execTableSweep (hA : Within 0x40000000000000000004000 A) (hK : Keeps A a₀ s) : KeepsRes A a₀ (execTableSweep s) := by
  unfold execTableSweep
  with_reducible apply keepsRes_done
  repeat' first
      | with_reducible assumption | ((with_reducible apply sub_of hA); exact rfl) | dsimp only
      | with_reducible apply keeps_wr | exact cov_TH_UPDATE_STATUS _ rfl (sub_of hA rfl)
      | with_reducible refine keeps_ite (fun _ => ?_) (fun _ => ?_) | split | intro _
      | with_reducible refine keeps_of_snd (by with_reducible assumption) ?_
      | with_reducible refine keeps_of_fst (by with_reducible assumption) ?_
      | with_reducible apply keeps_part_th

theorem keeps_execTableSweepDone  (hA : Within 0x40000000000000000004000 A) (hK : Keeps A a₀ s) : KeepsRes A a₀ (execTableSweepDone s) := by
  unfold execTableSweepDone
  with_reducible apply keepsRes_done
  repeat' first
      | with_reducible assumption | ((with_reducible apply sub_of hA); exact rfl) | dsimp only
      | with_reducible apply keeps_done | with_reducible apply keeps_setReg
      | exact cov_TH_UPDATE_STATUS _ rfl (sub_of hA rfl) | with_reducible refine keeps_ite (fun _ => ?_) (fun _ => ?_)
      | split | intro _ | with_reducible apply keeps_part_th

end Sys2Proof.Laws
end

