-- ==== Sys2Proof/Laws/KeepsEthernet.lean ====
section
/-! SUPPORT. `Keeps` for the operations of Machine/Ethernet.lean. -/

set_option linter.unusedTactic false
set_option linter.unreachableTactic false

namespace Sys2Proof.Laws

open Sys2Proof Sys2Proof.Machine Sys2Proof.Safety

variable {A : Nat} {a₀ s : State}

theorem keeps_setPort (k : Nat) (f : PortSt → PortSt) (hA : Within 0x20000 A) (hK : Keeps A a₀ s) : Keeps A a₀ (setPort k f s) := by
  unfold setPort
  repeat' first
      | with_reducible assumption | ((with_reducible apply sub_of hA); exact rfl) | dsimp only | intro _
      | with_reducible apply keeps_part_eth

theorem keeps_sendConfig (k w : Nat) (hA : Within 0x20020000 A) (hK : Keeps A a₀ s) : Keeps A a₀ (sendConfig k w s) := by
  unfold sendConfig
  repeat' first
      | with_reducible assumption | ((with_reducible apply sub_of hA); exact rfl) | dsimp only
      | with_reducible apply keeps_emit | with_reducible apply keeps_setPort | intro _

theorem keeps_anStart (k : Nat) (hA : Within 0x10000000000000000000020020000 A) (hK : Keeps A a₀ s) : Keeps A a₀ (anStart k s) := by
  unfold anStart
  repeat' first
      | with_reducible assumption | ((with_reducible apply sub_of hA); exact rfl) | dsimp only
      | with_reducible apply keeps_sendConfig | with_reducible apply keeps_setPort
      | with_reducible apply keeps_wr | exact cov_ETH_STATUS _ _ rfl (sub_of hA rfl)
      | with_reducible refine keeps_ite (fun _ => ?_) (fun _ => ?_) | split | intro _

theorem keeps_setSync (k : Nat) (ok : Bool) (hA : Within 0x1000000000000000 A)
    (hK : Keeps A a₀ s) : Keeps A a₀ (setSync k ok s) := by
  unfold setSync
  repeat' first
      | with_reducible assumption | ((with_reducible apply sub_of hA); exact rfl) | dsimp only
      | with_reducible apply keeps_wr | exact cov_LANE_STATUS _ _ rfl (sub_of hA rfl) | intro _

theorem keeps_linkDownOp (k : Nat) (txCut rxCut : Bool) (hA : Within 0x140060008000000000000010000400000000000000010038000 A)
    (hK : Keeps A a₀ s) : Keeps A a₀ (linkDownOp k txCut rxCut s) := by
  unfold linkDownOp
  repeat' first
      | with_reducible assumption | ((with_reducible apply sub_of hA); exact rfl) | dsimp only
      | with_reducible apply keeps_count | with_reducible apply keeps_raise | with_reducible apply keeps_setPort
      | with_reducible apply keeps_startHold | with_reducible apply keeps_whenB | with_reducible apply keeps_wr
      | exact cov_ETH_STATUS _ _ rfl (sub_of hA rfl)
      | with_reducible refine keeps_ite (fun _ => ?_) (fun _ => ?_) | split | intro _

theorem keeps_linkCut (k : Nat) (hA : Within 0x140060008000000000000010000400000000000000010038000 A) (hK : Keeps A a₀ s) : Keeps A a₀ (linkCut k s) := by
  unfold linkCut
  repeat' first
      | with_reducible assumption | ((with_reducible apply sub_of hA); exact rfl) | dsimp only
      | with_reducible apply keeps_fresh | with_reducible apply keeps_linkDownOp
      | with_reducible refine keeps_ite (fun _ => ?_) (fun _ => ?_)
      | with_reducible refine keeps_ite_snd (fun _ => ?_) (fun _ => ?_) | split | intro _
      | with_reducible refine keeps_of_snd (by with_reducible assumption) ?_
      | with_reducible refine keeps_of_fst (by with_reducible assumption) ?_

theorem keeps_linkUpOp (k : Nat) (hA : Within 0x140060008000000000000010000000000001000000010038000 A) (hK : Keeps A a₀ s) : Keeps A a₀ (linkUpOp k s) := by
  unfold linkUpOp
  repeat' first
      | with_reducible assumption | ((with_reducible apply sub_of hA); exact rfl) | dsimp only
      | with_reducible apply keeps_endHold | with_reducible apply keeps_raise
      | with_reducible apply keeps_setPort | with_reducible apply keeps_setSync | with_reducible apply keeps_wr
      | exact cov_ETH_STATUS _ _ rfl (sub_of hA rfl)
      | with_reducible refine keeps_ite (fun _ => ?_) (fun _ => ?_) | split | intro _

theorem keeps_execLinkUp (port : Fin 6) (hA : Within 0x140060008000000000000010000000000001000000010038000 A) (hK : Keeps A a₀ s) : KeepsRes A a₀ (execLinkUp port s) := by
  unfold execLinkUp
  with_reducible apply keepsRes_done
  repeat' first
      | with_reducible assumption | ((with_reducible apply sub_of hA); exact rfl) | dsimp only
      | with_reducible apply keeps_done | with_reducible apply keeps_linkUpOp | intro _

theorem keeps_execLinkDown (port : Fin 6) (txCut rxCut : Bool) (hA : Within 0x140060008000000000000010000400000001000000030038000 A)
    (hK : Keeps A a₀ s) : KeepsRes A a₀ (execLinkDown port txCut rxCut s) := by
  unfold execLinkDown
  with_reducible apply keepsRes_done
  repeat' first
      | with_reducible assumption | ((with_reducible apply sub_of hA); exact rfl) | dsimp only
      | with_reducible apply keeps_anStart | with_reducible apply keeps_linkDownOp
      | with_reducible apply keeps_setSync | with_reducible refine keeps_ite (fun _ => ?_) (fun _ => ?_) | split
      | intro _

theorem keeps_execAnBasePage (port : Fin 6) (page : BitVec 16) (hA : Within 0x140060008000000000000010000400000001000000010038000 A)
    (hK : Keeps A a₀ s) : KeepsRes A a₀ (execAnBasePage port page s) := by
  unfold execAnBasePage
  with_reducible apply keepsRes_done
  repeat' first
      | with_reducible assumption | ((with_reducible apply sub_of hA); exact rfl) | dsimp only
      | with_reducible apply keeps_count | with_reducible apply keeps_linkCut
      | with_reducible apply keeps_setPort | with_reducible apply keeps_setSync
      | with_reducible apply keeps_whenB | with_reducible apply keeps_wr
      | exact cov_ETH_STATUS _ _ rfl (sub_of hA rfl)
      | with_reducible refine keeps_ite (fun _ => ?_) (fun _ => ?_) | split | intro _

theorem keeps_execAnRestart (port : Fin 6) (hA : Within 0x10000000000000000000020020000 A)
    (hK : Keeps A a₀ s) : KeepsRes A a₀ (execAnRestart port s) := by
  unfold execAnRestart
  with_reducible apply keepsRes_done
  repeat' first
      | with_reducible assumption | ((with_reducible apply sub_of hA); exact rfl) | dsimp only
      | with_reducible apply keeps_anStart | with_reducible refine keeps_ite (fun _ => ?_) (fun _ => ?_) | split
      | intro _

theorem keeps_execSgmiiWord (port : Fin 6) (word : BitVec 16) (hA : Within 0x140060008000000000000010000400000001000000030038000 A)
    (hK : Keeps A a₀ s) : KeepsRes A a₀ (execSgmiiWord port word s) := by
  unfold execSgmiiWord
  with_reducible apply keepsRes_done
  repeat' first
      | with_reducible assumption | ((with_reducible apply sub_of hA); exact rfl) | dsimp only
      | with_reducible apply keeps_count | with_reducible apply keeps_linkCut
      | with_reducible apply keeps_sendConfig | with_reducible apply keeps_setPort
      | with_reducible apply keeps_setSync | with_reducible apply keeps_whenB | with_reducible apply keeps_wr
      | exact cov_ETH_STATUS _ _ rfl (sub_of hA rfl)
      | with_reducible refine keeps_ite (fun _ => ?_) (fun _ => ?_) | split | intro _

theorem keeps_txRefresh (k : Nat) (hA : Within 0x10000000000000000000020020000 A) (hK : Keeps A a₀ s) : Keeps A a₀ (txRefresh k s) := by
  unfold txRefresh
  repeat' first
      | with_reducible assumption | ((with_reducible apply sub_of hA); exact rfl) | dsimp only
      | with_reducible apply keeps_anStart | with_reducible apply keeps_emit
      | with_reducible apply keeps_setPort | with_reducible refine keeps_ite (fun _ => ?_) (fun _ => ?_) | split
      | intro _

theorem keeps_ethCfgChanged (k : Nat) (old : Word) (hA : Within 0x140060008000000000000010000400000000000000030038000 A)
    (hK : Keeps A a₀ s) : Keeps A a₀ (ethCfgChanged k old s) := by
  unfold ethCfgChanged
  repeat' first
      | with_reducible assumption | ((with_reducible apply sub_of hA); exact rfl) | dsimp only
      | with_reducible apply keeps_anStart | with_reducible apply keeps_linkCut
      | with_reducible apply keeps_txRefresh | with_reducible refine keeps_ite (fun _ => ?_) (fun _ => ?_)
      | split | intro _

theorem keeps_lanOff (hA : Within 0x140060008000000000000010000400000000000000010038000 A) (hK : Keeps A a₀ s) : Keeps A a₀ (lanOff s) := by
  unfold lanOff
  repeat' first
      | with_reducible assumption | ((with_reducible apply sub_of hA); exact rfl) | dsimp only
      | with_reducible apply keeps_eachOf | with_reducible apply keeps_linkCut | intro _

theorem keeps_portsRefresh (hA : Within 0x140060008000000000000010000400000000000000030038000 A) (hK : Keeps A a₀ s) : Keeps A a₀ (portsRefresh s) := by
  unfold portsRefresh
  repeat' first
      | with_reducible assumption | ((with_reducible apply sub_of hA); exact rfl) | dsimp only
      | with_reducible apply keeps_eachOf | with_reducible apply keeps_linkCut
      | with_reducible apply keeps_txRefresh | with_reducible refine keeps_ite (fun _ => ?_) (fun _ => ?_)
      | split | intro _

theorem keeps_applyGates (hA : Within 0x200000 A) (hK : Keeps A a₀ s) : Keeps A a₀ (applyGates s) := by
  unfold applyGates
  repeat' first
      | with_reducible assumption | ((with_reducible apply sub_of hA); exact rfl) | dsimp only
      | with_reducible apply keeps_setPwr | with_reducible refine keeps_ite (fun _ => ?_) (fun _ => ?_) | split
      | intro _

theorem keeps_setPtpState (k st : Nat) (hA : Within 0x140060008000000000000100000000000000000000010030000 A) (hK : Keeps A a₀ s) : Keeps A a₀ (setPtpState k st s) := by
  unfold setPtpState
  repeat' first
      | with_reducible assumption | ((with_reducible apply sub_of hA); exact rfl) | dsimp only
      | with_reducible apply keeps_raise | with_reducible apply keeps_setPort | with_reducible apply keeps_whenB
      | with_reducible apply keeps_wr | exact cov_PTP_STATUS _ rfl (sub_of hA rfl)
      | with_reducible refine keeps_ite (fun _ => ?_) (fun _ => ?_) | split | intro _

theorem keeps_bmcaPort (k : Nat) (hA : Within 0x140060008000000000000100000000000000000000010030000 A) (hK : Keeps A a₀ s) : Keeps A a₀ (bmcaPort k s) := by
  unfold bmcaPort
  repeat' first
      | with_reducible assumption | ((with_reducible apply sub_of hA); exact rfl) | dsimp only
      | with_reducible apply keeps_setPtpState | with_reducible refine keeps_ite (fun _ => ?_) (fun _ => ?_)
      | split | intro _ | with_reducible refine keeps_of_snd (by with_reducible assumption) ?_
      | with_reducible refine keeps_of_fst (by with_reducible assumption) ?_

theorem keeps_bmca  (hA : Within 0x140060008000000000000100000000000000000000010030000 A) (hK : Keeps A a₀ s) : Keeps A a₀ (bmca s) := by
  unfold bmca
  repeat' first
      | with_reducible assumption | ((with_reducible apply sub_of hA); exact rfl) | dsimp only
      | with_reducible apply keeps_bmcaPort | with_reducible apply keeps_eachOf | intro _

theorem keeps_ptpRefresh (hA : Within 0x140060008000000000000100000000000000000000010030000 A) (hK : Keeps A a₀ s) : Keeps A a₀ (ptpRefresh s) := by
  unfold ptpRefresh
  repeat' first
      | with_reducible assumption | ((with_reducible apply sub_of hA); exact rfl) | dsimp only
      | with_reducible apply keeps_bmca | with_reducible apply keeps_eachOf | with_reducible apply keeps_raise
      | with_reducible apply keeps_setPtpState | with_reducible apply keeps_wr
      | exact cov_PTP_STATUS _ rfl (sub_of hA rfl) | with_reducible refine keeps_ite (fun _ => ?_) (fun _ => ?_)
      | split | intro _ | with_reducible apply keeps_part_eth

theorem keeps_sendPtp (k kind : Nat) (b : List Byte) (hA : Within 0x30000000 A)
    (hK : Keeps A a₀ s) : Keeps A a₀ (sendPtp k kind b s) := by
  unfold sendPtp
  repeat' first
      | with_reducible assumption | ((with_reducible apply sub_of hA); exact rfl) | dsimp only
      | with_reducible apply keeps_emit | with_reducible apply keeps_fresh
      | with_reducible refine keeps_ite (fun _ => ?_) (fun _ => ?_)
      | with_reducible refine keeps_ite_snd (fun _ => ?_) (fun _ => ?_) | split | intro _
      | with_reducible refine keeps_of_snd (by with_reducible assumption) ?_
      | with_reducible refine keeps_of_fst (by with_reducible assumption) ?_

theorem keeps_sendDue (k : Nat) (kind : PtpKind) (txCap : Nat) (hA : Within 0x30020000 A)
    (hK : Keeps A a₀ s) : Keeps A a₀ (sendDue k kind txCap s) := by
  unfold sendDue
  repeat' first
      | with_reducible assumption | ((with_reducible apply sub_of hA); exact rfl) | dsimp only
      | with_reducible apply keeps_sendPtp | with_reducible apply keeps_setPort
      | with_reducible refine keeps_ite (fun _ => ?_) (fun _ => ?_)
      | with_reducible refine keeps_ite_snd (fun _ => ?_) (fun _ => ?_) | split | intro _
      | with_reducible refine keeps_of_snd (by with_reducible assumption) ?_
      | with_reducible refine keeps_of_fst (by with_reducible assumption) ?_

theorem keeps_answerDelayReq (k : Nat) (b : List Byte) (cap : Nat) (hA : Within 0x30000000 A)
    (hK : Keeps A a₀ s) : Keeps A a₀ (answerDelayReq k b cap s) := by
  unfold answerDelayReq
  repeat' first
      | with_reducible assumption | ((with_reducible apply sub_of hA); exact rfl) | dsimp only
      | with_reducible apply keeps_sendPtp | with_reducible refine keeps_ite (fun _ => ?_) (fun _ => ?_)
      | with_reducible refine keeps_ite_snd (fun _ => ?_) (fun _ => ?_) | split | intro _
      | with_reducible refine keeps_of_snd (by with_reducible assumption) ?_
      | with_reducible refine keeps_of_fst (by with_reducible assumption) ?_

theorem keeps_answerPdelayReq (k : Nat) (b : List Byte) (cap txCap : Nat) (hA : Within 0x30000000 A)
    (hK : Keeps A a₀ s) : Keeps A a₀ (answerPdelayReq k b cap txCap s) := by
  unfold answerPdelayReq
  repeat' first
      | with_reducible assumption | ((with_reducible apply sub_of hA); exact rfl) | dsimp only
      | with_reducible apply keeps_sendPtp | with_reducible refine keeps_ite (fun _ => ?_) (fun _ => ?_)
      | with_reducible refine keeps_ite_snd (fun _ => ?_) (fun _ => ?_) | split | intro _
      | with_reducible refine keeps_of_snd (by with_reducible assumption) ?_
      | with_reducible refine keeps_of_fst (by with_reducible assumption) ?_

theorem keeps_sendOut (k : Nat) (x : PtpOut) (txCap : Nat) (hA : Within 0x30020000 A)
    (hK : Keeps A a₀ s) : Keeps A a₀ (sendOut k x txCap s) := by
  unfold sendOut
  repeat' first
      | with_reducible assumption | ((with_reducible apply sub_of hA); exact rfl) | dsimp only
      | with_reducible apply keeps_answerDelayReq | with_reducible apply keeps_answerPdelayReq
      | with_reducible apply keeps_sendDue | split | intro _
      | with_reducible refine keeps_of_snd (by with_reducible assumption) ?_
      | with_reducible refine keeps_of_fst (by with_reducible assumption) ?_

theorem keeps_ptpOut (k : Nat) (x : PtpOut) (txCap : Nat) (hA : Within 0x30020000 A)
    (hK : Keeps A a₀ s) : Keeps A a₀ (ptpOut k x txCap s) := by
  unfold ptpOut
  repeat' first
      | with_reducible assumption | ((with_reducible apply sub_of hA); exact rfl) | dsimp only
      | with_reducible apply keeps_sendOut | with_reducible apply keeps_setPort
      | with_reducible refine keeps_ite (fun _ => ?_) (fun _ => ?_) | split | intro _

theorem keeps_execPtpMessageDue (port : Fin 6) (kind : PtpKind) (txCap : Nat) (hA : Within 0x30020000 A)
    (hK : Keeps A a₀ s) : KeepsRes A a₀ (execPtpMessageDue port kind txCap s) := by
  unfold execPtpMessageDue
  with_reducible apply keepsRes_done
  repeat' first
      | with_reducible assumption | ((with_reducible apply sub_of hA); exact rfl) | dsimp only
      | with_reducible apply keeps_ptpOut | intro _

theorem keeps_hearAnnounce (k : Nat) (b : List Byte) (hA : Within 0x140060008000000000000100000000000000000000010030000 A)
    (hK : Keeps A a₀ s) : Keeps A a₀ (hearAnnounce k b s) := by
  unfold hearAnnounce
  repeat' first
      | with_reducible assumption | ((with_reducible apply sub_of hA); exact rfl) | dsimp only
      | with_reducible apply keeps_bmca | with_reducible apply keeps_setPort
      | with_reducible refine keeps_ite (fun _ => ?_) (fun _ => ?_) | split | intro _

theorem keeps_handlePtp (k : Nat) (b : List Byte) (cap txCap : Nat) (hA : Within 0x140060008000000000000100000000000000000000030030000 A)
    (hK : Keeps A a₀ s) : Keeps A a₀ (handlePtp k b cap txCap s) := by
  unfold handlePtp
  repeat' first
      | with_reducible assumption | ((with_reducible apply sub_of hA); exact rfl) | dsimp only
      | with_reducible apply keeps_count | with_reducible apply keeps_hearAnnounce
      | with_reducible apply keeps_ptpOut | with_reducible apply keeps_setPort | with_reducible apply keeps_wr
      | exact cov_PTP_STATUS _ rfl (sub_of hA rfl) | with_reducible refine keeps_ite (fun _ => ?_) (fun _ => ?_)
      | split | intro _ | with_reducible refine keeps_of_snd (by with_reducible assumption) ?_
      | with_reducible refine keeps_of_fst (by with_reducible assumption) ?_

theorem keeps_execPtpRx (port : Fin 6) (txCap : Nat) (hA : Within 0x140060008000000000000100000000000000000000030030000 A) (hK : Keeps A a₀ s) : KeepsRes A a₀ (execPtpRx port txCap s) := by
  unfold execPtpRx
  with_reducible apply keepsRes_done
  repeat' first
      | with_reducible assumption | ((with_reducible apply sub_of hA); exact rfl) | dsimp only
      | with_reducible apply keeps_done | with_reducible apply keeps_handlePtp | with_reducible apply keeps_setPort
      | with_reducible refine keeps_ite (fun _ => ?_) (fun _ => ?_) | split | intro _
      | with_reducible refine keeps_of_snd (by with_reducible assumption) ?_
      | with_reducible refine keeps_of_fst (by with_reducible assumption) ?_

theorem keeps_execAnnounceReceiptTimeout (port : Fin 6) (hA : Within 0x140060008000000000000100000000000000000000010030000 A)
    (hK : Keeps A a₀ s) : KeepsRes A a₀ (execAnnounceReceiptTimeout port s) := by
  unfold execAnnounceReceiptTimeout
  with_reducible apply keepsRes_done
  repeat' first
      | with_reducible assumption | ((with_reducible apply sub_of hA); exact rfl) | dsimp only
      | with_reducible apply keeps_setPort | with_reducible apply keeps_setPtpState
      | with_reducible refine keeps_ite (fun _ => ?_) (fun _ => ?_) | split | intro _

theorem keeps_execQualificationTimeout (port : Fin 6) (hA : Within 0x140060008000000000000100000000000000000000010030000 A) (hK : Keeps A a₀ s) : KeepsRes A a₀ (execQualificationTimeout port s) := by
  unfold execQualificationTimeout
  with_reducible apply keepsRes_done
  repeat' first
      | with_reducible assumption | ((with_reducible apply sub_of hA); exact rfl) | dsimp only
      | with_reducible apply keeps_done | with_reducible apply keeps_setPtpState
      | with_reducible refine keeps_ite (fun _ => ?_) (fun _ => ?_) | split | intro _

theorem keeps_execHoldoverExpiry  (hA : Within 0x140060008000000000000100000000000000000000010030000 A) (hK : Keeps A a₀ s) : KeepsRes A a₀ (execHoldoverExpiry s) := by
  unfold execHoldoverExpiry
  with_reducible apply keepsRes_done
  repeat' first
      | with_reducible assumption | ((with_reducible apply sub_of hA); exact rfl) | dsimp only
      | with_reducible apply keeps_done | with_reducible apply keeps_ptpRefresh
      | with_reducible refine keeps_ite (fun _ => ?_) (fun _ => ?_) | split | intro _
      | with_reducible apply keeps_part_eth

theorem keeps_pauseFrame (k : Nat) (b : List Byte) (hA : Within 0x140060008000000000000010000000000000000000010030000 A) (hK : Keeps A a₀ s) : Keeps A a₀ (pauseFrame k b s) := by
  unfold pauseFrame
  repeat' first
      | with_reducible assumption | ((with_reducible apply sub_of hA); exact rfl) | dsimp only
      | with_reducible apply keeps_count | with_reducible apply keeps_setPort | with_reducible apply keeps_wr
      | exact cov_ETH_STATUS _ _ rfl (sub_of hA rfl) | with_reducible refine keeps_ite (fun _ => ?_) (fun _ => ?_)
      | split | intro _

theorem keeps_execPause (port : Fin 6) (bytes : List Byte) (hA : Within 0x140060008000000000000010000000000000000000010030000 A) (hK : Keeps A a₀ s) : KeepsRes A a₀ (execPause port bytes s) := by
  unfold execPause
  with_reducible apply keepsRes_done
  repeat' first
      | with_reducible assumption | ((with_reducible apply sub_of hA); exact rfl) | dsimp only
      | with_reducible apply keeps_done | with_reducible apply keeps_pauseFrame
      | with_reducible refine keeps_ite (fun _ => ?_) (fun _ => ?_) | split | intro _

theorem keeps_execPauseEnd (port : Fin 6) (hA : Within 0x10000000000000000000000020000 A) (hK : Keeps A a₀ s) : KeepsRes A a₀ (execPauseEnd port s) := by
  unfold execPauseEnd
  with_reducible apply keepsRes_done
  repeat' first
      | with_reducible assumption | ((with_reducible apply sub_of hA); exact rfl) | dsimp only
      | with_reducible apply keeps_done | with_reducible apply keeps_setPort | with_reducible apply keeps_wr
      | exact cov_ETH_STATUS _ _ rfl (sub_of hA rfl) | with_reducible refine keeps_ite (fun _ => ?_) (fun _ => ?_)
      | split | intro _

theorem keeps_goodFrame (k : Nat) (b : List Byte) (cap : Nat) (hA : Within 0x140060008000000000000000000400000000000000010034000 A) (hK : Keeps A a₀ s) : Keeps A a₀ (goodFrame k b cap s) := by
  unfold goodFrame
  repeat' first
      | with_reducible assumption | ((with_reducible apply sub_of hA); exact rfl) | dsimp only
      | with_reducible apply keeps_arrivePacket | with_reducible apply keeps_count
      | with_reducible apply keeps_setPort | with_reducible refine keeps_ite (fun _ => ?_) (fun _ => ?_) | split
      | intro _ | with_reducible refine keeps_of_snd (by with_reducible assumption) ?_
      | with_reducible refine keeps_of_fst (by with_reducible assumption) ?_

theorem keeps_execEthFrameRx (port : Fin 6) (bytes : List Byte) (codeErr : Bool) (cap : Nat) (hA : Within 0x140060008000000000000010000400000000000000010034000 A) (hK : Keeps A a₀ s) : KeepsRes A a₀ (execEthFrameRx port bytes codeErr cap s) := by
  unfold execEthFrameRx
  with_reducible apply keepsRes_done
  repeat' first
      | with_reducible assumption | ((with_reducible apply sub_of hA); exact rfl) | dsimp only
      | with_reducible apply keeps_count | with_reducible apply keeps_done | with_reducible apply keeps_goodFrame
      | with_reducible apply keeps_pauseFrame | with_reducible refine keeps_ite (fun _ => ?_) (fun _ => ?_) | split
      | intro _

theorem keeps_withChecksums (k : Nat) (i : Item) (hA : Within 0x140060008000000000000000000000000000000000010010000 A) (hK : Keeps A a₀ s) : Keeps A a₀ (withChecksums k i s).2 := by
  unfold withChecksums
  repeat' first
      | with_reducible assumption | ((with_reducible apply sub_of hA); exact rfl) | dsimp only
      | with_reducible apply keeps_count | with_reducible refine keeps_ite (fun _ => ?_) (fun _ => ?_)
      | with_reducible refine keeps_ite_snd (fun _ => ?_) (fun _ => ?_) | split | intro _
      | with_reducible refine keeps_of_snd (by with_reducible assumption) ?_
      | with_reducible refine keeps_of_fst (by with_reducible assumption) ?_

theorem keeps_sendFrame (k : Nat) (hA : Within 0x140060008000000000000000000400000000000000030018000 A) (hK : Keeps A a₀ s) : Keeps A a₀ (sendFrame k s) := by
  unfold sendFrame
  repeat' first
      | with_reducible assumption | ((with_reducible apply sub_of hA); exact rfl) | dsimp only
      | with_reducible apply keeps_count | with_reducible apply keeps_eachOf | with_reducible apply keeps_emit
      | with_reducible apply keeps_sweepQueue | with_reducible apply keeps_takeFrame
      | with_reducible apply keeps_withChecksums | with_reducible refine keeps_ite (fun _ => ?_) (fun _ => ?_)
      | with_reducible refine keeps_ite_snd (fun _ => ?_) (fun _ => ?_) | split | intro _
      | with_reducible refine keeps_of_snd (by with_reducible assumption) ?_
      | with_reducible refine keeps_of_fst (by with_reducible assumption) ?_

theorem keeps_execFrameTransmit (port : Fin 6) (txCap : Nat) (hA : Within 0x140060008000000000000000000400000000000000030038000 A)
    (hK : Keeps A a₀ s) : KeepsRes A a₀ (execFrameTransmit port txCap s) := by
  unfold execFrameTransmit
  with_reducible apply keepsRes_done
  repeat' first
      | with_reducible assumption | ((with_reducible apply sub_of hA); exact rfl) | dsimp only
      | with_reducible apply keeps_sendFrame | with_reducible apply keeps_sendOut
      | with_reducible apply keeps_setPort | with_reducible refine keeps_ite (fun _ => ?_) (fun _ => ?_) | split
      | intro _ | with_reducible refine keeps_of_snd (by with_reducible assumption) ?_
      | with_reducible refine keeps_of_fst (by with_reducible assumption) ?_

end Sys2Proof.Laws
end

