-- ==== Sys2Proof/Laws/KeepsMotion.lean ====
section
/-! SUPPORT. `Keeps` for the operations of Machine/Motion.lean. -/

set_option linter.unusedTactic false
set_option linter.unreachableTactic false

namespace Sys2Proof.Laws

open Sys2Proof Sys2Proof.Machine Sys2Proof.Safety

variable {A : Nat} {a₀ s : State}

theorem keeps_setAx (k : Nat) (f : AxSt → AxSt) (hA : Within 0x80000 A) (hK : Keeps A a₀ s) : Keeps A a₀ (setAx k f s) := by
  unfold setAx
  repeat' first
      | with_reducible assumption | ((with_reducible apply sub_of hA); exact rfl) | dsimp only | intro _
      | with_reducible apply keeps_part_mot

theorem keeps_axGo (k : Nat) (st : Nat) (hA : Within 0x4000000000000000000000000000000000000 A) (hK : Keeps A a₀ s) : Keeps A a₀ (axGo k st s) := by
  unfold axGo
  repeat' first
      | with_reducible assumption | ((with_reducible apply sub_of hA); exact rfl) | dsimp only
      | with_reducible apply keeps_wr | exact cov_AX_STATUS _ _ rfl (sub_of hA rfl) | intro _

theorem keeps_setPosQ (k : Nat) (p : Int) (hA : Within 0x800000000000000000000000000000080000 A) (hK : Keeps A a₀ s) : Keeps A a₀ (setPosQ k p s) := by
  unfold setPosQ
  repeat' first
      | with_reducible assumption | ((with_reducible apply sub_of hA); exact rfl) | dsimp only
      | with_reducible apply keeps_setAx | with_reducible apply keeps_wr
      | exact cov_AX_POS_CMD _ _ rfl (sub_of hA rfl) | intro _

theorem keeps_stepOut (k : Nat) (a b : Int) (hA : Within 0x20000000 A)
    (hK : Keeps A a₀ s) : Keeps A a₀ (stepOut k a b s) := by
  unfold stepOut
  repeat' first
      | with_reducible assumption | ((with_reducible apply sub_of hA); exact rfl) | dsimp only
      | with_reducible apply keeps_emit | with_reducible refine keeps_ite (fun _ => ?_) (fun _ => ?_) | split
      | intro _

theorem keeps_moveTo (k : Nat) (via p : Int) (hA : Within 0x800000000000000000000000000020080000 A)
    (hK : Keeps A a₀ s) : Keeps A a₀ (moveTo k via p s) := by
  unfold moveTo
  repeat' first
      | with_reducible assumption | ((with_reducible apply sub_of hA); exact rfl) | dsimp only
      | with_reducible apply keeps_setPosQ | with_reducible apply keeps_stepOut | intro _

theorem keeps_enterBraking (k : Nat) (toHeld : Bool) (hA : Within 0x4000000000000000000000000000000080000 A) (hK : Keeps A a₀ s) : Keeps A a₀ (enterBraking k toHeld s) := by
  unfold enterBraking
  repeat' first
      | with_reducible assumption | ((with_reducible apply sub_of hA); exact rfl) | dsimp only
      | with_reducible apply keeps_axGo | with_reducible apply keeps_setAx | with_reducible apply keeps_wr
      | exact cov_AX_STATUS _ _ rfl (sub_of hA rfl) | intro _

theorem keeps_rundown (k cause : Nat) (hA : Within 0x140060008000004000000000000000000000000000010090000 A) (hK : Keeps A a₀ s) : Keeps A a₀ (rundown k cause s) := by
  unfold rundown
  repeat' first
      | with_reducible assumption | ((with_reducible apply sub_of hA); exact rfl) | dsimp only
      | with_reducible apply keeps_axGo | with_reducible apply keeps_enterBraking
      | with_reducible apply keeps_raise | with_reducible apply keeps_setAx | with_reducible apply keeps_wr
      | exact cov_AX_STATUS _ _ rfl (sub_of hA rfl)
      | with_reducible refine keeps_ite (fun _ => ?_) (fun _ => ?_) | split | intro _

theorem keeps_rundownAll (cause : Nat) (hA : Within 0x140060008000004000000000000000000000000000010090000 A) (hK : Keeps A a₀ s) : Keeps A a₀ (rundownAll cause s) := by
  unfold rundownAll
  repeat' first
      | with_reducible assumption | ((with_reducible apply sub_of hA); exact rfl) | dsimp only
      | with_reducible apply keeps_rundown | intro _

theorem keeps_dropToHeld (k : Nat) (cause : Nat) (hA : Within 0x4000000000000000000000000000000080000 A) (hK : Keeps A a₀ s) : Keeps A a₀ (dropToHeld k cause s) := by
  unfold dropToHeld
  repeat' first
      | with_reducible assumption | ((with_reducible apply sub_of hA); exact rfl) | dsimp only
      | with_reducible apply keeps_axGo | with_reducible apply keeps_setAx | with_reducible apply keeps_wr
      | exact cov_AX_STATUS _ _ rfl (sub_of hA rfl) | intro _

theorem keeps_storeProfile (k : Nat) (n : Nat) (first : Nat) (segs : List Seg) (hA : Within 0x80000 A) (hK : Keeps A a₀ s) : Keeps A a₀ (storeProfile k n first segs s) := by
  unfold storeProfile
  repeat' first
      | with_reducible assumption | ((with_reducible apply sub_of hA); exact rfl) | dsimp only
      | with_reducible apply keeps_setAx | intro _

theorem keeps_beginSeg (k n fuel seg : Nat) (hA : Within 0x140060008000000000000000000000000000000000010090000 A) (hK : Keeps A a₀ s) : Keeps A a₀ (beginSeg k n fuel seg s) := by
  induction fuel generalizing s seg with
  | zero =>
    unfold beginSeg
    repeat' first
        | with_reducible assumption | ((with_reducible apply sub_of hA); exact rfl) | dsimp only
        | with_reducible apply keeps_countN | with_reducible apply keeps_setAx
        | with_reducible refine keeps_ite (fun _ => ?_) (fun _ => ?_)
        | with_reducible refine keeps_ite_snd (fun _ => ?_) (fun _ => ?_) | split | intro _
        | with_reducible refine keeps_of_snd (by with_reducible assumption) ?_
        | with_reducible refine keeps_of_fst (by with_reducible assumption) ?_
  | succ _ ih =>
    unfold beginSeg
    repeat' first
        | with_reducible assumption | ((with_reducible apply sub_of hA); exact rfl) | dsimp only
        | with_reducible apply keeps_countN | with_reducible apply keeps_setAx | with_reducible apply ih
        | with_reducible refine keeps_ite (fun _ => ?_) (fun _ => ?_)
        | with_reducible refine keeps_ite_snd (fun _ => ?_) (fun _ => ?_) | split | intro _
        | with_reducible refine keeps_of_snd (by with_reducible assumption) ?_
        | with_reducible refine keeps_of_fst (by with_reducible assumption) ?_

theorem keeps_profTick (k : Nat) (hA : Within 0x140060008000000800000000000000000000000000030090000 A) (hK : Keeps A a₀ s) : Keeps A a₀ (profTick k s) := by
  unfold profTick
  repeat' first
      | with_reducible assumption | ((with_reducible apply sub_of hA); exact rfl) | dsimp only
      | with_reducible apply keeps_beginSeg | with_reducible apply keeps_moveTo
      | with_reducible apply keeps_setAx | with_reducible refine keeps_ite (fun _ => ?_) (fun _ => ?_)
      | with_reducible refine keeps_ite_snd (fun _ => ?_) (fun _ => ?_) | split | intro _
      | with_reducible refine keeps_of_snd (by with_reducible assumption) ?_
      | with_reducible refine keeps_of_fst (by with_reducible assumption) ?_

theorem keeps_enterEnabling (k : Nat) (hA : Within 0x4800000000000000000000000000000080000 A) (hK : Keeps A a₀ s) : Keeps A a₀ (enterEnabling k s) := by
  unfold enterEnabling
  repeat' first
      | with_reducible assumption | ((with_reducible apply sub_of hA); exact rfl) | dsimp only
      | with_reducible apply keeps_axGo | with_reducible apply keeps_setAx | with_reducible apply keeps_wr
      | exact cov_AX_POS_CMD _ _ rfl (sub_of hA rfl) | exact cov_AX_STATUS _ _ rfl (sub_of hA rfl)
      | with_reducible refine keeps_ite (fun _ => ?_) (fun _ => ?_) | split | intro _

theorem keeps_orderedStop (k : Nat) (hA : Within 0x140060008000004000000000000000000000000000010090000 A) (hK : Keeps A a₀ s) : Keeps A a₀ (orderedStop k s) := by
  unfold orderedStop
  repeat' first
      | with_reducible assumption | ((with_reducible apply sub_of hA); exact rfl) | dsimp only
      | with_reducible apply keeps_enterBraking | with_reducible apply keeps_rundown
      | with_reducible refine keeps_ite (fun _ => ?_) (fun _ => ?_) | split | intro _

theorem keeps_spSeen (k : Nat) (p : Setpoint) (hA : Within 0x4000000000000000000000000000000080000 A) (hK : Keeps A a₀ s) : Keeps A a₀ (spSeen k p s) := by
  unfold spSeen
  repeat' first
      | with_reducible assumption | ((with_reducible apply sub_of hA); exact rfl) | dsimp only
      | with_reducible apply keeps_setAx | with_reducible apply keeps_wr | exact cov_AX_STATUS _ _ rfl (sub_of hA rfl)
      | intro _

theorem keeps_spAct (k : Nat) (p : Setpoint) (hA : Within 0x140060008000004800000000000000000000000000010090000 A) (hK : Keeps A a₀ s) : Keeps A a₀ (spAct k p s) := by
  unfold spAct
  repeat' first
      | with_reducible assumption | ((with_reducible apply sub_of hA); exact rfl) | dsimp only
      | with_reducible apply keeps_axGo | with_reducible apply keeps_beginSeg
      | with_reducible apply keeps_enterEnabling | with_reducible apply keeps_orderedStop
      | with_reducible apply keeps_setAx | with_reducible apply keeps_spSeen
      | with_reducible refine keeps_ite (fun _ => ?_) (fun _ => ?_) | split | intro _

theorem keeps_spMissing (k : Nat) (hA : Within 0x140060008000004000000000000000000000000000010010000 A) (hK : Keeps A a₀ s) : Keeps A a₀ (spMissing k s) := by
  unfold spMissing
  repeat' first
      | with_reducible assumption | ((with_reducible apply sub_of hA); exact rfl) | dsimp only
      | with_reducible apply keeps_count | with_reducible apply keeps_wr | exact cov_AX_STATUS _ _ rfl (sub_of hA rfl)
      | with_reducible refine keeps_ite (fun _ => ?_) (fun _ => ?_) | split | intro _

theorem keeps_spPresent (k : Nat) (act : Bool) (sp : Option Setpoint) (hA : Within 0x140060008000004800000000000000000000000000010090000 A)
    (hK : Keeps A a₀ s) : Keeps A a₀ (spPresent k act sp s) := by
  unfold spPresent
  repeat' first
      | with_reducible assumption | ((with_reducible apply sub_of hA); exact rfl) | dsimp only
      | with_reducible apply keeps_count | with_reducible apply keeps_spAct
      | with_reducible apply keeps_spMissing | with_reducible apply keeps_spSeen
      | with_reducible refine keeps_ite (fun _ => ?_) (fun _ => ?_) | split | intro _
      | with_reducible refine keeps_of_snd (by with_reducible assumption) ?_
      | with_reducible refine keeps_of_fst (by with_reducible assumption) ?_

theorem keeps_axAdvance (k : Nat) (hA : Within 0x140060008000000800000000000000000000000000030090000 A) (hK : Keeps A a₀ s) : Keeps A a₀ (axAdvance k s) := by
  unfold axAdvance
  repeat' first
      | with_reducible assumption | ((with_reducible apply sub_of hA); exact rfl) | dsimp only
      | with_reducible apply keeps_moveTo | with_reducible apply keeps_profTick
      | with_reducible apply keeps_setAx | with_reducible refine keeps_ite (fun _ => ?_) (fun _ => ?_) | split
      | intro _

theorem keeps_axCapture (k : Nat) (hA : Within 0x140060008000000000000000000400000000000000010098000 A) (hK : Keeps A a₀ s) : Keeps A a₀ (axCapture k s) := by
  unfold axCapture
  repeat' first
      | with_reducible assumption | ((with_reducible apply sub_of hA); exact rfl) | dsimp only
      | with_reducible apply keeps_setAx | with_reducible apply keeps_submitOr
      | with_reducible refine keeps_ite (fun _ => ?_) (fun _ => ?_) | split | intro _

theorem keeps_axDuty (k : Nat) (hA : Within 0x10000000 A) (hK : Keeps A a₀ s) : Keeps A a₀ (axDuty k s).2 := by
  unfold axDuty
  repeat' first
      | with_reducible assumption | ((with_reducible apply sub_of hA); exact rfl) | dsimp only
      | with_reducible apply keeps_fresh | with_reducible refine keeps_ite (fun _ => ?_) (fun _ => ?_)
      | with_reducible refine keeps_ite_snd (fun _ => ?_) (fun _ => ?_) | split | intro _
      | with_reducible refine keeps_of_snd (by with_reducible assumption) ?_
      | with_reducible refine keeps_of_fst (by with_reducible assumption) ?_

theorem keeps_axDrive (k : Nat) (hA : Within 0x30000000 A) (hK : Keeps A a₀ s) : Keeps A a₀ (axDrive k s) := by
  unfold axDrive
  repeat' first
      | with_reducible assumption | ((with_reducible apply sub_of hA); exact rfl) | dsimp only
      | with_reducible apply keeps_axDuty | with_reducible apply keeps_emit
      | with_reducible refine keeps_ite (fun _ => ?_) (fun _ => ?_)
      | with_reducible refine keeps_ite_snd (fun _ => ?_) (fun _ => ?_) | split | intro _
      | with_reducible refine keeps_of_snd (by with_reducible assumption) ?_
      | with_reducible refine keeps_of_fst (by with_reducible assumption) ?_

theorem keeps_limitCheck (k : Nat) (hA : Within 0x140060008000004000000000000000000000000000010090000 A) (hK : Keeps A a₀ s) : Keeps A a₀ (limitCheck k s) := by
  unfold limitCheck
  repeat' first
      | with_reducible assumption | ((with_reducible apply sub_of hA); exact rfl) | dsimp only
      | with_reducible apply keeps_rundown | with_reducible refine keeps_ite (fun _ => ?_) (fun _ => ?_) | split
      | intro _

theorem keeps_axTick (due : List PresItem) (k : Nat) (enc : Int) (hA : Within 0x140060008000005800000000000400000000000000030098000 A)
    (hK : Keeps A a₀ s) : Keeps A a₀ (axTick due k enc s) := by
  unfold axTick
  repeat' first
      | with_reducible assumption | ((with_reducible apply sub_of hA); exact rfl) | dsimp only
      | with_reducible apply keeps_axAdvance | with_reducible apply keeps_axCapture
      | with_reducible apply keeps_axDrive | with_reducible apply keeps_count
      | with_reducible apply keeps_rundown | with_reducible apply keeps_spPresent
      | with_reducible apply keeps_whenB | with_reducible apply keeps_wr
      | exact cov_AX_POS_ENC _ _ rfl (sub_of hA rfl)
      | with_reducible refine keeps_ite (fun _ => ?_) (fun _ => ?_) | split | intro _

theorem keeps_motionTick (due : List PresItem) (enc : List Int) (hA : Within 0x140060008000005800000000000400000000000000030098000 A) (hK : Keeps A a₀ s) : Keeps A a₀ (motionTick due enc s) := by
  unfold motionTick
  repeat' first
      | with_reducible assumption | ((with_reducible apply sub_of hA); exact rfl) | dsimp only
      | with_reducible apply keeps_axTick | intro _

theorem keeps_execSetpointLoss (ax : Fin 2) (hA : Within 0x140060008000004000000000000000000000000000010090000 A)
    (hK : Keeps A a₀ s) : KeepsRes A a₀ (execSetpointLoss ax s) := by
  unfold execSetpointLoss
  with_reducible apply keepsRes_done
  repeat' first
      | with_reducible assumption | ((with_reducible apply sub_of hA); exact rfl) | dsimp only
      | with_reducible apply keeps_rundown | with_reducible refine keeps_ite (fun _ => ?_) (fun _ => ?_) | split
      | intro _

theorem keeps_execBrakeRelease (ax : Fin 2) (hA : Within 0x4000000000000000000000000000000080000 A) (hK : Keeps A a₀ s) : KeepsRes A a₀ (execBrakeRelease ax s) := by
  unfold execBrakeRelease
  with_reducible apply keepsRes_done
  repeat' first
      | with_reducible assumption | ((with_reducible apply sub_of hA); exact rfl) | dsimp only
      | with_reducible apply keeps_done | with_reducible apply keeps_setAx | with_reducible apply keeps_wr
      | exact cov_AX_STATUS _ _ rfl (sub_of hA rfl) | with_reducible refine keeps_ite (fun _ => ?_) (fun _ => ?_)
      | split | intro _

theorem keeps_execEnablingDone (ax : Fin 2) (hA : Within 0x4000000000000000000000000000000000000 A) (hK : Keeps A a₀ s) : KeepsRes A a₀ (execEnablingDone ax s) := by
  unfold execEnablingDone
  with_reducible apply keepsRes_done
  repeat' first
      | with_reducible assumption | ((with_reducible apply sub_of hA); exact rfl) | dsimp only
      | with_reducible apply keeps_axGo | with_reducible apply keeps_done
      | with_reducible refine keeps_ite (fun _ => ?_) (fun _ => ?_) | split | intro _

theorem keeps_execEncError (ax : Fin 2) (hA : Within 0x140060008000004000000000000000000000000000010090000 A) (hK : Keeps A a₀ s) : KeepsRes A a₀ (execEncError ax s) := by
  unfold execEncError
  with_reducible apply keepsRes_done
  repeat' first
      | with_reducible assumption | ((with_reducible apply sub_of hA); exact rfl) | dsimp only
      | with_reducible apply keeps_count | with_reducible apply keeps_done | with_reducible apply keeps_rundown
      | with_reducible refine keeps_ite (fun _ => ?_) (fun _ => ?_) | split | intro _

theorem keeps_execIndexEdge (ax : Fin 2) (delta : Int) (hA : Within 0x6000000000000000000000000000000080000 A)
    (hK : Keeps A a₀ s) : KeepsRes A a₀ (execIndexEdge ax delta s) := by
  unfold execIndexEdge
  with_reducible apply keepsRes_done
  repeat' first
      | with_reducible assumption | ((with_reducible apply sub_of hA); exact rfl) | dsimp only
      | with_reducible apply keeps_setAx | with_reducible apply keeps_wr
      | exact cov_AX_INDEX _ _ rfl (sub_of hA rfl) | exact cov_AX_STATUS _ _ rfl (sub_of hA rfl)
      | with_reducible refine keeps_ite (fun _ => ?_) (fun _ => ?_) | split | intro _

theorem keeps_execLimit (ax : Fin 2) (pHigh nHigh : Bool) (hA : Within 0x140060008000004000000000000000000000000000010090000 A)
    (hK : Keeps A a₀ s) : KeepsRes A a₀ (execLimit ax pHigh nHigh s) := by
  unfold execLimit
  with_reducible apply keepsRes_done
  repeat' first
      | with_reducible assumption | ((with_reducible apply sub_of hA); exact rfl) | dsimp only
      | with_reducible apply keeps_limitCheck | with_reducible apply keeps_wr
      | exact cov_AX_STATUS _ _ rfl (sub_of hA rfl) | intro _

theorem keeps_faultCheck (k : Nat) (hA : Within 0x140060008000004000000000000000000000000000010090000 A) (hK : Keeps A a₀ s) : Keeps A a₀ (faultCheck k s) := by
  unfold faultCheck
  repeat' first
      | with_reducible assumption | ((with_reducible apply sub_of hA); exact rfl) | dsimp only
      | with_reducible apply keeps_dropToHeld | with_reducible apply keeps_raise
      | with_reducible refine keeps_ite (fun _ => ?_) (fun _ => ?_) | split | intro _

theorem keeps_execDriveFault (ax : Fin 2) (high : Bool) (hA : Within 0x140060008000004000000000000000000000000000010090000 A)
    (hK : Keeps A a₀ s) : KeepsRes A a₀ (execDriveFault ax high s) := by
  unfold execDriveFault
  with_reducible apply keepsRes_done
  repeat' first
      | with_reducible assumption | ((with_reducible apply sub_of hA); exact rfl) | dsimp only
      | with_reducible apply keeps_faultCheck | with_reducible apply keeps_wr
      | exact cov_AX_STATUS _ _ rfl (sub_of hA rfl) | intro _

theorem keeps_axCfgWrite (k : Nat) (new : Word) (hA : Within 0x140060008000004002000000000000000000000000010090000 A)
    (hK : Keeps A a₀ s) : Keeps A a₀ (axCfgWrite k new s) := by
  unfold axCfgWrite
  repeat' first
      | with_reducible assumption | ((with_reducible apply sub_of hA); exact rfl) | dsimp only
      | with_reducible apply keeps_faultCheck | with_reducible apply keeps_limitCheck
      | with_reducible apply keeps_setReg | with_reducible apply keeps_whenB | with_reducible apply keeps_wr
      | exact cov_AX_CFG _ _ rfl (sub_of hA rfl) | exact cov_AX_STATUS _ _ rfl (sub_of hA rfl) | intro _

theorem keeps_execHold (low : Bool) (us : Nat) (hA : Within 0x14006000800000c000000000000000000000000000010090000 A)
    (hK : Keeps A a₀ s) : KeepsRes A a₀ (execHold low us s) := by
  unfold execHold
  with_reducible apply keepsRes_done
  repeat' first
      | with_reducible assumption | ((with_reducible apply sub_of hA); exact rfl) | dsimp only
      | with_reducible apply keeps_eachOf | with_reducible apply keeps_rundown | with_reducible apply keeps_wr
      | exact cov_MOT_HOLD _ rfl (sub_of hA rfl) | exact cov_AX_STATUS _ _ rfl (sub_of hA rfl)
      | with_reducible refine keeps_ite (fun _ => ?_) (fun _ => ?_) | split | intro _

theorem keeps_execFollowingError (ax : Fin 2) (hA : Within 0x140060008000004000000000000000000000000000010090000 A)
    (hK : Keeps A a₀ s) : KeepsRes A a₀ (execFollowingError ax s) := by
  unfold execFollowingError
  with_reducible apply keepsRes_done
  repeat' first
      | with_reducible assumption | ((with_reducible apply sub_of hA); exact rfl) | dsimp only
      | with_reducible apply keeps_rundown | with_reducible refine keeps_ite (fun _ => ?_) (fun _ => ?_) | split
      | intro _

theorem keeps_execSoftLimit (ax : Fin 2) (hA : Within 0x140060008000004000000000000000000000000000010090000 A)
    (hK : Keeps A a₀ s) : KeepsRes A a₀ (execSoftLimit ax s) := by
  unfold execSoftLimit
  with_reducible apply keepsRes_done
  repeat' first
      | with_reducible assumption | ((with_reducible apply sub_of hA); exact rfl) | dsimp only
      | with_reducible apply keeps_rundown | with_reducible refine keeps_ite (fun _ => ?_) (fun _ => ?_) | split
      | intro _

theorem keeps_execProfileEnd (ax : Fin 2) (hA : Within 0x140060008000004000000000000000000000000000010090000 A) (hK : Keeps A a₀ s) : KeepsRes A a₀ (execProfileEnd ax s) := by
  unfold execProfileEnd
  with_reducible apply keepsRes_done
  repeat' first
      | with_reducible assumption | ((with_reducible apply sub_of hA); exact rfl) | dsimp only
      | with_reducible apply keeps_axGo | with_reducible apply keeps_done | with_reducible apply keeps_rundown
      | with_reducible apply keeps_setAx | with_reducible refine keeps_ite (fun _ => ?_) (fun _ => ?_) | split
      | intro _

theorem keeps_execRundownEnd (ax : Fin 2) (hA : Within 0x4000000000000000000000000000000080000 A) (hK : Keeps A a₀ s) : KeepsRes A a₀ (execRundownEnd ax s) := by
  unfold execRundownEnd
  with_reducible apply keepsRes_done
  repeat' first
      | with_reducible assumption | ((with_reducible apply sub_of hA); exact rfl) | dsimp only
      | with_reducible apply keeps_done | with_reducible apply keeps_enterBraking
      | with_reducible refine keeps_ite (fun _ => ?_) (fun _ => ?_) | split | intro _

theorem keeps_execBrakeSetExpiry (ax : Fin 2) (hA : Within 0x140060008000004000000000000000000000000000010090000 A) (hK : Keeps A a₀ s) : KeepsRes A a₀ (execBrakeSetExpiry ax s) := by
  unfold execBrakeSetExpiry
  with_reducible apply keepsRes_done
  repeat' first
      | with_reducible assumption | ((with_reducible apply sub_of hA); exact rfl) | dsimp only
      | with_reducible apply keeps_axGo | with_reducible apply keeps_count | with_reducible apply keeps_done
      | with_reducible apply keeps_raise | with_reducible apply keeps_setAx
      | with_reducible refine keeps_ite (fun _ => ?_) (fun _ => ?_) | split | intro _

theorem keeps_execMotCut (ax : Fin 2) (hA : Within 0x140060008000004000000000000000000000000000010090000 A) (hK : Keeps A a₀ s) : KeepsRes A a₀ (execMotCut ax s) := by
  unfold execMotCut
  with_reducible apply keepsRes_done
  repeat' first
      | with_reducible assumption | ((with_reducible apply sub_of hA); exact rfl) | dsimp only
      | with_reducible apply keeps_count | with_reducible apply keeps_done | with_reducible apply keeps_dropToHeld
      | with_reducible apply keeps_raise | with_reducible refine keeps_ite (fun _ => ?_) (fun _ => ?_) | split
      | intro _

theorem keeps_posCommit (k : Nat) (enc : Bool) (v : Word) (hA : Within 0x140060008000001800000000000000000000000000010090000 A) (hK : Keeps A a₀ s) : Keeps A a₀ (posCommit k enc v s) := by
  unfold posCommit
  repeat' first
      | with_reducible assumption | ((with_reducible apply sub_of hA); exact rfl) | dsimp only
      | with_reducible apply keeps_count | with_reducible apply keeps_setAx | with_reducible apply keeps_setReg
      | exact cov_AX_POS_ENC _ _ rfl (sub_of hA rfl) | exact cov_AX_POS_CMD _ _ rfl (sub_of hA rfl)
      | with_reducible refine keeps_ite (fun _ => ?_) (fun _ => ?_) | split | intro _

theorem keeps_motDrop  (hA : Within 0x80000 A) (hK : Keeps A a₀ s) : Keeps A a₀ (motDrop s) := by
  unfold motDrop
  repeat' first
      | with_reducible assumption | ((with_reducible apply sub_of hA); exact rfl) | dsimp only | intro _
      | with_reducible apply keeps_part_mot

end Sys2Proof.Laws
end

