-- ==== Sys2Proof/Laws/KeepsRings.lean ====
section
/-! SUPPORT. `Keeps` for the operations of Machine/Rings.lean. -/

set_option linter.unusedTactic false
set_option linter.unreachableTactic false

namespace Sys2Proof.Laws

open Sys2Proof Sys2Proof.Machine Sys2Proof.Safety

variable {A : Nat} {a₀ s : State}

theorem keeps_setProd (r : Nat) (v : Nat) (hA : Within 0x10000 A) (hK : Keeps A a₀ s) : Keeps A a₀ (setProd r v s) := by
  unfold setProd
  repeat' first
      | with_reducible assumption | ((with_reducible apply sub_of hA); exact rfl) | exact fun h => h | dsimp only
      | with_reducible apply keeps_setHost | intro _

theorem keeps_setCons (r : Nat) (v : Nat) (hA : Within 0x10000 A) (hK : Keeps A a₀ s) : Keeps A a₀ (setCons r v s) := by
  unfold setCons
  repeat' first
      | with_reducible assumption | ((with_reducible apply sub_of hA); exact rfl) | exact fun h => h | dsimp only
      | with_reducible apply keeps_setHost | intro _

theorem keeps_dmaWrite (addr : Nat) (bytes : List Byte) (hA : Within 0x20000000 A)
    (hK : Keeps A a₀ s) : Keeps A a₀ (dmaWrite addr bytes s) := by
  unfold dmaWrite
  repeat' first
      | with_reducible assumption | ((with_reducible apply sub_of hA); exact rfl) | dsimp only
      | with_reducible apply keeps_emit | intro _

theorem keeps_dmaRead (addr len : Nat) (hA : Within 0x20000000 A) (hK : Keeps A a₀ s) : Keeps A a₀ (dmaRead addr len s) := by
  unfold dmaRead
  repeat' first
      | with_reducible assumption | ((with_reducible apply sub_of hA); exact rfl) | dsimp only
      | with_reducible apply keeps_emit | intro _

theorem keeps_setStopped (r : Nat) (v : Bool) (hA : Within 0x400000000000000000000000000 A) (hK : Keeps A a₀ s) : Keeps A a₀ (setStopped r v s) := by
  unfold setStopped
  repeat' first
      | with_reducible assumption | ((with_reducible apply sub_of hA); exact rfl) | dsimp only
      | with_reducible apply keeps_wr | exact cov_HRE_STOPPED _ rfl (sub_of hA rfl)
      | with_reducible refine keeps_ite (fun _ => ?_) (fun _ => ?_) | split | intro _

theorem keeps_stopRing (r : Nat) (cause : Nat) (hA : Within 0x140060008000000000000000600000000000000000010010000 A) (hK : Keeps A a₀ s) : Keeps A a₀ (stopRing r cause s) := by
  unfold stopRing
  repeat' first
      | with_reducible assumption | ((with_reducible apply sub_of hA); exact rfl) | dsimp only
      | with_reducible apply keeps_count | with_reducible apply keeps_raiseWith
      | with_reducible apply keeps_setStopped | with_reducible apply keeps_wr
      | exact cov_HRE_STATUS _ rfl (sub_of hA rfl) | with_reducible refine keeps_ite (fun _ => ?_) (fun _ => ?_)
      | split | intro _

theorem keeps_refreshHost  (hA : Within 0x140060008000000000000000100000000000000000010010000 A) (hK : Keeps A a₀ s) : Keeps A a₀ (refreshHost s) := by
  unfold refreshHost
  repeat' first
      | with_reducible assumption | ((with_reducible apply sub_of hA); exact rfl) | dsimp only
      | with_reducible apply keeps_raise | with_reducible apply keeps_wr | exact cov_HRE_CTRL _ rfl (sub_of hA rfl)
      | with_reducible refine keeps_ite (fun _ => ?_) (fun _ => ?_) | split | intro _

theorem keeps_clearRings (hA : Within 0x400400000000000000000010000 A) (hK : Keeps A a₀ s) : Keeps A a₀ (clearRings s) := by
  unfold clearRings
  repeat' first
      | with_reducible assumption | ((with_reducible apply sub_of hA); exact rfl) | exact fun h => h
      | dsimp only | with_reducible apply keeps_giveFree | with_reducible apply keeps_setHost
      | with_reducible apply keeps_setReg | exact cov_HRE_STOPPED _ rfl (sub_of hA rfl) | intro _
      | (with_reducible show List.length _ ≤ _; exact lengthNil _)
      | (rw [List.length_append, List.length_singleton]; omega)
      | (with_reducible show List.length _ ≤ _; exact Nat.le_trans (List.length_filter_le _ _) (by assumption))
      | (with_reducible show List.length _ ≤ _; exact lengthMap _ (by assumption))
      | (with_reducible show List.length _ ≤ _; exact lengthTail (by assumption) (by assumption))

theorem keeps_selftestWarn  (hA : Within 0x140060008000000000000000000000000000000000010010080 A) (hK : Keeps A a₀ s) : Keeps A a₀ (selftestWarn s) := by
  unfold selftestWarn
  repeat' first
      | with_reducible assumption | ((with_reducible apply sub_of hA); exact rfl) | dsimp only
      | with_reducible apply keeps_raise | with_reducible refine keeps_ite (fun _ => ?_) (fun _ => ?_) | split
      | intro _ | with_reducible apply keeps_part_boot

theorem keeps_hreCtrlWrite (p : Path) (v : Word) (hA : Within 0x140060008000000000000000700400000000000000010010080 A)
    (hK : Keeps A a₀ s) : Keeps A a₀ (hreCtrlWrite p v s) := by
  unfold hreCtrlWrite
  repeat' first
      | with_reducible assumption | ((with_reducible apply sub_of hA); exact rfl) | exact fun h => h
      | dsimp only | with_reducible apply keeps_clearRings | with_reducible apply keeps_count
      | with_reducible apply keeps_refreshHost | with_reducible apply keeps_selftestWarn
      | with_reducible apply keeps_setHost | with_reducible apply keeps_wr
      | exact cov_HRE_STATUS _ rfl (sub_of hA rfl) | exact cov_HRE_CTRL _ rfl (sub_of hA rfl)
      | with_reducible refine keeps_ite (fun _ => ?_) (fun _ => ?_) | split | intro _
      | (with_reducible show List.length _ ≤ _; exact lengthNil _)
      | (rw [List.length_append, List.length_singleton]; omega)
      | (with_reducible show List.length _ ≤ _; exact Nat.le_trans (List.length_filter_le _ _) (by assumption))
      | (with_reducible show List.length _ ≤ _; exact lengthMap _ (by assumption))
      | (with_reducible show List.length _ ≤ _; exact lengthTail (by assumption) (by assumption))

theorem keeps_wantVec (v : Nat) (hA : Within 0x10000 A) (hK : Keeps A a₀ s) : Keeps A a₀ (wantVec v s) := by
  unfold wantVec
  repeat' first
      | with_reducible assumption | ((with_reducible apply sub_of hA); exact rfl) | exact fun h => h | dsimp only
      | with_reducible apply keeps_setHost | with_reducible refine keeps_ite (fun _ => ?_) (fun _ => ?_) | split
      | intro _ | (rw [List.length_append, List.length_singleton]; omega)

theorem keeps_wantRing (r : Nat) (hA : Within 0x10000 A) (hK : Keeps A a₀ s) : Keeps A a₀ (wantRing r s) := by
  unfold wantRing
  repeat' first
      | with_reducible assumption | ((with_reducible apply sub_of hA); exact rfl) | dsimp only
      | with_reducible apply keeps_wantVec | with_reducible refine keeps_ite (fun _ => ?_) (fun _ => ?_) | split
      | intro _

theorem keeps_sendMsix (v : Nat) (hA : Within 0x20000000 A) (hK : Keeps A a₀ s) : Keeps A a₀ (sendMsix v s) := by
  unfold sendMsix
  repeat' first
      | with_reducible assumption | ((with_reducible apply sub_of hA); exact rfl) | dsimp only
      | with_reducible apply keeps_emit | intro _

theorem keeps_msixSignal (v : Nat) (hA : Within 0x20010000 A) (hK : Keeps A a₀ s) : Keeps A a₀ (msixSignal v s) := by
  unfold msixSignal
  repeat' first
      | with_reducible assumption | ((with_reducible apply sub_of hA); exact rfl) | exact fun h => h
      | dsimp only | with_reducible apply keeps_sendMsix | with_reducible apply keeps_setHost
      | with_reducible refine keeps_ite (fun _ => ?_) (fun _ => ?_) | split | intro _
      | (with_reducible show List.length _ ≤ _; exact lengthNil _)
      | (rw [List.length_append, List.length_singleton]; omega)
      | (with_reducible show List.length _ ≤ _; exact Nat.le_trans (List.length_filter_le _ _) (by assumption))
      | (with_reducible show List.length _ ≤ _; exact lengthMap _ (by assumption))
      | (with_reducible show List.length _ ≤ _; exact lengthTail (by assumption) (by assumption))

theorem keeps_adoptPci (pci : PciHost) (hA : Within 0x20010000 A) (hK : Keeps A a₀ s) : Keeps A a₀ (adoptPci pci s) := by
  unfold adoptPci
  repeat' first
      | with_reducible assumption | ((with_reducible apply sub_of hA); exact rfl) | exact fun h => h
      | dsimp only | with_reducible apply keeps_eachOf | with_reducible apply keeps_sendMsix
      | with_reducible apply keeps_setHost | with_reducible refine keeps_ite (fun _ => ?_) (fun _ => ?_) | split
      | intro _ | (with_reducible show List.length _ ≤ _; exact lengthNil _)
      | (rw [List.length_append, List.length_singleton]; omega)
      | (with_reducible show List.length _ ≤ _; exact Nat.le_trans (List.length_filter_le _ _) (by assumption))
      | (with_reducible show List.length _ ≤ _; exact lengthMap _ (by assumption))
      | (with_reducible show List.length _ ≤ _; exact lengthTail (by assumption) (by assumption))

theorem keeps_signalOne (v : Nat) (hA : Within 0x2000000000000000000020010000 A) (hK : Keeps A a₀ s) : Keeps A a₀ (signalOne s v) := by
  unfold signalOne
  repeat' first
      | with_reducible assumption | ((with_reducible apply sub_of hA); exact rfl) | exact fun h => h
      | dsimp only | with_reducible apply keeps_emit | with_reducible apply keeps_msixSignal
      | with_reducible apply keeps_setHost | with_reducible apply keeps_wr
      | exact cov_INT_CFG _ rfl (sub_of hA rfl) | with_reducible refine keeps_ite (fun _ => ?_) (fun _ => ?_)
      | split | intro _ | (with_reducible show List.length _ ≤ _; exact lengthNil _)
      | (rw [List.length_append, List.length_singleton]; omega)
      | (with_reducible show List.length _ ≤ _; exact Nat.le_trans (List.length_filter_le _ _) (by assumption))
      | (with_reducible show List.length _ ≤ _; exact lengthMap _ (by assumption))
      | (with_reducible show List.length _ ≤ _; exact lengthTail (by assumption) (by assumption))

theorem keeps_signalVecs (hA : Within 0x2000000000000000000020010000 A) (hK : Keeps A a₀ s) : Keeps A a₀ (signalVecs s) := by
  unfold signalVecs
  repeat' first
      | with_reducible assumption | ((with_reducible apply sub_of hA); exact rfl) | exact fun h => h
      | dsimp only | with_reducible apply keeps_eachOf | with_reducible apply keeps_setHost
      | with_reducible apply keeps_signalOne | intro _
      | (with_reducible show List.length _ ≤ _; exact lengthNil _)
      | (rw [List.length_append, List.length_singleton]; omega)
      | (with_reducible show List.length _ ≤ _; exact Nat.le_trans (List.length_filter_le _ _) (by assumption))
      | (with_reducible show List.length _ ≤ _; exact lengthMap _ (by assumption))
      | (with_reducible show List.length _ ≤ _; exact lengthTail (by assumption) (by assumption))

theorem keeps_writeEvent (e : Event) (hA : Within 0x20010000 A) (hK : Keeps A a₀ s) : Keeps A a₀ (writeEvent e s) := by
  unfold writeEvent
  repeat' first
      | with_reducible assumption | ((with_reducible apply sub_of hA); exact rfl) | dsimp only
      | with_reducible apply keeps_dmaWrite | with_reducible apply keeps_setProd
      | with_reducible apply keeps_wantRing | intro _

theorem keeps_writeEvents (fuel : Nat) (hA : Within 0x30010000 A) (h : Keeps A a₀ s) : Keeps A a₀ (writeEvents fuel s) := by
  induction fuel generalizing s with
  | zero => exact h
  | succ n ih =>
    unfold writeEvents
    split
    · exact h
    · split
      · exact ih (keeps_writeEvent _ (sub_of hA rfl) (keeps_setHost _ (sub_of hA rfl) (fun h => h) (fun h => h) (keeps_fresh 13 (sub_of hA rfl) h)))
      · split
        · exact h
        · next e r he =>
          refine ih (keeps_writeEvent _ (sub_of hA rfl) (keeps_setHost _ (sub_of hA rfl) (fun hl => ?_) (fun h => h) h))
          simp only [he, List.length_cons] at hl
          show r.length ≤ 64 + 65536
          omega

theorem keeps_writeAllEvents (hA : Within 0x30010000 A) (hK : Keeps A a₀ s) : Keeps A a₀ (writeAllEvents s) := by
  unfold writeAllEvents
  repeat' first
      | with_reducible assumption | ((with_reducible apply sub_of hA); exact rfl) | dsimp only
      | with_reducible apply keeps_writeEvents | intro _

theorem keeps_writeStatus (hA : Within 0x20010000 A) (hK : Keeps A a₀ s) : Keeps A a₀ (writeStatus s) := by
  unfold writeStatus
  repeat' first
      | with_reducible assumption | ((with_reducible apply sub_of hA); exact rfl) | exact fun h => h
      | dsimp only | with_reducible apply keeps_dmaWrite | with_reducible apply keeps_setHost | intro _
      | (with_reducible show List.length _ ≤ _; exact lengthNil _)
      | (rw [List.length_append, List.length_singleton]; omega)
      | (with_reducible show List.length _ ≤ _; exact Nat.le_trans (List.length_filter_le _ _) (by assumption))
      | (with_reducible show List.length _ ≤ _; exact lengthMap _ (by assumption))
      | (with_reducible show List.length _ ≤ _; exact lengthTail (by assumption) (by assumption))

theorem keeps_haltEngine (ring : Nat) (cause : Nat) (hA : Within 0x140060008000000000000000700400000000000000010010000 A) (hK : Keeps A a₀ s) : Keeps A a₀ (haltEngine ring cause s) := by
  unfold haltEngine
  repeat' first
      | with_reducible assumption | ((with_reducible apply sub_of hA); exact rfl) | dsimp only
      | with_reducible apply keeps_clearRings | with_reducible apply keeps_raise
      | with_reducible apply keeps_refreshHost | with_reducible apply keeps_wr
      | exact cov_HRE_CTRL _ rfl (sub_of hA rfl) | exact cov_HRE_STATUS _ rfl (sub_of hA rfl) | intro _

theorem keeps_execPollPoint (k : Fin 8) (pci : PciHost) (stFault : Bool) (hA : Within 0x140060008000000000000002700400000000000000030010000 A)
    (hK : Keeps A a₀ s) : KeepsRes A a₀ (execPollPoint k pci stFault s) := by
  unfold execPollPoint
  with_reducible apply keepsRes_done
  repeat' first
      | with_reducible assumption | ((with_reducible apply sub_of hA); exact rfl) | exact fun h => h
      | dsimp only | with_reducible apply keeps_adoptPci | with_reducible apply keeps_count
      | with_reducible apply keeps_dmaRead | with_reducible apply keeps_haltEngine
      | with_reducible apply keeps_setHost | with_reducible apply keeps_signalVecs
      | with_reducible apply keeps_writeAllEvents | with_reducible apply keeps_writeStatus
      | with_reducible refine keeps_ite (fun _ => ?_) (fun _ => ?_) | split | intro _
      | (with_reducible show List.length _ ≤ _; exact lengthNil _)
      | (rw [List.length_append, List.length_singleton]; omega)
      | (with_reducible show List.length _ ≤ _; exact Nat.le_trans (List.length_filter_le _ _) (by assumption))
      | (with_reducible show List.length _ ≤ _; exact lengthMap _ (by assumption))
      | (with_reducible show List.length _ ≤ _; exact lengthTail (by assumption) (by assumption))

theorem keeps_fetchReads (r fuel i n : Nat) (hA : Within 0x20000000 A) (hK : Keeps A a₀ s) :
    Keeps A a₀ (fetchReads r fuel i n s) := by
  induction fuel generalizing i n s with
  | zero => exact hK
  | succ k ih =>
    unfold fetchReads
    split
    · exact hK
    · exact ih _ _ (keeps_dmaRead _ _ (sub_of hA rfl) hK)

theorem keeps_fetchFrom (r i : Nat) (hA : Within 0x20000000 A) (hK : Keeps A a₀ s) : Keeps A a₀ (fetchFrom r i s) := by
  unfold fetchFrom
  repeat' first
      | with_reducible assumption | ((with_reducible apply sub_of hA); exact rfl) | dsimp only
      | with_reducible apply keeps_fetchReads | with_reducible refine keeps_ite (fun _ => ?_) (fun _ => ?_)
      | split | intro _

theorem keeps_adoptProd (r v : Nat) (hA : Within 0x140060008000000000000000600000000000000000030010000 A) (hK : Keeps A a₀ s) : Keeps A a₀ (adoptProd r v s) := by
  unfold adoptProd
  repeat' first
      | with_reducible assumption | ((with_reducible apply sub_of hA); exact rfl) | dsimp only
      | with_reducible apply keeps_fetchFrom | with_reducible apply keeps_setProd
      | with_reducible apply keeps_stopRing | with_reducible refine keeps_ite (fun _ => ?_) (fun _ => ?_)
      | split | intro _

theorem keeps_markTx (q was : Nat) (hA : Within 0x10000 A) (hK : Keeps A a₀ s) : Keeps A a₀ (markTx q was s) := by
  unfold markTx
  repeat' first
      | with_reducible assumption | ((with_reducible apply sub_of hA); exact rfl) | exact fun h => h
      | dsimp only | with_reducible apply keeps_setHost
      | with_reducible refine keeps_ite (fun _ => ?_) (fun _ => ?_) | split | intro _
      | (with_reducible show List.length _ ≤ _; exact lengthNil _)
      | (rw [List.length_append, List.length_singleton]; omega)
      | (with_reducible show List.length _ ≤ _; exact Nat.le_trans (List.length_filter_le _ _) (by assumption))
      | (with_reducible show List.length _ ≤ _; exact lengthMap _ (by assumption))
      | (with_reducible show List.length _ ≤ _; exact lengthTail (by assumption) (by assumption))

theorem keeps_adoptCons (r : Nat) (v : Nat) (hA : Within 0x140060008000000000000000600000000000000000010010000 A) (hK : Keeps A a₀ s) : Keeps A a₀ (adoptCons r v s) := by
  unfold adoptCons
  repeat' first
      | with_reducible assumption | ((with_reducible apply sub_of hA); exact rfl) | dsimp only
      | with_reducible apply keeps_setCons | with_reducible apply keeps_stopRing
      | with_reducible refine keeps_ite (fun _ => ?_) (fun _ => ?_) | split | intro _

theorem keeps_execDoorbellReadDone (d : DmaBytes) (hA : Within 0x140060008000000000000000700400000000000000030010000 A)
    (hK : Keeps A a₀ s) : KeepsRes A a₀ (execDoorbellReadDone d s) := by
  unfold execDoorbellReadDone
  with_reducible apply keepsRes_done
  repeat' first
      | with_reducible assumption | ((with_reducible apply sub_of hA); exact rfl) | exact fun h => h
      | dsimp only | with_reducible apply keeps_adoptCons | with_reducible apply keeps_adoptProd
      | with_reducible apply keeps_eachOf | with_reducible apply keeps_haltEngine
      | with_reducible apply keeps_markTx | with_reducible apply keeps_refreshHost
      | with_reducible apply keeps_setHost | with_reducible refine keeps_ite (fun _ => ?_) (fun _ => ?_) | split
      | intro _ | with_reducible refine keeps_of_snd (by with_reducible assumption) ?_
      | with_reducible refine keeps_of_fst (by with_reducible assumption) ?_
      | (with_reducible show List.length _ ≤ _; exact lengthNil _)
      | (rw [List.length_append, List.length_singleton]; omega)
      | (with_reducible show List.length _ ≤ _; exact Nat.le_trans (List.length_filter_le _ _) (by assumption))
      | (with_reducible show List.length _ ≤ _; exact lengthMap _ (by assumption))
      | (with_reducible show List.length _ ≤ _; exact lengthTail (by assumption) (by assumption))

theorem keeps_linkTick (l : Option PciLink) (hA : Within 0x40000000000000000000000000 A) (hK : Keeps A a₀ s) : Keeps A a₀ (linkTick l s) := by
  unfold linkTick
  repeat' first
      | with_reducible assumption | ((with_reducible apply sub_of hA); exact rfl) | dsimp only
      | with_reducible apply keeps_wr | exact cov_PCIE_CTRL _ rfl (sub_of hA rfl)
      | with_reducible refine keeps_ite (fun _ => ?_) (fun _ => ?_) | split | intro _
      | with_reducible refine keeps_of_snd (by with_reducible assumption) ?_
      | with_reducible refine keeps_of_fst (by with_reducible assumption) ?_

theorem keeps_drained (hA : Within 0x100000000000000000000000000 A) (hK : Keeps A a₀ s) : Keeps A a₀ (drained s) := by
  unfold drained
  repeat' first
      | with_reducible assumption | ((with_reducible apply sub_of hA); exact rfl) | dsimp only
      | with_reducible apply keeps_wr | exact cov_HRE_CTRL _ rfl (sub_of hA rfl)
      | with_reducible refine keeps_ite (fun _ => ?_) (fun _ => ?_) | split | intro _

theorem keeps_hostTick (l : Option PciLink) (hA : Within 0x140000000000000000000010000 A) (hK : Keeps A a₀ s) : Keeps A a₀ (hostTick l s) := by
  unfold hostTick
  repeat' first
      | with_reducible assumption | ((with_reducible apply sub_of hA); exact rfl) | exact fun h => h
      | dsimp only | with_reducible apply keeps_drained | with_reducible apply keeps_linkTick
      | with_reducible apply keeps_setHost | with_reducible refine keeps_ite (fun _ => ?_) (fun _ => ?_) | split
      | intro _ | (with_reducible show List.length _ ≤ _; exact lengthNil _)
      | (rw [List.length_append, List.length_singleton]; omega)
      | (with_reducible show List.length _ ≤ _; exact Nat.le_trans (List.length_filter_le _ _) (by assumption))
      | (with_reducible show List.length _ ≤ _; exact lengthMap _ (by assumption))
      | (with_reducible show List.length _ ≤ _; exact lengthTail (by assumption) (by assumption))

theorem keeps_execHostAbsent  (hA : Within 0x140060008000000000000000100000000000000000010010000 A) (hK : Keeps A a₀ s) : KeepsRes A a₀ (execHostAbsent s) := by
  unfold execHostAbsent
  with_reducible apply keepsRes_done
  repeat' first
      | with_reducible assumption | ((with_reducible apply sub_of hA); exact rfl) | exact fun h => h | dsimp only
      | with_reducible apply keeps_done | with_reducible apply keeps_refreshHost | with_reducible apply keeps_setHost
      | with_reducible refine keeps_ite (fun _ => ?_) (fun _ => ?_) | split | intro _

theorem keeps_orderlyStop (hA : Within 0x140060008000000000000000500400000000000000030010000 A) (hK : Keeps A a₀ s) : Keeps A a₀ (orderlyStop s) := by
  unfold orderlyStop
  repeat' first
      | with_reducible assumption | ((with_reducible apply sub_of hA); exact rfl) | dsimp only
      | with_reducible apply keeps_clearRings | with_reducible apply keeps_refreshHost
      | with_reducible apply keeps_wr | with_reducible apply keeps_writeAllEvents
      | with_reducible apply keeps_writeStatus | exact cov_HRE_CTRL _ rfl (sub_of hA rfl)
      | with_reducible refine keeps_ite (fun _ => ?_) (fun _ => ?_) | split | intro _

theorem keeps_execOrderlyStopDone (hA : Within 0x140060008000000000000000500400000000000000030010000 A)
    (hK : Keeps A a₀ s) : KeepsRes A a₀ (execOrderlyStopDone s) := by
  unfold execOrderlyStopDone
  with_reducible apply keepsRes_done
  repeat' first
      | with_reducible assumption | ((with_reducible apply sub_of hA); exact rfl) | dsimp only
      | with_reducible apply keeps_orderlyStop | with_reducible refine keeps_ite (fun _ => ?_) (fun _ => ?_)
      | split | intro _

theorem keeps_execRingStopped (ring : Byte) (cause : BitVec 4) (hA : Within 0x140060008000000000000000600000000000000000010010000 A) (hK : Keeps A a₀ s) : KeepsRes A a₀ (execRingStopped ring cause s) := by
  unfold execRingStopped
  with_reducible apply keepsRes_done
  repeat' first
      | with_reducible assumption | ((with_reducible apply sub_of hA); exact rfl) | dsimp only
      | with_reducible apply keeps_done | with_reducible apply keeps_stopRing
      | with_reducible refine keeps_ite (fun _ => ?_) (fun _ => ?_) | split | intro _

theorem keeps_unmark (q i : Nat) (hA : Within 0x10000 A) (hK : Keeps A a₀ s) : Keeps A a₀ (unmark q i s) := by
  unfold unmark
  repeat' first
      | with_reducible assumption | ((with_reducible apply sub_of hA); exact rfl) | exact fun h => h
      | dsimp only | with_reducible apply keeps_setHost | intro _
      | (with_reducible show List.length _ ≤ _; exact lengthNil _)
      | (rw [List.length_append, List.length_singleton]; omega)
      | (with_reducible show List.length _ ≤ _; exact Nat.le_trans (List.length_filter_le _ _) (by assumption))
      | (with_reducible show List.length _ ≤ _; exact lengthMap _ (by assumption))
      | (with_reducible show List.length _ ≤ _; exact lengthTail (by assumption) (by assumption))

theorem keeps_txComplete (q tick status : Nat) (irq : Bool) (hA : Within 0x20010000 A)
    (hK : Keeps A a₀ s) : Keeps A a₀ (txComplete q tick status irq s) := by
  unfold txComplete
  repeat' first
      | with_reducible assumption | ((with_reducible apply sub_of hA); exact rfl) | exact fun h => h
      | dsimp only | with_reducible apply keeps_dmaWrite | with_reducible apply keeps_setCons
      | with_reducible apply keeps_setHost | with_reducible apply keeps_unmark
      | with_reducible apply keeps_wantRing | with_reducible refine keeps_ite (fun _ => ?_) (fun _ => ?_)
      | split | intro _ | (with_reducible show List.length _ ≤ _; exact lengthNil _)
      | (rw [List.length_append, List.length_singleton]; omega)
      | (with_reducible show List.length _ ≤ _; exact Nat.le_trans (List.length_filter_le _ _) (by assumption))
      | (with_reducible show List.length _ ≤ _; exact lengthMap _ (by assumption))
      | (with_reducible show List.length _ ≤ _; exact lengthTail (by assumption) (by assumption))

theorem keeps_execTxDescriptor (q : Fin 16) (d : DmaBytes) (hA : Within 0x140060008000000000000000600400000000000000030010000 A)
    (hK : Keeps A a₀ s) : KeepsRes A a₀ (execTxDescriptor q d s) := by
  unfold execTxDescriptor
  with_reducible apply keepsRes_done
  repeat' first
      | with_reducible assumption | ((with_reducible apply sub_of hA); exact rfl) | exact fun h => h
      | dsimp only | with_reducible apply keeps_count | with_reducible apply keeps_dmaRead
      | with_reducible apply keeps_setHost | with_reducible apply keeps_stopRing
      | with_reducible apply keeps_takeCells | with_reducible apply keeps_txComplete
      | with_reducible refine keeps_ite (fun _ => ?_) (fun _ => ?_) | split | intro _
      | with_reducible refine keeps_of_snd (by with_reducible assumption) ?_
      | with_reducible refine keeps_of_fst (by with_reducible assumption) ?_
      | (with_reducible show List.length _ ≤ _; exact lengthNil _)
      | (rw [List.length_append, List.length_singleton]; omega)
      | (with_reducible show List.length _ ≤ _; exact Nat.le_trans (List.length_filter_le _ _) (by assumption))
      | (with_reducible show List.length _ ≤ _; exact lengthMap _ (by assumption))
      | (with_reducible show List.length _ ≤ _; exact lengthTail (by assumption) (by assumption))

theorem keeps_execTxDataReadDone (q : Fin 16) (d : DmaBytes) (hA : Within 0x140060008000000000000000600400000000000000030018000 A)
    (hK : Keeps A a₀ s) : KeepsRes A a₀ (execTxDataReadDone q d s) := by
  unfold execTxDataReadDone
  with_reducible apply keepsRes_done
  repeat' first
      | with_reducible assumption | ((with_reducible apply sub_of hA); exact rfl) | exact fun h => h
      | dsimp only | with_reducible apply keeps_giveCells | with_reducible apply keeps_giveFree
      | with_reducible apply keeps_meterPacket | with_reducible apply keeps_offer
      | with_reducible apply keeps_setHost | with_reducible apply keeps_stopRing
      | with_reducible apply keeps_txComplete | with_reducible refine keeps_ite (fun _ => ?_) (fun _ => ?_)
      | with_reducible refine keeps_ite_snd (fun _ => ?_) (fun _ => ?_) | split | intro _
      | with_reducible refine keeps_of_snd (by with_reducible assumption) ?_
      | with_reducible refine keeps_of_fst (by with_reducible assumption) ?_
      | (with_reducible show List.length _ ≤ _; exact lengthNil _)
      | (rw [List.length_append, List.length_singleton]; omega)
      | (with_reducible show List.length _ ≤ _; exact Nat.le_trans (List.length_filter_le _ _) (by assumption))
      | (with_reducible show List.length _ ≤ _; exact lengthMap _ (by assumption))
      | (with_reducible show List.length _ ≤ _; exact lengthTail (by assumption) (by assumption))

theorem keeps_deliverHost (n src cont tag : Nat) (bytes : List Byte) (hA : Within 0x140060008000000000000000000400000000000000010018000 A)
    (hK : Keeps A a₀ s) : Keeps A a₀ (deliverHost n src cont tag bytes s) := by
  unfold deliverHost
  repeat' first
      | with_reducible assumption | ((with_reducible apply sub_of hA); exact rfl) | dsimp only
      | with_reducible apply keeps_count | with_reducible apply keeps_offer
      | with_reducible apply keeps_takeCells | with_reducible refine keeps_ite (fun _ => ?_) (fun _ => ?_)
      | split | intro _

theorem keeps_rxDescriptor (cookie : List Byte) (i : Item) (phase : Nat) (hA : Within 0x10000000 A)
    (hK : Keeps A a₀ s) : Keeps A a₀ (rxDescriptor cookie i phase s).2 := by
  unfold rxDescriptor
  repeat' first
      | with_reducible assumption | ((with_reducible apply sub_of hA); exact rfl) | dsimp only
      | with_reducible apply keeps_fresh | with_reducible refine keeps_ite (fun _ => ?_) (fun _ => ?_)
      | with_reducible refine keeps_ite_snd (fun _ => ?_) (fun _ => ?_) | split | intro _
      | with_reducible refine keeps_of_snd (by with_reducible assumption) ?_
      | with_reducible refine keeps_of_fst (by with_reducible assumption) ?_

theorem keeps_pickHost (hA : Within 0x140060008000000000000000000400000000000000010018000 A) (hK : Keeps A a₀ s) : Keeps A a₀ (pickHost s).2 := by
  unfold pickHost
  repeat' first
      | with_reducible assumption | ((with_reducible apply sub_of hA); exact rfl) | dsimp only
      | with_reducible apply keeps_eachOf | with_reducible apply keeps_pickQueue
      | with_reducible apply keeps_sweepQueue | intro _

theorem keeps_execHostDelivery (n : Fin 16) (fl : Option DmaBytes) (hA : Within 0x140060008000000000000000600400000000000000030018000 A)
    (hK : Keeps A a₀ s) : KeepsRes A a₀ (execHostDelivery n fl s) := by
  unfold execHostDelivery
  with_reducible apply keepsRes_done
  repeat' first
      | with_reducible assumption | ((with_reducible apply sub_of hA); exact rfl) | dsimp only
      | with_reducible apply keeps_count | with_reducible apply keeps_dmaWrite
      | with_reducible apply keeps_pickHost | with_reducible apply keeps_popHead
      | with_reducible apply keeps_rxDescriptor | with_reducible apply keeps_setCons
      | with_reducible apply keeps_setProd | with_reducible apply keeps_stopRing
      | with_reducible apply keeps_takeHead | with_reducible apply keeps_wantRing
      | with_reducible refine keeps_ite (fun _ => ?_) (fun _ => ?_)
      | with_reducible refine keeps_ite_snd (fun _ => ?_) (fun _ => ?_) | split | intro _
      | with_reducible refine keeps_of_snd (by with_reducible assumption) ?_
      | with_reducible refine keeps_of_fst (by with_reducible assumption) ?_

theorem keeps_cmdComplete (h : CmdHdr) (status sub result : Nat) (again : Bool) (hA : Within 0x20010000 A)
    (hK : Keeps A a₀ s) : Keeps A a₀ (cmdComplete h status sub result again s) := by
  unfold cmdComplete
  repeat' first
      | with_reducible assumption | ((with_reducible apply sub_of hA); exact rfl) | dsimp only
      | with_reducible apply keeps_dmaWrite | with_reducible apply keeps_setCons
      | with_reducible apply keeps_wantRing | with_reducible refine keeps_ite (fun _ => ?_) (fun _ => ?_)
      | split | intro _

theorem keeps_cmdRecord (c : CmdHdr) (status sub result : Nat) (hA : Within 0x10000 A) (h : Keeps A a₀ s) :
    Keeps A a₀ (cmdRecord c status sub result s) :=
  keeps_setHost _ (sub_of hA rfl) (fun h => h) (fun _ => by simp) h

theorem keeps_runCmd (c : CmdHdr) (recorded : Bool) (act : State → CmdEnd × State) (post : Nat → State → State)
    (hact : ∀ s, Keeps A a₀ s → Keeps A a₀ (act s).2) (hpost : ∀ n s, Keeps A a₀ s → Keeps A a₀ (post n s))
    (hA : Within 0x140060008000000000000004000000000000000000030010000 A) (h : Keeps A a₀ s) : Keeps A a₀ (runCmd c recorded act s post) := by
  unfold runCmd
  dsimp only
  repeat' first
    | with_reducible assumption | ((with_reducible apply sub_of hA); exact rfl) | with_reducible apply keeps_count
    | with_reducible apply keeps_cmdComplete | with_reducible apply keeps_cmdRecord | with_reducible apply keeps_setHost
    | with_reducible apply keeps_wr | exact cov_CMD_SEQ _ rfl (sub_of hA rfl) | with_reducible apply hpost
    | with_reducible refine keeps_of_snd (by with_reducible assumption) (hact _ ?_) | exact fun h => h | split

theorem keeps_finishWait (h : CmdHdr) (recorded : Bool) (status : Nat) (sub : Nat) (result : Nat) (hA : Within 0x20010000 A) (hK : Keeps A a₀ s) : Keeps A a₀ (finishWait h recorded status sub result s) := by
  unfold finishWait
  repeat' first
      | with_reducible assumption | ((with_reducible apply sub_of hA); exact rfl) | exact fun h => h | dsimp only
      | with_reducible apply keeps_cmdComplete | with_reducible apply keeps_cmdRecord
      | with_reducible apply keeps_setHost | with_reducible refine keeps_ite (fun _ => ?_) (fun _ => ?_) | split
      | intro _

theorem hostRegs_reach : ∀ r ∈ hostRegs, Reach.reg 0x3ff00000000000000000003c00000000000000000000000000 r = true := by decide +kernel

theorem keeps_hostResetOp (kind : Nat) (hA : Within 0x17ff60008000000000000003d80400000000000000030010002 A) (h : Keeps A a₀ s) : Keeps A a₀ (hostResetOp kind s) := by
  unfold hostResetOp
  dsimp only
  refine keeps_refreshHost (sub_of hA rfl) (keeps_raise _ _ (sub_of hA rfl) (keeps_wr _ _ ?_ (keeps_wr _ _ ?_ (keeps_setReg _ _ ?_
    (keeps_eachOf_mem _ _ (fun s r hr hs => keeps_setReg _ _ (reach_mono (sub_of hA rfl) (hostRegs_reach r hr)) hs)
      (keeps_part_pcie _ (sub_of hA rfl) (keeps_setHost _ (sub_of hA rfl) (fun h => h) (fun h => h)
        (keeps_clearRings (sub_of hA rfl) (keeps_whenB _ _ (fun _ => keeps_emit _ (sub_of hA rfl)) h)))))))))
  · exact cov_HRE_CTRL _ rfl (sub_of hA rfl)
  · exact cov_HRE_CTRL _ rfl (sub_of hA rfl)
  · exact cov_RING_MODE _ rfl (sub_of hA rfl)

end Sys2Proof.Laws
end

