-- ==== Sys2Proof/Laws/KeepsShow.lean ====
section
/-! SUPPORT. `Keeps` for the operations of Machine/Show.lean. -/

set_option linter.unusedTactic false
set_option linter.unreachableTactic false

namespace Sys2Proof.Laws

open Sys2Proof Sys2Proof.Machine Sys2Proof.Safety

variable {A : Nat} {a₀ s : State}

theorem keeps_setDmx (u : Nat) (f : DmxSt → DmxSt) (hA : Within 0x40000 A) (hK : Keeps A a₀ s) : Keeps A a₀ (setDmx u f s) := by
  unfold setDmx
  repeat' first
      | with_reducible assumption | ((with_reducible apply sub_of hA); exact rfl) | dsimp only
      | with_reducible apply keeps_setShow | intro _

theorem keeps_setLtc (k : Nat) (f : LtcSt → LtcSt) (hA : Within 0x40000 A) (hK : Keeps A a₀ s) : Keeps A a₀ (setLtc k f s) := by
  unfold setLtc
  repeat' first
      | with_reducible assumption | ((with_reducible apply sub_of hA); exact rfl) | dsimp only
      | with_reducible apply keeps_setShow | intro _

theorem keeps_startGroup (g : Nat) (hA : Within 0x40000 A) (hK : Keeps A a₀ s) : Keeps A a₀ (startGroup g s) := by
  unfold startGroup
  repeat' first
      | with_reducible assumption | ((with_reducible apply sub_of hA); exact rfl) | dsimp only
      | with_reducible apply keeps_setShow | with_reducible refine keeps_ite (fun _ => ?_) (fun _ => ?_) | split
      | intro _

theorem keeps_idleGroup (g : Nat) (hA : Within 0x40000 A) (hK : Keeps A a₀ s) : Keeps A a₀ (idleGroup g s) := by
  unfold idleGroup
  repeat' first
      | with_reducible assumption | ((with_reducible apply sub_of hA); exact rfl) | dsimp only
      | with_reducible apply keeps_setShow | intro _

theorem keeps_capture (q : Nat) (b : List Byte) (hA : Within 0x40000 A) (hK : Keeps A a₀ s) : Keeps A a₀ (capture q b s) := by
  unfold capture
  repeat' first
      | with_reducible assumption | ((with_reducible apply sub_of hA); exact rfl) | dsimp only
      | with_reducible apply keeps_setShow | intro _

theorem keeps_queueMissing (q g missing : Nat) (idle : State → State) (hidle : ∀ s, Keeps A a₀ s → Keeps A a₀ (idle s)) (hA : Within 0x140060008000000000000000000000000000000000010054200 A)
    (hK : Keeps A a₀ s) : Keeps A a₀ (queueMissing q g missing idle s) := by
  unfold queueMissing
  repeat' first
      | with_reducible assumption | ((with_reducible apply sub_of hA); exact rfl) | dsimp only
      | with_reducible apply keeps_count | with_reducible apply keeps_idleGroup
      | with_reducible apply keeps_missing | with_reducible apply keeps_raise
      | with_reducible refine keeps_ite (fun _ => ?_) (fun _ => ?_) | split | intro _
      | with_reducible apply hidle

theorem keeps_slotsTick (k S : Nat) (fed : Nat → Option (List Word)) (covered : Nat → Bool) (n j : Nat) (hA : Within 0x40000 A) (hK : Keeps A a₀ s) : Keeps A a₀ (slotsTick k S fed covered n j s).2 := by
  induction n generalizing s j with
  | zero =>
    unfold slotsTick
    repeat' first
        | with_reducible assumption | ((with_reducible apply sub_of hA); exact rfl) | dsimp only
        | with_reducible apply keeps_setShow | split | intro _
        | with_reducible refine keeps_of_snd (by with_reducible assumption) ?_
        | with_reducible refine keeps_of_fst (by with_reducible assumption) ?_
  | succ _ ih =>
    unfold slotsTick
    repeat' first
        | with_reducible assumption | ((with_reducible apply sub_of hA); exact rfl) | dsimp only
        | with_reducible apply keeps_setShow | with_reducible apply ih | split | intro _
        | with_reducible refine keeps_of_snd (by with_reducible assumption) ?_
        | with_reducible refine keeps_of_fst (by with_reducible assumption) ?_

theorem keeps_clearSlots (k : Nat) (hA : Within 0x40000 A) (hK : Keeps A a₀ s) : Keeps A a₀ (clearSlots k s) := by
  unfold clearSlots
  repeat' first
      | with_reducible assumption | ((with_reducible apply sub_of hA); exact rfl) | dsimp only
      | with_reducible apply keeps_setShow | intro _

theorem keeps_tdmPresent (due : List PresItem) (k : Nat) (hA : Within 0x140060008000000000000000000000000000000000030054200 A)
    (hK : Keeps A a₀ s) : Keeps A a₀ (tdmPresent due k s) := by
  unfold tdmPresent
  repeat' first
      | with_reducible assumption | ((with_reducible apply sub_of hA); exact rfl) | dsimp only
      | with_reducible apply keeps_clearSlots | with_reducible apply keeps_count
      | with_reducible apply keeps_countN | with_reducible apply keeps_emit
      | with_reducible apply keeps_idleGroup | with_reducible apply keeps_queueMissing
      | with_reducible apply keeps_slotsTick | with_reducible apply keeps_startGroup
      | with_reducible refine keeps_ite (fun _ => ?_) (fun _ => ?_)
      | with_reducible refine keeps_ite_snd (fun _ => ?_) (fun _ => ?_) | split | intro _
      | with_reducible refine keeps_of_snd (by with_reducible assumption) ?_
      | with_reducible refine keeps_of_fst (by with_reducible assumption) ?_

theorem keeps_tdmCapture (k : Nat) (words : List Word) (hA : Within 0x140060008000000000000000000000000000000000010050000 A) (hK : Keeps A a₀ s) : Keeps A a₀ (tdmCapture k words s) := by
  unfold tdmCapture
  repeat' first
      | with_reducible assumption | ((with_reducible apply sub_of hA); exact rfl) | dsimp only
      | with_reducible apply keeps_capture | with_reducible apply keeps_countN
      | with_reducible refine keeps_ite (fun _ => ?_) (fun _ => ?_) | split | intro _

theorem keeps_takeBlock (q : Nat) (n : Nat) (hA : Within 0x400000000000000000008000 A) (hK : Keeps A a₀ s) : Keeps A a₀ (takeBlock q n s).2 := by
  unfold takeBlock
  repeat' first
      | with_reducible assumption | ((with_reducible apply sub_of hA); exact rfl) | dsimp only
      | with_reducible apply keeps_afterSend | with_reducible apply keeps_giveCells
      | with_reducible apply keeps_setItems | with_reducible refine keeps_ite (fun _ => ?_) (fun _ => ?_)
      | with_reducible refine keeps_ite_snd (fun _ => ?_) (fun _ => ?_) | split | intro _
      | with_reducible refine keeps_of_snd (by with_reducible assumption) ?_
      | with_reducible refine keeps_of_fst (by with_reducible assumption) ?_

theorem keeps_dropBadItems (q : Nat) (ok : List Byte → Bool) (fuel : Nat) (hA : Within 0x140060008000000000000000000400000000000000010018000 A) (hK : Keeps A a₀ s) : Keeps A a₀ (dropBadItems q ok fuel s) := by
  induction fuel generalizing s with
  | zero =>
    unfold dropBadItems
    repeat' first
        | with_reducible assumption | ((with_reducible apply sub_of hA); exact rfl) | dsimp only
        | with_reducible apply keeps_count | with_reducible apply keeps_popHead
        | with_reducible refine keeps_ite (fun _ => ?_) (fun _ => ?_) | split | intro _
        | with_reducible refine keeps_of_snd (by with_reducible assumption) ?_
        | with_reducible refine keeps_of_fst (by with_reducible assumption) ?_
  | succ _ ih =>
    unfold dropBadItems
    repeat' first
        | with_reducible assumption | ((with_reducible apply sub_of hA); exact rfl) | dsimp only
        | with_reducible apply keeps_count | with_reducible apply keeps_popHead | with_reducible apply ih
        | with_reducible refine keeps_ite (fun _ => ?_) (fun _ => ?_) | split | intro _
        | with_reducible refine keeps_of_snd (by with_reducible assumption) ?_
        | with_reducible refine keeps_of_fst (by with_reducible assumption) ?_

theorem keeps_takeShow (q haPolicy : Nat) (ok fits : List Byte → Bool) (n : Option Nat) (hA : Within 0x140060008000000000000000000400000000000000010058000 A)
    (hK : Keeps A a₀ s) : Keeps A a₀ (takeShow q haPolicy ok fits n s) := by
  unfold takeShow
  repeat' first
      | with_reducible assumption | ((with_reducible apply sub_of hA); exact rfl) | dsimp only
      | with_reducible apply keeps_count | with_reducible apply keeps_dropBadItems
      | with_reducible apply keeps_setShow | with_reducible apply keeps_sweepQueue
      | with_reducible apply keeps_takeBlock | with_reducible apply keeps_takeHead
      | with_reducible refine keeps_ite (fun _ => ?_) (fun _ => ?_)
      | with_reducible refine keeps_ite_snd (fun _ => ?_) (fun _ => ?_) | split | intro _
      | with_reducible refine keeps_of_snd (by with_reducible assumption) ?_
      | with_reducible refine keeps_of_fst (by with_reducible assumption) ?_

theorem keeps_dmxFill (u : Nat) (first : Nat) (bytes : List Byte) (hA : Within 0x40000 A) (hK : Keeps A a₀ s) : Keeps A a₀ (dmxFill u first bytes s) := by
  unfold dmxFill
  repeat' first
      | with_reducible assumption | ((with_reducible apply sub_of hA); exact rfl) | dsimp only
      | with_reducible apply keeps_setDmx | with_reducible refine keeps_ite (fun _ => ?_) (fun _ => ?_) | split
      | intro _

theorem keeps_dmxHold (u : Nat) (n : Nat) (hA : Within 0x40000 A) (hK : Keeps A a₀ s) : Keeps A a₀ (dmxHold u n s) := by
  unfold dmxHold
  repeat' first
      | with_reducible assumption | ((with_reducible apply sub_of hA); exact rfl) | dsimp only
      | with_reducible apply keeps_setDmx | intro _

theorem keeps_dmxSend (u : Nat) (hA : Within 0x20040000 A) (hK : Keeps A a₀ s) : Keeps A a₀ (dmxSend u s) := by
  unfold dmxSend
  repeat' first
      | with_reducible assumption | ((with_reducible apply sub_of hA); exact rfl) | dsimp only
      | with_reducible apply keeps_dmxHold | with_reducible apply keeps_emit | with_reducible apply keeps_setDmx
      | intro _

theorem keeps_dmxItem (u : Nat) (b : List Byte) (hA : Within 0x40000 A) (hK : Keeps A a₀ s) : Keeps A a₀ (dmxItem u b s) := by
  unfold dmxItem
  repeat' first
      | with_reducible assumption | ((with_reducible apply sub_of hA); exact rfl) | dsimp only
      | with_reducible apply keeps_dmxFill | with_reducible apply keeps_setDmx | with_reducible apply keeps_whenB
      | with_reducible refine keeps_ite (fun _ => ?_) (fun _ => ?_) | split | intro _

theorem keeps_dmxMissed (u : Nat) (hA : Within 0x140060008000000000000000000000000000000000010054200 A) (hK : Keeps A a₀ s) : Keeps A a₀ (dmxMissed u s) := by
  unfold dmxMissed
  repeat' first
      | with_reducible assumption | ((with_reducible apply sub_of hA); exact rfl) | simp only [id_eq]
      | dsimp only | with_reducible apply keeps_count | with_reducible apply keeps_queueMissing
      | with_reducible apply keeps_setDmx | with_reducible apply keeps_whenB
      | with_reducible refine keeps_ite (fun _ => ?_) (fun _ => ?_) | split | intro _ | exact fun h => h
      | (with_reducible show List.length _ ≤ _; exact lengthNil _)
      | (with_reducible show List.length _ ≤ _; exact Nat.le_trans (List.length_filter_le _ _) (by assumption))
      | (rw [List.length_append, List.length_singleton]; omega)
      | (with_reducible show List.length _ ≤ _; exact lengthTail (by assumption) (by assumption))
      | (with_reducible show List.length _ ≤ _; exact lengthMap _ (by assumption))

theorem keeps_dmxGap (u : Nat) (hA : Within 0x20040000 A) (hK : Keeps A a₀ s) : Keeps A a₀ (dmxGap u s) := by
  unfold dmxGap
  repeat' first
      | with_reducible assumption | ((with_reducible apply sub_of hA); exact rfl) | dsimp only
      | with_reducible apply keeps_dmxHold | with_reducible apply keeps_emit | with_reducible apply keeps_setDmx
      | with_reducible refine keeps_ite (fun _ => ?_) (fun _ => ?_) | split | intro _
      | with_reducible refine keeps_of_snd (by with_reducible assumption) ?_
      | with_reducible refine keeps_of_fst (by with_reducible assumption) ?_

theorem keeps_dmxClock (u : Nat) (hA : Within 0x40000 A) (hK : Keeps A a₀ s) : Keeps A a₀ (dmxClock u s) := by
  unfold dmxClock
  repeat' first
      | with_reducible assumption | ((with_reducible apply sub_of hA); exact rfl) | dsimp only
      | with_reducible apply keeps_setDmx | with_reducible apply keeps_whenB | intro _

theorem keeps_dmxPresent (due : List PresItem) (u : Nat) (hA : Within 0x140060008000000000000000000000000000000000030054200 A) (hK : Keeps A a₀ s) : Keeps A a₀ (dmxPresent due u s) := by
  unfold dmxPresent
  repeat' first
      | with_reducible assumption | ((with_reducible apply sub_of hA); exact rfl) | dsimp only
      | with_reducible apply keeps_dmxClock | with_reducible apply keeps_dmxFill | with_reducible apply keeps_dmxGap
      | with_reducible apply keeps_dmxItem | with_reducible apply keeps_dmxMissed | with_reducible apply keeps_eachOf
      | with_reducible apply keeps_idleGroup | with_reducible apply keeps_setDmx
      | with_reducible apply keeps_startGroup | with_reducible refine keeps_ite (fun _ => ?_) (fun _ => ?_) | split
      | intro _

theorem keeps_rdmArm (entered : Bool) (u : Nat) (hA : Within 0x40000 A)
    (hK : Keeps A a₀ s) : Keeps A a₀ (rdmArm entered u s) := by
  unfold rdmArm
  repeat' first
      | with_reducible assumption | ((with_reducible apply sub_of hA); exact rfl) | dsimp only
      | with_reducible apply keeps_setDmx | with_reducible refine keeps_ite (fun _ => ?_) (fun _ => ?_) | split
      | intro _

theorem keeps_execDmxBreak (u : Fin 8) (hA : Within 0x20040000 A)
    (hK : Keeps A a₀ s) : KeepsRes A a₀ (execDmxBreak u s) := by
  unfold execDmxBreak
  with_reducible apply keepsRes_done
  repeat' first
      | with_reducible assumption | ((with_reducible apply sub_of hA); exact rfl) | dsimp only
      | with_reducible apply keeps_dmxSend | with_reducible apply keeps_setDmx
      | with_reducible refine keeps_ite (fun _ => ?_) (fun _ => ?_) | split | intro _

theorem keeps_rdmRequest (dest cc pid : Nat) (pd : List Byte) (hA : Within 0x10000000 A)
    (hK : Keeps A a₀ s) : Keeps A a₀ (rdmRequest dest cc pid pd s).2 := by
  unfold rdmRequest
  repeat' first
      | with_reducible assumption | ((with_reducible apply sub_of hA); exact rfl) | dsimp only
      | with_reducible apply keeps_fresh | split | intro _
      | with_reducible refine keeps_of_snd (by with_reducible assumption) ?_
      | with_reducible refine keeps_of_fst (by with_reducible assumption) ?_

theorem keeps_discRequest (t : DiscTask) (hA : Within 0x10000000 A)
    (hK : Keeps A a₀ s) : Keeps A a₀ (discRequest t s).2 := by
  unfold discRequest
  repeat' first
      | with_reducible assumption | ((with_reducible apply sub_of hA); exact rfl) | dsimp only
      | with_reducible apply keeps_rdmRequest | split | intro _
      | with_reducible refine keeps_of_snd (by with_reducible assumption) ?_
      | with_reducible refine keeps_of_fst (by with_reducible assumption) ?_

theorem keeps_rdmSend (n : Nat) (r : List Byte) (hA : Within 0x20040000 A)
    (hK : Keeps A a₀ s) : Keeps A a₀ (rdmSend n r s) := by
  unfold rdmSend
  repeat' first
      | with_reducible assumption | ((with_reducible apply sub_of hA); exact rfl) | dsimp only
      | with_reducible apply keeps_emit | with_reducible apply keeps_setDmx | intro _

theorem keeps_execRdmTransaction (u : Fin 8) (hA : Within 0x30040000 A)
    (hK : Keeps A a₀ s) : KeepsRes A a₀ (execRdmTransaction u s) := by
  unfold execRdmTransaction
  with_reducible apply keepsRes_done
  repeat' first
      | with_reducible assumption | ((with_reducible apply sub_of hA); exact rfl) | dsimp only
      | with_reducible apply keeps_discRequest | with_reducible apply keeps_rdmSend
      | with_reducible apply keeps_setDmx | with_reducible refine keeps_ite (fun _ => ?_) (fun _ => ?_)
      | with_reducible refine keeps_ite_snd (fun _ => ?_) (fun _ => ?_) | split | intro _
      | with_reducible refine keeps_of_snd (by with_reducible assumption) ?_
      | with_reducible refine keeps_of_fst (by with_reducible assumption) ?_

theorem keeps_rdmItem (status : Nat) (u : Nat) (stamp : Word) (bytes : List Byte) (hA : Within 0x40000 A) (hK : Keeps A a₀ s) : Keeps A a₀ (rdmItem status u stamp bytes s) := by
  unfold rdmItem
  repeat' first
      | with_reducible assumption | ((with_reducible apply sub_of hA); exact rfl) | dsimp only
      | with_reducible apply keeps_capture | intro _

theorem keeps_rdmResult (n st : Nat) (stamp : Word) (bytes : List Byte) (hA : Within 0x40000 A)
    (hK : Keeps A a₀ s) : Keeps A a₀ (rdmResult n st stamp bytes s) := by
  unfold rdmResult
  repeat' first
      | with_reducible assumption | ((with_reducible apply sub_of hA); exact rfl) | dsimp only
      | with_reducible apply keeps_rdmItem | with_reducible apply keeps_setDmx
      | with_reducible refine keeps_ite (fun _ => ?_) (fun _ => ?_) | split | intro _

theorem keeps_execRdmTransactionEnd (u : Fin 8) (bytes : List Byte) (framingErr : Bool) (hA : Within 0x140060008000000000000000000000000000000000030050000 A)
    (hK : Keeps A a₀ s) : KeepsRes A a₀ (execRdmTransactionEnd u bytes framingErr s) := by
  unfold execRdmTransactionEnd
  with_reducible apply keepsRes_done
  repeat' first
      | with_reducible assumption | ((with_reducible apply sub_of hA); exact rfl) | dsimp only
      | with_reducible apply keeps_count | with_reducible apply keeps_dmxHold
      | with_reducible apply keeps_dmxSend | with_reducible apply keeps_rdmResult
      | with_reducible apply keeps_setDmx | with_reducible apply keeps_whenB
      | with_reducible refine keeps_ite (fun _ => ?_) (fun _ => ?_) | split | intro _
      | with_reducible refine keeps_of_snd (by with_reducible assumption) ?_
      | with_reducible refine keeps_of_fst (by with_reducible assumption) ?_

theorem keeps_execRdmDiscovery (u : Fin 8) (hA : Within 0x140060008000000000000000000000000000000000010050000 A)
    (hK : Keeps A a₀ s) : KeepsRes A a₀ (execRdmDiscovery u s) := by
  unfold execRdmDiscovery
  with_reducible apply keepsRes_done
  repeat' first
      | with_reducible assumption | ((with_reducible apply sub_of hA); exact rfl) | dsimp only
      | with_reducible apply keeps_eachOf | with_reducible apply keeps_raise
      | with_reducible apply keeps_rdmItem | with_reducible apply keeps_setDmx
      | with_reducible refine keeps_ite (fun _ => ?_) (fun _ => ?_) | split | intro _
      | with_reducible refine keeps_of_snd (by with_reducible assumption) ?_
      | with_reducible refine keeps_of_fst (by with_reducible assumption) ?_

theorem keeps_execDmxRxPacket (u : Fin 8) (start : Inst) (breakUs : Nat) (mabUs : Nat) (framingErr : Bool) (bytes : List Byte) (hA : Within 0x140060008000000000000000000000000000000000010050000 A) (hK : Keeps A a₀ s) : KeepsRes A a₀ (execDmxRxPacket u start breakUs mabUs framingErr bytes s) := by
  unfold execDmxRxPacket
  with_reducible apply keepsRes_done
  repeat' first
      | with_reducible assumption | ((with_reducible apply sub_of hA); exact rfl) | dsimp only
      | with_reducible apply keeps_capture | with_reducible apply keeps_count | with_reducible apply keeps_done
      | with_reducible refine keeps_ite (fun _ => ?_) (fun _ => ?_) | split | intro _

theorem keeps_execDmxLoss (u : Fin 8) (hA : Within 0x40000 A) (hK : Keeps A a₀ s) : KeepsRes A a₀ (execDmxLoss u s) := by
  unfold execDmxLoss
  with_reducible apply keepsRes_done
  repeat' first
      | with_reducible assumption | ((with_reducible apply sub_of hA); exact rfl) | dsimp only
      | with_reducible apply keeps_idleGroup | with_reducible apply keeps_setDmx
      | with_reducible refine keeps_ite (fun _ => ?_) (fun _ => ?_) | split | intro _

theorem keeps_ltcSend (k : Nat) (b : List Byte) (hA : Within 0x20000000 A) (hK : Keeps A a₀ s) : Keeps A a₀ (ltcSend k b s) := by
  unfold ltcSend
  repeat' first
      | with_reducible assumption | ((with_reducible apply sub_of hA); exact rfl) | dsimp only
      | with_reducible apply keeps_emit | intro _

theorem keeps_ltcStart (n at_ : Nat) (b : List Byte) (hA : Within 0x20040000 A)
    (hK : Keeps A a₀ s) : Keeps A a₀ (ltcStart n at_ b s) := by
  unfold ltcStart
  repeat' first
      | with_reducible assumption | ((with_reducible apply sub_of hA); exact rfl) | dsimp only
      | with_reducible apply keeps_ltcSend | with_reducible apply keeps_setLtc | intro _

theorem keeps_ltcFree (n at_ : Nat) (b : List Byte) (hA : Within 0x140060008000000000000000000000000000000000030050000 A)
    (hK : Keeps A a₀ s) : Keeps A a₀ (ltcFree n at_ b s) := by
  unfold ltcFree
  repeat' first
      | with_reducible assumption | ((with_reducible apply sub_of hA); exact rfl) | dsimp only
      | with_reducible apply keeps_count | with_reducible apply keeps_idleGroup
      | with_reducible apply keeps_ltcSend | with_reducible apply keeps_setLtc
      | with_reducible refine keeps_ite (fun _ => ?_) (fun _ => ?_) | split | intro _

theorem keeps_ltcFed (n : Nat) (hA : Within 0x140060008000000000000000000000000000000000030050000 A) (hK : Keeps A a₀ s) : Keeps A a₀ (ltcFed n s) := by
  unfold ltcFed
  repeat' first
      | with_reducible assumption | ((with_reducible apply sub_of hA); exact rfl) | dsimp only
      | with_reducible apply keeps_ltcFree | with_reducible apply keeps_ltcStart
      | with_reducible apply keeps_setLtc | with_reducible refine keeps_ite (fun _ => ?_) (fun _ => ?_) | split
      | intro _ | with_reducible refine keeps_of_snd (by with_reducible assumption) ?_
      | with_reducible refine keeps_of_fst (by with_reducible assumption) ?_

theorem keeps_execLtcFrame (k : Fin 2) (hA : Within 0x140060008000000000000000000000000000000000030050000 A)
    (hK : Keeps A a₀ s) : KeepsRes A a₀ (execLtcFrame k s) := by
  unfold execLtcFrame
  with_reducible apply keepsRes_done
  repeat' first
      | with_reducible assumption | ((with_reducible apply sub_of hA); exact rfl) | dsimp only
      | with_reducible apply keeps_ltcFed | with_reducible apply keeps_ltcSend
      | with_reducible apply keeps_setLtc | with_reducible refine keeps_ite (fun _ => ?_) (fun _ => ?_) | split
      | intro _ | with_reducible refine keeps_of_snd (by with_reducible assumption) ?_
      | with_reducible refine keeps_of_fst (by with_reducible assumption) ?_

theorem keeps_execLtcRxCodeword (k : Fin 2) (at_ : Inst) (bits : BitVec 64) (reverse : Bool) (rate : BitVec 3) (good : Bool) (hA : Within 0x140060008000000000020000000000000000000000010050000 A) (hK : Keeps A a₀ s) : KeepsRes A a₀ (execLtcRxCodeword k at_ bits reverse rate good s) := by
  unfold execLtcRxCodeword
  with_reducible apply keepsRes_done
  repeat' first
      | with_reducible assumption | ((with_reducible apply sub_of hA); exact rfl) | dsimp only
      | with_reducible apply keeps_capture | with_reducible apply keeps_count | with_reducible apply keeps_done
      | with_reducible apply keeps_setReg | exact cov_LTC_RX _ _ rfl (sub_of hA rfl)
      | with_reducible refine keeps_ite (fun _ => ?_) (fun _ => ?_)
      | with_reducible refine keeps_ite_snd (fun _ => ?_) (fun _ => ?_) | split | intro _
      | with_reducible refine keeps_of_snd (by with_reducible assumption) ?_
      | with_reducible refine keeps_of_fst (by with_reducible assumption) ?_

theorem keeps_midiPush (k : Nat) (bytes : List Byte) (hA : Within 0x140060008000000000000000000000000000000000030050000 A) (hK : Keeps A a₀ s) : Keeps A a₀ (midiPush k bytes s) := by
  unfold midiPush
  repeat' first
      | with_reducible assumption | ((with_reducible apply sub_of hA); exact rfl) | dsimp only
      | with_reducible apply keeps_count | with_reducible apply keeps_eachOf | with_reducible apply keeps_emit
      | with_reducible apply keeps_setShow | with_reducible refine keeps_ite (fun _ => ?_) (fun _ => ?_) | split
      | intro _

theorem keeps_recordsFor (i : PresItem) (hA : Within 0x140060008000000000000000000000000000000000010010000 A) (hK : Keeps A a₀ s) : Keeps A a₀ (recordsFor i s).2 := by
  unfold recordsFor
  repeat' first
      | with_reducible assumption | ((with_reducible apply sub_of hA); exact rfl) | dsimp only
      | with_reducible apply keeps_count | with_reducible apply keeps_whenB | split | intro _
      | with_reducible refine keeps_of_snd (by with_reducible assumption) ?_
      | with_reducible refine keeps_of_fst (by with_reducible assumption) ?_

theorem keeps_allRecords (l : List PresItem) (hA : Within 0x140060008000000000000000000000000000000000010010000 A) (hK : Keeps A a₀ s) : Keeps A a₀ (allRecords l s).2 := by
  induction l generalizing s with
  | nil =>
    unfold allRecords
    repeat' first
        | with_reducible assumption | ((with_reducible apply sub_of hA); exact rfl) | dsimp only
        | with_reducible apply keeps_recordsFor | split | intro _
        | with_reducible refine keeps_of_snd (by with_reducible assumption) ?_
        | with_reducible refine keeps_of_fst (by with_reducible assumption) ?_
  | cons x l ih =>
    unfold allRecords
    repeat' first
        | with_reducible assumption | ((with_reducible apply sub_of hA); exact rfl) | dsimp only
        | with_reducible apply keeps_recordsFor | with_reducible apply ih | split | intro _
        | with_reducible refine keeps_of_snd (by with_reducible assumption) ?_
        | with_reducible refine keeps_of_fst (by with_reducible assumption) ?_

theorem keeps_tcPresent (due : List PresItem) (k : Nat) (hA : Within 0x140060008000000000000000000000000000000000030054200 A)
    (hK : Keeps A a₀ s) : Keeps A a₀ (tcPresent due k s) := by
  unfold tcPresent
  repeat' first
      | with_reducible assumption | ((with_reducible apply sub_of hA); exact rfl) | dsimp only
      | with_reducible apply keeps_allRecords | with_reducible apply keeps_count
      | with_reducible apply keeps_eachOf | with_reducible apply keeps_idleGroup
      | with_reducible apply keeps_midiPush | with_reducible apply keeps_queueMissing
      | with_reducible apply keeps_setLtc | with_reducible apply keeps_setShow
      | with_reducible apply keeps_startGroup | with_reducible refine keeps_ite (fun _ => ?_) (fun _ => ?_)
      | with_reducible refine keeps_ite_snd (fun _ => ?_) (fun _ => ?_) | split | intro _
      | with_reducible refine keeps_of_snd (by with_reducible assumption) ?_
      | with_reducible refine keeps_of_fst (by with_reducible assumption) ?_

theorem keeps_execMidiTxByte (k : Fin 2) (hA : Within 0x20040000 A) (hK : Keeps A a₀ s) : KeepsRes A a₀ (execMidiTxByte k s) := by
  unfold execMidiTxByte
  with_reducible apply keepsRes_done
  repeat' first
      | with_reducible assumption | ((with_reducible apply sub_of hA); exact rfl) | dsimp only
      | with_reducible apply keeps_done | with_reducible apply keeps_emit | with_reducible apply keeps_setShow
      | with_reducible refine keeps_ite (fun _ => ?_) (fun _ => ?_) | split | intro _
      | with_reducible refine keeps_of_snd (by with_reducible assumption) ?_
      | with_reducible refine keeps_of_fst (by with_reducible assumption) ?_

theorem keeps_execMidiRxByte (k : Fin 2) (at_ : Inst) (b : Byte) (framingErr : Bool) (hA : Within 0x140060008000000000000000000000000000000000010050000 A) (hK : Keeps A a₀ s) : KeepsRes A a₀ (execMidiRxByte k at_ b framingErr s) := by
  unfold execMidiRxByte
  with_reducible apply keepsRes_done
  repeat' first
      | with_reducible assumption | ((with_reducible apply sub_of hA); exact rfl) | dsimp only
      | with_reducible apply keeps_capture | with_reducible apply keeps_count | with_reducible apply keeps_done
      | with_reducible refine keeps_ite (fun _ => ?_) (fun _ => ?_) | split | intro _

theorem keeps_cueSet (n : Nat) (closed : Bool) (fromQueue : Bool) (hA : Within 0x20040000 A) (hK : Keeps A a₀ s) : Keeps A a₀ (cueSet n closed fromQueue s) := by
  unfold cueSet
  repeat' first
      | with_reducible assumption | ((with_reducible apply sub_of hA); exact rfl) | dsimp only
      | with_reducible apply keeps_emit | with_reducible apply keeps_setShow
      | with_reducible refine keeps_ite (fun _ => ?_) (fun _ => ?_) | split | intro _

theorem keeps_cueApply (st : Nat) (mask : Nat) (fromQueue : Bool) (hA : Within 0x20040000 A) (hK : Keeps A a₀ s) : Keeps A a₀ (cueApply st mask fromQueue s) := by
  unfold cueApply
  repeat' first
      | with_reducible assumption | ((with_reducible apply sub_of hA); exact rfl) | dsimp only
      | with_reducible apply keeps_cueSet | with_reducible apply keeps_eachOf
      | with_reducible refine keeps_ite (fun _ => ?_) (fun _ => ?_) | split | intro _

theorem keeps_cueOpenQueued  (hA : Within 0x20040000 A) (hK : Keeps A a₀ s) : Keeps A a₀ (cueOpenQueued s) := by
  unfold cueOpenQueued
  repeat' first
      | with_reducible assumption | ((with_reducible apply sub_of hA); exact rfl) | dsimp only
      | with_reducible apply keeps_cueSet | with_reducible apply keeps_eachOf
      | with_reducible refine keeps_ite (fun _ => ?_) (fun _ => ?_) | split | intro _

theorem keeps_cuePresent (due : List PresItem) (hA : Within 0x140060008000000000000000000000000000000000030054200 A)
    (hK : Keeps A a₀ s) : Keeps A a₀ (cuePresent due s) := by
  unfold cuePresent
  repeat' first
      | with_reducible assumption | ((with_reducible apply sub_of hA); exact rfl) | dsimp only
      | with_reducible apply keeps_count | with_reducible apply keeps_countN
      | with_reducible apply keeps_cueApply | with_reducible apply keeps_cueOpenQueued
      | with_reducible apply keeps_eachOf | with_reducible apply keeps_queueMissing
      | with_reducible apply keeps_startGroup | with_reducible refine keeps_ite (fun _ => ?_) (fun _ => ?_)
      | split | intro _ | with_reducible refine keeps_of_snd (by with_reducible assumption) ?_
      | with_reducible refine keeps_of_fst (by with_reducible assumption) ?_

theorem keeps_execCueEdge (n : Fin 24) (closed : Bool) (at_ : Inst) (hA : Within 0x140060008000000000200000000000000000000000010050000 A)
    (hK : Keeps A a₀ s) : KeepsRes A a₀ (execCueEdge n closed at_ s) := by
  unfold execCueEdge
  with_reducible apply keepsRes_done
  repeat' first
      | with_reducible assumption | ((with_reducible apply sub_of hA); exact rfl) | dsimp only
      | with_reducible apply keeps_count | with_reducible apply keeps_setShow | with_reducible apply keeps_wr
      | exact cov_CUE_STATE _ rfl (sub_of hA rfl) | with_reducible refine keeps_ite (fun _ => ?_) (fun _ => ?_)
      | split | intro _

theorem keeps_execCuePulseEnd (n : Fin 24) (hA : Within 0x20040000 A) (hK : Keeps A a₀ s) : KeepsRes A a₀ (execCuePulseEnd n s) := by
  unfold execCuePulseEnd
  with_reducible apply keepsRes_done
  repeat' first
      | with_reducible assumption | ((with_reducible apply sub_of hA); exact rfl) | dsimp only
      | with_reducible apply keeps_cueSet | with_reducible apply keeps_done | with_reducible apply keeps_setShow
      | with_reducible refine keeps_ite (fun _ => ?_) (fun _ => ?_) | split | intro _

theorem keeps_expressContact (n : Nat) (value : Nat) (hA : Within 0x20040000 A) (hK : Keeps A a₀ s) : Keeps A a₀ (expressContact n value s) := by
  unfold expressContact
  repeat' first
      | with_reducible assumption | ((with_reducible apply sub_of hA); exact rfl) | dsimp only
      | with_reducible apply keeps_cueSet | with_reducible apply keeps_setShow
      | with_reducible refine keeps_ite (fun _ => ?_) (fun _ => ?_) | split | intro _

theorem keeps_expressGo (u : Nat) (hA : Within 0x20040000 A) (hK : Keeps A a₀ s) : Keeps A a₀ (expressGo u s) := by
  unfold expressGo
  repeat' first
      | with_reducible assumption | ((with_reducible apply sub_of hA); exact rfl) | dsimp only
      | with_reducible apply keeps_dmxSend | with_reducible apply keeps_setDmx
      | with_reducible refine keeps_ite (fun _ => ?_) (fun _ => ?_) | split | intro _

theorem keeps_expressShow (ch value : Nat) (hA : Within 0x140060008000000000000000000000000000000000030050000 A)
    (hK : Keeps A a₀ s) : Keeps A a₀ (expressShow ch value s) := by
  unfold expressShow
  repeat' first
      | with_reducible assumption | ((with_reducible apply sub_of hA); exact rfl) | dsimp only
      | with_reducible apply keeps_count | with_reducible apply keeps_eachOf
      | with_reducible apply keeps_expressContact | with_reducible apply keeps_expressGo
      | with_reducible apply keeps_whenB | with_reducible refine keeps_ite (fun _ => ?_) (fun _ => ?_) | split
      | intro _

theorem keeps_execGenlockEdge (k : Fin 4) (hA : Within 0x20040000 A)
    (hK : Keeps A a₀ s) : KeepsRes A a₀ (execGenlockEdge k s) := by
  unfold execGenlockEdge
  with_reducible apply keepsRes_done
  repeat' first
      | with_reducible assumption | ((with_reducible apply sub_of hA); exact rfl) | dsimp only
      | with_reducible apply keeps_emit | with_reducible apply keeps_setShow
      | with_reducible refine keeps_ite (fun _ => ?_) (fun _ => ?_) | split | intro _

theorem keeps_genlockRealign  (hA : Within 0x140060008000000000000000000000000000000000010050000 A) (hK : Keeps A a₀ s) : Keeps A a₀ (genlockRealign s) := by
  unfold genlockRealign
  repeat' first
      | with_reducible assumption | ((with_reducible apply sub_of hA); exact rfl) | dsimp only
      | with_reducible apply keeps_countN | with_reducible apply keeps_eachOf | with_reducible apply keeps_setShow
      | with_reducible refine keeps_ite (fun _ => ?_) (fun _ => ?_) | split | intro _
      | with_reducible refine keeps_of_snd (by with_reducible assumption) ?_
      | with_reducible refine keeps_of_fst (by with_reducible assumption) ?_

theorem keeps_showIdle  (hA : Within 0x20040000 A) (hK : Keeps A a₀ s) : Keeps A a₀ (showIdle s) := by
  unfold showIdle
  repeat' first
      | with_reducible assumption | ((with_reducible apply sub_of hA); exact rfl) | dsimp only
      | with_reducible apply keeps_eachOf | with_reducible apply keeps_emit
      | with_reducible refine keeps_ite (fun _ => ?_) (fun _ => ?_) | split | intro _
      | with_reducible apply keeps_part_show_

theorem keeps_showEnd (tdm : List (List Word)) (hA : Within 0x140060008000000000000000000400000000000000010058000 A) (hK : Keeps A a₀ s) : Keeps A a₀ (showEnd tdm s) := by
  unfold showEnd
  repeat' first
      | with_reducible assumption | ((with_reducible apply sub_of hA); exact rfl) | dsimp only
      | with_reducible apply keeps_capture | with_reducible apply keeps_eachOf | with_reducible apply keeps_setShow
      | with_reducible apply keeps_submitOr | with_reducible apply keeps_tdmCapture
      | with_reducible refine keeps_ite (fun _ => ?_) (fun _ => ?_) | split | intro _
      | with_reducible refine keeps_of_snd (by with_reducible assumption) ?_
      | with_reducible refine keeps_of_fst (by with_reducible assumption) ?_

theorem keeps_showTake  (hA : Within 0x140060008000000000000000000400000000000000010058000 A) (hK : Keeps A a₀ s) : Keeps A a₀ (showTake s) := by
  unfold showTake
  repeat' first
      | with_reducible assumption | ((with_reducible apply sub_of hA); exact rfl) | dsimp only
      | with_reducible apply keeps_eachOf | with_reducible apply keeps_takeShow
      | with_reducible refine keeps_ite (fun _ => ?_) (fun _ => ?_) | split | intro _

theorem keeps_showBegin (due : List PresItem) (hA : Within 0x14006000800000000000000000040000000000000003005c200 A)
    (hK : Keeps A a₀ s) : Keeps A a₀ (showBegin due s) := by
  unfold showBegin
  repeat' first
      | with_reducible assumption | ((with_reducible apply sub_of hA); exact rfl) | dsimp only
      | with_reducible apply keeps_cuePresent | with_reducible apply keeps_dmxPresent
      | with_reducible apply keeps_eachOf | with_reducible apply keeps_rdmArm
      | with_reducible apply keeps_setShow | with_reducible apply keeps_showIdle
      | with_reducible apply keeps_showTake | with_reducible apply keeps_tcPresent
      | with_reducible apply keeps_tdmPresent | with_reducible refine keeps_ite (fun _ => ?_) (fun _ => ?_)
      | split | intro _

theorem keeps_showStep (delta : Int) (hA : Within 0x140060008000000000000000000000000000000000010050000 A) (hK : Keeps A a₀ s) : Keeps A a₀ (showStep delta s) := by
  unfold showStep
  repeat' first
      | with_reducible assumption | ((with_reducible apply sub_of hA); exact rfl) | dsimp only
      | with_reducible apply keeps_countN | with_reducible apply keeps_setShow | intro _

end Sys2Proof.Laws
end

