-- ==== Sys2Proof/Laws/KeepsStraps.lean ====
section
/-! SUPPORT. `Keeps` for the operations of Machine/Straps.lean. -/

set_option linter.unusedTactic false
set_option linter.unreachableTactic false

namespace Sys2Proof.Laws

open Sys2Proof Sys2Proof.Machine Sys2Proof.Safety

variable {A : Nat} {a₀ s : State}

theorem keeps_strapBanks (hA : Within 0x600000000000000000000000 A) (hK : Keeps A a₀ s) : Keeps A a₀ (strapBanks s) := by
  unfold strapBanks
  repeat' first
      | with_reducible assumption | ((with_reducible apply sub_of hA); exact rfl) | dsimp only
      | with_reducible apply keeps_wr | exact cov_GRAN_STATUS _ rfl (sub_of hA rfl)
      | exact cov_GRAN_BANK_CFG _ rfl (sub_of hA rfl)
      | with_reducible refine keeps_ite (fun _ => ?_) (fun _ => ?_) | split | intro _

theorem keeps_applyStraps (hA : Within 0x800000020000100000000000c06000000000460a0100000000 A) (hK : Keeps A a₀ s) : Keeps A a₀ (applyStraps s) := by
  unfold applyStraps
  repeat' first
      | with_reducible assumption | ((with_reducible apply sub_of hA); exact rfl) | dsimp only
      | with_reducible apply keeps_strapBanks | with_reducible apply keeps_wr
      | exact cov_BOOT_STATUS _ rfl (sub_of hA rfl) | exact cov_RING_MODE _ rfl (sub_of hA rfl)
      | exact cov_PCIE_CTRL _ rfl (sub_of hA rfl) | exact cov_PWR_TARGET _ _ rfl (sub_of hA rfl)
      | exact cov_SELFTEST_FLAGS _ rfl (sub_of hA rfl) | exact cov_ZWD_ADDR _ rfl (sub_of hA rfl)
      | exact cov_BYPASS_CFG _ rfl (sub_of hA rfl) | exact cov_SPAN_CFG _ rfl (sub_of hA rfl)
      | exact cov_DEVICE_IDENT _ rfl (sub_of hA rfl) | exact cov_BYPASS_STATUS _ rfl (sub_of hA rfl)
      | exact cov_AFE_CFG _ rfl (sub_of hA rfl) | with_reducible refine keeps_ite (fun _ => ?_) (fun _ => ?_)
      | split | intro _

end Sys2Proof.Laws
end

