-- ==== Sys2Proof/Laws/KeepsPower.lean ====
section
/-! SUPPORT. `Keeps` for the operations of Machine/Power.lean. -/

set_option linter.unusedTactic false
set_option linter.unreachableTactic false

namespace Sys2Proof.Laws

open Sys2Proof Sys2Proof.Machine Sys2Proof.Safety

variable {A : Nat} {a₀ s : State}

theorem keeps_powerRefused (bits : Nat) (hA : Within 0x140060008000000000000000000000000000000000010010000 A) (hK : Keeps A a₀ s) : Keeps A a₀ (powerRefused bits s) := by
  unfold powerRefused
  repeat' first
      | with_reducible assumption | ((with_reducible apply sub_of hA); exact rfl) | dsimp only
      | with_reducible apply keeps_count | with_reducible apply keeps_raise | intro _

theorem keeps_portOffWrite (off : Nat) (hA : Within 0x1c0060008000000000000000000000000000000000010210000 A) (hK : Keeps A a₀ s) : Keeps A a₀ (portOffWrite off s) := by
  unfold portOffWrite
  repeat' first
      | with_reducible assumption | ((with_reducible apply sub_of hA); exact rfl) | dsimp only
      | with_reducible apply keeps_count | with_reducible apply keeps_setPwr | with_reducible apply keeps_whenB
      | with_reducible apply keeps_wr | exact cov_PWR_TARGET _ _ rfl (sub_of hA rfl) | intro _

theorem keeps_pwrTargetWrite (k : Nat) (v : Word) (hA : Within 0x1c0060008000000000000000000000000000000000010210000 A)
    (hK : Keeps A a₀ s) : Keeps A a₀ (pwrTargetWrite k v s) := by
  unfold pwrTargetWrite
  repeat' first
      | with_reducible assumption | ((with_reducible apply sub_of hA); exact rfl) | dsimp only
      | with_reducible apply keeps_portOffWrite | with_reducible apply keeps_powerRefused
      | with_reducible apply keeps_wr | exact cov_PWR_TARGET _ _ rfl (sub_of hA rfl)
      | with_reducible refine keeps_ite (fun _ => ?_) (fun _ => ?_) | split | intro _

theorem keeps_statusDefaults (lo : Nat) (hi : Nat) (hA : Within 0x80000000 A) (hK : Keeps A a₀ s) : Keeps A a₀ (statusDefaults lo hi s) := by
  unfold statusDefaults
  repeat' first
      | with_reducible assumption | ((with_reducible apply sub_of hA); exact rfl) | dsimp only
      | with_reducible apply keeps_eachOf | with_reducible apply keeps_setReg
      | ((with_reducible apply cov_any); exact sub_of hA rfl) | split | intro _
      | with_reducible refine keeps_of_snd (by with_reducible assumption) ?_
      | with_reducible refine keeps_of_fst (by with_reducible assumption) ?_

theorem keeps_laneDefaults (n : Nat) (m : Nat) (hA : Within 0x80000000 A) (hK : Keeps A a₀ s) : Keeps A a₀ (laneDefaults n m s) := by
  unfold laneDefaults
  repeat' first
      | with_reducible assumption | ((with_reducible apply sub_of hA); exact rfl) | dsimp only
      | with_reducible apply keeps_statusDefaults | intro _

theorem keeps_laneOff (n : Nat) (hA : Within 0xc1000000 A) (hK : Keeps A a₀ s) : Keeps A a₀ (laneOff n s) := by
  unfold laneOff
  repeat' first
      | with_reducible assumption | ((with_reducible apply sub_of hA); exact rfl) | dsimp only
      | with_reducible apply keeps_laneDefaults | with_reducible apply keeps_setLane
      | with_reducible apply keeps_setSpan | intro _

theorem keeps_untrack (hA : Within 0x300000040000200 A) (hK : Keeps A a₀ s) : Keeps A a₀ (untrack s) := by
  unfold untrack
  repeat' first
      | with_reducible assumption | ((with_reducible apply sub_of hA); exact rfl) | dsimp only
      | with_reducible apply keeps_setFrame | with_reducible apply keeps_setSpan | with_reducible apply keeps_wr
      | exact cov_REP_STATUS_W _ rfl (sub_of hA rfl) | exact cov_REP_STATUS_E _ rfl (sub_of hA rfl) | intro _

theorem keeps_queuesOff  (hA : Within 0x140060008000000000000000000400000000000000090018000 A) (hK : Keeps A a₀ s) : Keeps A a₀ (queuesOff s) := by
  unfold queuesOff
  repeat' first
      | with_reducible assumption | ((with_reducible apply sub_of hA); exact rfl) | dsimp only
      | with_reducible apply keeps_eachOf | with_reducible apply keeps_flushQueue
      | with_reducible apply keeps_statusDefaults | with_reducible apply keeps_wr
      | exact cov_GRAN_STATUS _ rfl (sub_of hA rfl) | intro _ | with_reducible apply keeps_part_q

theorem keeps_cipherOff  (hA : Within 0x80002000 A) (hK : Keeps A a₀ s) : Keeps A a₀ (cipherOff s) := by
  unfold cipherOff
  repeat' first
      | with_reducible assumption | ((with_reducible apply sub_of hA); exact rfl) | dsimp only
      | with_reducible apply keeps_statusDefaults | intro _ | with_reducible apply keeps_part_key

theorem keeps_loseItem (i : Item) (hA : Within 0x10000000 A) (hK : Keeps A a₀ s) : Keeps A a₀ (loseItem i s).2 := by
  unfold loseItem
  repeat' first
      | with_reducible assumption | ((with_reducible apply sub_of hA); exact rfl) | dsimp only
      | with_reducible apply keeps_fresh | with_reducible refine keeps_ite (fun _ => ?_) (fun _ => ?_)
      | with_reducible refine keeps_ite_snd (fun _ => ?_) (fun _ => ?_) | split | intro _
      | with_reducible refine keeps_of_snd (by with_reducible assumption) ?_
      | with_reducible refine keeps_of_fst (by with_reducible assumption) ?_

theorem keeps_loseItems (l : List Item) (hA : Within 0x10000000 A) (hK : Keeps A a₀ s) : Keeps A a₀ (loseItems l s).2 := by
  induction l generalizing s with
  | nil =>
    unfold loseItems
    repeat' first
        | with_reducible assumption | ((with_reducible apply sub_of hA); exact rfl) | dsimp only
        | with_reducible apply keeps_loseItem | split | intro _
        | with_reducible refine keeps_of_snd (by with_reducible assumption) ?_
        | with_reducible refine keeps_of_fst (by with_reducible assumption) ?_
  | cons x l ih =>
    unfold loseItems
    repeat' first
        | with_reducible assumption | ((with_reducible apply sub_of hA); exact rfl) | dsimp only
        | with_reducible apply keeps_loseItem | with_reducible apply ih | split | intro _
        | with_reducible refine keeps_of_snd (by with_reducible assumption) ?_
        | with_reducible refine keeps_of_fst (by with_reducible assumption) ?_

theorem keeps_bankOff  (hA : Within 0x10008000 A) (hK : Keeps A a₀ s) : Keeps A a₀ (bankOff s) := by
  unfold bankOff
  repeat' first
      | with_reducible assumption | ((with_reducible apply sub_of hA); exact rfl) | dsimp only
      | with_reducible apply keeps_eachOf | with_reducible apply keeps_loseItems | with_reducible apply keeps_setItems
      | split | intro _ | with_reducible refine keeps_of_snd (by with_reducible assumption) ?_
      | with_reducible refine keeps_of_fst (by with_reducible assumption) ?_

theorem keeps_loseFrame (hA : Within 0x1200 A) (hK : Keeps A a₀ s) : Keeps A a₀ (loseFrame s) := by
  unfold loseFrame
  repeat' first
      | with_reducible assumption | ((with_reducible apply sub_of hA); exact rfl) | dsimp only
      | with_reducible apply keeps_setFrame | with_reducible apply keeps_setWin | intro _

theorem keeps_loseNotes  (hA : Within 0x800 A) (hK : Keeps A a₀ s) : Keeps A a₀ (loseNotes s) := by
  unfold loseNotes
  repeat' first
      | with_reducible assumption | ((with_reducible apply sub_of hA); exact rfl) | exact fun h => h | dsimp only
      | with_reducible apply keeps_setNote | intro _ | (with_reducible show List.length _ ≤ _; exact lengthNil _)

theorem keeps_loseRegistration  (hA : Within 0x400 A) (hK : Keeps A a₀ s) : Keeps A a₀ (loseRegistration s) := by
  unfold loseRegistration
  repeat' first
      | with_reducible assumption | ((with_reducible apply sub_of hA); exact rfl) | dsimp only
      | with_reducible apply keeps_setRegn | intro _

theorem keeps_losePieces (hA : Within 0x800000 A) (hK : Keeps A a₀ s) : Keeps A a₀ (losePieces s) := by
  unfold losePieces
  repeat' first
      | with_reducible assumption | ((with_reducible apply sub_of hA); exact rfl) | exact fun h => h
      | dsimp only | with_reducible apply keeps_setGlean | intro _
      | (with_reducible show List.length _ ≤ _; exact lengthNil _)
      | (rw [List.length_append, List.length_singleton]; omega)
      | (with_reducible show List.length _ ≤ _; exact Nat.le_trans (List.length_filter_le _ _) (by assumption))
      | (with_reducible show List.length _ ≤ _; exact lengthMap _ (by assumption))
      | (with_reducible show List.length _ ≤ _; exact lengthTail (by assumption) (by assumption))

theorem keeps_loseFirmware (hA : Within 0x80a00c00 A) (hK : Keeps A a₀ s) : Keeps A a₀ (loseFirmware s) := by
  unfold loseFirmware
  repeat' first
      | with_reducible assumption | ((with_reducible apply sub_of hA); exact rfl) | dsimp only
      | with_reducible apply keeps_loseNotes | with_reducible apply keeps_losePieces
      | with_reducible apply keeps_loseRegistration | with_reducible apply keeps_setPwr
      | with_reducible apply keeps_statusDefaults | intro _

theorem keeps_loseThresher  (hA : Within 0x4000 A) (hK : Keeps A a₀ s) : Keeps A a₀ (loseThresher s) := by
  unfold loseThresher
  repeat' first
      | with_reducible assumption | ((with_reducible apply sub_of hA); exact rfl) | dsimp only | intro _
      | with_reducible apply keeps_part_th

theorem keeps_losePorts  (hA : Within 0x20000 A) (hK : Keeps A a₀ s) : Keeps A a₀ (losePorts s) := by
  unfold losePorts
  repeat' first
      | with_reducible assumption | ((with_reducible apply sub_of hA); exact rfl) | dsimp only | intro _
      | with_reducible apply keeps_part_eth

theorem keeps_loseShow  (hA : Within 0x40000 A) (hK : Keeps A a₀ s) : Keeps A a₀ (loseShow s) := by
  unfold loseShow
  repeat' first
      | with_reducible assumption | ((with_reducible apply sub_of hA); exact rfl) | dsimp only | intro _
      | with_reducible apply keeps_part_show_

theorem keeps_loseAfe  (hA : Within 0x100000 A) (hK : Keeps A a₀ s) : Keeps A a₀ (loseAfe s) := by
  unfold loseAfe
  repeat' first
      | with_reducible assumption | ((with_reducible apply sub_of hA); exact rfl) | dsimp only | intro _
      | with_reducible apply keeps_part_afe

theorem keeps_loseMotion  (hA : Within 0x1800000000000000000000000000080080000 A) (hK : Keeps A a₀ s) : Keeps A a₀ (loseMotion s) := by
  unfold loseMotion
  repeat' first
      | with_reducible assumption | ((with_reducible apply sub_of hA); exact rfl) | dsimp only
      | with_reducible apply keeps_eachOf | with_reducible apply keeps_motDrop | with_reducible apply keeps_setReg
      | with_reducible apply keeps_statusDefaults | exact cov_AX_POS_ENC _ _ rfl (sub_of hA rfl)
      | exact cov_AX_POS_CMD _ _ rfl (sub_of hA rfl) | intro _

theorem keeps_frameOff (hA : Within 0x3000000c0001200 A) (hK : Keeps A a₀ s) : Keeps A a₀ (frameOff s) := by
  unfold frameOff
  repeat' first
      | with_reducible assumption | ((with_reducible apply sub_of hA); exact rfl) | dsimp only
      | with_reducible apply keeps_loseFrame | with_reducible apply keeps_statusDefaults
      | with_reducible apply keeps_untrack | intro _

theorem keeps_domainLeaves (k a b : Nat) (hA : Within 0x1400600080004218000000100404400000003000000f1bffe00 A) (h : Keeps A a₀ s) : Keeps A a₀ (domainLeaves k a b s) := by
  unfold domainLeaves
  dsimp only
  repeat' with_reducible refine keeps_ite (fun _ => ?_) (fun _ => ?_)
  all_goals first
    | with_reducible assumption
    | with_reducible refine keeps_laneOff _ ?_ h
    | with_reducible refine keeps_frameOff ?_ h
    | with_reducible refine keeps_untrack ?_ h
    | with_reducible refine keeps_loseFirmware ?_ h
    | with_reducible refine keeps_statusDefaults _ _ ?_ (keeps_emptyTables ?_ (keeps_loseThresher ?_ h))
    | with_reducible refine keeps_cipherOff ?_ h
    | with_reducible refine keeps_queuesOff ?_ h
    | with_reducible refine keeps_whenB _ _ (fun _ => keeps_setHost _ ?_ (fun h => h) (fun h => h)) (keeps_linkTick _ ?_ h)
    | with_reducible refine keeps_laneDefaults _ _ ?_ (keeps_statusDefaults _ _ ?_ (keeps_losePorts ?_
        (keeps_whenB _ _ (fun _ => keeps_lanOff ?_) h)))
    | with_reducible refine keeps_statusDefaults _ _ ?_ (keeps_loseShow ?_ (keeps_whenB _ _ (fun _ => keeps_showIdle ?_) h))
    | with_reducible refine keeps_loseMotion ?_ h
    | with_reducible refine keeps_statusDefaults _ _ ?_ (keeps_wr _ _ ?_ (keeps_wr _ _ ?_ (keeps_loseAfe ?_
        (keeps_whenB _ _ (fun _ => keeps_afeStop ?_) h))))
    | with_reducible refine keeps_bankOff ?_ h
    | with_reducible refine keeps_whenB _ _ (fun _ => keeps_lanOff ?_) h
    | with_reducible refine keeps_whenB _ _ (fun _ => keeps_showIdle ?_) h
    | with_reducible refine keeps_whenB _ _ (fun _ => keeps_afeStop ?_) h
  all_goals first
    | exact (sub_of hA rfl)
    | exact cov_any _ (sub_of hA rfl)

theorem keeps_domainReturns (k a : Nat) (hA : Within 0x400000000000000000000 A)
    (hK : Keeps A a₀ s) : Keeps A a₀ (domainReturns k a s) := by
  unfold domainReturns
  repeat' first
      | with_reducible assumption | ((with_reducible apply sub_of hA); exact rfl) | dsimp only
      | with_reducible apply keeps_wr | exact cov_ENTROPY_STATUS _ rfl (sub_of hA rfl)
      | with_reducible refine keeps_ite (fun _ => ?_) (fun _ => ?_) | split | intro _

theorem keeps_fixedPeak (n : Nat) (hA : Within 0x1000000000000000 A) (hK : Keeps A a₀ s) : Keeps A a₀ (fixedPeak n s) := by
  unfold fixedPeak
  repeat' first
      | with_reducible assumption | ((with_reducible apply sub_of hA); exact rfl) | dsimp only
      | with_reducible apply keeps_wr | exact cov_LANE_STATUS _ _ rfl (sub_of hA rfl)
      | with_reducible refine keeps_ite (fun _ => ?_) (fun _ => ?_) | split | intro _

theorem keeps_domainBack (k : Nat) (hA : Within 0xc00001000000000000000 A) (hK : Keeps A a₀ s) : Keeps A a₀ (domainBack k s) := by
  unfold domainBack
  repeat' first
      | with_reducible assumption | ((with_reducible apply sub_of hA); exact rfl) | dsimp only
      | with_reducible apply keeps_eachOf | with_reducible apply keeps_fixedPeak | with_reducible apply keeps_wr
      | exact cov_ENTROPY_STATUS _ rfl (sub_of hA rfl) | exact cov_DRBG_STATUS _ rfl (sub_of hA rfl)
      | with_reducible refine keeps_ite (fun _ => ?_) (fun _ => ?_) | split | intro _

theorem keeps_pwrAnswer (r : PwrReq) (status : Nat) (sub : Nat) (result : Nat) (hA : Within 0x20010000 A) (hK : Keeps A a₀ s) : Keeps A a₀ (pwrAnswer r status sub result s) := by
  unfold pwrAnswer
  repeat' first
      | with_reducible assumption | ((with_reducible apply sub_of hA); exact rfl) | dsimp only
      | with_reducible apply keeps_finishWait | split | intro _
      | with_reducible refine keeps_of_snd (by with_reducible assumption) ?_
      | with_reducible refine keeps_of_fst (by with_reducible assumption) ?_

theorem keeps_powerRequest (r : PwrReq) (hA : Within 0x140060008000000000000000000000000000000000030210000 A) (hK : Keeps A a₀ s) : Keeps A a₀ (powerRequest r s) := by
  unfold powerRequest
  repeat' first
      | with_reducible assumption | ((with_reducible apply sub_of hA); exact rfl) | dsimp only
      | with_reducible apply keeps_count | with_reducible apply keeps_eachOf | with_reducible apply keeps_pwrAnswer
      | with_reducible apply keeps_setPwr | intro _

theorem keeps_moveDomains (moving : List Nat) (tgt : List Nat) (hA : Within 0x1400600080004218000000100404404000003000000f1bffe00 A)
    (hK : Keeps A a₀ s) : Keeps A a₀ (moveDomains moving tgt s) := by
  unfold moveDomains
  repeat' first
      | with_reducible assumption | ((with_reducible apply sub_of hA); exact rfl) | dsimp only
      | with_reducible apply keeps_domainLeaves | with_reducible apply keeps_domainReturns
      | with_reducible apply keeps_eachOf | intro _

theorem keeps_stopForPower (r : PwrReq) (hA : Within 0x140060008000000000000000500400000000000000030010000 A) (hK : Keeps A a₀ s) : Keeps A a₀ (stopForPower r s) := by
  unfold stopForPower
  repeat' first
      | with_reducible assumption | ((with_reducible apply sub_of hA); exact rfl) | exact fun h => h
      | dsimp only | with_reducible apply keeps_orderlyStop | with_reducible apply keeps_pwrAnswer
      | with_reducible apply keeps_setHost | with_reducible apply keeps_wr
      | with_reducible apply keeps_writeStatus | exact cov_HRE_CTRL _ rfl (sub_of hA rfl)
      | with_reducible refine keeps_ite (fun _ => ?_) (fun _ => ?_) | split | intro _
      | (with_reducible show List.length _ ≤ _; exact lengthNil _)
      | (rw [List.length_append, List.length_singleton]; omega)
      | (with_reducible show List.length _ ≤ _; exact Nat.le_trans (List.length_filter_le _ _) (by assumption))
      | (with_reducible show List.length _ ≤ _; exact lengthMap _ (by assumption))
      | (with_reducible show List.length _ ≤ _; exact lengthTail (by assumption) (by assumption))

theorem keeps_beginTransition (r : PwrReq) (tgt : List Nat) (hA : Within 0x1c00600080004218000000105404404000003000000f1bffe00 A)
    (hK : Keeps A a₀ s) : Keeps A a₀ (beginTransition r tgt s) := by
  unfold beginTransition
  repeat' first
      | with_reducible assumption | ((with_reducible apply sub_of hA); exact rfl) | dsimp only
      | with_reducible apply keeps_eachOf | with_reducible apply keeps_moveDomains
      | with_reducible apply keeps_portsRefresh | with_reducible apply keeps_refreshHost
      | with_reducible apply keeps_setPwr | with_reducible apply keeps_stopForPower
      | with_reducible apply keeps_wr | exact cov_PWR_TARGET _ _ rfl (sub_of hA rfl)
      | with_reducible refine keeps_ite (fun _ => ?_) (fun _ => ?_) | split | intro _

theorem keeps_beginRest  (hA : Within 0x200000000000000000000000000000000000200000 A) (hK : Keeps A a₀ s) : Keeps A a₀ (beginRest s) := by
  unfold beginRest
  repeat' first
      | with_reducible assumption | ((with_reducible apply sub_of hA); exact rfl) | dsimp only
      | with_reducible apply keeps_setPwr | with_reducible apply keeps_wr
      | exact cov_WAKE_STATUS _ rfl (sub_of hA rfl) | intro _

theorem keeps_pwrFinish (r : PwrReq) (tgt : List Nat) (hA : Within 0x1c0060008200421800000010140440c000013000000f1bffe00 A)
    (hK : Keeps A a₀ s) : Keeps A a₀ (pwrFinish r tgt s) := by
  unfold pwrFinish
  repeat' first
      | with_reducible assumption | ((with_reducible apply sub_of hA); exact rfl) | dsimp only
      | with_reducible apply keeps_beginRest | with_reducible apply keeps_domainBack
      | with_reducible apply keeps_eachOf | with_reducible apply keeps_moveDomains
      | with_reducible apply keeps_portsRefresh | with_reducible apply keeps_pwrAnswer
      | with_reducible apply keeps_raise | with_reducible apply keeps_refreshHost
      | with_reducible apply keeps_setPwr | with_reducible apply keeps_wr
      | exact cov_PWR_TARGET _ _ rfl (sub_of hA rfl)
      | with_reducible refine keeps_ite (fun _ => ?_) (fun _ => ?_) | split | intro _

theorem keeps_endRest  (hA : Within 0x200000000000000000000001000000000800200030 A) (hK : Keeps A a₀ s) : Keeps A a₀ (endRest s) := by
  unfold endRest
  repeat' first
      | with_reducible assumption | ((with_reducible apply sub_of hA); exact rfl) | dsimp only
      | with_reducible apply keeps_setBt | with_reducible apply keeps_setLine | with_reducible apply keeps_setPwr
      | with_reducible apply keeps_wr | exact cov_WAKE_STATUS _ rfl (sub_of hA rfl)
      | exact cov_TIME_STATUS _ rfl (sub_of hA rfl) | exact cov_TAI_ORIGIN_NS _ rfl (sub_of hA rfl)
      | with_reducible refine keeps_ite (fun _ => ?_) (fun _ => ?_) | split | intro _

theorem keeps_wake (src detail : Nat) (hA : Within 0x1c0060008200000000000000000000001000000000830210030 A) (hK : Keeps A a₀ s) : Keeps A a₀ (wake src detail s) := by
  unfold wake
  repeat' first
      | with_reducible assumption | ((with_reducible apply sub_of hA); exact rfl) | dsimp only
      | with_reducible apply keeps_count | with_reducible apply keeps_eachOf
      | with_reducible apply keeps_endRest | with_reducible apply keeps_powerRefused
      | with_reducible apply keeps_powerRequest | with_reducible apply keeps_pwrAnswer
      | with_reducible apply keeps_raise | with_reducible apply keeps_setPwr | with_reducible apply keeps_wr
      | exact cov_PWR_TARGET _ _ rfl (sub_of hA rfl) | exact cov_WAKE_STATUS _ rfl (sub_of hA rfl)
      | with_reducible refine keeps_ite (fun _ => ?_) (fun _ => ?_) | split | intro _

theorem keeps_execSpanWakeSet (lane : Fin 2) (words : List RxWord) (hA : Within 0x1c0060008200000000000000000000001000000000870210030 A)
    (hK : Keeps A a₀ s) : KeepsRes A a₀ (execSpanWakeSet lane words s) := by
  unfold execSpanWakeSet
  with_reducible apply keepsRes_done
  repeat' first
      | with_reducible assumption | ((with_reducible apply sub_of hA); exact rfl) | dsimp only
      | with_reducible apply keeps_countN | with_reducible apply keeps_foldl
      | with_reducible apply keeps_setSpan | with_reducible apply keeps_wake
      | with_reducible refine keeps_ite (fun _ => ?_) (fun _ => ?_)
      | with_reducible refine keeps_ite_snd (fun _ => ?_) (fun _ => ?_) | split | intro _
      | with_reducible refine keeps_of_snd (by with_reducible assumption) ?_
      | with_reducible refine keeps_of_fst (by with_reducible assumption) ?_

theorem keeps_execLaneActivityWake (port : Fin 6) (hA : Within 0x1c0060008200000000000000000000001000000000830210030 A) (hK : Keeps A a₀ s) : KeepsRes A a₀ (execLaneActivityWake port s) := by
  unfold execLaneActivityWake
  with_reducible apply keepsRes_done
  repeat' first
      | with_reducible assumption | ((with_reducible apply sub_of hA); exact rfl) | dsimp only
      | with_reducible apply keeps_done | with_reducible apply keeps_wake
      | with_reducible refine keeps_ite (fun _ => ?_) (fun _ => ?_) | split | intro _

theorem keeps_execCueWake (n : Fin 4) (closing : Bool) (hA : Within 0x1c0060008200000000000000000000001000000000830210030 A) (hK : Keeps A a₀ s) : KeepsRes A a₀ (execCueWake n closing s) := by
  unfold execCueWake
  with_reducible apply keepsRes_done
  repeat' first
      | with_reducible assumption | ((with_reducible apply sub_of hA); exact rfl) | dsimp only
      | with_reducible apply keeps_done | with_reducible apply keeps_wake
      | with_reducible refine keeps_ite (fun _ => ?_) (fun _ => ?_) | split | intro _

theorem keeps_ktimerWrite (v : Word) (hA : Within 0x400000000000000000000000000000000000200000 A) (hK : Keeps A a₀ s) : Keeps A a₀ (ktimerWrite v s) := by
  unfold ktimerWrite
  repeat' first
      | with_reducible assumption | ((with_reducible apply sub_of hA); exact rfl) | dsimp only
      | with_reducible apply keeps_setPwr | with_reducible apply keeps_setReg
      | exact cov_KTIMER_CFG _ rfl (sub_of hA rfl) | with_reducible refine keeps_ite (fun _ => ?_) (fun _ => ?_)
      | split | intro _

theorem keeps_ktimerTick  (hA : Within 0x200000 A) (hK : Keeps A a₀ s) : Keeps A a₀ (ktimerTick s) := by
  unfold ktimerTick
  repeat' first
      | with_reducible assumption | ((with_reducible apply sub_of hA); exact rfl) | dsimp only
      | with_reducible apply keeps_setPwr | intro _

theorem keeps_execKeeperTimerExpiry  (hA : Within 0x1c0060008600000000000000000000001000000000830210030 A) (hK : Keeps A a₀ s) : KeepsRes A a₀ (execKeeperTimerExpiry s) := by
  unfold execKeeperTimerExpiry
  with_reducible apply keepsRes_done
  repeat' first
      | with_reducible assumption | ((with_reducible apply sub_of hA); exact rfl) | dsimp only
      | with_reducible apply keeps_done | with_reducible apply keeps_setPwr | with_reducible apply keeps_wake
      | with_reducible apply keeps_wr | exact cov_KTIMER_CFG _ rfl (sub_of hA rfl)
      | with_reducible refine keeps_ite (fun _ => ?_) (fun _ => ?_) | split | intro _

theorem keeps_restResume  (hA : Within 0x200000000000000000000000000000000000200000 A) (hK : Keeps A a₀ s) : Keeps A a₀ (restResume s) := by
  unfold restResume
  repeat' first
      | with_reducible assumption | ((with_reducible apply sub_of hA); exact rfl) | dsimp only
      | with_reducible apply keeps_beginRest | with_reducible refine keeps_ite (fun _ => ?_) (fun _ => ?_) | split
      | intro _

end Sys2Proof.Laws
end

