-- ==== Sys2Proof/Laws/KeepsReset.lean ====
section
/-! SUPPORT. `Keeps` for the operations of Machine/Reset.lean. -/

set_option linter.unusedTactic false
set_option linter.unreachableTactic false

namespace Sys2Proof.Laws

open Sys2Proof Sys2Proof.Machine Sys2Proof.Safety

variable {A : Nat} {a₀ s : State}

theorem keeps_recordBypass (rec_ : Bool) (hA : Within 0x4000000000100 A) (hK : Keeps A a₀ s) : Keeps A a₀ (recordBypass rec_ s) := by
  unfold recordBypass
  repeat' first
      | with_reducible assumption | ((with_reducible apply sub_of hA); exact rfl) | dsimp only
      | with_reducible apply keeps_wr | exact cov_BYPASS_STATUS _ rfl (sub_of hA rfl)
      | with_reducible refine keeps_ite (fun _ => ?_) (fun _ => ?_) | split | intro _
      | with_reducible apply keeps_part_byp

theorem reset_stores : State.reset.host.events.length ≤ 64 + 65536 ∧ State.reset.host.records.length ≤ 64 ∧
    State.reset.note.up.length ≤ 16 ∧ State.reset.glean.buf.length ≤ 256 ∧ State.reset.zwd.mbox.length = 256 ∧
    State.reset.lanes.length = 8 :=
  ⟨by decide, by decide, by decide, by decide, List.length_replicate .., by decide⟩

theorem keeps_blocksReset (kind : ResetKind) (hA : Within 0x3ffffffffffffffffffffffffffffffffffffffffffffffffff A) (h : Keeps A a₀ s) : Keeps A a₀ (blocksReset kind s) := by
  have r := reset_stores
  refine ⟨h.pending, fun i => ⟨rfl, (h.inv i).flash, r.1, r.2.1, r.2.2.1, r.2.2.2.1, r.2.2.2.2.1, r.2.2.2.2.2⟩, ?_⟩
  constructor
  · intro o ho
    exact absurd (cov_any o (sub_of hA rfl)) (ne_true_of_eq_false ho)
  all_goals exact no_of _ (sub_of hA rfl)

theorem keeps_strapsAgain (kind : ResetKind) (due : Bool) (hA : Within 0x80 A)
    (hK : Keeps A a₀ s) : Keeps A a₀ (strapsAgain kind due s) := by
  unfold strapsAgain
  repeat' first
      | with_reducible assumption | ((with_reducible apply sub_of hA); exact rfl) | dsimp only | intro _
      | with_reducible apply keeps_part_boot

theorem keeps_takeReset (kind : ResetKind) (hA : Within 0x3ffffffffffffffffffffffffffffffffffffffffffffffffff A)
    (hK : Keeps A a₀ s) : Keeps A a₀ (takeReset kind s) := by
  unfold takeReset
  repeat' first
      | with_reducible assumption | ((with_reducible apply sub_of hA); exact rfl) | dsimp only
      | with_reducible apply keeps_alertSet | with_reducible apply keeps_applyStraps
      | with_reducible apply keeps_blocksReset | with_reducible apply keeps_eachOf
      | with_reducible apply keeps_recordBypass | with_reducible apply keeps_setReg
      | with_reducible apply keeps_strapsAgain | with_reducible refine keeps_ite (fun _ => ?_) (fun _ => ?_)
      | split | intro _ | with_reducible apply reset_stores
      | ((with_reducible apply cov_any); exact sub_of hA rfl)

theorem keeps_softRequest (cause : Fld) (hA : Within 0x140060008000004000000000000000000000000008010090080 A) (hK : Keeps A a₀ s) : Keeps A a₀ (softRequest cause s) := by
  unfold softRequest
  repeat' first
      | with_reducible assumption | ((with_reducible apply sub_of hA); exact rfl) | dsimp only
      | with_reducible apply keeps_rundownAll | with_reducible apply keeps_wr
      | exact cov_RESET_CAUSE _ rfl (sub_of hA rfl) | with_reducible refine keeps_ite (fun _ => ?_) (fun _ => ?_)
      | split | intro _ | with_reducible apply keeps_part_boot

end Sys2Proof.Laws
end

