-- ==== Sys2Proof/Laws/KeepsUpQueue.lean ====
section
/-! SUPPORT. `Keeps` for the operations of Machine/UpQueue.lean. -/

set_option linter.unusedTactic false
set_option linter.unreachableTactic false

namespace Sys2Proof.Laws

open Sys2Proof Sys2Proof.Machine Sys2Proof.Safety

variable {A : Nat} {a₀ s : State}

theorem upVictim_lt (l : List UpNote) (h : l ≠ []) : upVictim l < l.length := by
  have := List.length_pos_iff.mpr h
  unfold upVictim
  dsimp only
  omega

theorem keeps_upPush (n : UpNote) (hA : Within 0x140060008000000000000000000000000000000000010010800 A) (h : Keeps A a₀ s) : Keeps A a₀ (upPush n s) := by
  unfold upPush
  dsimp only
  split
  · next hl => exact keeps_setNote _ (sub_of hA rfl) (fun _ => hl) h
  · refine keeps_count _ (sub_of hA rfl) (keeps_setNote _ (sub_of hA rfl) (fun hl => ?_) h)
    have hv := upVictim_lt (s.note.up ++ [n]) (by simp)
    rw [List.length_append, List.length_singleton] at hv
    simp only [List.length_eraseIdx, List.length_append, List.length_singleton, if_pos hv]
    omega

theorem keeps_queueUp (type : Nat) (body : List Byte) (hA : Within 0x140060008000000000000000000000000000000000010010800 A) (hK : Keeps A a₀ s) : Keeps A a₀ (queueUp type body s) := by
  unfold queueUp
  repeat' first
      | with_reducible assumption | ((with_reducible apply sub_of hA); exact rfl) | exact fun h => h | dsimp only
      | with_reducible apply keeps_setNote | with_reducible apply upVictim_lt | with_reducible apply keeps_upPush
      | intro _ | (with_reducible show List.length _ ≤ _; exact lengthNil _)

theorem keeps_queueAgain (type : Nat) (body : List Byte) (hA : Within 0x140060008000000000000000000000000000000000010010800 A) (hK : Keeps A a₀ s) : Keeps A a₀ (queueAgain type body s) := by
  unfold queueAgain
  repeat' first
      | with_reducible assumption | ((with_reducible apply sub_of hA); exact rfl) | dsimp only
      | with_reducible apply keeps_queueUp | with_reducible apply upVictim_lt | with_reducible apply keeps_upPush
      | with_reducible refine keeps_ite (fun _ => ?_) (fun _ => ?_) | split | intro _

theorem keeps_queueRepeat (type : Nat) (body : List Byte) (hA : Within 0x140060008000000000000000000000000000000000010010800 A) (hK : Keeps A a₀ s) : Keeps A a₀ (queueRepeat type body s) := by
  unfold queueRepeat
  repeat' first
      | with_reducible assumption | ((with_reducible apply sub_of hA); exact rfl) | dsimp only
      | with_reducible apply keeps_queueUp | with_reducible apply upVictim_lt | with_reducible apply keeps_upPush
      | with_reducible refine keeps_ite (fun _ => ?_) (fun _ => ?_) | split | intro _

end Sys2Proof.Laws
end

