-- ==== Sys2Proof/Laws/KeepsGlean.lean ====
section
/-! SUPPORT. `Keeps` for the operations of Machine/Glean.lean. -/

set_option linter.unusedTactic false
set_option linter.unreachableTactic false

namespace Sys2Proof.Laws

open Sys2Proof Sys2Proof.Machine Sys2Proof.Safety

variable {A : Nat} {a₀ s : State}

theorem keeps_setImageState (st : Nat) (hA : Within 0x140060048000000000000000000000000000000000010010800 A) (hK : Keeps A a₀ s) : Keeps A a₀ (setImageState st s) := by
  unfold setImageState
  repeat' first
      | with_reducible assumption | ((with_reducible apply sub_of hA); exact rfl) | dsimp only
      | with_reducible apply keeps_queueUp | with_reducible apply keeps_raise | with_reducible apply keeps_wr
      | exact cov_GLEAN_STATUS _ rfl (sub_of hA rfl) | with_reducible refine keeps_ite (fun _ => ?_) (fun _ => ?_)
      | split | intro _

theorem keeps_jWrite (code : Nat) (rest : List Byte) (hA : Within 0x8000000 A) (hK : Keeps A a₀ s) : Keeps A a₀ (jWrite code rest s) := by
  unfold jWrite
  repeat' first
      | with_reducible assumption | ((with_reducible apply sub_of hA); exact rfl) | dsimp only
      | with_reducible apply keeps_journalWrite | intro _

theorem keeps_journalErase  (hA : Within 0x8000000 A) (hK : Keeps A a₀ s) : Keeps A a₀ (journalErase s) := by
  unfold journalErase
  repeat' first
      | with_reducible assumption | ((with_reducible apply sub_of hA); exact rfl) | dsimp only
      | with_reducible apply keeps_flashEraseN | intro _

theorem keeps_copySector (dst : Nat) (src : Nat) (hA : Within 0x8000000 A) (hK : Keeps A a₀ s) : Keeps A a₀ (copySector dst src s) := by
  unfold copySector
  repeat' first
      | with_reducible assumption | ((with_reducible apply sub_of hA); exact rfl) | dsimp only
      | with_reducible apply keeps_eachOf | with_reducible apply keeps_flashErase
      | with_reducible apply keeps_flashPut | intro _

theorem keeps_swapStep (i : Nat) (step : Nat) (hA : Within 0x8000000 A) (hK : Keeps A a₀ s) : Keeps A a₀ (swapStep i step s) := by
  unfold swapStep
  repeat' first
      | with_reducible assumption | ((with_reducible apply sub_of hA); exact rfl) | dsimp only
      | with_reducible apply keeps_copySector | with_reducible apply keeps_jWrite
      | with_reducible refine keeps_ite (fun _ => ?_) (fun _ => ?_) | split | intro _

theorem keeps_swapFrom (purpose : Nat) (n : Nat) (from_ : Nat) (hA : Within 0x8000000 A) (hK : Keeps A a₀ s) : Keeps A a₀ (swapFrom purpose n from_ s) := by
  unfold swapFrom
  repeat' first
      | with_reducible assumption | ((with_reducible apply sub_of hA); exact rfl) | dsimp only
      | with_reducible apply keeps_eachOf | with_reducible apply keeps_jWrite | with_reducible apply keeps_swapStep
      | intro _

theorem keeps_swapWhole (purpose : Nat) (hA : Within 0x8000000 A) (hK : Keeps A a₀ s) : Keeps A a₀ (swapWhole purpose s) := by
  unfold swapWhole
  repeat' first
      | with_reducible assumption | ((with_reducible apply sub_of hA); exact rfl) | dsimp only
      | with_reducible apply keeps_jWrite | with_reducible apply keeps_journalErase
      | with_reducible apply keeps_swapFrom | intro _

theorem keeps_loaderActs  (hA : Within 0x8000000 A) (hK : Keeps A a₀ s) : Keeps A a₀ (loaderActs s) := by
  unfold loaderActs
  repeat' first
      | with_reducible assumption | ((with_reducible apply sub_of hA); exact rfl) | dsimp only
      | with_reducible apply keeps_jWrite | with_reducible apply keeps_swapFrom | with_reducible apply keeps_swapWhole
      | with_reducible refine keeps_ite (fun _ => ?_) (fun _ => ?_) | split | intro _

theorem keeps_startCollection (car : Nat) (pieces : Nat) (cause : Nat) (hA : Within 0x140060148000000000000000000000000000000000018810800 A) (hK : Keeps A a₀ s) : Keeps A a₀ (startCollection car pieces cause s) := by
  unfold startCollection
  repeat' first
      | with_reducible assumption | ((with_reducible apply sub_of hA); exact rfl) | exact fun h => h | dsimp only
      | with_reducible apply keeps_count | with_reducible apply keeps_flashErase
      | with_reducible apply keeps_flashProgAll | with_reducible apply keeps_raise
      | with_reducible apply keeps_setGlean | with_reducible apply keeps_setImageState | with_reducible apply keeps_wr
      | exact cov_GLEAN_STATUS _ rfl (sub_of hA rfl) | exact cov_IMAGE_STAGED _ rfl (sub_of hA rfl) | intro _
      | (with_reducible show List.length _ ≤ _; exact lengthNil _)
      | (rw [List.length_append, List.length_singleton]; omega)

theorem keeps_restartFor (p : Piece) (n : Nat) (hA : Within 0x140060148000000000000000000000000000000000018810800 A) (hK : Keeps A a₀ s) : Keeps A a₀ (restartFor p n s) := by
  unfold restartFor
  repeat' first
      | with_reducible assumption | ((with_reducible apply sub_of hA); exact rfl) | dsimp only
      | with_reducible apply keeps_startCollection | with_reducible refine keeps_ite (fun _ => ?_) (fun _ => ?_)
      | split | intro _

theorem keeps_takePiece (words : List Word) (hA : Within 0x140060148000000000000000000000000000000000018810800 A)
    (hK : Keeps A a₀ s) : Keeps A a₀ (takePiece words s) := by
  unfold takePiece
  repeat' first
      | with_reducible assumption | ((with_reducible apply sub_of hA); exact rfl)
      | (rw [List.length_append, List.length_singleton]; omega) | exact fun h => h | dsimp only
      | with_reducible apply keeps_count | with_reducible apply keeps_restartFor
      | with_reducible apply keeps_setGlean | with_reducible apply keeps_setImageState
      | with_reducible refine keeps_ite (fun _ => ?_) (fun _ => ?_) | split | intro _
      | (with_reducible show List.length _ ≤ _; exact lengthNil _)
      | (rw [List.length_append, List.length_singleton]; omega)
      | (with_reducible show List.length _ ≤ _; exact Nat.le_trans (List.length_filter_le _ _) (by assumption))
      | (with_reducible show List.length _ ≤ _; exact lengthMap _ (by assumption))
      | (with_reducible show List.length _ ≤ _; exact lengthTail (by assumption) (by assumption))

theorem keeps_execCarouselPiece (words : List Word) (hA : Within 0x140060148000000000000000000000000000000000018810a00 A)
    (hK : Keeps A a₀ s) : KeepsRes A a₀ (execCarouselPiece words s) := by
  unfold execCarouselPiece
  with_reducible apply keepsRes_done
  repeat' first
      | with_reducible assumption | ((with_reducible apply sub_of hA); exact rfl) | dsimp only
      | with_reducible apply keeps_setFrame | with_reducible apply keeps_takePiece
      | with_reducible refine keeps_ite (fun _ => ?_) (fun _ => ?_) | split | intro _ | exact fun h => h
      | (rw [List.length_append, List.length_singleton]; omega)

theorem keeps_prepareSector (sec : Nat) (hA : Within 0x8000000 A) (hK : Keeps A a₀ s) : Keeps A a₀ (prepareSector sec s) := by
  unfold prepareSector
  repeat' first
      | with_reducible assumption | ((with_reducible apply sub_of hA); exact rfl) | dsimp only
      | with_reducible apply keeps_bitmapClear | with_reducible apply keeps_flashErase
      | with_reducible refine keeps_ite (fun _ => ?_) (fun _ => ?_) | split | intro _

theorem keeps_flashFault (a : Nat) (hA : Within 0x140060008000000000000000000000000000000000010010000 A) (hK : Keeps A a₀ s) : Keeps A a₀ (flashFault a s) := by
  unfold flashFault
  repeat' first
      | with_reducible assumption | ((with_reducible apply sub_of hA); exact rfl) | dsimp only
      | with_reducible apply keeps_count | with_reducible apply keeps_raise | intro _

theorem keeps_programPiece (p : Nat) (b : List Byte) (hA : Within 0x40000000000000000000000000000000000008800000 A) (hK : Keeps A a₀ s) : Keeps A a₀ (programPiece p b s) := by
  unfold programPiece
  repeat' first
      | with_reducible assumption | ((with_reducible apply sub_of hA); exact rfl) | exact fun h => h | dsimp only
      | with_reducible apply keeps_bitmapClear | with_reducible apply keeps_eachOf
      | with_reducible apply keeps_flashProgAll | with_reducible apply keeps_prepareSector
      | with_reducible apply keeps_setGlean | with_reducible apply keeps_wr
      | exact cov_GLEAN_STATUS _ rfl (sub_of hA rfl) | with_reducible refine keeps_ite (fun _ => ?_) (fun _ => ?_)
      | split | intro _

theorem keeps_execPieceProgram (fault : Bool) (hA : Within 0x140060148000000000000000000000000000000000018810800 A) (hK : Keeps A a₀ s) : KeepsRes A a₀ (execPieceProgram fault s) := by
  unfold execPieceProgram
  with_reducible apply keepsRes_done
  repeat' first
      | with_reducible assumption | ((with_reducible apply sub_of hA); exact rfl) | exact fun h => h | dsimp only
      | with_reducible apply keeps_done | with_reducible apply keeps_flashFault
      | with_reducible apply keeps_programPiece | with_reducible apply keeps_setGlean
      | with_reducible apply keeps_startCollection | with_reducible refine keeps_ite (fun _ => ?_) (fun _ => ?_)
      | split | intro _ | with_reducible refine keeps_of_snd (by with_reducible assumption) ?_
      | with_reducible refine keeps_of_fst (by with_reducible assumption) ?_
      | (with_reducible show List.length _ ≤ _; exact lengthNil _)
      | (with_reducible show List.length _ ≤ _; exact lengthTail (by assumption) (by assumption))

theorem keeps_stagedVerified  (hA : Within 0x140060148000000000000000000000000000000000010010800 A) (hK : Keeps A a₀ s) : Keeps A a₀ (stagedVerified s) := by
  unfold stagedVerified
  repeat' first
      | with_reducible assumption | ((with_reducible apply sub_of hA); exact rfl) | dsimp only
      | with_reducible apply keeps_setImageState | with_reducible apply keeps_wr
      | exact cov_IMAGE_STAGED _ rfl (sub_of hA rfl) | intro _

theorem keeps_execGleanVerify  (hA : Within 0x140060148000000000000000000000000000000000018810800 A) (hK : Keeps A a₀ s) : KeepsRes A a₀ (execGleanVerify s) := by
  unfold execGleanVerify
  with_reducible apply keepsRes_done
  repeat' first
      | with_reducible assumption | ((with_reducible apply sub_of hA); exact rfl) | exact fun h => h | dsimp only
      | with_reducible apply keeps_count | with_reducible apply keeps_done | with_reducible apply keeps_setGlean
      | with_reducible apply keeps_stagedVerified | with_reducible apply keeps_startCollection
      | with_reducible refine keeps_ite (fun _ => ?_) (fun _ => ?_) | split | intro _

theorem keeps_gleanStart  (hA : Within 0x140060048000000000000000000000000000000000018810800 A) (hK : Keeps A a₀ s) : Keeps A a₀ (gleanStart s) := by
  unfold gleanStart
  repeat' first
      | with_reducible assumption | ((with_reducible apply sub_of hA); exact rfl) | exact fun h => h | dsimp only
      | with_reducible apply keeps_count | with_reducible apply keeps_flashErase | with_reducible apply keeps_raise
      | with_reducible apply keeps_setGlean | with_reducible apply keeps_setImageState | with_reducible apply keeps_wr
      | exact cov_GLEAN_STATUS _ rfl (sub_of hA rfl) | with_reducible refine keeps_ite (fun _ => ?_) (fun _ => ?_)
      | split | intro _

theorem keeps_stageSwap (t : Nat) (bit : Nat) (hA : Within 0x140060008000000000000000000000000000000000010810000 A) (hK : Keeps A a₀ s) : Keeps A a₀ (stageSwap t bit s) := by
  unfold stageSwap
  repeat' first
      | with_reducible assumption | ((with_reducible apply sub_of hA); exact rfl) | exact fun h => h | dsimp only
      | with_reducible apply keeps_count | with_reducible apply keeps_setGlean
      | with_reducible refine keeps_ite (fun _ => ?_) (fun _ => ?_) | split | intro _
      | with_reducible refine keeps_of_snd (by with_reducible assumption) ?_
      | with_reducible refine keeps_of_fst (by with_reducible assumption) ?_

theorem keeps_execSwapTick  (hA : Within 0x140060008000004000000000000000000000000008018890080 A) (hK : Keeps A a₀ s) : KeepsRes A a₀ (execSwapTick s) := by
  unfold execSwapTick
  with_reducible apply keepsRes_done
  repeat' first
      | with_reducible assumption | ((with_reducible apply sub_of hA); exact rfl) | exact fun h => h | dsimp only
      | with_reducible apply keeps_done | with_reducible apply keeps_jWrite | with_reducible apply keeps_setGlean
      | with_reducible apply keeps_softRequest | with_reducible refine keeps_ite (fun _ => ?_) (fun _ => ?_) | split
      | intro _ | with_reducible refine keeps_of_snd (by with_reducible assumption) ?_
      | with_reducible refine keeps_of_fst (by with_reducible assumption) ?_
      | (with_reducible show List.length _ ≤ _; exact lengthTail (by assumption) (by assumption))

theorem keeps_confirmTrial  (hA : Within 0x1400604c8000000000000000000000000000000000018010800 A) (hK : Keeps A a₀ s) : Keeps A a₀ (confirmTrial s) := by
  unfold confirmTrial
  repeat' first
      | with_reducible assumption | ((with_reducible apply sub_of hA); exact rfl) | dsimp only
      | with_reducible apply keeps_jWrite | with_reducible apply keeps_setImageState
      | with_reducible apply keeps_settingsConfirm | with_reducible apply keeps_wr
      | exact cov_IMAGE_RUNNING _ rfl (sub_of hA rfl) | intro _

theorem keeps_execTrialExpired  (hA : Within 0x140060008000004000000000000000000000000000010090080 A) (hK : Keeps A a₀ s) : KeepsRes A a₀ (execTrialExpired s) := by
  unfold execTrialExpired
  with_reducible apply keepsRes_done
  repeat' first
      | with_reducible assumption | ((with_reducible apply sub_of hA); exact rfl) | dsimp only
      | with_reducible apply keeps_count | with_reducible apply keeps_done | with_reducible apply keeps_rundownAll
      | with_reducible refine keeps_ite (fun _ => ?_) (fun _ => ?_) | split | intro _
      | with_reducible apply keeps_part_boot

theorem keeps_releaseStaging  (hA : Within 0x140060148000000000000000000000000000000000018810800 A) (hK : Keeps A a₀ s) : Keeps A a₀ (releaseStaging s) := by
  unfold releaseStaging
  repeat' first
      | with_reducible assumption | ((with_reducible apply sub_of hA); exact rfl) | exact fun h => h | dsimp only
      | with_reducible apply keeps_flashErase | with_reducible apply keeps_setGlean
      | with_reducible apply keeps_setImageState | with_reducible apply keeps_wr
      | exact cov_GLEAN_STATUS _ rfl (sub_of hA rfl) | exact cov_IMAGE_STAGED _ rfl (sub_of hA rfl) | intro _

theorem keeps_beginHostStaging  (hA : Within 0x140060148000000000000000000000000000000000018810800 A) (hK : Keeps A a₀ s) : Keeps A a₀ (beginHostStaging s) := by
  unfold beginHostStaging
  repeat' first
      | with_reducible assumption | ((with_reducible apply sub_of hA); exact rfl) | exact fun h => h | dsimp only
      | with_reducible apply keeps_flashErase | with_reducible apply keeps_flashProgAll
      | with_reducible apply keeps_setGlean | with_reducible apply keeps_setImageState | with_reducible apply keeps_wr
      | exact cov_GLEAN_STATUS _ rfl (sub_of hA rfl) | exact cov_IMAGE_STAGED _ rfl (sub_of hA rfl) | intro _
      | (with_reducible show List.length _ ≤ _; exact lengthNil _)
      | (rw [List.length_append, List.length_singleton]; omega)

theorem keeps_writeStaging (off : Nat) (b : List Byte) (hA : Within 0x8800000 A) (hK : Keeps A a₀ s) : Keeps A a₀ (writeStaging off b s) := by
  unfold writeStaging
  repeat' first
      | with_reducible assumption | ((with_reducible apply sub_of hA); exact rfl) | exact fun h => h | dsimp only
      | with_reducible apply keeps_eachOf | with_reducible apply keeps_flashProgAll
      | with_reducible apply keeps_prepareSector | with_reducible apply keeps_setGlean | intro _

end Sys2Proof.Laws
end

