-- ==== Sys2Proof/Laws/KeepsKeys.lean ====
section
/-! SUPPORT. `Keeps` for the operations of Machine/Keys.lean. -/

set_option linter.unusedTactic false
set_option linter.unreachableTactic false

namespace Sys2Proof.Laws

open Sys2Proof Sys2Proof.Machine Sys2Proof.Safety

variable {A : Nat} {a₀ s : State}

theorem keeps_drawBytes (n : Nat) (hA : Within 0x10000000 A) (hK : Keeps A a₀ s) : Keeps A a₀ (drawBytes n s).2 := by
  unfold drawBytes
  repeat' first
      | with_reducible assumption | ((with_reducible apply sub_of hA); exact rfl) | dsimp only | intro _
      | with_reducible apply keeps_part_freeCtr

theorem keeps_putSlot (n : Nat) (k : List Byte) (hA : Within 0x2000 A) (hK : Keeps A a₀ s) : Keeps A a₀ (putSlot n k s) := by
  unfold putSlot
  repeat' first
      | with_reducible assumption | ((with_reducible apply sub_of hA); exact rfl) | dsimp only
      | with_reducible apply keeps_setKey | intro _

theorem keeps_eraseSlots (p : Nat → Bool) (hA : Within 0x2000 A) (hK : Keeps A a₀ s) : Keeps A a₀ (eraseSlots p s) := by
  unfold eraseSlots
  repeat' first
      | with_reducible assumption | ((with_reducible apply sub_of hA); exact rfl) | dsimp only
      | with_reducible apply keeps_setKey | intro _

theorem keeps_disableKey (n : Nat) (hA : Within 0x140060008000000000000000000000000000000000010012000 A) (hK : Keeps A a₀ s) : Keeps A a₀ (disableKey n s) := by
  unfold disableKey
  repeat' first
      | with_reducible assumption | ((with_reducible apply sub_of hA); exact rfl) | dsimp only
      | with_reducible apply keeps_count | with_reducible apply keeps_raise | with_reducible apply keeps_setKey
      | with_reducible refine keeps_ite (fun _ => ?_) (fun _ => ?_) | split | intro _

theorem keeps_invokeKey (n : Nat) (hA : Within 0x140060008000000000000000000000000000000000010012000 A) (hK : Keeps A a₀ s) : Keeps A a₀ (invokeKey n s) := by
  unfold invokeKey
  repeat' first
      | with_reducible assumption | ((with_reducible apply sub_of hA); exact rfl) | dsimp only
      | with_reducible apply keeps_disableKey | with_reducible apply keeps_setKey
      | with_reducible refine keeps_ite (fun _ => ?_) (fun _ => ?_) | split | intro _

theorem keeps_failKey (n : Nat) (hA : Within 0x140060008000000000000000000000000000000000010012000 A) (hK : Keeps A a₀ s) : Keeps A a₀ (failKey n s) := by
  unfold failKey
  repeat' first
      | with_reducible assumption | ((with_reducible apply sub_of hA); exact rfl) | dsimp only
      | with_reducible apply keeps_disableKey | with_reducible apply keeps_setKey
      | with_reducible refine keeps_ite (fun _ => ?_) (fun _ => ?_) | split | intro _

theorem keeps_execKeyReady (terminal : Bool) (gen : BitVec 4) (hA : Within 0x2000 A) (hK : Keeps A a₀ s) : KeepsRes A a₀ (execKeyReady terminal gen s) := by
  unfold execKeyReady
  with_reducible apply keepsRes_done
  repeat' first
      | with_reducible assumption | ((with_reducible apply sub_of hA); exact rfl) | dsimp only
      | with_reducible apply keeps_done | with_reducible apply keeps_setKey | intro _

theorem keeps_execKeyErase  (hA : Within 0x2000 A) (hK : Keeps A a₀ s) : KeepsRes A a₀ (execKeyErase s) := by
  unfold execKeyErase
  with_reducible apply keepsRes_done
  repeat' first
      | with_reducible assumption | ((with_reducible apply sub_of hA); exact rfl) | dsimp only
      | with_reducible apply keeps_done | with_reducible apply keeps_eachOf | with_reducible apply keeps_eraseSlots
      | with_reducible apply keeps_setKey | intro _

theorem keeps_openContainer (cont : Nat) (tick : Nat) (ws : List Word) (hA : Within 0x140060008000000000000000000000000000000000010012000 A) (hK : Keeps A a₀ s) : Keeps A a₀ (openContainer cont tick ws s).2 := by
  unfold openContainer
  repeat' first
      | with_reducible assumption | ((with_reducible apply sub_of hA); exact rfl) | dsimp only
      | with_reducible apply keeps_count | with_reducible apply keeps_failKey | with_reducible apply keeps_invokeKey
      | with_reducible refine keeps_ite (fun _ => ?_) (fun _ => ?_)
      | with_reducible refine keeps_ite_snd (fun _ => ?_) (fun _ => ?_) | split | intro _
      | with_reducible refine keeps_of_snd (by with_reducible assumption) ?_
      | with_reducible refine keeps_of_fst (by with_reducible assumption) ?_

theorem keeps_sealBurst (tid : Nat) (start : Nat) (tick : Nat) (items : List Word) (hA : Within 0x140060008000000000000000000000000000000000010012000 A) (hK : Keeps A a₀ s) : Keeps A a₀ (sealBurst tid start tick items s).2 := by
  unfold sealBurst
  repeat' first
      | with_reducible assumption | ((with_reducible apply sub_of hA); exact rfl) | dsimp only
      | with_reducible apply keeps_count | with_reducible apply keeps_invokeKey
      | with_reducible refine keeps_ite (fun _ => ?_) (fun _ => ?_)
      | with_reducible refine keeps_ite_snd (fun _ => ?_) (fun _ => ?_) | split | intro _
      | with_reducible refine keeps_of_snd (by with_reducible assumption) ?_
      | with_reducible refine keeps_of_fst (by with_reducible assumption) ?_

theorem keeps_dropJob (up : Bool) (tag : Nat) (obj : Nat) (hA : Within 0x2000 A) (hK : Keeps A a₀ s) : Keeps A a₀ (dropJob up tag obj s) := by
  unfold dropJob
  repeat' first
      | with_reducible assumption | ((with_reducible apply sub_of hA); exact rfl) | dsimp only
      | with_reducible apply keeps_setKey | intro _

theorem keeps_demandBlocks (n : Nat) (hA : Within 0x2000 A) (hK : Keeps A a₀ s) : Keeps A a₀ (demandBlocks n s) := by
  unfold demandBlocks
  repeat' first
      | with_reducible assumption | ((with_reducible apply sub_of hA); exact rfl) | dsimp only
      | with_reducible apply keeps_setKey | intro _

theorem keeps_addJob (j : Job) (hA : Within 0x2000 A) (hK : Keeps A a₀ s) : Keeps A a₀ (addJob j s) := by
  unfold addJob
  repeat' first
      | with_reducible assumption | ((with_reducible apply sub_of hA); exact rfl) | dsimp only
      | with_reducible apply keeps_setKey | with_reducible refine keeps_ite (fun _ => ?_) (fun _ => ?_) | split
      | intro _

theorem keeps_modJob (j : Job) (f : Job → Job) (hA : Within 0x2000 A)
    (hK : Keeps A a₀ s) : Keeps A a₀ (modJob j f s) := by
  unfold modJob
  repeat' first
      | with_reducible assumption | ((with_reducible apply sub_of hA); exact rfl) | dsimp only
      | with_reducible apply keeps_setKey | with_reducible refine keeps_ite (fun _ => ?_) (fun _ => ?_) | split
      | intro _

theorem keeps_startCore (c : Nat) (hA : Within 0x2000 A) (hK : Keeps A a₀ s) : Keeps A a₀ (startCore s c) := by
  unfold startCore
  repeat' first
      | with_reducible assumption | ((with_reducible apply sub_of hA); exact rfl) | dsimp only
      | with_reducible apply keeps_modJob | with_reducible refine keeps_ite (fun _ => ?_) (fun _ => ?_) | split
      | intro _ | with_reducible refine keeps_of_snd (by with_reducible assumption) ?_
      | with_reducible refine keeps_of_fst (by with_reducible assumption) ?_

theorem keeps_startCores (hA : Within 0x2000 A) (hK : Keeps A a₀ s) : Keeps A a₀ (startCores s) := by
  unfold startCores
  repeat' first
      | with_reducible assumption | ((with_reducible apply sub_of hA); exact rfl) | dsimp only
      | with_reducible apply keeps_eachOf | with_reducible apply keeps_startCore
      | with_reducible refine keeps_ite (fun _ => ?_) (fun _ => ?_) | split | intro _

theorem keeps_cipherTick  (hA : Within 0x200000000000000002000 A) (hK : Keeps A a₀ s) : Keeps A a₀ (cipherTick s) := by
  unfold cipherTick
  repeat' first
      | with_reducible assumption | ((with_reducible apply sub_of hA); exact rfl) | dsimp only
      | with_reducible apply keeps_setKey | with_reducible apply keeps_wr
      | exact cov_CIPHER_LOAD _ rfl (sub_of hA rfl) | intro _

theorem keeps_eraseOnRelease  (hA : Within 0x2000 A) (hK : Keeps A a₀ s) : Keeps A a₀ (eraseOnRelease s) := by
  unfold eraseOnRelease
  repeat' first
      | with_reducible assumption | ((with_reducible apply sub_of hA); exact rfl) | dsimp only
      | with_reducible apply keeps_eraseSlots | intro _

theorem keeps_eraseOnClear  (hA : Within 0x2000 A) (hK : Keeps A a₀ s) : Keeps A a₀ (eraseOnClear s) := by
  unfold eraseOnClear
  repeat' first
      | with_reducible assumption | ((with_reducible apply sub_of hA); exact rfl) | dsimp only
      | with_reducible apply keeps_eraseSlots | with_reducible apply keeps_setKey | intro _

theorem keeps_keyLoad (body : List Byte) (hA : Within 0x2000 A) (hK : Keeps A a₀ s) : Keeps A a₀ (keyLoad body s).2 := by
  unfold keyLoad
  repeat' first
      | with_reducible assumption | ((with_reducible apply sub_of hA); exact rfl) | dsimp only
      | with_reducible apply keeps_putSlot | with_reducible apply keeps_setKey
      | with_reducible refine keeps_ite (fun _ => ?_) (fun _ => ?_)
      | with_reducible refine keeps_ite_snd (fun _ => ?_) (fun _ => ?_) | split | intro _
      | with_reducible refine keeps_of_snd (by with_reducible assumption) ?_
      | with_reducible refine keeps_of_fst (by with_reducible assumption) ?_

theorem keeps_execEntropyFail (samples : List Byte) (hA : Within 0x140060008000000000000000000000400000000000010012000 A)
    (hK : Keeps A a₀ s) : KeepsRes A a₀ (execEntropyFail samples s) := by
  unfold execEntropyFail
  with_reducible apply keepsRes_done
  repeat' first
      | with_reducible assumption | ((with_reducible apply sub_of hA); exact rfl) | dsimp only
      | with_reducible apply keeps_count | with_reducible apply keeps_raise | with_reducible apply keeps_setKey
      | with_reducible apply keeps_wr | exact cov_ENTROPY_STATUS _ rfl (sub_of hA rfl)
      | with_reducible refine keeps_ite (fun _ => ?_) (fun _ => ?_) | split | intro _

theorem keeps_execDrbgReseed (samples : List Byte) (hA : Within 0x140060008000000000000000000000800000000000010010000 A)
    (hK : Keeps A a₀ s) : KeepsRes A a₀ (execDrbgReseed samples s) := by
  unfold execDrbgReseed
  with_reducible apply keepsRes_done
  repeat' first
      | with_reducible assumption | ((with_reducible apply sub_of hA); exact rfl) | dsimp only
      | with_reducible apply keeps_count | with_reducible apply keeps_wr
      | exact cov_DRBG_STATUS _ rfl (sub_of hA rfl)
      | with_reducible refine keeps_ite (fun _ => ?_) (fun _ => ?_) | split | intro _

theorem keeps_entropyBack  (hA : Within 0x400000000000000000000 A) (hK : Keeps A a₀ s) : Keeps A a₀ (entropyBack s) := by
  unfold entropyBack
  repeat' first
      | with_reducible assumption | ((with_reducible apply sub_of hA); exact rfl) | dsimp only
      | with_reducible apply keeps_wr | exact cov_ENTROPY_STATUS _ rfl (sub_of hA rfl)
      | with_reducible refine keeps_ite (fun _ => ?_) (fun _ => ?_) | split | intro _

theorem keeps_execDrbgReinstantiate (samples : List Byte) (hA : Within 0xc00000000000000002000 A)
    (hK : Keeps A a₀ s) : KeepsRes A a₀ (execDrbgReinstantiate samples s) := by
  unfold execDrbgReinstantiate
  with_reducible apply keepsRes_done
  repeat' first
      | with_reducible assumption | ((with_reducible apply sub_of hA); exact rfl) | dsimp only
      | with_reducible apply keeps_entropyBack | with_reducible apply keeps_startCores
      | with_reducible apply keeps_wr | exact cov_DRBG_STATUS _ rfl (sub_of hA rfl)
      | with_reducible refine keeps_ite (fun _ => ?_) (fun _ => ?_) | split | intro _

theorem keeps_execEntropyRetestPass (samples : List Byte) (hA : Within 0x400000000000000000000 A)
    (hK : Keeps A a₀ s) : KeepsRes A a₀ (execEntropyRetestPass samples s) := by
  unfold execEntropyRetestPass
  with_reducible apply keepsRes_done
  repeat' first
      | with_reducible assumption | ((with_reducible apply sub_of hA); exact rfl) | dsimp only
      | with_reducible apply keeps_entropyBack | with_reducible refine keeps_ite (fun _ => ?_) (fun _ => ?_)
      | split | intro _

theorem keeps_sigRun (op : SigOp) (hA : Within 0x10000000 A) (hK : Keeps A a₀ s) : Keeps A a₀ (sigRun op s).2.2 := by
  unfold sigRun
  repeat' first
      | with_reducible assumption | ((with_reducible apply sub_of hA); exact rfl) | dsimp only
      | with_reducible apply keeps_drawBytes | with_reducible refine keeps_ite (fun _ => ?_) (fun _ => ?_)
      | with_reducible refine keeps_ite_snd (fun _ => ?_) (fun _ => ?_) | split | intro _
      | with_reducible refine keeps_of_snd (by with_reducible assumption) ?_
      | with_reducible refine keeps_of_fst (by with_reducible assumption) ?_

theorem keeps_execSigOpDone (op : SigOp) (hA : Within 0x140060008000000000000000000001000000000000030010000 A) (hK : Keeps A a₀ s) : KeepsRes A a₀ (execSigOpDone op s) := by
  unfold execSigOpDone
  with_reducible apply keepsRes_done
  repeat' first
      | with_reducible assumption | ((with_reducible apply sub_of hA); exact rfl) | dsimp only
      | with_reducible apply keeps_count | with_reducible apply keeps_done | with_reducible apply keeps_emit
      | with_reducible apply keeps_sigRun | with_reducible apply keeps_whenB | with_reducible apply keeps_wr
      | exact cov_SIG_STATUS _ rfl (sub_of hA rfl) | with_reducible refine keeps_ite (fun _ => ?_) (fun _ => ?_)
      | with_reducible refine keeps_ite_snd (fun _ => ?_) (fun _ => ?_) | split | intro _
      | with_reducible refine keeps_of_snd (by with_reducible assumption) ?_
      | with_reducible refine keeps_of_fst (by with_reducible assumption) ?_

end Sys2Proof.Laws
end

