-- ==== Sys2Proof/Laws/KeepsLaneTest.lean ====
section
/-! SUPPORT. `Keeps` for the operations of Machine/LaneTest.lean. -/

set_option linter.unusedTactic false
set_option linter.unreachableTactic false

namespace Sys2Proof.Laws

open Sys2Proof Sys2Proof.Machine Sys2Proof.Safety

variable {A : Nat} {a₀ s : State}

theorem keeps_laneEqWrite (n : Nat) (v : Word) (hA : Within 0x1400000000000000 A)
    (hK : Keeps A a₀ s) : Keeps A a₀ (laneEqWrite n v s) := by
  unfold laneEqWrite
  repeat' first
      | with_reducible assumption | ((with_reducible apply sub_of hA); exact rfl) | dsimp only
      | with_reducible apply keeps_setReg | with_reducible apply keeps_wr
      | exact cov_LANE_STATUS _ _ rfl (sub_of hA rfl) | exact cov_LANE_EQ _ _ rfl (sub_of hA rfl)
      | with_reducible refine keeps_ite (fun _ => ?_) (fun _ => ?_) | split | intro _

theorem keeps_refuseTest (n : Nat) (cause : Nat) (hA : Within 0x140061008000000000000000000000000000000000010010000 A) (hK : Keeps A a₀ s) : Keeps A a₀ (refuseTest n cause s) := by
  unfold refuseTest
  repeat' first
      | with_reducible assumption | ((with_reducible apply sub_of hA); exact rfl) | dsimp only
      | with_reducible apply keeps_raise | with_reducible apply keeps_wr
      | exact cov_LANE_PRBS_STATUS _ _ rfl (sub_of hA rfl) | intro _

theorem keeps_laneWritten (n off : Nat) (starts : Bool) (hA : Within 0x340060008000000000000000000000000000000000011010000 A)
    (hK : Keeps A a₀ s) : Keeps A a₀ (laneWritten n off starts s) := by
  unfold laneWritten
  repeat' first
      | with_reducible assumption | ((with_reducible apply sub_of hA); exact rfl) | dsimp only
      | with_reducible apply keeps_boundaryWrite | with_reducible apply keeps_setLane
      | with_reducible refine keeps_ite (fun _ => ?_) (fun _ => ?_) | split | intro _

theorem keeps_prbsCfgWrite (n : Nat) (v : Word) (hA : Within 0x340061808000000000000000000000000000000000011010000 A)
    (hK : Keeps A a₀ s) : Keeps A a₀ (prbsCfgWrite n v s) := by
  unfold prbsCfgWrite
  repeat' first
      | with_reducible assumption | ((with_reducible apply sub_of hA); exact rfl) | dsimp only
      | with_reducible apply keeps_laneWritten | with_reducible apply keeps_refuseTest
      | with_reducible apply keeps_setReg | exact cov_LANE_PRBS_CFG _ _ rfl (sub_of hA rfl)
      | with_reducible refine keeps_ite (fun _ => ?_) (fun _ => ?_) | split | intro _

theorem keeps_laneLoopWrite (n : Nat) (v : Word) (hA : Within 0x340071008000000000000000000000000000000000011010000 A)
    (hK : Keeps A a₀ s) : Keeps A a₀ (laneLoopWrite n v s) := by
  unfold laneLoopWrite
  repeat' first
      | with_reducible assumption | ((with_reducible apply sub_of hA); exact rfl) | dsimp only
      | with_reducible apply keeps_laneWritten | with_reducible apply keeps_refuseTest
      | with_reducible apply keeps_setReg | exact cov_LANE_LOOP _ _ rfl (sub_of hA rfl)
      | with_reducible refine keeps_ite (fun _ => ?_) (fun _ => ?_) | split | intro _

theorem keeps_placeErrors (n k : Nat) (hA : Within 0x20000000 A) (hK : Keeps A a₀ s) : Keeps A a₀ (placeErrors n k s) := by
  unfold placeErrors
  repeat' first
      | with_reducible assumption | ((with_reducible apply sub_of hA); exact rfl) | dsimp only
      | with_reducible apply keeps_emit | intro _

theorem keeps_injectWrite (n : Nat) (v : Word) (hA : Within 0x140069008000000000000000000000000000000000031010000 A)
    (hK : Keeps A a₀ s) : Keeps A a₀ (injectWrite n v s) := by
  unfold injectWrite
  repeat' first
      | with_reducible assumption | ((with_reducible apply sub_of hA); exact rfl) | dsimp only
      | with_reducible apply keeps_placeErrors | with_reducible apply keeps_refuseTest
      | with_reducible apply keeps_setLane | with_reducible apply keeps_setReg | with_reducible apply keeps_wr
      | exact cov_LANE_INJECT _ _ rfl (sub_of hA rfl)
      | with_reducible refine keeps_ite (fun _ => ?_) (fun _ => ?_) | split | intro _
      | with_reducible refine keeps_of_snd (by with_reducible assumption) ?_
      | with_reducible refine keeps_of_fst (by with_reducible assumption) ?_

theorem keeps_injectTick (n : Nat) (hA : Within 0x8000000000000000000000000000000000000021000000 A) (hK : Keeps A a₀ s) : Keeps A a₀ (injectTick n s) := by
  unfold injectTick
  repeat' first
      | with_reducible assumption | ((with_reducible apply sub_of hA); exact rfl) | dsimp only
      | with_reducible apply keeps_placeErrors | with_reducible apply keeps_setLane
      | with_reducible apply keeps_wr | exact cov_LANE_INJECT _ _ rfl (sub_of hA rfl)
      | with_reducible refine keeps_ite (fun _ => ?_) (fun _ => ?_) | split | intro _
      | with_reducible refine keeps_of_snd (by with_reducible assumption) ?_
      | with_reducible refine keeps_of_fst (by with_reducible assumption) ?_

theorem keeps_satAdd (off n : Nat) (hc : Reach.reg A off = true) (h : Keeps A a₀ s) : Keeps A a₀ (satAdd off n s) :=
  keeps_setReg _ _ hc h

theorem keeps_laneBoundary (n : Nat) (hA : Within 0x1000000 A) (hK : Keeps A a₀ s) : Keeps A a₀ (laneBoundary n s) := by
  unfold laneBoundary
  repeat' first
      | with_reducible assumption | ((with_reducible apply sub_of hA); exact rfl) | dsimp only
      | with_reducible apply keeps_setLane | intro _

theorem keeps_checkLane (n : Nat) (bits : List Bool) (hA : Within 0x7000000000000000000000000000000000000001000000 A)
    (hK : Keeps A a₀ s) : Keeps A a₀ (checkLane n bits s) := by
  unfold checkLane
  repeat' first
      | with_reducible assumption | ((with_reducible apply sub_of hA); exact rfl) | dsimp only
      | with_reducible apply keeps_satAdd | with_reducible apply keeps_setLane
      | with_reducible apply keeps_whenB | with_reducible apply keeps_wr
      | exact cov_LANE_PRBS_STATUS _ _ rfl (sub_of hA rfl) | exact cov_LANE_PRBS_ERR _ _ rfl (sub_of hA rfl)
      | exact cov_LANE_PRBS_BITS _ _ rfl (sub_of hA rfl)
      | with_reducible refine keeps_ite (fun _ => ?_) (fun _ => ?_) | split | intro _

theorem keeps_laneTick (n : Nat) (bits : List Bool) (hA : Within 0xf000000000000000000000000000000000000021000000 A)
    (hK : Keeps A a₀ s) : Keeps A a₀ (laneTick n bits s) := by
  unfold laneTick
  repeat' first
      | with_reducible assumption | ((with_reducible apply sub_of hA); exact rfl) | dsimp only
      | with_reducible apply keeps_checkLane | with_reducible apply keeps_injectTick
      | with_reducible apply keeps_laneBoundary | with_reducible apply keeps_setLane
      | with_reducible apply keeps_wr | exact cov_LANE_PRBS_STATUS _ _ rfl (sub_of hA rfl)
      | with_reducible refine keeps_ite (fun _ => ?_) (fun _ => ?_) | split | intro _

theorem keeps_endSpanTests (hA : Within 0x1000000 A) (hK : Keeps A a₀ s) : Keeps A a₀ (endSpanTests s) := by
  unfold endSpanTests
  repeat' first
      | with_reducible assumption | ((with_reducible apply sub_of hA); exact rfl) | dsimp only
      | with_reducible apply keeps_setLane | with_reducible refine keeps_ite (fun _ => ?_) (fun _ => ?_) | split
      | intro _

theorem keeps_execCheckerLock (lane : Fin 8) (bits : List Bool) (hA : Within 0x7000000000000000000000000000000000000001000000 A)
    (hK : Keeps A a₀ s) : KeepsRes A a₀ (execCheckerLock lane bits s) := by
  unfold execCheckerLock
  with_reducible apply keepsRes_done
  repeat' first
      | with_reducible assumption | ((with_reducible apply sub_of hA); exact rfl) | dsimp only
      | with_reducible apply keeps_checkLane | intro _

theorem keeps_execSyncLoss (lane : Fin 8) (bits : List Bool) (hA : Within 0x7000000000000000000000000000000000000001000000 A)
    (hK : Keeps A a₀ s) : KeepsRes A a₀ (execSyncLoss lane bits s) := by
  unfold execSyncLoss
  with_reducible apply keepsRes_done
  repeat' first
      | with_reducible assumption | ((with_reducible apply sub_of hA); exact rfl) | dsimp only
      | with_reducible apply keeps_checkLane | intro _

end Sys2Proof.Laws
end

