-- ==== Sys2Proof/Laws/KeepsSpan.lean ====
section
/-! SUPPORT. `Keeps` for the operations of Machine/Span.lean. -/

set_option linter.unusedTactic false
set_option linter.unreachableTactic false

namespace Sys2Proof.Laws

open Sys2Proof Sys2Proof.Machine Sys2Proof.Safety

variable {A : Nat} {a₀ s : State}

theorem keeps_countSide (west : Nat) (sd : Side) (hA : Within 0x140060008000000000000000000000000000000000010010000 A) (hK : Keeps A a₀ s) : Keeps A a₀ (countSide west sd s) := by
  unfold countSide
  repeat' first
      | with_reducible assumption | ((with_reducible apply sub_of hA); exact rfl) | dsimp only
      | with_reducible apply keeps_count | intro _

theorem keeps_setTrk (sd : Side) (f : Track → Track) (hA : Within 0x200 A) (hK : Keeps A a₀ s) : Keeps A a₀ (setTrk sd f s) := by
  unfold setTrk
  repeat' first
      | with_reducible assumption | ((with_reducible apply sub_of hA); exact rfl) | dsimp only
      | with_reducible apply keeps_setFrame | split | intro _
      | with_reducible refine keeps_of_snd (by with_reducible assumption) ?_
      | with_reducible refine keeps_of_fst (by with_reducible assumption) ?_

theorem keeps_sendAt (port : Side) (mk : Bool → List (Bool × Word) → Output) (ws : List (Bool × Word)) (hA : Within 0x60000000 A)
    (hK : Keeps A a₀ s) : Keeps A a₀ (sendAt port mk ws s) := by
  unfold sendAt
  repeat' first
      | with_reducible assumption | ((with_reducible apply sub_of hA); exact rfl) | dsimp only
      | with_reducible apply keeps_emit | with_reducible apply keeps_setSpan | intro _

theorem keeps_sendPath (path : Side) (mk : Side → Bool → List (Bool × Word) → Output) (ws : List (Bool × Word)) (hA : Within 0x60000000 A)
    (hK : Keeps A a₀ s) : Keeps A a₀ (sendPath path mk ws s) := by
  unfold sendPath
  repeat' first
      | with_reducible assumption | ((with_reducible apply sub_of hA); exact rfl) | dsimp only
      | with_reducible apply keeps_sendAt | with_reducible apply keeps_whenB | intro _

theorem keeps_fillAt (path port : Side) (hA : Within 0x20000000 A)
    (hK : Keeps A a₀ s) : Keeps A a₀ (fillAt path port s) := by
  unfold fillAt
  repeat' first
      | with_reducible assumption | ((with_reducible apply sub_of hA); exact rfl) | dsimp only
      | with_reducible apply keeps_emit | with_reducible apply keeps_whenB | intro _

theorem keeps_fillSent (path port : Side) (n : Nat) (hA : Within 0x50000000 A)
    (hK : Keeps A a₀ s) : Keeps A a₀ (fillSent path port n s) := by
  unfold fillSent
  repeat' first
      | with_reducible assumption | ((with_reducible apply sub_of hA); exact rfl) | dsimp only
      | with_reducible apply keeps_fresh | with_reducible apply keeps_setSpan
      | with_reducible refine keeps_ite (fun _ => ?_) (fun _ => ?_)
      | with_reducible refine keeps_ite_snd (fun _ => ?_) (fun _ => ?_) | split | intro _
      | with_reducible refine keeps_of_snd (by with_reducible assumption) ?_
      | with_reducible refine keeps_of_fst (by with_reducible assumption) ?_

theorem keeps_cutWin (w : Win) (hA : Within 0x140060008000000000000000000000000000000000010011000 A) (hK : Keeps A a₀ s) : Keeps A a₀ (cutWin w s) := by
  unfold cutWin
  repeat' first
      | with_reducible assumption | ((with_reducible apply sub_of hA); exact rfl) | dsimp only
      | with_reducible apply keeps_count | with_reducible apply keeps_setWin
      | with_reducible refine keeps_ite (fun _ => ?_) (fun _ => ?_) | split | intro _

theorem keeps_setOpen (sd : Side) (o : Option Win) (hA : Within 0x1000 A)
    (hK : Keeps A a₀ s) : Keeps A a₀ (setOpen sd o s) := by
  unfold setOpen
  repeat' first
      | with_reducible assumption | ((with_reducible apply sub_of hA); exact rfl) | dsimp only
      | with_reducible apply keeps_setWin | with_reducible refine keeps_ite (fun _ => ?_) (fun _ => ?_) | split
      | intro _

theorem keeps_cutSide (sd : Side) (lost : Bool) (hA : Within 0x140060008000000000000000000000000000000000010011000 A)
    (hK : Keeps A a₀ s) : Keeps A a₀ (cutSide sd lost s) := by
  unfold cutSide
  repeat' first
      | with_reducible assumption | ((with_reducible apply sub_of hA); exact rfl) | dsimp only
      | with_reducible apply keeps_cutWin | with_reducible apply keeps_setOpen
      | with_reducible apply keeps_setWin | with_reducible apply keeps_whenB | split | intro _
      | with_reducible refine keeps_of_snd (by with_reducible assumption) ?_
      | with_reducible refine keeps_of_fst (by with_reducible assumption) ?_

theorem keeps_cutWindows (hA : Within 0x140060008000000000000000000000000000000000010011000 A) (hK : Keeps A a₀ s) : Keeps A a₀ (cutWindows s) := by
  unfold cutWindows
  repeat' first
      | with_reducible assumption | ((with_reducible apply sub_of hA); exact rfl) | dsimp only
      | with_reducible apply keeps_cutSide | with_reducible apply keeps_setWin | intro _

theorem keeps_measBreak (hA : Within 0x400 A) (hK : Keeps A a₀ s) : Keeps A a₀ (measBreak s) := by
  unfold measBreak
  repeat' first
      | with_reducible assumption | ((with_reducible apply sub_of hA); exact rfl) | dsimp only
      | with_reducible apply keeps_setRegn | intro _

theorem keeps_loseTrack (sd : Side) (hA : Within 0x140060008000000000000000000000000000300000050010600 A) (hK : Keeps A a₀ s) : Keeps A a₀ (loseTrack sd s) := by
  unfold loseTrack
  repeat' first
      | with_reducible assumption | ((with_reducible apply sub_of hA); exact rfl) | dsimp only
      | with_reducible apply keeps_measBreak | with_reducible apply keeps_raise
      | with_reducible apply keeps_setSpan | with_reducible apply keeps_setTrk | with_reducible apply keeps_wr
      | exact cov_rep _ _ rfl (sub_of hA rfl) | with_reducible refine keeps_ite (fun _ => ?_) (fun _ => ?_)
      | split | intro _

theorem keeps_startFill (sd : Side) (hA : Within 0x140060008000000000000000000000000000300000070010000 A) (hK : Keeps A a₀ s) : Keeps A a₀ (startFill sd s) := by
  unfold startFill
  repeat' first
      | with_reducible assumption | ((with_reducible apply sub_of hA); exact rfl) | dsimp only
      | with_reducible apply keeps_countSide | with_reducible apply keeps_fillAt
      | with_reducible apply keeps_setSpan | with_reducible apply keeps_wr
      | exact cov_rep _ _ rfl (sub_of hA rfl) | with_reducible refine keeps_ite (fun _ => ?_) (fun _ => ?_)
      | split | intro _

theorem keeps_inputAbsent (sd : Side) (hA : Within 0x140060008000000000000000000000000000300000070011600 A) (hK : Keeps A a₀ s) : Keeps A a₀ (inputAbsent sd s) := by
  unfold inputAbsent
  repeat' first
      | with_reducible assumption | ((with_reducible apply sub_of hA); exact rfl) | dsimp only
      | with_reducible apply keeps_cutSide | with_reducible apply keeps_loseTrack
      | with_reducible apply keeps_startFill | intro _

theorem keeps_unlock (sd : Side) (hA : Within 0x1000000000000000 A) (hK : Keeps A a₀ s) : Keeps A a₀ (unlock sd s) := by
  unfold unlock
  repeat' first
      | with_reducible assumption | ((with_reducible apply sub_of hA); exact rfl) | dsimp only
      | with_reducible apply keeps_wr | exact cov_LANE_STATUS _ _ rfl (sub_of hA rfl) | intro _

theorem keeps_loseLock (sd : Side) (hA : Within 0x140060008000000000000000000000000001300000070011600 A) (hK : Keeps A a₀ s) : Keeps A a₀ (loseLock sd s) := by
  unfold loseLock
  repeat' first
      | with_reducible assumption | ((with_reducible apply sub_of hA); exact rfl) | dsimp only
      | with_reducible apply keeps_inputAbsent | with_reducible apply keeps_raise | with_reducible apply keeps_unlock
      | with_reducible refine keeps_ite (fun _ => ?_) (fun _ => ?_) | split | intro _

theorem keeps_countFault (sd : Side) (w : RxWord) (hA : Within 0x140060008000000000000000000000000000000000010010000 A) (hK : Keeps A a₀ s) : Keeps A a₀ (countFault sd s w) := by
  unfold countFault
  repeat' first
      | with_reducible assumption | ((with_reducible apply sub_of hA); exact rfl) | dsimp only
      | with_reducible apply keeps_countSide | with_reducible refine keeps_ite (fun _ => ?_) (fun _ => ?_) | split
      | intro _

theorem keeps_keepRd (sd : Side) (ws : List RxWord) (hA : Within 0x1000000000000000 A)
    (hK : Keeps A a₀ s) : Keeps A a₀ (keepRd sd ws s) := by
  unfold keepRd
  repeat' first
      | with_reducible assumption | ((with_reducible apply sub_of hA); exact rfl) | dsimp only
      | with_reducible apply keeps_wr | exact cov_LANE_STATUS _ _ rfl (sub_of hA rfl) | split | intro _
      | with_reducible refine keeps_of_snd (by with_reducible assumption) ?_
      | with_reducible refine keeps_of_fst (by with_reducible assumption) ?_

theorem keeps_execWordLock (side : Side) (words : List RxWord) (hA : Within 0x1000000040000000 A)
    (hK : Keeps A a₀ s) : KeepsRes A a₀ (execWordLock side words s) := by
  unfold execWordLock
  with_reducible apply keepsRes_done
  repeat' first
      | with_reducible assumption | ((with_reducible apply sub_of hA); exact rfl) | dsimp only
      | with_reducible apply keeps_keepRd | with_reducible apply keeps_setSpan | with_reducible apply keeps_wr
      | exact cov_LANE_STATUS _ _ rfl (sub_of hA rfl)
      | with_reducible refine keeps_ite (fun _ => ?_) (fun _ => ?_) | split | intro _

theorem keeps_execWordLockLost (side : Side) (cause : LockLoss) (hA : Within 0x140060008000000000000000000000000001300000070011600 A)
    (hK : Keeps A a₀ s) : KeepsRes A a₀ (execWordLockLost side cause s) := by
  unfold execWordLockLost
  with_reducible apply keepsRes_done
  repeat' first
      | with_reducible assumption | ((with_reducible apply sub_of hA); exact rfl) | dsimp only
      | with_reducible apply keeps_loseLock | with_reducible apply keeps_setSpan
      | with_reducible refine keeps_ite (fun _ => ?_) (fun _ => ?_) | split | intro _
      | with_reducible refine keeps_of_snd (by with_reducible assumption) ?_
      | with_reducible refine keeps_of_fst (by with_reducible assumption) ?_

theorem keeps_execSpanLos (side : Side) (pin cdrLock : Bool) (words : List RxWord) (hA : Within 0x140060008000000000000000000000000001300000070011600 A)
    (hK : Keeps A a₀ s) : KeepsRes A a₀ (execSpanLos side pin cdrLock words s) := by
  unfold execSpanLos
  with_reducible apply keepsRes_done
  repeat' first
      | with_reducible assumption | ((with_reducible apply sub_of hA); exact rfl) | dsimp only
      | with_reducible apply keeps_countSide | with_reducible apply keeps_loseLock
      | with_reducible apply keeps_raise | with_reducible apply keeps_setSpan | with_reducible apply keeps_whenB
      | with_reducible apply keeps_wr | exact cov_LANE_STATUS _ _ rfl (sub_of hA rfl)
      | with_reducible refine keeps_ite (fun _ => ?_) (fun _ => ?_) | split | intro _

theorem keeps_execLossOfSignalEnd (side : Side) (pin : Bool) (w : RxWord) (hA : Within 0x1000000000000000 A)
    (hK : Keeps A a₀ s) : KeepsRes A a₀ (execLossOfSignalEnd side pin w s) := by
  unfold execLossOfSignalEnd
  with_reducible apply keepsRes_done
  repeat' first
      | with_reducible assumption | ((with_reducible apply sub_of hA); exact rfl) | dsimp only
      | with_reducible apply keeps_wr | exact cov_LANE_STATUS _ _ rfl (sub_of hA rfl)
      | with_reducible refine keeps_ite (fun _ => ?_) (fun _ => ?_) | split | intro _

theorem keeps_startAdapt (n : Nat) (hA : Within 0x1000000000000000 A) (hK : Keeps A a₀ s) : Keeps A a₀ (startAdapt n s) := by
  unfold startAdapt
  repeat' first
      | with_reducible assumption | ((with_reducible apply sub_of hA); exact rfl) | dsimp only
      | with_reducible apply keeps_wr | exact cov_LANE_STATUS _ _ rfl (sub_of hA rfl)
      | with_reducible refine keeps_ite (fun _ => ?_) (fun _ => ?_) | split | intro _

theorem keeps_execCdrLock (lane : Fin 8) (hA : Within 0x1000000001000000 A)
    (hK : Keeps A a₀ s) : KeepsRes A a₀ (execCdrLock lane s) := by
  unfold execCdrLock
  with_reducible apply keepsRes_done
  repeat' first
      | with_reducible assumption | ((with_reducible apply sub_of hA); exact rfl) | dsimp only
      | with_reducible apply keeps_setLane | with_reducible apply keeps_startAdapt
      | with_reducible apply keeps_wr | exact cov_LANE_STATUS _ _ rfl (sub_of hA rfl)
      | with_reducible refine keeps_ite (fun _ => ?_) (fun _ => ?_) | split | intro _

theorem keeps_execEqSweepDone (lane : Fin 8) (spreads : List (Option Nat)) (hA : Within 0x140060008000000000000000000000000001000000010010000 A) (hK : Keeps A a₀ s) : KeepsRes A a₀ (execEqSweepDone lane spreads s) := by
  unfold execEqSweepDone
  with_reducible apply keepsRes_done
  repeat' first
      | with_reducible assumption | ((with_reducible apply sub_of hA); exact rfl) | dsimp only
      | with_reducible apply keeps_count | with_reducible apply keeps_done | with_reducible apply keeps_wr
      | exact cov_LANE_STATUS _ _ rfl (sub_of hA rfl) | with_reducible refine keeps_ite (fun _ => ?_) (fun _ => ?_)
      | split | intro _ | with_reducible refine keeps_of_snd (by with_reducible assumption) ?_
      | with_reducible refine keeps_of_fst (by with_reducible assumption) ?_

theorem keeps_execEqTrack (lane : Fin 8) (below : Nat) (now : Nat) (above : Nat) (hA : Within 0x1000000000000000 A) (hK : Keeps A a₀ s) : KeepsRes A a₀ (execEqTrack lane below now above s) := by
  unfold execEqTrack
  with_reducible apply keepsRes_done
  repeat' first
      | with_reducible assumption | ((with_reducible apply sub_of hA); exact rfl) | dsimp only
      | with_reducible apply keeps_done | with_reducible apply keeps_wr
      | exact cov_LANE_STATUS _ _ rfl (sub_of hA rfl) | with_reducible refine keeps_ite (fun _ => ?_) (fun _ => ?_)
      | split | intro _

theorem keeps_execFillEnd (side : Side) (sent : Nat) (hA : Within 0x300000050000000 A)
    (hK : Keeps A a₀ s) : KeepsRes A a₀ (execFillEnd side sent s) := by
  unfold execFillEnd
  with_reducible apply keepsRes_done
  repeat' first
      | with_reducible assumption | ((with_reducible apply sub_of hA); exact rfl) | dsimp only
      | with_reducible apply keeps_fillSent | with_reducible apply keeps_setSpan | with_reducible apply keeps_wr
      | exact cov_rep _ _ rfl (sub_of hA rfl) | with_reducible refine keeps_ite (fun _ => ?_) (fun _ => ?_)
      | split | intro _

theorem keeps_execHeadlandDecision (side : Side) (occ : BitVec 6) (words : List RxWord) (hA : Within 0x140060008000000000000000000000000000300000050010000 A)
    (hK : Keeps A a₀ s) : KeepsRes A a₀ (execHeadlandDecision side occ words s) := by
  unfold execHeadlandDecision
  with_reducible apply keepsRes_done
  repeat' first
      | with_reducible assumption | ((with_reducible apply sub_of hA); exact rfl) | dsimp only
      | with_reducible apply keeps_countSide | with_reducible apply keeps_raise
      | with_reducible apply keeps_setSpan | with_reducible apply keeps_whenB | with_reducible apply keeps_wr
      | exact cov_rep _ _ rfl (sub_of hA rfl) | with_reducible refine keeps_ite (fun _ => ?_) (fun _ => ?_)
      | split | intro _ | with_reducible refine keeps_of_snd (by with_reducible assumption) ?_
      | with_reducible refine keeps_of_fst (by with_reducible assumption) ?_

theorem keeps_execStoreReset (side : Side) (hA : Within 0x140060008000000000000000000000000000300000070011000 A)
    (hK : Keeps A a₀ s) : KeepsRes A a₀ (execStoreReset side s) := by
  unfold execStoreReset
  with_reducible apply keepsRes_done
  repeat' first
      | with_reducible assumption | ((with_reducible apply sub_of hA); exact rfl) | dsimp only
      | with_reducible apply keeps_cutSide | with_reducible apply keeps_sendPath
      | with_reducible apply keeps_startFill | with_reducible refine keeps_ite (fun _ => ?_) (fun _ => ?_)
      | split | intro _

end Sys2Proof.Laws
end

