-- ==== Sys2Proof/Laws/KeepsMaps.lean ====
section
/-! SUPPORT. `Keeps` for the operations of Machine/Maps.lean. -/

set_option linter.unusedTactic false
set_option linter.unreachableTactic false

namespace Sys2Proof.Laws

open Sys2Proof Sys2Proof.Machine Sys2Proof.Safety

variable {A : Nat} {a₀ s : State}

theorem keeps_putCur (m : CMap) (hA : Within 0x140060008000000000000000000000000000000000010010200 A) (hK : Keeps A a₀ s) : Keeps A a₀ (putCur m s) := by
  unfold putCur
  repeat' first
      | with_reducible assumption | ((with_reducible apply sub_of hA); exact rfl) | dsimp only
      | with_reducible apply keeps_countN | with_reducible apply keeps_setFrame | split | intro _
      | with_reducible refine keeps_of_snd (by with_reducible assumption) ?_
      | with_reducible refine keeps_of_fst (by with_reducible assumption) ?_

theorem keeps_putPend (m : CMap) (hA : Within 0x140060008000000000000000000000000000000000010010200 A) (hK : Keeps A a₀ s) : Keeps A a₀ (putPend m s) := by
  unfold putPend
  repeat' first
      | with_reducible assumption | ((with_reducible apply sub_of hA); exact rfl) | dsimp only
      | with_reducible apply keeps_countN | with_reducible apply keeps_setFrame | split | intro _
      | with_reducible refine keeps_of_snd (by with_reducible assumption) ?_
      | with_reducible refine keeps_of_fst (by with_reducible assumption) ?_

theorem keeps_switchMap (t : Nat) (g : Nat) (silent : Bool) (hA : Within 0x140060008000000000000000000000000004000000010010200 A) (hK : Keeps A a₀ s) : Keeps A a₀ (switchMap t g silent s) := by
  unfold switchMap
  repeat' first
      | with_reducible assumption | ((with_reducible apply sub_of hA); exact rfl) | dsimp only
      | with_reducible apply keeps_count | with_reducible apply keeps_raise | with_reducible apply keeps_wr
      | exact cov_FRAME_GEN _ rfl (sub_of hA rfl) | with_reducible refine keeps_ite (fun _ => ?_) (fun _ => ?_)
      | split | intro _ | with_reducible apply keeps_part_frame

theorem keeps_switchP (t : Nat) (g : Nat) (p : Nat) (hA : Within 0x140060008000000000000000000000000000000000810010200 A) (hK : Keeps A a₀ s) : Keeps A a₀ (switchP t g p s) := by
  unfold switchP
  repeat' first
      | with_reducible assumption | ((with_reducible apply sub_of hA); exact rfl) | dsimp only
      | with_reducible apply keeps_countN | with_reducible apply keeps_wr
      | exact cov_TIME_STATUS _ rfl (sub_of hA rfl) | with_reducible refine keeps_ite (fun _ => ?_) (fun _ => ?_)
      | split | intro _ | with_reducible apply keeps_part_frame

theorem keeps_switchKey (t : Nat) (g : Nat) (hA : Within 0x4000000000002200 A) (hK : Keeps A a₀ s) : Keeps A a₀ (switchKey t g s) := by
  unfold switchKey
  repeat' first
      | with_reducible assumption | ((with_reducible apply sub_of hA); exact rfl) | dsimp only
      | with_reducible apply keeps_setFrame | with_reducible apply keeps_setKey | with_reducible apply keeps_wr
      | exact cov_FRAME_GEN _ rfl (sub_of hA rfl) | with_reducible refine keeps_ite (fun _ => ?_) (fun _ => ?_)
      | split | intro _

theorem keeps_genDue (kind : GenKind) (n : Nat) (hA : Within 0x140060008000000000000000000000000004000000810012200 A) (hK : Keeps A a₀ s) : Keeps A a₀ (genDue kind n s) := by
  unfold genDue
  repeat' first
      | with_reducible assumption | ((with_reducible apply sub_of hA); exact rfl) | dsimp only
      | with_reducible apply keeps_switchKey | with_reducible apply keeps_switchMap
      | with_reducible apply keeps_switchP | with_reducible refine keeps_ite (fun _ => ?_) (fun _ => ?_) | split
      | intro _ | with_reducible refine keeps_of_snd (by with_reducible assumption) ?_
      | with_reducible refine keeps_of_fst (by with_reducible assumption) ?_

theorem keeps_execGenerationEffective (kind : GenKind) (hA : Within 0x140060008000000000000000000000000004000000810012200 A) (hK : Keeps A a₀ s) : KeepsRes A a₀ (execGenerationEffective kind s) := by
  unfold execGenerationEffective
  with_reducible apply keepsRes_done
  repeat' first
      | with_reducible assumption | ((with_reducible apply sub_of hA); exact rfl) | dsimp only
      | with_reducible apply keeps_done | with_reducible apply keeps_genDue | intro _

theorem keeps_genJump (code : Nat) (hA : Within 0x140060008000000000000000000000000000000000010010000 A) (hK : Keeps A a₀ s) : Keeps A a₀ (genJump code s) := by
  unfold genJump
  repeat' first
      | with_reducible assumption | ((with_reducible apply sub_of hA); exact rfl) | dsimp only
      | with_reducible apply keeps_count | with_reducible apply keeps_raise | intro _

theorem keeps_genConflict (old : Option Nat) (t : Nat) (hA : Within 0x140060008000000000000000000000000000000000010010000 A) (hK : Keeps A a₀ s) : Keeps A a₀ (genConflict old t s) := by
  unfold genConflict
  repeat' first
      | with_reducible assumption | ((with_reducible apply sub_of hA); exact rfl) | dsimp only
      | with_reducible apply keeps_count | with_reducible refine keeps_ite (fun _ => ?_) (fun _ => ?_) | split
      | intro _ | with_reducible refine keeps_of_snd (by with_reducible assumption) ?_
      | with_reducible refine keeps_of_fst (by with_reducible assumption) ?_

theorem keeps_headerP (n : Nat) (g : Nat) (p : Nat) (k : Nat) (next : Nat) (hA : Within 0x140060008000000000000000000000000004000000810012200 A) (hK : Keeps A a₀ s) : Keeps A a₀ (headerP n g p k next s) := by
  unfold headerP
  repeat' first
      | with_reducible assumption | ((with_reducible apply sub_of hA); exact rfl) | dsimp only
      | with_reducible apply keeps_count | with_reducible apply keeps_genConflict | with_reducible apply keeps_genDue
      | with_reducible apply keeps_genJump | with_reducible apply keeps_setFrame | with_reducible apply keeps_switchP
      | with_reducible apply keeps_whenB | with_reducible apply keeps_wr | exact cov_TIME_STATUS _ rfl (sub_of hA rfl)
      | with_reducible refine keeps_ite (fun _ => ?_) (fun _ => ?_) | split | intro _

theorem keeps_headerMap (n : Nat) (g : Nat) (k : Nat) (cnt : Nat) (crc : Nat) (hA : Within 0x140060008000000000000000000000000004000000810012200 A) (hK : Keeps A a₀ s) : Keeps A a₀ (headerMap n g k cnt crc s) := by
  unfold headerMap
  repeat' first
      | with_reducible assumption | ((with_reducible apply sub_of hA); exact rfl) | dsimp only
      | with_reducible apply keeps_count | with_reducible apply keeps_genConflict | with_reducible apply keeps_genDue
      | with_reducible apply keeps_genJump | with_reducible apply keeps_putCur | with_reducible apply keeps_putPend
      | with_reducible apply keeps_setFrame | with_reducible apply keeps_switchMap
      | with_reducible refine keeps_ite (fun _ => ?_) (fun _ => ?_) | split | intro _

theorem keeps_headerKey (n : Nat) (g : Nat) (k : Nat) (hA : Within 0x140060008000000000000000000000000004000000810012200 A) (hK : Keeps A a₀ s) : Keeps A a₀ (headerKey n g k s) := by
  unfold headerKey
  repeat' first
      | with_reducible assumption | ((with_reducible apply sub_of hA); exact rfl) | dsimp only
      | with_reducible apply keeps_genConflict | with_reducible apply keeps_genDue
      | with_reducible apply keeps_genJump | with_reducible apply keeps_setFrame | with_reducible apply keeps_setKey
      | with_reducible apply keeps_switchKey | with_reducible apply keeps_wr
      | exact cov_FRAME_GEN _ rfl (sub_of hA rfl) | with_reducible refine keeps_ite (fun _ => ?_) (fun _ => ?_)
      | split | intro _

end Sys2Proof.Laws
end

