-- ==== Sys2Proof/Laws/KeepsContainers.lean ====
section
/-! SUPPORT. `Keeps` for the operations of Machine/Containers.lean. -/

set_option linter.unusedTactic false
set_option linter.unreachableTactic false

namespace Sys2Proof.Laws

open Sys2Proof Sys2Proof.Machine Sys2Proof.Safety

variable {A : Nat} {a₀ s : State}

theorem keeps_lateOnce (t : Nat) (hA : Within 0x140060008000000000000000000000000000000000010010200 A) (hK : Keeps A a₀ s) : Keeps A a₀ (lateOnce s t) := by
  unfold lateOnce
  repeat' first
      | with_reducible assumption | ((with_reducible apply sub_of hA); exact rfl) | dsimp only
      | with_reducible apply keeps_count | with_reducible apply keeps_setFrame
      | with_reducible refine keeps_ite (fun _ => ?_) (fun _ => ?_) | split | intro _

theorem keeps_presentAt (due : Option Nat) (t : Nat) (b : Sub) (data : Option (List Word)) (hA : Within 0x140060008000000000000000000000000000000000010010200 A)
    (hK : Keeps A a₀ s) : Keeps A a₀ (presentAt due t b data s) := by
  unfold presentAt
  repeat' first
      | with_reducible assumption | ((with_reducible apply sub_of hA); exact rfl) | dsimp only
      | with_reducible apply keeps_lateOnce | with_reducible apply keeps_setFrame
      | with_reducible refine keeps_ite (fun _ => ?_) (fun _ => ?_) | split | intro _
      | with_reducible refine keeps_of_snd (by with_reducible assumption) ?_
      | with_reducible refine keeps_of_fst (by with_reducible assumption) ?_

theorem keeps_present (t : Nat) (b : Sub) (data : Option (List Word)) (hA : Within 0x140060008000000000000000000000000000000000010010200 A) (hK : Keeps A a₀ s) : Keeps A a₀ (present t b data s) := by
  unfold present
  repeat' first
      | with_reducible assumption | ((with_reducible apply sub_of hA); exact rfl) | dsimp only
      | with_reducible apply keeps_presentAt | intro _

theorem keeps_deliver (t : Nat) (b : Sub) (ws : List Word) (hA : Within 0x14006000800000000000000000040000000000000001001c200 A)
    (hK : Keeps A a₀ s) : Keeps A a₀ (deliver t b ws s) := by
  unfold deliver
  repeat' first
      | with_reducible assumption | ((with_reducible apply sub_of hA); exact rfl) | dsimp only
      | with_reducible apply keeps_deliverHost | with_reducible apply keeps_present
      | with_reducible apply keeps_takeSegments | with_reducible refine keeps_ite (fun _ => ?_) (fun _ => ?_)
      | split | intro _

theorem keeps_missing (t : Nat) (b : Sub) (hA : Within 0x140060008000000000000000000000000000000000010014200 A) (hK : Keeps A a₀ s) : Keeps A a₀ (missing t b s) := by
  unfold missing
  repeat' first
      | with_reducible assumption | ((with_reducible apply sub_of hA); exact rfl) | dsimp only
      | with_reducible apply keeps_count | with_reducible apply keeps_present
      | with_reducible apply keeps_segmentsMissing | with_reducible refine keeps_ite (fun _ => ?_) (fun _ => ?_)
      | split | intro _

theorem keeps_openAndDeliver (t : Nat) (b : Sub) (ws : List Word) (hA : Within 0x14006000800000000000000000040000000000000001001e200 A) (hK : Keeps A a₀ s) : Keeps A a₀ (openAndDeliver t b ws s) := by
  unfold openAndDeliver
  repeat' first
      | with_reducible assumption | ((with_reducible apply sub_of hA); exact rfl) | dsimp only
      | with_reducible apply keeps_deliver | with_reducible apply keeps_missing
      | with_reducible apply keeps_openContainer | split | intro _
      | with_reducible refine keeps_of_snd (by with_reducible assumption) ?_
      | with_reducible refine keeps_of_fst (by with_reducible assumption) ?_

theorem keeps_addDownJob (t cont start n : Nat) (words : Option (List Word)) (hA : Within 0x2000 A)
    (hK : Keeps A a₀ s) : Keeps A a₀ (addDownJob t cont start n words s) := by
  unfold addDownJob
  repeat' first
      | with_reducible assumption | ((with_reducible apply sub_of hA); exact rfl) | dsimp only
      | with_reducible apply keeps_addJob | with_reducible apply keeps_demandBlocks
      | with_reducible refine keeps_ite (fun _ => ?_) (fun _ => ?_) | split | intro _

theorem keeps_addDownJobs (t : Nat) (hA : Within 0x2000 A) (hK : Keeps A a₀ s) : Keeps A a₀ (addDownJobs t s) := by
  unfold addDownJobs
  repeat' first
      | with_reducible assumption | ((with_reducible apply sub_of hA); exact rfl) | dsimp only
      | with_reducible apply keeps_addDownJob | with_reducible apply keeps_eachOf
      | with_reducible apply keeps_startCores | with_reducible refine keeps_ite (fun _ => ?_) (fun _ => ?_)
      | split | intro _ | with_reducible refine keeps_of_snd (by with_reducible assumption) ?_
      | with_reducible refine keeps_of_fst (by with_reducible assumption) ?_

theorem keeps_endJob (up : Bool) (tag obj : Nat) (hA : Within 0x2000 A)
    (hK : Keeps A a₀ s) : Keeps A a₀ (endJob up tag obj s) := by
  unfold endJob
  repeat' first
      | with_reducible assumption | ((with_reducible apply sub_of hA); exact rfl) | dsimp only
      | with_reducible apply keeps_dropJob | with_reducible apply keeps_startCores | intro _

theorem keeps_readProtected (t start : Nat) (b : Sub) (ws : List Word) (hA : Within 0x14006000800000000000000000040000000000000001001e200 A)
    (hK : Keeps A a₀ s) : Keeps A a₀ (readProtected t start b ws s) := by
  unfold readProtected
  repeat' first
      | with_reducible assumption | ((with_reducible apply sub_of hA); exact rfl) | dsimp only
      | with_reducible apply keeps_addDownJob | with_reducible apply keeps_endJob
      | with_reducible apply keeps_modJob | with_reducible apply keeps_openAndDeliver
      | with_reducible apply keeps_startCores | with_reducible refine keeps_ite (fun _ => ?_) (fun _ => ?_)
      | split | intro _ | with_reducible refine keeps_of_snd (by with_reducible assumption) ?_
      | with_reducible refine keeps_of_fst (by with_reducible assumption) ?_

theorem keeps_keystreamThere (j : Job) (hA : Within 0x14006000800000000000000000040000000000000001001e200 A) (hK : Keeps A a₀ s) : Keeps A a₀ (keystreamThere j s) := by
  unfold keystreamThere
  repeat' first
      | with_reducible assumption | ((with_reducible apply sub_of hA); exact rfl) | dsimp only
      | with_reducible apply keeps_dropJob | with_reducible apply keeps_modJob
      | with_reducible apply keeps_openAndDeliver | split | intro _
      | with_reducible refine keeps_of_snd (by with_reducible assumption) ?_
      | with_reducible refine keeps_of_fst (by with_reducible assumption) ?_

theorem keeps_execCipherJobDone (core : Fin 6) (at_ : Nat) (hA : Within 0x14006000800000000000000000040000000000000001001e200 A)
    (hK : Keeps A a₀ s) : KeepsRes A a₀ (execCipherJobDone core at_ s) := by
  unfold execCipherJobDone
  with_reducible apply keepsRes_done
  repeat' first
      | with_reducible assumption | ((with_reducible apply sub_of hA); exact rfl) | dsimp only
      | with_reducible apply keeps_count | with_reducible apply keeps_keystreamThere
      | with_reducible apply keeps_modJob | with_reducible apply keeps_startCores
      | with_reducible apply keeps_whenB | with_reducible refine keeps_ite (fun _ => ?_) (fun _ => ?_) | split
      | intro _ | with_reducible refine keeps_of_snd (by with_reducible assumption) ?_
      | with_reducible refine keeps_of_fst (by with_reducible assumption) ?_

theorem keeps_jobLost (j : Job) (hA : Within 0x140060008000000000000000000000000000000000010016200 A) (hK : Keeps A a₀ s) : Keeps A a₀ (jobLost s j) := by
  unfold jobLost
  repeat' first
      | with_reducible assumption | ((with_reducible apply sub_of hA); exact rfl) | dsimp only
      | with_reducible apply keeps_count | with_reducible apply keeps_dropJob
      | with_reducible apply keeps_missing | with_reducible refine keeps_ite (fun _ => ?_) (fun _ => ?_) | split
      | intro _ | with_reducible refine keeps_of_snd (by with_reducible assumption) ?_
      | with_reducible refine keeps_of_fst (by with_reducible assumption) ?_

theorem keeps_execDrbgStopped (hA : Within 0x140060008000000000000000000000800000000000010016200 A) (hK : Keeps A a₀ s) : KeepsRes A a₀ (execDrbgStopped s) := by
  unfold execDrbgStopped
  with_reducible apply keepsRes_done
  repeat' first
      | with_reducible assumption | ((with_reducible apply sub_of hA); exact rfl) | dsimp only
      | with_reducible apply keeps_eachOf | with_reducible apply keeps_jobLost
      | with_reducible apply keeps_raise | with_reducible apply keeps_wr
      | exact cov_DRBG_STATUS _ rfl (sub_of hA rfl)
      | with_reducible refine keeps_ite (fun _ => ?_) (fun _ => ?_) | split | intro _

theorem keeps_purgeJobs (hA : Within 0x2000 A) (hK : Keeps A a₀ s) : Keeps A a₀ (purgeJobs s) := by
  unfold purgeJobs
  repeat' first
      | with_reducible assumption | ((with_reducible apply sub_of hA); exact rfl) | dsimp only
      | with_reducible apply keeps_setKey | intro _

theorem keeps_settle (t cont : Nat) (hA : Within 0x200 A) (hK : Keeps A a₀ s) : Keeps A a₀ (settle t cont s) := by
  unfold settle
  repeat' first
      | with_reducible assumption | ((with_reducible apply sub_of hA); exact rfl) | dsimp only
      | with_reducible apply keeps_setFrame | intro _

theorem keeps_missingRow (t : Nat) (b : Sub) (hA : Within 0x140060008000000000000000000000000000000000010016200 A)
    (hK : Keeps A a₀ s) : Keeps A a₀ (missingRow t b s) := by
  unfold missingRow
  repeat' first
      | with_reducible assumption | ((with_reducible apply sub_of hA); exact rfl) | dsimp only
      | with_reducible apply keeps_endJob | with_reducible apply keeps_missing | intro _

theorem keeps_readChosen (w : Word) (t : Nat) (row : Option (List RxWord)) (b : Sub) (hA : Within 0x14006000800000000000000000040000000000000001001e200 A)
    (hK : Keeps A a₀ s) : Keeps A a₀ (readChosen w t row b s) := by
  unfold readChosen
  repeat' first
      | with_reducible assumption | ((with_reducible apply sub_of hA); exact rfl) | dsimp only
      | with_reducible apply keeps_count | with_reducible apply keeps_deliver
      | with_reducible apply keeps_missingRow | with_reducible apply keeps_readProtected
      | with_reducible refine keeps_ite (fun _ => ?_) (fun _ => ?_) | split | intro _
      | with_reducible refine keeps_of_snd (by with_reducible assumption) ?_
      | with_reducible refine keeps_of_fst (by with_reducible assumption) ?_

theorem keeps_readIn (t r : Nat) (row : Option (List RxWord)) (b : Sub) (d : Option Word) (hA : Within 0x14006000800000000000000000040000000000000001001e200 A)
    (hK : Keeps A a₀ s) : Keeps A a₀ (readIn t r row b d s) := by
  unfold readIn
  repeat' first
      | with_reducible assumption | ((with_reducible apply sub_of hA); exact rfl) | dsimp only
      | with_reducible apply keeps_readChosen | with_reducible apply keeps_settle
      | with_reducible refine keeps_ite (fun _ => ?_) (fun _ => ?_) | split | intro _
      | with_reducible refine keeps_of_snd (by with_reducible assumption) ?_
      | with_reducible refine keeps_of_fst (by with_reducible assumption) ?_

theorem keeps_readOne (t r : Nat) (row : Option (List RxWord)) (b : Sub) (hA : Within 0x14006000800000000000000000040000000000000001001e200 A)
    (hK : Keeps A a₀ s) : Keeps A a₀ (readOne t r row s b) := by
  unfold readOne
  repeat' first
      | with_reducible assumption | ((with_reducible apply sub_of hA); exact rfl) | dsimp only
      | with_reducible apply keeps_readIn | intro _

theorem keeps_readRow (t : Nat) (r : Nat) (row : Option (List RxWord)) (hA : Within 0x14006000800000000000000000040000000000000001001e200 A) (hK : Keeps A a₀ s) : Keeps A a₀ (readRow t r row s) := by
  unfold readRow
  repeat' first
      | with_reducible assumption | ((with_reducible apply sub_of hA); exact rfl) | dsimp only
      | with_reducible apply keeps_eachOf | with_reducible apply keeps_readOne | intro _

theorem keeps_missingWhole (t : Nat) (hA : Within 0x140060008000000000000000000000000000000000010014200 A) (hK : Keeps A a₀ s) : Keeps A a₀ (missingWhole t s) := by
  unfold missingWhole
  repeat' first
      | with_reducible assumption | ((with_reducible apply sub_of hA); exact rfl) | dsimp only
      | with_reducible apply keeps_eachOf | with_reducible apply keeps_missing
      | with_reducible apply keeps_settle | with_reducible refine keeps_ite (fun _ => ?_) (fun _ => ?_) | split
      | intro _

end Sys2Proof.Laws
end

