-- ==== Sys2Proof/Laws/KeepsIdent.lean ====
section
/-! SUPPORT. `Keeps` for the operations of Machine/Ident.lean. -/

set_option linter.unusedTactic false
set_option linter.unreachableTactic false

namespace Sys2Proof.Laws

open Sys2Proof Sys2Proof.Machine Sys2Proof.Safety

variable {A : Nat} {a₀ s : State}

theorem keeps_goTerm (t : TermState) (hA : Within 0x1400600080000040000000000000000000000000000300d0001 A) (hK : Keeps A a₀ s) : Keeps A a₀ (goTerm t s) := by
  unfold goTerm
  repeat' first
      | with_reducible assumption | ((with_reducible apply sub_of hA); exact rfl) | dsimp only
      | with_reducible apply keeps_changeTerm | with_reducible apply keeps_rundownAll
      | with_reducible apply keeps_showIdle | with_reducible apply keeps_whenB
      | with_reducible refine keeps_ite (fun _ => ?_) (fun _ => ?_) | split | intro _

theorem keeps_idStreamLost (hA : Within 0x4000000000000000800 A) (hK : Keeps A a₀ s) : Keeps A a₀ (idStreamLost s) := by
  unfold idStreamLost
  repeat' first
      | with_reducible assumption | ((with_reducible apply sub_of hA); exact rfl) | exact fun h => h
      | dsimp only | with_reducible apply keeps_setNote | with_reducible apply keeps_wr
      | exact cov_NOTE_SEQ _ rfl (sub_of hA rfl) | intro _
      | (with_reducible show List.length _ ≤ _; exact lengthNil _)
      | (rw [List.length_append, List.length_singleton]; omega)
      | (with_reducible show List.length _ ≤ _; exact Nat.le_trans (List.length_filter_le _ _) (by assumption))
      | (with_reducible show List.length _ ≤ _; exact lengthMap _ (by assumption))
      | (with_reducible show List.length _ ≤ _; exact lengthTail (by assumption) (by assumption))

theorem keeps_setId (n : Nat) (hA : Within 0x4020000000000000c00 A) (hK : Keeps A a₀ s) : Keeps A a₀ (setId n s) := by
  unfold setId
  repeat' first
      | with_reducible assumption | ((with_reducible apply sub_of hA); exact rfl) | dsimp only
      | with_reducible apply keeps_idStreamLost | with_reducible apply keeps_setRegn | with_reducible apply keeps_wr
      | exact cov_REG_STATUS _ rfl (sub_of hA rfl) | with_reducible refine keeps_ite (fun _ => ?_) (fun _ => ?_)
      | split | intro _

theorem keeps_dropLaterWindows  (hA : Within 0x1000 A) (hK : Keeps A a₀ s) : Keeps A a₀ (dropLaterWindows s) := by
  unfold dropLaterWindows
  repeat' first
      | with_reducible assumption | ((with_reducible apply sub_of hA); exact rfl) | dsimp only
      | with_reducible apply keeps_setWin | intro _

theorem keeps_dropSubs  (hA : Within 0x200 A) (hK : Keeps A a₀ s) : Keeps A a₀ (dropSubs s) := by
  unfold dropSubs
  repeat' first
      | with_reducible assumption | ((with_reducible apply sub_of hA); exact rfl) | dsimp only
      | with_reducible apply keeps_setFrame | intro _

theorem keeps_dropId  (hA : Within 0x4020000000000003e00 A) (hK : Keeps A a₀ s) : Keeps A a₀ (dropId s) := by
  unfold dropId
  repeat' first
      | with_reducible assumption | ((with_reducible apply sub_of hA); exact rfl) | dsimp only
      | with_reducible apply keeps_dropLaterWindows | with_reducible apply keeps_dropSubs
      | with_reducible apply keeps_eraseOnRelease | with_reducible apply keeps_setId
      | with_reducible apply keeps_setRegn | intro _

theorem keeps_clearId (hA : Within 0x4020000000000002e00 A) (hK : Keeps A a₀ s) : Keeps A a₀ (clearId s) := by
  unfold clearId
  repeat' first
      | with_reducible assumption | ((with_reducible apply sub_of hA); exact rfl) | dsimp only
      | with_reducible apply keeps_dropSubs | with_reducible apply keeps_eraseOnClear
      | with_reducible apply keeps_setId | with_reducible apply keeps_setRegn | with_reducible apply keeps_wr
      | exact cov_REG_STATUS _ rfl (sub_of hA rfl) | intro _

theorem keeps_drawNonce (hA : Within 0x10000000 A) (hK : Keeps A a₀ s) : Keeps A a₀ (drawNonce s).2 := by
  unfold drawNonce
  repeat' first
      | with_reducible assumption | ((with_reducible apply sub_of hA); exact rfl) | dsimp only
      | with_reducible apply keeps_drawBytes | with_reducible refine keeps_ite (fun _ => ?_) (fun _ => ?_)
      | with_reducible refine keeps_ite_snd (fun _ => ?_) (fun _ => ?_) | split | intro _
      | with_reducible refine keeps_of_snd (by with_reducible assumption) ?_
      | with_reducible refine keeps_of_fst (by with_reducible assumption) ?_

theorem keeps_beginClaim  (hA : Within 0x140060008000000000000000000000000000000000010010400 A) (hK : Keeps A a₀ s) : Keeps A a₀ (beginClaim s) := by
  unfold beginClaim
  repeat' first
      | with_reducible assumption | ((with_reducible apply sub_of hA); exact rfl) | dsimp only
      | with_reducible apply keeps_count | with_reducible apply keeps_raise | with_reducible apply keeps_setRegn
      | with_reducible refine keeps_ite (fun _ => ?_) (fun _ => ?_) | split | intro _

theorem keeps_toClaiming (hA : Within 0x1400600080000040000000000000000000000000000300d0401 A) (hK : Keeps A a₀ s) : Keeps A a₀ (toClaiming s) := by
  unfold toClaiming
  repeat' first
      | with_reducible assumption | ((with_reducible apply sub_of hA); exact rfl) | dsimp only
      | with_reducible apply keeps_goTerm | with_reducible apply keeps_setRegn
      | with_reducible refine keeps_ite (fun _ => ?_) (fun _ => ?_) | split | intro _

theorem keeps_enterClaiming (hA : Within 0x1400600080000040000000000000000000600000000300d2401 A) (hK : Keeps A a₀ s) : Keeps A a₀ (enterClaiming s) := by
  unfold enterClaiming
  repeat' first
      | with_reducible assumption | ((with_reducible apply sub_of hA); exact rfl) | dsimp only
      | with_reducible apply keeps_beginClaim | with_reducible apply keeps_drawNonce
      | with_reducible apply keeps_eraseOnRelease | with_reducible apply keeps_setReg
      | with_reducible apply keeps_setRegn | with_reducible apply keeps_toClaiming
      | with_reducible apply keeps_wr | exact cov_REG_STATUS _ rfl (sub_of hA rfl)
      | exact cov_CLAIM_NONCE _ rfl (sub_of hA rfl) | split | intro _
      | with_reducible refine keeps_of_snd (by with_reducible assumption) ?_
      | with_reducible refine keeps_of_fst (by with_reducible assumption) ?_

theorem keeps_houseChanged (pub : List Byte) (hA : Within 0x2400 A)
    (hK : Keeps A a₀ s) : Keeps A a₀ (houseChanged pub s) := by
  unfold houseChanged
  repeat' first
      | with_reducible assumption | ((with_reducible apply sub_of hA); exact rfl) | dsimp only
      | with_reducible apply keeps_setKey | with_reducible apply keeps_setRegn
      | with_reducible refine keeps_ite (fun _ => ?_) (fun _ => ?_) | split | intro _

theorem keeps_beginMeasure (hA : Within 0x200000000000000400 A) (hK : Keeps A a₀ s) : Keeps A a₀ (beginMeasure s) := by
  unfold beginMeasure
  repeat' first
      | with_reducible assumption | ((with_reducible apply sub_of hA); exact rfl) | dsimp only
      | with_reducible apply keeps_setRegn | with_reducible apply keeps_wr
      | exact cov_RANGE_STATUS _ rfl (sub_of hA rfl) | intro _

theorem keeps_enterRanging (hA : Within 0x1400600080000040000000000000000002000000000300d0401 A) (hK : Keeps A a₀ s) : Keeps A a₀ (enterRanging s) := by
  unfold enterRanging
  repeat' first
      | with_reducible assumption | ((with_reducible apply sub_of hA); exact rfl) | dsimp only
      | with_reducible apply keeps_beginMeasure | with_reducible apply keeps_goTerm | intro _

theorem keeps_sigEnds (op : Nat) (st : Nat) (hA : Within 0x140060008000000000000000000001000000000000010010000 A) (hK : Keeps A a₀ s) : Keeps A a₀ (sigEnds op st s) := by
  unfold sigEnds
  repeat' first
      | with_reducible assumption | ((with_reducible apply sub_of hA); exact rfl) | dsimp only
      | with_reducible apply keeps_count | with_reducible apply keeps_whenB | with_reducible apply keeps_wr
      | exact cov_SIG_STATUS _ rfl (sub_of hA rfl) | intro _

theorem keeps_newReport (dE : Int) (dW : Int) (gen : Nat) (mode : Nat) (hA : Within 0x140060008000000000000000000000000200000000010010c00 A) (hK : Keeps A a₀ s) : Keeps A a₀ (newReport dE dW gen mode s) := by
  unfold newReport
  repeat' first
      | with_reducible assumption | ((with_reducible apply sub_of hA); exact rfl) | dsimp only
      | with_reducible apply keeps_queueUp | with_reducible apply keeps_setRegn | with_reducible apply keeps_wr
      | exact cov_RANGE_STATUS _ rfl (sub_of hA rfl) | intro _

end Sys2Proof.Laws
end

