-- ==== Sys2Proof/Laws/KeepsRanging.lean ====
section
/-! SUPPORT. `Keeps` for the operations of Machine/Ranging.lean. -/

set_option linter.unusedTactic false
set_option linter.unreachableTactic false

namespace Sys2Proof.Laws

open Sys2Proof Sys2Proof.Machine Sys2Proof.Safety

variable {A : Nat} {a₀ s : State}

theorem keeps_setMeas (m : Meas) (hA : Within 0x400 A) (hK : Keeps A a₀ s) : Keeps A a₀ (setMeas m s) := by
  unfold setMeas
  repeat' first
      | with_reducible assumption | ((with_reducible apply sub_of hA); exact rfl) | dsimp only
      | with_reducible apply keeps_setRegn | intro _

theorem keeps_measTick (t : Nat) (d : Int) (hA : Within 0x400 A) (hK : Keeps A a₀ s) : Keeps A a₀ (measTick t d s) := by
  unfold measTick
  repeat' first
      | with_reducible assumption | ((with_reducible apply sub_of hA); exact rfl) | dsimp only
      | with_reducible apply keeps_measBreak | with_reducible apply keeps_setMeas
      | with_reducible refine keeps_ite (fun _ => ?_) (fun _ => ?_) | split | intro _

theorem keeps_measMatch (sd : Side) (t : Nat) (hA : Within 0x400 A)
    (hK : Keeps A a₀ s) : Keeps A a₀ (measMatch sd t s) := by
  unfold measMatch
  repeat' first
      | with_reducible assumption | ((with_reducible apply sub_of hA); exact rfl) | dsimp only
      | with_reducible apply keeps_measBreak | with_reducible apply keeps_measTick
      | with_reducible refine keeps_ite (fun _ => ?_) (fun _ => ?_) | split | intro _
      | with_reducible refine keeps_of_snd (by with_reducible assumption) ?_
      | with_reducible refine keeps_of_fst (by with_reducible assumption) ?_

theorem keeps_arrive (sd : Side) (t time since : Nat) (turned jump : Bool) (hA : Within 0x40000400 A)
    (hK : Keeps A a₀ s) : Keeps A a₀ (arrive sd t time since turned jump s) := by
  unfold arrive
  repeat' first
      | with_reducible assumption | ((with_reducible apply sub_of hA); exact rfl) | dsimp only
      | with_reducible apply keeps_measBreak | with_reducible apply keeps_measMatch
      | with_reducible apply keeps_setSpan | with_reducible refine keeps_ite (fun _ => ?_) (fun _ => ?_) | split
      | intro _

end Sys2Proof.Laws
end

