-- ==== Sys2Proof/Laws/KeepsFrame.lean ====
section
/-! SUPPORT. `Keeps` for the operations of Machine/Frame.lean. -/

set_option linter.unusedTactic false
set_option linter.unreachableTactic false

namespace Sys2Proof.Laws

open Sys2Proof Sys2Proof.Machine Sys2Proof.Safety

variable {A : Nat} {a₀ s : State}

theorem keeps_purgeRows (sd : Side) (hA : Within 0x1200 A) (hK : Keeps A a₀ s) : Keeps A a₀ (purgeRows sd s) := by
  unfold purgeRows
  repeat' first
      | with_reducible assumption | ((with_reducible apply sub_of hA); exact rfl) | dsimp only
      | with_reducible apply keeps_setFrame | with_reducible apply keeps_setOpen
      | with_reducible apply keeps_setWin | intro _

theorem keeps_autoTurnAt (sd : Side) (hA : Within 0x4000040000000 A) (hK : Keeps A a₀ s) : Keeps A a₀ (autoTurnAt sd s) := by
  unfold autoTurnAt
  repeat' first
      | with_reducible assumption | ((with_reducible apply sub_of hA); exact rfl) | dsimp only
      | with_reducible apply keeps_setSpan | with_reducible apply keeps_wr
      | exact cov_BYPASS_STATUS _ rfl (sub_of hA rfl) | exact cov_turned _ (sub_of hA rfl)
      | with_reducible refine keeps_ite (fun _ => ?_) (fun _ => ?_) | split | intro _

theorem keeps_strayWords (sd : Side) (ws : List RxWord) (hA : Within 0x140060008000000000000000000000000001000000070010000 A)
    (hK : Keeps A a₀ s) : Keeps A a₀ (strayWords sd ws s) := by
  unfold strayWords
  repeat' first
      | with_reducible assumption | ((with_reducible apply sub_of hA); exact rfl) | dsimp only
      | with_reducible apply keeps_countFault | with_reducible apply keeps_eachOf
      | with_reducible apply keeps_keepRd | with_reducible apply keeps_sendPath
      | with_reducible refine keeps_ite (fun _ => ?_) (fun _ => ?_) | split | intro _

theorem keeps_execTickMarker (side : Side) (w : RxWord) (at_ : Nat) (hA : Within 0x140060008000000000000000000000000000304000050013600 A)
    (hK : Keeps A a₀ s) : KeepsRes A a₀ (execTickMarker side w at_ s) := by
  unfold execTickMarker
  with_reducible apply keepsRes_done
  repeat' first
      | with_reducible assumption | ((with_reducible apply sub_of hA); exact rfl) | dsimp only
      | with_reducible apply keeps_addDownJobs | with_reducible apply keeps_arrive
      | with_reducible apply keeps_autoTurnAt | with_reducible apply keeps_countSide
      | with_reducible apply keeps_purgeRows | with_reducible apply keeps_setSpan
      | with_reducible apply keeps_setTrk | with_reducible apply keeps_whenB | with_reducible apply keeps_wr
      | exact cov_rep _ _ rfl (sub_of hA rfl) | with_reducible refine keeps_ite (fun _ => ?_) (fun _ => ?_)
      | split | intro _ | with_reducible refine keeps_of_snd (by with_reducible assumption) ?_
      | with_reducible refine keeps_of_fst (by with_reducible assumption) ?_

theorem keeps_execTickMarkerMiss (side : Side) (stray : List RxWord) (hA : Within 0x140060008000000000000000000000000001300000070014600 A)
    (hK : Keeps A a₀ s) : KeepsRes A a₀ (execTickMarkerMiss side stray s) := by
  unfold execTickMarkerMiss
  with_reducible apply keepsRes_done
  repeat' first
      | with_reducible assumption | ((with_reducible apply sub_of hA); exact rfl) | dsimp only
      | with_reducible apply keeps_countSide | with_reducible apply keeps_loseTrack
      | with_reducible apply keeps_measBreak | with_reducible apply keeps_missing
      | with_reducible apply keeps_setTrk | with_reducible apply keeps_strayWords
      | with_reducible apply keeps_whenB | with_reducible refine keeps_ite (fun _ => ?_) (fun _ => ?_) | split
      | intro _

theorem keeps_judgeRow (sd : Side) (row : Nat) (ws : List RxWord) (hA : Within 0x140060008000000000000000000000000000000000010010000 A)
    (hK : Keeps A a₀ s) : Keeps A a₀ (judgeRow sd row ws s).2 := by
  unfold judgeRow
  repeat' first
      | with_reducible assumption | ((with_reducible apply sub_of hA); exact rfl) | dsimp only
      | with_reducible apply keeps_count | with_reducible apply keeps_countSide
      | with_reducible apply keeps_whenB | with_reducible refine keeps_ite (fun _ => ?_) (fun _ => ?_)
      | with_reducible refine keeps_ite_snd (fun _ => ?_) (fun _ => ?_) | split | intro _
      | with_reducible refine keeps_of_snd (by with_reducible assumption) ?_
      | with_reducible refine keeps_of_fst (by with_reducible assumption) ?_

theorem keeps_noteVerdict (sd : Side) (f : FrameId) (row : Nat) (v : Verdict) (hA : Within 0x200 A) (hK : Keeps A a₀ s) : Keeps A a₀ (noteVerdict sd f row v s) := by
  unfold noteVerdict
  repeat' first
      | with_reducible assumption | ((with_reducible apply sub_of hA); exact rfl) | dsimp only
      | with_reducible apply keeps_setFrame | split | intro _
      | with_reducible refine keeps_of_snd (by with_reducible assumption) ?_
      | with_reducible refine keeps_of_fst (by with_reducible assumption) ?_

theorem keeps_modRow (f : FrameId) (row : Nat) (g : RowRec → RowRec) (hA : Within 0x200 A) (hK : Keeps A a₀ s) : Keeps A a₀ (modRow f row g s) := by
  unfold modRow
  repeat' first
      | with_reducible assumption | ((with_reducible apply sub_of hA); exact rfl) | dsimp only
      | with_reducible apply keeps_setFrame | with_reducible refine keeps_ite (fun _ => ?_) (fun _ => ?_) | split
      | intro _

theorem keeps_followRow0 (sd : Side) (hA : Within 0x800000000 A) (hK : Keeps A a₀ s) : Keeps A a₀ (followRow0 sd s) := by
  unfold followRow0
  repeat' first
      | with_reducible assumption | ((with_reducible apply sub_of hA); exact rfl) | dsimp only
      | with_reducible apply keeps_wr | exact cov_TIME_STATUS _ rfl (sub_of hA rfl)
      | with_reducible refine keeps_ite (fun _ => ?_) (fun _ => ?_) | split | intro _

theorem keeps_row0Judged (f : FrameId) (ok : Bool) (hA : Within 0x2000000000000200 A) (hK : Keeps A a₀ s) : Keeps A a₀ (row0Judged f ok s) := by
  unfold row0Judged
  repeat' first
      | with_reducible assumption | ((with_reducible apply sub_of hA); exact rfl) | dsimp only
      | with_reducible apply keeps_setFrame | with_reducible apply keeps_wr
      | exact cov_FRAME_STATUS _ rfl (sub_of hA rfl) | with_reducible refine keeps_ite (fun _ => ?_) (fun _ => ?_)
      | split | intro _

theorem keeps_selectRow (sd : Side) (f : FrameId) (row : Nat) (ws : List RxWord) (hA : Within 0x14006000800000000000000000040000000200000081001e200 A)
    (hK : Keeps A a₀ s) : Keeps A a₀ (selectRow sd f row ws s) := by
  unfold selectRow
  repeat' first
      | with_reducible assumption | ((with_reducible apply sub_of hA); exact rfl) | dsimp only
      | with_reducible apply keeps_count | with_reducible apply keeps_followRow0
      | with_reducible apply keeps_modRow | with_reducible apply keeps_readRow
      | with_reducible apply keeps_row0Judged | with_reducible apply keeps_setFrame
      | with_reducible refine keeps_ite (fun _ => ?_) (fun _ => ?_) | split | intro _

theorem keeps_forwardRow (sd : Side) (row : Nat) (ws : List RxWord) (hA : Within 0x60001000 A)
    (hK : Keeps A a₀ s) : Keeps A a₀ (forwardRow sd row ws s) := by
  unfold forwardRow
  repeat' first
      | with_reducible assumption | ((with_reducible apply sub_of hA); exact rfl) | dsimp only
      | with_reducible apply keeps_foldl | with_reducible apply keeps_sendPath
      | with_reducible apply keeps_setSpan | with_reducible apply keeps_setWin
      | with_reducible refine keeps_ite (fun _ => ?_) (fun _ => ?_) | split | intro _

theorem keeps_noteRows (sd : Side) (v : Verdict) (hA : Within 0x40000000 A)
    (hK : Keeps A a₀ s) : Keeps A a₀ (noteRows sd v s) := by
  unfold noteRows
  repeat' first
      | with_reducible assumption | ((with_reducible apply sub_of hA); exact rfl) | dsimp only
      | with_reducible apply keeps_setSpan | with_reducible refine keeps_ite (fun _ => ?_) (fun _ => ?_) | split
      | intro _

theorem keeps_execRowCheck (side : Side) (row : BitVec 5) (words : List RxWord) (hA : Within 0x14006000800000000000000000040000000300000087001f200 A)
    (hK : Keeps A a₀ s) : KeepsRes A a₀ (execRowCheck side row words s) := by
  unfold execRowCheck
  with_reducible apply keepsRes_done
  repeat' first
      | with_reducible assumption | ((with_reducible apply sub_of hA); exact rfl) | dsimp only
      | with_reducible apply keeps_countFault | with_reducible apply keeps_eachOf
      | with_reducible apply keeps_forwardRow | with_reducible apply keeps_judgeRow
      | with_reducible apply keeps_keepRd | with_reducible apply keeps_noteRows
      | with_reducible apply keeps_noteVerdict | with_reducible apply keeps_selectRow
      | with_reducible refine keeps_ite (fun _ => ?_) (fun _ => ?_)
      | with_reducible refine keeps_ite_snd (fun _ => ?_) (fun _ => ?_) | split | intro _
      | with_reducible refine keeps_of_snd (by with_reducible assumption) ?_
      | with_reducible refine keeps_of_fst (by with_reducible assumption) ?_

theorem keeps_headerLost (f : FrameId) (hA : Within 0x140060008000000000000000000000000006000000810016200 A) (hK : Keeps A a₀ s) : Keeps A a₀ (headerLost f s) := by
  unfold headerLost
  repeat' first
      | with_reducible assumption | ((with_reducible apply sub_of hA); exact rfl) | dsimp only
      | with_reducible apply keeps_count | with_reducible apply keeps_genDue | with_reducible apply keeps_missingWhole
      | with_reducible apply keeps_modRow | with_reducible apply keeps_setFrame | with_reducible apply keeps_whenB
      | with_reducible apply keeps_wr | exact cov_FRAME_STATUS _ rfl (sub_of hA rfl) | intro _

theorem keeps_execSpanRowLost (frame : FrameId) (row : BitVec 5) (expired : Bool) (hA : Within 0x14006000800000000000000000040000000600000081001e200 A) (hK : Keeps A a₀ s) : KeepsRes A a₀ (execSpanRowLost frame row expired s) := by
  unfold execSpanRowLost
  with_reducible apply keepsRes_done
  repeat' first
      | with_reducible assumption | ((with_reducible apply sub_of hA); exact rfl) | dsimp only
      | with_reducible apply keeps_count | with_reducible apply keeps_done | with_reducible apply keeps_headerLost
      | with_reducible apply keeps_modRow | with_reducible apply keeps_readRow | with_reducible apply keeps_row0Judged
      | with_reducible refine keeps_ite (fun _ => ?_) (fun _ => ?_) | split | intro _
      | with_reducible refine keeps_of_snd (by with_reducible assumption) ?_
      | with_reducible refine keeps_of_fst (by with_reducible assumption) ?_

theorem keeps_headState (he : Nat) (hA : Within 0x140060008000000000000000000000000002000000010010000 A) (hK : Keeps A a₀ s) : Keeps A a₀ (headState he s) := by
  unfold headState
  repeat' first
      | with_reducible assumption | ((with_reducible apply sub_of hA); exact rfl) | dsimp only
      | with_reducible apply keeps_count | with_reducible apply keeps_raise | with_reducible apply keeps_whenB
      | with_reducible apply keeps_wr | exact cov_FRAME_STATUS _ rfl (sub_of hA rfl) | intro _

theorem keeps_headLoop (gen loopE loopW : Nat) (hA : Within 0x4000000010000600 A)
    (hK : Keeps A a₀ s) : Keeps A a₀ (headLoop gen loopE loopW s) := by
  unfold headLoop
  repeat' first
      | with_reducible assumption | ((with_reducible apply sub_of hA); exact rfl) | dsimp only
      | with_reducible apply keeps_fresh | with_reducible apply keeps_measBreak
      | with_reducible apply keeps_setFrame | with_reducible apply keeps_setRegn
      | with_reducible apply keeps_whenB | with_reducible apply keeps_wr
      | exact cov_FRAME_GEN _ rfl (sub_of hA rfl) | with_reducible refine keeps_ite (fun _ => ?_) (fun _ => ?_)
      | split | intro _

theorem keeps_cycleCounts (he : Nat) (hA : Within 0x200 A) (hK : Keeps A a₀ s) : Keeps A a₀ (cycleCounts he s) := by
  unfold cycleCounts
  repeat' first
      | with_reducible assumption | ((with_reducible apply sub_of hA); exact rfl) | dsimp only
      | with_reducible apply keeps_setFrame | intro _

theorem keeps_lateHeader (f : FrameId) (n he src : Nat) (hA : Within 0x140060008000000000000000000000000000000000010014200 A)
    (hK : Keeps A a₀ s) : Keeps A a₀ (lateHeader f n he src s) := by
  unfold lateHeader
  repeat' first
      | with_reducible assumption | ((with_reducible apply sub_of hA); exact rfl) | dsimp only
      | with_reducible apply keeps_count | with_reducible apply keeps_cycleCounts
      | with_reducible apply keeps_missingWhole | with_reducible apply keeps_modRow
      | with_reducible apply keeps_whenB | intro _

theorem keeps_execFrameHeader (side : Side) (words : List RxWord) (hA : Within 0x1400600080000040000000000004000000660000008300de611 A)
    (hK : Keeps A a₀ s) : KeepsRes A a₀ (execFrameHeader side words s) := by
  unfold execFrameHeader
  with_reducible apply keepsRes_done
  repeat' first
      | with_reducible assumption | ((with_reducible apply sub_of hA); exact rfl) | dsimp only
      | with_reducible apply keeps_count | with_reducible apply keeps_cycleCounts
      | with_reducible apply keeps_enterClaiming | with_reducible apply keeps_headLoop
      | with_reducible apply keeps_headState | with_reducible apply keeps_headerKey
      | with_reducible apply keeps_headerMap | with_reducible apply keeps_headerP
      | with_reducible apply keeps_lateHeader | with_reducible apply keeps_missingWhole
      | with_reducible apply keeps_modRow | with_reducible apply keeps_offer
      | with_reducible apply keeps_setFrame | with_reducible apply keeps_whenB | with_reducible apply keeps_wr
      | exact cov_FRAME_STATUS _ rfl (sub_of hA rfl)
      | with_reducible refine keeps_ite (fun _ => ?_) (fun _ => ?_) | split | intro _
      | with_reducible refine keeps_of_snd (by with_reducible assumption) ?_
      | with_reducible refine keeps_of_fst (by with_reducible assumption) ?_
      | with_reducible apply keeps_part_line

theorem keeps_execExpressWord (side : Side) (w : RxWord) (rowDir : Bool) (hA : Within 0x140060008000000000000000000000000000000000030050200 A) (hK : Keeps A a₀ s) : KeepsRes A a₀ (execExpressWord side w rowDir s) := by
  unfold execExpressWord
  with_reducible apply keepsRes_done
  repeat' first
      | with_reducible assumption | ((with_reducible apply sub_of hA); exact rfl) | dsimp only
      | with_reducible apply keeps_count | with_reducible apply keeps_done | with_reducible apply keeps_expressShow
      | with_reducible apply keeps_setFrame | with_reducible refine keeps_ite (fun _ => ?_) (fun _ => ?_) | split
      | intro _

theorem keeps_execChannelLastExpiry (ch : BitVec 8) (hA : Within 0x200 A) (hK : Keeps A a₀ s) : KeepsRes A a₀ (execChannelLastExpiry ch s) := by
  unfold execChannelLastExpiry
  with_reducible apply keepsRes_done
  repeat' first
      | with_reducible assumption | ((with_reducible apply sub_of hA); exact rfl) | dsimp only
      | with_reducible apply keeps_done | with_reducible apply keeps_setFrame
      | with_reducible refine keeps_ite (fun _ => ?_) (fun _ => ?_) | split | intro _
      | with_reducible refine keeps_of_snd (by with_reducible assumption) ?_
      | with_reducible refine keeps_of_fst (by with_reducible assumption) ?_

end Sys2Proof.Laws
end

