-- ==== Sys2Proof/Laws/KeepsWindows.lean ====
section
/-! SUPPORT. `Keeps` for the operations of Machine/Windows.lean. -/

set_option linter.unusedTactic false
set_option linter.unreachableTactic false

namespace Sys2Proof.Laws

open Sys2Proof Sys2Proof.Machine Sys2Proof.Safety

variable {A : Nat} {a₀ s : State}

theorem keeps_addUpJob (w : Win) (tag : Nat) (hA : Within 0x2000 A)
    (hK : Keeps A a₀ s) : Keeps A a₀ (addUpJob w tag s) := by
  unfold addUpJob
  repeat' first
      | with_reducible assumption | ((with_reducible apply sub_of hA); exact rfl) | dsimp only
      | with_reducible apply keeps_addJob | with_reducible refine keeps_ite (fun _ => ?_) (fun _ => ?_) | split
      | intro _

theorem keeps_acceptEntry (t : Nat) (e : Word) (hA : Within 0x140060008000000000000000000000020000000000010013000 A)
    (hK : Keeps A a₀ s) : Keeps A a₀ (acceptEntry t e s) := by
  unfold acceptEntry
  repeat' first
      | with_reducible assumption | ((with_reducible apply sub_of hA); exact rfl) | dsimp only
      | with_reducible apply keeps_addUpJob | with_reducible apply keeps_count
      | with_reducible apply keeps_setReg | with_reducible apply keeps_setWin
      | exact cov_WIN_LAST_GRANT _ rfl (sub_of hA rfl)
      | with_reducible refine keeps_ite (fun _ => ?_) (fun _ => ?_) | split | intro _

theorem keeps_grantEntry (f : FrameId) (e : Word) (hA : Within 0x140060008000000000000000000000020020000000010013400 A)
    (hK : Keeps A a₀ s) : Keeps A a₀ (grantEntry f s e) := by
  unfold grantEntry
  repeat' first
      | with_reducible assumption | ((with_reducible apply sub_of hA); exact rfl) | dsimp only
      | with_reducible apply keeps_acceptEntry | with_reducible apply keeps_count
      | with_reducible apply keeps_setRegn | with_reducible apply keeps_whenB | with_reducible apply keeps_wr
      | exact cov_REG_STATUS _ rfl (sub_of hA rfl) | with_reducible refine keeps_ite (fun _ => ?_) (fun _ => ?_)
      | split | intro _

theorem keeps_execGrantMap (entries : List Word) (hA : Within 0x140060008000000000000000000000020020000000010013400 A)
    (hK : Keeps A a₀ s) : KeepsRes A a₀ (execGrantMap entries s) := by
  unfold execGrantMap
  with_reducible apply keepsRes_done
  repeat' first
      | with_reducible assumption | ((with_reducible apply sub_of hA); exact rfl) | dsimp only
      | with_reducible apply keeps_eachOf | with_reducible apply keeps_grantEntry
      | with_reducible apply keeps_startCores | with_reducible refine keeps_ite (fun _ => ?_) (fun _ => ?_)
      | split | intro _ | with_reducible refine keeps_of_snd (by with_reducible assumption) ?_
      | with_reducible refine keeps_of_fst (by with_reducible assumption) ?_

theorem foldl_erase_le (ns l : List UpNote) : (ns.foldl (fun l n => l.erase n) l).length ≤ l.length := by
  induction ns generalizing l with
  | nil => exact Nat.le_refl _
  | cons n ns ih => exact Nat.le_trans (ih _) (List.length_erase_le)

theorem keeps_notesSent (ns : List UpNote) (hA : Within 0xf00 A) (hK : Keeps A a₀ s) : Keeps A a₀ (notesSent ns s) := by
  unfold notesSent
  repeat' first
      | with_reducible assumption | ((with_reducible apply sub_of hA); exact rfl)
      | (exact Nat.le_trans (foldl_erase_le _ _) (by assumption)) | exact fun h => h | dsimp only
      | with_reducible apply keeps_foldl | with_reducible apply keeps_setByp
      | with_reducible apply keeps_setFrame | with_reducible apply keeps_setNote
      | with_reducible apply keeps_setRegn | with_reducible apply keeps_whenB
      | with_reducible refine keeps_ite (fun _ => ?_) (fun _ => ?_) | split | intro _
      | (with_reducible show List.length _ ≤ _; exact lengthNil _)
      | (rw [List.length_append, List.length_singleton]; omega)
      | (with_reducible show List.length _ ≤ _; exact Nat.le_trans (List.length_filter_le _ _) (by assumption))
      | (with_reducible show List.length _ ≤ _; exact lengthMap _ (by assumption))
      | (with_reducible show List.length _ ≤ _; exact lengthTail (by assumption) (by assumption))

theorem keeps_markLateNotes (w : Win) (late : List Nat) (room : Nat) (hA : Within 0x1000 A)
    (hK : Keeps A a₀ s) : Keeps A a₀ (markLateNotes w late room s) := by
  unfold markLateNotes
  repeat' first
      | with_reducible assumption | ((with_reducible apply sub_of hA); exact rfl) | dsimp only
      | with_reducible apply keeps_setWin | intro _

theorem keeps_markLateQueues (w : Win) (qs : List Nat) (hA : Within 0x1000 A)
    (hK : Keeps A a₀ s) : Keeps A a₀ (markLateQueues w qs s) := by
  unfold markLateQueues
  repeat' first
      | with_reducible assumption | ((with_reducible apply sub_of hA); exact rfl) | dsimp only
      | with_reducible apply keeps_setWin | intro _

theorem keeps_takeItems (w : Win) (late : List Nat) (room : Nat) (hA : Within 0x140060008000000000000000000400000000000000010018000 A)
    (hK : Keeps A a₀ s) : Keeps A a₀ (takeItems w late room s).2 := by
  unfold takeItems
  repeat' first
      | with_reducible assumption | ((with_reducible apply sub_of hA); exact rfl) | dsimp only
      | with_reducible apply keeps_serveWindow | with_reducible refine keeps_ite (fun _ => ?_) (fun _ => ?_)
      | with_reducible refine keeps_ite_snd (fun _ => ?_) (fun _ => ?_) | split | intro _
      | with_reducible refine keeps_of_snd (by with_reducible assumption) ?_
      | with_reducible refine keeps_of_fst (by with_reducible assumption) ?_

theorem keeps_assemble (w : Win) (room : Nat) (late : List Nat) (hA : Within 0x14006000800000000000000000040000000000000001001bf00 A)
    (hK : Keeps A a₀ s) : Keeps A a₀ (assemble w room late s).2 := by
  unfold assemble
  repeat' first
      | with_reducible assumption | ((with_reducible apply sub_of hA); exact rfl) | dsimp only
      | with_reducible apply keeps_count | with_reducible apply keeps_demandBlocks
      | with_reducible apply keeps_markLateNotes | with_reducible apply keeps_markLateQueues
      | with_reducible apply keeps_notesSent | with_reducible apply keeps_sealBurst
      | with_reducible apply keeps_takeItems | with_reducible refine keeps_ite (fun _ => ?_) (fun _ => ?_)
      | with_reducible refine keeps_ite_snd (fun _ => ?_) (fun _ => ?_) | split | intro _
      | with_reducible refine keeps_of_snd (by with_reducible assumption) ?_
      | with_reducible refine keeps_of_fst (by with_reducible assumption) ?_

theorem keeps_putBurst (k : Nat) (w : Win) (ws : List Word) (hA : Within 0x1000 A)
    (hK : Keeps A a₀ s) : Keeps A a₀ (putBurst k w ws s) := by
  unfold putBurst
  repeat' first
      | with_reducible assumption | ((with_reducible apply sub_of hA); exact rfl) | dsimp only
      | with_reducible apply keeps_setWin | with_reducible refine keeps_ite (fun _ => ?_) (fun _ => ?_) | split
      | intro _

theorem keeps_noDataBurst (k : Nat) (w : Win) (hA : Within 0x140060008000000000000000000000000000000000010011000 A) (hK : Keeps A a₀ s) : Keeps A a₀ (noDataBurst k w s) := by
  unfold noDataBurst
  repeat' first
      | with_reducible assumption | ((with_reducible apply sub_of hA); exact rfl) | dsimp only
      | with_reducible apply keeps_count | with_reducible apply keeps_putBurst | intro _

theorem keeps_lockWindow (w : Win) (late : List Nat) (hA : Within 0x14006000800000000000000000040000000000000001001bf00 A)
    (hK : Keeps A a₀ s) : Keeps A a₀ (lockWindow w late s) := by
  unfold lockWindow
  repeat' first
      | with_reducible assumption | ((with_reducible apply sub_of hA); exact rfl) | dsimp only
      | with_reducible apply keeps_assemble | with_reducible apply keeps_count
      | with_reducible apply keeps_endJob | with_reducible apply keeps_noDataBurst
      | with_reducible apply keeps_putBurst | with_reducible apply keeps_setWin
      | with_reducible refine keeps_ite (fun _ => ?_) (fun _ => ?_)
      | with_reducible refine keeps_ite_snd (fun _ => ?_) (fun _ => ?_) | split | intro _
      | with_reducible refine keeps_of_snd (by with_reducible assumption) ?_
      | with_reducible refine keeps_of_fst (by with_reducible assumption) ?_

theorem keeps_execBurstLock (late : List Nat) (hA : Within 0x14006000800000000000000000040000000000000001001bf00 A)
    (hK : Keeps A a₀ s) : KeepsRes A a₀ (execBurstLock late s) := by
  unfold execBurstLock
  with_reducible apply keepsRes_done
  repeat' first
      | with_reducible assumption | ((with_reducible apply sub_of hA); exact rfl) | dsimp only
      | with_reducible apply keeps_lockWindow | split | intro _
      | with_reducible refine keeps_of_snd (by with_reducible assumption) ?_
      | with_reducible refine keeps_of_fst (by with_reducible assumption) ?_

theorem keeps_claimWritten (hA : Within 0x140060008000000000000000000000000000000000010010400 A) (hK : Keeps A a₀ s) : Keeps A a₀ (claimWritten s) := by
  unfold claimWritten
  repeat' first
      | with_reducible assumption | ((with_reducible apply sub_of hA); exact rfl) | dsimp only
      | with_reducible apply keeps_count | with_reducible apply keeps_setRegn | intro _

theorem keeps_writeBurst (sd : Side) (k : Nat) (b : Burst) (rx : List RxWord) (hA : Within 0x140060008000000000000000000000000000000000030011400 A)
    (hK : Keeps A a₀ s) : Keeps A a₀ (writeBurst sd k b rx s) := by
  unfold writeBurst
  repeat' first
      | with_reducible assumption | ((with_reducible apply sub_of hA); exact rfl) | dsimp only
      | with_reducible apply keeps_claimWritten | with_reducible apply keeps_count
      | with_reducible apply keeps_countN | with_reducible apply keeps_emit | with_reducible apply keeps_setOpen
      | with_reducible apply keeps_setWin | with_reducible apply keeps_whenB
      | with_reducible refine keeps_ite (fun _ => ?_) (fun _ => ?_) | split | intro _

theorem keeps_execWindowWrite (side : Side) (buf : Nat) (rowDir : Option Bool) (rx : List RxWord) (hA : Within 0x140060008000000000000000000000000000000000030011400 A)
    (hK : Keeps A a₀ s) : KeepsRes A a₀ (execWindowWrite side buf rowDir rx s) := by
  unfold execWindowWrite
  with_reducible apply keepsRes_done
  repeat' first
      | with_reducible assumption | ((with_reducible apply sub_of hA); exact rfl) | dsimp only
      | with_reducible apply keeps_setWin | with_reducible apply keeps_writeBurst
      | with_reducible refine keeps_ite (fun _ => ?_) (fun _ => ?_) | split | intro _
      | with_reducible refine keeps_of_snd (by with_reducible assumption) ?_
      | with_reducible refine keeps_of_fst (by with_reducible assumption) ?_

theorem keeps_execBurstBufferRelease (buf : Nat) (hA : Within 0x140060008000000000000000000000000000000000010011000 A)
    (hK : Keeps A a₀ s) : KeepsRes A a₀ (execBurstBufferRelease buf s) := by
  unfold execBurstBufferRelease
  with_reducible apply keepsRes_done
  repeat' first
      | with_reducible assumption | ((with_reducible apply sub_of hA); exact rfl) | dsimp only
      | with_reducible apply keeps_count | with_reducible apply keeps_setWin | with_reducible apply keeps_whenB
      | with_reducible refine keeps_ite (fun _ => ?_) (fun _ => ?_) | split | intro _
      | with_reducible refine keeps_of_snd (by with_reducible assumption) ?_
      | with_reducible refine keeps_of_fst (by with_reducible assumption) ?_

end Sys2Proof.Laws
end

