-- ==== Sys2Proof/Laws/KeepsNoteRx.lean ====
section
/-! SUPPORT. `Keeps` for the operations of Machine/NoteRx.lean. -/

set_option linter.unusedTactic false
set_option linter.unreachableTactic false

namespace Sys2Proof.Laws

open Sys2Proof Sys2Proof.Machine Sys2Proof.Safety

variable {A : Nat} {a₀ s : State}

theorem keeps_endRegion (hA : Within 0x200 A) (hK : Keeps A a₀ s) : Keeps A a₀ (endRegion s) := by
  unfold endRegion
  repeat' first
      | with_reducible assumption | ((with_reducible apply sub_of hA); exact rfl) | dsimp only
      | with_reducible apply keeps_setFrame | intro _

theorem keeps_stopRegion (hA : Within 0x140060008000000000000000000000000000000000010010200 A) (hK : Keeps A a₀ s) : Keeps A a₀ (stopRegion s) := by
  unfold stopRegion
  repeat' first
      | with_reducible assumption | ((with_reducible apply sub_of hA); exact rfl) | dsimp only
      | with_reducible apply keeps_count | with_reducible apply keeps_endRegion | intro _

theorem keeps_recordSeq (a : NAddr) (q : Nat) (hA : Within 0x4000000000000000000 A) (hK : Keeps A a₀ s) : Keeps A a₀ (recordSeq a q s) := by
  unfold recordSeq
  repeat' first
      | with_reducible assumption | ((with_reducible apply sub_of hA); exact rfl) | dsimp only
      | with_reducible apply keeps_wr | exact cov_NOTE_SEQ _ rfl (sub_of hA rfl) | split | intro _
      | with_reducible refine keeps_of_snd (by with_reducible assumption) ?_
      | with_reducible refine keeps_of_fst (by with_reducible assumption) ?_

theorem keeps_ackNote (n : Note) (status : Nat) (hA : Within 0x140060008000000000000000000000000000000000010010800 A)
    (hK : Keeps A a₀ s) : Keeps A a₀ (ackNote n status s) := by
  unfold ackNote
  repeat' first
      | with_reducible assumption | ((with_reducible apply sub_of hA); exact rfl) | dsimp only
      | with_reducible apply keeps_queueAgain | intro _

theorem keeps_keepStatus (n : Note) (status : Nat) (hA : Within 0x4000000000000000800 A)
    (hK : Keeps A a₀ s) : Keeps A a₀ (keepStatus n status s) := by
  unfold keepStatus
  repeat' first
      | with_reducible assumption | ((with_reducible apply sub_of hA); exact rfl) | exact fun h => h
      | dsimp only | with_reducible apply keeps_setNote | with_reducible apply keeps_wr
      | exact cov_NOTE_SEQ _ rfl (sub_of hA rfl) | with_reducible refine keeps_ite (fun _ => ?_) (fun _ => ?_)
      | split | intro _ | (with_reducible show List.length _ ≤ _; exact lengthNil _)
      | (rw [List.length_append, List.length_singleton]; omega)
      | (with_reducible show List.length _ ≤ _; exact Nat.le_trans (List.length_filter_le _ _) (by assumption))
      | (with_reducible show List.length _ ≤ _; exact lengthMap _ (by assumption))
      | (with_reducible show List.length _ ≤ _; exact lengthTail (by assumption) (by assumption))

theorem keeps_answer (n : Note) (stream : Option NAddr) (status : Nat) (hA : Within 0x140060008000000000000000000000004000000000010010800 A)
    (hK : Keeps A a₀ s) : Keeps A a₀ (answer n stream status s) := by
  unfold answer
  repeat' first
      | with_reducible assumption | ((with_reducible apply sub_of hA); exact rfl) | dsimp only
      | with_reducible apply keeps_ackNote | with_reducible apply keeps_count
      | with_reducible apply keeps_keepStatus | with_reducible apply keeps_whenB
      | with_reducible refine keeps_ite (fun _ => ?_) (fun _ => ?_) | split | intro _

theorem keeps_duplicate (n : Note) (a : NAddr) (hA : Within 0x140060008000000000000000000000000000000000010010800 A)
    (hK : Keeps A a₀ s) : Keeps A a₀ (duplicate n a s) := by
  unfold duplicate
  repeat' first
      | with_reducible assumption | ((with_reducible apply sub_of hA); exact rfl) | dsimp only
      | with_reducible apply keeps_ackNote | with_reducible apply keeps_count
      | with_reducible refine keeps_ite (fun _ => ?_) (fun _ => ?_) | split | intro _
      | with_reducible refine keeps_of_snd (by with_reducible assumption) ?_
      | with_reducible refine keeps_of_fst (by with_reducible assumption) ?_

theorem keeps_newSeq (a : NAddr) (q : Nat) (hA : Within 0x4000000000000000800 A) (hK : Keeps A a₀ s) : Keeps A a₀ (newSeq a q s) := by
  unfold newSeq
  repeat' first
      | with_reducible assumption | ((with_reducible apply sub_of hA); exact rfl) | exact fun h => h
      | dsimp only | with_reducible apply keeps_recordSeq | with_reducible apply keeps_setNote
      | with_reducible refine keeps_ite (fun _ => ?_) (fun _ => ?_) | split | intro _
      | (with_reducible show List.length _ ≤ _; exact lengthNil _)
      | (rw [List.length_append, List.length_singleton]; omega)
      | (with_reducible show List.length _ ≤ _; exact Nat.le_trans (List.length_filter_le _ _) (by assumption))
      | (with_reducible show List.length _ ≤ _; exact lengthMap _ (by assumption))
      | (with_reducible show List.length _ ≤ _; exact lengthTail (by assumption) (by assumption))

theorem keeps_takeNote (k : NKind) (n : Note) (act : List Byte → NAddr → State → Option Nat × State) (hact : ∀ x0 x1 s, Keeps A a₀ s → Keeps A a₀ (act x0 x1 s).2) (hA : Within 0x140060008000000000000000000000004000000000010010a00 A)
    (hK : Keeps A a₀ s) : Keeps A a₀ (takeNote k n act s) := by
  unfold takeNote
  repeat' first
      | with_reducible assumption | ((with_reducible apply sub_of hA); exact rfl) | dsimp only
      | with_reducible apply keeps_answer | with_reducible apply keeps_count
      | with_reducible apply keeps_duplicate | with_reducible apply keeps_newSeq
      | with_reducible apply keeps_stopRegion | with_reducible refine keeps_ite (fun _ => ?_) (fun _ => ?_)
      | split | intro _ | with_reducible refine keeps_of_snd (by with_reducible assumption) ?_
      | with_reducible refine keeps_of_fst (by with_reducible assumption) ?_ | with_reducible apply hact

theorem keeps_withTick (w : Word) (least : Nat) (f : Nat → State → Option Nat × State) (hf : ∀ x0 s, Keeps A a₀ s → Keeps A a₀ (f x0 s).2) (hA : Within 0x140060008000000000000000000000000000000000010010000 A) (hK : Keeps A a₀ s) : Keeps A a₀ (withTick w least f s).2 := by
  unfold withTick
  repeat' first
      | with_reducible assumption | ((with_reducible apply sub_of hA); exact rfl) | dsimp only
      | with_reducible apply keeps_count | with_reducible apply keeps_whenB | with_reducible apply hf | split
      | intro _ | with_reducible refine keeps_of_snd (by with_reducible assumption) ?_
      | with_reducible refine keeps_of_fst (by with_reducible assumption) ?_

theorem keeps_withOwnTick (w : Word) (least : Nat) (late : Nat) (f : Nat → State → Option Nat × State) (hf : ∀ x0 s, Keeps A a₀ s → Keeps A a₀ (f x0 s).2) (hA : Within 0x140060008000000000000000000000000000000000010010000 A) (hK : Keeps A a₀ s) : Keeps A a₀ (withOwnTick w least late f s).2 := by
  unfold withOwnTick
  repeat' first
      | with_reducible assumption | ((with_reducible apply sub_of hA); exact rfl) | dsimp only
      | with_reducible apply keeps_count | with_reducible apply hf
      | with_reducible refine keeps_ite (fun _ => ?_) (fun _ => ?_)
      | with_reducible refine keeps_ite_snd (fun _ => ?_) (fun _ => ?_) | split | intro _
      | with_reducible refine keeps_of_snd (by with_reducible assumption) ?_
      | with_reducible refine keeps_of_fst (by with_reducible assumption) ?_

end Sys2Proof.Laws
end

