-- ==== Sys2Proof/Laws/KeepsBypass.lean ====
section
/-! SUPPORT. `Keeps` for the operations of Machine/Bypass.lean. -/

set_option linter.unusedTactic false
set_option linter.unreachableTactic false

namespace Sys2Proof.Laws

open Sys2Proof Sys2Proof.Machine Sys2Proof.Safety

variable {A : Nat} {a₀ s : State}

theorem keeps_disarm (cause : Nat) (hA : Within 0x4000000000100 A) (hK : Keeps A a₀ s) : Keeps A a₀ (disarm cause s) := by
  unfold disarm
  repeat' first
      | with_reducible assumption | ((with_reducible apply sub_of hA); exact rfl) | dsimp only
      | with_reducible apply keeps_setByp | with_reducible apply keeps_wr
      | exact cov_BYPASS_STATUS _ rfl (sub_of hA rfl) | with_reducible refine keeps_ite (fun _ => ?_) (fun _ => ?_)
      | split | intro _

theorem keeps_bypassFall (cause : Nat) (hA : Within 0x140060008000004000000000000000000000004000010091100 A) (hK : Keeps A a₀ s) : Keeps A a₀ (bypassFall cause s) := by
  unfold bypassFall
  repeat' first
      | with_reducible assumption | ((with_reducible apply sub_of hA); exact rfl) | dsimp only
      | with_reducible apply keeps_count | with_reducible apply keeps_cutWindows
      | with_reducible apply keeps_disarm | with_reducible apply keeps_raise
      | with_reducible apply keeps_rundownAll | with_reducible apply keeps_setByp | intro _

theorem keeps_healthReport (parityErr : Bool) (boundaryLate : Bool) (hA : Within 0x140060008000004000000000000000000000004000010091100 A) (hK : Keeps A a₀ s) : Keeps A a₀ (healthReport parityErr boundaryLate s) := by
  unfold healthReport
  repeat' first
      | with_reducible assumption | ((with_reducible apply sub_of hA); exact rfl) | dsimp only
      | with_reducible apply keeps_bypassFall | with_reducible apply keeps_disarm | with_reducible apply keeps_setByp
      | with_reducible apply keeps_wr | exact cov_BYPASS_STATUS _ rfl (sub_of hA rfl)
      | with_reducible refine keeps_ite (fun _ => ?_) (fun _ => ?_) | split | intro _
      | with_reducible refine keeps_of_snd (by with_reducible assumption) ?_
      | with_reducible refine keeps_of_fst (by with_reducible assumption) ?_

theorem keeps_goodTicks  (hA : Within 0x100 A) (hK : Keeps A a₀ s) : Keeps A a₀ (goodTicks s) := by
  unfold goodTicks
  repeat' first
      | with_reducible assumption | ((with_reducible apply sub_of hA); exact rfl) | dsimp only
      | with_reducible apply keeps_setByp | with_reducible refine keeps_ite (fun _ => ?_) (fun _ => ?_) | split
      | intro _

theorem keeps_markerTick  (hA : Within 0x200 A) (hK : Keeps A a₀ s) : Keeps A a₀ (markerTick s) := by
  unfold markerTick
  repeat' first
      | with_reducible assumption | ((with_reducible apply sub_of hA); exact rfl) | dsimp only
      | with_reducible apply keeps_setFrame | with_reducible refine keeps_ite (fun _ => ?_) (fun _ => ?_) | split
      | intro _

theorem keeps_countedCycle (hA : Within 0x20000000000000f00 A) (hK : Keeps A a₀ s) : Keeps A a₀ (countedCycle s) := by
  unfold countedCycle
  repeat' first
      | with_reducible assumption | ((with_reducible apply sub_of hA); exact rfl) | exact fun h => h
      | dsimp only | with_reducible apply keeps_setByp | with_reducible apply keeps_setFrame
      | with_reducible apply keeps_setNote | with_reducible apply keeps_setRegn | with_reducible apply keeps_wr
      | exact cov_REG_STATUS _ rfl (sub_of hA rfl) | with_reducible refine keeps_ite (fun _ => ?_) (fun _ => ?_)
      | split | intro _ | (with_reducible show List.length _ ≤ _; exact lengthNil _)
      | (rw [List.length_append, List.length_singleton]; omega)
      | (with_reducible show List.length _ ≤ _; exact Nat.le_trans (List.length_filter_le _ _) (by assumption))
      | (with_reducible show List.length _ ≤ _; exact lengthMap _ (by assumption))
      | (with_reducible show List.length _ ≤ _; exact lengthTail (by assumption) (by assumption))

theorem keeps_watchdogCycle  (hA : Within 0x20000000000000 A) (hK : Keeps A a₀ s) : Keeps A a₀ (watchdogCycle s) := by
  unfold watchdogCycle
  repeat' first
      | with_reducible assumption | ((with_reducible apply sub_of hA); exact rfl) | dsimp only
      | with_reducible apply keeps_wr | exact cov_KA_WATCHDOG _ rfl (sub_of hA rfl)
      | with_reducible refine keeps_ite (fun _ => ?_) (fun _ => ?_) | split | intro _

theorem keeps_cycleEnd  (hA : Within 0x20020000000002f00 A) (hK : Keeps A a₀ s) : Keeps A a₀ (cycleEnd s) := by
  unfold cycleEnd
  repeat' first
      | with_reducible assumption | ((with_reducible apply sub_of hA); exact rfl) | dsimp only
      | with_reducible apply keeps_countedCycle | with_reducible apply keeps_setByp
      | with_reducible apply keeps_setFrame | with_reducible apply keeps_setKey | with_reducible apply keeps_setRegn
      | with_reducible apply keeps_watchdogCycle | with_reducible apply keeps_whenB | intro _

theorem keeps_lineTickEnd (parityErr : Bool) (boundaryLate : Bool) (hA : Within 0x140060008000004000000000000000200020024000010093f10 A) (hK : Keeps A a₀ s) : Keeps A a₀ (lineTickEnd parityErr boundaryLate s) := by
  unfold lineTickEnd
  repeat' first
      | with_reducible assumption | ((with_reducible apply sub_of hA); exact rfl) | dsimp only
      | with_reducible apply keeps_cipherTick | with_reducible apply keeps_cycleEnd
      | with_reducible apply keeps_goodTicks | with_reducible apply keeps_healthReport
      | with_reducible apply keeps_markerTick | with_reducible apply keeps_purgeJobs
      | with_reducible apply keeps_setByp | with_reducible apply keeps_setLine | with_reducible apply keeps_whenB
      | intro _

theorem keeps_execHealthPulse (parityErr : Bool) (boundaryLate : Bool) (hA : Within 0x140060008000004000000000000000200020024000010093f10 A) (hK : Keeps A a₀ s) : KeepsRes A a₀ (execHealthPulse parityErr boundaryLate s) := by
  unfold execHealthPulse
  with_reducible apply keepsRes_done
  repeat' first
      | with_reducible assumption | ((with_reducible apply sub_of hA); exact rfl) | dsimp only
      | with_reducible apply keeps_done | with_reducible apply keeps_lineTickEnd
      | with_reducible refine keeps_ite (fun _ => ?_) (fun _ => ?_) | split | intro _

theorem keeps_noAutoTurn (hA : Within 0x40000000 A) (hK : Keeps A a₀ s) : Keeps A a₀ (noAutoTurn s) := by
  unfold noAutoTurn
  repeat' first
      | with_reducible assumption | ((with_reducible apply sub_of hA); exact rfl) | dsimp only
      | with_reducible apply keeps_setSpan | intro _

theorem keeps_backToListening (hA : Within 0x1400600080000040000000000000000042200040008700d2f01 A) (hK : Keeps A a₀ s) : Keeps A a₀ (backToListening s) := by
  unfold backToListening
  repeat' first
      | with_reducible assumption | ((with_reducible apply sub_of hA); exact rfl) | dsimp only
      | with_reducible apply keeps_clearId | with_reducible apply keeps_goTerm
      | with_reducible apply keeps_noAutoTurn | with_reducible apply keeps_setByp
      | with_reducible apply keeps_setRegn | with_reducible apply keeps_wr
      | exact cov_BYPASS_STATUS _ rfl (sub_of hA rfl) | exact cov_TIME_STATUS _ rfl (sub_of hA rfl)
      | exact cov_RANGE_STATUS _ rfl (sub_of hA rfl) | intro _

theorem keeps_execClassTimeElapsed  (hA : Within 0x1400600080000040000000000000000042200040008700d2f01 A) (hK : Keeps A a₀ s) : KeepsRes A a₀ (execClassTimeElapsed s) := by
  unfold execClassTimeElapsed
  with_reducible apply keepsRes_done
  repeat' first
      | with_reducible assumption | ((with_reducible apply sub_of hA); exact rfl) | dsimp only
      | with_reducible apply keeps_backToListening | with_reducible apply keeps_done
      | with_reducible apply keeps_raise | with_reducible apply keeps_setByp | with_reducible apply keeps_wr
      | exact cov_BYPASS_STATUS _ rfl (sub_of hA rfl) | with_reducible refine keeps_ite (fun _ => ?_) (fun _ => ?_)
      | split | intro _ | with_reducible refine keeps_of_snd (by with_reducible assumption) ?_
      | with_reducible refine keeps_of_fst (by with_reducible assumption) ?_

theorem keeps_kaWatchdogWrite (p : Path) (v : Word) (hA : Within 0x20000000000100 A) (hK : Keeps A a₀ s) : Keeps A a₀ (kaWatchdogWrite p v s) := by
  unfold kaWatchdogWrite
  repeat' first
      | with_reducible assumption | ((with_reducible apply sub_of hA); exact rfl) | dsimp only
      | with_reducible apply keeps_setByp | with_reducible apply keeps_wr
      | exact cov_KA_WATCHDOG _ rfl (sub_of hA rfl) | with_reducible refine keeps_ite (fun _ => ?_) (fun _ => ?_)
      | split | intro _

theorem keeps_execWatchdogExpiry  (hA : Within 0x100 A) (hK : Keeps A a₀ s) : KeepsRes A a₀ (execWatchdogExpiry s) := by
  unfold execWatchdogExpiry
  with_reducible apply keepsRes_done
  repeat' first
      | with_reducible assumption | ((with_reducible apply sub_of hA); exact rfl) | dsimp only
      | with_reducible apply keeps_done | with_reducible apply keeps_setByp
      | with_reducible refine keeps_ite (fun _ => ?_) (fun _ => ?_) | split | intro _

theorem keeps_pendAdmit (t : Nat) (hA : Within 0x10000000000100 A) (hK : Keeps A a₀ s) : Keeps A a₀ (pendAdmit t s) := by
  unfold pendAdmit
  repeat' first
      | with_reducible assumption | ((with_reducible apply sub_of hA); exact rfl) | dsimp only
      | with_reducible apply keeps_setByp | with_reducible apply keeps_wr | exact cov_ADMIT_TICK _ rfl (sub_of hA rfl)
      | intro _

theorem keeps_execAdmit (n : Note) (hA : Within 0x140060008000000000000000000000004000010000010010b00 A) (hK : Keeps A a₀ s) : KeepsRes A a₀ (execAdmit n s) := by
  unfold execAdmit
  with_reducible apply keepsRes_done
  repeat' first
      | with_reducible assumption | ((with_reducible apply sub_of hA); exact rfl) | dsimp only
      | with_reducible apply keeps_done | with_reducible apply keeps_pendAdmit | with_reducible apply keeps_takeNote
      | with_reducible apply keeps_withOwnTick | intro _

theorem keeps_lightsOn (hA : Within 0x60000100 A) (hK : Keeps A a₀ s) : Keeps A a₀ (lightsOn s) := by
  unfold lightsOn
  repeat' first
      | with_reducible assumption | ((with_reducible apply sub_of hA); exact rfl) | dsimp only
      | with_reducible apply keeps_fillAt | with_reducible apply keeps_setByp
      | with_reducible apply keeps_setSpan | with_reducible apply keeps_whenB | intro _

theorem keeps_execInsertion (hA : Within 0x1400600080000040000000000000000000000140000700d0501 A) (hK : Keeps A a₀ s) : KeepsRes A a₀ (execInsertion s) := by
  unfold execInsertion
  with_reducible apply keepsRes_done
  repeat' first
      | with_reducible assumption | ((with_reducible apply sub_of hA); exact rfl) | dsimp only
      | with_reducible apply keeps_goTerm | with_reducible apply keeps_lightsOn
      | with_reducible apply keeps_setByp | with_reducible apply keeps_setRegn | with_reducible apply keeps_wr
      | exact cov_BYPASS_STATUS _ rfl (sub_of hA rfl) | exact cov_ADMIT_TICK _ rfl (sub_of hA rfl)
      | with_reducible refine keeps_ite (fun _ => ?_) (fun _ => ?_) | split | intro _
      | with_reducible refine keeps_of_snd (by with_reducible assumption) ?_
      | with_reducible refine keeps_of_fst (by with_reducible assumption) ?_

theorem keeps_execAdmitDone  (hA : Within 0x140060008000000000000000000000000000000000010010100 A) (hK : Keeps A a₀ s) : KeepsRes A a₀ (execAdmitDone s) := by
  unfold execAdmitDone
  with_reducible apply keepsRes_done
  repeat' first
      | with_reducible assumption | ((with_reducible apply sub_of hA); exact rfl) | dsimp only
      | with_reducible apply keeps_done | with_reducible apply keeps_raise | with_reducible apply keeps_setByp
      | with_reducible refine keeps_ite (fun _ => ?_) (fun _ => ?_) | split | intro _
      | with_reducible refine keeps_of_snd (by with_reducible assumption) ?_
      | with_reducible refine keeps_of_fst (by with_reducible assumption) ?_

theorem keeps_execAdmitFail  (hA : Within 0x140060008000004000000000000000000000004000010091100 A) (hK : Keeps A a₀ s) : KeepsRes A a₀ (execAdmitFail s) := by
  unfold execAdmitFail
  with_reducible apply keepsRes_done
  repeat' first
      | with_reducible assumption | ((with_reducible apply sub_of hA); exact rfl) | dsimp only
      | with_reducible apply keeps_bypassFall | with_reducible apply keeps_count | with_reducible apply keeps_done
      | with_reducible apply keeps_raise | with_reducible refine keeps_ite (fun _ => ?_) (fun _ => ?_) | split
      | intro _ | with_reducible refine keeps_of_snd (by with_reducible assumption) ?_
      | with_reducible refine keeps_of_fst (by with_reducible assumption) ?_

theorem keeps_stageTurn (t : Nat) (sd : Option Side) (hA : Within 0x140060008000000000000000000000000000000000010010100 A) (hK : Keeps A a₀ s) : Keeps A a₀ (stageTurn t sd s) := by
  unfold stageTurn
  repeat' first
      | with_reducible assumption | ((with_reducible apply sub_of hA); exact rfl) | dsimp only
      | with_reducible apply keeps_count | with_reducible apply keeps_setByp | with_reducible apply keeps_whenB
      | with_reducible refine keeps_ite (fun _ => ?_) (fun _ => ?_) | split | intro _

theorem keeps_execTurn (n : Note) (hA : Within 0x140060008000000000000000000000004000000000010010b00 A) (hK : Keeps A a₀ s) : KeepsRes A a₀ (execTurn n s) := by
  unfold execTurn
  with_reducible apply keepsRes_done
  repeat' first
      | with_reducible assumption | ((with_reducible apply sub_of hA); exact rfl) | dsimp only
      | with_reducible apply keeps_count | with_reducible apply keeps_done | with_reducible apply keeps_stageTurn
      | with_reducible apply keeps_takeNote | with_reducible apply keeps_withOwnTick
      | with_reducible refine keeps_ite (fun _ => ?_) (fun _ => ?_) | split | intro _

theorem keeps_execTurnEnd (n : Note) (hA : Within 0x140060008000000000000000000000004000000000010010b00 A) (hK : Keeps A a₀ s) : KeepsRes A a₀ (execTurnEnd n s) := by
  unfold execTurnEnd
  with_reducible apply keepsRes_done
  repeat' first
      | with_reducible assumption | ((with_reducible apply sub_of hA); exact rfl) | dsimp only
      | with_reducible apply keeps_count | with_reducible apply keeps_done | with_reducible apply keeps_stageTurn
      | with_reducible apply keeps_takeNote | with_reducible apply keeps_withOwnTick
      | with_reducible refine keeps_ite (fun _ => ?_) (fun _ => ?_) | split | intro _

theorem keeps_turnDone (p : Nat × Option Side) (hA : Within 0x100 A)
    (hK : Keeps A a₀ s) : Keeps A a₀ (turnDone p s) := by
  unfold turnDone
  repeat' first
      | with_reducible assumption | ((with_reducible apply sub_of hA); exact rfl) | dsimp only
      | with_reducible apply keeps_setByp | intro _

theorem keeps_turnTo (d : Side) (hA : Within 0x4000040000000 A) (hK : Keeps A a₀ s) : Keeps A a₀ (turnTo d s) := by
  unfold turnTo
  repeat' first
      | with_reducible assumption | ((with_reducible apply sub_of hA); exact rfl) | dsimp only
      | with_reducible apply keeps_noAutoTurn | with_reducible apply keeps_wr
      | exact cov_BYPASS_STATUS _ rfl (sub_of hA rfl) | exact cov_turned _ (sub_of hA rfl)
      | with_reducible refine keeps_ite (fun _ => ?_) (fun _ => ?_) | split | intro _

theorem keeps_turnOff (d : Side) (hA : Within 0x4000040000000 A) (hK : Keeps A a₀ s) : Keeps A a₀ (turnOff d s) := by
  unfold turnOff
  repeat' first
      | with_reducible assumption | ((with_reducible apply sub_of hA); exact rfl) | dsimp only
      | with_reducible apply keeps_noAutoTurn | with_reducible apply keeps_wr
      | exact cov_BYPASS_STATUS _ rfl (sub_of hA rfl) | exact cov_turned _ (sub_of hA rfl) | intro _

theorem keeps_execTurnEffective (side : Side) (hA : Within 0x4000040000100 A)
    (hK : Keeps A a₀ s) : KeepsRes A a₀ (execTurnEffective side s) := by
  unfold execTurnEffective
  with_reducible apply keepsRes_done
  repeat' first
      | with_reducible assumption | ((with_reducible apply sub_of hA); exact rfl) | dsimp only
      | with_reducible apply keeps_turnDone | with_reducible apply keeps_turnOff
      | with_reducible apply keeps_turnTo | with_reducible refine keeps_ite (fun _ => ?_) (fun _ => ?_) | split
      | intro _ | with_reducible refine keeps_of_snd (by with_reducible assumption) ?_
      | with_reducible refine keeps_of_fst (by with_reducible assumption) ?_
      | exact cov_turned _ (sub_of hA rfl)

theorem keeps_execTurnAuto (side : Side) (hA : Within 0x140060008000000000000000000000000000004000050010000 A)
    (hK : Keeps A a₀ s) : KeepsRes A a₀ (execTurnAuto side s) := by
  unfold execTurnAuto
  with_reducible apply keepsRes_done
  repeat' first
      | with_reducible assumption | ((with_reducible apply sub_of hA); exact rfl) | dsimp only
      | with_reducible apply keeps_count | with_reducible apply keeps_raise | with_reducible apply keeps_setSpan
      | with_reducible refine keeps_ite (fun _ => ?_) (fun _ => ?_) | split | intro _
      | exact cov_turned _ (sub_of hA rfl)

theorem keeps_execLeave (n : Note) (hA : Within 0x140060008000000000000000000000004000000000010010b00 A) (hK : Keeps A a₀ s) : KeepsRes A a₀ (execLeave n s) := by
  unfold execLeave
  with_reducible apply keepsRes_done
  repeat' first
      | with_reducible assumption | ((with_reducible apply sub_of hA); exact rfl) | dsimp only
      | with_reducible apply keeps_setByp | with_reducible apply keeps_takeNote
      | with_reducible apply keeps_withOwnTick | intro _

theorem keeps_beginLeaving (hA : Within 0x1400600080000040000000000000000000000000000300d1101 A) (hK : Keeps A a₀ s) : Keeps A a₀ (beginLeaving s) := by
  unfold beginLeaving
  repeat' first
      | with_reducible assumption | ((with_reducible apply sub_of hA); exact rfl) | dsimp only
      | with_reducible apply keeps_cutWindows | with_reducible apply keeps_goTerm
      | with_reducible apply keeps_setByp | intro _

theorem keeps_execLeaving  (hA : Within 0x1400600080000040000000000000000000000000000300d1101 A) (hK : Keeps A a₀ s) : KeepsRes A a₀ (execLeaving s) := by
  unfold execLeaving
  with_reducible apply keepsRes_done
  repeat' first
      | with_reducible assumption | ((with_reducible apply sub_of hA); exact rfl) | dsimp only
      | with_reducible apply keeps_beginLeaving | with_reducible apply keeps_done
      | with_reducible refine keeps_ite (fun _ => ?_) (fun _ => ?_) | split | intro _
      | with_reducible refine keeps_of_snd (by with_reducible assumption) ?_
      | with_reducible refine keeps_of_fst (by with_reducible assumption) ?_

theorem keeps_execLeaveReqTimeout (hA : Within 0x1400600080000040000000000000000000000000000300d1101 A)
    (hK : Keeps A a₀ s) : KeepsRes A a₀ (execLeaveReqTimeout s) := by
  unfold execLeaveReqTimeout
  with_reducible apply keepsRes_done
  repeat' first
      | with_reducible assumption | ((with_reducible apply sub_of hA); exact rfl) | dsimp only
      | with_reducible apply keeps_beginLeaving | with_reducible refine keeps_ite (fun _ => ?_) (fun _ => ?_)
      | split | intro _ | with_reducible refine keeps_of_snd (by with_reducible assumption) ?_
      | with_reducible refine keeps_of_fst (by with_reducible assumption) ?_

theorem keeps_execLeaveReqRepeat  (hA : Within 0x140060008000000000000000000000000000000000010010900 A) (hK : Keeps A a₀ s) : KeepsRes A a₀ (execLeaveReqRepeat s) := by
  unfold execLeaveReqRepeat
  with_reducible apply keepsRes_done
  repeat' first
      | with_reducible assumption | ((with_reducible apply sub_of hA); exact rfl) | dsimp only
      | with_reducible apply keeps_done | with_reducible apply keeps_queueRepeat | with_reducible apply keeps_setByp
      | with_reducible refine keeps_ite (fun _ => ?_) (fun _ => ?_) | split | intro _

end Sys2Proof.Laws
end

