-- ==== Sys2Proof/Laws/KeepsRegistration.lean ====
section
/-! SUPPORT. `Keeps` for the operations of Machine/Registration.lean. -/

set_option linter.unusedTactic false
set_option linter.unreachableTactic false

namespace Sys2Proof.Laws

open Sys2Proof Sys2Proof.Machine Sys2Proof.Safety

variable {A : Nat} {a₀ s : State}

theorem keeps_ephemeral (hA : Within 0x10002400 A) (hK : Keeps A a₀ s) : Keeps A a₀ (ephemeral s) := by
  unfold ephemeral
  repeat' first
      | with_reducible assumption | ((with_reducible apply sub_of hA); exact rfl) | dsimp only
      | with_reducible apply keeps_drawBytes | with_reducible apply keeps_putSlot
      | with_reducible apply keeps_setRegn | split | intro _
      | with_reducible refine keeps_of_snd (by with_reducible assumption) ?_
      | with_reducible refine keeps_of_fst (by with_reducible assumption) ?_

theorem keeps_signClaim (hA : Within 0x140060008000000000000000000001000000000000010010400 A) (hK : Keeps A a₀ s) : Keeps A a₀ (signClaim s) := by
  unfold signClaim
  repeat' first
      | with_reducible assumption | ((with_reducible apply sub_of hA); exact rfl) | dsimp only
      | with_reducible apply keeps_drawBytes | with_reducible apply keeps_setRegn
      | with_reducible apply keeps_sigEnds | with_reducible refine keeps_ite (fun _ => ?_) (fun _ => ?_)
      | with_reducible refine keeps_ite_snd (fun _ => ?_) (fun _ => ?_) | split | intro _
      | with_reducible refine keeps_of_snd (by with_reducible assumption) ?_
      | with_reducible refine keeps_of_fst (by with_reducible assumption) ?_

theorem keeps_execClaimPrepared (hA : Within 0x140060008000000000000000000001000000000000010012400 A) (hK : Keeps A a₀ s) : KeepsRes A a₀ (execClaimPrepared s) := by
  unfold execClaimPrepared
  with_reducible apply keepsRes_done
  repeat' first
      | with_reducible assumption | ((with_reducible apply sub_of hA); exact rfl) | dsimp only
      | with_reducible apply keeps_ephemeral | with_reducible apply keeps_sigEnds
      | with_reducible apply keeps_signClaim | with_reducible refine keeps_ite (fun _ => ?_) (fun _ => ?_)
      | split | intro _

theorem keeps_setBackoff (n : Nat) (hA : Within 0x20000000000000400 A) (hK : Keeps A a₀ s) : Keeps A a₀ (setBackoff n s) := by
  unfold setBackoff
  repeat' first
      | with_reducible assumption | ((with_reducible apply sub_of hA); exact rfl) | dsimp only
      | with_reducible apply keeps_setRegn | with_reducible apply keeps_wr
      | exact cov_REG_STATUS _ rfl (sub_of hA rfl) | intro _

theorem keeps_claimNote  (hA : Within 0x800 A) (hK : Keeps A a₀ s) : Keeps A a₀ (claimNote s).2 := by
  unfold claimNote
  repeat' first
      | with_reducible assumption | ((with_reducible apply sub_of hA); exact rfl) | exact fun h => h | dsimp only
      | with_reducible apply keeps_setNote | with_reducible refine keeps_ite (fun _ => ?_) (fun _ => ?_)
      | with_reducible refine keeps_ite_snd (fun _ => ?_) (fun _ => ?_) | split | intro _
      | (with_reducible show List.length _ ≤ _; exact lengthNil _)

theorem keeps_sendClaim (o : DiscOffer) (west east : Bool) (hA : Within 0x140060008000000000000000000000000000000000010011800 A)
    (hK : Keeps A a₀ s) : Keeps A a₀ (sendClaim o west east s) := by
  unfold sendClaim
  repeat' first
      | with_reducible assumption | ((with_reducible apply sub_of hA); exact rfl) | dsimp only
      | with_reducible apply keeps_claimNote | with_reducible apply keeps_count
      | with_reducible apply keeps_noDataBurst | with_reducible apply keeps_putBurst | split | intro _
      | with_reducible refine keeps_of_snd (by with_reducible assumption) ?_
      | with_reducible refine keeps_of_fst (by with_reducible assumption) ?_

theorem keeps_execClaim (west east : Option RxWord) (hA : Within 0x140060008000000000000000000000000020000000010011e00 A)
    (hK : Keeps A a₀ s) : KeepsRes A a₀ (execClaim west east s) := by
  unfold execClaim
  with_reducible apply keepsRes_done
  repeat' first
      | with_reducible assumption | ((with_reducible apply sub_of hA); exact rfl) | dsimp only
      | with_reducible apply keeps_count | with_reducible apply keeps_drawBytes
      | with_reducible apply keeps_sendClaim | with_reducible apply keeps_setBackoff
      | with_reducible apply keeps_setFrame | with_reducible refine keeps_ite (fun _ => ?_) (fun _ => ?_)
      | with_reducible refine keeps_ite_snd (fun _ => ?_) (fun _ => ?_) | split | intro _
      | with_reducible refine keeps_of_snd (by with_reducible assumption) ?_
      | with_reducible refine keeps_of_fst (by with_reducible assumption) ?_

theorem keeps_execClaimRetry  (hA : Within 0x140060008000000000000000000000000000000000010010400 A) (hK : Keeps A a₀ s) : KeepsRes A a₀ (execClaimRetry s) := by
  unfold execClaimRetry
  with_reducible apply keepsRes_done
  repeat' first
      | with_reducible assumption | ((with_reducible apply sub_of hA); exact rfl) | dsimp only
      | with_reducible apply keeps_count | with_reducible apply keeps_done | with_reducible apply keeps_setRegn
      | with_reducible refine keeps_ite (fun _ => ?_) (fun _ => ?_) | split | intro _
      | with_reducible refine keeps_of_snd (by with_reducible assumption) ?_
      | with_reducible refine keeps_of_fst (by with_reducible assumption) ?_

theorem keeps_adoptId (id : Nat) (hA : Within 0x1400600080000040000000000000000042200800000300d2c01 A) (hK : Keeps A a₀ s) : Keeps A a₀ (adoptId id s) := by
  unfold adoptId
  repeat' first
      | with_reducible assumption | ((with_reducible apply sub_of hA); exact rfl) | dsimp only
      | with_reducible apply keeps_count | with_reducible apply keeps_enterRanging
      | with_reducible apply keeps_eraseOnRelease | with_reducible apply keeps_raise
      | with_reducible apply keeps_setId | with_reducible apply keeps_wr
      | exact cov_SPAN_WAKE _ rfl (sub_of hA rfl) | with_reducible refine keeps_ite (fun _ => ?_) (fun _ => ?_)
      | split | intro _

theorem keeps_matchAssign (b : List Byte) (hA : Within 0x1400600080000040000000000000010042200800000300d2c01 A) (hK : Keeps A a₀ s) : Keeps A a₀ (matchAssign b s) := by
  unfold matchAssign
  repeat' first
      | with_reducible assumption | ((with_reducible apply sub_of hA); exact rfl) | dsimp only
      | with_reducible apply keeps_adoptId | with_reducible apply keeps_putSlot | with_reducible apply keeps_queueUp
      | with_reducible apply keeps_setRegn | with_reducible apply keeps_sigEnds | intro _

theorem keeps_assignChecked (b : List Byte) (q : Nat × Nat) (hA : Within 0x1400600080000040000000000000010042200800000300d2c01 A) (hK : Keeps A a₀ s) : Keeps A a₀ (assignChecked b q s) := by
  unfold assignChecked
  repeat' first
      | with_reducible assumption | ((with_reducible apply sub_of hA); exact rfl) | dsimp only
      | with_reducible apply keeps_count | with_reducible apply keeps_matchAssign | with_reducible apply keeps_sigEnds
      | with_reducible refine keeps_ite (fun _ => ?_) (fun _ => ?_) | split | intro _

theorem keeps_takeAssign (b : List Byte) (hA : Within 0x1400600080000040000000000000010042200800000300d2c01 A) (hK : Keeps A a₀ s) : Keeps A a₀ (takeAssign b s) := by
  unfold takeAssign
  repeat' first
      | with_reducible assumption | ((with_reducible apply sub_of hA); exact rfl) | dsimp only
      | with_reducible apply keeps_assignChecked | with_reducible apply keeps_count
      | with_reducible apply keeps_queueAgain | with_reducible refine keeps_ite (fun _ => ?_) (fun _ => ?_)
      | split | intro _ | with_reducible refine keeps_of_snd (by with_reducible assumption) ?_
      | with_reducible refine keeps_of_fst (by with_reducible assumption) ?_

theorem keeps_execAssign (n : Note) (hA : Within 0x1400600080000040000000000000010042200800000300d2e01 A) (hK : Keeps A a₀ s) : KeepsRes A a₀ (execAssign n s) := by
  unfold execAssign
  with_reducible apply keepsRes_done
  repeat' first
      | with_reducible assumption | ((with_reducible apply sub_of hA); exact rfl) | dsimp only
      | with_reducible apply keeps_done | with_reducible apply keeps_takeAssign | with_reducible apply keeps_takeNote
      | intro _

theorem keeps_answerHeldKey  (hA : Within 0x140060008000000000000000000000004000000000010012800 A) (hK : Keeps A a₀ s) : Keeps A a₀ (answerHeldKey s) := by
  unfold answerHeldKey
  repeat' first
      | with_reducible assumption | ((with_reducible apply sub_of hA); exact rfl) | exact fun h => h | dsimp only
      | with_reducible apply keeps_answer | with_reducible apply keeps_keyLoad | with_reducible apply keeps_setNote
      | split | intro _ | with_reducible refine keeps_of_snd (by with_reducible assumption) ?_
      | with_reducible refine keeps_of_fst (by with_reducible assumption) ?_

theorem keeps_execAssignVerifyDone (hA : Within 0x1400600080000040000000000000010040600000000300d3e01 A)
    (hK : Keeps A a₀ s) : KeepsRes A a₀ (execAssignVerifyDone s) := by
  unfold execAssignVerifyDone
  with_reducible apply keepsRes_done
  repeat' first
      | with_reducible assumption | ((with_reducible apply sub_of hA); exact rfl) | dsimp only
      | with_reducible apply keeps_answerHeldKey | with_reducible apply keeps_count
      | with_reducible apply keeps_dropId | with_reducible apply keeps_enterClaiming
      | with_reducible apply keeps_putSlot | with_reducible apply keeps_raise
      | with_reducible apply keeps_setRegn | with_reducible apply keeps_sigEnds
      | with_reducible refine keeps_ite (fun _ => ?_) (fun _ => ?_) | split | intro _
      | with_reducible refine keeps_of_snd (by with_reducible assumption) ?_
      | with_reducible refine keeps_of_fst (by with_reducible assumption) ?_

theorem keeps_execRelease (n : Note) (hA : Within 0x1400600080000040000000000000000040600000000300d3e01 A) (hK : Keeps A a₀ s) : KeepsRes A a₀ (execRelease n s) := by
  unfold execRelease
  with_reducible apply keepsRes_done
  repeat' first
      | with_reducible assumption | ((with_reducible apply sub_of hA); exact rfl) | dsimp only
      | with_reducible apply keeps_count | with_reducible apply keeps_done | with_reducible apply keeps_dropId
      | with_reducible apply keeps_enterClaiming | with_reducible apply keeps_raise
      | with_reducible apply keeps_takeNote | intro _

theorem keeps_execGrantTimeout  (hA : Within 0x1400600080000040000000000000000040600000000300d3e01 A) (hK : Keeps A a₀ s) : KeepsRes A a₀ (execGrantTimeout s) := by
  unfold execGrantTimeout
  with_reducible apply keepsRes_done
  repeat' first
      | with_reducible assumption | ((with_reducible apply sub_of hA); exact rfl) | dsimp only
      | with_reducible apply keeps_count | with_reducible apply keeps_done | with_reducible apply keeps_dropId
      | with_reducible apply keeps_enterClaiming | with_reducible apply keeps_raise
      | with_reducible refine keeps_ite (fun _ => ?_) (fun _ => ?_) | split | intro _

theorem keeps_pendResult (x : Ranged) (step release : Bool) (hA : Within 0x400 A)
    (hK : Keeps A a₀ s) : Keeps A a₀ (pendResult x step release s) := by
  unfold pendResult
  repeat' first
      | with_reducible assumption | ((with_reducible apply sub_of hA); exact rfl) | dsimp only
      | with_reducible apply keeps_setRegn | intro _

theorem keeps_execRangeResult (hA : Within 0x140060008000000000000000000000000200000000010010c00 A) (hK : Keeps A a₀ s) : KeepsRes A a₀ (execRangeResult s) := by
  unfold execRangeResult
  with_reducible apply keepsRes_done
  repeat' first
      | with_reducible assumption | ((with_reducible apply sub_of hA); exact rfl) | dsimp only
      | with_reducible apply keeps_newReport | with_reducible apply keeps_pendResult
      | with_reducible apply keeps_setMeas | with_reducible apply keeps_wr
      | exact cov_RANGE_STATUS _ rfl (sub_of hA rfl)
      | with_reducible refine keeps_ite (fun _ => ?_) (fun _ => ?_) | split | intro _
      | with_reducible refine keeps_of_snd (by with_reducible assumption) ?_
      | with_reducible refine keeps_of_fst (by with_reducible assumption) ?_

theorem keeps_execRangeReportRepeat  (hA : Within 0x140060008000000000000000000000000000000000010010c00 A) (hK : Keeps A a₀ s) : KeepsRes A a₀ (execRangeReportRepeat s) := by
  unfold execRangeReportRepeat
  with_reducible apply keepsRes_done
  repeat' first
      | with_reducible assumption | ((with_reducible apply sub_of hA); exact rfl) | dsimp only
      | with_reducible apply keeps_done | with_reducible apply keeps_queueRepeat | with_reducible apply keeps_setRegn
      | with_reducible refine keeps_ite (fun _ => ?_) (fun _ => ?_) | split | intro _
      | with_reducible refine keeps_of_snd (by with_reducible assumption) ?_
      | with_reducible refine keeps_of_fst (by with_reducible assumption) ?_

theorem keeps_execRangeOk (n : Note) (hA : Within 0x1400600080000040000000000000000042000000000300d0e01 A) (hK : Keeps A a₀ s) : KeepsRes A a₀ (execRangeOk n s) := by
  unfold execRangeOk
  with_reducible apply keepsRes_done
  repeat' first
      | with_reducible assumption | ((with_reducible apply sub_of hA); exact rfl) | dsimp only
      | with_reducible apply keeps_count | with_reducible apply keeps_done | with_reducible apply keeps_goTerm
      | with_reducible apply keeps_setRegn | with_reducible apply keeps_takeNote | with_reducible apply keeps_wr
      | exact cov_RANGE_STATUS _ rfl (sub_of hA rfl) | with_reducible refine keeps_ite (fun _ => ?_) (fun _ => ?_)
      | split | intro _ | with_reducible refine keeps_of_snd (by with_reducible assumption) ?_
      | with_reducible refine keeps_of_fst (by with_reducible assumption) ?_

theorem keeps_execRangeRetry (n : Note) (hA : Within 0x140060008000000000000000000000004200000000010010e00 A)
    (hK : Keeps A a₀ s) : KeepsRes A a₀ (execRangeRetry n s) := by
  unfold execRangeRetry
  with_reducible apply keepsRes_done
  repeat' first
      | with_reducible assumption | ((with_reducible apply sub_of hA); exact rfl) | dsimp only
      | with_reducible apply keeps_beginMeasure | with_reducible apply keeps_takeNote | intro _

theorem keeps_execRangeAdj (n : Note) (hA : Within 0x140060008000000000000000000000004200000000010010a00 A) (hK : Keeps A a₀ s) : KeepsRes A a₀ (execRangeAdj n s) := by
  unfold execRangeAdj
  with_reducible apply keepsRes_done
  repeat' first
      | with_reducible assumption | ((with_reducible apply sub_of hA); exact rfl) | dsimp only
      | with_reducible apply keeps_done | with_reducible apply keeps_takeNote | with_reducible apply keeps_wr
      | exact cov_RANGE_STATUS _ rfl (sub_of hA rfl) | intro _

theorem keeps_eastboundOnly (mode : Nat) (hA : Within 0x100000000800000000 A)
    (hK : Keeps A a₀ s) : Keeps A a₀ (eastboundOnly mode s) := by
  unfold eastboundOnly
  repeat' first
      | with_reducible assumption | ((with_reducible apply sub_of hA); exact rfl) | dsimp only
      | with_reducible apply keeps_whenB | with_reducible apply keeps_wr
      | exact cov_RANGE_W _ rfl (sub_of hA rfl) | exact cov_TIME_STATUS _ rfl (sub_of hA rfl)
      | with_reducible refine keeps_ite (fun _ => ?_) (fun _ => ?_) | split | intro _

theorem keeps_recomputeFree (x : Ranged) (hA : Within 0x140060008000000000000000000000000380000000810010c00 A)
    (hK : Keeps A a₀ s) : Keeps A a₀ (recomputeFree x s) := by
  unfold recomputeFree
  repeat' first
      | with_reducible assumption | ((with_reducible apply sub_of hA); exact rfl) | dsimp only
      | with_reducible apply keeps_count | with_reducible apply keeps_eastboundOnly
      | with_reducible apply keeps_newReport | with_reducible apply keeps_pendResult
      | with_reducible apply keeps_setRegn | with_reducible apply keeps_wr
      | exact cov_RANGE_E _ rfl (sub_of hA rfl) | exact cov_RANGE_W _ rfl (sub_of hA rfl)
      | exact cov_RANGE_STATUS _ rfl (sub_of hA rfl)
      | with_reducible refine keeps_ite (fun _ => ?_) (fun _ => ?_) | split | intro _

theorem keeps_recomputeHeld (x : Ranged) (hA : Within 0x140060008000000000000000000000000200000000010010c00 A)
    (hK : Keeps A a₀ s) : Keeps A a₀ (recomputeHeld x s) := by
  unfold recomputeHeld
  repeat' first
      | with_reducible assumption | ((with_reducible apply sub_of hA); exact rfl) | dsimp only
      | with_reducible apply keeps_count | with_reducible apply keeps_newReport
      | with_reducible apply keeps_pendResult | with_reducible refine keeps_ite (fun _ => ?_) (fun _ => ?_)
      | split | intro _

theorem keeps_execRangeRecompute (hA : Within 0x140060008000000000000000000000000380000000810010c00 A) (hK : Keeps A a₀ s) : KeepsRes A a₀ (execRangeRecompute s) := by
  unfold execRangeRecompute
  with_reducible apply keepsRes_done
  repeat' first
      | with_reducible assumption | ((with_reducible apply sub_of hA); exact rfl) | dsimp only
      | with_reducible apply keeps_recomputeFree | with_reducible apply keeps_recomputeHeld
      | with_reducible apply keeps_setMeas | with_reducible refine keeps_ite (fun _ => ?_) (fun _ => ?_) | split
      | intro _ | with_reducible refine keeps_of_snd (by with_reducible assumption) ?_
      | with_reducible refine keeps_of_fst (by with_reducible assumption) ?_

theorem keeps_holdOscillator (sd : Side) (hA : Within 0x800000400 A)
    (hK : Keeps A a₀ s) : Keeps A a₀ (holdOscillator sd s) := by
  unfold holdOscillator
  repeat' first
      | with_reducible assumption | ((with_reducible apply sub_of hA); exact rfl) | dsimp only
      | with_reducible apply keeps_setRegn | with_reducible apply keeps_wr
      | exact cov_TIME_STATUS _ rfl (sub_of hA rfl)
      | with_reducible refine keeps_ite (fun _ => ?_) (fun _ => ?_) | split | intro _

theorem keeps_holdDir (sd : Side) (d : Int) (hA : Within 0x400 A)
    (hK : Keeps A a₀ s) : Keeps A a₀ (holdDir sd d s) := by
  unfold holdDir
  repeat' first
      | with_reducible assumption | ((with_reducible apply sub_of hA); exact rfl) | dsimp only
      | with_reducible apply keeps_measBreak | with_reducible apply keeps_setRegn | split | intro _
      | with_reducible refine keeps_of_snd (by with_reducible assumption) ?_
      | with_reducible refine keeps_of_fst (by with_reducible assumption) ?_

theorem keeps_execDelayStep (side : Side) (hA : Within 0x140060008000000000000000000000000000000000850010400 A)
    (hK : Keeps A a₀ s) : KeepsRes A a₀ (execDelayStep side s) := by
  unfold execDelayStep
  with_reducible apply keepsRes_done
  repeat' first
      | with_reducible assumption | ((with_reducible apply sub_of hA); exact rfl) | dsimp only
      | with_reducible apply keeps_countSide | with_reducible apply keeps_holdDir
      | with_reducible apply keeps_holdOscillator | with_reducible apply keeps_raise
      | with_reducible apply keeps_setSpan | with_reducible refine keeps_ite (fun _ => ?_) (fun _ => ?_) | split
      | intro _ | with_reducible refine keeps_of_snd (by with_reducible assumption) ?_
      | with_reducible refine keeps_of_fst (by with_reducible assumption) ?_

theorem keeps_execDelayStepStale  (hA : Within 0x140060008000000000000000000000000000000000010010400 A) (hK : Keeps A a₀ s) : KeepsRes A a₀ (execDelayStepStale s) := by
  unfold execDelayStepStale
  with_reducible apply keepsRes_done
  repeat' first
      | with_reducible assumption | ((with_reducible apply sub_of hA); exact rfl) | dsimp only
      | with_reducible apply keeps_countN | with_reducible apply keeps_done | with_reducible apply keeps_setRegn
      | with_reducible refine keeps_ite (fun _ => ?_) (fun _ => ?_) | split | intro _

theorem keeps_timeStep (d : Int) (hA : Within 0x140060008000000000000000000000000000000000010010020 A) (hK : Keeps A a₀ s) : Keeps A a₀ (timeStep d s) := by
  unfold timeStep
  repeat' first
      | with_reducible assumption | ((with_reducible apply sub_of hA); exact rfl) | dsimp only
      | with_reducible apply keeps_count | with_reducible apply keeps_raise | intro _
      | with_reducible apply keeps_part_bt

theorem keeps_storeRange (x : RangeRes) (hA : Within 0x380000000800000400 A) (hK : Keeps A a₀ s) : Keeps A a₀ (storeRange x s) := by
  unfold storeRange
  repeat' first
      | with_reducible assumption | ((with_reducible apply sub_of hA); exact rfl) | dsimp only
      | with_reducible apply keeps_eastboundOnly | with_reducible apply keeps_setRegn
      | with_reducible apply keeps_wr | exact cov_RANGE_E _ rfl (sub_of hA rfl)
      | exact cov_RANGE_W _ rfl (sub_of hA rfl) | exact cov_RANGE_STATUS _ rfl (sub_of hA rfl) | intro _

theorem keeps_releaseHolds  (hA : Within 0x140060008000000000000000000000000000000000810010400 A) (hK : Keeps A a₀ s) : Keeps A a₀ (releaseHolds s) := by
  unfold releaseHolds
  repeat' first
      | with_reducible assumption | ((with_reducible apply sub_of hA); exact rfl) | dsimp only
      | with_reducible apply keeps_raise | with_reducible apply keeps_setRegn | with_reducible apply keeps_whenB
      | with_reducible apply keeps_wr | exact cov_TIME_STATUS _ rfl (sub_of hA rfl) | intro _

theorem keeps_applyRange (hA : Within 0x140060008000000000000000000000000380000000810010420 A) (hK : Keeps A a₀ s) : Keeps A a₀ (applyRange s) := by
  unfold applyRange
  repeat' first
      | with_reducible assumption | ((with_reducible apply sub_of hA); exact rfl) | dsimp only
      | with_reducible apply keeps_raise | with_reducible apply keeps_releaseHolds
      | with_reducible apply keeps_setBt | with_reducible apply keeps_setRegn
      | with_reducible apply keeps_storeRange | with_reducible apply keeps_timeStep
      | with_reducible apply keeps_whenB | with_reducible apply keeps_wr
      | exact cov_TIME_STATUS _ rfl (sub_of hA rfl)
      | with_reducible refine keeps_ite (fun _ => ?_) (fun _ => ?_) | split | intro _
      | with_reducible refine keeps_of_snd (by with_reducible assumption) ?_
      | with_reducible refine keeps_of_fst (by with_reducible assumption) ?_

theorem keeps_slewTick  (hA : Within 0x140060008000000000000000000000000380000000010010c00 A) (hK : Keeps A a₀ s) : Keeps A a₀ (slewTick s) := by
  unfold slewTick
  repeat' first
      | with_reducible assumption | ((with_reducible apply sub_of hA); exact rfl) | dsimp only
      | with_reducible apply keeps_newReport | with_reducible apply keeps_setRegn | with_reducible apply keeps_whenB
      | with_reducible apply keeps_wr | exact cov_RANGE_E _ rfl (sub_of hA rfl)
      | exact cov_RANGE_W _ rfl (sub_of hA rfl) | with_reducible refine keeps_ite (fun _ => ?_) (fun _ => ?_) | split
      | intro _

theorem keeps_moveSource  (hA : Within 0x800000000 A) (hK : Keeps A a₀ s) : Keeps A a₀ (moveSource s) := by
  unfold moveSource
  repeat' first
      | with_reducible assumption | ((with_reducible apply sub_of hA); exact rfl) | dsimp only
      | with_reducible apply keeps_wr | exact cov_TIME_STATUS _ rfl (sub_of hA rfl)
      | with_reducible refine keeps_ite (fun _ => ?_) (fun _ => ?_) | split | intro _

theorem keeps_execFlywheelEntry (hA : Within 0x1400600080000040000000000000000000000000008300d1401 A) (hK : Keeps A a₀ s) : KeepsRes A a₀ (execFlywheelEntry s) := by
  unfold execFlywheelEntry
  with_reducible apply keepsRes_done
  repeat' first
      | with_reducible assumption | ((with_reducible apply sub_of hA); exact rfl) | dsimp only
      | with_reducible apply keeps_count | with_reducible apply keeps_cutWindows
      | with_reducible apply keeps_goTerm | with_reducible apply keeps_measBreak
      | with_reducible apply keeps_raise | with_reducible apply keeps_setRegn | with_reducible apply keeps_wr
      | exact cov_TIME_STATUS _ rfl (sub_of hA rfl)
      | with_reducible refine keeps_ite (fun _ => ?_) (fun _ => ?_) | split | intro _

theorem keeps_exitTime (pos : Int) (hA : Within 0x140060008000000000000000000000000000000000010010400 A) (hK : Keeps A a₀ s) : Keeps A a₀ (exitTime pos s) := by
  unfold exitTime
  repeat' first
      | with_reducible assumption | ((with_reducible apply sub_of hA); exact rfl) | dsimp only
      | with_reducible apply keeps_count | with_reducible apply keeps_raise | with_reducible apply keeps_setRegn
      | with_reducible refine keeps_ite (fun _ => ?_) (fun _ => ?_) | split | intro _

theorem keeps_execFlywheelExit (pos : Int) (hA : Within 0x1400600080000040000000000000000000000000008300d0401 A)
    (hK : Keeps A a₀ s) : KeepsRes A a₀ (execFlywheelExit pos s) := by
  unfold execFlywheelExit
  with_reducible apply keepsRes_done
  repeat' first
      | with_reducible assumption | ((with_reducible apply sub_of hA); exact rfl) | dsimp only
      | with_reducible apply keeps_exitTime | with_reducible apply keeps_goTerm
      | with_reducible apply keeps_setRegn | with_reducible apply keeps_wr
      | exact cov_TIME_STATUS _ rfl (sub_of hA rfl)
      | with_reducible refine keeps_ite (fun _ => ?_) (fun _ => ?_) | split | intro _
      | with_reducible refine keeps_of_snd (by with_reducible assumption) ?_
      | with_reducible refine keeps_of_fst (by with_reducible assumption) ?_

theorem keeps_execTimeMap (n : Note) (hA : Within 0x140060008000000000000000000000004000000000010010e00 A) (hK : Keeps A a₀ s) : KeepsRes A a₀ (execTimeMap n s) := by
  unfold execTimeMap
  with_reducible apply keepsRes_done
  repeat' first
      | with_reducible assumption | ((with_reducible apply sub_of hA); exact rfl) | dsimp only
      | with_reducible apply keeps_count | with_reducible apply keeps_done | with_reducible apply keeps_setRegn
      | with_reducible apply keeps_takeNote | with_reducible refine keeps_ite (fun _ => ?_) (fun _ => ?_) | split
      | intro _

theorem keeps_applyTimeMap  (hA : Within 0x3c00000000000000400 A) (hK : Keeps A a₀ s) : Keeps A a₀ (applyTimeMap s) := by
  unfold applyTimeMap
  repeat' first
      | with_reducible assumption | ((with_reducible apply sub_of hA); exact rfl) | dsimp only
      | with_reducible apply keeps_setReg | with_reducible apply keeps_setRegn | with_reducible apply keeps_wr
      | exact cov_TAI_ORIGIN_CYCLE _ rfl (sub_of hA rfl) | exact cov_TAI_ORIGIN_SEC _ rfl (sub_of hA rfl)
      | exact cov_TAI_ORIGIN_NS _ rfl (sub_of hA rfl) | exact cov_TAI_UTC _ rfl (sub_of hA rfl) | split | intro _
      | with_reducible refine keeps_of_snd (by with_reducible assumption) ?_
      | with_reducible refine keeps_of_fst (by with_reducible assumption) ?_

end Sys2Proof.Laws
end

