-- ==== Sys2Proof/Laws/KeepsBootSteps.lean ====
section
/-! SUPPORT. `Keeps` for the operations of Machine/BootSteps.lean. -/

set_option linter.unusedTactic false
set_option linter.unreachableTactic false

namespace Sys2Proof.Laws

open Sys2Proof Sys2Proof.Machine Sys2Proof.Safety

variable {A : Nat} {a₀ s : State}

theorem keeps_enterHolding (code : Nat) (hA : Within 0x140060008000000000000000000000000000000010010010001 A) (hK : Keeps A a₀ s) : Keeps A a₀ (enterHolding code s) := by
  unfold enterHolding
  repeat' first
      | with_reducible assumption | ((with_reducible apply sub_of hA); exact rfl) | dsimp only
      | with_reducible apply keeps_changeTerm | with_reducible apply keeps_wr
      | exact cov_SELFTEST_RESULT _ rfl (sub_of hA rfl) | intro _

theorem keeps_noteFailure (sub : Nat) (detail : Nat) (hA : Within 0x10000000000 A) (hK : Keeps A a₀ s) : Keeps A a₀ (noteFailure sub detail s) := by
  unfold noteFailure
  repeat' first
      | with_reducible assumption | ((with_reducible apply sub_of hA); exact rfl) | dsimp only
      | with_reducible apply keeps_wr | exact cov_SELFTEST_RESULT _ rfl (sub_of hA rfl) | intro _

theorem keeps_failStep (n : Nat) (sub : Nat) (detail : Nat) (hA : Within 0x140060008000000000000000000000000000000010010010001 A) (hK : Keeps A a₀ s) : Keeps A a₀ (failStep n sub detail s) := by
  unfold failStep
  repeat' first
      | with_reducible assumption | ((with_reducible apply sub_of hA); exact rfl) | dsimp only
      | with_reducible apply keeps_enterHolding | with_reducible apply keeps_noteFailure | intro _

theorem keeps_beginSelftest  (hA : Within 0x140060008000000000000000000000000000000010010010001 A) (hK : Keeps A a₀ s) : Keeps A a₀ (beginSelftest s) := by
  unfold beginSelftest
  repeat' first
      | with_reducible assumption | ((with_reducible apply sub_of hA); exact rfl) | dsimp only
      | with_reducible apply keeps_changeTerm | with_reducible apply keeps_enterHolding
      | with_reducible apply keeps_wr | exact cov_SELFTEST_RESULT _ rfl (sub_of hA rfl)
      | with_reducible refine keeps_ite (fun _ => ?_) (fun _ => ?_) | split | intro _

theorem keeps_execReleaseOfReset (straps : BitVec 12) (hA : Within 0x1c006000a0000100000000000c06000000000460b2110010081 A) (hK : Keeps A a₀ s) : KeepsRes A a₀ (execReleaseOfReset straps s) := by
  unfold execReleaseOfReset
  with_reducible apply keepsRes_done
  repeat' first
      | with_reducible assumption | ((with_reducible apply sub_of hA); exact rfl) | dsimp only
      | with_reducible apply keeps_applyStraps | with_reducible apply keeps_beginSelftest
      | with_reducible apply keeps_done | with_reducible apply keeps_setBoot | with_reducible apply keeps_wr
      | exact cov_STRAP_LATCH _ rfl (sub_of hA rfl) | with_reducible refine keeps_ite (fun _ => ?_) (fun _ => ?_)
      | split | intro _

theorem keeps_bootImage (m : List Byte) (fallback : Bool) (hA : Within 0x80000000000000000000000000000000080010800000 A) (hK : Keeps A a₀ s) : Keeps A a₀ (bootImage m fallback s) := by
  unfold bootImage
  repeat' first
      | with_reducible assumption | ((with_reducible apply sub_of hA); exact rfl) | exact fun h => h | dsimp only
      | with_reducible apply keeps_fresh | with_reducible apply keeps_setGlean | with_reducible apply keeps_wr
      | exact cov_BOOT_STATUS _ rfl (sub_of hA rfl) | exact cov_IMAGE_RUNNING _ rfl (sub_of hA rfl) | intro _

theorem keeps_stepTo (n : Nat) (hA : Within 0x400000000010000000000 A) (hK : Keeps A a₀ s) : Keeps A a₀ (stepTo n s) := by
  unfold stepTo
  repeat' first
      | with_reducible assumption | ((with_reducible apply sub_of hA); exact rfl) | dsimp only
      | with_reducible apply keeps_whenB | with_reducible apply keeps_wr
      | exact cov_ENTROPY_STATUS _ rfl (sub_of hA rfl) | exact cov_SELFTEST_RESULT _ rfl (sub_of hA rfl)
      | intro _

theorem keeps_flashImage  (hA : Within 0x140060088000000000000000000000400000000090018810001 A) (hK : Keeps A a₀ s) : Keeps A a₀ (flashImage s) := by
  unfold flashImage
  repeat' first
      | with_reducible assumption | ((with_reducible apply sub_of hA); exact rfl) | dsimp only
      | with_reducible apply keeps_bootImage | with_reducible apply keeps_failStep
      | with_reducible apply keeps_loaderActs | with_reducible apply keeps_noteFailure
      | with_reducible apply keeps_stepTo | with_reducible apply keeps_wr
      | exact cov_IMAGE_RUNNING _ rfl (sub_of hA rfl) | with_reducible refine keeps_ite (fun _ => ?_) (fun _ => ?_)
      | split | intro _

theorem keeps_hostLoad  (hA : Within 0x140060008000000000000000000000000000000210030010081 A) (hK : Keeps A a₀ s) : Keeps A a₀ (hostLoad s) := by
  unfold hostLoad
  repeat' first
      | with_reducible assumption | ((with_reducible apply sub_of hA); exact rfl) | dsimp only
      | with_reducible apply keeps_emit | with_reducible apply keeps_failStep | with_reducible apply keeps_setBoot
      | with_reducible apply keeps_wr | exact cov_BOOT_LOAD_CTRL _ rfl (sub_of hA rfl)
      | with_reducible refine keeps_ite (fun _ => ?_) (fun _ => ?_) | split | intro _

theorem keeps_loadCut (cause : Nat) (hA : Within 0x210000000080 A) (hK : Keeps A a₀ s) : Keeps A a₀ (loadCut cause s) := by
  unfold loadCut
  repeat' first
      | with_reducible assumption | ((with_reducible apply sub_of hA); exact rfl) | dsimp only
      | with_reducible apply keeps_noteFailure | with_reducible apply keeps_setBoot | with_reducible apply keeps_wr
      | exact cov_BOOT_LOAD_CTRL _ rfl (sub_of hA rfl) | intro _

theorem keeps_execImageLoadDone (d : DmaBytes) (hA : Within 0x140060088000000000000000000000400000000290010810081 A) (hK : Keeps A a₀ s) : KeepsRes A a₀ (execImageLoadDone d s) := by
  unfold execImageLoadDone
  with_reducible apply keepsRes_done
  repeat' first
      | with_reducible assumption | ((with_reducible apply sub_of hA); exact rfl) | dsimp only
      | with_reducible apply keeps_bootImage | with_reducible apply keeps_done | with_reducible apply keeps_failStep
      | with_reducible apply keeps_loadCut | with_reducible apply keeps_stepTo | with_reducible apply keeps_wr
      | exact cov_BOOT_LOAD_CTRL _ rfl (sub_of hA rfl) | with_reducible refine keeps_ite (fun _ => ?_) (fun _ => ?_)
      | split | intro _ | with_reducible refine keeps_of_snd (by with_reducible assumption) ?_
      | with_reducible refine keeps_of_fst (by with_reducible assumption) ?_

theorem keeps_loadIdentity  (hA : Within 0x2000 A) (hK : Keeps A a₀ s) : Keeps A a₀ (loadIdentity s) := by
  unfold loadIdentity
  repeat' first
      | with_reducible assumption | ((with_reducible apply sub_of hA); exact rfl) | dsimp only
      | with_reducible apply keeps_putSlot | split | intro _
      | with_reducible refine keeps_of_snd (by with_reducible assumption) ?_
      | with_reducible refine keeps_of_fst (by with_reducible assumption) ?_

theorem keeps_entropyStarts  (hA : Within 0xc00000000000000000000 A) (hK : Keeps A a₀ s) : Keeps A a₀ (entropyStarts s) := by
  unfold entropyStarts
  repeat' first
      | with_reducible assumption | ((with_reducible apply sub_of hA); exact rfl) | dsimp only
      | with_reducible apply keeps_wr | exact cov_ENTROPY_STATUS _ rfl (sub_of hA rfl)
      | exact cov_DRBG_STATUS _ rfl (sub_of hA rfl) | intro _

theorem keeps_flashFound (log2 : Nat) (hA : Within 0x200000000000000000000000000000000000000000000 A) (hK : Keeps A a₀ s) : Keeps A a₀ (flashFound log2 s) := by
  unfold flashFound
  repeat' first
      | with_reducible assumption | ((with_reducible apply sub_of hA); exact rfl) | dsimp only
      | with_reducible apply keeps_wr | exact cov_FLASH_INFO _ rfl (sub_of hA rfl) | intro _

theorem keeps_lanesFailed (bits : Nat) (hA : Within 0x80000000000000000000000000000000000000020000200000 A) (hK : Keeps A a₀ s) : Keeps A a₀ (lanesFailed bits s) := by
  unfold lanesFailed
  repeat' first
      | with_reducible assumption | ((with_reducible apply sub_of hA); exact rfl) | dsimp only
      | with_reducible apply keeps_setPwr | with_reducible apply keeps_wr
      | exact cov_SELFTEST_FLAGS _ rfl (sub_of hA rfl) | exact cov_PWR_TARGET _ _ rfl (sub_of hA rfl) | intro _

theorem keeps_afeFailed  (hA : Within 0x80000000000000000000000000000000000000020000000000 A) (hK : Keeps A a₀ s) : Keeps A a₀ (afeFailed s) := by
  unfold afeFailed
  repeat' first
      | with_reducible assumption | ((with_reducible apply sub_of hA); exact rfl) | dsimp only
      | with_reducible apply keeps_wr | exact cov_SELFTEST_FLAGS _ rfl (sub_of hA rfl)
      | exact cov_PWR_TARGET _ _ rfl (sub_of hA rfl) | intro _

theorem keeps_imageStep  (hA : Within 0x140060008000000000000000000000400000000210030010081 A) (hK : Keeps A a₀ s) : Keeps A a₀ (imageStep s) := by
  unfold imageStep
  repeat' first
      | with_reducible assumption | ((with_reducible apply sub_of hA); exact rfl) | dsimp only
      | with_reducible apply keeps_hostLoad | with_reducible apply keeps_setBoot | with_reducible apply keeps_stepTo
      | with_reducible refine keeps_ite (fun _ => ?_) (fun _ => ?_) | split | intro _

theorem keeps_stepDone (r : StepResult) (hA : Within 0x1c0060288000000000000000000000c000000002b0038a12081 A) (hK : Keeps A a₀ s) : Keeps A a₀ (stepDone r s) := by
  unfold stepDone
  repeat' first
      | with_reducible assumption | ((with_reducible apply sub_of hA); exact rfl) | dsimp only
      | with_reducible apply keeps_afeFailed | with_reducible apply keeps_enterHolding
      | with_reducible apply keeps_entropyStarts | with_reducible apply keeps_failStep
      | with_reducible apply keeps_flashFound | with_reducible apply keeps_flashImage
      | with_reducible apply keeps_imageStep | with_reducible apply keeps_lanesFailed
      | with_reducible apply keeps_loadIdentity | with_reducible apply keeps_noteFailure
      | with_reducible apply keeps_setBoot | with_reducible apply keeps_stepTo | with_reducible apply keeps_wr
      | exact cov_SELFTEST_FLAGS _ rfl (sub_of hA rfl)
      | with_reducible refine keeps_ite (fun _ => ?_) (fun _ => ?_) | split | intro _

theorem keeps_execSelftestStepDone (r : StepResult) (hA : Within 0x1c0060288000000000000000000000c000000002b0038a12081 A) (hK : Keeps A a₀ s) : KeepsRes A a₀ (execSelftestStepDone r s) := by
  unfold execSelftestStepDone
  with_reducible apply keepsRes_done
  repeat' first
      | with_reducible assumption | ((with_reducible apply sub_of hA); exact rfl) | dsimp only
      | with_reducible apply keeps_done | with_reducible apply keeps_stepDone
      | with_reducible refine keeps_ite (fun _ => ?_) (fun _ => ?_) | split | intro _

theorem keeps_bridgeGo  (hA : Within 0x400028000080 A) (hK : Keeps A a₀ s) : Keeps A a₀ (bridgeGo s) := by
  unfold bridgeGo
  repeat' first
      | with_reducible assumption | ((with_reducible apply sub_of hA); exact rfl) | dsimp only
      | with_reducible apply keeps_emit | with_reducible apply keeps_setBoot | with_reducible apply keeps_spiEffect
      | with_reducible apply keeps_wr | exact cov_FLASH_BRIDGE_CTRL _ rfl (sub_of hA rfl)
      | with_reducible refine keeps_ite (fun _ => ?_) (fun _ => ?_) | split | intro _

theorem keeps_execFlashBridgeDone (bytes : List Byte) (hA : Within 0x1400000000000 A) (hK : Keeps A a₀ s) : KeepsRes A a₀ (execFlashBridgeDone bytes s) := by
  unfold execFlashBridgeDone
  with_reducible apply keepsRes_done
  repeat' first
      | with_reducible assumption | ((with_reducible apply sub_of hA); exact rfl) | dsimp only
      | with_reducible apply keeps_done | with_reducible apply keeps_eachOf | with_reducible apply keeps_setReg
      | with_reducible apply keeps_wr | exact cov_FLASH_BRIDGE_DATA _ _ rfl (sub_of hA rfl)
      | exact cov_FLASH_BRIDGE_CTRL _ rfl (sub_of hA rfl)
      | with_reducible refine keeps_ite (fun _ => ?_) (fun _ => ?_) | split | intro _

end Sys2Proof.Laws
end

