-- ==== Sys2Proof/Laws/KeepsLedger.lean ====
section
/-! SUPPORT. `Keeps` for the operations of Machine/Ledger.lean. -/

set_option linter.unusedTactic false
set_option linter.unreachableTactic false

namespace Sys2Proof.Laws

open Sys2Proof Sys2Proof.Machine Sys2Proof.Safety

variable {A : Nat} {a₀ s : State}

theorem keeps_clearGroup (g : Nat) (hA : Within 0x140060000000000000000000000000000000000000000000000 A) (hK : Keeps A a₀ s) : Keeps A a₀ (clearGroup g s) := by
  unfold clearGroup
  repeat' first
      | with_reducible assumption | ((with_reducible apply sub_of hA); exact rfl) | dsimp only
      | with_reducible apply keeps_eachOf | with_reducible apply keeps_setReg | with_reducible apply keeps_wr
      | exact cov_LEDGER_GRP_SAT _ _ rfl (sub_of hA rfl) | exact cov_LEDGER_SUMMARY _ rfl (sub_of hA rfl)
      | exact cov_counterAddr _ (sub_of hA rfl) | with_reducible refine keeps_ite (fun _ => ?_) (fun _ => ?_)
      | with_reducible refine keeps_ite_snd (fun _ => ?_) (fun _ => ?_) | split | intro _
      | with_reducible refine keeps_of_snd (by with_reducible assumption) ?_
      | with_reducible refine keeps_of_fst (by with_reducible assumption) ?_

theorem keeps_clearGroups (groups : Nat) (hA : Within 0x140060000000000000000000000000000000000000000000000 A) (hK : Keeps A a₀ s) : Keeps A a₀ (clearGroups groups s) := by
  unfold clearGroups
  repeat' first
      | with_reducible assumption | ((with_reducible apply sub_of hA); exact rfl) | dsimp only
      | with_reducible apply keeps_clearGroup | with_reducible apply keeps_eachOf | intro _

theorem keeps_stageClear (c : ClearReq) (hA : Within 0x2000000 A) (hK : Keeps A a₀ s) : Keeps A a₀ (stageClear c s) := by
  unfold stageClear
  repeat' first
      | with_reducible assumption | ((with_reducible apply sub_of hA); exact rfl) | dsimp only | intro _
      | with_reducible apply keeps_part_ledger

theorem keeps_ledgerClearWrite (v : Word) (hA : Within 0x1400e0008000000000000000000000000000000000012010000 A) (hK : Keeps A a₀ s) : Keeps A a₀ (ledgerClearWrite v s) := by
  unfold ledgerClearWrite
  repeat' first
      | with_reducible assumption | ((with_reducible apply sub_of hA); exact rfl) | dsimp only
      | with_reducible apply keeps_count | with_reducible apply keeps_stageClear | with_reducible apply keeps_whenB
      | with_reducible apply keeps_wr | exact cov_LEDGER_CLEAR _ rfl (sub_of hA rfl)
      | with_reducible refine keeps_ite (fun _ => ?_) (fun _ => ?_) | split | intro _
      | with_reducible apply keeps_part_ledger

theorem keeps_execLedgerClearApply  (hA : Within 0x1400e0008000000000000000000000000000000000012010000 A) (hK : Keeps A a₀ s) : KeepsRes A a₀ (execLedgerClearApply s) := by
  unfold execLedgerClearApply
  with_reducible apply keepsRes_done
  repeat' first
      | with_reducible assumption | ((with_reducible apply sub_of hA); exact rfl) | dsimp only
      | with_reducible apply keeps_clearGroups | with_reducible apply keeps_countN | with_reducible apply keeps_done
      | with_reducible apply keeps_whenB | with_reducible apply keeps_wr
      | exact cov_LEDGER_CLEAR _ rfl (sub_of hA rfl) | with_reducible refine keeps_ite (fun _ => ?_) (fun _ => ?_)
      | split | intro _ | with_reducible apply keeps_part_ledger

theorem keeps_releaseHarvestClears  (hA : Within 0x2000000 A) (hK : Keeps A a₀ s) : Keeps A a₀ (releaseHarvestClears s) := by
  unfold releaseHarvestClears
  repeat' first
      | with_reducible assumption | ((with_reducible apply sub_of hA); exact rfl) | dsimp only
      | with_reducible refine keeps_ite (fun _ => ?_) (fun _ => ?_) | split | intro _
      | with_reducible apply keeps_part_ledger

theorem keeps_harvestStep  (hA : Within 0x40000000000000000000000000000000000000000000000 A) (hK : Keeps A a₀ s) : Keeps A a₀ (harvestStep s) := by
  unfold harvestStep
  repeat' first
      | with_reducible assumption | ((with_reducible apply sub_of hA); exact rfl) | dsimp only
      | with_reducible apply keeps_wr | exact cov_LEDGER_SUMMARY _ rfl (sub_of hA rfl) | intro _

end Sys2Proof.Laws
end

