-- ==== Sys2Proof/Laws/KeepsAccess.lean ====
section
/-! SUPPORT. `Keeps` for the operations of Machine/Access.lean. -/

set_option linter.unusedTactic false
set_option linter.unreachableTactic false

namespace Sys2Proof.Laws

open Sys2Proof Sys2Proof.Machine Sys2Proof.Safety

variable {A : Nat} {a₀ s : State}

theorem keeps_setLatches (p : Path) (l : PathLatches) (hA : Within 0xe A) (hK : Keeps A a₀ s) : Keeps A a₀ (setLatches p l s) := by
  unfold setLatches
  repeat' first
      | with_reducible assumption | ((with_reducible apply sub_of hA); exact rfl) | dsimp only | split | intro _
      | with_reducible refine keeps_of_snd (by with_reducible assumption) ?_
      | with_reducible refine keeps_of_fst (by with_reducible assumption) ?_ | with_reducible apply keeps_part_pcie
      | with_reducible apply keeps_part_zwirdo | with_reducible apply keeps_part_mgmt

theorem keeps_setSnap (p : Path) (off : Nat) (b : Byte) (hA : Within 0xe A) (hK : Keeps A a₀ s) : Keeps A a₀ (setSnap p off b s) := by
  unfold setSnap
  repeat' first
      | with_reducible assumption | ((with_reducible apply sub_of hA); exact rfl) | dsimp only
      | with_reducible apply keeps_setLatches | intro _

theorem keeps_setHold (p : Path) (off : Nat) (b : Byte) (hA : Within 0xe A) (hK : Keeps A a₀ s) : Keeps A a₀ (setHold p off b s) := by
  unfold setHold
  repeat' first
      | with_reducible assumption | ((with_reducible apply sub_of hA); exact rfl) | dsimp only
      | with_reducible apply keeps_setLatches | intro _

theorem keeps_clearHold (p : Path) (hA : Within 0xe A) (hK : Keeps A a₀ s) : Keeps A a₀ (clearHold p s) := by
  unfold clearHold
  repeat' first
      | with_reducible assumption | ((with_reducible apply sub_of hA); exact rfl) | dsimp only
      | with_reducible apply keeps_setLatches | intro _

theorem keeps_captureTime (wc : Nat) (phase : Nat) (hA : Within 0x400000000 A) (hK : Keeps A a₀ s) : Keeps A a₀ (captureTime wc phase s).2 := by
  unfold captureTime
  repeat' first
      | with_reducible assumption | ((with_reducible apply sub_of hA); exact rfl) | dsimp only
      | with_reducible apply keeps_wr | exact cov_TIME_EPOCH_SNAP _ rfl (sub_of hA rfl) | intro _

theorem keeps_sampleReg (off : Nat) (hA : Within 0x410000000 A) (hK : Keeps A a₀ s) : Keeps A a₀ (sampleReg off s).2 := by
  unfold sampleReg
  repeat' first
      | with_reducible assumption | ((with_reducible apply sub_of hA); exact rfl) | dsimp only
      | with_reducible apply keeps_captureTime | with_reducible apply keeps_fresh
      | with_reducible refine keeps_ite (fun _ => ?_) (fun _ => ?_)
      | with_reducible refine keeps_ite_snd (fun _ => ?_) (fun _ => ?_) | split | intro _
      | with_reducible refine keeps_of_snd (by with_reducible assumption) ?_
      | with_reducible refine keeps_of_fst (by with_reducible assumption) ?_

theorem keeps_readLow (p : Path) (off : Nat) (hA : Within 0x41000000e A) (hK : Keeps A a₀ s) : Keeps A a₀ (readLow p off s).2 := by
  unfold readLow
  repeat' first
      | with_reducible assumption | ((with_reducible apply sub_of hA); exact rfl) | dsimp only
      | with_reducible apply keeps_sampleReg | with_reducible apply keeps_setSnap | split | intro _
      | with_reducible refine keeps_of_snd (by with_reducible assumption) ?_
      | with_reducible refine keeps_of_fst (by with_reducible assumption) ?_

theorem keeps_readDword (p : Path) (d : Nat) (hA : Within 0x41000000e A) (hK : Keeps A a₀ s) : Keeps A a₀ (readDword p d s).2 := by
  unfold readDword
  repeat' first
      | with_reducible assumption | ((with_reducible apply sub_of hA); exact rfl) | dsimp only
      | with_reducible apply keeps_readLow | with_reducible refine keeps_ite (fun _ => ?_) (fun _ => ?_)
      | with_reducible refine keeps_ite_snd (fun _ => ?_) (fun _ => ?_) | split | intro _
      | with_reducible refine keeps_of_snd (by with_reducible assumption) ?_
      | with_reducible refine keeps_of_fst (by with_reducible assumption) ?_

theorem keeps_readDwords (p : Path) (d n : Nat) (hA : Within 0x41000000e A) (hK : Keeps A a₀ s) : Keeps A a₀ (readDwords p d n s).2 := by
  induction n generalizing s d with
  | zero =>
    unfold readDwords
    repeat' first
        | with_reducible assumption | ((with_reducible apply sub_of hA); exact rfl) | dsimp only
        | with_reducible apply keeps_readDword | split | intro _
        | with_reducible refine keeps_of_snd (by with_reducible assumption) ?_
        | with_reducible refine keeps_of_fst (by with_reducible assumption) ?_
  | succ _ ih =>
    unfold readDwords
    repeat' first
        | with_reducible assumption | ((with_reducible apply sub_of hA); exact rfl) | dsimp only
        | with_reducible apply keeps_readDword | with_reducible apply ih | split | intro _
        | with_reducible refine keeps_of_snd (by with_reducible assumption) ?_
        | with_reducible refine keeps_of_fst (by with_reducible assumption) ?_

theorem keeps_readEight (p : Path) (off : Nat) (hA : Within 0x41000000e A) (hK : Keeps A a₀ s) : Keeps A a₀ (readEight p off s).2 := by
  unfold readEight
  repeat' first
      | with_reducible assumption | ((with_reducible apply sub_of hA); exact rfl) | dsimp only
      | with_reducible apply keeps_readDword | split | intro _
      | with_reducible refine keeps_of_snd (by with_reducible assumption) ?_
      | with_reducible refine keeps_of_fst (by with_reducible assumption) ?_

theorem keeps_lockedWrite (off : Nat) (hA : Within 0x140060008000000000000000000000000000000000010010000 A) (hK : Keeps A a₀ s) : Keeps A a₀ (lockedWrite off s) := by
  unfold lockedWrite
  repeat' first
      | with_reducible assumption | ((with_reducible apply sub_of hA); exact rfl) | dsimp only
      | with_reducible apply keeps_count | with_reducible apply keeps_raise | intro _

theorem keeps_bootLoadWrite (v : Word) (hA : Within 0x140060008000000000000000000000000000000210030010081 A) (hK : Keeps A a₀ s) : Keeps A a₀ (bootLoadWrite v s) := by
  unfold bootLoadWrite
  repeat' first
      | with_reducible assumption | ((with_reducible apply sub_of hA); exact rfl) | dsimp only
      | with_reducible apply keeps_hostLoad | with_reducible apply keeps_wr
      | exact cov_BOOT_LOAD_CTRL _ rfl (sub_of hA rfl) | with_reducible refine keeps_ite (fun _ => ?_) (fun _ => ?_)
      | split | intro _

theorem keeps_bridgeWrite (new : Word) (v : Word) (hA : Within 0x400028000080 A) (hK : Keeps A a₀ s) : Keeps A a₀ (bridgeWrite new v s) := by
  unfold bridgeWrite
  repeat' first
      | with_reducible assumption | ((with_reducible apply sub_of hA); exact rfl) | dsimp only
      | with_reducible apply keeps_bridgeGo | with_reducible apply keeps_setReg
      | exact cov_FLASH_BRIDGE_CTRL _ rfl (sub_of hA rfl)
      | with_reducible refine keeps_ite (fun _ => ?_) (fun _ => ?_) | split | intro _

theorem keeps_intCfgWrite (new : Word) (hA : Within 0x2000000000000000000020000000 A) (hK : Keeps A a₀ s) : Keeps A a₀ (intCfgWrite new s) := by
  unfold intCfgWrite
  repeat' first
      | with_reducible assumption | ((with_reducible apply sub_of hA); exact rfl) | dsimp only
      | with_reducible apply keeps_emit | with_reducible apply keeps_setReg | exact cov_INT_CFG _ rfl (sub_of hA rfl)
      | with_reducible refine keeps_ite (fun _ => ?_) (fun _ => ?_) | split | intro _

theorem keeps_runWrite (v : Word) (hA : Within 0x20000000000000000000000000 A) (hK : Keeps A a₀ s) : Keeps A a₀ (runWrite v s) := by
  unfold runWrite
  repeat' first
      | with_reducible assumption | ((with_reducible apply sub_of hA); exact rfl) | dsimp only
      | with_reducible apply keeps_wr | exact cov_RUN_CTRL _ rfl (sub_of hA rfl)
      | with_reducible refine keeps_ite (fun _ => ?_) (fun _ => ?_) | split | intro _

theorem keeps_softResetWrite (v : Word) (hA : Within 0x140060008000004000000000000000000000000008010090080 A) (hK : Keeps A a₀ s) : Keeps A a₀ (softResetWrite v s) := by
  unfold softResetWrite
  repeat' first
      | with_reducible assumption | ((with_reducible apply sub_of hA); exact rfl) | dsimp only
      | with_reducible apply keeps_softRequest | with_reducible refine keeps_ite (fun _ => ?_) (fun _ => ?_) | split
      | intro _

theorem keeps_bankWrite (new : Word) (hA : Within 0x340060008000000000000000000000000000000000010018000 A) (hK : Keeps A a₀ s) : Keeps A a₀ (bankWrite new s) := by
  unfold bankWrite
  repeat' first
      | with_reducible assumption | ((with_reducible apply sub_of hA); exact rfl) | dsimp only
      | with_reducible apply keeps_boundaryWrite | intro _ | with_reducible apply keeps_part_q

/-- A register's own write, where it has one. -/
def KeepsHook (A : Nat) (o : Option (State → State)) : Prop := ∀ f a s, o = some f → Keeps A a s → Keeps A a (f s)

theorem hook_some {f : State → State} (h : ∀ a s, Keeps A a s → Keeps A a (f s)) : KeepsHook A (some f) := by
  rintro g a s ⟨⟩ k
  exact h a s k

theorem hook_none : KeepsHook A none := fun f _ _ h => absurd h.symm (Option.some_ne_none f)

theorem hook_ite {c : Prop} [Decidable c] {x y : Option (State → State)} (hx : KeepsHook A x) (hy : KeepsHook A y) :
    KeepsHook A (if c then x else y) := by split <;> assumption

theorem hook_or {i : Option Nat} {f : Nat → State → State} {r : Option (State → State)}
    (h : ∀ n a s, Keeps A a s → Keeps A a (f n s)) (k : KeepsHook A r) : KeepsHook A (orHook i f r) := by
  unfold orHook
  cases i with
  | none => exact k
  | some n => exact hook_some (h n)

theorem hook_arrayHook (off : Nat) (v new : Word) (hA : Within 0x3c00798080002058020000100004000000014000000b12b8000 A) : KeepsHook A (arrayHook off v new) :=
  hook_or (fun _ _ _ => keeps_laneEqWrite _ _ (sub_of hA rfl)) <|
  hook_or (fun _ _ _ h => keeps_setReg _ _ (cov_any _ (sub_of hA rfl)) (keeps_boundaryWrite _ (sub_of hA rfl) h)) <|
  hook_or (fun _ _ _ => keeps_prbsCfgWrite _ _ (sub_of hA rfl)) <|
  hook_or (fun _ _ _ => keeps_laneLoopWrite _ _ (sub_of hA rfl)) <|
  hook_or (fun _ _ _ => keeps_injectWrite _ _ (sub_of hA rfl)) <|
  hook_or (fun _ _ _ => keeps_axCfgWrite _ _ (sub_of hA rfl)) <|
  hook_or (fun _ _ _ => keeps_posCommit _ _ _ (sub_of hA rfl)) <|
  hook_or (fun _ _ _ => keeps_posCommit _ _ _ (sub_of hA rfl)) <|
  hook_or (fun _ _ _ => keeps_calRegWrite _ _ (sub_of hA rfl)) <|
  hook_or (fun _ _ _ => keeps_pwrTargetWrite _ _ (sub_of hA rfl)) <|
  hook_or (fun n _ s h => keeps_ethCfgChanged n (reg off s) (sub_of hA rfl) (keeps_setReg off new (cov_any _ (sub_of hA rfl)) h)) hook_none

theorem hook_writeHook (p : Path) (off : Nat) (v new : Word) (hA : Within 0x3c00f98084006258020000127224000000014206180bb3b81c1 A) : KeepsHook A (writeHook p off v new) := by
  unfold writeHook
  repeat' with_reducible refine hook_ite ?_ ?_
  all_goals first
    | exact hook_some fun _ _ => keeps_softResetWrite _ (sub_of hA rfl)
    | exact hook_some fun _ _ => keeps_bootLoadWrite _ (sub_of hA rfl)
    | exact hook_some fun _ _ => keeps_bridgeWrite _ _ (sub_of hA rfl)
    | exact hook_some fun _ _ => keeps_runWrite _ (sub_of hA rfl)
    | exact hook_some fun _ _ => keeps_hreCtrlWrite _ _ (sub_of hA rfl)
    | exact hook_some fun _ _ => keeps_intCfgWrite _ (sub_of hA rfl)
    | exact hook_some fun _ _ => keeps_indSelect _ (sub_of hA rfl)
    | exact hook_some fun _ _ => keeps_lowReload _ (sub_of hA rfl)
    | exact hook_some fun _ _ => keeps_bankWrite _ (sub_of hA rfl)
    | exact hook_some fun _ _ h => keeps_setReg _ _ (cov_any _ (sub_of hA rfl)) (keeps_boundaryWrite _ (sub_of hA rfl) h)
    | exact hook_some fun _ _ => keeps_ledgerClearWrite _ (sub_of hA rfl)
    | exact hook_some fun _ _ => keeps_calCtrlWrite _ (sub_of hA rfl)
    | exact hook_some fun _ _ => keeps_ktimerWrite _ (sub_of hA rfl)
    | exact hook_some fun _ _ => keeps_kaWatchdogWrite _ _ (sub_of hA rfl)
    | exact hook_arrayHook _ _ _ (sub_of hA rfl)

theorem keeps_hooked {o : Option (State → State)} {f : State → State} (ho : KeepsHook A o)
    (hf : ∀ s, Keeps A a₀ s → Keeps A a₀ (f s)) (h : Keeps A a₀ s) : Keeps A a₀ (hooked o f s) := by
  unfold hooked
  cases o with
  | none => exact hf _ h
  | some g => exact ho g _ _ rfl h

theorem keeps_storeBits (p : Path) (r : RegRow) (off : Nat) (m : Word) (v : Word) (hA : Within 0x3c00f98084006258020000127224000000014206180bb3b81c1 A) (hK : Keeps A a₀ s) : Keeps A a₀ (storeBits p r off m v s) := by
  unfold storeBits
  repeat' first
      | with_reducible assumption | ((with_reducible apply sub_of hA); exact rfl) | dsimp only
      | with_reducible apply keeps_hooked | with_reducible apply keeps_setReg | with_reducible apply hook_writeHook
      | ((with_reducible apply cov_any); exact sub_of hA rfl)
      | with_reducible refine keeps_ite (fun _ => ?_) (fun _ => ?_) | split | intro _

theorem keeps_commitReg (p : Path) (off : Nat) (v : Word) (hA : Within 0x3c00f98084006258020000127224000000014206180bb3b81c1 A) (hK : Keeps A a₀ s) : Keeps A a₀ (commitReg p off v s) := by
  unfold commitReg
  repeat' first
      | with_reducible assumption | ((with_reducible apply sub_of hA); exact rfl) | dsimp only
      | with_reducible apply keeps_lockedWrite | with_reducible apply keeps_storeBits
      | with_reducible apply keeps_whenB | with_reducible refine keeps_ite (fun _ => ?_) (fun _ => ?_) | split
      | intro _ | with_reducible refine keeps_of_snd (by with_reducible assumption) ?_
      | with_reducible refine keeps_of_fst (by with_reducible assumption) ?_

theorem keeps_writeHigh (p : Path) (off : Nat) (b : Byte) (hA : Within 0xe A) (hK : Keeps A a₀ s) : Keeps A a₀ (writeHigh p off b s) := by
  unfold writeHigh
  repeat' first
      | with_reducible assumption | ((with_reducible apply sub_of hA); exact rfl) | dsimp only
      | with_reducible apply keeps_setHold | with_reducible refine keeps_ite (fun _ => ?_) (fun _ => ?_) | split
      | intro _

theorem keeps_writeLow (p : Path) (off : Nat) (v : Nat) (hA : Within 0x3c00f98084006258020000127224000000014206180bb3b81cf A) (hK : Keeps A a₀ s) : Keeps A a₀ (writeLow p off v s) := by
  unfold writeLow
  repeat' first
      | with_reducible assumption | ((with_reducible apply sub_of hA); exact rfl) | dsimp only
      | with_reducible apply keeps_clearHold | with_reducible apply keeps_commitReg
      | with_reducible refine keeps_ite (fun _ => ?_) (fun _ => ?_) | split | intro _

theorem keeps_write8 (p : Path) (off : Nat) (v : Word) (hA : Within 0x3c00f98084006258020000127224000000014206180bb3b81cf A) (hK : Keeps A a₀ s) : Keeps A a₀ (write8 p off v s) := by
  unfold write8
  repeat' first
      | with_reducible assumption | ((with_reducible apply sub_of hA); exact rfl) | dsimp only
      | with_reducible apply keeps_writeHigh | with_reducible apply keeps_writeLow | intro _

theorem keeps_execLowHalfRead (p : Path) (r : BitVec 13) (hA : Within 0x43000000e A) (hK : Keeps A a₀ s) : KeepsRes A a₀ (execLowHalfRead p r s) := by
  unfold execLowHalfRead
  with_reducible apply keepsRes_done
  repeat' first
      | with_reducible assumption | ((with_reducible apply sub_of hA); exact rfl) | dsimp only
      | with_reducible apply keeps_done | with_reducible apply keeps_emit | with_reducible apply keeps_readDword
      | with_reducible refine keeps_ite (fun _ => ?_) (fun _ => ?_)
      | with_reducible refine keeps_ite_snd (fun _ => ?_) (fun _ => ?_) | split | intro _
      | with_reducible refine keeps_of_snd (by with_reducible assumption) ?_
      | with_reducible refine keeps_of_fst (by with_reducible assumption) ?_

theorem keeps_execHighHalfRead (p : Path) (r : BitVec 13) (hA : Within 0x43000000e A) (hK : Keeps A a₀ s) : KeepsRes A a₀ (execHighHalfRead p r s) := by
  unfold execHighHalfRead
  with_reducible apply keepsRes_done
  repeat' first
      | with_reducible assumption | ((with_reducible apply sub_of hA); exact rfl) | dsimp only
      | with_reducible apply keeps_done | with_reducible apply keeps_emit | with_reducible apply keeps_readDword
      | with_reducible refine keeps_ite (fun _ => ?_) (fun _ => ?_)
      | with_reducible refine keeps_ite_snd (fun _ => ?_) (fun _ => ?_) | split | intro _
      | with_reducible refine keeps_of_snd (by with_reducible assumption) ?_
      | with_reducible refine keeps_of_fst (by with_reducible assumption) ?_

theorem keeps_execHighHalfWrite (p : Path) (r : BitVec 13) (v : BitVec 32) (hA : Within 0xe A) (hK : Keeps A a₀ s) : KeepsRes A a₀ (execHighHalfWrite p r v s) := by
  unfold execHighHalfWrite
  with_reducible apply keepsRes_done
  repeat' first
      | with_reducible assumption | ((with_reducible apply sub_of hA); exact rfl) | dsimp only
      | with_reducible apply keeps_done | with_reducible apply keeps_writeHigh | intro _

theorem keeps_execLowHalfWrite (p : Path) (r : BitVec 13) (v : BitVec 32) (hA : Within 0x3c00f98084006258020000127224000000014206180bb3b81cf A) (hK : Keeps A a₀ s) : KeepsRes A a₀ (execLowHalfWrite p r v s) := by
  unfold execLowHalfWrite
  with_reducible apply keepsRes_done
  repeat' first
      | with_reducible assumption | ((with_reducible apply sub_of hA); exact rfl) | dsimp only
      | with_reducible apply keeps_done | with_reducible apply keeps_writeLow | intro _

theorem keeps_execEightByteAccess (p : Path) (r : BitVec 13) (w : Option (BitVec 64)) (hA : Within 0x3c00f98084006258020000127224000000014206184bb3b81cf A) (hK : Keeps A a₀ s) : KeepsRes A a₀ (execEightByteAccess p r w s) := by
  unfold execEightByteAccess
  with_reducible apply keepsRes_done
  repeat' first
      | with_reducible assumption | ((with_reducible apply sub_of hA); exact rfl) | dsimp only
      | with_reducible apply keeps_done | with_reducible apply keeps_emit | with_reducible apply keeps_readEight
      | with_reducible apply keeps_write8 | with_reducible refine keeps_ite (fun _ => ?_) (fun _ => ?_)
      | with_reducible refine keeps_ite_snd (fun _ => ?_) (fun _ => ?_) | split | intro _
      | with_reducible refine keeps_of_snd (by with_reducible assumption) ?_
      | with_reducible refine keeps_of_fst (by with_reducible assumption) ?_

theorem keeps_execBadSizeWrite (_p : Path) (off : BitVec 16) (size : BitVec 13) (hA : Within 0x140060008000000000000000000000000000000000010010000 A) (hK : Keeps A a₀ s) : KeepsRes A a₀ (execBadSizeWrite _p off size s) := by
  unfold execBadSizeWrite
  with_reducible apply keepsRes_done
  repeat' first
      | with_reducible assumption | ((with_reducible apply sub_of hA); exact rfl) | dsimp only
      | with_reducible apply keeps_count | with_reducible apply keeps_done
      | with_reducible refine keeps_ite (fun _ => ?_) (fun _ => ?_) | split | intro _

theorem keeps_execPartialRead (p : Path) (off : BitVec 16) (size : BitVec 13) (hA : Within 0x43000000e A) (hK : Keeps A a₀ s) : KeepsRes A a₀ (execPartialRead p off size s) := by
  unfold execPartialRead
  with_reducible apply keepsRes_done
  repeat' first
      | with_reducible assumption | ((with_reducible apply sub_of hA); exact rfl) | dsimp only
      | with_reducible apply keeps_done | with_reducible apply keeps_emit | with_reducible apply keeps_readDwords
      | with_reducible refine keeps_ite (fun _ => ?_) (fun _ => ?_)
      | with_reducible refine keeps_ite_snd (fun _ => ?_) (fun _ => ?_) | split | intro _
      | with_reducible refine keeps_of_snd (by with_reducible assumption) ?_
      | with_reducible refine keeps_of_fst (by with_reducible assumption) ?_

theorem keeps_execUnassignedAccess (p : Path) (dw : BitVec 14) (eight : Bool) (w : Option (BitVec 64)) (hA : Within 0x20000000 A) (hK : Keeps A a₀ s) : KeepsRes A a₀ (execUnassignedAccess p dw eight w s) := by
  unfold execUnassignedAccess
  with_reducible apply keepsRes_done
  repeat' first
      | with_reducible assumption | ((with_reducible apply sub_of hA); exact rfl) | dsimp only
      | with_reducible apply keeps_done | with_reducible apply keeps_emit
      | with_reducible refine keeps_ite (fun _ => ?_) (fun _ => ?_) | split | intro _
      | with_reducible refine keeps_of_snd (by with_reducible assumption) ?_
      | with_reducible refine keeps_of_fst (by with_reducible assumption) ?_

theorem keeps_execTimeNowRead (p : Path) (wc : BitVec 13) (phase : BitVec 6) (hA : Within 0x42000000e A) (hK : Keeps A a₀ s) : KeepsRes A a₀ (execTimeNowRead p wc phase s) := by
  unfold execTimeNowRead
  with_reducible apply keepsRes_done
  repeat' first
      | with_reducible assumption | ((with_reducible apply sub_of hA); exact rfl) | dsimp only
      | with_reducible apply keeps_captureTime | with_reducible apply keeps_done | with_reducible apply keeps_emit
      | with_reducible apply keeps_setSnap | with_reducible refine keeps_ite (fun _ => ?_) (fun _ => ?_)
      | with_reducible refine keeps_ite_snd (fun _ => ?_) (fun _ => ?_) | split | intro _
      | with_reducible refine keeps_of_snd (by with_reducible assumption) ?_
      | with_reducible refine keeps_of_fst (by with_reducible assumption) ?_

/-- A write of a whole register whose own write is known: only it, the latches and what a locked write counts. -/
theorem keeps_storeBits_at (p : Path) (r : RegRow) (off : Nat) (m v : Word) (hh : ∀ v n, KeepsHook A (writeHook p off v n))
    (hc : Reach.reg A off = true) (h : Keeps A a₀ s) : Keeps A a₀ (storeBits p r off m v s) := by
  unfold storeBits
  split
  · exact h
  · exact keeps_hooked (hh _ _) (fun _ => keeps_setReg _ _ hc) h

theorem keeps_commitReg_at (p : Path) (off : Nat) (v : Word) (hh : ∀ v n, KeepsHook A (writeHook p off v n))
    (hc : Reach.reg A off = true) (hA : Within 0x140060008000000000000000000000000000000000010010000 A) (h : Keeps A a₀ s) : Keeps A a₀ (commitReg p off v s) := by
  unfold commitReg
  split
  · exact h
  · refine keeps_ite (fun _ => h) (fun _ => ?_)
    exact keeps_storeBits_at _ _ _ _ _ hh hc (keeps_whenB _ _ (fun _ => keeps_lockedWrite _ (sub_of hA rfl)) h)

theorem keeps_writeLow_at (p : Path) (off v : Nat) (hh : ∀ v n, KeepsHook A (writeHook p off v n))
    (hc : Reach.reg A off = true) (hA : Within 0x14006000800000000000000000000000000000000001001000e A) (h : Keeps A a₀ s) : Keeps A a₀ (writeLow p off v s) := by
  unfold writeLow
  refine keeps_ite (fun _ => ?_) (fun _ => h)
  exact keeps_clearHold _ (sub_of hA rfl) (keeps_commitReg_at _ _ _ hh hc (sub_of hA rfl) h)

theorem keeps_write8_at (p : Path) (off : Nat) (v : Word) (hh : ∀ v n, KeepsHook A (writeHook p off v n))
    (hc : Reach.reg A off = true) (hA : Within 0x14006000800000000000000000000000000000000001001000e A) (h : Keeps A a₀ s) : Keeps A a₀ (write8 p off v s) :=
  keeps_writeLow_at _ _ _ hh hc hA (keeps_writeHigh _ _ _ (sub_of hA rfl) h)

/-- The own write of member `n` of an array. -/
theorem hook_index {r : Nat → Nat} {c : Nat} (n : Fin c) (hn : indexIn r c (r n) = some n.val) {f : Nat → State → State}
    {k : Option (State → State)} (h : ∀ a s, Keeps A a s → Keeps A a (f n s)) :
    KeepsHook A (orHook (indexIn r c (r n)) f k) := by
  rw [hn]
  exact hook_some h

theorem keeps_execBootLoadGo (p : Path) (v : Word) (hA : Within 0x14006000800000000000000000000000000000021003001008f A) (hK : Keeps A a₀ s) : KeepsRes A a₀ (execBootLoadGo p v s) :=
  keepsRes_done (keeps_write8_at _ _ _ (fun _ _ => hook_some fun _ _ => keeps_bootLoadWrite _ (sub_of hA rfl))
    (cov_BOOT_LOAD_CTRL _ rfl (sub_of hA rfl)) (sub_of hA rfl) hK)

theorem keeps_execFlashBridgeGo (p : Path) (v : Word) (hA : Within 0x14006000800000000000000000000000000000040003801008e A) (hK : Keeps A a₀ s) : KeepsRes A a₀ (execFlashBridgeGo p v s) :=
  keepsRes_done (keeps_write8_at _ _ _ (fun _ _ => hook_some fun _ _ => keeps_bridgeWrite _ _ (sub_of hA rfl))
    (cov_FLASH_BRIDGE_CTRL _ rfl (sub_of hA rfl)) (sub_of hA rfl) hK)

theorem keeps_execSoftReset (p : Path) (v : Word) (hA : Within 0x14006000800000400000000000000000000000004801009008e A) (hK : Keeps A a₀ s) : KeepsRes A a₀ (execSoftReset p v s) :=
  keepsRes_done (keeps_write8_at _ _ _ (fun _ _ => hook_some fun _ _ => keeps_softResetWrite _ (sub_of hA rfl))
    (cov_SOFT_RESET _ rfl (sub_of hA rfl)) (sub_of hA rfl) hK)

theorem keeps_execKaWatchdog (p : Path) (v : Word) (hA : Within 0x14006000800000000000000000000000000002000001001010e A) (hK : Keeps A a₀ s) : KeepsRes A a₀ (execKaWatchdog p v s) :=
  keepsRes_done (keeps_write8_at _ _ _ (fun _ _ => hook_some fun _ _ => keeps_kaWatchdogWrite _ _ (sub_of hA rfl))
    (cov_KA_WATCHDOG _ rfl (sub_of hA rfl)) (sub_of hA rfl) hK)

theorem keeps_execQmIndWrite (p : Path) (v : Word) (hA : Within 0x14006000800000000000000000200000000000000001001804e A) (hK : Keeps A a₀ s) : KeepsRes A a₀ (execQmIndWrite p v s) :=
  keepsRes_done (keeps_write8_at _ _ _ (fun _ _ => hook_some fun _ _ => keeps_indSelect _ (sub_of hA rfl))
    (cov_QM_IND_SEL _ rfl (sub_of hA rfl)) (sub_of hA rfl) hK)

theorem keeps_execQmIndRead (p : Path) (v : Word) (hA : Within 0x14006000800000000000000000200000000000000001001804e A) (hK : Keeps A a₀ s) : KeepsRes A a₀ (execQmIndRead p v s) :=
  keepsRes_done (keeps_write8_at _ _ _ (fun _ _ => hook_some fun _ _ => keeps_indSelect _ (sub_of hA rfl))
    (cov_QM_IND_SEL _ rfl (sub_of hA rfl)) (sub_of hA rfl) hK)

theorem keeps_execLowReload (p : Path) (v : Word) (hA : Within 0x14006000800000000000000000040000000000000001001000e A) (hK : Keeps A a₀ s) : KeepsRes A a₀ (execLowReload p v s) :=
  keepsRes_done (keeps_write8_at _ _ _ (fun _ _ => hook_some fun _ _ => keeps_lowReload _ (sub_of hA rfl))
    (cov_GRAN_STATUS _ rfl (sub_of hA rfl)) (sub_of hA rfl) hK)

theorem keeps_execRun (p : Path) (v : Word) (hA : Within 0x14006000800000000000000002000000000000000001001000e A) (hK : Keeps A a₀ s) : KeepsRes A a₀ (execRun p v s) :=
  keepsRes_done (keeps_write8_at _ _ _ (fun _ _ => hook_some fun _ _ => keeps_runWrite _ (sub_of hA rfl))
    (cov_RUN_CTRL _ rfl (sub_of hA rfl)) (sub_of hA rfl) hK)

theorem keeps_execHreStart (p : Path) (v : Word) (hA : Within 0x14006000800000000000000070040000000000000001001008e A) (hK : Keeps A a₀ s) : KeepsRes A a₀ (execHreStart p v s) :=
  keepsRes_done (keeps_write8_at _ _ _ (fun _ _ => hook_some fun _ _ => keeps_hreCtrlWrite _ _ (sub_of hA rfl))
    (cov_HRE_CTRL _ rfl (sub_of hA rfl)) (sub_of hA rfl) hK)

theorem keeps_execHreStop (p : Path) (v : Word) (hA : Within 0x14006000800000000000000070040000000000000001001008e A) (hK : Keeps A a₀ s) : KeepsRes A a₀ (execHreStop p v s) :=
  keepsRes_done (keeps_write8_at _ _ _ (fun _ _ => hook_some fun _ _ => keeps_hreCtrlWrite _ _ (sub_of hA rfl))
    (cov_HRE_CTRL _ rfl (sub_of hA rfl)) (sub_of hA rfl) hK)

theorem keeps_execIntxPend (p : Path) (v : Word) (hA : Within 0x14006000800000000000000200000000000000000003001000e A) (hK : Keeps A a₀ s) : KeepsRes A a₀ (execIntxPend p v s) :=
  keepsRes_done (keeps_write8_at _ _ _ (fun _ _ => hook_some fun _ _ => keeps_intCfgWrite _ (sub_of hA rfl))
    (cov_INT_CFG _ rfl (sub_of hA rfl)) (sub_of hA rfl) hK)

theorem hook_AX_POS (p : Path) (ax : Fin 2) (enc : Bool) (v n : Word) (hA : Within 0x140060008000001800000000000000000000000000010090000 A) :
    KeepsHook A (writeHook p (if enc then R.AX_POS_ENC ax else R.AX_POS_CMD ax) v n) := by
  cases enc <;> fin_cases ax <;> exact hook_some fun _ _ => keeps_posCommit _ _ _ (sub_of hA rfl)

theorem keeps_execPosWrite (p : Path) (ax : Fin 2) (enc : Bool) (v : Word) (hA : Within 0x14006000800000180000000000000000000000000001009000e A) (hK : Keeps A a₀ s) :
    KeepsRes A a₀ (execPosWrite p ax enc v s) := by
  refine keepsRes_done (keeps_write8_at _ _ _ (fun _ _ => hook_AX_POS _ ax enc _ _ (sub_of hA rfl)) ?_ (sub_of hA rfl) hK)
  cases enc
  · exact cov_AX_POS_CMD _ _ rfl (sub_of hA rfl)
  · exact cov_AX_POS_ENC _ _ rfl (sub_of hA rfl)

theorem keeps_execAfeCalStart (p : Path) (v : Word) (hA : Within 0x14006000800042000000000000000000000000000001011000e A) (hK : Keeps A a₀ s) : KeepsRes A a₀ (execAfeCalStart p v s) :=
  keepsRes_done (keeps_write8_at _ _ _ (fun _ _ => hook_some fun _ _ => keeps_calCtrlWrite _ (sub_of hA rfl))
    (cov_AFE_CAL_CTRL _ rfl (sub_of hA rfl)) (sub_of hA rfl) hK)

theorem hook_PWR_TARGET (p : Path) (k : Fin 24) (v n : Word) (hA : Within 0x1c0060008000000000000000000000000000000000010210000 A) :
    KeepsHook A (writeHook p (R.PWR_TARGET k) v n) := by
  fin_cases k <;> exact hook_some fun _ _ => keeps_pwrTargetWrite _ _ (sub_of hA rfl)

theorem keeps_execPwrTarget (p : Path) (k : Fin 24) (v : Word) (hA : Within 0x1c006000800000000000000000000000000000000001021000e A) (hK : Keeps A a₀ s) : KeepsRes A a₀ (execPwrTarget p k v s) :=
  keepsRes_done (keeps_write8_at _ _ _ (fun _ _ => hook_PWR_TARGET _ k _ _ (sub_of hA rfl))
    (cov_PWR_TARGET _ _ rfl (sub_of hA rfl)) (sub_of hA rfl) hK)

theorem keeps_execKtimerCfg (p : Path) (v : Word) (hA : Within 0x14006000840000000000000000000000000000000001021000e A) (hK : Keeps A a₀ s) : KeepsRes A a₀ (execKtimerCfg p v s) :=
  keepsRes_done (keeps_write8_at _ _ _ (fun _ _ => hook_some fun _ _ => keeps_ktimerWrite _ (sub_of hA rfl))
    (cov_KTIMER_CFG _ rfl (sub_of hA rfl)) (sub_of hA rfl) hK)

theorem hook_LANE_PRBS_CFG (p : Path) (lane : Fin 8) (v n : Word) (hA : Within 0x340061808000000000000000000000000000000000011010000 A) :
    KeepsHook A (writeHook p (R.LANE_PRBS_CFG lane) v n) := by
  fin_cases lane <;> exact hook_some fun _ _ => keeps_prbsCfgWrite _ _ (sub_of hA rfl)

theorem keeps_execLanePrbsCfg (p : Path) (lane : Fin 8) (v : Word) (hA : Within 0x34006180800000000000000000000000000000000001101000e A) (hK : Keeps A a₀ s) : KeepsRes A a₀ (execLanePrbsCfg p lane v s) :=
  keepsRes_done (keeps_write8_at _ _ _ (fun _ _ => hook_LANE_PRBS_CFG _ lane _ _ (sub_of hA rfl))
    (cov_LANE_PRBS_CFG _ _ rfl (sub_of hA rfl)) (sub_of hA rfl) hK)

theorem hook_LANE_LOOP (p : Path) (lane : Fin 8) (v n : Word) (hA : Within 0x340071008000000000000000000000000000000000011010000 A) :
    KeepsHook A (writeHook p (R.LANE_LOOP lane) v n) := by
  fin_cases lane <;> exact hook_some fun _ _ => keeps_laneLoopWrite _ _ (sub_of hA rfl)

theorem keeps_execLaneLoop (p : Path) (lane : Fin 8) (v : Word) (hA : Within 0x34007100800000000000000000000000000000000001101000e A) (hK : Keeps A a₀ s) : KeepsRes A a₀ (execLaneLoop p lane v s) :=
  keepsRes_done (keeps_write8_at _ _ _ (fun _ _ => hook_LANE_LOOP _ lane _ _ (sub_of hA rfl))
    (cov_LANE_LOOP _ _ rfl (sub_of hA rfl)) (sub_of hA rfl) hK)

theorem hook_LANE_INJECT (p : Path) (lane : Fin 8) (v n : Word) (hA : Within 0x140069008000000000000000000000000000000000031010000 A) :
    KeepsHook A (writeHook p (R.LANE_INJECT lane) v n) := by
  fin_cases lane <;> exact hook_some fun _ _ => keeps_injectWrite _ _ (sub_of hA rfl)

theorem keeps_execInjectSingle (p : Path) (lane : Fin 8) (v : Word) (hA : Within 0x14006900800000000000000000000000000000000003101000e A) (hK : Keeps A a₀ s) : KeepsRes A a₀ (execInjectSingle p lane v s) :=
  keepsRes_done (keeps_write8_at _ _ _ (fun _ _ => hook_LANE_INJECT _ lane _ _ (sub_of hA rfl))
    (cov_LANE_INJECT _ _ rfl (sub_of hA rfl)) (sub_of hA rfl) hK)

theorem keeps_execInjectBurst (p : Path) (lane : Fin 8) (v : Word) (hA : Within 0x14006900800000000000000000000000000000000003101000e A) (hK : Keeps A a₀ s) : KeepsRes A a₀ (execInjectBurst p lane v s) :=
  keepsRes_done (keeps_write8_at _ _ _ (fun _ _ => hook_LANE_INJECT _ lane _ _ (sub_of hA rfl))
    (cov_LANE_INJECT _ _ rfl (sub_of hA rfl)) (sub_of hA rfl) hK)

theorem keeps_execInjectContinuous (p : Path) (lane : Fin 8) (v : Word) (hA : Within 0x14006900800000000000000000000000000000000003101000e A) (hK : Keeps A a₀ s) : KeepsRes A a₀ (execInjectContinuous p lane v s) :=
  keepsRes_done (keeps_write8_at _ _ _ (fun _ _ => hook_LANE_INJECT _ lane _ _ (sub_of hA rfl))
    (cov_LANE_INJECT _ _ rfl (sub_of hA rfl)) (sub_of hA rfl) hK)

theorem keeps_execInjectStop (p : Path) (lane : Fin 8) (v : Word) (hA : Within 0x14006900800000000000000000000000000000000003101000e A) (hK : Keeps A a₀ s) : KeepsRes A a₀ (execInjectStop p lane v s) :=
  keepsRes_done (keeps_write8_at _ _ _ (fun _ _ => hook_LANE_INJECT _ lane _ _ (sub_of hA rfl))
    (cov_LANE_INJECT _ _ rfl (sub_of hA rfl)) (sub_of hA rfl) hK)

theorem keeps_execLedgerClear (p : Path) (v : Word) (hA : Within 0x1400e000800000000000000000000000000000000001201000e A) (hK : Keeps A a₀ s) : KeepsRes A a₀ (execLedgerClear p v s) :=
  keepsRes_done (keeps_write8_at _ _ _ (fun _ _ => hook_some fun _ _ => keeps_ledgerClearWrite _ (sub_of hA rfl))
    (cov_LEDGER_CLEAR _ rfl (sub_of hA rfl)) (sub_of hA rfl) hK)

end Sys2Proof.Laws
end

