-- ==== Sys2Proof/Laws/KeepsSettings.lean ====
section
/-! SUPPORT. `Keeps` for the operations of Machine/Settings.lean. -/

set_option linter.unusedTactic false
set_option linter.unreachableTactic false

namespace Sys2Proof.Laws

open Sys2Proof Sys2Proof.Machine Sys2Proof.Safety

variable {A : Nat} {a₀ s : State}

theorem keeps_presetWrite (off : Nat) (v : Word) (hA : Within 0x3c00f98084006258020000127224000000014206180bb3b81c1 A) (hK : Keeps A a₀ s) : Keeps A a₀ (presetWrite off v s) := by
  unfold presetWrite
  repeat' first
      | with_reducible assumption | ((with_reducible apply sub_of hA); exact rfl) | dsimp only
      | with_reducible apply keeps_commitReg | with_reducible apply keeps_stage | with_reducible apply keeps_storeBits
      | with_reducible refine keeps_ite (fun _ => ?_) (fun _ => ?_) | split | intro _
      | with_reducible refine keeps_of_snd (by with_reducible assumption) ?_
      | with_reducible refine keeps_of_fst (by with_reducible assumption) ?_

theorem keeps_settingApplied (key : Nat) (val : List Byte) (hA : Within 0x3c00f98084006258020000127224000000014206180bb3ba5c1 A) (hK : Keeps A a₀ s) : Keeps A a₀ (settingApplied key val s) := by
  unfold settingApplied
  repeat' first
      | with_reducible assumption | ((with_reducible apply sub_of hA); exact rfl) | dsimp only
      | with_reducible apply keeps_houseChanged | with_reducible apply keeps_presetWrite
      | with_reducible refine keeps_ite (fun _ => ?_) (fun _ => ?_) | split | intro _

theorem keeps_setLive (key : Nat) (val : Option (List Byte)) (hA : Within 0x800000 A) (hK : Keeps A a₀ s) : Keeps A a₀ (setLive key val s) := by
  unfold setLive
  repeat' first
      | with_reducible assumption | ((with_reducible apply sub_of hA); exact rfl) | exact fun h => h | dsimp only
      | with_reducible apply keeps_setGlean | split | intro _
      | with_reducible refine keeps_of_snd (by with_reducible assumption) ?_
      | with_reducible refine keeps_of_fst (by with_reducible assumption) ?_
      | (with_reducible show List.length _ ≤ _; exact lengthNil _)

theorem keeps_setRecord (key : Nat) (persist : Bool) (val : List Byte) (hA : Within 0x3c00f9c084006258020000127224000000014206180bbbba5c1 A) (hK : Keeps A a₀ s) : Keeps A a₀ (setRecord key persist val s).2 := by
  unfold setRecord
  repeat' first
      | with_reducible assumption | ((with_reducible apply sub_of hA); exact rfl) | dsimp only
      | with_reducible apply keeps_setLive | with_reducible apply keeps_settingApplied
      | with_reducible apply keeps_settingStore | with_reducible refine keeps_ite (fun _ => ?_) (fun _ => ?_)
      | with_reducible refine keeps_ite_snd (fun _ => ?_) (fun _ => ?_) | split | intro _
      | with_reducible refine keeps_of_snd (by with_reducible assumption) ?_
      | with_reducible refine keeps_of_fst (by with_reducible assumption) ?_

theorem keeps_setRecordOr (fault : Bool) (key : Nat) (persist : Bool) (val : List Byte) (hA : Within 0x3c00f9c084006258020000127224000000014206180bbbba5c1 A) (hK : Keeps A a₀ s) : Keeps A a₀ (setRecordOr fault key persist val s).2 := by
  unfold setRecordOr
  repeat' first
      | with_reducible assumption | ((with_reducible apply sub_of hA); exact rfl) | dsimp only
      | with_reducible apply keeps_flashFault | with_reducible apply keeps_setRecord
      | with_reducible refine keeps_ite (fun _ => ?_) (fun _ => ?_)
      | with_reducible refine keeps_ite_snd (fun _ => ?_) (fun _ => ?_) | split | intro _
      | with_reducible refine keeps_of_snd (by with_reducible assumption) ?_
      | with_reducible refine keeps_of_fst (by with_reducible assumption) ?_

theorem keeps_setEndStatus (w : Nat) (r : Option SetEnd) (hA : Within 0x10000000 A) (hK : Keeps A a₀ s) : Keeps A a₀ (setEndStatus w r s).2 := by
  unfold setEndStatus
  repeat' first
      | with_reducible assumption | ((with_reducible apply sub_of hA); exact rfl) | dsimp only
      | with_reducible apply keeps_fresh | split | intro _
      | with_reducible refine keeps_of_snd (by with_reducible assumption) ?_
      | with_reducible refine keeps_of_fst (by with_reducible assumption) ?_

theorem keeps_applyPresets (hA : Within 0x3c00f98084006258020000127224000000014206180bb3b81c1 A) (h : Keeps A a₀ s) : Keeps A a₀ (applyPresets s) := by
  unfold applyPresets
  with_reducible refine keeps_eachOf _ _ (fun s x h => ?_) h
  split
  · with_reducible refine keeps_ite (fun _ => h) (fun _ => ?_)
    exact keeps_presetWrite _ _ (sub_of hA rfl) h
  · exact h

theorem keeps_loadSettings  (hA : Within 0x3c00f9c084006258020000127224000000014206180bb3ba5c1 A) (hK : Keeps A a₀ s) : Keeps A a₀ (loadSettings s) := by
  unfold loadSettings
  repeat' first
      | with_reducible assumption | ((with_reducible apply sub_of hA); exact rfl) | dsimp only
      | with_reducible apply keeps_applyPresets | with_reducible apply keeps_houseChanged
      | with_reducible apply keeps_settingsCheck | with_reducible apply keeps_settingsRefresh
      | with_reducible refine keeps_ite (fun _ => ?_) (fun _ => ?_) | split | intro _

end Sys2Proof.Laws
end

