-- ==== Sys2Proof/Laws/KeepsBoot.lean ====
section
/-! SUPPORT. `Keeps` for the operations of Machine/Boot.lean. -/

set_option linter.unusedTactic false
set_option linter.unreachableTactic false

namespace Sys2Proof.Laws

open Sys2Proof Sys2Proof.Machine Sys2Proof.Safety

variable {A : Nat} {a₀ s : State}

theorem keeps_execPowerOnReset  (hA : Within 0x3ffffffffffffffffffffffffffffffffffffffffffffffffff A) (hK : Keeps A a₀ s) : KeepsRes A a₀ (execPowerOnReset s) := by
  unfold execPowerOnReset
  with_reducible apply keepsRes_done
  repeat' first
      | with_reducible assumption | ((with_reducible apply sub_of hA); exact rfl) | dsimp only
      | with_reducible apply keeps_done | with_reducible apply keeps_takeReset | intro _

theorem keeps_execPinReset  (hA : Within 0x3ffffffffffffffffffffffffffffffffffffffffffffffffff A) (hK : Keeps A a₀ s) : KeepsRes A a₀ (execPinReset s) := by
  unfold execPinReset
  with_reducible apply keepsRes_done
  repeat' first
      | with_reducible assumption | ((with_reducible apply sub_of hA); exact rfl) | dsimp only
      | with_reducible apply keeps_done | with_reducible apply keeps_takeReset | intro _

theorem keeps_execBrownOutReset  (hA : Within 0x3ffffffffffffffffffffffffffffffffffffffffffffffffff A) (hK : Keeps A a₀ s) : KeepsRes A a₀ (execBrownOutReset s) := by
  unfold execBrownOutReset
  with_reducible apply keepsRes_done
  repeat' first
      | with_reducible assumption | ((with_reducible apply sub_of hA); exact rfl) | dsimp only
      | with_reducible apply keeps_done | with_reducible apply keeps_takeReset | intro _

theorem keeps_execSoftResetProceed  (hA : Within 0x3ffffffffffffffffffffffffffffffffffffffffffffffffff A) (hK : Keeps A a₀ s) : KeepsRes A a₀ (execSoftResetProceed s) := by
  unfold execSoftResetProceed
  with_reducible apply keepsRes_done
  repeat' first
      | with_reducible assumption | ((with_reducible apply sub_of hA); exact rfl) | dsimp only
      | with_reducible apply keeps_beginSelftest | with_reducible apply keeps_done
      | with_reducible apply keeps_takeReset | with_reducible refine keeps_ite (fun _ => ?_) (fun _ => ?_) | split
      | intro _

theorem keeps_firstListening (hA : Within 0x140060008000000000000000000000000000000000010010081 A) (hK : Keeps A a₀ s) : Keeps A a₀ (firstListening s) := by
  unfold firstListening
  repeat' first
      | with_reducible assumption | ((with_reducible apply sub_of hA); exact rfl) | dsimp only
      | with_reducible apply keeps_changeTerm | with_reducible apply keeps_setBoot | intro _

theorem keeps_execEnterListening  (hA : Within 0x3c00f9c484006258020000127224000000014206180bbbbadc1 A) (hK : Keeps A a₀ s) : KeepsRes A a₀ (execEnterListening s) := by
  unfold execEnterListening
  with_reducible apply keepsRes_done
  repeat' first
      | with_reducible assumption | ((with_reducible apply sub_of hA); exact rfl) | dsimp only
      | with_reducible apply keeps_done | with_reducible apply keeps_firstListening
      | with_reducible apply keeps_gleanStart | with_reducible apply keeps_loadSettings
      | with_reducible apply keeps_refreshHost | with_reducible refine keeps_ite (fun _ => ?_) (fun _ => ?_) | split
      | intro _

theorem keeps_execFirmwareRun  (hA : Within 0x20000000000000000000000000 A) (hK : Keeps A a₀ s) : KeepsRes A a₀ (execFirmwareRun s) := by
  unfold execFirmwareRun
  with_reducible apply keepsRes_done
  repeat' first
      | with_reducible assumption | ((with_reducible apply sub_of hA); exact rfl) | dsimp only
      | with_reducible apply keeps_done | with_reducible apply keeps_wr | exact cov_RUN_CTRL _ rfl (sub_of hA rfl)
      | with_reducible refine keeps_ite (fun _ => ?_) (fun _ => ?_) | split | intro _

theorem keeps_firmwareBack (hA : Within 0x140060448000000000000000000000000000000000018a10800 A) (hK : Keeps A a₀ s) : Keeps A a₀ (firmwareBack s) := by
  unfold firmwareBack
  repeat' first
      | with_reducible assumption | ((with_reducible apply sub_of hA); exact rfl) | dsimp only
      | with_reducible apply keeps_gleanStart | with_reducible apply keeps_setPwr
      | with_reducible apply keeps_settingsCheck | with_reducible apply keeps_settingsRefresh
      | with_reducible refine keeps_ite (fun _ => ?_) (fun _ => ?_) | split | intro _

theorem keeps_execPowerTransition (hA : Within 0x1c0060448200421800000010540440c000013000000f9bffe00 A)
    (hK : Keeps A a₀ s) : KeepsRes A a₀ (execPowerTransition s) := by
  unfold execPowerTransition
  with_reducible apply keepsRes_done
  repeat' first
      | with_reducible assumption | ((with_reducible apply sub_of hA); exact rfl) | dsimp only
      | with_reducible apply keeps_beginTransition | with_reducible apply keeps_eachOf
      | with_reducible apply keeps_firmwareBack | with_reducible apply keeps_powerRefused
      | with_reducible apply keeps_pwrAnswer | with_reducible apply keeps_pwrFinish
      | with_reducible apply keeps_setPwr | with_reducible apply keeps_wr
      | exact cov_PWR_TARGET _ _ rfl (sub_of hA rfl)
      | with_reducible refine keeps_ite (fun _ => ?_) (fun _ => ?_) | split | intro _
      | with_reducible refine keeps_of_snd (by with_reducible assumption) ?_
      | with_reducible refine keeps_of_fst (by with_reducible assumption) ?_

theorem keeps_execPwrDone (hA : Within 0x1c0060448200421800000010140440c000013000000f9bffe00 A) (hK : Keeps A a₀ s) : KeepsRes A a₀ (execPwrDone s) := by
  unfold execPwrDone
  with_reducible apply keepsRes_done
  repeat' first
      | with_reducible assumption | ((with_reducible apply sub_of hA); exact rfl) | dsimp only
      | with_reducible apply keeps_firmwareBack | with_reducible apply keeps_pwrFinish
      | with_reducible refine keeps_ite (fun _ => ?_) (fun _ => ?_) | split | intro _
      | with_reducible refine keeps_of_snd (by with_reducible assumption) ?_
      | with_reducible refine keeps_of_fst (by with_reducible assumption) ?_

theorem keeps_execDefaultTargets (hA : Within 0x1c00600080004218000000105404404000003000000f1bffe80 A) (hK : Keeps A a₀ s) : KeepsRes A a₀ (execDefaultTargets s) := by
  unfold execDefaultTargets
  with_reducible apply keepsRes_done
  repeat' first
      | with_reducible assumption | ((with_reducible apply sub_of hA); exact rfl) | dsimp only
      | with_reducible apply keeps_beginTransition | with_reducible refine keeps_ite (fun _ => ?_) (fun _ => ?_)
      | split | intro _ | with_reducible apply keeps_part_boot

theorem keeps_clearTables  (hA : Within 0x4000 A) (hK : Keeps A a₀ s) : Keeps A a₀ (clearTables s) := by
  unfold clearTables
  repeat' first
      | with_reducible assumption | ((with_reducible apply sub_of hA); exact rfl) | dsimp only | intro _
      | with_reducible apply keeps_part_th

theorem keeps_execHostReset (kind : Fin 4) (hA : Within 0x17ff60008000000000000003d80400000000000210030014082 A) (hK : Keeps A a₀ s) : KeepsRes A a₀ (execHostReset kind s) := by
  unfold execHostReset
  with_reducible apply keepsRes_done
  repeat' first
      | with_reducible assumption | ((with_reducible apply sub_of hA); exact rfl) | dsimp only
      | with_reducible apply keeps_clearTables | with_reducible apply keeps_done | with_reducible apply hostRegs_reach
      | with_reducible apply keeps_hostResetOp | with_reducible apply keeps_loadCut | with_reducible apply keeps_whenB
      | with_reducible refine keeps_ite (fun _ => ?_) (fun _ => ?_) | split | intro _

theorem keeps_execTickOverrun (eng : Fin 9) (hA : Within 0x140060008000000000000000000000000000000001010010100 A)
    (hK : Keeps A a₀ s) : KeepsRes A a₀ (execTickOverrun eng s) := by
  unfold execTickOverrun
  with_reducible apply keepsRes_done
  repeat' first
      | with_reducible assumption | ((with_reducible apply sub_of hA); exact rfl) | dsimp only
      | with_reducible apply keeps_count | with_reducible apply keeps_raise | with_reducible apply keeps_setByp
      | with_reducible apply keeps_wr | exact cov_TICK_OVERRUN_STATUS _ rfl (sub_of hA rfl)
      | with_reducible refine keeps_ite (fun _ => ?_) (fun _ => ?_) | split | intro _

end Sys2Proof.Laws
end

