-- ==== Sys2Proof/Laws/KeepsCommands.lean ====
section
/-! SUPPORT. `Keeps` for the operations of Machine/Commands.lean. -/

set_option linter.unusedTactic false
set_option linter.unreachableTactic false

namespace Sys2Proof.Laws

open Sys2Proof Sys2Proof.Machine Sys2Proof.Safety

variable {A : Nat} {a₀ s : State}

theorem keeps_ends (st : Nat) (sub : Nat) (res : Nat) (hA : Within 0x0 A) (hK : Keeps A a₀ s) : Keeps A a₀ (ends st sub res s).2 := by
  unfold ends
  repeat' first | with_reducible assumption | ((with_reducible apply sub_of hA); exact rfl) | dsimp only | intro _

theorem keeps_cmdTick (t : Word) (f : Nat → State → CmdEnd × State) (hf : ∀ x0 s, Keeps A a₀ s → Keeps A a₀ (f x0 s).2) (hA : Within 0x0 A) (hK : Keeps A a₀ s) : Keeps A a₀ (cmdTick t f s).2 := by
  unfold cmdTick
  repeat' first
      | with_reducible assumption | ((with_reducible apply sub_of hA); exact rfl) | dsimp only
      | with_reducible apply keeps_ends | with_reducible apply hf
      | with_reducible refine keeps_ite (fun _ => ?_) (fun _ => ?_)
      | with_reducible refine keeps_ite_snd (fun _ => ?_) (fun _ => ?_) | split | intro _

theorem keeps_cmdDmaErr  (hA : Within 0x140060008000000000000000000000000000000000010010000 A) (hK : Keeps A a₀ s) : Keeps A a₀ (cmdDmaErr s).2 := by
  unfold cmdDmaErr
  repeat' first
      | with_reducible assumption | ((with_reducible apply sub_of hA); exact rfl) | dsimp only
      | with_reducible apply keeps_count | with_reducible apply keeps_ends | intro _

theorem keeps_needsOn (k : Nat) (f : State → CmdEnd × State) (hf : ∀ s, Keeps A a₀ s → Keeps A a₀ (f s).2) (hA : Within 0x0 A) (hK : Keeps A a₀ s) : Keeps A a₀ (needsOn k f s).2 := by
  unfold needsOn
  repeat' first
      | with_reducible assumption | ((with_reducible apply sub_of hA); exact rfl) | dsimp only
      | with_reducible apply keeps_ends | with_reducible apply hf
      | with_reducible refine keeps_ite (fun _ => ?_) (fun _ => ?_)
      | with_reducible refine keeps_ite_snd (fun _ => ?_) (fun _ => ?_) | split | intro _

theorem keeps_updEnds (r : Nat × State) (res : Nat) (h : Keeps A a₀ r.2) : Keeps A a₀ (updEnds r res).2 := h

theorem keeps_updSetCmd (u : List Word) (hA : Within 0x1400600080000000000000000000c0000000000000010014000 A) (hK : Keeps A a₀ s) : Keeps A a₀ (updSetCmd u s).2 := by
  unfold updSetCmd
  repeat' first
      | with_reducible assumption | ((with_reducible apply sub_of hA); exact rfl) | dsimp only
      | with_reducible apply keeps_ends | with_reducible apply keeps_updEnds | with_reducible apply keeps_updSet
      | with_reducible refine keeps_ite (fun _ => ?_) (fun _ => ?_)
      | with_reducible refine keeps_ite_snd (fun _ => ?_) (fun _ => ?_) | split | intro _

theorem keeps_updDeleteCmd (u : List Word) (hA : Within 0x40000000000000000004000 A) (hK : Keeps A a₀ s) : Keeps A a₀ (updDeleteCmd u s).2 := by
  unfold updDeleteCmd
  repeat' first
      | with_reducible assumption | ((with_reducible apply sub_of hA); exact rfl) | dsimp only
      | with_reducible apply keeps_ends | with_reducible apply keeps_updDelete | with_reducible apply keeps_updEnds
      | with_reducible refine keeps_ite (fun _ => ?_) (fun _ => ?_)
      | with_reducible refine keeps_ite_snd (fun _ => ?_) (fun _ => ?_) | split | intro _

theorem keeps_updCommitCmd (u : List Word) (hA : Within 0x40000000000000000004000 A) (hK : Keeps A a₀ s) : Keeps A a₀ (updCommitCmd u s).2 := by
  unfold updCommitCmd
  repeat' first
      | with_reducible assumption | ((with_reducible apply sub_of hA); exact rfl) | dsimp only
      | with_reducible apply keeps_ends | with_reducible apply keeps_updCommit | with_reducible apply keeps_updEnds
      | with_reducible refine keeps_ite (fun _ => ?_) (fun _ => ?_)
      | with_reducible refine keeps_ite_snd (fun _ => ?_) (fun _ => ?_) | split | intro _

theorem keeps_execThUpdateSet (h : CmdHdr) (u : List Word) (hA : Within 0x1400600080000000000000040000c0000000000000030014000 A) (hK : Keeps A a₀ s) : KeepsRes A a₀ (execThUpdateSet h u s) := by
  unfold execThUpdateSet
  with_reducible apply keepsRes_done
  repeat' first
      | with_reducible assumption | ((with_reducible apply sub_of hA); exact rfl) | dsimp only
      | with_reducible apply keeps_done | with_reducible apply keeps_needsOn | with_reducible apply keeps_runCmd
      | with_reducible apply keeps_updSetCmd | intro _

theorem keeps_execThUpdateDelete (h : CmdHdr) (u : List Word) (hA : Within 0x140060008000000000000004000040000000000000030014000 A) (hK : Keeps A a₀ s) : KeepsRes A a₀ (execThUpdateDelete h u s) := by
  unfold execThUpdateDelete
  with_reducible apply keepsRes_done
  repeat' first
      | with_reducible assumption | ((with_reducible apply sub_of hA); exact rfl) | dsimp only
      | with_reducible apply keeps_done | with_reducible apply keeps_needsOn | with_reducible apply keeps_runCmd
      | with_reducible apply keeps_updDeleteCmd | intro _

theorem keeps_execThUpdateCommit (h : CmdHdr) (u : List Word) (hA : Within 0x140060008000000000000004000040000000000000030014000 A) (hK : Keeps A a₀ s) : KeepsRes A a₀ (execThUpdateCommit h u s) := by
  unfold execThUpdateCommit
  with_reducible apply keepsRes_done
  repeat' first
      | with_reducible assumption | ((with_reducible apply sub_of hA); exact rfl) | dsimp only
      | with_reducible apply keeps_done | with_reducible apply keeps_needsOn | with_reducible apply keeps_runCmd
      | with_reducible apply keeps_updCommitCmd | intro _

theorem keeps_execNop (h : CmdHdr) (hA : Within 0x140060008000000000000004000000000000000000030010000 A) (hK : Keeps A a₀ s) : KeepsRes A a₀ (execNop h s) := by
  unfold execNop
  with_reducible apply keepsRes_done
  repeat' first
      | with_reducible assumption | ((with_reducible apply sub_of hA); exact rfl) | dsimp only
      | with_reducible apply keeps_done | with_reducible apply keeps_ends | with_reducible apply keeps_runCmd
      | intro _

theorem keeps_execWait (h : CmdHdr) (t : Word) (hA : Within 0x140060008000000000000004000000000000000000030210000 A) (hK : Keeps A a₀ s) : KeepsRes A a₀ (execWait h t s) := by
  unfold execWait
  with_reducible apply keepsRes_done
  repeat' first
      | with_reducible assumption | ((with_reducible apply sub_of hA); exact rfl) | dsimp only
      | with_reducible apply keeps_cmdTick | with_reducible apply keeps_done | with_reducible apply keeps_powerRequest
      | with_reducible apply keeps_runCmd | intro _

theorem keeps_execHarvest (h : CmdHdr) (addr : BitVec 64) (hA : Within 0x140060008000000000000004000000000000000000030010000 A) (hK : Keeps A a₀ s) : KeepsRes A a₀ (execHarvest h addr s) := by
  unfold execHarvest
  with_reducible apply keepsRes_done
  repeat' first
      | with_reducible assumption | ((with_reducible apply sub_of hA); exact rfl) | exact fun h => h | dsimp only
      | with_reducible apply keeps_done | with_reducible apply keeps_ends | with_reducible apply keeps_runCmd
      | with_reducible apply keeps_setHost | with_reducible refine keeps_ite (fun _ => ?_) (fun _ => ?_) | split
      | intro _

theorem keeps_endHarvest (h : CmdHdr) (t : Nat) (fault : Bool) (hA : Within 0x140060008000000000000000000000000000000000030010000 A)
    (hK : Keeps A a₀ s) : Keeps A a₀ (endHarvest h t fault s) := by
  unfold endHarvest
  repeat' first
      | with_reducible assumption | ((with_reducible apply sub_of hA); exact rfl) | dsimp only
      | with_reducible apply keeps_count | with_reducible apply keeps_finishWait
      | with_reducible refine keeps_ite (fun _ => ?_) (fun _ => ?_) | split | intro _

theorem keeps_execHarvestSnapshot (fault : Bool) (hA : Within 0x140060008000000000000000000000000000000000032010000 A)
    (hK : Keeps A a₀ s) : KeepsRes A a₀ (execHarvestSnapshot fault s) := by
  unfold execHarvestSnapshot
  with_reducible apply keepsRes_done
  repeat' first
      | with_reducible assumption | ((with_reducible apply sub_of hA); exact rfl) | exact fun h => h
      | dsimp only | with_reducible apply keeps_dmaWrite | with_reducible apply keeps_endHarvest
      | with_reducible apply keeps_harvestStep | with_reducible apply keeps_releaseHarvestClears
      | with_reducible apply keeps_setHost | with_reducible apply keeps_whenB
      | with_reducible refine keeps_ite (fun _ => ?_) (fun _ => ?_) | split | intro _
      | with_reducible refine keeps_of_snd (by with_reducible assumption) ?_
      | with_reducible refine keeps_of_fst (by with_reducible assumption) ?_
      | (with_reducible show List.length _ ≤ _; exact lengthNil _)
      | (rw [List.length_append, List.length_singleton]; omega)
      | (with_reducible show List.length _ ≤ _; exact Nat.le_trans (List.length_filter_le _ _) (by assumption))
      | (with_reducible show List.length _ ≤ _; exact lengthMap _ (by assumption))
      | (with_reducible show List.length _ ≤ _; exact lengthTail (by assumption) (by assumption))

theorem keeps_execClearLedger (h : CmdHdr) (groups : BitVec 32) (hA : Within 0x140060008000000000000004000000000000000000032010000 A) (hK : Keeps A a₀ s) : KeepsRes A a₀ (execClearLedger h groups s) := by
  unfold execClearLedger
  with_reducible apply keepsRes_done
  repeat' first
      | with_reducible assumption | ((with_reducible apply sub_of hA); exact rfl) | dsimp only
      | with_reducible apply keeps_done | with_reducible apply keeps_ends | with_reducible apply keeps_runCmd
      | with_reducible apply keeps_stageClear | intro _

theorem keeps_execQmWrite (h : CmdHdr) (obj : Byte) (idx : Byte) (rec : List Word) (t : Word) (hA : Within 0x140060008000000000000004000000000000000000030010040 A) (hK : Keeps A a₀ s) : KeepsRes A a₀ (execQmWrite h obj idx rec t s) := by
  unfold execQmWrite
  with_reducible apply keepsRes_done
  repeat' first
      | with_reducible assumption | ((with_reducible apply sub_of hA); exact rfl) | dsimp only
      | with_reducible apply keeps_cmdTick | with_reducible apply keeps_done | with_reducible apply keeps_ends
      | with_reducible apply keeps_runCmd | with_reducible apply keeps_stage
      | with_reducible refine keeps_ite (fun _ => ?_) (fun _ => ?_) | split | intro _

theorem keeps_execStagedWrite (h : CmdHdr) (off : BitVec 16) (v : Word) (t : Word) (hA : Within 0x140060008000000000000004000000000000000000030010040 A) (hK : Keeps A a₀ s) : KeepsRes A a₀ (execStagedWrite h off v t s) := by
  unfold execStagedWrite
  with_reducible apply keepsRes_done
  repeat' first
      | with_reducible assumption | ((with_reducible apply sub_of hA); exact rfl) | dsimp only
      | with_reducible apply keeps_cmdTick | with_reducible apply keeps_done | with_reducible apply keeps_ends
      | with_reducible apply keeps_runCmd | with_reducible apply keeps_stage
      | with_reducible refine keeps_ite (fun _ => ?_) (fun _ => ?_) | split | intro _

theorem keeps_requestLeave (hA : Within 0x140060008000000000000000000000000000000000010010900 A) (hK : Keeps A a₀ s) : Keeps A a₀ (requestLeave s) := by
  unfold requestLeave
  repeat' first
      | with_reducible assumption | ((with_reducible apply sub_of hA); exact rfl) | dsimp only
      | with_reducible apply keeps_queueRepeat | with_reducible apply keeps_queueUp
      | with_reducible apply keeps_setByp | with_reducible refine keeps_ite (fun _ => ?_) (fun _ => ?_) | split
      | intro _

theorem keeps_execLeaveCommand (h : CmdHdr) (hA : Within 0x140060008000000000000004000000000000000000030010900 A)
    (hK : Keeps A a₀ s) : KeepsRes A a₀ (execLeaveCommand h s) := by
  unfold execLeaveCommand
  with_reducible apply keepsRes_done
  repeat' first
      | with_reducible assumption | ((with_reducible apply sub_of hA); exact rfl) | dsimp only
      | with_reducible apply keeps_ends | with_reducible apply keeps_requestLeave
      | with_reducible apply keeps_runCmd | with_reducible refine keeps_ite (fun _ => ?_) (fun _ => ?_) | split
      | intro _

theorem keeps_execHostMsg (h : CmdHdr) (len : BitVec 16) (d : DmaBytes) (hA : Within 0x140060008000000000000004000000000000000000030010800 A) (hK : Keeps A a₀ s) : KeepsRes A a₀ (execHostMsg h len d s) := by
  unfold execHostMsg
  with_reducible apply keepsRes_done
  repeat' first
      | with_reducible assumption | ((with_reducible apply sub_of hA); exact rfl) | dsimp only
      | with_reducible apply keeps_cmdDmaErr | with_reducible apply keeps_done | with_reducible apply keeps_ends
      | with_reducible apply keeps_needsOn | with_reducible apply keeps_queueUp | with_reducible apply keeps_runCmd
      | with_reducible refine keeps_ite (fun _ => ?_) (fun _ => ?_) | split | intro _
      | with_reducible refine keeps_of_snd (by with_reducible assumption) ?_
      | with_reducible refine keeps_of_fst (by with_reducible assumption) ?_

theorem keeps_execSettingWrite (h : CmdHdr) (len : BitVec 16) (d : DmaBytes) (fault : Bool) (hA : Within 0x3c00f9c084006258020000167224000000014206180bbbba5c1 A) (hK : Keeps A a₀ s) : KeepsRes A a₀ (execSettingWrite h len d fault s) := by
  unfold execSettingWrite
  with_reducible apply keepsRes_done
  repeat' first
      | with_reducible assumption | ((with_reducible apply sub_of hA); exact rfl) | dsimp only
      | with_reducible apply keeps_cmdDmaErr | with_reducible apply keeps_done | with_reducible apply keeps_ends
      | with_reducible apply keeps_needsOn | with_reducible apply keeps_runCmd
      | with_reducible apply keeps_setEndStatus | with_reducible apply keeps_setRecordOr
      | with_reducible refine keeps_ite (fun _ => ?_) (fun _ => ?_)
      | with_reducible refine keeps_ite_snd (fun _ => ?_) (fun _ => ?_) | split | intro _
      | with_reducible refine keeps_of_snd (by with_reducible assumption) ?_
      | with_reducible refine keeps_of_fst (by with_reducible assumption) ?_

theorem keeps_execSettingRead (h : CmdHdr) (addr : BitVec 64) (len : BitVec 16) (d : DmaBytes) (fault : Bool) (hA : Within 0x140060008000000000000004000000000000000000030010000 A)
    (hK : Keeps A a₀ s) : KeepsRes A a₀ (execSettingRead h addr len d fault s) := by
  unfold execSettingRead
  with_reducible apply keepsRes_done
  repeat' first
      | with_reducible assumption | ((with_reducible apply sub_of hA); exact rfl) | dsimp only
      | with_reducible apply keeps_cmdDmaErr | with_reducible apply keeps_dmaWrite
      | with_reducible apply keeps_ends | with_reducible apply keeps_needsOn | with_reducible apply keeps_runCmd
      | with_reducible refine keeps_ite (fun _ => ?_) (fun _ => ?_) | split | intro _
      | with_reducible refine keeps_of_snd (by with_reducible assumption) ?_
      | with_reducible refine keeps_of_fst (by with_reducible assumption) ?_

theorem keeps_execSettingDelete (h : CmdHdr) (len : BitVec 16) (d : DmaBytes) (hA : Within 0x3c00f9c084006258020000167224000000014206180bbbba5c1 A) (hK : Keeps A a₀ s) : KeepsRes A a₀ (execSettingDelete h len d s) := by
  unfold execSettingDelete
  with_reducible apply keepsRes_done
  repeat' first
      | with_reducible assumption | ((with_reducible apply sub_of hA); exact rfl) | dsimp only
      | with_reducible apply keeps_cmdDmaErr | with_reducible apply keeps_done | with_reducible apply keeps_ends
      | with_reducible apply keeps_needsOn | with_reducible apply keeps_runCmd
      | with_reducible apply keeps_setEndStatus | with_reducible apply keeps_setRecord
      | with_reducible refine keeps_ite (fun _ => ?_) (fun _ => ?_)
      | with_reducible refine keeps_ite_snd (fun _ => ?_) (fun _ => ?_) | split | intro _
      | with_reducible refine keeps_of_snd (by with_reducible assumption) ?_
      | with_reducible refine keeps_of_fst (by with_reducible assumption) ?_

theorem keeps_imageEnds (st : Nat) (hA : Within 0x0 A) (hK : Keeps A a₀ s) : Keeps A a₀ (imageEnds st s).2 := by
  unfold imageEnds
  repeat' first
      | with_reducible assumption | ((with_reducible apply sub_of hA); exact rfl) | dsimp only
      | with_reducible apply keeps_ends | intro _

theorem keeps_stageBytes (len : Nat) (off : Nat) (b : List Byte) (hA : Within 0x140060148000000000000000000000000000000000018810800 A) (hK : Keeps A a₀ s) : Keeps A a₀ (stageBytes len off b s).2 := by
  unfold stageBytes
  repeat' first
      | with_reducible assumption | ((with_reducible apply sub_of hA); exact rfl) | dsimp only
      | with_reducible apply keeps_beginHostStaging | with_reducible apply keeps_imageEnds
      | with_reducible apply keeps_setImageState | with_reducible apply keeps_wr
      | with_reducible apply keeps_writeStaging | exact cov_IMAGE_STAGED _ rfl (sub_of hA rfl)
      | with_reducible refine keeps_ite (fun _ => ?_) (fun _ => ?_)
      | with_reducible refine keeps_ite_snd (fun _ => ?_) (fun _ => ?_) | split | intro _

theorem keeps_execImageWriteStaging (h : CmdHdr) (len : BitVec 16) (off : Word) (d : DmaBytes) (hA : Within 0x140060148000000000000004000000000000000000038810800 A) (hK : Keeps A a₀ s) : KeepsRes A a₀ (execImageWriteStaging h len off d s) := by
  unfold execImageWriteStaging
  with_reducible apply keepsRes_done
  repeat' first
      | with_reducible assumption | ((with_reducible apply sub_of hA); exact rfl) | dsimp only
      | with_reducible apply keeps_cmdDmaErr | with_reducible apply keeps_done | with_reducible apply keeps_imageEnds
      | with_reducible apply keeps_needsOn | with_reducible apply keeps_releaseStaging
      | with_reducible apply keeps_runCmd | with_reducible apply keeps_stageBytes | with_reducible apply keeps_whenB
      | with_reducible refine keeps_ite (fun _ => ?_) (fun _ => ?_) | split | intro _
      | with_reducible refine keeps_of_snd (by with_reducible assumption) ?_
      | with_reducible refine keeps_of_fst (by with_reducible assumption) ?_

theorem keeps_execImageVerify (h : CmdHdr) (hA : Within 0x140060148000000000000004000000000000000000030010800 A) (hK : Keeps A a₀ s) : KeepsRes A a₀ (execImageVerify h s) := by
  unfold execImageVerify
  with_reducible apply keepsRes_done
  repeat' first
      | with_reducible assumption | ((with_reducible apply sub_of hA); exact rfl) | dsimp only
      | with_reducible apply keeps_count | with_reducible apply keeps_done | with_reducible apply keeps_imageEnds
      | with_reducible apply keeps_needsOn | with_reducible apply keeps_runCmd
      | with_reducible apply keeps_stagedVerified | with_reducible refine keeps_ite (fun _ => ?_) (fun _ => ?_)
      | split | intro _

theorem keeps_execImageSwap (h : CmdHdr) (t : Word) (hA : Within 0x140060008000000000000004000000000000000000030810000 A) (hK : Keeps A a₀ s) : KeepsRes A a₀ (execImageSwap h t s) := by
  unfold execImageSwap
  with_reducible apply keepsRes_done
  repeat' first
      | with_reducible assumption | ((with_reducible apply sub_of hA); exact rfl) | dsimp only
      | with_reducible apply keeps_cmdTick | with_reducible apply keeps_done | with_reducible apply keeps_imageEnds
      | with_reducible apply keeps_needsOn | with_reducible apply keeps_runCmd | with_reducible apply keeps_stageSwap
      | with_reducible refine keeps_ite (fun _ => ?_) (fun _ => ?_) | split | intro _

theorem keeps_execImageConfirm (h : CmdHdr) (hA : Within 0x1400604c8000000000000004000000000000000000038010800 A) (hK : Keeps A a₀ s) : KeepsRes A a₀ (execImageConfirm h s) := by
  unfold execImageConfirm
  with_reducible apply keepsRes_done
  repeat' first
      | with_reducible assumption | ((with_reducible apply sub_of hA); exact rfl) | dsimp only
      | with_reducible apply keeps_confirmTrial | with_reducible apply keeps_done
      | with_reducible apply keeps_imageEnds | with_reducible apply keeps_needsOn | with_reducible apply keeps_runCmd
      | with_reducible refine keeps_ite (fun _ => ?_) (fun _ => ?_) | split | intro _

theorem keeps_resetAfter (st : Nat) (hA : Within 0x140060008000004000000000000000000000000008010090080 A) (hK : Keeps A a₀ s) : Keeps A a₀ (resetAfter st s) := by
  unfold resetAfter
  repeat' first
      | with_reducible assumption | ((with_reducible apply sub_of hA); exact rfl) | dsimp only
      | with_reducible apply keeps_softRequest | with_reducible apply keeps_whenB | intro _

theorem keeps_execImageRevert (h : CmdHdr) (hA : Within 0x140060008000004000000004000000000000000008030090080 A) (hK : Keeps A a₀ s) : KeepsRes A a₀ (execImageRevert h s) := by
  unfold execImageRevert
  with_reducible apply keepsRes_done
  repeat' first
      | with_reducible assumption | ((with_reducible apply sub_of hA); exact rfl) | dsimp only
      | with_reducible apply keeps_done | with_reducible apply keeps_imageEnds | with_reducible apply keeps_needsOn
      | with_reducible apply keeps_resetAfter | with_reducible apply keeps_runCmd
      | with_reducible refine keeps_ite (fun _ => ?_) (fun _ => ?_) | split | intro _

theorem keeps_execSoftResetCommand (h : CmdHdr) (key : BitVec 16) (hA : Within 0x140060008000004000000004000000000000000008030090080 A) (hK : Keeps A a₀ s) : KeepsRes A a₀ (execSoftResetCommand h key s) := by
  unfold execSoftResetCommand
  with_reducible apply keepsRes_done
  repeat' first
      | with_reducible assumption | ((with_reducible apply sub_of hA); exact rfl) | dsimp only
      | with_reducible apply keeps_done | with_reducible apply keeps_ends | with_reducible apply keeps_resetAfter
      | with_reducible apply keeps_runCmd | with_reducible refine keeps_ite (fun _ => ?_) (fun _ => ?_) | split
      | intro _

theorem keeps_fetchAgain (r : Nat) (hA : Within 0x20000000 A) (hK : Keeps A a₀ s) : Keeps A a₀ (fetchAgain r s) := by
  unfold fetchAgain
  repeat' first
      | with_reducible assumption | ((with_reducible apply sub_of hA); exact rfl) | dsimp only
      | with_reducible apply keeps_fetchFrom | with_reducible refine keeps_ite (fun _ => ?_) (fun _ => ?_)
      | split | intro _

theorem keeps_execRingRestart (h : CmdHdr) (ring : Byte) (hA : Within 0x140060008000000000000004400000000000000000030010000 A)
    (hK : Keeps A a₀ s) : KeepsRes A a₀ (execRingRestart h ring s) := by
  unfold execRingRestart
  with_reducible apply keepsRes_done
  repeat' first
      | with_reducible assumption | ((with_reducible apply sub_of hA); exact rfl) | dsimp only
      | with_reducible apply keeps_ends | with_reducible apply keeps_fetchAgain
      | with_reducible apply keeps_runCmd | with_reducible apply keeps_setStopped
      | with_reducible refine keeps_ite (fun _ => ?_) (fun _ => ?_) | split | intro _

theorem keeps_execBadOpcode (h : CmdHdr) (op action : Byte) (hA : Within 0x140060008000000000000004000000000000000000030010000 A)
    (hK : Keeps A a₀ s) : KeepsRes A a₀ (execBadOpcode h op action s) := by
  unfold execBadOpcode
  with_reducible apply keepsRes_done
  repeat' first
      | with_reducible assumption | ((with_reducible apply sub_of hA); exact rfl) | dsimp only
      | with_reducible apply keeps_ends | with_reducible apply keeps_imageEnds
      | with_reducible apply keeps_runCmd | with_reducible refine keeps_ite (fun _ => ?_) (fun _ => ?_) | split
      | intro _

end Sys2Proof.Laws
end

