-- ==== Sys2Proof/Laws/KeepsLaneRun.lean ====
section
/-! SUPPORT. `Keeps` for the operations of Machine/LaneRun.lean. -/

set_option linter.unusedTactic false
set_option linter.unreachableTactic false

namespace Sys2Proof.Laws

open Sys2Proof Sys2Proof.Machine Sys2Proof.Safety

variable {A : Nat} {a₀ s : State}

theorem keeps_setTxdis (n : Nat) (v : Bool) (hA : Within 0x100 A) (hK : Keeps A a₀ s) : Keeps A a₀ (setTxdis n v s) := by
  unfold setTxdis
  repeat' first
      | with_reducible assumption | ((with_reducible apply sub_of hA); exact rfl) | dsimp only
      | with_reducible apply keeps_setByp | split | intro _
      | with_reducible refine keeps_of_snd (by with_reducible assumption) ?_
      | with_reducible refine keeps_of_fst (by with_reducible assumption) ?_

theorem keeps_testTakesLane (n : Nat) (hA : Within 0x140060008000000000000010000400000001300000070039700 A) (hK : Keeps A a₀ s) : Keeps A a₀ (testTakesLane n s) := by
  unfold testTakesLane
  repeat' first
      | with_reducible assumption | ((with_reducible apply sub_of hA); exact rfl) | dsimp only
      | with_reducible apply keeps_inputAbsent | with_reducible apply keeps_linkCut
      | with_reducible apply keeps_setTxdis | with_reducible apply keeps_unlock | split | intro _
      | with_reducible refine keeps_of_snd (by with_reducible assumption) ?_
      | with_reducible refine keeps_of_fst (by with_reducible assumption) ?_

theorem keeps_loopPins (n : Nat) (was : Bool) (hA : Within 0x10000000000000000000020020000 A)
    (hK : Keeps A a₀ s) : Keeps A a₀ (loopPins n was s) := by
  unfold loopPins
  repeat' first
      | with_reducible assumption | ((with_reducible apply sub_of hA); exact rfl) | dsimp only
      | with_reducible apply keeps_emit | with_reducible apply keeps_txRefresh
      | with_reducible refine keeps_ite (fun _ => ?_) (fun _ => ?_) | split | intro _

theorem keeps_patternStart (n : Nat) (hA : Within 0x20000000 A) (hK : Keeps A a₀ s) : Keeps A a₀ (patternStart n s) := by
  unfold patternStart
  repeat' first
      | with_reducible assumption | ((with_reducible apply sub_of hA); exact rfl) | dsimp only
      | with_reducible apply keeps_emit | with_reducible refine keeps_ite (fun _ => ?_) (fun _ => ?_) | split
      | intro _

theorem keeps_execLaneTestStart (lane : Fin 8) (hA : Within 0x140067008000000000000010000400000001300000071039700 A)
    (hK : Keeps A a₀ s) : KeepsRes A a₀ (execLaneTestStart lane s) := by
  unfold execLaneTestStart
  with_reducible apply keepsRes_done
  repeat' first
      | with_reducible assumption | ((with_reducible apply sub_of hA); exact rfl) | dsimp only
      | with_reducible apply keeps_loopPins | with_reducible apply keeps_patternStart
      | with_reducible apply keeps_setLane | with_reducible apply keeps_setReg
      | with_reducible apply keeps_testTakesLane | with_reducible apply keeps_wr
      | exact cov_LANE_PRBS_STATUS _ _ rfl (sub_of hA rfl) | exact cov_LANE_PRBS_BITS _ _ rfl (sub_of hA rfl)
      | exact cov_LANE_PRBS_ERR _ _ rfl (sub_of hA rfl)
      | with_reducible refine keeps_ite (fun _ => ?_) (fun _ => ?_) | split | intro _

theorem keeps_execLaneTestEnd (lane : Fin 8) (hA : Within 0x140071808000000000000010000000000000000000031030100 A)
    (hK : Keeps A a₀ s) : KeepsRes A a₀ (execLaneTestEnd lane s) := by
  unfold execLaneTestEnd
  with_reducible apply keepsRes_done
  repeat' first
      | with_reducible assumption | ((with_reducible apply sub_of hA); exact rfl) | dsimp only
      | with_reducible apply keeps_loopPins | with_reducible apply keeps_raise
      | with_reducible apply keeps_setLane | with_reducible apply keeps_setTxdis
      | with_reducible apply keeps_whenB | with_reducible apply keeps_wr
      | exact cov_LANE_LOOP _ _ rfl (sub_of hA rfl) | exact cov_LANE_PRBS_CFG _ _ rfl (sub_of hA rfl)
      | exact cov_LANE_PRBS_STATUS _ _ rfl (sub_of hA rfl)
      | with_reducible refine keeps_ite (fun _ => ?_) (fun _ => ?_) | split | intro _
      | with_reducible refine keeps_of_snd (by with_reducible assumption) ?_
      | with_reducible refine keeps_of_fst (by with_reducible assumption) ?_

end Sys2Proof.Laws
end

