-- ==== Sys2Proof/Laws/KeepsNotes.lean ====
section
/-! SUPPORT. `Keeps` for the operations of Machine/Notes.lean. -/

set_option linter.unusedTactic false
set_option linter.unreachableTactic false

namespace Sys2Proof.Laws

open Sys2Proof Sys2Proof.Machine Sys2Proof.Safety

variable {A : Nat} {a₀ s : State}

theorem keeps_execNoteMalformed (hdr : Word) (room : Nat) (hA : Within 0x140060008000000000000000000000000000000000010010200 A)
    (hK : Keeps A a₀ s) : KeepsRes A a₀ (execNoteMalformed hdr room s) := by
  unfold execNoteMalformed
  with_reducible apply keepsRes_done
  repeat' first
      | with_reducible assumption | ((with_reducible apply sub_of hA); exact rfl) | dsimp only
      | with_reducible apply keeps_endRegion | with_reducible apply keeps_stopRegion
      | with_reducible refine keeps_ite (fun _ => ?_) (fun _ => ?_) | split | intro _

theorem keeps_execNoteUnknown (n : Note) (hA : Within 0x140060008000000000000000000000004000000000010010a00 A)
    (hK : Keeps A a₀ s) : KeepsRes A a₀ (execNoteUnknown n s) := by
  unfold execNoteUnknown
  with_reducible apply keepsRes_done
  repeat' first
      | with_reducible assumption | ((with_reducible apply sub_of hA); exact rfl) | dsimp only
      | with_reducible apply keeps_answer | with_reducible apply keeps_count
      | with_reducible apply keeps_duplicate | with_reducible apply keeps_endRegion
      | with_reducible apply keeps_newSeq | with_reducible apply keeps_stopRegion
      | with_reducible refine keeps_ite (fun _ => ?_) (fun _ => ?_) | split | intro _
      | with_reducible refine keeps_of_snd (by with_reducible assumption) ?_
      | with_reducible refine keeps_of_fst (by with_reducible assumption) ?_

theorem keeps_takeMapDesc (b : List Byte) (hA : Within 0x140060008000000000000000000000000000000000010010200 A) (hK : Keeps A a₀ s) : Keeps A a₀ (takeMapDesc b s) := by
  unfold takeMapDesc
  repeat' first
      | with_reducible assumption | ((with_reducible apply sub_of hA); exact rfl) | dsimp only
      | with_reducible apply keeps_count | with_reducible apply keeps_putCur | with_reducible apply keeps_putPend
      | with_reducible refine keeps_ite (fun _ => ?_) (fun _ => ?_) | split | intro _

theorem keeps_execMapDesc (n : Note) (hA : Within 0x140060008000000000000000000000004000000000010010a00 A) (hK : Keeps A a₀ s) : KeepsRes A a₀ (execMapDesc n s) := by
  unfold execMapDesc
  with_reducible apply keepsRes_done
  repeat' first
      | with_reducible assumption | ((with_reducible apply sub_of hA); exact rfl) | dsimp only
      | with_reducible apply keeps_done | with_reducible apply keeps_takeMapDesc | with_reducible apply keeps_takeNote
      | intro _

theorem keeps_execMapReq (pending : Bool) (hA : Within 0x140060008000000000000000000000000000000000010010a00 A) (hK : Keeps A a₀ s) : KeepsRes A a₀ (execMapReq pending s) := by
  unfold execMapReq
  with_reducible apply keepsRes_done
  repeat' first
      | with_reducible assumption | ((with_reducible apply sub_of hA); exact rfl) | dsimp only
      | with_reducible apply keeps_done | with_reducible apply keeps_queueRepeat | with_reducible apply keeps_setFrame
      | with_reducible refine keeps_ite (fun _ => ?_) (fun _ => ?_) | split | intro _

theorem keeps_stageSubs (t : Nat) (es : List Word) (hA : Within 0x140060008000000000000000000000000000000000010010200 A) (hK : Keeps A a₀ s) : Keeps A a₀ (stageSubs t es s).2 := by
  unfold stageSubs
  repeat' first
      | with_reducible assumption | ((with_reducible apply sub_of hA); exact rfl) | dsimp only
      | with_reducible apply keeps_countN | with_reducible apply keeps_setFrame
      | with_reducible refine keeps_ite (fun _ => ?_) (fun _ => ?_)
      | with_reducible refine keeps_ite_snd (fun _ => ?_) (fun _ => ?_) | split | intro _

theorem keeps_execSubscribe (n : Note) (hA : Within 0x140060008000000000000000000000004000000000010010a00 A) (hK : Keeps A a₀ s) : KeepsRes A a₀ (execSubscribe n s) := by
  unfold execSubscribe
  with_reducible apply keepsRes_done
  repeat' first
      | with_reducible assumption | ((with_reducible apply sub_of hA); exact rfl) | dsimp only
      | with_reducible apply keeps_done | with_reducible apply keeps_stageSubs | with_reducible apply keeps_takeNote
      | with_reducible apply keeps_withTick | intro _

theorem keeps_execKeyLoad (n : Note) (hA : Within 0x140060008000000000000000000000004000000000010012a00 A) (hK : Keeps A a₀ s) : KeepsRes A a₀ (execKeyLoad n s) := by
  unfold execKeyLoad
  with_reducible apply keepsRes_done
  repeat' first
      | with_reducible assumption | ((with_reducible apply sub_of hA); exact rfl) | exact fun h => h | dsimp only
      | with_reducible apply keeps_done | with_reducible apply keeps_keyLoad | with_reducible apply keeps_setNote
      | with_reducible apply keeps_takeNote | with_reducible refine keeps_ite (fun _ => ?_) (fun _ => ?_)
      | with_reducible refine keeps_ite_snd (fun _ => ?_) (fun _ => ?_) | split | intro _
      | with_reducible refine keeps_of_snd (by with_reducible assumption) ?_
      | with_reducible refine keeps_of_fst (by with_reducible assumption) ?_

theorem keeps_execSetting (n : Note) (hA : Within 0x3c00f9c084006258020000127224000040014206180bbbbafc1 A) (hK : Keeps A a₀ s) : KeepsRes A a₀ (execSetting n s) := by
  unfold execSetting
  with_reducible apply keepsRes_done
  repeat' first
      | with_reducible assumption | ((with_reducible apply sub_of hA); exact rfl) | dsimp only
      | with_reducible apply keeps_done | with_reducible apply keeps_setRecord | with_reducible apply keeps_takeNote
      | with_reducible refine keeps_ite (fun _ => ?_) (fun _ => ?_)
      | with_reducible refine keeps_ite_snd (fun _ => ?_) (fun _ => ?_) | split | intro _
      | with_reducible refine keeps_of_snd (by with_reducible assumption) ?_
      | with_reducible refine keeps_of_fst (by with_reducible assumption) ?_

theorem keeps_execMotionProfile (n : Note) (hA : Within 0x140060008000000000000000000000004000000000010090a00 A) (hK : Keeps A a₀ s) : KeepsRes A a₀ (execMotionProfile n s) := by
  unfold execMotionProfile
  with_reducible apply keepsRes_done
  repeat' first
      | with_reducible assumption | ((with_reducible apply sub_of hA); exact rfl) | dsimp only
      | with_reducible apply keeps_done | with_reducible apply keeps_storeProfile
      | with_reducible apply keeps_takeNote | with_reducible refine keeps_ite (fun _ => ?_) (fun _ => ?_) | split
      | intro _

theorem keeps_execPowerOrder (n : Note) (hA : Within 0x140060008000000000000000000000004000000000030210a00 A) (hK : Keeps A a₀ s) : KeepsRes A a₀ (execPowerOrder n s) := by
  unfold execPowerOrder
  with_reducible apply keepsRes_done
  repeat' first
      | with_reducible assumption | ((with_reducible apply sub_of hA); exact rfl) | dsimp only
      | with_reducible apply keeps_done | with_reducible apply keeps_powerRefused
      | with_reducible apply keeps_powerRequest | with_reducible apply keeps_takeNote
      | with_reducible apply keeps_withTick | with_reducible refine keeps_ite (fun _ => ?_) (fun _ => ?_) | split
      | intro _

theorem keeps_imageOrder (b : List Byte) (hA : Within 0x1400604c8000004000000000000000000000000008018890880 A) (hK : Keeps A a₀ s) : Keeps A a₀ (imageOrder b s).2 := by
  unfold imageOrder
  repeat' first
      | with_reducible assumption | ((with_reducible apply sub_of hA); exact rfl) | dsimp only
      | with_reducible apply keeps_confirmTrial | with_reducible apply keeps_softRequest
      | with_reducible apply keeps_stageSwap | with_reducible apply keeps_withTick
      | with_reducible refine keeps_ite (fun _ => ?_) (fun _ => ?_)
      | with_reducible refine keeps_ite_snd (fun _ => ?_) (fun _ => ?_) | split | intro _

theorem keeps_execImageOrderSwap (n : Note) (hA : Within 0x1400604c8000004000000000000000004000000008018890a80 A) (hK : Keeps A a₀ s) : KeepsRes A a₀ (execImageOrderSwap n s) := by
  unfold execImageOrderSwap
  with_reducible apply keepsRes_done
  repeat' first
      | with_reducible assumption | ((with_reducible apply sub_of hA); exact rfl) | dsimp only
      | with_reducible apply keeps_done | with_reducible apply keeps_imageOrder | with_reducible apply keeps_takeNote
      | intro _

theorem keeps_execImageOrderConfirm (n : Note) (hA : Within 0x1400604c8000004000000000000000004000000008018890a80 A) (hK : Keeps A a₀ s) : KeepsRes A a₀ (execImageOrderConfirm n s) := by
  unfold execImageOrderConfirm
  with_reducible apply keepsRes_done
  repeat' first
      | with_reducible assumption | ((with_reducible apply sub_of hA); exact rfl) | dsimp only
      | with_reducible apply keeps_done | with_reducible apply keeps_imageOrder | with_reducible apply keeps_takeNote
      | intro _

theorem keeps_execImageOrderRevert (n : Note) (hA : Within 0x1400604c8000004000000000000000004000000008018890a80 A) (hK : Keeps A a₀ s) : KeepsRes A a₀ (execImageOrderRevert n s) := by
  unfold execImageOrderRevert
  with_reducible apply keepsRes_done
  repeat' first
      | with_reducible assumption | ((with_reducible apply sub_of hA); exact rfl) | dsimp only
      | with_reducible apply keeps_done | with_reducible apply keeps_imageOrder | with_reducible apply keeps_takeNote
      | intro _

theorem keeps_execResetOrder (n : Note) (hA : Within 0x140060008000000000000000000000004000000000010010a40 A) (hK : Keeps A a₀ s) : KeepsRes A a₀ (execResetOrder n s) := by
  unfold execResetOrder
  with_reducible apply keepsRes_done
  repeat' first
      | with_reducible assumption | ((with_reducible apply sub_of hA); exact rfl) | dsimp only
      | with_reducible apply keeps_done | with_reducible apply keeps_stage | with_reducible apply keeps_takeNote
      | with_reducible apply keeps_withTick | intro _

theorem keeps_execResetOrderDue  (hA : Within 0x1400600080000040000000000000000000000000080100900c0 A) (hK : Keeps A a₀ s) : KeepsRes A a₀ (execResetOrderDue s) := by
  unfold execResetOrderDue
  with_reducible apply keepsRes_done
  repeat' first
      | with_reducible assumption | ((with_reducible apply sub_of hA); exact rfl) | dsimp only
      | with_reducible apply keeps_done | with_reducible apply keeps_softRequest
      | with_reducible refine keeps_ite (fun _ => ?_) (fun _ => ?_) | split | intro _
      | with_reducible apply keeps_part_staged

theorem keeps_execStatusReq (n : Note) (hA : Within 0x140060008000000000000000000000004000000000010010a00 A) (hK : Keeps A a₀ s) : KeepsRes A a₀ (execStatusReq n s) := by
  unfold execStatusReq
  with_reducible apply keepsRes_done
  repeat' first
      | with_reducible assumption | ((with_reducible apply sub_of hA); exact rfl) | dsimp only
      | with_reducible apply keeps_done | with_reducible apply keeps_queueUp | with_reducible apply keeps_takeNote
      | intro _

theorem keeps_execHostMsgDn (n : Note) (hA : Within 0x140060008000000000000000000400004000000000010018a00 A)
    (hK : Keeps A a₀ s) : KeepsRes A a₀ (execHostMsgDn n s) := by
  unfold execHostMsgDn
  with_reducible apply keepsRes_done
  repeat' first
      | with_reducible assumption | ((with_reducible apply sub_of hA); exact rfl) | dsimp only
      | with_reducible apply keeps_count | with_reducible apply keeps_deliverHost
      | with_reducible apply keeps_takeNote | with_reducible refine keeps_ite (fun _ => ?_) (fun _ => ?_)
      | split | intro _

theorem keeps_execNoteUpExpired  (hA : Within 0x140060008000000000000000000000000000000000010010800 A) (hK : Keeps A a₀ s) : KeepsRes A a₀ (execNoteUpExpired s) := by
  unfold execNoteUpExpired
  with_reducible apply keepsRes_done
  repeat' first
      | with_reducible assumption | ((with_reducible apply sub_of hA); exact rfl) | exact fun h => h | dsimp only
      | with_reducible apply keeps_countN | with_reducible apply keeps_done | with_reducible apply keeps_setNote
      | intro _
      | (with_reducible show List.length _ ≤ _; exact Nat.le_trans (List.length_filter_le _ _) (by assumption))

end Sys2Proof.Laws
end

