-- ==== Sys2Proof/Laws/KeepsTimeBase.lean ====
section
/-! SUPPORT. `Keeps` for the operations of Machine/TimeBase.lean. -/

set_option linter.unusedTactic false
set_option linter.unreachableTactic false

namespace Sys2Proof.Laws

open Sys2Proof Sys2Proof.Machine Sys2Proof.Safety

variable {A : Nat} {a₀ s : State}

theorem keeps_advanceTime  (hA : Within 0x420 A) (hK : Keeps A a₀ s) : Keeps A a₀ (advanceTime s) := by
  unfold advanceTime
  repeat' first
      | with_reducible assumption | ((with_reducible apply sub_of hA); exact rfl) | dsimp only
      | with_reducible apply keeps_setRegn | with_reducible refine keeps_ite (fun _ => ?_) (fun _ => ?_) | split
      | intro _ | with_reducible refine keeps_of_snd (by with_reducible assumption) ?_
      | with_reducible refine keeps_of_fst (by with_reducible assumption) ?_ | with_reducible apply keeps_part_bt

theorem keeps_latePres (hA : Within 0x140060008000000000000000000000000000000000010010200 A) (hK : Keeps A a₀ s) : Keeps A a₀ (latePres s) := by
  unfold latePres
  repeat' first
      | with_reducible assumption | ((with_reducible apply sub_of hA); exact rfl) | dsimp only
      | with_reducible apply keeps_eachOf | with_reducible apply keeps_lateOnce
      | with_reducible apply keeps_setFrame | intro _

theorem keeps_stepWork (delta : Int) (hA : Within 0x140060008000000000000000000000000000000000030150200 A) (hK : Keeps A a₀ s) : Keeps A a₀ (stepWork delta s) := by
  unfold stepWork
  repeat' first
      | with_reducible assumption | ((with_reducible apply sub_of hA); exact rfl) | dsimp only
      | with_reducible apply keeps_afeStep | with_reducible apply keeps_genlockRealign
      | with_reducible apply keeps_latePres | with_reducible apply keeps_showStep | intro _

theorem keeps_boundaryTime  (hA : Within 0x140060008000000000000000000000003f80000000830150e20 A) (hK : Keeps A a₀ s) : Keeps A a₀ (boundaryTime s) := by
  unfold boundaryTime
  repeat' first
      | with_reducible assumption | ((with_reducible apply sub_of hA); exact rfl) | dsimp only
      | with_reducible apply keeps_advanceTime | with_reducible apply keeps_applyRange
      | with_reducible apply keeps_applyTimeMap | with_reducible apply keeps_genlockRealign
      | with_reducible apply keeps_moveSource | with_reducible apply keeps_slewTick
      | with_reducible apply keeps_stepWork | with_reducible apply keeps_whenB | intro _

theorem keeps_stagedReg (off : Nat) (v : Word) (hA : Within 0x3c00f98084006258020000127224000000014206180bb3b81c1 A) (hK : Keeps A a₀ s) : Keeps A a₀ (stagedReg off v s) := by
  unfold stagedReg
  repeat' first
      | with_reducible assumption | ((with_reducible apply sub_of hA); exact rfl) | dsimp only
      | with_reducible apply keeps_storeBits | split | intro _
      | with_reducible refine keeps_of_snd (by with_reducible assumption) ?_
      | with_reducible refine keeps_of_fst (by with_reducible assumption) ?_

theorem keeps_applyStaged (x : Staged) (hA : Within 0x3c00f98084006258020000127224000000014206180bb3bc1c1 A) (hK : Keeps A a₀ s) : Keeps A a₀ (applyStaged s x) := by
  unfold applyStaged
  repeat' first
      | with_reducible assumption | ((with_reducible apply sub_of hA); exact rfl) | dsimp only
      | with_reducible apply keeps_applyRec | with_reducible apply keeps_keepPrior
      | with_reducible apply keeps_stagedReg | split | intro _
      | with_reducible refine keeps_of_snd (by with_reducible assumption) ?_
      | with_reducible refine keeps_of_fst (by with_reducible assumption) ?_

theorem keeps_applyAllStaged  (hA : Within 0x3c00f98084006258020000127224000000014206180bb3bc1c1 A) (hK : Keeps A a₀ s) : Keeps A a₀ (applyAllStaged s) := by
  unfold applyAllStaged
  repeat' first
      | with_reducible assumption | ((with_reducible apply sub_of hA); exact rfl) | dsimp only
      | with_reducible apply keeps_applyStaged | with_reducible apply keeps_eachOf | intro _
      | with_reducible apply keeps_part_staged

theorem keeps_settleSubs (hA : Within 0x200 A) (hK : Keeps A a₀ s) : Keeps A a₀ (settleSubs s) := by
  unfold settleSubs
  repeat' first
      | with_reducible assumption | ((with_reducible apply sub_of hA); exact rfl) | dsimp only
      | with_reducible apply keeps_foldl | with_reducible apply keeps_setFrame | intro _

theorem keeps_keepRc (hz : Option (BitVec 24)) (hA : Within 0x1000000000000000000000000000000000000000000 A) (hK : Keeps A a₀ s) : Keeps A a₀ (keepRc hz s) := by
  unfold keepRc
  repeat' first
      | with_reducible assumption | ((with_reducible apply sub_of hA); exact rfl) | dsimp only
      | with_reducible apply keeps_wr | exact cov_KEEPER_RC _ rfl (sub_of hA rfl) | split | intro _
      | with_reducible refine keeps_of_snd (by with_reducible assumption) ?_
      | with_reducible refine keeps_of_fst (by with_reducible assumption) ?_

theorem keeps_countTicks (hA : Within 0x820080 A) (hK : Keeps A a₀ s) : Keeps A a₀ (countTicks s) := by
  unfold countTicks
  repeat' first
      | with_reducible assumption | ((with_reducible apply sub_of hA); exact rfl) | exact fun h => h
      | dsimp only | with_reducible apply keeps_setBoot | with_reducible apply keeps_setGlean
      | with_reducible apply keeps_whenB | intro _ | with_reducible apply keeps_part_eth
      | (with_reducible show List.length _ ≤ _; exact lengthNil _)
      | (rw [List.length_append, List.length_singleton]; omega)
      | (with_reducible show List.length _ ≤ _; exact Nat.le_trans (List.length_filter_le _ _) (by assumption))
      | (with_reducible show List.length _ ≤ _; exact lengthMap _ (by assumption))
      | (with_reducible show List.length _ ≤ _; exact lengthTail (by assumption) (by assumption))

theorem keeps_boundaryService (i : TickIn) (hA : Within 0x34006f009200000000000110140600000000000000031a3c080 A)
    (hK : Keeps A a₀ s) : Keeps A a₀ (boundaryService i s) := by
  unfold boundaryService
  repeat' first
      | with_reducible assumption | ((with_reducible apply sub_of hA); exact rfl) | dsimp only
      | with_reducible apply keeps_applyBanks | with_reducible apply keeps_applyGates
      | with_reducible apply keeps_countTicks | with_reducible apply keeps_eachOf
      | with_reducible apply keeps_holdTick | with_reducible apply keeps_hostTick
      | with_reducible apply keeps_keepRc | with_reducible apply keeps_ktimerTick
      | with_reducible apply keeps_laneTick | with_reducible apply keeps_portsRefresh
      | with_reducible apply keeps_ptpRefresh | with_reducible apply keeps_puntTick
      | with_reducible apply keeps_refillBuckets | with_reducible apply keeps_restResume
      | with_reducible apply keeps_setWrote | intro _

theorem keeps_takeDue  (hA : Within 0x200 A) (hK : Keeps A a₀ s) : Keeps A a₀ (takeDue s).2 := by
  unfold takeDue
  repeat' first
      | with_reducible assumption | ((with_reducible apply sub_of hA); exact rfl) | dsimp only
      | with_reducible apply keeps_setFrame | intro _

theorem keeps_boundaryPresent (i : TickIn) (hA : Within 0x140060008000c258000000000004000000000000000301dc200 A) (hK : Keeps A a₀ s) : Keeps A a₀ (boundaryPresent i s) := by
  unfold boundaryPresent
  repeat' first
      | with_reducible assumption | ((with_reducible apply sub_of hA); exact rfl) | dsimp only
      | with_reducible apply keeps_afeBegin | with_reducible apply keeps_motionTick
      | with_reducible apply keeps_showBegin | with_reducible apply keeps_takeDue | split | intro _
      | with_reducible refine keeps_of_snd (by with_reducible assumption) ?_
      | with_reducible refine keeps_of_fst (by with_reducible assumption) ?_

theorem keeps_execBuildingTick (i : TickIn) (hA : Within 0x3c00ff809600e25802000112762600003f814206188bbbfcfe1 A)
    (hK : Keeps A a₀ s) : KeepsRes A a₀ (execBuildingTick i s) := by
  unfold execBuildingTick
  with_reducible apply keepsRes_done
  repeat' first
      | with_reducible assumption | ((with_reducible apply sub_of hA); exact rfl) | dsimp only
      | with_reducible apply keeps_afeEnd | with_reducible apply keeps_applyAllStaged
      | with_reducible apply keeps_boundaryPresent | with_reducible apply keeps_boundaryService
      | with_reducible apply keeps_boundaryTime | with_reducible apply keeps_deadlineSweep
      | with_reducible apply keeps_drained | with_reducible apply keeps_keepRc
      | with_reducible apply keeps_ktimerTick | with_reducible apply keeps_linkTick
      | with_reducible apply keeps_servePunts | with_reducible apply keeps_setPwr
      | with_reducible apply keeps_settleSubs | with_reducible apply keeps_showEnd
      | with_reducible refine keeps_ite (fun _ => ?_) (fun _ => ?_) | split | intro _

end Sys2Proof.Laws
end

