-- ==== Sys2Proof/Laws/KeepsZwirdo.lean ====
section
/-! SUPPORT. `Keeps` for the operations of Machine/Zwirdo.lean. -/

set_option linter.unusedTactic false
set_option linter.unreachableTactic false

namespace Sys2Proof.Laws

open Sys2Proof Sys2Proof.Machine Sys2Proof.Safety

variable {A : Nat} {a₀ s : State}

theorem keeps_zwdStatus (st : Nat) (hA : Within 0x140060018000000000000000000000000000000000010010000 A) (hK : Keeps A a₀ s) : Keeps A a₀ (zwdStatus st s) := by
  unfold zwdStatus
  repeat' first
      | with_reducible assumption | ((with_reducible apply sub_of hA); exact rfl) | dsimp only
      | with_reducible apply keeps_count | with_reducible apply keeps_whenB | with_reducible apply keeps_wr
      | exact cov_ZWD_STATUS _ rfl (sub_of hA rfl) | intro _

theorem keeps_zwdReply (cmd : Nat) (t : ZwdTxn) (bytes : List Byte) (hA : Within 0x20000000 A) (hK : Keeps A a₀ s) : Keeps A a₀ (zwdReply cmd t bytes s) := by
  unfold zwdReply
  repeat' first
      | with_reducible assumption | ((with_reducible apply sub_of hA); exact rfl) | dsimp only
      | with_reducible apply keeps_emit | with_reducible refine keeps_ite (fun _ => ?_) (fun _ => ?_) | split
      | intro _

theorem keeps_zwdNack  (hA : Within 0x20000000 A) (hK : Keeps A a₀ s) : Keeps A a₀ (zwdNack s) := by
  unfold zwdNack
  repeat' first
      | with_reducible assumption | ((with_reducible apply sub_of hA); exact rfl) | dsimp only
      | with_reducible apply keeps_emit | intro _

theorem keeps_zwdWakes (hA : Within 0x1c0060008200000000000000000000001000000000830210030 A) (hK : Keeps A a₀ s) : Keeps A a₀ (zwdWakes s) := by
  unfold zwdWakes
  repeat' first
      | with_reducible assumption | ((with_reducible apply sub_of hA); exact rfl) | dsimp only
      | with_reducible apply keeps_endRest | with_reducible apply keeps_wake
      | with_reducible refine keeps_ite (fun _ => ?_) (fun _ => ?_) | split | intro _

theorem keeps_zwdMatched (hA : Within 0x1c0060008200000000000000000000001000000000830210030 A) (hK : Keeps A a₀ s) : Keeps A a₀ (zwdMatched s) := by
  unfold zwdMatched
  repeat' first
      | with_reducible assumption | ((with_reducible apply sub_of hA); exact rfl) | dsimp only
      | with_reducible apply keeps_zwdWakes | with_reducible refine keeps_ite (fun _ => ?_) (fun _ => ?_)
      | split | intro _

theorem keeps_zwdServe (cmd : Nat) (block pure_ : Bool) (n : Nat) (t : ZwdTxn) (act : State → State) (hact : ∀ s, Keeps A a₀ s → Keeps A a₀ (act s)) (hA : Within 0x140060018000000000000000000000000000000000030010000 A)
    (hK : Keeps A a₀ s) : Keeps A a₀ (zwdServe cmd block pure_ n t act s) := by
  unfold zwdServe
  repeat' first
      | with_reducible assumption | ((with_reducible apply sub_of hA); exact rfl) | dsimp only
      | with_reducible apply keeps_emit | with_reducible apply keeps_zwdStatus | split | intro _
      | with_reducible refine keeps_of_snd (by with_reducible assumption) ?_
      | with_reducible refine keeps_of_fst (by with_reducible assumption) ?_ | with_reducible apply hact

theorem keeps_zwdRun (cmd : Nat) (block : Bool) (pure_ : Bool) (n : Nat) (t : ZwdTxn) (act : State → State) (hact : ∀ s, Keeps A a₀ s → Keeps A a₀ (act s)) (hA : Within 0x1c0060018200000000000000000000001000000000830210030 A) (hK : Keeps A a₀ s) : Keeps A a₀ (zwdRun cmd block pure_ n t act s) := by
  unfold zwdRun
  repeat' first
      | with_reducible assumption | ((with_reducible apply sub_of hA); exact rfl) | dsimp only
      | with_reducible apply keeps_zwdMatched | with_reducible apply keeps_zwdNack
      | with_reducible apply keeps_zwdServe | with_reducible apply hact
      | with_reducible refine keeps_ite (fun _ => ?_) (fun _ => ?_) | split | intro _

theorem keeps_zwdRead (cmd : Nat) (t : ZwdTxn) (bytes : State → List Byte) (hA : Within 0x1c0060018200000000000000000000001000000000830210030 A) (hK : Keeps A a₀ s) : Keeps A a₀ (zwdRead cmd t bytes s) := by
  unfold zwdRead
  repeat' first
      | with_reducible assumption | ((with_reducible apply sub_of hA); exact rfl) | dsimp only
      | with_reducible apply keeps_zwdReply | with_reducible apply keeps_zwdRun | with_reducible apply keeps_zwdStatus
      | intro _

theorem keeps_zwdAck (st : Nat) (hA : Within 0x140060018000000000000000000000000000000000030010000 A) (hK : Keeps A a₀ s) : Keeps A a₀ (zwdAck st s) := by
  unfold zwdAck
  repeat' first
      | with_reducible assumption | ((with_reducible apply sub_of hA); exact rfl) | dsimp only
      | with_reducible apply keeps_emit | with_reducible apply keeps_zwdStatus | intro _

theorem keeps_zwdStop  (hA : Within 0x200000 A) (hK : Keeps A a₀ s) : Keeps A a₀ (zwdStop s) := by
  unfold zwdStop
  repeat' first
      | with_reducible assumption | ((with_reducible apply sub_of hA); exact rfl) | dsimp only
      | with_reducible apply keeps_setPwr | with_reducible refine keeps_ite (fun _ => ?_) (fun _ => ?_) | split
      | intro _

theorem keeps_execZwirdoAddressMatch (byte : Byte) (stop : Bool) (hA : Within 0x1c0060008200000000000000000000001000000000830210030 A)
    (hK : Keeps A a₀ s) : KeepsRes A a₀ (execZwirdoAddressMatch byte stop s) := by
  unfold execZwirdoAddressMatch
  with_reducible apply keepsRes_done
  repeat' first
      | with_reducible assumption | ((with_reducible apply sub_of hA); exact rfl) | dsimp only
      | with_reducible apply keeps_emit | with_reducible apply keeps_zwdStop
      | with_reducible apply keeps_zwdWakes | with_reducible refine keeps_ite (fun _ => ?_) (fun _ => ?_)
      | split | intro _

theorem keeps_execStatus (t : ZwdTxn) (hA : Within 0x1c0060018200000000000000000000001000000000830210030 A) (hK : Keeps A a₀ s) : KeepsRes A a₀ (execStatus t s) := by
  unfold execStatus
  with_reducible apply keepsRes_done
  repeat' first
      | with_reducible assumption | ((with_reducible apply sub_of hA); exact rfl) | dsimp only
      | with_reducible apply keeps_done | with_reducible apply keeps_zwdRead | with_reducible apply keeps_zwdReply
      | with_reducible refine keeps_ite (fun _ => ?_) (fun _ => ?_) | split | intro _

theorem keeps_execIdent (t : ZwdTxn) (hA : Within 0x1c0060018200000000000000000000001000000000830210030 A) (hK : Keeps A a₀ s) : KeepsRes A a₀ (execIdent t s) := by
  unfold execIdent
  with_reducible apply keepsRes_done
  repeat' first
      | with_reducible assumption | ((with_reducible apply sub_of hA); exact rfl) | dsimp only
      | with_reducible apply keeps_done | with_reducible apply keeps_zwdRead | intro _

theorem keeps_execFprint (t : ZwdTxn) (hA : Within 0x1c0060018200000000000000000000001000000000830210030 A) (hK : Keeps A a₀ s) : KeepsRes A a₀ (execFprint t s) := by
  unfold execFprint
  with_reducible apply keepsRes_done
  repeat' first
      | with_reducible assumption | ((with_reducible apply sub_of hA); exact rfl) | dsimp only
      | with_reducible apply keeps_done | with_reducible apply keeps_zwdRead | intro _

theorem keeps_execLast (t : ZwdTxn) (hA : Within 0x1c0060018200000000000000000000001000000000830210030 A) (hK : Keeps A a₀ s) : KeepsRes A a₀ (execLast t s) := by
  unfold execLast
  with_reducible apply keepsRes_done
  repeat' first
      | with_reducible assumption | ((with_reducible apply sub_of hA); exact rfl) | dsimp only
      | with_reducible apply keeps_done | with_reducible apply keeps_zwdRead | intro _

theorem keeps_execRegRead (t : ZwdTxn) (hA : Within 0x1c0060018200000000000000000000001000000000c3021003e A) (hK : Keeps A a₀ s) : KeepsRes A a₀ (execRegRead t s) := by
  unfold execRegRead
  with_reducible apply keepsRes_done
  repeat' first
      | with_reducible assumption | ((with_reducible apply sub_of hA); exact rfl) | dsimp only
      | with_reducible apply keeps_done | with_reducible apply keeps_readEight | with_reducible apply keeps_zwdReply
      | with_reducible apply keeps_zwdRun | with_reducible apply keeps_zwdStatus
      | with_reducible refine keeps_ite (fun _ => ?_) (fun _ => ?_)
      | with_reducible refine keeps_ite_snd (fun _ => ?_) (fun _ => ?_) | split | intro _
      | with_reducible refine keeps_of_snd (by with_reducible assumption) ?_
      | with_reducible refine keeps_of_fst (by with_reducible assumption) ?_

theorem keeps_execRegWrite (t : ZwdTxn) (hA : Within 0x3c00f98186006258020000127224000010014206188bb3b81ff A) (hK : Keeps A a₀ s) : KeepsRes A a₀ (execRegWrite t s) := by
  unfold execRegWrite
  with_reducible apply keepsRes_done
  repeat' first
      | with_reducible assumption | ((with_reducible apply sub_of hA); exact rfl) | dsimp only
      | with_reducible apply keeps_done | with_reducible apply keeps_write8 | with_reducible apply keeps_zwdAck
      | with_reducible apply keeps_zwdRun | with_reducible refine keeps_ite (fun _ => ?_) (fun _ => ?_) | split
      | intro _

theorem keeps_execZwdSoftReset (t : ZwdTxn) (hA : Within 0x1c00600182000040000000000000000010000000088302900b0 A) (hK : Keeps A a₀ s) : KeepsRes A a₀ (execZwdSoftReset t s) := by
  unfold execZwdSoftReset
  with_reducible apply keepsRes_done
  repeat' first
      | with_reducible assumption | ((with_reducible apply sub_of hA); exact rfl) | dsimp only
      | with_reducible apply keeps_done | with_reducible apply keeps_softRequest | with_reducible apply keeps_zwdAck
      | with_reducible apply keeps_zwdRun | with_reducible refine keeps_ite (fun _ => ?_) (fun _ => ?_) | split
      | intro _

theorem keeps_xferFails (st : Nat) (t : ZwdTxn) (hA : Within 0x140060018000000000000000000000000000000000030010000 A) (hK : Keeps A a₀ s) : Keeps A a₀ (xferFails st t s) := by
  unfold xferFails
  repeat' first
      | with_reducible assumption | ((with_reducible apply sub_of hA); exact rfl) | dsimp only
      | with_reducible apply keeps_fresh | with_reducible apply keeps_zwdReply | with_reducible apply keeps_zwdStatus
      | with_reducible refine keeps_ite (fun _ => ?_) (fun _ => ?_)
      | with_reducible refine keeps_ite_snd (fun _ => ?_) (fun _ => ?_) | split | intro _
      | with_reducible refine keeps_of_snd (by with_reducible assumption) ?_
      | with_reducible refine keeps_of_fst (by with_reducible assumption) ?_

theorem keeps_xferRuns (t : ZwdTxn) (rx : List Byte) (hA : Within 0x140060018000000000000000000000000000000000038010000 A) (hK : Keeps A a₀ s) : Keeps A a₀ (xferRuns t rx s) := by
  unfold xferRuns
  repeat' first
      | with_reducible assumption | ((with_reducible apply sub_of hA); exact rfl) | dsimp only
      | with_reducible apply keeps_emit | with_reducible apply keeps_spiEffect | with_reducible apply keeps_zwdReply
      | with_reducible apply keeps_zwdStatus | intro _

theorem keeps_execFlashXfer (t : ZwdTxn) (rx : List Byte) (hA : Within 0x1c0060018200000000000000000000001000000000838210030 A) (hK : Keeps A a₀ s) : KeepsRes A a₀ (execFlashXfer t rx s) := by
  unfold execFlashXfer
  with_reducible apply keepsRes_done
  repeat' first
      | with_reducible assumption | ((with_reducible apply sub_of hA); exact rfl) | dsimp only
      | with_reducible apply keeps_done | with_reducible apply keeps_xferFails | with_reducible apply keeps_xferRuns
      | with_reducible apply keeps_zwdNack | with_reducible apply keeps_zwdRun | with_reducible apply keeps_zwdStatus
      | with_reducible refine keeps_ite (fun _ => ?_) (fun _ => ?_) | split | intro _

theorem keeps_mboxStore (o : Nat) (b : List Byte) (hA : Within 0x400000 A) (h : Keeps A a₀ s) : Keeps A a₀ (mboxStore o b s) := by
  unfold mboxStore
  refine keeps_setZwd _ (sub_of hA rfl) (fun hm => ?_) h
  simp only [List.length_take, List.length_append, List.length_drop, hm]
  omega

theorem keeps_execMboxPut (t : ZwdTxn) (hA : Within 0x1c0060018200000000000000000000001000000000830610030 A) (hK : Keeps A a₀ s) : KeepsRes A a₀ (execMboxPut t s) := by
  unfold execMboxPut
  with_reducible apply keepsRes_done
  repeat' first
      | with_reducible assumption | ((with_reducible apply sub_of hA); exact rfl) | dsimp only
      | with_reducible apply keeps_done | with_reducible apply keeps_mboxStore | with_reducible apply keeps_zwdAck
      | with_reducible apply keeps_zwdNack | with_reducible apply keeps_zwdRun | with_reducible apply keeps_zwdStatus
      | with_reducible refine keeps_ite (fun _ => ?_) (fun _ => ?_) | split | intro _

theorem keeps_mboxStart (act : Nat) (t : ZwdTxn) (hA : Within 0x1c0060018200000000000000000000001000000000830610030 A) (hK : Keeps A a₀ s) : Keeps A a₀ (mboxStart act t s) := by
  unfold mboxStart
  repeat' first
      | with_reducible assumption | ((with_reducible apply sub_of hA); exact rfl) | exact fun h => h | dsimp only
      | with_reducible apply keeps_setZwd | with_reducible apply keeps_wr | with_reducible apply keeps_zwdAck
      | with_reducible apply keeps_zwdRun | exact cov_ZWD_STATUS _ rfl (sub_of hA rfl)
      | with_reducible refine keeps_ite (fun _ => ?_) (fun _ => ?_) | split | intro _

theorem keeps_execMboxRunWrite (t : ZwdTxn) (hA : Within 0x1c0060018200000000000000000000001000000000830610030 A) (hK : Keeps A a₀ s) : KeepsRes A a₀ (execMboxRunWrite t s) := by
  unfold execMboxRunWrite
  with_reducible apply keepsRes_done
  repeat' first
      | with_reducible assumption | ((with_reducible apply sub_of hA); exact rfl) | dsimp only
      | with_reducible apply keeps_done | with_reducible apply keeps_mboxStart | intro _

theorem keeps_execMboxRunRead (t : ZwdTxn) (hA : Within 0x1c0060018200000000000000000000001000000000830610030 A) (hK : Keeps A a₀ s) : KeepsRes A a₀ (execMboxRunRead t s) := by
  unfold execMboxRunRead
  with_reducible apply keepsRes_done
  repeat' first
      | with_reducible assumption | ((with_reducible apply sub_of hA); exact rfl) | dsimp only
      | with_reducible apply keeps_done | with_reducible apply keeps_mboxStart | intro _

theorem keeps_execMboxRunDelete (t : ZwdTxn) (hA : Within 0x1c0060018200000000000000000000001000000000830610030 A) (hK : Keeps A a₀ s) : KeepsRes A a₀ (execMboxRunDelete t s) := by
  unfold execMboxRunDelete
  with_reducible apply keepsRes_done
  repeat' first
      | with_reducible assumption | ((with_reducible apply sub_of hA); exact rfl) | dsimp only
      | with_reducible apply keeps_done | with_reducible apply keeps_mboxStart | intro _

theorem keeps_mboxServe (act : Nat) (fault : Bool) (hA : Within 0x3c00f9c084006258020000127224000000014206180bbfba5c1 A) (hK : Keeps A a₀ s) : Keeps A a₀ (mboxServe act fault s).2 := by
  unfold mboxServe
  repeat' first
      | with_reducible assumption | ((with_reducible apply sub_of hA); exact rfl) | dsimp only
      | with_reducible apply keeps_mboxStore | with_reducible apply keeps_setEndStatus
      | with_reducible apply keeps_setRecordOr | with_reducible refine keeps_ite (fun _ => ?_) (fun _ => ?_)
      | with_reducible refine keeps_ite_snd (fun _ => ?_) (fun _ => ?_) | split | intro _
      | with_reducible refine keeps_of_snd (by with_reducible assumption) ?_
      | with_reducible refine keeps_of_fst (by with_reducible assumption) ?_

theorem keeps_execMboxDone (fault : Bool) (hA : Within 0x3c00f9c184006258020000127224000000014206180bbfba5c1 A) (hK : Keeps A a₀ s) : KeepsRes A a₀ (execMboxDone fault s) := by
  unfold execMboxDone
  with_reducible apply keepsRes_done
  repeat' first
      | with_reducible assumption | ((with_reducible apply sub_of hA); exact rfl) | exact fun h => h | dsimp only
      | with_reducible apply keeps_alertSet | with_reducible apply keeps_done | with_reducible apply keeps_mboxServe
      | with_reducible apply keeps_setZwd | with_reducible apply keeps_wr | exact cov_ZWD_STATUS _ rfl (sub_of hA rfl)
      | with_reducible refine keeps_ite (fun _ => ?_) (fun _ => ?_)
      | with_reducible refine keeps_ite_snd (fun _ => ?_) (fun _ => ?_) | split | intro _
      | with_reducible refine keeps_of_snd (by with_reducible assumption) ?_
      | with_reducible refine keeps_of_fst (by with_reducible assumption) ?_

theorem keeps_execMboxGet (t : ZwdTxn) (hA : Within 0x1c0060018200000000000000000000001000000000830210030 A) (hK : Keeps A a₀ s) : KeepsRes A a₀ (execMboxGet t s) := by
  unfold execMboxGet
  with_reducible apply keepsRes_done
  repeat' first
      | with_reducible assumption | ((with_reducible apply sub_of hA); exact rfl) | dsimp only
      | with_reducible apply keeps_done | with_reducible apply keeps_fresh | with_reducible apply keeps_zwdReply
      | with_reducible apply keeps_zwdRun | with_reducible apply keeps_zwdStatus
      | with_reducible refine keeps_ite (fun _ => ?_) (fun _ => ?_)
      | with_reducible refine keeps_ite_snd (fun _ => ?_) (fun _ => ?_) | split | intro _
      | with_reducible refine keeps_of_snd (by with_reducible assumption) ?_
      | with_reducible refine keeps_of_fst (by with_reducible assumption) ?_

theorem keeps_execMboxStatus (t : ZwdTxn) (hA : Within 0x1c0060018200000000000000000000001000000000830210030 A) (hK : Keeps A a₀ s) : KeepsRes A a₀ (execMboxStatus t s) := by
  unfold execMboxStatus
  with_reducible apply keepsRes_done
  repeat' first
      | with_reducible assumption | ((with_reducible apply sub_of hA); exact rfl) | dsimp only
      | with_reducible apply keeps_done | with_reducible apply keeps_zwdRead | intro _

theorem keeps_execAlertRead (t : ZwdTxn) (hA : Within 0x1c0060018200000000000000000000001000000000830210030 A) (hK : Keeps A a₀ s) : KeepsRes A a₀ (execAlertRead t s) := by
  unfold execAlertRead
  with_reducible apply keepsRes_done
  repeat' first
      | with_reducible assumption | ((with_reducible apply sub_of hA); exact rfl) | dsimp only
      | with_reducible apply keeps_done | with_reducible apply keeps_zwdRead | intro _

theorem keeps_execAlertResponse (wins : Bool) (hA : Within 0x1c0060008200000000000000000000001000000000830210030 A) (hK : Keeps A a₀ s) : KeepsRes A a₀ (execAlertResponse wins s) := by
  unfold execAlertResponse
  with_reducible apply keepsRes_done
  repeat' first
      | with_reducible assumption | ((with_reducible apply sub_of hA); exact rfl) | dsimp only
      | with_reducible apply keeps_done | with_reducible apply keeps_emit | with_reducible apply keeps_wr
      | with_reducible apply keeps_zwdMatched | exact cov_ZWD_ALERT _ rfl (sub_of hA rfl)
      | with_reducible refine keeps_ite (fun _ => ?_) (fun _ => ?_) | split | intro _

theorem keeps_execZwdTimeout  (hA : Within 0x140060008000000000000000000000000000000000010010000 A) (hK : Keeps A a₀ s) : KeepsRes A a₀ (execZwdTimeout s) := by
  unfold execZwdTimeout
  with_reducible apply keepsRes_done
  repeat' first
      | with_reducible assumption | ((with_reducible apply sub_of hA); exact rfl) | dsimp only
      | with_reducible apply keeps_count | with_reducible apply keeps_done | intro _

theorem keeps_execZwdUnknownCommand (cmd : Byte) (hA : Within 0x1c0060018200000000000000000000001000000000830210030 A) (hK : Keeps A a₀ s) : KeepsRes A a₀ (execZwdUnknownCommand cmd s) := by
  unfold execZwdUnknownCommand
  with_reducible apply keepsRes_done
  repeat' first
      | with_reducible assumption | ((with_reducible apply sub_of hA); exact rfl) | dsimp only
      | with_reducible apply keeps_done | with_reducible apply keeps_zwdMatched | with_reducible apply keeps_zwdNack
      | with_reducible apply keeps_zwdStatus | with_reducible refine keeps_ite (fun _ => ?_) (fun _ => ?_) | split
      | intro _

end Sys2Proof.Laws
end

