-- ==== Sys2Proof/WellFormed.lean ====
section
/-! DEFINITION. Which commands are well formed: what the spec's encodings fix about a command's operands, apart from the
state. The meanings are total and do not rest on it; it says what a sender that follows the spec may send. -/

namespace Sys2Proof

/-- Note types of spec/07 R182, downstream. -/
def noteTypes : List Nat := [1, 2, 3, 4, 5, 6, 7, 8, 9, 10, 11, 12, 13, 14, 15, 16, 17, 18, 19, 32]

/-- A note's LEN is its body's length (R171). -/
def noteBody (n : Note) : Bool := n.body.length == n.len.toNat

/-- A note of one type. -/
def noteWf (type : Nat) (n : Note) : Bool := n.type.toNat == type && noteBody n

/-- R7: an access of another size or alignment than aligned 4 or 8 bytes. -/
def oddSize (off size : Nat) : Bool := !((size == 4 && off % 4 == 0) || (size == 8 && off % 8 == 0))

/-- R300: is `op` with `action` none of the commands of the list, SETTING (0x09) and IMAGE (0x0A) having the actions 1 to
3 and 1 to 5. -/
def notListed (op action : Nat) : Bool :=
  decide (12 < op) || (op == 9 && !([1, 2, 3].contains action)) || (op == 10 && !([1, 2, 3, 4, 5].contains action))

/-- R251: OP of an update operation. -/
def opIs (op : Nat) (u : List Word) : Bool := (u.getD 0 0).toNat / 2 ^ 36 == op

/-- R304: the causes a failed DMA read can have. -/
def dmaWf : DmaBytes → Bool
  | .ok _ => true
  | .err c => decide (1 ≤ c.toNat) && decide (c.toNat ≤ 4)

/-- A read of `n` bytes. -/
def readWf (n : Nat) (d : DmaBytes) : Bool :=
  dmaWf d && (match d with | .ok b => b.length == n | .err _ => true)

/-- A command's buffer of `len` bytes. -/
def bufWf (len : BitVec 16) (d : DmaBytes) : Bool := readWf len.toNat d

/-- An instant within a tick (R12). -/
def instWf (t : Inst) : Bool := decide (t.wc.toNat < 4160)

/-- The Zwirdo command bytes of R421. -/
def zwdCommands : List Nat := [0x01, 0x02, 0x03, 0x04, 0x10, 0x11, 0x20, 0x30, 0x40, 0x41, 0x42, 0x43, 0x50]

/-- A MBOX_RUN of one action. -/
def runWf (act : Nat) (t : ZwdTxn) : Bool := t.data == [BitVec.ofNat 8 act]

/-- Is the command well formed. -/
def Instr.wf : Instr → Bool
  | .lowHalfRead _ _ => true
  | .highHalfRead _ _ => true
  | .highHalfWrite _ _ _ => true
  | .lowHalfWrite _ _ _ => true
  | .eightByteAccess _ _ _ => true
  | .badSizeWrite _ off size => oddSize off.toNat size.toNat
  | .partialRead _ off size => oddSize off.toNat size.toNat && decide (0 < size.toNat) &&
    decide (off.toNat + size.toNat ≤ 65536)
  | .unassignedAccess _ dw eight _ => !eight || dw.toNat % 2 == 0
  | .timeNowRead _ wc _ => decide (wc.toNat < 4160)
  | .powerOnReset => true
  | .pinReset => true
  | .brownOutReset => true
  | .releaseOfReset _ => true
  | .selftestStepDone _ => true
  | .bootLoadGo _ _ => true
  | .imageLoadDone d => dmaWf d
  | .flashBridgeGo _ _ => true
  | .flashBridgeDone _ => true
  | .softReset _ _ => true
  | .softResetProceed => true
  | .enterListening => true
  | .defaultTargets => true
  | .tickOverrun _ => true
  | .buildingTick i => decide (i.tdm.length ≤ 8) && decide (i.encDelta.length ≤ 2) &&
    decide (i.prbs.length ≤ 8)
  | .healthPulse _ _ => true
  | .classTimeElapsed => true
  | .kaWatchdog _ _ => true
  | .watchdogExpiry => true
  | .admission n => noteWf 1 n
  | .insertion => true
  | .admitDone => true
  | .admitFail => true
  | .turn n => noteWf 8 n
  | .turnEnd n => noteWf 9 n
  | .turnEffective _ => true
  | .turnAuto _ => true
  | .leave n => noteWf 10 n
  | .leaving => true
  | .leaveReqTimeout => true
  | .delayStep _ => true
  | .wordLock _ ws => decide (3 ≤ ws.length)
  | .wordLockLost _ c => match c with | .errors ws => decide (ws.length ≤ 1040) | .commas _ => true
  | .spanLos _ _ _ _ => true
  | .lossOfSignalEnd _ _ _ => true
  | .cdrLock _ => true
  | .eqSweepDone _ spreads => spreads.length == 16
  | .eqTrack _ _ _ _ => true
  | .fillEnd _ _ => true
  | .headlandDecision _ _ _ => true
  | .storeReset _ => true
  | .tickMarker _ _ _ => true
  | .tickMarkerMiss _ _ => true
  | .rowCheck _ row words => if row.toNat < 31 then words.length == 130 else decide (words.length ≤ 130)
  | .spanRowLost _ _ _ => true
  | .frameHeader _ _ => true
  | .generationEffective _ => true
  | .grantMap _ => true
  | .expressWord _ _ _ => true
  | .channelLastExpiry _ => true
  | .claimPrepared => true
  | .claim _ _ => true
  | .claimRetry => true
  | .assign n => noteWf 2 n
  | .assignVerifyDone => true
  | .release n => noteWf 3 n
  | .grantTimeout => true
  | .rangeResult => true
  | .rangeReportRepeat => true
  | .rangeOk n => noteWf 4 n
  | .rangeRetry n => noteWf 5 n
  | .rangeAdj n => noteWf 6 n
  | .rangeRecompute => true
  | .delayStepStale => true
  | .flywheelEntry => true
  | .flywheelExit _ => true
  | .timeMap n => noteWf 7 n
  | .noteMalformed _ room => decide (room ≤ 118)
  | .noteUnknown n => noteBody n && !(noteTypes.contains n.type.toNat)
  | .mapDesc n => noteWf 11 n
  | .subscribe n => noteWf 12 n
  | .keyLoad n => noteWf 13 n
  | .setting n => noteWf 14 n
  | .motionProfile n => noteWf 15 n
  | .powerOrder n => noteWf 16 n
  | .imageOrderSwap n => noteWf 17 n
  | .imageOrderConfirm n => noteWf 17 n
  | .imageOrderRevert n => noteWf 17 n
  | .resetOrder n => noteWf 18 n
  | .resetOrderDue => true
  | .statusReq n => noteWf 19 n
  | .hostMsgDn n => noteWf 32 n
  | .mapReq _ => true
  | .noteUpExpired => true
  | .burstLock _ => true
  | .windowWrite _ _ _ _ => true
  | .burstBufferRelease _ => true
  | .cipherJobDone _ _ => true
  | .keyReady _ _ => true
  | .keyErase => true
  | .entropyFail _ => true
  | .drbgReseed _ => true
  | .drbgStopped => true
  | .drbgReinstantiate _ => true
  | .sigOpDone _ => true
  | .thresherPacket => true
  | .thUpdateSet _ u => u.length == 6 && opIs 1 u
  | .thUpdateDelete _ u => u.length == 6 && opIs 2 u
  | .thUpdateCommit _ u => u.length == 6 && opIs 3 u
  | .tableSweep => true
  | .tableSweepDone => true
  | .deadlineDiscard => true
  | .holddownFlush _ => true
  | .qmIndWrite _ _ => true
  | .qmIndRead _ _ => true
  | .qmIndDone => true
  | .lowReload _ _ => true
  | .run _ _ => true
  | .firmwareRun => true
  | .hreStart _ _ => true
  | .hreStop _ _ => true
  | .orderlyStopDone => true
  | .hostAbsent => true
  | .pollPoint _ _ _ => true
  | .doorbellReadDone d => readWf 260 d
  | .txDescriptor _ d => readWf 32 d
  | .txDataReadDone _ d => dmaWf d
  | .hostDelivery _ _ => true
  | .nop _ => true
  | .wait _ _ => true
  | .harvest _ _ => true
  | .harvestSnapshot _ => true
  | .clearLedger _ _ => true
  | .qmWrite _ obj _ rec _ => rec.length == 3 && (obj == 0 || obj == 2 || obj == 3)
  | .stagedWrite _ _ _ _ => true
  | .leaveCommand _ => true
  | .hostMsg _ len d => bufWf len d
  | .settingWrite _ len d _ => bufWf len d
  | .settingRead _ _ len d _ => bufWf len d
  | .settingDelete _ len d => bufWf len d
  | .imageWriteStaging _ len _ d => bufWf len d
  | .imageVerify _ => true
  | .imageSwap _ _ => true
  | .imageConfirm _ => true
  | .imageRevert _ => true
  | .softResetCommand _ _ => true
  | .ringRestart _ _ => true
  | .badOpcode _ op action => notListed op.toNat action.toNat
  | .intxPend _ _ => true
  | .ringStopped _ cause => decide (1 ≤ cause.toNat) && decide (cause.toNat ≤ 5)
  | .hostReset _ => true
  | .linkUp _ => true
  | .linkDown _ _ _ => true
  | .anBasePage _ _ => true
  | .sgmiiWord _ _ => true
  | .anRestart _ => true
  | .ethFrameRx _ bytes _ _ => decide (bytes.length < 65536)
  | .pause _ _ => true
  | .pauseEnd _ => true
  | .frameTransmit _ _ => true
  | .ptpRx _ _ => true
  | .ptpMessageDue _ _ _ => true
  | .announceReceiptTimeout _ => true
  | .holdoverExpiry => true
  | .dmxBreak _ => true
  | .rdmTransaction _ => true
  | .rdmTransactionEnd _ _ _ => true
  | .rdmDiscovery _ => true
  | .dmxRxPacket _ start _ _ _ bytes => instWf start && decide (1 ≤ bytes.length) && decide (bytes.length ≤ 513)
  | .dmxLoss _ => true
  | .ltcFrame _ => true
  | .ltcRxCodeword _ at_ _ _ _ _ => instWf at_
  | .midiTxByte _ => true
  | .midiRxByte _ at_ _ _ => instWf at_
  | .cueEdge _ _ at_ => instWf at_
  | .cuePulseEnd _ => true
  | .genlockEdge _ => true
  | .setpointLoss _ => true
  | .brakeRelease _ => true
  | .enablingDone _ => true
  | .encError _ => true
  | .indexEdge _ delta => decide (delta.natAbs < 2 ^ 31)
  | .limit _ _ _ => true
  | .driveFault _ _ => true
  | .hold _ _ => true
  | .followingError _ => true
  | .softLimit _ => true
  | .profileEnd _ => true
  | .rundownEnd _ => true
  | .brakeSetExpiry _ => true
  | .motCut _ => true
  | .posWrite _ _ _ _ => true
  | .slotHalfStart => true
  | .sampleDone _ _ _ => true
  | .afeCalStart _ _ => true
  | .afeCalDone _ => true
  | .afePfoFault _ => true
  | .pwrTarget _ _ _ => true
  | .powerTransition => true
  | .pwrDone => true
  | .spanWakeSet _ _ => true
  | .laneActivityWake _ => true
  | .cueWake _ _ => true
  | .ktimerCfg _ _ => true
  | .keeperTimerExpiry => true
  | .zwirdoAddressMatch _ _ => true
  | .status _ => true
  | .ident _ => true
  | .fprint _ => true
  | .last _ => true
  | .regRead _ => true
  | .regWrite _ => true
  | .zwdSoftReset _ => true
  | .flashXfer _ _ => true
  | .mboxPut _ => true
  | .mboxRunWrite t => runWf 1 t
  | .mboxRunRead t => runWf 2 t
  | .mboxRunDelete t => runWf 3 t
  | .mboxDone _ => true
  | .mboxGet _ => true
  | .mboxStatus _ => true
  | .alertRead _ => true
  | .alertResponse _ => true
  | .zwdTimeout => true
  | .zwdUnknownCommand cmd => !(zwdCommands.contains cmd.toNat)
  | .carouselPiece words => words.length == 10
  | .pieceProgram _ => true
  | .gleanVerify => true
  | .swapTick => true
  | .trialExpired => true
  | .lanePrbsCfg _ _ _ => true
  | .laneLoop _ _ _ => true
  | .laneTestStart _ => true
  | .laneTestEnd _ => true
  | .checkerLock _ _ => true
  | .syncLoss _ _ => true
  | .injectSingle _ _ _ => true
  | .injectBurst _ _ _ => true
  | .injectContinuous _ _ _ => true
  | .injectStop _ _ _ => true
  | .ledgerClear _ _ => true
  | .ledgerClearApply => true
  | .extest _ _ => true
  | .samplePreload _ _ => true
  | .highz => true
  | .clamp => true
  | .bypass _ => true
  | .leaveReqRepeat => true
  | .entropyRetestPass _ => true
  | .qualificationTimeout _ => true

end Sys2Proof
end

