-- ==== Sys2Proof/Tests/Slice0.lean ====
section
/-! SUPPORT. Tests: worked examples of the spec, terms that are not well formed, and for every statement's hypotheses a
state and operands that meet them all, with what the statement says of them. -/

namespace Sys2Proof.Tests

open Sys2Proof Sys2Proof.Machine Sys2Proof.Safety Sys2Proof.Claims

set_option Elab.async false

/-- A state in a terminal state with some register fields set. -/
def st (t : TermState) (w : List (Fld × Nat)) : State := eachOf w (fun s x => wr x.1 x.2 s) { State.reset with term := t }

/-- The same with every power domain ON. -/
def live (t : TermState) (w : List (Fld × Nat)) : State :=
  eachOf w (fun s x => wr x.1 x.2 s) (eachOf domains (fun s k => wr (F.PWR_TARGET_STATE k) 0 s) { State.reset with term := t })

/-- The state a command leads to. -/
def after (i : Instr) (s : State) : State :=
  match exec i s with
  | .next t => t
  | _ => s

/-- Words sent one after the other, as a receiver takes them from the line. -/
def line (ws : List (Bool × Word)) : List RxWord := onLine ws false

/-- One word from the line. -/
def rxw (k : Bool) (d : Word) : RxWord := { rd := false, code := (encodeWord (k, d) false).1 }

/-- A word whose code-groups are in no table. -/
def badw : RxWord := RxWord.absent

/-- The same where the first ranging result has been applied. -/
def ranged (t : TermState) (w : List (Fld × Nat)) : State := wr F.TIME_STATUS_RANGED 1 (live t w)

/-- Is this event waiting. -/
def waits (c a : Nat) (s : State) : Bool := s.host.events.any (fun e => e.code == c && e.arg0 == a)

/-- A counter's value. -/
def cnt (i : Nat) (s : State) : Nat := (reg (counterAddr i) s).toNat

/-! ### Register access -/

theorem wit_StepRunsTheFrontCommand :
    step { State.reset with pending := [.cdrLock 0, .highz] } = exec (.cdrLock 0) { State.reset with pending := [.highz] } ∧
    step { State.reset with pending := [] } = .next { State.reset with pending := [] } := ⟨rfl, rfl⟩

theorem wit_EveryStepKeepsTheInvariant : Inv State.reset ∧ step State.reset = .next State.reset :=
  ⟨⟨by decide, by decide, by decide, by decide, by decide, by decide, by decide +kernel, by decide⟩, rfl⟩

/-- A state with a ledger counter at 0x12_3456_789A (the worked example of spec/00). -/
def ledgerAt (v : Word) : State := setReg 0x6010 v (st .listening [])

theorem wit_HalvesGoThroughTheLatches_1 : let s := ledgerAt 0x123456789A
    regsAnswer s = true ∧ regAssigned (8 * (0xC02 : BitVec 13).toNat) = true ∧ 8 * (0xC02 : BitVec 13).toNat ≠ R.TIME_NOW ∧
    (after (.lowHalfRead .pcie 0xC02) s).out = [.regData .pcie 0x3456789A] ∧
    (after (.lowHalfRead .pcie 0xC02) s).pcie.snap = { tag := some 0x6010, val := 0x12 } := by decide +kernel

/-- The high half after the low half of the same register; and with no low half read before. -/
theorem wit_HalvesGoThroughTheLatches_2 : let s := after (.lowHalfRead .pcie 0xC02) (ledgerAt 0x123456789A)
    let u := setReg 0x6010 0x34000000FF s
    (latches .pcie u).snap.tag = some (8 * (0xC02 : BitVec 13).toNat) ∧
    (after (.highHalfRead .pcie 0xC02) u).out.head? = some (.regData .pcie 0x12) ∧
    (latches .mgmt u).snap.tag ≠ some (8 * (0xC02 : BitVec 13).toNat) ∧
    (after (.highHalfRead .mgmt 0xC02) u).out.head? = some (.regData .mgmt 0x34) := by decide +kernel

/-- Reading TIME_NOW captures the cycle; in RESET nothing is answered or written, in HOLDING nothing is written here. -/
theorem wit_HalvesGoThroughTheLatches_4 : let s := { st .running [] with bt := 48 * 0x10005 + 7 }
    regsAnswer s = true ∧ 8 * (BitVec.ofNat 13 (R.TIME_NOW / 8)).toNat = R.TIME_NOW ∧ s.term ≠ .holding ∧
    rd F.TIME_EPOCH_SNAP_CYCLE (after (.lowHalfRead .mgmt (BitVec.ofNat 13 (R.TIME_NOW / 8))) s) = 0x10005 ∧
    mayWriteReg (8 * (8 : BitVec 13).toNat) State.reset = false ∧ State.reset.term = .reset ∧
    mayWriteReg (R.AX_CFG 0) (st .holding []) = false ∧
    (after (.highHalfWrite .pcie (BitVec.ofNat 13 (R.AX_CFG 0 / 8)) 5) (st .holding [])).pcie.hold.tag = none := by decide +kernel

/-- The high half of a register that HOLDING blocks: zero, but the latch where its tag is the register. -/
theorem wit_HalvesGoThroughTheLatches_5 : let h := { ledgerAt 0x123456789A with term := .holding }
    let l := { after (.lowHalfRead .pcie 0xC02) (ledgerAt 0x123456789A) with term := .holding }
    regsAnswer h = true ∧ (after (.lowHalfRead .pcie 0xC02) h).out = [.regData .pcie 0] ∧
    (after (.highHalfRead .pcie 0xC02) h).out = [.regData .pcie 0] ∧
    (after (.highHalfRead .pcie 0xC02) l).out.head? = some (.regData .pcie 0x12) := by decide +kernel

theorem wit_HalvesGoThroughTheLatches_3 : let s := st .listening []
    regAssigned (8 * (8 : BitVec 13).toNat) = true ∧ mayWriteReg (8 * (8 : BitVec 13).toNat) s = true ∧
    (after (.highHalfWrite .zwirdo 8 0xABCD) s).zwirdo.hold = { tag := some 0x40, val := 0xCD } := by decide +kernel

/-- BOOT_LOAD_ADDR, a register with no write effect of its own. -/
theorem no_hook_bootLoadAddr : ∀ (p : Path) (x n : Word), writeHook p 0x40 x n = none := fun _ _ _ => rfl

theorem wit_LowHalfWriteCommits_1 : let s := after (.highHalfWrite .pcie 8 0xAB) (st .listening [])
    (regRow 0x40).isSome = true ∧ mayWriteReg 0x40 s = true ∧ (regRow 0x40).all (fun r => !findsLock r s) = true ∧
    reg 0x40 (after (.lowHalfWrite .pcie 8 0x12345678) s) = 0xAB12345678 ∧
    reg 0x40 (after (.lowHalfWrite .pcie 8 0x12345678) (st .listening [])) = 0x0012345678 := by decide +kernel

/-- AX0_RD_CFG's row has RWS fields (spec/15). -/
theorem no_hook_rws : ∀ (p : Path) (x n : Word), writeHook p (R.AX_RD_CFG 0) x n = none := fun _ _ _ => rfl

theorem wit_LowHalfWriteCommits_2 : let s := st .listening [(F.RUN_CTRL_RUN, 1)]
    (regRow (R.AX_RD_CFG 0)).any (fun r => r.rws != 0 && !r.engine) = true ∧ mayWriteReg (R.AX_RD_CFG 0) s = true ∧ countsNow s = true ∧
    Room s ∧ on F.RUN_CTRL_RUN s = true ∧ bookkeeping (R.AX_RD_CFG 0) = false ∧
    cnt C.REG_LOCKED_WRITE (after (.lowHalfWrite .pcie (BitVec.ofNat 13 (R.AX_RD_CFG 0 / 8)) 1) s) = 1 ∧
    waits E.REG_LOCKED (R.AX_RD_CFG 0) (after (.lowHalfWrite .pcie (BitVec.ofNat 13 (R.AX_RD_CFG 0 / 8)) 1) s) = true ∧
    reg (R.AX_RD_CFG 0) (after (.lowHalfWrite .pcie (BitVec.ofNat 13 (R.AX_RD_CFG 0 / 8)) 1) s) = reg (R.AX_RD_CFG 0) s := by
  unfold Room; decide +kernel

theorem wit_LowHalfWriteCommits_3 : let s := st .holding []
    mayWriteReg (8 * (BitVec.ofNat 13 (R.AX_CFG 0 / 8)).toNat) s = false ∧
    reg (R.AX_CFG 0) (after (.lowHalfWrite .pcie (BitVec.ofNat 13 (R.AX_CFG 0 / 8)) 5) s) = reg (R.AX_CFG 0) s := by decide +kernel

theorem wit_OtherAccessesAndOffsets_1 : let s := ledgerAt 0x123456789A
    regsAnswer s = true ∧ regAssigned (8 * (0xC02 : BitVec 13).toNat) = true ∧
    (after (.eightByteAccess .pcie 0xC02 none) s).out = [.regData .pcie 0x123456789A] ∧
    reg 0x40 (after (.eightByteAccess .pcie 8 (some 0xAB12345678)) s) = 0xAB12345678 := by decide +kernel

theorem wit_OtherAccessesAndOffsets_2 : let s := ledgerAt 0x123456789A
    oddAccess 0x6010 2 = true ∧ countsNow s = true ∧ cnt C.REG_ACCESS_BAD (after (.badSizeWrite .pcie 0x6010 2) s) = 1 ∧
    0x6011 % 4 + 2 ≤ 4 ∧ (after (.partialRead .pcie 0x6011 2) s).out = [.regBytes .pcie [0x78, 0x56]] ∧
    4 < 0x6012 % 4 + 3 ∧ (after (.partialRead .pcie 0x6012 3) s).out = [.regBytes .pcie [0x56, 0x34, 0x12]] := by decide +kernel

theorem wit_OtherAccessesAndOffsets_3 : let s := st .listening []
    regsAnswer s = true ∧ regAssigned (8 * ((510 : BitVec 14).toNat / 2)) = false ∧ regAssigned (8 * (255 : BitVec 13).toNat) = false ∧
    (after (.unassignedAccess .pcie 510 false none) s).out = [.regData .pcie 0] := by decide +kernel

theorem wit_TimeNowReadCapturesTheCycle : let s := { st .running [] with bt := 48 * 0x10005 + 7 }
    regsAnswer s = true ∧ s.term ≠ .holding ∧ (100 : BitVec 13).toNat < 4160 ∧
    rd F.TIME_EPOCH_SNAP_CYCLE (after (.timeNowRead .pcie 100 9) s) = 0x10005 ∧
    (after (.timeNowRead .pcie 100 9) s).out = [.regData .pcie (BitVec.ofNat 64 ((5 * 2 ^ 25 + 7 * 2 ^ 19 + 100 * 64 + 9) % 2 ^ 32))] := by
  decide +kernel

/-! ### Terms that are not well formed -/

/-- One term for each check of WellFormed.lean, which refuses it. -/
theorem test_ill_formed_accesses : ([.badSizeWrite .pcie 8 4, .badSizeWrite .pcie 16 8, .partialRead .pcie 8 8, .partialRead .pcie 9 0,
    .partialRead .pcie 0xFFFF 2, .unassignedAccess .pcie 511 true none, .timeNowRead .pcie 4160 0, .imageLoadDone (.err 0), .imageLoadDone (.err 5),
    .doorbellReadDone (.ok []), .txDescriptor 0 (.ok [0]), .txDataReadDone 0 (.err 9), .badOpcode { cseq := 0, irq := false } 12 0, .badOpcode { cseq := 0, irq := false } 9 3, .badOpcode { cseq := 0, irq := false } 10 5,
    .ringStopped 0 0, .ringStopped 0 6, .thUpdateSet { cseq := 0, irq := false } [], .thUpdateDelete { cseq := 0, irq := false } [0x1000000000, 0, 0, 0, 0, 0],
    .thUpdateCommit { cseq := 0, irq := false } [0x2000000000, 0, 0, 0, 0, 0], .qmWrite { cseq := 0, irq := false } 1 0 [0, 0, 0] 0,
    .qmWrite { cseq := 0, irq := false } 0 0 [0, 0] 0, .hostMsg { cseq := 0, irq := false } 2 (.ok [1]), .settingWrite { cseq := 0, irq := false } 2 (.ok [1]) false,
    .settingRead { cseq := 0, irq := false } 0 2 (.ok [1]) false, .settingDelete { cseq := 0, irq := false } 2 (.ok [1]),
    .imageWriteStaging { cseq := 0, irq := false } 2 0 (.ok [1])] : List Instr).all (fun i => !i.wf) = true := by decide

/-- A note of another type, or whose LEN is not its body's length, for every row that is a note. -/
theorem test_ill_formed_notes : let n : Note := { type := 99, mode := 1, id := 1, seq := 0, len := 0, body := [] }
    let l : Note := { n with len := 1 }
    ([.admission n, .turn n, .turnEnd n, .leave n, .assign n, .release n, .rangeOk n, .rangeRetry n, .rangeAdj n, .timeMap n, .mapDesc n, .subscribe n,
      .keyLoad n, .setting n, .motionProfile n, .powerOrder n, .imageOrderSwap n, .imageOrderConfirm n, .imageOrderRevert n, .resetOrder n, .statusReq n,
      .hostMsgDn n, .admission { l with type := 1 }, .noteUnknown l, .noteUnknown { n with type := 32 }, .noteMalformed 0 119] : List Instr).all
      (fun i => !i.wf) = true ∧ (Instr.noteUnknown n).wf = true ∧ (Instr.admission { n with type := 1 }).wf = true := by decide

theorem test_ill_formed_words : ([.eqSweepDone 0 [], .rowCheck .west 30 [], .rowCheck .west 31 (List.replicate 131 badw), .wordLock .west [badw, badw],
    .wordLockLost .west (.errors (List.replicate 1041 badw)), .buildingTick { tdm := List.replicate 9 [] }, .buildingTick { encDelta := [1, 2, 3] },
    .buildingTick { prbs := List.replicate 9 [] }, .carouselPiece [], .dmxRxPacket 0 { ago := 0, wc := 4160 } 0 0 false [0],
    .dmxRxPacket 0 { ago := 0, wc := 0 } 0 0 false [], .ltcRxCodeword 0 { ago := 0, wc := 5000 } 0 false 0 true,
    .midiRxByte 0 { ago := 0, wc := 5000 } 0 false, .cueEdge 0 true { ago := 0, wc := 5000 }, .indexEdge 0 2147483648,
    .mboxRunWrite { data := [2] }, .mboxRunRead { data := [1] }, .mboxRunDelete { data := [0] }, .zwdUnknownCommand 0x10] : List Instr).all
    (fun i => !i.wf) = true := by decide +kernel

theorem test_ill_formed_packets : (Instr.dmxRxPacket 0 { ago := 0, wc := 0 } 0 0 false (List.replicate 514 0)).wf = false ∧
    (Instr.ethFrameRx 0 (List.replicate 65536 0) true 0).wf = false ∧
    (Instr.ethFrameRx 0 (List.replicate 2061 0) true 0).wf = true := by decide +kernel

/-- A data word, a row marker with DIR 0, ROW 3 and TICK 7, and the clearing word, as the 8b/10b tables code them. -/
theorem test_line_code : let w := rxw true 0x3C00000000
    w.k = true ∧ w.data = 0x3C00000000 ∧ w.codeErr = false ∧ isIdle (rxw true 0x7C4A4A4A4A) = true ∧
    (rxw false 0x0000000000).code = 0b10011101001001110100100111010010011101001001110100#50 ∧ groupAt (rxw true 0xBC00000000).code 0 = 0b0011111010 ∧ badw.codeErr = true := by decide +kernel

/-! ### Reset, self-test, boot -/

theorem wit_ResetsLeaveWhatTheSpecSays_1 : let s := st .running [(F.RESET_CAUSE_SOFT_ZWD, 1)]
    s.term ≠ .reset ∧ fget 0x5AFE 15 0 = 0x5AFE ∧ reg R.RESET_CAUSE (after .powerOnReset s) = 2 ∧
    reg R.RESET_CAUSE (after .pinReset s) = 0x46 ∧ reg R.RESET_CAUSE (after .brownOutReset s) = 0x4A ∧
    reg R.RESET_CAUSE (after (.softReset .pcie 0x5AFE) s) = 0x52 ∧
    (after (.softReset .pcie 0x5AFE) s).boot.softPending = true := by decide +kernel

theorem wit_ResetsLeaveWhatTheSpecSays_2 :
    let s := setKey (fun x => { x with slots := [(0, [7]), (3, [9])] })
      (st .running [(F.BYPASS_STATUS_KA_ARMED, 1), (F.STRAP_LATCH_STRAPS, 0x2AC), (F.KTIMER_CFG_MS, 99)])
    on F.BYPASS_STATUS_KA_ARMED s = true ∧
    (Instr.brownOutReset, ResetKind.brownOut) ∈ [(Instr.powerOnReset, ResetKind.powerOn), (.pinReset, .pin), (.brownOutReset, .brownOut)] ∧
    rd F.BYPASS_STATUS_CAUSE (after .brownOutReset s) = 1 ∧
    rd F.BYPASS_STATUS_INSERTED (after .pinReset s) = 1 ∧ rd F.STRAP_LATCH_STRAPS (after .pinReset s) = 0x2AC ∧
    reg R.KTIMER_CFG (after .brownOutReset s) = reg R.KTIMER_CFG s ∧ reg R.KTIMER_CFG (after .pinReset s) = regDefault R.KTIMER_CFG ∧
    (after .pinReset s).key.slots = [(0, [7])] ∧ (after .powerOnReset s).key.slots = [] ∧ R.AX_CFG 0 ∉ [R.RESET_CAUSE, R.STRAP_LATCH] ∧
    (after .pinReset s).boot.strapsDue = true ∧ (after .brownOutReset s).out = [.outputsIdle] := by decide +kernel

/-- The worked example of spec/02: straps 0x2AC; and the strap conflict of R42. -/
theorem wit_SelfTestBeginsAfterAReset_1 : let s := State.reset
    s.term = .reset ∧ s.boot.strapsDue = true ∧ (0x2AC : BitVec 12).toNat % 8 ≠ 1 ∧ (0x001 : BitVec 12).toNat % 8 = 1 ∧
    rd F.ZWD_ADDR_ADDR (after (.releaseOfReset 0x2AC) s) = 0x35 ∧ rd F.BOOT_STATUS_SOURCE (after (.releaseOfReset 0x2AC) s) = 0 ∧
    (after (.releaseOfReset 0x2AC) s).term = .selftest ∧ (after (.releaseOfReset 0x001) s).term = .holding ∧
    rd F.SELFTEST_RESULT_HOLD_CODE (after (.releaseOfReset 0x001) s) = 0x10 ∧ rd F.GRAN_STATUS_FREE (after (.releaseOfReset 0x2AC) s) = 43936 ∧
    rd F.GRAN_STATUS_FREE (after (.releaseOfReset 0x003) s) = 39840 := by decide +kernel

/-- The release after a brown-out reset alone: the straps of before stand. -/
theorem wit_SelfTestBeginsAfterAReset_3 : let s := after .brownOutReset (setBoot (fun b => { b with strapsDue := false }) (st .running [(F.STRAP_LATCH_STRAPS, 0x2AC)]))
    let h := setBoot (fun b => { b with strapsDue := false }) (st .reset [(F.STRAP_LATCH_STRAPS, 1), (F.BOOT_STATUS_SOURCE, 1)])
    let a := wr (F.AX_STATUS_STATE 0) xACTIVE (after (.softReset .pcie 0x5AFE) (st .running []))
    s.term = .reset ∧ s.boot.strapsDue = false ∧ bootSource s ≠ 1 ∧ (after (.releaseOfReset 0xFFF) s).term = .selftest ∧
    rd F.STRAP_LATCH_STRAPS (after (.releaseOfReset 0xFFF) s) = 0x2AC ∧ bootSource h = 1 ∧ strap 2 h = false ∧
    (after (.releaseOfReset 0xFFF) h).term = .holding ∧ axIdle 0 a = false ∧ (after .softResetProceed a).term = .running := by decide +kernel

/-- Self-test at a step, with a boot source. -/
def atStep (n source : Nat) : State := st .selftest [(F.SELFTEST_RESULT_STEP, n), (F.BOOT_STATUS_SOURCE, source)]
def samples : List Byte := (List.range 1312).map (BitVec.ofNat 8)
def passes (d : BitVec 16) : Instr := .selftestStepDone { pass := true, sub := 0, detail := d, samples }
def fails (d : BitVec 16) : Instr := .selftestStepDone { pass := false, sub := 2, detail := d }

theorem wit_SelfTestRunsInCodeOrder_1 :
    (atStep 1 0).term = .selftest ∧ (atStep 1 0).boot.passed = false ∧ bootStep (atStep 1 0) = 1 ∧
    bootStep (after (passes 0) (atStep 1 0)) = 2 ∧ bootStep (after (passes 0) (atStep 8 0)) = 9 ∧
    (after (fails 5) (atStep 8 0)).term = .holding ∧ rd F.SELFTEST_RESULT_HOLD_CODE (after (fails 5) (atStep 8 0)) = 8 ∧
    rd F.SELFTEST_RESULT_DETAIL (after (fails 5) (atStep 8 0)) = 5 := by decide +kernel

theorem wit_SelfTestRunsInCodeOrder_2 :
    bootSource (atStep 9 2) = 2 ∧ (after (passes 24) (atStep 9 2)).term = .holding ∧
    rd F.SELFTEST_RESULT_HOLD_CODE (after (passes 24) (atStep 9 2)) = 0x0F ∧
    bootSource (atStep 9 3) ≠ 2 ∧ bootSource (atStep 9 3) ≠ 1 ∧ bootStep (after (passes 22) (atStep 9 3)) = 10 ∧
    on F.FLASH_INFO_LAYOUT_OK (after (passes 22) (atStep 9 3)) = true ∧
    on F.FLASH_INFO_LAYOUT_OK (after (passes 21) (atStep 9 3)) = false := by decide +kernel

theorem wit_SelfTestRunsInCodeOrder_3 :
    bootStep (after (passes 0) (atStep 11 0)) = 12 ∧ (after (fails 1) (atStep 11 0)).term = .holding ∧
    bootStep (after (fails 0x84) (atStep 11 0)) = 12 ∧ rd F.SELFTEST_FLAGS_LANE_FAIL (after (fails 0x84) (atStep 11 0)) = 0x84 ∧
    rd (F.PWR_TARGET_PORT_OFF dLAN) (after (fails 0x84) (atStep 11 0)) = 0x21 ∧ bootStep (after (fails 1) (atStep 12 0)) = 13 ∧
    rd (F.PWR_TARGET_TARGET dAFE) (after (fails 1) (atStep 12 0)) = 2 ∧
    (after (passes 0) (atStep 13 0)).boot.passed = true := by decide +kernel

/-- Step 0x07 and its samples; host load; a flash whose slots hold no image. No state can be shown in which an image is
good: the root of its signature lies in the one-time memory, of which nothing is known. -/
theorem wit_SelfTestRunsInCodeOrder_4 : entropyTested samples = true ∧ bootStep (after (passes 0) (atStep 7 0)) = 8 ∧
    entropyTested (List.replicate 1312 7) = false ∧
    (after (.selftestStepDone { pass := true, sub := 0, detail := 0, samples := List.replicate 1312 7 }) (atStep 7 0)).term = .holding ∧
    bootSource (atStep 9 1) = 1 ∧ on F.BOOT_LOAD_CTRL_GO (atStep 9 1) = false ∧ (after (passes 24) (atStep 9 1)).boot.waitGo = true ∧
    rd F.SELFTEST_FLAGS_FLASH_FAIL (after (fails 0) (atStep 9 1)) = 1 ∧ (after (fails 0) (atStep 9 0)).term = .holding ∧
    bootSource (atStep 10 0) ≠ 1 ∧ verifySlot fPRIMARY (atStep 10 0) ≠ 0 ∧ layoutOk (atStep 10 0) = false ∧
    (after (passes 0) (atStep 10 0)).term = .holding ∧ rd F.SELFTEST_RESULT_HOLD_CODE (after (passes 0) (atStep 10 0)) = 10 ∧
    lanesTested 0x84 (atStep 11 0) % 4 = 0 ∧ lanesTested 1 (atStep 11 0) % 4 ≠ 0 ∧ (after (fails 0) (atStep 13 0)).term = .holding := by
  decide +kernel

/-- The image step waits for the host. -/
def imageWaits : State := setBoot (fun b => { b with waitGo := true }) (wr F.BOOT_LOAD_ADDR_PAGE 0x12345 (atStep 10 1))

theorem wit_HostLoadAndFlashBridge_1 : let s := after (.bootLoadGo .pcie 0x400) imageWaits
    imageWaits.term = .selftest ∧ imageWaits.boot.waitGo = true ∧ 1 ≤ fget 0x400 11 1 ∧ fget 0x400 11 1 ≤ 1024 ∧
    s.out = [.hostRead 0x12345000 0x80000] ∧ hostLoading s = true ∧ (after (.imageLoadDone (.err 2)) s).boot.waitGo = true ∧
    (after (.imageLoadDone (.ok [])) s).term = .holding ∧ rd F.SELFTEST_RESULT_HOLD_CODE (after (.imageLoadDone (.ok [])) s) = 10 := by
  decide +kernel

/-- A length of 0 or over 1024; and a GO of the bridge with an address of one byte. -/
theorem wit_HostLoadAndFlashBridge_3 : let h := st .holding []
    fget 0 11 1 = 0 ∧ 1024 < fget 0xFFE 11 1 ∧ rd F.SELFTEST_RESULT_SUBCODE (after (.bootLoadGo .pcie 0) imageWaits) = 3 ∧
    (after (.bootLoadGo .pcie 0xFFE) imageWaits).term = .holding ∧ fget 0x200000 23 21 ∉ [0, 3, 4] ∧ on F.FLASH_BRIDGE_CTRL_BUSY h = false ∧
    rd F.FLASH_BRIDGE_CTRL_ERR (after (.flashBridgeGo .pcie 0x200000) h) = 1 ∧ (after (.flashBridgeGo .pcie 0x200000) h).out = [] := by
  decide +kernel

/-- A page program through the bridge, and a read. -/
theorem wit_HostLoadAndFlashBridge_2 : let s := st .holding [(F.FLASH_BRIDGE_DATA_DATA 0, 0xAABB000000), (F.FLASH_BRIDGE_ADDR_ADDR, 0x123456)]
    let v : Word := 0x02601020
    let t := after (.flashBridgeGo .pcie v) s
    s.term = .holding ∧ on F.FLASH_BRIDGE_CTRL_BUSY s = false ∧ fget v 23 21 ∈ [0, 3, 4] ∧ fget v 16 11 ≤ 35 ∧ fget v 10 5 ≤ 35 ∧
    t.out = [.spi [0x02, 0x12, 0x34, 0x56, 0xAA, 0xBB] 1] ∧ on F.FLASH_BRIDGE_CTRL_BUSY t = true ∧ regsAnswer t = true ∧
    (after (.flashBridgeGo .pcie v) t).out = t.out ∧ t.boot.bridgeLen ≤ 35 ∧
    reg (R.FLASH_BRIDGE_DATA 0) (after (.flashBridgeDone [0x77]) t) = 0x77BB000000 ∧
    rd F.FLASH_BRIDGE_CTRL_BUSY (after (.flashBridgeDone [0x77]) t) = 0 := by decide +kernel

theorem wit_SelfTestBeginsAfterAReset_2 : let s := after (.softReset .pcie 0x5AFE) (st .running [(F.STRAP_LATCH_STRAPS, 0x2AC)])
    s.boot.softPending = true ∧ axIdle 0 s = true ∧ axIdle 1 s = true ∧ strapField 2 0 s ≠ 1 ∧
    (after .softResetProceed s).term = .selftest ∧ bootStep (after .softResetProceed s) = 1 ∧
    rd F.ZWD_ADDR_ADDR (after .softResetProceed s) = 0x35 := by decide +kernel

theorem wit_ResetsAloneClearTheLatches : let s := after (.softReset .pcie 0x5AFE) (st .running [])
    let h := after (.highHalfWrite .mgmt 0x10 5) (after (.highHalfWrite .pcie 0x10 5) (st .running []))
    s.boot.softPending = true ∧ axIdle 0 s = true ∧ axIdle 1 s = true ∧ h.term ≠ .reset ∧
    (latches .pcie h).hold.tag = some 0x80 ∧ (latches .pcie (after .pinReset h)).hold.tag = none ∧
    (latches .mgmt (after .pinReset h)).hold.tag = none ∧ (latches .pcie (after (.hostReset 0) h)).hold.tag = none ∧
    (latches .mgmt (after (.hostReset 0) h)).hold.tag = some 0x80 ∧ accessPath (.highHalfRead .pcie 0x10) ≠ some .mgmt ∧
    exec (.highHalfRead .pcie 0x10) h = .next (after (.highHalfRead .pcie 0x10) h) := by
  refine ⟨?_, ?_, ?_, ?_, ?_, ?_, ?_, ?_, ?_, ?_, rfl⟩ <;> decide +kernel

theorem wit_OnlyAResetEndsHolding : (st .holding []).term = .holding ∧
    Instr.highz ∉ [Instr.powerOnReset, .pinReset, .brownOutReset, .softResetProceed] ∧
    exec .highz (st .holding []) = .next (after .highz (st .holding [])) := ⟨rfl, by decide, rfl⟩

/-- LISTENING with an admission tick pending and a marker tracked on West. -/
def admitDue : State :=
  setByp (fun b => { b with ti := some 960 }) { st .listening [(F.REP_STATUS_W_TRACKING, 1)] with line := 960 }

theorem wit_OnlyInsertionAdmits : admitDue.term = .listening ∧ (after .insertion admitDue).term = .admitted ∧
    tickDue 960 admitDue.line = true := by decide +kernel

theorem wit_ListeningBeginsAndRunIsSet_1 : let s := setBoot (fun b => { b with passed := true }) (atStep 13 0)
    let u := setBoot (fun b => { b with listened := some 1 }) (st .listening [])
    s.term = .selftest ∧ s.boot.passed = true ∧ Room s ∧ (after .enterListening s).term = .listening ∧
    waits E.STATE_CHANGE 0x13 (after .enterListening s) = true ∧
    u.term = .listening ∧ u.boot.targetsDone = false ∧ u.pwr.run = none ∧ u.boot.listened = some 1 ∧ hreState u = hreSTOPPED ∧ u.host.stopping = false ∧ domState dFRM u ≠ targetOf u dFRM ∧ domState dFRM (after .defaultTargets u) = 3 ∧
    (after .defaultTargets u).boot.targetsDone = true ∧ (after .defaultTargets u).pwr.run.isSome = true := by
  unfold Room; decide +kernel

theorem wit_ListeningBeginsAndRunIsSet_2 : let h := live .listening [(F.BOOT_STATUS_SOURCE, 3)]
    let f := setBoot (fun b => { b with listened := some 96000 }) (live .listening [])
    fromListening h = true ∧ domOn dMGT h = true ∧ on F.RUN_CTRL_RUN h = false ∧ bootSource h = 3 ∧
    on F.RUN_CTRL_RUN (after (.run .pcie 1) h) = true ∧ (atStep 3 0).term = .selftest ∧
    on F.RUN_CTRL_RUN (after (.run .pcie 1) (atStep 3 0)) = false ∧ on F.RUN_CTRL_RUN (after .firmwareRun h) = true ∧
    fromListening f = true ∧ domOn dMGT f = true ∧ bootSource f = 0 ∧ f.boot.listened = some 96000 ∧
    on F.RUN_CTRL_RUN (after .firmwareRun f) = true := by decide +kernel

/-! ### The tick, bypass, admission, turns, leaving -/

theorem wit_BuildingTicksAndOverruns_1 : let s := { live .listening [] with line := 77, bt := 5 }
    let u := { live .running [(F.TIME_STATUS_RANGED, 1)] with line := 77, bt := 90 }
    let r := setPwr (fun p => { p with resting := true, rest := 3 }) u
    s.term ≠ .reset ∧ s.term ≠ .holding ∧ s.pwr.resting = false ∧ on F.TIME_STATUS_RANGED s = false ∧ s.regn.pendRange = none ∧
    (after (.buildingTick {}) s).bt = 77 ∧ u.term ≠ .reset ∧ u.pwr.resting = false ∧ on F.TIME_STATUS_RANGED u = true ∧
    u.regn.pendRange = none ∧ u.regn.pendStep = none ∧ (after (.buildingTick {}) u).bt = 91 ∧ fromListening r = true ∧
    r.pwr.resting = true ∧ (after (.buildingTick {}) r).pwr.rest = 4 ∧ (after (.buildingTick {}) r).bt = 90 := by decide +kernel

theorem wit_BuildingTicksAndOverruns_2 : let s := live .running []
    fromListening s = true ∧ Room s ∧ nbit s.byp.overruns 4 = false ∧ cnt (C.TICK_OVERRUN_FRM + 4) (after (.tickOverrun 4) s) = 1 ∧
    waits E.TICK_OVERRUN 4 (after (.tickOverrun 4) s) = true ∧ reg R.TICK_OVERRUN_STATUS (after (.tickOverrun 4) s) = 16 ∧
    (after (.tickOverrun 0) s).byp.frmOverrun = true := by unfold Room; decide +kernel

/-- In HOLDING the keeper's timer alone runs; a job of a frame that is over makes the cipher overrun. -/
theorem wit_BuildingTicksAndOverruns_3 : let h := setPwr (fun p => { p with ktimer := some 5 }) (st .holding [])
    let o := setKey (fun x => { x with jobs := [{ up := false, tag := 900, obj := 3, blocks := 4, due := 100 }], loads := [(900, 1600)] })
      { live .running [] with line := 960 }
    h.term = .holding ∧ (after (.buildingTick {}) h).pwr.ktimer = some 4 ∧ (after (.buildingTick {}) h).bt = h.bt ∧
    cipherOverrun o = true ∧ fromListening o = true ∧ cnt (C.TICK_OVERRUN_FRM + 3) (after (.tickOverrun 3) o) = 1 ∧
    waits E.TICK_OVERRUN 3 (after (.tickOverrun 3) o) = true ∧ cipherOverrun (live .running []) = false ∧
    cnt (C.TICK_OVERRUN_FRM + 3) (after (.tickOverrun 3) (live .running [])) = 0 := by decide +kernel

/-- An inserted terminal whose keep-alive is armed. -/
def armed (t : TermState) : State := live t [(F.BYPASS_STATUS_KA_ARMED, 1), (F.BYPASS_STATUS_INSERTED, 1), (F.BYPASS_STATUS_KA_LEVEL, 1)]

theorem wit_KeepAliveFallAndWatchdog_1 : let s := armed .running
    let o := setByp (fun b => { b with frmOverrun := true }) s
    on F.BYPASS_STATUS_KA_ARMED s = true ∧ insertedState s.term = true ∧ unhealthy false false s = none ∧
    rd F.BYPASS_STATUS_KA_LEVEL (after (.healthPulse false false) s) = 0 ∧ (after (.healthPulse false false) s).line = 1 ∧ Room o ∧
    unhealthy true true o = some 2 ∧ rd F.BYPASS_STATUS_CAUSE (after (.healthPulse true true) o) = 2 ∧
    waits E.BYPASS_FALL 2 (after (.healthPulse true true) o) = true ∧ (after (.healthPulse true true) o).byp.ending = some .fall ∧
    (armed .leaving).term = .leaving ∧ on F.BYPASS_STATUS_KA_ARMED (armed .leaving) = true ∧
    rd F.BYPASS_STATUS_CAUSE (after (.healthPulse false false) (armed .leaving)) = 6 ∧
    (after (.healthPulse false false) (armed .leaving)).byp.ending = some .leave := by unfold Room; decide +kernel

/-- A terminal whose class time has elapsed. -/
def ending (k : EndKind) (t : TermState) : State :=
  setByp (fun b => { b with ending := some k, sinceEdge := 96 }) (wr F.REG_STATUS_TERM_ID 5 (armed t))

theorem wit_KeepAliveFallAndWatchdog_2 :
    (ending .fall .running).byp.ending = some .fall ∧ EndKind.fall ≠ .reset ∧ fromListening (ending .fall .running) = true ∧
    classTicks (ending .fall .running) ≤ (ending .fall .running).byp.sinceEdge ∧ Room (ending .fall .running) ∧
    (after .classTimeElapsed (ending .fall .running)).term = .listening ∧
    rd F.REG_STATUS_TERM_ID (after .classTimeElapsed (ending .fall .running)) = 0 ∧
    waits E.LEAVE_DONE 0 (after .classTimeElapsed (ending .leave .leaving)) = true ∧
    (after .classTimeElapsed (ending .leave .leaving)).byp.txdisW = true ∧ (ending .reset .selftest).byp.ending = some .reset ∧
    rd F.BYPASS_STATUS_INSERTED (after .classTimeElapsed (ending .reset .selftest)) = 0 := by unfold Room; decide +kernel

theorem wit_KeepAliveFallAndWatchdog_3 : let s := live .running []
    s.term ≠ .reset ∧ s.term ≠ .holding ∧ fget 0xA5 7 0 = 0xA5 ∧ rd F.KA_WATCHDOG_REMAIN (after (.kaWatchdog .mgmt 0xA5) s) = 8 ∧
    Path.pcie ≠ .mgmt ∧ reg R.KA_WATCHDOG (after (.kaWatchdog .pcie 0xA5) s) = reg R.KA_WATCHDOG s ∧ fromListening s = true ∧
    rd F.KA_WATCHDOG_REMAIN (wr F.KA_WATCHDOG_REMAIN 0 s) = 0 ∧
    (after .watchdogExpiry (wr F.KA_WATCHDOG_REMAIN 0 s)).byp.wdExpired = true := by decide +kernel

/-- A terminal of ID 5 that parses the notes of the frame of line tick `n`. -/
def hearingAt (n : Nat) (t : TermState) : State :=
  setFrame (fun f => { f with row0Frame := some (frameOf n), row0Id := 5 })
    { live t [(F.REG_STATUS_TERM_ID, 5)] with line := n, bt := n }

/-- The same at line tick 4800. -/
def hearing (t : TermState) : State := hearingAt 4800 t

/-- A note to that terminal. -/
def note (type seq : Nat) (b : List Byte) : Note :=
  { type := BitVec.ofNat 8 type, mode := 0, id := 5, seq := BitVec.ofNat 8 seq, len := BitVec.ofNat 10 b.length, body := b }

/-- A note to every terminal. -/
def allNote (type seq : Nat) (b : List Byte) : Note := { note type seq b with id := 63 }

/-- The length of the fingerprint, whatever the chip. -/
theorem fingerprint_length : fingerprint.length = 5 := by decide +kernel

theorem slice_fingerprint (r : List Byte) : slice (fingerprint ++ r) 0 5 = fingerprint := by
  have h := fingerprint_length
  simp [slice, h]

theorem drop_fingerprint (r : List Byte) : (fingerprint ++ r).drop 5 = r := by
  have h := fingerprint_length
  simp [h]

/-- A note by fingerprint. -/
def fpNote (type seq : Nat) (b : List Byte) : Note :=
  { note type seq b with mode := 1, id := 0, len := BitVec.ofNat 10 (5 + b.length), body := fingerprint ++ b }

theorem fpNote_addressed (type seq : Nat) (b : List Byte) (s : State) : addressed (fpNote type seq b) s = some .fprint := by
  simp [addressed, fpNote, slice_fingerprint]

theorem fpNote_fields (type seq : Nat) (b : List Byte) : noteFields (fpNote type seq b) .fprint = b := by
  simp [noteFields, fpNote, drop_fingerprint]

/-- A note by fingerprint is heard where a note with the same fields would be. -/
theorem fpNote_heard (k : NKind) (type seq : Nat) (b : List Byte) (s : State) (hp : parsing s = true)
    (hl : b.length < 900) (hm : k.modes.contains .fprint = true) (ha : k.acts s.term .fprint = true)
    (hq : lastSeq .fprint s = none) (hk : k.lenOk b = true) : Heard k (fpNote type seq b) .fprint s := by
  have hn : (BitVec.ofNat 10 (5 + b.length)).toNat = 5 + b.length := by
    rw [BitVec.toNat_ofNat]; exact Nat.mod_eq_of_lt (by omega)
  refine ⟨hp, ?_, fpNote_addressed _ _ _ _, hm, ha, fun _ => by simp [hq], by rw [fpNote_fields]; exact hk, ?_⟩
  · simp only [headerBad, fpNote, hn]
    simp
  · rw [fpNote_fields]
    simp only [fpNote, hn]
    simp [Nat.add_comm]

/-- The tick stamp of the worked example of spec/07: cycle 6000, tick 10. -/
theorem test_tickStamp : stampOf (6000 * 48 + 10) = 0x000005DC0A := by decide +kernel

/-- The ADMIT of spec/03, 76 ticks ahead, and one 10 ticks ahead. -/
theorem wit_AdmissionRuns_1 : let s := hearingAt (4998 * 48 + 30) .listening
    let far := wordBytes (stampOf (5000 * 48 + 10))
    let near := wordBytes (stampOf (4998 * 48 + 40))
    Heard kADMIT (fpNote 1 0 far) .fprint s ∧ noteTick (stampAt (noteFields (fpNote 1 0 far) .fprint) 0) 48 s = .ok (5000 * 48 + 10) ∧
    Heard kADMIT (fpNote 1 0 near) .fprint s ∧ noteTick (stampAt (noteFields (fpNote 1 0 near) .fprint) 0) 48 s = .error nLATE := by
  refine ⟨fpNote_heard _ _ _ _ _ ?_ ?_ ?_ ?_ ?_ ?_, ?_, fpNote_heard _ _ _ _ _ ?_ ?_ ?_ ?_ ?_ ?_, ?_⟩
  all_goals decide +kernel

/-- The worked ADMIT makes its tick pending. -/
theorem wit_OnlyInsertionAdmits_2 : let s := hearingAt (4998 * 48 + 30) .listening
    let n := fpNote 1 0 (wordBytes (stampOf (5000 * 48 + 10)))
    exec (.admission n) s = .next (after (.admission n) s) ∧ (after (.admission n) s).byp.ti = some (5000 * 48 + 10) ∧
    s.byp.ti ≠ some (5000 * 48 + 10) := by
  refine ⟨rfl, ?_, by decide +kernel⟩
  have hf := fpNote_fields 1 0 (wordBytes (stampOf (5000 * 48 + 10)))
  have ha := fpNote_addressed 1 0 (wordBytes (stampOf (5000 * 48 + 10)))
  have e : ∀ n s, exec (.admission n) s = .next (takeNote kADMIT n (fun b _ s => withOwnTick (stampAt b 0) 48 C.ADMIT_LATE
    (fun t s => (some nDONE, pendAdmit t s)) s) s) := fun _ _ => rfl
  simp only [after, e, takeNote, ha, hf]
  decide +kernel

/-- An ADMITTED terminal in its insertion check. -/
def checking (goodW goodE from_ line : Nat) : State :=
  setByp (fun b => { b with checkFrom := some from_, goodW, goodE }) { armed .admitted with line }

theorem wit_AdmissionRuns_2 :
    admitDue.byp.ti = some 960 ∧ admitDue.term = .listening ∧ tickDue 960 admitDue.line = true ∧
    (tracking .west admitDue || tracking .east admitDue) = true ∧ rd F.BYPASS_STATUS_KA_ARMED (after .insertion admitDue) = 1 ∧
    (after .insertion admitDue).byp.txdisW = false ∧ (after .insertion admitDue).byp.txdisE = false ∧
    (checking 16 16 100 212).byp.checkFrom = some 100 ∧ checkOver 100 (checking 16 16 100 292) = false ∧
    Room (checking 16 16 100 292) ∧ (after .admitDone (checking 16 16 100 292)).byp.admitted = true ∧
    waits E.ADMIT_DONE 0 (after .admitDone (checking 16 16 100 292)) = true ∧ checkOver 100 (checking 0 0 100 293) = true ∧
    Room (checking 0 0 100 293) ∧ rd F.BYPASS_STATUS_CAUSE (after .admitFail (checking 0 0 100 293)) = 7 ∧
    waits E.ADMIT_FAIL 0 (after .admitFail (checking 0 0 100 293)) = true := by unfold Room; decide +kernel

/-- A stamp 8 ticks after line tick 4800, and a side byte. -/
def turnBody (side : Byte) : List Byte := wordBytes (stampOf 4808) ++ [side]

theorem wit_TurnsAndLeavesTakeEffect_1 : let s := hearing .running
    let one := wr F.SPAN_CFG_SIDES 1 s
    Heard kTURN (note 8 0 (turnBody 0)) .id s ∧ singleSided s = false ∧ byteAt (noteFields (note 8 0 (turnBody 0)) .id) 5 ≤ 1 ∧
    noteTick (stampAt (noteFields (note 8 0 (turnBody 0)) .id) 0) 8 s = .ok 4808 ∧
    (after (.turn (note 8 0 (turnBody 1))) s).byp.turns = [(4808, some .west)] ∧
    Heard kTURN_END (note 9 0 (wordBytes (stampOf 4808))) .id s ∧
    noteTick (stampAt (noteFields (note 9 0 (wordBytes (stampOf 4808))) .id) 0) 8 s = .ok 4808 ∧
    (after (.turnEnd (note 9 0 (wordBytes (stampOf 4808)))) s).byp.turns = [(4808, none)] ∧
    Heard kTURN (note 8 0 (turnBody 0)) .id one ∧ singleSided one = true ∧ cnt C.TURN_IGNORED (after (.turn (note 8 0 (turnBody 0))) one) = 1 := by
  unfold Heard; decide +kernel

/-- A TURN too near, and both notes where there is one side. -/
theorem wit_TurnsAndLeavesTakeEffect_4 : let s := hearing .running
    let one := wr F.SPAN_CFG_SIDES 1 s
    let n := note 8 0 (wordBytes (stampOf 4807) ++ [1])
    let e := note 9 0 (wordBytes (stampOf 4807))
    singleSided s = false ∧ noteTick (stampAt (noteFields n .id) 0) 8 s = .error nLATE ∧ Heard kTURN n .id s ∧
    byteAt (noteFields n .id) 5 ≤ 1 ∧ cnt C.TURN_LATE (after (.turn n) s) = 1 ∧
    noteTick (stampAt (noteFields e .id) 0) 8 s = .error nLATE ∧ Heard kTURN_END e .id s ∧
    cnt C.TURN_LATE (after (.turnEnd e) s) = 1 ∧ singleSided one = true ∧ Heard kTURN_END e .id one ∧
    cnt C.TURN_IGNORED (after (.turnEnd e) one) = 1 := by
  unfold Heard; decide +kernel

/-- An input that tracks frame tick 4800. -/
def at4800 (sd : Side) (s : State) : State :=
  setTrk sd (fun _ => { cyc8 := 100, tick := 0, seen := true }) (wr (match sd with | .west => F.REP_STATUS_W_TRACKING | .east => F.REP_STATUS_E_TRACKING) 1 s)

theorem wit_TurnsAndLeavesTakeEffect_2 : let s := at4800 .west (at4800 .east (hearing .running))
    let w := setByp (fun b => { b with turns := [(4800, some .west)] }) s
    let w0 := setByp (fun b => { b with turns := [(4800, some .west)] }) (hearing .running)
    let e := setByp (fun b => { b with turns := [(4800, none)] }) (wr F.BYPASS_STATUS_TURNED_W 1 s)
    let e0 := setByp (fun b => { b with turns := [(4800, none)] }) (hearing .running)
    dueTurn w = some (4800, some .west) ∧ singleSided w = false ∧ insertedState w.term = true ∧ markerFrom .east 4800 w = true ∧
    rd F.BYPASS_STATUS_TURNED_W (after (.turnEffective .west) w) = 1 ∧ dueTurn w0 = some (4800, some .west) ∧
    markerFrom .east 4800 w0 = false ∧ dueTurn e = some (4800, none) ∧ on (fTURNED (otherSide .west)) e = false ∧
    markerFrom .west 4800 e = true ∧ rd F.BYPASS_STATUS_TURNED_W (after (.turnEffective .west) e) = 0 ∧
    dueTurn e0 = some (4800, none) ∧ markerFrom .west 4800 e0 = false := by decide +kernel

/-- East carries valid rows, West none. -/
theorem wit_TurnsAndLeavesTakeEffect_5 :
    let a := setSpan .east (fun x => { x with rowsOk := true }) (wr (F.LANE_STATUS_WORD_LOCK (laneOf .east)) 1 (hearing .running))
    let b := after (.turnAuto .west) a
    let m := after (.tickMarker .east (rxw true 0xBC80647F9B) 0) b
    singleSided a = false ∧ on F.BYPASS_CFG_AUTO_TURN a = true ∧ insertedState a.term = true ∧ a.byp.ending = none ∧
    on (fTURNED .west) a = false ∧ on (fTURNED .east) a = false ∧ a.span.w.autoDue = false ∧ a.span.e.autoDue = false ∧
    (spanOf .west a).rowsOk = false ∧ (spanOf (otherSide .west) a).rowsOk = true ∧ Room a ∧ (spanOf .west b).autoDue = true ∧
    waits E.TURN_AUTO 1 b = true ∧ (tickMarker (rxw true 0xBC80647F9B)).isSome = true ∧ frmRuns b = true ∧ wordLock .east b = true ∧
    (spanOf (otherSide .east) b).autoDue = true ∧ on (fTURNED .west) m = true ∧ on F.BYPASS_STATUS_TURN_AUTO m = true := by
  unfold Room; decide +kernel

theorem wit_TurnsAndLeavesTakeEffect_3 : let s := hearing .running
    let n := note 10 0 (wordBytes (stampOf 4808))
    let tl := setByp (fun b => { b with tl := some 4800 }) s
    let lr := setByp (fun b => { b with leaveReq := some 256, leaveRep := 8 }) s
    Heard kLEAVE n .id s ∧ noteTick (stampAt (noteFields n .id) 0) 8 s = .ok 4808 ∧ (after (.leave n) s).byp.tl = some 4808 ∧
    tl.byp.tl = some 4800 ∧ insertedState tl.term = true ∧ tl.byp.ending = none ∧ lr.line % 48 = 0 ∧ tickDue 4800 tl.line = true ∧
    (after .leaving tl).term = .leaving ∧ lr.byp.leaveReq = some 256 ∧ (after .leaveReqTimeout lr).term = .leaving ∧
    8 ≤ lr.byp.leaveRep ∧ termId lr ≠ 0 ∧ lr.note.up.length < 16 ∧
    (after .leaveReqRepeat lr).note.up.map (fun u => u.type) = [nLEAVE_REQ] := by unfold Heard; decide +kernel

/-! ### The Span lanes and the repeater -/

/-- A lane with signal. -/
def lane0 (w : List (Fld × Nat)) : State := eachOf w (fun s x => wr x.1 x.2 s) (live .running [(F.LANE_STATUS_CDR_LOCK 0, 1), (F.LANE_STATUS_LOS 0, 0)])
def locked : State := lane0 [(F.LANE_STATUS_WORD_LOCK 0, 1), (F.REP_STATUS_W_TRACKING, 1), (F.REP_STATUS_W_FILLING, 0)]

/-- Four row markers on one boundary. -/
def fourRows : List RxWord := line (List.replicate 4 (true, 0x3C00000000))

theorem wit_LanesLockAndAdapt_1 :
    let carry := setSpan .west (fun x => { x with carried := true }) (lane0 [])
    rxRuns (laneOf .west) (lane0 []) = true ∧ on (F.LANE_STATUS_CDR_LOCK (laneOf .west)) (lane0 []) = true ∧
    on (F.LANE_STATUS_LOS (laneOf .west)) (lane0 []) = false ∧ wordLock .west (lane0 []) = false ∧
    fourCommas (spanOf .west (lane0 [])).carried (RxWord.chain fourRows) = true ∧
    wordLock .west (after (.wordLock .west fourRows) (lane0 [])) = true ∧
    fourCommas (spanOf .west carry).carried (RxWord.chain (fourRows.drop 1)) = true ∧
    fourCommas false (RxWord.chain (fourRows.drop 1)) = false ∧ wordLock .west (after (.wordLock .west (fourRows.drop 1)) (lane0 [])) = false ∧
    wordLock .west (after (.wordLock .west (fourRows.drop 1)) carry) = true := by
  decide +kernel

theorem wit_LanesLockAndAdapt_4 :
    let four := List.replicate 4 badw
    let l := after (.spanLos .west false false []) locked
    let c := eachOf [(F.LANE_STATUS_CDR_LOCK 0, 1), (F.SPAN_CFG_LOS_PIN_EN, 0)] (fun s x => wr x.1 x.2 s) l
    let p := wr F.SPAN_CFG_LOS_PIN_EN 0 locked
    let z := List.replicate 64 badw
    rxRuns (laneOf .west) locked = true ∧ wordLock .west locked = true ∧ Room locked ∧ (RxWord.chain four).length ≤ 1040 ∧
    16 ≤ ((RxWord.chain four).map RxWord.errors).sum ∧ wordLock .west (after (.wordLockLost .west (.errors four)) locked) = false ∧
    wordLock .west (after (.wordLockLost .west (.errors (four.drop 1))) locked) = true ∧
    waits E.WORD_LOCK_LOST 0 (after (.wordLockLost .west (.errors four)) locked) = true ∧ boundaryMoved [] [7, 7] = true ∧
    boundaryMoved [] [7, 0, 7] = false ∧ boundaryMoved [] [7, 8] = false ∧
    tracking .west (after (.wordLockLost .west (.commas [7, 7])) locked) = false ∧
    wordLock .west (after (.wordLockLost .west (.commas [7, 0, 7])) locked) = true ∧
    on (F.LANE_STATUS_LOS (laneOf .west)) locked = false ∧ waits E.SPAN_LOS 0 l = true ∧ countsNow locked = true ∧ cnt C.SPAN_LOS_W l = 1 ∧
    on F.SPAN_CFG_LOS_PIN_EN locked = true ∧ on (F.LANE_STATUS_LOS 0) (after (.spanLos .west true true []) locked) = true ∧
    on (F.LANE_STATUS_LOS 0) (after (.spanLos .west true true []) p) = false ∧
    64 ≤ (RxWord.chain z).length ∧ (∀ w ∈ RxWord.chain z, w.codeErr = true) ∧ on (F.LANE_STATUS_LOS 0) (after (.spanLos .west false true z) locked) = true ∧
    on (F.LANE_STATUS_LOS 0) (after (.spanLos .west false true (z.drop 1)) locked) = false ∧
    on (F.LANE_STATUS_LOS (laneOf .west)) l = true ∧ rxRuns (laneOf .west) c = true ∧ on (F.LANE_STATUS_CDR_LOCK (laneOf .west)) c = true ∧
    on F.SPAN_CFG_LOS_PIN_EN c = false ∧ (rxw false 5).codeErr = false ∧
    on (F.LANE_STATUS_LOS 0) (after (.lossOfSignalEnd .west true (rxw false 5)) c) = false ∧
    on (F.LANE_STATUS_LOS 0) (after (.lossOfSignalEnd .west true badw) c) = true := by
  unfold Room; decide +kernel

/-- A Span lane in RETENTION. -/
theorem wit_LanesLockAndAdapt_5 :
    let s := eachOf [(F.PWR_TARGET_STATE (laneDomain 0), 1), (F.LANE_STATUS_PEAK_NOW 0, 5)] (fun s x => wr x.1 x.2 s) (live .listening [])
    s.term ≠ .reset ∧ domState (laneDomain 0) s = 1 ∧ on (F.LANE_STATUS_CDR_LOCK 0) s = false ∧ laneReady 0 s = false ∧
    on (F.LANE_STATUS_CDR_LOCK 0) (after (.cdrLock 0) s) = true ∧ rd (F.LANE_STATUS_PEAK_NOW 0) (after (.cdrLock 0) s) = 5 := by decide +kernel

theorem wit_LanesLockAndAdapt_2 : let s := live .listening [(F.LANE_EQ_MODE 0, 2)]
    let sp : List (Option Nat) := [none, some 30, some 20, some 20] ++ List.replicate 12 none
    let u := wr (F.LANE_STATUS_ADAPT 0) 1 s
    let v := eachOf [(F.LANE_STATUS_ADAPT 0, 2), (F.LANE_STATUS_PEAK_NOW 0, 5)] (fun s x => wr x.1 x.2 s) s
    s.term ≠ .reset ∧ laneReady 0 s = true ∧ on (F.LANE_STATUS_CDR_LOCK 0) s = false ∧
    rd (F.LANE_STATUS_ADAPT 0) (after (.cdrLock 0) s) = 1 ∧ rd (F.LANE_STATUS_ADAPT 0) u = 1 ∧ sp.length = 16 ∧
    sp[2]? = some (some 20) ∧ rd (F.LANE_STATUS_PEAK_NOW 0) (after (.eqSweepDone 0 sp) u) = 2 ∧ countsNow u = true ∧
    cnt C.EQ_ADAPT_FAIL (after (.eqSweepDone 0 (List.replicate 16 none)) u) = 1 ∧ rd (F.LANE_STATUS_ADAPT 0) v = 2 ∧
    rd (F.LANE_STATUS_PEAK_NOW 0) v = 5 ∧ rd (F.LANE_STATUS_PEAK_NOW 0) (after (.eqTrack 0 90 100 95) v) = 4 ∧
    rd (F.LANE_STATUS_PEAK_NOW 0) (after (.eqTrack 0 95 100 90) v) = 6 ∧
    rd (F.LANE_STATUS_PEAK_NOW 0) (after (.eqTrack 0 91 100 91) v) = 5 := by decide +kernel

/-- The best setting of that sweep, for every other. -/
theorem wit_LanesLockAndAdapt_3 : ∀ j u : Nat, ([none, some 30, some 20, some 20] ++ List.replicate 12 none : List (Option Nat))[j]? = some (some u) →
    20 ≤ u ∧ (u = 20 → 2 ≤ j) := by
  intro j u h
  have hj : j < 16 := by
    have := (List.getElem?_eq_some_iff.mp h).1
    simpa using this
  interval_cases j <;> simp_all <;> omega

/-- A received Headland: idles, and the row marker that ends it. -/
def idles (n : Nat) : List RxWord := line (List.replicate n clearWord ++ [(true, 0x3C00000000)])

theorem wit_RepeaterKeepsItsStore : let head (o : BitVec 6) (hl : Nat) : Nat := (spanOf .west (after (.headlandDecision .west o (idles hl)) locked)).head.length
    let f := setSpan .west (fun x => { x with marker := true }) (wr F.REP_STATUS_W_FILLING 1 locked)
    let f0 := wr F.REP_STATUS_W_FILLING 1 locked
    let lit := setByp (fun b => { b with txdisW := false, txdisE := false }) locked
    rxRuns (laneOf .west) locked = true ∧ wordLock .west locked = true ∧ tracking .west locked = true ∧
    on (fFILLING .west) f = true ∧ (spanOf .west f).marker = true ∧ on (fFILLING .west) (after (.fillEnd .west 9) f) = false ∧
    (spanOf .west f0).marker = false ∧ on (fFILLING .west) (after (.fillEnd .west 9) f0) = true ∧
    on (fFILLING .west) locked = false ∧ (∀ o ∈ [(16 : BitVec 6), 8, 15, 17, 24, 7, 25], (head o 16, o) ∈
      [(16, (16 : BitVec 6)), (17, 8), (17, 15), (15, 17), (15, 24), (25, 7), (7, 25)]) ∧
    head 15 19 = 20 ∧ head 15 20 = 20 ∧ head 17 13 = 12 ∧ head 17 12 = 12 ∧ countsNow locked = true ∧
    Room locked ∧ on (fSLIP .west) (after (.headlandDecision .west 7 (idles 16)) locked) = true ∧
    feeds .west .west lit = false ∧ feeds .west .east lit = true ∧ sends .east lit = true ∧
    (after (.storeReset .west) lit).out.any (fun o => o == .wordsOut .east false [errorWord 1 lit]) = true ∧
    on (fFILLING .west) (after (.storeReset .west) lit) = true := by unfold Room; decide +kernel

/-! ### The tick frame -/

/-- Tick marker of cycle 0x12 (low bits) and tick 5 on the West input: DIR 0. -/
def marker5 : RxWord := rxw true 0xBC0512FAED

theorem wit_RowsAreTrackedAndSelected_1 : let s := locked
    let t := after (.tickMarker .west marker5 0) s
    let m1 := after (.tickMarkerMiss .west []) t
    let m3 := after (.tickMarkerMiss .west []) (after (.tickMarkerMiss .west []) m1)
    tickMarker marker5 = some (false, 5, 0x12) ∧ frmRuns s = true ∧ wordLock .west s = true ∧
    trkFrame .west t = { cyc8 := 0x12, tick := 5 } ∧ frmRuns t = true ∧ tracking .west t = true ∧ (trk .west t).misses < 3 ∧
    trkFrame .west m1 = { cyc8 := 0x12, tick := 6 } ∧ cnt C.TICK_MARKER_MISS_W m1 = 1 ∧ 3 ≤ (trk .west m3).misses ∧
    Room m3 ∧ tracking .west m3 = true ∧ tracking .west (after (.tickMarkerMiss .west []) m3) = false ∧
    waits E.TRACK_LOST 0 (after (.tickMarkerMiss .west []) m3) = true := by unfold Room; decide +kernel

/-- Row 0 of cycle 0x10012, tick 5, as it comes in on West: the marker, H0 to H7 and their check, zeros, the row check. -/
def hdrWords (h2 : Word) : List Word := [0x10012, h2, 0, 0, 0, 0, 0]
def row0 (hs : List Word) : List RxWord :=
  let hc : Word := BitVec.ofNat 40 (crc32 (toBytes hs) * 256)
  let body := 0xBC0512FAED :: hs ++ hc :: List.replicate 120 0
  line ((true, 0xBC0512FAED) :: (body.drop 1 ++ [BitVec.ofNat 40 (crc32 (toBytes body) * 256)]).map (fun w => (false, w)))
/-- P 4, HE_STATE 1, P_GEN 3. -/
def good0 : List RxWord := row0 (hdrWords (BitVec.ofNat 40 (5 * 2 ^ 34 + 1 * 2 ^ 30 + 4 * 2 ^ 26 + 3 * 2 ^ 22)))
def tracked : State := after (.tickMarker .west marker5 0) locked
def judged : State := after (.rowCheck .west 0 good0) tracked

set_option maxRecDepth 100000 in
theorem wit_RowsAreTrackedAndSelected_2 :
    frmRuns tracked = true ∧ wordLock .west tracked = true ∧ tracking .west tracked = true ∧ usedSide .west tracked = true ∧
    (judgeRow .west (0 : BitVec 5).toNat (chainRow (0 : BitVec 5).toNat good0) tracked).1 = .pass ∧ rowRec (trkFrame .west tracked) (0 : BitVec 5).toNat tracked = none ∧
    laterFrame tracked.frame.row0Last (trkFrame .west tracked) tracked = true ∧
    (rowRec { cyc8 := 0x12, tick := 5 } 0 judged).any (fun r => r.sel == some .west) = true ∧
    on F.FRAME_STATUS_ROW0_OK judged = true ∧ cnt C.SPAN_ROW_PICK_WEST judged = 1 := by decide +kernel

set_option maxRecDepth 100000 in
theorem wit_HeadersGiveTimeAndGenerations_1 : let t := after (.frameHeader .west good0) judged
    let ws := RxWord.chain good0
    let n := (ws.getD 1 RxWord.absent).data.toNat * 48 + fget (ws.getD 2 RxWord.absent).data 39 34
    let late := setFrame (fun x => { x with hdrFrame := some (frameOf (n + 1)) }) { judged with line := n + 1 }
    frmRuns judged = true ∧ usedSide .west judged = true ∧ headerSource .west ws judged = some 1 ∧
    hdrSettled (frameOf n) judged = false ∧ judged.frame.hdrFrame.any (fun g => lateTick n (absTick g judged)) = false ∧
    t.line = 0x10012 * 48 + 5 ∧ rd F.FRAME_STATUS_HE_STATE t = 1 ∧ rd F.TIME_STATUS_P t = 4 ∧ rd F.TIME_STATUS_P_GEN t = 3 ∧
    headerSource .west ws late = some 1 ∧ hdrSettled (frameOf n) late = false ∧
    late.frame.hdrFrame.any (fun g => lateTick n (absTick g late)) = true ∧ (after (.frameHeader .west good0) late).line = n + 1 := by
  decide +kernel

set_option maxRecDepth 100000 in
theorem wit_RowsAreTrackedAndSelected_3 : let f : FrameId := { cyc8 := 0x12, tick := 5 }
    let r : RowRec := { cyc8 := 0x12, tick := 5, row := 0, w := some .fail, e := some .fail, since := 0 }
    let s := setFrame (fun x => { x with rows := [r] }) tracked
    let x : RowRec := { cyc8 := 0x12, tick := 5, row := 0, e := some .pass, sel := some .east, since := 0 }
    let y := setFrame (fun z => { z with rows := [x] }) tracked
    rowRec f (0 : BitVec 5).toNat s = some r ∧ frmRuns s = true ∧ rowIsLost false r s = true ∧
    laterFrame s.frame.row0Last f s = true ∧ hdrSettled f s = false ∧ laterFrame s.frame.hdrFrame f s = true ∧
    cnt C.SPAN_ROW_LOST (after (.spanRowLost f 0 false) s) = 1 ∧ cnt C.HDR_LOST (after (.spanRowLost f 0 false) s) = 1 ∧
    on F.FRAME_STATUS_HDR_OK (after (.spanRowLost f 0 false) s) = false ∧
    (judgeRow .west (0 : BitVec 5).toNat (chainRow (0 : BitVec 5).toNat good0) y).1 = .pass ∧
    rowRec (trkFrame .west y) (0 : BitVec 5).toNat y = some x ∧ x.sel = some .east ∧
    (rowRec f 0 (after (.rowCheck .west 0 good0) y)).any (fun z => z.sel == some .east && z.w == some .pass) = true := by decide +kernel

theorem wit_HeadersGiveTimeAndGenerations_2 : let s := { live .running [(F.TIME_STATUS_P, 4), (F.TIME_STATUS_P_GEN, 15), (F.FRAME_GEN_KEY_GEN, 2)] with line := 100 }
    let p := setFrame (fun f => { f with pNext := some (100, 6) }) s
    let m := setFrame (fun f => { f with mapNext := some 100 }) s
    let k := setFrame (fun f => { f with keyNext := some 100 }) s
    p.frame.pNext = some (100, 6) ∧ tickDue 100 p.line = true ∧ 6 ≤ 15 ∧ rd F.TIME_STATUS_P (after (.generationEffective .p) p) = 6 ∧
    rd F.TIME_STATUS_P_GEN (after (.generationEffective .p) p) = 0 ∧ m.frame.mapNext = some 100 ∧
    rd F.FRAME_GEN_MAP_GEN (after (.generationEffective .map) m) = 1 ∧ k.frame.keyNext = some 100 ∧
    rd F.FRAME_GEN_KEY_GEN (after (.generationEffective .key) k) = 3 ∧ (after (.generationEffective .key) k).key.prevGen = 2 := by
  decide +kernel

/-- The express word of spec/05's worked example: K23.7 with bytes 11 05 31 1F, to terminal 17. -/
def express17 : RxWord := rxw true 0xF71105311F

theorem wit_ExpressWordActsOnce : let s := eachOf [(F.SEL_CFG_EXPRESS_EN, 1), (F.REG_STATUS_TERM_ID, 17)] (fun s x => wr x.1 x.2 s) locked
    let t := after (.expressWord .west express17 (portDir .west)) s
    let x := setFrame (fun f => { f with express := [(5, (3, 0))] }) { s with line := 6 }
    frmRuns s = true ∧ isK kExpress express17 = true ∧ badWord express17 = false ∧ on F.SEL_CFG_EXPRESS_EN s = true ∧ s.term = .running ∧
    tracking .west s = true ∧ Room s ∧ crc8 ((wordBytes express17.data).drop 1 |>.take 3) = wbyte express17.data 4 ∧
    wbyte express17.data 1 % 64 = termId s ∧ expressNew 5 3 s = true ∧ SMap.find t.frame.express 5 = some (3, 0) ∧
    expressNew 5 3 t = false ∧ cnt C.EXPRESS_DUP (after (.expressWord .west express17 (portDir .west)) t) = 1 ∧
    SMap.find x.frame.express (5 : BitVec 8).toNat = some (3, 0) ∧ 6 ≤ tickDiff x.line 0 ∧
    (after (.channelLastExpiry 5) x).frame.express = [] ∧ isK kExpress (rxw true 0xF711053120) = true ∧
    badWord (rxw true 0xF711053120) = false ∧ crc8 ((wordBytes (rxw true 0xF711053120).data).drop 1 |>.take 3) ≠ wbyte (rxw true 0xF711053120).data 4 ∧
    cnt C.EXPRESS_BAD (after (.expressWord .west (rxw true 0xF711053120) (portDir .west)) s) = 1 := by unfold Room; decide +kernel

/-! ### Upstream windows and the cipher -/

/-- A grant entry: TID, MASK 3, a window of 20 words at word 131, TAG 1, class. -/
def grant (tid cls : Nat) : Word := BitVec.ofNat 40 (tid * 2 ^ 34 + 3 * 2 ^ 32 + 131 * 2 ^ 19 + 20 * 2 ^ 11 + 1 * 2 ^ 4 + cls)
def granting : State := wr F.FRAME_STATUS_HE_STATE 1 (hearingAt 0 .running)
def oneWin (cls foot : Nat) : Win := { frame := { cyc8 := 0, tick := 1 }, id := 5, mask := 1, start := 131, foot, tag := 1, cls }

theorem wit_WindowsAreGrantedAndWritten_1 : let s := granting
    let f : FrameId := { cyc8 := 0, tick := 0 }
    let w : Win := { oneWin 1 20 with mask := 3 }
    let o := setWin (fun x => { x with wins := [w] }) s
    let two := setWin (fun x => { x with wins := [{ w with start := 300 }, { w with start := 500 }] }) s
    s.frame.row0Frame = some f ∧ frmRuns s = true ∧ s.term ≠ .listening ∧ (rowRec f 0 s).any (fun r => r.he == some 0) = false ∧
    gTid (grant 5 1) = s.frame.row0Id ∧ gTid (grant 5 1) = termId s ∧ gTid (grant 5 1) ≠ 0 ∧ gTid (grant 5 1) ≠ 63 ∧
    grantBad (grant 5 1) = false ∧ s.byp.ending = none ∧ s.term ∈ [TermState.admitted, .claiming, .ranging, .running] ∧
    (frameWins (frameOf (tickAdd (absTick f s) 1)) s).any (overlaps (gStart (grant 5 1)) (gFoot (grant 5 1))) = false ∧
    (frameWins (frameOf (tickAdd (absTick f s) 1)) s).length < 2 ∧ w ∈ (after (.grantMap [grant 5 1]) s).win.wins ∧
    (frameWins (frameOf (tickAdd (absTick f o) 1)) o).any (overlaps (gStart (grant 5 1)) (gFoot (grant 5 1))) = true ∧
    cnt C.GRANT_OVERLAP (after (.grantMap [grant 5 1]) o) = 1 ∧
    (frameWins (frameOf (tickAdd (absTick f two) 1)) two).any (overlaps (gStart (grant 5 1)) (gFoot (grant 5 1))) = false ∧
    2 ≤ (frameWins (frameOf (tickAdd (absTick f two) 1)) two).length ∧ cnt C.GRANT_EXCESS (after (.grantMap [grant 5 1]) two) = 1 ∧
    grant 63 1 ≠ 0 ∧ gTid (grant 63 1) = 63 ∧ cnt C.GRANT_MALFORMED (after (.grantMap [grant 63 1]) s) = 1 ∧
    gTid (grant 5 12) = s.frame.row0Id ∧ grantBad (grant 5 12) = true ∧ cnt C.GRANT_MALFORMED (after (.grantMap [grant 5 12]) s) = 1 ∧
    cnt C.GRANT_MALFORMED (after (.grantMap [0]) s) = 0 := by decide +kernel

/-- A burst waits for its West copy. -/
def held5 : Burst := { win := oneWin 0 5, words := [1, 2], toW := true, toE := false, since := 0 }
def burstHeld : State :=
  setWin (fun x => { x with bufs := setAt x.bufs 0 (some held5) }) (setTrk .west (fun _ => { cyc8 := 0, tick := 1 }) { locked with line := 1 })
def clear5 : List RxWord := line ([clearWord] ++ List.replicate 3 (false, 0) ++ [clearWord])

theorem wit_WindowsAreGrantedAndWritten_2 : let s := setWin (fun x => { x with wins := [oneWin 1 20] }) granting
    let r := after (.windowWrite .west 0 (some (portDir .west)) clear5) burstHeld
    let p := after (.windowWrite .west 0 none clear5) burstHeld
    nextWin s = some (oneWin 1 20) ∧ freeBuf 0 8 s = some 0 ∧ 8 ≤ s.win.bufs.length ∧
    ((after (.burstLock []) s).win.bufs.getD 0 none).any (fun b => b.words.length == 17) = true ∧
    burstHeld.win.bufs.getD 0 none = some held5 ∧ waitsOn .west held5 = true ∧ tracking .west burstHeld = true ∧
    trkFrame .west burstHeld = held5.win.frame ∧ on (fFILLING .west) burstHeld = false ∧ mayWrite held5 burstHeld = true ∧
    ((r.win.bufs.getD 0 none).all (fun b => b.wrote && !b.toW && !b.toE)) = true ∧ r.win.puts.map (fun o => (o.row, o.at_)) = [(1, 1)] ∧
    (none : Option Bool) ≠ some (portDir .west) ∧ (p.win.bufs.getD 0 none).any (fun b => !b.wrote && !b.toW) = true := by decide +kernel

theorem wit_WindowsAreGrantedAndWritten_3 : let s := burstHeld
    let p := after (.windowWrite .west 0 none clear5) s
    let o := { s with line := 3 }
    s.win.bufs.getD 0 none = some held5 ∧ stillWaits held5 s = true ∧ tickDiff s.line held5.since < 3 ∧
    (after (.burstBufferRelease 0) s).win.bufs.getD 0 none = some held5 ∧ 3 ≤ tickDiff o.line held5.since ∧
    o.win.bufs.getD 0 none = some held5 ∧ (after (.burstBufferRelease 0) o).win.bufs.getD 0 none = none ∧
    cnt C.WIN_WITHHELD (after (.burstBufferRelease 0) o) = 0 ∧ (p.win.bufs.getD 0 none).any (fun b => !stillWaits b p && !b.wrote && !b.refused) = true ∧
    countsNow p = true ∧ cnt C.WIN_WITHHELD (after (.burstBufferRelease 0) p) = 1 := by decide +kernel

/-- With the cipher's cores running. -/
def ciphering : State := live .running [(F.DRBG_STATUS_STATE, 1), (F.ENTROPY_STATUS_STATE, 2), (F.FRAME_GEN_KEY_GEN, 3)]

def twoJobs : List Job :=
  [{ up := true, tag := 1, obj := 2, blocks := 3, due := 0, core := some 0 },
   { up := false, tag := 1, obj := 2, blocks := 3, due := 0, core := some 1, words := some [] }]
def keysDue : State :=
  setKey (fun x => { x with expanding := [(35, 8)], slots := [(18, []), (34, []), (35, [])], eraseAt := [(9, 2)], jobs := twoJobs })
    { ciphering with bt := 9, line := 9 }

theorem wit_KeysCipherAndRandomness_1 : let s := keysDue
    (keyNo true (3 : BitVec 4).toNat, 8) ∈ s.key.expanding ∧ tickDue 8 s.bt = true ∧ (after (.keyReady true 3) s).key.expanding = [] ∧
    (9, 2) ∈ s.key.eraseAt ∧ tickDue 9 s.line = true ∧ (after .keyErase s).key.slots = [(35, [])] ∧ (after .keyErase s).key.eraseAt = [] ∧
    coresRun s = true ∧ jobOn 0 s = twoJobs[0]? ∧ (after (.cipherJobDone 0 0) s).key.jobs.map Job.done = [true, false] ∧
    jobOn 1 s = twoJobs[1]? ∧ (after (.cipherJobDone 1 0) s).key.jobs.length = 1 := by decide +kernel

/-- Samples of which every run is short and no value is common, and eleven equal ones. -/
def goodBytes (n : Nat) : List Byte := (List.range n).map (BitVec.ofNat 8)

theorem wit_KeysCipherAndRandomness_2 : let s := ciphering
    let d := wr F.DRBG_STATUS_SINCE_RESEED 64 s
    let stuck := List.replicate 11 (0 : Byte)
    let bias : List Byte := (List.range 354).map (fun k => if k % 2 = 0 then 0 else BitVec.ofNat 8 (k / 2))
    domOn dCIP s = true ∧ 2 ≤ rd F.ENTROPY_STATUS_STATE s ∧ countsNow s = true ∧ Room s ∧ s.key.entRaised = false ∧
    rctFails none 0 stuck = true ∧ rd F.ENTROPY_STATUS_STATE (after (.entropyFail stuck) s) = 3 ∧
    cnt C.ENTROPY_FAIL_RCT (after (.entropyFail stuck) s) = 1 ∧ rctFails none 0 bias = false ∧ aptFails bias = true ∧
    waits E.ENTROPY_FAIL 1 (after (.entropyFail bias) s) = true ∧ rd F.ENTROPY_STATUS_STATE (after (.entropyFail (goodBytes 40)) s) = 2 ∧
    drbgRuns d = true ∧ domOn dCIP d = true ∧ samplesPass 192 (goodBytes 192) = true ∧ samplesPass 192 (goodBytes 191) = false ∧
    rd F.ENTROPY_STATUS_STATE d = 2 ∧ rd F.DRBG_STATUS_STATE (after (.drbgReseed (goodBytes 191)) d) = 2 ∧
    rd F.DRBG_STATUS_SINCE_RESEED (after (.drbgReseed (goodBytes 191)) d) = 65 ∧
    rd F.DRBG_STATUS_SINCE_RESEED (after (.drbgReseed (goodBytes 192)) d) = 0 ∧ 64 ≤ rd F.DRBG_STATUS_SINCE_RESEED d ∧ Room d ∧
    rd F.DRBG_STATUS_STATE (after .drbgStopped d) = 3 := by unfold Room; decide +kernel

set_option maxRecDepth 100000 in
theorem wit_KeysCipherAndRandomness_4 : let x := wr F.DRBG_STATUS_STATE 3 (wr F.ENTROPY_STATUS_STATE 3 ciphering)
    rd F.DRBG_STATUS_STATE x = 3 ∧ domOn dCIP x = true ∧ samplesPass 1024 (goodBytes 1024) = true ∧
    rd F.DRBG_STATUS_STATE (after (.drbgReinstantiate (goodBytes 1024)) x) = 1 ∧ rd F.ENTROPY_STATUS_STATE x = 3 ∧
    rd F.ENTROPY_STATUS_STATE (after (.entropyRetestPass (goodBytes 1024)) x) = 2 := by decide +kernel

/-- SHA-256 of "abc" (FIPS 180-4), and an operation without randomness (R234). -/
theorem wit_KeysCipherAndRandomness_3 : let s := ciphering
    let x := wr F.DRBG_STATUS_STATE 3 s
    domOn dCIP s = true ∧ countsNow s = true ∧
    (after (.sigOpDone (.sha256 [0x61, 0x62, 0x63])) s).out = [.sigResult (bytesBE 32 0xba7816bf8f01cfea414140de5dae2223b00361a396177a9cb410ff61f20015ad) 0] ∧
    rd F.SIG_STATUS_LAST_OP (after (.sigOpDone (.sha256 [0x61, 0x62, 0x63])) s) = 1 ∧
    rd F.SIG_STATUS_LAST_STATUS (after (.sigOpDone .keyGen) x) = 6 ∧ cnt C.SIG_OP_FAIL (after (.sigOpDone .keyGen) x) = 1 := by decide +kernel

/-! ### Registration, ranging and time -/

/-- A point of P-256, its generator. -/
def genPoint : List Byte := bytesBE 32 0x6B17D1F2E12C4247F8BCE6E563A440F277037D812DEB33A0F4A13945D898C296 ++
  bytesBE 32 0x4FE342E2FE1A7F9B8EE7EB4A7C0F9E162BCE33576B315ECECBB6406837BF51F5

/-- A CLAIMING terminal with a house key. -/
def claiming : State :=
  setKey (fun x => { x with housePub := genPoint })
    (wr F.SEL_CFG_EXPRESS_EN 0 (wr F.DRBG_STATUS_STATE 1 (wr F.REG_STATUS_TERM_ID 0 (hearing .claiming))))

/-- Row 0 of the frame before the offered window was selected. -/
def claimReady : State := setRegn (fun r => { r with prepared := true, claimBody := List.replicate 197 1 })
  (setFrame (fun f => { f with
    disc := some { frame := frameOf 4801, start := 131, foot := 60 }
    rows := [{ cyc8 := 100, tick := 0, row := 0, w := some .pass, sel := some .west }] }) claiming)

/-- The second word of a discovery window: free, and taken. -/
def freeW : RxWord := rxw false 0
def takenW : RxWord := rxw true 0xFB0000FFFF

theorem wit_ClaimsGiveAndLoseTheID_1 : let s := setRegn (fun r => { r with preparing := true }) claiming
    let o : DiscOffer := { frame := frameOf 4801, start := 131, foot := 60 }
    let c := after (.claim (some takenW) (some freeW)) claimReady
    let b := setRegn (fun r => { r with backoff := 3 }) claimReady
    let x := setRegn (fun r => { r with claimTimer := some 16 }) claiming
    let p := setTrk .east (fun _ => { cyc8 := 100, tick := 1, seen := true })
      (eachOf [(F.REP_STATUS_E_TRACKING, 1), (F.REP_STATUS_E_FILLING, 0)] (fun s x => wr x.1 x.2 s) { c with line := 4801 })
    let q := after (.windowWrite .east 0 (some (portDir .east)) (line [clearWord])) p
    s.regn.preparing = true ∧ Machine.claiming s = true ∧ houseHeld s = true ∧ domOn dCIP s = true ∧ drbgRuns s = true ∧
    claimReady.frame.disc = some o ∧ claimReady.term = .claiming ∧
    claimReady.byp.ending = none ∧ claimFoot ≤ o.foot ∧ claimReady.regn.prepared = true ∧ houseHeld claimReady = true ∧
    claimOut claimReady = false ∧ claimReady.regn.backoff = 0 ∧ offerStands o claimReady = true ∧ takenBy freeW = false ∧
    takenBy takenW = true ∧ singleSided claimReady = false ∧ freeBuf 0 8 claimReady = some 0 ∧ 8 ≤ claimReady.win.bufs.length ∧
    c.frame.disc = none ∧ (c.win.bufs.getD 0 none).any (fun b => b.toE && !b.toW && b.win.id == 0) = true ∧
    0 < b.regn.backoff ∧ (after (.claim none none) b).regn.backoff = 2 ∧
    (p.win.bufs.getD 0 none).any (fun b => isClaim b && !b.wrote && waitsOn .east b && trkFrame .east p == b.win.frame) = true ∧
    tracking .east p = true ∧ on (fFILLING .east) p = false ∧ p.term = .claiming ∧ p.byp.ending = none ∧
    q.regn.claimTimer = some 0 ∧ cnt C.CLAIM_SENT q = 1 ∧
    x.regn.claimTimer = some 16 ∧ cnt C.CLAIM_RETRY (after .claimRetry x) = 1 := by decide +kernel

/-- An ASSIGN of ID 7: the nonce, the ID, an ephemeral key, a signature. -/
def assignBody : List Byte := [1, 2, 3, 4, 5, 7] ++ genPoint ++ List.replicate 64 9
def assignable : State := setRegn (fun r => { r with prepared := true }) (setReg R.CLAIM_NONCE 0x0102030405 claiming)

theorem wit_ClaimsGiveAndLoseTheID_2 : Heard kASSIGN (fpNote 2 0 assignBody) .fprint assignable ∧
    noteFields (fpNote 2 0 assignBody) .fprint = assignBody ∧ assignable.term = .claiming ∧ Room assignable ∧ Space assignable ∧
    1 ≤ byteAt assignBody 5 ∧ byteAt assignBody 5 ≤ 62 ∧ bytesWord (assignBody.take 5) = reg R.CLAIM_NONCE assignable ∧
    assignable.regn.lastAssign = none ∧ houseHeld assignable = true ∧ assignable.regn.prepared = true ∧
    pointStatus (bytesPoint (slice assignBody 6 64)).1 (bytesPoint (slice assignBody 6 64)).2 = sigOK := by
  refine ⟨fpNote_heard _ _ _ _ _ ?_ ?_ ?_ ?_ ?_ ?_, fpNote_fields _ _ _, ?_⟩
  all_goals first | decide +kernel | (unfold Room Space; decide +kernel)

theorem wit_ClaimsGiveAndLoseTheID_3 : let w : AssignWork := { nonce := [1, 2, 3, 4, 5], id := 7, eH := genPoint, sig := List.replicate 64 9 }
    let s := setRegn (fun r => { r with assignWork := some w }) { assignable with term := .ranging }
    s.regn.assignWork = some w ∧ domOn dCIP s = true ∧ countsNow s = true ∧ Room s := by unfold Room; decide +kernel

theorem wit_ClaimsGiveAndLoseTheID_4 : let s := setFrame (fun f => { f with subs := [{ cont := 1, dest := 1, param := 0 }] }) (hearing .running)
    let g := wr F.REG_STATUS_GRANT_IDLE 64 s
    Heard kRELEASE (note 3 0 []) .id s ∧ Room s ∧ (g.term = .ranging ∨ g.term = .running) ∧ termId g ≠ 0 ∧
    64 ≤ rd F.REG_STATUS_GRANT_IDLE g ∧ Room g := by unfold Room Heard; decide +kernel

/-- A dual-sided terminal on a closed ring with a fresh LOOP_GEN (the worked example of spec/06) and a full measurement
without an offset, both stores at 16. -/
def ranging (t : TermState) (le lw : Nat) : State :=
  setFrame (fun f => { f with loopE := le, loopW := lw })
    (setRegn (fun r => { r with loopFresh := true, meas := { n := 48, last := 4847, d := 0, oW := 768, oE := 768 } })
      (wr F.RANGE_STATUS_MEASURING 1 (hearing t)))

theorem wit_RangingReportsItsResult : let s := ranging .ranging 100000 300000
    let t := after .rangeResult s
    let b := [1, 2]
    let r := setRegn (fun x => { x with report := some b, reportRep := 8 }) s
    let k := wr F.RANGE_STATUS_REPORT_SEQ 9 r
    on F.RANGE_STATUS_MEASURING s = true ∧ (s.term = .ranging ∨ s.term = .running) ∧ (measured s).isSome = true ∧
    measured (hearing .ranging) = none ∧
    rd F.RANGE_STATUS_MEASURING t = 0 ∧ rd F.RANGE_STATUS_REPORT_SEQ t = 1 ∧ t.regn.pendRange.isSome = true ∧ r.regn.report = some b ∧
    on F.RANGE_STATUS_ACKED r = false ∧ 8 ≤ r.regn.reportRep ∧ Space r ∧ (after .rangeReportRepeat r).note.up.map (fun u => u.type) = [nRANGE_REPORT] ∧
    Heard kRANGE_OK (note 4 0 [9]) .id k ∧ k.regn.report = some b ∧ byteAt (noteFields (note 4 0 [9]) .id) 0 = rd F.RANGE_STATUS_REPORT_SEQ k ∧
    (after (.rangeOk (note 4 0 [9])) k).term = .running ∧ Heard kRANGE_RETRY (note 5 1 []) .id k ∧
    (after (.rangeRetry (note 5 1 [])) k).note.up.map (fun u => u.body) = [[1, 5, 0]] ∧ Heard kRANGE_ADJ (note 6 2 [1, 2]) .id k ∧
    rd F.RANGE_STATUS_ASYM (after (.rangeAdj (note 6 2 [1, 2])) k) = 258 := by unfold Heard Space; decide +kernel

theorem wit_TimeIsKept_1 : let s := eachOf [(F.TIME_STATUS_RANGED, 1), (F.RANGE_STATUS_MEASURING, 0)] (fun s x => wr x.1 x.2 s) (ranging .running 100000 300000)
    let x := (measured s).getD { dE := 0, dW := 0, mode := 9, d := 0, r := 0 }
    let j := setRegn (fun r => { r with jumps := 7 }) s
    let n := wr F.RANGE_E_D (ofSigned 24 (x.dE - 100)) (wr F.RANGE_W_D (ofSigned 24 x.dW) s)
    let o := setFrame (fun f => { f with loopW := 0 }) s
    let y := (measured o).getD { dE := 0, dW := 0, mode := 9, d := 0, r := 0 }
    let oc := wr F.RANGE_E_D (ofSigned 24 y.dE) (wr F.RANGE_W_D 77 o)
    s.term = .running ∧ on F.RANGE_STATUS_MEASURING s = false ∧ on F.TIME_STATUS_RANGED s = true ∧ measured s = some x ∧
    anyHeld s = false ∧ x.mode = 0 ∧ 128 < (x.dE - delayE s).natAbs ∧ s.regn.jumps < 7 ∧ cnt C.RANGE_JUMP (after .rangeRecompute s) = 1 ∧
    measured j = some x ∧ 7 ≤ j.regn.jumps ∧ (after .rangeRecompute j).regn.pendRange.any (fun r => r.step) = true ∧
    measured n = some x ∧ (x.dE - delayE n).natAbs ≤ 128 ∧ (x.dW - delayW n).natAbs ≤ 128 ∧ (after .rangeRecompute n).regn.slewE = 100 ∧
    measured oc = some y ∧ y.mode ≠ 0 ∧ (y.dE - delayE oc).natAbs ≤ 128 ∧ rd F.RANGE_W_D (after .rangeRecompute oc) = 0 := by decide +kernel

theorem wit_TimeIsKept_4 : let g := setSpan .west (fun x => { x with dev := some 200 }) (wr F.REP_STATUS_E_TRACKING 1 tracked)
    let l := wr F.REP_STATUS_E_TRACKING 0 g
    let n := setSpan .west (fun x => { x with dev := some (-128) }) g
    let h := setRegn (fun r => { r with heldE := some { cycles := 32 } }) (hearing .running)
    (spanOf .west g).dev = some 200 ∧ frmRuns g = true ∧ tracking .west g = true ∧ 128 < (200 : Int).natAbs ∧ Room g ∧
    heldSide .west (after (.delayStep .west) g) = true ∧ rd F.TIME_STATUS_FLYWHEEL (after (.delayStep .west) g) = 0 ∧
    waits E.DELAY_STEP 0 (after (.delayStep .west) g) = true ∧ dirHeld (otherSide .west) l = true ∧
    rd F.TIME_STATUS_FLYWHEEL (after (.delayStep .west) l) = 1 ∧ (spanOf .west n).dev = some (-128) ∧ (-128 : Int).natAbs ≤ 128 ∧
    heldSide .west (after (.delayStep .west) n) = false ∧ h.regn.heldE = some { cycles := 32 } ∧ h.regn.heldW = none ∧
    countsNow h = true ∧ cnt C.DELAY_STEP_STALE (after .delayStepStale h) = 1 := by unfold Room; decide +kernel

theorem wit_TimeIsKept_2 : let s := setFrame (fun f => { f with noMarker := 4 }) (hearing .running)
    let f := setFrame (fun x => { x with hdrFrame := some (trkFrame .west tracked) })
      (setRegn (fun r => { r with flyPrior := some .running }) { wr F.FRAME_STATUS_HDR_OK 1 tracked with term := .flywheel })
    s.term ∈ [TermState.admitted, .claiming, .ranging, .running] ∧ 4 ≤ s.frame.noMarker ∧ Room s ∧
    (after .flywheelEntry s).term = .flywheel ∧ waits E.FLYWHEEL_IN 0 (after .flywheelEntry s) = true ∧
    f.regn.flyPrior = some .running ∧ f.term = .flywheel ∧ headerBack f = true ∧ f.regn.bothHeld = false ∧
    (after (.flywheelExit 0) f).term = .running := by unfold Room; decide +kernel

theorem wit_TimeIsKept_3 : let s := hearing .running
    let n := allNote 7 1 (List.replicate 17 1)
    Heard kTIME_MAP n .all s ∧ on F.TAI_ORIGIN_NS_VALID s = false ∧ beNat (slice (noteFields n .all) 10 4) < 1000000000 ∧
    (after (.timeMap n) s).regn.pendTime = some (List.replicate 17 1, 1) := by unfold Heard; decide +kernel

/-! ### Notes -/

/-- The example of RFC 3394, section 4.6. -/
def wrapKek : List Byte := bytesBE 32 0x000102030405060708090A0B0C0D0E0F101112131415161718191A1B1C1D1E1F
def wrapped : List Byte := bytesBE 40 0x28C9F404C4B810F4CBCCB35CFB87F8263F5786E2D80ED326CBC7F0E71A99F43BFB988B9B7A02DD21
def unwrapped : List Byte := bytesBE 32 0x00112233445566778899AABBCCDDEEFF000102030405060708090A0B0C0D0E0F

set_option maxRecDepth 100000 in
theorem test_keyUnwrap : keyUnwrap wrapKek wrapped = some unwrapped := by decide +kernel

theorem wit_NotesAreJudgedAndAnswered_1 : let s := hearing .running
    let n := note 0x50 3 []
    let u := { s with note := { s.note with up := [{ type := nSTATUS, seq := 0, body := [], age := 64 }, { type := nSTATUS, seq := 0, body := [], age := 3 }] } }
    parsing s = true ∧ fget 0x0040000000 39 32 = 0 ∧ (after (.noteMalformed 0x0040000000 0) s).frame.regionStopped = true ∧
    cnt C.NOTE_MALFORMED (after (.noteMalformed 0x0040000000 0) s) = 0 ∧ fget 0x0145000000 39 32 ≠ 0 ∧ headerBad (fget 0x0140000000 31 30) (fget 0x0140000000 29 24) (fget 0x0140000000 15 6) = true ∧
    (after (.noteMalformed 0x0140000000 0) s).frame.regionStopped = true ∧ cnt C.NOTE_MALFORMED (after (.noteMalformed 0x0140000000 0) s) = 1 ∧
    1 < (fget 0x0105000180 15 6 + 4) / 5 ∧ cnt C.NOTE_MALFORMED (after (.noteMalformed 0x0105000180 1) s) = 1 ∧
    n.type ≠ 0 ∧ n.type.toNat ∉ listedTypes ∧ headerBad n.mode.toNat n.id.toNat n.len.toNat = false ∧ addressed n s = some .id ∧
    n.seq ≠ 0 ∧ s.term ≠ .leaving ∧ lastSeq .id s ≠ some n.seq.toNat ∧ Space s ∧ cnt C.NOTE_UNKNOWN (after (.noteUnknown n) s) = 1 ∧
    rd F.NOTE_SEQ_LAST_STATUS (after (.noteUnknown n) s) = nUNKNOWN ∧ countsNow u = true ∧ cnt C.NOTE_UP_EXPIRED (after .noteUpExpired u) = 1 ∧
    (after .noteUpExpired u).note.up.map (fun x => x.age) = [3] := by unfold Space; decide +kernel

/-- A MAP_DESC of generation 0 with one descriptor, number 2. -/
def descNote (g : Byte) : Note := allNote 11 0 [g, 0, 2, 0, 1, 1, 2, 3, 4, 5]

theorem wit_MapsAndSubscriptions_1 : let s := hearing .running
    let d := after (.mapDesc (descNote 0)) s
    let q := after (.mapReq false) s
    let p := setFrame (fun f => { f with mapNext := some 4808 }) s
    Heard kMAP_DESC (descNote 0) .all s ∧ Heard kMAP_DESC (descNote 1) .all s ∧ beNat (slice (noteFields (descNote 0) .all) 1 2) ≤ 1023 ∧
    1 ≤ descCount (noteFields (descNote 0) .all) ∧ descCount (noteFields (descNote 0) .all) ≤ 44 ∧ s.frame.mapNext = none ∧
    byteAt (noteFields (descNote 0) .all) 0 % 16 = rd F.FRAME_GEN_MAP_GEN s ∧ s.frame.curMap.complete = false ∧
    d.frame.curMap.descs = [(2, 0x0102030405)] ∧ byteAt (noteFields (descNote 1) .all) 0 % 16 ≠ rd F.FRAME_GEN_MAP_GEN s ∧
    cnt C.MAP_DESC_STALE (after (.mapDesc (descNote 1)) s) = 1 ∧ mapReqDue false s = true ∧ s.frame.curReq = none ∧ Space s ∧
    q.note.up.map (fun u => (u.type, u.body)) = [(nMAP_REQ, [0, 0xFF, 0xFF, 0xFF])] ∧ mapReqDue true p = true ∧ p.frame.pendReq = none ∧
    (after (.mapReq true) p).note.up.map (fun u => u.body) = [[1, 0xFF, 0xFF, 0xFF]] := by unfold Heard Space; decide +kernel

/-- SUBSCRIBE of container 48 to the bypass-free destination 1, PARAM 3, at line tick 4808 (the header of spec/07 has 2
entries; this one has one). -/
def subBody (e : Word) : List Byte := wordBytes (stampOf 4808) ++ wordBytes e
def subGood : Word := fput (fput (fput (fput 0 39 30 48) 29 28 1) 27 20 1) 19 0 3
def subBad : Word := fput subGood 19 0 16

theorem test_subscribeHeader : fput (fput (fput (fput (fput 0 39 32 12) 31 30 0) 29 24 23) 23 16 0x2A) 15 6 10 = 0x0C172A0280 := by decide +kernel

theorem wit_MapsAndSubscriptions_2 : let s := hearing .running
    let n := note 12 2 (subBody subGood)
    let b := note 12 2 (subBody subBad)
    Heard kSUBSCRIBE n .id s ∧ Space s ∧ noteTick (stampAt (noteFields n .id) 0) 2 s = .ok 4808 ∧
    toWords ((noteFields n .id).drop 5) = [subGood] ∧ entryOk 4808 subGood (noted n s) = true ∧ s.frame.subStage = [] ∧
    axesOnce (subNote s.frame.subs { t := 4808, entries := [subGood] }) = true ∧
    (subNote s.frame.subs { t := 4808, entries := [subGood] }).length ≤ 128 ∧
    (after (.subscribe n) s).frame.subStage = [{ t := 4808, entries := [subGood] }] ∧
    Heard kSUBSCRIBE b .id s ∧ noteTick (stampAt (noteFields b .id) 0) 2 s = .ok 4808 ∧ subBad ∈ toWords ((noteFields b .id).drop 5) ∧
    entryOk 4808 subBad (noted b s) = false ∧ rd F.NOTE_SEQ_LAST_STATUS (after (.subscribe b) s) = nBAD_VALUE := by
  unfold Heard Space; decide +kernel

set_option maxRecDepth 100000 in
theorem wit_KeysSettingsAndProfilesArrive_1 : let s := hearing .running
    let w := putSlot 3 wrapKek s
    let n := note 13 2 ([1, 0, 0, 0, 0] ++ wrapped)
    Heard kKEY_LOAD n .id s ∧ keySlot 3 s = none ∧ (after (.keyLoad n) s).note.heldKey = some n ∧ Heard kKEY_LOAD n .id w ∧ Space w ∧
    keySlot 3 w = some wrapKek ∧ byteAt (noteFields n .id) 0 = (rd F.FRAME_GEN_KEY_GEN w + 1) % 16 ∧ byteAt (noteFields n .id) 1 ≤ 1 ∧
    slice (noteFields n .id) 2 3 = [0, 0, 0] ∧ slice (noteFields n .id) 5 40 = wrapped := by
  unfold Heard Space; decide +kernel

/-- A MOTION_PROFILE of one segment. -/
def profNote : Note := note 15 2 ([1, 3, 0, 1] ++ [0, 9, 0, 0, 0, 5, 0, 0, 0, 7])

theorem wit_KeysSettingsAndProfilesArrive_2 : let s := hearing .running
    let hp := note 14 2 [0, 1, 0, 0, 0]
    let n := note 14 2 [0x80, 0x02, 0, 0, 8, 1, 2, 3, 4, 5, 6, 7, 8]
    Heard kSETTING hp .id s ∧ Space s ∧ beNat (slice (noteFields hp .id) 0 2) = 1 ∧
    rd F.NOTE_SEQ_LAST_STATUS (after (.setting hp) s) = nREFUSED ∧ Heard kSETTING n .id s ∧
    settingBad (beNat (slice (noteFields n .id) 0 2)) ((noteFields n .id).drop 5) = false ∧ beNat (slice (noteFields n .id) 0 2) ≠ 1 ∧
    isPreset (beNat (slice (noteFields n .id) 0 2)) = false ∧ (noteFields n .id).drop 5 ≠ [] ∧ nbit (byteAt (noteFields n .id) 2) 0 = false ∧
    (after (.setting n) s).glean.live.length = 1 ∧ Heard kMOTION_PROFILE profNote .id s ∧ byteAt (noteFields profNote .id) 0 ≤ 1 ∧
    byteAt (noteFields profNote .id) 1 ≤ 7 ∧ byteAt (noteFields profNote .id) 2 + byteAt (noteFields profNote .id) 3 ≤ 64 ∧
    (∀ g ∈ segsOf (noteFields profNote .id), g.dur ≠ 0) ∧ axState (byteAt (noteFields profNote .id) 0) s ≠ xPROFILE ∧ s.mot.axes.length = 2 ∧
    ((profileOf 1 3 (after (.motionProfile profNote) s)).2.take 1).map (fun g => g.dur) = [9] := by
  unfold Heard Space; decide +kernel

/-- A layout with a verified staged image of CAR_ID 4, version 9. -/
def staged9 : State := eachOf [(F.FLASH_INFO_LAYOUT_OK, 1), (F.GLEAN_STATUS_STATE, iVERIFIED), (F.GLEAN_STATUS_CAR_ID, 4),
  (F.IMAGE_STAGED_VERSION, 9), (F.IMAGE_RUNNING_VERSION, 8), (F.BOOT_STATUS_SOURCE, 2)] (fun s x => wr x.1 x.2 s) (hearing .running)
def trial9 : State := wr F.IMAGE_RUNNING_VERSION 9 (wr F.IMAGE_RUNNING_TRIAL 1 staged9)
def imgNote (act : Byte) (w : Word) : Note := note 17 2 (wordBytes w ++ [act, 4, 0, 0, 0, 9])

theorem wit_OrdersAreStaged_1 : let s := hearing .running
    let p := note 16 2 (wordBytes (stampOf 4808) ++ List.replicate 6 0xFF)
    let r := note 18 2 (wordBytes (stampOf 4808))
    let x : Staged := { t := 4800, op := .softReset }
    let d := { s with staged := [x] }
    Heard kPOWER_ORDER p .id s ∧ noteTick (stampAt (noteFields p .id) 0) 2 s = .ok 4808 ∧ Space s ∧ s.pwr.reqs = [] ∧
    refusedSet (resultingSet (some (orderTargets (noteFields p .id))) (noted p s)) (noted p s) = 0 ∧
    (after (.powerOrder p) s).pwr.reqs.length = 1 ∧ Heard kRESET_ORDER r .id s ∧ noteTick (stampAt (noteFields r .id) 0) 8 s = .ok 4808 ∧
    (after (.resetOrder r) s).staged = [{ t := 4808, op := .softReset }] ∧ x ∈ d.staged ∧ resetDue d x = true ∧
    (after .resetOrderDue d).boot.softPending = true := by
  unfold Heard Space; decide +kernel

theorem wit_OrdersAreStaged_2 : let n := imgNote 1 (stampOf 4808)
    Heard kIMAGE_ORDER n .id staged9 ∧ noteTick (stampAt (noteFields n .id) 0) 2 staged9 = .ok 4808 ∧ Space staged9 ∧
    byteAt (noteFields n .id) 5 = 1 ∧
    swapAllowed (some (byteAt (noteFields n .id) 6)) (some (beNat (slice (noteFields n .id) 7 4))) (noted n staged9) = true ∧
    staged9.glean.swap = none ∧ (after (.imageOrderSwap n) staged9).glean.swap = some (4808, 7) ∧
    (∀ a ∈ [(2 : Byte), 3], Heard kIMAGE_ORDER (imgNote a 0) .id trial9 ∧ stampAt (noteFields (imgNote a 0) .id) 0 = 0 ∧
      trialOf (noteFields (imgNote a 0) .id) (noted (imgNote a 0) trial9) = true ∧ byteAt (noteFields (imgNote a 0) .id) 5 = a.toNat) ∧
    rd F.IMAGE_RUNNING_TRIAL (after (.imageOrderConfirm (imgNote 2 0)) trial9) = 0 ∧
    (after (.imageOrderRevert (imgNote 3 0)) trial9).boot.softPending = true := by unfold Heard Space; decide +kernel

theorem wit_NotesAreJudgedAndAnswered_2 : let s := hearing .running
    let q := note 19 2 []
    let m := note 32 2 [1, 2]
    let h := wr F.RING_MODE_HOSTLESS 1 s
    let g := wr F.RING_MODE_HOSTLESS 0 s
    Heard kSTATUS_REQ q .id s ∧ Space s ∧ (after (.statusReq q) s).note.up.map (fun u => u.type) = [nSTATUS, nIMAGE_STATUS] ∧
    Heard kHOST_MSG_DN m .id h ∧ Space h ∧ hostless h = true ∧ cnt C.HOST_MSG_NOHOST (after (.hostMsgDn m) h) = 1 ∧
    Heard kHOST_MSG_DN m .id g ∧ Space g ∧ hostless g = false ∧ domOn dQSC g = true ∧
    rd F.NOTE_SEQ_LAST_STATUS (after (.hostMsgDn m) g) = nDONE ∧ (after (.hostMsgDn m) g).note.up.length = 1 := by
  unfold Heard Space; decide +kernel

/-! ### Thresher, Granary -/

/-- A packet of local port 0 and its class. -/
def frame64 : Packet := { tag := 5000, src := 1, cls := 2, cont := 0, bytes := List.replicate 64 0x11 }

/-- The key profile 0 makes of it, the default profile having no fields. -/
def keyOf (s : State) : Nat := makeKey (reg (R.TH_PROFILE 0) s) 2 1 0 frame64.bytes (parsePacket frame64.bytes) (metaIn 2 1 0)

/-- A terminal with one packet waiting and an entry for it. -/
def classed (act : Word) : State :=
  let s := wr ⟨R.TH_CLASS_CFG 2, 39, 39⟩ 1 (live .running [])
  setTable 0 (putEntry [] (placeOf 0 (bucketOf 0 0 (keyOf s)) 1) { add := false, del := false, profile := 0, key := keyOf s, action := act, md := 7 })
    { s with th := { s.th with work := [frame64] } }

theorem wit_PacketsAreClassified : let o := { live .running [] with th := { (live .running []).th with work := [frame64] } }
    let off := wr ⟨R.TH_CLASS_CFG 2, 39, 39⟩ 0 o
    let d := classed (fput 0 39 37 1)
    let f := classed (fput 0 36 29 70)
    let c := regFor frame64.tag (R.TH_CLASS_CFG frame64.cls) d
    let e := (lookup 0 0 (keyOf f) frame64.tag f).getD { add := false, del := false, profile := 9, key := 0, action := 0, md := 0 }
    domOn dTHR off = true ∧ off.th.work = [frame64] ∧ countsNow off = true ∧ fget (regFor frame64.tag (R.TH_CLASS_CFG 2) off) 39 39 = 0 ∧
    cnt C.TH_CLASS_OFF (after .thresherPacket off) = 1 ∧ domOn dTHR d = true ∧ d.th.work = [frame64] ∧ countsNow d = true ∧ fget c 39 39 = 1 ∧
    (parsePacket frame64.bytes).fail = none ∧ regFor frame64.tag (R.TH_PROFILE (fget c 15 12)) d = reg (R.TH_PROFILE 0) d ∧
    (lookup (fget c 29 28) (fget c 15 12) (keyOf d) frame64.tag d).any (fun e => fget e.action 39 37 == 1) = true ∧
    cnt C.TH_DROP (after .thresherPacket d) = 1 ∧ f.th.work = [frame64] ∧ regFor frame64.tag (R.TH_CLASS_CFG frame64.cls) f = c ∧
    lookup (fget c 29 28) (fget c 15 12) (keyOf f) frame64.tag f = some e ∧ fget e.action 39 37 = 0 ∧ fget e.action 20 20 = 0 ∧
    fget e.action 36 29 = 70 ∧ qExists 70 = true ∧ f.q.flushed = [] ∧ qEnabled 70 f = true ∧
    (extend (sinkOf 70) (cellsOf frame64.bytes.length)
      (cellsOf (vlanOp (fget e.action 19 18) (fget e.action 17 6) (fget e.action 5 3) (parsePacket frame64.bytes) frame64.bytes).length) f).isSome = true ∧
    qCells 70 f + cellsOf 64 ≤ qLimit 70 f ∧ (qItems 70 (after .thresherPacket f)).map (fun i => (i.bytes.length, i.md)) = [(64, 7)] ∧
    domOn dTHR (st .running []) = false := by
  decide +kernel

/-- A host engine that runs, with one command waiting, CSEQ 1 the next. -/
def commanded (t : TermState) (w : List (Fld × Nat)) : State :=
  setProd ringCMD 1 (eachOf (w ++ [(F.HRE_CTRL_STATE, 1), (F.CMD_CFG_ENABLE, 1), (F.CMD_CFG_LOG2SIZE, 6)])
    (fun s x => wr x.1 x.2 s) (live t []))

def hdr1 : CmdHdr := { cseq := 1, irq := false }

/-- SET, DELETE and COMMIT of key 9 under profile 3 in table 1. -/
def upd (op : Nat) : List Word := [fput (fput (fput 0 39 36 op) 35 34 1) 33 30 3, 0, 0, fput 0 39 16 9, 5, 6]

theorem wit_TablesAreUpdatedAtTheirTick : let s := commanded .running []
    let a := after (.thUpdateSet hdr1 (upd 1)) s
    let old : TEntry := { add := false, del := false, profile := 3, key := 9, action := 5, md := 6 }
    let p := placeOf 0 (bucketOf 0 3 9) 0
    let d := setTable 1 (putEntry [] p old) s
    let c := wr F.TH_UPDATE_STATUS_STATE 1 s
    let w := { (wr F.TH_UPDATE_STATUS_STATE 1 a) with th := { a.th with commitT := some 0 }, line := 2 }
    Due hdr1 s ∧ domOn dTHR s = true ∧ opReserved (upd 1) = false ∧ batchOpen s = true ∧ s.th.tables.length = 4 ∧
    updTable (upd 1) = 1 ∧ updProfile (upd 1) = 3 ∧ updKey (upd 1) = 9 ∧ findEntry (tableOf 1 s) 3 9 (fun _ => true) = none ∧
    freeIn (tableOf 1 s) 0 (bucketOf 0 3 9) = some p ∧ (tableOf 1 a).length = 1 ∧ rd F.TH_UPDATE_STATUS_OPS a = 1 ∧
    Due hdr1 d ∧ findEntry (tableOf 1 d) 3 9 (fun e => e.add) = none ∧ findEntry (tableOf 1 d) 3 9 (fun e => !e.del) = some (p, old) ∧
    (tableOf 1 (after (.thUpdateDelete hdr1 (upd 2)) d)).map (fun e => e.2.del) = [true] ∧
    rd F.TH_UPDATE_STATUS_STATE s = 0 ∧ stampOk ((upd 3).getD 1 0) = true ∧ 1 ≤ tickDiff (nextTick s) s.bt ∧
    (after (.thUpdateCommit hdr1 (upd 3)) s).th.commitT = some 1 ∧ Due hdr1 c ∧ rd F.TH_UPDATE_STATUS_STATE c ≠ 0 ∧
    domOn dTHR w = true ∧ w.th.commitT = some 0 ∧ rd F.TH_UPDATE_STATUS_STATE w = 1 ∧ settled 0 w = true ∧ (∀ p ∈ w.th.work, 0 ≤ tickDiff p.tag 0) ∧
    settled 0 { w with line := 1 } = false ∧
    (after .tableSweep w).th.tables.map (fun t => t.map (fun e => e.2.add)) = [[], [false], [], []] ∧
    rd F.TH_UPDATE_STATUS_STATE (after .tableSweep w) = 2 ∧ rd F.TH_UPDATE_STATUS_STATE (after .tableSweepDone (after .tableSweep w)) = 0 := by
  unfold Due; decide +kernel

/-- An item of queue `q` with a deadline. -/
def itemDue (d : Nat) : Item :=
  { deadline := d, md := 0, colour := 3, csum := false, src := 1, pflags := 0, cont := 0, tag := 0, bytes := [1], cells := 1 }

theorem wit_QueuesExpireAndRecordsAreWritten_1 : let s := setItems 70 [itemDue 4, itemDue 9] { live .running [] with bt := 5 }
    let h := { s with q := { s.q with hold := [(0, 0)] } }
    domOn dQSC s = true ∧ (qItems 70 (after .deadlineDiscard s)).map (fun i => i.deadline) = [9] ∧ cnt C.DEADLINE_DROP_ETH (after .deadlineDiscard s) = 1 ∧
    ((0 : Fin 6).val, 0) ∈ h.q.hold ∧ on (F.ETH_STATUS_LINK 0) h = false ∧ Room h ∧
    (after (.holddownFlush 0) h).q.queues = [] ∧ cnt C.HOLDDOWN_FLUSH (after (.holddownFlush 0) h) = 2 := by
  unfold Room; decide +kernel

/-- OBJ 3, INDEX 7. -/
def indSel : Word := fput (fput 0 38 36 3) 35 28 7

theorem wit_QueuesExpireAndRecordsAreWritten_2 : let s := live .running []
    let low : List Word := [fput 0 39 8 6, fput 0 39 8 5, 0]
    let bad := setReg R.QM_IND_DATA0 (fput 0 39 8 5) s
    let r := { s with q := { s.q with ind := some { write := false, obj := 3, idx := 7 } } }
    mayWriteReg R.QM_IND_SEL s = true ∧ on F.RUN_CTRL_RUN s = false ∧
    indWritable (fget indSel 38 36) (fget indSel 35 28) [reg R.QM_IND_DATA0 s, reg R.QM_IND_DATA1 s, reg R.QM_IND_DATA2 s] = true ∧
    (after (.qmIndWrite .pcie indSel) s).staged = [{ t := 1, op := .qmWrite 3 7 [0, 0, 0] }] ∧
    indWritable (fget indSel 38 36) (fget indSel 35 28) [reg R.QM_IND_DATA0 bad, reg R.QM_IND_DATA1 bad, reg R.QM_IND_DATA2 bad] = false ∧
    rd F.QM_IND_SEL_ERR (after (.qmIndWrite .pcie indSel) bad) = 1 ∧ indInRange (fget indSel 38 36) (fget indSel 35 28) = true ∧
    rd F.QM_IND_SEL_BUSY (after (.qmIndRead .mgmt indSel) s) = 1 ∧ r.q.ind = some { write := false, obj := 3, idx := 7 } ∧
    fget (low.getD 1 0) 39 8 < fget (low.getD 0 0) 39 8 ∧ indWritable 3 7 low = false ∧
    reg R.QM_IND_DATA1 (after .qmIndDone r) = 20 ∧ mayWriteReg R.GRAN_STATUS s = true ∧
    rd F.GRAN_STATUS_LOW (after (.lowReload .pcie 0) (wr F.GRAN_STATUS_FREE 9 (wr F.GRAN_STATUS_LOW 4 s))) = 9 := by decide +kernel

/-! ### Host rings -/

/-- A terminal whose ring engine can start. -/
def ready : State := eachOf [(F.DB_PAGE_PAGE, 8), (F.ST_PAGE_PAGE, 9), (F.PCIE_CTRL_ENABLE, 1)] (fun s x => wr x.1 x.2 s) (live .running [])

/-- The engine running, with every ring of receive pair 0, TXQ 0, EVT and CMD enabled. -/
def rings : State := eachOf [(F.HRE_CTRL_STATE, 1), (F.CMD_CFG_ENABLE, 1), (F.EVT_CFG_ENABLE, 1), (F.CMD_CFG_LOG2SIZE, 8), (F.EVT_CFG_LOG2SIZE, 8),
  (F.TXQ_CFG_ENABLE 0, 1), (F.TXQ_CFG_LOG2SIZE 0, 8), (F.RXQ_CFG_ENABLE 0, 1), (F.RXQ_CFG_LOG2SIZE 0, 8), (F.FL_CFG_ENABLE 0, 1),
  (F.FL_CFG_LOG2SIZE 0, 8)] (fun s x => wr x.1 x.2 s) ready

theorem wit_TheRingEngineStartsAndStops_1 : let h := wr F.RING_MODE_HOSTLESS 1 ready
    let x := { rings with host := { rings.host with stopping := true } }
    let y := { x with host := { x.host with pollPend := true } }
    let b := wr F.HRE_CTRL_HOST_ABSENT 0 (wr F.RING_MODE_HB_TIMEOUT 2 { rings with host := { rings.host with hbTicks := 96 } })
    mayWriteReg R.HRE_CTRL ready = true ∧ hostless ready = false ∧ hreState ready = hreSTOPPED ∧ reg R.DB_PAGE ready ≠ 0 ∧
    reg R.ST_PAGE ready ≠ 0 ∧ ringsOk ready = true ∧ fromListening ready = true ∧ hreMayRun ready = true ∧
    hreState (after (.hreStart .pcie 0) ready) = hreRUNNING ∧ hreMayRun (wr F.PCIE_CTRL_ENABLE 0 ready) = false ∧
    rd F.HRE_STATUS_LAST_ERR_CAUSE (after (.hreStart .mgmt 1) (wr F.PCIE_CTRL_ENABLE 0 ready)) = 6 ∧
    reg R.DB_PAGE (live .running []) = 0 ∧ hreState (live .running []) = hreSTOPPED ∧
    rd F.HRE_STATUS_LAST_ERR_CAUSE (after (.hreStart .mgmt 1) (live .running [])) = 6 ∧ mayWriteReg R.HRE_CTRL h = true ∧
    hostless h = true ∧ countsNow h = true ∧ cnt C.REG_LOCKED_WRITE (after (.hreStart .pcie 0) h) = 1 ∧
    cnt C.REG_LOCKED_WRITE (after (.hreStop .pcie 0) h) = 1 ∧ hreState (after (.hreStart .mgmt 0) h) = hreRUNNING ∧
    mayWriteReg R.HRE_CTRL rings = true ∧ hreState rings = hreRUNNING ∧ (after (.hreStop .pcie 0) rings).host.stopping = true ∧
    x.host.stopping = true ∧ x.host.flight = none ∧ x.host.pollPend = false ∧ hreState (after .orderlyStopDone x) = hreSTOPPED ∧
    y.host.stopping = true ∧ y.host.pollPend = true ∧ hreState (after .orderlyStopDone y) = hreRUNNING ∧
    hreState b = hreRUNNING ∧ hostless b = false ∧ rd F.RING_MODE_HB_TIMEOUT b ≠ 0 ∧
    b.host.hbAbsent = false ∧ 48 * rd F.RING_MODE_HB_TIMEOUT b ≤ b.host.hbTicks ∧ on F.HRE_CTRL_HOST_ABSENT b = false ∧ Room b ∧
    waits E.HOST_ABSENT 1 (after .hostAbsent b) = true := by unfold Room; decide +kernel

theorem wit_TheRingEngineStartsAndStops_2 : let r := wr F.INT_CFG_INTX_PEND 1 rings
    let c := setStopped 3 true (commanded .running [])
    let t := after (.hostReset 0) rings
    mayWriteReg R.INT_CFG r = true ∧ on F.INT_CFG_INTX_PEND r = true ∧
    (after (.intxPend .pcie 0) r).out = [.intx false] ∧ hreServes rings = true ∧ ringEnabled 0x30 rings = true ∧ ringEnabled 0x31 rings = true ∧
    ringStopped 0x31 rings = false ∧ countsNow rings = true ∧ Room rings ∧ cnt C.DB_INDEX_BAD (after (.ringStopped 0x31 5) rings) = 1 ∧
    cnt C.HOST_DMA_ERR (after (.ringStopped 0x30 1) rings) = 1 ∧
    Due hdr1 c ∧ ringStopped 3 c = true ∧ ringStopped 3 (after (.ringRestart hdr1 3) c) = false ∧ restartable 0x31 = false ∧
    ringStopped 4 c = false ∧ rings.term ≠ .reset ∧ hreState t = hreRESETTING ∧ reg R.DB_PAGE t = 0 ∧ waits E.HOST_RESET 0 t = true ∧
    hreState (hostTick none t) = hreSTOPPED := by
  unfold Room Due; decide +kernel

/-- A doorbell page: CMD_PROD, then zeros, and heartbeat 1. -/
def bellPage (n : Nat) : List Byte := bytesLE 4 n ++ List.replicate 252 0 ++ [1, 0, 0, 0]

/-- One whose TXQ 0 has three descriptors. -/
def bell0 : List Byte := List.replicate 0x40 0 ++ bytesLE 4 3 ++ List.replicate 188 0 ++ [1, 0, 0, 0]

theorem wit_PollPointsServeTheHost : let e : Event := { code := 1, arg0 := 0, arg1 := 0, count := 1, tick := 0, wc := 0 }
    let s := setHost (fun h => { h with events := [e] }) rings
    let w := setHost (fun h => { h with pollPend := true }) rings
    hreServes s = true ∧ (0 : Fin 8).val < pollsPerTick s ∧ s.host.pollPend = false ∧ ringEnabled ringEVT s = true ∧
    ringStopped ringEVT s = false ∧ s.host.events.length ≤ 64 ∧ span32 (ringProd ringEVT s) (ringCons ringEVT s) + 65 ≤ ringSize ringEVT s ∧
    (after (.pollPoint 0 {} false) s).host.events = [] ∧ ringProd ringEVT (after (.pollPoint 0 {} false) s) = 1 ∧
    hreServes w = true ∧ (0 : Fin 8).val < pollsPerTick w ∧ w.host.pollPend = true ∧ countsNow w = true ∧
    cnt C.POLL_SKIPPED (after (.pollPoint 0 {} false) w) = 1 ∧ hreState w = hreRUNNING ∧ ringEnabled ringCMD w = true ∧
    ringStopped ringCMD w = false ∧ span32 (le4 (bellPage 256) 0) (ringCons ringCMD w) ≤ ringSize ringCMD w ∧
    ringProd ringCMD (after (.doorbellReadDone (.ok (bellPage 256))) w) = 256 ∧
    ringSize ringCMD w < span32 (le4 (bellPage 257) 0) (ringCons ringCMD w) ∧
    ringStopped ringCMD (after (.doorbellReadDone (.ok (bellPage 257))) w) = true ∧ Room w ∧
    hreState (after (.doorbellReadDone (.err 1)) w) = hreHALTED ∧ Room s ∧ hreState (after (.pollPoint 0 {} true) s) = hreHALTED ∧
    ringEnabled (ringTX 0) w = true ∧ ringStopped (ringTX 0) w = false ∧ span32 (le4 bell0 (0x40 + 4 * (0 : Fin 16).val)) (ringCons (ringTX 0) w) ≤ ringSize (ringTX 0) w ∧
    lget [] w.host.marks 0 = [] ∧ ringProd (ringTX 0) (after (.doorbellReadDone (.ok bell0)) w) = 3 := by unfold Room; decide +kernel

/-- A TX descriptor of `n` bytes for queue 64. -/
def txDesc (n : Nat) : List Byte := bytesLE 8 0x1000 ++ bytesLE 2 n ++ [64, 0] ++ List.replicate 20 0

theorem wit_ItemsGoToAndFromTheHost_1 : let s := setProd (ringTX 0) 1 rings
    let f := after (.txDescriptor 0 (.ok (txDesc 60))) s
    let x := (f.host.flight).getD { q := 9, tick := 0, queue := 0, flags := 0, meter := 0, deadline := 0, md := 0, len := 0 }
    let dead := bytesLE 8 0x1000 ++ bytesLE 2 60 ++ [64, 8, 0, 0, 0, 0] ++ bytesLE 8 (stampOf (48 * (2 ^ 34 - 1))).toNat ++ List.replicate 8 0
    let full := wr F.GRAN_STATUS_FREE 0 s
    let shut := { f with q := { f.q with cfg := [(64, [0, 0, 0])] } }
    txReady (0 : Fin 16).val s = true ∧ leNat (slice (txDesc 60) 8 2) ≠ 0 ∧ byteAt (txDesc 60) 10 < 133 ∧ leNat (slice (txDesc 60) 8 2) ≤ 2048 ∧
    nbit (byteAt (txDesc 60) 11) 3 = false ∧ cellsOf (leNat (slice (txDesc 60) 8 2)) ≤ freeCells s ∧ leNat (slice (txDesc 0) 8 2) = 0 ∧
    ringCons (ringTX 0) (after (.txDescriptor 0 (.ok (txDesc 0))) s) = 1 ∧ txReady 0 full = true ∧ freeCells full < cellsOf 60 ∧
    txOpen 0 (after (.txDescriptor 0 (.ok (txDesc 60))) full) = false ∧
    ringStopped (ringTX 0) (after (.txDescriptor 0 (.err 1)) s) = true ∧ 2048 < leNat (slice (txDesc 2049) 8 2) ∧
    133 ≤ byteAt (bytesLE 8 0x1000 ++ bytesLE 2 60 ++ [133, 0] ++ List.replicate 20 0) 10 ∧ nbit (byteAt dead 11) 3 = true ∧
    tickDiff (stampTick (txTick 0 s) (BitVec.ofNat 40 (leNat (slice dead 16 5)))) (txTick 0 s) < 0 ∧
    f.host.flight = some x ∧ x.q = 0 ∧ (x.queue, x.flags) = (64, 0) ∧ nbit x.flags 2 = false ∧
    qExists x.queue = true ∧ f.q.flushed = [] ∧ qEnabled x.queue f = true ∧ qCells x.queue f + cellsOf x.len ≤ qLimit x.queue f ∧
    (qItems 64 (after (.txDataReadDone 0 (.ok (List.replicate 60 5))) f)).map (fun i => i.bytes.length) = [60] ∧ countsNow f = true ∧
    cnt C.HOST_DMA_ERR (after (.txDataReadDone 0 (.err 1)) f) = 1 ∧ shut.host.flight = some x ∧ qEnabled x.queue shut = false := by decide +kernel

theorem wit_ItemsGoToAndFromTheHost_2 : let i : Item := { itemDue 3 with bytes := [7, 8] }
    let n := setItems 136 [i] { rings with q := { rings.q with turn := [136] } }
    let d := setProd (ringFL 0) 4 n
    let p := (pickHost d).2
    let o := (pickHost n).2
    let fl (k : Nat) : List Byte := bytesLE 8 0x2000 ++ bytesLE 2 k ++ List.replicate 22 0
    deliverReady d = true ∧ (pickHost d).1 = some (136 + (0 : Fin 16).val) ∧ qItems 136 p = [i] ∧ shaperOpen 136 p = true ∧
    (∀ x ∈ [i], inTime p.bt x = true) ∧ hostless d = false ∧ ringEnabled (ringRX 0) d = true ∧ ringEnabled (ringFL 0) d = true ∧
    ringHas (ringFL 0) d = true ∧ ringRoom (ringRX 0) d = true ∧ i.bytes.length ≤ leNat (slice (fl 2) 8 2) ∧
    qItems 136 (after (.hostDelivery 0 (some (.ok (fl 2)))) d) = [] ∧ ringProd (ringRX 0) (after (.hostDelivery 0 (some (.ok (fl 2)))) d) = 1 ∧
    leNat (slice (fl 1) 8 2) < i.bytes.length ∧ countsNow d = true ∧ cnt C.HOST_RX_TOOBIG (after (.hostDelivery 0 (some (.ok (fl 1)))) d) = 1 ∧
    deliverReady n = true ∧ (pickHost n).1 = some (136 + (0 : Fin 16).val) ∧ qItems 136 o = [i] ∧
    ringHas (ringFL 0) n = false ∧ countsNow n = true ∧ cnt C.HOST_RX_NOBUF (after (.hostDelivery 0 none) n) = 1 := by decide +kernel

/-! ### Commands -/

/-- The same command ring after CSEQ 1 has completed with this record. -/
def repeated (r : CmdRec) (last : Nat) : State :=
  setHost (fun h => { h with records := [r] }) (commanded .running [(F.CMD_SEQ_VALID, 1), (F.CMD_SEQ_LAST, last)])

theorem wit_CommandsCompleteInSequence : let s := commanded .running []
    let r : CmdRec := { cseq := 1, status := 0, sub := 3, result := 9 }
    let p := repeated r 1
    let b := repeated r 100
    Due hdr1 s ∧ (after (.nop hdr1) s).out = [.hostWrite 24 [0, 0, 0, 0, 0, 0, 0, 128]] ∧ (0x0C : Nat) < (0x0D : Byte).toNat ∧
    (after (.badOpcode hdr1 0x0D 0) s).out = [.hostWrite 24 [0, 0, 0, 0, 0, 0, 1, 128]] ∧ (3 : Nat) < (4 : Byte).toNat ∧
    (after (.badOpcode hdr1 0x09 4) s).out = [.hostWrite 24 [0, 0, 0, 0, 0, 0, 3, 128]] ∧ (5 : Nat) < (6 : Byte).toNat ∧ cmdReady p = true ∧
    on F.CMD_SEQ_VALID p = true ∧ (rd F.CMD_SEQ_LAST p + 65536 - hdr1.cseq.toNat) % 65536 ≤ 63 ∧
    p.host.records.find? (fun r => r.cseq == hdr1.cseq.toNat) = some r ∧
    (after (.wait hdr1 0) p).out = [.hostWrite 24 [9, 0, 0, 0, 0, 3, 0, 192]] ∧ countsNow p = true ∧ cmdReady b = true ∧
    on F.CMD_SEQ_VALID b = true ∧ 63 < (rd F.CMD_SEQ_LAST b + 65536 - hdr1.cseq.toNat) % 65536 ∧
    hdr1.cseq.toNat ≠ (rd F.CMD_SEQ_LAST b + 1) % 65536 ∧ cnt C.CMD_BAD_SEQ (after (.wait hdr1 0) b) = 1 := by unfold Due; decide +kernel

theorem wit_CommandsActAtTheirTick : let s := { commanded .running [] with bt := 4800 }
    let w := stampOf 4803
    let v := setHost (fun h => { h with harvest := some (hdr1, 4096, 4800), wait := some hdr1 }) s
    let a : BitVec 16 := BitVec.ofNat 16 (R.AX_CFG 0)
    Due hdr1 s ∧ CmdAt w 4803 s ∧ CmdAt 0 4801 s ∧ (after (.wait hdr1 w) s).pwr.reqs = [{ t := 4803, cmd := some hdr1 }] ∧
    (4096 : BitVec 64).toNat % 4096 = 0 ∧ (after (.harvest hdr1 4096) s).host.harvest = some (hdr1, 4096, 4801) ∧
    (4097 : BitVec 64).toNat % 4096 ≠ 0 ∧ v.host.harvest = some (hdr1, 4096, 4800) ∧ tickDue 4800 v.bt = true ∧ v.host.wait = some hdr1 ∧
    hreState v = hreRUNNING ∧ rd F.LEDGER_SUMMARY_HARVEST_SEQ (after (.harvestSnapshot false) v) = 1 ∧
    (after (.clearLedger hdr1 3) s).ledger.clears.map (fun c => (c.groups, c.t)) = [(3, 4801)] ∧ indWritable 0 5 [0, 0, 0] = true ∧
    (after (.qmWrite hdr1 0 5 [0, 0, 0] w) s).staged = [{ t := 4803, op := .qmWrite 0 5 [0, 0, 0] }] ∧ indWritable 1 5 [0, 0, 0] = false ∧
    a.toNat % 8 = 0 ∧ stagedWritable a.toNat = true ∧ (after (.stagedWrite hdr1 a 7 w) s).staged.map (fun x => x.t) = [4803] ∧
    countsNow v = true ∧ cnt C.HOST_DMA_ERR (after (.harvestSnapshot true) v) = 1 ∧ (a + 1).toNat % 8 ≠ 0 ∧ stampOk 0x30 = false ∧ (0x30 : Word) ≠ 0 ∧
    stagedWritable 0x50 = false ∧ stampOf 4790 ≠ 0 ∧ stampOk (stampOf 4790) = true ∧ tickDiff (stampTick s.bt (stampOf 4790)) (nextTick s) < 0 := by
  unfold Due CmdAt; decide +kernel

/-- A record of a vendor key and its buffer. -/
def vendor (key persist : Byte) : List Byte := [0x80, key, persist, 0, 2, 5, 6]

set_option maxRecDepth 100000 in
theorem wit_HostMessagesAndSettings : let s := commanded .running []
    let l := commanded .running [(F.FLASH_INFO_LAYOUT_OK, 1)]
    let k := (settingStore 0x8003 [5, 6] l).2
    Due hdr1 s ∧ Space s ∧ (after (.leaveCommand hdr1) s).byp.leaveReq = some 0 ∧ Due hdr1 (commanded .listening []) ∧
    domOn dMGT s = true ∧ (after (.hostMsg hdr1 2 (.ok [1, 2])) s).note.up.map (fun u => u.body) = [[1, 2]] ∧
    (bufRecord 7 (vendor 3 0)).isSome = true ∧ (bufRecord 7 (vendor 3 0)).map (fun r => (r.key, r.persist, r.val)) = some (0x8003, false, [5, 6]) ∧
    settingBad 0x8003 [5, 6] = false ∧ (after (.settingWrite hdr1 7 (.ok (vendor 3 0)) false) s).glean.live = [(0x8003, [5, 6])] ∧
    isPreset 0x8003 = false ∧ (bufRecord 7 (vendor 3 1)).map (fun r => r.persist) = some true ∧ Due hdr1 l ∧ domOn dMGT l = true ∧ layoutOk l = true ∧
    (settingStore 0x8003 [5, 6] l).1 = true ∧ settingBad 0x4000 [5, 6] = true ∧ keyIn [0x80, 3] = some 0x8003 ∧ keyKnown 0x8003 = true ∧
    (readRecord 0x8003 s).length ≤ 7 ∧ settingBad 0x8003 [] = false ∧ settingGet 0x8003 l = none ∧ Due hdr1 k ∧ layoutOk k = true ∧
    (settingGet 0x8003 k).isSome = true ∧ (settingStore 0x8003 [] (setLive 0x8003 none k)).1 = true := by
  unfold Due Space; decide +kernel

/-- A record that presets AX_CFG of axis 0, and one of an unknown key. -/
def preset (persist : Byte) : List Byte := bytesBE 2 (0x2000 + R.AX_CFG 0 / 8) ++ [persist, 0, 5, 0, 0, 0, 0, 1]
def unknownKey : List Byte := [0x40, 0, 0, 0, 1, 9]

set_option maxRecDepth 100000 in
theorem wit_HostMessagesAndSettings_2 : let s := commanded .running []
    let l := commanded .running [(F.FLASH_INFO_LAYOUT_OK, 1)]
    let full := { s with note := { s.note with up := List.replicate 16 { type := nSTATUS, seq := 0, body := [], age := 0 } } }
    let off := wr (F.PWR_TARGET_STATE dMGT) 1 s
    let key := 0x2000 + R.AX_CFG 0 / 8
    (s.term = .ranging ∨ s.term = .running) ∧ (commanded .listening []).term = .listening ∧
    Due hdr1 full ∧ domOn dMGT full = true ∧ 16 ≤ full.note.up.length ∧ (220 : BitVec 16).toNat ≤ 220 ∧ 220 < (221 : BitVec 16).toNat ∧
    Due hdr1 off ∧ domOn dMGT off = false ∧ (after (.settingDelete hdr1 7 (.ok (vendor 3 0))) off).glean = off.glean ∧ countsNow s = true ∧
    s.note.up.length < 16 ∧ cnt C.HOST_DMA_ERR (after (.hostMsg hdr1 2 (.err 1)) s) = 1 ∧
    (bufRecord 10 (preset 0)).map (fun r => (r.key, r.persist, r.val)) = some (key, false, [0, 0, 0, 0, 1]) ∧ settingBad key [0, 0, 0, 0, 1] = false ∧
    isPreset key = true ∧ reg (R.AX_CFG 0) s ≠ 0 ∧
    reg (R.AX_CFG 0) (after (.settingWrite hdr1 10 (.ok (preset 0)) false) s) = 0 ∧
    (bufRecord 10 (preset 1)).map (fun r => (r.key, r.persist)) = some (key, true) ∧
    (settingStore key [0, 0, 0, 0, 1] (wr F.CMD_SEQ_VALID 1 (wr F.CMD_SEQ_LAST hdr1.cseq.toNat l))).1 = true ∧ layoutOk s = false ∧
    recordStored 0x8003 true [5, 6] l = true ∧ (after (.settingWrite hdr1 7 (.ok (vendor 3 1)) true) l).glean.live = l.glean.live ∧
    (bufRecord 6 unknownKey).map (fun r => (r.key, r.val)) = some (0x4000, [9]) ∧ settingBad 0x4000 [9] = true ∧
    keyIn (unknownKey.take 6) = some 0x4000 ∧ keyKnown 0x4000 = false ∧
    cnt C.HOST_DMA_ERR (after (.settingRead hdr1 0 7 (.ok [0x80, 3]) true) s) = 1 := by
  unfold Due; decide +kernel

theorem wit_HostImageCommands_2 : let s := commanded .running [(F.FLASH_INFO_LAYOUT_OK, 1)]
    let m := after (.imageWriteStaging hdr1 3 0 (.ok [1, 2, 3])) s
    let n := setProd ringCMD 2 (setHost (fun h => { h with records := [] }) (wr F.CMD_SEQ_VALID 0 m))
    let off := wr (F.PWR_TARGET_STATE dMGT) 1 s
    let w := commanded .running []
    Due hdr1 n ∧ domOn dMGT n = true ∧ stagingOpen n = true ∧ (3 : Word) ≠ 0 ∧ n.glean.hostNext = some (3 : Word).toNat ∧
    (after (.imageWriteStaging hdr1 2 3 (.ok [4, 5])) n).glean.hostNext = some 5 ∧ 4096 < (4097 : BitVec 16).toNat ∧
    1048576 < (1048575 : Word).toNat + (2 : BitVec 16).toNat ∧ countsNow s = true ∧
    cnt C.HOST_DMA_ERR (after (.imageWriteStaging hdr1 3 0 (.err 1)) s) = 1 ∧ on F.GLEAN_STATUS_HOST n = true ∧
    rd F.GLEAN_STATUS_HOST (after (.imageWriteStaging hdr1 0 0 (.ok [])) n) = 0 ∧ on F.GLEAN_STATUS_HOST s = false ∧
    Due hdr1 off ∧ domOn dMGT off = false ∧ (after (.imageVerify hdr1) off).glean = off.glean ∧ Due hdr1 w ∧ domOn dMGT w = true ∧
    stagingOpen w = false ∧ layoutOk w = false ∧ layoutOk n = true ∧ hostImageOk n = false ∧
    cnt C.GLEAN_VERIFY_FAIL (after (.imageVerify hdr1) n) = 1 ∧ (0x5AFF : BitVec 16) ≠ 0x5AFE ∧
    (after (.softResetCommand hdr1 0x5AFF) s).boot.softPending = false := by
  unfold Due; decide +kernel

theorem wit_HostImageCommands : let s := commanded .running [(F.FLASH_INFO_LAYOUT_OK, 1)]
    let h := wr F.GLEAN_STATUS_HOST 1 s
    let v := eachOf [(F.GLEAN_STATUS_STATE, iVERIFIED), (F.IMAGE_STAGED_VERSION, 9), (F.BOOT_STATUS_SOURCE, 2)] (fun s x => wr x.1 x.2 s) s
    let t := wr F.IMAGE_RUNNING_TRIAL 1 s
    Due hdr1 s ∧ domOn dMGT s = true ∧ stagingOpen s = true ∧ imageState (after (.imageWriteStaging hdr1 3 0 (.ok [1, 2, 3])) s) = iCOLLECTING ∧
    flashRead fSTAGING 3 (after (.imageWriteStaging hdr1 3 0 (.ok [1, 2, 3])) s) = [1, 2, 3] ∧ (8 : Word) ≠ 0 ∧ s.glean.hostNext ≠ some 8 ∧
    (8 : Word).toNat + 3 ≤ 1048576 ∧ Due hdr1 h ∧ layoutOk h = true ∧ on F.GLEAN_STATUS_HOST h = true ∧ countsNow h = true ∧
    CmdAt 0 1 v ∧ Due hdr1 v ∧ v.glean.swap = none ∧ swapAllowed none none v = true ∧ (after (.imageSwap hdr1 0) v).glean.swap = some (1, 5) ∧
    swapAllowed none none s = false ∧ Due hdr1 t ∧ onTrial t = true ∧ imageState (after (.imageConfirm hdr1) t) = iCONFIRMED ∧
    rd F.RESET_CAUSE_SOFT_CMD (after (.imageRevert hdr1) t) = 1 ∧ onTrial s = false ∧ imageState (after (.imageConfirm hdr1) s) = iNONE ∧
    (after (.softResetCommand hdr1 0x5AFE) s).boot.softPending = true := by
  unfold Due CmdAt; decide +kernel

/-! ### Ethernet and PTP -/

/-- A frame of 60 bytes to a unicast address, EtherType 0x1234. -/
def frame60 : List Byte := [2, 0, 0, 0, 0, 1, 2, 0, 0, 0, 0, 2, 0x12, 0x34] ++ List.replicate 46 0x55

/-- Port 0 enabled, its link up. -/
def ethUp (w : List (Fld × Nat)) : State :=
  live .running ([(F.ETH_CFG_ENABLE 0, 1), (F.ETH_CFG_MAX_LEN 0, 1518), (F.ETH_STATUS_LINK 0, 1)] ++ w)

theorem wit_LinksComeUpAndGoDown : let d := live .running [(F.ETH_CFG_ENABLE 0, 1), (F.ETH_CFG_AN_EN 0, 0)]
    let l := live .running []
    let u := ethUp []
    let a := ethUp [(F.ETH_CFG_AN_EN 0, 1)]
    let g := ethUp [(F.ETH_CFG_AN_EN 0, 1), (F.ETH_CFG_MODE 0, 1), (F.ETH_STATUS_SPEED 0, 2)]
    let b := wr (F.ETH_STATUS_LINK 0) 0 a
    let w := wr (F.ETH_STATUS_LINK 0) 0 g
    let h := setPort 0 (fun p => { p with anHalf := true }) a
    mayLink 0 l = false ∧ mayLink 0 d = true ∧ Room d ∧ linkUp 0 (after (.linkUp 0) d) = true ∧ waits E.LINK_UP 16 (after (.linkUp 0) d) = true ∧
    linkUp 0 u = true ∧ countsNow u = true ∧ Room u ∧ rd F.QM_HOLDDOWN_CYCLES u ≠ 0 ∧ cnt (C.ETH_TX_ABORT 0) (after (.linkDown 0 true false) u) = 1 ∧
    (after (.linkDown 0 true false) u).q.hold = [(0, 97)] ∧ portDown 0 a = false ∧ on (F.ETH_CFG_AN_EN 0) a = true ∧
    rd (F.ETH_CFG_MODE 0) a ≠ 1 ∧ nbit (0x0020 : BitVec 16).toNat 5 = true ∧ nbits (0x0020 : BitVec 16).toNat 13 12 = 0 ∧
    (portSt 0 a).anHalf = false ∧ rd (F.ETH_STATUS_AN_DONE 0) (after (.anBasePage 0 0x20) a) = 1 ∧ nbit (0x0040 : BitVec 16).toNat 5 = false ∧
    mayLink 0 (after (.anBasePage 0 0x40) b) = false ∧ cnt (C.ETH_AN_HALF 0) (after (.anBasePage 0 0x40) b) = 1 ∧ (portSt 0 h).anHalf = true ∧ (portSt 0 (after (.anRestart 0) h)).anHalf = false ∧
    portDown 0 g = false ∧ rd (F.ETH_CFG_MODE 0) g = 1 ∧ nbit (0x9400 : BitVec 16).toNat 12 = true ∧ nbits (0x9400 : BitVec 16).toNat 11 10 ≠ 3 ∧
    nbit (0x9400 : BitVec 16).toNat 15 = true ∧ rd (F.ETH_STATUS_SPEED 0) g ≠ nbits (0x9400 : BitVec 16).toNat 11 10 ∧ linkUp 0 g = true ∧
    rd (F.ETH_STATUS_AN_DONE 0) (after (.sgmiiWord 0 0x9400) w) = 1 ∧
    nbits (0x2020 : BitVec 16).toNat 13 12 ≠ 0 ∧ mayLink 0 (after (.anBasePage 0 0x2020) b) = false ∧ on (F.ETH_CFG_AN_EN 0) h = true ∧
    rd (F.ETH_CFG_MODE 0) h ≠ 1 ∧ portDown 0 h = false ∧ (after (.anRestart 0) h).out = [.anWord 0 (basePage 0 h)] ∧
    nbit (0x8400 : BitVec 16).toNat 12 = false ∧ portDown 0 w = false ∧ rd (F.ETH_CFG_MODE 0) w = 1 ∧ countsNow w = true ∧
    cnt (C.ETH_AN_HALF 0) (after (.sgmiiWord 0 0x8400) w) = 1 ∧
    nbit (0x1400 : BitVec 16).toNat 15 = false ∧ (after (.sgmiiWord 0 0x1400) w).out = [.anWord 0 0x4001] := by unfold Room; decide +kernel

set_option maxRecDepth 100000 in
theorem wit_FramesAreReceivedAndSent_1 : let u := ethUp [(F.ETH_CFG_PAUSE_HONOUR 0, 1), (F.ETH_CFG_PTP_EN 0, 1)]
    let good := frame60 ++ bytesLE 4 (crc32 frame60)
    let msg : List Byte := [0x0B, 2] ++ List.replicate 44 0
    let ptp : List Byte := [1, 0x1B, 0x19, 0, 0, 0, 2, 0, 0, 0, 0, 2, 0x88, 0xF7] ++ msg
    let ctl : List Byte := [0x01, 0x80, 0xC2, 0, 0, 1, 2, 0, 0, 0, 0, 2, 0x88, 8, 0, 2] ++ List.replicate 44 0
    let long : List Byte := [2, 0, 0, 0, 0, 1, 2, 0, 0, 0, 0, 2, 0x12, 0x34] ++ List.replicate 1505 0x55
    linkUp 0 u = true ∧ countsNow u = true ∧ 60 ≤ frame60.length ∧ frame60.length ≤ maxLen 0 frame60 u ∧ be16 frame60 12 ≠ 0x8808 ∧
    ptpOf 0 frame60 u = none ∧ cellsOf frame60.length ≤ freeCells u ∧ u.th.work.length < 4096 ∧
    (after (.ethFrameRx 0 good false 7) u).th.work.length = 1 ∧ [(0 : Byte), 0, 0, 0] ≠ bytesLE 4 (crc32 frame60) ∧
    cnt (C.ETH_RX_FCS 0) (after (.ethFrameRx 0 (frame60 ++ [0, 0, 0, 0]) false 7) u) = 1 ∧ ptp.length = 60 ∧ ptp.length ≤ maxLen 0 ptp u ∧
    be16 ptp 12 ≠ 0x8808 ∧ ptpOf 0 ptp u = some msg ∧ u.eth.ports.length = 6 ∧
    (portSt 0 (after (.ethFrameRx 0 (ptp ++ bytesLE 4 (crc32 ptp)) false 7) u)).ptpIn = [(msg, 7)] ∧ byteAt msg 4 = ptpDomain u ∧
    byteAt (msg.set 4 9) 4 ≠ ptpDomain u ∧ ptpOf 0 (ptp.set 18 9) u = some (msg.set 4 9) ∧
    be16 ctl 12 = 0x8808 ∧ ctl.length = 60 ∧ ctl.length ≤ maxLen 0 ctl u ∧
    cnt (C.ETH_RX_MACCTL 0) (after (.ethFrameRx 0 (ctl ++ bytesLE 4 (crc32 ctl)) false 7) u) = 1 ∧
    (frame60.take 59).length < 60 ∧ cnt (C.ETH_RX_RUNT 0) (after (.ethFrameRx 0 (frame60.take 59 ++ bytesLE 4 (crc32 (frame60.take 59))) false 7) u) = 1 ∧
    maxLen 0 long u < long.length ∧ cnt (C.ETH_RX_TOOLONG 0) (after (.ethFrameRx 0 (long ++ bytesLE 4 (crc32 long)) false 7) u) = 1 := by decide +kernel

/-- A boundary clock on port 0 with the time valid. -/
def clocked (t : TermState) (w : List (Fld × Nat)) : State :=
  eachOf ([(F.ETH_CFG_PTP_EN 0, 1), (F.TAI_ORIGIN_NS_VALID, 1), (F.TIME_STATUS_RANGED, 1), (F.PTP_STATUS_PORT_STATE 0, 4)] ++ w)
    (fun s x => wr x.1 x.2 s) { (ethUp []) with term := t }

theorem wit_FramesAreReceivedAndSent_2 : let u := ethUp [(F.ETH_CFG_PAUSE_HONOUR 0, 1), (F.ETH_CFG_PTP_EN 0, 1)]
    let p : List Byte := [0x01, 0x80, 0xC2, 0, 0, 1, 2, 0, 0, 0, 0, 2, 0x88, 8, 0, 1, 0, 9] ++ List.replicate 42 0
    let d := setItems 64 [{ itemDue 9 with bytes := [1, 2, 3] }] { u with q := { u.q with turn := [64] } }
    let big := setItems 64 [{ itemDue 9 with bytes := List.replicate 1519 0, cells := 24 }] { u with q := { u.q with turn := [64] } }
    let sw (s : State) := eachOf (portQueues 0) (fun s q => sweepQueue q s) s
    let a := setPort 0 (fun x => { x with ptpWait := [.due .announce] }) (clocked .running [])
    on (F.ETH_CFG_PAUSE_HONOUR 0) u = true ∧ countsNow u = true ∧
    beAt p 0 6 = 0x0180C2000001 ∧ u.eth.ports.length = 6 ∧ (portSt 0 (after (.pause 0 p) u)).quanta = 9 ∧
    on (F.ETH_CFG_PAUSE_HONOUR 0) (wr (F.ETH_CFG_PAUSE_HONOUR 0) 0 u) = false ∧
    on (F.ETH_STATUS_PAUSED 0) (after (.pause 0 p) u) = true ∧ rd (F.ETH_STATUS_PAUSED 0) (after (.pauseEnd 0) (after (.pause 0 p) u)) = 0 ∧
    linkUp 0 d = true ∧ on (F.ETH_STATUS_PAUSED 0) d = false ∧ (portSt 0 d).ptpWait = [] ∧
    (takeFrame 0 (sw d)).1.any (fun i => decide (i.bytes.length ≤ maxLen 0 i.bytes (takeFrame 0 (sw d)).2)) = true ∧
    (after (.frameTransmit 0 0) d).out.length = 1 ∧
    (takeFrame 0 (sw big)).1.any (fun i => decide (maxLen 0 i.bytes (takeFrame 0 (sw big)).2 < i.bytes.length)) = true ∧
    countsNow (takeFrame 0 (sw big)).2 = true ∧ cnt (C.ETH_TX_TOOLONG 0) (after (.frameTransmit 0 0) big) = 1 ∧
    linkUp 0 a = true ∧ on (F.ETH_STATUS_PAUSED 0) a = false ∧ (portSt 0 a).ptpWait = [.due .announce] ∧ ptpRuns 0 a = true ∧ timeValid a = true ∧
    ptpState 0 a = 4 ∧ a.eth.ports.length = 6 ∧ (after (.frameTransmit 0 0) a).out.length = 1 := by decide +kernel

theorem wit_TheBoundaryClockRuns_1 : let s := clocked .running []
    let p := clocked .running [(F.PTP_CFG_PROFILE, 1)]
    let h := wr (F.ETH_STATUS_PAUSED 0) 1 s
    let one : List Byte := List.replicate 44 0
    let dreq : List Byte := 1 :: List.replicate 43 0
    let preq : List Byte := 2 :: List.replicate 53 0
    let i (b : List Byte) (s : State) := setPort 0 (fun p => { p with ptpIn := [(b, 5)] }) s
    ptpRuns 0 s = true ∧ ptpHeld 0 s = false ∧ timeValid s = true ∧ ptpState 0 s = 4 ∧ s.eth.ports.length = 6 ∧
    (portSt 0 (after (.ptpMessageDue 0 .announce 9) s)).seqAnnounce = 1 ∧ (after (.ptpMessageDue 0 .sync 9) s).out.length = 2 ∧
    ptpRuns 0 p = true ∧ ptpHeld 0 p = false ∧ ptpP2P p = true ∧ p.eth.ports.length = 6 ∧
    (portSt 0 (after (.ptpMessageDue 0 .pdelayReq 9) p)).pdReq = some (0, (txStamp 0 9 p).toNat) ∧
    ptpRuns 0 h = true ∧ ptpHeld 0 h = true ∧ h.eth.ports.length = 6 ∧
    (portSt 0 (after (.ptpMessageDue 0 .sync 9) h)).ptpWait = [.due .sync] ∧
    (portSt 0 (i one s)).ptpIn = [(one, 5)] ∧ on (F.ETH_CFG_PTP_EN 0) (i one s) = true ∧ 2 ≤ ptpState 0 (i one s) ∧
    countsNow (i one s) = true ∧ (i one s).eth.ports.length = 6 ∧ byteAt one 0 % 16 = 0 ∧ nbit (byteAt one 6) 1 = false ∧
    cnt (C.PTP_RX_ONESTEP 0) (after (.ptpRx 0 9) (i one s)) = 1 ∧ byteAt dreq 0 % 16 = 1 ∧ ptpP2P (i dreq s) = false ∧
    timeValid (i dreq s) = true ∧ ptpState 0 (i dreq s) = 4 ∧ linkUp 0 (i dreq s) = true ∧ ptpHeld 0 (i dreq s) = false ∧
    (after (.ptpRx 0 9) (i dreq s)).out.length = 1 ∧ byteAt preq 0 % 16 = 2 ∧ ptpP2P (i preq p) = true ∧ timeValid (i preq p) = true ∧
    linkUp 0 (i preq p) = true ∧ ptpHeld 0 (i preq p) = false ∧ (after (.ptpRx 0 9) (i preq p)).out.length = 2 := by decide +kernel

set_option maxRecDepth 100000 in
/-- The end of a peer delay measurement; an Announce of another clock; the two timeouts; the end of the holdover. -/
theorem wit_TheBoundaryClockRuns_2 : let s := { clocked .running [] with glean := { State.reset.glean with live := [(0x10, [2, 0, 0, 0, 0, 1])] } }
    let fol : List Byte := 0xA :: List.replicate 43 0 ++ bytesBE 10 (clockIdentity s * 65536 + 1)
    let ann : List Byte := 0xB :: List.replicate 19 0 ++ bytesBE 10 5 ++ List.replicate 34 0
    let f := setPort 0 (fun p => { p with ptpIn := [(fol, 5)], pdReq := some (0, 10), pdResp := some (500, 7, 0) }) s
    let a := { setPort 0 (fun p => { p with ptpIn := [(ann, 5)] }) s with bt := 77 }
    let l := { wr (F.PTP_STATUS_PORT_STATE 0) 2 s with bt := 300000 }
    let v := wr F.TIME_STATUS_RANGED 0 l
    let m := wr (F.PTP_STATUS_PORT_STATE 0) 3 s
    let y := { (clocked .flywheel []) with eth := { (clocked .flywheel []).eth with flyTicks := 48000 * 65536, flyClass := some 6 } }
    (portSt 0 f).ptpIn = [(fol, 5)] ∧ on (F.ETH_CFG_PTP_EN 0) f = true ∧ 2 ≤ ptpState 0 f ∧ countsNow f = true ∧ f.eth.ports.length = 6 ∧
    byteAt fol 0 % 16 = 0xA ∧ (portSt 0 f).pdReq = some (0, 10) ∧ (portSt 0 f).pdResp = some (500, 7, 0) ∧
    beAt fol 44 10 = clockIdentity f * 65536 + 0 + 1 ∧ be16 fol 30 = 0 ∧ firstPtpPort f = 0 ∧
    rd F.PTP_STATUS_PEER_DELAY (after (.ptpRx 0 9) f) = peerDelay 10 500 7 0 0 ∧
    (portSt 0 a).ptpIn = [(ann, 5)] ∧ on (F.ETH_CFG_PTP_EN 0) a = true ∧ 2 ≤ ptpState 0 a ∧ a.eth.ports.length = 6 ∧
    byteAt ann 0 % 16 = 0xB ∧ nbit (byteAt ann 6) 0 = false ∧ (parseAnnounce ann).steps < 255 ∧
    (parseAnnounce ann).sender / 65536 ≠ clockIdentity a ∧ (portSt 0 (after (.ptpRx 0 9) a)).annAt = 77 ∧
    (portSt 0 (after (.ptpRx 0 9) a)).foreign.length = 1 ∧ on (F.ETH_CFG_PTP_EN 0) l = true ∧ l.eth.ports.length = 6 ∧
    (announceTicks (receiptTimeout l) l : Int) ≤ tickDiff l.bt (portSt 0 l).annAt ∧ timeValid l = true ∧ ptpState 0 l = 2 ∧ Room l ∧
    ptpState 0 (after (.announceReceiptTimeout 0) l) = 4 ∧ on (F.ETH_CFG_PTP_EN 0) v = true ∧ v.eth.ports.length = 6 ∧
    (announceTicks (receiptTimeout v) v : Int) ≤ tickDiff v.bt (portSt 0 v).annAt ∧ timeValid v = false ∧
    ptpState 0 (after (.announceReceiptTimeout 0) v) = 2 ∧ ptpState 0 m = 3 ∧ Room m ∧
    ptpState 0 (after (.qualificationTimeout 0) m) = 4 ∧ y.term = .flywheel ∧ rd F.PTP_CFG_HOLDOVER y * 48000 ≤ y.eth.flyTicks ∧
    timeValid y = true ∧ y.eth.flyClass = some 6 ∧ rd F.PTP_STATUS_CLOCK_CLASS (after .holdoverExpiry y) = 52 := by unfold Room; decide +kernel

/-! ### Show ports -/

/-- A universe 0 that is an output with RDM, its output started. -/
def dmxLive (f : DmxSt → DmxSt) : State :=
  setDmx 0 f (startGroup (gDMX 0) (ranged .running [(F.DMX_CFG_ENABLE 0, 1), (F.DMX_CFG_PERIOD 0, 1100), (F.DMX_CFG_SLOTS 0, 2),
    (F.DMX_CFG_RDM_EN 0, 1), (F.DMX_CFG_LOSS_ACT 0, 1), (F.DMX_TIMING_LOSS, 2)]))

def instant : Inst := { ago := 2, wc := 7 }

theorem wit_UniversesRun_1 : let b := dmxLive (fun d => { d with breakDue := true, buf := [(1, 9)] })
    let r := dmxLive (fun d => { d with requests := [[1, 2]], gap := true })
    let x := dmxLive (fun d => { d with disc := some discStart, requests := [[1, 2]], gap := true })
    let y := dmxLive (fun d => { d with disc := some { discStart with turn := false }, requests := [[1, 2]], gap := true })
    let o := dmxLive (fun d => { d with disc := some { todo := [], found := [7] }, quiet := 96 })
    let i := wr (F.DMX_CFG_IN 0) 1 b
    showOn b = true ∧ dmxOut 0 b = true ∧ isStarted (gDMX 0) b = true ∧ (dmxSt 0 b).breakDue = true ∧ dmxFree 0 b = true ∧
    (after (.dmxBreak 0) b).out = [.dmx 0 [0, 9, 0]] ∧ showOn r = true ∧ dmxOut 0 r = true ∧ on (F.DMX_CFG_RDM_EN 0) r = true ∧
    (dmxSt 0 r).gap = true ∧ dmxFree 0 r = true ∧ (dmxSt 0 r).breakDue = false ∧ discTurn (dmxSt 0 r) = none ∧
    (dmxSt 0 r).requests = [[1, 2]] ∧ (after (.rdmTransaction 0) r).out = [.rdm 0 [0xCC, 1, 2]] ∧
    showOn x = true ∧ dmxOut 0 x = true ∧ on (F.DMX_CFG_RDM_EN 0) x = true ∧ (dmxSt 0 x).gap = true ∧ dmxFree 0 x = true ∧
    (dmxSt 0 x).breakDue = false ∧ discTurn (dmxSt 0 x) = some .unmute ∧ discActive 0 (after (.rdmTransaction 0) x) = true ∧
    (dmxSt 0 (after (.rdmTransaction 0) x)).requests = [[1, 2]] ∧ discTurn (dmxSt 0 y) = none ∧
    (after (.rdmTransaction 0) y).out = [.rdm 0 [0xCC, 1, 2]] ∧ showOn o = true ∧ discOver 0 o = some [7] ∧ Room o ∧
    waits E.RDM_DISC_DONE 8 (after (.rdmDiscovery 0) o) = true ∧ (after (.rdmDiscovery 0) o).show_.caps.length = 2 ∧
    showLive i = true ∧ on (F.DMX_CFG_ENABLE 0) i = true ∧ on (F.DMX_CFG_IN 0) i = true ∧ countsNow i = true ∧
    cnt C.DMX_RX_PKT (after (.dmxRxPacket 0 instant 88 8 false [0, 1]) i) = 1 ∧ cnt C.DMX_RX_BAD (after (.dmxRxPacket 0 instant 87 8 false [0, 1]) i) = 1 ∧
    dmxOut 0 o = true ∧ on (F.DMX_CFG_LOSS_ACT 0) o = true ∧ rd F.DMX_TIMING_LOSS o ≠ 0 ∧ 48 * rd F.DMX_TIMING_LOSS o ≤ (dmxSt 0 o).quiet ∧
    isStarted (gDMX 0) (after (.dmxLoss 0) o) = false := by unfold Room; decide +kernel

/-- The end of a transaction: a queued request without a response and with one, and a discovery's step. -/
theorem wit_UniversesRun_2 : let e := dmxLive (fun d => { d with rdm := some ([1, 2], 5) })
    let g := dmxLive (fun d => { d with rdm := some ([1, 2], 5), goDue := true })
    let d := dmxLive (fun d => { d with rdm := some ([1, 2], 5), disc := some { discStart with active := true } })
    (dmxSt 0 e).rdm = some ([1, 2], 5) ∧ (dmxSt 0 e).goDue = false ∧ discActive 0 e = false ∧ countsNow e = true ∧ rdmStatus [1, 2] [] false = 1 ∧
    cnt C.RDM_TIMEOUT (after (.rdmTransactionEnd 0 [] false) e) = 1 ∧ (after (.rdmTransactionEnd 0 [] false) e).show_.caps.length = 1 ∧
    rdmStatus [1, 2] [7] true = 2 ∧ cnt C.RDM_BAD (after (.rdmTransactionEnd 0 [7] true) e) = 1 ∧
    (dmxSt 0 g).rdm = some ([1, 2], 5) ∧ (dmxSt 0 g).goDue = true ∧ countsNow g = true ∧
    (after (.rdmTransactionEnd 0 [] false) g).out = [.dmx 0 [0, 0, 0]] ∧ (dmxSt 0 d).rdm = some ([1, 2], 5) ∧ discActive 0 d = true ∧
    countsNow d = true ∧ (after (.rdmTransactionEnd 0 [] false) d).show_.caps = [] ∧
    (dmxSt 0 (after (.rdmTransactionEnd 0 [] false) d)).disc = some { todo := [.branch 0 0xFFFFFFFFFFFE] } := by decide +kernel

/-- The binary search of a discovery: a collision halves the range, a single UID is muted, and its range searched again. -/
theorem test_discovery : let x : Disc := { todo := [.branch 4 5], active := true }
    (discStep 2 [1] x).todo = [.branch 4 4, .branch 5 5] ∧ (discStep 1 [] x).todo = [] ∧
    (discStep 2 [1] { todo := [.branch 4 4] }).todo = [.mute 4 4 4] ∧
    discStep 0 [1] { todo := [.mute 4 4 5] } = { todo := [.branch 4 5], found := [4] } ∧ (discStep 1 [] { todo := [.mute 4 4 4] }).todo = [] := by
  decide +kernel

/-- Timecode and MIDI 0 in use both ways. -/
def coded (src : Nat) : State :=
  ranged .running [(F.LTC_CFG_OUT_EN 0, 1), (F.LTC_CFG_IN_EN 0, 1), (F.LTC_CFG_SRC 0, src), (F.MIDI_CFG_IN_EN 0, 1)]

theorem wit_TimecodeMidiContactsGenlock_1 : let g := coded 0
    let b : List Byte := [1, 2, 3, 4, 5, 6, 7, 8]
    let z : List Byte := [0, 0, 0, 0, 0, 0, 0, 0]
    let f := setLtc 0 (fun l => { l with first := some b }) (coded 1)
    let q := setLtc 0 (fun l => { l with waiting := some b, began := some 0 }) { (coded 2) with bt := 2000 }
    let w := setLtc 0 (fun l => { l with last := some z, began := some 0 }) { (coded 1) with bt := 5 }
    showOn g = true ∧ ltcOut 0 g = true ∧ rd (F.LTC_CFG_SRC 0) g = 0 ∧ ltcGenDue 0 g = some 0 ∧ (ltcSt 0 g).frame ≠ some 0 ∧
    g.show_.ltc.length = 2 ∧ (after (.ltcFrame 0) g).out.length = 1 ∧ showOn f = true ∧ ltcOut 0 f = true ∧ rd (F.LTC_CFG_SRC 0) f ≠ 0 ∧
    (ltcSt 0 f).first = some b ∧ (after (.ltcFrame 0) f).out = [.ltc 0 (b ++ [0xFC, 0xBF])] ∧ showOn q = true ∧ ltcOut 0 q = true ∧
    rd (F.LTC_CFG_SRC 0) q ≠ 0 ∧ (ltcSt 0 q).first = none ∧ (ltcSt 0 q).began = some 0 ∧
    0 + ltcLen (rd (F.LTC_CFG_RATE 0) q) < (q.bt + 1) * phasesPerTick ∧ (ltcSt 0 q).waiting = some b ∧
    (after (.ltcFrame 0) q).out = [.ltc 0 (b ++ [0xFC, 0xBF])] ∧ showOn w = true ∧ ltcOut 0 w = true ∧ rd (F.LTC_CFG_SRC 0) w ≠ 0 ∧
    (ltcSt 0 w).first = none ∧ (ltcSt 0 w).waiting = none ∧ (ltcSt 0 w).last = some z ∧ countsNow w = true ∧ (ltcSt 0 w).began = some 0 ∧
    (w.bt + 1) * phasesPerTick ≤ 0 + ltcLen (rd (F.LTC_CFG_RATE 0) w) ∧ (after (.ltcFrame 0) w).out = [] := by decide +kernel

theorem wit_TimecodeMidiContactsGenlock_4 : let z : List Byte := [0, 0, 0, 0, 0, 0, 0, 0]
    let y := setLtc 0 (fun l => { l with last := some z, began := some 0 }) { (coded 1) with bt := 2000 }
    let x := setLtc 0 (fun l => { l with last := some z }) (setShow (fun w => { w with taken := [(128, z)] }) (coded 2))
    let e := startGroup (gLTC 0) (setLtc 0 (fun l => { l with freewheel := rd (F.LTC_CFG_FREEWHEEL 0) y }) y)
    showOn x = true ∧ ltcOut 0 x = true ∧ rd (F.LTC_CFG_SRC 0) x = 2 ∧ (ltcSt 0 x).first = none ∧ (ltcSt 0 x).waiting = none ∧
    (ltcSt 0 x).last = some z ∧ countsNow x = true ∧ takenOf (128 + 0) x ≠ none ∧ (after (.ltcFrame 0) x).out = [] ∧
    showOn y = true ∧ ltcOut 0 y = true ∧ rd (F.LTC_CFG_SRC 0) y = 1 ∧ (ltcSt 0 y).first = none ∧ (ltcSt 0 y).waiting = none ∧
    (ltcSt 0 y).last = some z ∧ countsNow y = true ∧ (ltcSt 0 y).began = some 0 ∧
    0 + ltcLen (rd (F.LTC_CFG_RATE 0) y) < (y.bt + 1) * phasesPerTick ∧ (ltcSt 0 y).freewheel < rd (F.LTC_CFG_FREEWHEEL 0) y ∧
    cnt C.LTC_FREEWHEEL (after (.ltcFrame 0) y) = 1 ∧ (after (.ltcFrame 0) y).out.length = 1 ∧
    rd (F.LTC_CFG_FREEWHEEL 0) e ≤ (ltcSt 0 e).freewheel ∧ isStarted (gLTC 0) (after (.ltcFrame 0) e) = false := by decide +kernel

theorem wit_TimecodeMidiContactsGenlock_3 : let g := coded 0
    let m := setShow (fun w => { w with midiBusy := [true, false], midi := [[9, 8], []] }) g
    let n := setShow (fun w => { w with midiBusy := [true, false] }) g
    showLive g = true ∧ on (F.LTC_CFG_IN_EN 0) g = true ∧ countsNow g = true ∧
    cnt C.LTC_RX_FRAME (after (.ltcRxCodeword 0 instant 0 true 3 true) g) = 1 ∧
    cnt C.LTC_RX_BAD (after (.ltcRxCodeword 0 instant 0 true 3 false) g) = 1 ∧ m.show_.midiBusy.getD 0 false = true ∧ midiFifo 0 m = [9, 8] ∧
    (after (.midiTxByte 0) m).out = [.midi 0 9] ∧ n.show_.midiBusy.getD 0 false = true ∧ midiFifo 0 n = [] ∧
    (after (.midiTxByte 0) n).show_.midiBusy = [false, false] ∧ on (F.MIDI_CFG_IN_EN 0) g = true ∧
    (after (.midiRxByte 0 instant 7 false) g).show_.caps.length = 1 ∧ cnt C.MIDI_RX_ERR (after (.midiRxByte 0 instant 7 true) g) = 1 := by decide +kernel

/-- The genlock output and the TIME_MAP of the worked example of spec/14 and spec/06, at building tick 1070/0. -/
def glk0 (bt : Nat) : State :=
  setReg R.TAI_ORIGIN_CYCLE 1000 (setReg R.TAI_ORIGIN_SEC 812345678 { ranged .running [(F.GEN_CFG_ENABLE 0, 1), (F.GEN_CFG_NUM 0, 25),
    (F.GEN_CFG_DEN 0, 1), (F.GEN_PULSE_OFFSET 0, 0), (F.TAI_ORIGIN_NS_NS, 250000000), (F.TAI_ORIGIN_NS_VALID, 1)] with bt })

/-- The next edge after 1042/19 falls on 1070/0, phase 0, and the one after it 1920 ticks later. -/
theorem test_genlock : genPhase 0 (genFirst 0 (glk0 (1042 * 48 + 19))) (glk0 (1042 * 48 + 19)) = 1325 * 266240 ∧
    genPhase 0 (genFirst 0 (glk0 51360)) (glk0 51360) = 0 ∧ genPhase 0 (genFirst 0 (glk0 51361)) (glk0 51361) = 1919 * 266240 := by decide +kernel

/-- The concealment of the worked example of spec/14: the third and seventh lost ticks. -/
theorem test_concealment : let s := live .running []
    conceal 0x1000000000 1 s = 0x1000000040 ∧ conceal 0x1000000000 2 s = 0x1000000040 ∧ conceal 0x1000000000 3 s = 0x0E00000080 ∧
    conceal 0x1000000000 7 s = 0x0600000080 := by decide +kernel

theorem wit_TimecodeMidiContactsGenlock_2 : let s := live .running [(F.CUE_CFG_DEBOUNCE, 2)]
    let o := wr F.CUE_CFG_DIR 8 s
    let c := wr F.CUE_STATE_LEVEL 8 s
    let p := setShow (fun w => { w with pulses := [(3, 0), (4, 2)], cueOut := 8 }) s
    let g := glk0 51360
    cueIsOut 3 s = false ∧ nbit (rd F.CUE_STATE_LEVEL s) 3 ≠ true ∧ instant.ago = rd F.CUE_CFG_DEBOUNCE s ∧
    rd F.CUE_STATE_LEVEL (after (.cueEdge 3 true instant) s) = 8 ∧ showLive s = true ∧ countsNow s = true ∧
    cnt C.CUE_EDGE (after (.cueEdge 3 true instant) s) = 1 ∧ cueIsOut 3 o = true ∧ nbit (rd F.CUE_STATE_LEVEL c) 3 = true ∧
    ({ instant with ago := 3 } : Inst).ago ≠ rd F.CUE_CFG_DEBOUNCE s ∧ ((3 : Fin 24).val, 0) ∈ p.show_.pulses ∧ nbit p.show_.cueOut.toNat 3 = true ∧
    (after (.cuePulseEnd 3) p).out = [.cue 3 false] ∧ (after (.cuePulseEnd 3) p).show_.pulses = [(4, 2)] ∧ genActive 0 g = true ∧
    genPhase 0 (genFirst 0 g) g < (phasesPerTick : Nat) ∧ g.show_.glkLast.getD 0 none = none ∧ g.show_.glkLast.length = 4 ∧
    (after (.genlockEdge 0) g).out = [.genlock 0 (!on (F.GEN_CFG_POLARITY 0) g) (genWidth 0 g)] ∧
    (after (.genlockEdge 0) (after (.genlockEdge 0) g)).out.length = 1 := by decide +kernel

/-! ### Motion and the sensor front end -/

/-- Axis 0 in a state, at a velocity. -/
def axis (x : Nat) (v : Int) (w : List (Fld × Nat)) : State :=
  setAx 0 (fun a => { a with v, drvEn := true }) (live .running ((F.AX_STATUS_STATE 0, x) :: (F.AX_STATUS_BRAKE 0, 1) :: w))

def ranDown (cause : Nat) (t : State) : Bool :=
  axState 0 t == xRUNDOWN && rd (F.AX_STATUS_CAUSE 0) t == cause && waits E.MOT_RUNDOWN (16 * cause) t

theorem wit_AxesRunDown_1 : let loss := axis xACTIVE 500 [(F.AX_STATUS_LOSS_RUN 0, 4), (F.AX_RD_CFG_SP_LOSS 0, 4)]
    let both := axis xACTIVE 500 [(F.AX_STATUS_LOSS_RUN 0, 4), (F.AX_RD_CFG_SP_LOSS 0, 4), (F.AX_CFG_ENC_EN 0, 1)]
    let enc := axis xACTIVE 500 [(F.AX_CFG_ENC_EN 0, 1), (F.AX_RD_CFG_SP_LOSS 0, 4)]
    let lim := axis xACTIVE 500 [(F.AX_CFG_LIM_EN 0, 1), (F.AX_CFG_LIM_POL 0, 0), (F.AX_RD_CFG_SP_LOSS 0, 4)]
    let fe := axis xACTIVE 500 [(F.AX_CFG_ENC_EN 0, 1), (F.AX_RD_LIMIT_FE_MAX 0, 5), (F.AX_POS_CMD_POS 0, 100), (F.AX_RD_CFG_SP_LOSS 0, 4)]
    let soft := axis xACTIVE 500 [(F.AX_POS_CMD_POS 0, 100), (F.AX_CFG_SOFT_LIM_EN 0, 1), (F.AX_SOFT_MAX_POS 0, 99), (F.AX_RD_CFG_SP_LOSS 0, 4)]
    Moving 0 loss ∧ setpointLost 0 loss = true ∧ ranDown 1 (after (.setpointLoss 0) loss) = true ∧ Moving 0 enc ∧ domOn dMOT enc = true ∧
    on (F.AX_CFG_ENC_EN 0) enc = true ∧ countsNow enc = true ∧ lowestCause 0 9 enc = 9 ∧ ranDown 9 (after (.encError 0) enc) = true ∧
    cnt (C.MOT_ENC_ERR 0) (after (.encError 0) enc) = 1 ∧ lowestCause 0 9 both = 1 ∧ ranDown 1 (after (.encError 0) both) = true ∧
    Moving 0 lim ∧ on (F.AX_CFG_LIM_EN 0) lim = true ∧ true ≠ on (F.AX_CFG_LIM_POL 0) lim ∧ 0 < (axSt 0 lim).v ∧
    ranDown 6 (after (.limit 0 true false) lim) = true ∧ ranDown 6 (after (.limit 0 false true) lim) = false ∧ Moving 0 fe ∧
    followingOver 0 fe = true ∧ ranDown 8 (after (.followingError 0) fe) = true ∧ Moving 0 soft ∧ softCrossed 0 soft = true ∧
    ranDown 7 (after (.softLimit 0) soft) = true ∧ (axSt 0 (after (.softLimit 0) soft)).v0 = 500 ∧
    (axSt 0 (after (.softLimit 0) soft)).p0 = 6553600 := by unfold Moving Room; decide +kernel

/-- HOLD on both axes, and short of its filter; each trigger in ENABLING; none elsewhere. -/
theorem wit_AxesRunDown_3 : let two := axis xACTIVE 500 [(F.AX_CFG_HOLD_EN 0, 1), (F.AX_CFG_HOLD_EN 1, 1), (F.AX_STATUS_STATE 1, 2),
      (F.AX_RD_CFG_SP_LOSS 0, 4), (F.AX_RD_CFG_SP_LOSS 1, 4), (F.MOT_HOLD_HOLD_FILT, 10)]
    let e := axis xENABLING 0 [(F.AX_STATUS_LOSS_RUN 0, 4), (F.AX_RD_CFG_SP_LOSS 0, 4), (F.AX_CFG_ENC_EN 0, 1), (F.AX_CFG_HOLD_EN 0, 1),
      (F.AX_RD_LIMIT_FE_MAX 0, 5), (F.AX_POS_CMD_POS 0, 100)]
    let n := axis xENABLING 0 [(F.AX_RD_CFG_SP_LOSS 0, 4), (F.AX_CFG_ENC_EN 0, 1), (F.AX_CFG_HOLD_EN 0, 1)]
    let h := axis xHELD 0 []
    (∀ k < 2, Moving k two ∧ on (F.AX_CFG_HOLD_EN k) two = true) ∧ max 1 (rd F.MOT_HOLD_HOLD_FILT two) ≤ 10 ∧
    ranDown 5 (after (.hold true 10) two) = true ∧ on F.MOT_HOLD_LEVEL (after (.hold true 10) two) = true ∧
    9 < max 1 (rd F.MOT_HOLD_HOLD_FILT two) ∧ on F.MOT_HOLD_LEVEL (after (.hold true 9) two) = false ∧
    e.mot.axes.length = 2 ∧ axState 0 e = xENABLING ∧ Room e ∧ setpointLost 0 e = true ∧ domOn dMOT e = true ∧ on (F.AX_CFG_ENC_EN 0) e = true ∧
    on (F.AX_CFG_HOLD_EN 0) e = true ∧ followingOver 0 e = true ∧ axState 0 (after (.setpointLoss 0) e) = xBRAKING ∧
    rd (F.AX_STATUS_CAUSE 0) (after (.encError 0) e) = 1 ∧ n.mot.axes.length = 2 ∧ axState 0 n = xENABLING ∧ Room n ∧
    rd (F.AX_STATUS_CAUSE 0) (after (.encError 0) n) = 9 ∧ rd (F.AX_STATUS_CAUSE 0) (after (.hold true 10) n) = 5 ∧
    axState 0 h ∉ [xENABLING, xACTIVE, xPROFILE] := by unfold Moving Room; decide +kernel

theorem wit_AxesRunDown_2 : let p (v : Int) := setAx 0 (fun a => { a with prof := some (2, 0, 0) }) (axis xPROFILE v [(F.AX_RD_CFG_SP_LOSS 0, 4)])
    let d := axis xHELD 0 []
    let r := setAx 0 (fun a => { a with v0 := 500, rdTicks := 9600 }) (axis xRUNDOWN 0 [(F.AX_RD_CFG_RD_DECEL 0, 1), (F.AX_RD_LIMIT_RD_MAX 0, 200)])
    let b (h : Bool) := setAx 0 (fun a => { a with toHeld := h }) (axis xBRAKING 0 [(F.AX_STATUS_CAUSE 0, 6)])
    Moving 0 (p 0) ∧ axState 0 (p 0) = xPROFILE ∧ profEnded 0 (p 0) = true ∧ axState 0 (after (.profileEnd 0) (p 0)) = xACTIVE ∧
    ranDown 0xB (after (.profileEnd 0) (p (-3))) = true ∧ r.mot.axes.length = 2 ∧ axState 0 r = xRUNDOWN ∧ rdLength 0 r ≤ (axSt 0 r).rdTicks ∧
    axState 0 (after (.rundownEnd 0) r) = xBRAKING ∧ axState 0 (b true) = xBRAKING ∧ (axSt 0 (b true)).timer = 0 ∧ (axSt 0 (b true)).toHeld = true ∧
    Room (b true) ∧ axState 0 (after (.brakeSetExpiry 0) (b true)) = xHELD ∧ waits E.MOT_HELD 96 (after (.brakeSetExpiry 0) (b true)) = true ∧
    (axSt 0 (b false)).toHeld = false ∧ axState 0 (after (.brakeSetExpiry 0) (b false)) = xDISABLED ∧ true ≠ on (F.AX_CFG_FLT_POL 0) r ∧
    axIdle 0 r = false ∧ rd (F.AX_STATUS_CAUSE 0) (after (.driveFault 0 true) r) = 0xC ∧ d.mot.axes.length = 2 ∧ Room d ∧
    axIdle 0 d = true ∧ on (F.AX_STATUS_FLT 0) (after (.driveFault 0 true) d) = true ∧ countsNow r = true ∧ inRundown 0 r = true ∧
    48 * max 1 (rd (F.AX_RD_LIMIT_RD_MAX 0) r) ≤ (axSt 0 r).rdTicks ∧ axState 0 (after (.motCut 0) r) = xHELD ∧
    waits E.MOT_CUT 0 (after (.motCut 0) r) = true ∧ (axSt 0 (after (.motCut 0) r)).drvEn = false := by unfold Moving Room; decide +kernel

theorem wit_AxesEnableAndMeasure : let e := axis xENABLING 0 [(F.AX_TIMING_BRAKE_REL 0, 9), (F.AX_POS_ENC_POS 0, 100), (F.AX_CFG_ENC_EN 0, 1)]
    let b := wr (F.AX_STATUS_BRAKE 0) 0 e
    let i := wr (F.AX_STATUS_STATE 0) xHELD e
    axState 0 b = xENABLING ∧ on (F.AX_STATUS_BRAKE 0) b = false ∧ (axSt 0 b).timer = 0 ∧ (axSt 0 (after (.brakeRelease 0) b)).timer = 9 ∧
    on (F.AX_STATUS_BRAKE 0) e = true ∧ axState 0 (after (.enablingDone 0) e) = xACTIVE ∧ domOn dMOT e = true ∧ e.mot.axes.length = 2 ∧
    rdS (F.AX_INDEX_POS 0) (after (.indexEdge 0 (-101)) e) = -1 ∧ mayWriteReg (R.AX_POS_CMD 0) e = true ∧ axIdle 0 i = true ∧
    reg (R.AX_POS_ENC 0) (after (.posWrite .pcie 0 true 0xFFFFFFFFFF) i) = 0xFFFFFFFFFF ∧ axIdle 0 e = false ∧ countsNow e = true ∧
    cnt C.REG_LOCKED_WRITE (after (.posWrite .pcie 0 true 7) e) = 1 ∧ rd (F.AX_POS_ENC_POS 0) (after (.posWrite .pcie 0 true 7) e) = 100 := by decide +kernel

/-- Slot 3 enabled with three samples of D = 2 in PGA mode, pins 4 and 5. -/
def front (w : List (Fld × Nat)) : State :=
  setReg (R.AFE_SLOT_PINS 3) (fput (fput (fput (fput (fput 0 39 35 4) 34 30 5) 29 25 31) 24 20 31) 19 15 31)
    (setReg (R.AFE_SLOT_CFG 3) (fput (fput 0 39 32 2) 31 19 2) (live .running ((F.AFE_CFG_SEQ_EN, 1) :: w)))

theorem wit_TheFrontEndConverts_1 : let s := setAfe (fun a => { a with started := true }) (front [])
    let t := after .slotHalfStart s
    let m := { t with bt := s.bt + 1 }
    let e := { after (.sampleDone 298023224 0 0) m with bt := s.bt + 3 }
    seqMayRun s = true ∧ s.afe.started = true ∧ s.afe.run = none ∧ s.afe.nextAt = none ∧ nextHalf s 33 s.afe.next.1 s.afe.next.2 = some (3, false) ∧
    rd F.AFE_STATUS_CUR_SLOT t = 3 ∧ t.afe.run.map (fun h => h.words) = some [] ∧
    m.afe.run.any (fun h => decide (h.slot < 16) && tickDue (tickAdd h.firstTag (((h.words.length + 1) * (slotCfg h.cfg h.pins h.second).d : Nat) - 1)) m.bt) = true ∧
    m.afe.run.any (fun h => decide (h.words.length + 1 < (slotCfg h.cfg h.pins h.second).count)) = true ∧
    e.afe.run.any (fun h => decide ((slotCfg h.cfg h.pins h.second).count ≤ h.words.length + 1)) = true ∧ reg (R.AFE_RESULT 3) (after (.sampleDone 298023224 0 0) m) = BitVec.ofNat 40 (1000 * 65536 + 0x78) ∧
    e.afe.run.any (fun h => tickDue (tickAdd h.firstTag (((h.words.length + 1) * (slotCfg h.cfg h.pins h.second).d : Nat) - 1)) e.bt) = true ∧
    (after (.sampleDone 298023224 0 0) e).afe.items.length = 1 ∧ (after (.sampleDone 298023224 0 0) e).afe.run = none := by decide +kernel

/-- The constants of R392 for an offset of 16 codes and a reading of 6,710,902: the gain is 1. -/
theorem wit_TheFrontEndConverts_2 : let s := front []
    let c := setAfe (fun a => { a with cal := 2 ^ 5 }) s
    let w := setAfe (fun a => { a with calLeft := 3 }) c
    let f := setAfe (fun a => { a with pfoSince := [9, 0, 0, 0] }) (live .running [(F.PFO_CFG_MODE 0, 1), (F.PFO_CFG_HOLD 0, 9), (F.PFO_CFG_FAULT_ACT 0, 1)])
    mayWriteReg R.AFE_CAL_CTRL s = true ∧ fget (0x21 : Word) 12 0 ≠ 0 ∧ on F.AFE_CAL_CTRL_BUSY s = false ∧ domOn dAFE s = true ∧ s.afe.run = none ∧
    (after (.afeCalStart .pcie 0x21) s).afe.cal = 0x21 ∧ c.afe.cal = 2 ^ (5 : Fin 13).val ∧ c.afe.calLeft = 0 ∧ w.afe.calLeft ≠ 0 ∧ (after (.afeCalDone [(256, 16 * 6710902)]) w).afe.cal = 2 ^ 5 ∧ Room c ∧ (-1000000 : Int) ≤ 2 * 256 + 16 ∧ (2 * 256 + 16 : Int) < 1000000 ∧
    (0 : Int) < 16 * 6710902 - 16 * ((2 * 256 + 16) / 32) ∧ (2 * (6710886 * 2 ^ 26) + (16 * 6710902 - 16 * ((2 * 256 + 16) / 32))) / (2 * (16 * 6710902 - 16 * ((2 * 256 + 16) / 32))) < (2 ^ 24 : Int) ∧
    rd (F.AFE_CAL_OFS 5) (after (.afeCalDone [(256, 16 * 6710902)]) c) = 16 ∧
    rd (F.AFE_CAL_GCAL 5) (after (.afeCalDone [(256, 16 * 6710902)]) c) = 0x400000 ∧ pfoRuns 0 f = true ∧ rd (F.PFO_CFG_HOLD 0) f ≠ 0 ∧ Room f ∧
    countsNow f = true ∧ rd (F.PFO_CFG_HOLD 0) f ≤ f.afe.pfoSince.getD 0 0 ∧ nbit f.afe.pfoFault 0 = false ∧ fromListening f = true ∧
    (after (.afePfoFault 0) f).out = [.pfo 0 0 0 (max 256 (rd (F.PFO_CFG_PERIOD 0) f))] ∧ waits E.AFE_PFO_FAULT 0 (after (.afePfoFault 0) f) = true := by unfold Room; decide +kernel

/-! ### Power and wake -/

/-- Every domain in RETENTION, the spine at rest for 100 ticks. -/
def resting (w : List (Fld × Nat)) : State :=
  setPwr (fun p => { p with resting := true, rest := 100 })
    (eachOf w (fun s x => wr x.1 x.2 s) (eachOf domains (fun s k => wr (F.PWR_TARGET_TARGET k) 1 (wr (F.PWR_TARGET_STATE k) 1 s)) (st .listening [(F.WAKE_MASK_MASK, 4)])))

/-- The wake set of `resting`. -/
def wakeOf (s : State) (k : Nat) : Nat := if inMask k s then 0 else targetOf s k

theorem wit_PowerTransitionsRun_1 : let s := { live .listening [] with bt := 100 }
    let w := wr F.AFE_CFG_SEQ_EN 1 s
    let h := wr (F.PWR_TARGET_PORT_HELD dLAN) 1 s
    let o := after (.pwrTarget .pcie 8 0x20000) s
    let d := setPwr (fun p => { p with run := some ({ t := 100 }, List.replicate 24 1) }) s
    let u := setPwr (fun p => { p with run := some ({ t := 100 }, List.replicate 24 0) }) s
    mayWriteReg (R.PWR_TARGET dAFE) s = true ∧ fget (2 : Word) 1 0 ≠ 3 ∧ dAFE ≠ dLAN ∧
    targetRefused (fun d => if d == dAFE then 2 else targetOf s d) dAFE 2 s = false ∧ dAFE = 11 ∧ targetOf (after (.pwrTarget .pcie 11 2) s) 11 = 2 ∧
    mayWriteReg (R.PWR_TARGET dAFE) w = true ∧ targetRefused (fun d => if d == dAFE then 2 else targetOf w d) dAFE 2 w = true ∧ Room w ∧
    countsNow w = true ∧ cnt C.PWR_REFUSED (after (.pwrTarget .pcie 11 2) w) = 1 ∧ fget (3 : Word) 1 0 = 3 ∧
    targetOf (after (.pwrTarget .pcie 11 3) s) 11 = targetOf s 11 ∧ dLAN = 8 ∧ mayWriteReg (R.PWR_TARGET dLAN) s = true ∧
    rd (F.PWR_TARGET_PORT_HELD dLAN) s &&& fget (0x20000 : Word) 21 16 = rd (F.PWR_TARGET_PORT_HELD dLAN) s ∧ o.pwr.gateDue = true ∧
    (applyGates o).pwr.gates = 2 ∧ mayWriteReg (R.PWR_TARGET dLAN) h = true ∧
    rd (F.PWR_TARGET_PORT_HELD dLAN) h &&& fget (0x20000 : Word) 21 16 ≠ rd (F.PWR_TARGET_PORT_HELD dLAN) h ∧ Room h ∧
    (after (.pwrTarget .pcie 8 0x20000) h).pwr = h.pwr ∧ d.host.stopping = false ∧
    d.pwr.run = some ({ t := 100 }, List.replicate 24 1) ∧ (∀ k < 24, (List.replicate 24 1).getD k 0 < 3) ∧ Room d ∧
    (after .pwrDone d).pwr.resting = true ∧ waits E.PWR_DONE (stampOf 100).toNat (after .pwrDone d) = true ∧
    u.pwr.run = some ({ t := 100 }, List.replicate 24 0) ∧ (after .pwrDone u).pwr.resting = false := by unfold Room; decide +kernel

/-- Transitions: one that is refused, one that begins and one that changes nothing. -/
theorem wit_PowerTransitionsRun_2 : let s := { live .listening [] with bt := 100 }
    let r : PwrReq := { t := 100 }
    let n := setPwr (fun p => { p with reqs := [r] }) s
    let q := wr (F.PWR_TARGET_TARGET dAFE) 2 n
    let b := wr (F.PWR_TARGET_TARGET dQSC) 2 n
    q.pwr.reqs = [r] ∧ q.pwr.run = none ∧ q.pwr.resting = false ∧ fromListening q = true ∧ tickDue r.t q.bt = true ∧
    refusedSet (resultingSet r.order q) q = 0 ∧ (∀ k < 24, resultingSet r.order q k < 3) ∧ q.host.stopping = false ∧
    (∀ k ∈ [dQSC, dPCI], domState k q = 0 → resultingSet r.order q k = 0) ∧ domState dAFE q ≠ resultingSet r.order q dAFE ∧
    domState dAFE (after .powerTransition q) = 3 ∧ domState dQSC (after .powerTransition q) = 0 ∧ b.pwr.reqs = [r] ∧ b.pwr.run = none ∧
    b.pwr.resting = false ∧ fromListening b = true ∧ refusedSet (resultingSet r.order b) b ≠ 0 ∧ Room b ∧ countsNow b = true ∧ r.cmd = none ∧
    cnt C.PWR_REFUSED (after .powerTransition b) = 1 ∧ n.pwr.reqs = [r] ∧ refusedSet (resultingSet r.order n) n = 0 ∧
    (∀ k < 24, domState k n = resultingSet r.order n k) ∧ Room n ∧
    waits E.PWR_DONE (stampOf 100).toNat (after .powerTransition n) = true ∧ (after .powerTransition n).pwr.run = none := by unfold Room; decide +kernel

/-- One that takes PCI from the running ring engine, with nothing under way and with a read. -/
theorem wit_PowerTransitionsRun_3 : let r : PwrReq := { t := 100 }
    let e := wr F.HRE_CTRL_STATE 1 (wr (F.PWR_TARGET_TARGET dPCI) 1 (setPwr (fun p => { p with reqs := [r] }) { live .listening [] with bt := 100 }))
    let f := setHost (fun h => { h with pollPend := true }) e
    e.pwr.reqs = [r] ∧ e.pwr.run = none ∧ e.pwr.resting = false ∧ fromListening e = true ∧ tickDue r.t e.bt = true ∧
    refusedSet (resultingSet r.order e) e = 0 ∧ (∀ k < 24, resultingSet r.order e k < 3) ∧ hreServes e = true ∧ domState dPCI e = 0 ∧
    resultingSet r.order e dPCI ≠ 0 ∧ e.host.flight = none ∧ e.host.pollPend = false ∧ hreState (after .powerTransition e) = hreSTOPPED ∧
    f.pwr.reqs = [r] ∧ f.pwr.run = none ∧ f.pwr.resting = false ∧ fromListening f = true ∧ refusedSet (resultingSet r.order f) f = 0 ∧
    (∀ k < 24, resultingSet r.order f k < 3) ∧ hreServes f = true ∧ f.host.pollPend = true ∧
    (after .powerTransition f).host.stopping = true ∧ domState dPCI (after .powerTransition f) = 0 := by decide +kernel

theorem wit_WakesActAndReport_1 : let s := resting [(F.SPAN_WAKE_WAKE_EN, 1), (F.WAKE_CFG_SPAN_EN, 1), (F.WAKE_CFG_LANE_EN, 63), (F.WAKE_CFG_CUE_EN, 15),
      (F.WAKE_CFG_TIMER_EN, 1), (F.WAKE_CFG_ZWD_EN, 1)]
    let z := setBoot (fun b => { b with targetsDone := true }) (wr F.WAKE_CFG_ZWD_EN 0 s)
    let k := setPwr (fun p => { p with ktimer := some 0 }) s
    let w := line (List.replicate 8 (true, 0xDC3FC00000))
    let a := after (.laneActivityWake 3) s
    on F.SPAN_WAKE_WAKE_EN s = true ∧ domState 0 s ≤ 1 ∧ countsNow s = true ∧ Room s ∧ refusedSet (wakeOf s) s = 0 ∧ s.pwr.resting = true ∧
    (∀ x ∈ RxWord.chain w, wakeWord s x = true) ∧ (spanOf (sideOf 0) s).hits = [] ∧ w.length = 8 ∧ fromListening s = true ∧ on F.WAKE_CFG_SPAN_EN s = true ∧ domOn dFRM s = false ∧ waits E.WAKE 1 (after (.spanWakeSet 0 w) s) = true ∧
    (∀ x ∈ RxWord.chain (w.take 7), wakeWord s x = true) ∧ (w.take 7).length < 8 ∧ (after (.spanWakeSet 0 (w.take 7)) s).pwr = s.pwr ∧ domState dLAN s = 1 ∧ nbit (rd F.WAKE_CFG_LANE_EN s) 3 = true ∧
    maskAsleep s = true ∧ a.pwr.resting = false ∧ a.bt = 100 ∧ targetOf a 2 = 0 ∧ a.pwr.reqs = [{ t := 101, wake := true }] ∧
    nbit (rd F.WAKE_CFG_CUE_EN s) 2 = true ∧ waits E.WAKE 37 (after (.cueWake 2 (nbit (rd F.WAKE_CFG_CUE_CLOSE s) 2)) s) = true ∧
    mayWriteReg R.KTIMER_CFG s = true ∧ (after (.ktimerCfg .pcie 0x100000002) s).pwr.ktimer = some 96 ∧ k.pwr.ktimer = some 0 ∧
    on F.WAKE_CFG_TIMER_EN k = true ∧ waits E.WAKE 6 (after .keeperTimerExpiry k) = true ∧ (0x60 : Byte).toNat / 2 = rd F.ZWD_ADDR_ADDR s ∧
    on F.WAKE_CFG_ZWD_EN s = true ∧ waits E.WAKE 4 (after (.zwirdoAddressMatch 0x60 false) s) = true ∧ on F.WAKE_CFG_ZWD_EN z = false ∧
    z.boot.targetsDone = true ∧ allAsleep z = true ∧ z.pwr.run = none ∧ z.pwr.reqs = [] ∧
    (after (.zwirdoAddressMatch 0x60 true) (after (.zwirdoAddressMatch 0x60 false) z)).pwr.restAgain = true := by unfold Room; decide +kernel

/-- A wake whose set is refused: the AFE needs QSC, and the mask names the AFE alone. -/
theorem wit_WakesActAndReport_2 : let s := resting [(F.WAKE_CFG_LANE_EN, 63), (F.WAKE_MASK_MASK, 2 ^ dAFE)]
    domState dLAN s = 1 ∧ nbit (rd F.WAKE_CFG_LANE_EN s) 0 = true ∧ maskAsleep s = true ∧ refusedSet (wakeOf s) s ≠ 0 ∧ fromListening s = true ∧
    countsNow s = true ∧ fromListening (st .selftest []) = false ∧
    cnt C.PWR_REFUSED (after (.laneActivityWake 0) s) = 1 := by decide +kernel

/-! ### The Zwirdo sideband -/

/-- A transaction of written bytes, with no PEC. -/
def wrote (d : List Byte) : ZwdTxn := { data := d }

/-- The REG_READ of the worked example of spec/18: offset 0x0010 in LISTENING reads 0x00_0000_0003. -/
theorem test_zwirdo_read : let s := st .listening [(F.ZWD_ADDR_ADDR, 0x35)]
    (after (.regRead (wrote [2, 0x00, 0x10])) s).out = [.zwd [6, 0, 0, 0, 0, 0, 3] true] ∧ zwdAddrByte s = 0x6A := by decide +kernel

theorem wit_ZwirdoReportsAreAnswered : let s := st .listening [(F.ZWD_ALERT_STATUS, 3), (F.ZWD_STATUS_LAST_STATUS, 4), (F.SELFTEST_RESULT_HOLD_CODE, 7)]
    let n := wrote []
    let w := { wrote [7, 0, 0x40, 1, 2, 3, 4, 5] with pec := some 0 }
    Served 1 false false 0 n s ∧ (after (.status n) s).out = [.zwd [8, 3, 7, 0, 0, 0, 0, 0, 0] true] ∧ (st .reset []).term = .reset ∧
    Served 2 false false 0 n s ∧ Served 4 false false 0 n s ∧ (after (.last n) s).out = [.zwd [4] true] ∧ rd F.ZWD_STATUS_LAST_STATUS (after (.last n) s) = 0 ∧
    Served 3 false false 0 n s ∧ Served 0x43 false false 0 n s ∧ Served 0x50 false false 0 n s ∧ (after (.alertRead n) s).out = [.zwd [3] true] ∧
    zwdLive s = true ∧ alertAsserted s = true ∧ (after (.alertResponse true) s).out = [.zwd [0x60] true] ∧
    alertAsserted (after (.alertResponse true) s) = false ∧ zwdListed.contains (0x05 : Byte).toNat = false ∧ countsNow s = true ∧
    cnt C.ZWD_CMD_BAD (after (.zwdUnknownCommand 5) s) = 1 ∧ w.cut = false ∧ s.pwr.resting = false ∧ zwdFault 0x11 true true 8 w s = some (zPEC_BAD, false) ∧
    cnt C.ZWD_PEC_BAD (after (.regWrite w) s) = 1 ∧ zwdFault 0x11 true true 8 (wrote [7, 0]) s = some (zBAD_LEN, false) ∧
    ({ w with cut := true }).cut = true ∧ (after (.regWrite { w with cut := true }) s).out = [] ∧
    zwdFault 0x11 true true 8 (wrote [7, 0, 0x40, 1, 2, 3, 4, 5]) (wr F.ZWD_CFG_PEC_REQ 1 s) = some (zBAD_LEN, true) ∧
    (after (.ident n) (st .reset [])).out = [.zwd [] false] ∧ cnt C.ZWD_TIMEOUT (after .zwdTimeout s) = 1 := by unfold Served; decide +kernel

/-- A command that finds the spine resting ends the rest with its own address byte (R419). -/
theorem wit_ZwirdoReportsAreAnswered_2 : let s := resting [(F.ZWD_ALERT_STATUS, 2), (F.ZWD_CFG_ALERT_EN, 2), (F.ZWD_STATUS_LAST_STATUS, 4)]
    zwdLive s = true ∧ s.pwr.resting = true ∧ alertAsserted s = true ∧ zwdListed.contains (0x05 : Byte).toNat = false ∧
    (after (.last (wrote [])) s).pwr.resting = false ∧ (.zwd [4] true) ∈ (after (.last (wrote [])) s).out ∧
    (after (.alertResponse true) s).pwr.resting = false ∧ (.zwd [0x60] true) ∈ (after (.alertResponse true) s).out := by
  decide +kernel

theorem wit_ZwirdoCommandsAct_1 : let s := st .listening []
    let h := st .holding []
    let f := wrote [9, 0x02, 3, 0, 0, 0x10, 0x00, 0x00, 0xAA, 0xBB]
    Served 0x10 true false 3 (wrote [2, 0, 0x10]) s ∧ zwdOffset (wrote [2, 0, 0x10]) = 8 * (2 : BitVec 13).toNat ∧
    Served 0x10 true false 3 (wrote [2, 0, 0x11]) s ∧ zwdOffset (wrote [2, 0, 0x11]) % 8 ≠ 0 ∧
    (after (.regRead (wrote [2, 0, 0x11])) s).out = [.zwd [6, 3, 0, 0, 0, 0, 0] true] ∧ Served 0x11 true true 8 (wrote [7, 0, 0x40, 1, 2, 3, 4, 5]) s ∧
    reg 0x40 (after (.regWrite (wrote [7, 0, 0x40, 1, 2, 3, 4, 5])) s) = 0x0102030405 ∧ Served 0x20 false true 2 (wrote [0xFE, 0x5A]) s ∧
    (after (.zwdSoftReset (wrote [0xFE, 0x5A])) s).boot.softPending = true ∧ Served 0x20 false true 2 (wrote [0x5A, 0xFE]) s ∧
    (after (.zwdSoftReset (wrote [0x5A, 0xFE])) s).boot.softPending = false ∧ Served 0x30 true false f.data.length f h ∧ h.term = .holding ∧
    xferOk f.data = true ∧ 4 + byteAt f.data 2 ≤ byteAt f.data 0 ∧ 5 ≤ f.data.length ∧
    (after (.flashXfer f []) h).out = [.zwd [1, 0] true, .spi [0x02, 0x10, 0, 0, 0xAA, 0xBB] 0] ∧ flashByte 0x100000 (after (.flashXfer f []) h) = 0xAA ∧
    Served 0x30 true false f.data.length f s ∧ s.term ≠ .holding := by unfold Served; decide +kernel

theorem wit_ZwirdoCommandsAct_2 : let s := live .listening []
    let b := wr F.ZWD_STATUS_MBOX_BUSY 1 s
    let r := setZwd (fun z => { z with req := some 2 }) b
    let p := wrote [4, 254, 7, 8, 9]
    Served 0x40 true true p.data.length p s ∧ 3 ≤ p.data.length ∧ p.data.length ≤ 33 ∧ s.zwd.mbox.length = 256 ∧ mboxBusy s = false ∧
    (after (.mboxPut p) s).zwd.mbox.drop 253 = [0, 7, 8] ∧ rd F.ZWD_STATUS_LAST_STATUS (after (.mboxPut p) s) = zBAD_VALUE ∧
    Served 0x40 true true p.data.length p b ∧ mboxBusy b = true ∧ Served 0x41 false true 1 (wrote [1]) s ∧ Served 0x41 false true 1 (wrote [2]) s ∧
    Served 0x41 false true 1 (wrote [3]) s ∧ domOn dMGT s = true ∧ (after (.mboxRunRead (wrote [2])) s).zwd.req = some 2 ∧
    Served 0x41 false true 1 (wrote [1]) b ∧ r.zwd.req = some 2 ∧ domOn dMGT r = true ∧ keyKnown 0 = false ∧
    rd F.ZWD_STATUS_MBOX_RESULT (after (.mboxDone false) r) = cBAD_VALUE ∧ Served 0x42 true false 2 (wrote [1, 240]) s ∧
    (after (.mboxGet (wrote [1, 240])) s).out = [.zwd (32 :: List.replicate 32 0) true] ∧ Served 0x42 true false 2 (wrote [1, 240]) b := by
  unfold Served; decide +kernel

/-- A mailbox that holds a known key. -/
theorem wit_ZwirdoCommandsAct_3 : let r := setZwd (fun z => { z with req := some 2, mbox := [0x80, 3] ++ List.replicate 254 0 }) (live .listening [])
    keyKnown (beNat (slice r.zwd.mbox 0 2)) = true ∧ rd F.ZWD_STATUS_MBOX_RESULT (after (.mboxDone false) r) = cDONE := by decide +kernel

/-! ### Images, lane tests, the ledger, the test port -/

/-- Row 0's words 119 to 128: a piece of CAR_ID 7 with `valid` bytes. -/
def pieceWords (num valid : Nat) : List Word :=
  let ws := fput (fput (fput 0 39 32 7) 31 14 num) 13 8 valid :: List.replicate 8 0x0102030405
  ws ++ [BitVec.ofNat 40 (crc32 (toBytes ws) * 256)]

/-- The piece header of the worked example of spec/19: CAR_ID 0x17, piece 7,000, 40 bytes. -/
theorem test_piece_header : (pieceOf [0x1706D62800]).car = 0x17 ∧ (pieceOf [0x1706D62800]).num = 7000 ∧ (pieceOf [0x1706D62800]).valid = 40 := by decide +kernel

/-- A terminal that may collect CAR_ID 7 of 3 pieces; with a bitmap of it. -/
def carousel : State := setFrame (fun f => { f with carId := 7, carPieces := 3, slotDue := true }) (live .running [(F.GLEAN_CFG_ENABLE, 1), (F.FLASH_INFO_LAYOUT_OK, 1)])
def started7 : State := flashProgAll fBITMAP (bitmapMagic ++ [7, 0, 0, 3]) carousel

set_option maxRecDepth 100000 in
theorem wit_ImagesAreCollectedAndSwapped_1 : let w := pieceWords 1 40
    let d := bitmapClear 64 1 started7
    frmRuns carousel = true ∧ carousel.frame.slotDue = true ∧ frmRuns (st .reset []) = false ∧ countsNow carousel = true ∧ collecting (wr F.GLEAN_CFG_ENABLE 0 carousel) = false ∧ collecting carousel = true ∧ pieceOk (pieceWords 3 40) carousel = false ∧
    pieceOk w carousel = true ∧ bitmapOk carousel = false ∧ Room carousel ∧ cnt C.GLEAN_RESTART (after (.carouselPiece w) carousel) = 1 ∧
    frmRuns started7 = true ∧ started7.frame.slotDue = true ∧ collecting started7 = true ∧ pieceOk w started7 = true ∧ pieceHeld 1 started7 = false ∧
    (after (.carouselPiece w) started7).glean.buf.map (fun p => p.1) = [1] ∧ pieceOk w d = true ∧ pieceHeld 1 d = true ∧
    cnt C.GLEAN_PIECE_DUP (after (.carouselPiece w) d) = 1 ∧ pieceOk (pieceWords 3 40) started7 = false ∧ countsNow started7 = true ∧
    (after (.carouselPiece w) started7).frame.slotDue = false ∧ cnt C.GLEAN_PIECE_BAD (after (.carouselPiece (pieceWords 3 40)) started7) = 1 := by
  unfold Room; decide +kernel

theorem wit_ImagesAreCollectedAndSwapped_2 : restartFor (pieceOf (pieceWords 1 40)) started7.frame.carPieces started7 = started7 := by
  unfold restartFor
  have h : (!bitmapOk started7 || bitmapCar started7 != (pieceOf (pieceWords 1 40)).car || bitmapPieces started7 != started7.frame.carPieces) = false := by
    decide +kernel
  have g : ((pieceOf (pieceWords 1 40)).num == 0 && pieceHeld 0 started7 && bitmapCrc started7 != crc32 (pieceOf (pieceWords 1 40)).bytes) = false := by
    decide +kernel
  simp only [h, g]
  rfl

set_option maxRecDepth 100000 in
theorem wit_ImagesAreCollectedAndSwapped_3 : let p := setGlean (fun g => { g with buf := [(1, List.replicate 40 9)] }) started7
    let v := setGlean (fun g => { g with verifyDue := true }) started7
    let w := setGlean (fun g => { g with swap := some (5, 5) }) { wr F.GLEAN_STATUS_STATE iVERIFIED started7 with bt := 6 }
    let t := setGlean (fun g => { g with trialTicks := 480 }) (wr F.IMAGE_RUNNING_TRIAL 1 (wr F.GLEAN_CFG_TRIAL_LIMIT 10 started7))
    p.glean.buf = [(1, List.replicate 40 9)] ∧ domOn dMGT p = true ∧ pieceHeld 1 p = false ∧ rd F.GLEAN_STATUS_PIECES p < 26215 ∧ Room p ∧ countsNow p = true ∧
    pieceHeld 1 (after (.pieceProgram false) p) = true ∧ rd F.GLEAN_STATUS_PIECES (after (.pieceProgram false) p) = 1 ∧
    waits E.GLEAN_RESTART 4 (after (.pieceProgram true) p) = true ∧ v.glean.verifyDue = true ∧ domOn dMGT v = true ∧ verifySlot fSTAGING v ≠ 0 ∧
    countsNow v = true ∧ Room v ∧ waits E.GLEAN_RESTART 2 (after .gleanVerify v) = true ∧ w.glean.swap = some (5, 5) ∧ tickDue 5 w.bt = true ∧
    imageState w = iVERIFIED ∧ (after .swapTick w).boot.softPending = true ∧ rd F.RESET_CAUSE_SOFT_CMD (after .swapTick w) = 1 ∧ onTrial t = true ∧
    rd F.GLEAN_CFG_TRIAL_LIMIT t ≠ 0 ∧ t.boot.softPending = false ∧ 48 * rd F.GLEAN_CFG_TRIAL_LIMIT t ≤ t.glean.trialTicks ∧
    cnt C.TRIAL_EXPIRED (after .trialExpired t) = 1 := by unfold Room; decide +kernel

/-- FIXED10 = 1 as it is received, a seed and 256 bits. -/
def tenths (n : Nat) : List Bool := (List.range n).map (fun i => i % 10 == 9)

/-- A lane 0 that may be tested, with a test of FIXED10 asked for, begun, and begun with its checker locked. -/
def bench : State := live .listening [(F.ETH_CFG_ENABLE 1, 1)]
def asked : State := after (.lanePrbsCfg .pcie 0 0xEA60000147) bench
def testing : State := after (.laneTestStart 0) (laneBoundary 0 asked)
def synced : State := after (.checkerLock 0 (tenths 266)) testing

theorem wit_LaneTestsRun_1 : let v : Word := 0xEA60000147
    let g := live .running []
    let p := after (.laneLoop .pcie 0 1) bench
    mayWriteReg (R.LANE_PRBS_CFG 0) bench = true ∧ fget v 0 0 = 1 ∧ bench.lanes.length = 8 ∧ testRefusal 0 v (reg (R.LANE_LOOP 0) bench) bench = 0 ∧
    rd (F.LANE_PRBS_CFG_DURATION 0) asked = 60000 ∧ rd (F.LANE_PRBS_CFG_PATTERN 0) asked = 4 ∧ (laneSt 0 asked).startAsk = true ∧
    mayWriteReg (R.LANE_PRBS_CFG 0) g = true ∧ g.lanes.length = 8 ∧ testRefusal 0 v (reg (R.LANE_LOOP 0) g) g = 1 ∧ Room g ∧
    waits E.LANE_TEST_REFUSED 16 (after (.lanePrbsCfg .pcie 0 v) g) = true ∧ mayWriteReg (R.LANE_LOOP 0) bench = true ∧ fget (1 : Word) 1 0 ≠ 0 ∧
    testRefusal 0 (reg (R.LANE_PRBS_CFG 0) bench) 1 bench = 0 ∧ rd (F.LANE_LOOP_MODE 0) p = 1 ∧ mayWriteReg (R.LANE_LOOP 0) g = true ∧
    testRefusal 0 (reg (R.LANE_PRBS_CFG 0) g) 1 g ≠ 0 ∧ mayWriteReg (R.LANE_PRBS_CFG 0) testing = true ∧ testing.lanes.length = 8 ∧
    fget (0x146 : Word) 0 0 = 0 ∧ rd (F.LANE_LOOP_MODE 0) testing = 0 ∧ laneInTest 0 testing = true ∧
    (laneSt 0 (after (.lanePrbsCfg .pcie 0 0x146) testing)).endAsk = some 1 ∧ mayWriteReg (R.LANE_LOOP 0) p = true ∧ p.lanes.length = 8 ∧
    rd (F.LANE_PRBS_CFG_RUN 0) p = 0 ∧ (laneSt 0 (after (.laneLoop .pcie 0 0) p)).startAsk = false ∧
    (laneSt 0 (after (.laneLoop .pcie 0 0) p)).endAsk = none := by unfold Room; decide +kernel

theorem wit_LaneTestsRun_2 : let a := laneBoundary 0 asked
    let e := setLane 0 (fun l => { l with endDue := some 1 }) testing
    (laneSt 0 a).startDue = true ∧ a.lanes.length = 8 ∧ fget (reg (R.LANE_PRBS_CFG 0) a) 1 0 = 3 ∧
    testing.out.head? = some (.pattern 0 4 1 false) ∧ laneInTest 0 e = true ∧ testEndCause 0 e = some 1 ∧ Room e ∧
    waits E.LANE_TEST_END 16 (after (.laneTestEnd 0) e) = true := by unfold Room; decide +kernel

set_option maxRecDepth 100000 in
theorem wit_LaneTestsRun_3 : laneInTest 0 testing = true ∧ testing.lanes.length = 8 ∧ on (F.LANE_PRBS_CFG_CHK_EN 0) testing = true ∧
    on (F.LANE_PRBS_STATUS_LOCKED 0) testing = false ∧ (chkBits 0 (tenths 266) testing).locked = true ∧ (chkBits 0 (tenths 266) testing).bits = 256 ∧
    laneInTest 0 synced = true ∧ synced.lanes.length = 8 ∧ on (F.LANE_PRBS_CFG_CHK_EN 0) synced = true ∧
    on (F.LANE_PRBS_STATUS_LOCKED 0) synced = true ∧ (chkBits 0 (List.replicate 200 true) synced).locked = false ∧
    on (F.LANE_PRBS_STATUS_SYNC_LOSS 0) (after (.syncLoss 0 (List.replicate 200 true)) synced) = true ∧ laneInTest 0 bench = false := by decide +kernel

theorem wit_LaneTestsRun_4 : let n := st .listening []
    mayWriteReg (R.LANE_INJECT 0) bench = true ∧ laneReady 0 bench = true ∧ (after (.injectSingle .pcie 0 0) bench).out = [.inject 0 1 true] ∧
    mayWriteReg (R.LANE_INJECT 0) testing = true ∧ laneReady 0 testing = true ∧
    (after (.injectSingle .pcie 0 0) testing).out.head? = some (.inject 0 1 false) ∧
    (laneSt 0 (after (.injectBurst .pcie 0 5) bench)).inject = some 4 ∧ (laneSt 0 (after (.injectContinuous .pcie 0 5) bench)).inject = some 0 ∧
    (laneSt 0 (after (.injectStop .pcie 0 0) (after (.injectContinuous .pcie 0 5) bench))).inject = none ∧ mayWriteReg (R.LANE_INJECT 0) n = true ∧
    laneReady 0 n = false ∧ Room n ∧ waits E.LANE_TEST_REFUSED 32 (after (.injectSingle .pcie 0 0) n) = true := by unfold Room; decide +kernel

theorem wit_LedgerGroupsAreCleared : let s := setReg (counterAddr C.REG_ACCESS_BAD) 9 { st .running [] with bt := 7 }
    let g := groupOf C.REG_ACCESS_BAD
    let c : ClearReq := { groups := 2 ^ g, fromReg := true, onHarvest := false, t := 8 }
    let d := { s with ledger := { s.ledger with clears := [c] }, bt := 8 }
    mayWriteReg R.LEDGER_CLEAR s = true ∧ fget (0x10001 : Word) 15 0 ≠ 0 ∧
    (after (.ledgerClear .pcie 0x10001) s).ledger.clears = [{ groups := 1, fromReg := true, onHarvest := true, t := 8 }] ∧
    d.ledger.clears = [c] ∧ clearDue d c = true ∧ nbit c.groups g = true ∧ cnt C.REG_ACCESS_BAD d = 9 ∧ cnt C.REG_ACCESS_BAD (after .ledgerClearApply d) = 0 ∧
    nbit c.groups 15 = false ∧ d.ledger.clears.any ClearReq.fromReg = true ∧ countsNow d = true ∧
    cnt C.STAGE_SUPERSEDED (after (.ledgerClear .pcie 1) d) = 1 := by decide +kernel

theorem wit_TestPortInstructionsAreSelected : (st .holding []).term = .holding ∧ (after .highz (st .holding [])).jtag.ir = .highz ∧
    (st .running []).term ≠ .reset ∧ (after (.extest 1 2) (st .running [])).jtag.ir = .bypass ∧ (after (.samplePreload 5 6) (st .running [])).jtag.update = 6 ∧
    3 < (0xFF : Byte).toNat := by decide +kernel

end Sys2Proof.Tests
end

/-! PROOF. What every command keeps: each meaning's `keeps_exec…` (Laws/Keeps*.lean), gathered over the commands. -/

section

namespace Sys2Proof.Proofs

open Sys2Proof Sys2Proof.Machine Sys2Proof.Claims Sys2Proof.Laws

/-- No meaning ends in a fault or a refusal. -/
theorem exec_completes (i : Instr) (s : State) : ∃ t, exec i s = .next t := by
  cases i <;> exact ⟨_, rfl⟩

/-- A command keeps everything outside its own row of `reach`: the set of its meaning lies within that row. -/
theorem keeps_exec (i : Instr) (s : State) : KeepsRes (reach i) s (exec i s) := by
  have hs : ∀ A, Keeps A s s := fun A => .refl A s
  cases i with dsimp only [reach]
  | lowHalfRead => exact keeps_execLowHalfRead _ _ rfl (hs _)
  | highHalfRead => exact keeps_execHighHalfRead _ _ rfl (hs _)
  | highHalfWrite => exact keeps_execHighHalfWrite _ _ _ rfl (hs _)
  | lowHalfWrite => exact keeps_execLowHalfWrite _ _ _ rfl (hs _)
  | eightByteAccess => exact keeps_execEightByteAccess _ _ _ rfl (hs _)
  | badSizeWrite p => exact keeps_execBadSizeWrite p _ _ rfl (hs _)
  | partialRead => exact keeps_execPartialRead _ _ _ rfl (hs _)
  | unassignedAccess => exact keeps_execUnassignedAccess _ _ _ _ rfl (hs _)
  | timeNowRead => exact keeps_execTimeNowRead _ _ _ rfl (hs _)
  | powerOnReset => exact keeps_execPowerOnReset rfl (hs _)
  | pinReset => exact keeps_execPinReset rfl (hs _)
  | brownOutReset => exact keeps_execBrownOutReset rfl (hs _)
  | releaseOfReset => exact keeps_execReleaseOfReset _ rfl (hs _)
  | selftestStepDone => exact keeps_execSelftestStepDone _ rfl (hs _)
  | bootLoadGo => exact keeps_execBootLoadGo _ _ rfl (hs _)
  | imageLoadDone => exact keeps_execImageLoadDone _ rfl (hs _)
  | flashBridgeGo => exact keeps_execFlashBridgeGo _ _ rfl (hs _)
  | flashBridgeDone => exact keeps_execFlashBridgeDone _ rfl (hs _)
  | softReset => exact keeps_execSoftReset _ _ rfl (hs _)
  | softResetProceed => exact keeps_execSoftResetProceed rfl (hs _)
  | enterListening => exact keeps_execEnterListening rfl (hs _)
  | defaultTargets => exact keeps_execDefaultTargets rfl (hs _)
  | tickOverrun => exact keeps_execTickOverrun _ rfl (hs _)
  | buildingTick => exact keeps_execBuildingTick _ rfl (hs _)
  | healthPulse => exact keeps_execHealthPulse _ _ rfl (hs _)
  | classTimeElapsed => exact keeps_execClassTimeElapsed rfl (hs _)
  | kaWatchdog => exact keeps_execKaWatchdog _ _ rfl (hs _)
  | watchdogExpiry => exact keeps_execWatchdogExpiry rfl (hs _)
  | admission => exact keeps_execAdmit _ rfl (hs _)
  | insertion => exact keeps_execInsertion rfl (hs _)
  | admitDone => exact keeps_execAdmitDone rfl (hs _)
  | admitFail => exact keeps_execAdmitFail rfl (hs _)
  | turn => exact keeps_execTurn _ rfl (hs _)
  | turnEnd => exact keeps_execTurnEnd _ rfl (hs _)
  | turnEffective => exact keeps_execTurnEffective _ rfl (hs _)
  | turnAuto => exact keeps_execTurnAuto _ rfl (hs _)
  | leave => exact keeps_execLeave _ rfl (hs _)
  | leaving => exact keeps_execLeaving rfl (hs _)
  | leaveReqTimeout => exact keeps_execLeaveReqTimeout rfl (hs _)
  | delayStep => exact keeps_execDelayStep _ rfl (hs _)
  | wordLock => exact keeps_execWordLock _ _ rfl (hs _)
  | wordLockLost => exact keeps_execWordLockLost _ _ rfl (hs _)
  | spanLos => exact keeps_execSpanLos _ _ _ _ rfl (hs _)
  | lossOfSignalEnd => exact keeps_execLossOfSignalEnd _ _ _ rfl (hs _)
  | cdrLock => exact keeps_execCdrLock _ rfl (hs _)
  | eqSweepDone => exact keeps_execEqSweepDone _ _ rfl (hs _)
  | eqTrack => exact keeps_execEqTrack _ _ _ _ rfl (hs _)
  | fillEnd => exact keeps_execFillEnd _ _ rfl (hs _)
  | headlandDecision => exact keeps_execHeadlandDecision _ _ _ rfl (hs _)
  | storeReset => exact keeps_execStoreReset _ rfl (hs _)
  | tickMarker => exact keeps_execTickMarker _ _ _ rfl (hs _)
  | tickMarkerMiss => exact keeps_execTickMarkerMiss _ _ rfl (hs _)
  | rowCheck => exact keeps_execRowCheck _ _ _ rfl (hs _)
  | spanRowLost => exact keeps_execSpanRowLost _ _ _ rfl (hs _)
  | frameHeader => exact keeps_execFrameHeader _ _ rfl (hs _)
  | generationEffective => exact keeps_execGenerationEffective _ rfl (hs _)
  | grantMap => exact keeps_execGrantMap _ rfl (hs _)
  | expressWord => exact keeps_execExpressWord _ _ _ rfl (hs _)
  | channelLastExpiry => exact keeps_execChannelLastExpiry _ rfl (hs _)
  | claimPrepared => exact keeps_execClaimPrepared rfl (hs _)
  | claim => exact keeps_execClaim _ _ rfl (hs _)
  | claimRetry => exact keeps_execClaimRetry rfl (hs _)
  | assign => exact keeps_execAssign _ rfl (hs _)
  | assignVerifyDone => exact keeps_execAssignVerifyDone rfl (hs _)
  | release => exact keeps_execRelease _ rfl (hs _)
  | grantTimeout => exact keeps_execGrantTimeout rfl (hs _)
  | rangeResult => exact keeps_execRangeResult rfl (hs _)
  | rangeReportRepeat => exact keeps_execRangeReportRepeat rfl (hs _)
  | rangeOk => exact keeps_execRangeOk _ rfl (hs _)
  | rangeRetry => exact keeps_execRangeRetry _ rfl (hs _)
  | rangeAdj => exact keeps_execRangeAdj _ rfl (hs _)
  | rangeRecompute => exact keeps_execRangeRecompute rfl (hs _)
  | delayStepStale => exact keeps_execDelayStepStale rfl (hs _)
  | flywheelEntry => exact keeps_execFlywheelEntry rfl (hs _)
  | flywheelExit => exact keeps_execFlywheelExit _ rfl (hs _)
  | timeMap => exact keeps_execTimeMap _ rfl (hs _)
  | noteMalformed => exact keeps_execNoteMalformed _ _ rfl (hs _)
  | noteUnknown => exact keeps_execNoteUnknown _ rfl (hs _)
  | mapDesc => exact keeps_execMapDesc _ rfl (hs _)
  | subscribe => exact keeps_execSubscribe _ rfl (hs _)
  | keyLoad => exact keeps_execKeyLoad _ rfl (hs _)
  | setting => exact keeps_execSetting _ rfl (hs _)
  | motionProfile => exact keeps_execMotionProfile _ rfl (hs _)
  | powerOrder => exact keeps_execPowerOrder _ rfl (hs _)
  | imageOrderSwap => exact keeps_execImageOrderSwap _ rfl (hs _)
  | imageOrderConfirm => exact keeps_execImageOrderConfirm _ rfl (hs _)
  | imageOrderRevert => exact keeps_execImageOrderRevert _ rfl (hs _)
  | resetOrder => exact keeps_execResetOrder _ rfl (hs _)
  | resetOrderDue => exact keeps_execResetOrderDue rfl (hs _)
  | statusReq => exact keeps_execStatusReq _ rfl (hs _)
  | hostMsgDn => exact keeps_execHostMsgDn _ rfl (hs _)
  | mapReq => exact keeps_execMapReq _ rfl (hs _)
  | noteUpExpired => exact keeps_execNoteUpExpired rfl (hs _)
  | burstLock => exact keeps_execBurstLock _ rfl (hs _)
  | windowWrite => exact keeps_execWindowWrite _ _ _ _ rfl (hs _)
  | burstBufferRelease => exact keeps_execBurstBufferRelease _ rfl (hs _)
  | cipherJobDone => exact keeps_execCipherJobDone _ _ rfl (hs _)
  | keyReady => exact keeps_execKeyReady _ _ rfl (hs _)
  | keyErase => exact keeps_execKeyErase rfl (hs _)
  | entropyFail => exact keeps_execEntropyFail _ rfl (hs _)
  | drbgReseed => exact keeps_execDrbgReseed _ rfl (hs _)
  | drbgStopped => exact keeps_execDrbgStopped rfl (hs _)
  | drbgReinstantiate => exact keeps_execDrbgReinstantiate _ rfl (hs _)
  | sigOpDone => exact keeps_execSigOpDone _ rfl (hs _)
  | thresherPacket => exact keeps_execThresherPacket rfl (hs _)
  | thUpdateSet => exact keeps_execThUpdateSet _ _ rfl (hs _)
  | thUpdateDelete => exact keeps_execThUpdateDelete _ _ rfl (hs _)
  | thUpdateCommit => exact keeps_execThUpdateCommit _ _ rfl (hs _)
  | tableSweep => exact keeps_execTableSweep rfl (hs _)
  | tableSweepDone => exact keeps_execTableSweepDone rfl (hs _)
  | deadlineDiscard => exact keeps_execDeadlineDiscard rfl (hs _)
  | holddownFlush => exact keeps_execHolddownFlush _ rfl (hs _)
  | qmIndWrite => exact keeps_execQmIndWrite _ _ rfl (hs _)
  | qmIndRead => exact keeps_execQmIndRead _ _ rfl (hs _)
  | qmIndDone => exact keeps_execQmIndDone rfl (hs _)
  | lowReload => exact keeps_execLowReload _ _ rfl (hs _)
  | run => exact keeps_execRun _ _ rfl (hs _)
  | firmwareRun => exact keeps_execFirmwareRun rfl (hs _)
  | hreStart => exact keeps_execHreStart _ _ rfl (hs _)
  | hreStop => exact keeps_execHreStop _ _ rfl (hs _)
  | orderlyStopDone => exact keeps_execOrderlyStopDone rfl (hs _)
  | hostAbsent => exact keeps_execHostAbsent rfl (hs _)
  | pollPoint => exact keeps_execPollPoint _ _ _ rfl (hs _)
  | doorbellReadDone => exact keeps_execDoorbellReadDone _ rfl (hs _)
  | txDescriptor => exact keeps_execTxDescriptor _ _ rfl (hs _)
  | txDataReadDone => exact keeps_execTxDataReadDone _ _ rfl (hs _)
  | hostDelivery => exact keeps_execHostDelivery _ _ rfl (hs _)
  | nop => exact keeps_execNop _ rfl (hs _)
  | wait => exact keeps_execWait _ _ rfl (hs _)
  | harvest => exact keeps_execHarvest _ _ rfl (hs _)
  | harvestSnapshot => exact keeps_execHarvestSnapshot _ rfl (hs _)
  | clearLedger => exact keeps_execClearLedger _ _ rfl (hs _)
  | qmWrite => exact keeps_execQmWrite _ _ _ _ _ rfl (hs _)
  | stagedWrite => exact keeps_execStagedWrite _ _ _ _ rfl (hs _)
  | leaveCommand => exact keeps_execLeaveCommand _ rfl (hs _)
  | hostMsg => exact keeps_execHostMsg _ _ _ rfl (hs _)
  | settingWrite => exact keeps_execSettingWrite _ _ _ _ rfl (hs _)
  | settingRead => exact keeps_execSettingRead _ _ _ _ _ rfl (hs _)
  | settingDelete => exact keeps_execSettingDelete _ _ _ rfl (hs _)
  | imageWriteStaging => exact keeps_execImageWriteStaging _ _ _ _ rfl (hs _)
  | imageVerify => exact keeps_execImageVerify _ rfl (hs _)
  | imageSwap => exact keeps_execImageSwap _ _ rfl (hs _)
  | imageConfirm => exact keeps_execImageConfirm _ rfl (hs _)
  | imageRevert => exact keeps_execImageRevert _ rfl (hs _)
  | softResetCommand => exact keeps_execSoftResetCommand _ _ rfl (hs _)
  | ringRestart => exact keeps_execRingRestart _ _ rfl (hs _)
  | badOpcode => exact keeps_execBadOpcode _ _ _ rfl (hs _)
  | intxPend => exact keeps_execIntxPend _ _ rfl (hs _)
  | ringStopped => exact keeps_execRingStopped _ _ rfl (hs _)
  | hostReset => exact keeps_execHostReset _ rfl (hs _)
  | linkUp => exact keeps_execLinkUp _ rfl (hs _)
  | linkDown => exact keeps_execLinkDown _ _ _ rfl (hs _)
  | anBasePage => exact keeps_execAnBasePage _ _ rfl (hs _)
  | sgmiiWord => exact keeps_execSgmiiWord _ _ rfl (hs _)
  | anRestart => exact keeps_execAnRestart _ rfl (hs _)
  | ethFrameRx => exact keeps_execEthFrameRx _ _ _ _ rfl (hs _)
  | pause => exact keeps_execPause _ _ rfl (hs _)
  | pauseEnd => exact keeps_execPauseEnd _ rfl (hs _)
  | frameTransmit => exact keeps_execFrameTransmit _ _ rfl (hs _)
  | ptpRx => exact keeps_execPtpRx _ _ rfl (hs _)
  | ptpMessageDue => exact keeps_execPtpMessageDue _ _ _ rfl (hs _)
  | announceReceiptTimeout => exact keeps_execAnnounceReceiptTimeout _ rfl (hs _)
  | holdoverExpiry => exact keeps_execHoldoverExpiry rfl (hs _)
  | dmxBreak => exact keeps_execDmxBreak _ rfl (hs _)
  | rdmTransaction => exact keeps_execRdmTransaction _ rfl (hs _)
  | rdmTransactionEnd => exact keeps_execRdmTransactionEnd _ _ _ rfl (hs _)
  | rdmDiscovery => exact keeps_execRdmDiscovery _ rfl (hs _)
  | dmxRxPacket => exact keeps_execDmxRxPacket _ _ _ _ _ _ rfl (hs _)
  | dmxLoss => exact keeps_execDmxLoss _ rfl (hs _)
  | ltcFrame => exact keeps_execLtcFrame _ rfl (hs _)
  | ltcRxCodeword => exact keeps_execLtcRxCodeword _ _ _ _ _ _ rfl (hs _)
  | midiTxByte => exact keeps_execMidiTxByte _ rfl (hs _)
  | midiRxByte => exact keeps_execMidiRxByte _ _ _ _ rfl (hs _)
  | cueEdge => exact keeps_execCueEdge _ _ _ rfl (hs _)
  | cuePulseEnd => exact keeps_execCuePulseEnd _ rfl (hs _)
  | genlockEdge => exact keeps_execGenlockEdge _ rfl (hs _)
  | setpointLoss => exact keeps_execSetpointLoss _ rfl (hs _)
  | brakeRelease => exact keeps_execBrakeRelease _ rfl (hs _)
  | enablingDone => exact keeps_execEnablingDone _ rfl (hs _)
  | encError => exact keeps_execEncError _ rfl (hs _)
  | indexEdge => exact keeps_execIndexEdge _ _ rfl (hs _)
  | limit => exact keeps_execLimit _ _ _ rfl (hs _)
  | driveFault => exact keeps_execDriveFault _ _ rfl (hs _)
  | hold => exact keeps_execHold _ _ rfl (hs _)
  | followingError => exact keeps_execFollowingError _ rfl (hs _)
  | softLimit => exact keeps_execSoftLimit _ rfl (hs _)
  | profileEnd => exact keeps_execProfileEnd _ rfl (hs _)
  | rundownEnd => exact keeps_execRundownEnd _ rfl (hs _)
  | brakeSetExpiry => exact keeps_execBrakeSetExpiry _ rfl (hs _)
  | motCut => exact keeps_execMotCut _ rfl (hs _)
  | posWrite => exact keeps_execPosWrite _ _ _ _ rfl (hs _)
  | slotHalfStart => exact keeps_execSlotHalfStart rfl (hs _)
  | sampleDone => exact keeps_execSampleDone _ _ _ rfl (hs _)
  | afeCalStart => exact keeps_execAfeCalStart _ _ rfl (hs _)
  | afeCalDone => exact keeps_execAfeCalDone _ rfl (hs _)
  | afePfoFault => exact keeps_execAfePfoFault _ rfl (hs _)
  | pwrTarget => exact keeps_execPwrTarget _ _ _ rfl (hs _)
  | powerTransition => exact keeps_execPowerTransition rfl (hs _)
  | pwrDone => exact keeps_execPwrDone rfl (hs _)
  | spanWakeSet => exact keeps_execSpanWakeSet _ _ rfl (hs _)
  | laneActivityWake => exact keeps_execLaneActivityWake _ rfl (hs _)
  | cueWake => exact keeps_execCueWake _ _ rfl (hs _)
  | ktimerCfg => exact keeps_execKtimerCfg _ _ rfl (hs _)
  | keeperTimerExpiry => exact keeps_execKeeperTimerExpiry rfl (hs _)
  | zwirdoAddressMatch => exact keeps_execZwirdoAddressMatch _ _ rfl (hs _)
  | status => exact keeps_execStatus _ rfl (hs _)
  | ident => exact keeps_execIdent _ rfl (hs _)
  | fprint => exact keeps_execFprint _ rfl (hs _)
  | last => exact keeps_execLast _ rfl (hs _)
  | regRead => exact keeps_execRegRead _ rfl (hs _)
  | regWrite => exact keeps_execRegWrite _ rfl (hs _)
  | zwdSoftReset => exact keeps_execZwdSoftReset _ rfl (hs _)
  | flashXfer => exact keeps_execFlashXfer _ _ rfl (hs _)
  | mboxPut => exact keeps_execMboxPut _ rfl (hs _)
  | mboxRunWrite => exact keeps_execMboxRunWrite _ rfl (hs _)
  | mboxRunRead => exact keeps_execMboxRunRead _ rfl (hs _)
  | mboxRunDelete => exact keeps_execMboxRunDelete _ rfl (hs _)
  | mboxDone => exact keeps_execMboxDone _ rfl (hs _)
  | mboxGet => exact keeps_execMboxGet _ rfl (hs _)
  | mboxStatus => exact keeps_execMboxStatus _ rfl (hs _)
  | alertRead => exact keeps_execAlertRead _ rfl (hs _)
  | alertResponse => exact keeps_execAlertResponse _ rfl (hs _)
  | zwdTimeout => exact keeps_execZwdTimeout rfl (hs _)
  | zwdUnknownCommand => exact keeps_execZwdUnknownCommand _ rfl (hs _)
  | carouselPiece => exact keeps_execCarouselPiece _ rfl (hs _)
  | pieceProgram => exact keeps_execPieceProgram _ rfl (hs _)
  | gleanVerify => exact keeps_execGleanVerify rfl (hs _)
  | swapTick => exact keeps_execSwapTick rfl (hs _)
  | trialExpired => exact keeps_execTrialExpired rfl (hs _)
  | lanePrbsCfg => exact keeps_execLanePrbsCfg _ _ _ rfl (hs _)
  | laneLoop => exact keeps_execLaneLoop _ _ _ rfl (hs _)
  | laneTestStart => exact keeps_execLaneTestStart _ rfl (hs _)
  | laneTestEnd => exact keeps_execLaneTestEnd _ rfl (hs _)
  | checkerLock => exact keeps_execCheckerLock _ _ rfl (hs _)
  | syncLoss => exact keeps_execSyncLoss _ _ rfl (hs _)
  | injectSingle => exact keeps_execInjectSingle _ _ _ rfl (hs _)
  | injectBurst => exact keeps_execInjectBurst _ _ _ rfl (hs _)
  | injectContinuous => exact keeps_execInjectContinuous _ _ _ rfl (hs _)
  | injectStop => exact keeps_execInjectStop _ _ _ rfl (hs _)
  | ledgerClear => exact keeps_execLedgerClear _ _ rfl (hs _)
  | ledgerClearApply => exact keeps_execLedgerClearApply rfl (hs _)
  | extest => exact keeps_execExtest _ _ rfl (hs _)
  | samplePreload => exact keeps_execSamplePreload _ _ rfl (hs _)
  | highz => exact keeps_execHighz rfl (hs _)
  | clamp => exact keeps_execClamp rfl (hs _)
  | bypass => exact keeps_execBypass _ rfl (hs _)
  | leaveReqRepeat => exact keeps_execLeaveReqRepeat rfl (hs _)
  | entropyRetestPass => exact keeps_execEntropyRetestPass _ rfl (hs _)
  | qualificationTimeout => exact keeps_execQualificationTimeout _ rfl (hs _)

/-- Settles O4: a command completes, and what it keeps is what its meaning keeps. -/
theorem everyCommandCompletesInItsReach : Obligations.EveryCommandCompletesInItsReach := by
  intro i s
  obtain ⟨t, ht⟩ := exec_completes i s
  have hk : Keeps (reach i) s t := keeps_exec i s t ht
  exact ⟨t, ht, hk.rest, hk.pending⟩

end Sys2Proof.Proofs

end

/-! PROOF. The latches of the three register access paths, and the register accesses that go through them
(spec/00_scope.md R3-R8). -/

section

namespace Sys2Proof.Proofs

open Sys2Proof Sys2Proof.Machine Sys2Proof.Claims Sys2Proof.Laws

variable {s : State}

/-! ### The latches -/

@[simp] theorem latches_setLatches_same (p : Path) (l : PathLatches) : latches p (setLatches p l s) = l := by
  cases p <;> rfl

theorem latches_setLatches_other {p q : Path} (h : q ≠ p) (l : PathLatches) :
    latches q (setLatches p l s) = latches q s := by
  cases p <;> cases q <;> first | rfl | exact absurd rfl h

@[simp] theorem reg_setLatches (p : Path) (l : PathLatches) (off : Nat) : reg off (setLatches p l s) = reg off s := by
  cases p <;> rfl

@[simp] theorem setLatches_out (p : Path) (l : PathLatches) : (setLatches p l s).out = s.out := by cases p <;> rfl

@[simp] theorem setLatches_term (p : Path) (l : PathLatches) : (setLatches p l s).term = s.term := by cases p <;> rfl

@[simp] theorem setLatches_host (p : Path) (l : PathLatches) : (setLatches p l s).host = s.host := by cases p <;> rfl

@[simp] theorem setLatches_pwr (p : Path) (l : PathLatches) : (setLatches p l s).pwr = s.pwr := by cases p <;> rfl

@[simp] theorem latches_emit (p : Path) (o : Output) : latches p (emit o s) = latches p s := by cases p <;> rfl

@[simp] theorem latches_setReg (p : Path) (off : Nat) (v : Word) : latches p (setReg off v s) = latches p s := by
  cases p <;> rfl

/-- What reaches no latch leaves the latches of every path. -/
theorem latches_of_keeps {A : Nat} {t : State} (h : Keeps A s t) (hA : Nat.land A 0xe = 0) (q : Path) :
    latches q t = latches q s := by
  have hb : ∀ i, Nat.testBit 0xe i = true → A.testBit i = false := fun i hi => by
    have := congrArg (fun n => n.testBit i) (show A &&& 0xe = 0 from hA)
    simpa [Nat.testBit_and, hi] using this
  cases q
  · exact h.rest.pcie (hb 1 rfl)
  · exact h.rest.zwirdo (hb 2 rfl)
  · exact h.rest.mgmt (hb 3 rfl)

/-! ### Reads -/

theorem dwordReg_even (r : Nat) : dwordReg (2 * r) = 8 * r := by unfold dwordReg; omega

theorem dwordReg_odd (r : Nat) : dwordReg (2 * r + 1) = 8 * r := by unfold dwordReg; omega

theorem readDword_unassigned {p : Path} {d : Nat} (h : regAssigned (dwordReg d) = false) : readDword p d s = (0, s) := by
  simp [readDword, h]

theorem readDword_even {p : Path} {r : Nat} (h : regAssigned (8 * r) = true) :
    readDword p (2 * r) s = (fget (readLow p (8 * r) s).1 31 0, (readLow p (8 * r) s).2) := by
  simp [readDword, dwordReg_even, h]

theorem readDword_odd {p : Path} {r : Nat} (h : regAssigned (8 * r) = true) :
    readDword p (2 * r + 1) s = ((readHigh p (8 * r) s).toNat, s) := by
  simp [readDword, dwordReg_odd, h]

theorem readHigh_tagged {p : Path} {off : Nat} (h : (latches p s).snap.tag = some off) :
    readHigh p off s = (latches p s).snap.val := by simp [readHigh, h]

theorem readHigh_untagged {p : Path} {off : Nat} (h : (latches p s).snap.tag ≠ some off) :
    readHigh p off s = BitVec.ofNat 8 (fget (readReg off s) 39 32) := by simp [readHigh, h]

/-- TIME_NOW is no register HOLDING lets through. -/
theorem readable_timeNow : readable R.TIME_NOW s = true ↔ s.term ≠ .holding := by
  have : holdReadable R.TIME_NOW = false := by decide
  simp [readable, this]

theorem sampleReg_plain {off : Nat} (h : off ≠ R.TIME_NOW ∨ s.term = .holding) : sampleReg off s = (readReg off s, s) := by
  have hc : (decide (off = R.TIME_NOW) && readable off s) = false := by
    by_cases ho : off = R.TIME_NOW
    · have hr : readable off s ≠ true := by
        rw [ho, Ne, readable_timeNow]
        exact not_not_intro (h.resolve_left (not_not_intro ho))
      simp [hr]
    · simp [ho]
  simp [sampleReg, hc]

/-- R15: TIME_NOW is read at a free wc and phase of the building tick, and the cycle count is captured. -/
theorem sampleReg_timeNow (h : s.term ≠ .holding) : ∃ wc ph, wc < 4160 ∧ ph < 64 ∧
    sampleReg R.TIME_NOW s = (timeNow wc ph s, wr F.TIME_EPOCH_SNAP_CYCLE (s.bt / 48) { s with freeCtr := s.freeCtr + 2 }) :=
  ⟨_, (fresh 6 (fresh 13 s).2).1.toNat, Nat.mod_lt (fresh 13 s).1.toNat (by decide), BitVec.isLt _,
    if_pos (by rw [readable_timeNow.mpr h]; rfl)⟩

theorem sampleReg_out (off : Nat) : (sampleReg off s).2.out = s.out :=
  (keeps_sampleReg off (A := 0x410000000) rfl (.refl _ s)).rest.out rfl

theorem readLow_fst (p : Path) (off : Nat) : (readLow p off s).1 = (sampleReg off s).1 := rfl

theorem readLow_snd (p : Path) (off : Nat) :
    (readLow p off s).2 = setSnap p off (BitVec.ofNat 8 (fget (sampleReg off s).1 39 32)) (sampleReg off s).2 := rfl

/-- Right after the low half, the high half reads what the low half's read latched. -/
theorem readHigh_readLow (p : Path) (off : Nat) :
    readHigh p off (readLow p off s).2 = BitVec.ofNat 8 (fget (readLow p off s).1 39 32) := by
  have hl : (latches p (readLow p off s).2).snap = ⟨some off, BitVec.ofNat 8 (fget (readLow p off s).1 39 32)⟩ := by
    rw [readLow_snd, readLow_fst, setSnap, latches_setLatches_same]
  rw [readHigh_tagged (by rw [hl]), hl]

/-! ### The rows of the halves -/

theorem regsAnswer_iff : regsAnswer s = true ↔ s.term ≠ .reset := by simp [regsAnswer]

theorem exec_lowHalfRead {p : Path} {r : BitVec 13} (h : regsAnswer s = true) : exec (.lowHalfRead p r) s =
    .next (emit (.regData p (BitVec.ofNat 64 (readDword p (2 * r.toNat) s).1)) (readDword p (2 * r.toNat) s).2) := by
  simp [exec, execLowHalfRead, done, h]

theorem exec_highHalfRead {p : Path} {r : BitVec 13} (h : regsAnswer s = true) : exec (.highHalfRead p r) s =
    .next (emit (.regData p (BitVec.ofNat 64 (readDword p (2 * r.toNat + 1) s).1)) (readDword p (2 * r.toNat + 1) s).2) := by
  simp [exec, execHighHalfRead, done, h]

theorem exec_halfRead_reset {p : Path} {r : BitVec 13} (h : s.term = .reset) :
    exec (.lowHalfRead p r) s = .next s ∧ exec (.highHalfRead p r) s = .next s := by
  simp [exec, execLowHalfRead, execHighHalfRead, done, regsAnswer, h]

theorem writeHigh_open {p : Path} {off : Nat} {b : Byte} (ha : regAssigned off = true) (hm : mayWriteReg off s = true) :
    writeHigh p off b s = setHold p off b s := by simp [writeHigh, ha, hm]

theorem writeHigh_closed {p : Path} {off : Nat} {b : Byte} (h : (regAssigned off && mayWriteReg off s) = false) :
    writeHigh p off b s = s := by simp [writeHigh, h]

theorem writeLow_closed {p : Path} {off v : Nat} (h : (regAssigned off && mayWriteReg off s) = false) :
    writeLow p off v s = s := by simp [writeLow, h]

/-- The upper byte a low-half write commits: the holding latch where it is the register's, else zero (R6). -/
def heldByte (p : Path) (off : Nat) (s : State) : Nat :=
  if (latches p s).hold.tag = some off then (latches p s).hold.val.toNat else 0

theorem writeLow_open {p : Path} {off v : Nat} (ha : regAssigned off = true) (hm : mayWriteReg off s = true) :
    writeLow p off v s = clearHold p (commitReg p off (BitVec.ofNat 40 (heldByte p off s * 2 ^ 32 + v)) s) := by
  simp [writeLow, heldByte, ha, hm]

/-! ### O5 -/

theorem lowHalfRead_plain (p : Path) (r : BitVec 13) (ha : regsAnswer s = true) (hr : regAssigned (8 * r.toNat) = true)
    (hn : 8 * r.toNat ≠ R.TIME_NOW ∨ s.term = .holding) :
    exec (.lowHalfRead p r) s = .next (emit (.regData p (BitVec.ofNat 64 (fget (readReg (8 * r.toNat) s) 31 0)))
      (setSnap p (8 * r.toNat) (BitVec.ofNat 8 (fget (readReg (8 * r.toNat) s) 39 32)) s)) := by
  rw [exec_lowHalfRead ha, readDword_even hr, readLow_fst, readLow_snd, sampleReg_plain hn]

theorem lowHalfRead_timeNow (p : Path) (r : BitVec 13) (ha : regsAnswer s = true) (hr : 8 * r.toNat = R.TIME_NOW)
    (hn : s.term ≠ .holding) : ∃ wc ph, wc < 4160 ∧ ph < 64 ∧ exec (.lowHalfRead p r) s =
      .next (emit (.regData p (BitVec.ofNat 64 (fget (timeNow wc ph s) 31 0)))
        (setSnap p R.TIME_NOW (BitVec.ofNat 8 (fget (timeNow wc ph s) 39 32))
          (wr F.TIME_EPOCH_SNAP_CYCLE (s.bt / 48) { s with freeCtr := s.freeCtr + 2 }))) := by
  obtain ⟨wc, ph, hw, hp, hs⟩ := sampleReg_timeNow hn
  have hr' : regAssigned (8 * r.toNat) = true := by rw [hr]; decide
  refine ⟨wc, ph, hw, hp, ?_⟩
  rw [exec_lowHalfRead ha, readDword_even hr', readLow_fst, readLow_snd, hr, hs]

theorem highHalfRead_sends (p : Path) (r : BitVec 13) (ha : regsAnswer s = true) (hr : regAssigned (8 * r.toNat) = true) :
    exec (.highHalfRead p r) s = .next (emit (.regData p (BitVec.ofNat 64 (readHigh p (8 * r.toNat) s).toNat)) s) := by
  rw [exec_highHalfRead ha, readDword_odd hr]

/-- Settles O5: each row's effect is an update of the latches of its path. -/
theorem halvesGoThroughTheLatches : Obligations.HalvesGoThroughTheLatches := by
  refine ⟨fun p r s ha hr hn => ?_, fun p r s ha hr hn => ?_, fun p r s ha hr => ?_, fun p r v s hr hm => ?_,
    fun p r v s hm => ?_, fun p r s h => exec_halfRead_reset h⟩
  · refine ⟨_, lowHalfRead_plain p r ha hr hn, by simp [emit, setSnap], by simp [setSnap], by simp [setSnap],
      fun q hq => ?_, fun off => ?_⟩
    · rw [latches_emit, setSnap, latches_setLatches_other hq]
    · exact reg_setLatches _ _ _
  · obtain ⟨wc, ph, hw, hp, he⟩ := lowHalfRead_timeNow p r ha hr hn
    refine ⟨_, wc, ph, he, hw, hp, by simp [emit, setSnap, wr, setReg], by simp [setSnap], ?_, fun off ho => ?_⟩
    · exact (rd_of_reg _ (reg_setLatches _ _ _)).trans (rd_wr_same _ _ _ (by decide))
    · exact (reg_setLatches _ _ _).trans (reg_wr_other _ _ _ _ ho)
  · exact ⟨_, highHalfRead_sends p r ha hr, readHigh_tagged, readHigh_untagged⟩
  · refine ⟨_, congrArg Host.Outcome.next (writeHigh_open hr hm), by simp [setHold], by simp [setHold], fun q hq => ?_, fun off => ?_⟩
    · rw [setHold, latches_setLatches_other hq]
    · exact reg_setLatches _ _ _
  · exact congrArg Host.Outcome.next (writeHigh_closed (by simp [hm]))

end Sys2Proof.Proofs

end

/-! PROOF. The commit of a register write and its locks (spec/00_scope.md R6, R9), and the accesses of other sizes and
offsets (R7, R8). -/

section

namespace Sys2Proof.Proofs

open Sys2Proof Sys2Proof.Machine Sys2Proof.Claims Sys2Proof.Laws

variable {s : State}

/-! ### The commit of a write -/

/-- A write keeps the bits it may not reach. -/
theorem mergeReg_closed {row : RegRow} {m old v : Word} {k : Nat} (hk : m.getLsbD k = false) :
    (mergeReg row m old v).getLsbD k = old.getLsbD k := by
  by_cases hw : k < 40
  · have hm : m[k] = false := by rwa [BitVec.getLsbD_eq_getElem hw] at hk
    simp [mergeReg, hm, hw]
  · rw [BitVec.getLsbD_of_ge _ _ (by omega), BitVec.getLsbD_of_ge _ _ (by omega)]

/-! A register with no write effect of its own: the merged value is stored, where some bit is open. -/

section

variable {p : Path} {row : RegRow} {off : Nat} {m v : Word}

theorem storeBits_plain (hh : ∀ x n, writeHook p off x n = none) (hm : m ≠ 0) :
    storeBits p row off m v s = setReg off (mergeReg row m (reg off s) v) s := by
  simp only [storeBits, if_neg hm, hh, hooked]

theorem storeBits_stores (hh : ∀ x n, writeHook p off x n = none) :
    storeBits p row off m v s = s ∨ storeBits p row off m v s = setReg off (mergeReg row m (reg off s) v) s := by
  by_cases hm : m = 0
  · exact .inl (if_pos hm)
  · exact .inr (storeBits_plain hh hm)

theorem storeBits_host (hh : ∀ x n, writeHook p off x n = none) : (storeBits p row off m v s).host = s.host := by
  rcases storeBits_stores hh with h | h <;> rw [h]
  rfl

theorem reg_storeBits_other (hh : ∀ x n, writeHook p off x n = none) {a : Nat} (ha : a ≠ off) :
    reg a (storeBits p row off m v s) = reg a s := by
  rcases storeBits_stores hh with h | h <;> rw [h]
  exact reg_setReg_other _ _ _ _ ha

theorem reg_storeBits_closed (hh : ∀ x n, writeHook p off x n = none) {k : Nat} (hk : m.getLsbD k = false) :
    (reg off (storeBits p row off m v s)).getLsbD k = (reg off s).getLsbD k := by
  rcases storeBits_stores hh with h | h <;> rw [h]
  rw [reg_setReg_same, mergeReg_closed hk]

end

theorem commitReg_open {p : Path} {off : Nat} {v : Word} {row : RegRow} (hr : regRow off = some row)
    (hm : mayWriteReg off s = true) :
    commitReg p off v s = storeBits p row off (openBits row s) v (whenB (findsLock row s) (lockedWrite off) s) := by
  simp [commitReg, hr, hm]

theorem regAssigned_of_row {off : Nat} {row : RegRow} (hr : regRow off = some row) : regAssigned off = true := by
  simp [regAssigned, hr]

theorem exec_lowHalfWrite_open {p : Path} {r : BitVec 13} {v : BitVec 32} {row : RegRow}
    (hr : regRow (8 * r.toNat) = some row) (hm : mayWriteReg (8 * r.toNat) s = true) : exec (.lowHalfWrite p r v) s =
      .next (clearHold p (storeBits p row (8 * r.toNat) (openBits row s)
        (BitVec.ofNat 40 (heldByte p (8 * r.toNat) s * 2 ^ 32 + v.toNat))
        (whenB (findsLock row s) (lockedWrite (8 * r.toNat)) s))) :=
  congrArg Host.Outcome.next (by rw [writeLow_open (regAssigned_of_row hr) hm, commitReg_open hr hm])

theorem exec_lowHalfWrite_closed {p : Path} {r : BitVec 13} {v : BitVec 32}
    (h : (regAssigned (8 * r.toNat) && mayWriteReg (8 * r.toNat) s) = false) : exec (.lowHalfWrite p r v) s = .next s :=
  congrArg Host.Outcome.next (writeLow_closed h)

@[simp] theorem reg_clearHold (p : Path) (off : Nat) : reg off (clearHold p s) = reg off s := reg_setLatches _ _ _

@[simp] theorem clearHold_host (p : Path) : (clearHold p s).host = s.host := setLatches_host _ _

theorem hold_clearHold (p : Path) : (latches p (clearHold p s)).hold = {} := by simp [clearHold]

/-! ### Locked writes -/

/-- Counters lie in the blocks that counting may change. -/
theorem bookkeeping_counterAddr (i : Nat) : bookkeeping (counterAddr i) = true := by
  unfold bookkeeping counterAddr
  split
  · have : 0x6000 ≤ 0x6000 + 8 * i ∧ 0x6000 + 8 * i < 0x6800 := by omega
    simp_all
  · simp only [Bool.or_eq_true, Bool.and_eq_true, decide_eq_true_eq]
    omega

theorem reg_lockedWrite {off a : Nat} (ha : bookkeeping a = false) : reg a (lockedWrite off s) = reg a s := by
  rw [lockedWrite, reg_raise _ _ _ _ ha, reg_count _ _ _ ha]

theorem tallied_lockedWrite {off : Nat} (hc : countsNow s = true) :
    Tallied C.REG_LOCKED_WRITE 1 s (lockedWrite off s) := by
  rw [Tallied, lockedWrite, reg_raise_counter _ _ _ (by decide) (by decide), reg_count_same _ (by decide) (by decide) hc]

/-- With room for what a command raises, an event raised after a count waits. -/
theorem waits_raise_count {i c a : Nat} (h : Room s) : Waits c a (raise c a (count i s)) := by
  have hj : (count i s).host.events.length ≤ s.host.events.length + 1 := (joined_count i).1
  refine waits_raise c a ?_
  unfold Room at h
  omega

theorem waits_of_host {c a : Nat} {t : State} (h : t.host = s.host) (hw : Waits c a s) : Waits c a t := by
  unfold Waits at *
  rwa [h]

/-! ### O6 -/

/-- A write that finds no lock commits the open bits and changes no other register. -/
theorem lowHalfWrite_commits (p : Path) (r : BitVec 13) (v : BitVec 32) (row : RegRow) (hr : regRow (8 * r.toNat) = some row)
    (hm : mayWriteReg (8 * r.toNat) s = true) (hl : findsLock row s = false)
    (hh : ∀ x n, writeHook p (8 * r.toNat) x n = none) : ∃ t, exec (.lowHalfWrite p r v) s = .next t ∧
      (openBits row s ≠ 0 → reg (8 * r.toNat) t = mergeReg row (openBits row s) (reg (8 * r.toNat) s)
        (BitVec.ofNat 40 (heldByte p (8 * r.toNat) s * 2 ^ 32 + v.toNat))) ∧
      (latches p t).hold = {} ∧ ∀ off, off ≠ 8 * r.toNat → reg off t = reg off s := by
  refine ⟨_, exec_lowHalfWrite_open hr hm, fun hb => ?_, hold_clearHold p, fun off ho => ?_⟩
  · rw [reg_clearHold, hl, storeBits_plain hh hb]
    exact reg_setReg_same _ _ _
  · rw [reg_clearHold, hl]
    exact reg_storeBits_other hh ho

/-- A write that finds a lock is counted and told, and no locked bit changes. -/
theorem lowHalfWrite_locked (p : Path) (r : BitVec 13) (v : BitVec 32) (row : RegRow) (hr : regRow (8 * r.toNat) = some row)
    (hm : mayWriteReg (8 * r.toNat) s = true) (hc : countsNow s = true) (hroom : Room s) (hl : findsLock row s = true)
    (hb : bookkeeping (8 * r.toNat) = false) (hh : ∀ x n, writeHook p (8 * r.toNat) x n = none) :
    ∃ t, exec (.lowHalfWrite p r v) s = .next t ∧ Tallied C.REG_LOCKED_WRITE 1 s t ∧ Waits E.REG_LOCKED (8 * r.toNat) t ∧
      (latches p t).hold = {} ∧
      (∀ k, (openBits row s).getLsbD k = false → (reg (8 * r.toNat) t).getLsbD k = (reg (8 * r.toNat) s).getLsbD k) ∧
      ∀ off, off ≠ 8 * r.toNat → bookkeeping off = false → reg off t = reg off s := by
  have hcnt : counterAddr C.REG_LOCKED_WRITE ≠ 8 * r.toNat := fun h => by
    rw [← h, bookkeeping_counterAddr] at hb
    contradiction
  refine ⟨_, exec_lowHalfWrite_open hr hm, ?_, ?_, hold_clearHold p, fun k hk => ?_, fun off hne ho => ?_⟩ <;>
    rw [hl, whenB, if_pos rfl]
  · rw [Tallied, reg_clearHold, reg_storeBits_other hh hcnt]
    exact tallied_lockedWrite hc
  · exact waits_of_host ((clearHold_host p).trans (storeBits_host hh)) (waits_raise_count hroom)
  · rw [reg_clearHold, reg_storeBits_closed hh hk, reg_lockedWrite hb]
  · rw [reg_clearHold, reg_storeBits_other hh hne, reg_lockedWrite ho]

/-- Settles O6. -/
theorem lowHalfWriteCommits : Obligations.LowHalfWriteCommits := by
  refine ⟨fun p r v row s hr hm hl hh => ?_, fun p r v row s => lowHalfWrite_locked p r v row,
    fun p r v s hm => exec_lowHalfWrite_closed (by simp [hm])⟩
  obtain ⟨t, ht, hv, hrest⟩ := lowHalfWrite_commits p r v row hr hm hl hh
  exact ⟨t, _, ht, rfl, hv, hrest⟩

end Sys2Proof.Proofs

end

/-! PROOF. Accesses of 8 bytes, of other sizes and alignments, and of unassigned offsets (spec/00_scope.md R7, R8). -/

section

namespace Sys2Proof.Proofs

open Sys2Proof Sys2Proof.Machine Sys2Proof.Claims Sys2Proof.Laws

variable {s : State}

/-! ### 8-byte accesses (R7) -/

theorem fget_lt (w : Word) (hi lo : Nat) : fget w hi lo < 2 ^ (hi + 1 - lo) := Nat.mod_lt _ (Nat.two_pow_pos _)

theorem readEight_assigned {p : Path} {r : Nat} (h : regAssigned (8 * r) = true) : readEight p (8 * r) s =
    ((readHigh p (8 * r) (readLow p (8 * r) s).2).toNat * 2 ^ 32 + fget (readLow p (8 * r) s).1 31 0,
      (readLow p (8 * r) s).2) := by
  have hd : 8 * r / 4 = 2 * r := by omega
  simp only [readEight, hd, readDword_even h, readDword_odd h]

theorem exec_eightByteRead {p : Path} {r : BitVec 13} (h : regsAnswer s = true) : exec (.eightByteAccess p r none) s =
    .next (emit (.regData p (BitVec.ofNat 64 (readEight p (8 * r.toNat) s).1)) (readEight p (8 * r.toNat) s).2) := by
  simp [exec, execEightByteAccess, done, h]

theorem exec_eightByteWrite {p : Path} {r : BitVec 13} {v : BitVec 64} (h : regsAnswer s = true) :
    exec (.eightByteAccess p r (some v)) s = .next (write8 p (8 * r.toNat) (BitVec.ofNat 40 v.toNat) s) := by
  simp [exec, execEightByteAccess, done, h]

theorem readLow_term (p : Path) (off : Nat) : (readLow p off s).2.term = s.term :=
  (keeps_readLow p off (A := 0x41000000e) rfl (.refl _ s)).rest.term rfl

theorem readLow_out (p : Path) (off : Nat) : (readLow p off s).2.out = s.out :=
  (keeps_readLow p off (A := 0x41000000e) rfl (.refl _ s)).rest.out rfl

/-- Two halves side by side in a doubleword pair. -/
theorem ofNat_halves (b : Byte) {n : Nat} (h : n < 2 ^ 32) :
    BitVec.ofNat 64 (b.toNat * 2 ^ 32 + n) = BitVec.ofNat 64 b.toNat <<< 32 ||| BitVec.ofNat 64 n := by
  have hb := b.isLt
  have hsum : b.toNat * 2 ^ 32 + n = b.toNat <<< 32 ||| n := by
    rw [← Nat.shiftLeft_eq, Nat.shiftLeft_add_eq_or_of_lt h]
  rw [hsum]
  apply BitVec.eq_of_toNat_eq
  have hs : b.toNat <<< 32 < 2 ^ 64 := by rw [Nat.shiftLeft_eq]; omega
  rw [BitVec.toNat_or, BitVec.toNat_shiftLeft, BitVec.toNat_ofNat, BitVec.toNat_ofNat, BitVec.toNat_ofNat,
    Nat.mod_eq_of_lt (Nat.or_lt_two_pow hs (by omega)), Nat.mod_eq_of_lt (a := b.toNat) (by omega),
    Nat.mod_eq_of_lt hs, Nat.mod_eq_of_lt (a := n) (by omega)]

theorem eightByteRead_is_both_halves (p : Path) (r : BitVec 13) (ha : regsAnswer s = true)
    (hr : regAssigned (8 * r.toNat) = true) :
    ∃ t1 t2 t lo hi, exec (.lowHalfRead p r) s = .next t1 ∧ t1.out = .regData p lo :: s.out ∧
      exec (.highHalfRead p r) t1 = .next t2 ∧ t2.out = .regData p hi :: t1.out ∧
      exec (.eightByteAccess p r none) s = .next t ∧ t.out = .regData p (hi <<< 32 ||| lo) :: s.out ∧
      { t with out := t2.out } = t2 := by
  have hlow := exec_lowHalfRead (p := p) (r := r) ha
  have height := exec_eightByteRead (p := p) (r := r) ha
  rw [readDword_even hr] at hlow
  rw [readEight_assigned hr, ofNat_halves _ (fget_lt _ 31 0)] at height
  have ha' : regsAnswer (emit (.regData p (BitVec.ofNat 64 (fget (readLow p (8 * r.toNat) s).1 31 0)))
      (readLow p (8 * r.toNat) s).2) = true := by
    rw [regsAnswer_iff] at ha ⊢
    exact fun h => ha ((readLow_term _ _).symm.trans h)
  have hsame : ∀ o, readHigh p (8 * r.toNat) (emit o (readLow p (8 * r.toNat) s).2) =
      readHigh p (8 * r.toNat) (readLow p (8 * r.toNat) s).2 := fun o => by
    have hl : (latches p (readLow p (8 * r.toNat) s).2).snap.tag = some (8 * r.toNat) := by
      rw [readLow_snd, setSnap, latches_setLatches_same]
    rw [readHigh_tagged hl, readHigh_tagged (by rw [latches_emit, hl]), latches_emit]
  refine ⟨_, _, _, _, _, hlow, congrArg _ (readLow_out _ _), highHalfRead_sends p r ha' hr, rfl, height, ?_, rfl⟩
  rw [hsame]
  exact congrArg _ (readLow_out _ _)

theorem eightByteWrite_is_both_halves (p : Path) (r : BitVec 13) (v : BitVec 64) (ha : regsAnswer s = true) :
    ∃ t1 t, exec (.highHalfWrite p r (v.extractLsb' 32 32)) s = .next t1 ∧
      exec (.lowHalfWrite p r (v.extractLsb' 0 32)) t1 = .next t ∧ exec (.eightByteAccess p r (some v)) s = .next t := by
  have hv := v.isLt
  have hhi : BitVec.ofNat 8 (fget (BitVec.ofNat 40 v.toNat) 39 32) = BitVec.ofNat 8 (v.extractLsb' 32 32).toNat := by
    apply BitVec.eq_of_toNat_eq
    simp only [fget, BitVec.toNat_ofNat, BitVec.extractLsb'_toNat, Nat.shiftRight_eq_div_pow]
    omega
  have hlo : fget (BitVec.ofNat 40 v.toNat) 31 0 = (v.extractLsb' 0 32).toNat := by
    simp only [fget, BitVec.toNat_ofNat, BitVec.extractLsb'_toNat, Nat.shiftRight_eq_div_pow]
    omega
  refine ⟨_, _, rfl, rfl, ?_⟩
  rw [exec_eightByteWrite ha, write8, hhi, hlo]

/-! ### Accesses of other sizes (R7) -/

theorem badSizeWrite_counts (p : Path) (off : BitVec 16) (size : BitVec 13) (ho : oddAccess off.toNat size.toNat = true)
    (hc : countsNow s = true) : ∃ t, exec (.badSizeWrite p off size) s = .next t ∧ Tallied C.REG_ACCESS_BAD 1 s t ∧
      ∀ a, bookkeeping a = false → reg a t = reg a s :=
  ⟨_, congrArg Host.Outcome.next (if_pos ho), reg_count_same _ (by decide) (by decide) hc,
    fun a ha => reg_count a _ s ha⟩

/-- The first and the number of the doublewords a read touches, and the state behind it. -/
theorem exec_partialRead {p : Path} {off : BitVec 16} {size : BitVec 13} (ha : regsAnswer s = true) (hn : 0 < size.toNat) :
    exec (.partialRead p off size) s =
      .next (emit (.regBytes p (((readDwords p (off.toNat / 4) ((off.toNat + size.toNat - 1) / 4 + 1 - off.toNat / 4) s).1.drop
          (off.toNat % 4)).take size.toNat))
        (readDwords p (off.toNat / 4) ((off.toNat + size.toNat - 1) / 4 + 1 - off.toNat / 4) s).2) := by
  have : (size.toNat == 0) = false := beq_false_of_ne (by omega)
  simp only [exec, execPartialRead, done, ha, this]
  rfl

theorem readDwords_succ (p : Path) (d n : Nat) : readDwords p d (n + 1) s =
    (bytesLE 4 (readDword p d s).1 ++ (readDwords p (d + 1) n (readDword p d s).2).1,
      (readDwords p (d + 1) n (readDword p d s).2).2) := rfl

theorem readDwords_one (p : Path) (d : Nat) :
    readDwords p d 1 s = (bytesLE 4 (readDword p d s).1, (readDword p d s).2) := by
  rw [readDwords_succ]
  simp only [readDwords, List.append_nil]

theorem length_bytesLE (n v : Nat) : (bytesLE n v).length = n := by
  induction n generalizing v with
  | zero => rfl
  | succ n ih => rw [bytesLE, List.length_cons, ih]

theorem readDword_frame (p : Path) (d : Nat) : Keeps 0x41000000e s (readDword p d s).2 := keeps_readDword p d rfl (.refl _ s)

theorem readDwords_frame (p : Path) (d n : Nat) : Keeps 0x41000000e s (readDwords p d n s).2 :=
  keeps_readDwords p d n rfl (.refl _ s)

theorem partialRead_within (p : Path) (off : BitVec 16) (size : BitVec 13) (ha : regsAnswer s = true)
    (hn : 0 < size.toNat) (h4 : off.toNat % 4 + size.toNat ≤ 4) : exec (.partialRead p off size) s =
      .next (emit (.regBytes p (((bytesLE 4 (readDword p (off.toNat / 4) s).1).drop (off.toNat % 4)).take size.toNat))
        (readDword p (off.toNat / 4) s).2) := by
  have hone : (off.toNat + size.toNat - 1) / 4 + 1 - off.toNat / 4 = 1 := by omega
  rw [exec_partialRead ha hn, hone, readDwords_one]

theorem emit_of_out {t : State} (o : Output) (h : t.out = s.out) : emit o t = { t with out := o :: s.out } := by
  rw [← h]
  rfl

/-- The bytes that follow the first `n` of a doubleword and run on over its end. -/
theorem bytes_over_end (v : Nat) (b : List Byte) {n m : Nat} (hn : n ≤ 4) (h : 4 ≤ n + m) :
    ((bytesLE 4 v ++ b).drop n).take m = ((bytesLE 4 v).drop n).take (4 - n) ++ b.take (n + m - 4) := by
  have hlen : ((bytesLE 4 v).drop n).length = 4 - n := by rw [List.length_drop, length_bytesLE]
  rw [List.drop_append_of_le_length (by rw [length_bytesLE]; omega), List.take_append, hlen,
    List.take_of_length_le (by omega), List.take_of_length_le (Nat.le_of_eq hlen)]
  congr 2
  omega

/-- The doublewords behind the first one of a read. -/
def laterDwords (p : Path) (off size : Nat) (s : State) : List Byte × State :=
  readDwords p (off / 4 + 1) ((off + size - 1) / 4 - off / 4) (readDword p (off / 4) s).2

theorem laterDwords_out (p : Path) (off size : Nat) : (laterDwords p off size s).2.out = s.out :=
  ((readDwords_frame _ _ _).rest.out rfl).trans ((readDword_frame _ _).rest.out rfl)

/-- A read over a doubleword's end. -/
theorem partialRead_over (p : Path) (off : BitVec 16) (size : BitVec 13) (ha : regsAnswer s = true)
    (h4 : 4 < off.toNat % 4 + size.toNat) : exec (.partialRead p off size) s =
      .next (emit (.regBytes p (((bytesLE 4 (readDword p (off.toNat / 4) s).1).drop (off.toNat % 4)).take (4 - off.toNat % 4) ++
          (laterDwords p off.toNat size.toNat s).1.take (off.toNat % 4 + size.toNat - 4)))
        (laterDwords p off.toNat size.toNat s).2) := by
  have hcount : (off.toNat + size.toNat - 1) / 4 + 1 - off.toNat / 4 = (off.toNat + size.toNat - 1) / 4 - off.toNat / 4 + 1 := by
    omega
  rw [exec_partialRead ha (by omega), hcount, readDwords_succ, bytes_over_end _ _ (by omega) (by omega)]
  rfl

/-- A read from a doubleword's start. -/
theorem partialRead_aligned {p : Path} {off : BitVec 16} {size : BitVec 13} {d : Nat} (ha : regsAnswer s = true)
    (hn : 0 < size.toNat) (hd : off.toNat = 4 * d) : exec (.partialRead p off size) s =
      .next (emit (.regBytes p ((readDwords p d ((size.toNat + 3) / 4) s).1.take size.toNat))
        (readDwords p d ((size.toNat + 3) / 4) s).2) := by
  have hfirst : 4 * d / 4 = d := by omega
  have hstart : 4 * d % 4 = 0 := by omega
  have hcount : (4 * d + size.toNat - 1) / 4 + 1 - d = (size.toNat + 3) / 4 := by omega
  rw [exec_partialRead ha hn, hd, hfirst, hstart, hcount, List.drop_zero]

/-- A read over a doubleword's end is the read up to it and the read from it on. -/
theorem partialRead_splits (p : Path) (off : BitVec 16) (size : BitVec 13) (ha : regsAnswer s = true)
    (h4 : 4 < off.toNat % 4 + size.toNat) (hend : off.toNat + size.toNat ≤ 65536) :
    ∃ t1 t2 x y, exec (.partialRead p off (BitVec.ofNat 13 (4 - off.toNat % 4))) s = .next t1 ∧
      t1.out = .regBytes p x :: s.out ∧
      exec (.partialRead p (BitVec.ofNat 16 (off.toNat / 4 * 4 + 4)) (BitVec.ofNat 13 (off.toNat % 4 + size.toNat - 4)))
        { t1 with out := s.out } = .next t2 ∧ t2.out = .regBytes p y :: s.out ∧
      exec (.partialRead p off size) s = .next { t2 with out := .regBytes p (x ++ y) :: s.out } := by
  have hs := size.isLt
  have hupTo : (BitVec.ofNat 13 (4 - off.toNat % 4)).toNat = 4 - off.toNat % 4 := Nat.mod_eq_of_lt (by omega)
  have hnext : (BitVec.ofNat 16 (off.toNat / 4 * 4 + 4)).toNat = 4 * (off.toNat / 4 + 1) :=
    (Nat.mod_eq_of_lt (by omega)).trans (by omega)
  have hleft : (BitVec.ofNat 13 (off.toNat % 4 + size.toNat - 4)).toNat = off.toNat % 4 + size.toNat - 4 :=
    Nat.mod_eq_of_lt (by omega)
  have hcount : (off.toNat % 4 + size.toNat - 4 + 3) / 4 = (off.toNat + size.toNat - 1) / 4 - off.toNat / 4 := by omega
  have hkeeps := readDword_frame (s := s) p (off.toNat / 4)
  have hout : (readDword p (off.toNat / 4) s).2.out = s.out := hkeeps.rest.out rfl
  have ha1 : regsAnswer (readDword p (off.toNat / 4) s).2 = true := by
    rw [regsAnswer_iff, hkeeps.rest.term rfl]
    exact regsAnswer_iff.mp ha
  have hback : ∀ o, { emit o (readDword p (off.toNat / 4) s).2 with out := s.out } = (readDword p (off.toNat / 4) s).2 :=
    fun o => by rw [← hout]; rfl
  have hfirst := partialRead_within p off (BitVec.ofNat 13 (4 - off.toNat % 4)) ha (by omega) (by omega)
  have hsecond := partialRead_aligned (p := p) (size := BitVec.ofNat 13 (off.toNat % 4 + size.toNat - 4)) ha1 (by omega) hnext
  rw [hupTo] at hfirst
  rw [hleft, hcount] at hsecond
  refine ⟨_, _, _, _, hfirst, congrArg _ hout, by rw [hback]; exact hsecond, congrArg _ (laterDwords_out p _ _), ?_⟩
  rw [partialRead_over p off size ha h4, emit_of_out _ (laterDwords_out p _ _)]
  rfl

/-! ### Unassigned offsets (R8) -/

theorem unassignedAccess_zero (p : Path) (dw : BitVec 14) (eight : Bool) (ha : regsAnswer s = true)
    (hr : regAssigned (8 * (dw.toNat / 2)) = false) (he : eight = true → dw.toNat % 2 = 0) :
    exec (.unassignedAccess p dw eight none) s = .next { s with out := .regData p 0 :: s.out } ∧
    ∀ w, exec (.unassignedAccess p dw eight (some w)) s = .next s := by
  have hd : regAssigned (dwordReg dw.toNat) = false := hr
  have h8 : (eight && dw.toNat % 2 == 1) = false := by
    cases eight with
    | false => rfl
    | true => simp [he rfl]
  simp [exec, execUnassignedAccess, done, ha, hd, h8, emit]

theorem halves_unassigned (p : Path) (r : BitVec 13) (ha : regsAnswer s = true) (hr : regAssigned (8 * r.toNat) = false) :
    exec (.lowHalfRead p r) s = .next { s with out := .regData p 0 :: s.out } ∧
    exec (.highHalfRead p r) s = .next { s with out := .regData p 0 :: s.out } ∧
    ∀ v, exec (.highHalfWrite p r v) s = .next s ∧ exec (.lowHalfWrite p r v) s = .next s := by
  refine ⟨?_, ?_, fun v => ⟨congrArg Host.Outcome.next (writeHigh_closed (by simp [hr])), exec_lowHalfWrite_closed (by simp [hr])⟩⟩
  · rw [exec_lowHalfRead ha, readDword_unassigned (by rw [dwordReg_even, hr])]
    rfl
  · rw [exec_highHalfRead ha, readDword_unassigned (by rw [dwordReg_odd, hr])]
    rfl

/-- Settles O7. -/
theorem otherAccessesAndOffsets : Obligations.OtherAccessesAndOffsets :=
  ⟨fun p r _ => eightByteRead_is_both_halves p r, fun p r v _ => eightByteWrite_is_both_halves p r v,
    fun p off size _ => badSizeWrite_counts p off size,
    fun p off size s ha hn h4 => ⟨(readDword p (off.toNat / 4) s).2, _, rfl, (partialRead_within p off size ha hn h4).trans
      (congrArg _ (emit_of_out _ ((readDword_frame _ _).rest.out rfl)))⟩,
    fun p off size _ => partialRead_splits p off size, fun p dw eight _ => unassignedAccess_zero p dw eight,
    fun p r _ => halves_unassigned p r⟩

end Sys2Proof.Proofs

end

/-! PROOF. What clears the latches of the register access paths (spec/00_scope.md R495): the resets, and nothing else but
an access of the path. -/

section

namespace Sys2Proof.Proofs

open Sys2Proof Sys2Proof.Machine Sys2Proof.Claims Sys2Proof.Laws

variable {s : State}

/-- Every register and part of the state but the latches of the three paths. -/
def allButLatches : Nat := 0x3fffffffffffffffffffffffffffffffffffffffffffffffff1

/-! ### The resets -/

/-- After the blocks are at their reset values, a reset touches no latch. -/
theorem takeReset_frame (kind : ResetKind) : Keeps allButLatches (blocksReset kind s) (takeReset kind s) := by
  have hregs : Keeps allButLatches (blocksReset kind s)
      (eachOf (keeperRegs kind s) (fun s p => setReg p.1 p.2 s) (blocksReset kind s)) :=
    keeps_eachOf _ _ (fun _ _ => keeps_setReg _ _ (cov_any _ rfl)) (.refl _ _)
  have hrec : Keeps allButLatches (blocksReset kind s) (recordBypass (bypassRecord kind s) _) :=
    keeps_recordBypass _ rfl (keeps_applyStraps rfl (keeps_strapsAgain kind s.boot.strapsDue rfl hregs))
  exact keeps_ite (fun _ => hrec) (fun _ => keeps_alertSet _ rfl hrec)

theorem latches_takeReset (kind : ResetKind) (q : Path) : latches q (takeReset kind s) = {} :=
  (latches_of_keeps (takeReset_frame kind) rfl q).trans (by cases q <;> rfl)

theorem latches_beginSelftest (q : Path) : latches q (beginSelftest s) = latches q s :=
  latches_of_keeps (keeps_beginSelftest (A := allButLatches) rfl (.refl _ s)) rfl q

/-- A host reset clears the latches of the PCI Express path. -/
theorem pcie_hostResetOp (kind : Nat) : (hostResetOp kind s).pcie = {} := by
  unfold hostResetOp
  dsimp only
  refine (Keeps.rest (A := allButLatches) (keeps_refreshHost rfl (keeps_raise _ _ rfl (keeps_wr _ _ (cov_any _ rfl)
    (keeps_wr _ _ (cov_any _ rfl) (keeps_setReg _ _ (cov_any _ rfl)
      (keeps_eachOf _ _ (fun _ _ => keeps_setReg _ _ (cov_any _ rfl)) (.refl _ _)))))))).pcie rfl

theorem hostReset_latches (k : Fin 4) (h : s.term ≠ .reset) : ∃ t, exec (.hostReset k) s = .next t ∧
    latches .pcie t = {} ∧ latches .zwirdo t = latches .zwirdo s ∧ latches .mgmt t = latches .mgmt s := by
  obtain ⟨t, ht⟩ := exec_completes (.hostReset k) s
  have hk : Keeps (reach (.hostReset k)) s t := keeps_exec _ _ _ ht
  dsimp only [reach] at hk
  refine ⟨t, ht, ?_, hk.rest.zwirdo rfl, hk.rest.mgmt rfl⟩
  have hcut : Keeps allButLatches (hostResetOp k.val s) t := by
    obtain rfl := Host.Outcome.next.inj ht
    rw [if_neg (by simpa using h)]
    have hw : Keeps allButLatches (hostResetOp k.val s) (whenB (k.val == 0) clearTables (hostResetOp k.val s)) :=
      keeps_whenB _ _ (fun _ => keeps_clearTables rfl) (.refl _ _)
    exact keeps_ite (fun _ => keeps_loadCut _ rfl hw) (fun _ => hw)
  exact (hcut.rest.pcie rfl).trans (pcie_hostResetOp _)

/-! ### An access leaves the latches of the other paths -/

section

variable {p q : Path} (hq : q ≠ p)

include hq

theorem latches_writeHigh_other (off : Nat) (b : Byte) : latches q (writeHigh p off b s) = latches q s := by
  unfold writeHigh
  split
  · exact latches_setLatches_other hq _
  · rfl

theorem latches_writeLow_other (off v : Nat) : latches q (writeLow p off v s) = latches q s := by
  unfold writeLow
  split
  · exact (latches_setLatches_other hq _).trans
      (latches_of_keeps (keeps_commitReg p off _ (A := allButLatches) rfl (.refl _ s)) rfl q)
  · rfl

theorem latches_write8_other (off : Nat) (v : Word) : latches q (write8 p off v s) = latches q s :=
  (latches_writeLow_other hq _ _).trans (latches_writeHigh_other hq _ _)

theorem latches_readDword_other (d : Nat) : latches q (readDword p d s).2 = latches q s := by
  unfold readDword
  dsimp only
  split
  · rfl
  · split
    · exact (latches_setLatches_other hq _).trans
        (latches_of_keeps (keeps_sampleReg _ (A := allButLatches) rfl (.refl _ s)) rfl q)
    · rfl

theorem latches_readDwords_other (d n : Nat) : latches q (readDwords p d n s).2 = latches q s := by
  induction n generalizing s d with
  | zero => rfl
  | succ n ih => rw [readDwords_succ, ih, latches_readDword_other hq]

theorem latches_readEight_other (off : Nat) : latches q (readEight p off s).2 = latches q s :=
  (latches_readDword_other hq _).trans (latches_readDword_other hq _)

end

/-- A Zwirdo command leaves the latches that its action leaves. -/
theorem latches_zwdRun {q : Path} (cmd : Nat) (block pure_ : Bool) (n : Nat) (t : ZwdTxn) (act : State → State)
    (hact : ∀ s, latches q (act s) = latches q s) : latches q (zwdRun cmd block pure_ n t act s) = latches q s := by
  have hm : latches q (zwdMatched s) = latches q s :=
    latches_of_keeps (keeps_zwdMatched (A := allButLatches) rfl (.refl _ s)) rfl q
  unfold zwdRun zwdServe
  split
  · exact latches_emit _ _
  · split
    · exact hm
    · split
      · refine Eq.trans (latches_of_keeps (keeps_zwdStatus _ (A := allButLatches) rfl (.refl _ _)) rfl q) ?_
        rw [latches_emit, hm]
      · rw [hact, hm]

theorem latches_zwdStatus (q : Path) (st : Nat) : latches q (zwdStatus st s) = latches q s :=
  latches_of_keeps (keeps_zwdStatus st (A := allButLatches) rfl (.refl _ s)) rfl q

theorem latches_regRead_other {q : Path} (hq : q ≠ .zwirdo) (x : ZwdTxn) (t : State) (ht : exec (.regRead x) s = .next t) :
    latches q t = latches q s := by
  obtain rfl := Host.Outcome.next.inj ht
  refine latches_zwdRun _ _ _ _ _ _ fun s => ?_
  dsimp only
  split
  · rw [latches_zwdStatus, zwdReply, latches_emit]
  · rw [latches_zwdStatus, zwdReply, latches_emit, latches_readEight_other hq]

theorem latches_regWrite_other {q : Path} (hq : q ≠ .zwirdo) (x : ZwdTxn) (t : State) (ht : exec (.regWrite x) s = .next t) :
    latches q t = latches q s := by
  obtain rfl := Host.Outcome.next.inj ht
  refine latches_zwdRun _ _ _ _ _ _ fun s => ?_
  dsimp only
  split
  · rw [zwdAck, latches_zwdStatus, latches_emit]
  · rw [zwdAck, latches_zwdStatus, latches_emit, latches_write8_other hq]

/-- An access by one path leaves the latches of the others. -/
theorem access_other_latches {i : Instr} {p q : Path} {t : State} (hp : accessPath i = some p) (hq : q ≠ p)
    (ht : exec i s = .next t) : latches q t = latches q s := by
  cases i <;> simp only [accessPath, Option.some.injEq, reduceCtorEq] at hp <;> subst hp
  case regRead x => exact latches_regRead_other hq x t ht
  case regWrite x => exact latches_regWrite_other hq x t ht
  all_goals obtain rfl := Host.Outcome.next.inj ht
  case lowHalfRead | highHalfRead =>
    split
    · rfl
    · exact latches_readDword_other hq _
  case highHalfWrite => exact latches_writeHigh_other hq _ _
  case lowHalfWrite => exact latches_writeLow_other hq _ _
  case eightByteAccess =>
    split
    · rfl
    · split
      · exact latches_readEight_other hq _
      · exact latches_write8_other hq _ _
  case partialRead =>
    split
    · rfl
    · exact latches_readDwords_other hq _ _
  case timeNowRead =>
    split
    · rfl
    · split
      · exact latches_setLatches_other hq _
      · exact (latches_setLatches_other hq _).trans (latches_setReg _ _ _)
  all_goals exact latches_write8_other hq _ _

/-- A command that is no access reaches no latch, the resets apart. -/
theorem reach_latches {i : Instr} (ha : accessPath i = none)
    (hr : i ∉ [.powerOnReset, .pinReset, .brownOutReset, .softResetProceed]) (hh : ∀ k, i ≠ .hostReset k) :
    Nat.land (reach i) 0xe = 0 := by
  cases i <;> simp only [accessPath, reduceCtorEq] at ha <;> dsimp only [reach]
  case powerOnReset | pinReset | brownOutReset | softResetProceed => exact absurd (by simp) hr
  case hostReset k => exact absurd rfl (hh k)
  all_goals rfl

/-- Settles O8. -/
theorem resetsAloneClearTheLatches : Obligations.ResetsAloneClearTheLatches := by
  refine ⟨fun i s hi => ?_, fun s hp h0 h1 => ?_, fun k s => hostReset_latches k, fun i q s t ht hp hr hh => ?_⟩
  · simp only [List.mem_cons, List.not_mem_nil, or_false] at hi
    rcases hi with rfl | rfl | rfl
    · exact ⟨_, rfl, latches_takeReset .powerOn⟩
    · exact ⟨_, rfl, latches_takeReset .pin⟩
    · exact ⟨_, rfl, latches_takeReset .brownOut⟩
  · refine ⟨_, congrArg Host.Outcome.next (if_pos (by simp [hp, h0, h1])), fun q => ?_⟩
    rw [latches_beginSelftest, latches_takeReset]
  · cases ha : accessPath i with
    | none => exact latches_of_keeps (keeps_exec i s t ht) (reach_latches ha hr hh) q
    | some p => exact access_other_latches ha (fun h => hp (by rw [ha, h])) ht

end Sys2Proof.Proofs

end

/-! PROOF. A transition that ends, and the queue of waiting events (spec/17_power_domains_wake.md R405, against R302): before
its own event the end brings the ports' links down, and these events can take the queue's whole room. -/

section

namespace Sys2Proof.Proofs

open Sys2Proof Sys2Proof.Machine Sys2Proof.Claims Sys2Proof.Laws

variable {i k : Nat} {s : State}

/-! ### A saturated counter -/

/-- Counter `i` stands at its largest value, and is stored so. -/
def Saturated (i : Nat) (s : State) : Prop :=
  countMax ≤ (reg (counterAddr i) s).toNat ∧
    SMap.put (regDefault (counterAddr i)) s.regs (counterAddr i) (BitVec.ofNat 40 countMax) = s.regs

/-- R461: counting does not move a saturated counter. -/
theorem count_saturated (h : Saturated i s) : count i s = s := by
  obtain ⟨hmax, hput⟩ := h
  have hset : setReg (counterAddr i) (BitVec.ofNat 40 countMax) s = s := by simp [setReg, hput]
  have hsum : countMax ≤ (reg (counterAddr i) s).toNat + 1 := by omega
  have hbump : bump i 1 s = (s, false) := by simp [bump, hset, hsum, hmax]
  simp [count, countN, hbump]

theorem whenB_count_saturated (b : Bool) (h : Saturated i s) : whenB b (count i) s = s := by
  cases b
  · rfl
  · exact count_saturated h

/-! ### A link cut that cannot be seen to cut a frame -/

/-- A link that goes down, before what it cut is counted (R316). -/
def linkBroken (k : Nat) (s : State) : State :=
  s |> wr (F.ETH_STATUS_LINK k) 0
    |> wr (F.ETH_STATUS_PAUSED k) 0
    |> setPort k (fun p => { p with quanta := 0, ptpWait := [] })
    |> whenB (on (F.ETH_CFG_AN_EN k) s) (wr (F.ETH_STATUS_AN_DONE k) 0)

/-- Both counts of frames cut on port `k` are saturated as its link goes down. -/
def AbortsSaturated (k : Nat) (s : State) : Prop :=
  Saturated (C.ETH_TX_ABORT k) (linkBroken k s) ∧ Saturated (C.ETH_RX_ABORT k) (linkBroken k s)

theorem linkDownOp_up (tx rx : Bool) (hup : linkUp k s = true) :
    linkDownOp k tx rx s = startHold k (raise E.LINK_DOWN k (count (C.ETH_LINK_DOWN k)
      (whenB rx (count (C.ETH_RX_ABORT k)) (whenB tx (count (C.ETH_TX_ABORT k)) (linkBroken k s))))) := by
  simp [linkDownOp, linkBroken, hup]

/-- Whether a frame was under way, the free bits of a cut (R317), then makes no difference. -/
theorem linkCut_saturated (hup : linkUp k s = true) (h : AbortsSaturated k { s with freeCtr := s.freeCtr + 2 }) :
    linkCut k s = linkDownOp k false false { s with freeCtr := s.freeCtr + 2 } := by
  obtain ⟨htx, hrx⟩ := h
  have hup2 : linkUp k { s with freeCtr := s.freeCtr + 2 } = true := hup
  have hcut : ∀ tx rx, linkDownOp k tx rx { s with freeCtr := s.freeCtr + 2 } =
      linkDownOp k false false { s with freeCtr := s.freeCtr + 2 } := fun tx rx => by
    rw [linkDownOp_up tx rx hup2, linkDownOp_up false false hup2, whenB_count_saturated tx htx, whenB_count_saturated rx hrx]
    rfl
  simp only [linkCut, hup, fresh]
  exact hcut _ _

/-! ### The ports of a terminal that lose their links one after the other -/

/-- Port `k` goes down, with no frame under way. -/
def cutPort (k : Nat) (s : State) : State := txRefresh k (linkDownOp k false false { s with freeCtr := s.freeCtr + 2 })

/-- The ports below `n` go down in order. -/
def cutPorts (n : Nat) (s : State) : State := eachOf (List.range n) (fun s k => cutPort k s) s

/-- Port `k` is down for a reason of its own while its link still stands, and its counts of cut frames are saturated. -/
def Losing (k : Nat) (s : State) : Prop :=
  portDown k s = true ∧ linkUp k s = true ∧ AbortsSaturated k { s with freeCtr := s.freeCtr + 2 }

theorem cutPorts_succ (n : Nat) (s : State) : cutPorts (n + 1) s = cutPort n (cutPorts n s) := by
  simp [cutPorts, eachOf, List.range_succ]

theorem portsRefresh_losing (h : ∀ k < 6, Losing k (cutPorts k s)) : portsRefresh s = cutPorts 6 s := by
  have upTo : ∀ n ≤ 6, eachOf (List.range n) (fun s k => txRefresh k (if portDown k s then linkCut k s else s)) s =
      cutPorts n s := by
    intro n hn
    induction n with
    | zero => rfl
    | succ n ih =>
      obtain ⟨hdown, hup, hsat⟩ := h n (by omega)
      have hprev := ih (by omega)
      simp only [eachOf] at hprev
      rw [cutPorts_succ, cutPort, ← linkCut_saturated hup hsat]
      simp [eachOf, List.range_succ, hprev, hdown]
  exact upTo 6 (Nat.le_refl 6)

/-! ### The end of a transition -/

/-- Every domain stands at its target, before the ports and the host follow (R405). -/
def arrived (tgt : List Nat) (s : State) : State :=
  let back := domains.filter (fun k => domState k s == 3 && tgt.getD k 0 == 0)
  let rest := (movingTo tgt s).filter (fun k => domState k s != 3)
  let s1 := eachOf domains (fun s k => wr (F.PWR_TARGET_STATE k) (tgt.getD k 0) s) (moveDomains rest tgt s)
  eachOf back (fun s k => domainBack k s) (setPwr (fun p => { p with run := none }) s1)

/-- A transition that has ended is told and answered, and the spine may rest (R405, R411). -/
def endTold (r : PwrReq) (s : State) : State :=
  let s3 := pwrAnswer r cDONE 0 (pwrStamp r.t) (raise E.PWR_DONE (pwrStamp r.t) s)
  if allAsleep s3 then beginRest s3 else s3

theorem pwrFinish_eq (r : PwrReq) (tgt : List Nat) (s : State) :
    pwrFinish r tgt s = endTold r (refreshHost (portsRefresh (arrived tgt s))) := rfl

theorem exec_pwrDone {r : PwrReq} {tgt : List Nat} (hrun : s.pwr.run = some (r, tgt)) (hstop : s.host.stopping = false) :
    exec .pwrDone s = .next (firmwareBack (pwrFinish r tgt s)) := by
  show execPwrDone s = _
  simp [execPwrDone, hrun, hstop, done]

/-! ### The queue that has room before the end and none for its event -/

/-- The transition under way: every domain is ON and stays ON. -/
def stayOn : PwrReq × List Nat := ({ t := 100 }, List.replicate 24 0)

/-- Port `k` is disabled with its link still up, and its counts of cut frames are saturated. -/
def losePort (k : Nat) (s : State) : State :=
  s |> wr (F.ETH_STATUS_LINK k) 1 |> wr (F.ETH_CFG_ENABLE k) 0
    |> setReg (counterAddr (C.ETH_TX_ABORT k)) (BitVec.ofNat 40 countMax)
    |> setReg (counterAddr (C.ETH_RX_ABORT k)) (BitVec.ofNat 40 countMax)

/-- One of the 48 events that wait. -/
def waitingEvent (i : Nat) : Event := { code := 0, arg0 := i, arg1 := 0, count := 1, tick := 100, wc := 0 }

/-- 48 events wait. The end of `stayOn` brings six links down (12 events: the hold-down is 0), three of them with a
LINK_DOWN counter that saturates in a group of its own, and finds the host absent: the queue of 64 is full. -/
def crowded : State :=
  let on := eachOf domains (fun s k => wr (F.PWR_TARGET_STATE k) 0 s) { State.reset with term := .listening, bt := 100 }
  let ports := eachOf (List.range 6) (fun s k => losePort k s) on
  let counts := eachOf [0, 2, 4] (fun s k => setReg (counterAddr (C.ETH_LINK_DOWN k)) (BitVec.ofNat 40 (countMax - 1)) s) ports
  counts |> wr F.QM_HOLDDOWN_CYCLES 0 |> wr F.HRE_CTRL_HOST_ABSENT 0
    |> setHost (fun h => { h with events := (List.range 48).map waitingEvent })
    |> setPwr (fun p => { p with run := some stayOn })

theorem crowded_room : Room crowded := by unfold Room; decide +kernel

theorem crowded_losing : ∀ k < 6, Losing k (cutPorts k (arrived stayOn.2 crowded)) := by
  unfold Losing AbortsSaturated Saturated; decide +kernel

theorem crowded_drops :
    ¬ Waits E.PWR_DONE (stampOf stayOn.1.t).toNat
      (firmwareBack (endTold stayOn.1 (refreshHost (cutPorts 6 (arrived stayOn.2 crowded))))) := by
  unfold Waits; decide +kernel

theorem exec_pwrDone_crowded :
    exec .pwrDone crowded = .next (firmwareBack (endTold stayOn.1 (refreshHost (cutPorts 6 (arrived stayOn.2 crowded))))) := by
  rw [exec_pwrDone (r := stayOn.1) (tgt := stayOn.2) rfl rfl, pwrFinish_eq, portsRefresh_losing crowded_losing]

/-- Refutes O53: a transition's end with 48 events waiting (`Room`) need not leave PWR_DONE waiting. In `crowded` the six
LINK_DOWN and six PORT_FLUSHED events of the ports, three LEDGER_SAT and HOST_ABSENT come before it and fill the internal
queue of 64, so that PWR_DONE is dropped and counted in EVT_LOST (R302). -/
theorem not_powerTransitionsRun : ¬ Obligations.PowerTransitionsRun := by
  unfold Obligations.PowerTransitionsRun
  rintro ⟨-, -, -, ends⟩
  obtain ⟨t, hexec, -, -, htold, -⟩ :=
    ends stayOn.1 stayOn.2 crowded rfl rfl (by decide) crowded_room
  have hend : _ = t := Host.Outcome.next.inj (exec_pwrDone_crowded.symm.trans hexec)
  rw [← hend] at htold
  exact crowded_drops htold

end Sys2Proof.Proofs

end

/-! PROOF. A read of TIME_NOW (spec/01_tick_and_word.md R15). -/

section

namespace Sys2Proof.Proofs

open Sys2Proof Sys2Proof.Machine Sys2Proof.Claims Sys2Proof.Laws

variable {s : State}

/-- R15: the four fields of TIME_NOW. -/
theorem fget_timeNow (wc ph : Nat) (hw : wc < 2 ^ 13) (hp : ph < 2 ^ 6) :
    fget (timeNow wc ph s) F.TIME_NOW_CYCLE_LO.hi F.TIME_NOW_CYCLE_LO.lo = s.bt / 48 % 2 ^ 15 ∧
      fget (timeNow wc ph s) F.TIME_NOW_TICK.hi F.TIME_NOW_TICK.lo = s.bt % 48 ∧
      fget (timeNow wc ph s) F.TIME_NOW_WC.hi F.TIME_NOW_WC.lo = wc ∧
      fget (timeNow wc ph s) F.TIME_NOW_PHASE.hi F.TIME_NOW_PHASE.lo = ph := by
  dsimp only [timeNow, F.TIME_NOW_CYCLE_LO, F.TIME_NOW_TICK, F.TIME_NOW_WC, F.TIME_NOW_PHASE]
  refine ⟨?_, ?_, ?_, fget_fput_same _ _ _ _ (by decide) |>.trans (Nat.mod_eq_of_lt hp)⟩
  · rw [fget_fput_apart _ _ _ _ _ _ (by decide) (by decide), fget_fput_apart _ _ _ _ _ _ (by decide) (by decide),
      fget_fput_apart _ _ _ _ _ _ (by decide) (by decide)]
    exact fget_fput_same _ _ _ _ (by decide)
  · rw [fget_fput_apart _ _ _ _ _ _ (by decide) (by decide), fget_fput_apart _ _ _ _ _ _ (by decide) (by decide),
      fget_fput_same _ _ _ _ (by decide)]
    exact Nat.mod_eq_of_lt (by omega)
  · rw [fget_fput_apart _ _ _ _ _ _ (by decide) (by decide), fget_fput_same _ _ _ _ (by decide)]
    exact Nat.mod_eq_of_lt hw

theorem exec_timeNowRead {p : Path} {wc : BitVec 13} {ph : BitVec 6} (ha : regsAnswer s = true) (hh : s.term ≠ .holding)
    (hw : wc.toNat < 4160) : exec (.timeNowRead p wc ph) s =
      .next (emit (.regData p (BitVec.ofNat 64 (fget (timeNow wc.toNat ph.toNat s) 31 0)))
        (setSnap p R.TIME_NOW (BitVec.ofNat 8 (fget (timeNow wc.toNat ph.toNat s) 39 32))
          (wr F.TIME_EPOCH_SNAP_CYCLE (s.bt / 48) s))) := by
  have hwc : wc.toNat % wcPerTick = wc.toNat := Nat.mod_eq_of_lt hw
  simp [exec, execTimeNowRead, captureTime, done, ha, readable_timeNow.mpr hh, hwc]

/-- Settles O9. -/
theorem timeNowReadCapturesTheCycle : Obligations.TimeNowReadCapturesTheCycle := by
  intro p wc ph s ha hh hw
  obtain ⟨hcyc, htick, hwc, hph⟩ := fget_timeNow (s := s) wc.toNat ph.toNat wc.isLt ph.isLt
  refine ⟨_, timeNow wc.toNat ph.toNat s, exec_timeNowRead ha hh hw, by simp [emit, setSnap, wr, setReg],
    by simp [setSnap], hcyc, htick, hwc, hph, ?_, fun off ho => ?_⟩
  · exact (rd_of_reg _ (reg_setLatches _ _ _)).trans (rd_wr_same _ _ _ (by decide))
  · exact (reg_setLatches _ _ _).trans (reg_wr_other _ _ _ _ ho)

end Sys2Proof.Proofs

end

/-! PROOF. A building tick and building time (spec/01_tick_and_word.md R14, R19), and tick overruns (R23, R24, R231). -/

section

namespace Sys2Proof.Proofs

open Sys2Proof Sys2Proof.Machine Sys2Proof.Claims Sys2Proof.Laws

variable {s u : State}

/-! ### Building time -/

/-- Every register and part of the state but building time. -/
def allButBt : Nat := T.everything - Reach.T.bt

/-- What the engines do before building time moves (R19). -/
def tickEnd (i : TickIn) (s : State) : State := afeEnd (showEnd i.tdm s)

/-- What the engines do once it has moved. -/
def tickBegin (i : TickIn) (s : State) : State :=
  s |> deadlineSweep |> settleSubs |> applyAllStaged |> boundaryService i |> boundaryPresent i |> servePunts 4096

theorem keeps_tickEnd (i : TickIn) : Keeps 0x140060008000000000000000000400000000000000010158000 s (tickEnd i s) :=
  keeps_afeEnd rfl (keeps_showEnd _ rfl (.refl _ s))

theorem tickBegin_bt (i : TickIn) : (tickBegin i s).bt = s.bt :=
  (keeps_servePunts (A := allButBt) _ rfl (keeps_boundaryPresent i rfl (keeps_boundaryService i rfl
    (keeps_applyAllStaged rfl (keeps_settleSubs rfl (keeps_deadlineSweep rfl (.refl _ s))))))).rest.bt rfl

theorem advanceTime_pendRange : (advanceTime s).regn.pendRange = s.regn.pendRange := by
  unfold advanceTime
  split
  · rfl
  · split <;> rfl

theorem advanceTime_bt_congr (hregn : u.regn = s.regn) (hline : u.line = s.line) (hbt : u.bt = s.bt)
    (hranged : on F.TIME_STATUS_RANGED u = on F.TIME_STATUS_RANGED s) : (advanceTime u).bt = (advanceTime s).bt := by
  unfold advanceTime nextTick
  rw [hregn, hline, hbt, hranged]
  split
  · rfl
  · split <;> rfl

theorem applyRange_none (h : s.regn.pendRange = none) : applyRange s = s := by simp [applyRange, h]

/-- Where no ranging result waits, nothing at the boundary moves building time but its own advance. -/
theorem boundaryTime_bt (h : s.regn.pendRange = none) : (boundaryTime s).bt = (advanceTime s).bt := by
  unfold boundaryTime
  dsimp only
  rw [applyRange_none (advanceTime_pendRange.trans h)]
  have hslew : Keeps allButBt (advanceTime s) (moveSource (applyTimeMap (slewTick (advanceTime s)))) :=
    keeps_moveSource rfl (keeps_applyTimeMap rfl (keeps_slewTick rfl (.refl _ _)))
  exact (keeps_whenB (A := allButBt) _ _ (fun _ => keeps_genlockRealign rfl)
    (keeps_whenB _ _ (fun _ => keeps_stepWork _ rfl) hslew)).rest.bt rfl

theorem exec_buildingTick_held (i : TickIn) (h : s.term = .reset ∨ s.term = .holding) :
    exec (.buildingTick i) s = .next (ktimerTick s) := by
  rcases h with h | h <;> simp [exec, execBuildingTick, done, h]

theorem exec_buildingTick_selftest (i : TickIn) (h : s.term = .selftest) :
    exec (.buildingTick i) s = .next (keepRc i.rcHz (ktimerTick (drained (linkTick i.link (boundaryTime s))))) := by
  simp [exec, execBuildingTick, done, h]

theorem not_early_of_fromListening (h : fromListening s = true) :
    (s.term == .reset) = false ∧ (s.term == .holding) = false ∧ (s.term == .selftest) = false := by
  cases ht : s.term <;> simp_all [fromListening, termCode]

theorem exec_buildingTick_resting (i : TickIn) (hl : fromListening s = true) (hr : s.pwr.resting = true) :
    exec (.buildingTick i) s = .next (ktimerTick (setPwr (fun p => { p with rest := p.rest + 1 }) s)) := by
  obtain ⟨hreset, hholding, hselftest⟩ := not_early_of_fromListening hl
  simp [exec, execBuildingTick, done, hreset, hholding, hselftest, hr]

theorem exec_buildingTick_running (i : TickIn) (hl : fromListening s = true) (hr : s.pwr.resting = false) :
    exec (.buildingTick i) s = .next (tickBegin i (boundaryTime (tickEnd i s))) := by
  obtain ⟨hreset, hholding, hselftest⟩ := not_early_of_fromListening hl
  simp [exec, execBuildingTick, done, hreset, hholding, hselftest, hr, tickBegin, tickEnd]

/-- Out of reset and HOLDING a terminal is in SELFTEST or has come to LISTENING. -/
theorem selftest_or_fromListening (hr : s.term ≠ .reset) (hh : s.term ≠ .holding) :
    s.term = .selftest ∨ fromListening s = true := by
  cases ht : s.term <;> simp_all [fromListening, termCode]

/-- Where no ranging result waits and the spine runs, a building tick advances building time and no more. -/
theorem buildingTick_bt (i : TickIn) (hr : s.term ≠ .reset) (hh : s.term ≠ .holding) (hs : s.pwr.resting = false)
    (hp : s.regn.pendRange = none) : ∃ t, exec (.buildingTick i) s = .next t ∧ t.bt = (advanceTime s).bt := by
  rcases selftest_or_fromListening hr hh with ht | hl
  · refine ⟨_, exec_buildingTick_selftest i ht, ?_⟩
    rw [← boundaryTime_bt hp]
    exact (keeps_keepRc (A := allButBt) _ rfl (keeps_ktimerTick rfl (keeps_drained rfl
      (keeps_linkTick _ rfl (.refl _ _))))).rest.bt rfl
  · have hk := keeps_tickEnd (s := s) i
    have hregn : (tickEnd i s).regn = s.regn := hk.rest.regn rfl
    have hranged := hk.rd F.TIME_STATUS_RANGED (by decide +kernel)
    refine ⟨_, exec_buildingTick_running i hl hs, ?_⟩
    rw [tickBegin_bt, boundaryTime_bt (by rw [hregn, hp])]
    exact advanceTime_bt_congr hregn (hk.rest.line rfl) (hk.rest.bt rfl) (on_of_rd hranged)

theorem advanceTime_unranged (h : on F.TIME_STATUS_RANGED s = false) : (advanceTime s).bt = s.line := by
  simp [advanceTime, h]

theorem advanceTime_ranged (h : on F.TIME_STATUS_RANGED s = true) (hp : s.regn.pendStep = none) :
    (advanceTime s).bt = tickAdd s.bt 1 := by
  simp [advanceTime, nextTick, h, hp]

/-! ### Tick overruns -/

/-- An engine's bit of TICK_OVERRUN_STATUS. -/
def overrunBit (e : Nat) : Fld := ⟨R.TICK_OVERRUN_STATUS, e, e⟩

/-- R23: the overrun of engine `e` is counted and its bit set. -/
def overrunCounted (e : Nat) (s : State) : State := wr (overrunBit e) 1 (count (C.TICK_OVERRUN_FRM + e) s)

/-- R24: it is told, where it is the engine's first in the line cycle. -/
def overrunTold (e : Nat) (s : State) : State :=
  if nbit s.byp.overruns e then overrunCounted e s
  else setByp (fun b => { b with overruns := b.overruns + 2 ^ e }) (raise E.TICK_OVERRUN e (overrunCounted e s))

theorem exec_tickOverrun {e : Fin 9} (hl : fromListening s = true) (hc : e.val = 3 → cipherOverrun s = true) :
    exec (.tickOverrun e) s = .next (if e.val = 0 then setByp (fun b => { b with frmOverrun := true }) (overrunTold e.val s)
      else overrunTold e.val s) := by
  have hgo : (!fromListening s || (e.val == 3 && !cipherOverrun s)) = false := by
    by_cases h3 : e.val = 3
    · simp [hl, hc h3]
    · simp [hl, h3]
  simp only [exec, execTickOverrun, done, hgo]
  simp [overrunTold, overrunCounted, overrunBit]

theorem countsNow_of_fromListening (hl : fromListening s = true) : countsNow s = true := by
  cases ht : s.term <;> simp_all [fromListening, countsNow, termCode]

theorem reg_overrunTold {e off : Nat} (h : reg off (raise E.TICK_OVERRUN e (overrunCounted e s)) = reg off (overrunCounted e s)) :
    reg off (overrunTold e s) = reg off (overrunCounted e s) := by
  unfold overrunTold
  split
  · rfl
  · exact (reg_setByp _ _ _).trans h

/-- A register that counting leaves alone is no counter's. -/
theorem counterAddr_ne_of_bookkeeping {off : Nat} (h : bookkeeping off = false) (i : Nat) : counterAddr i ≠ off := fun ho => by
  rw [← ho, bookkeeping_counterAddr] at h
  contradiction

theorem tallied_overrunTold {e : Nat} (he : e < 9) (hc : countsNow s = true) :
    Tallied (C.TICK_OVERRUN_FRM + e) 1 s (overrunTold e s) := by
  have hi : C.TICK_OVERRUN_FRM + e < 312 ∧ C.TICK_OVERRUN_FRM + e ≠ C.EVT_LOST := by
    unfold C.TICK_OVERRUN_FRM C.EVT_LOST
    omega
  have hoff : counterAddr (C.TICK_OVERRUN_FRM + e) ≠ R.TICK_OVERRUN_STATUS := counterAddr_ne_of_bookkeeping (by decide) _
  rw [Tallied, reg_overrunTold (reg_raise_counter _ _ _ hi.1 hi.2), overrunCounted, reg_wr_other _ _ _ _ hoff,
    reg_count_same _ hi.1 hi.2 hc]

theorem rd_overrunTold {e : Nat} (he : e < 9) : rd (overrunBit e) (overrunTold e s) = 1 := by
  have hlast : rd (overrunBit e) (overrunTold e s) = rd (overrunBit e) (overrunCounted e s) :=
    rd_of_reg _ (reg_overrunTold (reg_raise R.TICK_OVERRUN_STATUS _ _ _ (by decide)))
  have hw : (overrunBit e).hi + 1 - (overrunBit e).lo = 1 := by unfold overrunBit; dsimp only; omega
  rw [hlast, overrunCounted, rd_wr_same _ _ _ (by unfold overrunBit; dsimp only; omega), hw]
  rfl

theorem nbit_add_two_pow {n e : Nat} (h : nbit n e = false) : nbit (n + 2 ^ e) e = true := by
  simp only [nbit, beq_eq_false_iff_ne, beq_iff_eq] at h ⊢
  rw [Nat.add_div_right _ (Nat.two_pow_pos e)]
  omega

theorem overrunCounted_byp (e : Nat) : (overrunCounted e s).byp = s.byp := count_byp _ s

theorem overruns_overrunTold {e : Nat} : nbit (overrunTold e s).byp.overruns e = true := by
  unfold overrunTold
  cases h : nbit s.byp.overruns e with
  | true => simpa [overrunCounted_byp] using h
  | false => simpa [overrunCounted_byp] using nbit_add_two_pow h

theorem waits_overrunTold {e : Nat} (hroom : Room s) (h : nbit s.byp.overruns e = false) :
    Waits E.TICK_OVERRUN e (overrunTold e s) := by
  have hj : (count (C.TICK_OVERRUN_FRM + e) s).host.events.length ≤ s.host.events.length + 1 := (joined_count _).1
  have hlt : (overrunCounted e s).host.events.length < 64 := by
    unfold Room at hroom
    exact Nat.lt_of_le_of_lt hj (by omega)
  rw [overrunTold, h]
  exact waits_raise E.TICK_OVERRUN e hlt

theorem tickOverrun_told (e : Fin 9) (hl : fromListening s = true) (hroom : Room s) (hc : e.val = 3 → cipherOverrun s = true) :
    ∃ t, exec (.tickOverrun e) s = .next t ∧ Tallied (C.TICK_OVERRUN_FRM + e.val) 1 s t ∧
      rd ⟨R.TICK_OVERRUN_STATUS, e.val, e.val⟩ t = 1 ∧ nbit t.byp.overruns e.val = true ∧
      (nbit s.byp.overruns e.val = false → Waits E.TICK_OVERRUN e.val t) ∧ (e.val = 0 → t.byp.frmOverrun = true) := by
  have htold := tallied_overrunTold e.isLt (countsNow_of_fromListening hl)
  refine ⟨_, exec_tickOverrun hl hc, ?_⟩
  by_cases h0 : e.val = 0
  · rw [if_pos h0]
    exact ⟨htold, rd_overrunTold e.isLt, overruns_overrunTold, waits_overrunTold hroom, fun _ => rfl⟩
  · rw [if_neg h0]
    exact ⟨htold, rd_overrunTold e.isLt, overruns_overrunTold, waits_overrunTold hroom, fun h => absurd h h0⟩

/-- Settles O17: a boundary moves building time once, by its own advance, where no ranging result waits. -/
theorem buildingTicksAndOverruns : Obligations.BuildingTicksAndOverruns := by
  refine ⟨fun i s hr hh hs hu hp => ?_, fun i s hr hh hs hu hp hps => ?_, fun i s hl hr => ?_,
    fun i s => exec_buildingTick_held i, fun e s => tickOverrun_told e, fun s h => ?_⟩
  · rw [← advanceTime_unranged hu]
    exact buildingTick_bt i hr hh hs hp
  · rw [← advanceTime_ranged hu hps]
    exact buildingTick_bt i hr hh hs hp
  · exact ⟨_, exec_buildingTick_resting i hl hr, rfl, rfl, rfl⟩
  · simp [exec, execTickOverrun, done, h]

end Sys2Proof.Proofs

end

/-! PROOF. A command of the command ring that ends at once (spec/12_host_rings_pcie.md R298, R299), and the updates of the
Thresher's tables (spec/10_thresher.md R245, R252-R254). -/

section

namespace Sys2Proof.Proofs

open Sys2Proof Sys2Proof.Machine Sys2Proof.Claims Sys2Proof.Laws

variable {s u : State} {h : CmdHdr}

/-! ### A command that ends at once -/

/-- The state in which a command in sequence acts: its CSEQ is the last (R299). -/
def seqTaken (h : CmdHdr) (s : State) : State := wr F.CMD_SEQ_VALID 1 (wr F.CMD_SEQ_LAST h.cseq.toNat s)

theorem reg_seqTaken {off : Nat} (ho : off ≠ R.CMD_SEQ) : reg off (seqTaken h s) = reg off s :=
  (reg_wr_other _ _ _ _ ho).trans (reg_wr_other _ _ _ _ ho)

theorem rd_seqTaken {f : Fld} (ho : f.off ≠ R.CMD_SEQ) : rd f (seqTaken h s) = rd f s := rd_of_reg f (reg_seqTaken ho)

theorem rd_last_seqTaken : rd F.CMD_SEQ_LAST (seqTaken h s) = h.cseq.toNat := by
  rw [seqTaken, rd_wr_other _ _ _ _ (by decide) (by decide), rd_wr_same _ _ _ (by decide)]
  exact Nat.mod_eq_of_lt h.cseq.isLt

theorem runCmd_ends {act : State → CmdEnd × State} {st sub res : Nat} (hd : Due h s)
    (ha : act (seqTaken h s) = (.ends st sub res, u)) :
    runCmd h true act s = cmdComplete h st sub res false (cmdRecord h st sub res u) := by
  obtain ⟨hready, hseq⟩ := hd
  have hnext : (!on F.CMD_SEQ_VALID s || h.cseq.toNat == (rd F.CMD_SEQ_LAST s + 1) % 65536) = true := by
    rcases hseq with hv | hc
    · simp [hv]
    · simp [hc]
  unfold runCmd
  simp only [hready, hnext]
  rw [← seqTaken, ha]
  rfl

/-- The bytes of a completion as they go to the descriptor (R298). -/
def completion (st sub res : Nat) (again : Bool) : List Byte :=
  bytesLE 5 res ++ [BitVec.ofNat 8 sub, BitVec.ofNat 8 st, BitVec.ofNat 8 (128 + 64 * b2n again)]

theorem wantRing_out (r : Nat) : (wantRing r s).out = s.out :=
  (keeps_wantRing (A := 0x10000) r rfl (.refl _ s)).rest.out rfl

theorem ringCons_wantVec (r v : Nat) : ringCons r (wantVec v s) = ringCons r s := by
  unfold wantVec
  split <;> rfl

theorem ringCons_wantRing (r r' : Nat) : ringCons r (wantRing r' s) = ringCons r s := by
  unfold wantRing
  split
  · exact ringCons_wantVec _ _
  · rfl

theorem cmdComplete_out (st sub res : Nat) (again : Bool) : (cmdComplete h st sub res again s).out =
    dmaOut s (descAddr ringCMD (ringCons ringCMD s) s + 24) (completion st sub res again) :: s.out := by
  unfold cmdComplete
  dsimp only
  split
  · exact wantRing_out _
  · rfl

theorem ringCons_cmdComplete (st sub res : Nat) (again : Bool) :
    ringCons ringCMD (cmdComplete h st sub res again s) = (ringCons ringCMD s + 1) % 2 ^ 32 := by
  have hset : ∀ v (x : State), ringCons ringCMD (setCons ringCMD v x) = v % 2 ^ 32 := fun v x => by
    simp [ringCons, setCons, lget, lput, get_put_same]
  unfold cmdComplete
  dsimp only
  split
  · rw [ringCons_wantRing, hset]
  · rw [hset]

theorem keeps_complete (st sub res : Nat) (again : Bool) :
    Keeps 0x20010000 s (cmdComplete h st sub res again (cmdRecord h st sub res s)) :=
  keeps_cmdComplete _ _ _ _ again rfl (keeps_cmdRecord _ _ _ _ rfl (.refl _ s))

theorem ringCons_cmdRecord (r st sub res : Nat) : ringCons r (cmdRecord h st sub res s) = ringCons r s := rfl

/-- The registers that place a command's completion, and CMD_SEQ. -/
def completionRegs : List Nat := [R.RING_MODE, R.CMD_BASE, R.CMD_BASE + 8, R.CMD_SEQ]

/-- A command whose action leaves the ring engine alone is completed as R298 and R299 say. -/
theorem completed_of_keeps {A : Nat} (st sub res : Nat) (hk : Keeps A (seqTaken h s) u) (hhost : A.testBit 16 = false)
    (hregs : completionRegs.all (fun off => !Reach.reg A off) = true) :
    Completed h st sub res s (cmdComplete h st sub res false (cmdRecord h st sub res u)) := by
  have hreg : ∀ off ∈ completionRegs, reg off u = reg off (seqTaken h s) := fun off ho => by
    refine hk.rest.regs off ?_
    simpa using List.all_eq_true.mp hregs off ho
  have hsame : ∀ off ∈ [R.RING_MODE, R.CMD_BASE, R.CMD_BASE + 8], reg off u = reg off s := fun off ho => by
    refine (hreg off (List.mem_append_left [R.CMD_SEQ] ho)).trans (reg_seqTaken ?_)
    revert off
    decide
  have hmode : reg R.RING_MODE u = reg R.RING_MODE s := hsame _ (by decide)
  have hbase : reg (ringBase ringCMD) u = reg (ringBase ringCMD) s := hsame _ (by decide)
  have hcfg : reg (ringBase ringCMD + 8) u = reg (ringBase ringCMD + 8) s := hsame _ (by decide)
  have hcons : ringCons ringCMD (cmdRecord h st sub res u) = ringCons ringCMD s :=
    (ringCons_cmdRecord _ _ _ _).trans (congrArg (fun x : HostSt => (lget (0, 0) x.idx ringCMD).2) (hk.rest.host hhost))
  have haddr : descAddr ringCMD (ringCons ringCMD s) u = descAddr ringCMD (ringCons ringCMD s) s := by
    simp only [descAddr, ringSize, ringLog, ringCfg, hbase, hcfg]
  have hout : ∀ a b, dmaOut u a b = dmaOut s a b := fun a b => by
    unfold dmaOut hostless
    rw [on_of_rd (rd_of_reg F.RING_MODE_HOSTLESS hmode)]
  refine ⟨?_, ?_, ?_⟩
  · rw [cmdComplete_out, hcons]
    refine List.mem_cons.mpr (.inl ?_)
    exact ((hout _ _).symm.trans (congrArg (fun a => dmaOut u (a + 24) _) haddr.symm))
  · rw [ringCons_cmdComplete, hcons]
  · rw [(keeps_complete st sub res false).rd _ (by decide +kernel), rd_of_reg F.CMD_SEQ_LAST (hreg R.CMD_SEQ (by decide)),
      rd_last_seqTaken]

/-! ### The update commands -/

/-- What an update of the tables may reach where it raises nothing: the Thresher and TH_UPDATE_STATUS. -/
def updateReach : Nat := Reach.T.th ||| Reach.T.TH_UPDATE_STATUS

theorem domOn_seqTaken (k : Nat) : domOn k (seqTaken h s) = domOn k s := by
  have : (F.PWR_TARGET_STATE k).off ≠ R.CMD_SEQ := by
    show R.PWR_TARGET _ ≠ R.CMD_SEQ
    unfold R.PWR_TARGET R.CMD_SEQ
    omega
  simp only [domOn, domState, rd_seqTaken this]

theorem batchOpen_seqTaken : batchOpen (seqTaken h s) = batchOpen s := by
  simp only [batchOpen, rd_seqTaken (f := F.TH_UPDATE_STATUS_STATE) (by decide),
    rd_seqTaken (f := F.TH_UPDATE_STATUS_OPS) (by decide)]

theorem tableOf_seqTaken (n : Nat) : tableOf n (seqTaken h s) = tableOf n s := rfl

/-- An update that ends with result `r`: the command completes, and the tables and the batch are as its action leaves
them. -/
theorem update_ends {act : State → CmdEnd × State} {st r res : Nat} (hd : Due h s) (hon : domOn dTHR s = true)
    (ha : act (seqTaken h s) = (.ends st r res, u)) (hk : Keeps updateReach (seqTaken h s) u) :
    ∃ t, done (runCmd h true (needsOn dTHR act) s) = .next t ∧ Completed h st r res s t ∧ t.th = u.th ∧
      ∀ f : Fld, f.off = R.TH_UPDATE_STATUS → rd f t = rd f u := by
  have ha' : needsOn dTHR act (seqTaken h s) = (.ends st r res, u) := by simp [needsOn, domOn_seqTaken, hon, ha]
  have hc := keeps_complete (h := h) (s := u) st r res false
  refine ⟨_, congrArg Host.Outcome.next (runCmd_ends hd ha'), completed_of_keeps st r res hk (by decide) (by decide +kernel),
    hc.rest.th rfl, fun f hf => rd_of_reg f (hc.rest.regs _ ?_)⟩
  rw [hf]
  decide +kernel

theorem find_putEntry (t : List (Nat × TEntry)) (p : Nat) (e : TEntry) : SMap.find (putEntry t p e) p = some e :=
  find_ins_same _ _ _ (find_del_same _ _)

theorem tableOf_setTable {n : Nat} (t : List (Nat × TEntry)) (hn : n < s.th.tables.length) :
    tableOf n (setTable n t s) = t := by
  simp [tableOf, setTable, setAt, hn]

theorem updTable_lt (w : List Word) : updTable w < 4 := fget_lt _ 35 34

/-- Where no entry of a key meets a condition, none meets a stronger one. -/
theorem findEntry_none_of_imp {t : List (Nat × TEntry)} {prof key : Nat} {ok ok' : TEntry → Bool}
    (hn : findEntry t prof key ok = none) (himp : ∀ e, ok' e = true → ok e = true) : findEntry t prof key ok' = none := by
  simp only [findEntry, List.findSome?_eq_none_iff] at hn ⊢
  intro p hp
  have hp := hn p hp
  cases hf : SMap.find t p with
  | none => rfl
  | some e =>
    simp only [hf, ite_eq_right_iff, reduceCtorEq, imp_false, Bool.and_eq_true, not_and] at hp ⊢
    exact fun hm ho => hp hm (himp e ho)

theorem setNew_free {n p : Nat} {e : TEntry} {t : List (Nat × TEntry)} (r : Nat)
    (hf : freeIn t 0 (bucketOf 0 e.profile e.key) = some p) : setNew n e t r s = (r, addOp (setTable n (putEntry t p e) s)) := by
  simp [setNew, placeEntry, hf]

/-- The pending entry that a SET of a new key makes. -/
def newEntry (w : List Word) : TEntry :=
  { add := true, del := false, profile := updProfile w, key := updKey w, action := w.getD 4 0, md := w.getD 5 0 }

theorem updSet_new {w : List Word} {p : Nat} (hb : batchOpen s = true)
    (hn : findEntry (tableOf (updTable w) s) (updProfile w) (updKey w) (fun _ => true) = none)
    (hf : freeIn (tableOf (updTable w) s) 0 (bucketOf 0 (updProfile w) (updKey w)) = some p) : updSet w s =
      (uADDED, addOp (setTable (updTable w) (putEntry (tableOf (updTable w) s) p (newEntry w)) s)) := by
  have hnone := fun ok => findEntry_none_of_imp (ok' := ok) hn (fun _ _ => rfl)
  simp only [updSet, hb, hnone]
  exact setNew_free _ hf

theorem updDelete_marks {w : List Word} {p : Nat} {old : TEntry} (hb : batchOpen s = true)
    (hn : findEntry (tableOf (updTable w) s) (updProfile w) (updKey w) (fun e => e.add) = none)
    (hf : findEntry (tableOf (updTable w) s) (updProfile w) (updKey w) (fun e => !e.del) = some (p, old)) : updDelete w s =
      (uDELETED, addOp (setTable (updTable w) (putEntry (tableOf (updTable w) s) p { old with del := true }) s)) := by
  simp only [updDelete, hb, hn, hf]
  rfl

theorem keeps_addOp_setTable (n : Nat) (t : List (Nat × TEntry)) : Keeps updateReach s (addOp (setTable n t s)) :=
  keeps_addOp rfl (keeps_setTable _ _ rfl (.refl _ s))

/-- R252: a SET of a new key puts its pending entry into a free place of its bucket. -/
theorem thUpdateSet_adds (w : List Word) (p : Nat) (hd : Due h s) (hon : domOn dTHR s = true) (hop : opReserved w = false)
    (hb : batchOpen s = true) (hlen : s.th.tables.length = 4)
    (hn : findEntry (tableOf (updTable w) s) (updProfile w) (updKey w) (fun _ => true) = none)
    (hf : freeIn (tableOf (updTable w) s) 0 (bucketOf 0 (updProfile w) (updKey w)) = some p) :
    ∃ t, exec (.thUpdateSet h w) s = .next t ∧ Completed h cDONE uADDED 0 s t ∧
      rd F.TH_UPDATE_STATUS_OPS t = rd F.TH_UPDATE_STATUS_OPS s + 1 ∧
      SMap.find (tableOf (updTable w) t) p = some (newEntry w) := by
  have hset := updSet_new (s := seqTaken h s) (batchOpen_seqTaken.trans hb) hn hf
  have hcmd : updSetCmd w (seqTaken h s) = (.ends cDONE uADDED 0, addOp (setTable (updTable w)
      (putEntry (tableOf (updTable w) (seqTaken h s)) p (newEntry w)) (seqTaken h s))) := by
    simp only [updSetCmd, hop, hset]
    rfl
  obtain ⟨t, ht, hc, hth, hrd⟩ := update_ends hd hon hcmd (keeps_addOp_setTable _ _)
  refine ⟨t, ht, hc, ?_, ?_⟩
  · have hops : rd F.TH_UPDATE_STATUS_OPS s < 512 := by
      simp only [batchOpen, Bool.and_eq_true, decide_eq_true_eq] at hb
      exact hb.2
    have hold : rd F.TH_UPDATE_STATUS_OPS (seqTaken h s) = rd F.TH_UPDATE_STATUS_OPS s := rd_seqTaken (by decide)
    rw [hrd _ rfl, addOp, rd_wr_same _ _ _ (by decide)]
    show (rd F.TH_UPDATE_STATUS_OPS (seqTaken h s) + 1) % 2 ^ 10 = _
    rw [hold, Nat.mod_eq_of_lt (by omega)]
  · have htab := tableOf_setTable (s := seqTaken h s)
      (putEntry (tableOf (updTable w) (seqTaken h s)) p (newEntry w)) (n := updTable w)
      (Nat.lt_of_lt_of_eq (updTable_lt w) hlen.symm)
    rw [tableOf, hth]
    exact (congrArg (fun m => SMap.find m p) htab).trans (find_putEntry _ _ _)

/-- R252: a DELETE marks the entry of its key. -/
theorem thUpdateDelete_marks (w : List Word) (p : Nat) (old : TEntry) (hd : Due h s) (hon : domOn dTHR s = true)
    (hop : opReserved w = false) (hb : batchOpen s = true) (hlen : s.th.tables.length = 4)
    (hn : findEntry (tableOf (updTable w) s) (updProfile w) (updKey w) (fun e => e.add) = none)
    (hf : findEntry (tableOf (updTable w) s) (updProfile w) (updKey w) (fun e => !e.del) = some (p, old)) :
    ∃ t, exec (.thUpdateDelete h w) s = .next t ∧ Completed h cDONE uDELETED 0 s t ∧
      SMap.find (tableOf (updTable w) t) p = some { old with del := true } := by
  have hdel := updDelete_marks (s := seqTaken h s) (batchOpen_seqTaken.trans hb) hn hf
  have hcmd : updDeleteCmd w (seqTaken h s) = (.ends cDONE uDELETED 0, addOp (setTable (updTable w)
      (putEntry (tableOf (updTable w) (seqTaken h s)) p { old with del := true }) (seqTaken h s))) := by
    simp only [updDeleteCmd, hop, hdel]
    rfl
  obtain ⟨t, ht, hc, hth, -⟩ := update_ends hd hon hcmd (keeps_addOp_setTable _ _)
  refine ⟨t, ht, hc, ?_⟩
  have htab := tableOf_setTable (s := seqTaken h s)
    (putEntry (tableOf (updTable w) (seqTaken h s)) p { old with del := true }) (n := updTable w)
    (Nat.lt_of_lt_of_eq (updTable_lt w) hlen.symm)
  rw [tableOf, hth]
  exact (congrArg (fun m => SMap.find m p) htab).trans (find_putEntry _ _ _)

/-- The registers of a committed batch (R253). -/
def commitStatus (T : Nat) (s : State) : State :=
  s |> wr F.TH_UPDATE_STATUS_STATE 1 |> wr F.TH_UPDATE_STATUS_T_TICK (T % 48) |> wr F.TH_UPDATE_STATUS_T_CYCLE_LO (T / 48)

theorem rd_commitStatus (T : Nat) : rd F.TH_UPDATE_STATUS_STATE (commitStatus T s) = 1 := by
  rw [commitStatus, rd_wr_other _ _ _ _ (by decide) (by decide), rd_wr_other _ _ _ _ (by decide) (by decide),
    rd_wr_same _ _ _ (by decide)]
  rfl

/-- The Thresher's part replaced. -/
def withTh (x : ThSt) (s : State) : State := { s with th := x }

@[simp] theorem withTh_th (x : ThSt) : (withTh x s).th = x := rfl

@[simp] theorem reg_withTh (off : Nat) (x : ThSt) : reg off (withTh x s) = reg off s := rfl

/-- The state of a committed batch. -/
def committed (T : Nat) (s : State) : State := withTh { s.th with commitT := some T } (commitStatus T s)

theorem updCommit_open {T : Nat} (hst : rd F.TH_UPDATE_STATUS_STATE s = 0) (hT : 1 ≤ tickDiff T s.bt) :
    updCommit T s = (uCOMMITTED, committed T s) := by
  have hst' : (rd F.TH_UPDATE_STATUS_STATE s != 0) = false := by simp [hst]
  simp only [updCommit, hst', if_neg (Int.not_lt.mpr hT)]
  rfl

theorem rd_state_committed (T : Nat) : rd F.TH_UPDATE_STATUS_STATE (committed T s) = 1 :=
  (rd_of_reg _ (reg_withTh _ _)).trans (rd_commitStatus T)

/-- R253: a COMMIT gives the open batch its tick. -/
theorem thUpdateCommit_commits (w : List Word) (T : Nat) (hd : Due h s) (hon : domOn dTHR s = true)
    (hop : opReserved w = false) (hst : rd F.TH_UPDATE_STATUS_STATE s = 0) (hok : stampOk (w.getD 1 0) = true)
    (hT : T = if w.getD 1 0 = 0 then nextTick s else stampTick s.bt (w.getD 1 0)) (hlate : 1 ≤ tickDiff T s.bt) :
    ∃ t, exec (.thUpdateCommit h w) s = .next t ∧ Completed h cDONE uCOMMITTED (stampOf T).toNat s t ∧
      t.th.commitT = some T ∧ rd F.TH_UPDATE_STATUS_STATE t = 1 ∧ t.th.tables = s.th.tables := by
  have hopen := updCommit_open (s := seqTaken h s) ((rd_seqTaken (by decide)).trans hst) hlate
  have htick : (if w.getD 1 0 = 0 then nextTick (seqTaken h s) else stampTick (seqTaken h s).bt (w.getD 1 0)) = T := hT.symm
  have hcmd : updCommitCmd w (seqTaken h s) = (.ends cDONE uCOMMITTED (stampOf T).toNat, committed T (seqTaken h s)) := by
    simp only [updCommitCmd, hop, hok, htick, hopen]
    rfl
  have hk : Keeps updateReach (seqTaken h s) (committed T (seqTaken h s)) := by
    have := keeps_updCommit (A := updateReach) T rfl (.refl _ (seqTaken h s))
    rwa [hopen] at this
  obtain ⟨t, ht, hc, hth, hrd⟩ := update_ends hd hon hcmd hk
  exact ⟨t, ht, hc, by rw [hth]; rfl, (hrd _ rfl).trans (rd_state_committed T), by rw [hth]; rfl⟩

/-- While a batch is committed, an update is answered BUSY and changes nothing. -/
theorem update_busy {act : State → CmdEnd × State} (hd : Due h s) (hon : domOn dTHR s = true)
    (ha : act (seqTaken h s) = (.ends cREFUSED uBUSY 0, seqTaken h s)) :
    ∃ t, done (runCmd h true (needsOn dTHR act) s) = .next t ∧ Completed h cREFUSED uBUSY 0 s t ∧ t.th = s.th := by
  obtain ⟨t, ht, hc, hth, -⟩ := update_ends hd hon ha (.refl _ _)
  exact ⟨t, ht, hc, hth⟩

theorem updates_busy (i : CmdHdr → List Word → Instr) (w : List Word)
    (hi : i ∈ [Instr.thUpdateSet, Instr.thUpdateDelete, Instr.thUpdateCommit]) (hd : Due h s) (hon : domOn dTHR s = true)
    (hop : opReserved w = false) (hst : rd F.TH_UPDATE_STATUS_STATE s ≠ 0) (hok : stampOk (w.getD 1 0) = true) :
    ∃ t, exec (i h w) s = .next t ∧ Completed h cREFUSED uBUSY 0 s t ∧ t.th = s.th := by
  have hst' : (rd F.TH_UPDATE_STATUS_STATE (seqTaken h s) == 0) = false := by
    rw [rd_seqTaken (by decide)]
    simpa using hst
  have hb : batchOpen (seqTaken h s) = false := by simp [batchOpen, hst']
  simp only [List.mem_cons, List.not_mem_nil, or_false] at hi
  rcases hi with rfl | rfl | rfl
  · exact update_busy (act := updSetCmd w) hd hon (by simp only [updSetCmd, hop, updSet, hb]; rfl)
  · exact update_busy (act := updDeleteCmd w) hd hon (by simp only [updDeleteCmd, hop, updDelete, hb]; rfl)
  · exact update_busy (act := updCommitCmd w) hd hon (by
      simp only [updCommitCmd, hop, hok, updCommit, bne, hst']
      rfl)

/-! ### The sweep (R254) -/

theorem sweepTable_final (t : List (Nat × TEntry)) : ∀ e ∈ sweepTable t, e.2.add = false ∧ e.2.del = false := by
  intro e he
  simp only [sweepTable, List.mem_map, List.mem_filter] at he
  obtain ⟨x, ⟨-, hx⟩, rfl⟩ := he
  exact ⟨rfl, by simpa using hx⟩

theorem tableSweep_finishes (T : Nat) (hon : domOn dTHR s = true) (hT : s.th.commitT = some T)
    (hst : rd F.TH_UPDATE_STATUS_STATE s = 1) (hset : settled T s = true) (hw : ∀ p ∈ s.th.work, 0 ≤ tickDiff p.tag T) :
    ∃ t, exec .tableSweep s = .next t ∧ rd F.TH_UPDATE_STATUS_STATE t = 2 ∧ t.th.tables = s.th.tables.map sweepTable ∧
      ∀ tb ∈ t.th.tables, ∀ e ∈ tb, e.2.add = false ∧ e.2.del = false := by
  have hall : s.th.work.all (fun p => decide (0 ≤ tickDiff p.tag T)) = true := by simpa using hw
  have hexec : exec .tableSweep s =
      .next (wr F.TH_UPDATE_STATUS_STATE 2 { s with th := { s.th with tables := s.th.tables.map sweepTable } }) := by
    simp [exec, execTableSweep, done, hon, hT, hst, hset, hall]
  refine ⟨_, hexec, rd_wr_same _ _ _ (by decide), rfl, fun tb htb => ?_⟩
  obtain ⟨t, -, rfl⟩ := List.mem_map.mp htb
  exact sweepTable_final t

theorem rd_setReg_zero {f : Fld} : rd f (setReg f.off 0 s) = 0 := by simp [rd, fget]

theorem tableSweepDone_reopens (hst : rd F.TH_UPDATE_STATUS_STATE s = 2) :
    ∃ t, exec .tableSweepDone s = .next t ∧ t.th.commitT = none ∧ rd F.TH_UPDATE_STATUS_STATE t = 0 ∧
      rd F.TH_UPDATE_STATUS_OPS t = 0 ∧ t.th.tables = s.th.tables :=
  ⟨_, congrArg Host.Outcome.next (if_pos (by simp [hst])), rfl, rd_setReg_zero (f := F.TH_UPDATE_STATUS_STATE),
    rd_setReg_zero (f := F.TH_UPDATE_STATUS_OPS), rfl⟩

/-- Settles O36. -/
theorem tablesAreUpdatedAtTheirTick : Obligations.TablesAreUpdatedAtTheirTick :=
  ⟨fun _ w p _ => thUpdateSet_adds w p, fun _ w p old _ => thUpdateDelete_marks w p old,
    fun _ w T _ => thUpdateCommit_commits w T, fun i _ w _ => updates_busy i w, fun T _ => tableSweep_finishes T,
    fun _ => tableSweepDone_reopens⟩

end Sys2Proof.Proofs

end

/-! PROOF. The frame header and the staged generations (spec/05_tick_frame.md R123-R127, R132, R137; spec/01_tick_and_word.md
R29; spec/09_keys_cipher_signatures.md R221). -/

section

namespace Sys2Proof.Proofs

open Sys2Proof Sys2Proof.Machine Sys2Proof.Claims Sys2Proof.Laws

variable {s : State} {sd : Side} {ws : List RxWord} {f : FrameId} {n src : Nat}

/-! ### The header a frame engine holds -/

/-- The frame of the latest header, and whether one was ever taken. -/
def headerHeld (s : State) : Option FrameId × Bool := (s.frame.hdrFrame, s.frame.hdrSeen)

theorem headerHeld_of_frame {t : State} (h : t.frame = s.frame) : headerHeld t = headerHeld s := by
  unfold headerHeld
  rw [h]

theorem headerHeld_count (i : Nat) : headerHeld (count i s) = headerHeld s := headerHeld_of_frame (count_frame i s)

theorem headerHeld_setFrame {g : FrameSt → FrameSt} (hf : (g s.frame).hdrFrame = s.frame.hdrFrame)
    (hs : (g s.frame).hdrSeen = s.frame.hdrSeen) : headerHeld (setFrame g s) = headerHeld s := Prod.ext hf hs

theorem headerHeld_whenB_count (b : Bool) (i : Nat) : headerHeld (whenB b (count i) s) = headerHeld s := by
  cases b
  · rfl
  · exact headerHeld_count i

theorem headerHeld_lateOnce (t : Nat) : headerHeld (lateOnce s t) = headerHeld s := by
  unfold lateOnce
  split
  · rfl
  · exact (headerHeld_count _).trans (headerHeld_setFrame rfl rfl)

theorem headerHeld_present (t : Nat) (b : Sub) (data : Option (List Word)) : headerHeld (present t b data s) = headerHeld s := by
  unfold present
  cases presAt t s with
  | none => rfl
  | some at_ =>
    unfold presentAt
    dsimp only
    split
    · split
      · exact headerHeld_lateOnce t
      · rfl
    · exact headerHeld_setFrame rfl rfl

theorem headerHeld_missing (t : Nat) (b : Sub) : headerHeld (missing t b s) = headerHeld s := by
  unfold missing
  dsimp only
  split
  · have hk := keeps_segmentsMissing (A := T.counting ||| Reach.T.th) b.cont rfl (.refl _ (count C.CONTAINER_MISSING s))
    exact (headerHeld_of_frame (hk.rest.frame rfl)).trans (headerHeld_count _)
  · split
    · exact (headerHeld_present _ _ _).trans (headerHeld_count _)
    · exact headerHeld_count _

theorem headerHeld_eachOf {α : Type} (l : List α) (g : State → α → State) (hg : ∀ s x, headerHeld (g s x) = headerHeld s) :
    headerHeld (eachOf l g s) = headerHeld s := by
  induction l generalizing s with
  | nil => rfl
  | cons x l ih => exact (ih (s := g s x)).trans (hg s x)

theorem headerHeld_missingWhole (t : Nat) : headerHeld (missingWhole t s) = headerHeld s := by
  refine headerHeld_eachOf _ _ fun s b => ?_
  split
  · rfl
  · exact (headerHeld_missing t b).trans (headerHeld_setFrame rfl rfl)

/-! ### What a header does, step by step -/

/-- Word `i` of a header, the tick marker being word 0. -/
def hword (ws : List RxWord) (i : Nat) : Word := (ws.getD i RxWord.absent).data

/-- R123: line time, the head-end state and the header's source. -/
def headerLine (ws : List RxWord) (n src : Nat) (s : State) : State :=
  { s with line := n } |> whenB (src == 3) (count C.HDR_RESCUED) |> headState (fget (hword ws 2) 33 30)
    |> wr F.FRAME_STATUS_HDR_SRC src |> wr F.FRAME_STATUS_HDR_OK 1

/-- R127, R155: P, the map, the key generation and the loop generation. -/
def headerGens (ws : List RxWord) (n : Nat) (s : State) : State :=
  s |> headerP n (fget (hword ws 2) 25 22) (fget (hword ws 2) 29 26) (fget (hword ws 2) 21 16) (fget (hword ws 2) 15 12)
    |> headerMap n (fget (hword ws 5) 39 36) (fget (hword ws 5) 35 30) (fget (hword ws 5) 29 19) (fget (hword ws 6) 39 8)
    |> headerKey n (fget (hword ws 5) 18 15) (fget (hword ws 5) 14 9)
    |> headLoop (fget (hword ws 3) 15 12) (fget (hword ws 3) 39 16) (fget (hword ws 4) 39 16)

/-- The header of frame `n` is the latest (R124), with what it offers (R129). -/
def headerTaken (ws : List RxWord) (n : Nat) (s : State) : State :=
  setFrame (fun x => { x with hdrSeen := true, hdrFrame := some (frameOf n),
                              disc := (discOffer n (fget (hword ws 2) 33 30) (hword ws 7)).filter discOk,
                              carId := fget (hword ws 4) 15 8, carPieces := fget (hword ws 7) 17 0 })
    (cycleCounts (fget (hword ws 2) 33 30) s)

/-- R139, R195: what is missing for the whole frame, and, out of LISTENING, an offer that is no window. -/
def headerJudged (ws : List RxWord) (n : Nat) (listening : Bool) (s : State) : State :=
  s |> modRow (frameOf n) 0 (fun r => { r with hdr := true, he := some (fget (hword ws 2) 33 30) }) |> missingWhole n
    |> whenB (!listening && (discOffer n (fget (hword ws 2) 33 30) (hword ws 7)).any (fun o => !discOk o))
        (count C.GRANT_MALFORMED)

/-- R152: an admitted terminal claims at the first discovery window. -/
def headerClaims (ws : List RxWord) (n : Nat) (s : State) : State :=
  if s.term == .admitted && s.byp.admitted && (discOffer n (fget (hword ws 2) 33 30) (hword ws 7)).isSome then
    enterClaiming s
  else s

/-- All that follows the generations; `b` tells whether the terminal is LISTENING. -/
def headerEnd (ws : List RxWord) (n : Nat) (b : Bool) (s : State) : State :=
  headerClaims ws n (headerJudged ws n b (headerTaken ws n s))

/-! ### What each step leaves alone -/

/-- What a header may reach once the generations stand. -/
def headerEndReach : Nat :=
  T.counting ||| Reach.T.term ||| Reach.T.frame ||| Reach.T.regn ||| Reach.T.key ||| Reach.T.th ||| Reach.T.mot |||
    Reach.T.REG_STATUS ||| Reach.T.CLAIM_NONCE ||| Reach.T.AX_STATUS ||| Reach.T.show_ ||| Reach.T.out

/-- What a header may reach once line time stands. -/
def headerGenReach : Nat := headerEndReach ||| Reach.T.TIME_STATUS ||| Reach.T.FRAME_GEN

theorem keeps_headerEnd (ws : List RxWord) (n : Nat) (b : Bool) :
    Keeps headerEndReach s (headerEnd ws n b s) := by
  have hj : Keeps headerEndReach s (headerJudged ws n b (headerTaken ws n s)) :=
    keeps_whenB _ _ (fun _ => keeps_count _ rfl) (keeps_missingWhole n rfl (keeps_modRow _ _ _ rfl
      (keeps_setFrame _ rfl (keeps_cycleCounts _ rfl (.refl _ s)))))
  exact keeps_ite (fun _ => keeps_enterClaiming rfl hj) (fun _ => hj)

theorem keeps_headerGens (ws : List RxWord) (n : Nat) : Keeps headerGenReach s (headerGens ws n s) :=
  keeps_headLoop _ _ _ rfl (keeps_headerKey _ _ _ rfl
    (keeps_headerMap _ _ _ _ _ rfl (keeps_headerP _ _ _ _ _ rfl (.refl _ s))))

theorem headerHeld_headerEnd (ws : List RxWord) (n : Nat) (b : Bool) :
    headerHeld (headerEnd ws n b s) = (some (frameOf n), true) := by
  have hclaims : ∀ x, headerHeld (headerClaims ws n x) = headerHeld x := fun x => by
    have hk : Keeps (headerEndReach - Reach.T.frame) x (headerClaims ws n x) :=
      keeps_ite (fun _ => keeps_enterClaiming rfl (.refl _ x)) (fun _ => .refl _ x)
    exact headerHeld_of_frame (hk.rest.frame rfl)
  rw [headerEnd, hclaims, headerJudged, headerHeld_whenB_count, headerHeld_missingWhole]
  rfl

theorem rd_loopGen_headLoop (gen loopE loopW : Nat) : rd F.FRAME_GEN_LOOP_GEN (headLoop gen loopE loopW s) = gen % 16 := by
  have hw : rd F.FRAME_GEN_LOOP_GEN (wr F.FRAME_GEN_LOOP_GEN gen s) = gen % 16 := rd_wr_same _ _ _ (by decide)
  have hm : ∀ (b : Bool) (x : State), rd F.FRAME_GEN_LOOP_GEN (whenB b measBreak x) = rd F.FRAME_GEN_LOOP_GEN x := by
    intro b x
    cases b <;> rfl
  unfold headLoop
  dsimp only
  split
  · rw [hm, rd_setFrame, hw]
  · split <;> rw [rd_setRegn, hm, rd_setFrame, hw]

theorem headerLine_line : (headerLine ws n src s).line = n :=
  (Keeps.rest (A := T.counting ||| Reach.T.FRAME_STATUS) (keeps_wr _ _ (cov_FRAME_STATUS _ rfl rfl)
    (keeps_wr _ _ (cov_FRAME_STATUS _ rfl rfl) (keeps_headState _ rfl (keeps_whenB _ _ (fun _ => keeps_count _ rfl)
      (.refl _ { s with line := n })))))).line rfl

theorem headerLine_status : rd F.FRAME_STATUS_HDR_SRC (headerLine ws n src s) = src % 4 ∧
    on F.FRAME_STATUS_HDR_OK (headerLine ws n src s) = true ∧
    rd F.FRAME_STATUS_HE_STATE (headerLine ws n src s) = fget (hword ws 2) 33 30 := by
  refine ⟨?_, ?_, ?_⟩
  · rw [headerLine, rd_wr_other _ _ _ _ (by decide) (by decide), rd_wr_same _ _ _ (by decide)]
    rfl
  · rw [headerLine, on, rd_wr_same _ _ _ (by decide)]
    rfl
  · rw [headerLine, rd_wr_other _ _ _ _ (by decide) (by decide), rd_wr_other _ _ _ _ (by decide) (by decide), headState,
      rd_wr_same _ _ _ (by decide)]
    exact Nat.mod_eq_of_lt (fget_lt _ 33 30)

/-- What the header of an earlier frame may reach. -/
def lateHeaderReach : Nat := T.counting ||| Reach.T.frame ||| Reach.T.th

theorem headerHeld_lateHeader (he : Nat) : headerHeld (lateHeader f n he src s) = headerHeld s := by
  unfold lateHeader
  rw [headerHeld_missingWhole]
  exact (headerHeld_whenB_count _ _).trans (headerHeld_whenB_count _ _)

/-! ### A header of the latest frame, and one of an earlier frame -/

/-- R124: the copy of a header that the engine takes, on an input in use. -/
theorem usedHeader (hrun : frmRuns s = true) (huse : usedSide sd s = true) (hsrc : headerSource sd ws s = some src) :
    (if frmRuns s && usedSide sd s then headerSource sd ws s else none) = some src := by simp [hrun, huse, hsrc]

section

variable {words : List RxWord} (hrun : frmRuns s = true) (huse : usedSide sd s = true) (hws : ws = RxWord.chain words)
  (hsrc : headerSource sd ws s = some src) (hn : n = (hword ws 1).toNat * 48 + fget (hword ws 2) 39 34)
  (hset : hdrSettled (frameOf n) s = false)

include hrun huse hws hsrc hn hset

theorem exec_frameHeader_latest (hl : s.frame.hdrFrame.any (fun g => lateTick n (absTick g s)) = false) :
    exec (.frameHeader sd words) s = .next (headerEnd ws n (s.term == .listening)
      (headerGens ws n (headerLine ws n src s))) := by
  have hsel := usedHeader hrun huse hsrc
  subst hws hn
  simp only [hword] at hset hl
  simp only [exec, execFrameHeader, done, hsel, hset, hl, Bool.false_eq_true, if_false]
  rfl

theorem exec_frameHeader_late (hl : s.frame.hdrFrame.any (fun g => lateTick n (absTick g s)) = true) :
    exec (.frameHeader sd words) s = .next (lateHeader (frameOf n) n (fget (hword ws 2) 33 30) src s) := by
  have hsel := usedHeader hrun huse hsrc
  subst hws hn
  simp only [hword] at hset hl
  simp only [exec, execFrameHeader, done, hsel, hset, hl, Bool.false_eq_true, if_false, if_true]
  rfl

theorem frameHeader_latest (hl : s.frame.hdrFrame.any (fun g => lateTick n (absTick g s)) = false) :
    ∃ t, exec (.frameHeader sd words) s = .next t ∧ t.line = n ∧ rd F.FRAME_STATUS_HDR_SRC t = src % 4 ∧
      on F.FRAME_STATUS_HDR_OK t = true ∧ rd F.FRAME_STATUS_HE_STATE t = fget (hword ws 2) 33 30 ∧
      t.frame.hdrSeen = true ∧ rd F.FRAME_GEN_LOOP_GEN t = fget (hword ws 3) 15 12 ∧ t.frame.hdrFrame = some (frameOf n) := by
  obtain ⟨hfrom, hok, hstate⟩ := headerLine_status (s := s) (ws := ws) (n := n) (src := src)
  have hheld := headerHeld_headerEnd (s := headerGens ws n (headerLine ws n src s)) ws n (s.term == .listening)
  have hgens := keeps_headerGens (s := headerLine ws n src s) ws n
  have hend := keeps_headerEnd (s := headerGens ws n (headerLine ws n src s)) ws n (s.term == .listening)
  have hstatus : ∀ g : Fld, g.off = R.FRAME_STATUS → rd g (headerEnd ws n (s.term == .listening)
      (headerGens ws n (headerLine ws n src s))) = rd g (headerLine ws n src s) := fun g hg => by
    rw [hend.rd g (by rw [hg]; decide +kernel), hgens.rd g (by rw [hg]; decide +kernel)]
  refine ⟨_, exec_frameHeader_latest hrun huse hws hsrc hn hset hl, ?_, (hstatus _ rfl).trans hfrom,
    (on_of_rd (hstatus _ rfl)).trans hok, (hstatus _ rfl).trans hstate, congrArg Prod.snd hheld, ?_, congrArg Prod.fst hheld⟩
  · rw [hend.rest.line rfl, hgens.rest.line rfl, headerLine_line]
  · rw [hend.rd _ (by decide +kernel), headerGens, rd_loopGen_headLoop]
    exact Nat.mod_eq_of_lt (fget_lt _ 15 12)

theorem frameHeader_late (hl : s.frame.hdrFrame.any (fun g => lateTick n (absTick g s)) = true) :
    ∃ t, exec (.frameHeader sd words) s = .next t ∧ t.line = s.line ∧ t.frame.hdrFrame = s.frame.hdrFrame ∧
      rd F.FRAME_STATUS_HDR_SRC t = rd F.FRAME_STATUS_HDR_SRC s ∧ rd F.FRAME_GEN_LOOP_GEN t = rd F.FRAME_GEN_LOOP_GEN s := by
  have hk : Keeps lateHeaderReach s (lateHeader (frameOf n) n (fget (hword ws 2) 33 30) src s) :=
    keeps_lateHeader _ _ _ _ rfl (.refl _ s)
  exact ⟨_, exec_frameHeader_late hrun huse hws hsrc hn hset hl, hk.rest.line rfl,
    congrArg Prod.fst (headerHeld_lateHeader _), hk.rd _ (by decide +kernel), hk.rd _ (by decide +kernel)⟩

end

/-! ### The generations take effect (R127) -/

theorem exec_generationEffective_p {x p : Nat} (hp : s.frame.pNext = some (x, p)) (hd : tickDue x s.line = true) :
    exec (.generationEffective .p) s = .next (switchP x ((rd F.TIME_STATUS_P_GEN s + 1) % 16) p s) := by
  simp [exec, execGenerationEffective, done, genDue, hp, hd]

theorem exec_generationEffective_map {x : Nat} (hm : s.frame.mapNext = some x) (hd : tickDue x s.line = true) :
    exec (.generationEffective .map) s = .next (switchMap x ((rd F.FRAME_GEN_MAP_GEN s + 1) % 16) false s) := by
  simp [exec, execGenerationEffective, done, genDue, hm, hd]

theorem exec_generationEffective_key {x : Nat} (hk : s.frame.keyNext = some x) (hd : tickDue x s.line = true) :
    exec (.generationEffective .key) s = .next (switchKey x ((rd F.FRAME_GEN_KEY_GEN s + 1) % 16) s) := by
  simp [exec, execGenerationEffective, done, genDue, hk, hd]

theorem frame_switchP (t g p : Nat) : (switchP t g p s).frame.pNext = none ∧ (switchP t g p s).frame.pFrom = t ∧
    (switchP t g p s).frame.prevP = rd F.TIME_STATUS_P s := by
  unfold switchP
  dsimp only
  rw [countN_frame]
  exact ⟨rfl, rfl, rfl⟩

theorem rd_switchP (t g p : Nat) : rd F.TIME_STATUS_P (switchP t g p s) = p % 16 ∧
    rd F.TIME_STATUS_P_GEN (switchP t g p s) = g % 16 := by
  unfold switchP
  dsimp only
  rw [rd_countN _ _ _ _ (by decide), rd_countN _ _ _ _ (by decide), rd_wr_same F.TIME_STATUS_P_GEN _ _ (by decide),
    rd_wr_other _ _ _ _ (by decide) (by decide), rd_wr_same _ _ _ (by decide)]
  exact ⟨rfl, rfl⟩

/-- R137: the map that is pending becomes the map. -/
theorem frame_switchMap (t g : Nat) (q : Bool) : (switchMap t g q s).frame.curFrom = t ∧
    (switchMap t g q s).frame.mapNext = none ∧ (switchMap t g q s).frame.prevMap = s.frame.curMap := by
  unfold switchMap
  dsimp only
  generalize (if s.frame.pendMap.gen == g && s.frame.pendMap.count.isSome then s.frame.pendMap else { gen := g }) = new
  split
  · exact ⟨rfl, rfl, rfl⟩
  · rw [raise_frame, count_frame]
    exact ⟨rfl, rfl, rfl⟩

theorem rd_switchMap (t g : Nat) (q : Bool) : rd F.FRAME_GEN_MAP_GEN (switchMap t g q s) = g % 16 := by
  unfold switchMap
  dsimp only
  generalize (if s.frame.pendMap.gen == g && s.frame.pendMap.count.isSome then s.frame.pendMap else { gen := g }) = new
  split
  · exact rd_wr_same F.FRAME_GEN_MAP_GEN _ _ (by decide)
  · rw [rd_raise F.FRAME_GEN_MAP_GEN _ _ _ (by decide), rd_count F.FRAME_GEN_MAP_GEN _ _ (by decide)]
    exact rd_wr_same F.FRAME_GEN_MAP_GEN _ _ (by decide)

theorem rd_switchKey (t g : Nat) : rd F.FRAME_GEN_KEY_GEN (switchKey t g s) = g % 16 := by
  unfold switchKey
  rw [rd_setKey, rd_setFrame]
  exact rd_wr_same _ _ _ (by decide)

/-! ### O24 -/

/-- Settles O24. -/
theorem headersGiveTimeAndGenerations : Obligations.HeadersGiveTimeAndGenerations := by
  refine ⟨fun sd words ws n src s hrun huse hws hsrc hn hset =>
      ⟨frameHeader_latest hrun huse hws hsrc hn hset, frameHeader_late hrun huse hws hsrc hn hset⟩,
    fun x p s hp hd hle => ?_, fun x s hm hd => ?_, fun x s hk hd => ?_⟩
  · obtain ⟨hnext, hfrom, hprev⟩ := frame_switchP (s := s) x ((rd F.TIME_STATUS_P_GEN s + 1) % 16) p
    obtain ⟨hP, hgen⟩ := rd_switchP (s := s) x ((rd F.TIME_STATUS_P_GEN s + 1) % 16) p
    exact ⟨_, exec_generationEffective_p hp hd, hP.trans (Nat.mod_eq_of_lt (by omega)), hnext,
      hgen.trans (Nat.mod_mod _ _), hfrom, hprev⟩
  · obtain ⟨hfrom, hnext, hprev⟩ := frame_switchMap (s := s) x ((rd F.FRAME_GEN_MAP_GEN s + 1) % 16) false
    exact ⟨_, exec_generationEffective_map hm hd, (rd_switchMap _ _ _).trans (Nat.mod_mod _ _), hfrom, hnext, hprev⟩
  · exact ⟨_, exec_generationEffective_key hk hd, (rd_switchKey _ _).trans (Nat.mod_mod _ _), rfl, rfl, rfl⟩

end Sys2Proof.Proofs

end

/-! PROOF. The packet at the head of the Thresher's work list (spec/10_thresher.md R240, R245, R247, R248). -/

section

namespace Sys2Proof.Proofs

open Sys2Proof Sys2Proof.Machine Sys2Proof.Claims Sys2Proof.Laws

variable {s u : State} {pk : Packet} {e : TEntry} {act md : Word} {cells q : Nat} {it : Item}

/-! ### An item joins its queue (R262, R270) -/

theorem qItems_setItems_same (l : List Item) : qItems q (setItems q l s) = l := get_put_same _ _ _ _

theorem qItems_setItems_other {p : Nat} (hp : p ≠ q) (l : List Item) : qItems p (setItems q l s) = qItems p s :=
  get_put_other _ _ _ _ _ _ hp

theorem qItems_enqueue (p : Nat) : qItems p (enqueue q it s) = qItems p (setItems q (qItems q s ++ [it]) s) := by
  unfold enqueue
  dsimp only
  split <;> rfl

/-- R262: an item that no rule refuses joins the tail of its queue. -/
theorem offer_admits (hex : qExists q = true) (hport : ∀ k, portOfQueue q = some k → k ∉ s.q.flushed)
    (hen : qEnabled q s = true) (hlim : qCells q s + it.cells ≤ qLimit q s) (hcol : it.colour ≠ 1) :
    offer q it s = (enqueue q it s, true) := by
  have hopen : (portOfQueue q).any (fun k => s.q.flushed.contains k) = false := by
    cases hk : portOfQueue q with
    | none => rfl
    | some k => simpa using hport k hk
  have hyellow : (it.colour == 1) = false := by simpa using hcol
  simp only [offer, hex, hopen, hen, hyellow, if_neg (Nat.not_lt.mpr hlim), Bool.not_true, Bool.false_and,
    Bool.false_eq_true, if_false]

/-! ### The cells of an item that has grown (R280) -/

/-- R280: the reserve and the free pool together hold what an item lacks. -/
theorem extend_isSome_iff {cls have_ need : Nat} : (extend cls have_ need s).isSome = true ↔
    need ≤ have_ ∨ need - have_ - min (need - have_) (s.q.reserve.getD cls 64) ≤ freeCells s := by
  unfold extend takeReserve
  dsimp only
  generalize s.q.reserve.getD cls 64 = r
  split
  · split
    · simp only [Option.isSome_none, Bool.false_eq_true, false_iff]
      omega
    · simp only [Option.isSome_some, true_iff]
      omega
  · simp only [Option.isSome_some, true_iff]
    omega

theorem takeCells_q (n : Nat) : (takeCells n s).q = s.q := by
  unfold takeCells
  dsimp only
  split <;> rfl

/-- The cells for an item that has grown leave the queues as they are. -/
theorem extend_q {cls have_ need : Nat} (he : extend cls have_ need s = some u) :
    u.q.queues = s.q.queues ∧ u.q.cfg = s.q.cfg ∧ u.q.flushed = s.q.flushed := by
  unfold extend takeReserve at he
  dsimp only at he
  split at he
  · split at he
    · contradiction
    · obtain rfl := Option.some.inj he
      split
      · exact ⟨rfl, rfl, rfl⟩
      · rw [takeCells_q]
        exact ⟨rfl, rfl, rfl⟩
  · obtain rfl := Option.some.inj he
    exact ⟨rfl, rfl, rfl⟩

/-! ### A forwarded packet (R248) -/

/-- A packet after its action's VLAN operation. -/
def forwardedBytes (act : Word) (pk : Packet) : List Byte :=
  vlanOp (fget act 19 18) (fget act 17 6) (fget act 5 3) (parsePacket pk.bytes) pk.bytes

/-- The item that an unmetered packet becomes. -/
def forwardedItem (act md : Word) (pk : Packet) (cells : Nat) (s : State) : Item :=
  { deadline := tickAdd pk.tag (qLife (fget act 36 29) s : Int), md, colour := 3, csum := fget act 2 2 == 1, src := pk.src,
    pflags := (parsePacket pk.bytes).flags, cont := pk.cont, tag := pk.tag, bytes := forwardedBytes act pk,
    cells := max cells (cellsOf (forwardedBytes act pk).length) }

theorem forwardPacket_unmetered (hm : fget act 20 20 = 0)
    (hu : extend (sinkOf (fget act 36 29)) cells (cellsOf (forwardedBytes act pk).length) s = some u) :
    forwardPacket act md (parsePacket pk.bytes) pk cells s = (offer (fget act 36 29) (forwardedItem act md pk cells u) u).1 := by
  have hmeter : (fget act 20 20 == 1) = false := by simp [hm]
  unfold forwardedBytes at hu
  simp only [forwardPacket, hmeter, hu, Bool.false_eq_true, if_false]
  rfl

/-- R248: a packet forwarded without a meter joins the tail of its queue where the queue takes it. -/
theorem forwardPacket_queues (hq : q = fget act 36 29) (hm : fget act 20 20 = 0) (hex : qExists q = true)
    (hport : ∀ k, portOfQueue q = some k → k ∉ s.q.flushed) (hen : qEnabled q s = true)
    (hcells : (extend (sinkOf q) cells (cellsOf (forwardedBytes act pk).length) s).isSome = true)
    (hlim : qCells q s + max cells (cellsOf (forwardedBytes act pk).length) ≤ qLimit q s) :
    (∀ p, qItems p (forwardPacket act md (parsePacket pk.bytes) pk cells s) =
      if p = q then qItems q s ++ [forwardedItem act md pk cells s] else qItems p s) := by
  subst hq
  obtain ⟨u, hu⟩ := Option.isSome_iff_exists.mp hcells
  obtain ⟨hqueues, hcfg, hflushed⟩ := extend_q hu
  have hitems : ∀ p, qItems p u = qItems p s := fun p => by unfold qItems; rw [hqueues]
  have hrec : ∀ p, qRec p u = qRec p s := fun p => by unfold qRec; rw [hcfg]
  have hitem : forwardedItem act md pk cells u = forwardedItem act md pk cells s := by
    unfold forwardedItem qLife
    rw [hrec]
  have hoffer : offer (fget act 36 29) (forwardedItem act md pk cells u) u =
      (enqueue (fget act 36 29) (forwardedItem act md pk cells u) u, true) := by
    refine offer_admits hex (fun k hk => ?_) ?_ ?_ (show 3 ≠ 1 by decide)
    · rw [hflushed]; exact hport k hk
    · unfold qEnabled at hen ⊢; rw [hrec]; exact hen
    · unfold qCells qLimit at hlim ⊢; rw [hrec, hitems]; exact hlim
  intro p
  rw [forwardPacket_unmetered hm hu, hoffer, qItems_enqueue, hitem, hitems]
  split
  · next hp => rw [hp, qItems_setItems_same]
  · next hp => rw [qItems_setItems_other hp, hitems]

/-! ### Classification -/

/-- The packet at the head of the work list is taken. -/
def workLeft (r : List Packet) (s : State) : State := { s with th := { s.th with work := r } }

theorem exec_thresherPacket {r : List Packet} (hon : domOn dTHR s = true) (hw : s.th.work = pk :: r) :
    exec .thresherPacket s = .next (classify pk (workLeft r s)) := by
  simp [exec, execThresherPacket, done, hon, hw, workLeft]

theorem classify_off (hc : fget (regFor pk.tag (R.TH_CLASS_CFG pk.cls) s) 39 39 = 0) :
    classify pk s = count C.TH_CLASS_OFF (giveFree (cellsOf pk.bytes.length) s) := by
  simp [classify, hc]

/-- The entry that a packet's first stage finds, under the configuration `c` of its class (R245, R246). -/
def firstEntry (c : Word) (pk : Packet) (s : State) : Option TEntry :=
  lookup (fget c 29 28) (fget c 15 12)
    (makeKey (regFor pk.tag (R.TH_PROFILE (fget c 15 12)) s) pk.cls pk.src pk.cont pk.bytes (parsePacket pk.bytes)
      (metaIn pk.cls pk.src (if pk.src == 0xF then pk.cont else 0))) pk.tag s

/-- R247: an entry whose action is no chain ends the classification at the first stage. -/
theorem classify_entry {c : Word} (hcfg : c = regFor pk.tag (R.TH_CLASS_CFG pk.cls) s) (hc : fget c 39 39 = 1)
    (hp : (parsePacket pk.bytes).fail = none) (hl : firstEntry c pk s = some e) (hact : fget e.action 39 37 ≠ 3) :
    classify pk s = takeAction e.action e.md 0 (parsePacket pk.bytes) pk (cellsOf pk.bytes.length) s := by
  subst hcfg
  have hon : (fget (regFor pk.tag (R.TH_CLASS_CFG pk.cls) s) 39 39 == 0) = false := by simp [hc]
  have hrun : ∀ n, runStages (parsePacket pk.bytes) pk (cellsOf pk.bytes.length) (n + 1) 0
      (metaIn pk.cls pk.src (if pk.src == 0xF then pk.cont else 0)) s =
        takeAction e.action e.md 0 (parsePacket pk.bytes) pk (cellsOf pk.bytes.length) s := fun n => by
    have hchain : (fget e.action 39 37 == 3) = false := by simpa using hact
    unfold firstEntry at hl
    simp only [runStages, Nat.mul_zero, Nat.add_zero, hl, hchain]
    rfl
  simp only [classify, hon, hp, Bool.false_eq_true, if_false]
  split
  · exact hrun _
  · exact hrun 0

theorem takeAction_drop {k : Nat} {p : Parsed} (h : fget act 39 37 = 1) :
    takeAction act md k p pk cells s = count C.TH_DROP (giveFree cells s) := by simp [takeAction, h]

theorem takeAction_forward {k : Nat} {p : Parsed} (h : fget act 39 37 = 0) :
    takeAction act md k p pk cells s = forwardPacket act md p pk cells s := by simp [takeAction, h]

/-- A packet that is dropped gives its cells back and is counted. -/
theorem tallied_drop {i : Nat} (n : Nat) (hi : i < 312) (hne : i ≠ C.EVT_LOST) (hc : countsNow s = true) :
    Tallied i 1 s (count i (giveFree n s)) := by
  rw [Tallied, reg_count_same (s := giveFree n s) i hi hne hc, giveFree,
    reg_wr_other _ _ _ _ (counterAddr_ne_of_bookkeeping (by decide) i)]

/-- A packet that is dropped leaves the queues and the rest of the work list. -/
theorem dropped_frame (i n : Nat) : (count i (giveFree n s)).th = s.th ∧ (count i (giveFree n s)).q = s.q :=
  ⟨count_th i _, count_q i _⟩

/-- R237: a packet of a class that is off. -/
theorem thresherPacket_off {r : List Packet} (hon : domOn dTHR s = true) (hw : s.th.work = pk :: r) (hcnt : countsNow s = true)
    (hc : fget (regFor pk.tag (R.TH_CLASS_CFG pk.cls) s) 39 39 = 0) :
    ∃ t, exec .thresherPacket s = .next t ∧ t.th.work = r ∧ t.q = s.q ∧ Tallied C.TH_CLASS_OFF 1 s t := by
  have hclass := classify_off (s := workLeft r s) hc
  obtain ⟨hth, hq⟩ := dropped_frame (s := workLeft r s) C.TH_CLASS_OFF (cellsOf pk.bytes.length)
  refine ⟨_, exec_thresherPacket hon hw, ?_⟩
  rw [hclass]
  exact ⟨congrArg ThSt.work hth, hq, tallied_drop (s := workLeft r s) _ (by decide) (by decide) hcnt⟩

section

variable {r : List Packet} {c : Word} (hon : domOn dTHR s = true) (hw : s.th.work = pk :: r)
  (hcfg : c = regFor pk.tag (R.TH_CLASS_CFG pk.cls) s) (hc : fget c 39 39 = 1) (hp : (parsePacket pk.bytes).fail = none)
  (hl : firstEntry c pk s = some e)

include hon hw hcfg hc hp hl

/-- An entry whose action is no chain acts on the packet, which has left the work list. -/
theorem exec_thresherPacket_entry (hact : fget e.action 39 37 ≠ 3) : exec .thresherPacket s =
    .next (takeAction e.action e.md 0 (parsePacket pk.bytes) pk (cellsOf pk.bytes.length) (workLeft r s)) := by
  rw [exec_thresherPacket hon hw]
  exact congrArg Host.Outcome.next (classify_entry (s := workLeft r s) hcfg hc hp hl hact)

/-- R248: an entry that drops. -/
theorem thresherPacket_drops (hcnt : countsNow s = true) (hact : fget e.action 39 37 = 1) :
    ∃ t, exec .thresherPacket s = .next t ∧ t.th.work = r ∧ t.q = s.q ∧ Tallied C.TH_DROP 1 s t := by
  obtain ⟨hth, hq⟩ := dropped_frame (s := workLeft r s) C.TH_DROP (cellsOf pk.bytes.length)
  refine ⟨_, exec_thresherPacket_entry hon hw hcfg hc hp hl (by omega), ?_⟩
  rw [takeAction_drop hact]
  exact ⟨congrArg ThSt.work hth, hq, tallied_drop (s := workLeft r s) _ (by decide) (by decide) hcnt⟩

/-- R248: an entry that forwards without a meter, where the queue takes the packet. -/
theorem thresherPacket_forwards (hq : q = fget e.action 36 29) (hact : fget e.action 39 37 = 0)
    (hm : fget e.action 20 20 = 0) (hex : qExists q = true) (hport : ∀ k, portOfQueue q = some k → k ∉ s.q.flushed)
    (hen : qEnabled q s = true)
    (hcells : (extend (sinkOf q) (cellsOf pk.bytes.length) (cellsOf (forwardedBytes e.action pk).length) s).isSome = true)
    (hlim : qCells q s + max (cellsOf pk.bytes.length) (cellsOf (forwardedBytes e.action pk).length) ≤ qLimit q s) :
    ∃ t it, exec .thresherPacket s = .next t ∧ t.th.work = r ∧ qItems q t = qItems q s ++ [it] ∧
      it.bytes = forwardedBytes e.action pk ∧ it.deadline = tickAdd pk.tag (qLife q s : Int) ∧ it.md = e.md ∧
      it.tag = pk.tag ∧ (it.csum = true ↔ fget e.action 2 2 = 1) ∧ ∀ p, p ≠ q → qItems p t = qItems p s := by
  have hcells' : (extend (sinkOf q) (cellsOf pk.bytes.length) (cellsOf (forwardedBytes e.action pk).length)
      (workLeft r s)).isSome = true := by
    rw [extend_isSome_iff] at hcells ⊢
    exact hcells
  have hitems := forwardPacket_queues (s := workLeft r s) (md := e.md) hq hm hex hport hen hcells' hlim
  have hth : (forwardPacket e.action e.md (parsePacket pk.bytes) pk (cellsOf pk.bytes.length) (workLeft r s)).th =
      (workLeft r s).th :=
    (Keeps.rest (A := T.counting ||| Reach.T.q ||| Reach.T.GRAN_STATUS)
      (keeps_forwardPacket _ _ _ _ _ rfl (.refl _ (workLeft r s)))).th rfl
  refine ⟨_, forwardedItem e.action e.md pk (cellsOf pk.bytes.length) s,
    exec_thresherPacket_entry hon hw hcfg hc hp hl (by omega), ?_⟩
  rw [takeAction_forward hact]
  refine ⟨congrArg ThSt.work hth, (hitems q).trans (if_pos rfl), rfl, by rw [hq]; rfl, rfl, rfl, beq_iff_eq, fun p hne => ?_⟩
  exact (hitems p).trans (if_neg hne)

end

/-- Settles O35. -/
theorem packetsAreClassified : Obligations.PacketsAreClassified :=
  ⟨fun _ _ _ => thresherPacket_off,
    fun _ _ _ _ _ hon hw hcnt hcfg hc hp hl => ⟨thresherPacket_drops hon hw hcfg hc hp hl hcnt,
      fun _ => thresherPacket_forwards hon hw hcfg hc hp hl⟩,
    fun s hoff => congrArg Host.Outcome.next (if_pos (by simp [hoff]))⟩

end Sys2Proof.Proofs

end

/-! PROOF. Only a reset ends HOLDING, and only the insertion at an admission heard from the head end leads from LISTENING to
ADMITTED (spec/02_power_up_straps_selftest.md R52, R61). -/

section

namespace Sys2Proof.Proofs

open Sys2Proof Sys2Proof.Machine Sys2Proof.Claims Sys2Proof.Laws

variable {s u v a : State}

/-! ### Calm changes -/

/-- Every register and part of the state but the terminal's state and the bypass. -/
def allButTermByp : Nat := T.everything - Reach.T.term - Reach.T.byp

/-- What a command that is neither a reset nor an admission may do to the terminal's state and to the pending admission
tick: HOLDING stays, ADMITTED is not entered, and no new tick becomes pending. -/
structure Calm (s u : State) : Prop where
  holding : s.term = .holding → u.term = .holding
  admitted : u.term = .admitted → s.term = .admitted
  tick : u.byp.ti = s.byp.ti ∨ u.byp.ti = none

theorem Calm.refl (s : State) : Calm s s := ⟨id, id, .inl rfl⟩

theorem Calm.trans (h : Calm s u) (k : Calm u v) : Calm s v where
  holding := k.holding ∘ h.holding
  admitted := h.admitted ∘ k.admitted
  tick := k.tick.elim (fun e => h.tick.imp e.trans e.trans) .inr

theorem calm_of_eq (hterm : u.term = s.term) (htick : u.byp.ti = s.byp.ti ∨ u.byp.ti = none) : Calm s u :=
  ⟨hterm.trans, hterm.symm.trans, htick⟩

/-- What leaves the terminal's state and the bypass alone is calm. -/
theorem calm_of_keeps (h : Keeps allButTermByp s u) : Calm s u :=
  calm_of_eq (h.rest.term rfl) (.inl (congrArg BypassSt.ti (h.rest.byp rfl)))

theorem Calm.keeps (h : Calm a s) (k : Keeps allButTermByp s u) : Calm a u := h.trans (calm_of_keeps k)

theorem calm_ite {c : Prop} [Decidable c] {x y : State} (hx : c → Calm a x) (hy : ¬ c → Calm a y) :
    Calm a (if c then x else y) := by
  split
  · exact hx ‹_›
  · exact hy ‹_›

theorem calm_whenB {b : Bool} {f : State → State} (hf : Calm a s → Calm a (f s)) (h : Calm a s) : Calm a (whenB b f s) := by
  cases b
  · exact h
  · exact hf h

theorem calm_eachOf {α : Type} (l : List α) {f : State → α → State} (hf : ∀ s x, Calm s (f s x)) (h : Calm a s) :
    Calm a (eachOf l f s) := by
  unfold eachOf
  induction l generalizing s with
  | nil => exact h
  | cons x l ih => exact ih (h.trans (hf s x))

/-- The bypass changes, and its pending admission tick stays or goes. -/
theorem calm_setByp {f : BypassSt → BypassSt} (hf : (f s.byp).ti = s.byp.ti ∨ (f s.byp).ti = none) (h : Calm a s) :
    Calm a (setByp f s) := h.trans (calm_of_eq rfl hf)

/-! ### A change of the terminal's state -/

theorem term_changeTerm (t : TermState) : (changeTerm t s).term = t := by
  unfold changeTerm
  split
  · next h => exact eq_of_beq h
  · have halert : Keeps allButTermByp { s with term := t }
        (if t == .holding then alertSet A.HOLD (alertSet A.STATE { s with term := t })
        else alertSet A.STATE { s with term := t }) :=
      keeps_ite (fun _ => keeps_alertSet _ rfl (keeps_alertSet _ rfl (.refl _ _))) (fun _ => keeps_alertSet _ rfl (.refl _ _))
    exact (keeps_ite (A := allButTermByp) (fun _ => keeps_raise _ _ rfl halert) (fun _ => halert)).rest.term rfl

/-- Every register and part of the state but the bypass. -/
def allButByp : Nat := T.everything - Reach.T.byp

theorem term_goTerm (t : TermState) : (goTerm t s).term = t := by
  have hidle : Keeps allButTermByp (changeTerm t s)
      (whenB (runOrFly s && t != .running && t != .flywheel) showIdle (changeTerm t s)) :=
    keeps_whenB _ _ (fun _ => keeps_showIdle rfl) (.refl _ _)
  have hdown : Keeps allButTermByp (changeTerm t s) (goTerm t s) :=
    keeps_ite (fun _ => keeps_ite (fun _ => hidle) (fun _ => keeps_rundownAll _ rfl hidle))
      (fun _ => keeps_ite (fun _ => keeps_rundownAll _ rfl hidle) (fun _ => hidle))
  exact (hdown.rest.term rfl).trans (term_changeTerm t)

theorem calm_changeTerm {t : TermState} (ht : t ≠ .admitted) (hs : s.term = .holding → t = .holding) (h : Calm a s) :
    Calm a (changeTerm t s) :=
  h.trans ⟨fun k => (term_changeTerm t).trans (hs k), fun k => absurd ((term_changeTerm t).symm.trans k) ht,
    .inl (congrArg BypassSt.ti ((keeps_changeTerm (A := allButByp) t rfl (.refl _ s)).rest.byp rfl))⟩

theorem calm_goTerm {t : TermState} (ht : t ≠ .admitted) (hs : s.term ≠ .holding) (h : Calm a s) : Calm a (goTerm t s) :=
  h.trans ⟨fun k => absurd k hs, fun k => absurd ((term_goTerm t).symm.trans k) ht,
    .inl (congrArg BypassSt.ti ((keeps_goTerm (A := allButByp) t rfl (.refl _ s)).rest.byp rfl))⟩

/-! ### HOLDING, the image step and self-test -/

theorem calm_enterHolding (code : Nat) (h : Calm a s) : Calm a (enterHolding code s) :=
  calm_changeTerm (by decide) (fun _ => rfl) (h.keeps (keeps_wr _ _ (cov_any _ rfl) (.refl _ s)))

theorem calm_failStep (n sub detail : Nat) (h : Calm a s) : Calm a (failStep n sub detail s) :=
  calm_enterHolding _ (h.keeps (keeps_noteFailure _ _ rfl (.refl _ s)))

theorem calm_hostLoad (h : Calm a s) : Calm a (hostLoad s) := by
  unfold hostLoad
  refine calm_ite (fun _ => h) (fun _ => calm_ite (fun _ => calm_failStep _ _ _ ?_) (fun _ => ?_))
  · exact h.keeps (keeps_wr _ _ (cov_any _ rfl) (keeps_setBoot _ rfl (.refl _ s)))
  · exact h.keeps (keeps_emit _ rfl (keeps_setBoot _ rfl (.refl _ s)))

theorem calm_flashImage (h : Calm a s) : Calm a (flashImage s) := by
  unfold flashImage
  dsimp only
  have h1 : Calm a (if layoutOk s then loaderActs s else s) :=
    calm_ite (fun _ => h.keeps (keeps_loaderActs rfl (.refl _ s))) (fun _ => h)
  generalize (if layoutOk s then loaderActs s else s) = x at h1 ⊢
  refine calm_ite (fun _ => ?_) fun _ => calm_ite (fun _ => calm_failStep _ _ _ h1) fun _ =>
    calm_ite (fun _ => ?_) fun _ => calm_failStep _ _ _ h1
  · exact h1.keeps (keeps_stepTo _ rfl (keeps_wr _ _ (cov_any _ rfl) (keeps_bootImage _ _ rfl (.refl _ x))))
  · exact h1.keeps (keeps_stepTo _ rfl (keeps_bootImage _ _ rfl (keeps_noteFailure _ _ rfl (.refl _ x))))

theorem calm_imageStep (h : Calm a s) : Calm a (imageStep s) := by
  unfold imageStep
  refine calm_ite (fun _ => calm_hostLoad ?_) (fun _ => ?_)
  · exact h.keeps (keeps_setBoot _ rfl (keeps_stepTo _ rfl (.refl _ s)))
  · exact h.keeps (keeps_stepTo _ rfl (.refl _ s))

theorem calm_stepDone (r : StepResult) : Calm s (stepDone r s) := by
  have hs := Calm.refl s
  have hnote : ∀ sub det, Keeps allButTermByp s (noteFailure sub det s) := fun sub det =>
    keeps_noteFailure sub det rfl (.refl _ s)
  unfold stepDone
  refine calm_ite (fun _ => calm_ite (fun _ => hs) (fun _ => calm_flashImage hs)) fun _ => calm_ite (fun _ => ?_) fun _ =>
    calm_ite (fun _ => ?_) fun _ => calm_ite (fun _ => ?_) fun _ => calm_ite (fun _ => ?_) fun _ => ?_
  · refine calm_ite (fun _ => hs.keeps (keeps_stepTo _ rfl (.refl _ s))) fun _ => calm_ite (fun _ => ?_) fun _ => ?_
    · exact calm_failStep _ _ _ (hs.keeps (keeps_lanesFailed _ rfl (.refl _ s)))
    · exact hs.keeps (keeps_stepTo _ rfl (keeps_lanesFailed _ rfl (hnote _ _)))
  · exact hs.keeps (keeps_stepTo _ rfl (keeps_ite (fun _ => .refl _ s) (fun _ => keeps_afeFailed rfl (hnote _ _))))
  · exact calm_ite (fun _ => hs.keeps (keeps_setBoot _ rfl (.refl _ s))) (fun _ => calm_failStep _ _ _ hs)
  · refine calm_ite (fun _ => ?_) fun _ => calm_ite (fun _ => calm_imageStep ?_) fun _ => calm_failStep _ _ _ hs
    · have hf : Calm s (flashFound (r.detail.toNat % 256) s) := hs.keeps (keeps_flashFound _ rfl (.refl _ s))
      exact calm_ite (fun _ => calm_enterHolding _ hf) (fun _ => calm_imageStep hf)
    · exact hs.keeps (keeps_wr _ _ (cov_any _ rfl) (hnote _ _))
  · refine calm_ite (fun _ => calm_failStep _ _ _ hs) fun _ => hs.keeps (keeps_stepTo _ rfl ?_)
    exact keeps_ite (fun _ => keeps_loadIdentity rfl (.refl _ s)) fun _ =>
      keeps_ite (fun _ => keeps_entropyStarts rfl (.refl _ s)) fun _ => .refl _ s

theorem calm_imageLoadDone (d : DmaBytes) (t : State) (ht : exec (.imageLoadDone d) s = .next t) : Calm s t := by
  obtain rfl := Host.Outcome.next.inj ht
  have hgo : Keeps allButTermByp s (wr F.BOOT_LOAD_CTRL_GO 0 s) := keeps_wr _ _ (cov_any _ rfl) (.refl _ s)
  refine calm_ite (fun _ => .refl s) fun _ => ?_
  cases d with
  | err c => exact calm_of_keeps (keeps_loadCut _ rfl (.refl _ s))
  | ok b =>
    refine calm_ite (fun _ => calm_of_keeps (keeps_stepTo _ rfl (keeps_bootImage _ _ rfl hgo))) fun _ => ?_
    exact calm_failStep _ _ _ (calm_of_keeps hgo)

/-! ### Writes of registers -/

theorem calm_bootLoadWrite (v : Word) (h : Calm a s) : Calm a (bootLoadWrite v s) := by
  have hlen : Keeps allButTermByp s (wr F.BOOT_LOAD_CTRL_LEN (fget v 11 1) s) := keeps_wr _ _ (cov_any _ rfl) (.refl _ s)
  exact calm_ite (fun _ => calm_hostLoad (h.keeps (keeps_wr _ _ (cov_any _ rfl) hlen))) (fun _ => h.keeps hlen)

theorem calm_kaWatchdogWrite (p : Path) (v : Word) (h : Calm a s) : Calm a (kaWatchdogWrite p v s) :=
  calm_ite (fun _ => calm_setByp (.inl rfl) (h.keeps (keeps_wr _ _ (cov_any _ rfl) (.refl _ s)))) (fun _ => h)

/-- Of the writes that do what their chapter says, those of BOOT_LOAD_CTRL and KA_WATCHDOG alone reach the terminal's state
and the bypass. -/
theorem writeHook_keeps_term (p : Path) {off : Nat} (v new : Word) (hload : off ≠ R.BOOT_LOAD_CTRL) (hka : off ≠ R.KA_WATCHDOG) :
    KeepsHook allButTermByp (writeHook p off v new) := by
  unfold writeHook
  rw [if_neg hload, if_neg hka]
  exact hook_ite (hook_some fun _ _ => keeps_softResetWrite _ rfl) <|
    hook_ite (hook_some fun _ _ => keeps_bridgeWrite _ _ rfl) <|
    hook_ite (hook_some fun _ _ => keeps_runWrite _ rfl) <|
    hook_ite (hook_some fun _ _ => keeps_hreCtrlWrite _ _ rfl) <|
    hook_ite (hook_some fun _ _ => keeps_intCfgWrite _ rfl) <|
    hook_ite (hook_some fun _ _ => keeps_indSelect _ rfl) <|
    hook_ite (hook_some fun _ _ => keeps_lowReload _ rfl) <|
    hook_ite (hook_some fun _ _ => keeps_bankWrite _ rfl) <|
    hook_ite (hook_some fun _ _ h => keeps_setReg _ _ (cov_any _ rfl) (keeps_boundaryWrite _ rfl h)) <|
    hook_ite (hook_some fun _ _ => keeps_ledgerClearWrite _ rfl) <|
    hook_ite (hook_some fun _ _ => keeps_calCtrlWrite _ rfl) <|
    hook_ite (hook_some fun _ _ => keeps_ktimerWrite _ rfl) <| hook_arrayHook _ _ _ rfl

theorem calm_storeBits (p : Path) (r : RegRow) (off : Nat) (m v : Word) (h : Calm a s) : Calm a (storeBits p r off m v s) := by
  unfold storeBits
  refine calm_ite (fun _ => h) fun _ => ?_
  rcases eq_or_ne off R.BOOT_LOAD_CTRL with rfl | hload
  · exact calm_bootLoadWrite _ h
  rcases eq_or_ne off R.KA_WATCHDOG with rfl | hka
  · exact calm_kaWatchdogWrite _ _ h
  · exact h.keeps (keeps_hooked (writeHook_keeps_term p _ _ hload hka) (fun _ => keeps_setReg _ _ (cov_any _ rfl)) (.refl _ s))

theorem calm_commitReg (p : Path) (off : Nat) (v : Word) (h : Calm a s) : Calm a (commitReg p off v s) := by
  unfold commitReg
  split
  · exact h
  · refine calm_ite (fun _ => h) fun _ => calm_storeBits _ _ _ _ _ ?_
    exact h.keeps (keeps_whenB _ _ (fun _ => keeps_lockedWrite _ rfl) (.refl _ s))

theorem calm_writeLow (p : Path) (off v : Nat) (h : Calm a s) : Calm a (writeLow p off v s) :=
  calm_ite (fun _ => (calm_commitReg _ _ _ h).keeps (keeps_clearHold _ rfl (.refl _ _))) (fun _ => h)

theorem calm_write8 (p : Path) (off : Nat) (v : Word) (h : Calm a s) : Calm a (write8 p off v s) :=
  calm_writeLow _ _ _ (h.keeps (keeps_writeHigh _ _ _ rfl (.refl _ s)))

/-! ### Settings and staged writes -/

theorem calm_presetWrite (off : Nat) (v : Word) (h : Calm a s) : Calm a (presetWrite off v s) := by
  unfold presetWrite
  split
  · exact h
  · exact calm_ite (fun _ => (calm_storeBits _ _ _ _ _ h).keeps (keeps_stage _ rfl (.refl _ _))) (fun _ => calm_commitReg _ _ _ h)

theorem calm_settingApplied (key : Nat) (val : List Byte) (h : Calm a s) : Calm a (settingApplied key val s) :=
  calm_ite (fun _ => h.keeps (keeps_houseChanged _ rfl (.refl _ s))) fun _ =>
    calm_ite (fun _ => calm_presetWrite _ _ h) fun _ => h

theorem calm_setRecord (key : Nat) (persist : Bool) (val : List Byte) : Calm s (setRecord key persist val s).2 := by
  have hlive : ∀ v, Calm s (setLive key v s) := fun v => calm_of_keeps (keeps_setLive _ _ rfl (.refl _ s))
  have hstore : ∀ x v, Calm s x → Calm s (settingStore key v x).2 := fun x v h =>
    h.keeps (keeps_settingStore _ _ rfl (.refl _ x))
  unfold setRecord
  dsimp only
  split
  · exact .refl s
  split
  · split
    · split
      · exact calm_settingApplied _ _ (hstore _ _ (hlive _))
      · exact hstore _ _ (hlive _)
    · exact calm_settingApplied _ _ (hlive _)
  split
  · split
    · exact .refl s
    · split
      · exact calm_settingApplied _ _ ((hstore _ _ (.refl s)).keeps (keeps_setLive _ _ rfl (.refl _ _)))
      · exact hstore _ _ (.refl s)
  · exact calm_settingApplied _ _ (hlive _)

theorem calm_setRecordOr (fault : Bool) (key : Nat) (persist : Bool) (val : List Byte) :
    Calm s (setRecordOr fault key persist val s).2 := by
  unfold setRecordOr
  split
  · exact calm_of_keeps (keeps_flashFault _ rfl (.refl _ s))
  · exact calm_setRecord key persist val

/-- A record set, and the status it is answered with. -/
theorem calm_setRecordOr_status (w : Nat) (fault : Bool) (key : Nat) (persist : Bool) (val : List Byte) :
    Calm s (setEndStatus w (setRecordOr fault key persist val s).1 (setRecordOr fault key persist val s).2).2 :=
  (calm_setRecordOr fault key persist val).keeps (keeps_setEndStatus _ _ rfl (.refl _ _))

theorem calm_loadSettings (h : Calm a s) : Calm a (loadSettings s) := by
  refine calm_ite (fun _ => calm_eachOf _ (fun s k => ?_) (h.keeps (keeps_houseChanged _ rfl
    (keeps_settingsRefresh rfl (keeps_settingsCheck rfl (.refl _ s)))))) (fun _ => h)
  split
  · exact calm_ite (fun _ => .refl s) (fun _ => calm_presetWrite _ _ (.refl s))
  · exact .refl s

theorem calm_applyStaged (x : Staged) : Calm s (applyStaged s x) := by
  unfold applyStaged
  split
  · unfold stagedReg
    have hk := calm_of_keeps (keeps_keepPrior x.t ‹Nat› rfl (.refl _ s))
    split
    · exact hk
    · exact calm_storeBits _ _ _ _ _ hk
  · exact calm_of_keeps (keeps_applyRec _ _ _ rfl (.refl _ s))
  · exact .refl s

theorem calm_applyAllStaged (h : Calm a s) : Calm a (applyAllStaged s) :=
  calm_eachOf _ (fun _ x => calm_applyStaged x) (h.trans (calm_of_eq rfl (.inl rfl)))

theorem calm_tickBegin (i : TickIn) (h : Calm a s) : Calm a (tickBegin i s) := by
  have hq : Calm a (settleSubs (deadlineSweep s)) := h.keeps (keeps_settleSubs rfl (keeps_deadlineSweep rfl (.refl _ s)))
  exact (calm_applyAllStaged hq).keeps (keeps_servePunts _ rfl
    (keeps_boundaryPresent i rfl (keeps_boundaryService i rfl (.refl _ _))))

theorem calm_buildingTick (i : TickIn) (t : State) (ht : exec (.buildingTick i) s = .next t) : Calm s t := by
  obtain rfl := Host.Outcome.next.inj ht
  have hbt : ∀ x, Keeps allButTermByp s x → Keeps allButTermByp s (boundaryTime x) := fun _ => keeps_boundaryTime rfl
  refine calm_ite (fun _ => calm_of_keeps (keeps_ktimerTick rfl (.refl _ s))) fun _ =>
    calm_ite (fun _ => calm_of_keeps ?_) fun _ => calm_ite (fun _ => calm_of_keeps ?_) fun _ => ?_
  · exact keeps_keepRc _ rfl (keeps_ktimerTick rfl (keeps_drained rfl (keeps_linkTick _ rfl (hbt _ (.refl _ s)))))
  · exact keeps_ktimerTick rfl (keeps_setPwr _ rfl (.refl _ s))
  · exact calm_tickBegin i (calm_of_keeps (hbt _ (keeps_afeEnd rfl (keeps_showEnd _ rfl (.refl _ s)))))

/-! ### Notes, commands of the host, and Zwirdo commands -/

section

variable {k : NKind} {n : Note} {act : List Byte → NAddr → State → Option Nat × State}

/-- A note is calm where its action is, in the states the catalogue allows. -/
theorem calm_takeNote (hact : ∀ b a x, k.acts x.term a = true → Calm x (act b a x).2) : Calm s (takeNote k n act s) := by
  have hrx : Keeps allButTermByp s (count C.NOTE_RX s) := keeps_count _ rfl (.refl _ s)
  have hrun : ∀ (b : List Byte) (a : NAddr) (o : Option NAddr) (x : State), k.acts (count C.NOTE_RX s).term a = true →
      Keeps allButTermByp (count C.NOTE_RX s) x →
      Calm s (match act b a x with | (none, y) => y | (some st, y) => answer n o st y) := by
    intro b a o x ha hx
    have hstep := (calm_of_keeps hrx).trans ((calm_of_keeps hx).trans (hact b a x ((hx.rest.term rfl).symm ▸ ha)))
    split
    · next heq => rw [heq] at hstep; exact hstep
    · next heq => rw [heq] at hstep; exact hstep.keeps (keeps_answer _ _ _ rfl (.refl _ _))
  unfold takeNote
  dsimp only
  refine calm_ite (fun _ => .refl s) fun _ => calm_ite (fun _ => calm_of_keeps (keeps_stopRegion rfl (.refl _ s))) fun _ => ?_
  split
  · exact .refl s
  refine calm_ite (fun _ => calm_of_keeps (keeps_count _ rfl hrx)) fun hacts => ?_
  have hacts : k.acts (count C.NOTE_RX s).term ‹NAddr› = true := by simpa using hacts
  refine calm_ite (fun _ => calm_of_keeps (keeps_count _ rfl hrx)) fun _ => calm_ite (fun _ => ?_) fun _ =>
    calm_ite (fun _ => calm_of_keeps (keeps_duplicate _ _ rfl hrx)) fun _ => ?_
  · refine calm_ite (fun _ => calm_ite (fun _ => calm_of_keeps (keeps_answer _ _ _ rfl hrx)) fun _ =>
      calm_of_keeps (keeps_count _ rfl hrx)) fun _ => ?_
    exact hrun _ _ _ _ hacts (.refl _ _)
  · have hnew : ∀ a, Keeps allButTermByp (count C.NOTE_RX s) (newSeq a n.seq.toNat (count C.NOTE_RX s)) := fun a =>
      keeps_newSeq _ _ rfl (.refl _ _)
    refine calm_ite (fun _ => calm_ite (fun _ => calm_of_keeps ?_) fun _ => calm_of_keeps ?_) fun _ => ?_
    · exact keeps_answer _ _ _ rfl (keeps_newSeq _ _ rfl hrx)
    · exact keeps_count _ rfl (keeps_newSeq _ _ rfl hrx)
    · exact hrun _ _ _ _ hacts (hnew _)

end

theorem calm_withOwnTick (w : Word) (least late : Nat) {f : Nat → State → Option Nat × State} (hf : ∀ t, Calm s (f t s).2) :
    Calm s (withOwnTick w least late f s).2 := by
  unfold withOwnTick
  split
  · exact hf _
  · split
    · exact calm_of_keeps (keeps_count _ rfl (.refl _ s))
    · exact .refl s

theorem calm_needsOn (d : Nat) {f : State → CmdEnd × State} (hf : Calm s (f s).2) : Calm s (needsOn d f s).2 := by
  unfold needsOn
  split
  · exact hf
  · exact .refl s

/-- A command of the command ring is calm where its action is. -/
theorem calm_runCmd (h : CmdHdr) (recorded : Bool) {act : State → CmdEnd × State} (hact : ∀ x, Calm x (act x).2) :
    Calm s (runCmd h recorded act s) := by
  have hcmp : ∀ st sub res again x, Keeps allButTermByp x (cmdComplete h st sub res again x) := fun _ _ _ _ x =>
    keeps_cmdComplete _ _ _ _ _ rfl (.refl _ x)
  have hrec : ∀ st sub res x, Keeps allButTermByp x (if recorded then cmdRecord h st sub res x else x) := fun _ _ _ x =>
    keeps_ite (fun _ => keeps_cmdRecord _ _ _ _ rfl (.refl _ x)) (fun _ => .refl _ x)
  have hexec : ∀ x, Calm s x → Calm s (match act x with
      | (.ends st sub res, s1) => cmdComplete h st sub res false (if recorded then cmdRecord h st sub res s1 else s1)
      | (.waits, s1) => setHost (fun x => { x with wait := some h }) s1) := by
    intro x hx
    have hstep := hx.trans (hact x)
    split
    · next heq => rw [heq] at hstep; exact (hstep.keeps (hrec _ _ _ _)).keeps (hcmp _ _ _ _ _)
    · next heq => rw [heq] at hstep; exact hstep.trans (calm_of_eq rfl (.inl rfl))
  unfold runCmd
  dsimp only
  refine calm_ite (fun _ => .refl s) fun _ => calm_ite (fun _ => hexec _ ?_) fun _ => calm_ite (fun _ => ?_) fun _ => ?_
  · exact calm_of_keeps (keeps_wr _ _ (cov_any _ rfl) (keeps_wr _ _ (cov_any _ rfl) (.refl _ s)))
  · split
    · exact (calm_of_keeps (keeps_count _ rfl (.refl _ s))).keeps (hcmp _ _ _ _ _)
    · exact hexec _ (.refl s)
  · exact (calm_of_keeps (keeps_count _ rfl (.refl _ s))).keeps (hcmp _ _ _ _ _)

theorem calm_zwdRun (cmd : Nat) (block pure_ : Bool) (n : Nat) (x : ZwdTxn) {act : State → State} (hact : ∀ y, Calm y (act y)) :
    Calm s (zwdRun cmd block pure_ n x act s) := by
  have hm : Keeps allButTermByp s (zwdMatched s) := keeps_zwdMatched rfl (.refl _ s)
  refine calm_ite (fun _ => calm_of_keeps (keeps_zwdNack rfl (.refl _ s))) fun _ =>
    calm_ite (fun _ => calm_of_keeps hm) fun _ => ?_
  unfold zwdServe
  split
  · exact calm_of_keeps (keeps_zwdStatus _ rfl (keeps_emit _ rfl hm))
  · exact (calm_of_keeps hm).trans (hact _)

/-! ### Bypass, admission and leaving -/

theorem calm_disarm (cause : Nat) (h : Calm a s) : Calm a (disarm cause s) := h.trans (calm_of_eq rfl (.inl rfl))

theorem calm_bypassFall (cause : Nat) (h : Calm a s) : Calm a (bypassFall cause s) :=
  calm_setByp (.inr rfl) ((calm_disarm cause h).keeps (keeps_rundownAll _ rfl (keeps_cutWindows rfl (keeps_raise _ _ rfl
    (keeps_count _ rfl (.refl _ _))))))

theorem calm_healthReport (parityErr late : Bool) (h : Calm a s) : Calm a (healthReport parityErr late s) := by
  refine calm_ite (fun _ => h) fun _ => calm_ite (fun _ => calm_setByp (.inl rfl) (calm_disarm _ h)) fun _ =>
    calm_ite (fun _ => h) fun _ => ?_
  split
  · exact calm_bypassFall _ h
  · exact calm_setByp (.inl rfl) (h.keeps (keeps_wr _ _ (cov_any _ rfl) (.refl _ s)))

theorem calm_countedCycle (h : Calm a s) : Calm a (countedCycle s) := h.trans (calm_of_eq rfl (.inl rfl))

theorem calm_cycleEnd (h : Calm a s) : Calm a (cycleEnd s) := by
  have hcount : Calm a (whenB s.frame.counted countedCycle s) := calm_whenB calm_countedCycle h
  have hdog := hcount.keeps (keeps_watchdogCycle rfl (.refl _ _))
  unfold cycleEnd
  refine (calm_setByp (.inl rfl) ?_).keeps (keeps_setKey (A := allButTermByp) _ rfl (.refl _ _))
  exact hdog.keeps (keeps_setFrame _ rfl (keeps_setRegn _ rfl (.refl _ _)))

theorem calm_lineTickEnd (parityErr late : Bool) (h : Calm a s) : Calm a (lineTickEnd parityErr late s) := by
  unfold lineTickEnd
  refine calm_whenB calm_cycleEnd ((calm_setByp (.inl rfl) ?_).keeps (keeps_setLine _ rfl (keeps_purgeJobs rfl
    (keeps_cipherTick rfl (.refl _ _)))))
  have hgood : ∀ x, Calm a x → Calm a (goodTicks x) := fun x hx => by
    unfold goodTicks
    exact calm_setByp (.inl rfl) hx
  exact (hgood _ (calm_healthReport _ _ (calm_setByp (.inl rfl) h))).keeps (keeps_markerTick rfl (.refl _ _))

theorem calm_backToListening (hs : s.term ≠ .holding) (h : Calm a s) : Calm a (backToListening s) := by
  have hturn : Keeps allButTermByp s (noAutoTurn s) := keeps_noAutoTurn rfl (.refl _ s)
  have hrest : ∀ (x : State) (n : Nat) (f : RegSt → RegSt), Keeps allButTermByp x (clearId (setRegn f
      (x |> wr F.BYPASS_STATUS_INSERTED 0 |> wr F.BYPASS_STATUS_TURN_AUTO 0 |> wr F.BYPASS_STATUS_TURNED_W 0
        |> wr F.BYPASS_STATUS_TURNED_E n |> wr F.TIME_STATUS_FLYWHEEL 0 |> wr F.RANGE_STATUS_MEASURING 0))) :=
    fun x _ _ => keeps_clearId rfl (keeps_setRegn _ rfl (keeps_wr _ _ (cov_any _ rfl) (keeps_wr _ _ (cov_any _ rfl)
      (keeps_wr _ _ (cov_any _ rfl) (keeps_wr _ _ (cov_any _ rfl) (keeps_wr _ _ (cov_any _ rfl) (keeps_wr _ _ (cov_any _ rfl)
        (.refl _ x))))))))
  unfold backToListening
  refine calm_goTerm (by decide) ?_ ((calm_setByp (.inr rfl) (h.keeps hturn)).keeps (hrest _ _ _))
  rw [(hrest _ _ _).rest.term rfl]
  exact fun k => hs ((hturn.rest.term rfl).symm.trans k)

theorem calm_classTimeElapsed (t : State) (ht : exec .classTimeElapsed s = .next t) : Calm s t := by
  obtain rfl := Host.Outcome.next.inj ht
  have hback : (fromListening s && decide (classTicks s ≤ s.byp.sinceEdge)) = true → Calm s (backToListening s) := fun h =>
    calm_backToListening (fun k => by simp [fromListening, k, termCode] at h) (.refl s)
  split
  · exact .refl s
  · exact calm_setByp (.inl rfl) (calm_of_keeps (keeps_wr _ _ (cov_any _ rfl) (.refl _ s)))
  · exact calm_ite hback (fun _ => .refl s)
  · exact calm_ite (fun h => (hback h).keeps (keeps_raise _ _ rfl (.refl _ _))) (fun _ => .refl s)

theorem calm_beginLeaving (hs : s.term ≠ .holding) : Calm s (beginLeaving s) := by
  have hcut : Keeps allButTermByp s (cutWindows s) := keeps_cutWindows rfl (.refl _ s)
  refine calm_goTerm (by decide) ?_ (calm_setByp (.inl rfl) (calm_of_keeps hcut))
  exact fun k => hs ((hcut.rest.term rfl).symm.trans k)

theorem mayLeave_not_holding (h : mayLeave s = true) : s.term ≠ .holding := fun k => by
  simp [mayLeave, k, insertedState] at h

theorem calm_stageTurn (t : Nat) (sd : Option Side) : Calm s (stageTurn t sd s) := by
  refine calm_ite (fun _ => .refl s) fun _ => ?_
  exact (calm_setByp (.inl rfl) (.refl s)).keeps (keeps_whenB _ _ (fun _ => keeps_count _ rfl) (.refl _ _))

theorem calm_requestLeave : Calm s (requestLeave s) := by
  unfold requestLeave
  refine calm_setByp (.inl rfl) (calm_ite (fun _ => calm_of_keeps (keeps_queueRepeat _ _ rfl (.refl _ s))) fun _ => ?_)
  exact calm_setByp (.inl rfl) (calm_of_keeps (keeps_queueUp _ _ rfl (.refl _ s)))

/-! ### Registration, ranging and FLYWHEEL -/

theorem calm_toClaiming (hs : s.term ≠ .holding) (h : Calm a s) : Calm a (toClaiming s) :=
  calm_ite (fun _ => h.keeps (keeps_setRegn _ rfl (.refl _ s))) (fun _ => calm_goTerm (by decide) hs h)

theorem calm_enterClaiming (hs : s.term ≠ .holding) (h : Calm a s) : Calm a (enterClaiming s) := by
  unfold enterClaiming
  have hd : Keeps allButTermByp s (drawNonce (eraseOnRelease s)).2 := keeps_drawNonce rfl (keeps_eraseOnRelease rfl (.refl _ s))
  have hprep : ∀ (f : RegSt → RegSt) (v : Word), Keeps allButTermByp s
      (setReg R.CLAIM_NONCE v (wr F.REG_STATUS_BACKOFF 0 (setRegn f (drawNonce (eraseOnRelease s)).2))) := fun _ _ =>
    keeps_setReg _ _ (cov_any _ rfl) (keeps_wr _ _ (cov_any _ rfl) (keeps_setRegn _ rfl hd))
  refine (calm_toClaiming ?_ (h.keeps (hprep _ _))).keeps (keeps_beginClaim rfl (.refl _ _))
  exact fun k => hs (((hprep _ _).rest.term rfl).symm.trans k)

theorem calm_enterRanging (hs : s.term ≠ .holding) (h : Calm a s) : Calm a (enterRanging s) :=
  (calm_goTerm (by decide) hs h).keeps (keeps_beginMeasure rfl (.refl _ _))

theorem calm_adoptId (id : Nat) (hs : s.term ≠ .holding) : Calm s (adoptId id s) := by
  have henter : ∀ x, Keeps allButTermByp s x → Calm s (enterRanging x) := fun x hx =>
    calm_enterRanging (fun k => hs ((hx.rest.term rfl).symm.trans k)) (calm_of_keeps hx)
  refine calm_ite (fun _ => (henter _ ?_).keeps (keeps_raise _ _ rfl (.refl _ _))) fun _ =>
    calm_ite (fun _ => calm_of_keeps (keeps_count _ rfl (.refl _ s))) fun _ => henter _ ?_
  · exact keeps_wr _ _ (cov_any _ rfl) (keeps_setId _ rfl (.refl _ s))
  · exact keeps_wr _ _ (cov_any _ rfl) (keeps_setId _ rfl (keeps_eraseOnRelease rfl (keeps_count _ rfl (.refl _ s))))

theorem calm_assignChecked (b : List Byte) (q : Nat × Nat) (hs : s.term ≠ .holding) : Calm s (assignChecked b q s) := by
  refine calm_ite (fun _ => calm_of_keeps (keeps_count _ rfl (.refl _ s))) fun _ =>
    calm_ite (fun _ => calm_of_keeps (keeps_sigEnds _ _ rfl (keeps_count _ rfl (.refl _ s)))) fun _ => ?_
  exact (calm_adoptId _ hs).keeps (keeps_queueUp _ _ rfl (keeps_sigEnds _ _ rfl (keeps_setRegn _ rfl
    (keeps_putSlot _ _ rfl (.refl _ _)))))

theorem calm_takeAssign (b : List Byte) (hs : s.term ≠ .holding) : Calm s (takeAssign b s) := by
  refine calm_ite (fun _ => calm_of_keeps (keeps_count _ rfl (.refl _ s))) fun _ =>
    calm_ite (fun _ => calm_of_keeps (keeps_count _ rfl (.refl _ s))) fun _ => ?_
  split
  · exact calm_ite (fun _ => calm_of_keeps (keeps_queueAgain _ _ rfl (keeps_count _ rfl (.refl _ s)))) fun _ =>
      calm_assignChecked _ _ hs
  · exact calm_assignChecked _ _ hs

theorem countsNow_not_holding (h : countsNow s = true) : s.term ≠ .holding := fun k => by simp [countsNow, k] at h

theorem calm_assignVerifyDone (t : State) (ht : exec .assignVerifyDone s = .next t) : Calm s t := by
  obtain rfl := Host.Outcome.next.inj ht
  split
  · exact .refl s
  refine calm_ite (fun _ => .refl s) fun hc => calm_ite (fun _ => ?_) fun _ => ?_
  · have hs : s.term ≠ .holding := countsNow_not_holding (by
      cases h : countsNow s
      · simp [h] at hc
      · rfl)
    have hdrop : ∀ st, Keeps allButTermByp s (dropId (raise E.ASSIGN_FORGED 0 (count C.ASSIGN_FORGED (sigEnds 8 st s)))) :=
      fun st => keeps_dropId rfl (keeps_raise _ _ rfl (keeps_count _ rfl (keeps_sigEnds _ _ rfl (.refl _ s))))
    exact calm_ite (fun _ => calm_of_keeps (hdrop _)) fun _ => calm_enterClaiming
      (fun k => hs (((hdrop _).rest.term rfl).symm.trans k)) (calm_of_keeps (hdrop _))
  · exact calm_of_keeps (keeps_answerHeldKey rfl (keeps_sigEnds _ _ rfl
      (keeps_setRegn _ rfl (keeps_putSlot _ _ rfl (.refl _ s)))))

/-- The ID is dropped, and the terminal claims again. -/
theorem calm_claimsAgain {x : State} (hs : s.term ≠ .holding) (hx : Keeps allButTermByp s x) :
    Calm s (enterClaiming (dropId x)) := by
  have hd : Keeps allButTermByp s (dropId x) := keeps_dropId rfl hx
  exact calm_enterClaiming (fun k => hs ((hd.rest.term rfl).symm.trans k)) (calm_of_keeps hd)

theorem calm_grantTimeout (t : State) (ht : exec .grantTimeout s = .next t) : Calm s t := by
  obtain rfl := Host.Outcome.next.inj ht
  refine calm_ite (fun h => calm_claimsAgain (fun k => ?_)
    (keeps_raise _ _ rfl (keeps_count _ rfl (.refl _ s)))) (fun _ => .refl s)
  simp [k] at h

theorem inRR_not_holding {x : TermState} (a : NAddr) (h : inRR x a = true) : x ≠ .holding := fun k => by simp [inRR, k] at h

theorem calm_release (n : Note) (t : State) (ht : exec (.release n) s = .next t) : Calm s t := by
  obtain rfl := Host.Outcome.next.inj ht
  exact calm_takeNote fun b a x hx =>
    calm_claimsAgain (inRR_not_holding a hx) (keeps_raise _ _ rfl (keeps_count _ rfl (.refl _ x)))

theorem calm_rangeOk (n : Note) (t : State) (ht : exec (.rangeOk n) s = .next t) : Calm s t := by
  obtain rfl := Host.Outcome.next.inj ht
  refine calm_takeNote fun b a x hx => ?_
  have hstale : Calm x (count C.RANGE_OK_STALE x) := calm_of_keeps (keeps_count _ rfl (.refl _ x))
  dsimp only
  split
  · exact hstale
  · split
    · exact hstale
    · have hk : ∀ f, Keeps allButTermByp x (setRegn f (wr F.RANGE_STATUS_ACKED 1 x)) := fun _ =>
        keeps_setRegn _ rfl (keeps_wr _ _ (cov_any _ rfl) (.refl _ x))
      exact calm_ite (fun _ => calm_goTerm (by decide) (fun k => inRR_not_holding a hx (((hk _).rest.term rfl).symm.trans k))
        (calm_of_keeps (hk _))) (fun _ => calm_of_keeps (hk _))

theorem calm_flywheelEntry (t : State) (ht : exec .flywheelEntry s = .next t) : Calm s t := by
  obtain rfl := Host.Outcome.next.inj ht
  refine calm_ite (fun h => ?_) (fun _ => .refl s)
  have hk : Keeps allButTermByp s (cutWindows (wr F.TIME_STATUS_SOURCE 0 (wr F.TIME_STATUS_FLYWHEEL 1 (measBreak s)))) :=
    keeps_cutWindows rfl (keeps_wr _ _ (cov_any _ rfl) (keeps_wr _ _ (cov_any _ rfl) (keeps_measBreak rfl (.refl _ s))))
  refine (calm_goTerm (t := .flywheel) (by decide) (fun k => ?_) (calm_of_keeps hk)).keeps
    (keeps_setRegn _ rfl (keeps_raise _ _ rfl (keeps_count _ rfl (.refl _ _))))
  rw [hk.rest.term rfl] at k
  simp [k] at h

/-- The part of a header that comes before the terminal may claim. -/
theorem keeps_headerJudged (ws : List RxWord) (n src : Nat) (b : Bool) :
    Keeps allButTermByp s (headerJudged ws n b (headerTaken ws n (headerGens ws n (headerLine ws n src s)))) := by
  have hline : Keeps allButTermByp s (headerLine ws n src s) :=
    keeps_wr _ _ (cov_any _ rfl) (keeps_wr _ _ (cov_any _ rfl) (keeps_headState _ rfl
      (keeps_whenB _ _ (fun _ => keeps_count _ rfl) (keeps_setLine n rfl (.refl _ s)))))
  have hgens : Keeps allButTermByp s (headerGens ws n (headerLine ws n src s)) :=
    keeps_headLoop _ _ _ rfl (keeps_headerKey _ _ _ rfl (keeps_headerMap _ _ _ _ _ rfl (keeps_headerP _ _ _ _ _ rfl hline)))
  exact keeps_whenB _ _ (fun _ => keeps_count _ rfl) (keeps_missingWhole n rfl (keeps_modRow _ _ _ rfl
    (keeps_setFrame _ rfl (keeps_cycleCounts _ rfl hgens))))

theorem calm_headerClaims (ws : List RxWord) (n : Nat) (h : Calm a s) : Calm a (headerClaims ws n s) := by
  refine calm_ite (fun hc => calm_enterClaiming (fun k => ?_) h) (fun _ => h)
  simp [k] at hc

theorem calm_frameHeader (side : Side) (words : List RxWord) (t : State) (ht : exec (.frameHeader side words) s = .next t) :
    Calm s t := by
  obtain rfl := Host.Outcome.next.inj ht
  split
  · exact .refl s
  · refine calm_ite (fun _ => .refl s) fun _ =>
      calm_ite (fun _ => calm_of_keeps (keeps_lateHeader _ _ _ _ rfl (.refl _ s))) fun _ => ?_
    exact calm_headerClaims _ _ (calm_of_keeps (keeps_headerJudged (RxWord.chain words) _ _ _))

/-! ### Windows and lane tests -/

theorem calm_notesSent (ns : List UpNote) (h : Calm a s) : Calm a (notesSent ns s) := by
  have hbyp : ∀ (c : Bool) (f : BypassSt → BypassSt) (x : State), (f x.byp).ti = x.byp.ti → Calm x (whenB c (setByp f) x) :=
    fun c f x hf => calm_whenB (calm_setByp (.inl hf)) (.refl x)
  have hup : ∀ (f : NoteSt → NoteSt), Calm a (setNote f s) := fun _ => h.trans (calm_of_eq rfl (.inl rfl))
  unfold notesSent
  dsimp only
  exact (((hup _).keeps (keeps_whenB _ _ (fun _ => keeps_setRegn _ rfl) (.refl _ _))).trans (hbyp _ _ _ rfl)).keeps
    (keeps_setFrame _ rfl (.refl _ _))

theorem calm_assemble (w : Win) (room : Nat) (late : List Nat) : Calm s (assemble w room late s).2 := by
  have hq : ∀ qs, Keeps allButTermByp s (markLateQueues w qs s) := fun qs => keeps_markLateQueues _ _ rfl (.refl _ s)
  have hitems : ∀ n, Keeps allButTermByp s (takeItems w late n (markLateQueues w late s)).2 := fun n =>
    keeps_takeItems _ _ _ rfl (hq _)
  unfold assemble
  dsimp only
  split
  · exact .refl s
  split
  · have hn : Keeps allButTermByp s (markLateNotes w late room s) := keeps_markLateNotes _ _ _ rfl (.refl _ s)
    split
    · exact calm_of_keeps hn
    · exact calm_notesSent _ (calm_of_keeps hn)
  split
  · split
    · exact calm_of_keeps (keeps_count _ rfl (hq _))
    split
    · exact calm_of_keeps (keeps_markLateQueues _ _ rfl (.refl _ s))
    · have hroom := hitems (room - 2)
      split
      · next heq => rw [heq] at hroom; exact calm_of_keeps hroom
      · next heq => rw [heq] at hroom; exact calm_of_keeps (keeps_sealBurst _ _ _ _ rfl (keeps_demandBlocks _ rfl hroom))
  · have hroom := hitems room
    split
    · next heq => rw [heq] at hroom; exact calm_of_keeps hroom
    · next heq => rw [heq] at hroom; exact calm_of_keeps hroom

theorem calm_lockWindow (w : Win) (late : List Nat) : Calm s (lockWindow w late s) := by
  have hw : ∀ f, Keeps allButTermByp s (setWin f s) := fun _ => keeps_setWin _ rfl (.refl _ s)
  unfold lockWindow
  dsimp only
  split
  · exact calm_of_keeps (keeps_noDataBurst _ _ rfl (keeps_endJob _ _ _ rfl (keeps_count _ rfl (hw _))))
  · refine calm_ite (fun _ => calm_of_keeps (keeps_putBurst _ _ _ rfl (hw _))) fun _ => ?_
    have hend : ∀ f tag, Calm s (endJob true tag w.start (assemble w (w.foot - 5) late (setWin f s)).2) := fun f tag =>
      ((calm_of_keeps (hw f)).trans (calm_assemble w _ late)).keeps (keeps_endJob _ _ _ rfl (.refl _ _))
    split
    · exact (hend _ _).keeps (keeps_noDataBurst _ _ rfl (.refl _ _))
    · exact (hend _ _).keeps (keeps_putBurst _ _ _ rfl (.refl _ _))

theorem calm_setTxdis (n : Nat) (v : Bool) (h : Calm a s) : Calm a (setTxdis n v s) := by
  unfold setTxdis
  split
  · exact calm_setByp (.inl rfl) h
  · exact calm_setByp (.inl rfl) h
  · exact h

theorem calm_testTakesLane (n : Nat) (h : Calm a s) : Calm a (testTakesLane n s) := by
  unfold testTakesLane
  split
  · exact calm_setTxdis _ _ (h.keeps (keeps_inputAbsent _ rfl (keeps_unlock _ rfl (.refl _ s))))
  · exact calm_setTxdis _ _ (h.keeps (keeps_inputAbsent _ rfl (keeps_unlock _ rfl (.refl _ s))))
  · exact h.keeps (keeps_linkCut _ rfl (.refl _ s))

theorem calm_laneTestStart (lane : Fin 8) (t : State) (ht : exec (.laneTestStart lane) s = .next t) : Calm s t := by
  obtain rfl := Host.Outcome.next.inj ht
  refine calm_ite (fun _ => .refl s) fun _ => (calm_testTakesLane _ ?_).keeps
    (keeps_patternStart _ rfl (keeps_loopPins _ _ rfl (keeps_wr _ _ (cov_any _ rfl) (.refl _ _))))
  exact calm_of_keeps (keeps_setLane _ _ rfl (keeps_wr _ _ (cov_any _ rfl) (keeps_wr _ _ (cov_any _ rfl)
    (keeps_setReg _ _ (cov_any _ rfl) (keeps_setReg _ _ (cov_any _ rfl) (.refl _ s))))))

theorem calm_laneTestEnd (lane : Fin 8) (t : State) (ht : exec (.laneTestEnd lane) s = .next t) : Calm s t := by
  obtain rfl := Host.Outcome.next.inj ht
  refine calm_ite (fun _ => .refl s) fun _ => ?_
  split
  · exact .refl s
  · refine (calm_whenB (calm_setTxdis _ _) ?_).keeps (keeps_raise _ _ rfl (keeps_loopPins _ _ rfl (.refl _ _)))
    exact calm_of_keeps (keeps_setLane _ _ rfl (keeps_wr _ _ (cov_any _ rfl) (keeps_wr _ _ (cov_any _ rfl)
      (keeps_wr _ _ (cov_any _ rfl) (keeps_wr _ _ (cov_any _ rfl) (keeps_wr _ _ (cov_any _ rfl) (.refl _ s)))))))

/-! ### Every command -/

/-- A command that reaches neither the terminal's state nor the bypass. -/
theorem calm_of_reach {i : Instr} {t : State} (hi : Nat.land (reach i) 0x101 = 0) (ht : exec i s = .next t) : Calm s t := by
  have hk : Keeps (reach i) s t := keeps_exec i s t ht
  have hbit : ∀ k, (0x101 : Nat).testBit k = true → (reach i).testBit k = false := fun k hk => by
    have := congrArg (fun n => n.testBit k) (show reach i &&& 0x101 = 0 from hi)
    simpa [hk] using this
  exact calm_of_eq (hk.rest.term (hbit 0 rfl)) (.inl (congrArg BypassSt.ti (hk.rest.byp (hbit 8 rfl))))

theorem calm_setting (n : Note) (t : State) (ht : exec (.setting n) s = .next t) : Calm s t := by
  obtain rfl := Host.Outcome.next.inj ht
  refine calm_takeNote fun b a x _ => ?_
  dsimp only
  split
  · exact .refl x
  · exact calm_setRecord _ _ _

theorem calm_settingWrite (h : CmdHdr) (len : BitVec 16) (d : DmaBytes) (fault : Bool) (t : State)
    (ht : exec (.settingWrite h len d fault) s = .next t) : Calm s t := by
  obtain rfl := Host.Outcome.next.inj ht
  refine calm_runCmd h _ fun x => calm_needsOn _ ?_
  split
  · exact calm_of_keeps (keeps_count _ rfl (.refl _ x))
  · split
    · exact .refl x
    · exact calm_setRecordOr_status _ _ _ _ _

theorem calm_settingDelete (h : CmdHdr) (len : BitVec 16) (d : DmaBytes) (t : State)
    (ht : exec (.settingDelete h len d) s = .next t) : Calm s t := by
  obtain rfl := Host.Outcome.next.inj ht
  refine calm_runCmd h _ fun x => calm_needsOn _ ?_
  split
  · exact calm_of_keeps (keeps_count _ rfl (.refl _ x))
  · split
    · exact .refl x
    · exact (calm_setRecord _ _ _).keeps (keeps_setEndStatus _ _ rfl (.refl _ _))

theorem calm_leaveCommand (h : CmdHdr) (t : State) (ht : exec (.leaveCommand h) s = .next t) : Calm s t := by
  obtain rfl := Host.Outcome.next.inj ht
  refine calm_runCmd h _ fun x => ?_
  split
  · exact .refl x
  · exact calm_requestLeave

theorem calm_mboxServe (act : Nat) (fault : Bool) : Calm s (mboxServe act fault s).2 := by
  unfold mboxServe
  dsimp only
  split
  · split
    · exact calm_of_keeps (keeps_mboxStore _ _ rfl (.refl _ _))
    · exact .refl _
  · split
    · exact .refl _
    · exact calm_setRecordOr_status _ _ _ _ _

theorem calm_mboxDone (fault : Bool) (t : State) (ht : exec (.mboxDone fault) s = .next t) : Calm s t := by
  obtain rfl := Host.Outcome.next.inj ht
  split
  · exact .refl s
  refine calm_ite (fun _ => .refl s) fun _ => Calm.keeps ?_
    (keeps_alertSet _ rfl (keeps_wr _ _ (cov_any _ rfl) (keeps_wr _ _ (cov_any _ rfl) (.refl _ _))))
  have hreq : ∀ f : ZwdSt → ZwdSt, Calm s (setZwd f s) := fun _ => calm_of_eq rfl (.inl rfl)
  exact (hreq fun z => { z with req := none }).trans (calm_mboxServe _ _)

theorem calm_regWrite (x : ZwdTxn) (t : State) (ht : exec (.regWrite x) s = .next t) : Calm s t := by
  obtain rfl := Host.Outcome.next.inj ht
  refine calm_zwdRun _ _ _ _ _ fun y => calm_ite (fun _ => calm_of_keeps (keeps_zwdAck _ rfl (.refl _ y))) fun _ => ?_
  exact (calm_write8 _ _ _ (.refl y)).keeps (keeps_zwdAck _ rfl (.refl _ _))

theorem calm_enterListening (t : State) (ht : exec .enterListening s = .next t) : Calm s t := by
  obtain rfl := Host.Outcome.next.inj ht
  refine calm_ite (fun h => ?_) (fun _ => .refl s)
  have hfirst : Calm s (firstListening s) := by
    refine (calm_changeTerm (t := .listening) (by decide) (fun k => ?_) (.refl s)).keeps (keeps_setBoot _ rfl (.refl _ _))
    simp [k] at h
  exact (calm_loadSettings (hfirst.keeps (keeps_refreshHost rfl (.refl _ _)))).keeps (keeps_gleanStart rfl (.refl _ _))

theorem calm_releaseOfReset (straps : BitVec 12) (t : State) (ht : exec (.releaseOfReset straps) s = .next t) : Calm s t := by
  obtain rfl := Host.Outcome.next.inj ht
  have hbegin : ∀ x, Keeps allButTermByp s x → s.term ≠ .holding → Calm s (beginSelftest x) := fun x hx hs =>
    calm_ite (fun _ => calm_enterHolding _ (calm_of_keeps hx)) fun _ => calm_changeTerm (by decide)
      (fun k => absurd ((hx.rest.term rfl).symm.trans k) hs) (calm_of_keeps (keeps_wr _ _ (cov_any _ rfl) hx))
  refine calm_ite (fun _ => .refl s) fun h => ?_
  have hs : s.term ≠ .holding := fun k => by simp [k] at h
  refine calm_ite (fun _ => hbegin _ ?_ hs) (fun _ => hbegin _ (.refl _ s) hs)
  exact keeps_setBoot _ rfl (keeps_applyStraps rfl (keeps_wr _ _ (cov_any _ rfl) (.refl _ s)))

theorem calm_tickOverrun (eng : Fin 9) (t : State) (ht : exec (.tickOverrun eng) s = .next t) : Calm s t := by
  obtain rfl := Host.Outcome.next.inj ht
  refine calm_ite (fun _ => .refl s) fun _ => ?_
  have h1 : ∀ f n, Keeps allButTermByp s (wr f n (count (C.TICK_OVERRUN_FRM + eng.val) s)) := fun _ _ =>
    keeps_wr _ _ (cov_any _ rfl) (keeps_count _ rfl (.refl _ s))
  have h2 : ∀ x, Calm s x → ∀ f : BypassSt → BypassSt, (f x.byp).ti = x.byp.ti → Calm s (setByp f x) := fun _ hx _ hf =>
    calm_setByp (.inl hf) hx
  have hraised : Calm s (if nbit s.byp.overruns eng.val then wr ⟨R.TICK_OVERRUN_STATUS, eng.val, eng.val⟩ 1
      (count (C.TICK_OVERRUN_FRM + eng.val) s) else setByp (fun b => { b with overruns := b.overruns + 2 ^ eng.val })
      (raise E.TICK_OVERRUN eng.val (wr ⟨R.TICK_OVERRUN_STATUS, eng.val, eng.val⟩ 1 (count (C.TICK_OVERRUN_FRM + eng.val) s)))) :=
    calm_ite (fun _ => calm_of_keeps (h1 _ _))
      (fun _ => h2 _ ((calm_of_keeps (h1 _ _)).keeps (keeps_raise _ _ rfl (.refl _ _))) _ rfl)
  exact calm_ite (fun _ => h2 _ hraised _ rfl) (fun _ => hraised)

theorem calm_turnEffective (side : Side) (t : State) (ht : exec (.turnEffective side) s = .next t) : Calm s t := by
  obtain rfl := Host.Outcome.next.inj ht
  have hdone : ∀ p, Calm s (turnDone p s) := fun _ => calm_of_eq rfl (.inl rfl)
  split
  · exact .refl s
  refine calm_ite (fun _ => .refl s) fun _ => ?_
  split
  · exact calm_ite (fun _ => (hdone _).keeps (keeps_turnOff _ rfl (.refl _ _))) (fun _ => .refl s)
  · exact calm_ite (fun _ => (hdone _).keeps (keeps_turnTo _ rfl (.refl _ _))) (fun _ => .refl s)

theorem calm_admitDone (t : State) (ht : exec .admitDone s = .next t) : Calm s t := by
  obtain rfl := Host.Outcome.next.inj ht
  split
  · exact .refl s
  · exact calm_ite (fun _ => (calm_setByp (.inl rfl) (.refl s)).keeps (keeps_raise _ _ rfl (.refl _ _))) (fun _ => .refl s)

theorem calm_admitFail (t : State) (ht : exec .admitFail s = .next t) : Calm s t := by
  obtain rfl := Host.Outcome.next.inj ht
  split
  · exact .refl s
  · exact calm_ite (fun _ => (calm_bypassFall _ (.refl s)).keeps (keeps_raise _ _ rfl (keeps_count _ rfl (.refl _ _))))
      (fun _ => .refl s)

theorem calm_leavings {i : Instr} (hi : i = .leaving ∨ i = .leaveReqTimeout) (t : State) (ht : exec i s = .next t) :
    Calm s t := by
  have hleave : ∀ c : Bool, (mayLeave s && c) = true → Calm s (beginLeaving s) := fun c h =>
    calm_beginLeaving (mayLeave_not_holding (by
      rw [Bool.and_eq_true] at h
      exact h.1))
  rcases hi with rfl | rfl <;> obtain rfl := Host.Outcome.next.inj ht
  · split
    · exact .refl s
    · exact calm_ite (hleave _) (fun _ => .refl s)
  · split
    · exact .refl s
    · exact calm_ite (fun h => hleave _ (Bool.and_assoc .. ▸ h)) (fun _ => .refl s)

/-- TURN, TURN_END and LEAVE stage what they ask for. -/
theorem calm_turns {i : Instr} {n : Note} (hi : i = .turn n ∨ i = .turnEnd n ∨ i = .leave n) (t : State)
    (ht : exec i s = .next t) : Calm s t := by
  have hcount : ∀ x, Calm x (count C.TURN_IGNORED x) := fun x => calm_of_keeps (keeps_count _ rfl (.refl _ x))
  rcases hi with rfl | rfl | rfl
  · obtain rfl := Host.Outcome.next.inj ht
    refine calm_takeNote fun b a x _ => ?_
    split
    · exact hcount x
    split
    · exact .refl x
    · exact calm_withOwnTick _ _ _ fun _ => calm_stageTurn _ _
  · obtain rfl := Host.Outcome.next.inj ht
    refine calm_takeNote fun b a x _ => ?_
    split
    · exact hcount x
    · exact calm_withOwnTick _ _ _ fun _ => calm_stageTurn _ _
  · obtain rfl := Host.Outcome.next.inj ht
    refine calm_takeNote fun b a x _ => calm_withOwnTick _ _ _ fun _ => ?_
    exact calm_of_eq rfl (.inl rfl)

/-- What no command but the resets, the insertion, the return from FLYWHEEL and an ADMIT can do (R52, R61). -/
theorem calm_exec {i : Instr} {t : State} (hr : i ∉ [.powerOnReset, .pinReset, .brownOutReset, .softResetProceed])
    (hins : i ≠ .insertion) (hfly : ∀ pos, i ≠ .flywheelExit pos) (hadm : ∀ n, i ≠ .admission n) (ht : exec i s = .next t) :
    Calm s t := by
  cases i
  case powerOnReset | pinReset | brownOutReset | softResetProceed => exact absurd (by simp) hr
  case insertion => exact absurd rfl hins
  case flywheelExit pos => exact absurd rfl (hfly pos)
  case admission n => exact absurd rfl (hadm n)
  case lowHalfWrite p r v => obtain rfl := Host.Outcome.next.inj ht; exact calm_writeLow _ _ _ (.refl s)
  case eightByteAccess p r w =>
    obtain rfl := Host.Outcome.next.inj ht
    refine calm_ite (fun _ => .refl s) fun _ => ?_
    cases w with
    | none => exact calm_of_keeps (keeps_emit _ rfl (keeps_readEight _ _ rfl (.refl _ s)))
    | some w => exact calm_write8 _ _ _ (.refl s)
  case bootLoadGo p v => obtain rfl := Host.Outcome.next.inj ht; exact calm_write8 _ _ _ (.refl s)
  case kaWatchdog p v => obtain rfl := Host.Outcome.next.inj ht; exact calm_write8 _ _ _ (.refl s)
  case releaseOfReset straps => exact calm_releaseOfReset straps t ht
  case selftestStepDone r =>
    obtain rfl := Host.Outcome.next.inj ht
    exact calm_ite (fun _ => .refl s) (fun _ => calm_stepDone r)
  case imageLoadDone d => exact calm_imageLoadDone d t ht
  case enterListening => exact calm_enterListening t ht
  case tickOverrun eng => exact calm_tickOverrun eng t ht
  case buildingTick i => exact calm_buildingTick i t ht
  case healthPulse pe late =>
    obtain rfl := Host.Outcome.next.inj ht
    exact calm_ite (fun _ => calm_lineTickEnd _ _ (.refl s)) (fun _ => .refl s)
  case classTimeElapsed => exact calm_classTimeElapsed t ht
  case watchdogExpiry =>
    obtain rfl := Host.Outcome.next.inj ht
    exact calm_ite (fun _ => calm_setByp (.inl rfl) (.refl s)) (fun _ => .refl s)
  case admitDone => exact calm_admitDone t ht
  case admitFail => exact calm_admitFail t ht
  case turn n => exact calm_turns (.inl rfl) t ht
  case turnEnd n => exact calm_turns (.inr (.inl rfl)) t ht
  case turnEffective side => exact calm_turnEffective side t ht
  case leave n => exact calm_turns (.inr (.inr rfl)) t ht
  case leaving => exact calm_leavings (.inl rfl) t ht
  case leaveReqTimeout => exact calm_leavings (.inr rfl) t ht
  case leaveReqRepeat =>
    obtain rfl := Host.Outcome.next.inj ht
    exact calm_ite (fun _ => (calm_setByp (.inl rfl) (.refl s)).keeps (keeps_queueRepeat _ _ rfl (.refl _ _))) (fun _ => .refl s)
  case frameHeader side words => exact calm_frameHeader side words t ht
  case assign n =>
    obtain rfl := Host.Outcome.next.inj ht
    refine calm_takeNote fun b a x hx => calm_takeAssign b fun k => ?_
    simp [kASSIGN, k] at hx
  case assignVerifyDone => exact calm_assignVerifyDone t ht
  case release n => exact calm_release n t ht
  case grantTimeout => exact calm_grantTimeout t ht
  case rangeOk n => exact calm_rangeOk n t ht
  case flywheelEntry => exact calm_flywheelEntry t ht
  case setting n => exact calm_setting n t ht
  case burstLock late =>
    obtain rfl := Host.Outcome.next.inj ht
    split
    · exact .refl s
    · exact calm_lockWindow _ _
  case settingWrite h len d fault => exact calm_settingWrite h len d fault t ht
  case settingDelete h len d => exact calm_settingDelete h len d t ht
  case leaveCommand h => exact calm_leaveCommand h t ht
  case regWrite x => exact calm_regWrite x t ht
  case mboxDone fault => exact calm_mboxDone fault t ht
  case laneTestStart lane => exact calm_laneTestStart lane t ht
  case laneTestEnd lane => exact calm_laneTestEnd lane t ht
  all_goals exact calm_of_reach (by dsimp only [reach]; rfl) ht

/-! ### The commands that are not calm -/

/-- After the straps are applied again, a reset goes on to its record alone. -/
theorem takeReset_term_tick (kind : ResetKind) : (takeReset kind s).term = .reset ∧ (takeReset kind s).byp.ti = none := by
  have hregs : Keeps allButTermByp (blocksReset kind s)
      (applyStraps (strapsAgain kind s.boot.strapsDue
        (eachOf (keeperRegs kind s) (fun s p => setReg p.1 p.2 s) (blocksReset kind s)))) :=
    keeps_applyStraps rfl (keeps_strapsAgain _ _ rfl (keeps_eachOf _ _ (fun _ _ => keeps_setReg _ _ (cov_any _ rfl)) (.refl _ _)))
  have hrec : ∀ b x, (recordBypass b x).term = x.term ∧ (recordBypass b x).byp.ti = x.byp.ti := fun b x => by
    cases b <;> exact ⟨rfl, rfl⟩
  have hend : ∀ x, Keeps allButTermByp x (if kind == .powerOn then x else alertSet A.STATE x) := fun x =>
    keeps_ite (fun _ => .refl _ x) (fun _ => keeps_alertSet _ rfl (.refl _ x))
  unfold takeReset
  rw [(hend _).rest.term rfl, (hend _).rest.byp rfl, (hrec _ _).1, (hrec _ _).2, hregs.rest.term rfl, hregs.rest.byp rfl]
  exact ⟨rfl, rfl⟩

/-- A soft reset goes on to self-test or to HOLDING. -/
theorem term_beginSelftest : (beginSelftest s).term = .selftest ∨ (beginSelftest s).term = .holding := by
  unfold beginSelftest
  split
  · exact .inr (term_changeTerm _)
  · exact .inl (term_changeTerm _)

theorem resets_end {i : Instr} {t : State} (hi : i ∈ [.powerOnReset, .pinReset, .brownOutReset, .softResetProceed])
    (ht : exec i s = .next t) : t = s ∨ (t.term ≠ .admitted ∧ t.byp.ti = none) := by
  have htake : ∀ kind, (takeReset kind s).term ≠ .admitted ∧ (takeReset kind s).byp.ti = none := fun kind =>
    ⟨fun h => by simp [takeReset_term_tick] at h, (takeReset_term_tick kind).2⟩
  simp only [List.mem_cons, List.not_mem_nil, or_false] at hi
  rcases hi with rfl | rfl | rfl | rfl <;> obtain rfl := Host.Outcome.next.inj ht
  · exact .inr (htake _)
  · exact .inr (htake _)
  · exact .inr (htake _)
  · split
    · refine .inr ⟨fun h => ?_, ?_⟩
      · rcases term_beginSelftest (s := takeReset .soft s) with k | k <;> rw [k] at h <;> cases h
      · rw [(keeps_beginSelftest (A := allButByp) rfl (.refl _ (takeReset .soft s))).rest.byp rfl, (takeReset_term_tick _).2]
    · exact .inl rfl

theorem flywheelExit_term {pos : Int} {t : State} (hs : s.term ≠ .flywheel)
    (ht : exec (.flywheelExit pos) s = .next t) : t = s := by
  obtain rfl := Host.Outcome.next.inj ht
  split
  · rfl
  · exact if_pos (by simp [hs])

/-- R77: outside LISTENING, and before its pending tick, the insertion does nothing; the pending tick goes with it. -/
theorem insertion_end {t : State} (ht : exec .insertion s = .next t) :
    t = s ∨ (s.term = .listening ∧ (∃ ti, s.byp.ti = some ti ∧ tickDue ti s.line = true) ∧ t.byp.ti = none) := by
  obtain rfl := Host.Outcome.next.inj ht
  split
  · exact .inl rfl
  · next ti hti =>
    split
    · exact .inl rfl
    · next h =>
      simp only [Bool.or_eq_true, bne_iff_ne, Bool.not_eq_true', not_or, not_not, Bool.not_eq_false] at h
      refine .inr ⟨h.1.1, ⟨ti, hti, h.1.2⟩, ?_⟩
      have hgo : ∀ x, Keeps allButByp x (wr F.ADMIT_TICK_PENDING 0 (wr F.BYPASS_STATUS_INSERTED 1
          (wr F.BYPASS_STATUS_KA_ARMED 1 (goTerm .admitted x)))) := fun x =>
        keeps_wr _ _ (cov_any _ rfl) (keeps_wr _ _ (cov_any _ rfl) (keeps_wr _ _ (cov_any _ rfl)
          (keeps_goTerm _ rfl (.refl _ x))))
      exact congrArg BypassSt.ti ((hgo _).rest.byp rfl)

/-! ### ADMIT -/

theorem noteTick_congr {w : Word} {least : Nat} (hframe : u.frame = s.frame) (hline : u.line = s.line) :
    noteTick w least u = noteTick w least s := by
  have hn : noteN u = noteN s := by unfold noteN absTick; rw [hframe, hline]
  unfold noteTick
  rw [hn]

/-- What an ADMIT does with the tick it names. -/
def admitAct (b : List Byte) (_ : NAddr) (s : State) : Option Nat × State :=
  withOwnTick (stampAt b 0) 48 C.ADMIT_LATE (fun t s => (some nDONE, pendAdmit t s)) s

theorem admitAct_tick {b : List Byte} {a : NAddr} {ti : Nat} (h : (admitAct b a s).2.byp.ti = some ti)
    (hne : s.byp.ti ≠ some ti) :
    noteTick (stampAt b 0) 48 s = .ok ti := by
  unfold admitAct withOwnTick at h
  split at h
  · next t ht =>
    obtain rfl : t = ti := Option.some.inj h
    exact ht
  · refine absurd ?_ hne
    split at h
    · exact (congrArg BypassSt.ti ((keeps_count (A := allButTermByp) _ rfl (.refl _ s)).rest.byp rfl)).symm.trans h
    · exact h

/-- An unsequenced note that is not heard is counted at most; one that is heard acts, and is answered. -/
theorem takeNote_unsequenced {k : NKind} {n : Note} {act : List Byte → NAddr → State → Option Nat × State}
    (hseq : k.sequenced = false) :
    Keeps allButTermByp s (takeNote k n act s) ∨
      ∃ a, Heard k n a s ∧ Keeps allButTermByp (act (noteFields n a) a (count C.NOTE_RX s)).2 (takeNote k n act s) := by
  have hcount : ∀ k x, Keeps allButTermByp s x → Keeps allButTermByp s (count k x) := fun k _ => keeps_count k rfl
  have hrx : Keeps allButTermByp s (count C.NOTE_RX s) := hcount _ _ (.refl _ s)
  unfold takeNote
  dsimp only
  rw [hrx.rest.term rfl]
  split
  · exact .inl (.refl _ s)
  next hp =>
  split
  · exact .inl (keeps_stopRegion rfl (.refl _ s))
  next hb =>
  split
  · exact .inl (.refl _ s)
  next a ha =>
  split
  · exact .inl (hcount _ _ hrx)
  next hacts =>
  split
  · exact .inl (hcount _ _ hrx)
  next hmode =>
  rw [if_pos (by simp [hseq])]
  by_cases hlen : (!k.lenOk (noteFields n a) || (noteFields n a).length + (if a == .fprint then 5 else 0) != n.len.toNat) = true
  · rw [if_pos hlen]
    exact .inl <| keeps_ite (fun _ => keeps_answer _ _ _ rfl hrx) (fun _ => hcount _ _ hrx)
  rw [if_neg hlen]
  simp only [Bool.or_eq_true, Bool.not_eq_true', bne_iff_ne, not_or, not_not, Bool.not_eq_false] at hp hacts hmode hlen
  refine .inr ⟨a, ⟨hp, by simpa using hb, ha, hmode, hacts, fun h => absurd (hseq.symm.trans h) (by decide), hlen⟩, ?_⟩
  split
  · next heq => rw [heq]; exact .refl _ _
  · next heq => rw [heq]; exact keeps_answer _ _ _ rfl (.refl _ _)

/-- R77: a tick becomes pending by an ADMIT heard in LISTENING, addressed by the fingerprint, which names it. -/
theorem admission_tick {n : Note} {ti : Nat} {t : State} (ht : exec (.admission n) s = .next t) (hti : t.byp.ti = some ti)
    (hne : s.byp.ti ≠ some ti) :
    Heard kADMIT n .fprint s ∧ noteTick (stampAt (noteFields n .fprint) 0) 48 s = .ok ti := by
  obtain rfl : takeNote kADMIT n admitAct s = t := Host.Outcome.next.inj ht
  have hrx : Keeps T.counting s (count C.NOTE_RX s) := keeps_count _ rfl (.refl _ s)
  rcases takeNote_unsequenced (k := kADMIT) (n := n) (act := admitAct) (s := s) rfl with hk | ⟨a, hheard, hk⟩
  · exact absurd ((congrArg BypassSt.ti (hk.rest.byp rfl)).symm.trans hti) hne
  · obtain rfl : a = .fprint := by simpa [kADMIT] using hheard.2.2.2.1
    refine ⟨hheard, (noteTick_congr (hrx.rest.frame rfl) (hrx.rest.line rfl)).symm.trans (admitAct_tick (a := .fprint) ?_ ?_)⟩
    · exact (congrArg BypassSt.ti (hk.rest.byp rfl)).symm.trans hti
    · rwa [hrx.rest.byp rfl]

theorem term_admission {n : Note} {t : State} (ht : exec (.admission n) s = .next t) : t.term = s.term :=
  (keeps_exec _ s t ht : Keeps (reach (.admission n)) s t).rest.term (by dsimp only [reach]; rfl)

/-! ### The obligations -/

/-- Settles O14: every command but the resets leaves HOLDING alone: the calm ones, and the three that do nothing there. -/
theorem onlyAResetEndsHolding : Obligations.OnlyAResetEndsHolding := by
  intro i s t hs ht hr
  by_cases hins : i = .insertion
  · subst hins
    rcases insertion_end ht with rfl | ⟨hl, -⟩
    · exact hs
    · rw [hs] at hl; cases hl
  by_cases hfly : ∃ pos, i = .flywheelExit pos
  · obtain ⟨pos, rfl⟩ := hfly
    exact (flywheelExit_term (by simp [hs]) ht).symm ▸ hs
  by_cases hadm : ∃ n, i = .admission n
  · obtain ⟨n, rfl⟩ := hadm
    exact (term_admission ht).trans hs
  · exact (calm_exec hr hins (not_exists.mp hfly) (not_exists.mp hadm) ht).holding hs

/-- Settles O15: of the commands that are not calm the insertion alone enters ADMITTED from LISTENING, and an ADMIT alone makes
a tick pending. -/
theorem onlyInsertionAdmits : Obligations.OnlyInsertionAdmits := by
  refine ⟨fun i s t hs ht hadmitted => ?_, fun i ti s t ht hti hne => ?_⟩
  · have hkept : t.term ≠ s.term := fun h => by rw [h, hs] at hadmitted; cases hadmitted
    by_cases hr : i ∈ [.powerOnReset, .pinReset, .brownOutReset, .softResetProceed]
    · rcases resets_end hr ht with rfl | ⟨hterm, -⟩
      · exact absurd rfl hkept
      · exact absurd hadmitted hterm
    by_cases hins : i = .insertion
    · subst hins
      rcases insertion_end ht with rfl | ⟨-, hdue, -⟩
      · exact absurd rfl hkept
      · exact ⟨rfl, hdue⟩
    by_cases hfly : ∃ pos, i = .flywheelExit pos
    · obtain ⟨pos, rfl⟩ := hfly
      exact absurd (congrArg State.term (flywheelExit_term (by simp [hs]) ht)) hkept
    by_cases hadm : ∃ n, i = .admission n
    · obtain ⟨n, rfl⟩ := hadm
      exact absurd (term_admission ht) hkept
    · have hfrom := (calm_exec hr hins (not_exists.mp hfly) (not_exists.mp hadm) ht).admitted hadmitted
      exact absurd (hadmitted.trans hfrom.symm) hkept
  · have hkept : t.byp.ti ≠ s.byp.ti := fun h => hne (h.symm.trans hti)
    have hsome : t.byp.ti ≠ none := fun h => by rw [h] at hti; cases hti
    by_cases hadm : ∃ n, i = .admission n
    · obtain ⟨n, rfl⟩ := hadm
      exact ⟨n, rfl, admission_tick ht hti hne⟩
    by_cases hr : i ∈ [.powerOnReset, .pinReset, .brownOutReset, .softResetProceed]
    · rcases resets_end hr ht with rfl | ⟨-, hnone⟩
      · exact absurd rfl hkept
      · exact absurd hnone hsome
    by_cases hins : i = .insertion
    · subst hins
      rcases insertion_end ht with rfl | ⟨-, -, hnone⟩
      · exact absurd rfl hkept
      · exact absurd hnone hsome
    by_cases hfly : ∃ pos, i = .flywheelExit pos
    · obtain ⟨pos, rfl⟩ := hfly
      exact absurd (congrArg BypassSt.ti ((keeps_exec _ s t ht : Keeps (reach (.flywheelExit pos)) s t).rest.byp
        (by dsimp only [reach]; rfl))) hkept
    · rcases (calm_exec hr hins (not_exists.mp hfly) (not_exists.mp hadm) ht).tick with h | h
      · exact absurd h hkept
      · exact absurd h hsome

end Sys2Proof.Proofs

end

/-! PROOF. Writes of whole registers, and the fields that they store (spec/00 R6, R7). -/

section

namespace Sys2Proof.Proofs

open Sys2Proof Sys2Proof.Machine Sys2Proof.Claims Sys2Proof.Laws

variable {s : State}

/-! ### The write of a whole register -/

/-- The high half and the low half of a word are the word. -/
theorem word_of_halves (v : Word) : BitVec.ofNat 40 ((BitVec.ofNat 8 (fget v 39 32)).toNat * 2 ^ 32 + fget v 31 0) = v := by
  apply BitVec.eq_of_toNat_eq
  have hv := v.isLt
  simp only [fget, BitVec.toNat_ofNat]
  omega

/-- R6, R7: a whole register that may be written commits its open bits, and the holding latch is empty again. -/
theorem write8_open {p : Path} {off : Nat} {v : Word} {row : RegRow} (hr : regRow off = some row) (hm : mayWriteReg off s = true)
    (hrws : row.rws = 0) (heng : row.engine = false) :
    ∃ b, write8 p off v s =
      clearHold p (storeBits p row off (row.rw ||| row.w1c ||| row.wo) v (setHold p off b s)) := by
  refine ⟨BitVec.ofNat 8 (fget v 39 32), ?_⟩
  have hassigned := regAssigned_of_row hr
  have hm' : ∀ b, mayWriteReg off (setHold p off b s) = true := fun b => by
    rwa [mayWriteReg, regsAnswer, setHold, setLatches_term]
  have hheld : ∀ b, heldByte p off (setHold p off b s) = b.toNat := fun b => by simp [heldByte, setHold]
  have hopen : ∀ x, openBits row x = row.rw ||| row.w1c ||| row.wo := fun x => by simp [openBits, hrws, heng]
  have hlock : ∀ x, findsLock row x = false := fun x => by simp [findsLock, hrws, heng]
  rw [write8, writeHigh_open hassigned hm, writeLow_open hassigned (hm' _), commitReg_open hr (hm' _), hheld, word_of_halves,
    hopen, hlock]
  rfl

/-- The same of a register whose write does something of its own: `f` of the bits written and the merged value. -/
theorem write8_hooked {p : Path} {off : Nat} {v : Word} {row : RegRow} {f : Word → Word → State → State}
    (hr : regRow off = some row) (hm : mayWriteReg off s = true) (hrws : row.rws = 0) (heng : row.engine = false)
    (hbits : row.rw ||| row.w1c ||| row.wo ≠ 0) (hf : ∀ v n, writeHook p off v n = some (f v n)) :
    ∃ b, write8 p off v s = clearHold p (f (v &&& (row.rw ||| row.w1c ||| row.wo))
      (mergeReg row (row.rw ||| row.w1c ||| row.wo) (reg off s) v) (setHold p off b s)) := by
  obtain ⟨b, hw⟩ := write8_open (v := v) hr hm hrws heng
  refine ⟨b, hw.trans ?_⟩
  simp only [storeBits, if_neg hbits, hf, hooked, setHold, reg_setLatches]

theorem keeps_clearHold_self (p : Path) : Keeps 0xe s (clearHold p s) := keeps_clearHold p rfl (.refl _ s)

theorem keeps_setHold_self (p : Path) (off : Nat) (b : Byte) : Keeps 0xe s (setHold p off b s) :=
  keeps_setHold p off b rfl (.refl _ s)

/-! ### Fields of a masked word -/

theorem fget_and {v m : Word} {hi lo : Nat} (hh : hi < 40) (hm : ∀ i < 40, lo ≤ i → i ≤ hi → m.getLsbD i = true) :
    fget (v &&& m) hi lo = fget v hi lo := by
  refine Nat.eq_of_testBit_eq fun i => ?_
  rw [testBit_fget, testBit_fget, BitVec.getLsbD_and]
  by_cases hi' : i < hi + 1 - lo
  · rw [hm _ (by omega) (by omega) (by omega), Bool.and_true]
  · simp [hi']

theorem getLsbD_one_word (i : Nat) : (1 : Word).getLsbD i = decide (i = 0) := by
  have : (1 : Word) = 1#40 := rfl
  rw [this, BitVec.getLsbD_one]
  simp

theorem fget_or_one {v : Word} {hi lo : Nat} (hlo : 0 < lo) : fget (v ||| 1) hi lo = fget v hi lo := by
  refine Nat.eq_of_testBit_eq fun i => ?_
  have hone : (1 : Word).getLsbD (lo + i) = false := by
    rw [getLsbD_one_word]
    exact decide_eq_false (by omega)
  rw [testBit_fget, testBit_fget, BitVec.getLsbD_or, hone, Bool.or_false]

theorem fget_or_one_zero (v : Word) : fget (v ||| 1) 0 0 = 1 := by
  have hbit : (fget (v ||| 1) 0 0).testBit 0 = true := by
    rw [testBit_fget, BitVec.getLsbD_or, getLsbD_one_word]
    simp
  have hlt : fget (v ||| 1) 0 0 < 2 := Nat.mod_lt _ (by decide)
  have hne : fget (v ||| 1) 0 0 ≠ 0 := fun h0 => by
    rw [h0] at hbit
    simp at hbit
  omega

theorem getLsbD_mergeReg {row : RegRow} {m old v : Word} {k : Nat} (hw1c : row.w1c = 0) (hk : k < 40) :
    (mergeReg row m old v).getLsbD k = if (m &&& (row.rw ||| row.rws)).getLsbD k then v.getLsbD k else old.getLsbD k := by
  unfold mergeReg
  dsimp only
  rw [hw1c]
  generalize m &&& (row.rw ||| row.rws) = set
  simp only [BitVec.getLsbD_and, BitVec.getLsbD_or, BitVec.getLsbD_not, hk, decide_true, Bool.true_and]
  cases set.getLsbD k <;> simp

/-- A merge takes a field that the mask writes whole. -/
theorem fget_mergeReg_open {row : RegRow} {m old v : Word} {hi lo : Nat} (hw1c : row.w1c = 0) (hh : hi < 40)
    (hm : ∀ i < 40, lo ≤ i → i ≤ hi → (m &&& (row.rw ||| row.rws)).getLsbD i = true) :
    fget (mergeReg row m old v) hi lo = fget v hi lo := by
  refine Nat.eq_of_testBit_eq fun i => ?_
  rw [testBit_fget, testBit_fget]
  by_cases hi' : i < hi + 1 - lo
  · rw [getLsbD_mergeReg hw1c (by omega), if_pos (hm _ (by omega) (by omega) (by omega))]
  · simp [hi']

/-- A merge leaves a field that the mask does not write. -/
theorem fget_mergeReg_closed {row : RegRow} {m old v : Word} {hi lo : Nat} (hw1c : row.w1c = 0) (hh : hi < 40)
    (hm : ∀ i < 40, lo ≤ i → i ≤ hi → (m &&& (row.rw ||| row.rws)).getLsbD i = false) :
    fget (mergeReg row m old v) hi lo = fget old hi lo := by
  refine Nat.eq_of_testBit_eq fun i => ?_
  rw [testBit_fget, testBit_fget]
  by_cases hi' : i < hi + 1 - lo
  · rw [getLsbD_mergeReg hw1c (by omega), if_neg (by simp [hm (lo + i) (by omega) (by omega) (by omega)])]
  · simp [hi']

end Sys2Proof.Proofs

end

/-! PROOF. Self-test, and the host load and the flash bridge of HOLDING (spec/02_power_up_straps_selftest.md R44-R50, R54). -/

section

namespace Sys2Proof.Proofs

open Sys2Proof Sys2Proof.Machine Sys2Proof.Claims Sys2Proof.Laws

variable {s : State}

/-! ### HOLDING and the steps, once -/

/-- A field just written, with a value that fits it. -/
theorem rd_wr_fits {f : Fld} {v : Nat} (hf : f.hi < 40) (hv : v < 2 ^ (f.hi + 1 - f.lo)) : rd f (wr f v s) = v :=
  (rd_wr_same f v s hf).trans (Nat.mod_eq_of_lt hv)

/-- What a change of the terminal's state may reach besides it. -/
def termReach : Nat := T.counting ||| Reach.T.term

theorem keeps_changeTerm_self (t : TermState) : Keeps termReach s (changeTerm t s) := keeps_changeTerm t rfl (.refl _ s)

/-- R52: HOLDING with its hold code; the step, its sub-code and its detail stand. -/
theorem enterHolding_end (code : Nat) (hc : code < 256) : (enterHolding code s).term = .holding ∧
    rd F.SELFTEST_RESULT_HOLD_CODE (enterHolding code s) = code ∧ bootStep (enterHolding code s) = bootStep s ∧
    rd F.SELFTEST_RESULT_SUBCODE (enterHolding code s) = rd F.SELFTEST_RESULT_SUBCODE s ∧
    rd F.SELFTEST_RESULT_DETAIL (enterHolding code s) = rd F.SELFTEST_RESULT_DETAIL s := by
  have hk : ∀ f : Fld, f.off = R.SELFTEST_RESULT → rd f (enterHolding code s) = rd f (wr F.SELFTEST_RESULT_HOLD_CODE code s) :=
    fun f hf => (keeps_changeTerm_self .holding).rd f (by rw [hf]; decide +kernel)
  refine ⟨term_changeTerm _, (hk _ rfl).trans ?_, (hk _ rfl).trans ?_, (hk _ rfl).trans ?_, (hk _ rfl).trans ?_⟩
  · exact rd_wr_fits (by decide) hc
  all_goals exact rd_wr_other _ _ _ _ (by decide) (by decide)

theorem noteFailure_end {sub det : Nat} (hsub : sub < 256) (hdet : det < 65536) :
    bootStep (noteFailure sub det s) = bootStep s ∧ rd F.SELFTEST_RESULT_SUBCODE (noteFailure sub det s) = sub ∧
    rd F.SELFTEST_RESULT_DETAIL (noteFailure sub det s) = det := by
  unfold noteFailure bootStep
  refine ⟨?_, ?_, rd_wr_fits (by decide) hdet⟩
  · rw [rd_wr_other _ _ _ _ (by decide) (by decide), rd_wr_other _ _ _ _ (by decide) (by decide)]
  · rw [rd_wr_other _ _ _ _ (by decide) (by decide)]
    exact rd_wr_fits (by decide) hsub

/-- R48: a fatal failure of step `n`. -/
theorem failStep_end {n sub det : Nat} (hn : n < 256) (hsub : sub < 256) (hdet : det < 65536) :
    (failStep n sub det s).term = .holding ∧ rd F.SELFTEST_RESULT_HOLD_CODE (failStep n sub det s) = n ∧
    bootStep (failStep n sub det s) = bootStep s ∧ rd F.SELFTEST_RESULT_SUBCODE (failStep n sub det s) = sub ∧
    rd F.SELFTEST_RESULT_DETAIL (failStep n sub det s) = det := by
  obtain ⟨hterm, hcode, hstep, hs, hd⟩ := enterHolding_end (s := noteFailure sub det s) n hn
  obtain ⟨hnstep, hnsub, hndet⟩ := noteFailure_end (s := s) hsub hdet
  exact ⟨hterm, hcode, hstep.trans hnstep, hs.trans hnsub, hd.trans hndet⟩

/-- What the begin of a step may reach. -/
def stepReach : Nat := Reach.T.SELFTEST_RESULT ||| Reach.T.ENTROPY_STATUS

theorem keeps_stepTo_self (n : Nat) : Keeps stepReach s (stepTo n s) := keeps_stepTo n rfl (.refl _ s)

theorem term_stepTo (n : Nat) : (stepTo n s).term = s.term := (keeps_stepTo_self n).rest.term rfl

theorem bootStep_stepTo {n : Nat} (hn : n < 256) : bootStep (stepTo n s) = n := by
  have hstep : bootStep (wr F.SELFTEST_RESULT_STEP n s) = n :=
    rd_wr_fits (by decide) hn
  unfold stepTo whenB
  split
  · exact (rd_wr_other _ _ _ _ (by decide) (by decide)).trans hstep
  · exact hstep

theorem subcode_stepTo (n : Nat) : rd F.SELFTEST_RESULT_SUBCODE (stepTo n s) = rd F.SELFTEST_RESULT_SUBCODE s := by
  have hstep := rd_wr_other F.SELFTEST_RESULT_SUBCODE F.SELFTEST_RESULT_STEP n s (by decide) (by decide)
  unfold stepTo whenB
  split
  · exact (rd_wr_other _ _ _ _ (by decide) (by decide)).trans hstep
  · exact hstep

/-! ### The outcome of a step, by its number -/

variable {r : StepResult}

theorem exec_stepDone (ht : s.term = .selftest) (hp : s.boot.passed = false) :
    exec (.selftestStepDone r) s = .next (stepDone r s) := congrArg Host.Outcome.next (if_neg (by simp [ht, hp]))

/-- The steps 0x01 to 0x08, where a failure is fatal (R48). -/
theorem stepDone_early (hn : bootStep s ≤ 8) : stepDone r s =
    if !r.pass || (bootStep s == 7 && !entropyTested r.samples) then failStep (bootStep s) r.sub.toNat r.detail.toNat s
    else stepTo (bootStep s + 1)
      (if bootStep s == 3 then loadIdentity s else if bootStep s == 7 then entropyStarts s else s) := by
  have hne : ∀ k, 9 ≤ k → (bootStep s == k) = false := fun k hk => beq_false_of_ne (by omega)
  simp only [stepDone, hne 10 (by omega), hne 11 (by omega), hne 12 (by omega), hne 13 (by omega), hne 9 (by omega),
    Bool.false_eq_true, if_false]

theorem stepDone_nine (hn : bootStep s = 9) : stepDone r s =
    if r.pass then
      if bootSource s == 2 then enterHolding 0x0F (flashFound (r.detail.toNat % 256) s)
      else imageStep (flashFound (r.detail.toNat % 256) s)
    else if bootSource s == 1 then imageStep (wr F.SELFTEST_FLAGS_FLASH_FAIL 1 (noteFailure r.sub.toNat r.detail.toNat s))
    else failStep 0x09 r.sub.toNat r.detail.toNat s := by
  simp [stepDone, hn]

theorem stepDone_ten (hn : bootStep s = 10) : stepDone r s = if bootSource s == 1 then s else flashImage s := by
  simp [stepDone, hn]

theorem stepDone_eleven (hn : bootStep s = 11) : stepDone r s =
    if r.pass || lanesTested (r.detail.toNat % 256) s == 0 then stepTo 0x0C s
    else if lanesTested (r.detail.toNat % 256) s % 4 != 0 then
      failStep 0x0B r.sub.toNat (lanesTested (r.detail.toNat % 256) s) (lanesFailed (lanesTested (r.detail.toNat % 256) s) s)
    else stepTo 0x0C (lanesFailed (lanesTested (r.detail.toNat % 256) s)
      (noteFailure r.sub.toNat (lanesTested (r.detail.toNat % 256) s) s)) := by
  simp [stepDone, hn]

theorem stepDone_twelve (hn : bootStep s = 12) : stepDone r s =
    stepTo 0x0D (if r.pass then s else afeFailed (noteFailure r.sub.toNat r.detail.toNat s)) := by
  simp [stepDone, hn]

theorem stepDone_thirteen (hn : bootStep s = 13) : stepDone r s =
    if r.pass then setBoot (fun b => { b with passed := true }) s else failStep 0x0D r.sub.toNat r.detail.toNat s := by
  simp [stepDone, hn]

/-! ### The image step -/

/-- R45: without GO the image step waits for it. -/
theorem hostLoad_waits (h : on F.BOOT_LOAD_CTRL_GO s = false) : hostLoad s = s := if_pos (by simp [h])

theorem bootSource_congr {x : State} (h : reg R.BOOT_STATUS x = reg R.BOOT_STATUS s) : bootSource x = bootSource s :=
  rd_of_reg F.BOOT_STATUS_SOURCE h

theorem imageStep_flash (h : bootSource s ≠ 1) : imageStep s = stepTo 0x0A s := if_neg (by simpa using h)

theorem imageStep_host (h : bootSource s = 1) (hgo : on F.BOOT_LOAD_CTRL_GO s = false) :
    imageStep s = setBoot (fun b => { b with waitGo := true }) (stepTo 0x0A s) := by
  have hgo' : on F.BOOT_LOAD_CTRL_GO (setBoot (fun b => { b with waitGo := true }) (stepTo 0x0A s)) = false :=
    (on_of_rd ((keeps_stepTo_self 0x0A).rd F.BOOT_LOAD_CTRL_GO (by decide +kernel))).trans hgo
  exact (if_pos (by simp [h])).trans (hostLoad_waits hgo')

theorem bootSource_flashFound (n : Nat) : bootSource (flashFound n s) = bootSource s :=
  bootSource_congr ((keeps_flashFound (A := Reach.T.FLASH_INFO) n rfl (.refl _ s)).rest.regs _ (by decide +kernel))

theorem go_flashFound (n : Nat) : on F.BOOT_LOAD_CTRL_GO (flashFound n s) = on F.BOOT_LOAD_CTRL_GO s :=
  on_of_rd ((keeps_flashFound (A := Reach.T.FLASH_INFO) n rfl (.refl _ s)).rd _ (by decide +kernel))

theorem flashFound_info {n : Nat} (hn : n < 256) : rd F.FLASH_INFO_DENSITY_LOG2 (flashFound n s) = n ∧
    (on F.FLASH_INFO_LAYOUT_OK (flashFound n s) = true ↔ 22 ≤ n) := by
  unfold flashFound
  constructor
  · rw [rd_wr_other _ _ _ _ (by decide) (by decide)]
    exact rd_wr_fits (by decide) hn
  · rw [on, rd_wr_fits (by decide) (by cases decide (22 ≤ n) <;> decide)]
    by_cases h : 22 ≤ n <;> simp [h, b2n]

/-! ### The clauses of O12 -/

section

variable (ht : s.term = .selftest) (hp : s.boot.passed = false)

include ht hp

theorem earlyStep_passes (hn : bootStep s ≤ 8) (hr : r.pass = true) (hent : bootStep s = 7 → entropyTested r.samples = true) :
    ∃ t, exec (.selftestStepDone r) s = .next t ∧ t.term = .selftest ∧ bootStep t = bootStep s + 1 := by
  have hpass : (!r.pass || (bootStep s == 7 && !entropyTested r.samples)) = false := by
    by_cases h7 : bootStep s = 7
    · simp [hr, hent h7]
    · simp [hr, h7]
  have hkeep : Keeps 0xc00000000000000002000 s
      (if bootStep s == 3 then loadIdentity s else if bootStep s == 7 then entropyStarts s else s) :=
    keeps_ite (fun _ => keeps_loadIdentity rfl (.refl _ s)) fun _ =>
      keeps_ite (fun _ => keeps_entropyStarts rfl (.refl _ s)) fun _ => .refl _ s
  refine ⟨_, exec_stepDone ht hp, ?_⟩
  rw [stepDone_early hn, hpass]
  exact ⟨(term_stepTo _).trans ((hkeep.rest.term rfl).trans ht), bootStep_stepTo (by omega)⟩

theorem step_fails (hn : bootStep s ≤ 8 ∨ (bootStep s = 9 ∧ bootSource s ≠ 1) ∨ bootStep s = 13)
    (hr : r.pass = false ∨ (bootStep s = 7 ∧ entropyTested r.samples = false)) :
    ∃ t, exec (.selftestStepDone r) s = .next t ∧ t.term = .holding ∧ bootStep t = bootStep s ∧
      rd F.SELFTEST_RESULT_HOLD_CODE t = bootStep s ∧ rd F.SELFTEST_RESULT_SUBCODE t = r.sub.toNat ∧
      rd F.SELFTEST_RESULT_DETAIL t = r.detail.toNat := by
  have hfail : stepDone r s = failStep (bootStep s) r.sub.toNat r.detail.toNat s := by
    rcases hn with hn | ⟨hn, hsrc⟩ | hn
    · have hcond : (!r.pass || (bootStep s == 7 && !entropyTested r.samples)) = true := by
        rcases hr with hr | ⟨h7, hent⟩
        · simp [hr]
        · simp [h7, hent]
      rw [stepDone_early hn, hcond]
      rfl
    · rw [stepDone_nine hn, hr.resolve_right (by omega), if_neg (by decide), if_neg (by simpa using hsrc), hn]
    · rw [stepDone_thirteen hn, hr.resolve_right (by omega), if_neg (by decide), hn]
  obtain ⟨hterm, hcode, hstep, hsub, hdet⟩ :=
    failStep_end (s := s) (show bootStep s < 256 by omega) r.sub.isLt r.detail.isLt
  exact ⟨_, (exec_stepDone ht hp).trans (congrArg _ hfail), hterm, hstep, hcode, hsub, hdet⟩

theorem factoryHold_holds (hn : bootStep s = 9) (hr : r.pass = true) (hsrc : bootSource s = 2) :
    ∃ t, exec (.selftestStepDone r) s = .next t ∧ t.term = .holding ∧ rd F.SELFTEST_RESULT_HOLD_CODE t = 0x0F := by
  refine ⟨_, exec_stepDone ht hp, ?_⟩
  rw [stepDone_nine hn, if_pos hr, if_pos (by simp [hsrc])]
  obtain ⟨hterm, hcode, -⟩ := enterHolding_end (s := flashFound (r.detail.toNat % 256) s) 0x0F (by decide)
  exact ⟨hterm, hcode⟩

theorem flashFound_goesOn (hn : bootStep s = 9) (hr : r.pass = true) (h2 : bootSource s ≠ 2) (h1 : bootSource s ≠ 1) :
    ∃ t, exec (.selftestStepDone r) s = .next t ∧ t.term = .selftest ∧ bootStep t = 10 ∧
      rd F.FLASH_INFO_DENSITY_LOG2 t = r.detail.toNat % 256 ∧
      (on F.FLASH_INFO_LAYOUT_OK t = true ↔ 22 ≤ r.detail.toNat % 256) := by
  have hdone : stepDone r s = stepTo 0x0A (flashFound (r.detail.toNat % 256) s) := by
    rw [stepDone_nine hn, if_pos hr, if_neg (by simpa using h2), imageStep_flash (by rwa [bootSource_flashFound])]
  obtain ⟨hdens, hok⟩ := flashFound_info (s := s) (Nat.mod_lt r.detail.toNat (show 0 < 256 by decide))
  have hkeep := keeps_stepTo_self (s := flashFound (r.detail.toNat % 256) s) 0x0A
  refine ⟨_, (exec_stepDone ht hp).trans (congrArg _ hdone), (term_stepTo _).trans ?_, bootStep_stepTo (by decide),
    (hkeep.rd _ (by decide +kernel)).trans hdens, ?_⟩
  · exact ((keeps_flashFound (A := Reach.T.FLASH_INFO) _ rfl (.refl _ s)).rest.term rfl).trans ht
  · rw [on_of_rd (hkeep.rd F.FLASH_INFO_LAYOUT_OK (by decide +kernel)), hok]

/-- R46: with host load a flash that failed is flagged, and does not hold the terminal. -/
theorem hostLoad_goesOn (hn : bootStep s = 9) (h1 : bootSource s = 1) (hgo : on F.BOOT_LOAD_CTRL_GO s = false) :
    ∃ t, exec (.selftestStepDone r) s = .next t ∧ t.term = .selftest ∧ bootStep t = 10 ∧ t.boot.waitGo = true ∧
      (r.pass = false → rd F.SELFTEST_FLAGS_FLASH_FAIL t = 1 ∧ rd F.SELFTEST_RESULT_SUBCODE t = r.sub.toNat) := by
  have hwait : ∀ x, x.term = s.term → bootSource x = 1 → on F.BOOT_LOAD_CTRL_GO x = false →
      (imageStep x).term = .selftest ∧ bootStep (imageStep x) = 10 ∧ (imageStep x).boot.waitGo = true := fun x hx hsrc hg => by
    rw [imageStep_host hsrc hg]
    exact ⟨(term_stepTo _).trans (hx.trans ht), bootStep_stepTo (by decide), rfl⟩
  refine ⟨_, exec_stepDone ht hp, ?_⟩
  rw [stepDone_nine hn, h1]
  cases hr : r.pass with
  | true =>
    rw [if_pos rfl, if_neg (by decide)]
    obtain ⟨hterm, hstep, hw⟩ := hwait _
      ((keeps_flashFound (A := Reach.T.FLASH_INFO) (r.detail.toNat % 256) rfl (.refl _ s)).rest.term rfl)
      ((bootSource_flashFound _).trans h1) ((go_flashFound _).trans hgo)
    exact ⟨hterm, hstep, hw, fun h => by cases h⟩
  | false =>
    rw [if_neg (by decide), if_pos (by decide)]
    have hnote : Keeps (Reach.T.SELFTEST_RESULT ||| Reach.T.SELFTEST_FLAGS) s
        (wr F.SELFTEST_FLAGS_FLASH_FAIL 1 (noteFailure r.sub.toNat r.detail.toNat s)) :=
      keeps_wr _ _ (cov_SELFTEST_FLAGS _ rfl rfl) (keeps_noteFailure _ _ rfl (.refl _ s))
    have hsrc : bootSource (wr F.SELFTEST_FLAGS_FLASH_FAIL 1 (noteFailure r.sub.toNat r.detail.toNat s)) = 1 :=
      (bootSource_congr (hnote.rest.regs _ (by decide +kernel))).trans h1
    have hg := (on_of_rd (hnote.rd F.BOOT_LOAD_CTRL_GO (by decide +kernel))).trans hgo
    obtain ⟨hterm, hstep, hw⟩ := hwait _ (hnote.rest.term rfl) hsrc hg
    refine ⟨hterm, hstep, hw, fun _ => ?_⟩
    rw [imageStep_host hsrc hg]
    refine ⟨?_, ?_⟩
    · rw [rd_setBoot, (keeps_stepTo_self _).rd _ (by decide +kernel), rd_wr_same _ _ _ (by decide)]
      rfl
    · rw [rd_setBoot, subcode_stepTo, rd_wr_other _ _ _ _ (by decide) (by decide)]
      exact (noteFailure_end r.sub.isLt r.detail.isLt).2.1

omit ht hp in
theorem image_stepTo (b : Bool) (m : List Byte) (x : State) (hx : x.term = .selftest) :
    (stepTo 0x0B (bootImage m b x)).term = .selftest ∧ bootStep (stepTo 0x0B (bootImage m b x)) = 11 ∧
    rd F.BOOT_STATUS_IMAGE (stepTo 0x0B (bootImage m b x)) = b2n b := by
  have himg : Keeps (Reach.T.IMAGE_RUNNING ||| Reach.T.glean) (wr F.BOOT_STATUS_IMAGE (b2n b) x) (bootImage m b x) :=
    keeps_setGlean _ rfl (fun h => h) (keeps_wr _ _ (cov_IMAGE_RUNNING _ rfl rfl) (.refl _ _))
  refine ⟨(term_stepTo _).trans ((himg.rest.term rfl).trans hx), bootStep_stepTo (by decide), ?_⟩
  rw [(keeps_stepTo_self _).rd _ (by decide +kernel), himg.rd _ (by decide +kernel), rd_wr_same _ _ _ (by decide)]
  cases b <;> rfl

/-- R44, R430: the image step with flash or hostless boot, once the loader has acted. -/
theorem flashImage_boots (hn : bootStep s = 10) (hsrc : bootSource s ≠ 1) :
    ∃ t s1, exec (.selftestStepDone r) s = .next t ∧ s1 = (if layoutOk s = true then loaderActs s else s) ∧
      (verifySlot fPRIMARY s1 = 0 → t.term = .selftest ∧ bootStep t = 11 ∧ rd F.BOOT_STATUS_IMAGE t = 0) ∧
      (verifySlot fPRIMARY s1 ≠ 0 → layoutOk s1 = true → verifySlot fSTAGING s1 = 0 →
        t.term = .selftest ∧ bootStep t = 11 ∧ rd F.BOOT_STATUS_IMAGE t = 1) ∧
      (verifySlot fPRIMARY s1 ≠ 0 → layoutOk s1 = false ∨ verifySlot fSTAGING s1 ≠ 0 →
        t.term = .holding ∧ rd F.SELFTEST_RESULT_HOLD_CODE t = 10) := by
  have hdone : stepDone r s = flashImage s := (stepDone_ten hn).trans (if_neg (by simpa using hsrc))
  refine ⟨_, _, (exec_stepDone ht hp).trans (congrArg _ hdone), rfl, ?_⟩
  unfold flashImage
  dsimp only
  have hx : (if layoutOk s = true then loaderActs s else s).term = .selftest :=
    ((keeps_ite (A := Reach.T.flash) (fun _ => keeps_loaderActs rfl (.refl _ s)) (fun _ => .refl _ s)).rest.term rfl).trans ht
  generalize (if layoutOk s = true then loaderActs s else s) = x at hx ⊢
  have hheld : ∀ sub, (failStep 0x0A sub 0 x).term = .holding ∧ rd F.SELFTEST_RESULT_HOLD_CODE (failStep 0x0A sub 0 x) = 10 :=
    fun sub => by
      obtain ⟨hterm, hcode, -⟩ := enterHolding_end (s := noteFailure sub 0 x) 0x0A (by decide)
      exact ⟨hterm, hcode⟩
  refine ⟨fun h0 => ?_, fun h0 hok hst => ?_, fun h0 hbad => ?_⟩
  · rw [if_pos (by simp [h0])]
    have himg : ∀ n m, Keeps Reach.T.IMAGE_RUNNING (bootImage m false x) (wr F.IMAGE_RUNNING_TRIAL n (bootImage m false x)) :=
      fun _ _ => keeps_wr _ _ (cov_IMAGE_RUNNING _ rfl rfl) (.refl _ _)
    have hrun : Keeps (Reach.T.IMAGE_RUNNING ||| Reach.T.glean) (wr F.BOOT_STATUS_IMAGE 0 x)
        (bootImage (slotManifest fPRIMARY x) false x) :=
      keeps_setGlean _ rfl (fun h => h) (keeps_wr _ _ (cov_IMAGE_RUNNING _ rfl rfl) (.refl _ _))
    refine ⟨(term_stepTo _).trans ((hrun.rest.term rfl).trans hx), bootStep_stepTo (by decide), ?_⟩
    rw [(keeps_stepTo_self _).rd _ (by decide +kernel), (himg _ _).rd _ (by decide +kernel), hrun.rd _ (by decide +kernel),
      rd_wr_same _ _ _ (by decide)]
    rfl
  · rw [if_neg (by simpa using h0), if_neg (by simp [hok]), if_pos (by simp [hst])]
    exact image_stepTo true _ _ hx
  · rw [if_neg (by simpa using h0)]
    rcases hbad with hok | hst
    · rw [if_pos (by simp [hok])]
      exact hheld _
    · split
      · exact hheld _
      · rw [if_neg (by simpa using hst)]
        exact hheld _

theorem lanesStep_passes (hn : bootStep s = 11) (hr : r.pass = true ∨ lanesTested (r.detail.toNat % 256) s = 0) :
    ∃ t, exec (.selftestStepDone r) s = .next t ∧ t.term = .selftest ∧ bootStep t = 12 := by
  refine ⟨_, exec_stepDone ht hp, ?_⟩
  rw [stepDone_eleven hn, if_pos (by rcases hr with hr | hr <;> simp [hr])]
  exact ⟨(term_stepTo _).trans ht, bootStep_stepTo (by decide)⟩

omit ht hp in
/-- Lane 1 is not tested on a single-sided terminal; the other bits stand. -/
theorem lanesTested_ports {bits : Nat} (hb : bits < 256) : lanesTested bits s < 256 ∧ lanesTested bits s / 4 = bits / 4 := by
  unfold lanesTested
  split <;> omega

omit ht hp in
theorem lanesFailed_flags {bits : Nat} (hb : bits < 256) : rd F.SELFTEST_FLAGS_LANE_FAIL (lanesFailed bits s) = bits ∧
    rd (F.PWR_TARGET_PORT_OFF dLAN) (lanesFailed bits s) = bits / 4 ∧
    rd (F.PWR_TARGET_PORT_HELD dLAN) (lanesFailed bits s) = bits / 4 := by
  have hports : bits / 4 < 64 := by omega
  unfold lanesFailed
  rw [rd_setPwr, rd_setPwr, rd_setPwr]
  simp (disch := decide) only [rd_wr_other]
  exact ⟨rd_wr_fits (by decide) hb, rd_wr_fits (by decide) hports, rd_wr_fits (by decide) hports⟩

theorem lanesStep_fails (hn : bootStep s = 11) (hr : r.pass = false) (hbits : lanesTested (r.detail.toNat % 256) s ≠ 0) :
    ∃ t, exec (.selftestStepDone r) s = .next t ∧
      rd F.SELFTEST_FLAGS_LANE_FAIL t = lanesTested (r.detail.toNat % 256) s ∧
      rd (F.PWR_TARGET_PORT_OFF dLAN) t = r.detail.toNat % 256 / 4 ∧
      rd (F.PWR_TARGET_PORT_HELD dLAN) t = r.detail.toNat % 256 / 4 ∧
      (lanesTested (r.detail.toNat % 256) s % 4 ≠ 0 → t.term = .holding ∧ rd F.SELFTEST_RESULT_HOLD_CODE t = 11) ∧
      (lanesTested (r.detail.toNat % 256) s % 4 = 0 → t.term = .selftest ∧ bootStep t = 12) := by
  obtain ⟨hlt, hports⟩ := lanesTested_ports (s := s) (Nat.mod_lt r.detail.toNat (show 0 < 256 by decide))
  refine ⟨_, exec_stepDone ht hp, ?_⟩
  rw [stepDone_eleven hn, if_neg (by simp [hr, hbits]), ← hports]
  generalize lanesTested (r.detail.toNat % 256) s = bits at hlt hbits ⊢
  split
  · next hspan =>
    have hk : Keeps (stepReach ||| termReach) (lanesFailed bits s) (failStep 0x0B r.sub.toNat bits (lanesFailed bits s)) :=
      keeps_failStep _ _ _ rfl (.refl _ _)
    obtain ⟨hfail, hoff, hheld⟩ := lanesFailed_flags (s := s) hlt
    obtain ⟨hterm, hcode, -⟩ := enterHolding_end (s := noteFailure r.sub.toNat bits (lanesFailed bits s)) 0x0B (by decide)
    refine ⟨(hk.rd _ (by decide +kernel)).trans hfail, (hk.rd _ (by decide +kernel)).trans hoff,
      (hk.rd _ (by decide +kernel)).trans hheld, fun _ => ⟨hterm, hcode⟩, fun h => ?_⟩
    simp [h] at hspan
  · next hspan =>
    obtain ⟨hfail, hoff, hheld⟩ := lanesFailed_flags (s := noteFailure r.sub.toNat bits s) hlt
    have hk := keeps_stepTo_self (s := lanesFailed bits (noteFailure r.sub.toNat bits s)) 0x0C
    refine ⟨(hk.rd _ (by decide +kernel)).trans hfail, (hk.rd _ (by decide +kernel)).trans hoff,
      (hk.rd _ (by decide +kernel)).trans hheld, fun h => absurd (by simpa using hspan) h,
      fun _ => ⟨(term_stepTo _).trans ht, bootStep_stepTo (by decide)⟩⟩

theorem afeStep_passes (hn : bootStep s = 12) (hr : r.pass = true) :
    ∃ t, exec (.selftestStepDone r) s = .next t ∧ t.term = .selftest ∧ bootStep t = 13 := by
  refine ⟨_, exec_stepDone ht hp, ?_⟩
  rw [stepDone_twelve hn, if_pos hr]
  exact ⟨(term_stepTo _).trans ht, bootStep_stepTo (by decide)⟩

theorem afeStep_fails (hn : bootStep s = 12) (hr : r.pass = false) :
    ∃ t, exec (.selftestStepDone r) s = .next t ∧ t.term = .selftest ∧ bootStep t = 13 ∧
      rd F.SELFTEST_FLAGS_AFE_FAIL t = 1 ∧ rd (F.PWR_TARGET_TARGET dAFE) t = 2 ∧ rd (F.PWR_TARGET_HELD dAFE) t = 1 := by
  refine ⟨_, exec_stepDone ht hp, ?_⟩
  rw [stepDone_twelve hn, hr, if_neg (by decide)]
  have hk := keeps_stepTo_self (s := afeFailed (noteFailure r.sub.toNat r.detail.toNat s)) 0x0D
  refine ⟨(term_stepTo _).trans ht, bootStep_stepTo (by decide), ?_⟩
  rw [hk.rd _ (by decide +kernel), hk.rd _ (by decide +kernel), hk.rd _ (by decide +kernel)]
  unfold afeFailed
  simp (disch := decide) only [rd_wr_other]
  exact ⟨rd_wr_fits (by decide) (by decide), rd_wr_fits (by decide) (by decide), rd_wr_fits (by decide) (by decide)⟩

theorem lastStep_passes (hn : bootStep s = 13) (hr : r.pass = true) :
    ∃ t, exec (.selftestStepDone r) s = .next t ∧ t.boot.passed = true ∧ t.term = .selftest :=
  ⟨_, (exec_stepDone ht hp).trans (congrArg _ ((stepDone_thirteen hn).trans (if_pos hr))), rfl, ht⟩

end

/-- Settles O12, step by step. -/
theorem selfTestRunsInCodeOrder : Obligations.SelfTestRunsInCodeOrder := by
  rintro r s n ht hp rfl
  exact ⟨earlyStep_passes ht hp, step_fails ht hp, factoryHold_holds ht hp, flashFound_goesOn ht hp, hostLoad_goesOn ht hp,
    flashImage_boots ht hp, lanesStep_passes ht hp, lanesStep_fails ht hp, afeStep_passes ht hp, afeStep_fails ht hp,
    lastStep_passes ht hp⟩

/-! ### Host load (R45) -/

def bootLoadRow : RegRow := ⟨0x48, 0x0, 1, 0x0, 0xFFF, 0x0, 0x0, 0x0, false⟩

/-- BOOT_LOAD_CTRL may be written in every state but RESET. -/
theorem write8_bootLoad {p : Path} {v : Word} (h : s.term ≠ .reset) : ∃ b, write8 p R.BOOT_LOAD_CTRL v s =
    clearHold p (bootLoadWrite (v &&& 0xFFF) (setHold p R.BOOT_LOAD_CTRL b s)) := by
  have hm : mayWriteReg R.BOOT_LOAD_CTRL s = true := by
    rw [mayWriteReg, regsAnswer_iff.mpr h, show holdWritable R.BOOT_LOAD_CTRL = true from rfl]
    simp
  exact write8_hooked (row := bootLoadRow) (f := fun v _ => bootLoadWrite v) (by rfl) hm rfl rfl (by decide) (fun _ _ => rfl)

/-- GO and LEN as a GO leaves them. -/
def bootLoadSet (len : Nat) (s : State) : State := wr F.BOOT_LOAD_CTRL_GO 1 (wr F.BOOT_LOAD_CTRL_LEN len s)

theorem bootLoadWrite_go (v : Word) : bootLoadWrite ((v ||| 1) &&& 0xFFF) s = hostLoad (bootLoadSet (fget v 11 1) s) := by
  have hlen : fget ((v ||| 1) &&& 0xFFF) 11 1 = fget v 11 1 :=
    (fget_and (by decide) (by decide)).trans (fget_or_one (by decide))
  have hgo : fget ((v ||| 1) &&& 0xFFF) 0 0 = 1 := (fget_and (by decide) (by decide)).trans (fget_or_one_zero v)
  rw [bootLoadWrite, hlen, hgo]
  rfl

theorem exec_bootLoadGo (p : Path) (v : Word) (h : s.term ≠ .reset) : ∃ b, exec (.bootLoadGo p v) s =
    .next (clearHold p (hostLoad (bootLoadSet (fget v 11 1) (setHold p R.BOOT_LOAD_CTRL b s)))) := by
  obtain ⟨b, hb⟩ := write8_bootLoad (p := p) (v := v ||| 1) h
  exact ⟨b, congrArg Host.Outcome.next (hb.trans (congrArg (clearHold p) (bootLoadWrite_go v)))⟩

theorem bootLoadSet_fields {len : Nat} (hlen : len < 2048) : rd F.BOOT_LOAD_CTRL_GO (bootLoadSet len s) = 1 ∧
    rd F.BOOT_LOAD_CTRL_LEN (bootLoadSet len s) = len := by
  refine ⟨rd_wr_fits (by decide) (by decide), ?_⟩
  rw [bootLoadSet, rd_wr_other _ _ _ _ (by decide) (by decide)]
  exact rd_wr_fits (by decide) hlen

section

variable {len : Nat} (ht : s.term = .selftest) (hw : s.boot.waitGo = true) (hlen : len < 2048)

include ht hw hlen

/-- The read of the image is asked for. -/
theorem hostLoad_reads (hl : 1 ≤ len) (hh : len ≤ 1024) : hostLoad (bootLoadSet len s) =
    emit (.hostRead (rd F.BOOT_LOAD_ADDR_PAGE s * 4096) (len * 1024))
      (setBoot (fun b => { b with waitGo := false }) (bootLoadSet len s)) := by
  obtain ⟨hgo, hlen⟩ := bootLoadSet_fields (s := s) hlen
  have hon : on F.BOOT_LOAD_CTRL_GO (bootLoadSet len s) = true := by simp [on, hgo]
  have hpage : rd F.BOOT_LOAD_ADDR_PAGE (setBoot (fun b => { b with waitGo := false }) (bootLoadSet len s)) =
      rd F.BOOT_LOAD_ADDR_PAGE s := by
    rw [rd_setBoot, bootLoadSet, rd_wr_other _ _ _ _ (by decide) (by decide), rd_wr_other _ _ _ _ (by decide) (by decide)]
  have hterm : (bootLoadSet len s).term = .selftest := ht
  have hwait : (bootLoadSet len s).boot.waitGo = true := hw
  simp [hostLoad, hterm, hwait, hon, hlen, hpage, show len ≠ 0 by omega, show ¬ 1024 < len by omega]

/-- A length of 0 or over 1024 KiB fails the step. -/
theorem hostLoad_refuses (hbad : len = 0 ∨ 1024 < len) : hostLoad (bootLoadSet len s) =
    failStep 0x0A 3 0 (wr F.BOOT_LOAD_CTRL_GO 0 (setBoot (fun b => { b with waitGo := false }) (bootLoadSet len s))) := by
  obtain ⟨hgo, hlen⟩ := bootLoadSet_fields (s := s) hlen
  have hon : on F.BOOT_LOAD_CTRL_GO (bootLoadSet len s) = true := by simp [on, hgo]
  have hterm : (bootLoadSet len s).term = .selftest := ht
  have hwait : (bootLoadSet len s).boot.waitGo = true := hw
  simp [hostLoad, hterm, hwait, hon, hlen, hbad]

end

section

variable (p : Path) (v : Word) (ht : s.term = .selftest) (hw : s.boot.waitGo = true)

include ht hw

theorem bootLoadGo_reads (hl : 1 ≤ fget v 11 1) (hh : fget v 11 1 ≤ 1024) :
    ∃ t, exec (.bootLoadGo p v) s = .next t ∧ t.boot.waitGo = false ∧ rd F.BOOT_LOAD_CTRL_GO t = 1 ∧
      rd F.BOOT_LOAD_CTRL_LEN t = fget v 11 1 ∧ t.term = .selftest ∧
      t.out = .hostRead (rd F.BOOT_LOAD_ADDR_PAGE s * 4096) (fget v 11 1 * 1024) :: s.out := by
  obtain ⟨b, hexec⟩ := exec_bootLoadGo (s := s) p v (by simp [ht])
  have hhold := keeps_setHold_self (s := s) p R.BOOT_LOAD_CTRL b
  generalize setHold p R.BOOT_LOAD_CTRL b s = x at hexec hhold
  have hread := hostLoad_reads (s := x) ((hhold.rest.term rfl).trans ht) ((congrArg BootSt.waitGo (hhold.rest.boot rfl)).trans hw)
    (fget_lt v 11 1) hl hh
  obtain ⟨hgo, hlen⟩ := bootLoadSet_fields (s := x) (fget_lt v 11 1)
  have hclear := keeps_clearHold_self (s := hostLoad (bootLoadSet (fget v 11 1) x)) p
  have hrd : ∀ f : Fld, f.off = R.BOOT_LOAD_CTRL →
      rd f (clearHold p (hostLoad (bootLoadSet (fget v 11 1) x))) = rd f (bootLoadSet (fget v 11 1) x) := fun f hf => by
    rw [hclear.rd f (by rw [hf]; decide +kernel), hread]
    rfl
  refine ⟨_, hexec, ?_, (hrd _ rfl).trans hgo, (hrd _ rfl).trans hlen, ?_, ?_⟩
  · rw [hclear.rest.boot rfl, hread]
    rfl
  · rw [hclear.rest.term rfl, hread]
    exact (hhold.rest.term rfl).trans ht
  · rw [hclear.rest.out rfl, hread, ← hhold.rd F.BOOT_LOAD_ADDR_PAGE (by decide +kernel), ← hhold.rest.out rfl]
    rfl

theorem bootLoadGo_refuses (hbad : fget v 11 1 = 0 ∨ 1024 < fget v 11 1) :
    ∃ t, exec (.bootLoadGo p v) s = .next t ∧ t.term = .holding ∧ rd F.SELFTEST_RESULT_HOLD_CODE t = 10 ∧
      rd F.SELFTEST_RESULT_SUBCODE t = 3 ∧ t.out = s.out := by
  obtain ⟨b, hexec⟩ := exec_bootLoadGo (s := s) p v (by simp [ht])
  have hhold := keeps_setHold_self (s := s) p R.BOOT_LOAD_CTRL b
  generalize setHold p R.BOOT_LOAD_CTRL b s = x at hexec hhold
  have hfail := hostLoad_refuses (s := x) ((hhold.rest.term rfl).trans ht)
    ((congrArg BootSt.waitGo (hhold.rest.boot rfl)).trans hw) (fget_lt v 11 1) hbad
  have hclear := keeps_clearHold_self (s := hostLoad (bootLoadSet (fget v 11 1) x)) p
  have hout : (hostLoad (bootLoadSet (fget v 11 1) x)).out = x.out :=
    (congrArg State.out hfail).trans ((keeps_failStep (A := stepReach ||| termReach) _ _ _ rfl (.refl _ _)).rest.out rfl)
  obtain ⟨hterm, hcode, -, hsub, -⟩ := failStep_end
    (s := wr F.BOOT_LOAD_CTRL_GO 0 (setBoot (fun b => { b with waitGo := false }) (bootLoadSet (fget v 11 1) x)))
    (n := 0x0A) (sub := 3) (det := 0) (by decide) (by decide) (by decide)
  rw [← hfail] at hterm hcode hsub
  exact ⟨_, hexec, (hclear.rest.term rfl).trans hterm, (hclear.rd _ (by decide +kernel)).trans hcode,
    (hclear.rd _ (by decide +kernel)).trans hsub, (hclear.rest.out rfl).trans (hout.trans (hhold.rest.out rfl))⟩

end

theorem hostLoading_term (h : hostLoading s = true) : s.term = .selftest ∧ bootStep s = 10 := by
  simp only [hostLoading, Bool.and_eq_true, beq_iff_eq] at h
  exact ⟨h.1.1.1.1, h.1.1.1.2⟩

theorem imageLoadDone_cut (c : BitVec 4) (h : hostLoading s = true) : ∃ t, exec (.imageLoadDone (.err c)) s = .next t ∧
    t.boot.waitGo = true ∧ rd F.BOOT_LOAD_CTRL_GO t = 0 ∧ rd F.SELFTEST_RESULT_SUBCODE t = 5 ∧
    rd F.SELFTEST_RESULT_DETAIL t = c.toNat ∧ t.term = .selftest := by
  have hc := c.isLt
  obtain ⟨-, hsub, hdet⟩ := noteFailure_end (s := wr F.BOOT_LOAD_CTRL_GO 0 s) (sub := 5) (det := c.toNat) (by decide) (by omega)
  have hnote : Keeps Reach.T.SELFTEST_RESULT (wr F.BOOT_LOAD_CTRL_GO 0 s) (noteFailure 5 c.toNat (wr F.BOOT_LOAD_CTRL_GO 0 s)) :=
    keeps_noteFailure _ _ rfl (.refl _ _)
  refine ⟨loadCut c.toNat s, congrArg Host.Outcome.next (if_neg (by simp [h])), rfl, ?_, ?_, ?_, (hostLoading_term h).1⟩
  all_goals rw [loadCut, rd_setBoot]
  · rw [hnote.rd _ (by decide +kernel)]
    exact rd_wr_fits (by decide) (by decide)
  · exact hsub
  · exact hdet

theorem imageLoadDone_judged (b : List Byte) (h : hostLoading s = true) : ∃ t, exec (.imageLoadDone (.ok b)) s = .next t ∧
    rd F.BOOT_LOAD_CTRL_GO t = 0 ∧
    ∀ v, v = verifyImage (slice b 0 384) (slice b 384 (bodyLen (slice b 0 384))) (wr F.BOOT_LOAD_CTRL_GO 0 s) →
      (v = 0 → t.term = .selftest ∧ bootStep t = 11 ∧ rd F.BOOT_STATUS_IMAGE t = 0) ∧
      (v ≠ 0 → t.term = .holding ∧ rd F.SELFTEST_RESULT_HOLD_CODE t = 10 ∧ rd F.SELFTEST_RESULT_SUBCODE t = v % 256) := by
  have hgo : rd F.BOOT_LOAD_CTRL_GO (wr F.BOOT_LOAD_CTRL_GO 0 s) = 0 := rd_wr_fits (by decide) (by decide)
  refine ⟨_, congrArg Host.Outcome.next (if_neg (by simp [h])), ?_⟩
  dsimp only
  generalize verifyImage (slice b 0 384) (slice b 384 (bodyLen (slice b 0 384))) (wr F.BOOT_LOAD_CTRL_GO 0 s) = v
  by_cases hv : v = 0
  · rw [if_pos (by simp [hv])]
    have hboot : Keeps (stepReach ||| Reach.T.IMAGE_RUNNING ||| Reach.T.BOOT_STATUS ||| Reach.T.glean ||| Reach.T.freeCtr)
        (wr F.BOOT_LOAD_CTRL_GO 0 s)
        (stepTo 0x0B (bootImage (slice b 0 384) false (wr F.BOOT_LOAD_CTRL_GO 0 s))) :=
      keeps_stepTo _ rfl (keeps_bootImage _ _ rfl (.refl _ _))
    refine ⟨(hboot.rd _ (by decide +kernel)).trans hgo, fun w hw => ⟨fun _ => ?_, fun hne => absurd (hw.trans hv) hne⟩⟩
    exact image_stepTo false _ _ (hostLoading_term h).1
  · rw [if_neg (by simpa using hv)]
    have hfail : Keeps (stepReach ||| termReach) (wr F.BOOT_LOAD_CTRL_GO 0 s) (failStep 0x0A v 0 (wr F.BOOT_LOAD_CTRL_GO 0 s)) :=
      keeps_failStep _ _ _ rfl (.refl _ _)
    refine ⟨(hfail.rd _ (by decide +kernel)).trans hgo, fun w hw => ⟨fun h0 => absurd (hw.symm.trans h0) hv, fun _ => ?_⟩⟩
    obtain ⟨hterm, hcode, -, hsub, -⟩ := enterHolding_end (s := noteFailure v 0 (wr F.BOOT_LOAD_CTRL_GO 0 s)) 0x0A (by decide)
    refine ⟨hterm, hcode, hsub.trans ?_⟩
    rw [hw, noteFailure, rd_wr_other _ _ _ _ (by decide) (by decide), rd_wr_same _ _ _ (by decide)]
    rfl

/-! ### The flash bridge's data registers -/

theorem length_slice (bs : List Byte) (o n : Nat) : (slice bs o n).length = n := by
  simp only [slice, List.length_append, List.length_take, List.length_drop, List.length_replicate]
  omega

theorem slice_of_le {bs : List Byte} {o n : Nat} (h : o + n ≤ bs.length) : slice bs o n = (bs.drop o).take n := by
  rw [slice, show n - (bs.length - o) = 0 by omega, List.replicate_zero, List.append_nil]

theorem length_bytesBE (n v : Nat) : (bytesBE n v).length = n := by
  induction n generalizing v with
  | zero => rfl
  | succ n ih => exact congrArg (· + 1) (ih v)

/-- Five bytes laid into a word and read again. -/
theorem wordBytes_bytesWord {bs : List Byte} (h : bs.length = 5) : wordBytes (bytesWord bs) = bs := by
  obtain ⟨a, b, c, d, e, rfl⟩ : ∃ a b c d e, bs = [a, b, c, d, e] := by
    match bs, h with
    | [a, b, c, d, e], _ => exact ⟨a, b, c, d, e, rfl⟩
  have hb := fun x : Byte => x.isLt
  have := hb a; have := hb b; have := hb c; have := hb d; have := hb e
  simp only [wordBytes, bytesWord, beNat, bytesBE, List.take, List.cons_append, List.foldl_cons, List.foldl_nil,
    List.cons.injEq, and_true, BitVec.toNat_ofNat]
  refine ⟨?_, ?_, ?_, ?_, ?_⟩ <;> refine BitVec.eq_of_toNat_eq ?_ <;> rw [BitVec.toNat_ofNat] <;> omega

/-- Lengths of five, one after the other. -/
theorem flatMap_fives (bs : List Byte) (n : Nat) :
    (List.range n).flatMap (fun m => (bs.drop (5 * m)).take 5) = bs.take (5 * n) := by
  induction n with
  | zero => rfl
  | succ n ih =>
    rw [List.range_succ, List.flatMap_append, ih, show 5 * (n + 1) = 5 * n + 5 by omega, List.take_add]
    simp

/-- Place 35 bytes into the data registers. -/
def bridgeStore (all : List Byte) (s : State) : State :=
  eachOf (List.range 7) (fun s m => setReg (R.FLASH_BRIDGE_DATA m) (bytesWord (slice all (5 * m) 5)) s) s

theorem reg_bridgeStore (all : List Byte) : ∀ m < 7, reg (R.FLASH_BRIDGE_DATA m) (bridgeStore all s) =
    bytesWord (slice all (5 * m) 5) := by
  have hne : ∀ m < 7, ∀ k < 7, m ≠ k → R.FLASH_BRIDGE_DATA m ≠ R.FLASH_BRIDGE_DATA k := by decide
  have hstore : ∀ n ≤ 7, ∀ m < n, reg (R.FLASH_BRIDGE_DATA m) (eachOf (List.range n)
      (fun s m => setReg (R.FLASH_BRIDGE_DATA m) (bytesWord (slice all (5 * m) 5)) s) s) = bytesWord (slice all (5 * m) 5) := by
    intro n hn
    induction n with
    | zero => exact fun m hm => absurd hm (by omega)
    | succ n ih =>
      intro m hm
      rw [List.range_succ, eachOf, List.foldl_append]
      by_cases hmn : m = n
      · subst hmn
        exact reg_setReg_same _ _ _
      · exact (reg_setReg_other _ _ _ _ (hne m (by omega) n (by omega) hmn)).trans (ih (by omega) m (by omega))
  exact hstore 7 (Nat.le_refl 7)

theorem bridgeData_bridgeStore {all : List Byte} (h : all.length = 35) : bridgeData (bridgeStore all s) = all := by
  have hwords : ∀ m ∈ List.range 7, wordBytes (reg (R.FLASH_BRIDGE_DATA m) (bridgeStore all s)) = (all.drop (5 * m)).take 5 := by
    intro m hm
    have hm : m < 7 := List.mem_range.mp hm
    rw [reg_bridgeStore all m hm, wordBytes_bytesWord (length_slice _ _ _), slice_of_le (by omega)]
  rw [bridgeData, List.flatMap_congr hwords, flatMap_fives, List.take_of_length_le (by omega)]

theorem length_bridgeData : (bridgeData s).length = 35 := by
  simp [bridgeData, wordBytes, length_bytesBE, List.range_succ]

theorem bridgeData_congr {x : State} (h : ∀ m < 7, reg (R.FLASH_BRIDGE_DATA m) x = reg (R.FLASH_BRIDGE_DATA m) s) :
    bridgeData x = bridgeData s :=
  List.flatMap_congr fun m hm => congrArg wordBytes (h m (List.mem_range.mp hm))

theorem flashBridge_done (bytes : List Byte) (hbusy : on F.FLASH_BRIDGE_CTRL_BUSY s = true) (hlen : s.boot.bridgeLen ≤ 35) :
    ∃ t, exec (.flashBridgeDone bytes) s = .next t ∧ rd F.FLASH_BRIDGE_CTRL_BUSY t = 0 ∧
      slice (bridgeData t) 0 s.boot.bridgeLen = slice bytes 0 s.boot.bridgeLen ∧
      (bridgeData t).drop s.boot.bridgeLen = (bridgeData s).drop s.boot.bridgeLen := by
  have hlast : exec (.flashBridgeDone bytes) s = .next (wr F.FLASH_BRIDGE_CTRL_BUSY 0
      (bridgeStore (slice bytes 0 s.boot.bridgeLen ++ (bridgeData s).drop s.boot.bridgeLen) s)) :=
    congrArg Host.Outcome.next (if_neg (by simp [hbusy]))
  generalize s.boot.bridgeLen = n at hlen hlast ⊢
  have hn := length_slice bytes 0 n
  have hall : (slice bytes 0 n ++ (bridgeData s).drop n).length = 35 := by
    rw [List.length_append, hn, List.length_drop, length_bridgeData]
    omega
  have hdata : bridgeData (wr F.FLASH_BRIDGE_CTRL_BUSY 0 (bridgeStore (slice bytes 0 n ++ (bridgeData s).drop n) s)) =
      slice bytes 0 n ++ (bridgeData s).drop n :=
    (bridgeData_congr (by
      have : ∀ m < 7, R.FLASH_BRIDGE_DATA m ≠ R.FLASH_BRIDGE_CTRL := by decide
      exact fun m hm => reg_wr_other _ _ _ _ (this m hm))).trans (bridgeData_bridgeStore hall)
  refine ⟨_, hlast, rd_wr_fits (by decide) (by decide), ?_, ?_⟩
  · rw [hdata, slice_of_le (by rw [hall]; omega), List.drop_zero, List.take_left' hn]
  · rw [hdata, List.drop_left' hn]

/-! ### The flash bridge's GO (R54) -/

def flashBridgeRow : RegRow := ⟨0x58, 0x0, 1, 0x0, 0xFFFFFFE0, 0x0, 0x0, 0x1, false⟩

/-- FLASH_BRIDGE_CTRL as a GO of `v` stores it, BUSY and ERR standing. -/
def bridgeWord (v old : Word) : Word := mergeReg flashBridgeRow 0xFFFFFFE1 old (v ||| 1)

/-- FLASH_BRIDGE_CTRL may be written in every state but RESET. -/
theorem exec_flashBridgeGo (p : Path) (v : Word) (h : s.term ≠ .reset) : ∃ b, exec (.flashBridgeGo p v) s =
    .next (clearHold p (bridgeGo (setReg R.FLASH_BRIDGE_CTRL (bridgeWord v (reg R.FLASH_BRIDGE_CTRL s))
      (setHold p R.FLASH_BRIDGE_CTRL b s)))) := by
  have hm : mayWriteReg R.FLASH_BRIDGE_CTRL s = true := by
    rw [mayWriteReg, regsAnswer_iff.mpr h, show holdWritable R.FLASH_BRIDGE_CTRL = true from rfl]
    simp
  obtain ⟨b, hb⟩ := write8_hooked (row := flashBridgeRow) (f := fun v n => bridgeWrite n v) (p := p) (v := v ||| 1) (by rfl) hm
    rfl rfl (by decide) (fun _ _ => rfl)
  have hgo : fget ((v ||| 1) &&& 0xFFFFFFE1) 0 0 = 1 := (fget_and (by decide) (by decide)).trans (fget_or_one_zero v)
  refine ⟨b, congrArg Host.Outcome.next (hb.trans (congrArg (clearHold p) (if_pos ?_)))⟩
  exact beq_iff_eq.mpr hgo

/-- The fields written. -/
theorem bridgeWord_written {v old : Word} {hi lo : Nat} (hlo : 5 ≤ lo) (hhi : hi ≤ 31) :
    fget (bridgeWord v old) hi lo = fget v hi lo := by
  refine (fget_mergeReg_open rfl (by omega) fun i hi40 hl hh => ?_).trans (fget_or_one (by omega))
  have : ∀ i < 40, 5 ≤ i → i ≤ 31 → ((0xFFFFFFE1 : Word) &&& (flashBridgeRow.rw ||| flashBridgeRow.rws)).getLsbD i = true := by
    decide
  exact this i hi40 (by omega) (by omega)

theorem bridgeWord_kept {v old : Word} {hi lo : Nat} (hhi : hi ≤ 4) : fget (bridgeWord v old) hi lo = fget old hi lo := by
  refine fget_mergeReg_closed rfl (by omega) fun i hi40 _ hh => ?_
  have : ∀ i < 40, i ≤ 4 → ((0xFFFFFFE1 : Word) &&& (flashBridgeRow.rw ||| flashBridgeRow.rws)).getLsbD i = false := by
    decide
  exact this i hi40 (by omega)

/-- What follows the store of a GO of `v`. -/
structure BridgeSet (v : Word) (s x : State) : Prop where
  frame : Keeps (0xe ||| Reach.T.FLASH_BRIDGE_CTRL) s x
  written : ∀ f : Fld, f.off = R.FLASH_BRIDGE_CTRL → 5 ≤ f.lo → f.hi ≤ 31 → rd f x = fget v f.hi f.lo
  kept : ∀ f : Fld, f.off = R.FLASH_BRIDGE_CTRL → f.hi ≤ 4 → rd f x = rd f s

theorem flashBridgeGo_set (p : Path) (v : Word) (h : s.term ≠ .reset) : ∃ x, BridgeSet v s x ∧
    exec (.flashBridgeGo p v) s = .next (clearHold p (bridgeGo x)) := by
  obtain ⟨b, hexec⟩ := exec_flashBridgeGo (s := s) p v h
  refine ⟨_, ⟨?_, fun f hf hlo hhi => ?_, fun f hf hhi => ?_⟩, hexec⟩
  · exact keeps_setReg _ _ (cov_FLASH_BRIDGE_CTRL _ rfl rfl) (keeps_setHold _ _ _ rfl (.refl _ s))
  · rw [rd, hf, reg_setReg_same]
    exact bridgeWord_written hlo hhi
  · rw [rd, rd, hf, reg_setReg_same]
    exact bridgeWord_kept hhi

section

variable {p : Path} {v : Word}

theorem flashBridgeGo_busy (hr : regsAnswer s = true) (hb : on F.FLASH_BRIDGE_CTRL_BUSY s = true) :
    ∃ t, exec (.flashBridgeGo p v) s = .next t ∧ t.out = s.out ∧ t.flash = s.flash ∧ rd F.FLASH_BRIDGE_CTRL_BUSY t = 1 := by
  obtain ⟨x, ⟨hframe, -, hkept⟩, hexec⟩ := flashBridgeGo_set (s := s) p v (regsAnswer_iff.mp hr)
  have hbusy := hkept F.FLASH_BRIDGE_CTRL_BUSY rfl (by decide)
  have hgo : bridgeGo x = x := if_pos ((on_of_rd hbusy).trans hb)
  rw [hgo] at hexec
  have hclear := keeps_clearHold_self (s := x) p
  refine ⟨_, hexec, (hclear.rest.out rfl).trans (hframe.rest.out rfl), (hclear.rest.flash rfl).trans (hframe.rest.flash rfl),
    (hclear.rd _ (by decide +kernel)).trans (hbusy.trans ?_)⟩
  have hlt : rd F.FLASH_BRIDGE_CTRL_BUSY s < 2 := rd_lt _ _
  have hne : rd F.FLASH_BRIDGE_CTRL_BUSY s ≠ 0 := by simpa [on] using hb
  omega

/-- Is a GO of `v` one that HOLDING takes. -/
theorem bridgeOk_iff {x : State} (hx : BridgeSet v s x) (ht : s.term = .holding) : bridgeOk x = true ↔
    fget v 23 21 ∈ [0, 3, 4] ∧ fget v 16 11 ≤ 35 ∧ fget v 10 5 ≤ 35 := by
  have ha : rd F.FLASH_BRIDGE_CTRL_A x = fget v 23 21 := hx.written F.FLASH_BRIDGE_CTRL_A rfl (by decide) (by decide)
  have hw : rd F.FLASH_BRIDGE_CTRL_W x = fget v 16 11 := hx.written F.FLASH_BRIDGE_CTRL_W rfl (by decide) (by decide)
  have hr : rd F.FLASH_BRIDGE_CTRL_RLEN x = fget v 10 5 := hx.written F.FLASH_BRIDGE_CTRL_RLEN rfl (by decide) (by decide)
  have hterm : x.term = .holding := (hx.frame.rest.term rfl).trans ht
  simp [bridgeOk, ha, hw, hr, hterm, and_assoc, or_assoc]

theorem flashBridgeGo_refused (ht : s.term = .holding) (hb : on F.FLASH_BRIDGE_CTRL_BUSY s = false)
    (hbad : fget v 23 21 ∉ [0, 3, 4] ∨ 35 < fget v 16 11 ∨ 35 < fget v 10 5) :
    ∃ t, exec (.flashBridgeGo p v) s = .next t ∧ rd F.FLASH_BRIDGE_CTRL_ERR t = 1 ∧ rd F.FLASH_BRIDGE_CTRL_BUSY t = 0 ∧
      t.out = s.out ∧ t.flash = s.flash := by
  obtain ⟨x, hx, hexec⟩ := flashBridgeGo_set (s := s) p v (by simp [ht])
  have hbusy := hx.kept F.FLASH_BRIDGE_CTRL_BUSY rfl (by decide)
  have hok : bridgeOk x = false := by
    refine Bool.eq_false_iff.mpr fun h => ?_
    obtain ⟨ha, hw, hr⟩ := (bridgeOk_iff hx ht).mp h
    rcases hbad with hbad | hbad | hbad
    · exact hbad ha
    · omega
    · omega
  have hgo : bridgeGo x = wr F.FLASH_BRIDGE_CTRL_ERR 1 x := by simp [bridgeGo, on_of_rd hbusy, hb, hok]
  rw [hgo] at hexec
  have hclear := keeps_clearHold_self (s := wr F.FLASH_BRIDGE_CTRL_ERR 1 x) p
  refine ⟨_, hexec, (hclear.rd _ (by decide +kernel)).trans (rd_wr_fits (by decide) (by decide)), ?_,
    (hclear.rest.out rfl).trans (hx.frame.rest.out rfl), (hclear.rest.flash rfl).trans (hx.frame.rest.flash rfl)⟩
  rw [hclear.rd _ (by decide +kernel), rd_wr_other _ _ _ _ (by decide) (by decide), hbusy]
  simpa [on] using hb

/-- The bytes that the fields of the bridge make the transaction send. -/
def bridgeTx (x : State) : List Byte :=
  BitVec.ofNat 8 (rd F.FLASH_BRIDGE_CTRL_OPCODE x) ::
    bytesBE (rd F.FLASH_BRIDGE_CTRL_A x) (rd F.FLASH_BRIDGE_ADDR_ADDR x % 256 ^ rd F.FLASH_BRIDGE_CTRL_A x) ++
    List.replicate (rd F.FLASH_BRIDGE_CTRL_DUMMY x) 0 ++ slice (bridgeData x) 0 (rd F.FLASH_BRIDGE_CTRL_W x)

/-- A GO that the bridge takes: ERR is cleared, BUSY set, and the transaction is sent. -/
theorem bridgeGo_end {x : State} (hidle : on F.FLASH_BRIDGE_CTRL_BUSY x = false) (hok : bridgeOk x = true) :
    rd F.FLASH_BRIDGE_CTRL_BUSY (bridgeGo x) = 1 ∧ rd F.FLASH_BRIDGE_CTRL_ERR (bridgeGo x) = 0 ∧
    (bridgeGo x).out = .spi (bridgeTx x) (rd F.FLASH_BRIDGE_CTRL_RLEN x) :: x.out ∧
    (bridgeGo x).boot.bridgeLen = rd F.FLASH_BRIDGE_CTRL_RLEN x := by
  have hbusy : rd F.FLASH_BRIDGE_CTRL_BUSY (wr F.FLASH_BRIDGE_CTRL_BUSY 1 (wr F.FLASH_BRIDGE_CTRL_ERR 0 x)) = 1 :=
    rd_wr_fits (by decide) (by decide)
  have herr : rd F.FLASH_BRIDGE_CTRL_ERR (wr F.FLASH_BRIDGE_CTRL_BUSY 1 (wr F.FLASH_BRIDGE_CTRL_ERR 0 x)) = 0 :=
    (rd_wr_other _ _ _ _ (by decide) (by decide)).trans (rd_wr_fits (by decide) (by decide))
  have hout : (wr F.FLASH_BRIDGE_CTRL_BUSY 1 (wr F.FLASH_BRIDGE_CTRL_ERR 0 x)).out = x.out := rfl
  have hgo : ∃ op a addr data, bridgeGo x = setBoot (fun b => { b with bridgeLen := rd F.FLASH_BRIDGE_CTRL_RLEN x })
      (spiEffect op a addr data (emit (.spi (bridgeTx x) (rd F.FLASH_BRIDGE_CTRL_RLEN x))
        (wr F.FLASH_BRIDGE_CTRL_BUSY 1 (wr F.FLASH_BRIDGE_CTRL_ERR 0 x)))) :=
    ⟨_, _, _, _, (if_neg (by simp [hidle])).trans (if_neg (by simp [hok]))⟩
  obtain ⟨op, a, addr, data, hgo⟩ := hgo
  generalize wr F.FLASH_BRIDGE_CTRL_BUSY 1 (wr F.FLASH_BRIDGE_CTRL_ERR 0 x) = y at hgo hbusy herr hout
  generalize hz : emit (.spi (bridgeTx x) (rd F.FLASH_BRIDGE_CTRL_RLEN x)) y = z at hgo
  have hemit : Keeps 0x28000080 y z := hz ▸ keeps_emit _ rfl (.refl _ y)
  have hsent : Keeps 0x28000080 y (bridgeGo x) := hgo ▸ keeps_setBoot _ rfl (keeps_spiEffect op a addr data rfl hemit)
  refine ⟨(hsent.rd _ (by decide +kernel)).trans hbusy, (hsent.rd _ (by decide +kernel)).trans herr, ?_, ?_⟩
  · have hspi : Keeps 0x8000080 z (bridgeGo x) := hgo ▸ keeps_setBoot _ rfl (keeps_spiEffect op a addr data rfl (.refl _ z))
    rw [hspi.rest.out rfl, ← hz, emit, hout]
  · rw [hgo]
    rfl

theorem flashBridgeGo_sends (ht : s.term = .holding) (hb : on F.FLASH_BRIDGE_CTRL_BUSY s = false)
    (ha : fget v 23 21 ∈ [0, 3, 4]) (hw : fget v 16 11 ≤ 35) (hr : fget v 10 5 ≤ 35) :
    ∃ t tx, exec (.flashBridgeGo p v) s = .next t ∧ rd F.FLASH_BRIDGE_CTRL_BUSY t = 1 ∧ rd F.FLASH_BRIDGE_CTRL_ERR t = 0 ∧
      t.out = .spi tx (fget v 10 5) :: s.out ∧ t.boot.bridgeLen = fget v 10 5 ∧
      tx = BitVec.ofNat 8 (fget v 31 24) :: bytesBE (fget v 23 21) (rd F.FLASH_BRIDGE_ADDR_ADDR s % 256 ^ fget v 23 21) ++
        List.replicate (fget v 20 17) 0 ++ slice (bridgeData s) 0 (fget v 16 11) := by
  obtain ⟨x, hx, hexec⟩ := flashBridgeGo_set (s := s) p v (by simp [ht])
  have hidle : on F.FLASH_BRIDGE_CTRL_BUSY x = false := (on_of_rd (hx.kept F.FLASH_BRIDGE_CTRL_BUSY rfl (by decide))).trans hb
  have hok := (bridgeOk_iff hx ht).mpr ⟨ha, hw, hr⟩
  have hop : rd F.FLASH_BRIDGE_CTRL_OPCODE x = fget v 31 24 := hx.written _ rfl (by decide) (by decide)
  have haa : rd F.FLASH_BRIDGE_CTRL_A x = fget v 23 21 := hx.written _ rfl (by decide) (by decide)
  have hdum : rd F.FLASH_BRIDGE_CTRL_DUMMY x = fget v 20 17 := hx.written _ rfl (by decide) (by decide)
  have hww : rd F.FLASH_BRIDGE_CTRL_W x = fget v 16 11 := hx.written _ rfl (by decide) (by decide)
  have hrr : rd F.FLASH_BRIDGE_CTRL_RLEN x = fget v 10 5 := hx.written _ rfl (by decide) (by decide)
  have haddr : rd F.FLASH_BRIDGE_ADDR_ADDR x = rd F.FLASH_BRIDGE_ADDR_ADDR s := hx.frame.rd _ (by decide +kernel)
  have hdata : bridgeData x = bridgeData s := bridgeData_congr (by
    have : ∀ m < 7, Reach.reg (0xe ||| Reach.T.FLASH_BRIDGE_CTRL) (R.FLASH_BRIDGE_DATA m) = false := by decide +kernel
    exact fun m hm => hx.frame.rest.regs _ (this m hm))
  obtain ⟨hsent, herr, hout, hlen⟩ := bridgeGo_end hidle hok
  have hclear := keeps_clearHold_self (s := bridgeGo x) p
  refine ⟨_, bridgeTx x, hexec, (hclear.rd _ (by decide +kernel)).trans hsent, (hclear.rd _ (by decide +kernel)).trans herr, ?_,
    (congrArg BootSt.bridgeLen (hclear.rest.boot rfl)).trans (hlen.trans hrr), ?_⟩
  · rw [hclear.rest.out rfl, hout, hrr, hx.frame.rest.out rfl]
  · rw [bridgeTx, hop, haa, hdum, hww, haddr, hdata]

end

/-- Settles O13. -/
theorem hostLoadAndFlashBridge : Obligations.HostLoadAndFlashBridge :=
  ⟨fun p v _ ht hw => bootLoadGo_reads p v ht hw, fun p v _ ht hw => bootLoadGo_refuses p v ht hw,
    fun c _ => imageLoadDone_cut c, fun b _ => imageLoadDone_judged b, fun _ _ _ => flashBridgeGo_sends,
    fun _ _ _ => flashBridgeGo_refused, fun _ _ _ => flashBridgeGo_busy, fun bytes _ => flashBridge_done bytes⟩

end Sys2Proof.Proofs

end

/-! PROOF. What a reset leaves, and the soft reset asked for by register (spec/02_power_up_straps_selftest.md R37-R39, R41, R58). -/

section

namespace Sys2Proof.Proofs

open Sys2Proof Sys2Proof.Machine Sys2Proof.Claims Sys2Proof.Laws

variable {s : State}

/-! ### What the keeper keeps -/

theorem reg_eachOf_other {l : List (Nat × Word)} {off : Nat} (h : off ∉ l.map Prod.fst) :
    reg off (eachOf l (fun s p => setReg p.1 p.2 s) s) = reg off s := by
  induction l generalizing s with
  | nil => rfl
  | cons p l ih =>
    simp only [List.map_cons, List.mem_cons, not_or] at h
    exact (ih h.2).trans (reg_setReg_other _ _ _ _ h.1)

theorem reg_eachOf_kept {l : List (Nat × Word)} {off : Nat} {v : Word} (hd : (l.map Prod.fst).Nodup) (hv : (off, v) ∈ l) :
    reg off (eachOf l (fun s p => setReg p.1 p.2 s) s) = v := by
  induction l generalizing s with
  | nil => cases hv
  | cons p l ih =>
    obtain ⟨hp, hl⟩ := List.nodup_cons.mp hd
    rcases List.mem_cons.mp hv with rfl | hv
    · exact (reg_eachOf_other hp).trans (reg_setReg_same _ _ _)
    · exact ih hl hv

/-- The state at its reset values with what the keeper holds restored. -/
def keeperRestored (kind : ResetKind) (s : State) : State :=
  eachOf (keeperRegs kind s) (fun s p => setReg p.1 p.2 s) (blocksReset kind s)

theorem keeperRegs_nodup (kind : ResetKind) : ((keeperRegs kind s).map Prod.fst).Nodup := by
  cases kind
  · exact (by decide : [R.RESET_CAUSE].Nodup)
  · exact (by decide : [R.RESET_CAUSE, R.STRAP_LATCH].Nodup)
  all_goals
    exact (by decide : [R.RESET_CAUSE, R.STRAP_LATCH, R.SPAN_WAKE, R.WAKE_CFG, R.WAKE_MASK, R.WAKE_STATUS, R.KTIMER_CFG,
      R.KEEPER_RC].Nodup)

theorem reg_keeperRestored {kind : ResetKind} {off : Nat} {v : Word} (h : (off, v) ∈ keeperRegs kind s) :
    reg off (keeperRestored kind s) = v := reg_eachOf_kept (keeperRegs_nodup kind) h

/-- The registers a reset of any kind may keep. -/
def keeperOffsets : List Nat :=
  [R.RESET_CAUSE, R.STRAP_LATCH, R.SPAN_WAKE, R.WAKE_CFG, R.WAKE_MASK, R.WAKE_STATUS, R.KTIMER_CFG, R.KEEPER_RC]

theorem keeperRegs_offsets (kind : ResetKind) : (keeperRegs kind s).map Prod.fst ⊆ keeperOffsets := by
  cases kind
  · exact (by decide : [R.RESET_CAUSE] ⊆ keeperOffsets)
  · exact (by decide : [R.RESET_CAUSE, R.STRAP_LATCH] ⊆ keeperOffsets)
  all_goals exact List.Subset.refl _

/-- Every other register is at its reset value. -/
theorem reg_keeperRestored_other {kind : ResetKind} {off : Nat} (h : off ∉ keeperOffsets) :
    reg off (keeperRestored kind s) = regDefault off := reg_eachOf_other fun hm => h (keeperRegs_offsets kind hm)

/-- The keeper restores registers, and nothing else of the state. -/
theorem keeperRestored_parts (kind : ResetKind) : Keeps (2 ^ 31) (blocksReset kind s) (keeperRestored kind s) :=
  keeps_eachOf _ _ (fun _ _ => keeps_setReg _ _ (cov_any _ rfl)) (.refl _ _)

/-! ### What follows the keeper's registers in a reset -/

/-- The registers that straps set. -/
def strapOffsets : List Nat :=
  [R.BOOT_STATUS, R.RING_MODE, R.PCIE_CTRL, R.PWR_TARGET dPCI, R.SELFTEST_FLAGS, R.ZWD_ADDR, R.BYPASS_CFG, R.SPAN_CFG,
   R.DEVICE_IDENT, R.PWR_TARGET dSPE, R.BYPASS_STATUS, R.AFE_CFG, R.GRAN_BANK_CFG, R.GRAN_STATUS]

theorem reg_wr_of_notMem {l : List Nat} {off : Nat} (h : off ∉ l) (f : Fld) (v : Nat) (x : State) (hf : f.off ∈ l) :
    reg off (wr f v x) = reg off x := reg_wr_other off f v x fun e => h (e ▸ hf)

theorem reg_applyStraps_other {off : Nat} (h : off ∉ strapOffsets) : reg off (applyStraps s) = reg off s := by
  unfold applyStraps strapBanks
  simp (disch := decide) only [reg_wr_of_notMem h]

/-- The straps' defaults, once the straps due are noted. -/
def strapsGiven (kind : ResetKind) (s : State) : State := applyStraps (strapsAgain kind s.boot.strapsDue (keeperRestored kind s))

/-- What the straps' defaults and the record of the bypass may change. -/
def resetEndReach : Nat :=
  0x800000020000100000000000c06000000000460a0100000000 ||| Reach.T.BYPASS_STATUS ||| Reach.T.ZWD_ALERT ||| Reach.T.byp

theorem takeReset_eq (kind : ResetKind) : takeReset kind s =
    (if kind == .powerOn then recordBypass (bypassRecord kind s) (strapsGiven kind s)
     else alertSet A.STATE (recordBypass (bypassRecord kind s) (strapsGiven kind s))) := rfl

theorem recordBypass_end (kind : ResetKind) : Keeps (Reach.T.ZWD_ALERT) (recordBypass (bypassRecord kind s) (strapsGiven kind s))
    (takeReset kind s) := keeps_ite (fun _ => .refl _ _) (fun _ => keeps_alertSet _ rfl (.refl _ _))

theorem takeReset_end (kind : ResetKind) :
    Keeps resetEndReach (strapsAgain kind s.boot.strapsDue (keeperRestored kind s)) (takeReset kind s) := by
  have hrec : Keeps resetEndReach (strapsAgain kind s.boot.strapsDue (keeperRestored kind s))
      (recordBypass (bypassRecord kind s) (strapsGiven kind s)) :=
    keeps_recordBypass _ rfl (keeps_applyStraps rfl (.refl _ _))
  exact keeps_ite (fun _ => hrec) (fun _ => keeps_alertSet _ rfl hrec)

theorem boot_takeReset (kind : ResetKind) :
    (takeReset kind s).boot = { strapsDue := kind == .powerOn || kind == .pin || s.boot.strapsDue } :=
  (takeReset_end kind).rest.boot rfl

/-- The registers that the keeper holds, at the end of a reset. -/
theorem reg_takeReset_keeper {kind : ResetKind} {off : Nat} {v : Word} (h : (off, v) ∈ keeperRegs kind s)
    (hoff : off ∈ keeperOffsets) : reg off (takeReset kind s) = v := by
  have hreach : ∀ off ∈ keeperOffsets, Reach.reg resetEndReach off = false := by decide +kernel
  exact ((takeReset_end kind).rest.regs off (hreach off hoff)).trans (reg_keeperRestored h)

theorem reg_recordBypass_other {b : Bool} {off : Nat} (h : off ∉ strapOffsets) : reg off (recordBypass b s) = reg off s := by
  cases b
  · rfl
  · exact (reg_wr_of_notMem h F.BYPASS_STATUS_INSERTED 1 _ (by decide)).trans
      (reg_wr_of_notMem h F.BYPASS_STATUS_CAUSE 1 s (by decide))

/-- Every register that no strap sets and the keeper does not hold. -/
theorem reg_takeReset_default {kind : ResetKind} {off : Nat} (hk : off ∉ keeperOffsets) (hs : off ∉ strapOffsets)
    (ha : off ≠ R.ZWD_ALERT) : reg off (takeReset kind s) = regDefault off := by
  have hgiven : reg off (strapsGiven kind s) = regDefault off :=
    (reg_applyStraps_other hs).trans (reg_keeperRestored_other hk)
  have hrec := (reg_recordBypass_other (s := strapsGiven kind s) (b := bypassRecord kind s) hs).trans hgiven
  rw [takeReset_eq]
  split
  · exact hrec
  · exact (reg_alertSet _ _ ha).trans hrec

theorem recordBypass_true : rd F.BYPASS_STATUS_CAUSE (recordBypass true s) = 1 ∧
    rd F.BYPASS_STATUS_INSERTED (recordBypass true s) = 1 ∧ (recordBypass true s).byp.ending = some .reset := by
  have hreg : reg R.BYPASS_STATUS (recordBypass true s) =
      reg R.BYPASS_STATUS (wr F.BYPASS_STATUS_INSERTED 1 (wr F.BYPASS_STATUS_CAUSE 1 s)) := rfl
  refine ⟨(rd_of_reg F.BYPASS_STATUS_CAUSE hreg).trans ?_, (rd_of_reg F.BYPASS_STATUS_INSERTED hreg).trans ?_, rfl⟩
  · exact (rd_wr_other _ _ _ _ (by decide) (by decide)).trans (rd_wr_fits (by decide) (by decide))
  · exact rd_wr_fits (by decide) (by decide)

/-- R37: the bypass record. -/
theorem takeReset_bypass {kind : ResetKind} (hk : kind ≠ .powerOn) (ha : on F.BYPASS_STATUS_KA_ARMED s = true) :
    rd F.BYPASS_STATUS_CAUSE (takeReset kind s) = 1 ∧ rd F.BYPASS_STATUS_INSERTED (takeReset kind s) = 1 ∧
    (takeReset kind s).byp.ending = some .reset := by
  have hend := recordBypass_end (s := s) kind
  have hrec : bypassRecord kind s = true := by simp [bypassRecord, hk, ha]
  rw [hrec] at hend
  rw [hend.rd F.BYPASS_STATUS_CAUSE (by decide +kernel), hend.rd F.BYPASS_STATUS_INSERTED (by decide +kernel), hend.rest.byp rfl]
  exact recordBypass_true

/-! ### The soft reset asked for by register (R38, R39) -/

theorem softRequest_end {cause : Fld} : (softRequest cause s).boot.softPending = true ∧
    reg R.RESET_CAUSE (softRequest cause s) = fput (reg R.RESET_CAUSE s) cause.hi cause.lo 1 := by
  have hset : reg R.RESET_CAUSE (wr ⟨R.RESET_CAUSE, cause.hi, cause.lo⟩ 1 s) = fput (reg R.RESET_CAUSE s) cause.hi cause.lo 1 :=
    reg_setReg_same _ _ _
  unfold softRequest
  generalize wr ⟨R.RESET_CAUSE, cause.hi, cause.lo⟩ 1 s = x at hset ⊢
  dsimp only
  split
  · exact ⟨‹_›, hset⟩
  · have hdown : Keeps 0x140060008000004000000000000000000000000000010090000
        { x with boot := { x.boot with softPending := true } }
        (rundownAll 4 { x with boot := { x.boot with softPending := true } }) := keeps_rundownAll 4 rfl (.refl _ _)
    exact ⟨congrArg BootSt.softPending (hdown.rest.boot rfl), (hdown.rest.regs _ (by decide +kernel)).trans hset⟩

theorem fput_softReg (w : Word) : fput w 4 4 1 = w ||| 16 := by
  refine BitVec.eq_of_getLsbD_eq fun i hi => ?_
  rw [testBit_fput _ _ _ _ _ hi, BitVec.getLsbD_or]
  by_cases h4 : i = 4
  · subst h4
    simp
  · have hbit : ∀ i < 40, i ≠ 4 → (16 : Word).getLsbD i = false := by decide
    rw [if_neg (by omega), hbit i hi h4, Bool.or_false]

def softResetRow : RegRow := ⟨0x30, 0, 1, 0, 0, 0, 0, 0xFFFF, false⟩

theorem softReset_asked {p : Path} {v : Word} (ht : s.term ≠ .reset) (hkey : fget v 15 0 = 0x5AFE) :
    ∃ t, exec (.softReset p v) s = .next t ∧ reg R.RESET_CAUSE t = reg R.RESET_CAUSE s ||| 16 ∧ t.boot.softPending = true := by
  have hm : mayWriteReg R.SOFT_RESET s = true := by
    rw [mayWriteReg, regsAnswer_iff.mpr ht, show holdWritable R.SOFT_RESET = true from rfl]
    simp
  obtain ⟨b, hw⟩ := write8_hooked (v := v) (row := softResetRow) (f := fun v _ => softResetWrite v) (p := p) (by rfl) hm rfl rfl
    (by decide) (fun _ _ => rfl)
  have hhold := keeps_setHold_self (s := s) p R.SOFT_RESET b
  have hserved : softServed (setHold p R.SOFT_RESET b s) = true := by
    simp [softServed, hhold.rest.term rfl, ht]
  have hkey' : fget (v &&& 0xFFFF) 15 0 = 0x5AFE := (fget_and (by decide) (by decide)).trans hkey
  have hasked : softResetWrite (v &&& 0xFFFF) (setHold p R.SOFT_RESET b s) =
      softRequest F.RESET_CAUSE_SOFT_REG (setHold p R.SOFT_RESET b s) :=
    if_pos (Bool.and_eq_true_iff.mpr ⟨beq_iff_eq.mpr hkey', hserved⟩)
  obtain ⟨hpend, hcause⟩ := softRequest_end (s := setHold p R.SOFT_RESET b s) (cause := F.RESET_CAUSE_SOFT_REG)
  refine ⟨_, congrArg Host.Outcome.next (hw.trans (congrArg (clearHold p) hasked)), ?_, ?_⟩
  · rw [(keeps_clearHold_self p).rest.regs _ (by decide +kernel), hcause, hhold.rest.regs _ (by decide +kernel)]
    exact fput_softReg _
  · rw [(keeps_clearHold_self p).rest.boot rfl, hpend]

/-! ### The clauses of O10 -/

theorem cause_or {w : Word} {n : Nat} (hn : n < 2 ^ 40) : BitVec.ofNat 40 (w.toNat ||| n) = w ||| BitVec.ofNat 40 n := by
  refine BitVec.eq_of_toNat_eq ?_
  rw [BitVec.toNat_or, BitVec.toNat_ofNat, BitVec.toNat_ofNat, Nat.mod_eq_of_lt hn,
    Nat.mod_eq_of_lt (Nat.or_lt_two_pow w.isLt hn)]

theorem cause_takeReset {kind : ResetKind} (hk : kind ≠ .powerOn) :
    reg R.RESET_CAUSE (takeReset kind s) = reg R.RESET_CAUSE s ||| BitVec.ofNat 40 (causeOf kind) := by
  have hmem : (R.RESET_CAUSE, BitVec.ofNat 40 ((reg R.RESET_CAUSE s).toNat ||| causeOf kind)) ∈ keeperRegs kind s := by
    cases kind
    · exact absurd rfl hk
    all_goals exact List.mem_cons_self
  exact (reg_takeReset_keeper hmem (by decide)).trans (cause_or (by cases kind <;> decide))

theorem strapLatch_takeReset {kind : ResetKind} (hk : kind ≠ .powerOn) :
    reg R.STRAP_LATCH (takeReset kind s) = reg R.STRAP_LATCH s := by
  refine reg_takeReset_keeper ?_ (by decide)
  cases kind
  · exact absurd rfl hk
  all_goals exact List.mem_cons_of_mem _ List.mem_cons_self

theorem exec_resetOf {i : Instr} {k : ResetKind}
    (h : (i, k) ∈ [(.powerOnReset, .powerOn), (.pinReset, .pin), (.brownOutReset, .brownOut)]) :
    exec i s = .next (takeReset k s) ∧ k ≠ .soft := by
  simp only [List.mem_cons, Prod.mk.injEq, List.not_mem_nil, or_false] at h
  rcases h with ⟨rfl, rfl⟩ | ⟨rfl, rfl⟩ | ⟨rfl, rfl⟩
  all_goals exact ⟨rfl, fun h => by cases h⟩

/-- R41, R58, R213: the parts of the state that no register holds. -/
theorem takeReset_parts (kind : ResetKind) : (takeReset kind s).flash = s.flash ∧
    (takeReset kind s).out = .outputsIdle :: s.out ∧ (takeReset kind s).staged = [] ∧
    (takeReset kind s).host = State.reset.host ∧ (takeReset kind s).key.slots = keptKeys kind s ∧
    (takeReset kind s).pwr = keeperPwr kind s := by
  have hend := (takeReset_end (s := s) kind).rest
  have hrest := (keeperRestored_parts (s := s) kind).rest
  exact ⟨(hend.flash rfl).trans (hrest.flash rfl), (hend.out rfl).trans (hrest.out rfl),
    (hend.staged rfl).trans (hrest.staged rfl),
    (hend.host rfl).trans (hrest.host rfl), congrArg KeySt.slots ((hend.key rfl).trans (hrest.key rfl)),
    (hend.pwr rfl).trans (hrest.pwr rfl)⟩

/-- R37: what a brown-out reset keeps of the wake blocks. -/
theorem takeReset_brownOut : reg R.SPAN_WAKE (takeReset .brownOut s) = reg R.SPAN_WAKE s ∧
    reg R.KTIMER_CFG (takeReset .brownOut s) = reg R.KTIMER_CFG s ∧ reg R.WAKE_CFG (takeReset .brownOut s) = reg R.WAKE_CFG s ∧
    reg R.WAKE_MASK (takeReset .brownOut s) = reg R.WAKE_MASK s := by
  have hkept : ∀ off ∈ [R.SPAN_WAKE, R.KTIMER_CFG, R.WAKE_CFG, R.WAKE_MASK],
      reg off (takeReset .brownOut s) = reg off s := fun off hoff => by
    have hin : ∀ off ∈ [R.SPAN_WAKE, R.KTIMER_CFG, R.WAKE_CFG, R.WAKE_MASK], off ∈ keeperOffsets := by decide
    refine reg_takeReset_keeper ?_ (hin off hoff)
    simp only [List.mem_cons, List.not_mem_nil, or_false] at hoff
    rcases hoff with rfl | rfl | rfl | rfl <;> simp [keeperRegs]
  exact ⟨hkept _ (by simp), hkept _ (by simp), hkept _ (by simp), hkept _ (by simp)⟩

theorem reset_leaves {i : Instr} {k : ResetKind}
    (h : (i, k) ∈ [(.powerOnReset, .powerOn), (.pinReset, .pin), (.brownOutReset, .brownOut)]) :
    ∃ t, exec i s = .next t ∧ t.flash = s.flash ∧ t.out = .outputsIdle :: s.out ∧ t.staged = [] ∧ t.host = State.reset.host ∧
      (k ≠ .powerOn → reg R.STRAP_LATCH t = reg R.STRAP_LATCH s ∧ t.key.slots = s.key.slots.filter (fun p => p.1 == 0)) ∧
      (k = .powerOn → t.key.slots = []) ∧ t.boot.strapsDue = (decide (k ≠ .brownOut) || s.boot.strapsDue) ∧
      (k = .brownOut → reg R.SPAN_WAKE t = reg R.SPAN_WAKE s ∧ reg R.KTIMER_CFG t = reg R.KTIMER_CFG s ∧
        reg R.WAKE_CFG t = reg R.WAKE_CFG s ∧ reg R.WAKE_MASK t = reg R.WAKE_MASK s ∧
        t.pwr = { ktimer := s.pwr.ktimer }) ∧
      (k ≠ .powerOn → on F.BYPASS_STATUS_KA_ARMED s = true →
        rd F.BYPASS_STATUS_CAUSE t = 1 ∧ rd F.BYPASS_STATUS_INSERTED t = 1 ∧ t.byp.ending = some .reset) ∧
      ∀ off, off ∉ [R.RESET_CAUSE, R.STRAP_LATCH, R.SPAN_WAKE, R.KTIMER_CFG, R.KEEPER_RC, R.WAKE_CFG,
        R.WAKE_MASK, R.WAKE_STATUS, R.BYPASS_STATUS, R.BOOT_STATUS,
        R.RING_MODE, R.PCIE_CTRL, R.SELFTEST_FLAGS, R.ZWD_ADDR, R.BYPASS_CFG, R.SPAN_CFG, R.DEVICE_IDENT, R.AFE_CFG,
        R.ZWD_ALERT, R.PWR_TARGET dPCI, R.PWR_TARGET dSPE, R.GRAN_BANK_CFG, R.GRAN_STATUS] → reg off t = regDefault off := by
  obtain ⟨hexec, hsoft⟩ := exec_resetOf (s := s) h
  obtain ⟨hflash, hout, hstaged, hhost, hslots, hpwr⟩ := takeReset_parts (s := s) k
  refine ⟨_, hexec, hflash, hout, hstaged, hhost, fun hk => ⟨strapLatch_takeReset hk, ?_⟩, fun hk => ?_, ?_, fun hk => ?_,
    takeReset_bypass, fun off hoff => reg_takeReset_default (fun hm => hoff ?_) (fun hm => hoff ?_) fun hm => hoff ?_⟩
  · rw [hslots, keptKeys, if_neg (by simpa using hk)]
  · rw [hslots, hk]
    rfl
  · rw [boot_takeReset]
    cases k with
    | soft => exact absurd rfl hsoft
    | powerOn | pin | brownOut => rfl
  · subst hk
    obtain ⟨hspan, htimer, hcfg, hmask⟩ := takeReset_brownOut (s := s)
    exact ⟨hspan, htimer, hcfg, hmask, hpwr⟩
  · have : keeperOffsets ⊆ [R.RESET_CAUSE, R.STRAP_LATCH, R.SPAN_WAKE, R.KTIMER_CFG, R.KEEPER_RC, R.WAKE_CFG,
        R.WAKE_MASK, R.WAKE_STATUS] := by decide
    exact List.mem_append_left _ (this hm)
  · have : strapOffsets ⊆ [R.BYPASS_STATUS, R.BOOT_STATUS,
        R.RING_MODE, R.PCIE_CTRL, R.SELFTEST_FLAGS, R.ZWD_ADDR, R.BYPASS_CFG, R.SPAN_CFG, R.DEVICE_IDENT, R.AFE_CFG,
        R.ZWD_ALERT, R.PWR_TARGET dPCI, R.PWR_TARGET dSPE, R.GRAN_BANK_CFG, R.GRAN_STATUS] := by decide
    exact List.mem_append_right [R.RESET_CAUSE, R.STRAP_LATCH, R.SPAN_WAKE, R.KTIMER_CFG, R.KEEPER_RC, R.WAKE_CFG,
        R.WAKE_MASK, R.WAKE_STATUS] (this hm)
  · rw [hm]
    decide

/-- Settles O10. -/
theorem resetsLeaveWhatTheSpecSays : Obligations.ResetsLeaveWhatTheSpecSays :=
  ⟨fun _ => ⟨_, rfl, (takeReset_term_tick _).1, reg_takeReset_keeper (by exact List.mem_cons_self) (by decide)⟩,
    fun _ => ⟨_, rfl, (takeReset_term_tick _).1, cause_takeReset (by decide)⟩,
    fun _ => ⟨_, rfl, (takeReset_term_tick _).1, cause_takeReset (by decide)⟩,
    fun _ _ _ => softReset_asked, fun _ _ _ => reset_leaves⟩

end Sys2Proof.Proofs

end

/-! PROOF. The release of reset, the straps, and the begin of self-test (spec/02_power_up_straps_selftest.md R38, R40-R42). -/

section

namespace Sys2Proof.Proofs

open Sys2Proof Sys2Proof.Machine Sys2Proof.Claims Sys2Proof.Laws

variable {s : State}

/-! ### The begin of self-test (R42, R48) -/

/-- What a change to SELFTEST or HOLDING, which raises no event, may change. -/
def beginReach : Nat := Reach.T.term ||| Reach.T.ZWD_ALERT ||| Reach.T.SELFTEST_RESULT

theorem keeps_changeTerm_quiet {t : TermState} {x : State} (h : termCode t < 3) (hx : Keeps beginReach s x) :
    Keeps beginReach s (changeTerm t x) := by
  have hterm : Keeps beginReach s { x with term := t } := keeps_part_term t rfl hx
  unfold changeTerm
  rw [if_neg (show ¬decide (3 ≤ termCode t) = true by simpa using h)]
  exact keeps_ite (fun _ => hx) fun _ => keeps_ite (fun _ => keeps_alertSet _ rfl (keeps_alertSet _ rfl hterm))
    fun _ => keeps_alertSet _ rfl hterm

theorem beginSelftest_frame : Keeps beginReach s (beginSelftest s) := by
  have hwr : ∀ f : Fld, f.off = R.SELFTEST_RESULT → ∀ v, Keeps beginReach s (wr f v s) := fun f hf v =>
    keeps_wr _ _ (cov_SELFTEST_RESULT _ hf rfl) (.refl _ s)
  exact keeps_ite (fun _ => keeps_changeTerm_quiet (by decide) (hwr _ rfl _)) fun _ =>
    keeps_changeTerm_quiet (by decide) (hwr _ rfl _)

theorem beginSelftest_conflict (h1 : bootSource s = 1) (h2 : strap 2 s = false) : (beginSelftest s).term = .holding ∧
    rd F.SELFTEST_RESULT_HOLD_CODE (beginSelftest s) = 0x10 := by
  have hbegin : beginSelftest s = enterHolding 0x10 s := if_pos (by simp [h1, h2])
  obtain ⟨hterm, hcode, -⟩ := enterHolding_end (s := s) 0x10 (by decide)
  rw [hbegin]
  exact ⟨hterm, hcode⟩

theorem beginSelftest_starts (h : bootSource s ≠ 1 ∨ strap 2 s = true) : (beginSelftest s).term = .selftest ∧
    bootStep (beginSelftest s) = 1 := by
  have hbegin : beginSelftest s = changeTerm .selftest (wr F.SELFTEST_RESULT_STEP 1 s) :=
    if_neg (by rcases h with h | h <;> simp [h])
  rw [hbegin]
  exact ⟨term_changeTerm _, ((keeps_changeTerm_self _).rd F.SELFTEST_RESULT_STEP (by decide +kernel)).trans
    (rd_wr_fits (by decide) (by decide))⟩

/-! ### The fields that straps set (R40, R41) -/

theorem strapLatch_applyStraps : reg R.STRAP_LATCH (applyStraps s) = reg R.STRAP_LATCH s := reg_applyStraps_other (by decide)

theorem strap_congr {x : State} (n : Nat) (h : reg R.STRAP_LATCH x = reg R.STRAP_LATCH s) : strap n x = strap n s := by
  rw [strap, strap, rd_of_reg F.STRAP_LATCH_STRAPS h]

theorem strapField_congr {x : State} (hi lo : Nat) (h : reg R.STRAP_LATCH x = reg R.STRAP_LATCH s) :
    strapField hi lo x = strapField hi lo s := by
  rw [strapField, strapField, rd_of_reg F.STRAP_LATCH_STRAPS h]

/-- The fields of the boot block, the Zwirdo address and the bypass that the straps `n` give. -/
structure StrapFields (n : Nat) (t : State) : Prop where
  source : rd F.BOOT_STATUS_SOURCE t = n % 4
  hostless : rd F.RING_MODE_HOSTLESS t = if n % 4 = 3 then 1 else 0
  bank : rd ⟨R.GRAN_BANK_CFG, 23, 22⟩ t = if n % 4 = 3 then 2 else 0
  free : rd F.GRAN_STATUS_FREE t = if n % 4 = 3 then 39840 else 43936
  low : rd F.GRAN_STATUS_LOW t = if n % 4 = 3 then 39840 else 43936
  pcie : rd F.PCIE_CTRL_ENABLE t = n / 4 % 2
  pcieTarget : rd (F.PWR_TARGET_TARGET dPCI) t = if n / 4 % 2 = 1 then 0 else 2
  pcieHeld : rd (F.PWR_TARGET_HELD dPCI) t = 1 - n / 4 % 2
  width : rd F.PCIE_CTRL_MAX_WIDTH t = if n / 8 % 4 = 3 then 0 else n / 8 % 4
  warn : rd F.SELFTEST_FLAGS_STRAP_WARN t = if n / 8 % 4 = 3 then 1 else 0
  address : rd F.ZWD_ADDR_ADDR t = 0x30 + n / 32 % 8
  switchClass : rd F.BYPASS_CFG_SWITCH_CLASS t = n / 256 % 4
  sides : rd F.SPAN_CFG_SIDES t = n / 1024 % 2
  identSides : rd F.DEVICE_IDENT_STRAP_SIDES t = n / 1024 % 2
  speTarget : rd (F.PWR_TARGET_TARGET dSPE) t = if n / 1024 % 2 = 1 then 2 else 0
  turnedE : rd F.BYPASS_STATUS_TURNED_E t = n / 1024 % 2
  compliance : rd F.AFE_CFG_COMPLIANCE t = n / 2048 % 2

theorem b2n_nbit (n i : Nat) : b2n (nbit n i) = n / 2 ^ i % 2 := by
  rcases Nat.mod_two_eq_zero_or_one (n / 2 ^ i) with h | h <;> simp [nbit, b2n, h]

theorem rd_wr_eq {f : Fld} {v e : Nat} (hf : f.hi < 40) (hv : v = e) (he : e < 2 ^ (f.hi + 1 - f.lo)) : rd f (wr f v s) = e :=
  hv ▸ rd_wr_fits hf (hv ▸ he)

/-- The banks of the pool, which the straps set last. -/
theorem strapBanks_fields : rd ⟨R.GRAN_BANK_CFG, 23, 22⟩ (strapBanks s) = (if strapField 1 0 s = 3 then 2 else 0) ∧
    rd F.GRAN_STATUS_FREE (strapBanks s) = (if strapField 1 0 s = 3 then 39840 else 43936) ∧
    rd F.GRAN_STATUS_LOW (strapBanks s) = (if strapField 1 0 s = 3 then 39840 else 43936) := by
  unfold strapBanks
  dsimp only
  simp (disch := decide) only [rd_wr_other]
  by_cases h : strapField 1 0 s = 3
  · rw [h]
    exact ⟨rd_wr_fits (by decide) (by decide), rd_wr_fits (by decide) (by decide), rd_wr_fits (by decide) (by decide)⟩
  · rw [beq_false_of_ne h, if_neg h, if_neg h]
    exact ⟨rd_wr_fits (by decide) (by decide), rd_wr_fits (by decide) (by decide), rd_wr_fits (by decide) (by decide)⟩

theorem ite_lt {c : Prop} [Decidable c] {a b m : Nat} (ha : a < m) (hb : b < m) : (if c then a else b) < m := by
  split
  · exact ha
  · exact hb

/-- The straps' last writes are those of the banks. -/
theorem applyStraps_banks : ∃ y, applyStraps s = strapBanks y ∧ reg R.STRAP_LATCH y = reg R.STRAP_LATCH s := by
  refine ⟨_, rfl, ?_⟩
  simp (disch := decide) only [reg_wr_other]

theorem applyStraps_fields {n : Nat} (hn : rd F.STRAP_LATCH_STRAPS s = n) : StrapFields n (applyStraps s) := by
  have hf : ∀ hi lo, strapField hi lo s = n / 2 ^ lo % 2 ^ (hi + 1 - lo) := fun hi lo => by rw [strapField, hn]; rfl
  have hb : ∀ k, b2n (strap k s) = n / 2 ^ k % 2 := fun k => by rw [strap, hn, b2n_nbit]
  have hlt : ∀ k, n / 2 ^ k % 2 < 2 := fun k => Nat.mod_lt _ (by decide)
  have hite : ∀ (k a b : Nat), (if strap k s = true then a else b) = if n / 2 ^ k % 2 = 1 then a else b := fun k a b => by
    rw [strap, hn, nbit]
    exact if_congr beq_iff_eq rfl rfl
  have hthree : ∀ (c a b : Nat), (if (c == 3) = true then a else b) = if c = 3 then a else b := fun c a b =>
    if_congr beq_iff_eq rfl rfl
  have hsrc : strapField 1 0 s = n % 4 := (hf 1 0).trans (by omega)
  obtain ⟨y, hbanks, hlatch⟩ := applyStraps_banks (s := s)
  have hsource : strapField 1 0 y = n % 4 := (strapField_congr 1 0 hlatch).trans hsrc
  obtain ⟨hbank, hfree, hlow⟩ := strapBanks_fields (s := y)
  rw [hsource] at hbank hfree hlow
  rw [← hbanks] at hbank hfree hlow
  constructor
  case bank => exact hbank
  case free => exact hfree
  case low => exact hlow
  all_goals unfold applyStraps strapBanks
  all_goals dsimp only
  all_goals simp (disch := decide) only [rd_wr_other]
  case source => exact rd_wr_eq (by decide) hsrc (Nat.mod_lt _ (by decide))
  case hostless => exact rd_wr_eq (by decide) (by rw [hsrc, b2n, hthree]) (ite_lt (by decide) (by decide))
  case pcie => exact rd_wr_eq (by decide) (hb 2) (hlt 2)
  case pcieTarget => exact rd_wr_eq (by decide) (hite 2 0 2) (ite_lt (by decide) (by decide))
  case pcieHeld =>
    refine rd_wr_eq (by decide) ?_ (show 1 - n / 4 % 2 < 2 by omega)
    rw [strap, hn, nbit]
    rcases Nat.mod_two_eq_zero_or_one (n / 4) with h | h <;> simp [h, b2n]
  case width =>
    refine rd_wr_eq (by decide) ?_ (ite_lt (by decide) (Nat.mod_lt _ (show 0 < 4 by decide)))
    rw [hf 4 3, hthree]
    rfl
  case warn => exact rd_wr_eq (by decide) (by rw [hf 4 3, b2n, hthree]; rfl) (ite_lt (by decide) (by decide))
  case address => exact rd_wr_eq (by decide) (congrArg (0x30 + ·) (hf 7 5)) (show 0x30 + n / 32 % 8 < 2 ^ 7 by omega)
  case switchClass => exact rd_wr_eq (by decide) (hf 9 8) (Nat.mod_lt _ (by decide))
  case sides => exact rd_wr_eq (by decide) (hb 10) (hlt 10)
  case identSides => exact rd_wr_eq (by decide) (hb 10) (hlt 10)
  case speTarget => exact rd_wr_eq (by decide) (hite 10 2 0) (ite_lt (by decide) (by decide))
  case turnedE => exact rd_wr_eq (by decide) (hb 10) (hlt 10)
  case compliance => exact rd_wr_eq (by decide) (hb 11) (hlt 11)

/-! ### The release (R40-R42) -/

theorem strapFields_congr {n : Nat} {x t : State} (h : StrapFields n x) (hk : ∀ off ∈ strapOffsets, reg off t = reg off x) :
    StrapFields n t := by
  have hrd : ∀ f : Fld, f.off ∈ strapOffsets → rd f t = rd f x := fun f hf => rd_of_reg f (hk _ hf)
  constructor
  case source => exact (hrd F.BOOT_STATUS_SOURCE (by decide)).trans h.source
  case hostless => exact (hrd F.RING_MODE_HOSTLESS (by decide)).trans h.hostless
  case bank => exact (hrd ⟨R.GRAN_BANK_CFG, 23, 22⟩ (by decide)).trans h.bank
  case free => exact (hrd F.GRAN_STATUS_FREE (by decide)).trans h.free
  case low => exact (hrd F.GRAN_STATUS_LOW (by decide)).trans h.low
  case pcie => exact (hrd F.PCIE_CTRL_ENABLE (by decide)).trans h.pcie
  case pcieTarget => exact (hrd (F.PWR_TARGET_TARGET dPCI) (by decide)).trans h.pcieTarget
  case pcieHeld => exact (hrd (F.PWR_TARGET_HELD dPCI) (by decide)).trans h.pcieHeld
  case width => exact (hrd F.PCIE_CTRL_MAX_WIDTH (by decide)).trans h.width
  case warn => exact (hrd F.SELFTEST_FLAGS_STRAP_WARN (by decide)).trans h.warn
  case address => exact (hrd F.ZWD_ADDR_ADDR (by decide)).trans h.address
  case switchClass => exact (hrd F.BYPASS_CFG_SWITCH_CLASS (by decide)).trans h.switchClass
  case sides => exact (hrd F.SPAN_CFG_SIDES (by decide)).trans h.sides
  case identSides => exact (hrd F.DEVICE_IDENT_STRAP_SIDES (by decide)).trans h.identSides
  case speTarget => exact (hrd (F.PWR_TARGET_TARGET dSPE) (by decide)).trans h.speTarget
  case turnedE => exact (hrd F.BYPASS_STATUS_TURNED_E (by decide)).trans h.turnedE
  case compliance => exact (hrd F.AFE_CFG_COMPLIANCE (by decide)).trans h.compliance

theorem beginSelftest_strapFields {n : Nat} (h : StrapFields n s) : StrapFields n (beginSelftest s) := by
  have hreach : ∀ off ∈ strapOffsets, Reach.reg beginReach off = false := by decide +kernel
  exact strapFields_congr h fun off hoff => beginSelftest_frame.rest.regs off (hreach off hoff)

theorem strap_two {n : Nat} (hn : rd F.STRAP_LATCH_STRAPS s = n) : strap 2 s = true ↔ n / 4 % 2 = 1 := by
  rw [strap, hn, nbit]
  exact beq_iff_eq

/-- The terminal right before self-test begins, the straps latched. -/
def strapsLatched (straps : BitVec 12) (s : State) : State :=
  setBoot (fun b => { b with strapsDue := false }) (applyStraps (wr F.STRAP_LATCH_STRAPS straps.toNat s))

theorem straps_strapsLatched (straps : BitVec 12) :
    rd F.STRAP_LATCH_STRAPS (strapsLatched straps s) = straps.toNat ∧ StrapFields straps.toNat (strapsLatched straps s) := by
  have hstraps : rd F.STRAP_LATCH_STRAPS (wr F.STRAP_LATCH_STRAPS straps.toNat s) = straps.toNat :=
    rd_wr_fits (by decide) straps.isLt
  have hfields := applyStraps_fields hstraps
  have hreg : ∀ off, reg off (strapsLatched straps s) = reg off (applyStraps (wr F.STRAP_LATCH_STRAPS straps.toNat s)) :=
    fun off => reg_setBoot off _ _
  exact ⟨(rd_of_reg F.STRAP_LATCH_STRAPS ((hreg _).trans strapLatch_applyStraps)).trans hstraps,
    strapFields_congr hfields fun off _ => hreg off⟩

theorem release_straps (straps : BitVec 12) (ht : s.term = .reset) (hdue : s.boot.strapsDue = true) :
    exec (.releaseOfReset straps) s = .next (beginSelftest (strapsLatched straps s)) :=
  congrArg Host.Outcome.next ((if_neg (by simp [ht])).trans (if_pos hdue))

theorem release_stands (straps : BitVec 12) (ht : s.term = .reset) (hdue : s.boot.strapsDue = false) :
    ∃ t, exec (.releaseOfReset straps) s = .next t ∧ reg R.STRAP_LATCH t = reg R.STRAP_LATCH s ∧
      (bootSource s = 1 → strap 2 s = false → t.term = .holding ∧ rd F.SELFTEST_RESULT_HOLD_CODE t = 0x10) ∧
      (bootSource s ≠ 1 ∨ strap 2 s = true → t.term = .selftest ∧ bootStep t = 1) :=
  ⟨_, congrArg Host.Outcome.next ((if_neg (by simp [ht])).trans (if_neg (by simp [hdue]))),
    beginSelftest_frame.rest.regs _ (by decide +kernel), beginSelftest_conflict, beginSelftest_starts⟩

/-! ### The soft reset (R38) -/

/-- After the straps are given again, the record of the bypass and the alert touch no strap's field but BYPASS_STATUS. -/
theorem source_takeReset (kind : ResetKind) :
    rd F.BOOT_STATUS_SOURCE (takeReset kind s) = rd F.BOOT_STATUS_SOURCE (strapsGiven kind s) := by
  have hrec : Keeps (Reach.T.BYPASS_STATUS ||| Reach.T.byp ||| Reach.T.ZWD_ALERT) (strapsGiven kind s)
      (recordBypass (bypassRecord kind s) (strapsGiven kind s)) := keeps_recordBypass _ rfl (.refl _ _)
  have hend : Keeps (Reach.T.BYPASS_STATUS ||| Reach.T.byp ||| Reach.T.ZWD_ALERT) (strapsGiven kind s) (takeReset kind s) := by
    rw [takeReset_eq]
    exact keeps_ite (fun _ => hrec) fun _ => keeps_alertSet _ rfl hrec
  exact hend.rd _ (by decide +kernel)

theorem bootSource_takeReset {kind : ResetKind} (hk : kind ≠ .powerOn) : bootSource (takeReset kind s) = strapField 1 0 s := by
  have hlatch : reg R.STRAP_LATCH (strapsAgain kind s.boot.strapsDue (keeperRestored kind s)) = reg R.STRAP_LATCH s :=
    (((takeReset_end kind).rest.regs _ (by decide +kernel)).symm).trans (strapLatch_takeReset hk)
  have hfields := applyStraps_fields (rd_of_reg F.STRAP_LATCH_STRAPS hlatch)
  refine (source_takeReset kind).trans (hfields.source.trans ?_)
  rw [strapField, nbits, Nat.pow_zero, Nat.div_one]
  rfl

theorem softReset_goesOn (hpend : s.boot.softPending = true) (h0 : axIdle 0 s = true) (h1 : axIdle 1 s = true)
    (hs : strapField 2 0 s ≠ 1) :
    ∃ t, exec .softResetProceed s = .next t ∧ t.term = .selftest ∧ bootStep t = 1 ∧ t.boot.softPending = false ∧
      reg R.STRAP_LATCH t = reg R.STRAP_LATCH s ∧ reg R.RESET_CAUSE t = reg R.RESET_CAUSE s ∧ t.staged = [] ∧
      t.host = State.reset.host ∧ t.out = .outputsIdle :: s.out := by
  have hbegin := beginSelftest_frame (s := takeReset .soft s)
  have hlatch := strapLatch_takeReset (s := s) (kind := .soft) (by decide)
  obtain ⟨-, hout, hstaged, hhost, -⟩ := takeReset_parts (s := s) .soft
  have hgo : bootSource (takeReset .soft s) ≠ 1 ∨ strap 2 (takeReset .soft s) = true := by
    rw [bootSource_takeReset (by decide), strap_congr 2 hlatch, strap_two rfl]
    simp only [strapField, nbits] at hs ⊢
    omega
  obtain ⟨hterm, hstep⟩ := beginSelftest_starts hgo
  refine ⟨_, congrArg Host.Outcome.next (if_pos (by simp [hpend, h0, h1])), hterm, hstep, ?_,
    (hbegin.rest.regs _ (by decide +kernel)).trans hlatch, ?_, (hbegin.rest.staged rfl).trans hstaged,
    (hbegin.rest.host rfl).trans hhost, (hbegin.rest.out rfl).trans hout⟩
  · rw [hbegin.rest.boot rfl, boot_takeReset]
  · rw [hbegin.rest.regs _ (by decide +kernel), cause_takeReset (by decide)]
    exact BitVec.or_zero

/-- Settles O11. -/
theorem selfTestBeginsAfterAReset : Obligations.SelfTestBeginsAfterAReset := by
  refine ⟨fun straps s ht hdue => ?_, fun straps s ht hdue => release_stands straps ht hdue,
    fun s hpend h0 h1 hs => softReset_goesOn hpend h0 h1 hs, fun s h => congrArg Host.Outcome.next (if_neg ?_)⟩
  · obtain ⟨hstraps, hfields⟩ := straps_strapsLatched (s := s) straps
    have hbegin := beginSelftest_frame (s := strapsLatched straps s)
    obtain ⟨hsrc, hhl, hbank, hfree, hlow, hpcie, htarget, hheld, hwidth, hwarn, haddr, hclass, hsides, hident, hspe, hturned,
      hcomp⟩ := beginSelftest_strapFields hfields
    have htwo := strap_two hstraps
    refine ⟨_, release_straps straps ht hdue, ?_, (hbegin.rd _ (by decide +kernel)).trans hstraps, hsrc, hhl, hbank, hfree, hlow,
      hpcie, htarget, hheld, hwidth, hwarn, haddr, hclass, hsides, hident, hspe, hturned, hcomp, fun h8 => ?_, fun h8 => ?_⟩
    · rw [hbegin.rest.boot rfl]
      rfl
    · refine beginSelftest_conflict (hfields.source.trans (by omega)) (Bool.eq_false_iff.mpr fun h => ?_)
      have := htwo.mp h
      omega
    · refine beginSelftest_starts ?_
      rw [htwo, bootSource, hfields.source]
      omega
  · rcases h with h | h <;> simp [h]

end Sys2Proof.Proofs

end

/-! PROOF. What counting and events change of the host's part (spec/12_host_rings_pcie.md R302). -/

section

namespace Sys2Proof.Proofs

open Sys2Proof Sys2Proof.Machine Sys2Proof.Claims Sys2Proof.Laws

variable {s t u : State}

/-! ### What counting and events change of the host's part -/

/-- The host's part as before, but its queue of events and the count of those lost. -/
def Told (s t : State) : Prop := ∃ es n, t.host = { s.host with events := es, evtLost := n }

theorem told_of_host (h : t.host = s.host) : Told s t := ⟨s.host.events, s.host.evtLost, h⟩

theorem Told.trans (h : Told s t) (k : Told t u) : Told s u := by
  obtain ⟨es, n, h⟩ := h
  obtain ⟨es', n', k⟩ := k
  exact ⟨es', n', by rw [k, h]⟩

theorem Told.stopping (h : Told s t) : t.host.stopping = s.host.stopping := by
  obtain ⟨_, _, h⟩ := h
  rw [h]

theorem Told.ringCons (h : Told s t) (r : Nat) : Machine.ringCons r t = Machine.ringCons r s := by
  obtain ⟨_, _, h⟩ := h
  rw [Machine.ringCons, Machine.ringCons, h]

/-- What leaves the host's part alone tells it nothing. -/
theorem told_of_keeps {A : Nat} (h : Keeps A s t) (hA : A.testBit 16 = false) : Told s t := told_of_host (h.rest.host hA)

theorem told_satMark (i : Nat) : Told s (satMark i s).1 := by
  unfold satMark
  dsimp only
  split
  · exact told_of_host rfl
  · exact told_of_host ((keeps_alertSet (A := Reach.T.ZWD_ALERT) _ rfl (.refl _ _)).rest.host rfl)

theorem told_bump (i n : Nat) : Told s (bump i n s).1 := told_of_host rfl

theorem told_dropEvent : Told s (dropEvent s) := by
  have hlost : ∀ (x : State) (n : Nat), Told x { x with host := { x.host with evtLost := n } } := fun x n =>
    ⟨x.host.events, n, rfl⟩
  unfold dropEvent
  dsimp only
  split
  · have hbump := (hlost s (s.host.evtLost + 1)).trans (told_bump C.EVT_LOST 1)
    split
    · split
      · exact (hbump.trans (told_satMark _)).trans (hlost _ _)
      · exact hbump.trans (told_satMark _)
    · exact hbump
  · exact hlost _ _

theorem told_raise (c a : Nat) : Told s (raise c a s) := by
  have halert : ∀ x, Told x (alertOfEvent c x) := fun x =>
    told_of_keeps (keeps_alertOfEvent (A := Reach.T.ZWD_ALERT) c rfl (.refl _ x)) (by decide)
  refine Told.trans ?_ (halert _)
  unfold raiseWith
  dsimp only
  split
  · exact ⟨_, s.host.evtLost, rfl⟩
  · split
    · exact ⟨_, s.host.evtLost, rfl⟩
    · exact told_dropEvent

theorem told_countN (i n : Nat) : Told s (countN i n s) := by
  have hbump := told_bump (s := s) i n
  unfold countN
  dsimp only
  split
  · split
    · split
      · exact (hbump.trans (told_satMark _)).trans (told_raise _ _)
      · exact hbump.trans (told_satMark _)
    · exact hbump
  · exact told_of_host rfl

theorem told_count (i : Nat) : Told s (count i s) := told_countN i 1

end Sys2Proof.Proofs

end

/-! PROOF. The first entry to LISTENING, the default targets, and RUN (spec/02 R60, R62; spec/12 R284, R285; spec/17 R408). -/

section

namespace Sys2Proof.Proofs

open Sys2Proof Sys2Proof.Machine Sys2Proof.Claims Sys2Proof.Laws

variable {s : State}

/-! ### The first entry to LISTENING (R60, R62) -/

/-- From LISTENING on a change of the terminal's state raises STATE_CHANGE. -/
theorem changeTerm_raises {t : TermState} (hne : s.term ≠ t) (ht : 3 ≤ termCode t) (hroom : Room s) :
    Waits E.STATE_CHANGE (termCode t + 16 * termCode s.term) (changeTerm t s) ∧
    ∀ off, bookkeeping off = false → reg off (changeTerm t s) = reg off s := by
  have hchange : ∃ x, changeTerm t s = raise E.STATE_CHANGE (termCode t + 16 * termCode s.term) x ∧
      x.host = s.host ∧ ∀ off, off ≠ R.ZWD_ALERT → reg off x = reg off s := by
    have hhost : ∀ b x, (alertSet b x).host = x.host := fun b x =>
      (keeps_alertSet (A := Reach.T.ZWD_ALERT) b rfl (.refl _ x)).rest.host rfl
    refine ⟨_, (if_neg (by simpa using hne)).trans (if_pos (decide_eq_true ht)), ?_, fun off hoff => ?_⟩
    · split
      · exact (hhost _ _).trans (hhost _ _)
      · exact hhost _ _
    · split
      · exact (reg_alertSet _ _ hoff).trans (reg_alertSet _ _ hoff)
      · exact reg_alertSet _ _ hoff
  obtain ⟨x, hx, hhost, hregs⟩ := hchange
  rw [hx]
  refine ⟨waits_raise _ _ ?_, fun off hoff => (reg_raise _ _ _ _ hoff).trans (hregs off fun h => ?_)⟩
  · rw [hhost]
    unfold Room at hroom
    omega
  · rw [h] at hoff
    cases hoff

theorem firstListening_end (ht : s.term = .selftest) (hroom : Room s) :
    (firstListening s).term = .listening ∧ (firstListening s).boot.listened = some 0 ∧
    Waits E.STATE_CHANGE 0x13 (firstListening s) ∧
    ∀ off, bookkeeping off = false → reg off (firstListening s) = reg off s := by
  obtain ⟨hwaits, hregs⟩ := changeTerm_raises (s := s) (t := .listening) (by simp [ht]) (by decide) hroom
  rw [ht] at hwaits
  exact ⟨term_changeTerm _, rfl, hwaits, hregs⟩

/-! ### The ring engine's stop -/

theorem stopping_refreshHost : (refreshHost s).host.stopping = s.host.stopping := by
  unfold refreshHost
  dsimp only
  split
  · rfl
  · split
    · exact (told_raise _ _).stopping
    · exact (told_raise _ _).stopping

/-- R288: the engine that has stopped is not stopping. -/
theorem stopping_orderlyStop : (orderlyStop s).host.stopping = false := stopping_refreshHost

/-- A request without a host's WAIT, with the engine STOPPED: its stop is over at once. -/
theorem stopping_stopForPower {r : PwrReq} (hr : r.cmd = none) (h : hreState s = hreSTOPPED) (hs : s.host.stopping = false) :
    (stopForPower r s).host.stopping = false := by
  have hans : pwrAnswer r cDONE 0 (pwrStamp r.t) s = s := by rw [pwrAnswer, hr]
  have hserves : hreServes s = false := by rw [hreServes, h]; rfl
  have hstop : stopForPower r s = orderlyStop s := by
    unfold stopForPower
    rw [hans]
    exact (if_neg (by simp [hserves])).trans (if_neg (by simp [hs]))
  rw [hstop]
  exact stopping_orderlyStop

/-! ### The transition to the default targets (R405, R408) -/

/-- The domains of a list read MOVING. -/
theorem domState_eachOf_moving {l : List Nat} {k : Nat} (h : k ∈ l ∨ domState k s = 3) :
    domState k (eachOf l (fun s k => wr (F.PWR_TARGET_STATE k) 3 s) s) = 3 := by
  induction l generalizing s with
  | nil => exact h.resolve_left (by simp)
  | cons j l ih =>
    refine ih ?_
    by_cases hoff : R.PWR_TARGET k = R.PWR_TARGET j
    · have hfld : F.PWR_TARGET_STATE k = F.PWR_TARGET_STATE j := by rw [F.PWR_TARGET_STATE, F.PWR_TARGET_STATE, hoff]
      right
      rw [domState, hfld]
      exact rd_wr_fits (show 5 < 40 by decide) (show 3 < 2 ^ 2 by decide)
    · rcases h with h | h
      · rcases List.mem_cons.mp h with rfl | h
        · exact absurd rfl hoff
        · exact .inl h
      · exact .inr ((rd_wr_other _ _ _ _ (.inl hoff) (show 5 < 40 by decide)).trans h)

/-- The last steps of a transition's begin leave the domains' states and the request alone. -/
theorem keeps_refreshHost_self : Keeps 0x140060008000000000000000100000000000000000010010000 s (refreshHost s) :=
  keeps_refreshHost rfl (.refl _ s)

theorem beginTransition_run (r : PwrReq) (tgt : List Nat) :
    ∃ r1, (beginTransition r tgt s).pwr.run = some (r1, tgt) ∧ r1.t = r.t := by
  refine ⟨_, congrArg PwrSt.run (keeps_refreshHost_self.rest.pwr rfl), ?_⟩
  split
  · rfl
  · rfl

theorem beginTransition_moving {r : PwrReq} {tgt : List Nat} {k : Nat} (hr : r.cmd = none) (h : hreState s = hreSTOPPED)
    (hs : s.host.stopping = false) (hk : k ∈ movingTo tgt s) : domState k (beginTransition r tgt s) = 3 := by
  have hreach : ∀ j < 24, Reach.reg (0x140060008000000000000010000400000000000000030038000 ||| Reach.T.pwr |||
      0x140060008000000000000000100000000000000000010010000) (0x800 + 0x8 * j) = false := by decide +kernel
  have hstop : ∀ c : Bool, (if c = true then stopForPower r s else s).host.stopping = false := fun c => by
    split
    · exact stopping_stopForPower hr h hs
    · exact hs
  unfold beginTransition
  dsimp only
  rw [hstop, if_neg Bool.false_ne_true]
  have hend : ∀ x f, Keeps (0x140060008000000000000010000400000000000000030038000 ||| Reach.T.pwr |||
      0x140060008000000000000000100000000000000000010010000) x (refreshHost (setPwr f (portsRefresh x))) := fun x f =>
    keeps_refreshHost rfl (keeps_setPwr f rfl (keeps_portsRefresh rfl (.refl _ x)))
  rw [domState, (hend _ _).rd (F.PWR_TARGET_STATE k) (hreach _ (Nat.mod_lt k (by decide)))]
  exact domState_eachOf_moving (.inl hk)

theorem mem_movingTo {k : Nat} {f : Nat → Nat} (hk : k < 24) (h : domState k s ≠ f k) : k ∈ movingTo (domains.map f) s := by
  have hall : ∀ k < 24, k ∈ leaveOrder := by decide
  refine List.mem_filter.mpr ⟨hall k hk, ?_⟩
  simpa [domains, List.getD, hk] using h

theorem defaultTargets_begin {n : Nat} (ht : s.term = .listening) (hd : s.boot.targetsDone = false) (hrun : s.pwr.run = none)
    (hl : s.boot.listened = some n) (hn : 0 < n) :
    ∃ t r, exec .defaultTargets s = .next t ∧ t.boot.targetsDone = true ∧ t.term = .listening ∧
      t.pwr.run = some (r, domains.map (targetOf s)) ∧ r.t = s.bt ∧
      (hreState s = hreSTOPPED → s.host.stopping = false → ∀ k, k < 24 → domState k s ≠ targetOf s k → domState k t = 3) := by
  have hexec : exec .defaultTargets s = .next (beginTransition { t := s.bt } (domains.map (targetOf s))
      (setBoot (fun b => { b with targetsDone := true }) s)) :=
    congrArg Host.Outcome.next (if_neg (by simp [ht, hd, hrun, hl, hn]))
  have hkeep : Keeps 0x1c00600080004218000000105404404000003000000f1bffe00 (setBoot (fun b => { b with targetsDone := true }) s)
      (beginTransition { t := s.bt } (domains.map (targetOf s)) (setBoot (fun b => { b with targetsDone := true }) s)) :=
    keeps_beginTransition _ _ rfl (.refl _ _)
  obtain ⟨r, hr, hbt⟩ := beginTransition_run (s := setBoot (fun b => { b with targetsDone := true }) s) { t := s.bt }
    (domains.map (targetOf s))
  refine ⟨_, r, hexec, ?_, ?_, hr, hbt, fun hstate hstop k hk hne => ?_⟩
  · rw [hkeep.rest.boot rfl]
    rfl
  · rw [hkeep.rest.term rfl]
    exact ht
  · exact beginTransition_moving rfl hstate hstop (mem_movingTo hk hne)

/-! ### RUN (R284, R285) -/

def runRow : RegRow := ⟨0x50, 0x0, 1, 0x0, 0x1, 0x0, 0x0, 0x0, false⟩

theorem run_on : on F.RUN_CTRL_RUN (wr F.RUN_CTRL_RUN 1 s) = true := by
  rw [on, rd_wr_fits (by decide) (by decide)]
  rfl

theorem fromListening_not {x : TermState} (h : fromListening s = true) (hx : termCode x < 3) : s.term ≠ x := fun k => by
  rw [fromListening, k] at h
  exact absurd (of_decide_eq_true h) (by omega)

/-- A write of RUN_CTRL where it may be written. -/
theorem exec_run (p : Path) (v : Word) (hm : mayWriteReg R.RUN_CTRL s = true) : ∃ b,
    exec (.run p v) s = .next (clearHold p (if fromListening s = true then wr F.RUN_CTRL_RUN 1 (setHold p R.RUN_CTRL b s)
      else setHold p R.RUN_CTRL b s)) := by
  obtain ⟨b, hw⟩ := write8_hooked (v := v ||| 1) (row := runRow) (f := fun v _ => runWrite v) (p := p) (by rfl) hm rfl rfl
    (by decide) (fun _ _ => rfl)
  have hone : fget ((v ||| 1) &&& 0x1) 0 0 = 1 := (fget_and (by decide) (by decide)).trans (fget_or_one_zero v)
  have hfrom : fromListening (setHold p R.RUN_CTRL b s) = fromListening s := by
    rw [fromListening, fromListening, (keeps_setHold_self p _ b).rest.term rfl]
  have hwrite : runWrite ((v ||| 1) &&& 0x1) (setHold p R.RUN_CTRL b s) = (if fromListening s = true then
      wr F.RUN_CTRL_RUN 1 (setHold p R.RUN_CTRL b s) else setHold p R.RUN_CTRL b s) := by
    rw [runWrite, hone, hfrom]
    rfl
  exact ⟨b, congrArg Host.Outcome.next (hw.trans (congrArg (clearHold p) hwrite))⟩

theorem run_sets (p : Path) (v : Word) (h : fromListening s = true) :
    ∃ t, exec (.run p v) s = .next t ∧ on F.RUN_CTRL_RUN t = true := by
  have hm : mayWriteReg R.RUN_CTRL s = true := by
    simp [mayWriteReg, regsAnswer, fromListening_not (x := .reset) h (by decide), fromListening_not (x := .holding) h (by decide)]
  obtain ⟨b, hexec⟩ := exec_run (s := s) p v hm
  rw [if_pos h] at hexec
  exact ⟨_, hexec, (on_of_rd ((keeps_clearHold_self p).rd F.RUN_CTRL_RUN (by decide +kernel))).trans run_on⟩

theorem run_before (p : Path) (v : Word) (h : fromListening s = false) :
    ∃ t, exec (.run p v) s = .next t ∧ reg R.RUN_CTRL t = reg R.RUN_CTRL s := by
  cases hm : mayWriteReg R.RUN_CTRL s with
  | true =>
    obtain ⟨b, hexec⟩ := exec_run (s := s) p v hm
    rw [h, if_neg (by decide)] at hexec
    exact ⟨_, hexec, ((keeps_clearHold_self p).rest.regs _ (by decide +kernel)).trans
      ((keeps_setHold_self p _ b).rest.regs _ (by decide +kernel))⟩
  | false =>
    have hw : write8 p R.RUN_CTRL (v ||| 1) s = s := by
      rw [write8, writeHigh_closed (by simp [hm]), writeLow_closed (by simp [hm])]
    exact ⟨s, congrArg Host.Outcome.next hw, rfl⟩

theorem firmwareRun_sets (h : firmwareRunDue s = true) : ∃ t, exec .firmwareRun s = .next t ∧ on F.RUN_CTRL_RUN t = true :=
  ⟨_, congrArg Host.Outcome.next (if_pos h), run_on⟩

/-- Settles O16. -/
theorem listeningBeginsAndRunIsSet : Obligations.ListeningBeginsAndRunIsSet := by
  refine ⟨fun s ht hp hroom => ?_, fun _ _ => defaultTargets_begin, fun p v _ => run_sets p v, fun p v _ => run_before p v,
    fun s hl hm hr hsrc => firmwareRun_sets (by simp [firmwareRunDue, hl, hm, hr, hsrc]),
    fun s n hl hm hr hsrc hn h => firmwareRun_sets (by simp [firmwareRunDue, hl, hm, hr, hsrc, hn, h])⟩
  obtain ⟨hterm, hlist, hwaits, hregs⟩ := firstListening_end ht hroom
  exact ⟨_, hterm, hlist, hwaits, hregs, congrArg Host.Outcome.next (if_pos (by simp [ht, hp]))⟩

end Sys2Proof.Proofs

end

/-! PROOF. The Zwirdo sideband's reports, refusals and alert, and commands at rest (spec/18 R416-R426; spec/02 R55). -/

section

namespace Sys2Proof.Proofs

open Sys2Proof Sys2Proof.Machine Sys2Proof.Claims Sys2Proof.Laws

variable {s : State}

/-! ### The status of a command (R421) -/

theorem lastStatus_zwdStatus {st : Nat} (hst : st < 256) : rd F.ZWD_STATUS_LAST_STATUS (zwdStatus st s) = st := by
  have hset : rd F.ZWD_STATUS_LAST_STATUS (wr F.ZWD_STATUS_LAST_STATUS st s) = st := rd_wr_fits (by decide) hst
  have hcount : ∀ (b : Bool) i x,
      rd F.ZWD_STATUS_LAST_STATUS (whenB b (count i) x) = rd F.ZWD_STATUS_LAST_STATUS x := fun b i x => by
    cases b
    · rfl
    · exact rd_of_reg _ (reg_count _ _ _ (by decide))
  exact (hcount _ _ _).trans ((hcount _ _ _).trans hset)

theorem out_zwdStatus (st : Nat) : (zwdStatus st s).out = s.out :=
  (keeps_zwdStatus (A := 0x140060018000000000000000000000000000000000010010000) st rfl (.refl _ s)).rest.out rfl

theorem reg_zwdStatus_other {st off : Nat} (hb : bookkeeping off = false) (hoff : off ≠ R.ZWD_STATUS) :
    reg off (zwdStatus st s) = reg off s := by
  have hcount : ∀ (b : Bool) i x, reg off (whenB b (count i) x) = reg off x := fun b i x => by
    cases b
    · rfl
    · exact reg_count _ _ _ hb
  exact (hcount _ _ _).trans ((hcount _ _ _).trans (reg_wr_other _ _ _ _ hoff))

/-- Every code but DONE is counted, a bad PEC also in its own counter. -/
theorem tallied_zwdStatus {st : Nat} (hst : st ≠ zDONE) (hc : countsNow s = true) :
    Tallied C.ZWD_CMD_BAD 1 s (zwdStatus st s) ∧ (st = zPEC_BAD → Tallied C.ZWD_PEC_BAD 1 s (zwdStatus st s)) := by
  have hset : ∀ i, reg (counterAddr i) (wr F.ZWD_STATUS_LAST_STATUS st s) = reg (counterAddr i) s := fun i =>
    reg_wr_other _ _ _ _ (counterAddr_ne_of_bookkeeping (by decide) i)
  have hcw : countsNow (wr F.ZWD_STATUS_LAST_STATUS st s) = true := hc
  have hbad : zwdStatus st s = whenB (st == zPEC_BAD) (count C.ZWD_PEC_BAD)
      (count C.ZWD_CMD_BAD (wr F.ZWD_STATUS_LAST_STATUS st s)) := by
    unfold zwdStatus
    rw [show (st != zDONE) = true by simpa using hst]
    rfl
  generalize wr F.ZWD_STATUS_LAST_STATUS st s = x at hset hcw hbad
  have hcmd : reg (counterAddr C.ZWD_CMD_BAD) (count C.ZWD_CMD_BAD x) =
      BitVec.ofNat 40 (min countMax ((reg (counterAddr C.ZWD_CMD_BAD) s).toNat + 1)) := by
    rw [reg_count_same _ (by decide) (by decide) hcw, hset]
  have hc1 : countsNow (count C.ZWD_CMD_BAD x) = true := by
    rw [countsNow, (keeps_count (A := countingSet) C.ZWD_CMD_BAD rfl (.refl _ x)).rest.term rfl]
    exact hcw
  rw [hbad]
  refine ⟨?_, fun hpec => ?_⟩
  · cases st == zPEC_BAD
    · exact hcmd
    · exact (reg_countN_counter _ _ 1 (by decide) (by decide) (by decide) (by decide)).trans hcmd
  · rw [hpec]
    refine (reg_count_same _ (by decide) (by decide) hc1).trans ?_
    rw [show reg (counterAddr C.ZWD_PEC_BAD) (count C.ZWD_CMD_BAD x) = reg (counterAddr C.ZWD_PEC_BAD) s from
      (reg_countN_counter _ _ 1 (by decide) (by decide) (by decide) (by decide)).trans (hset _)]

/-! ### The runs of a command (R416-R421) -/

theorem zwdMatched_awake (h : s.pwr.resting = false) : zwdMatched s = s := if_neg (by simp [h])

/-- R418: the address byte ends the rest. -/
theorem resting_zwdMatched : (zwdMatched s).pwr.resting = false := by
  have hend : ∀ x, (endRest x).pwr.resting = false := fun x => by
    unfold endRest
    split
    · rfl
    · next h => exact Bool.eq_false_iff.mpr h
  unfold zwdMatched
  split
  · exact hend _
  · next h => exact Bool.eq_false_iff.mpr h

theorem zwdLive_zwdMatched : zwdLive (zwdMatched s) = zwdLive s := by
  have hkeep : Keeps 0x1c0060008200000000000000000000001000000000830210030 s (zwdMatched s) :=
    keeps_ite (fun _ => keeps_zwdWakes rfl (.refl _ s)) fun _ => .refl _ s
  rw [zwdLive, zwdLive, hkeep.rest.term rfl]

section

variable {cmd n : Nat} {block pure_ : Bool} {x : ZwdTxn} {act : State → State}

theorem zwdRun_reset (h : s.term = .reset) : zwdRun cmd block pure_ n x act s = zwdNack s := if_pos (by simp [zwdLive, h])

theorem zwdRun_cut (hl : zwdLive s = true) (hc : x.cut = true) : zwdRun cmd block pure_ n x act s = zwdMatched s :=
  (if_neg (by simp [hl])).trans (if_pos hc)

theorem zwdRun_whole (hl : zwdLive s = true) (hr : s.pwr.resting = false) (hc : x.cut = false) :
    zwdRun cmd block pure_ n x act s = zwdServe cmd block pure_ n x act s := by
  refine (if_neg (by simp [hl])).trans ((if_neg (by simp [hc])).trans ?_)
  rw [zwdMatched_awake hr]

theorem zwdRun_served (h : Served cmd block pure_ n x s) : zwdRun cmd block pure_ n x act s = act s := by
  obtain ⟨hl, hr, hc, hf⟩ := h
  rw [zwdRun_whole hl hr hc, zwdServe, hf]

/-- R418, R419: the rest once ended, a command runs as one that found the spine awake. -/
theorem zwdRun_zwdMatched (hl : zwdLive s = true) :
    zwdRun cmd block pure_ n x act (zwdMatched s) = zwdRun cmd block pure_ n x act s := by
  unfold zwdRun
  rw [zwdLive_zwdMatched, hl, zwdMatched_awake resting_zwdMatched]
  rfl

end

/-! ### Replies -/

theorem replied_zwdReply {cmd : Nat} {x : ZwdTxn} {bytes : List Byte} {st : Nat} (hst : st < 256) :
    Replied cmd st x bytes s (zwdStatus st (zwdReply cmd x bytes s)) := by
  refine ⟨(out_zwdStatus st).trans ?_, lastStatus_zwdStatus hst⟩
  unfold zwdReply
  cases x.rdPec
  · simp [emit]
  · rfl

theorem zwdRead_served {cmd : Nat} {x : ZwdTxn} {bytes : State → List Byte} (h : Served cmd false false 0 x s) :
    ∃ t, zwdRead cmd x bytes s = t ∧ Replied cmd zDONE x (bytes s) s t :=
  ⟨_, zwdRun_served h, replied_zwdReply (by decide)⟩

theorem status_served {x : ZwdTxn} (h : Served 1 false false 0 x s) :
    ∃ t, exec (.status x) s = .next t ∧ Replied 1 zDONE x (8 :: holdReport s) s t := by
  have hlive : s.term ≠ .reset := by simpa [zwdLive] using h.1
  obtain ⟨t, hread, ht⟩ := zwdRead_served (bytes := fun s => 8 :: holdReport s) h
  exact ⟨t, congrArg Host.Outcome.next ((if_neg (by simpa using hlive)).trans hread), ht⟩

theorem status_reset {x : ZwdTxn} (ht : s.term = .reset) (hc : x.cut = false) (hp : x.rdPec = false) :
    exec (.status x) s = .next { s with out := .zwd [8, 0, 0, 0, 0, 0, 0, 0, 0] true :: s.out } := by
  refine congrArg Host.Outcome.next ((if_pos (by simp [ht])).trans ((if_neg (by simp [hc])).trans ?_))
  unfold zwdReply
  rw [hp]
  rfl

/-! ### The alert (R426) -/

theorem alertResponse_wins (hl : zwdLive s = true) (ha : alertAsserted s = true) :
    exec (.alertResponse true) s =
      .next (wr F.ZWD_ALERT_ACKED 1 (emit (.zwd [BitVec.ofNat 8 (zwdAddrByte s)] true) (zwdMatched s))) :=
  congrArg Host.Outcome.next (if_pos (by simp [hl, ha]))

theorem acked_on : on F.ZWD_ALERT_ACKED (wr F.ZWD_ALERT_ACKED 1 s) = true := by
  rw [on, rd_wr_fits (by decide) (by decide)]
  rfl

theorem alert_answered (hl : zwdLive s = true) (hr : s.pwr.resting = false) (ha : alertAsserted s = true) :
    (∃ t, exec (.alertResponse true) s = .next t ∧ t.out = .zwd [BitVec.ofNat 8 (zwdAddrByte s)] true :: s.out ∧
      on F.ZWD_ALERT_ACKED t = true ∧ alertAsserted t = false) ∧
    exec (.alertResponse false) s = .next s := by
  refine ⟨⟨_, alertResponse_wins hl ha, ?_, acked_on, ?_⟩, congrArg Host.Outcome.next (if_neg (by simp))⟩
  · rw [zwdMatched_awake hr]
    rfl
  · rw [alertAsserted, acked_on, Bool.not_true, Bool.and_false]

theorem alert_answered_at_rest (hl : zwdLive s = true) (ha : alertAsserted s = true) :
    ∃ t, exec (.alertResponse true) s = .next t ∧ t.pwr.resting = false ∧ on F.ZWD_ALERT_ACKED t = true ∧
      .zwd [BitVec.ofNat 8 (zwdAddrByte s)] true ∈ t.out :=
  ⟨_, alertResponse_wins hl ha, resting_zwdMatched, acked_on, List.mem_cons_self⟩

/-! ### Refusals -/

theorem unknownCommand_refused {c : Byte} (hu : zwdListed.contains c.toNat = false) (hl : zwdLive s = true)
    (hr : s.pwr.resting = false) (hc : countsNow s = true) :
    ∃ t, exec (.zwdUnknownCommand c) s = .next t ∧ t.out = .zwd [] false :: s.out ∧
      rd F.ZWD_STATUS_LAST_STATUS t = zBAD_CMD ∧ Tallied C.ZWD_CMD_BAD 1 s t := by
  have hexec : exec (.zwdUnknownCommand c) s = .next (zwdStatus zBAD_CMD (zwdNack s)) := by
    refine congrArg Host.Outcome.next ((if_neg (by simpa using hu)).trans ((if_neg (by simp [hl])).trans ?_))
    rw [zwdMatched_awake hr]
  exact ⟨_, hexec, out_zwdStatus _, lastStatus_zwdStatus (by decide), (tallied_zwdStatus (s := zwdNack s) (by decide) hc).1⟩

theorem zwdFault_codes {cmd n : Nat} {block pure_ a : Bool} {x : ZwdTxn} {st : Nat}
    (h : zwdFault cmd block pure_ n x s = some (st, a)) : st = zBAD_LEN ∨ st = zPEC_BAD := by
  unfold zwdFault at h
  split at h
  · cases h
    exact .inl rfl
  split at h
  · split at h
    · cases h
      exact .inr rfl
    · cases h
  · split at h
    · cases h
      exact .inl rfl
    · cases h

theorem regWrite_faulty {x : ZwdTxn} {st : Nat} {a : Bool} (hl : zwdLive s = true) (hr : s.pwr.resting = false)
    (hcut : x.cut = false) (hf : zwdFault 0x11 true true 8 x s = some (st, a)) (hc : countsNow s = true) :
    ∃ t, exec (.regWrite x) s = .next t ∧ t.out = .zwd [] a :: s.out ∧ rd F.ZWD_STATUS_LAST_STATUS t = st ∧
      Tallied C.ZWD_CMD_BAD 1 s t ∧ (st = zPEC_BAD → Tallied C.ZWD_PEC_BAD 1 s t) ∧
      ∀ off, bookkeeping off = false → off ≠ R.ZWD_STATUS → reg off t = reg off s := by
  have hcode : st < 256 ∧ st ≠ zDONE := by rcases zwdFault_codes hf with rfl | rfl <;> decide
  have hexec : exec (.regWrite x) s = .next (zwdStatus st (emit (.zwd [] a) s)) := by
    refine congrArg Host.Outcome.next ((zwdRun_whole hl hr hcut).trans ?_)
    rw [zwdServe, hf]
  obtain ⟨hcmd, hpec⟩ := tallied_zwdStatus (s := emit (.zwd [] a) s) hcode.2 hc
  exact ⟨_, hexec, out_zwdStatus _, lastStatus_zwdStatus hcode.1, hcmd, hpec, fun _ hb hoff => reg_zwdStatus_other hb hoff⟩

/-! ### Every command: in RESET, and while the spine rests -/

/-- R421: in RESET every command but STATUS is NACKed. -/
theorem reset_nacks {x : ZwdTxn} {c : Byte} {rx : List Byte} {i : Instr} (ht : s.term = .reset)
    (hu : zwdListed.contains c.toNat = false)
    (hi : i ∈ [.ident x, .fprint x, .last x, .regRead x, .regWrite x, .zwdSoftReset x, .flashXfer x rx, .mboxPut x,
      .mboxRunWrite x, .mboxRunRead x, .mboxRunDelete x, .mboxGet x, .mboxStatus x, .alertRead x, .zwdUnknownCommand c]) :
    exec i s = .next { s with out := .zwd [] false :: s.out } := by
  simp only [List.mem_cons, List.not_mem_nil, or_false] at hi
  rcases hi with rfl | rfl | rfl | rfl | rfl | rfl | rfl | rfl | rfl | rfl | rfl | rfl | rfl | rfl | rfl
  iterate 14 exact congrArg Host.Outcome.next (zwdRun_reset ht)
  exact congrArg Host.Outcome.next ((if_neg (by simpa using hu)).trans (if_pos (by simp [zwdLive, ht])))

/-- R418, R419: a command that finds the spine at rest. -/
theorem rest_ends {x : ZwdTxn} {c : Byte} {rx : List Byte} {i : Instr} (hl : zwdLive s = true)
    (hu : zwdListed.contains c.toNat = false)
    (hi : i ∈ [.status x, .ident x, .fprint x, .last x, .regRead x, .regWrite x, .zwdSoftReset x, .flashXfer x rx, .mboxPut x,
      .mboxRunWrite x, .mboxRunRead x, .mboxRunDelete x, .mboxGet x, .mboxStatus x, .alertRead x, .zwdUnknownCommand c]) :
    ∃ t, exec i s = .next t ∧ exec i (zwdMatched s) = .next t := by
  simp only [List.mem_cons, List.not_mem_nil, or_false] at hi
  rcases hi with rfl | rfl | rfl | rfl | rfl | rfl | rfl | rfl | rfl | rfl | rfl | rfl | rfl | rfl | rfl | rfl
  · have hlive : ∀ y : State, zwdLive y = true → ¬((y.term == .reset) = true) := fun y hy => by simpa [zwdLive] using hy
    have hstatus : ∀ y : State, zwdLive y = true → exec (.status x) y = .next (zwdRead 0x01 x (fun s => 8 :: holdReport s) y) :=
      fun y hy => congrArg Host.Outcome.next (if_neg (hlive y hy))
    exact ⟨_, hstatus s hl, (hstatus _ (zwdLive_zwdMatched.trans hl)).trans (congrArg Host.Outcome.next (zwdRun_zwdMatched hl))⟩
  iterate 14 exact ⟨_, rfl, congrArg Host.Outcome.next (zwdRun_zwdMatched hl)⟩
  refine ⟨_, rfl, congrArg Host.Outcome.next ?_⟩
  rw [zwdLive_zwdMatched, zwdMatched_awake resting_zwdMatched, hl, hu]
  rfl

theorem zwdTimeout_counts (hc : countsNow s = true) : ∃ t, exec .zwdTimeout s = .next t ∧ Tallied C.ZWD_TIMEOUT 1 s t ∧
    ∀ off, bookkeeping off = false → reg off t = reg off s :=
  ⟨_, rfl, reg_count_same _ (by decide) (by decide) hc, fun off hb => reg_count off _ _ hb⟩

/-- A report read with the bytes of its command. -/
theorem report_served {cmd : Nat} {x : ZwdTxn} {i : Instr} {bytes : State → List Byte}
    (hi : exec i s = .next (zwdRead cmd x bytes s)) (h : Served cmd false false 0 x s) :
    ∃ t, exec i s = .next t ∧ Replied cmd zDONE x (bytes s) s t := by
  obtain ⟨t, hread, ht⟩ := zwdRead_served (bytes := bytes) h
  exact ⟨t, hi.trans (congrArg Host.Outcome.next hread), ht⟩

/-- Settles O55. -/
theorem zwirdoReportsAreAnswered : Obligations.ZwirdoReportsAreAnswered :=
  ⟨fun _ _ => status_served, fun _ _ => status_reset,
    fun x _ => report_served (i := .ident x) rfl, fun x _ => report_served (i := .fprint x) rfl,
    fun x _ => report_served (i := .last x) rfl, fun x _ => report_served (i := .mboxStatus x) rfl,
    fun x _ => report_served (i := .alertRead x) rfl,
    fun _ => alert_answered, fun _ _ => unknownCommand_refused, fun _ _ _ _ _ => reset_nacks,
    fun _ _ _ _ => regWrite_faulty, fun _ _ hl hc => congrArg Host.Outcome.next (zwdRun_cut hl hc),
    fun _ _ _ _ _ hl _ hu hi => ⟨resting_zwdMatched, rest_ends hl hu hi⟩,
    fun _ hl _ ha => alert_answered_at_rest hl ha, fun _ => zwdTimeout_counts⟩

end Sys2Proof.Proofs

end

/-! PROOF. Commands that end and what they tell the host, and image state (spec/12_host_rings_pcie.md R298, R299; spec/19 R443). -/

section

namespace Sys2Proof.Proofs

open Sys2Proof Sys2Proof.Machine Sys2Proof.Claims Sys2Proof.Laws

variable {s u : State} {h : CmdHdr}

/-! ### A command that ends, whatever it tells the host -/

/-- What places a command's completion is as before: the registers of the ring, the mode and CMD_SEQ, and the ring's
consumer index. -/
structure Places (s u : State) : Prop where
  regs : ∀ off ∈ completionRegs, reg off u = reg off s
  cons : ringCons ringCMD u = ringCons ringCMD s

theorem Places.refl (s : State) : Places s s := ⟨fun _ _ => rfl, rfl⟩

theorem places_of_keeps {A : Nat} (hk : Keeps A s u) (ht : Told s u)
    (hregs : completionRegs.all (fun off => !Reach.reg A off) = true) : Places s u :=
  ⟨fun off ho => hk.rest.regs off (by simpa using List.all_eq_true.mp hregs off ho), ht.ringCons ringCMD⟩

/-- A command's record, where it is kept, and its completion. -/
def commandEnd (h : CmdHdr) (recorded : Bool) (st sub res : Nat) (u : State) : State :=
  cmdComplete h st sub res false (if recorded then cmdRecord h st sub res u else u)

theorem runCmd_end {act : State → CmdEnd × State} {recorded : Bool} {post : Nat → State → State} {st sub res : Nat}
    (hd : Due h s) (ha : act (seqTaken h s) = (.ends st sub res, u)) :
    runCmd h recorded act s post = post st (commandEnd h recorded st sub res u) := by
  obtain ⟨hready, hseq⟩ := hd
  have hnext : (!on F.CMD_SEQ_VALID s || h.cseq.toNat == (rd F.CMD_SEQ_LAST s + 1) % 65536) = true := by
    rcases hseq with hv | hc
    · simp [hv]
    · simp [hc]
  unfold runCmd
  simp only [hready, hnext]
  rw [← seqTaken, ha]
  rfl

theorem keeps_commandEnd (recorded : Bool) (st sub res : Nat) : Keeps 0x20010000 u (commandEnd h recorded st sub res u) :=
  keeps_cmdComplete _ _ _ _ false rfl (keeps_ite (fun _ => keeps_cmdRecord _ _ _ _ rfl (.refl _ u)) fun _ => .refl _ u)

theorem completed_commandEnd {recorded : Bool} {st sub res : Nat} (hp : Places (seqTaken h s) u) :
    Completed h st sub res s (commandEnd h recorded st sub res u) := by
  have hsame : ∀ off ∈ [R.RING_MODE, R.CMD_BASE, R.CMD_BASE + 8], reg off u = reg off s := fun off ho => by
    refine (hp.regs off (List.mem_append_left [R.CMD_SEQ] ho)).trans (reg_seqTaken ?_)
    revert off
    decide
  have hmode : reg R.RING_MODE u = reg R.RING_MODE s := hsame _ (by decide)
  have hbase : reg (ringBase ringCMD) u = reg (ringBase ringCMD) s := hsame _ (by decide)
  have hcfg : reg (ringBase ringCMD + 8) u = reg (ringBase ringCMD + 8) s := hsame _ (by decide)
  have hrec : ∃ v, (if recorded then cmdRecord h st sub res u else u) = v ∧ ringCons ringCMD v = ringCons ringCMD s ∧
      v.out = u.out ∧ ∀ off, reg off v = reg off u := by
    cases recorded
    · exact ⟨_, rfl, hp.cons, rfl, fun _ => rfl⟩
    · exact ⟨_, rfl, (ringCons_cmdRecord _ _ _ _).trans hp.cons, rfl, fun _ => rfl⟩
  obtain ⟨v, hv, hcons, -, hregs⟩ := hrec
  have haddr : descAddr ringCMD (ringCons ringCMD s) v = descAddr ringCMD (ringCons ringCMD s) s := by
    simp only [descAddr, ringSize, ringLog, ringCfg, hregs, hbase, hcfg]
  have hout : ∀ a b, dmaOut v a b = dmaOut s a b := fun a b => by
    unfold dmaOut hostless
    rw [on_of_rd (rd_of_reg F.RING_MODE_HOSTLESS ((hregs _).trans hmode))]
  refine ⟨?_, ?_, ?_⟩
  · rw [commandEnd, hv, cmdComplete_out, hcons, haddr, hout]
    exact List.mem_cons_self
  · rw [commandEnd, hv, ringCons_cmdComplete, hcons]
  · rw [(keeps_commandEnd _ _ _ _).rd _ (by decide +kernel), rd_of_reg F.CMD_SEQ_LAST (hp.regs R.CMD_SEQ (by decide)),
      rd_last_seqTaken]

/-! ### Image state -/

theorem told_setNote (f : NoteSt → NoteSt) : Told s (setNote f s) := told_of_host rfl

theorem told_wr (f : Fld) (v : Nat) : Told s (wr f v s) := told_of_host rfl

theorem told_queueUp (type : Nat) (body : List Byte) : Told s (queueUp type body s) := by
  have hpush : ∀ n x, Told x (upPush n x) := fun n x => by
    unfold upPush
    dsimp only
    split
    · exact told_setNote _
    · exact (told_setNote _).trans (told_count _)
  exact (told_setNote _).trans (hpush _ _)

theorem told_setImageState (st : Nat) : Told s (setImageState st s) := by
  unfold setImageState
  split
  · exact told_of_host rfl
  · exact ((told_wr _ _).trans (told_raise _ _)).trans (told_queueUp _ _)

/-- A new image state is told after it is set. -/
theorem setImageState_new {st : Nat} (hne : imageState s ≠ st) :
    Keeps 0x140060008000000000000000000000000000000000010010800 (wr F.GLEAN_STATUS_STATE st s) (setImageState st s) := by
  unfold setImageState
  rw [if_neg (by simpa using hne)]
  exact keeps_queueUp _ _ rfl (keeps_raise _ _ rfl (.refl _ _))

theorem imageState_setImageState {st : Nat} (hst : st < 16) : imageState (setImageState st s) = st := by
  by_cases h : imageState s = st
  · rw [setImageState, if_pos (by simpa using h), h]
  · exact ((setImageState_new h).rd F.GLEAN_STATUS_STATE (by decide +kernel)).trans (rd_wr_fits (by decide) hst)

/-- Every field but the state stands. -/
theorem rd_setImageState {st : Nat} {f : Fld} (hf : f.hi < 40)
    (hne : f.off ≠ R.GLEAN_STATUS ∨ f.hi < F.GLEAN_STATUS_STATE.lo ∨ F.GLEAN_STATUS_STATE.hi < f.lo)
    (hr : Reach.reg 0x140060008000000000000000000000000000000000010010800 f.off = false) :
    rd f (setImageState st s) = rd f s := by
  by_cases h : imageState s = st
  · rw [setImageState, if_pos (by simpa using h)]
  · exact ((setImageState_new h).rd f hr).trans (rd_wr_other _ _ _ _ hne hf)

/-! ### What the commands find -/

theorem imageState_seqTaken : imageState (seqTaken h s) = imageState s := rd_seqTaken (by decide)

theorem layoutOk_seqTaken : layoutOk (seqTaken h s) = layoutOk s := on_of_rd (rd_seqTaken (by decide))

theorem onTrial_seqTaken : onTrial (seqTaken h s) = onTrial s := on_of_rd (rd_seqTaken (by decide))

theorem host_seqTaken : on F.GLEAN_STATUS_HOST (seqTaken h s) = on F.GLEAN_STATUS_HOST s := on_of_rd (rd_seqTaken (by decide))

theorem glean_seqTaken : (seqTaken h s).glean = s.glean := rfl

theorem stagingOpen_seqTaken : stagingOpen (seqTaken h s) = stagingOpen s := by
  rw [stagingOpen, stagingOpen, layoutOk_seqTaken, onTrial_seqTaken, imageState_seqTaken, glean_seqTaken]

theorem swapAllowed_seqTaken (car version : Option Nat) : swapAllowed car version (seqTaken h s) = swapAllowed car version s := by
  rw [swapAllowed, swapAllowed, layoutOk_seqTaken, onTrial_seqTaken, imageState_seqTaken]
  rw [rd_seqTaken (f := F.GLEAN_STATUS_CAR_ID) (by decide), rd_seqTaken (f := F.IMAGE_STAGED_VERSION) (by decide),
    rd_seqTaken (f := F.IMAGE_RUNNING_VERSION) (by decide), rd_seqTaken (f := F.BOOT_STATUS_SOURCE) (by decide)]

theorem slotManifest_seqTaken (base : Nat) : slotManifest base (seqTaken h s) = slotManifest base s := rfl

theorem manifestOk_seqTaken (m : List Byte) : manifestOk m (seqTaken h s) = manifestOk m s := by
  rw [manifestOk, manifestOk, rd_seqTaken (f := F.DEVICE_IDENT_SILICON) (by decide)]

theorem verifySlot_seqTaken (base : Nat) : verifySlot base (seqTaken h s) = verifySlot base s := by
  have hread : ∀ a n, flashRead a n (seqTaken h s) = flashRead a n s := fun _ _ => rfl
  unfold verifySlot verifyImage
  dsimp only
  rw [slotManifest_seqTaken, manifestOk_seqTaken, hread]

theorem hostImageOk_seqTaken : hostImageOk (seqTaken h s) = hostImageOk s := by
  rw [hostImageOk, hostImageOk, verifySlot_seqTaken, slotManifest_seqTaken, glean_seqTaken]

/-! ### A command of the firmware in MGT -/

/-- A command that the firmware executes and ends: it is completed, and nothing but the host's part and what is sent changes
after its action. -/
theorem managed_ends {act : State → CmdEnd × State} {st sub res : Nat} (hd : Due h s) (hon : domOn dMGT s = true)
    (ha : act (seqTaken h s) = (.ends st sub res, u)) (hp : Places (seqTaken h s) u) :
    ∃ t, done (runCmd h true (needsOn dMGT act) s) = .next t ∧ Completed h st sub res s t ∧ Keeps 0x20010000 u t := by
  have ha' : needsOn dMGT act (seqTaken h s) = (.ends st sub res, u) := by simp [needsOn, domOn_seqTaken, hon, ha]
  exact ⟨_, congrArg Host.Outcome.next (runCmd_end hd ha'), completed_commandEnd hp, keeps_commandEnd _ _ _ _⟩

/-- R439, R443, R445: such a command is refused while MGT is not ON; what follows a command that was executed does not. -/
theorem managed_refused {act : State → CmdEnd × State} {post : Nat → State → State} (hd : Due h s) (hoff : domOn dMGT s = false)
    (hpost : ∀ x, post cREFUSED x = x) :
    ∃ t, done (runCmd h true (needsOn dMGT act) s post) = .next t ∧ Completed h cREFUSED 0 0 s t ∧ t.flash = s.flash ∧
      t.glean = s.glean := by
  have ha : needsOn dMGT act (seqTaken h s) = (.ends cREFUSED 0 0, seqTaken h s) := by
    simp only [needsOn, domOn_seqTaken, hoff]
    rfl
  have hk := keeps_commandEnd (h := h) (u := seqTaken h s) true cREFUSED 0 0
  exact ⟨_, congrArg Host.Outcome.next ((runCmd_end hd ha).trans (hpost _)), completed_commandEnd (.refl _), hk.rest.flash rfl,
    hk.rest.glean rfl⟩

/-- A command that changes nothing. -/
theorem managed_answers {act : State → CmdEnd × State} {st sub res : Nat} (hd : Due h s) (hon : domOn dMGT s = true)
    (ha : act (seqTaken h s) = (.ends st sub res, seqTaken h s)) :
    ∃ t, done (runCmd h true (needsOn dMGT act) s) = .next t ∧ Completed h st sub res s t ∧ t.flash = s.flash ∧
      t.glean = s.glean ∧ t.boot = s.boot ∧ imageState t = imageState s := by
  obtain ⟨t, ht, hc, hk⟩ := managed_ends hd hon ha (.refl _)
  exact ⟨t, ht, hc, hk.rest.flash rfl, hk.rest.glean rfl, hk.rest.boot rfl,
    (hk.rd F.GLEAN_STATUS_STATE (by decide +kernel)).trans imageState_seqTaken⟩

end Sys2Proof.Proofs

end

/-! PROOF. The bytes of the flash, and the host's writes of an image (spec/19_gleaning_firmware_settings.md R427, R445). -/

section

namespace Sys2Proof.Proofs

open Sys2Proof Sys2Proof.Machine Sys2Proof.Claims Sys2Proof.Laws

variable {s u : State} {h : CmdHdr}

/-! ### The flash, byte by byte (R427) -/

theorem flashByte_congr {a : Nat} (hf : u.flash = s.flash) : flashByte a u = flashByte a s := by rw [flashByte, flashByte, hf]

theorem flashByte_flashPut_same (a : Nat) (b : Byte) : flashByte a (flashPut a b s) = b := get_put_same _ _ _ _

theorem flashByte_flashPut_other {a x : Nat} (b : Byte) (hne : a ≠ x) : flashByte a (flashPut x b s) = flashByte a s :=
  get_put_other _ _ _ _ _ _ hne

theorem find_filter_gone {α : Type} {m : SMap α} {p : Nat × α → Bool} {a : Nat} (hp : ∀ v, p (a, v) = false) :
    SMap.find (m.filter p) a = none := by
  induction m with
  | nil => rfl
  | cons q m ih =>
    obtain ⟨k, v⟩ := q
    rw [List.filter_cons]
    split
    · next hk =>
      have hne : k ≠ a := fun e => by
        subst e
        simp [hp] at hk
      rw [SMap.find, if_neg hne, ih]
    · exact ih

/-- Every byte of an erased sector. -/
theorem flashByte_flashErase {a x : Nat} (hlo : x / 4096 * 4096 ≤ a) (hhi : a < x / 4096 * 4096 + 4096) :
    flashByte a (flashErase x s) = flashErased := by
  have hgone : SMap.find (flashErase x s).flash a = none := find_filter_gone fun v => by simp [hlo, hhi]
  rw [flashByte, SMap.get, hgone]
  rfl

/-- Outside the bytes programmed. -/
theorem flashByte_flashProgAll_other {l : List Byte} {a x : Nat} (h : a < x ∨ x + l.length ≤ a) :
    flashByte a (flashProgAll x l s) = flashByte a s := by
  induction l generalizing x s with
  | nil => rfl
  | cons b l ih =>
    rw [List.length_cons] at h
    exact (ih (by omega)).trans (flashByte_flashPut_other _ (by omega))

/-- Bytes programmed where the flash is erased. -/
theorem flashByte_flashProgAll {l : List Byte} {x i : Nat} (hi : i < l.length) (he : flashByte (x + i) s = flashErased) :
    flashByte (x + i) (flashProgAll x l s) = l[i] := by
  induction l generalizing x i s with
  | nil => cases hi
  | cons b l ih =>
    cases i with
    | zero =>
      refine (flashByte_flashProgAll_other (.inl (Nat.lt_succ_self x))).trans ((flashByte_flashPut_same _ _).trans ?_)
      rw [show flashByte x s = 255#8 from he]
      exact BitVec.allOnes_and
    | succ i =>
      have hx : x + (i + 1) = x + 1 + i := by omega
      rw [hx] at he ⊢
      exact ih (by simpa using hi) ((flashByte_flashPut_other _ (by omega)).trans he)

theorem flashRead_congr (a n : Nat) (hf : u.flash = s.flash) : flashRead a n u = flashRead a n s :=
  List.map_congr_left fun _ _ => flashByte_congr hf

/-- A read of what was programmed where the flash was erased. -/
theorem flashRead_flashProgAll {x : Nat} {l : List Byte} (he : ∀ i < l.length, flashByte (x + i) s = flashErased) :
    flashRead x l.length (flashProgAll x l s) = l := by
  refine List.ext_getElem (by simp [flashRead]) fun i _ hi => ?_
  simp only [flashRead, List.getElem_map, List.getElem_range]
  exact flashByte_flashProgAll hi (he i hi)

/-! ### The host's first write of an image (R445) -/

theorem slice_self {b : List Byte} {n : Nat} (h : b.length = n) : slice b 0 n = b := by
  rw [slice_of_le (by omega), List.drop_zero, List.take_of_length_le (by omega)]

/-- The first 4096 bytes touch one sector. -/
theorem sectorsOf_first {n : Nat} (h1 : 1 ≤ n) (h2 : n ≤ 4096) : sectorsOf 0 n = [0] := by
  have hlast : (0 + n - 1) / 4096 = 0 := by omega
  have hone : (List.range 256).filter (fun k => decide (0 ≤ k) && decide (k ≤ 0)) = [0] := by decide
  rw [sectorsOf, hlast]
  exact hone

/-- The bitmap's area after its header, right after the collection begins. -/
theorem flash_beginHostStaging : (beginHostStaging s).flash =
    (flashProgAll fBITMAP (bitmapMagic ++ [0, 0, 0, 0]) (flashErase fBITMAP s)).flash :=
  ((keeps_setImageState (A := 0x140060048000000000000000000000000000000000010010800) iCOLLECTING rfl (.refl _ _)).rest.flash rfl)

theorem sector_unprepared : bitmapBit 32 0 (beginHostStaging s) = true := by
  have herased : flashByte (fBITMAP + 32) (beginHostStaging s) = flashErased :=
    (flashByte_congr flash_beginHostStaging).trans ((flashByte_flashProgAll_other (.inr (by decide))).trans
      (flashByte_flashErase (by decide) (by decide)))
  rw [bitmapBit, show fBITMAP + 32 + 0 / 8 = fBITMAP + 32 from rfl, herased]
  decide

theorem flashRead_firstWrite {b : List Byte} (h1 : 1 ≤ b.length) (h2 : b.length ≤ 4096) :
    flashRead fSTAGING b.length (writeStaging 0 b (beginHostStaging s)) = b := by
  have hwrite : (writeStaging 0 b (beginHostStaging s)).flash =
      (flashProgAll fSTAGING b (bitmapClear 32 0 (flashErase fSTAGING (beginHostStaging s)))).flash := by
    have hprep : eachOf (sectorsOf 0 b.length) (fun s k => prepareSector k s) (beginHostStaging s) =
        bitmapClear 32 0 (flashErase fSTAGING (beginHostStaging s)) := by
      rw [sectorsOf_first h1 h2]
      exact if_pos sector_unprepared
    unfold writeStaging
    dsimp only
    rw [hprep]
    rfl
  rw [flashRead_congr _ _ hwrite]
  refine flashRead_flashProgAll fun i hi => ?_
  refine (flashByte_flashPut_other _ ?_).trans (flashByte_flashErase ?_ ?_)
  · unfold fSTAGING fBITMAP
    omega
  · unfold fSTAGING
    omega
  · unfold fSTAGING
    omega

/-! ### Writes of an image (R445) -/

/-- What IMAGE_WRITE_STAGING does where MGT is ON. -/
def writeStagingAct (len : BitVec 16) (off : Word) (d : DmaBytes) (s : State) : CmdEnd × State :=
  if !stagingOpen s then imageEnds cREFUSED s
  else if len.toNat == 0 && off.toNat == 0 then imageEnds cDONE (whenB (on F.GLEAN_STATUS_HOST s) releaseStaging s)
  else if len.toNat == 0 || decide (4096 < len.toNat) || decide (1048576 < off.toNat + len.toNat) then imageEnds cBAD_VALUE s
  else
    match d with
    | .err _ => cmdDmaErr s
    | .ok b => stageBytes len.toNat off.toNat b s

theorem exec_imageWriteStaging (len : BitVec 16) (off : Word) (d : DmaBytes) :
    exec (.imageWriteStaging h len off d) s = done (runCmd h true (needsOn dMGT (writeStagingAct len off d)) s) := rfl

/-- A write of bytes to a slot that may be written, in range. -/
theorem writeStagingAct_inRange {len : BitVec 16} {off : Word} {b : List Byte} (ho : stagingOpen s = true) (h1 : 1 ≤ len.toNat)
    (h2 : len.toNat ≤ 4096) (h3 : off.toNat + len.toNat ≤ 1048576) :
    writeStagingAct len off (.ok b) s = stageBytes len.toNat off.toNat b s := by
  refine (if_neg (by simp [ho])).trans ((if_neg ?_).trans (if_neg ?_))
  · simp [show len.toNat ≠ 0 by omega]
  · simp [show len.toNat ≠ 0 by omega, Nat.not_lt.mpr h2, Nat.not_lt.mpr h3]

/-- The parts that the writes of an image reach. -/
def imageReach : Nat := 0x140060148000000000000000000000000000000000018810800

theorem completionRegs_imageReach : completionRegs.all (fun off => !Reach.reg imageReach off) = true := by decide +kernel

theorem toNat_ne_zero {off : Word} (h : off ≠ 0) : off.toNat ≠ 0 := fun k => h (BitVec.eq_of_toNat_eq k)

theorem writeStaging_end (off : Nat) (b : List Byte) : Told s (writeStaging off b s) ∧
    (writeStaging off b s).glean.hostNext = some (off + b.length) ∧ Keeps 0x8800000 s (writeStaging off b s) :=
  have hk : Keeps 0x8800000 s (writeStaging off b s) := keeps_writeStaging off b rfl (.refl _ s)
  ⟨told_of_keeps hk (by decide), rfl, hk⟩

theorem told_setGlean (f : GleanSt → GleanSt) : Told s (setGlean f s) := told_of_host rfl

theorem told_beginHostStaging : Told s (beginHostStaging s) := by
  have hflash : Keeps 0x8000000 s (flashProgAll fBITMAP (bitmapMagic ++ [0, 0, 0, 0]) (flashErase fBITMAP s)) :=
    keeps_flashProgAll _ _ rfl (keeps_flashErase _ rfl (.refl _ s))
  exact (((((told_of_keeps hflash (by decide)).trans (told_setGlean _)).trans (told_wr _ _)).trans (told_wr _ _)).trans
    (told_wr _ _)).trans ((told_wr _ _).trans (told_setImageState _))

theorem beginHostStaging_end : Told s (beginHostStaging s) ∧ imageState (beginHostStaging s) = iCOLLECTING ∧
    rd F.GLEAN_STATUS_HOST (beginHostStaging s) = 1 ∧ Keeps imageReach s (beginHostStaging s) := by
  refine ⟨told_beginHostStaging, imageState_setImageState (by decide), ?_, keeps_beginHostStaging rfl (.refl _ s)⟩
  refine (rd_setImageState (by decide) (by decide) (by decide +kernel)).trans ?_
  exact (rd_wr_other _ _ _ _ (by decide) (by decide)).trans (rd_wr_fits (by decide) (by decide))

theorem imageWrite_first {len : BitVec 16} {b : List Byte} (hd : Due h s) (hon : domOn dMGT s = true) (ho : stagingOpen s = true)
    (h1 : 1 ≤ len.toNat) (h2 : len.toNat ≤ 4096) (hb : b.length = len.toNat) :
    ∃ t, exec (.imageWriteStaging h len 0 (.ok b)) s = .next t ∧ Completed h cDONE 0 iCOLLECTING s t ∧
      imageState t = iCOLLECTING ∧ rd F.GLEAN_STATUS_HOST t = 1 ∧ t.glean.hostNext = some len.toNat ∧
      flashRead fSTAGING len.toNat t = b := by
  rw [exec_imageWriteStaging]
  obtain ⟨htold, hstate, hhost, hbegin⟩ := beginHostStaging_end (s := seqTaken h s)
  obtain ⟨htold', hnext, hwrite⟩ := writeStaging_end (s := beginHostStaging (seqTaken h s)) 0 b
  have hstate' : imageState (writeStaging 0 b (beginHostStaging (seqTaken h s))) = iCOLLECTING :=
    (hwrite.rd F.GLEAN_STATUS_STATE (by decide +kernel)).trans hstate
  have ha : writeStagingAct len 0 (.ok b) (seqTaken h s) =
      (.ends cDONE 0 iCOLLECTING, writeStaging 0 b (beginHostStaging (seqTaken h s))) := by
    refine (writeStagingAct_inRange (off := 0) (stagingOpen_seqTaken.trans ho) h1 h2
      (show 0 + len.toNat ≤ 1048576 by omega)).trans ?_
    refine (if_neg (by simp)).trans ?_
    rw [slice_self hb]
    exact congrArg (fun n => (CmdEnd.ends cDONE 0 n, writeStaging 0 b (beginHostStaging (seqTaken h s)))) hstate'
  have hp : Places (seqTaken h s) (writeStaging 0 b (beginHostStaging (seqTaken h s))) :=
    places_of_keeps (keeps_writeStaging (A := imageReach) 0 b rfl hbegin) (htold.trans htold') completionRegs_imageReach
  obtain ⟨t, ht, hc, hk⟩ := managed_ends hd hon ha hp
  refine ⟨t, ht, hc, (hk.rd F.GLEAN_STATUS_STATE (by decide +kernel)).trans hstate', ?_, ?_, ?_⟩
  · exact (hk.rd _ (by decide +kernel)).trans ((hwrite.rd _ (by decide +kernel)).trans hhost)
  · rw [hk.rest.glean rfl, hnext, hb, Nat.zero_add]
  · rw [flashRead_congr _ _ (hk.rest.flash rfl), ← hb]
    exact flashRead_firstWrite (by omega) (by omega)

theorem imageWrite_next {len : BitVec 16} {off : Word} {b : List Byte} (hd : Due h s) (hon : domOn dMGT s = true)
    (ho : stagingOpen s = true) (h1 : 1 ≤ len.toNat) (h2 : len.toNat ≤ 4096) (hoff : off ≠ 0)
    (h3 : off.toNat + len.toNat ≤ 1048576) (hb : b.length = len.toNat) (hn : s.glean.hostNext = some off.toNat) :
    ∃ t, exec (.imageWriteStaging h len off (.ok b)) s = .next t ∧ Completed h cDONE 0 iCOLLECTING s t ∧
      imageState t = iCOLLECTING ∧ t.glean.hostNext = some (off.toNat + len.toNat) := by
  rw [exec_imageWriteStaging]
  generalize hu : setImageState iCOLLECTING (wr F.IMAGE_STAGED_VERSION 0 (seqTaken h s)) = u
  have hstate : imageState u = iCOLLECTING := hu ▸ imageState_setImageState (by decide)
  have htold : Told (seqTaken h s) u := hu ▸ (told_wr _ _).trans (told_setImageState _)
  have hset : Keeps imageReach (seqTaken h s) u :=
    hu ▸ keeps_setImageState _ rfl (keeps_wr _ _ (cov_IMAGE_STAGED _ rfl rfl) (.refl _ _))
  obtain ⟨htold', hnext, hwrite⟩ := writeStaging_end (s := u) off.toNat b
  have hstate' : imageState (writeStaging off.toNat b u) = iCOLLECTING :=
    (hwrite.rd F.GLEAN_STATUS_STATE (by decide +kernel)).trans hstate
  have ha : writeStagingAct len off (.ok b) (seqTaken h s) = (.ends cDONE 0 iCOLLECTING, writeStaging off.toNat b u) := by
    refine (writeStagingAct_inRange (stagingOpen_seqTaken.trans ho) h1 h2 h3).trans ?_
    refine (if_neg (by simp [glean_seqTaken, hn])).trans ?_
    rw [slice_self hb, beq_false_of_ne (toNat_ne_zero hoff), if_neg (by decide), hu]
    exact congrArg (fun n => (CmdEnd.ends cDONE 0 n, writeStaging off.toNat b u)) hstate'
  have hp : Places (seqTaken h s) (writeStaging off.toNat b u) :=
    places_of_keeps (keeps_writeStaging (A := imageReach) _ b rfl hset) (htold.trans htold') completionRegs_imageReach
  obtain ⟨t, ht, hc, hk⟩ := managed_ends hd hon ha hp
  refine ⟨t, ht, hc, (hk.rd F.GLEAN_STATUS_STATE (by decide +kernel)).trans hstate', ?_⟩
  rw [hk.rest.glean rfl, hnext, hb]

/-- R445: what is out of range or out of order. -/
theorem imageWrite_bad {len : BitVec 16} {off : Word} {b : List Byte} (hd : Due h s) (hon : domOn dMGT s = true)
    (ho : stagingOpen s = true) (hbad : (len = 0 ∧ off ≠ 0) ∨ 4096 < len.toNat ∨ 1048576 < off.toNat + len.toNat ∨
      (1 ≤ len.toNat ∧ off ≠ 0 ∧ s.glean.hostNext ≠ some off.toNat)) :
    ∃ t, exec (.imageWriteStaging h len off (.ok b)) s = .next t ∧ Completed h cBAD_VALUE 0 (imageState s) s t ∧
      t.flash = s.flash ∧ t.glean = s.glean := by
  rw [exec_imageWriteStaging]
  have hne : ¬(len.toNat = 0 ∧ off.toNat = 0) := by
    rintro ⟨hl, hz⟩
    rcases hbad with ⟨-, hb⟩ | hb | hb | ⟨hb, -⟩
    · exact toNat_ne_zero hb hz
    · omega
    · omega
    · omega
  have ha : writeStagingAct len off (.ok b) (seqTaken h s) = (.ends cBAD_VALUE 0 (imageState s), seqTaken h s) := by
    refine (if_neg (by simp [stagingOpen_seqTaken, ho])).trans ((if_neg (by simpa using hne)).trans ?_)
    rw [← imageState_seqTaken (h := h)]
    split
    · rfl
    · next hr =>
      simp only [Bool.or_eq_true, beq_iff_eq, decide_eq_true_eq, not_or, Nat.not_lt] at hr
      obtain ⟨⟨hl, h4⟩, h1⟩ := hr
      refine if_pos ?_
      rcases hbad with ⟨hb, -⟩ | hb | hb | ⟨-, hoff, hb⟩
      · exact absurd (congrArg BitVec.toNat hb) hl
      · omega
      · omega
      · simp [toNat_ne_zero hoff, glean_seqTaken, hb]
  obtain ⟨t, ht, hc, hflash, hglean, -⟩ := managed_answers hd hon ha
  exact ⟨t, ht, hc, hflash, hglean⟩

/-- R304: the buffer could not be read. -/
theorem imageWrite_unread {len : BitVec 16} {off : Word} {c : BitVec 4} (hd : Due h s) (hon : domOn dMGT s = true)
    (ho : stagingOpen s = true) (h1 : 1 ≤ len.toNat) (h2 : len.toNat ≤ 4096) (h3 : off.toNat + len.toNat ≤ 1048576)
    (hcount : countsNow s = true) :
    ∃ t, exec (.imageWriteStaging h len off (.err c)) s = .next t ∧ Completed h cDMA_ERR 0 0 s t ∧
      Tallied C.HOST_DMA_ERR 1 s t ∧ t.flash = s.flash ∧ t.glean = s.glean := by
  rw [exec_imageWriteStaging]
  have ha : writeStagingAct len off (.err c) (seqTaken h s) =
      (.ends cDMA_ERR 0 0, count C.HOST_DMA_ERR (seqTaken h s)) := by
    refine (if_neg (by simp [stagingOpen_seqTaken, ho])).trans ((if_neg ?_).trans (if_neg ?_))
    · simp [show len.toNat ≠ 0 by omega]
    · simp [show len.toNat ≠ 0 by omega, Nat.not_lt.mpr h2, Nat.not_lt.mpr h3]
  have hcnt : Keeps imageReach (seqTaken h s) (count C.HOST_DMA_ERR (seqTaken h s)) := keeps_count _ rfl (.refl _ _)
  have hc' : Keeps countingSet (seqTaken h s) (count C.HOST_DMA_ERR (seqTaken h s)) := keeps_count _ rfl (.refl _ _)
  obtain ⟨t, ht, hc, hk⟩ := managed_ends hd hon ha (places_of_keeps hcnt (told_count _) completionRegs_imageReach)
  refine ⟨t, ht, hc, ?_, (hk.rest.flash rfl).trans (hc'.rest.flash rfl), (hk.rest.glean rfl).trans (hc'.rest.glean rfl)⟩
  have hseq : counterAddr C.HOST_DMA_ERR ≠ R.CMD_SEQ := counterAddr_ne_of_bookkeeping (by decide) _
  rw [Tallied, hk.rest.regs _ (by decide +kernel), reg_count_same _ (by decide) (by decide) (show countsNow (seqTaken h s) = true
    from hcount), reg_seqTaken hseq]

end Sys2Proof.Proofs

end

/-! PROOF. The host's IMAGE commands and SOFT_RESET (spec/19 R439, R443, R445; spec/12 R300; spec/02 R38). -/

section

namespace Sys2Proof.Proofs

open Sys2Proof Sys2Proof.Machine Sys2Proof.Claims Sys2Proof.Laws

variable {s u : State} {h : CmdHdr}

/-! ### The slot given back, and what is refused -/

theorem releaseStaging_end : Told s (releaseStaging s) ∧ imageState (releaseStaging s) = iNONE ∧
    rd F.GLEAN_STATUS_HOST (releaseStaging s) = 0 ∧ (releaseStaging s).glean.hostNext = none ∧
    Keeps imageReach s (releaseStaging s) := by
  have herase : Keeps 0x8000000 s (flashErase fBITMAP s) := keeps_flashErase _ rfl (.refl _ s)
  refine ⟨?_, imageState_setImageState (by decide), ?_, rfl, keeps_releaseStaging rfl (.refl _ s)⟩
  · exact ((((told_of_keeps herase (by decide)).trans (told_wr _ _)).trans (told_wr _ _)).trans (told_setImageState _)).trans
      (told_setGlean _)
  · exact (rd_setImageState (f := F.GLEAN_STATUS_HOST) (by decide) (by decide) (by decide +kernel)).trans
      (rd_wr_fits (by decide) (by decide))

theorem writeStagingAct_empty (d : DmaBytes) (ho : stagingOpen s = true) :
    writeStagingAct 0 0 d s = imageEnds cDONE (whenB (on F.GLEAN_STATUS_HOST s) releaseStaging s) :=
  (if_neg (by simp [ho])).trans (if_pos rfl)

theorem imageWrite_release {d : DmaBytes} (hd : Due h s) (hon : domOn dMGT s = true) (ho : stagingOpen s = true)
    (hhost : on F.GLEAN_STATUS_HOST s = true) : ∃ t, exec (.imageWriteStaging h 0 0 d) s = .next t ∧
      Completed h cDONE 0 iNONE s t ∧ rd F.GLEAN_STATUS_HOST t = 0 ∧ t.glean.hostNext = none := by
  rw [exec_imageWriteStaging]
  obtain ⟨htold, hstate, hoff, hnext, hrel⟩ := releaseStaging_end (s := seqTaken h s)
  have ha : writeStagingAct 0 0 d (seqTaken h s) = (.ends cDONE 0 iNONE, releaseStaging (seqTaken h s)) := by
    rw [writeStagingAct_empty d (stagingOpen_seqTaken.trans ho), host_seqTaken, hhost]
    exact congrArg (fun n => (CmdEnd.ends cDONE 0 n, releaseStaging (seqTaken h s))) hstate
  obtain ⟨t, ht, hc, hk⟩ := managed_ends hd hon ha (places_of_keeps hrel htold completionRegs_imageReach)
  exact ⟨t, ht, hc, (hk.rd _ (by decide +kernel)).trans hoff, (congrArg GleanSt.hostNext (hk.rest.glean rfl)).trans hnext⟩

theorem imageWrite_nothing {d : DmaBytes} (hd : Due h s) (hon : domOn dMGT s = true) (ho : stagingOpen s = true)
    (hhost : on F.GLEAN_STATUS_HOST s = false) : ∃ t, exec (.imageWriteStaging h 0 0 d) s = .next t ∧
      Completed h cDONE 0 (imageState s) s t ∧ t.flash = s.flash ∧ t.glean = s.glean := by
  rw [exec_imageWriteStaging]
  have ha : writeStagingAct 0 0 d (seqTaken h s) = (.ends cDONE 0 (imageState s), seqTaken h s) := by
    rw [writeStagingAct_empty d (stagingOpen_seqTaken.trans ho), host_seqTaken, hhost, ← imageState_seqTaken (h := h)]
    rfl
  obtain ⟨t, ht, hc, hflash, hglean, -⟩ := managed_answers hd hon ha
  exact ⟨t, ht, hc, hflash, hglean⟩

theorem imageWrite_closed {len : BitVec 16} {off : Word} {d : DmaBytes} (hd : Due h s) (hon : domOn dMGT s = true)
    (ho : stagingOpen s = false) : ∃ t, exec (.imageWriteStaging h len off d) s = .next t ∧
      Completed h cREFUSED 0 (imageState s) s t ∧ t.flash = s.flash ∧ t.glean = s.glean := by
  rw [exec_imageWriteStaging]
  have ha : writeStagingAct len off d (seqTaken h s) = (.ends cREFUSED 0 (imageState s), seqTaken h s) := by
    rw [← imageState_seqTaken (h := h)]
    exact if_pos (by simp [stagingOpen_seqTaken, ho])
  obtain ⟨t, ht, hc, hflash, hglean, -⟩ := managed_answers hd hon ha
  exact ⟨t, ht, hc, hflash, hglean⟩

/-- R439, R443, R445: none of the commands is served while MGT is not ON. -/
theorem image_asleep {len : BitVec 16} {off : Word} {d : DmaBytes} {i : Instr} (hd : Due h s)
    (hi : i ∈ [.imageWriteStaging h len off d, .imageVerify h, .imageConfirm h, .imageRevert h]) (hoff : domOn dMGT s = false) :
    ∃ t, exec i s = .next t ∧ Completed h cREFUSED 0 0 s t ∧ t.flash = s.flash ∧ t.glean = s.glean := by
  simp only [List.mem_cons, List.not_mem_nil, or_false] at hi
  rcases hi with rfl | rfl | rfl | rfl
  all_goals exact managed_refused hd hoff fun _ => rfl

/-! ### IMAGE_VERIFY (R445) -/

/-- What IMAGE_VERIFY does where MGT is ON. -/
def verifyAct (s : State) : CmdEnd × State :=
  if !layoutOk s || !on F.GLEAN_STATUS_HOST s then imageEnds cREFUSED s
  else if hostImageOk s then imageEnds cDONE (stagedVerified s)
  else imageEnds cDONE (count C.GLEAN_VERIFY_FAIL s)

theorem exec_imageVerify : exec (.imageVerify h) s = done (runCmd h true (needsOn dMGT verifyAct) s) := rfl

theorem verifyAct_judged (hl : layoutOk s = true) (hh : on F.GLEAN_STATUS_HOST s = true) : verifyAct s =
    if hostImageOk s then imageEnds cDONE (stagedVerified s) else imageEnds cDONE (count C.GLEAN_VERIFY_FAIL s) :=
  if_neg (by simp [hl, hh])

theorem imageVerify_accepts (hd : Due h s) (hon : domOn dMGT s = true) (hl : layoutOk s = true)
    (hh : on F.GLEAN_STATUS_HOST s = true) (hok : hostImageOk s = true) :
    ∃ t, exec (.imageVerify h) s = .next t ∧ imageState t = iVERIFIED ∧ Completed h cDONE 0 iVERIFIED s t := by
  rw [exec_imageVerify]
  have hstate : imageState (stagedVerified (seqTaken h s)) = iVERIFIED := imageState_setImageState (by decide)
  have ha : verifyAct (seqTaken h s) = (.ends cDONE 0 iVERIFIED, stagedVerified (seqTaken h s)) := by
    rw [verifyAct_judged (layoutOk_seqTaken.trans hl) (host_seqTaken.trans hh), hostImageOk_seqTaken, if_pos hok]
    exact congrArg (fun n => (CmdEnd.ends cDONE 0 n, stagedVerified (seqTaken h s))) hstate
  have htold : Told (seqTaken h s) (stagedVerified (seqTaken h s)) := (told_wr _ _).trans (told_setImageState _)
  obtain ⟨t, ht, hc, hk⟩ := managed_ends hd hon ha
    (places_of_keeps (keeps_stagedVerified (A := imageReach) rfl (.refl _ _)) htold completionRegs_imageReach)
  exact ⟨t, ht, (hk.rd F.GLEAN_STATUS_STATE (by decide +kernel)).trans hstate, hc⟩

theorem imageVerify_rejects (hd : Due h s) (hon : domOn dMGT s = true) (hl : layoutOk s = true)
    (hh : on F.GLEAN_STATUS_HOST s = true) (hok : hostImageOk s = false) (hcount : countsNow s = true) :
    ∃ t, exec (.imageVerify h) s = .next t ∧ imageState t = imageState s ∧ Completed h cDONE 0 (imageState s) s t ∧
      Tallied C.GLEAN_VERIFY_FAIL 1 s t := by
  rw [exec_imageVerify]
  have hcnt : Keeps countingSet (seqTaken h s) (count C.GLEAN_VERIFY_FAIL (seqTaken h s)) := keeps_count _ rfl (.refl _ _)
  have hstate : imageState (count C.GLEAN_VERIFY_FAIL (seqTaken h s)) = imageState s :=
    (hcnt.rd F.GLEAN_STATUS_STATE (by decide +kernel)).trans imageState_seqTaken
  have ha : verifyAct (seqTaken h s) = (.ends cDONE 0 (imageState s), count C.GLEAN_VERIFY_FAIL (seqTaken h s)) := by
    rw [verifyAct_judged (layoutOk_seqTaken.trans hl) (host_seqTaken.trans hh), hostImageOk_seqTaken, if_neg (by simp [hok])]
    exact congrArg (fun n => (CmdEnd.ends cDONE 0 n, count C.GLEAN_VERIFY_FAIL (seqTaken h s))) hstate
  obtain ⟨t, ht, hc, hk⟩ := managed_ends hd hon ha (places_of_keeps hcnt (told_count _) (by decide +kernel))
  refine ⟨t, ht, (hk.rd F.GLEAN_STATUS_STATE (by decide +kernel)).trans hstate, hc, ?_⟩
  have hseq : counterAddr C.GLEAN_VERIFY_FAIL ≠ R.CMD_SEQ := counterAddr_ne_of_bookkeeping (by decide) _
  rw [Tallied, hk.rest.regs _ (by decide +kernel), reg_count_same _ (by decide) (by decide) (show countsNow (seqTaken h s) = true
    from hcount), reg_seqTaken hseq]

theorem imageVerify_refused (hd : Due h s) (hon : domOn dMGT s = true)
    (hno : layoutOk s = false ∨ on F.GLEAN_STATUS_HOST s = false) :
    ∃ t, exec (.imageVerify h) s = .next t ∧ Completed h cREFUSED 0 (imageState s) s t ∧ imageState t = imageState s := by
  rw [exec_imageVerify]
  have ha : verifyAct (seqTaken h s) = (.ends cREFUSED 0 (imageState s), seqTaken h s) := by
    rw [← imageState_seqTaken (h := h)]
    refine if_pos ?_
    rw [layoutOk_seqTaken, host_seqTaken]
    rcases hno with hno | hno <;> simp [hno]
  obtain ⟨t, ht, hc, -, -, -, hstate⟩ := managed_answers hd hon ha
  exact ⟨t, ht, hc, hstate⟩

/-! ### IMAGE_SWAP (R439) -/

/-- What a stamped command does at the tick its stamp names. -/
theorem cmdTick_at {w : Word} {x : Nat} {f : Nat → State → CmdEnd × State} (hx : CmdAt w x s) : cmdTick w f s = f x s := by
  unfold cmdTick
  rcases hx with ⟨hw, rfl⟩ | ⟨hw, hok, rfl, hle⟩
  · exact if_pos hw
  · rw [if_neg hw, if_neg (by simp [hok])]
    exact if_neg (Int.not_lt.mpr hle)

theorem imageSwap_answers {w : Word} {x : Nat} (hd : Due h s) (hon : domOn dMGT s = true) (hx : CmdAt w x s)
    (hswap : s.glean.swap = none) :
    (swapAllowed none none s = true → ∃ t, exec (.imageSwap h w) s = .next t ∧ t.glean.swap = some (x, 5) ∧
      Completed h cDONE 0 iVERIFIED s t) ∧
    (swapAllowed none none s = false → ∃ t, exec (.imageSwap h w) s = .next t ∧ t.glean.swap = none ∧
      Completed h cREFUSED 0 (imageState s) s t) := by
  have htick : ∀ f : Nat → State → CmdEnd × State, cmdTick w f (seqTaken h s) = f x (seqTaken h s) := fun f => cmdTick_at hx
  constructor
  · intro hok
    have hver : imageState s = iVERIFIED := by
      simp only [swapAllowed, Bool.and_eq_true, beq_iff_eq] at hok
      exact hok.1.1.1.1.1.2
    generalize hu : setGlean (fun g => { g with swap := some (x, 5) }) (seqTaken h s) = u
    have hk' : Keeps Reach.T.glean (seqTaken h s) u := hu ▸ keeps_setGlean _ rfl (fun hg => hg) (.refl _ _)
    have hstage : stageSwap x 5 (seqTaken h s) = u := by
      rw [stageSwap, glean_seqTaken, hswap]
      exact hu
    have hstate : imageState u = iVERIFIED :=
      (hk'.rd F.GLEAN_STATUS_STATE (by decide +kernel)).trans (imageState_seqTaken.trans hver)
    have ha : cmdTick w
        (fun at_ s => if swapAllowed none none s then imageEnds cDONE (stageSwap at_ 5 s) else imageEnds cREFUSED s)
        (seqTaken h s) = (.ends cDONE 0 iVERIFIED, u) := by
      rw [htick, swapAllowed_seqTaken, if_pos hok, hstage]
      exact congrArg (fun n => (CmdEnd.ends cDONE 0 n, u)) hstate
    obtain ⟨t, ht, hc, hk⟩ := managed_ends hd hon ha
      (places_of_keeps hk' (told_of_keeps hk' (by decide)) (by decide +kernel))
    refine ⟨t, ht, ?_, hc⟩
    rw [hk.rest.glean rfl, ← hu]
    rfl
  · intro hno
    have ha : cmdTick w
        (fun at_ s => if swapAllowed none none s then imageEnds cDONE (stageSwap at_ 5 s) else imageEnds cREFUSED s)
        (seqTaken h s) = (.ends cREFUSED 0 (imageState s), seqTaken h s) := by
      rw [htick, swapAllowed_seqTaken, if_neg (by simp [hno]), ← imageState_seqTaken (h := h)]
      rfl
    obtain ⟨t, ht, hc, -, hglean, -⟩ := managed_answers hd hon ha
    exact ⟨t, ht, (congrArg GleanSt.swap hglean).trans hswap, hc⟩

/-! ### A soft reset asked for after its command (R300, R38) -/

theorem told_setAx (k : Nat) (f : AxSt → AxSt) : Told s (setAx k f s) := told_of_host rfl

theorem told_rundown (k cause : Nat) : Told s (rundown k cause s) := by
  unfold rundown
  dsimp only
  have hstart : ∀ f v c a, Told s (raise c a (wr (F.AX_STATUS_CAUSE k) v (setAx k f s))) := fun f v c a =>
    ((told_setAx k f).trans (told_wr _ _)).trans (told_raise _ _)
  split
  · exact (hstart _ _ _ _).trans (told_wr _ _)
  split
  · exact (hstart _ _ _ _).trans (((told_wr _ _).trans (told_wr _ _)).trans (told_setAx _ _))
  · exact told_of_host rfl

theorem told_softRequest (cause : Fld) : Told s (softRequest cause s) := by
  unfold softRequest
  generalize hx : wr ⟨R.RESET_CAUSE, cause.hi, cause.lo⟩ 1 s = x
  have hset : Told s x := hx ▸ told_wr _ _
  dsimp only
  split
  · exact hset
  · exact (hset.trans (told_of_host (t := { x with boot := { x.boot with softPending := true } }) rfl)).trans
      ((told_rundown 0 4).trans (told_rundown 1 4))

/-- The run-down that a soft reset begins does not undo the completion before it. -/
theorem completed_softRequest {cause : Fld} {st sub res : Nat} (hc : Completed h st sub res s u) :
    Completed h st sub res s (softRequest cause u) := by
  have hk : Keeps 0x140060008000004000000000000000000000000008010090080 u (softRequest cause u) :=
    keeps_softRequest cause rfl (.refl _ u)
  obtain ⟨hout, hcons, hseq⟩ := hc
  refine ⟨?_, ((told_softRequest cause).ringCons _).trans hcons, (hk.rd _ (by decide +kernel)).trans hseq⟩
  rw [hk.rest.out rfl]
  exact hout

theorem rd_softCmd : rd F.RESET_CAUSE_SOFT_CMD (softRequest F.RESET_CAUSE_SOFT_CMD u) = 1 := by
  have hcause := (softRequest_end (s := u) (cause := F.RESET_CAUSE_SOFT_CMD)).2
  rw [rd, show F.RESET_CAUSE_SOFT_CMD.off = R.RESET_CAUSE from rfl, hcause, fget_fput_same _ _ _ _ (by decide)]
  rfl

/-- A command whose completion a soft reset follows. -/
theorem reset_follows {act : State → CmdEnd × State} {recorded : Bool} {res : Nat} (hd : Due h s)
    (ha : act (seqTaken h s) = (.ends cDONE 0 res, seqTaken h s)) :
    ∃ t, done (runCmd h recorded act s resetAfter) = .next t ∧ t.boot.softPending = true ∧ rd F.RESET_CAUSE_SOFT_CMD t = 1 ∧
      Completed h cDONE 0 res s t :=
  ⟨_, congrArg Host.Outcome.next (runCmd_end hd ha), softRequest_end.1, rd_softCmd,
    completed_softRequest (completed_commandEnd (.refl _))⟩

/-- A command that is not executed asks for no reset. -/
theorem reset_unasked {act : State → CmdEnd × State} {recorded : Bool} {st res : Nat} (hd : Due h s) (hst : st ≠ cDONE)
    (ha : act (seqTaken h s) = (.ends st 0 res, seqTaken h s)) :
    ∃ t, done (runCmd h recorded act s resetAfter) = .next t ∧ Completed h st 0 res s t ∧ t.boot = s.boot := by
  have hk := keeps_commandEnd (h := h) (u := seqTaken h s) recorded st 0 res
  have hpost : resetAfter st (commandEnd h recorded st 0 res (seqTaken h s)) = commandEnd h recorded st 0 res (seqTaken h s) := by
    rw [resetAfter, beq_false_of_ne hst]
    rfl
  exact ⟨_, congrArg Host.Outcome.next ((runCmd_end hd ha).trans hpost), completed_commandEnd (.refl _), hk.rest.boot rfl⟩

/-! ### IMAGE_CONFIRM and IMAGE_REVERT (R443) -/

theorem confirmTrial_end : Told s (confirmTrial s) ∧ imageState (confirmTrial s) = iCONFIRMED ∧
    rd F.IMAGE_RUNNING_TRIAL (confirmTrial s) = 0 ∧
    Keeps 0x1400604c8000000000000000000000000000000000018010800 s (confirmTrial s) := by
  refine ⟨?_, imageState_setImageState (by decide), ?_, keeps_confirmTrial rfl (.refl _ s)⟩
  · have hwrite : ∀ b, Keeps 0x400000000000000000000000000000000000018000000 s
        (settingsConfirm b (jWrite jCONFIRMED (bytesBE 4 (rd F.IMAGE_RUNNING_VERSION s)) s)) := fun b =>
      keeps_settingsConfirm b rfl (keeps_jWrite _ _ rfl (.refl _ s))
    exact ((told_of_keeps (hwrite _) (by decide)).trans (told_wr _ _)).trans (told_setImageState _)
  · exact (rd_setImageState (f := F.IMAGE_RUNNING_TRIAL) (by decide) (by decide) (by decide +kernel)).trans
      (rd_wr_fits (by decide) (by decide))

/-- What IMAGE_CONFIRM does where MGT is ON. -/
def confirmAct (s : State) : CmdEnd × State := if onTrial s then imageEnds cDONE (confirmTrial s) else imageEnds cREFUSED s

theorem exec_imageConfirm : exec (.imageConfirm h) s = done (runCmd h true (needsOn dMGT confirmAct) s) := rfl

theorem imageConfirm_confirms (hd : Due h s) (hon : domOn dMGT s = true) (ht : onTrial s = true) :
    ∃ t, exec (.imageConfirm h) s = .next t ∧ rd F.IMAGE_RUNNING_TRIAL t = 0 ∧ imageState t = iCONFIRMED ∧
      Completed h cDONE 0 iCONFIRMED s t := by
  rw [exec_imageConfirm]
  obtain ⟨htold, hstate, htrial, hk'⟩ := confirmTrial_end (s := seqTaken h s)
  have ha : confirmAct (seqTaken h s) = (.ends cDONE 0 iCONFIRMED, confirmTrial (seqTaken h s)) := by
    rw [confirmAct, onTrial_seqTaken, if_pos ht]
    exact congrArg (fun n => (CmdEnd.ends cDONE 0 n, confirmTrial (seqTaken h s))) hstate
  obtain ⟨t, hexec, hc, hk⟩ := managed_ends hd hon ha (places_of_keeps hk' htold (by decide +kernel))
  exact ⟨t, hexec, (hk.rd _ (by decide +kernel)).trans htrial, (hk.rd F.GLEAN_STATUS_STATE (by decide +kernel)).trans hstate, hc⟩

theorem imageConfirm_refused (hd : Due h s) (hon : domOn dMGT s = true) (ht : onTrial s = false) :
    ∃ t, exec (.imageConfirm h) s = .next t ∧ Completed h cREFUSED 0 (imageState s) s t ∧ t.flash = s.flash := by
  rw [exec_imageConfirm]
  have ha : confirmAct (seqTaken h s) = (.ends cREFUSED 0 (imageState s), seqTaken h s) := by
    rw [confirmAct, onTrial_seqTaken, if_neg (by simp [ht]), ← imageState_seqTaken (h := h)]
    rfl
  obtain ⟨t, hexec, hc, hflash, -⟩ := managed_answers hd hon ha
  exact ⟨t, hexec, hc, hflash⟩

/-- What IMAGE_REVERT answers where MGT is ON. -/
def revertAct (s : State) : CmdEnd × State := if onTrial s then imageEnds cDONE s else imageEnds cREFUSED s

theorem exec_imageRevert :
    exec (.imageRevert h) s = done (runCmd h true (needsOn dMGT revertAct) s resetAfter) := rfl

theorem revertAct_on (hon : domOn dMGT s = true) : needsOn dMGT revertAct (seqTaken h s) =
    (.ends (if onTrial s = true then cDONE else cREFUSED) 0 (imageState s), seqTaken h s) := by
  rw [needsOn, domOn_seqTaken, if_pos hon, revertAct, onTrial_seqTaken, ← imageState_seqTaken (h := h)]
  split
  · rfl
  · rfl

theorem imageRevert_resets (hd : Due h s) (hon : domOn dMGT s = true) (ht : onTrial s = true) :
    ∃ t, exec (.imageRevert h) s = .next t ∧ t.boot.softPending = true ∧ rd F.RESET_CAUSE_SOFT_CMD t = 1 ∧
      Completed h cDONE 0 (imageState s) s t := by
  rw [exec_imageRevert]
  have ha := revertAct_on (h := h) hon
  rw [if_pos ht] at ha
  exact reset_follows hd ha

theorem imageRevert_refused (hd : Due h s) (hon : domOn dMGT s = true) (ht : onTrial s = false) :
    ∃ t, exec (.imageRevert h) s = .next t ∧ Completed h cREFUSED 0 (imageState s) s t ∧ t.boot = s.boot := by
  rw [exec_imageRevert]
  have ha := revertAct_on (h := h) hon
  rw [if_neg (by simp [ht])] at ha
  exact reset_unasked hd (by decide) ha

/-! ### SOFT_RESET -/

/-- What SOFT_RESET answers. -/
def softResetAct (key : BitVec 16) (s : State) : CmdEnd × State :=
  if key = 0x5AFE then ends cDONE 0 0 s else ends cBAD_VALUE 0 0 s

theorem exec_softResetCommand (key : BitVec 16) :
    exec (.softResetCommand h key) s = done (runCmd h false (softResetAct key) s resetAfter) := rfl

theorem softResetCommand_resets (hd : Due h s) : ∃ t, exec (.softResetCommand h 0x5AFE) s = .next t ∧
    t.boot.softPending = true ∧ rd F.RESET_CAUSE_SOFT_CMD t = 1 ∧ Completed h cDONE 0 0 s t := by
  rw [exec_softResetCommand]
  exact reset_follows hd (if_pos rfl)

theorem softResetCommand_badKey {k : BitVec 16} (hd : Due h s) (hk : k ≠ 0x5AFE) :
    ∃ t, exec (.softResetCommand h k) s = .next t ∧ t.boot = s.boot ∧ Completed h cBAD_VALUE 0 0 s t := by
  rw [exec_softResetCommand]
  obtain ⟨t, ht, hc, hb⟩ := reset_unasked (act := softResetAct k) (recorded := false) hd (by decide) (if_neg hk)
  exact ⟨t, ht, hb, hc⟩

/-- Settles O44. -/
theorem hostImageCommands : Obligations.HostImageCommands := by
  refine ⟨fun _ _ _ _ => imageWrite_first, fun _ _ _ _ _ => imageWrite_next, fun _ _ _ _ _ => imageWrite_bad,
    fun _ _ _ _ _ => imageWrite_unread,
    fun _ _ _ hd hon ho => ⟨imageWrite_release hd hon ho, imageWrite_nothing hd hon ho⟩, fun _ _ _ _ _ _ => image_asleep,
    fun _ _ _ _ _ => imageWrite_closed, fun h s hd hon hl hh hc => ?_, fun _ _ => imageVerify_refused,
    fun _ _ _ _ => imageSwap_answers,
    fun _ _ hd hon => ⟨fun ht => ⟨imageConfirm_confirms hd hon ht, imageRevert_resets hd hon ht⟩,
      fun ht => ⟨imageConfirm_refused hd hon ht, imageRevert_refused hd hon ht⟩⟩,
    fun _ _ => softResetCommand_resets, fun _ _ _ => softResetCommand_badKey⟩
  cases hok : hostImageOk s with
  | true =>
    obtain ⟨t, ht, hstate, hdone⟩ := imageVerify_accepts hd hon hl hh hok
    exact ⟨t, ht, fun _ => ⟨hstate, hdone⟩, fun hno => (by cases hno)⟩
  | false =>
    obtain ⟨t, ht, hstate, hdone, htally⟩ := imageVerify_rejects hd hon hl hh hok hc
    exact ⟨t, ht, fun hno => (by cases hno), fun _ => ⟨hstate, hdone, htally⟩⟩

end Sys2Proof.Proofs

end

/-! PROOF. What the changes of a terminal's state, run-downs and the fall to bypass add to the queue of waiting events
(spec/12_host_rings_pcie.md R302), and what a fall leaves (spec/03_bypass_listening_admission.md R64, R68). -/

section

namespace Sys2Proof.Proofs

open Sys2Proof Sys2Proof.Machine Sys2Proof.Claims Sys2Proof.Laws

-- One proof at a time: the memory that the check allows is all but used by the proofs that are still being checked.
set_option Elab.async false

variable {s t : State}

/-! ### Events that join the queue -/

/-- What leaves the host's part alone raises nothing. -/
theorem joined_of_keeps {A : Nat} (h : Keeps A s t) (hA : A.testBit 16 = false) : Joined 0 s t :=
  .of_events (congrArg HostSt.events (h.rest.host hA))

theorem joined_cutSide (sd : Side) (lost : Bool) : Joined 1 s (cutSide sd lost s) := by
  have hcut : ∀ w, Joined 1 s (cutWin w s) := fun w => by
    unfold cutWin
    split
    · exact (Joined.of_events rfl).mono (by decide)
    · exact (Joined.of_events rfl).trans (joined_count _)
  have hrest : ∀ x, Keeps Reach.T.win x
      (whenB lost (setWin (fun w => { w with bufs := w.bufs.map (fun b => b.map (stopOn sd)) })) (setOpen sd none x)) := fun x =>
    keeps_whenB _ _ (fun _ => keeps_setWin _ rfl) (keeps_setOpen _ _ rfl (.refl _ x))
  unfold cutSide
  refine Laws.Joined.trans (n := 1) ?_ (joined_of_keeps (hrest _) (by decide))
  split
  · exact hcut _
  · exact (Joined.of_events rfl).mono (by decide)

theorem joined_cutWindows : Joined 2 s (cutWindows s) :=
  ((joined_cutSide _ _).trans (joined_cutSide _ _)).trans (.of_events rfl)

theorem joined_rundown (k cause : Nat) : Joined 1 s (rundown k cause s) := by
  unfold rundown
  dsimp only
  split
  · exact (Joined.of_events rfl).trans (joined_raise _ _)
  split
  · exact (Joined.of_events rfl).trans (joined_raise _ _)
  · exact (Joined.of_events rfl).mono (by decide)

theorem joined_rundownAll (cause : Nat) : Joined 2 s (rundownAll cause s) := (joined_rundown _ _).trans (joined_rundown _ _)

theorem joined_changeTerm (x : TermState) : Joined 1 s (changeTerm x s) := by
  have halert : Joined 0 s (if x == .holding then alertSet A.HOLD (alertSet A.STATE { s with term := x })
      else alertSet A.STATE { s with term := x }) := by
    have hstate : Joined 0 s (alertSet A.STATE { s with term := x }) := .of_events (alertSet_events _)
    split
    · exact hstate.trans (joined_alertSet _)
    · exact hstate
  unfold changeTerm
  dsimp only
  split
  · exact (Joined.of_events rfl).mono (by decide)
  split
  · exact halert.trans (joined_raise _ _)
  · exact halert.mono (by decide)

theorem joined_goTerm (x : TermState) : Joined 3 s (goTerm x s) := by
  have hidle : Joined 1 s (whenB (runOrFly s && x != .running && x != .flywheel) showIdle (changeTerm x s)) :=
    (joined_changeTerm x).trans (joined_of_keeps (keeps_whenB _ _ (fun _ => keeps_showIdle (A := Reach.T.show_ ||| Reach.T.out) rfl)
      (.refl _ _)) (by decide))
  unfold goTerm
  dsimp only
  split
  · split
    · exact hidle.mono (by decide)
    · exact hidle.trans (joined_rundownAll _)
  split
  · exact hidle.trans (joined_rundownAll _)
  · exact hidle.mono (by decide)

/-! ### The keep-alive generator disarmed, and a fall -/

/-- R64: disarmed, the generator drives BYP_KA low and CAUSE tells why. -/
theorem disarm_status {c : Nat} (hc : c < 16) : rd F.BYPASS_STATUS_KA_ARMED (disarm c s) = 0 ∧
    rd F.BYPASS_STATUS_KA_LEVEL (disarm c s) = 0 ∧ rd F.BYPASS_STATUS_CAUSE (disarm c s) = c := by
  unfold disarm
  dsimp only
  simp only [rd_setByp]
  refine ⟨?_, ?_, rd_wr_fits (by decide) hc⟩
  · rw [rd_wr_other _ _ _ _ (by decide) (by decide), rd_wr_other _ _ _ _ (by decide) (by decide)]
    exact rd_wr_fits (by decide) (by decide)
  · rw [rd_wr_other _ _ _ _ (by decide) (by decide)]
    exact rd_wr_fits (by decide) (by decide)

/-- What a fall does to the terminal once its generator is disarmed. -/
def fallReach : Nat := T.counting ||| Reach.T.byp ||| Reach.T.win ||| Reach.T.mot ||| Reach.T.AX_STATUS

theorem keeps_fall_disarmed (c : Nat) : Keeps fallReach (disarm c s) (bypassFall c s) :=
  keeps_setByp _ rfl (keeps_rundownAll _ rfl (keeps_cutWindows rfl (keeps_raise _ _ rfl (keeps_count _ rfl (.refl _ _)))))

/-- R68: a fall disarms the generator with its cause, and has begun. -/
theorem bypassFall_end {c : Nat} (hc : c < 16) : rd F.BYPASS_STATUS_KA_ARMED (bypassFall c s) = 0 ∧
    rd F.BYPASS_STATUS_KA_LEVEL (bypassFall c s) = 0 ∧ rd F.BYPASS_STATUS_CAUSE (bypassFall c s) = c ∧
    (bypassFall c s).byp.ending = some .fall ∧ (bypassFall c s).byp.checkFrom = none := by
  obtain ⟨harmed, hlevel, hcause⟩ := disarm_status (s := s) hc
  have hk := keeps_fall_disarmed (s := s) c
  exact ⟨(hk.rd _ (by decide +kernel)).trans harmed, (hk.rd _ (by decide +kernel)).trans hlevel,
    (hk.rd _ (by decide +kernel)).trans hcause, rfl, rfl⟩

/-- R68: a fall tells BYPASS_FALL with its cause, after one count, and then cuts windows and runs the axes down. -/
theorem bypassFall_told (c : Nat) : Joined 6 s (bypassFall c s) ∧ (Room s → Waits E.BYPASS_FALL c (bypassFall c s)) := by
  have hdisarm : Joined 0 s (disarm c s) := joined_of_keeps (keeps_disarm (A := 0x4000000000100) _ rfl (.refl _ s)) (by decide)
  have hafter : Joined 4 (raise E.BYPASS_FALL c (count C.BYPASS_FALL (disarm c s))) (bypassFall c s) :=
    (joined_cutWindows.trans (joined_rundownAll _)).trans (.of_events rfl)
  have hcount : Joined 1 s (count C.BYPASS_FALL (disarm c s)) := hdisarm.trans (joined_count _)
  refine ⟨((hcount.trans (joined_raise _ _)).trans hafter).mono (by decide), fun hroom => hafter.2 _ _ (waits_raise _ _ ?_)⟩
  have hlen := hcount.1
  unfold Room at hroom
  omega

end Sys2Proof.Proofs

end

/-! PROOF. The keep-alive generator, the end of a fall and of a leave, and the watchdog (spec/03_bypass_listening_admission.md
R64-R68, R81). -/

section

namespace Sys2Proof.Proofs

open Sys2Proof Sys2Proof.Machine Sys2Proof.Claims Sys2Proof.Laws

set_option Elab.async false

variable {s : State}

/-! ### What the end of a line tick reports to the generator (R65) -/

/-- The line tick in which the end is reported counts since the last edge too. -/
def edgeOlder (s : State) : State := setByp (fun b => { b with sinceEdge := b.sinceEdge + 1 }) s

theorem healthReport_healthy (ha : on F.BYPASS_STATUS_KA_ARMED s = true) (hi : insertedState s.term = true)
    (hu : unhealthy false false s = none) : healthReport false false (edgeOlder s) =
      setByp (fun b => { b with sinceEdge := 0 }) (wr F.BYPASS_STATUS_KA_LEVEL (1 - rd F.BYPASS_STATUS_KA_LEVEL s) (edgeOlder s)) := by
  have hl : s.term ≠ .leaving := fun h => by rw [h] at hi; cases hi
  unfold healthReport
  rw [if_neg (by simp [edgeOlder, ha]), if_neg (by simpa [edgeOlder] using hl), if_neg (by simp [healthyState, edgeOlder, hi]),
    show unhealthy false false (edgeOlder s) = none from hu]
  rfl

theorem healthReport_unhealthy {p b : Bool} {c : Nat} (ha : on F.BYPASS_STATUS_KA_ARMED s = true)
    (hi : insertedState s.term = true) (hu : unhealthy p b s = some c) :
    healthReport p b (edgeOlder s) = bypassFall c (edgeOlder s) := by
  have hl : s.term ≠ .leaving := fun h => by rw [h] at hi; cases hi
  unfold healthReport
  rw [if_neg (by simp [edgeOlder, ha]), if_neg (by simpa [edgeOlder] using hl), if_neg (by simp [healthyState, edgeOlder, hi]),
    show unhealthy p b (edgeOlder s) = some c from hu]

theorem healthReport_leaving (p b : Bool) (ha : on F.BYPASS_STATUS_KA_ARMED s = true) (hl : s.term = .leaving) :
    healthReport p b (edgeOlder s) = setByp (fun b => { b with ending := some .leave }) (disarm 6 (edgeOlder s)) := by
  unfold healthReport
  rw [if_neg (by simp [edgeOlder, ha]), if_pos (by simp [edgeOlder, hl])]

/-- R68: the causes fit CAUSE. -/
theorem unhealthy_lt {p b : Bool} {c : Nat} (h : unhealthy p b s = some c) : c < 16 := by
  unfold unhealthy at h
  split at h
  · cases h; decide
  split at h
  · cases h; decide
  split at h
  · cases h; decide
  split at h
  · cases h; decide
  · cases h

/-! ### The rest of the end of a line tick -/

/-- What the end of a line tick does after its report. -/
def tickClosed (wrap : Bool) (s : State) : State :=
  let s2 := purgeJobs (cipherTick (setByp (fun b => { b with frmOverrun := false }) (markerTick (goodTicks s))))
  whenB wrap cycleEnd (setLine (tickAdd s2.line 1) s2)

theorem lineTickEnd_eq (p b : Bool) (s : State) :
    lineTickEnd p b s = tickClosed (s.line % 48 == 47) (healthReport p b (edgeOlder s)) := rfl

/-- What that may reach beside the line tick. -/
def closingReach : Nat := Reach.T.byp ||| Reach.T.frame ||| Reach.T.regn ||| Reach.T.note ||| Reach.T.key ||| Reach.T.KA_WATCHDOG |||
  Reach.T.REG_STATUS ||| Reach.T.CIPHER_LOAD

theorem keeps_tickClosed (w : Bool) : Keeps (closingReach ||| Reach.T.line) s (tickClosed w s) :=
  keeps_whenB _ _ (fun _ => keeps_cycleEnd rfl) (keeps_setLine _ rfl (keeps_purgeJobs rfl (keeps_cipherTick rfl
    (keeps_setByp _ rfl (keeps_markerTick rfl (keeps_goodTicks rfl (.refl _ s)))))))

theorem line_tickClosed (w : Bool) : (tickClosed w s).line = tickAdd s.line 1 :=
  (keeps_whenB (A := closingReach) w _ (fun _ => keeps_cycleEnd rfl) (.refl _ _)).rest.line rfl

/-- The end of a line cycle leaves the keep-alive's edge and what ends the stay alone. -/
theorem cycleEnd_byp : (cycleEnd s).byp.sinceEdge = s.byp.sinceEdge ∧ (cycleEnd s).byp.ending = s.byp.ending := by
  have hdog : ∀ x, (watchdogCycle x).byp = x.byp := fun x =>
    (keeps_watchdogCycle (A := Reach.T.KA_WATCHDOG) rfl (.refl _ x)).rest.byp rfl
  have hend : (cycleEnd s).byp = { (whenB s.frame.counted countedCycle s).byp with overruns := 0 } :=
    congrArg (fun b : BypassSt => { b with overruns := 0 }) (hdog _)
  rw [hend]
  cases s.frame.counted
  · exact ⟨rfl, rfl⟩
  · exact ⟨rfl, rfl⟩

theorem tickClosed_byp (w : Bool) :
    (tickClosed w s).byp.sinceEdge = s.byp.sinceEdge ∧ (tickClosed w s).byp.ending = s.byp.ending := by
  cases w
  · exact ⟨rfl, rfl⟩
  · exact cycleEnd_byp

/-! ### HEALTH_PULSE -/

theorem exec_healthPulse (p b : Bool) (h : countsNow s = true) : exec (.healthPulse p b) s =
    .next (tickClosed (s.line % 48 == 47) (healthReport p b (edgeOlder s))) :=
  congrArg Host.Outcome.next ((if_pos h).trans (lineTickEnd_eq p b s))

theorem countsNow_of_inserted (h : insertedState s.term = true ∨ s.term = .leaving) : countsNow s = true := by
  unfold countsNow
  split
  · next ht => rw [ht] at h; simp [insertedState] at h
  · next ht => rw [ht] at h; simp [insertedState] at h
  · rfl

theorem healthPulse_toggles (ha : on F.BYPASS_STATUS_KA_ARMED s = true) (hi : insertedState s.term = true)
    (hu : unhealthy false false s = none) : ∃ t, exec (.healthPulse false false) s = .next t ∧ t.line = tickAdd s.line 1 ∧
      rd F.BYPASS_STATUS_KA_LEVEL t = 1 - rd F.BYPASS_STATUS_KA_LEVEL s ∧ t.byp.sinceEdge = 0 ∧ t.term = s.term ∧
      on F.BYPASS_STATUS_KA_ARMED t = true := by
  have hk := keeps_tickClosed (s := healthReport false false (edgeOlder s)) (s.line % 48 == 47)
  refine ⟨_, exec_healthPulse _ _ (countsNow_of_inserted (.inl hi)), (line_tickClosed _).trans ?_, (hk.rd _ (by decide +kernel)).trans ?_,
    (tickClosed_byp _).1.trans ?_, (hk.rest.term rfl).trans ?_, (on_of_rd (hk.rd _ (by decide +kernel))).trans ?_⟩
  all_goals rw [healthReport_healthy ha hi hu]
  · rfl
  · rw [rd_setByp]
    exact rd_wr_fits (by decide) (Nat.lt_succ_of_le (Nat.sub_le _ _))
  · rfl
  · rfl
  · rw [on_setByp, on_of_rd (rd_wr_other _ _ _ _ (by decide) (by decide)), edgeOlder, on_setByp, ha]

theorem healthPulse_falls {p b : Bool} {c : Nat} (ha : on F.BYPASS_STATUS_KA_ARMED s = true) (hi : insertedState s.term = true)
    (hu : unhealthy p b s = some c) (hroom : Room s) : ∃ t, exec (.healthPulse p b) s = .next t ∧
      rd F.BYPASS_STATUS_KA_ARMED t = 0 ∧ rd F.BYPASS_STATUS_KA_LEVEL t = 0 ∧ rd F.BYPASS_STATUS_CAUSE t = c ∧
      t.byp.ending = some .fall ∧ Waits E.BYPASS_FALL c t := by
  have hexec := exec_healthPulse p b (countsNow_of_inserted (s := s) (.inl hi))
  rw [healthReport_unhealthy ha hi hu] at hexec
  have hk := keeps_tickClosed (s := bypassFall c (edgeOlder s)) (s.line % 48 == 47)
  obtain ⟨harmed, hlevel, hcause, hending, -⟩ := bypassFall_end (s := edgeOlder s) (unhealthy_lt hu)
  exact ⟨_, hexec, (hk.rd _ (by decide +kernel)).trans harmed, (hk.rd _ (by decide +kernel)).trans hlevel,
    (hk.rd _ (by decide +kernel)).trans hcause, (tickClosed_byp _).2.trans hending,
    waits_of_host (hk.rest.host rfl) ((bypassFall_told c).2 hroom)⟩

theorem healthPulse_leaves (p b : Bool) (ha : on F.BYPASS_STATUS_KA_ARMED s = true) (hl : s.term = .leaving) :
    ∃ t, exec (.healthPulse p b) s = .next t ∧ rd F.BYPASS_STATUS_KA_ARMED t = 0 ∧ rd F.BYPASS_STATUS_CAUSE t = 6 ∧
      t.byp.ending = some .leave := by
  have hexec := exec_healthPulse p b (countsNow_of_inserted (s := s) (.inr hl))
  rw [healthReport_leaving p b ha hl] at hexec
  have hk := keeps_tickClosed (s := setByp (fun b => { b with ending := some .leave }) (disarm 6 (edgeOlder s))) (s.line % 48 == 47)
  obtain ⟨harmed, -, hcause⟩ := disarm_status (s := edgeOlder s) (c := 6) (by decide)
  exact ⟨_, hexec, (hk.rd _ (by decide +kernel)).trans harmed, (hk.rd _ (by decide +kernel)).trans hcause, (tickClosed_byp _).2⟩

/-! ### CLASS_TIME_ELAPSED (R67, R68, R81) -/

/-- The return to LISTENING as far as the bypass: what comes after concerns the ID and the terminal's state. -/
def bypassCleared (s : State) : State :=
  setByp (fun b => { b with txdisW := true, txdisE := true, ending := none, admitted := false, tl := none, ti := none,
                            turns := [], leaveReq := none, leaveSent := false, goodW := 0, goodE := 0 }) (noAutoTurn s)
    |> wr F.BYPASS_STATUS_INSERTED 0 |> wr F.BYPASS_STATUS_TURN_AUTO 0 |> wr F.BYPASS_STATUS_TURNED_W 0
    |> wr F.BYPASS_STATUS_TURNED_E (b2n (strap 10 s))

/-- The ranging state that goes with the ID. -/
def rangingCleared (s : State) : State :=
  setRegn (fun x => { x with flyPrior := none, bothHeld := false, heldE := none, heldW := none, meas := {}, jumps := 0 })
    (s |> wr F.TIME_STATUS_FLYWHEEL 0 |> wr F.RANGE_STATUS_MEASURING 0)

theorem backToListening_eq (s : State) : backToListening s =
    goTerm .listening (clearId (rangingCleared (bypassCleared s))) := rfl

/-- What the return to LISTENING does beside the bypass. -/
def idReach : Nat := Reach.T.frame ||| Reach.T.regn ||| Reach.T.note ||| Reach.T.key ||| Reach.T.TIME_STATUS |||
  Reach.T.REG_STATUS ||| Reach.T.RANGE_STATUS ||| Reach.T.NOTE_SEQ

theorem keeps_idCleared : Keeps idReach s (clearId (rangingCleared s)) :=
  keeps_clearId rfl (keeps_setRegn _ rfl (keeps_wr _ _ (cov_RANGE_STATUS _ rfl rfl) (keeps_wr _ _ (cov_TIME_STATUS _ rfl rfl) (.refl _ s))))

/-- What a change of the terminal's state reaches. -/
def goReach : Nat := T.counting ||| Reach.T.term ||| Reach.T.mot ||| Reach.T.AX_STATUS ||| Reach.T.show_ ||| Reach.T.out

theorem keeps_goTerm_self (x : TermState) : Keeps goReach s (goTerm x s) := keeps_goTerm _ rfl (.refl _ s)

theorem bypassCleared_status : rd F.BYPASS_STATUS_INSERTED (bypassCleared s) = 0 ∧ rd F.BYPASS_STATUS_TURNED_W (bypassCleared s) = 0 := by
  unfold bypassCleared
  constructor
  · rw [rd_wr_other _ _ _ _ (by decide) (by decide), rd_wr_other _ _ _ _ (by decide) (by decide),
      rd_wr_other _ _ _ _ (by decide) (by decide)]
    exact rd_wr_fits (by decide) (by decide)
  · rw [rd_wr_other _ _ _ _ (by decide) (by decide)]
    exact rd_wr_fits (by decide) (by decide)

/-- R68, R81, R221: the ID is cleared. -/
theorem termId_clearId : rd F.REG_STATUS_TERM_ID (clearId s) = 0 := by
  have hset : rd F.REG_STATUS_TERM_ID (setId 0 s) = 0 := by
    unfold setId
    dsimp only
    rw [rd_setRegn, rd_wr_other _ _ _ _ (by decide) (by decide)]
    exact rd_wr_fits (by decide) (by decide)
  have hkeys : ∀ x, Keeps (Reach.T.key ||| Reach.T.frame) x (eraseOnClear (dropSubs x)) := fun x =>
    keeps_eraseOnClear rfl (keeps_dropSubs rfl (.refl _ x))
  unfold clearId
  rw [rd_setRegn, rd_wr_other _ _ _ _ (by decide) (by decide)]
  exact ((hkeys _).rd _ (by decide +kernel)).trans hset

/-- R68, R81: what stands back in LISTENING. -/
theorem backToListening_end : (backToListening s).term = .listening ∧ (backToListening s).byp.txdisW = true ∧
    (backToListening s).byp.txdisE = true ∧ rd F.REG_STATUS_TERM_ID (backToListening s) = 0 ∧
    rd F.BYPASS_STATUS_INSERTED (backToListening s) = 0 ∧ (backToListening s).byp.ending = none ∧
    rd F.BYPASS_STATUS_TURNED_W (backToListening s) = 0 ∧ (backToListening s).byp.turns = [] := by
  rw [backToListening_eq]
  have hgo := keeps_goTerm_self (s := clearId (rangingCleared (bypassCleared s))) .listening
  have hid := keeps_idCleared (s := bypassCleared s)
  obtain ⟨hinserted, hturned⟩ := bypassCleared_status (s := s)
  have hbyp : ∀ {α : Type} (f : BypassSt → α), f (goTerm .listening (clearId (rangingCleared (bypassCleared s)))).byp =
      f (bypassCleared s).byp := fun f => congrArg f ((hgo.rest.byp rfl).trans (hid.rest.byp rfl))
  exact ⟨term_goTerm _, hbyp BypassSt.txdisW, hbyp BypassSt.txdisE, (hgo.rd _ (by decide +kernel)).trans termId_clearId,
    (hgo.rd _ (by decide +kernel)).trans ((hid.rd _ (by decide +kernel)).trans hinserted), hbyp BypassSt.ending,
    (hgo.rd _ (by decide +kernel)).trans ((hid.rd _ (by decide +kernel)).trans hturned), hbyp BypassSt.turns⟩

theorem joined_backToListening : Joined 3 s (backToListening s) := by
  have hbyp : Joined 0 s (bypassCleared s) := joined_of_keeps (keeps_wr (A := Reach.T.byp ||| Reach.T.span ||| Reach.T.BYPASS_STATUS) _ _
    (cov_BYPASS_STATUS _ rfl rfl) (keeps_wr _ _ (cov_BYPASS_STATUS _ rfl rfl) (keeps_wr _ _ (cov_BYPASS_STATUS _ rfl rfl)
      (keeps_wr _ _ (cov_BYPASS_STATUS _ rfl rfl) (keeps_setByp _ rfl (keeps_noAutoTurn rfl (.refl _ s))))))) (by decide)
  rw [backToListening_eq]
  exact (hbyp.trans (joined_of_keeps keeps_idCleared (by decide))).trans (joined_goTerm _)

/-- R67, R68, R81: the class time is over. -/
theorem classTimeElapsed_listens {k : EndKind} (hend : s.byp.ending = some k) (hk : k ≠ .reset) (hl : fromListening s = true)
    (ht : classTicks s ≤ s.byp.sinceEdge) (hroom : Room s) : ∃ t, exec .classTimeElapsed s = .next t ∧ t.term = .listening ∧
      t.byp.txdisW = true ∧ t.byp.txdisE = true ∧ rd F.REG_STATUS_TERM_ID t = 0 ∧ rd F.BYPASS_STATUS_INSERTED t = 0 ∧
      t.byp.ending = none ∧ rd F.BYPASS_STATUS_TURNED_W t = 0 ∧ t.byp.turns = [] ∧ (k = .leave → Waits E.LEAVE_DONE 0 t) := by
  obtain ⟨hterm, hw, he, hid, hins, hending, hturned, hturns⟩ := backToListening_end (s := s)
  have hover : (fromListening s && decide (classTicks s ≤ s.byp.sinceEdge)) = true := by simp [hl, ht]
  cases k with
  | reset => exact absurd rfl hk
  | fall =>
    have hexec : exec .classTimeElapsed s = .next (backToListening s) := by
      show execClassTimeElapsed s = _
      simp only [execClassTimeElapsed, hend, hover, if_true]
      rfl
    exact ⟨_, hexec, hterm, hw, he, hid, hins, hending, hturned, hturns, fun h => (by cases h)⟩
  | leave =>
    have hexec : exec .classTimeElapsed s = .next (raise E.LEAVE_DONE 0 (backToListening s)) := by
      show execClassTimeElapsed s = _
      simp only [execClassTimeElapsed, hend, hover, if_true]
      rfl
    have hlen := (joined_backToListening (s := s)).1
    unfold Room at hroom
    refine ⟨_, hexec, ?_, ?_, ?_, ?_, ?_, ?_, ?_, ?_, fun _ => waits_raise _ _ (by omega)⟩
    · rw [raise_term, hterm]
    · rw [raise_byp, hw]
    · rw [raise_byp, he]
    · exact (rd_raise _ _ _ _ (by decide)).trans hid
    · exact (rd_raise _ _ _ _ (by decide)).trans hins
    · rw [raise_byp, hending]
    · exact (rd_raise _ _ _ _ (by decide)).trans hturned
    · rw [raise_byp, hturns]

theorem classTimeElapsed_afterReset (hend : s.byp.ending = some .reset) : ∃ t, exec .classTimeElapsed s = .next t ∧
    rd F.BYPASS_STATUS_INSERTED t = 0 ∧ t.byp.ending = none ∧ t.term = s.term := by
  have hexec : exec .classTimeElapsed s = .next (setByp (fun b => { b with ending := none }) (wr F.BYPASS_STATUS_INSERTED 0 s)) := by
    show execClassTimeElapsed s = _
    simp only [execClassTimeElapsed, hend]
    rfl
  exact ⟨_, hexec, rd_wr_fits (by decide) (by decide), rfl, rfl⟩

/-! ### The watchdog (R66) -/

def watchdogRow : RegRow := ⟨0x1620, 0x0, 1, 0x800, 0x0, 0x0, 0x0, 0xFF, false⟩

/-- A write of KA_WATCHDOG where it may be written. -/
theorem exec_kaWatchdog (p : Path) (v : Word) (hm : mayWriteReg R.KA_WATCHDOG s = true) : ∃ b,
    exec (.kaWatchdog p v) s = .next (clearHold p (kaWatchdogWrite p (v &&& 0xFF) (setHold p R.KA_WATCHDOG b s))) := by
  obtain ⟨b, hw⟩ := write8_hooked (v := v) (row := watchdogRow) (f := fun v _ => kaWatchdogWrite p v) (p := p) (by rfl) hm rfl rfl
    (by decide) (fun _ _ => rfl)
  exact ⟨b, congrArg Host.Outcome.next hw⟩

theorem kaWatchdog_refreshes (v : Word) (hr : s.term ≠ .reset) (hh : s.term ≠ .holding) (hv : fget v 7 0 = 0xA5) :
    ∃ t, exec (.kaWatchdog .mgmt v) s = .next t ∧ rd F.KA_WATCHDOG_REMAIN t = 8 ∧ t.byp.wdExpired = false := by
  obtain ⟨b, hexec⟩ := exec_kaWatchdog (s := s) .mgmt v (by simp [mayWriteReg, regsAnswer, hr, hh])
  have hkey : fget (v &&& 0xFF) 7 0 = 0xA5 := (fget_and (by decide) (by decide)).trans hv
  have hwrite : ∀ x, kaWatchdogWrite .mgmt (v &&& 0xFF) x =
      setByp (fun b => { b with wdExpired := false }) (wr F.KA_WATCHDOG_REMAIN 8 x) := fun x => if_pos (by rw [hkey]; rfl)
  rw [hwrite] at hexec
  exact ⟨_, hexec, ((keeps_clearHold_self _).rd _ (by decide +kernel)).trans (rd_wr_fits (by decide) (by decide)),
    congrArg BypassSt.wdExpired ((keeps_clearHold_self _).rest.byp rfl)⟩

theorem kaWatchdog_discards (v : Word) {p : Path} (hp : p ≠ .mgmt) :
    ∃ t, exec (.kaWatchdog p v) s = .next t ∧ reg R.KA_WATCHDOG t = reg R.KA_WATCHDOG s ∧ t.byp = s.byp := by
  cases hm : mayWriteReg R.KA_WATCHDOG s with
  | true =>
    obtain ⟨b, hexec⟩ := exec_kaWatchdog (s := s) p v hm
    have hwrite : ∀ x, kaWatchdogWrite p (v &&& 0xFF) x = x := fun x => if_neg (by simp [hp])
    rw [hwrite] at hexec
    have hk : Keeps 0xe s (clearHold p (setHold p R.KA_WATCHDOG b s)) := keeps_clearHold p rfl (keeps_setHold_self p _ b)
    exact ⟨_, hexec, hk.rest.regs _ (by decide +kernel), hk.rest.byp rfl⟩
  | false =>
    have hw : write8 p R.KA_WATCHDOG v s = s := by
      rw [write8, writeHigh_closed (by simp [hm]), writeLow_closed (by simp [hm])]
    exact ⟨s, congrArg Host.Outcome.next hw, rfl, rfl⟩

theorem watchdogExpiry_expires (hl : fromListening s = true) (hz : rd F.KA_WATCHDOG_REMAIN s = 0) :
    ∃ t, exec .watchdogExpiry s = .next t ∧ t.byp.wdExpired = true :=
  ⟨_, congrArg Host.Outcome.next (if_pos (by simp [hl, hz])), rfl⟩

/-- Settles O18. -/
theorem keepAliveFallAndWatchdog : Obligations.KeepAliveFallAndWatchdog :=
  ⟨fun _ => healthPulse_toggles, fun _ _ _ _ => healthPulse_falls, fun p b _ => healthPulse_leaves p b,
    fun _ _ => classTimeElapsed_listens, fun _ => classTimeElapsed_afterReset, fun v _ => kaWatchdog_refreshes v,
    fun _ v _ => kaWatchdog_discards v, fun _ => watchdogExpiry_expires⟩

end Sys2Proof.Proofs

end

/-! PROOF. A note that is heard (spec/07_management_notes.md R174-R182), and one that names its own tick (R73, R77, R81). -/

section

namespace Sys2Proof.Proofs

open Sys2Proof Sys2Proof.Machine Sys2Proof.Claims Sys2Proof.Laws

set_option Elab.async false

variable {s u : State}

/-! ### A note that is heard -/

section

variable {k : NKind} {n : Note} {a : NAddr} {act : List Byte → NAddr → State → Option Nat × State}

theorem fromListening_of_heard (h : Heard k n a s) : fromListening s = true := by
  obtain ⟨hp, -⟩ := h
  simp only [parsing, frmRuns, Bool.and_eq_true] at hp
  exact hp.1.1.1

theorem countsNow_of_heard (h : Heard k n a s) : countsNow s = true := countsNow_of_fromListening (fromListening_of_heard h)

/-- The state is one in which the catalogue lets the note act. -/
theorem acts_of_heard (h : Heard k n a s) : k.acts s.term a = true := by
  obtain ⟨-, -, -, -, hacts, -⟩ := h
  exact hacts

/-- A note of an unsequenced kind that is heard is counted, and acts. -/
theorem takeNote_heard (h : Heard k n a s) (hseq : k.sequenced = false) : takeNote k n act s =
    match act (noteFields n a) a (count C.NOTE_RX s) with
    | (none, x) => x
    | (some st, x) => answer n none st x := by
  obtain ⟨hp, hbad, haddr, hmode, hacts, -, hok, hlen⟩ := h
  unfold takeNote
  rw [if_neg (by simp [hp]), if_neg (by simp [hbad]), haddr]
  dsimp only
  rw [if_neg (by simpa using hacts), if_neg (by simpa using hmode), if_pos (by simp [hseq]), if_neg (by rw [hok, hlen]; simp), hseq]
  rfl

theorem takeNote_silent (h : Heard k n a s) (hseq : k.sequenced = false)
    (ha : act (noteFields n a) a (count C.NOTE_RX s) = (none, u)) : takeNote k n act s = u := by
  rw [takeNote_heard h hseq, ha]

/-- The answer DONE is not told in a stream that has no numbers. -/
theorem takeNote_done (h : Heard k n a s) (hseq : k.sequenced = false)
    (ha : act (noteFields n a) a (count C.NOTE_RX s) = (some nDONE, u)) : takeNote k n act s = u := by
  rw [takeNote_heard h hseq, ha]
  rfl

end

/-! ### A note of its own tick -/

/-- Counting the note does not move the tick that it names. -/
theorem noteTick_count {w : Word} {least i : Nat} : noteTick w least (count i s) = noteTick w least s :=
  noteTick_congr (count_frame i s) (count_line i s)

theorem withOwnTick_ok {w : Word} {least late x : Nat} {f : Nat → State → Option Nat × State}
    (h : noteTick w least s = .ok x) : withOwnTick w least late f s = f x s := by
  rw [withOwnTick, h]

theorem withOwnTick_late {w : Word} {least late : Nat} {f : Nat → State → Option Nat × State}
    (h : noteTick w least s = .error nLATE) : withOwnTick w least late f s = (none, count late s) := by
  rw [withOwnTick, h]
  rfl

/-- What is counted after the note itself. -/
theorem tallied_count_noted {i : Nat} (hi : i < 312) (hrx : i ≠ C.NOTE_RX) (hlost : i ≠ C.EVT_LOST) (hc : countsNow s = true) :
    Tallied i 1 s (count i (count C.NOTE_RX s)) := by
  have hc' : countsNow (count C.NOTE_RX s) = true := by rwa [countsNow, count_term]
  rw [Tallied, reg_count_same _ hi hlost hc', count, reg_countN_counter _ _ _ hi (by decide) hlost hrx]

end Sys2Proof.Proofs

end

/-! PROOF. Admission: ADMIT, the insertion and its check (spec/03_bypass_listening_admission.md R77-R79). -/

section

namespace Sys2Proof.Proofs

open Sys2Proof Sys2Proof.Machine Sys2Proof.Claims Sys2Proof.Laws

set_option Elab.async false

variable {s : State}

/-! ### ADMIT (R77) -/

theorem exec_admission (n : Note) : exec (.admission n) s = .next (takeNote kADMIT n admitAct s) := rfl

theorem pendAdmit_tick (x : Nat) : rd F.ADMIT_TICK_TICK (pendAdmit x s) = x % 48 ∧ rd F.ADMIT_TICK_PENDING (pendAdmit x s) = 1 := by
  have htick : x % 48 < 48 := Nat.mod_lt _ (by decide)
  unfold pendAdmit
  rw [rd_setByp, rd_setByp, rd_wr_other _ _ _ _ (by decide) (by decide)]
  exact ⟨rd_wr_fits (by decide) (Nat.lt_of_lt_of_le htick (by decide)), rd_wr_fits (by decide) (by decide)⟩

theorem admission_pends {n : Note} {ti : Nat} (h : Heard kADMIT n .fprint s)
    (hti : noteTick (stampAt (noteFields n .fprint) 0) 48 s = .ok ti) : ∃ t, exec (.admission n) s = .next t ∧
      t.byp.ti = some ti ∧ rd F.ADMIT_TICK_TICK t = ti % 48 ∧ rd F.ADMIT_TICK_PENDING t = 1 ∧ t.term = .listening := by
  have hact : admitAct (noteFields n .fprint) .fprint (count C.NOTE_RX s) = (some nDONE, pendAdmit ti (count C.NOTE_RX s)) :=
    withOwnTick_ok (noteTick_count.trans hti)
  obtain ⟨htick, hpending⟩ := pendAdmit_tick (s := count C.NOTE_RX s) ti
  have hterm : s.term = .listening := eq_of_beq (acts_of_heard h)
  exact ⟨_, (exec_admission n).trans (congrArg Host.Outcome.next (takeNote_done h rfl hact)), rfl, htick, hpending,
    (count_term _ s).trans hterm⟩

theorem admission_late {n : Note} (h : Heard kADMIT n .fprint s)
    (hti : noteTick (stampAt (noteFields n .fprint) 0) 48 s = .error nLATE) :
    ∃ t, exec (.admission n) s = .next t ∧ t.byp.ti = s.byp.ti ∧ Tallied C.ADMIT_LATE 1 s t := by
  have hact : admitAct (noteFields n .fprint) .fprint (count C.NOTE_RX s) = (none, count C.ADMIT_LATE (count C.NOTE_RX s)) :=
    withOwnTick_late (noteTick_count.trans hti)
  refine ⟨_, (exec_admission n).trans (congrArg Host.Outcome.next (takeNote_silent h rfl hact)), ?_,
    tallied_count_noted (by decide) (by decide) (by decide) (countsNow_of_heard h)⟩
  rw [count_byp, count_byp]

/-! ### The insertion (R77, R78) -/

/-- The bypass right after the transmitters have come on. -/
theorem lightsOn_byp : (lightsOn s).byp = { s.byp with txdisW := false, txdisE := s.byp.txdisE && singleSided s } := by
  have hfill : ∀ p x, (whenB (on (fFILLING p) x) (fun x => fillAt p .east (fillAt p .west x)) x).byp = x.byp := fun p x =>
    (keeps_whenB (A := Reach.T.out) _ _ (fun _ h => keeps_fillAt _ _ rfl (keeps_fillAt _ _ rfl h)) (.refl _ x)).rest.byp rfl
  unfold lightsOn
  dsimp only
  rw [hfill, hfill, setSpan_byp, setSpan_byp, setByp_byp]

/-- The terminal at its insertion, before its state changes. -/
def inserting (s : State) : State :=
  s |> lightsOn
    |> setByp (fun b => { b with ti := none, checkFrom := some s.line, admitted := false, sinceEdge := 0, goodW := 0, goodE := 0 })
    |> setRegn (fun x => { x with loopFresh := false, meas := {}, jumps := 0 })

theorem exec_insertion {ti : Nat} (hti : s.byp.ti = some ti) (hl : s.term = .listening) (hd : tickDue ti s.line = true)
    (htrk : (tracking .west s || tracking .east s) = true) : exec .insertion s = .next
      (goTerm .admitted (inserting s) |> wr F.BYPASS_STATUS_KA_ARMED 1 |> wr F.BYPASS_STATUS_INSERTED 1 |> wr F.ADMIT_TICK_PENDING 0) := by
  show execInsertion s = _
  simp only [execInsertion, hti, hl, hd, htrk]
  rfl

theorem insertion_admits {ti : Nat} (hti : s.byp.ti = some ti) (hl : s.term = .listening) (hd : tickDue ti s.line = true)
    (htrk : (tracking .west s || tracking .east s) = true) : ∃ t, exec .insertion s = .next t ∧ t.term = .admitted ∧
      rd F.BYPASS_STATUS_KA_ARMED t = 1 ∧ rd F.BYPASS_STATUS_INSERTED t = 1 ∧ t.byp.txdisW = false ∧
      (singleSided s = false → t.byp.txdisE = false) ∧ t.byp.ti = none ∧ rd F.ADMIT_TICK_PENDING t = 0 ∧
      t.byp.checkFrom = some s.line := by
  have hbyp : ∀ {α : Type} (f : BypassSt → α), f (goTerm .admitted (inserting s)).byp = f (inserting s).byp := fun f =>
    congrArg f ((keeps_goTerm_self (s := inserting s) .admitted).rest.byp rfl)
  have hlights : ∀ {α : Type} (f : BypassSt → α), f (lightsOn s).byp =
      f { s.byp with txdisW := false, txdisE := s.byp.txdisE && singleSided s } := fun f => congrArg f lightsOn_byp
  refine ⟨_, exec_insertion hti hl hd htrk, term_goTerm .admitted, ?_, ?_, (hbyp BypassSt.txdisW).trans (hlights BypassSt.txdisW),
    fun hs => ((hbyp BypassSt.txdisE).trans (hlights BypassSt.txdisE)).trans ?_, hbyp BypassSt.ti, rd_wr_fits (by decide) (by decide),
    hbyp BypassSt.checkFrom⟩
  · rw [rd_wr_other _ _ _ _ (by decide) (by decide), rd_wr_other _ _ _ _ (by decide) (by decide)]
    exact rd_wr_fits (by decide) (by decide)
  · rw [rd_wr_other _ _ _ _ (by decide) (by decide)]
    exact rd_wr_fits (by decide) (by decide)
  · simp [hs]

/-! ### The insertion check (R79) -/

theorem admitDone_passes {c : Nat} (hc : s.byp.checkFrom = some c) (ht : s.term = .admitted) (hw : 16 ≤ s.byp.goodW)
    (he : singleSided s = true ∨ 16 ≤ s.byp.goodE) (ho : checkOver c s = false) (hroom : Room s) :
    ∃ t, exec .admitDone s = .next t ∧ t.byp.admitted = true ∧ t.byp.checkFrom = none ∧ t.term = .admitted ∧
      Waits E.ADMIT_DONE 0 t := by
  have hpass : (s.term == .admitted && decide (16 ≤ s.byp.goodW) && (singleSided s || decide (16 ≤ s.byp.goodE)) &&
      !checkOver c s) = true := by
    rcases he with he | he <;> simp [ht, hw, he, ho]
  have hexec : exec .admitDone s =
      .next (raise E.ADMIT_DONE 0 (setByp (fun b => { b with admitted := true, checkFrom := none }) s)) := by
    show execAdmitDone s = _
    simp only [execAdmitDone, hc, hpass, if_true]
    rfl
  refine ⟨_, hexec, ?_, ?_, ?_, waits_raise _ _ (Nat.lt_of_le_of_lt hroom (by decide))⟩
  · rw [raise_byp, setByp_byp]
  · rw [raise_byp, setByp_byp]
  · rw [raise_term, setByp_term, ht]

theorem admitFail_falls {c : Nat} (hc : s.byp.checkFrom = some c) (ht : s.term = .admitted ∨ s.term = .flywheel)
    (ho : checkOver c s = true) (hroom : Room s) : ∃ t, exec .admitFail s = .next t ∧ rd F.BYPASS_STATUS_KA_ARMED t = 0 ∧
      rd F.BYPASS_STATUS_CAUSE t = 7 ∧ t.byp.ending = some .fall ∧ t.byp.checkFrom = none ∧ Waits E.ADMIT_FAIL 0 t := by
  have hfail : ((s.term == .admitted || s.term == .flywheel) && checkOver c s) = true := by
    rcases ht with ht | ht <;> simp [ht, ho]
  have hexec : exec .admitFail s = .next (raise E.ADMIT_FAIL 0 (count C.ADMIT_FAIL (bypassFall 7 s))) := by
    show execAdmitFail s = _
    simp only [execAdmitFail, hc, hfail, if_true]
    rfl
  obtain ⟨harmed, -, hcause, hending, hcheck⟩ := bypassFall_end (s := s) (c := 7) (by decide)
  have hlen := ((bypassFall_told (s := s) 7).1.trans (joined_count C.ADMIT_FAIL)).1
  have hrd : ∀ f : Fld, bookkeeping f.off = false →
      rd f (raise E.ADMIT_FAIL 0 (count C.ADMIT_FAIL (bypassFall 7 s))) = rd f (bypassFall 7 s) := fun f hf =>
    (rd_raise f _ _ _ hf).trans (rd_count f _ _ hf)
  unfold Room at hroom
  refine ⟨_, hexec, (hrd _ (by decide)).trans harmed, (hrd _ (by decide)).trans hcause, ?_, ?_, waits_raise _ _ (by omega)⟩
  · rw [raise_byp, count_byp, hending]
  · rw [raise_byp, count_byp, hcheck]

/-- Settles O19. -/
theorem admissionRuns : Obligations.AdmissionRuns :=
  ⟨fun _ _ _ => admission_pends, fun _ _ => admission_late, fun _ _ => insertion_admits, fun _ _ => admitDone_passes,
    fun _ _ => admitFail_falls⟩

end Sys2Proof.Proofs

end

/-! PROOF. The queue of upstream notes (spec/07_management_notes.md R182, R192). -/

section

namespace Sys2Proof.Proofs

open Sys2Proof Sys2Proof.Machine Sys2Proof.Claims Sys2Proof.Laws

set_option Elab.async false

variable {s : State}

/-- R192: a note that finds room waits. -/
theorem upPush_queued {n : UpNote} (h : s.note.up.length < 16) : Queued n.type n.body (upPush n s) := by
  have hfit : (s.note.up ++ [n]).length ≤ 16 := by
    rw [List.length_append]
    exact h
  unfold upPush
  rw [if_pos hfit]
  exact ⟨n, List.mem_append_right _ (List.mem_singleton.mpr rfl), rfl, rfl⟩

theorem queueUp_queued {type : Nat} {body : List Byte} (h : s.note.up.length < 16) :
    Queued type body (queueUp type body s) := by
  unfold queueUp
  exact upPush_queued (n := { type, seq := s.note.upSeq, body, age := 0 }) h

/-- R192: a repeat waits too, as the copy that still does where there is one. -/
theorem queueRepeat_queued {type : Nat} {body : List Byte} (h : s.note.up.length < 16) :
    Queued type body (queueRepeat type body s) := by
  unfold queueRepeat
  split
  · next hany =>
    obtain ⟨n, hn, heq⟩ := List.any_eq_true.mp hany
    simp only [Bool.and_eq_true, beq_iff_eq] at heq
    exact ⟨n, hn, heq⟩
  dsimp only
  split
  · exact upPush_queued (n := { type, seq := (lget (256, []) s.note.last type).1, body, age := 0 }) h
  · exact queueUp_queued h

/-- What a queued note reaches. -/
def upReach : Nat := T.counting ||| Reach.T.note

theorem keeps_queueUp_self (type : Nat) (body : List Byte) : Keeps upReach s (queueUp type body s) :=
  keeps_queueUp _ _ rfl (.refl _ s)

theorem keeps_queueRepeat_self (type : Nat) (body : List Byte) : Keeps upReach s (queueRepeat type body s) :=
  keeps_queueRepeat _ _ rfl (.refl _ s)

end Sys2Proof.Proofs

end

/-! PROOF. Turns and leaves (spec/03_bypass_listening_admission.md R73, R75, R76, R81, R82; spec/07_management_notes.md R182). -/

section

namespace Sys2Proof.Proofs

open Sys2Proof Sys2Proof.Machine Sys2Proof.Claims Sys2Proof.Laws

set_option Elab.async false

variable {s : State}

/-! ### TURN and TURN_END are staged (R73, R76) -/

/-- What a TURN does. -/
def turnAct (b : List Byte) (_ : NAddr) (s : State) : Option Nat × State :=
  if singleSided s then (none, count C.TURN_IGNORED s)
  else if 2 ≤ byteAt b 5 then (some nBAD_VALUE, s)
  else withOwnTick (stampAt b 0) 8 C.TURN_LATE
    (fun x s => (some nDONE, stageTurn x (some (if byteAt b 5 == 0 then .east else .west)) s)) s

/-- What a TURN_END does. -/
def turnEndAct (b : List Byte) (_ : NAddr) (s : State) : Option Nat × State :=
  if singleSided s then (none, count C.TURN_IGNORED s)
  else withOwnTick (stampAt b 0) 8 C.TURN_LATE (fun x s => (some nDONE, stageTurn x none s)) s

theorem exec_turn (n : Note) : exec (.turn n) s = .next (takeNote kTURN n turnAct s) := rfl

theorem exec_turnEnd (n : Note) : exec (.turnEnd n) s = .next (takeNote kTURN_END n turnEndAct s) := rfl

theorem singleSided_count (i : Nat) : singleSided (count i s) = singleSided s := on_of_rd (rd_count _ _ _ (by decide))

/-- What a turn note stages where it is not too near. -/
theorem turnAct_staged (b : List Byte) (a : NAddr) (hs : singleSided s = false) (hb : byteAt b 5 ≤ 1) : turnAct b a s =
    withOwnTick (stampAt b 0) 8 C.TURN_LATE
      (fun x s => (some nDONE, stageTurn x (some (if byteAt b 5 = 0 then .east else .west)) s)) s := by
  rw [turnAct, if_neg (by simp [hs]), if_neg (Nat.not_le.mpr (Nat.lt_succ_of_le hb))]
  simp only [beq_iff_eq]

theorem turnEndAct_staged (b : List Byte) (a : NAddr) (hs : singleSided s = false) : turnEndAct b a s =
    withOwnTick (stampAt b 0) 8 C.TURN_LATE (fun x s => (some nDONE, stageTurn x none s)) s := by
  rw [turnEndAct, if_neg (by simp [hs])]

theorem mem_stageTurn (x : Nat) (sd : Option Side) : (x, sd) ∈ (stageTurn x sd s).byp.turns := by
  have hcount : ∀ c y, (whenB c (count C.STAGE_SUPERSEDED) y).byp = y.byp := fun c y => by
    cases c
    · rfl
    · exact count_byp _ y
  unfold stageTurn
  split
  · next h => exact List.contains_iff_mem.mp h
  · rw [hcount]
    exact List.mem_append_right _ (List.mem_singleton.mpr rfl)

section

variable {k : NKind} {n : Note} {act : List Byte → NAddr → State → Option Nat × State} {sd : Option Side}

/-- A turn note that is heard in time is staged. -/
theorem turnNote_staged {x : Nat} (h : Heard k n .id s) (hseq : k.sequenced = false)
    (hact : act (noteFields n .id) .id (count C.NOTE_RX s) = withOwnTick (stampAt (noteFields n .id) 0) 8 C.TURN_LATE
      (fun x s => (some nDONE, stageTurn x sd s)) (count C.NOTE_RX s))
    (hx : noteTick (stampAt (noteFields n .id) 0) 8 s = .ok x) : (x, sd) ∈ (takeNote k n act s).byp.turns := by
  rw [takeNote_done h hseq (hact.trans (withOwnTick_ok (noteTick_count.trans hx)))]
  exact mem_stageTurn _ _

/-- One that is only counted stages nothing. -/
theorem turnNote_counted {i : Nat} (h : Heard k n .id s) (hseq : k.sequenced = false)
    (hact : act (noteFields n .id) .id (count C.NOTE_RX s) = (none, count i (count C.NOTE_RX s)))
    (hi : i < 312) (hrx : i ≠ C.NOTE_RX) (hlost : i ≠ C.EVT_LOST) :
    Tallied i 1 s (takeNote k n act s) ∧ (takeNote k n act s).byp.turns = s.byp.turns := by
  rw [takeNote_silent h hseq hact, count_byp, count_byp]
  exact ⟨tallied_count_noted hi hrx hlost (countsNow_of_heard h), rfl⟩

end

theorem turn_stages {n : Note} {x : Nat} (h : Heard kTURN n .id s) (hs : singleSided s = false)
    (hb : byteAt (noteFields n .id) 5 ≤ 1) (hx : noteTick (stampAt (noteFields n .id) 0) 8 s = .ok x) :
    ∃ t, exec (.turn n) s = .next t ∧ (x, some (if byteAt (noteFields n .id) 5 = 0 then Side.east else .west)) ∈ t.byp.turns :=
  ⟨_, exec_turn n, turnNote_staged h rfl (turnAct_staged _ _ ((singleSided_count _).trans hs) hb) hx⟩

theorem turnEnd_stages {n : Note} {x : Nat} (h : Heard kTURN_END n .id s) (hs : singleSided s = false)
    (hx : noteTick (stampAt (noteFields n .id) 0) 8 s = .ok x) : ∃ t, exec (.turnEnd n) s = .next t ∧ (x, none) ∈ t.byp.turns :=
  ⟨_, exec_turnEnd n, turnNote_staged h rfl (turnEndAct_staged _ _ ((singleSided_count _).trans hs)) hx⟩

theorem turns_late {n : Note} (hs : singleSided s = false) (hx : noteTick (stampAt (noteFields n .id) 0) 8 s = .error nLATE) :
    (Heard kTURN n .id s → byteAt (noteFields n .id) 5 ≤ 1 →
      ∃ t, exec (.turn n) s = .next t ∧ Tallied C.TURN_LATE 1 s t ∧ t.byp.turns = s.byp.turns) ∧
    (Heard kTURN_END n .id s → ∃ t, exec (.turnEnd n) s = .next t ∧ Tallied C.TURN_LATE 1 s t ∧ t.byp.turns = s.byp.turns) := by
  have hs' : singleSided (count C.NOTE_RX s) = false := (singleSided_count _).trans hs
  refine ⟨fun h hb => ⟨_, exec_turn n, turnNote_counted h rfl ?_ (by decide) (by decide) (by decide)⟩,
    fun h => ⟨_, exec_turnEnd n, turnNote_counted h rfl ?_ (by decide) (by decide) (by decide)⟩⟩
  · exact (turnAct_staged _ _ hs' hb).trans (withOwnTick_late (noteTick_count.trans hx))
  · exact (turnEndAct_staged _ _ hs').trans (withOwnTick_late (noteTick_count.trans hx))

theorem turns_ignored {n : Note} (hs : singleSided s = true) :
    (Heard kTURN n .id s → ∃ t, exec (.turn n) s = .next t ∧ Tallied C.TURN_IGNORED 1 s t ∧ t.byp.turns = s.byp.turns) ∧
    (Heard kTURN_END n .id s →
      ∃ t, exec (.turnEnd n) s = .next t ∧ Tallied C.TURN_IGNORED 1 s t ∧ t.byp.turns = s.byp.turns) := by
  have hs' : singleSided (count C.NOTE_RX s) = true := (singleSided_count _).trans hs
  exact ⟨fun h => ⟨_, exec_turn n, turnNote_counted h rfl (if_pos hs') (by decide) (by decide) (by decide)⟩,
    fun h => ⟨_, exec_turnEnd n, turnNote_counted h rfl (if_pos hs') (by decide) (by decide) (by decide)⟩⟩

/-! ### TURN_EFFECTIVE (R73) -/

theorem fTURNED_off (d : Side) : (fTURNED d).off = R.BYPASS_STATUS := by cases d <;> rfl

theorem fTURNED_hi (d : Side) : (fTURNED d).hi < 40 := by cases d <;> decide

/-- The bits of the two sides stand beside each other. -/
theorem fTURNED_apart (d : Side) : (fTURNED (otherSide d)).hi < (fTURNED d).lo ∨ (fTURNED d).hi < (fTURNED (otherSide d)).lo := by
  cases d <;> decide

theorem fTURNED_auto (d : Side) : (fTURNED d).hi < F.BYPASS_STATUS_TURN_AUTO.lo := by cases d <;> decide

theorem on_fTURNED_wr (d : Side) (v : Nat) (hv : v < 2) : on (fTURNED d) (wr (fTURNED d) v s) = (v != 0) := by
  rw [on, rd_wr_fits (fTURNED_hi d) (by cases d <;> exact hv)]

theorem on_fTURNED_wr_other (d : Side) (v : Nat) : on (fTURNED d) (wr (fTURNED (otherSide d)) v s) = on (fTURNED d) s :=
  on_of_rd (rd_wr_other _ _ _ _ (.inr (fTURNED_apart d).symm) (fTURNED_hi d))

theorem on_fTURNED_wr_auto (d : Side) (v : Nat) : on (fTURNED d) (wr F.BYPASS_STATUS_TURN_AUTO v s) = on (fTURNED d) s :=
  on_of_rd (rd_wr_other _ _ _ _ (.inr (.inl (fTURNED_auto d))) (fTURNED_hi d))

theorem on_noAutoTurn (f : Fld) : on f (noAutoTurn s) = on f s := by
  unfold noAutoTurn
  rw [on_setSpan, on_setSpan]

theorem otherSide_otherSide (d : Side) : otherSide (otherSide d) = d := by cases d <;> rfl

/-- R73: a side given up, and the other one not, unless it was given up before. -/
theorem turnTo_end (d : Side) : on (fTURNED d) (turnTo d s) = true ∧
    (on (fTURNED d) s = false → on (fTURNED (otherSide d)) (turnTo d s) = false) := by
  unfold turnTo
  split
  · next h => exact ⟨h, fun h' => absurd (h.symm.trans h') (by decide)⟩
  · rw [on_noAutoTurn, on_noAutoTurn, on_fTURNED_wr_auto, on_fTURNED_wr_auto, on_fTURNED_wr_other,
      on_fTURNED_wr d 1 (by decide), on_fTURNED_wr (otherSide d) 0 (by decide)]
    exact ⟨rfl, fun _ => rfl⟩

/-- R73: a side taken back where the other had not been given up: no turn is left. -/
theorem turnOff_end {d : Side} (h : on (fTURNED (otherSide d)) s = false) : on (fTURNED d) (turnOff d s) = false ∧
    on (fTURNED (otherSide d)) (turnOff d s) = false ∧ on F.BYPASS_STATUS_TURN_AUTO (turnOff d s) = false := by
  have hother := on_fTURNED_wr_other (s := s) (otherSide d) 0
  rw [otherSide_otherSide, h] at hother
  unfold turnOff
  rw [on_noAutoTurn, on_noAutoTurn, on_noAutoTurn, on_fTURNED_wr_auto, on_fTURNED_wr_auto, hother,
    on_fTURNED_wr d 0 (by decide), on, rd_wr_fits (by decide) (by decide)]
  exact ⟨rfl, rfl, rfl⟩

theorem not_mem_turnDone (p : Nat × Option Side) : p ∉ (turnDone p s).byp.turns := by
  intro h
  simp [turnDone] at h

/-- TURN_EFFECTIVE at a staged turn to a side, and at a staged turn end. -/
theorem exec_turnEffective_to {d : Side} {x : Nat} (hdue : dueTurn s = some (x, some d)) (hs : singleSided s = false)
    (ht : insertedState s.term = true ∨ s.term = .leaving) : exec (.turnEffective d) s =
      .next (if markerFrom (otherSide d) x s = true then turnTo d (turnDone (x, some d) s) else s) := by
  have hgo : (singleSided s || !(insertedState s.term || s.term == .leaving)) = false := by
    rcases ht with ht | ht <;> simp [hs, ht]
  show execTurnEffective d s = _
  simp only [execTurnEffective, hdue, hgo, beq_self_eq_true, Bool.true_and]
  rfl

theorem exec_turnEffective_end {d : Side} {x : Nat} (hdue : dueTurn s = some (x, none)) (hs : singleSided s = false)
    (ht : insertedState s.term = true ∨ s.term = .leaving) (hoff : on (fTURNED (otherSide d)) s = false) :
    exec (.turnEffective d) s = .next (if markerFrom d x s = true then turnOff d (turnDone (x, none) s) else s) := by
  have hgo : (singleSided s || !(insertedState s.term || s.term == .leaving)) = false := by
    rcases ht with ht | ht <;> simp [hs, ht]
  show execTurnEffective d s = _
  simp only [execTurnEffective, hdue, hgo, hoff, Bool.not_false, Bool.and_true]
  rfl

theorem turnEffective_turns {d : Side} {x : Nat} (hdue : dueTurn s = some (x, some d)) (hs : singleSided s = false)
    (ht : insertedState s.term = true ∨ s.term = .leaving) :
    (markerFrom (otherSide d) x s = true → ∃ t, exec (.turnEffective d) s = .next t ∧ on (fTURNED d) t = true ∧
      (x, some d) ∉ t.byp.turns ∧ (on (fTURNED d) s = false → on (fTURNED (otherSide d)) t = false)) ∧
    (markerFrom (otherSide d) x s = false → exec (.turnEffective d) s = .next s) := by
  have hexec := exec_turnEffective_to hdue hs ht
  constructor
  · intro hm
    rw [if_pos hm] at hexec
    obtain ⟨hon, hoff⟩ := turnTo_end (s := turnDone (x, some d) s) d
    have hbyp : (turnTo d (turnDone (x, some d) s)).byp = (turnDone (x, some d) s).byp :=
      (keeps_turnTo (A := 0x4000040000000) d rfl (.refl _ _)).rest.byp rfl
    refine ⟨_, hexec, hon, ?_, hoff⟩
    rw [hbyp]
    exact not_mem_turnDone _
  · intro hm
    rwa [if_neg (by simp [hm])] at hexec

theorem turnEffective_ends {d : Side} {x : Nat} (hdue : dueTurn s = some (x, none)) (hs : singleSided s = false)
    (ht : insertedState s.term = true ∨ s.term = .leaving) (hoff : on (fTURNED (otherSide d)) s = false) :
    (markerFrom d x s = true → ∃ t, exec (.turnEffective d) s = .next t ∧ on F.BYPASS_STATUS_TURNED_W t = false ∧
      on F.BYPASS_STATUS_TURNED_E t = false ∧ on F.BYPASS_STATUS_TURN_AUTO t = false ∧ (x, none) ∉ t.byp.turns) ∧
    (markerFrom d x s = false → exec (.turnEffective d) s = .next s) := by
  have hexec := exec_turnEffective_end hdue hs ht hoff
  constructor
  · intro hm
    rw [if_pos hm] at hexec
    obtain ⟨hside, hother, hauto⟩ := turnOff_end (s := turnDone (x, none) s) hoff
    have hmem := not_mem_turnDone (s := s) (x, none)
    cases d with
    | west => exact ⟨_, hexec, hside, hother, hauto, hmem⟩
    | east => exact ⟨_, hexec, hother, hside, hauto, hmem⟩
  · intro hm
    rwa [if_neg (by simp [hm])] at hexec

/-! ### The automatic turn (R75) -/

theorem turnAuto_begins {d : Side} (hs : singleSided s = false) (hcfg : on F.BYPASS_CFG_AUTO_TURN s = true)
    (hi : insertedState s.term = true) (he : s.byp.ending = none) (hd : on (fTURNED d) s = false)
    (ho : on (fTURNED (otherSide d)) s = false) (hw : s.span.w.autoDue = false) (hea : s.span.e.autoDue = false)
    (hgone : (spanOf d s).rowsOk = false ∨ on (F.LANE_STATUS_LOS (laneOf d)) s = true)
    (hrows : (spanOf (otherSide d) s).rowsOk = true) (hroom : Room s) : ∃ t, exec (.turnAuto d) s = .next t ∧
      (spanOf d t).autoDue = true ∧ Tallied C.TURN_AUTO 1 s t ∧ Waits E.TURN_AUTO (if d = .east then 0 else 1) t := by
  have hsignal : signalGone d s = true := by
    rcases hgone with h | h <;> simp [signalGone, h, hrows]
  have harg : (if isEast d then 0 else 1) = if d = .east then 0 else 1 := by cases d <;> rfl
  generalize hu : setSpan d (fun x => { x with autoDue := true }) s = u
  have hexec : exec (.turnAuto d) s = .next (raise E.TURN_AUTO (if isEast d then 0 else 1) (count C.TURN_AUTO u)) := by
    subst hu
    exact congrArg Host.Outcome.next (if_neg (by simp [hs, hcfg, hi, he, hd, ho, hw, hea, hsignal]))
  rw [harg] at hexec
  have hterm : u.term = s.term := by rw [← hu, setSpan_term]
  have hreg : ∀ off, reg off u = reg off s := fun off => by rw [← hu, reg_setSpan]
  have hroom' : Room u := by
    unfold Room
    rwa [← hu, setSpan_host]
  refine ⟨_, hexec, ?_, ?_, waits_raise_count hroom'⟩
  · have hspan : ∀ c a, (spanOf d (raise c a (count C.TURN_AUTO u))) = spanOf d u := fun c a => by
      unfold spanOf
      rw [raise_span, count_span]
    rw [hspan, ← hu, spanOf_setSpan]
  · have hc : countsNow u = true := by
      rw [countsNow, hterm]
      exact countsNow_of_inserted (.inl hi)
    rw [Tallied, reg_raise_counter _ _ _ (by decide) (by decide), reg_count_same _ (by decide) (by decide) hc, hreg]

/-- R75: where an automatic turn waits for a marker on this side, it takes effect. -/
theorem autoTurnAt_end {d : Side} (h : (spanOf (otherSide d) s).autoDue = true) :
    on (fTURNED (otherSide d)) (autoTurnAt d s) = true ∧ on F.BYPASS_STATUS_TURN_AUTO (autoTurnAt d s) = true ∧
      (spanOf (otherSide d) (autoTurnAt d s)).autoDue = false := by
  have hother := fun x v => on_fTURNED_wr_other (s := x) (otherSide d) v
  rw [otherSide_otherSide] at hother
  have hspan : ∀ (f : Fld) v x, spanOf (otherSide d) (wr f v x) = spanOf (otherSide d) x := fun _ _ _ => rfl
  unfold autoTurnAt
  dsimp only
  rw [if_neg (by simp [h]), on_fTURNED_wr_auto, hother, on_fTURNED_wr _ 1 (by decide), hspan, hspan, hspan, spanOf_setSpan,
    on, rd_wr_fits (by decide) (by decide)]
  exact ⟨rfl, rfl, rfl⟩

/-- R115, R120: a tick marker brings the tracker of its input to frame `f`. -/
def markerTaken (d : Side) (f : FrameId) (turned jump : Bool) (s : State) : State :=
  s |> whenB jump (countSide C.TICK_SEQ_JUMP_W d) |> wr (fTRACKING d) 1
    |> setTrk d (fun _ => { cyc8 := f.cyc8, tick := f.tick, turned, seen := true })
    |> setSpan d (fun x => { x with marker := true })

/-- What the marker of frame tick `b` does once an automatic turn that waited for it has taken effect. -/
def markerClosed (d : Side) (b a since : Nat) (turned jump : Bool) (s : State) : State :=
  addDownJobs (tickAdd b 1) (arrive d b a since turned jump (purgeRows d s))

theorem exec_tickMarker {d : Side} {w : RxWord} {dir : Bool} {tick cyc : Nat} (a : Nat) (hm : tickMarker w = some (dir, tick, cyc))
    (hf : frmRuns s = true) (hw : wordLock d s = true) : ∃ b jump, exec (.tickMarker d w a) s =
      .next (markerClosed d b a ((trk d s).misses + 1) (dir != portDir d) jump
        (autoTurnAt d (markerTaken d { cyc8 := cyc, tick } (dir != portDir d) jump s))) := by
  have hgo : (!frmRuns s || !wordLock d s) = false := by simp [hf, hw]
  let f : FrameId := { cyc8 := cyc, tick }
  let jump := tracking d s && nextFrame (trkFrame d s) != f && !((trk d s).missing && trkFrame d s == f)
  refine ⟨absTick f (autoTurnAt d (markerTaken d f (dir != portDir d) jump s)), jump, ?_⟩
  show execTickMarker d w a s = _
  simp only [execTickMarker, hm]
  exact congrArg Host.Outcome.next (if_neg (by simp [hf, hw]))

/-- The tracker's step leaves what the other side waits for. -/
theorem autoDue_markerTaken {d : Side} {f : FrameId} {turned jump : Bool} :
    (spanOf (otherSide d) (markerTaken d f turned jump s)).autoDue = (spanOf (otherSide d) s).autoDue := by
  have hk : ∀ g : Track → Track, Keeps (T.counting ||| Reach.T.frame ||| Reach.T.REP_STATUS_W ||| Reach.T.REP_STATUS_E) s
      (setTrk d g (wr (fTRACKING d) 1 (whenB jump (countSide C.TICK_SEQ_JUMP_W d) s))) := fun g =>
    keeps_setTrk _ _ rfl (keeps_wr _ _ (by cases d <;> decide +kernel) (keeps_whenB _ _ (fun _ => keeps_countSide _ _ rfl) (.refl _ s)))
  have hspan := (hk fun _ => { cyc8 := f.cyc8, tick := f.tick, turned, seen := true }).rest.span rfl
  unfold markerTaken spanOf
  cases d
  · have h := congrArg (fun x : SpanSt => x.e.autoDue) hspan
    exact h
  · have h := congrArg (fun x : SpanSt => x.w.autoDue) hspan
    exact h

/-- What follows the automatic turn does not reach it. -/
theorem keeps_markerClosed {d : Side} {b a since : Nat} {turned jump : Bool} :
    Keeps (Reach.T.win ||| Reach.T.frame ||| Reach.T.regn ||| Reach.T.key ||| Reach.T.span) s
      (markerClosed d b a since turned jump s) :=
  keeps_addDownJobs _ rfl (keeps_arrive _ _ _ _ _ _ rfl (keeps_purgeRows _ rfl (.refl _ s)))

theorem autoDue_markerClosed {d : Side} {b a since : Nat} {turned jump : Bool} :
    (spanOf (otherSide d) (markerClosed d b a since turned jump s)).autoDue = (spanOf (otherSide d) s).autoDue := by
  have hjobs : ∀ c x, (addDownJobs c x).span = x.span := fun c x => (keeps_addDownJobs (A := 0x2000) c rfl (.refl _ x)).rest.span rfl
  have hrows : (purgeRows d s).span = s.span := (keeps_purgeRows (A := 0x1200) d rfl (.refl _ s)).rest.span rfl
  have hmatch : ∀ x, (measMatch d b x).span = x.span := fun x => (keeps_measMatch (A := 0x400) d b rfl (.refl _ x)).rest.span rfl
  have hmeas : ∀ (c : Prop) [Decidable c] (x : State), (if c then measBreak x else measMatch d b x).span = x.span := fun c _ x => by
    split
    · rfl
    · exact hmatch x
  have harrive : ∀ x, (spanOf (otherSide d) (arrive d b a since turned jump x)).autoDue = (spanOf (otherSide d) x).autoDue := by
    intro x
    unfold arrive
    dsimp only
    unfold spanOf
    rw [hmeas]
    cases d <;> rfl
  unfold spanOf at harrive ⊢
  rw [markerClosed, hjobs, harrive, hrows]

theorem tickMarker_turns {d : Side} {w : RxWord} {m : Bool × Nat × Nat} (a : Nat) (hm : tickMarker w = some m)
    (hf : frmRuns s = true) (hw : wordLock d s = true) (hdue : (spanOf (otherSide d) s).autoDue = true) :
    ∃ t, exec (.tickMarker d w a) s = .next t ∧ on (fTURNED (otherSide d)) t = true ∧ on F.BYPASS_STATUS_TURN_AUTO t = true ∧
      (spanOf (otherSide d) t).autoDue = false := by
  obtain ⟨b, jump, hexec⟩ := exec_tickMarker a hm hf hw
  obtain ⟨hturned, hauto, hspan⟩ := autoTurnAt_end (autoDue_markerTaken.trans hdue)
  have hreg : Reach.reg (Reach.T.win ||| Reach.T.frame ||| Reach.T.regn ||| Reach.T.key ||| Reach.T.span) R.BYPASS_STATUS = false := by
    decide +kernel
  exact ⟨_, hexec, (on_of_rd (keeps_markerClosed.rd _ (by rw [fTURNED_off]; exact hreg))).trans hturned,
    (on_of_rd (keeps_markerClosed.rd _ hreg)).trans hauto, autoDue_markerClosed.trans hspan⟩

/-! ### Leaving (R81, R82, R182) -/

/-- What a LEAVE does. -/
def leaveAct (b : List Byte) (_ : NAddr) (s : State) : Option Nat × State :=
  withOwnTick (stampAt b 0) 8 C.TURN_LATE
    (fun x s => (some nDONE, setByp (fun b => { b with tl := some x, leaveReq := none, leaveSent := false }) s)) s

theorem exec_leave (n : Note) : exec (.leave n) s = .next (takeNote kLEAVE n leaveAct s) := rfl

theorem leave_names {n : Note} {tl : Nat} (h : Heard kLEAVE n .id s)
    (hx : noteTick (stampAt (noteFields n .id) 0) 8 s = .ok tl) : ∃ t, exec (.leave n) s = .next t ∧ t.byp.tl = some tl ∧
      t.byp.leaveReq = none ∧ t.term = s.term := by
  have hact : leaveAct (noteFields n .id) .id (count C.NOTE_RX s) = (some nDONE,
      setByp (fun b => { b with tl := some tl, leaveReq := none, leaveSent := false }) (count C.NOTE_RX s)) :=
    withOwnTick_ok (noteTick_count.trans hx)
  exact ⟨_, (exec_leave n).trans (congrArg Host.Outcome.next (takeNote_done h rfl hact)), rfl, rfl, count_term _ s⟩

/-- R81 step 1. -/
theorem beginLeaving_end : (beginLeaving s).term = .leaving ∧ (beginLeaving s).byp.tl = none ∧
    (beginLeaving s).byp.leaveReq = none := by
  have hbyp : (beginLeaving s).byp = { (cutWindows s).byp with tl := none, leaveReq := none, leaveSent := false, checkFrom := none } :=
    (keeps_goTerm_self .leaving).rest.byp rfl
  exact ⟨term_goTerm _, congrArg BypassSt.tl hbyp, congrArg BypassSt.leaveReq hbyp⟩

theorem mayLeave_of (hi : insertedState s.term = true) (he : s.byp.ending = none) : mayLeave s = true := by
  simp [mayLeave, hi, he]

theorem leaving_begins {tl : Nat} (htl : s.byp.tl = some tl) (hi : insertedState s.term = true) (he : s.byp.ending = none)
    (hd : tickDue tl s.line = true) : ∃ t, exec .leaving s = .next t ∧ t.term = .leaving ∧ t.byp.tl = none := by
  have hexec : exec .leaving s = .next (beginLeaving s) := by
    show execLeaving s = _
    simp only [execLeaving, htl, mayLeave_of hi he, hd]
    rfl
  obtain ⟨hterm, hnone, -⟩ := beginLeaving_end (s := s)
  exact ⟨_, hexec, hterm, hnone⟩

theorem leaveReqTimeout_leaves {k : Nat} (hk : s.byp.leaveReq = some k) (hi : insertedState s.term = true)
    (he : s.byp.ending = none) (h256 : 256 ≤ k) (hl : s.line % 48 = 0) :
    ∃ t, exec .leaveReqTimeout s = .next t ∧ t.term = .leaving ∧ t.byp.leaveReq = none := by
  have hexec : exec .leaveReqTimeout s = .next (beginLeaving s) := by
    show execLeaveReqTimeout s = _
    simp only [execLeaveReqTimeout, hk, mayLeave_of hi he, h256, hl]
    rfl
  obtain ⟨hterm, -, hnone⟩ := beginLeaving_end (s := s)
  exact ⟨_, hexec, hterm, hnone⟩

theorem leaveReqRepeat_queues {k : Nat} (hk : s.byp.leaveReq = some k) (h8 : 8 ≤ s.byp.leaveRep) (hid : termId s ≠ 0)
    (hup : s.note.up.length < 16) : ∃ t, exec .leaveReqRepeat s = .next t ∧ t.byp.leaveRep = 0 ∧
      ∃ u ∈ t.note.up, u.type = nLEAVE_REQ := by
  have hexec : exec .leaveReqRepeat s = .next (queueRepeat nLEAVE_REQ [] (setByp (fun b => { b with leaveRep := 0 }) s)) :=
    congrArg Host.Outcome.next (if_pos (by simp [hk, h8, hid]))
  obtain ⟨u, hu, htype, -⟩ := queueRepeat_queued (s := setByp (fun b => { b with leaveRep := 0 }) s) (type := nLEAVE_REQ)
    (body := []) hup
  exact ⟨_, hexec, congrArg BypassSt.leaveRep ((keeps_queueRepeat_self _ _).rest.byp rfl), u, hu, htype⟩

/-- Settles O20. -/
theorem turnsAndLeavesTakeEffect : Obligations.TurnsAndLeavesTakeEffect :=
  ⟨fun _ _ _ => turn_stages, fun _ _ _ => turnEnd_stages, fun _ _ => turns_late, fun _ _ => turns_ignored,
    fun _ _ _ => turnEffective_turns, fun _ _ _ => turnEffective_ends, fun _ _ => turnAuto_begins,
    fun _ _ a _ _ => tickMarker_turns a, fun _ _ _ => leave_names, fun _ _ => leaving_begins,
    fun _ _ => leaveReqTimeout_leaves, fun _ _ => leaveReqRepeat_queues⟩

end Sys2Proof.Proofs

end

/-! PROOF. The settings store follows the flash (spec/19_gleaning_firmware_settings.md R448-R450). -/

section

namespace Sys2Proof.Proofs

open Sys2Proof Sys2Proof.Machine Sys2Proof.Claims Sys2Proof.Laws

set_option Elab.async false

variable {s u : State}

/-! ### What is read is read from the flash -/

theorem bankValid_congr (a : Nat) (hf : u.flash = s.flash) : bankValid a u = bankValid a s := by
  simp only [bankValid, flashRead_congr _ _ hf]

theorem bankGen_congr (a : Nat) (hf : u.flash = s.flash) : bankGen a u = bankGen a s := by
  simp only [bankGen, flashRead_congr _ _ hf]

theorem currentBank_congr (hf : u.flash = s.flash) : currentBank u = currentBank s := by
  unfold currentBank
  rw [bankValid_congr _ hf, bankValid_congr _ hf, bankGen_congr _ hf, bankGen_congr _ hf]

theorem scanBank_congr (base fuel off : Nat) (hf : u.flash = s.flash) : scanBank base fuel off u = scanBank base fuel off s := by
  induction fuel generalizing off with
  | zero => rfl
  | succ n ih => simp only [scanBank, flashByte_congr hf, flashRead_congr _ _ hf, ih]

theorem storeEntries_congr (hf : u.flash = s.flash) : storeEntries u = storeEntries s := by
  unfold storeEntries
  rw [currentBank_congr hf]
  split
  · rfl
  · rw [scanBank_congr _ _ _ hf]

theorem liveEntries_congr (hf : u.flash = s.flash) (ht : onTrial u = onTrial s) : liveEntries u = liveEntries s := by
  simp only [liveEntries, storeEntries_congr hf, ht]

theorem settingGet_congr (key : Nat) (hf : u.flash = s.flash) (ht : onTrial u = onTrial s) (hg : u.glean.fresh = s.glean.fresh) :
    settingGet key u = settingGet key s := by
  simp only [settingGet, storeEntries_congr hf, entryVisible, ht, hg]

/-! ### What is programmed and erased depends on the flash alone -/

theorem flashProg_congr (a : Nat) (b : Byte) (hf : u.flash = s.flash) : (flashProg a b u).flash = (flashProg a b s).flash := by
  simp only [flashProg, flashPut, flashByte_congr hf, hf]

theorem flashProgAll_congr (a : Nat) (l : List Byte) (hf : u.flash = s.flash) :
    (flashProgAll a l u).flash = (flashProgAll a l s).flash := by
  induction l generalizing a s u with
  | nil => exact hf
  | cons b r ih => exact ih (a + 1) (flashProg_congr a b hf)

theorem flashErase_congr (a : Nat) (hf : u.flash = s.flash) : (flashErase a u).flash = (flashErase a s).flash := by
  simp only [flashErase, hf]

theorem flashEraseN_congr (a n : Nat) (hf : u.flash = s.flash) : (flashEraseN a n u).flash = (flashEraseN a n s).flash := by
  unfold flashEraseN
  generalize List.range n = l
  induction l generalizing s u with
  | nil => exact hf
  | cons i r ih => exact ih (flashErase_congr _ hf)

theorem compact_congr (keep : List SetEntry) (hf : u.flash = s.flash) : (compact keep u).flash = (compact keep s).flash := by
  unfold compact
  rw [currentBank_congr hf]
  cases currentBank s with
  | none => exact flashProgAll_congr _ _ (flashProgAll_congr _ _ (flashEraseN_congr _ _ hf))
  | some b =>
    simp only [bankGen_congr _ hf]
    exact flashEraseN_congr _ _ (flashProgAll_congr _ _ (flashProgAll_congr _ _ (flashEraseN_congr _ _ hf)))

/-! ### Storing a record (R449) -/

/-- R449: is there room for `need` bytes in the current bank. -/
def bankRoom (need : Nat) (s : State) : Bool :=
  match currentBank s with
  | some b => !(scanBank b 1640 16 s).2.1 && decide ((scanBank b 1640 16 s).2.2 + need ≤ 16384)
  | none => false

/-- R449: program an entry after the last one. -/
def appendEntry (key : Nat) (val : List Byte) (s : State) : State :=
  match currentBank s with
  | some b => flashProgAll (b + (scanBank b 1640 16 s).2.2) (entryBytes key (onTrial s) val) s
  | none => s

/-- R449: the entries that a compaction for a new value of `key` keeps. -/
def keptFor (key : Nat) (s : State) : List SetEntry :=
  (liveEntries s).filter (fun e => !(e.key == key && e.tentative == onTrial s))

/-- R446-R449: a store appends where there is room, and else compacts first where that gives room. -/
theorem settingStore_eq (key : Nat) (val : List Byte) (s : State) : settingStore key val s =
    if bankRoom (10 + val.length) s then (true, settingsRefresh (appendEntry key val s))
    else if 16368 < entriesLen (keptFor key s) + (10 + val.length) then (false, raise E.SETTINGS_FULL key s)
    else (true, settingsRefresh (appendEntry key val (compact (keptFor key s) s))) := rfl

theorem bankRoom_congr (need : Nat) (hf : u.flash = s.flash) : bankRoom need u = bankRoom need s := by
  unfold bankRoom
  rw [currentBank_congr hf]
  cases currentBank s <;> simp only [scanBank_congr _ _ _ hf]

theorem appendEntry_congr (key : Nat) (val : List Byte) (hf : u.flash = s.flash) (ht : onTrial u = onTrial s) :
    (appendEntry key val u).flash = (appendEntry key val s).flash := by
  unfold appendEntry
  rw [currentBank_congr hf]
  cases currentBank s with
  | none => exact hf
  | some b =>
    simp only [scanBank_congr _ _ _ hf, ht]
    exact flashProgAll_congr _ _ hf

theorem keptFor_congr (key : Nat) (hf : u.flash = s.flash) (ht : onTrial u = onTrial s) : keptFor key u = keptFor key s := by
  simp only [keptFor, liveEntries_congr hf ht, ht]

theorem flash_settingsRefresh : (settingsRefresh s).flash = s.flash :=
  (keeps_settingsRefresh (A := Reach.T.SETTINGS_STATUS) rfl (.refl _ s)).rest.flash rfl

theorem onTrial_compact (keep : List SetEntry) : onTrial (compact keep s) = onTrial s :=
  on_of_rd ((keeps_compact (A := Reach.T.flash) keep rfl (.refl _ s)).rd _ (by decide +kernel))

/-- A store depends on the flash and on whether the running image is on trial alone. -/
theorem settingStore_congr (key : Nat) (val : List Byte) (hf : u.flash = s.flash) (ht : onTrial u = onTrial s) :
    (settingStore key val u).1 = (settingStore key val s).1 ∧ (settingStore key val u).2.flash = (settingStore key val s).2.flash := by
  rw [settingStore_eq, settingStore_eq, bankRoom_congr _ hf, keptFor_congr key hf ht]
  split
  · exact ⟨rfl, by rw [flash_settingsRefresh, flash_settingsRefresh, appendEntry_congr key val hf ht]⟩
  split
  · exact ⟨rfl, by rw [raise_flash, raise_flash, hf]⟩
  · refine ⟨rfl, ?_⟩
    rw [flash_settingsRefresh, flash_settingsRefresh]
    exact appendEntry_congr key val (compact_congr _ hf) (by rw [onTrial_compact, onTrial_compact, ht])

/-- R449: a store that finds no room changes nothing and is reported. -/
theorem settingStore_full {key : Nat} {val : List Byte} (h : (settingStore key val s).1 = false) :
    settingStore key val s = (false, raise E.SETTINGS_FULL key s) := by
  rw [settingStore_eq] at h ⊢
  split at h
  · cases h
  · next hroom =>
    split at h
    · next hfull => rw [if_neg hroom, if_pos hfull]
    · cases h

theorem host_settingsRefresh : (settingsRefresh s).host = s.host :=
  (keeps_settingsRefresh (A := Reach.T.SETTINGS_STATUS) rfl (.refl _ s)).rest.host rfl

theorem host_appendEntry (key : Nat) (val : List Byte) : (appendEntry key val s).host = s.host := by
  unfold appendEntry
  split
  · exact (keeps_flashProgAll (A := Reach.T.flash) _ _ rfl (.refl _ s)).rest.host rfl
  · rfl

theorem told_settingStore (key : Nat) (val : List Byte) : Told s (settingStore key val s).2 := by
  rw [settingStore_eq]
  split
  · exact told_of_host (host_settingsRefresh.trans (host_appendEntry _ _))
  split
  · exact told_raise _ _
  · exact told_of_host (host_settingsRefresh.trans ((host_appendEntry _ _).trans
      ((keeps_compact (A := Reach.T.flash) _ rfl (.refl _ s)).rest.host rfl)))

end Sys2Proof.Proofs

end

/-! PROOF. What applying a settings record does (spec/19_gleaning_firmware_settings.md R428, R446-R449). -/

section

namespace Sys2Proof.Proofs

open Sys2Proof Sys2Proof.Machine Sys2Proof.Claims Sys2Proof.Laws

set_option Elab.async false

variable {s u : State} {key : Nat} {persist : Bool} {val : List Byte}

/-! ### The cases of a record -/

theorem setRecord_bad (hb : settingBad key val = true) : setRecord key persist val s = (.badValue, s) := if_pos hb

theorem setRecord_value (hb : settingBad key val = false) (hv : val ≠ []) : setRecord key persist val s =
    if persist then
      if !layoutOk s then (.refused, s)
      else if (settingStore key val s).1 then
        (.ok, settingApplied key val (setLive key none (settingStore key val s).2))
      else (.full, (settingStore key val s).2)
    else (.ok, settingApplied key val (setLive key (some val) s)) :=
  (if_neg (by simp [hb])).trans (if_neg (by simp [hv]))

theorem setRecord_live (hb : settingBad key val = false) (hv : val ≠ []) (hp : persist = false) :
    setRecord key persist val s = (.ok, settingApplied key val (setLive key (some val) s)) := by
  rw [setRecord_value hb hv, if_neg (by simp [hp])]

theorem setRecord_unlaid (hb : settingBad key val = false) (hv : val ≠ []) (hp : persist = true) (hl : layoutOk s = false) :
    setRecord key persist val s = (.refused, s) := by
  rw [setRecord_value hb hv, if_pos hp, if_pos (by simp [hl])]

theorem setRecord_stored (hb : settingBad key val = false) (hv : val ≠ []) (hp : persist = true) (hl : layoutOk s = true)
    (hs : (settingStore key val s).1 = true) : setRecord key persist val s =
      (.ok, settingApplied key val (setLive key none (settingStore key val s).2)) := by
  rw [setRecord_value hb hv, if_pos hp, if_neg (by simp [hl]), if_pos hs]

theorem setRecord_full (hb : settingBad key val = false) (hv : val ≠ []) (hp : persist = true) (hl : layoutOk s = true)
    (hs : (settingStore key val s).1 = false) : setRecord key persist val s = (.full, raise E.SETTINGS_FULL key s) := by
  rw [setRecord_value hb hv, if_pos hp, if_neg (by simp [hl]), if_neg (by simp [hs]), settingStore_full hs]

theorem setRecord_delete (hb : settingBad key [] = false) : setRecord key persist [] s =
    if layoutOk s && (settingGet key s).isSome then
      if (settingStore key [] (setLive key none s)).1 then
        (.ok, settingApplied key [] (settingStore key [] (setLive key none s)).2)
      else (.full, (settingStore key [] (setLive key none s)).2)
    else (.ok, settingApplied key [] (setLive key none s)) :=
  (if_neg (by simp [hb])).trans (if_pos rfl)

theorem setRecord_absent (hb : settingBad key [] = false) (ha : settingGet key s = none ∨ layoutOk s = false) :
    setRecord key persist [] s = (.ok, settingApplied key [] (setLive key none s)) :=
  (setRecord_delete hb).trans (if_neg (by rcases ha with h | h <;> simp [h]))

theorem setRecord_deleted (hb : settingBad key [] = false) (hl : layoutOk s = true) (hg : (settingGet key s).isSome = true)
    (hs : (settingStore key [] (setLive key none s)).1 = true) : setRecord key persist [] s =
      (.ok, settingApplied key [] (settingStore key [] (setLive key none s)).2) :=
  (setRecord_delete hb).trans ((if_pos (by simp [hl, hg])).trans (if_pos hs))

/-! ### What an applied record reaches -/

/-- R447: a preset is applied as its register's write. -/
theorem settingApplied_preset (hp : isPreset key = true) (hv : val ≠ []) :
    settingApplied key val s = presetWrite (presetOff key) (bytesWord val) s := by
  have hkey : key ≠ 1 := fun h => by
    rw [h] at hp
    exact absurd hp (by decide)
  unfold settingApplied
  rw [if_neg (by simpa using hkey), if_pos (by simp [hp, hv])]

/-- What a record that is no preset reaches: the house's key, and the store and what is remembered of it. -/
def recordReach : Nat := T.counting ||| Reach.T.regn ||| Reach.T.key ||| Reach.T.glean ||| Reach.T.flash ||| Reach.T.SETTINGS_STATUS

/-- A record that is no preset may at most change the house's key. -/
theorem keeps_settingApplied_plain {A : Nat} (h : (isPreset key && !val.isEmpty) = false)
    (hA : Within (Reach.T.regn ||| Reach.T.key) A) (hk : Keeps A u s) : Keeps A u (settingApplied key val s) := by
  unfold settingApplied
  rw [h]
  exact keeps_ite (fun _ => keeps_houseChanged _ hA hk) fun _ => hk

theorem told_settingApplied_plain (h : (isPreset key && !val.isEmpty) = false) : Told s (settingApplied key val s) :=
  told_of_keeps (A := Reach.T.regn ||| Reach.T.key) (keeps_settingApplied_plain h rfl (.refl _ s)) rfl

theorem keeps_setLive_self (key : Nat) (v : Option (List Byte)) : Keeps Reach.T.glean s (setLive key v s) :=
  keeps_setLive _ _ rfl (.refl _ s)

theorem live_setLive (key : Nat) (val : List Byte) : lget [] (setLive key (some val) s).glean.live key = val :=
  get_put_same _ _ _ _

theorem live_setLive_none (key : Nat) : SMap.find (setLive key none s).glean.live key = none := find_del_same _ _

/-! ### A record whose programming fails (R428) -/

theorem setRecordOr_sound : setRecordOr false key persist val s =
    (some (setRecord key persist val s).1, (setRecord key persist val s).2) := rfl

theorem setRecordOr_fault (h : recordStored key persist val s = true) : setRecordOr true key persist val s =
    (none, flashFault (storeSpot (10 + val.length) s) s) := if_pos (by simp [h])

theorem told_flashFault (a : Nat) : Told s (flashFault a s) := (told_count _).trans (told_raise _ _)

end Sys2Proof.Proofs

end

/-! PROOF. The host's LEAVE, HOST_MSG and SETTING commands (spec/12_host_rings_pcie.md R300, R304; spec/03 R81, R82; spec/19 R428,
R446-R449). -/

section

namespace Sys2Proof.Proofs

open Sys2Proof Sys2Proof.Machine Sys2Proof.Claims Sys2Proof.Laws

set_option Elab.async false

variable {s u : State} {h : CmdHdr}

/-! ### A command that ends, recorded or not -/

theorem command_ends {act : State → CmdEnd × State} {recorded : Bool} {st sub res : Nat} (hd : Due h s)
    (ha : act (seqTaken h s) = (.ends st sub res, u)) (hp : Places (seqTaken h s) u) :
    ∃ t, done (runCmd h recorded act s) = .next t ∧ Completed h st sub res s t ∧ Keeps 0x20010000 u t :=
  ⟨_, congrArg Host.Outcome.next (runCmd_end hd ha), completed_commandEnd hp, keeps_commandEnd _ _ _ _⟩

/-- What is sent before a command's completion stays sent. -/
theorem mem_out_commandEnd {recorded : Bool} {st sub res : Nat} {o : Output} (ho : o ∈ u.out) :
    o ∈ (commandEnd h recorded st sub res u).out := by
  have hrec : (if recorded then cmdRecord h st sub res u else u).out = u.out := by cases recorded <;> rfl
  rw [commandEnd, cmdComplete_out, hrec]
  exact List.mem_cons_of_mem _ ho

/-- A command's end leaves the events that wait. -/
theorem events_commandEnd {recorded : Bool} {st sub res : Nat} :
    (commandEnd h recorded st sub res u).host.events = u.host.events := by
  have hvec : ∀ v x, (wantVec v x).host.events = x.host.events := fun v x => by
    unfold wantVec
    split <;> rfl
  have hring : ∀ x, (wantRing ringCMD x).host.events = x.host.events := fun x => by
    unfold wantRing
    split
    · exact hvec _ _
    · rfl
  have hrec : (if recorded then cmdRecord h st sub res u else u).host.events = u.host.events := by cases recorded <;> rfl
  rw [← hrec]
  unfold commandEnd cmdComplete
  dsimp only
  split
  · exact hring _
  · rfl

theorem dmaOut_seqTaken (a : Nat) (b : List Byte) : dmaOut (seqTaken h s) a b = dmaOut s a b := by
  have hmode : hostless (seqTaken h s) = hostless s := on_of_rd (rd_seqTaken (by decide))
  rw [dmaOut, dmaOut, hmode]

/-! ### A command of the firmware in MGT (R300, R304) -/

section

variable {act : State → CmdEnd × State} {recorded : Bool}

theorem firmware_ends {st sub res : Nat} (hd : Due h s) (hon : domOn dMGT s = true)
    (ha : act (seqTaken h s) = (.ends st sub res, u)) (hp : Places (seqTaken h s) u) :
    ∃ t, done (runCmd h recorded (needsOn dMGT act) s) = .next t ∧ Completed h st sub res s t ∧ Keeps 0x20010000 u t :=
  command_ends hd ((if_pos ((domOn_seqTaken dMGT).trans hon)).trans ha) hp

/-- R300: refused while MGT is not ON. -/
theorem firmware_refused (hd : Due h s) (hoff : domOn dMGT s = false) :
    ∃ t, done (runCmd h recorded (needsOn dMGT act) s) = .next t ∧ Completed h cREFUSED 0 0 s t ∧ t.note = s.note ∧
      t.glean = s.glean ∧ t.flash = s.flash := by
  have ha : needsOn dMGT act (seqTaken h s) = (.ends cREFUSED 0 0, seqTaken h s) :=
    if_neg (by simp [domOn_seqTaken, hoff])
  obtain ⟨t, ht, hc, hk⟩ := command_ends (recorded := recorded) hd ha (.refl _)
  exact ⟨t, ht, hc, hk.rest.note rfl, hk.rest.glean rfl, hk.rest.flash rfl⟩

/-- R304: a buffer that failed, after what was sent of it. -/
theorem firmware_dmaErr (hd : Due h s) (hon : domOn dMGT s = true) (hcount : countsNow s = true)
    (ha : act (seqTaken h s) = cmdDmaErr u) (hsent : ∀ A, Within Reach.T.out A → Keeps A (seqTaken h s) u) :
    ∃ t, done (runCmd h recorded (needsOn dMGT act) s) = .next t ∧ Completed h cDMA_ERR 0 0 s t ∧
      Tallied C.HOST_DMA_ERR 1 s t ∧ t.note = s.note ∧ t.glean = s.glean ∧ t.flash = s.flash := by
  have hu := hsent Reach.T.out rfl
  have hk : Keeps (T.counting ||| Reach.T.out) (seqTaken h s) (count C.HOST_DMA_ERR u) := keeps_count _ rfl (hsent _ rfl)
  have htold : Told (seqTaken h s) (count C.HOST_DMA_ERR u) := (told_of_keeps hu rfl).trans (told_count _)
  obtain ⟨t, ht, hc, hend⟩ := firmware_ends (recorded := recorded) hd hon ha (places_of_keeps hk htold (by decide +kernel))
  refine ⟨t, ht, hc, ?_, (hend.rest.note rfl).trans (hk.rest.note rfl), (hend.rest.glean rfl).trans (hk.rest.glean rfl),
    (hend.rest.flash rfl).trans (hk.rest.flash rfl)⟩
  have hcu : countsNow u = true := by
    rw [countsNow, hu.rest.term rfl]
    exact hcount
  rw [Tallied, hend.rest.regs _ (by decide +kernel), reg_count_same _ (by decide) (by decide) hcu, hu.rest.regs _ (by decide +kernel),
    reg_seqTaken (counterAddr_ne_of_bookkeeping (by decide) _)]

end

end Sys2Proof.Proofs

end

/-! PROOF. LEAVE, HOST_MSG and SETTING (spec/12_host_rings_pcie.md R300; spec/03 R81, R82; spec/19 R428, R446-R449). -/

section

namespace Sys2Proof.Proofs

open Sys2Proof Sys2Proof.Machine Sys2Proof.Claims Sys2Proof.Laws

set_option Elab.async false

variable {s u : State} {h : CmdHdr} {len : BitVec 16} {b : List Byte}

/-! ### LEAVE (R81, R82) -/

/-- What a host's LEAVE does. -/
def leaveCommandAct (s : State) : CmdEnd × State :=
  if !(s.term == .ranging || s.term == .running) then ends cREFUSED 0 0 s else ends cDONE 0 0 (requestLeave s)

theorem exec_leaveCommand (h : CmdHdr) : exec (.leaveCommand h) s = done (runCmd h true leaveCommandAct s) := rfl

theorem told_upPush (n : UpNote) : Told s (upPush n s) := by
  unfold upPush
  dsimp only
  split
  · exact told_setNote _
  · exact (told_setNote _).trans (told_count _)

theorem told_queueRepeat (type : Nat) (body : List Byte) : Told s (queueRepeat type body s) := by
  unfold queueRepeat
  split
  · exact told_of_host rfl
  dsimp only
  split
  · exact told_upPush _
  · exact told_queueUp _ _

theorem told_requestLeave : Told s (requestLeave s) := by
  unfold requestLeave
  dsimp only
  split
  · exact (told_queueRepeat _ _).trans (told_of_host rfl)
  · exact (told_queueUp _ _).trans (told_of_host rfl)

/-- R82: a request that is out already keeps its count; a new one begins at none, not yet sent. -/
theorem requestLeave_end (hroom : s.note.up.length < 16) :
    (requestLeave s).byp.leaveReq = some (s.byp.leaveReq.getD 0) ∧
      (s.byp.leaveReq = none → (requestLeave s).byp.leaveSent = false) ∧ Queued nLEAVE_REQ [] (requestLeave s) := by
  unfold requestLeave
  cases hreq : s.byp.leaveReq with
  | none => exact ⟨rfl, fun _ => rfl, queueUp_queued hroom⟩
  | some k =>
    have hbyp : (queueRepeat nLEAVE_REQ [] s).byp = s.byp := (keeps_queueRepeat_self _ _).rest.byp rfl
    exact ⟨(congrArg BypassSt.leaveReq hbyp).trans hreq, fun hn => absurd hn (by simp), queueRepeat_queued hroom⟩

theorem leaveCommand_asks (hd : Due h s) (hterm : s.term = .ranging ∨ s.term = .running) (hspace : Space s) :
    ∃ t, exec (.leaveCommand h) s = .next t ∧ Completed h cDONE 0 0 s t ∧ t.byp.leaveReq = some (s.byp.leaveReq.getD 0) ∧
      (s.byp.leaveReq = none → t.byp.leaveSent = false) ∧ Queued nLEAVE_REQ [] t := by
  have ha : leaveCommandAct (seqTaken h s) = (.ends cDONE 0 0, requestLeave (seqTaken h s)) :=
    if_neg (by rcases hterm with h | h <;> simp [seqTaken, h])
  have hk := keeps_requestLeave (A := upReach ||| Reach.T.byp) rfl (.refl _ (seqTaken h s))
  rw [exec_leaveCommand]
  obtain ⟨t, ht, hc, hend⟩ := command_ends (recorded := true) hd ha
    (places_of_keeps hk told_requestLeave (by decide +kernel))
  have hbyp := hend.rest.byp rfl
  have hroom : s.note.up.length < 16 := Nat.lt_of_le_of_lt hspace (by decide)
  obtain ⟨hreq, hsent, hqueued⟩ := requestLeave_end (s := seqTaken h s) hroom
  refine ⟨t, ht, hc, ?_, ?_, ?_⟩
  · rw [hbyp]
    exact hreq
  · rw [hbyp]
    exact hsent
  · unfold Queued at hqueued ⊢
    rwa [hend.rest.note rfl]

theorem leaveCommand_refused (hd : Due h s) (hr : s.term ≠ .ranging) (hn : s.term ≠ .running) :
    ∃ t, exec (.leaveCommand h) s = .next t ∧ Completed h cREFUSED 0 0 s t ∧ t.byp = s.byp ∧ t.note = s.note := by
  have ha : leaveCommandAct (seqTaken h s) = (.ends cREFUSED 0 0, seqTaken h s) := if_pos (by simp [seqTaken, hr, hn])
  rw [exec_leaveCommand]
  obtain ⟨t, ht, hc, hend⟩ := command_ends (recorded := true) hd ha (.refl _)
  exact ⟨t, ht, hc, hend.rest.byp rfl, hend.rest.note rfl⟩

/-! ### HOST_MSG (R300) -/

/-- What a HOST_MSG does. -/
def hostMsgAct (len : BitVec 16) (d : DmaBytes) (s : State) : CmdEnd × State :=
  if 220 < len.toNat then ends cBAD_VALUE 0 0 s
  else if 16 ≤ s.note.up.length then ends cFULL 0 0 s
  else
    match d with
    | .err _ => cmdDmaErr s
    | .ok b => ends cDONE 0 0 (queueUp nHOST_MSG_UP (slice b 0 len.toNat) s)

theorem exec_hostMsg (h : CmdHdr) (len : BitVec 16) (d : DmaBytes) :
    exec (.hostMsg h len d) s = done (runCmd h true (needsOn dMGT (hostMsgAct len d)) s) := rfl

theorem hostMsg_queues (hd : Due h s) (hon : domOn dMGT s = true) (hlen : len.toNat ≤ 220) (hroom : s.note.up.length < 16) :
    ∃ t, exec (.hostMsg h len (.ok b)) s = .next t ∧ Completed h cDONE 0 0 s t ∧ Queued nHOST_MSG_UP (slice b 0 len.toNat) t := by
  have ha : hostMsgAct len (.ok b) (seqTaken h s) = (.ends cDONE 0 0, queueUp nHOST_MSG_UP (slice b 0 len.toNat) (seqTaken h s)) :=
    (if_neg (Nat.not_lt.mpr hlen)).trans (if_neg (Nat.not_le.mpr hroom))
  rw [exec_hostMsg]
  obtain ⟨t, ht, hc, hend⟩ := firmware_ends (recorded := true) hd hon ha
    (places_of_keeps (keeps_queueUp_self _ _) (told_queueUp _ _) (by decide +kernel))
  have hqueued : Queued nHOST_MSG_UP (slice b 0 len.toNat) (queueUp nHOST_MSG_UP (slice b 0 len.toNat) (seqTaken h s)) :=
    queueUp_queued hroom
  refine ⟨t, ht, hc, ?_⟩
  unfold Queued at hqueued ⊢
  rwa [hend.rest.note rfl]

/-- A HOST_MSG that changes nothing. -/
theorem hostMsg_answers {d : DmaBytes} {st : Nat} (hd : Due h s) (hon : domOn dMGT s = true)
    (ha : hostMsgAct len d (seqTaken h s) = (.ends st 0 0, seqTaken h s)) :
    ∃ t, exec (.hostMsg h len d) s = .next t ∧ Completed h st 0 0 s t ∧ t.note = s.note := by
  rw [exec_hostMsg]
  obtain ⟨t, ht, hc, hend⟩ := firmware_ends (recorded := true) hd hon ha (.refl _)
  exact ⟨t, ht, hc, hend.rest.note rfl⟩

theorem hostMsg_full (hd : Due h s) (hon : domOn dMGT s = true) (hlen : len.toNat ≤ 220) (hfull : 16 ≤ s.note.up.length) :
    ∃ t, exec (.hostMsg h len (.ok b)) s = .next t ∧ Completed h cFULL 0 0 s t ∧ t.note = s.note :=
  hostMsg_answers hd hon ((if_neg (Nat.not_lt.mpr hlen)).trans (if_pos hfull))

theorem hostMsg_tooLong {d : DmaBytes} (hd : Due h s) (hon : domOn dMGT s = true) (hlen : 220 < len.toNat) :
    ∃ t, exec (.hostMsg h len d) s = .next t ∧ Completed h cBAD_VALUE 0 0 s t ∧ t.note = s.note :=
  hostMsg_answers hd hon (if_pos hlen)

/-! ### SETTING: what its commands do (R446) -/

/-- The command status of a record that ends. -/
def setEndCode : SetEnd → Nat
  | .ok => cDONE
  | .badValue => cBAD_VALUE
  | .refused => cREFUSED
  | .full => cFULL

/-- How a SETTING command answers a record: RESULT is the length of its buffer's record where it was taken. -/
def settingEnds (r : Rec) (p : Option SetEnd × State) : CmdEnd × State :=
  let q := setEndStatus 8 p.1 p.2
  ends q.1 0 (if q.1 == cDONE then 5 + r.val.length else 0) q.2

theorem settingEnds_some (r : Rec) (e : SetEnd) (u : State) :
    settingEnds r (some e, u) = (.ends (setEndCode e) 0 (if setEndCode e == cDONE then 5 + r.val.length else 0), u) := by
  cases e <;> rfl

/-- What a SETTING_WRITE does. -/
def settingWriteAct (len : BitVec 16) (d : DmaBytes) (fault : Bool) (s : State) : CmdEnd × State :=
  match d with
  | .err _ => cmdDmaErr s
  | .ok b =>
    match bufRecord len b with
    | none => ends cBAD_VALUE 0 0 s
    | some r => settingEnds r (setRecordOr fault r.key r.persist r.val s)

/-- What a SETTING_DELETE does. -/
def settingDeleteAct (len : BitVec 16) (d : DmaBytes) (s : State) : CmdEnd × State :=
  match d with
  | .err _ => cmdDmaErr s
  | .ok b =>
    match bufRecord len b with
    | none => ends cBAD_VALUE 0 0 s
    | some r => settingEnds r (some (setRecord r.key r.persist [] s).1, (setRecord r.key r.persist [] s).2)

/-- What a SETTING_READ does. -/
def settingReadAct (a : BitVec 64) (len : BitVec 16) (d : DmaBytes) (fault : Bool) (s : State) : CmdEnd × State :=
  match d with
  | .err _ => cmdDmaErr s
  | .ok b =>
    match keyIn (b.take len.toNat) with
    | none => ends cBAD_VALUE 0 0 s
    | some k =>
      if !keyKnown k || decide (len.toNat < (readRecord k s).length) then ends cBAD_VALUE 0 0 s
      else if fault then cmdDmaErr (dmaWrite a.toNat (readRecord k s) s)
      else ends cDONE 0 (readRecord k s).length (dmaWrite a.toNat (readRecord k s) s)

theorem settingReadAct_keyed {a : BitVec 64} {f : Bool} {k : Nat} (hkey : keyIn (b.take len.toNat) = some k) :
    settingReadAct a len (.ok b) f s =
      if !keyKnown k || decide (len.toNat < (readRecord k s).length) then ends cBAD_VALUE 0 0 s
      else if f then cmdDmaErr (dmaWrite a.toNat (readRecord k s) s)
      else ends cDONE 0 (readRecord k s).length (dmaWrite a.toNat (readRecord k s) s) := by
  unfold settingReadAct
  simp only [hkey]

theorem settingReadAct_keyless {a : BitVec 64} {f : Bool} (hkey : keyIn (b.take len.toNat) = none) :
    settingReadAct a len (.ok b) f s = ends cBAD_VALUE 0 0 s := by
  unfold settingReadAct
  simp only [hkey]

theorem exec_settingWrite (h : CmdHdr) (len : BitVec 16) (d : DmaBytes) (f : Bool) :
    exec (.settingWrite h len d f) s = done (runCmd h true (needsOn dMGT (settingWriteAct len d f)) s) := rfl

theorem exec_settingDelete (h : CmdHdr) (len : BitVec 16) (d : DmaBytes) :
    exec (.settingDelete h len d) s = done (runCmd h true (needsOn dMGT (settingDeleteAct len d)) s) := rfl

theorem exec_settingRead (h : CmdHdr) (a : BitVec 64) (len : BitVec 16) (d : DmaBytes) (f : Bool) :
    exec (.settingRead h a len d f) s = done (runCmd h false (needsOn dMGT (settingReadAct a len d f)) s) := rfl

end Sys2Proof.Proofs

end

/-! PROOF. The SETTING commands, and what O43 says of LEAVE, HOST_MSG and SETTING (spec/12_host_rings_pcie.md R300, R304;
spec/19_gleaning_firmware_settings.md R428, R446-R449). -/

section

namespace Sys2Proof.Proofs

open Sys2Proof Sys2Proof.Machine Sys2Proof.Claims Sys2Proof.Laws

set_option Elab.async false

variable {s u : State} {h : CmdHdr} {len : BitVec 16} {b : List Byte} {r : Rec} {e : SetEnd}

/-! ### What taking a command's place in the sequence leaves of the store -/

theorem settingGet_seqTaken (key : Nat) : settingGet key (seqTaken h s) = settingGet key s :=
  settingGet_congr key rfl onTrial_seqTaken rfl

theorem readRecord_seqTaken (key : Nat) : readRecord key (seqTaken h s) = readRecord key s := by
  unfold readRecord
  rw [layoutOk_seqTaken, settingGet_seqTaken]

theorem recordStored_seqTaken (key : Nat) (persist : Bool) (val : List Byte) :
    recordStored key persist val (seqTaken h s) = recordStored key persist val s := by
  unfold recordStored
  rw [layoutOk_seqTaken, settingGet_seqTaken]

theorem settingStore_seqTaken (key : Nat) (val : List Byte) :
    (settingStore key val (seqTaken h s)).1 = (settingStore key val s).1 ∧
      (settingStore key val (seqTaken h s)).2.flash = (settingStore key val s).2.flash :=
  settingStore_congr key val rfl onTrial_seqTaken

/-! ### The record of a SETTING command, taken (R446) -/

theorem settingWrite_exec (hd : Due h s) (hon : domOn dMGT s = true) (hb : bufRecord len b = some r)
    (hr : setRecord r.key r.persist r.val (seqTaken h s) = (e, u)) : exec (.settingWrite h len (.ok b) false) s =
      .next (commandEnd h true (setEndCode e) 0 (if setEndCode e == cDONE then 5 + r.val.length else 0) u) := by
  have ha : settingWriteAct len (.ok b) false (seqTaken h s) =
      (.ends (setEndCode e) 0 (if setEndCode e == cDONE then 5 + r.val.length else 0), u) := by
    unfold settingWriteAct
    simp only [hb]
    rw [setRecordOr_sound, hr, settingEnds_some]
  rw [exec_settingWrite]
  exact congrArg Host.Outcome.next (runCmd_end hd ((if_pos ((domOn_seqTaken dMGT).trans hon)).trans ha))

theorem settingDelete_exec (hd : Due h s) (hon : domOn dMGT s = true) (hb : bufRecord len b = some r)
    (hr : setRecord r.key r.persist [] (seqTaken h s) = (e, u)) : exec (.settingDelete h len (.ok b)) s =
      .next (commandEnd h true (setEndCode e) 0 (if setEndCode e == cDONE then 5 + r.val.length else 0) u) := by
  have ha : settingDeleteAct len (.ok b) (seqTaken h s) =
      (.ends (setEndCode e) 0 (if setEndCode e == cDONE then 5 + r.val.length else 0), u) := by
    unfold settingDeleteAct
    simp only [hb]
    rw [hr, settingEnds_some]
  rw [exec_settingDelete]
  exact congrArg Host.Outcome.next (runCmd_end hd ((if_pos ((domOn_seqTaken dMGT).trans hon)).trans ha))

theorem glean_commandEnd {recorded : Bool} {st sub res : Nat} : (commandEnd h recorded st sub res u).glean = u.glean :=
  (keeps_commandEnd recorded st sub res).rest.glean rfl

theorem flash_commandEnd {recorded : Bool} {st sub res : Nat} : (commandEnd h recorded st sub res u).flash = u.flash :=
  (keeps_commandEnd recorded st sub res).rest.flash rfl

/-! ### SETTING_WRITE -/

/-- R446: a value that is not to be stored is remembered and applied. -/
theorem settingWrite_live (hd : Due h s) (hon : domOn dMGT s = true) (hb : bufRecord len b = some r)
    (hbad : settingBad r.key r.val = false) (hval : r.val ≠ []) (hper : r.persist = false) (hpre : isPreset r.key = false) :
    ∃ t, exec (.settingWrite h len (.ok b) false) s = .next t ∧ lget [] t.glean.live r.key = r.val ∧ t.flash = s.flash ∧
      Completed h cDONE 0 (5 + r.val.length) s t := by
  have hplain : (isPreset r.key && !r.val.isEmpty) = false := by simp [hpre]
  have hlive := keeps_setLive_self (s := seqTaken h s) r.key (some r.val)
  have happ : Keeps (Reach.T.regn ||| Reach.T.key) (setLive r.key (some r.val) (seqTaken h s))
      (settingApplied r.key r.val (setLive r.key (some r.val) (seqTaken h s))) := keeps_settingApplied_plain hplain rfl (.refl _ _)
  have hk : Keeps recordReach (seqTaken h s) (settingApplied r.key r.val (setLive r.key (some r.val) (seqTaken h s))) :=
    keeps_settingApplied_plain hplain rfl (keeps_setLive _ _ rfl (.refl _ _))
  have htold := (told_of_keeps hlive rfl).trans (told_settingApplied_plain (s := setLive r.key (some r.val) (seqTaken h s)) hplain)
  refine ⟨_, settingWrite_exec hd hon hb (setRecord_live hbad hval hper), ?_, ?_,
    completed_commandEnd (places_of_keeps hk htold (by decide +kernel))⟩
  · rw [glean_commandEnd, happ.rest.glean rfl, live_setLive]
  · rw [flash_commandEnd, happ.rest.flash rfl, hlive.rest.flash rfl]
    rfl

/-- R447: a preset that is not to be stored is remembered, and applied as its register's write. -/
theorem settingWrite_preset (hd : Due h s) (hon : domOn dMGT s = true) (hb : bufRecord len b = some r)
    (hbad : settingBad r.key r.val = false) (hval : r.val ≠ []) (hper : r.persist = false) (hpre : isPreset r.key = true) :
    exec (.settingWrite h len (.ok b) false) s = .next (commandEnd h true cDONE 0 (5 + r.val.length)
      (presetWrite (presetOff r.key) (bytesWord r.val) (setLive r.key (some r.val) (seqTaken h s)))) :=
  settingWrite_exec (e := .ok) hd hon hb ((setRecord_live hbad hval hper).trans (by rw [settingApplied_preset hpre hval]))

/-- R447, R449: a stored preset is applied once it is stored. -/
theorem settingWrite_storedPreset (hd : Due h s) (hon : domOn dMGT s = true) (hb : bufRecord len b = some r)
    (hbad : settingBad r.key r.val = false) (hval : r.val ≠ []) (hper : r.persist = true) (hpre : isPreset r.key = true)
    (hlay : layoutOk s = true) (hs : settingStore r.key r.val (seqTaken h s) = (true, u)) :
    exec (.settingWrite h len (.ok b) false) s = .next (commandEnd h true cDONE 0 (5 + r.val.length)
      (presetWrite (presetOff r.key) (bytesWord r.val) (setLive r.key none u))) := by
  have hrec := setRecord_stored (s := seqTaken h s) hbad hval hper (layoutOk_seqTaken.trans hlay) (by rw [hs])
  rw [settingApplied_preset hpre hval, hs] at hrec
  exact settingWrite_exec (e := .ok) hd hon hb hrec

/-- A SETTING_WRITE that changes nothing. -/
theorem settingWrite_answers (hd : Due h s) (hon : domOn dMGT s = true) (hb : bufRecord len b = some r)
    (hr : setRecord r.key r.persist r.val (seqTaken h s) = (e, seqTaken h s)) (hne : setEndCode e ≠ cDONE) :
    ∃ t, exec (.settingWrite h len (.ok b) false) s = .next t ∧ Completed h (setEndCode e) 0 0 s t ∧ t.glean = s.glean ∧
      t.flash = s.flash := by
  have hexec := settingWrite_exec hd hon hb hr
  rw [if_neg (by simpa using hne)] at hexec
  exact ⟨_, hexec, completed_commandEnd (.refl _), glean_commandEnd, flash_commandEnd⟩

theorem settingWrite_unlaid (hd : Due h s) (hon : domOn dMGT s = true) (hb : bufRecord len b = some r)
    (hbad : settingBad r.key r.val = false) (hval : r.val ≠ []) (hper : r.persist = true) (hlay : layoutOk s = false) :
    ∃ t, exec (.settingWrite h len (.ok b) false) s = .next t ∧ Completed h cREFUSED 0 0 s t ∧ t.glean = s.glean ∧
      t.flash = s.flash :=
  settingWrite_answers (e := .refused) hd hon hb (setRecord_unlaid hbad hval hper (layoutOk_seqTaken.trans hlay)) (by decide)

theorem settingWrite_bad (hd : Due h s) (hon : domOn dMGT s = true) (hb : bufRecord len b = some r)
    (hbad : settingBad r.key r.val = true) :
    ∃ t, exec (.settingWrite h len (.ok b) false) s = .next t ∧ Completed h cBAD_VALUE 0 0 s t ∧ t.glean = s.glean ∧
      t.flash = s.flash :=
  settingWrite_answers (e := .badValue) hd hon hb (setRecord_bad hbad) (by decide)

/-- R449: a value that the store takes. -/
theorem settingWrite_stored (hd : Due h s) (hon : domOn dMGT s = true) (hb : bufRecord len b = some r)
    (hbad : settingBad r.key r.val = false) (hval : r.val ≠ []) (hper : r.persist = true) (hpre : isPreset r.key = false)
    (hlay : layoutOk s = true) (hs : (settingStore r.key r.val s).1 = true) :
    ∃ t, exec (.settingWrite h len (.ok b) false) s = .next t ∧ t.flash = (settingStore r.key r.val s).2.flash ∧
      Completed h cDONE 0 (5 + r.val.length) s t := by
  obtain ⟨hok, hflash⟩ := settingStore_seqTaken (h := h) (s := s) r.key r.val
  have hplain : (isPreset r.key && !r.val.isEmpty) = false := by simp [hpre]
  have hrec := setRecord_stored hbad hval hper (layoutOk_seqTaken.trans hlay) (hok.trans hs)
  have hstore : Keeps recordReach (seqTaken h s) (settingStore r.key r.val (seqTaken h s)).2 := keeps_settingStore _ _ rfl (.refl _ _)
  have htold := told_settingStore (s := seqTaken h s) r.key r.val
  generalize (settingStore r.key r.val (seqTaken h s)).2 = v at *
  have hk : Keeps recordReach (seqTaken h s) (settingApplied r.key r.val (setLive r.key none v)) :=
    keeps_settingApplied_plain hplain rfl (keeps_setLive _ _ rfl hstore)
  have happ : Keeps (Reach.T.regn ||| Reach.T.key ||| Reach.T.glean) v (settingApplied r.key r.val (setLive r.key none v)) :=
    keeps_settingApplied_plain hplain rfl (keeps_setLive _ _ rfl (.refl _ _))
  refine ⟨_, settingWrite_exec hd hon hb hrec, ?_,
    completed_commandEnd (places_of_keeps hk (htold.trans (told_of_keeps happ rfl)) (by decide +kernel))⟩
  rw [flash_commandEnd, happ.rest.flash rfl, hflash]

/-- R449: a value for which the store has no room. -/
theorem settingWrite_full (hd : Due h s) (hon : domOn dMGT s = true) (hb : bufRecord len b = some r)
    (hbad : settingBad r.key r.val = false) (hval : r.val ≠ []) (hper : r.persist = true) (hlay : layoutOk s = true)
    (hs : (settingStore r.key r.val s).1 = false) (hroom : Room s) :
    ∃ t, exec (.settingWrite h len (.ok b) false) s = .next t ∧ t.flash = s.flash ∧ Waits E.SETTINGS_FULL r.key t ∧
      Completed h cFULL 0 0 s t := by
  have hrec := setRecord_full hbad hval hper (layoutOk_seqTaken.trans hlay) ((settingStore_seqTaken (h := h) r.key r.val).1.trans hs)
  have hwaits : Waits E.SETTINGS_FULL r.key (raise E.SETTINGS_FULL r.key (seqTaken h s)) :=
    waits_raise _ _ (Nat.lt_of_le_of_lt hroom (by decide))
  refine ⟨_, settingWrite_exec hd hon hb hrec, ?_, ?_,
    completed_commandEnd (places_of_keeps (counting_raise _ _ _) (told_raise _ _) (by decide +kernel))⟩
  · rw [flash_commandEnd, raise_flash]
    rfl
  · unfold Waits at hwaits ⊢
    rwa [events_commandEnd]

/-- R428: a record whose programming failed twice is not applied; its status is free. -/
theorem settingWrite_fault (hd : Due h s) (hon : domOn dMGT s = true) (hb : bufRecord len b = some r)
    (hs : recordStored r.key r.persist r.val s = true) :
    ∃ t st, exec (.settingWrite h len (.ok b) true) s = .next t ∧ t.glean.live = s.glean.live ∧ t.key = s.key ∧
      Completed h st 0 (if st = cDONE then 5 + r.val.length else 0) s t := by
  have ha : ∃ st, settingWriteAct len (.ok b) true (seqTaken h s) = (.ends st 0 (if st = cDONE then 5 + r.val.length else 0),
      (fresh 8 (flashFault (storeSpot (10 + r.val.length) (seqTaken h s)) (seqTaken h s))).2) := by
    unfold settingWriteAct
    simp only [hb]
    rw [setRecordOr_fault ((recordStored_seqTaken _ _ _).trans hs)]
    simp only [settingEnds, setEndStatus, beq_iff_eq]
    exact ⟨_, rfl⟩
  obtain ⟨st, ha⟩ := ha
  generalize storeSpot (10 + r.val.length) (seqTaken h s) = a at ha
  have hk : Keeps T.counting (seqTaken h s) (fresh 8 (flashFault a (seqTaken h s))).2 :=
    keeps_fresh _ rfl (keeps_flashFault _ rfl (.refl _ _))
  have htold : Told (seqTaken h s) (fresh 8 (flashFault a (seqTaken h s))).2 := (told_flashFault a).trans (told_of_host rfl)
  rw [exec_settingWrite]
  obtain ⟨t, ht, hc, hend⟩ := firmware_ends (recorded := true) hd hon ha (places_of_keeps hk htold (by decide +kernel))
  refine ⟨t, st, ht, ?_, (hend.rest.key rfl).trans (hk.rest.key rfl), hc⟩
  rw [hend.rest.glean rfl, hk.rest.glean rfl, glean_seqTaken]

/-! ### SETTING_READ -/

/-- R446: the stored record is written to the host's buffer. -/
theorem settingRead_answers {a : BitVec 64} {k : Nat} (hd : Due h s) (hon : domOn dMGT s = true)
    (hkey : keyIn (b.take len.toNat) = some k) (hknown : keyKnown k = true) (hfit : (readRecord k s).length ≤ len.toNat) :
    ∃ t, exec (.settingRead h a len (.ok b) false) s = .next t ∧ dmaOut s a.toNat (readRecord k s) ∈ t.out ∧
      Completed h cDONE 0 (readRecord k s).length s t := by
  have ha : settingReadAct a len (.ok b) false (seqTaken h s) =
      (.ends cDONE 0 (readRecord k s).length, dmaWrite a.toNat (readRecord k s) (seqTaken h s)) := by
    rw [settingReadAct_keyed hkey, readRecord_seqTaken]
    exact if_neg (by simp [hknown, hfit])
  have hk : Keeps Reach.T.out (seqTaken h s) (dmaWrite a.toNat (readRecord k s) (seqTaken h s)) := keeps_dmaWrite _ _ rfl (.refl _ _)
  have hsent : dmaOut s a.toNat (readRecord k s) ∈ (dmaWrite a.toNat (readRecord k s) (seqTaken h s)).out := by
    rw [← dmaOut_seqTaken]
    exact List.mem_cons_self
  rw [exec_settingRead]
  exact ⟨_, congrArg Host.Outcome.next (runCmd_end hd ((if_pos ((domOn_seqTaken dMGT).trans hon)).trans ha)),
    mem_out_commandEnd hsent, completed_commandEnd (places_of_keeps hk (told_of_keeps hk rfl) (by decide +kernel))⟩

/-- R304: the write of the host's buffer failed. -/
theorem settingRead_fault {a : BitVec 64} {k : Nat} (hd : Due h s) (hon : domOn dMGT s = true)
    (hkey : keyIn (b.take len.toNat) = some k) (hknown : keyKnown k = true) (hfit : (readRecord k s).length ≤ len.toNat)
    (hcount : countsNow s = true) : ∃ t, exec (.settingRead h a len (.ok b) true) s = .next t ∧ Completed h cDMA_ERR 0 0 s t ∧
      Tallied C.HOST_DMA_ERR 1 s t := by
  have ha : settingReadAct a len (.ok b) true (seqTaken h s) =
      cmdDmaErr (dmaWrite a.toNat (readRecord k s) (seqTaken h s)) := by
    rw [settingReadAct_keyed hkey, readRecord_seqTaken]
    exact if_neg (by simp [hknown, hfit])
  rw [exec_settingRead]
  obtain ⟨t, ht, hc, htally, -⟩ := firmware_dmaErr (recorded := false) hd hon hcount ha
    (fun _ hA => keeps_dmaWrite _ _ hA (.refl _ _))
  exact ⟨t, ht, hc, htally⟩

/-- R446: a read of an unknown key, or into a buffer that is too short. -/
theorem settingRead_bad {a : BitVec 64} {f : Bool} (hd : Due h s) (hon : domOn dMGT s = true)
    (hbad : ∀ k, keyIn (b.take len.toNat) = some k → keyKnown k = false ∨ len.toNat < (readRecord k s).length) :
    ∃ t, exec (.settingRead h a len (.ok b) f) s = .next t ∧ Completed h cBAD_VALUE 0 0 s t ∧ t.glean = s.glean := by
  have ha : settingReadAct a len (.ok b) f (seqTaken h s) = (.ends cBAD_VALUE 0 0, seqTaken h s) := by
    cases hkey : keyIn (b.take len.toNat) with
    | none => exact settingReadAct_keyless hkey
    | some k =>
      rw [settingReadAct_keyed hkey, readRecord_seqTaken]
      refine if_pos ?_
      rcases hbad k hkey with hk | hk <;> simp [hk]
  rw [exec_settingRead]
  obtain ⟨t, ht, hc, hend⟩ := firmware_ends (recorded := false) hd hon ha (.refl _)
  exact ⟨t, ht, hc, hend.rest.glean rfl⟩

/-! ### SETTING_DELETE -/

/-- R446: the value of a key that has none stored is forgotten. -/
theorem settingDelete_absent (hd : Due h s) (hon : domOn dMGT s = true) (hb : bufRecord len b = some r)
    (hbad : settingBad r.key [] = false) (habs : settingGet r.key s = none ∨ layoutOk s = false) :
    ∃ t, exec (.settingDelete h len (.ok b)) s = .next t ∧ SMap.find t.glean.live r.key = none ∧ t.flash = s.flash ∧
      Completed h cDONE 0 (5 + r.val.length) s t := by
  have hplain : (isPreset r.key && !([] : List Byte).isEmpty) = false := by simp
  have hrec := setRecord_absent (s := seqTaken h s) (persist := r.persist) hbad (by rwa [settingGet_seqTaken, layoutOk_seqTaken])
  have hlive := keeps_setLive_self (s := seqTaken h s) r.key none
  have happ : Keeps (Reach.T.regn ||| Reach.T.key) (setLive r.key none (seqTaken h s))
      (settingApplied r.key [] (setLive r.key none (seqTaken h s))) := keeps_settingApplied_plain hplain rfl (.refl _ _)
  have hk : Keeps recordReach (seqTaken h s) (settingApplied r.key [] (setLive r.key none (seqTaken h s))) :=
    keeps_settingApplied_plain hplain rfl (keeps_setLive _ _ rfl (.refl _ _))
  have htold := (told_of_keeps hlive rfl).trans (told_of_keeps happ rfl)
  refine ⟨_, settingDelete_exec hd hon hb hrec, ?_, ?_, completed_commandEnd (places_of_keeps hk htold (by decide +kernel))⟩
  · rw [glean_commandEnd, happ.rest.glean rfl, live_setLive_none]
  · rw [flash_commandEnd, happ.rest.flash rfl, hlive.rest.flash rfl]
    rfl

/-- R449: a stored value is deleted by an empty entry. -/
theorem settingDelete_stored (hd : Due h s) (hon : domOn dMGT s = true) (hb : bufRecord len b = some r)
    (hbad : settingBad r.key [] = false) (hlay : layoutOk s = true) (hget : (settingGet r.key s).isSome = true)
    (hs : (settingStore r.key [] (setLive r.key none s)).1 = true) :
    ∃ t, exec (.settingDelete h len (.ok b)) s = .next t ∧
      t.flash = (settingStore r.key [] (setLive r.key none s)).2.flash ∧ Completed h cDONE 0 (5 + r.val.length) s t := by
  have hplain : (isPreset r.key && !([] : List Byte).isEmpty) = false := by simp
  obtain ⟨hok, hflash⟩ := settingStore_congr (u := setLive r.key none (seqTaken h s)) (s := setLive r.key none s) r.key [] rfl
    (onTrial_seqTaken (h := h) (s := s))
  have hrec := setRecord_deleted (s := seqTaken h s) (persist := r.persist) hbad (layoutOk_seqTaken.trans hlay)
    (by rwa [settingGet_seqTaken]) (hok.trans hs)
  have hstore : Keeps recordReach (seqTaken h s) (settingStore r.key [] (setLive r.key none (seqTaken h s))).2 :=
    keeps_settingStore _ _ rfl (keeps_setLive _ _ rfl (.refl _ _))
  have htold : Told (seqTaken h s) (settingStore r.key [] (setLive r.key none (seqTaken h s))).2 :=
    (told_setGlean _).trans (told_settingStore r.key [])
  generalize (settingStore r.key [] (setLive r.key none (seqTaken h s))).2 = v at *
  have happ : Keeps (Reach.T.regn ||| Reach.T.key) v (settingApplied r.key [] v) := keeps_settingApplied_plain hplain rfl (.refl _ _)
  have hk : Keeps recordReach (seqTaken h s) (settingApplied r.key [] v) := keeps_settingApplied_plain hplain rfl hstore
  refine ⟨_, settingDelete_exec hd hon hb hrec, ?_,
    completed_commandEnd (places_of_keeps hk (htold.trans (told_of_keeps happ rfl)) (by decide +kernel))⟩
  rw [flash_commandEnd, happ.rest.flash rfl, hflash]

/-! ### What the firmware executes, while MGT is not ON or with a buffer that failed (R300, R304) -/

theorem firmwareCommands_refused {a : BitVec 64} {d : DmaBytes} {f : Bool} {i : Instr} (hd : Due h s)
    (hi : i ∈ [.hostMsg h len d, .settingWrite h len d f, .settingRead h a len d f, .settingDelete h len d])
    (hoff : domOn dMGT s = false) : ∃ t, exec i s = .next t ∧ Completed h cREFUSED 0 0 s t ∧ t.note = s.note ∧
      t.glean = s.glean ∧ t.flash = s.flash := by
  simp only [List.mem_cons, List.not_mem_nil, or_false] at hi
  obtain rfl | rfl | rfl | rfl := hi
  · rw [exec_hostMsg]
    exact firmware_refused hd hoff
  · rw [exec_settingWrite]
    exact firmware_refused hd hoff
  · rw [exec_settingRead]
    exact firmware_refused hd hoff
  · rw [exec_settingDelete]
    exact firmware_refused hd hoff

theorem firmwareCommands_unread {a : BitVec 64} {c : BitVec 4} {f : Bool} {i : Instr} (hd : Due h s)
    (hi : i ∈ [.hostMsg h len (.err c), .settingWrite h len (.err c) f, .settingRead h a len (.err c) f,
      .settingDelete h len (.err c)])
    (hon : domOn dMGT s = true) (hlen : len.toNat ≤ 220) (hroom : s.note.up.length < 16) (hcount : countsNow s = true) :
    ∃ t, exec i s = .next t ∧ Completed h cDMA_ERR 0 0 s t ∧ Tallied C.HOST_DMA_ERR 1 s t ∧ t.note = s.note ∧
      t.glean = s.glean ∧ t.flash = s.flash := by
  simp only [List.mem_cons, List.not_mem_nil, or_false] at hi
  obtain rfl | rfl | rfl | rfl := hi
  · have ha : hostMsgAct len (.err c) (seqTaken h s) = cmdDmaErr (seqTaken h s) :=
      (if_neg (Nat.not_lt.mpr hlen)).trans (if_neg (Nat.not_le.mpr hroom))
    rw [exec_hostMsg]
    exact firmware_dmaErr hd hon hcount ha fun _ _ => .refl _ _
  · rw [exec_settingWrite]
    exact firmware_dmaErr hd hon hcount rfl fun _ _ => .refl _ _
  · rw [exec_settingRead]
    exact firmware_dmaErr hd hon hcount rfl fun _ _ => .refl _ _
  · rw [exec_settingDelete]
    exact firmware_dmaErr hd hon hcount rfl fun _ _ => .refl _ _

/-- Settles O43: each command is run on the state that has taken its CSEQ, which neither the store nor what a record does can
tell from the one before it. -/
theorem hostMessagesAndSettings : Obligations.HostMessagesAndSettings := by
  unfold Obligations.HostMessagesAndSettings
  refine ⟨fun _ _ => leaveCommand_asks, fun _ _ => leaveCommand_refused, ?_, fun _ _ _ _ => hostMsg_tooLong, ?_, ?_,
    fun _ _ _ _ _ => settingWrite_bad, ?_, fun _ _ _ _ _ _ => settingRead_bad, ?_⟩
  · exact fun h len b s hd hon hlen => ⟨hostMsg_queues hd hon hlen, hostMsg_full hd hon hlen⟩
  · intro h a len d f i s hd hi
    refine ⟨firmwareCommands_refused hd hi, ?_⟩
    rintro c hon rfl
    exact firmwareCommands_unread hd hi hon
  · intro h len b r s hd hon hb hbad hval
    exact ⟨settingWrite_live hd hon hb hbad hval, settingWrite_preset hd hon hb hbad hval,
      fun hper hpre hlay _ => settingWrite_storedPreset hd hon hb hbad hval hper hpre hlay,
      settingWrite_unlaid hd hon hb hbad hval, settingWrite_stored hd hon hb hbad hval, settingWrite_full hd hon hb hbad hval,
      settingWrite_fault hd hon hb⟩
  · intro h a len b k s hd hon hkey hknown hfit
    exact ⟨settingRead_answers hd hon hkey hknown hfit, settingRead_fault hd hon hkey hknown hfit⟩
  · exact fun h len b r s hd hon hb hbad => ⟨settingDelete_absent hd hon hb hbad, settingDelete_stored hd hon hb hbad⟩

end Sys2Proof.Proofs

end

/-! PROOF. What counting and the loss of a Span input leave of the counters, the events and the lane's status
(spec/04_span_line_and_repeater.md R93, R104, R112; spec/05_tick_frame.md R122). -/

section

namespace Sys2Proof.Proofs

open Sys2Proof Sys2Proof.Machine Sys2Proof.Claims Sys2Proof.Laws

set_option Elab.async false

variable {s t : State} {sd : Side}

/-! ### The registers of a lane and of a path -/

theorem bookkeeping_laneStatus (n : Nat) : bookkeeping (R.LANE_STATUS n) = false :=
  (by decide : ∀ j < 8, bookkeeping (0x1810 + 0x80 * j) = false) _ (Nat.mod_lt n (by decide))

theorem bookkeeping_repFld (hi lo : Nat) : bookkeeping (repFld sd hi lo).off = false := by cases sd <;> rfl

/-- No counter stands in a lane's status, and none in a path's. -/
theorem counterAddr_ne_laneStatus (i n : Nat) : counterAddr i ≠ R.LANE_STATUS n :=
  counterAddr_ne_of_bookkeeping (bookkeeping_laneStatus n) i

theorem counterAddr_ne_repFld (i hi lo : Nat) : counterAddr i ≠ (repFld sd hi lo).off :=
  counterAddr_ne_of_bookkeeping (bookkeeping_repFld hi lo) i

theorem sided_lt {west : Nat} (h : west + 1 < 312) : sided west (isEast sd) < 312 := by
  cases sd
  · exact Nat.lt_of_succ_lt h
  · exact h

/-! ### A tally that later counting leaves -/

theorem tallied_of_reg {i n : Nat} {u : State} (h : reg (counterAddr i) t = reg (counterAddr i) u) (hu : Tallied i n s u) :
    Tallied i n s t := h.trans hu

theorem tallied_countN {i n : Nat} (hi : i < 312) (hlost : i ≠ C.EVT_LOST) (hc : countsNow s = true) :
    Tallied i n s (countN i n s) := reg_countN_same i n hi hlost hc

theorem tallied_count {i : Nat} (hi : i < 312) (hlost : i ≠ C.EVT_LOST) (hc : countsNow s = true) :
    Tallied i 1 s (count i s) := tallied_countN hi hlost hc

/-- A tally counts from whatever state has the counter where it stands. -/
theorem tallied_from {i n : Nat} {u : State} (h : reg (counterAddr i) u = reg (counterAddr i) s) (hu : Tallied i n u t) :
    Tallied i n s t := by
  unfold Tallied at *
  rw [hu, h]

theorem reg_count_counter {i j : Nat} (hi : i < 312) (hj : j < 312) (hlost : i ≠ C.EVT_LOST) (hij : i ≠ j) :
    reg (counterAddr i) (count j s) = reg (counterAddr i) s := reg_countN_counter i j 1 hi hj hlost hij

/-! ### Windows cut on a side (R207) -/

theorem reg_setOpen (off : Nat) (o : Option Win) : reg off (setOpen sd o s) = reg off s := by
  unfold setOpen
  split <;> rfl

/-- R207: cutting what is written on a side counts WIN_CUT alone. -/
theorem reg_cutSide_counter {i : Nat} (lost : Bool) (hi : i < 312) (hlost : i ≠ C.EVT_LOST) (hcut : i ≠ C.WIN_CUT) :
    reg (counterAddr i) (cutSide sd lost s) = reg (counterAddr i) s := by
  have hwin : ∀ w, reg (counterAddr i) (cutWin w s) = reg (counterAddr i) s := fun w => by
    unfold cutWin
    split
    · rfl
    · exact reg_count_counter hi (by decide) hlost hcut
  have hrest : ∀ x f, reg (counterAddr i) (whenB lost (setWin f) (setOpen sd none x)) = reg (counterAddr i) x := fun x f => by
    cases lost <;> exact reg_setOpen _ _
  unfold cutSide
  refine (hrest _ _).trans ?_
  split
  · exact hwin _
  · rfl

/-! ### The path begins to fill (R104, R112) -/

theorem startFill_filling (h : on (fFILLING sd) s = true) : startFill sd s = s := if_pos h

/-- What the begin of a fill does once FILLING stands. -/
theorem keeps_startFill_filling (h : on (fFILLING sd) s = false) :
    Keeps (T.counting ||| Reach.T.out ||| Reach.T.span) (wr (fFILLING sd) 1 s) (startFill sd s) := by
  rw [startFill, if_neg (by simp [h])]
  exact keeps_fillAt _ _ rfl (keeps_fillAt _ _ rfl (keeps_setSpan _ _ rfl (keeps_countSide _ _ rfl (.refl _ _))))

theorem joined_fillAt (path port : Side) : Joined 0 s (fillAt path port s) :=
  joined_of_keeps (keeps_fillAt (A := Reach.T.out) path port rfl (.refl _ s)) (by decide)

theorem joined_startFill : Joined 1 s (startFill sd s) := by
  unfold startFill
  split
  · exact (Joined.of_events rfl).mono (by decide)
  · have hspan : ∀ f x, Joined 0 x (setSpan sd f x) := fun f x => .of_events (congrArg HostSt.events (setSpan_host _ _ _))
    exact ((((Joined.of_events (s := s) (t := wr (fFILLING sd) 1 s) rfl).trans (joined_count _)).trans (hspan _ _)).trans
      (joined_fillAt _ _)).trans (joined_fillAt _ _)

theorem on_fFILLING_startFill : on (fFILLING sd) (startFill sd s) = true := by
  cases h : on (fFILLING sd) s with
  | true => rwa [startFill_filling h]
  | false =>
    rw [on_of_rd ((keeps_startFill_filling h).rd (fFILLING sd) (by cases sd <;> decide +kernel)), on,
      rd_wr_fits (show 2 < 40 by decide) (show 1 < 2 by decide)]
    rfl

theorem tracking_startFill : tracking sd (startFill sd s) = tracking sd s := by
  cases h : on (fFILLING sd) s with
  | true => rw [startFill_filling h]
  | false =>
    exact on_of_rd (((keeps_startFill_filling h).rd (fTRACKING sd) (by cases sd <;> decide +kernel)).trans
      (rd_wr_other _ _ _ _ (.inr (.inl (show 1 < 2 by decide))) (show 1 < 40 by decide)))

/-- R104, R112: the begin of a fill counts STORE_RESET alone. -/
theorem reg_startFill_counter {i : Nat} (hi : i < 312) (hlost : i ≠ C.EVT_LOST) (hfill : i ≠ sided C.STORE_RESET_W (isEast sd)) :
    reg (counterAddr i) (startFill sd s) = reg (counterAddr i) s := by
  have hsent : ∀ p x, reg (counterAddr i) (fillAt sd p x) = reg (counterAddr i) x := fun p x => by
    unfold fillAt whenB
    split <;> rfl
  unfold startFill
  split
  · rfl
  · refine (hsent _ _).trans ((hsent _ _).trans ((reg_setSpan _ _ _ _).trans ?_))
    exact (reg_count_counter hi (sided_lt (by decide)) hlost hfill).trans
      (reg_wr_other _ _ _ _ (counterAddr_ne_repFld i _ _))

theorem tallied_startFill (h : on (fFILLING sd) s = false) (hc : countsNow s = true) :
    Tallied (sided C.STORE_RESET_W (isEast sd)) 1 s (startFill sd s) := by
  have hsent : ∀ p x off, reg off (fillAt sd p x) = reg off x := fun p x off => by
    unfold fillAt whenB
    split <;> rfl
  have hfill : Tallied (sided C.STORE_RESET_W (isEast sd)) 1 (wr (fFILLING sd) 1 s)
      (countSide C.STORE_RESET_W sd (wr (fFILLING sd) 1 s)) :=
    tallied_count (sided_lt (by decide)) (by cases sd <;> decide) hc
  rw [startFill, if_neg (by simp [h])]
  exact tallied_of_reg ((hsent _ _ _).trans ((hsent _ _ _).trans (reg_setSpan _ _ _ _)))
    (tallied_from (reg_wr_other _ _ _ _ (counterAddr_ne_repFld _ _ _)) hfill)

/-! ### The input is absent (R104, R122, R207) -/

theorem joined_loseTrack : Joined 1 s (loseTrack sd s) := by
  have hquiet : Joined 0 s (setSpan sd noRows (setTrk sd (fun _ => {}) (measBreak s))) := .of_events (by cases sd <;> rfl)
  unfold loseTrack
  dsimp only
  split
  · have hwr : ∀ x, Joined 0 x (wr (fTRACKING sd) 0 x) := fun x => .of_events rfl
    exact (hquiet.trans (hwr _)).trans (joined_raise _ _)
  · exact hquiet.mono (by decide)

theorem tracking_loseTrack : tracking sd (loseTrack sd s) = false := by
  have hquiet : tracking sd (setSpan sd noRows (setTrk sd (fun _ => {}) (measBreak s))) = tracking sd s := by cases sd <;> rfl
  unfold loseTrack
  dsimp only
  split
  · rw [tracking, on, rd_raise (fTRACKING sd) _ _ _ (bookkeeping_repFld _ _),
      rd_wr_fits (show 1 < 40 by decide) (show 0 < 2 by decide)]
    rfl
  · next h => exact hquiet.trans (Bool.eq_false_iff.mpr h)

theorem reg_loseTrack_counter {i : Nat} (hi : i < 312) (hlost : i ≠ C.EVT_LOST) :
    reg (counterAddr i) (loseTrack sd s) = reg (counterAddr i) s := by
  have hquiet : reg (counterAddr i) (setSpan sd noRows (setTrk sd (fun _ => {}) (measBreak s))) = reg (counterAddr i) s := by
    cases sd <;> rfl
  unfold loseTrack
  dsimp only
  split
  · rw [reg_raise_counter _ _ _ hi hlost]
    exact (reg_wr_other _ _ _ _ (counterAddr_ne_repFld i _ _)).trans hquiet
  · exact hquiet

theorem joined_inputAbsent : Joined 3 s (inputAbsent sd s) :=
  (joined_loseTrack.trans joined_startFill).trans (joined_cutSide _ _)

theorem inputAbsent_end : tracking sd (inputAbsent sd s) = false ∧ on (fFILLING sd) (inputAbsent sd s) = true := by
  have hcut : ∀ hi lo x, on (repFld sd hi lo) (cutSide sd true x) = on (repFld sd hi lo) x := fun hi lo x =>
    on_of_rd ((keeps_cutSide (A := T.counting ||| Reach.T.win) sd true rfl (.refl _ x)).rd (repFld sd hi lo) (by cases sd with
      | west => exact (by decide +kernel : Reach.reg (T.counting ||| Reach.T.win) R.REP_STATUS_W = false)
      | east => exact (by decide +kernel : Reach.reg (T.counting ||| Reach.T.win) R.REP_STATUS_E = false)))
  exact ⟨(hcut _ _ _).trans (tracking_startFill.trans tracking_loseTrack), (hcut _ _ _).trans on_fFILLING_startFill⟩

theorem reg_inputAbsent_counter {i : Nat} (hi : i < 312) (hlost : i ≠ C.EVT_LOST) (hcut : i ≠ C.WIN_CUT)
    (hfill : i ≠ sided C.STORE_RESET_W (isEast sd)) : reg (counterAddr i) (inputAbsent sd s) = reg (counterAddr i) s :=
  (reg_cutSide_counter true hi hlost hcut).trans
    ((reg_startFill_counter hi hlost hfill).trans (reg_loseTrack_counter hi hlost))

/-! ### Word lock is lost (R93) -/

theorem loseLock_held (h : wordLock sd s = true) :
    loseLock sd s = inputAbsent sd (raise E.WORD_LOCK_LOST (laneOf sd) (unlock sd s)) := if_pos h

theorem loseLock_none (h : wordLock sd s = false) : loseLock sd s = s := if_neg (by simp [h])

/-- What follows the unlocking leaves the lane's status. -/
theorem rd_absent_laneStatus {f : Fld} (ho : f.off = R.LANE_STATUS (laneOf sd)) (c a : Nat) :
    rd f (inputAbsent sd (raise c a s)) = rd f s := by
  have hoff : ∀ off, off = R.LANE_STATUS (laneOf sd) → Reach.reg 0x140060008000000000000000000000000000300000070011600 off = false := by
    rintro _ rfl
    cases sd <;> decide +kernel
  rw [(keeps_inputAbsent (A := 0x140060008000000000000000000000000000300000070011600) sd rfl (.refl _ _)).rd f (hoff _ ho)]
  exact rd_raise _ _ _ _ (by rw [ho]; exact bookkeeping_laneStatus _)

theorem wordLock_loseLock : wordLock sd (loseLock sd s) = false := by
  cases h : wordLock sd s with
  | false => rwa [loseLock_none h]
  | true =>
    rw [loseLock_held h, wordLock, on, rd_absent_laneStatus rfl, unlock,
      rd_wr_other _ _ _ _ (.inr (.inr (show 1 < 2 by decide))) (show 2 < 40 by decide),
      rd_wr_fits (show 2 < 40 by decide) (show 0 < 2 by decide)]
    rfl

/-- Losing word lock leaves the fields of LANEn_STATUS beside WORD_LOCK and SYM_ALIGN. -/
theorem rd_loseLock_laneStatus {f : Fld} (ho : f.off = R.LANE_STATUS (laneOf sd)) (hf : f.hi < 40) (ha : f.hi < 1 ∨ 2 < f.lo) :
    rd f (loseLock sd s) = rd f s := by
  cases h : wordLock sd s with
  | false => rw [loseLock_none h]
  | true =>
    rw [loseLock_held h, rd_absent_laneStatus ho, unlock]
    rw [rd_wr_other f (F.LANE_STATUS_SYM_ALIGN (laneOf sd)) _ _
        (.inr (ha.imp (fun h => h) (Nat.lt_trans (show 1 < 2 by decide)))) hf,
      rd_wr_other f (F.LANE_STATUS_WORD_LOCK (laneOf sd)) _ _
        (.inr (ha.imp (fun h => Nat.lt_trans h (show 1 < 2 by decide)) (fun h => h))) hf]

theorem joined_loseLock : Joined 4 s (loseLock sd s) := by
  cases h : wordLock sd s with
  | false => rw [loseLock_none h]; exact (Joined.of_events rfl).mono (by decide)
  | true =>
    rw [loseLock_held h]
    exact ((Joined.of_events (t := unlock sd s) rfl).trans (joined_raise _ _)).trans joined_inputAbsent

theorem waits_loseLock (h : wordLock sd s = true) (hroom : Room s) : Waits E.WORD_LOCK_LOST (laneOf sd) (loseLock sd s) := by
  rw [loseLock_held h]
  exact joined_inputAbsent.2 _ _ (waits_raise _ _ (Nat.lt_of_le_of_lt (show s.host.events.length ≤ 48 from hroom) (by decide)))

theorem reg_loseLock_counter {i : Nat} (hi : i < 312) (hlost : i ≠ C.EVT_LOST) (hcut : i ≠ C.WIN_CUT)
    (hfill : i ≠ sided C.STORE_RESET_W (isEast sd)) : reg (counterAddr i) (loseLock sd s) = reg (counterAddr i) s := by
  cases h : wordLock sd s with
  | false => rw [loseLock_none h]
  | true =>
    rw [loseLock_held h, reg_inputAbsent_counter hi hlost hcut hfill, reg_raise_counter _ _ _ hi hlost, unlock,
      reg_wr_other _ _ _ _ (counterAddr_ne_laneStatus i _), reg_wr_other _ _ _ _ (counterAddr_ne_laneStatus i _)]

end Sys2Proof.Proofs

end

/-! PROOF. The Span lanes: word lock, loss of signal and the equaliser (spec/04_span_line_and_repeater.md R92, R93, R97). -/

section

namespace Sys2Proof.Proofs

open Sys2Proof Sys2Proof.Machine Sys2Proof.Claims Sys2Proof.Laws

set_option Elab.async false

variable {s : State} {sd : Side}

/-! ### Word lock (R92, R93) -/

theorem reg_keepRd_other {off : Nat} (ws : List RxWord) (h : off ≠ R.LANE_STATUS (laneOf sd)) :
    reg off (keepRd sd ws s) = reg off s := by
  unfold keepRd
  split
  · exact reg_wr_other _ _ _ _ h
  · rfl

/-- The receiver's disparity stands beside WORD_LOCK. -/
theorem wordLock_keepRd (ws : List RxWord) : wordLock sd (keepRd sd ws s) = wordLock sd s := by
  unfold keepRd
  split
  · exact on_of_rd (rd_wr_other _ _ _ _ (.inr (.inl (show 2 < 4 by decide))) (show 2 < 40 by decide))
  · rfl

theorem wordLock_declared {ws : List RxWord} (hr : rxRuns (laneOf sd) s = true)
    (hcdr : on (F.LANE_STATUS_CDR_LOCK (laneOf sd)) s = true) (hlos : on (F.LANE_STATUS_LOS (laneOf sd)) s = false)
    (hl : wordLock sd s = false) (hw : fourCommas (spanOf sd s).carried (RxWord.chain ws) = true) :
    ∃ t, exec (.wordLock sd ws) s = .next t ∧ wordLock sd t = true ∧ (spanOf sd t).carried = false ∧
      ∀ off, off ≠ R.LANE_STATUS (laneOf sd) → reg off t = reg off s := by
  refine ⟨_, congrArg Host.Outcome.next (if_pos (by simp [hr, hcdr, hlos, hl, hw])), ?_, ?_, fun off ho => ?_⟩
  · rw [wordLock, on_setSpan, ← wordLock, wordLock_keepRd, wordLock, on,
      rd_wr_other _ _ _ _ (.inr (.inr (show 1 < 2 by decide))) (show 2 < 40 by decide),
      rd_wr_fits (show 2 < 40 by decide) (show 1 < 2 by decide)]
    rfl
  · rw [spanOf_setSpan]
  · rw [reg_setSpan, reg_keepRd_other _ ho, reg_wr_other _ _ _ _ ho, reg_wr_other _ _ _ _ ho]

/-- A loss of word lock is `loseLock`, but for what is kept to find lock again. -/
theorem exec_wordLockLost {c : LockLoss} (hr : rxRuns (laneOf sd) s = true) (hl : wordLock sd s = true)
    (hc : (∃ ws, c = .errors ws ∧ (RxWord.chain ws).length ≤ 1040 ∧ 16 ≤ ((RxWord.chain ws).map RxWord.errors).sum) ∨
      (∃ l, c = .commas l ∧ boundaryMoved [] l = true)) :
    ∃ f, exec (.wordLockLost sd c) s = .next (setSpan sd f (loseLock sd s)) := by
  have hgo : (!rxRuns (laneOf sd) s || !wordLock sd s) = false := by simp [hr, hl]
  rcases hc with ⟨ws, rfl, hlen, hsum⟩ | ⟨l, rfl, hmoved⟩
  · have hburst : errorBurst (RxWord.chain ws) = true := by simp [errorBurst, hlen, hsum]
    have hself : setSpan sd id (loseLock sd s) = loseLock sd s := by cases sd <;> rfl
    refine ⟨id, ?_⟩
    show execWordLockLost sd (.errors ws) s = _
    rw [hself]
    simp only [execWordLockLost, hgo, hburst]
    rfl
  · refine ⟨fun x => { x with carried := true }, ?_⟩
    show execWordLockLost sd (.commas l) s = _
    simp only [execWordLockLost, hgo, hmoved]
    rfl

theorem fFILLING_loseLock (h : wordLock sd s = true) :
    tracking sd (loseLock sd s) = false ∧ on (fFILLING sd) (loseLock sd s) = true := by
  rw [loseLock_held h]
  exact inputAbsent_end

theorem wordLockLost_told {c : LockLoss} (hr : rxRuns (laneOf sd) s = true) (hl : wordLock sd s = true) (hroom : Room s)
    (hc : (∃ ws, c = .errors ws ∧ (RxWord.chain ws).length ≤ 1040 ∧ 16 ≤ ((RxWord.chain ws).map RxWord.errors).sum) ∨
      (∃ l, c = .commas l ∧ boundaryMoved [] l = true)) :
    ∃ t, exec (.wordLockLost sd c) s = .next t ∧ wordLock sd t = false ∧ tracking sd t = false ∧ on (fFILLING sd) t = true ∧
      Waits E.WORD_LOCK_LOST (laneOf sd) t := by
  obtain ⟨f, hexec⟩ := exec_wordLockLost hr hl hc
  obtain ⟨htrack, hfill⟩ := fFILLING_loseLock hl
  exact ⟨_, hexec, (on_setSpan _ _ _ _).trans wordLock_loseLock, (on_setSpan _ _ _ _).trans htrack,
    (on_setSpan _ _ _ _).trans hfill, waits_of_host (setSpan_host _ _ _) (waits_loseLock hl hroom)⟩

/-! ### Loss of signal (R93) -/

/-- The lane's status once the signal is lost. -/
def signalGoneAt (sd : Side) (cdr : Bool) (s : State) : State :=
  whenB (!cdr) (wr (F.LANE_STATUS_CDR_LOCK (laneOf sd)) 0) (wr (F.LANE_STATUS_LOS (laneOf sd)) 1 s)

/-- Loss of signal counted and told, before what it does to word lock. -/
def signalLossTold (sd : Side) (cdr : Bool) (s : State) : State :=
  raise E.SPAN_LOS (laneOf sd) (countSide C.SPAN_LOS_W sd (signalGoneAt sd cdr s))

theorem exec_spanLos {pin cdr : Bool} {ws : List RxWord} (hr : rxRuns (laneOf sd) s = true)
    (hlos : on (F.LANE_STATUS_LOS (laneOf sd)) s = false)
    (hlost : (pin = true ∧ on F.SPAN_CFG_LOS_PIN_EN s = true) ∨ cdr = false ∨
      (64 ≤ (RxWord.chain ws).length ∧ ∀ w ∈ RxWord.chain ws, w.codeErr = true)) :
    exec (.spanLos sd pin cdr ws) s =
      .next (setSpan sd (fun x => { x with carried := false }) (loseLock sd (signalLossTold sd cdr s))) := by
  have hgone : signalLost pin cdr (RxWord.chain ws) s = true := by
    rcases hlost with ⟨hpin, hen⟩ | hcdr | ⟨hlen, hall⟩
    · simp [signalLost, hpin, hen]
    · simp [signalLost, hcdr]
    · have herr : (RxWord.chain ws).all RxWord.codeErr = true := List.all_eq_true.mpr hall
      simp [signalLost, hlen, herr]
  exact congrArg Host.Outcome.next (if_neg (by simp [hr, hlos, hgone]))

theorem signalGoneAt_status (cdr : Bool) : on (F.LANE_STATUS_LOS (laneOf sd)) (signalGoneAt sd cdr s) = true ∧
    (cdr = false → on (F.LANE_STATUS_CDR_LOCK (laneOf sd)) (signalGoneAt sd cdr s) = false) := by
  have hset : rd (F.LANE_STATUS_LOS (laneOf sd)) (wr (F.LANE_STATUS_LOS (laneOf sd)) 1 s) = 1 :=
    rd_wr_fits (show 3 < 40 by decide) (show 1 < 2 by decide)
  constructor
  · cases cdr
    · rw [signalGoneAt, on, Bool.not_false, whenB, if_pos rfl,
        rd_wr_other _ _ _ _ (.inr (.inr (show 0 < 3 by decide))) (show 3 < 40 by decide), hset]
      rfl
    · rw [signalGoneAt, on, Bool.not_true, whenB, if_neg (by decide), hset]
      rfl
  · rintro rfl
    rw [signalGoneAt, on, Bool.not_false, whenB, if_pos rfl, rd_wr_fits (show 0 < 40 by decide) (show 0 < 2 by decide)]
    rfl

theorem signalGoneAt_quiet (cdr : Bool) : (signalGoneAt sd cdr s).host = s.host ∧ (signalGoneAt sd cdr s).term = s.term ∧
    ∀ i, reg (counterAddr i) (signalGoneAt sd cdr s) = reg (counterAddr i) s := by
  have hlos : ∀ i, reg (counterAddr i) (wr (F.LANE_STATUS_LOS (laneOf sd)) 1 s) = reg (counterAddr i) s := fun i =>
    reg_wr_other _ _ _ _ (counterAddr_ne_laneStatus i _)
  cases cdr
  · exact ⟨rfl, rfl, fun i => (reg_wr_other _ _ _ _ (counterAddr_ne_laneStatus i _)).trans (hlos i)⟩
  · exact ⟨rfl, rfl, hlos⟩

theorem rd_signalLossTold {f : Fld} (cdr : Bool) (ho : f.off = R.LANE_STATUS (laneOf sd)) :
    rd f (signalLossTold sd cdr s) = rd f (signalGoneAt sd cdr s) := by
  have hb : bookkeeping f.off = false := by rw [ho]; exact bookkeeping_laneStatus _
  exact (rd_raise _ _ _ _ hb).trans (rd_count _ _ _ hb)

theorem spanLos_told {pin cdr : Bool} {ws : List RxWord} (hr : rxRuns (laneOf sd) s = true)
    (hlos : on (F.LANE_STATUS_LOS (laneOf sd)) s = false) (hroom : Room s)
    (hlost : (pin = true ∧ on F.SPAN_CFG_LOS_PIN_EN s = true) ∨ cdr = false ∨
      (64 ≤ (RxWord.chain ws).length ∧ ∀ w ∈ RxWord.chain ws, w.codeErr = true)) :
    ∃ t, exec (.spanLos sd pin cdr ws) s = .next t ∧ on (F.LANE_STATUS_LOS (laneOf sd)) t = true ∧ wordLock sd t = false ∧
      Waits E.SPAN_LOS (laneOf sd) t ∧ (cdr = false → on (F.LANE_STATUS_CDR_LOCK (laneOf sd)) t = false) ∧
      (countsNow s = true → Tallied (sided C.SPAN_LOS_W (isEast sd)) 1 s t) := by
  obtain ⟨hset, hcdr⟩ := signalGoneAt_status (s := s) (sd := sd) cdr
  obtain ⟨hhost, hterm, hcounter⟩ := signalGoneAt_quiet (s := s) (sd := sd) cdr
  have hfield : ∀ {f : Fld}, f.off = R.LANE_STATUS (laneOf sd) → f.hi < 40 → f.hi < 1 ∨ 2 < f.lo →
      on f (loseLock sd (signalLossTold sd cdr s)) = on f (signalGoneAt sd cdr s) := fun ho hf ha =>
    on_of_rd ((rd_loseLock_laneStatus ho hf ha).trans (rd_signalLossTold cdr ho))
  refine ⟨_, exec_spanLos hr hlos hlost, ?_, ?_, ?_, fun hc => ?_, fun hc => ?_⟩
  · rw [on_setSpan, hfield rfl (show 3 < 40 by decide) (.inr (show 2 < 3 by decide)), hset]
  · exact (on_setSpan _ _ _ _).trans wordLock_loseLock
  · have hroom' : Room (signalGoneAt sd cdr s) := by rwa [Room, hhost]
    exact waits_of_host (setSpan_host _ _ _) (joined_loseLock.2 _ _ (waits_raise_count hroom'))
  · rw [on_setSpan, hfield rfl (show 0 < 40 by decide) (.inl (show 0 < 1 by decide)), hcdr hc]
  · have hlt : sided C.SPAN_LOS_W (isEast sd) < 312 := sided_lt (by decide)
    have hne : ∀ j ∈ [C.EVT_LOST, C.WIN_CUT, sided C.STORE_RESET_W (isEast sd)], sided C.SPAN_LOS_W (isEast sd) ≠ j := by
      cases sd <;> decide
    have hnow : countsNow (signalGoneAt sd cdr s) = true := by rwa [countsNow, hterm]
    have htold := tallied_from (hcounter _) (tallied_count hlt (hne _ (by simp)) hnow)
    exact tallied_of_reg ((reg_setSpan _ _ _ _).trans ((reg_loseLock_counter hlt (hne _ (by simp)) (hne _ (by simp))
      (hne _ (by simp))).trans (reg_raise_counter _ _ _ hlt (hne _ (by simp))))) htold

theorem spanLos_again (pin cdr : Bool) (ws : List RxWord) (hlos : on (F.LANE_STATUS_LOS (laneOf sd)) s = true) :
    exec (.spanLos sd pin cdr ws) s = .next s := congrArg Host.Outcome.next (if_pos (by simp [hlos]))

theorem lossOfSignal_ends {pin : Bool} {w : RxWord} (hr : rxRuns (laneOf sd) s = true)
    (hcdr : on (F.LANE_STATUS_CDR_LOCK (laneOf sd)) s = true) (hpin : pin = true → on F.SPAN_CFG_LOS_PIN_EN s = false)
    (hw : w.codeErr = false) :
    ∃ t, exec (.lossOfSignalEnd sd pin w) s = .next t ∧ on (F.LANE_STATUS_LOS (laneOf sd)) t = false := by
  have hfree : (pin && on F.SPAN_CFG_LOS_PIN_EN s) = false := by
    cases pin
    · rfl
    · exact hpin rfl
  refine ⟨_, congrArg Host.Outcome.next (if_pos (by simp [hr, hcdr, hfree, hw])), ?_⟩
  rw [on, rd_wr_fits (show 3 < 40 by decide) (show 0 < 2 by decide)]
  rfl

/-! ### The equaliser (R97) -/

section

variable {l : Fin 8}

theorem laneEq_ne_laneStatus (n m : Nat) : R.LANE_EQ n ≠ R.LANE_STATUS m := by
  unfold R.LANE_EQ R.LANE_STATUS
  omega

/-- What the equaliser is told stands apart from what the lane tells. -/
theorem rd_laneEq_wr {f g : Fld} (n v : Nat) (hf : f.off = R.LANE_EQ n) (hh : f.hi < 40) (hg : g.off = R.LANE_STATUS n) :
    rd f (wr g v s) = rd f s :=
  rd_wr_other _ _ _ _ (.inl (by rw [hf, hg]; exact laneEq_ne_laneStatus n n)) hh

theorem cdrLock_startAdapt (n : Nat) : on (F.LANE_STATUS_CDR_LOCK n) (startAdapt n s) = on (F.LANE_STATUS_CDR_LOCK n) s := by
  have hadapt : ∀ v x, rd (F.LANE_STATUS_CDR_LOCK n) (wr (F.LANE_STATUS_ADAPT n) v x) = rd (F.LANE_STATUS_CDR_LOCK n) x := fun v x =>
    rd_wr_other _ _ _ _ (.inr (.inl (show 0 < 8 by decide))) (show 0 < 40 by decide)
  unfold startAdapt
  split
  · exact on_of_rd ((rd_wr_other _ _ _ _ (.inr (.inl (show 0 < 12 by decide))) (show 0 < 40 by decide)).trans (hadapt _ _))
  · exact on_of_rd (hadapt _ _)

theorem startAdapt_fixed {n : Nat} (h : rd (F.LANE_EQ_MODE n) s = 0) : rd (F.LANE_STATUS_ADAPT n) (startAdapt n s) = 3 ∧
    rd (F.LANE_STATUS_PEAK_NOW n) (startAdapt n s) = rd (F.LANE_EQ_PEAK n) s := by
  rw [startAdapt, if_pos (by simp [h])]
  exact ⟨(rd_wr_other _ _ _ _ (.inr (.inl (show 9 < 12 by decide))) (show 9 < 40 by decide)).trans
    (rd_wr_fits (show 9 < 40 by decide) (show 3 < 4 by decide)), rd_wr_fits (show 15 < 40 by decide) (rd_lt _ _)⟩

theorem startAdapt_sweeps {n : Nat} (h : rd (F.LANE_EQ_MODE n) s ≠ 0) : rd (F.LANE_STATUS_ADAPT n) (startAdapt n s) = 1 := by
  rw [startAdapt, if_neg (by simp [h])]
  exact rd_wr_fits (show 9 < 40 by decide) (show 1 < 4 by decide)

/-- A lane that is ready has gained CDR lock, and no adaptation is due on it but the one that starts now. -/
def lockGained (n : Nat) (s : State) : State :=
  setLane n (fun y => { y with adaptDue := false }) (wr (F.LANE_STATUS_CDR_LOCK n) 1 s)

/-- CDR lock on a lane that is ready starts what MODE asks for. -/
theorem cdrLock_adapts (ht : s.term ≠ .reset) (hready : laneReady l.val s = true)
    (hoff : on (F.LANE_STATUS_CDR_LOCK l.val) s = false) :
    ∃ t, exec (.cdrLock l) s = .next t ∧ on (F.LANE_STATUS_CDR_LOCK l.val) t = true ∧
      (rd (F.LANE_EQ_MODE l.val) s = 0 → rd (F.LANE_STATUS_ADAPT l.val) t = 3 ∧
        rd (F.LANE_STATUS_PEAK_NOW l.val) t = rd (F.LANE_EQ_PEAK l.val) s) ∧
      (rd (F.LANE_EQ_MODE l.val) s ≠ 0 → rd (F.LANE_STATUS_ADAPT l.val) t = 1) := by
  have hexec : exec (.cdrLock l) s = .next (startAdapt l.val (lockGained l.val s)) := by
    show execCdrLock l s = _
    simp only [execCdrLock, laneHears, hready, hoff]
    simp [ht, done, lockGained]
  have hlock : on (F.LANE_STATUS_CDR_LOCK l.val) (lockGained l.val s) = true := by
    rw [lockGained, on_setLane, on, rd_wr_fits (show 0 < 40 by decide) (show 1 < 2 by decide)]
    rfl
  have hmode : rd (F.LANE_EQ_MODE l.val) (lockGained l.val s) = rd (F.LANE_EQ_MODE l.val) s :=
    (rd_setLane _ _ _ _).trans (rd_laneEq_wr l.val 1 rfl (show 9 < 40 by decide) rfl)
  have hpeak : rd (F.LANE_EQ_PEAK l.val) (lockGained l.val s) = rd (F.LANE_EQ_PEAK l.val) s :=
    (rd_setLane _ _ _ _).trans (rd_laneEq_wr l.val 1 rfl (show 3 < 40 by decide) rfl)
  refine ⟨_, hexec, (cdrLock_startAdapt _).trans hlock, fun h => ?_, fun h => startAdapt_sweeps (by rwa [hmode])⟩
  obtain ⟨hadapt, hnow⟩ := startAdapt_fixed (hmode.trans h)
  exact ⟨hadapt, hnow.trans hpeak⟩

/-- R403: a Span lane in RETENTION gains lock and keeps its setting. -/
theorem cdrLock_keeps (ht : s.term ≠ .reset) (hl : l.val < 2) (hret : domState (laneDomain l.val) s = 1)
    (hoff : on (F.LANE_STATUS_CDR_LOCK l.val) s = false) (hready : laneReady l.val s = false) :
    ∃ t, exec (.cdrLock l) s = .next t ∧ on (F.LANE_STATUS_CDR_LOCK l.val) t = true ∧
      rd (F.LANE_STATUS_PEAK_NOW l.val) t = rd (F.LANE_STATUS_PEAK_NOW l.val) s := by
  have hexec : exec (.cdrLock l) s = .next (wr (F.LANE_STATUS_CDR_LOCK l.val) 1 s) := by
    show execCdrLock l s = _
    simp only [execCdrLock, laneHears, hready, hoff, hret]
    simp [ht, hl, done]
  refine ⟨_, hexec, ?_, rd_wr_other _ _ _ _ (.inr (.inr (show 0 < 12 by decide))) (show 15 < 40 by decide)⟩
  rw [on, rd_wr_fits (show 0 < 40 by decide) (show 1 < 2 by decide)]
  rfl

/-- What the sweep finds is one of its spreads. -/
theorem getElem?_of_bestSpread {sp : List (Option Nat)} {n j v : Nat} (h : bestSpread n sp = some (j, v)) :
    ∃ i : Nat, j = n + i ∧ sp[i]? = some (some v) := by
  induction sp generalizing n with
  | nil => cases h
  | cons x r ih =>
    have hrest : bestSpread (n + 1) r = some (j, v) → ∃ i : Nat, j = n + i ∧ (x :: r)[i]? = some (some v) := fun h => by
      obtain ⟨i, rfl, hi⟩ := ih h
      exact ⟨i + 1, by omega, hi⟩
    have hfirst : ∀ w, x = some w → (n, w) = (j, v) → ∃ i : Nat, j = n + i ∧ (x :: r)[i]? = some (some v) := by
      rintro w rfl ⟨⟩
      exact ⟨0, rfl, rfl⟩
    unfold bestSpread at h
    split at h
    · exact hrest h
    · exact hfirst _ rfl (Option.some.inj h)
    · next hb =>
      split at h
      · exact hfirst _ rfl (Option.some.inj h)
      · exact hrest (hb.trans h)

/-- R97: the error-free setting of least spread, the lowest of those that tie, is found. -/
theorem bestSpread_least {sp : List (Option Nat)} {n k v : Nat} (hk : sp[k]? = some (some v))
    (hleast : ∀ j u : Nat, sp[j]? = some (some u) → v ≤ u ∧ (u = v → k ≤ j)) : bestSpread n sp = some (n + k, v) := by
  induction sp generalizing n k with
  | nil => simp at hk
  | cons x r ih =>
    cases k with
    | zero =>
      obtain rfl : x = some v := Option.some.inj hk
      unfold bestSpread
      split
      · next h => cases h
      · next h _ => cases h; rfl
      · next h hb =>
        cases h
        obtain ⟨i, -, hi⟩ := getElem?_of_bestSpread hb
        rw [if_pos (hleast (i + 1) _ hi).1]
        rfl
    | succ k =>
      have hrest : bestSpread (n + 1) r = some (n + (k + 1), v) := by
        rw [ih hk fun j u hj => ⟨(hleast (j + 1) u hj).1, fun e => Nat.le_of_succ_le_succ ((hleast (j + 1) u hj).2 e)⟩]
        congr 2
        omega
      unfold bestSpread
      rw [hrest]
      cases x with
      | none => rfl
      | some w =>
        obtain ⟨hle, htie⟩ := hleast 0 w rfl
        have hmore : ¬ w ≤ v := fun h => absurd (htie (Nat.le_antisymm h hle)) (by omega)
        simp only [if_neg hmore]

theorem bestSpread_none (n m : Nat) : bestSpread n (List.replicate m none) = none := by
  induction m generalizing n with
  | zero => rfl
  | succ m ih => exact ih (n + 1)

/-- The lane's status at the end of a sweep, its setting apart. -/
def sweepEnded (n : Nat) (s : State) : State := wr (F.LANE_STATUS_ADAPT n) (if 2 ≤ rd (F.LANE_EQ_MODE n) s then 2 else 0) s

theorem eqSweepDone_finds {sp : List (Option Nat)} {k v : Nat} (hadapt : rd (F.LANE_STATUS_ADAPT l.val) s = 1)
    (hlen : sp.length = 16) (hk : sp[k]? = some (some v))
    (hleast : ∀ j u : Nat, sp[j]? = some (some u) → v ≤ u ∧ (u = v → k ≤ j)) :
    ∃ t, exec (.eqSweepDone l sp) s = .next t ∧ rd (F.LANE_STATUS_PEAK_NOW l.val) t = k := by
  have hfound : bestSpread 0 (sp.take 16) = some (k, v) := by
    rw [List.take_of_length_le (Nat.le_of_eq hlen), bestSpread_least hk hleast, Nat.zero_add]
  have hexec : exec (.eqSweepDone l sp) s = .next (wr (F.LANE_STATUS_PEAK_NOW l.val) k (sweepEnded l.val s)) := by
    show execEqSweepDone l sp s = _
    simp only [execEqSweepDone, hadapt, hfound]
    rfl
  have hlt : k < 16 := hlen ▸ (List.getElem?_eq_some_iff.mp hk).1
  exact ⟨_, hexec, rd_wr_fits (show 15 < 40 by decide) hlt⟩

theorem eqSweepDone_fails (hadapt : rd (F.LANE_STATUS_ADAPT l.val) s = 1) (hc : countsNow s = true) :
    ∃ t, exec (.eqSweepDone l (List.replicate 16 none)) s = .next t ∧ Tallied C.EQ_ADAPT_FAIL 1 s t ∧
      rd (F.LANE_STATUS_PEAK_NOW l.val) t = rd (F.LANE_EQ_PEAK l.val) s := by
  have hnone : bestSpread 0 ((List.replicate 16 none).take 16) = none := bestSpread_none 0 16
  have hexec : exec (.eqSweepDone l (List.replicate 16 none)) s =
      .next (count C.EQ_ADAPT_FAIL (wr (F.LANE_STATUS_PEAK_NOW l.val) (rd (F.LANE_EQ_PEAK l.val) s) (sweepEnded l.val s))) := by
    show execEqSweepDone l (List.replicate 16 none) s = _
    simp only [execEqSweepDone, hadapt, hnone]
    rfl
  refine ⟨_, hexec, tallied_from ?_ (tallied_count (by decide) (by decide) hc), ?_⟩
  · exact (reg_wr_other _ _ _ _ (counterAddr_ne_laneStatus _ _)).trans (reg_wr_other _ _ _ _ (counterAddr_ne_laneStatus _ _))
  · exact (rd_count _ _ _ (bookkeeping_laneStatus _)).trans (rd_wr_fits (show 15 < 40 by decide) (rd_lt _ _))

/-- R97, tracking: toward the lower neighbour, toward the upper one, and where neither is a tenth better. -/
theorem eqTrack_moves {below now above k : Nat} (hadapt : rd (F.LANE_STATUS_ADAPT l.val) s = 2)
    (hnow : rd (F.LANE_STATUS_PEAK_NOW l.val) s = k) :
    ∃ t, exec (.eqTrack l below now above) s = .next t ∧
      (0 < k → 10 * below ≤ 9 * now → below ≤ above → rd (F.LANE_STATUS_PEAK_NOW l.val) t = k - 1) ∧
      (k < 15 → 10 * above ≤ 9 * now → above < below → rd (F.LANE_STATUS_PEAK_NOW l.val) t = k + 1) ∧
      (9 * now < 10 * below → 9 * now < 10 * above → rd (F.LANE_STATUS_PEAK_NOW l.val) t = k) := by
  have hset : ∀ v < 16, rd (F.LANE_STATUS_PEAK_NOW l.val) (wr (F.LANE_STATUS_PEAK_NOW l.val) v s) = v := fun v hv =>
    rd_wr_fits (show 15 < 40 by decide) hv
  have hk : k < 16 := hnow ▸ rd_lt (F.LANE_STATUS_PEAK_NOW l.val) s
  have hexec : exec (.eqTrack l below now above) s = .next
      (if decide (0 < k) && tenLower below now && (!(decide (k < 15) && tenLower above now) || decide (below ≤ above)) then
        wr (F.LANE_STATUS_PEAK_NOW l.val) (k - 1) s
      else if decide (k < 15) && tenLower above now then wr (F.LANE_STATUS_PEAK_NOW l.val) (k + 1) s
      else s) := by
    show execEqTrack l below now above s = _
    simp only [execEqTrack, hadapt, hnow]
    rfl
  refine ⟨_, hexec, fun h0 hlow hle => ?_, fun h15 hlow hlt => ?_, fun hb ha => ?_⟩
  · rw [if_pos (by simp [tenLower, h0, hlow, hle]), hset _ (by omega)]
  · rw [if_neg (by simp [tenLower, h15, hlow, hlt]), if_pos (by simp [tenLower, h15, hlow]), hset _ (by omega)]
  · rw [if_neg (by simp [tenLower, hb]), if_neg (by simp [tenLower, ha]), hnow]

end

/-- Settles O21. -/
theorem lanesLockAndAdapt : Obligations.LanesLockAndAdapt :=
  ⟨fun _ _ _ => wordLock_declared, fun _ _ _ => wordLockLost_told, fun _ _ _ _ _ => spanLos_told,
    fun _ pin cdr ws _ => spanLos_again pin cdr ws, fun _ _ _ _ => lossOfSignal_ends, fun _ _ => cdrLock_adapts,
    fun _ _ => cdrLock_keeps, fun _ _ _ _ _ => eqSweepDone_finds, fun _ _ => eqSweepDone_fails,
    fun _ _ _ _ _ _ => eqTrack_moves⟩

end Sys2Proof.Proofs

end

/-! PROOF. The repeater's store: the end of fill, the Headland decision and the store reset
(spec/04_span_line_and_repeater.md R104-R112). -/

section

namespace Sys2Proof.Proofs

open Sys2Proof Sys2Proof.Machine Sys2Proof.Claims Sys2Proof.Laws

set_option Elab.async false

variable {s : State} {sd : Side}

/-! ### The end of fill (R104) -/

/-- R104: from the tick marker on the path reads its store, at occupancy 16. -/
theorem fillEnd_atMarker (n : Nat) (hrun : rxRuns (laneOf sd) s = true) (hlock : wordLock sd s = true)
    (htrk : tracking sd s = true) (hfill : on (fFILLING sd) s = true) (hmark : (spanOf sd s).marker = true) :
    ∃ t, exec (.fillEnd sd n) s = .next t ∧ on (fFILLING sd) t = false ∧ (spanOf sd t).occ = 16 := by
  refine ⟨_, congrArg Host.Outcome.next (if_pos (by simp [hrun, hlock, htrk, hfill, hmark])), ?_, ?_⟩
  · rw [on_setSpan, on, rd_wr_fits (show 2 < 40 by decide) (show 0 < 2 by decide)]
    rfl
  · rw [spanOf_setSpan]

/-- R104: before a tick marker has come the fill goes on. -/
theorem fillEnd_beforeMarker (n : Nat) (hmark : (spanOf sd s).marker = false) : exec (.fillEnd sd n) s = .next s :=
  congrArg Host.Outcome.next (if_neg (by simp [hmark]))

/-! ### What is forwarded of a Headland (R105-R111) -/

theorem headDecide_below {o : Nat} (hlo : 8 ≤ o) (hhi : o < 16) (n : Nat) :
    headDecide o n = if n ≤ 19 then .insert else .deferred := by
  rw [headDecide, if_neg (by simp; omega), if_pos hhi]

theorem headDecide_above {o : Nat} (hlo : 16 < o) (hhi : o ≤ 24) (n : Nat) :
    headDecide o n = if 13 ≤ n then .delete else .deferred := by
  rw [headDecide, if_neg (by simp; omega), if_neg (by omega), if_neg (by simp; omega)]

theorem headDecide_outside {o : Nat} (h : o < 8 ∨ 24 < o) (n : Nat) : headDecide o n = .slip := if_pos (by simpa using h)

theorem headForward_at16 (hl : List (Bool × Word)) : headForward 16 hl = hl := rfl

theorem headForward_below {o : Nat} (hlo : 8 ≤ o) (hhi : o < 16) (hl : List (Bool × Word)) :
    headForward o hl = if hl.length ≤ 19 then hl ++ [clearWord] else hl := by
  unfold headForward
  rw [headDecide_below hlo hhi]
  by_cases hn : hl.length ≤ 19
  · rw [if_pos hn, if_pos hn]
  · rw [if_neg hn, if_neg hn]

theorem headForward_above {o : Nat} (hlo : 16 < o) (hhi : o ≤ 24) (hl : List (Bool × Word)) :
    headForward o hl = if 13 ≤ hl.length then hl.eraseIdx 12 else hl := by
  unfold headForward
  rw [headDecide_above hlo hhi]
  by_cases hn : 13 ≤ hl.length
  · rw [if_pos hn, if_pos hn]
  · rw [if_neg hn, if_neg hn]

theorem headForward_short {o : Nat} (h : o < 8) (hl : List (Bool × Word)) :
    headForward o hl = hl ++ List.replicate (16 - o) clearWord := by
  unfold headForward
  rw [headDecide_outside (.inl h)]
  exact if_pos h

theorem headForward_long {o : Nat} (h : 24 < o) (hl : List (Bool × Word)) : headForward o hl = hl.drop (o - 16) := by
  unfold headForward
  rw [headDecide_outside (.inr h)]
  exact if_neg (by omega)

/-! ### The decision at a Headland (R105-R111) -/

/-- The Headland among the words received, as the path stores it. -/
def headlandHeard (ws : List RxWord) : List (Bool × Word) := (headlandOf (RxWord.chain ws)).map (fun w => (w.k, w.data))

/-- The path holds what it forwards of a Headland received at occupancy `o`, and tells both lengths. -/
def headStored (sd : Side) (o : Nat) (hl : List (Bool × Word)) (s : State) : State :=
  s |> wr (fOCC sd) o |> wr (fHL_IN sd) (min 63 hl.length) |> wr (fHL_OUT sd) (min 63 (headForward o hl).length)
    |> setSpan sd (fun x => { x with head := headForward o hl, occ := o + (headForward o hl).length - hl.length })

/-- A Headland of a length that no path leaves is counted. -/
def headCounted (sd : Side) (hl : List (Bool × Word)) (s : State) : State :=
  whenB (decide (hl.length < 12) || decide (20 < hl.length)) (countSide C.HEADLAND_BAD_W sd) s

/-- What is done at a Headland is counted, a slip told too. -/
def headActed (sd : Side) (a : HeadAct) (s : State) : State :=
  match a with
  | .none_ => s
  | .insert => countSide C.HEADLAND_INS_W sd s
  | .delete => countSide C.HEADLAND_DEL_W sd s
  | .deferred => countSide C.HEADLAND_DEFER_W sd s
  | .slip => raise E.SPAN_SLIP (laneOf sd) (countSide C.SPAN_SLIP_W sd (wr (fSLIP sd) 1 s))

theorem exec_headlandDecision (occ : BitVec 6) (ws : List RxWord) (hrun : rxRuns (laneOf sd) s = true)
    (hlock : wordLock sd s = true) (htrk : tracking sd s = true) (hfill : on (fFILLING sd) s = false) :
    exec (.headlandDecision sd occ ws) s = .next (headActed sd (headDecide occ.toNat (headlandHeard ws).length)
      (headCounted sd (headlandHeard ws) (headStored sd occ.toNat (headlandHeard ws) s))) :=
  congrArg Host.Outcome.next (if_neg (by simp [hrun, hlock, htrk, hfill]))

theorem spanOf_count (i : Nat) : spanOf sd (count i s) = spanOf sd s := by unfold spanOf; rw [count_span]

theorem spanOf_raise (c a : Nat) : spanOf sd (raise c a s) = spanOf sd s := by unfold spanOf; rw [raise_span]

theorem spanOf_headActed (a : HeadAct) : spanOf sd (headActed sd a s) = spanOf sd s := by
  cases a with
  | none_ => rfl
  | insert => exact spanOf_count _
  | delete => exact spanOf_count _
  | deferred => exact spanOf_count _
  | slip => exact (spanOf_raise _ _).trans (spanOf_count _)

theorem spanOf_headCounted (hl : List (Bool × Word)) : spanOf sd (headCounted sd hl s) = spanOf sd s := by
  unfold headCounted whenB
  split
  · exact spanOf_count _
  · rfl

theorem rd_fOCC_headActed (a : HeadAct) : rd (fOCC sd) (headActed sd a s) = rd (fOCC sd) s := by
  have hcount : ∀ i, rd (fOCC sd) (countSide i sd s) = rd (fOCC sd) s := fun i => rd_count _ _ _ (bookkeeping_repFld _ _)
  cases a with
  | none_ => rfl
  | insert => exact hcount _
  | delete => exact hcount _
  | deferred => exact hcount _
  | slip =>
    exact (rd_raise _ _ _ _ (bookkeeping_repFld _ _)).trans ((rd_count _ _ _ (bookkeeping_repFld _ _)).trans
      (rd_wr_other _ _ _ _ (.inr (.inr (show 0 < 6 by decide))) (show 11 < 40 by decide)))

theorem rd_fOCC_headCounted (hl : List (Bool × Word)) : rd (fOCC sd) (headCounted sd hl s) = rd (fOCC sd) s := by
  unfold headCounted whenB
  split
  · exact rd_count _ _ _ (bookkeeping_repFld _ _)
  · rfl

theorem rd_fOCC_headStored {o : Nat} (ho : o < 64) (hl : List (Bool × Word)) : rd (fOCC sd) (headStored sd o hl s) = o := by
  unfold headStored
  rw [rd_setSpan, rd_wr_other _ _ _ _ (.inr (.inl (show 11 < 12 by decide))) (show 11 < 40 by decide),
    rd_wr_other _ _ _ _ (.inr (.inl (show 11 < 18 by decide))) (show 11 < 40 by decide)]
  exact rd_wr_fits (show 11 < 40 by decide) ho

/-- R109: a slip stands in SLIP and is told. -/
theorem slip_told (hl : List (Bool × Word)) (o : Nat) :
    on (fSLIP sd) (headActed sd .slip (headCounted sd hl (headStored sd o hl s))) = true ∧
      (Room s → Waits E.SPAN_SLIP (laneOf sd) (headActed sd .slip (headCounted sd hl (headStored sd o hl s)))) := by
  have hstored : Joined 0 s (headStored sd o hl s) := .of_events (by cases sd <;> rfl)
  have hcounted : Joined 1 (headStored sd o hl s) (headCounted sd hl (headStored sd o hl s)) := by
    unfold headCounted whenB
    split
    · exact joined_count _
    · exact (Joined.of_events rfl).mono (by decide)
  refine ⟨?_, fun hroom => waits_raise _ _ ?_⟩
  · rw [headActed, on, rd_raise (fSLIP sd) _ _ _ (bookkeeping_repFld _ _), countSide,
      rd_count (fSLIP sd) _ _ (bookkeeping_repFld _ _),
      rd_wr_fits (show 0 < 40 by decide) (show 1 < 2 by decide)]
    rfl
  · have hlen := ((hstored.trans hcounted).trans ((Joined.of_events (t := wr (fSLIP sd) 1 _) rfl).trans
      (joined_count (sided C.SPAN_SLIP_W (isEast sd))))).1
    unfold Room at hroom
    exact Nat.lt_of_le_of_lt hlen (by omega)

/-- R105-R111: what the path forwards of a Headland, by its occupancy. -/
theorem headlandDecision_forwards (occ : BitVec 6) (ws : List RxWord) (hrun : rxRuns (laneOf sd) s = true)
    (hlock : wordLock sd s = true) (htrk : tracking sd s = true) (hfill : on (fFILLING sd) s = false) :
    ∃ t h f, exec (.headlandDecision sd occ ws) s = .next t ∧
      h = ((RxWord.chain ws).takeWhile isIdle).map (fun w => (w.k, w.data)) ∧ (spanOf sd t).head = f ∧ rd (fOCC sd) t = occ.toNat ∧
      (occ.toNat = 16 → f = h) ∧
      (8 ≤ occ.toNat → occ.toNat < 16 → f = if h.length ≤ 19 then h ++ [clearWord] else h) ∧
      (16 < occ.toNat → occ.toNat ≤ 24 → f = if 13 ≤ h.length then h.eraseIdx 12 else h) ∧
      (occ.toNat < 8 → f = h ++ List.replicate (16 - occ.toNat) clearWord) ∧
      (24 < occ.toNat → f = h.drop (occ.toNat - 16)) ∧
      (occ.toNat < 8 ∨ 24 < occ.toNat → on (fSLIP sd) t = true ∧ (Room s → Waits E.SPAN_SLIP (laneOf sd) t)) := by
  refine ⟨_, headlandHeard ws, headForward occ.toNat (headlandHeard ws), exec_headlandDecision occ ws hrun hlock htrk hfill, rfl,
    ?_, ?_, fun h => by rw [h, headForward_at16], fun hlo hhi => headForward_below hlo hhi _,
    fun hlo hhi => headForward_above hlo hhi _, fun h => headForward_short h _, fun h => headForward_long h _, fun h => ?_⟩
  · rw [spanOf_headActed, spanOf_headCounted, headStored, spanOf_setSpan]
  · rw [rd_fOCC_headActed, rd_fOCC_headCounted, rd_fOCC_headStored occ.isLt]
  · rw [headDecide_outside h]
    exact slip_told _ _

/-! ### What a path sends (R72-R76) -/

theorem feeds_sendAt (path p port : Side) (mk : Bool → List (Bool × Word) → Output) (ws : List (Bool × Word)) :
    feeds path p (sendAt port mk ws s) = feeds path p s := by cases port <;> rfl

theorem sends_sendAt (p port : Side) (mk : Bool → List (Bool × Word) → Output) (ws : List (Bool × Word)) :
    sends p (sendAt port mk ws s) = sends p s := by cases port <;> rfl

/-- The words that a path sends stand among the outputs for every port it feeds. -/
theorem mem_out_sendPath {path p : Side} (mk : Side → Bool → List (Bool × Word) → Output) (ws : List (Bool × Word))
    (hfeeds : feeds path p s = true) (hsends : sends p s = true) :
    mk p (spanOf p s).txRd ws ∈ (sendPath path mk ws s).out := by
  have hwest : (sendPath path mk ws s) = whenB (feeds path .east s && sends .east s) (sendAt .east (mk .east) ws)
      (whenB (feeds path .west s && sends .west s) (sendAt .west (mk .west) ws) s) := by
    unfold sendPath
    dsimp only
    unfold whenB
    split
    · rw [feeds_sendAt, sends_sendAt]
    · rfl
  rw [hwest]
  cases p with
  | west =>
    rw [hfeeds, hsends]
    unfold whenB
    split
    · exact List.mem_cons_of_mem _ (List.mem_cons_self ..)
    · exact List.mem_cons_self ..
  | east =>
    have hother : ∀ c, spanOf .east (whenB c (sendAt .west (mk .west) ws) s) = spanOf .east s := fun c => by cases c <;> rfl
    have hown : ∀ x, mk .east (spanOf .east x).txRd ws ∈ (sendAt .east (mk .east) ws x).out := fun _ => List.mem_cons_self
    rw [hfeeds, hsends, ← hother (feeds path .west s && sends .west s)]
    exact hown _

theorem mem_out_startFill {o : Output} (h : o ∈ s.out) : o ∈ (startFill sd s).out := by
  have hfill : ∀ p x, o ∈ x.out → o ∈ (fillAt sd p x).out := fun p x hx => by
    unfold fillAt whenB
    split
    · exact List.mem_cons_of_mem _ hx
    · exact hx
  unfold startFill
  split
  · exact h
  · refine hfill _ _ (hfill _ _ ?_)
    rwa [setSpan_out, countSide, count_out, wr_out]

/-! ### The store is reset (R112) -/

theorem exec_storeReset (hrun : rxRuns (laneOf sd) s = true) (hfill : on (fFILLING sd) s = false) :
    exec (.storeReset sd) s = .next (cutSide sd false (startFill sd
      (sendPath sd (fun p rd ws => .wordsOut p rd ws) [errorWord 1 s] s))) :=
  congrArg Host.Outcome.next (if_neg (by simp [hrun, hfill]))

/-- R112: the lost word goes out as an error word of reason 0x01, and the path fills again, which is counted. -/
theorem storeReset_fills (hrun : rxRuns (laneOf sd) s = true) (hfill : on (fFILLING sd) s = false) :
    ∃ t, exec (.storeReset sd) s = .next t ∧ on (fFILLING sd) t = true ∧
      (countsNow s = true → Tallied (sided C.STORE_RESET_W (isEast sd)) 1 s t) ∧
      ∀ p, feeds sd p s = true → sends p s = true → .wordsOut p (spanOf p s).txRd [errorWord 1 s] ∈ t.out := by
  have hcut : ∀ x, Keeps (T.counting ||| Reach.T.win) x (cutSide sd false x) := fun x => keeps_cutSide sd false rfl (.refl _ x)
  have hsent := keeps_sendPath (A := Reach.T.out ||| Reach.T.span) sd (fun p rd ws => .wordsOut p rd ws) [errorWord 1 s] rfl
    (.refl _ s)
  refine ⟨_, exec_storeReset hrun hfill, ?_, fun hc => ?_, fun p hfeeds hsends => ?_⟩
  · rw [on_of_rd ((hcut _).rd (fFILLING sd) (by cases sd <;> decide +kernel))]
    exact on_fFILLING_startFill
  · refine tallied_from (hsent.rest.regs _ (by cases sd <;> decide +kernel)) (tallied_of_reg
      (reg_cutSide_counter false (sided_lt (by decide)) (by cases sd <;> decide) (by cases sd <;> decide)) (tallied_startFill ?_ ?_))
    · rwa [on_of_rd (hsent.rd (fFILLING sd) (by cases sd <;> decide +kernel))]
    · unfold countsNow
      rw [hsent.rest.term rfl]
      exact hc
  · rw [(hcut _).rest.out rfl]
    exact mem_out_startFill (mem_out_sendPath (fun p rd ws => .wordsOut p rd ws) [errorWord 1 s] hfeeds hsends)

/-! ### The statement -/

/-- Settles O22. -/
theorem repeaterKeepsItsStore : Obligations.RepeaterKeepsItsStore :=
  ⟨fun _ n _ hrun hlock htrk hfill => ⟨fillEnd_atMarker n hrun hlock htrk hfill, fillEnd_beforeMarker n⟩,
    fun _ occ ws _ hrun hlock htrk hfill => headlandDecision_forwards occ ws hrun hlock htrk hfill,
    fun _ _ hrun hfill => storeReset_fills hrun hfill⟩

end Sys2Proof.Proofs

end

/-! PROOF. The wake sources: what a wake asks for, what it leaves alone and what it waits for
(spec/17_power_domains_wake.md R404-R414; spec/04_span_line_and_repeater.md R96; spec/18_zwirdo_sideband.md R418, R419). -/

section

namespace Sys2Proof.Proofs

open Sys2Proof Sys2Proof.Machine Sys2Proof.Claims Sys2Proof.Laws

set_option Elab.async false

variable {s t : State}

/-! ### Steps over a list -/

/-- What each step keeps, the run over a list keeps. -/
theorem eachOf_preserves {α : Type} {P : State → Prop} (l : List α) {f : State → α → State} (hf : ∀ x a, P x → P (f x a))
    (h : P s) : P (eachOf l f s) := by
  unfold eachOf
  induction l generalizing s with
  | nil => exact h
  | cons a l ih => exact ih (hf _ _ h)

/-! ### Requests for a transition (R406) -/

theorem mem_insertReq (r : PwrReq) (l : List PwrReq) : r ∈ insertReq r l := by
  induction l with
  | nil => exact List.mem_cons_self
  | cons x l ih =>
    unfold insertReq
    split
    · exact List.mem_cons_self
    · exact List.mem_cons_of_mem _ ih

theorem events_finishWait (h : CmdHdr) (recorded : Bool) (st sub res : Nat) :
    (finishWait h recorded st sub res s).host.events = s.host.events := by
  have hrec : (if recorded then cmdRecord h st sub res s else s).host.events = s.host.events := by cases recorded <;> rfl
  unfold finishWait
  generalize (if recorded then cmdRecord h st sub res s else s) = x at hrec ⊢
  dsimp only
  split
  · split
    · exact (events_commandEnd (recorded := false)).trans hrec
    · exact hrec
  · exact hrec

theorem mem_out_finishWait {o : Output} (h : CmdHdr) (recorded : Bool) (st sub res : Nat) (ho : o ∈ s.out) :
    o ∈ (finishWait h recorded st sub res s).out := by
  have hrec : (if recorded then cmdRecord h st sub res s else s).out = s.out := by cases recorded <;> rfl
  rw [← hrec] at ho
  unfold finishWait
  generalize (if recorded then cmdRecord h st sub res s else s) = x at ho ⊢
  dsimp only
  split
  · split
    · exact mem_out_commandEnd (recorded := false) ho
    · exact ho
  · exact ho

theorem events_pwrAnswer (r : PwrReq) (st sub res : Nat) : (pwrAnswer r st sub res s).host.events = s.host.events := by
  unfold pwrAnswer
  split
  · exact events_finishWait _ _ _ _ _
  · rfl

theorem mem_out_pwrAnswer {o : Output} (r : PwrReq) (st sub res : Nat) (ho : o ∈ s.out) : o ∈ (pwrAnswer r st sub res s).out := by
  unfold pwrAnswer
  split
  · exact mem_out_finishWait _ _ _ _ _ ho
  · exact ho

theorem keeps_pwrAnswer_self (r : PwrReq) (st sub res : Nat) : Keeps 0x20010000 s (pwrAnswer r st sub res s) :=
  keeps_pwrAnswer r st sub res rfl (.refl _ s)

/-- What a request changes of the power controller is its list of requests. -/
theorem pwr_powerRequest (r : PwrReq) : (powerRequest r s).pwr =
    { s.pwr with reqs := insertReq r (s.pwr.reqs.filter (fun x => x.t != r.t)) } :=
  (keeps_eachOf (A := T.counting ||| Reach.T.out) _ _ (fun _ _ h => keeps_pwrAnswer _ _ _ _ rfl (keeps_count _ rfl h))
    (.refl _ _)).rest.pwr rfl

/-- What waits waits on when a request supersedes others. -/
theorem waits_powerRequest {c a : Nat} (r : PwrReq) (h : Waits c a s) : Waits c a (powerRequest r s) :=
  eachOf_preserves (P := Waits c a) _ (fun _ y hx => (Joined.of_events (events_pwrAnswer y _ _ _)).2 _ _ ((joined_count _).2 _ _ hx)) h

/-! ### The end of the rest (R411) -/

theorem endRest_awake (h : s.pwr.resting = false) : endRest s = s := if_neg (by simp [h])

theorem resting_endRest : (endRest s).pwr.resting = false := by
  cases h : s.pwr.resting with
  | false => rwa [endRest_awake h]
  | true =>
    rw [endRest, if_pos h]
    rfl

theorem events_endRest : (endRest s).host.events = s.host.events := by
  unfold endRest
  split <;> rfl

theorem out_endRest : (endRest s).out = s.out := by
  unfold endRest
  split <;> rfl

theorem ktimer_endRest : (endRest s).pwr.ktimer = s.pwr.ktimer := by
  unfold endRest
  split <;> rfl

/-! ### What a wake leaves alone -/

/-- A property that every step of a wake keeps. -/
structure WakeStable (P : State → Prop) : Prop where
  rest : ∀ x, P x → P (endRest x)
  requests : ∀ x f, (∀ p, (f p).ktimer = p.ktimer) → P x → P (setPwr f x)
  target : ∀ x k, P x → P (wr (F.PWR_TARGET_TARGET k) 0 x)
  answer : ∀ x r st sub, P x → P (pwrAnswer r st sub 0 x)
  status : ∀ x f v, f.off = R.WAKE_STATUS → P x → P (wr f v x)
  raised : ∀ x c a, P x → P (raise c a x)
  counted : ∀ x i, i ∈ [C.PWR_REFUSED, C.PWR_WAKE, C.STAGE_SUPERSEDED] → P x → P (count i x)

theorem powerRequest_preserves {P : State → Prop} (hP : WakeStable P) (r : PwrReq) (h : P s) : P (powerRequest r s) :=
  eachOf_preserves _ (fun _ _ hx => hP.answer _ _ _ _ (hP.counted _ _ (by decide) hx)) (hP.requests _ _ (fun _ => rfl) h)

theorem wake_preserves {P : State → Prop} (hP : WakeStable P) (src detail : Nat) (h : P s) : P (wake src detail s) := by
  unfold wake
  dsimp only
  split
  · exact h
  · split
    · exact hP.raised _ _ _ (hP.counted _ _ (by decide) h)
    · refine powerRequest_preserves hP _ (hP.counted _ _ (by decide) (hP.raised _ _ _ (hP.status _ _ _ rfl (hP.status _ _ _ rfl ?_))))
      refine eachOf_preserves _ (fun _ _ hx => hP.answer _ _ _ _ hx) (eachOf_preserves _ (fun _ _ hx => hP.target _ _ hx) ?_)
      exact hP.requests _ _ (fun _ => rfl) (hP.rest _ h)

/-- What has been sent stays sent. -/
theorem wakeStable_sent (o : Output) : WakeStable (fun x => o ∈ x.out) where
  rest _ h := by rwa [out_endRest]
  requests _ _ _ h := h
  target _ _ h := h
  answer _ _ _ _ h := mem_out_pwrAnswer _ _ _ _ h
  status _ _ _ _ h := h
  raised _ _ _ h := by rwa [raise_out]
  counted _ _ _ h := by rwa [count_out]

theorem wakeStable_ktimer (v : Option Nat) : WakeStable (fun x => x.pwr.ktimer = v) where
  rest _ h := ktimer_endRest.trans h
  requests _ _ hf h := (hf _).trans h
  target _ _ h := h
  answer _ _ _ _ h := (congrArg PwrSt.ktimer ((keeps_pwrAnswer_self _ _ _ _).rest.pwr rfl)).trans h
  status _ _ _ _ h := h
  raised _ _ _ h := by rwa [raise_pwr]
  counted _ _ _ h := by rwa [count_pwr]

theorem bookkeeping_pwrTarget (k : Nat) : bookkeeping (R.PWR_TARGET k) = false :=
  (by decide : ∀ j < 24, bookkeeping (0x800 + 0x8 * j) = false) _ (Nat.mod_lt k (by decide))

/-- A counter other than the power controller's own stands. -/
theorem wakeStable_counter {i : Nat} (v : Word) (hi : i < 312) (hlost : i ≠ C.EVT_LOST)
    (hown : i ∉ [C.PWR_REFUSED, C.PWR_WAKE, C.STAGE_SUPERSEDED]) : WakeStable (fun x => reg (counterAddr i) x = v) where
  rest x h := ((keeps_endRest (A := 0x200000000000000000000001000000000800200030) rfl (.refl _ x)).rest.regs _
    ((by decide +kernel : ∀ j < 312, Reach.reg 0x200000000000000000000001000000000800200030 (counterAddr j) = false) _ hi)).trans h
  requests _ _ _ h := h
  target _ k h := (reg_wr_other _ _ _ _ (counterAddr_ne_of_bookkeeping (bookkeeping_pwrTarget k) i)).trans h
  answer _ _ _ _ h := ((keeps_pwrAnswer_self _ _ _ _).rest.regs _
    ((by decide +kernel : ∀ j < 312, Reach.reg 0x20010000 (counterAddr j) = false) _ hi)).trans h
  status _ f _ ho h := (reg_wr_other _ _ _ _ (counterAddr_ne_of_bookkeeping (show bookkeeping f.off = false by rw [ho]; rfl) i)).trans h
  raised _ _ _ h := (reg_raise_counter _ _ _ hi hlost).trans h
  counted _ j hj h := (reg_count_counter hi ((by decide : ∀ j ∈ [C.PWR_REFUSED, C.PWR_WAKE, C.STAGE_SUPERSEDED], j < 312) j hj)
    hlost (fun e => hown (e ▸ hj))).trans h

/-! ### A wake acts (R411-R413) -/

/-- The domains that a wake's set would refuse. -/
def wakeRefusal (s : State) : Nat := refusedSet (fun k => if inMask k s then 0 else targetOf s k) s

/-- R411, R413: the rest is over, the requests that would put a masked domain to sleep are gone, and the masked domains'
targets are ON. -/
def wakeMasked (s : State) : State :=
  eachOf (domains.filter (fun k => inMask k s)) (fun s k => wr (F.PWR_TARGET_TARGET k) 0 s)
    (setPwr (fun p => { p with reqs := p.reqs.filter (fun r => !reqSleeps s r), restAgain := false }) (endRest s))

/-- The requests that are gone have been answered too. -/
def wakeSettled (s : State) : State :=
  eachOf (s.pwr.reqs.filter (reqSleeps s)) (fun s r => pwrAnswer r cREFUSED 3 0 s) (wakeMasked s)

/-- A wake is told. -/
def wakeTold (src detail : Nat) (s : State) : State :=
  s |> wr F.WAKE_STATUS_SOURCE src |> wr F.WAKE_STATUS_DETAIL detail |> raise E.WAKE (src + 16 * detail) |> count C.PWR_WAKE

theorem wake_acts (src detail : Nat) (hl : fromListening s = true) (hset : wakeRefusal s = 0) :
    wake src detail s = powerRequest { t := nextTick (wakeSettled s), wake := true } (wakeTold src detail (wakeSettled s)) := by
  have hset' : refusedSet (fun k => if inMask k s then 0 else targetOf s k) s = 0 := hset
  unfold wake
  dsimp only
  rw [if_neg (by simp [hl]), if_neg (by simp [hset'])]
  rfl

theorem wake_refused (src detail : Nat) (hl : fromListening s = true) (hset : wakeRefusal s ≠ 0) :
    wake src detail s = powerRefused (wakeRefusal s) s := by
  unfold wake
  dsimp only
  rw [if_neg (by simp [hl])]
  exact if_pos (bne_iff_ne.mpr hset)

theorem wake_early (src detail : Nat) (hl : fromListening s = false) : wake src detail s = s := if_pos (by simp [hl])

/-- What a wake may reach before it is told. -/
def settledReach : Nat := 0x200000000000000000000001000000000800200030 ||| Reach.T.pwr ||| Reach.T.PWR_TARGET ||| 0x20010000

theorem keeps_wakeSettled : Keeps settledReach s (wakeSettled s) :=
  keeps_eachOf _ _ (fun _ _ h => keeps_pwrAnswer _ _ _ _ rfl h)
    (keeps_eachOf _ _ (fun _ k h => keeps_wr _ _ (cov_PWR_TARGET k _ rfl rfl) h)
      (keeps_setPwr _ rfl (keeps_endRest rfl (.refl _ s))))

theorem resting_wakeSettled : (wakeSettled s).pwr.resting = false :=
  eachOf_preserves (P := fun x => x.pwr.resting = false) _
    (fun _ _ h => (congrArg PwrSt.resting ((keeps_pwrAnswer_self _ _ _ _).rest.pwr rfl)).trans h)
    (eachOf_preserves (P := fun x => x.pwr.resting = false) _ (fun _ _ h => h) resting_endRest)

theorem events_wakeSettled : (wakeSettled s).host.events = s.host.events :=
  eachOf_preserves (P := fun x => x.host.events = s.host.events) _ (fun _ _ h => (events_pwrAnswer _ _ _ _).trans h)
    (eachOf_preserves (P := fun x => x.host.events = s.host.events) _ (fun _ _ h => h) events_endRest)

/-- The domains of a list have their targets ON. -/
theorem targetOf_eachOf_on {l : List Nat} {k : Nat} (h : k ∈ l ∨ targetOf s k = 0) :
    targetOf (eachOf l (fun s j => wr (F.PWR_TARGET_TARGET j) 0 s) s) k = 0 := by
  induction l generalizing s with
  | nil => exact h.resolve_left (by simp)
  | cons j l ih =>
    refine ih ?_
    by_cases hoff : R.PWR_TARGET k = R.PWR_TARGET j
    · have hfld : F.PWR_TARGET_TARGET k = F.PWR_TARGET_TARGET j := by rw [F.PWR_TARGET_TARGET, F.PWR_TARGET_TARGET, hoff]
      right
      rw [targetOf, hfld]
      exact rd_wr_fits (show 1 < 40 by decide) (show 0 < 2 ^ 2 by decide)
    · rcases h with h | h
      · rcases List.mem_cons.mp h with rfl | h
        · exact absurd rfl hoff
        · exact .inl h
      · exact .inr ((rd_wr_other _ _ _ _ (.inl hoff) (show 1 < 40 by decide)).trans h)

theorem targetOf_wakeSettled {k : Nat} (hk : k < 24) (hmask : inMask k s = true) : targetOf (wakeSettled s) k = 0 := by
  have hreach : ∀ j < 24, Reach.reg 0x20010000 (0x800 + 0x8 * j) = false := by decide +kernel
  refine eachOf_preserves (P := fun x => targetOf x k = 0) _ (fun _ _ h =>
    ((keeps_pwrAnswer_self _ _ _ _).rd (F.PWR_TARGET_TARGET k) (hreach _ (Nat.mod_lt k (by decide)))).trans h) ?_
  exact targetOf_eachOf_on (.inl (List.mem_filter.mpr ⟨List.mem_range.mpr hk, hmask⟩))

/-- A wake that is told and has asked for its transition. -/
theorem woken_of_settled {src detail : Nat} (hsrc : src < 16) (hdet : detail < 128) (hrest : s.pwr.resting = false)
    (hroom : s.host.events.length < 64) (hmask : ∀ k < 24, inMask k s = true → targetOf s k = 0) :
    Woken src detail (powerRequest { t := nextTick s, wake := true } (wakeTold src detail s)) := by
  have hreach : ∀ j < 24, Reach.reg (T.counting ||| Reach.T.out ||| Reach.T.pwr) (0x800 + 0x8 * j) = false := by decide +kernel
  have hk : Keeps (T.counting ||| Reach.T.out ||| Reach.T.pwr)
      (wr F.WAKE_STATUS_DETAIL detail (wr F.WAKE_STATUS_SOURCE src s))
      (powerRequest { t := nextTick s, wake := true } (wakeTold src detail s)) :=
    keeps_powerRequest _ rfl (keeps_count _ rfl (keeps_raise _ _ rfl (.refl _ _)))
  have hpwr : (wakeTold src detail s).pwr = s.pwr := (count_pwr _ _).trans (raise_pwr _ _ _)
  refine ⟨waits_powerRequest _ ((joined_count _).2 _ _ (waits_raise _ _ hroom)), ?_, ?_, ?_, fun k hlt hin => ?_, ?_⟩
  · rw [hk.rd F.WAKE_STATUS_SOURCE (by decide +kernel), rd_wr_other _ _ _ _ (.inr (.inl (by decide))) (by decide)]
    exact rd_wr_fits (by decide) hsrc
  · rw [hk.rd F.WAKE_STATUS_DETAIL (by decide +kernel)]
    exact rd_wr_fits (by decide) hdet
  · rw [pwr_powerRequest, hpwr]
    exact hrest
  · have hsame : ∀ f : Fld, f.off ≠ R.WAKE_STATUS → f.hi < 40 →
        rd f (wr F.WAKE_STATUS_DETAIL detail (wr F.WAKE_STATUS_SOURCE src s)) = rd f s := fun f ho hf =>
      (rd_wr_other _ _ _ _ (.inl ho) hf).trans (rd_wr_other _ _ _ _ (.inl ho) hf)
    have hin' : inMask k s = true := by
      rwa [inMask, hk.rd F.WAKE_MASK_MASK (by decide +kernel), hsame _ (by decide) (by decide)] at hin
    have hne : ∀ j < 24, 0x800 + 0x8 * j ≠ R.WAKE_STATUS := by decide
    rw [targetOf, hk.rd (F.PWR_TARGET_TARGET k) (hreach _ (Nat.mod_lt k (by decide))),
      hsame _ (hne _ (Nat.mod_lt k (by decide))) (show 1 < 40 by decide)]
    exact hmask k hlt hin'
  · rw [pwr_powerRequest, hk.rest.bt rfl]
    exact ⟨_, mem_insertReq _ _, rfl, rfl⟩

/-- R411-R413: a wake whose set is not refused acts. -/
theorem wake_woken {src detail : Nat} (hsrc : src < 16) (hdet : detail < 128) (hl : fromListening s = true)
    (hset : wakeRefusal s = 0) (hroom : s.host.events.length < 64) : Woken src detail (wake src detail s) := by
  rw [wake_acts src detail hl hset]
  refine woken_of_settled hsrc hdet resting_wakeSettled (by rwa [events_wakeSettled]) (fun k hk hin => ?_)
  refine targetOf_wakeSettled hk ?_
  rwa [inMask, keeps_wakeSettled.rd F.WAKE_MASK_MASK (by decide +kernel)] at hin

theorem wake_of_mayWake {src detail : Nat} (hsrc : src < 16) (hdet : detail < 128) (h : MayWake s) :
    Woken src detail (wake src detail s) := by
  obtain ⟨hl, hset, hroom⟩ := h
  exact wake_woken hsrc hdet hl hset (Nat.lt_of_le_of_lt (show s.host.events.length ≤ 48 from hroom) (by decide))

/-- R413: a wake that is refused is told and counted alone. -/
theorem wake_reports (src detail : Nat) (hl : fromListening s = true) (hset : wakeRefusal s ≠ 0) :
    (wake src detail s).pwr = s.pwr ∧ Tallied C.PWR_REFUSED 1 s (wake src detail s) := by
  rw [wake_refused src detail hl hset]
  exact ⟨(raise_pwr _ _ _).trans (count_pwr _ _), tallied_of_reg (reg_raise_counter _ _ _ (by decide) (by decide))
    (tallied_count (by decide) (by decide) (countsNow_of_fromListening hl))⟩

/-! ### What a wake's conditions depend on -/

/-- What neither a wake's set nor the sleep of the masked domains depends on. -/
def besideWake : Nat := T.counting ||| Reach.T.span ||| Reach.T.out ||| Reach.T.pwr ||| Reach.T.KTIMER_CFG

section

variable (h : Keeps besideWake s t)
include h

theorem besideWake_inMask (k : Nat) : inMask k t = inMask k s := by
  rw [inMask, inMask, h.rd F.WAKE_MASK_MASK (by decide +kernel)]

theorem besideWake_pwrTarget {f : Fld} {k : Nat} (hf : f.off = R.PWR_TARGET k) : rd f t = rd f s := by
  have hreach : ∀ j < 24, Reach.reg besideWake (0x800 + 0x8 * j) = false := by decide +kernel
  exact h.rd f (by rw [hf]; exact hreach _ (Nat.mod_lt k (by decide)))

theorem besideWake_maskAsleep : maskAsleep t = maskAsleep s := by
  have hon : ∀ k, domOn k t = domOn k s := fun k => by
    rw [domOn, domOn, domState, domState, besideWake_pwrTarget h (f := F.PWR_TARGET_STATE k) rfl]
  simp only [maskAsleep, besideWake_inMask h, hon]

theorem besideWake_fromListening : fromListening t = fromListening s := by
  rw [fromListening, fromListening, h.rest.term rfl]

theorem besideWake_targetRefused (set : Nat → Nat) (k j : Nat) : targetRefused set k j t = targetRefused set k j s := by
  have hbanks : reg R.GRAN_BANK_CFG t = reg R.GRAN_BANK_CFG s := h.rest.regs _ (by decide +kernel)
  have hheld : on (F.PWR_TARGET_HELD k) t = on (F.PWR_TARGET_HELD k) s := on_of_rd (besideWake_pwrTarget h rfl)
  have hins : on F.BYPASS_STATUS_INSERTED t = on F.BYPASS_STATUS_INSERTED s := on_of_rd (h.rd _ (by decide +kernel))
  have hadm : on F.ADMIT_TICK_PENDING t = on F.ADMIT_TICK_PENDING s := on_of_rd (h.rd _ (by decide +kernel))
  have hsides : on F.SPAN_CFG_SIDES t = on F.SPAN_CFG_SIDES s := on_of_rd (h.rd _ (by decide +kernel))
  have hboot : rd F.BOOT_STATUS_SOURCE t = rd F.BOOT_STATUS_SOURCE s := h.rd _ (by decide +kernel)
  have hhost : on F.RING_MODE_HOSTLESS t = on F.RING_MODE_HOSTLESS s := on_of_rd (h.rd _ (by decide +kernel))
  have hax0 : rd (F.AX_STATUS_STATE 0) t = rd (F.AX_STATUS_STATE 0) s := h.rd _ (by decide +kernel)
  have hax1 : rd (F.AX_STATUS_STATE 1) t = rd (F.AX_STATUS_STATE 1) s := h.rd _ (by decide +kernel)
  have hafe : on F.AFE_CFG_SEQ_EN t = on F.AFE_CFG_SEQ_EN s := on_of_rd (h.rd _ (by decide +kernel))
  simp only [targetRefused, needsOf, roleBanks, inserted, singleSided, axIdle, axState, hbanks, hheld, hins, hadm, hsides, hboot,
    hhost, hax0, hax1, hafe]

theorem besideWake_wakeRefusal : wakeRefusal t = wakeRefusal s := by
  have htarget : ∀ k, targetOf t k = targetOf s k := fun k => besideWake_pwrTarget h (f := F.PWR_TARGET_TARGET k) rfl
  simp only [wakeRefusal, refusedSet, besideWake_targetRefused h, besideWake_inMask h, htarget]

end

/-- A wake acts from a state that differs beside its conditions alone and has room for its event. -/
theorem wake_woken_beside {src detail n : Nat} (hsrc : src < 16) (hdet : detail < 128) (h : Keeps besideWake s t)
    (hj : Joined n s t) (hn : n < 16) (hm : MayWake s) : Woken src detail (wake src detail t) := by
  obtain ⟨hl, hset, hroom⟩ := hm
  refine wake_woken hsrc hdet ((besideWake_fromListening h).trans hl) ((besideWake_wakeRefusal h).trans hset) ?_
  have hlen := hj.1
  unfold Room at hroom
  omega

/-! ### The wake words of a Span lane (R96) -/

theorem matched_matchWake (m : SpanSide × Nat × Bool) (w : RxWord) :
    (matchWake s m w).2.1 = m.2.1 + ([w].filter (wakeWord s)).length := by
  unfold matchWake
  dsimp only
  rw [List.filter_singleton]
  cases wakeWord s w with
  | false => rfl
  | true =>
    rw [if_pos rfl]
    split <;> rfl

/-- The wake words received are counted one by one. -/
theorem matched_wakeWords (ws : List RxWord) (m : SpanSide × Nat × Bool) :
    (ws.foldl (matchWake s) m).2.1 = m.2.1 + (ws.filter (wakeWord s)).length := by
  induction ws generalizing m with
  | nil => rfl
  | cons w ws ih =>
    have hcons : w :: ws = [w] ++ ws := rfl
    rw [List.foldl_cons, ih, matched_matchWake, hcons, List.filter_append, List.length_append, Nat.add_assoc]

/-- The matches kept are of the words last received. -/
def NearHits (x : SpanSide) : Prop := ∀ p ∈ x.hits, x.heard - p < x.hits.length

/-- The side after one more match that does not make eight. -/
def hitMore (x : SpanSide) : SpanSide := { x with heard := x.heard + 1, hits := (x.heard + 1) :: x.hits }

theorem nearHits_hitMore {x : SpanSide} (hx : NearHits x) : NearHits (hitMore x) := by
  intro p hp
  rcases List.mem_cons.mp hp with rfl | hp
  · simp [hitMore]
  · have := hx p hp
    simp only [hitMore, List.length_cons]
    omega

/-- All matches of words last received lie within 49,920 words. -/
theorem recent_hits {x : SpanSide} (hx : NearHits x) (hfew : x.hits.length < 8) :
    x.hits.filter (fun p => decide (x.heard + 1 - p < 49920)) = x.hits :=
  List.filter_eq_self.mpr fun p hp => by
    have := hx p hp
    simp only [decide_eq_true_eq]
    omega

theorem matchWake_more {x : SpanSide} {w : RxWord} (n : Nat) (fired : Bool) (hw : wakeWord s w = true) (hx : NearHits x)
    (hfew : x.hits.length < 7) : matchWake s (x, n, fired) w = (hitMore x, n + 1, fired) := by
  unfold matchWake
  dsimp only
  rw [if_pos hw, recent_hits hx (by omega), if_neg (by simp only [List.length_cons]; omega)]
  rfl

theorem matchWake_eighth {x : SpanSide} {w : RxWord} (n : Nat) (fired : Bool) (hw : wakeWord s w = true) (hx : NearHits x)
    (hseven : x.hits.length = 7) : (matchWake s (x, n, fired) w).2.2 = true := by
  unfold matchWake
  dsimp only
  rw [if_pos hw, recent_hits hx (by omega), if_pos (by simp only [List.length_cons]; omega)]

/-- R96: fewer than eight wake words do not wake. -/
theorem wakeWords_few {ws : List RxWord} {x : SpanSide} (n : Nat) (fired : Bool) (hws : ∀ w ∈ ws, wakeWord s w = true)
    (hx : NearHits x) (hfew : x.hits.length + ws.length < 8) : (ws.foldl (matchWake s) (x, n, fired)).2.2 = fired := by
  induction ws generalizing x n with
  | nil => rfl
  | cons w ws ih =>
    rw [List.length_cons] at hfew
    rw [List.foldl_cons, matchWake_more n fired (hws w List.mem_cons_self) hx (by omega)]
    refine ih _ (fun v hv => hws v (List.mem_cons_of_mem _ hv)) (nearHits_hitMore hx) ?_
    simp only [hitMore, List.length_cons]
    omega

/-- R96: the eighth wake word in a row wakes. -/
theorem wakeWords_eight {ws : List RxWord} {x : SpanSide} (n : Nat) (fired : Bool) (hws : ∀ w ∈ ws, wakeWord s w = true)
    (hx : NearHits x) (hfew : x.hits.length < 8) (height : x.hits.length + ws.length = 8) :
    (ws.foldl (matchWake s) (x, n, fired)).2.2 = true := by
  induction ws generalizing x n with
  | nil => simp at height; omega
  | cons w ws ih =>
    rw [List.length_cons] at height
    have hw := hws w List.mem_cons_self
    rw [List.foldl_cons]
    by_cases hseven : x.hits.length = 7
    · have hnil : ws = [] := List.eq_nil_of_length_eq_zero (by omega)
      rw [hnil]
      exact matchWake_eighth n fired hw hx hseven
    · rw [matchWake_more n fired hw hx (by omega)]
      refine ih _ (fun v hv => hws v (List.mem_cons_of_mem _ hv)) (nearHits_hitMore hx) ?_ ?_
      · simp only [hitMore, List.length_cons]
        omega
      · simp only [hitMore, List.length_cons]
        omega

theorem length_chain (ws : List RxWord) : (RxWord.chain ws).length = ws.length := by
  have hfrom : ∀ (l : List RxWord) (r : Bool), (RxWord.chainFrom r l).length = l.length := fun l => by
    induction l with
    | nil => exact fun _ => rfl
    | cons w l ih => exact fun r => congrArg Nat.succ (ih _)
  cases ws with
  | nil => rfl
  | cons w ws => exact hfrom _ _

/-- What the matcher of a lane makes of the words received: its side, the wake words among them, and whether eight came. -/
def wakeMatch (lane : Nat) (ws : List RxWord) (s : State) : SpanSide × Nat × Bool :=
  (RxWord.chain ws).foldl (matchWake s) (spanOf (sideOf lane) s, 0, false)

/-- The matcher has taken the words, and those that match are counted. -/
def wakeMatched (lane : Nat) (ws : List RxWord) (s : State) : State :=
  countN C.WAKE_MATCH (wakeMatch lane ws s).2.1 (setSpan (sideOf lane) (fun _ => (wakeMatch lane ws s).1) s)

theorem keeps_wakeMatched (lane : Nat) (ws : List RxWord) : Keeps besideWake s (wakeMatched lane ws s) :=
  keeps_countN _ _ rfl (keeps_setSpan _ _ rfl (.refl _ s))

theorem joined_wakeMatched (lane : Nat) (ws : List RxWord) : Joined 1 s (wakeMatched lane ws s) :=
  (Joined.of_events (congrArg HostSt.events (setSpan_host _ _ _))).trans (joined_countN _ _)

theorem exec_spanWakeSet (lane : Fin 2) (ws : List RxWord) (hen : on F.SPAN_WAKE_WAKE_EN s = true)
    (hst : domState lane.val s ≤ 1) :
    exec (.spanWakeSet lane ws) s = .next (if (wakeMatch lane.val ws s).2.2 && on F.WAKE_CFG_SPAN_EN (wakeMatched lane.val ws s) &&
        !domOn dFRM (wakeMatched lane.val ws s) then
      wake (lane.val + 1) lane.val (wakeMatched lane.val ws s) else wakeMatched lane.val ws s) := by
  have hst' : (domState lane.val s == 0 || domState lane.val s == 1) = true := by
    simp only [Bool.or_eq_true, beq_iff_eq]
    omega
  exact congrArg Host.Outcome.next (if_neg (by rw [hen, hst']; decide))

theorem tallied_wakeMatched (lane : Nat) (ws : List RxWord) (hc : countsNow s = true) :
    Tallied C.WAKE_MATCH ((RxWord.chain ws).filter (wakeWord s)).length s (wakeMatched lane ws s) := by
  have hn : (wakeMatch lane ws s).2.1 = ((RxWord.chain ws).filter (wakeWord s)).length :=
    (matched_wakeWords _ _).trans (Nat.zero_add _)
  have hside : ∀ f, countsNow (setSpan (sideOf lane) f s) = true := fun f => by rwa [countsNow, setSpan_term]
  rw [wakeMatched, hn]
  exact tallied_from (reg_setSpan _ _ _ _) (tallied_countN (by decide) (by decide) (hside _))

/-- R96, R412: what a Span lane's words do. -/
theorem spanWakeSet_wakes (lane : Fin 2) (ws : List RxWord) (hen : on F.SPAN_WAKE_WAKE_EN s = true)
    (hst : domState lane.val s ≤ 1) (hc : countsNow s = true) :
    ∃ t, exec (.spanWakeSet lane ws) s = .next t ∧ Tallied C.WAKE_MATCH ((RxWord.chain ws).filter (wakeWord s)).length s t ∧
      ((wakeMatch lane.val ws s).2.2 = true → on F.WAKE_CFG_SPAN_EN s = true → domOn dFRM s = false → MayWake s →
        Woken (lane.val + 1) lane.val t) ∧
      ((wakeMatch lane.val ws s).2.2 = false → t.pwr = s.pwr) := by
  have hk := keeps_wakeMatched (s := s) lane.val ws
  have hcfg : on F.WAKE_CFG_SPAN_EN (wakeMatched lane.val ws s) = on F.WAKE_CFG_SPAN_EN s := on_of_rd (hk.rd _ (by decide +kernel))
  have hfrm : domOn dFRM (wakeMatched lane.val ws s) = domOn dFRM s := by
    rw [domOn, domOn, domState, domState, besideWake_pwrTarget hk (f := F.PWR_TARGET_STATE dFRM) rfl]
  have hlane := lane.isLt
  refine ⟨_, exec_spanWakeSet lane ws hen hst, ?_, fun hfired hon hoff hm => ?_, fun hquiet => ?_⟩
  · split
    · exact wake_preserves (wakeStable_counter _ (by decide) (by decide) (by decide)) _ _ (tallied_wakeMatched lane.val ws hc)
    · exact tallied_wakeMatched lane.val ws hc
  · rw [hfired, hcfg, hon, hfrm, hoff, show (true && true && !false) = true from rfl, if_pos rfl]
    exact wake_woken_beside (by omega) (by omega) hk (joined_wakeMatched _ _) (by decide) hm
  · rw [hquiet, if_neg (by simp)]
    exact (countN_pwr _ _ _).trans (setSpan_pwr _ _ _)

/-- R96: eight wake words wake, fewer do not. -/
theorem wakeMatch_eight {lane : Nat} {ws : List RxWord} (hws : ∀ w ∈ RxWord.chain ws, wakeWord s w = true)
    (hnone : (spanOf (sideOf lane) s).hits = []) :
    (ws.length = 8 → (wakeMatch lane ws s).2.2 = true) ∧ (ws.length < 8 → (wakeMatch lane ws s).2.2 = false) := by
  have hx : NearHits (spanOf (sideOf lane) s) := fun p hp => by simp [hnone] at hp
  have hlen : (spanOf (sideOf lane) s).hits.length = 0 := by rw [hnone]; rfl
  exact ⟨fun h8 => wakeWords_eight 0 false hws hx (by omega) (by rw [length_chain]; omega),
    fun hlt => wakeWords_few 0 false hws hx (by rw [length_chain]; omega)⟩

/-! ### The other wake sources (R412) -/

theorem exec_laneActivityWake (port : Fin 6) (hst : domState dLAN s = 1) (hen : nbit (rd F.WAKE_CFG_LANE_EN s) port.val = true)
    (hsleep : maskAsleep s = true) : exec (.laneActivityWake port) s = .next (wake 3 port.val s) :=
  congrArg Host.Outcome.next (if_pos (by simp [hst, hen, hsleep]))

theorem exec_cueWake (n : Fin 4) (hen : nbit (rd F.WAKE_CFG_CUE_EN s) n.val = true) (hsleep : maskAsleep s = true) :
    exec (.cueWake n (nbit (rd F.WAKE_CFG_CUE_CLOSE s) n.val)) s = .next (wake 5 n.val s) :=
  congrArg Host.Outcome.next (if_pos (by simp [hen, hsleep]))

/-- Before LISTENING no source acts. -/
theorem wakes_early (port : Fin 6) (n : Fin 4) (c : Bool) (hl : fromListening s = false) :
    exec (.laneActivityWake port) s = .next s ∧ exec (.cueWake n c) s = .next s := by
  constructor
  · refine congrArg Host.Outcome.next ?_
    rw [wake_early _ _ hl, ite_self]
  · refine congrArg Host.Outcome.next ?_
    rw [wake_early _ _ hl, ite_self]

/-! ### The keeper timer (R414) -/

def ktimerRow : RegRow := ⟨0x8E0, 0x0, 1, 0x0, 0x100FFFFFF, 0x0, 0x0, 0x0, false⟩

/-- A write of KTIMER_CFG where it may be written. -/
theorem exec_ktimerCfg (p : Path) (v : Word) (hm : mayWriteReg R.KTIMER_CFG s = true) : ∃ b,
    exec (.ktimerCfg p v) s = .next (clearHold p (ktimerWrite (v &&& 0x100FFFFFF) (setHold p R.KTIMER_CFG b s))) := by
  obtain ⟨b, hw⟩ := write8_hooked (v := v) (row := ktimerRow) (f := fun v _ => ktimerWrite v) (p := p) (by rfl) hm rfl rfl
    (by decide) (fun _ _ => rfl)
  exact ⟨b, congrArg Host.Outcome.next hw⟩

theorem ms_ktimerWrite (v : Word) : rd F.KTIMER_CFG_MS (ktimerWrite v s) = fget v 23 0 := by
  have hset : ∀ f, rd F.KTIMER_CFG_MS (setPwr f (setReg R.KTIMER_CFG (v &&& 0x100FFFFFF) s)) = fget v 23 0 := fun f => by
    rw [rd_setPwr, rd]
    refine Eq.trans ?_ (fget_and (m := 0x100FFFFFF) (by decide) (by decide))
    exact congrArg (fun w => fget w 23 0) (reg_setReg_same _ _ _)
  unfold ktimerWrite
  dsimp only
  split
  · exact hset _
  · exact hset _

theorem ktimer_ktimerWrite (v : Word) :
    (ktimerWrite v s).pwr.ktimer = if fget v 32 32 = 1 then some (48 * max 1 (fget v 23 0)) else none := by
  unfold ktimerWrite
  dsimp only
  by_cases h : fget v 32 32 = 1
  · rw [if_pos (by simp [h]), if_pos h]
    rfl
  · rw [if_neg (by simp [h]), if_neg h]
    rfl

/-- R414: a write of KTIMER_CFG arms the timer or stops it. -/
theorem ktimerCfg_arms (p : Path) (v : Word) (hm : mayWriteReg R.KTIMER_CFG s = true) :
    ∃ t, exec (.ktimerCfg p v) s = .next t ∧ rd F.KTIMER_CFG_MS t = fget v 23 0 ∧
      t.pwr.ktimer = if fget v 32 32 = 1 then some (48 * max 1 (fget v 23 0)) else none := by
  obtain ⟨b, hexec⟩ := exec_ktimerCfg p v hm
  have hms : fget (v &&& 0x100FFFFFF) 23 0 = fget v 23 0 := fget_and (by decide) (by decide)
  have hen : fget (v &&& 0x100FFFFFF) 32 32 = fget v 32 32 := fget_and (by decide) (by decide)
  refine ⟨_, hexec, ?_, ?_⟩
  · rw [(keeps_clearHold_self p).rd F.KTIMER_CFG_MS (by decide +kernel), ms_ktimerWrite, hms]
  · rw [(keeps_clearHold_self p).rest.pwr rfl, ktimer_ktimerWrite, hms, hen]

/-- The timer has run out and is disabled. -/
def ktimerSpent (s : State) : State := wr F.KTIMER_CFG_ENABLE 0 (setPwr (fun p => { p with ktimer := none }) s)

theorem keeps_ktimerSpent : Keeps besideWake s (ktimerSpent s) :=
  keeps_wr _ _ (cov_KTIMER_CFG _ rfl rfl) (keeps_setPwr _ rfl (.refl _ s))

theorem exec_keeperTimerExpiry (hz : s.pwr.ktimer = some 0) :
    exec .keeperTimerExpiry s = .next (if on F.WAKE_CFG_TIMER_EN s && maskAsleep s then wake 6 0 (ktimerSpent s) else ktimerSpent s) := by
  have hcfg : on F.WAKE_CFG_TIMER_EN (ktimerSpent s) = on F.WAKE_CFG_TIMER_EN s := on_of_rd (keeps_ktimerSpent.rd _ (by decide +kernel))
  rw [← hcfg, ← besideWake_maskAsleep keeps_ktimerSpent]
  exact congrArg Host.Outcome.next (if_pos (by simp [hz]))

/-- R414: the timer that runs out is disabled, and wakes where it is enabled to. -/
theorem keeperTimerExpiry_wakes (hz : s.pwr.ktimer = some 0) :
    ∃ t, exec .keeperTimerExpiry s = .next t ∧ t.pwr.ktimer = none ∧ on F.KTIMER_CFG_ENABLE t = false ∧
      (on F.WAKE_CFG_TIMER_EN s = true → maskAsleep s = true → MayWake s → Woken 6 0 t) ∧
      (on F.WAKE_CFG_TIMER_EN s = false ∨ maskAsleep s = false → t.pwr.reqs = s.pwr.reqs ∧ t.pwr.resting = s.pwr.resting) := by
  have hoff : on F.KTIMER_CFG_ENABLE (ktimerSpent s) = false := by
    rw [on, ktimerSpent, rd_wr_fits (by decide) (by decide)]
    rfl
  refine ⟨_, exec_keeperTimerExpiry hz, ?_, ?_, fun hen hsleep hm => ?_, fun hquiet => ?_⟩
  · split
    · exact wake_preserves (wakeStable_ktimer none) _ _ rfl
    · rfl
  · split
    · rw [on_of_rd ((keeps_wake (A := 0x1c0060008200000000000000000000001000000000830210030) 6 0 rfl (.refl _ _)).rd F.KTIMER_CFG_ENABLE
        (by decide +kernel))]
      exact hoff
    · exact hoff
  · rw [hen, hsleep, Bool.and_self, if_pos rfl]
    exact wake_woken_beside (n := 0) (by decide) (by decide) keeps_ktimerSpent (.of_events rfl) (by decide) hm
  · rw [if_neg (by rcases hquiet with h | h <;> simp [h])]
    exact ⟨rfl, rfl⟩

/-! ### A Zwirdo address (R418, R419) -/

theorem exec_zwirdoAddress {b : Byte} (hb : b.toNat / 2 = rd F.ZWD_ADDR_ADDR s) :
    exec (.zwirdoAddressMatch b false) s = .next (zwdWakes (emit (.zwd [] true) s)) :=
  congrArg Host.Outcome.next (if_neg (by simp [hb]))

/-- R412, R419: an address byte wakes through source 0x4. -/
theorem zwirdoAddress_wakes {b : Byte} (hb : b.toNat / 2 = rd F.ZWD_ADDR_ADDR s) (hen : on F.WAKE_CFG_ZWD_EN s = true)
    (hsleep : maskAsleep s = true) (hm : MayWake s) :
    ∃ t, exec (.zwirdoAddressMatch b false) s = .next t ∧ Woken 4 0 t ∧ .zwd [] true ∈ t.out := by
  have hk : Keeps besideWake s (emit (.zwd [] true) s) := keeps_emit _ rfl (.refl _ s)
  have hwoken : Woken 4 0 (wake 4 0 (emit (.zwd [] true) s)) :=
    wake_woken_beside (n := 0) (by decide) (by decide) hk (.of_events rfl) (by decide) hm
  have hrest : (wake 4 0 (emit (.zwd [] true) s)).pwr.resting = false := by
    obtain ⟨-, -, -, hawake, -⟩ := hwoken
    exact hawake
  have hen' : on F.WAKE_CFG_ZWD_EN (emit (.zwd [] true) s) = true := hen
  refine ⟨_, exec_zwirdoAddress hb, ?_⟩
  rw [zwdWakes, hen', besideWake_maskAsleep hk, hsleep, Bool.and_self, if_pos rfl, endRest_awake hrest]
  exact ⟨hwoken, wake_preserves (wakeStable_sent _) _ _ List.mem_cons_self⟩

/-- The end of the rest leaves every domain's state. -/
theorem allAsleep_endRest : allAsleep (endRest s) = allAsleep s := by
  have hreach : ∀ j < 24, Reach.reg 0x200000000000000000000001000000000800200030 (0x800 + 0x8 * j) = false := by decide +kernel
  have hst : ∀ k, domState k (endRest s) = domState k s := fun k =>
    (keeps_endRest (A := 0x200000000000000000000001000000000800200030) rfl (.refl _ s)).rd (F.PWR_TARGET_STATE k)
      (hreach _ (Nat.mod_lt k (by decide)))
  simp only [allAsleep, hst]

/-- R419: the STOP of the transaction lets the rest begin again. -/
theorem zwirdoStop_restsAgain {b : Byte} (hb : b.toNat / 2 = rd F.ZWD_ADDR_ADDR s) (hboot : s.boot.targetsDone = true)
    (hrest : s.pwr.resting = false) (hall : allAsleep s = true) (hrun : s.pwr.run = none)
    (hreqs : ∀ r ∈ s.pwr.reqs, r.wake = false) :
    exec (.zwirdoAddressMatch b true) s = .next (setPwr (fun p => { p with restAgain := true }) s) := by
  have hnone : s.pwr.reqs.all (fun r => !r.wake) = true := List.all_eq_true.mpr fun r hr => by rw [hreqs r hr]; rfl
  have hstop : zwdStop s = setPwr (fun p => { p with restAgain := true }) s :=
    if_pos (by rw [hboot, hrest, hall, hrun, hnone]; rfl)
  rw [← hstop]
  exact congrArg Host.Outcome.next (if_neg (by simp [hb]))

/-- R419: an address byte ends the rest where it wakes nothing, and its STOP lets it begin again. -/
theorem zwirdoAddress_endsRest {b : Byte} (hb : b.toNat / 2 = rd F.ZWD_ADDR_ADDR s) (hrest : s.pwr.resting = true)
    (hen : on F.WAKE_CFG_ZWD_EN s = false) :
    ∃ t u, exec (.zwirdoAddressMatch b false) s = .next t ∧ t.pwr.resting = false ∧ t.bt = tickAdd s.bt s.pwr.rest ∧
      (s.boot.targetsDone = true → allAsleep s = true → s.pwr.run = none → (∀ r ∈ s.pwr.reqs, r.wake = false) →
        exec (.zwirdoAddressMatch b true) t = .next u ∧ u.pwr.restAgain = true) := by
  have hen' : on F.WAKE_CFG_ZWD_EN (emit (.zwd [] true) s) = false := hen
  have hended : zwdWakes (emit (.zwd [] true) s) = endRest (emit (.zwd [] true) s) := by
    rw [zwdWakes, hen', if_neg (by simp)]
  have hk := keeps_endRest (A := 0x200000000000000000000001000000000800200030) (s := emit (.zwd [] true) s) rfl (.refl _ _)
  have hparts : (endRest (emit (.zwd [] true) s)).bt = tickAdd s.bt s.pwr.rest ∧
      (endRest (emit (.zwd [] true) s)).pwr.run = s.pwr.run ∧ (endRest (emit (.zwd [] true) s)).pwr.reqs = s.pwr.reqs := by
    rw [endRest, if_pos (show (emit (.zwd [] true) s).pwr.resting = true from hrest)]
    exact ⟨rfl, rfl, rfl⟩
  obtain ⟨hbt, hrun', hreqs'⟩ := hparts
  refine ⟨_, _, (exec_zwirdoAddress hb).trans (congrArg Host.Outcome.next hended), resting_endRest, hbt,
    fun hboot hall hrun hreqs => ⟨zwirdoStop_restsAgain ?_ ?_ resting_endRest (allAsleep_endRest.trans hall) (hrun'.trans hrun) ?_, rfl⟩⟩
  · exact hb.trans (hk.rd F.ZWD_ADDR_ADDR (by decide +kernel)).symm
  · exact (congrArg BootSt.targetsDone (hk.rest.boot rfl)).trans hboot
  · rwa [hreqs']

/-! ### The statement -/

/-- Settles O54. -/
theorem wakesActAndReport : Obligations.WakesActAndReport := by
  refine ⟨fun lane ws s hen hst hc => ?_, fun port s hst hen hsleep hm => ?_, fun n s hen hsleep hm => ?_,
    fun p v _ hm => ktimerCfg_arms p v hm, fun _ hz => keeperTimerExpiry_wakes hz,
    fun _ _ hb hen hsleep hm => zwirdoAddress_wakes hb hen hsleep hm, fun _ _ hb hrest hen => zwirdoAddress_endsRest hb hrest hen,
    fun port n s hsleep hset hl => ⟨fun hst hen => ?_, fun hen => ?_⟩, fun port n c _ hl => wakes_early port n c hl⟩
  · obtain ⟨t, hexec, htally, hwakes, hquiet⟩ := spanWakeSet_wakes lane ws hen hst hc
    refine ⟨t, hexec, htally, hwakes, fun hws hnone => ?_⟩
    obtain ⟨height, hfew⟩ := wakeMatch_eight hws hnone
    exact ⟨fun h8 => hwakes (height h8), fun hlt => hquiet (hfew hlt)⟩
  · have hport := port.isLt
    exact ⟨_, exec_laneActivityWake port hst hen hsleep, wake_of_mayWake (by decide) (by omega) hm⟩
  · have hn := n.isLt
    exact ⟨_, exec_cueWake n hen hsleep, wake_of_mayWake (by decide) (by omega) hm⟩
  · obtain ⟨hpwr, htally⟩ := wake_reports 3 port.val hl hset
    exact ⟨_, exec_laneActivityWake port hst hen hsleep, hpwr, fun _ => htally⟩
  · obtain ⟨hpwr, htally⟩ := wake_reports 5 n.val hl hset
    exact ⟨_, exec_cueWake n hen hsleep, hpwr, fun _ => htally⟩

end Sys2Proof.Proofs

end

/-! PROOF. What an operation leaves of one counter (spec/20_lane_tests_counter_ledger.md R461), whatever else it counts. -/

section

namespace Sys2Proof.Proofs

open Sys2Proof Sys2Proof.Machine Sys2Proof.Claims Sys2Proof.Laws

set_option Elab.async false

variable {s t u : State} {i : Nat}

/-- Counter `i` stands where it stood. -/
def Spares (i : Nat) (s t : State) : Prop := reg (counterAddr i) t = reg (counterAddr i) s

theorem Spares.refl (i : Nat) (s : State) : Spares i s s := rfl

theorem Spares.trans (h : Spares i s t) (g : Spares i t u) : Spares i s u := Eq.trans g h

/-- A tally between two stretches that spare its counter. -/
theorem Spares.tallied {n : Nat} (h : Spares i s t) (hn : Tallied i n t u) : Tallied i n s u := tallied_from h hn

theorem tallied_spared {n : Nat} (hn : Tallied i n s t) (h : Spares i t u) : Tallied i n s u := tallied_of_reg h hn

theorem spares_of_keeps {A : Nat} (h : Keeps A s t) (hA : Reach.reg A (counterAddr i) = false) : Spares i s t := h.rest.regs _ hA

theorem spares_wr {f : Fld} {v : Nat} (h : bookkeeping f.off = false) : Spares i s (wr f v s) :=
  reg_wr_other _ _ _ _ (counterAddr_ne_of_bookkeeping h i)

theorem spares_whenB {b : Bool} {f : State → State} (h : Spares i s (f s)) : Spares i s (whenB b f s) := by
  cases b
  · exact .refl i s
  · exact h

theorem spares_eachOf {α : Type} (l : List α) {f : State → α → State} (h : ∀ x a, Spares i x (f x a)) :
    Spares i s (eachOf l f s) :=
  eachOf_preserves (P := Spares i s) l (fun x a hx => hx.trans (h x a)) (.refl i s)

section

variable {j n : Nat} (hi : i < 312) (hlost : i ≠ C.EVT_LOST)

include hi hlost

theorem spares_countN (hj : j < 312) (hij : i ≠ j) : Spares i s (countN j n s) := reg_countN_counter i j n hi hj hlost hij

theorem spares_count (hj : j < 312) (hij : i ≠ j) : Spares i s (count j s) := spares_countN hi hlost hj hij

theorem spares_raise (c a : Nat) : Spares i s (raise c a s) := reg_raise_counter i c a hi hlost

end

/-- Counting asks only for the terminal's state. -/
theorem countsNow_of_term (h : t.term = s.term) : countsNow t = countsNow s := by
  unfold countsNow
  rw [h]

theorem countsNow_of_frmRuns (h : frmRuns s = true) : countsNow s = true :=
  countsNow_of_fromListening (Bool.and_eq_true_iff.mp h).1

end Sys2Proof.Proofs

end

/-! PROOF. Express words (spec/05_tick_frame.md R141, R142). -/

section

namespace Sys2Proof.Proofs

open Sys2Proof Sys2Proof.Machine Sys2Proof.Claims Sys2Proof.Laws

set_option Elab.async false

variable {s : State} {sd : Side} {w : RxWord}

/-- R142: the channel keeps the SEQ of the word it executed last, and when that was. -/
def expressKept (ch seq : Nat) (s : State) : State :=
  setFrame (fun f => { f with express := (SMap.del f.express ch).ins ch (seq, s.line) }) s

theorem find_expressKept (ch seq : Nat) : SMap.find (expressKept ch seq s).frame.express ch = some (seq, s.line) :=
  find_ins_same _ _ _ (find_del_same _ _)

/-- R356: what an express word does at the show ports is counted in EXPRESS_UNMAPPED alone. -/
theorem spares_expressShow {i : Nat} (ch v : Nat) (hi : i < 312) (hlost : i ≠ C.EVT_LOST) (hun : i ≠ C.EXPRESS_UNMAPPED) :
    Spares i s (expressShow ch v s) := by
  have hquiet : ∀ {x y}, Keeps (Reach.T.out ||| Reach.T.show_) x y → Spares i x y := fun h =>
    spares_of_keeps h ((by decide +kernel : ∀ j < 312, Reach.reg (Reach.T.out ||| Reach.T.show_) (counterAddr j) = false) _ hi)
  have hun' : ∀ (b : Bool), Spares i s (whenB b (count C.EXPRESS_UNMAPPED) s) := fun _ =>
    spares_whenB (spares_count hi hlost (by decide) hun)
  unfold expressShow
  dsimp only
  split
  · exact .refl i s
  · split
    · exact hun' _
    · refine (hun' _).trans (spares_eachOf _ fun x n => hquiet ?_)
      exact keeps_ite (fun _ => keeps_expressContact _ _ rfl (.refl _ x))
        fun _ => keeps_ite (fun _ => keeps_expressGo _ rfl (.refl _ x)) fun _ => .refl _ x

section

variable (hrun : frmRuns s = true) (hk : isK kExpress w = true) (hgood : badWord w = false) (hen : on F.SEL_CFG_EXPRESS_EN s = true)
  (hterm : s.term = .running) (htrk : tracking sd s = true)

include hrun hk hgood hen hterm htrk

/-- R141: an express word whose check fails. -/
theorem exec_expressWord_bad (hcrc : crc8 ((wordBytes w.data).drop 1 |>.take 3) ≠ wbyte w.data 4) :
    exec (.expressWord sd w (portDir sd)) s = .next (count C.EXPRESS_BAD s) :=
  congrArg Host.Outcome.next ((if_neg (by simp [hrun, hk, hgood, hen, hterm, htrk])).trans (if_pos (by simpa using hcrc)))

/-- R141, R142: an express word for this terminal whose check holds. -/
theorem exec_expressWord_good (hcrc : crc8 ((wordBytes w.data).drop 1 |>.take 3) = wbyte w.data 4)
    (hid : wbyte w.data 1 % 64 = 63 ∨ wbyte w.data 1 % 64 = termId s) :
    exec (.expressWord sd w (portDir sd)) s = .next
      (if !expressNew (wbyte w.data 2) (wbyte w.data 3 / 16) s then count C.EXPRESS_DUP s
       else expressShow (wbyte w.data 2) (wbyte w.data 3 % 16)
         (count C.EXPRESS_DONE (expressKept (wbyte w.data 2) (wbyte w.data 3 / 16) s))) :=
  congrArg Host.Outcome.next ((if_neg (by simp [hrun, hk, hgood, hen, hterm, htrk])).trans
    ((if_neg (by simpa using hcrc)).trans (if_neg (by rcases hid with h | h <;> simp [h]))))

theorem expressWord_bad (hcrc : crc8 ((wordBytes w.data).drop 1 |>.take 3) ≠ wbyte w.data 4) :
    ∃ t, exec (.expressWord sd w (portDir sd)) s = .next t ∧ t.frame = s.frame ∧ Tallied C.EXPRESS_BAD 1 s t :=
  ⟨_, exec_expressWord_bad hrun hk hgood hen hterm htrk hcrc, count_frame _ _,
    tallied_count (by decide) (by decide) (countsNow_of_frmRuns hrun)⟩

theorem expressWord_good (hcrc : crc8 ((wordBytes w.data).drop 1 |>.take 3) = wbyte w.data 4)
    (hid : wbyte w.data 1 % 64 = 63 ∨ wbyte w.data 1 % 64 = termId s) :
    ∃ t, exec (.expressWord sd w (portDir sd)) s = .next t ∧
      (expressNew (wbyte w.data 2) (wbyte w.data 3 / 16) s = true → Tallied C.EXPRESS_DONE 1 s t ∧
        SMap.find t.frame.express (wbyte w.data 2) = some (wbyte w.data 3 / 16, s.line)) ∧
      (expressNew (wbyte w.data 2) (wbyte w.data 3 / 16) s = false →
        t.frame = s.frame ∧ t.show_ = s.show_ ∧ Tallied C.EXPRESS_DUP 1 s t) := by
  have hc := countsNow_of_frmRuns hrun
  refine ⟨_, exec_expressWord_good hrun hk hgood hen hterm htrk hcrc hid, fun hnew => ?_, fun hold => ?_⟩
  · have hshow : ∀ x, Keeps (T.counting ||| Reach.T.out ||| Reach.T.show_) x
        (expressShow (wbyte w.data 2) (wbyte w.data 3 % 16) x) := fun x => keeps_expressShow _ _ rfl (.refl _ x)
    have hdone : Tallied C.EXPRESS_DONE 1 s (count C.EXPRESS_DONE (expressKept (wbyte w.data 2) (wbyte w.data 3 / 16) s)) :=
      Spares.tallied (.refl _ _) (tallied_count (by decide) (by decide) hc)
    rw [hnew]
    refine ⟨tallied_spared hdone (spares_expressShow _ _ (by decide) (by decide) (by decide)), ?_⟩
    refine (congrArg (fun f => SMap.find f.express (wbyte w.data 2)) ((hshow _).rest.frame rfl)).trans ?_
    rw [count_frame, find_expressKept]
  · rw [hold]
    exact ⟨count_frame _ _, count_show_ _ _, tallied_count (by decide) (by decide) hc⟩

end

/-- R142: 6 ticks after it was executed, the channel's SEQ is forgotten. -/
theorem channelLastExpiry_forgets {ch : BitVec 8} {q x : Nat} (hfind : SMap.find s.frame.express ch.toNat = some (q, x))
    (hold : 6 ≤ tickDiff s.line x) :
    ∃ t, exec (.channelLastExpiry ch) s = .next t ∧ t.frame.express = SMap.del s.frame.express ch.toNat := by
  have hexec : exec (.channelLastExpiry ch) s =
      .next (setFrame (fun f => { f with express := SMap.del f.express ch.toNat }) s) := by
    show execChannelLastExpiry ch s = _
    simp only [execChannelLastExpiry, hfind, hold, if_true]
    rfl
  exact ⟨_, hexec, rfl⟩

/-- Settles O25. -/
theorem expressWordActsOnce : Obligations.ExpressWordActsOnce :=
  ⟨fun _ _ _ hrun hk hgood hen hterm htrk _ =>
      ⟨expressWord_good hrun hk hgood hen hterm htrk, expressWord_bad hrun hk hgood hen hterm htrk⟩,
    fun _ _ _ _ => channelLastExpiry_forgets⟩

end Sys2Proof.Proofs

end

/-! PROOF. The grant map: the windows it gives and the entries it refuses (spec/08_upstream_windows.md R194, R195;
spec/05_tick_frame.md R128). -/

section

namespace Sys2Proof.Proofs

open Sys2Proof Sys2Proof.Machine Sys2Proof.Claims Sys2Proof.Laws

set_option Elab.async false

variable {s : State} {e : Word} {f : FrameId}

/-! ### The cores that start after it -/

theorem reg_startCores (off : Nat) : reg off (startCores s) = reg off s := by
  have hcore : ∀ x c, reg off (startCore x c) = reg off x := fun x c => by
    unfold startCore
    split
    · rfl
    · split <;> rfl
  unfold startCores
  split
  · exact eachOf_preserves (P := fun x => reg off x = reg off s) _ (fun x c hx => (hcore x c).trans hx) rfl
  · rfl

theorem keeps_startCores_self : Keeps Reach.T.key s (startCores s) := keeps_startCores rfl (.refl _ s)

/-! ### An entry that bears the terminal's ID (R194) -/

/-- The terminal has been granted to. -/
def grantedNow (s : State) : State := setRegn (fun x => { x with granted := true }) (wr F.REG_STATUS_GRANT_IDLE 0 s)

theorem termId_grantedNow : termId (grantedNow s) = termId s :=
  (rd_setRegn F.REG_STATUS_TERM_ID _ _).trans (rd_wr_other _ _ _ _ (by decide) (by decide))

theorem spares_grantedNow (i : Nat) : Spares i s (grantedNow s) := spares_wr (by decide)

/-- The window of frame `f` that an entry describes. -/
def entryWin (f : FrameId) (e : Word) : Win :=
  { frame := f, id := gTid e, mask := gMask e, start := gStart e, foot := gFoot e, tag := gTag e, cls := gClass e }

/-- What accepting an entry reaches, the cores included. -/
def acceptReach : Nat := T.counting ||| Reach.T.win ||| Reach.T.key ||| Reach.T.WIN_LAST_GRANT

theorem keeps_accepted (t : Nat) (e : Word) : Keeps acceptReach s (startCores (acceptEntry t e s)) :=
  keeps_startCores rfl (keeps_acceptEntry t e rfl (.refl _ s))

section

variable {t : Nat}

theorem acceptEntry_overlap (h : (frameWins (frameOf t) s).any (overlaps (gStart e) (gFoot e)) = true) :
    acceptEntry t e s = count C.GRANT_OVERLAP s := if_pos h

theorem acceptEntry_excess (h : (frameWins (frameOf t) s).any (overlaps (gStart e) (gFoot e)) = false)
    (hlen : 2 ≤ (frameWins (frameOf t) s).length) : acceptEntry t e s = count C.GRANT_EXCESS s :=
  (if_neg (by simp [h])).trans (if_pos hlen)

theorem acceptEntry_window (h : (frameWins (frameOf t) s).any (overlaps (gStart e) (gFoot e)) = false)
    (hlen : (frameWins (frameOf t) s).length < 2) : acceptEntry t e s = addUpJob (entryWin (frameOf t) e) t
      (setReg R.WIN_LAST_GRANT e (setWin (fun x => { x with wins := x.wins ++ [entryWin (frameOf t) e] }) s)) :=
  (if_neg (by simp [h])).trans (if_neg (Nat.not_le.mpr hlen))

end

/-- R195: an entry that is refused is counted, and no window comes of it. -/
theorem refused_counted {i : Nat} {x : State} (hi : i < 312) (hlost : i ≠ C.EVT_LOST) (hc : countsNow s = true)
    (hterm : x.term = s.term) (hwin : x.win = s.win) (hx : Spares i s x) :
    (startCores (count i x)).win = s.win ∧ Tallied i 1 s (startCores (count i x)) :=
  ⟨((keeps_startCores_self.rest.win rfl).trans (count_win i x)).trans hwin,
    tallied_spared (hx.tallied (tallied_count hi hlost ((countsNow_of_term hterm).trans hc))) (reg_startCores _)⟩

/-- R194: a window that is accepted waits, and its entry stands in WIN_LAST_GRANT. -/
theorem window_granted {t : Nat} (h : (frameWins (frameOf t) s).any (overlaps (gStart e) (gFoot e)) = false)
    (hlen : (frameWins (frameOf t) s).length < 2) : reg R.WIN_LAST_GRANT (startCores (acceptEntry t e s)) = e ∧
      entryWin (frameOf t) e ∈ (startCores (acceptEntry t e s)).win.wins := by
  rw [acceptEntry_window h hlen]
  have hjob : ∀ x, Keeps Reach.T.key x (startCores (addUpJob (entryWin (frameOf t) e) t x)) := fun x =>
    keeps_startCores rfl (keeps_addUpJob _ _ rfl (.refl _ x))
  refine ⟨((hjob _).rest.regs _ (by decide +kernel)).trans (reg_setReg_same _ _ _), ?_⟩
  rw [(hjob _).rest.win rfl]
  exact List.mem_append_right _ List.mem_cons_self

/-! ### The map (R128) -/

section

variable (hrow : s.frame.row0Frame = some f) (hrun : frmRuns s = true)

include hrow

/-- R128: an entry of zeros is skipped. -/
theorem grantMap_skips : ∃ t, exec (.grantMap [0]) s = .next t ∧ t.win = s.win ∧ ∀ off, reg off t = reg off s := by
  have hexec : exec (.grantMap [0]) s = .next
      (if !frmRuns s || s.term == .listening || (rowRec f 0 s).any (fun r => r.he == some 0) then s else startCores s) := by
    show execGrantMap [0] s = _
    simp only [execGrantMap, hrow]
    rfl
  refine ⟨_, hexec, ?_⟩
  split
  · exact ⟨rfl, fun _ => rfl⟩
  · exact ⟨keeps_startCores_self.rest.win rfl, fun off => reg_startCores off⟩

include hrun

theorem exec_grantMap_entry (hterm : s.term ≠ .listening) (hstart : (rowRec f 0 s).any (fun r => r.he == some 0) = false) :
    exec (.grantMap [e]) s = .next (startCores (grantEntry f s e)) := by
  show execGrantMap [e] s = _
  simp only [execGrantMap, hrow, hrun, hstart, beq_false_of_ne hterm]
  rfl

/-- R195: an entry for TID 0 or 63, and one for the terminal that breaks a rule. -/
theorem grantMap_malformed (hterm : s.term ≠ .listening) (hstart : (rowRec f 0 s).any (fun r => r.he == some 0) = false)
    (he : e ≠ 0) (hbad : gTid e = 0 ∨ gTid e = 63 ∨ (gTid e = s.frame.row0Id ∧ grantBad e = true)) :
    ∃ t, exec (.grantMap [e]) s = .next t ∧ t.win = s.win ∧ Tallied C.GRANT_MALFORMED 1 s t := by
  have hc := countsNow_of_frmRuns hrun
  have hentry : grantEntry f s e = count C.GRANT_MALFORMED s ∨
      grantEntry f s e = count C.GRANT_MALFORMED (whenB (gTid e == termId s) grantedNow s) := by
    by_cases hnone : (gTid e == 0 || gTid e == 63) = true
    · exact .inl ((if_neg (by simpa using he)).trans (if_pos hnone))
    · obtain ⟨hid, hrule⟩ : gTid e = s.frame.row0Id ∧ grantBad e = true := by
        rcases hbad with h | h | h
        · simp [h] at hnone
        · simp [h] at hnone
        · exact h
      exact .inr ((if_neg (by simpa using he)).trans ((if_neg hnone).trans ((if_neg (by simp [hid])).trans (if_pos hrule))))
  refine ⟨_, exec_grantMap_entry hrow hrun hterm hstart, ?_⟩
  rcases hentry with h | h <;> rw [h]
  · exact refused_counted (by decide) (by decide) hc rfl rfl (.refl _ s)
  · refine refused_counted (by decide) (by decide) hc ?_ ?_ (spares_whenB (spares_grantedNow _)) <;>
      cases gTid e == termId s <;> rfl

end

/-- R207: the terminal may write, and the head end is not starting. -/
theorem grantWrites_grantedNow (hstart : (rowRec f 0 s).any (fun r => r.he == some 0) = false) (hend : s.byp.ending = none)
    (hterm : s.term ∈ [TermState.admitted, .claiming, .ranging, .running]) : grantWrites f (grantedNow s) = true := by
  have hrec : (rowRec f 0 s).all (fun r => r.he != some 0) = true := by
    cases hr : rowRec f 0 s with
    | none => rfl
    | some r => simpa [hr] using hstart
  have hstate : (s.term == .admitted || s.term == .claiming || s.term == .ranging || s.term == .running) = true := by
    simpa [or_assoc] using hterm
  show ((s.term == .admitted || s.term == .claiming || s.term == .ranging || s.term == .running) && s.byp.ending.isNone &&
    (rowRec f 0 s).all (fun r => r.he != some 0)) = true
  rw [hstate, hend, hrec]
  rfl

theorem grantEntry_accepts (hid : gTid e = s.frame.row0Id) (hmine : gTid e = termId s) (h0 : gTid e ≠ 0) (h63 : gTid e ≠ 63)
    (hgood : grantBad e = false) (hwrites : grantWrites f (grantedNow s) = true) :
    grantEntry f s e = acceptEntry (tickAdd (absTick f s) 1) e (grantedNow s) := by
  have he : e ≠ 0 := fun h => h0 (by rw [h]; rfl)
  have hown : whenB (gTid e == termId s) grantedNow s = grantedNow s := by rw [hmine, beq_self_eq_true]; rfl
  have hgo : (grantWrites f (grantedNow s) && gTid e == termId (grantedNow s)) = true := by
    rw [hwrites, termId_grantedNow, hmine, beq_self_eq_true]
    rfl
  refine (if_neg (by simpa using he)).trans ((if_neg (by simp [h0, h63])).trans ((if_neg (by simp [hid])).trans
    ((if_neg (by simp [hgood])).trans ?_)))
  show (if grantWrites f (whenB (gTid e == termId s) grantedNow s) && gTid e == termId (whenB (gTid e == termId s) grantedNow s) then
    acceptEntry (tickAdd (absTick f (whenB (gTid e == termId s) grantedNow s)) 1) e (whenB (gTid e == termId s) grantedNow s)
    else whenB (gTid e == termId s) grantedNow s) = _
  rw [hown, if_pos hgo]
  rfl

/-- R128, R194, R195: an entry that bears the terminal's ID and breaks no rule. -/
theorem grantMap_grants (hrow : s.frame.row0Frame = some f) (hrun : frmRuns s = true) (hterm : s.term ≠ .listening)
    (hstart : (rowRec f 0 s).any (fun r => r.he == some 0) = false) (hid : gTid e = s.frame.row0Id) (hmine : gTid e = termId s)
    (h0 : gTid e ≠ 0) (h63 : gTid e ≠ 63) (hgood : grantBad e = false) (hend : s.byp.ending = none)
    (hstate : s.term ∈ [TermState.admitted, .claiming, .ranging, .running]) :
    ∃ t, exec (.grantMap [e]) s = .next t ∧ t.regn.granted = true ∧ rd F.REG_STATUS_GRANT_IDLE t = 0 ∧
      ((frameWins (frameOf (tickAdd (absTick f s) 1)) s).any (overlaps (gStart e) (gFoot e)) = true →
        t.win = s.win ∧ Tallied C.GRANT_OVERLAP 1 s t) ∧
      ((frameWins (frameOf (tickAdd (absTick f s) 1)) s).any (overlaps (gStart e) (gFoot e)) = false →
        2 ≤ (frameWins (frameOf (tickAdd (absTick f s) 1)) s).length → t.win = s.win ∧ Tallied C.GRANT_EXCESS 1 s t) ∧
      ((frameWins (frameOf (tickAdd (absTick f s) 1)) s).any (overlaps (gStart e) (gFoot e)) = false →
        (frameWins (frameOf (tickAdd (absTick f s) 1)) s).length < 2 → reg R.WIN_LAST_GRANT t = e ∧
        entryWin (frameOf (tickAdd (absTick f s) 1)) e ∈ t.win.wins) := by
  have hc := countsNow_of_frmRuns hrun
  have hk := keeps_accepted (s := grantedNow s) (tickAdd (absTick f s) 1) e
  have hentry := grantEntry_accepts hid hmine h0 h63 hgood (grantWrites_grantedNow hstart hend hstate)
  refine ⟨_, (exec_grantMap_entry hrow hrun hterm hstart).trans (congrArg (fun x => Host.Outcome.next (startCores x)) hentry),
    ?_, ?_, fun hover => ?_, fun hfree hfull => ?_, fun hfree hroom => window_granted hfree hroom⟩
  · rw [hk.rest.regn rfl]
    rfl
  · rw [hk.rd _ (by decide +kernel), grantedNow, rd_setRegn]
    exact rd_wr_fits (by decide) (by decide)
  · rw [acceptEntry_overlap (s := grantedNow s) hover]
    exact refused_counted (by decide) (by decide) hc rfl rfl (spares_grantedNow _)
  · rw [acceptEntry_excess (s := grantedNow s) hfree hfull]
    exact refused_counted (by decide) (by decide) hc rfl rfl (spares_grantedNow _)

end Sys2Proof.Proofs

end

/-! PROOF. Upstream bursts: their lock, their way into the copies, and the end of their buffers
(spec/08_upstream_windows.md R201-R207). -/

section

namespace Sys2Proof.Proofs

open Sys2Proof Sys2Proof.Machine Sys2Proof.Claims Sys2Proof.Laws

set_option Elab.async false

variable {s : State} {sd : Side} {w : Win} {b : Burst} {k : Nat}

/-! ### Buffers -/

theorem getD_setAt {α : Type} {l : List α} {k : Nat} {v d : α} (h : k < l.length) : (setAt l k v).getD k d = v := by
  unfold setAt
  simp [h]

theorem lt_of_getD {α : Type} {l : List (Option α)} {k : Nat} {v : α} (h : l.getD k none = some v) : k < l.length := by
  by_contra hge
  rw [List.getD_eq_default _ _ (Nat.le_of_not_lt hge)] at h
  cases h

theorem freeBuf_lt {lo hi : Nat} (h : freeBuf lo hi s = some k) : k < hi := by
  have hmem := List.mem_of_find?_eq_some h
  simp only [List.mem_map, List.mem_range] at hmem
  omega

/-! ### What a lock takes (R201, R202) -/

/-- The windows that wait, and the bursts that are held. -/
def windowsHeld (s : State) : List Win × List (Option Burst) := (s.win.wins, s.win.bufs)

theorem windowsHeld_of_win {t : State} (h : t.win = s.win) : windowsHeld t = windowsHeld s := by
  unfold windowsHeld
  rw [h]

theorem windowsHeld_of_keeps {A : Nat} {t : State} (h : Keeps A s t) (hA : A.testBit 12 = false) : windowsHeld t = windowsHeld s :=
  windowsHeld_of_win (h.rest.win hA)

theorem windowsHeld_takeItems (late : List Nat) (room : Nat) : windowsHeld (takeItems w late room s).2 = windowsHeld s :=
  windowsHeld_of_keeps (keeps_takeItems (A := T.counting ||| Reach.T.GRAN_STATUS ||| Reach.T.q) w late room rfl (.refl _ s)) rfl

theorem windowsHeld_sealBurst (tid start tick : Nat) (items : List Word) :
    windowsHeld (sealBurst tid start tick items s).2 = windowsHeld s :=
  windowsHeld_of_keeps (keeps_sealBurst (A := T.counting ||| Reach.T.key) tid start tick items rfl (.refl _ s)) rfl

/-- R202: what a window's lock takes, and what it finds late, leave the windows and the bursts as they are. -/
theorem windowsHeld_assemble (room : Nat) (late : List Nat) : windowsHeld (assemble w room late s).2 = windowsHeld s := by
  have hsent : ∀ ns x, windowsHeld (notesSent ns x) = windowsHeld x := fun ns x =>
    windowsHeld_of_keeps (keeps_notesSent (A := 0xf00) ns rfl (.refl _ x)) rfl
  have hcount : ∀ i x, windowsHeld (count i x) = windowsHeld x := fun i x => windowsHeld_of_win (count_win i x)
  unfold assemble
  dsimp only
  split
  · rfl
  · split
    · split
      · rfl
      · exact (hsent _ _).trans rfl
    · split
      · split
        · exact (hcount _ _).trans rfl
        · split
          · rfl
          · split
            · next h => exact (congrArg (fun p => windowsHeld p.2) h).symm.trans (windowsHeld_takeItems _ _)
            · next h =>
              refine (windowsHeld_sealBurst _ _ _ _).trans ?_
              exact (congrArg (fun p => windowsHeld p.2) h).symm.trans (windowsHeld_takeItems _ _)
      · split
        · next h => exact (congrArg (fun p => windowsHeld p.2) h).symm.trans (windowsHeld_takeItems _ _)
        · next h => exact (congrArg (fun p => windowsHeld p.2) h).symm.trans (windowsHeld_takeItems _ _)

theorem windowsHeld_endJob (up : Bool) (tag obj : Nat) : windowsHeld (endJob up tag obj s) = windowsHeld s :=
  windowsHeld_of_keeps (keeps_endJob (A := Reach.T.key) up tag obj rfl (.refl _ s)) rfl

/-- R201, R204: a window that finds a free buffer locks some burst into it. -/
theorem lockWindow_puts (late : List Nat) (hfree : freeBuf 0 8 s = some k) : ∃ x ws,
    windowsHeld x = (s.win.wins.erase w, s.win.bufs) ∧ lockWindow w late s = putBurst k w ws x := by
  have hfree' : freeBuf 0 8 (setWin (fun x => { x with wins := x.wins.erase w }) s) = some k := hfree
  unfold lockWindow
  dsimp only
  rw [hfree']
  dsimp only
  split
  · exact ⟨_, _, rfl, rfl⟩
  · have hend := (windowsHeld_endJob (s := (assemble w (w.foot - 5) late (setWin (fun x => { x with wins := x.wins.erase w }) s)).2)
      true (absTick w.frame (assemble w (w.foot - 5) late (setWin (fun x => { x with wins := x.wins.erase w }) s)).2) w.start).trans
      (windowsHeld_assemble (s := setWin (fun x => { x with wins := x.wins.erase w }) s) (w.foot - 5) late)
    split
    · exact ⟨_, _, (windowsHeld_of_win (count_win _ _)).trans hend, rfl⟩
    · exact ⟨_, _, hend, rfl⟩

theorem putBurst_end (ws : List Word) (h : k < s.win.bufs.length) : ∃ x, (putBurst k w ws s).win.bufs.getD k none = some x ∧
    x.win = w ∧ x.wrote = false ∧ (putBurst k w ws s).win.wins = s.win.wins := by
  have hbufs : (putBurst k w ws s).win.bufs =
      setAt s.win.bufs k (some { win := w, words := ws, toW := toWest w, toE := toEast w s, since := s.line }) := if_pos h
  rw [hbufs, getD_setAt h]
  exact ⟨_, rfl, rfl, rfl, rfl⟩

theorem burstLock_locks {l : List Nat} (hnext : nextWin s = some w) (hfree : freeBuf 0 8 s = some k) (hlen : 8 ≤ s.win.bufs.length) :
    ∃ t x, exec (.burstLock l) s = .next t ∧ t.win.bufs.getD k none = some x ∧ x.win = w ∧ x.wrote = false ∧
      t.win.wins = s.win.wins.erase w := by
  obtain ⟨u, ws, hheld, hlock⟩ := lockWindow_puts (w := w) l hfree
  obtain ⟨hwins, hbufs⟩ := Prod.mk.inj hheld
  have hk : k < u.win.bufs.length := by
    rw [hbufs]
    exact Nat.lt_of_lt_of_le (freeBuf_lt hfree) hlen
  obtain ⟨x, hx, hwin, hwrote, hrest⟩ := putBurst_end (s := u) (w := w) ws hk
  have hexec : exec (.burstLock l) s = .next (putBurst k w ws u) := by
    rw [← hlock]
    show execBurstLock l s = _
    simp only [execBurstLock, hnext]
    rfl
  exact ⟨_, x, hexec, hx, hwin, hwrote, hrest.trans hwins⟩

/-! ### A burst and the copies it waits on (R205-R207) -/

theorem waitsOn_stopOn : waitsOn sd (stopOn sd b) = false := by cases sd <;> rfl

theorem wrote_stopOn : (stopOn sd b).wrote = b.wrote := by cases sd <;> rfl

theorem wrote_passing : (passing b s).wrote = b.wrote := by unfold passing; split <;> rfl

theorem win_passing : (passing b s).win = b.win := by unfold passing; split <;> rfl

theorem words_passing : (passing b s).words = b.words := by unfold passing; split <;> rfl

theorem mayWrite_passing : mayWrite (passing b s) s = mayWrite b s := by unfold mayWrite; rw [win_passing]

theorem footprint_passing : footprint (passing b s) = footprint b := by unfold footprint; rw [win_passing, words_passing]

/-- R205: the burst waits on a copy no longer; nothing is written. -/
def burstPassed (sd : Side) (k : Nat) (b : Burst) (s : State) : State :=
  setWin (fun x => { x with bufs := setAt x.bufs k (some (stopOn sd b)) }) s

section

variable (hbuf : s.win.bufs.getD k none = some b) (hwait : waitsOn sd b = true) (htrk : tracking sd s = true)
  (hframe : trkFrame sd s = b.win.frame)

include hbuf hwait htrk hframe

theorem exec_windowWrite (d : Option Bool) (rx : List RxWord) : exec (.windowWrite sd k d rx) s = .next
    (if !copyTakes sd d s then burstPassed sd k (passing b s) s
     else if mayWrite (passing b s) s then writeBurst sd k (passing b s) rx s
     else burstPassed sd k { passing b s with refused := true } s) := by
  have hhere : (!waitsOn sd b || (tracking sd s && trkFrame sd s != b.win.frame)) = false := by
    rw [hwait, htrk, hframe]
    simp
  show execWindowWrite sd k d rx s = _
  simp only [execWindowWrite, hbuf, hhere]
  rfl

/-- A copy that does not meet the conditions is passed over. -/
theorem windowWrite_passes (d : Option Bool) (rx : List RxWord) (h : on (fFILLING sd) s = true ∨ d ≠ some (portDir sd)) :
    ∃ t x, exec (.windowWrite sd k d rx) s = .next t ∧ t.win.bufs.getD k none = some x ∧ x.wrote = b.wrote ∧
      waitsOn sd x = false ∧ t.out = s.out := by
  have hcopy : copyTakes sd d s = false := by
    unfold copyTakes
    rcases h with h | h
    · simp [h]
    · simp [h]
  refine ⟨_, stopOn sd (passing b s), exec_windowWrite hbuf hwait htrk hframe d rx, ?_, wrote_stopOn.trans wrote_passing,
    waitsOn_stopOn, ?_⟩ <;> rw [hcopy]
  · exact getD_setAt (lt_of_getD hbuf)
  · rfl

end

/-- What is counted of a write, the CLAIM it carries, and the window that stays open where the words stop. -/
def writeTold (sd : Side) (b : Burst) (rx : List RxWord) (s : State) : State :=
  s |> countN C.WIN_WORD_LOST ((rx.take (footprint b).length).filter isErr).length
    |> whenB ((rx.take (footprint b).length).any (fun w => !isErr w && (w.k || w.data != 0)) && !b.notClear) (count C.WIN_RX_NOT_CLEAR)
    |> whenB (isClaim b && !b.wrote) claimWritten
    |> setOpen sd (if decide (rx.length < (footprint b).length) then some b.win else none)

theorem writeTold_quiet (rx : List RxWord) : (writeTold sd b rx s).win.bufs = s.win.bufs ∧ (writeTold sd b rx s).out = s.out := by
  have hopen : ∀ o x, (setOpen sd o x).win.bufs = x.win.bufs ∧ (setOpen sd o x).out = x.out := fun o x => by
    unfold setOpen
    split <;> exact ⟨rfl, rfl⟩
  have hclaim : ∀ (c : Bool) x, (whenB c claimWritten x).win = x.win ∧ (whenB c claimWritten x).out = x.out := fun c x => by
    cases c
    · exact ⟨rfl, rfl⟩
    · exact ⟨count_win _ _, count_out _ _⟩
  have hcount : ∀ (c : Bool) i x, (whenB c (count i) x).win = x.win ∧ (whenB c (count i) x).out = x.out := fun c i x => by
    cases c
    · exact ⟨rfl, rfl⟩
    · exact ⟨count_win _ _, count_out _ _⟩
  unfold writeTold
  rw [(hopen _ _).1, (hopen _ _).2, (hclaim _ _).1, (hclaim _ _).2, (hcount _ _ _).1, (hcount _ _ _).2, countN_win, countN_out]
  exact ⟨rfl, rfl⟩

/-- What the write lays over its row (R206, R210). -/
def overOf (sd : Side) (b : Burst) (rx : List RxWord) (s : State) : Over :=
  { side := sd, row := b.win.start / 130, at_ := b.win.start % 130, words := List.zipWith (overWord s) rx (footprint b),
    delta := rowDelta b.win.start (List.zipWith overDelta rx (footprint b)).flatten }

/-- The burst once it is written on a copy. -/
def burstWritten (sd : Side) (b : Burst) (rx : List RxWord) : Burst :=
  { stopOn sd b with wrote := true, notClear := b.notClear ||
      (rx.take (footprint b).length).any (fun w => !isErr w && (w.k || w.data != 0)) }

theorem writeBurst_eq (rx : List RxWord) : writeBurst sd k b rx s =
    emit (.burstOut sd b.win.start (List.zipWith (overWord s) rx (footprint b)))
      (setWin (fun x => { x with puts := x.puts ++ [overOf sd b rx s], bufs := setAt x.bufs k (some (burstWritten sd b rx)) })
        (writeTold sd b rx s)) := rfl

theorem waitsOn_burstWritten (rx : List RxWord) : waitsOn sd (burstWritten sd b rx) = false := by cases sd <;> rfl

/-- R205-R207: a burst that waits on a copy that meets the conditions is written into it. -/
theorem windowWrite_writes (rx : List RxWord) (hbuf : s.win.bufs.getD k none = some b) (hwait : waitsOn sd b = true)
    (htrk : tracking sd s = true) (hframe : trkFrame sd s = b.win.frame) (hfill : on (fFILLING sd) s = false)
    (hmay : mayWrite b s = true) :
    ∃ t x p, exec (.windowWrite sd k (some (portDir sd)) rx) s = .next t ∧ t.win.bufs.getD k none = some x ∧ x.wrote = true ∧
      waitsOn sd x = false ∧ t.out = .burstOut sd b.win.start (List.zipWith (overWord s) rx (footprint b)) :: s.out ∧
      p ∈ t.win.puts ∧ p.side = sd ∧ p.row = b.win.start / 130 ∧ p.at_ = b.win.start % 130 ∧
      p.words = List.zipWith (overWord s) rx (footprint b) := by
  have hcopy : copyTakes sd (some (portDir sd)) s = true := by simp [copyTakes, htrk, hfill]
  have hexec : exec (.windowWrite sd k (some (portDir sd)) rx) s = .next (writeBurst sd k (passing b s) rx s) := by
    rw [exec_windowWrite hbuf hwait htrk hframe, hcopy, mayWrite_passing, hmay]
    rfl
  obtain ⟨hbufs, hout⟩ := writeTold_quiet (sd := sd) (b := passing b s) (s := s) rx
  have hk : k < (writeTold sd (passing b s) rx s).win.bufs.length := hbufs ▸ lt_of_getD hbuf
  refine ⟨_, burstWritten sd (passing b s) rx, overOf sd (passing b s) rx s, hexec.trans (congrArg _ (writeBurst_eq rx)),
    getD_setAt hk, rfl, waitsOn_burstWritten rx, ?_, List.mem_append_right _ List.mem_cons_self, rfl, ?_, ?_, ?_⟩
  · rw [emit, setWin_out, hout, win_passing, footprint_passing]
  · rw [overOf, win_passing]
  · rw [overOf, win_passing]
  · rw [overOf, footprint_passing]

/-! ### The end of a buffer (R203, R205) -/

theorem exec_burstBufferRelease (hbuf : s.win.bufs.getD k none = some b) : exec (.burstBufferRelease k) s = .next
    (if stillWaits b s && !burstOver b s then s
     else whenB (!b.wrote && !b.refused && !stillWaits b s) (count C.WIN_WITHHELD)
       (setWin (fun x => { x with bufs := setAt x.bufs k none }) s)) := by
  show execBurstBufferRelease k s = _
  simp only [execBurstBufferRelease, hbuf]
  rfl

theorem burstBuffer_freed (hbuf : s.win.bufs.getD k none = some b) (hover : stillWaits b s = false ∨ 3 ≤ tickDiff s.line b.since) :
    ∃ t, exec (.burstBufferRelease k) s = .next t ∧ t.win.bufs.getD k none = none ∧
      (b.wrote = false → b.refused = false → stillWaits b s = false → countsNow s = true → Tallied C.WIN_WITHHELD 1 s t) := by
  have hgo : (stillWaits b s && !burstOver b s) = false := by
    unfold burstOver
    rcases hover with h | h <;> simp [h]
  refine ⟨_, (exec_burstBufferRelease hbuf).trans (congrArg _ (if_neg (by simp [hgo]))), ?_, fun hwrote hrefused hwait hc => ?_⟩
  · have hwin : ∀ (c : Bool) x, (whenB c (count C.WIN_WITHHELD) x).win = x.win := fun c x => by
      cases c
      · rfl
      · exact count_win _ _
    rw [hwin]
    exact getD_setAt (lt_of_getD hbuf)
  · rw [hwrote, hrefused, hwait]
    exact Spares.tallied (.refl _ _) (tallied_count (by decide) (by decide) hc)

theorem burstBuffer_stands (hbuf : s.win.bufs.getD k none = some b) (hwait : stillWaits b s = true)
    (hin : tickDiff s.line b.since < 3) : exec (.burstBufferRelease k) s = .next s :=
  (exec_burstBufferRelease hbuf).trans (congrArg _ (if_pos (by simp [burstOver, hwait, hin])))

/-- Settles O26. -/
theorem windowsAreGrantedAndWritten : Obligations.WindowsAreGrantedAndWritten :=
  ⟨fun _ _ _ hrow hrun hterm hstart hid hmine h0 h63 hgood hend hstate =>
      grantMap_grants hrow hrun hterm hstart hid hmine h0 h63 hgood hend hstate,
    fun _ _ _ hrow hrun hterm hstart he hbad => grantMap_malformed hrow hrun hterm hstart he hbad,
    fun _ _ hrow _ => grantMap_skips hrow,
    fun _ _ _ _ => burstLock_locks,
    fun _ _ _ rx _ hbuf hwait htrk hframe => ⟨windowWrite_writes rx hbuf hwait htrk hframe,
      fun d => windowWrite_passes hbuf hwait htrk hframe d rx⟩,
    fun _ _ _ hbuf => ⟨burstBuffer_freed hbuf, burstBuffer_stands hbuf⟩⟩

end Sys2Proof.Proofs

end

/-! PROOF. The image carousel: its slot, the pieces that are kept and those that are programmed
(spec/05_tick_frame.md R130; spec/19_gleaning_firmware_settings.md R432-R437). -/

section

namespace Sys2Proof.Proofs

open Sys2Proof Sys2Proof.Machine Sys2Proof.Claims Sys2Proof.Laws

set_option Elab.async false

variable {s u : State} {ws : List Word}

/-! ### A change of image state (R443) -/

theorem joined_queueUp (type : Nat) (body : List Byte) : Joined 1 s (queueUp type body s) := by
  have hpush : ∀ n x, Joined 1 x (upPush n x) := fun n x => by
    unfold upPush
    dsimp only
    split
    · exact (Joined.of_events rfl).mono (by decide)
    · exact (Joined.of_events (t := setNote _ x) rfl).trans (joined_count _)
  unfold queueUp
  exact Laws.Joined.trans (n := 0) (.of_events rfl) (hpush _ (setNote _ s))

theorem joined_setImageState (st : Nat) : Joined 2 s (setImageState st s) := by
  unfold setImageState
  split
  · exact (Joined.of_events rfl).mono (by decide)
  · have htold : Joined 1 s (raise E.IMAGE_STATE st (wr F.GLEAN_STATUS_STATE st s)) :=
      (Joined.of_events (t := wr F.GLEAN_STATUS_STATE st s) rfl).trans (joined_raise _ _)
    exact htold.trans (joined_queueUp _ _)

/-- What a change of IMAGE_STATE reaches. -/
def imageStateReach : Nat := T.counting ||| Reach.T.GLEAN_STATUS ||| Reach.T.note

theorem glean_setImageState (st : Nat) : (setImageState st s).glean = s.glean :=
  (keeps_setImageState (A := imageStateReach) st rfl (.refl _ s)).rest.glean rfl

/-- A counter that neither an event nor a full note queue touches. -/
structure Apart (i : Nat) : Prop where
  lt : i < 312
  evtLost : i ≠ C.EVT_LOST
  upDropped : i ≠ C.NOTE_UP_DROPPED

theorem spares_queueUp {i : Nat} (hi : Apart i) (type : Nat) (body : List Byte) : Spares i s (queueUp type body s) := by
  have hpush : ∀ n x, Spares i x (upPush n x) := fun n x => by
    unfold upPush
    dsimp only
    split
    · exact .refl i x
    · exact Spares.trans (t := setNote _ x) (.refl i x) (spares_count hi.lt hi.evtLost (by decide) hi.upDropped)
  unfold queueUp
  exact hpush _ (setNote _ s)

theorem spares_setImageState {i : Nat} (hi : Apart i) (st : Nat) : Spares i s (setImageState st s) := by
  unfold setImageState
  split
  · exact .refl i s
  · have htold : Spares i s (raise E.IMAGE_STATE st (wr F.GLEAN_STATUS_STATE st s)) :=
      (spares_wr (by decide)).trans (spares_raise hi.lt hi.evtLost _ _)
    exact htold.trans (spares_queueUp hi _ _)

/-! ### A collection that starts (R435) -/

/-- The bitmap's header and the collection's registers, before the restart is told. -/
def collectionBegun (car pieces : Nat) (s : State) : State :=
  flashProgAll fBITMAP (bitmapMagic ++ [BitVec.ofNat 8 car] ++ bytesBE 3 pieces) (flashErase fBITMAP s)
    |> setGlean (fun g => { g with buf := [], hostNext := none, verifyDue := false })
    |> wr F.GLEAN_STATUS_CAR_ID car |> wr F.GLEAN_STATUS_PIECES 0 |> wr F.GLEAN_STATUS_HOST 0 |> wr F.IMAGE_STAGED_VERSION 0

theorem startCollection_eq (car pieces cause : Nat) : startCollection car pieces cause s = setImageState iCOLLECTING
    (raise E.GLEAN_RESTART cause (count C.GLEAN_RESTART (collectionBegun car pieces s))) := rfl

/-- What the begin of a collection reaches before it is told. -/
def begunReach : Nat := Reach.T.flash ||| Reach.T.glean ||| Reach.T.GLEAN_STATUS ||| Reach.T.IMAGE_STAGED

theorem keeps_collectionBegun (car pieces : Nat) : Keeps begunReach s (collectionBegun car pieces s) :=
  keeps_wr _ _ (cov_IMAGE_STAGED _ rfl rfl) (keeps_wr _ _ (cov_GLEAN_STATUS _ rfl rfl) (keeps_wr _ _ (cov_GLEAN_STATUS _ rfl rfl)
    (keeps_wr _ _ (cov_GLEAN_STATUS _ rfl rfl) (keeps_setGlean _ rfl (fun _ => Nat.zero_le _)
      (keeps_flashProgAll _ _ rfl (keeps_flashErase _ rfl (.refl _ s)))))))

/-- What a restart leaves of the registers of the collection. -/
theorem rd_startCollection {car pieces cause : Nat} {f : Fld} (hf : f.hi < 40)
    (hne : f.off ≠ R.GLEAN_STATUS ∨ f.hi < F.GLEAN_STATUS_STATE.lo ∨ F.GLEAN_STATUS_STATE.hi < f.lo)
    (hr : Reach.reg (T.counting ||| Reach.T.note) f.off = false) (hb : bookkeeping f.off = false) :
    rd f (startCollection car pieces cause s) = rd f (collectionBegun car pieces s) :=
  (rd_setImageState hf hne hr).trans ((rd_raise _ _ _ _ hb).trans (rd_count _ _ _ hb))

theorem startCollection_status {car pieces cause : Nat} (hcar : car < 256) :
    imageState (startCollection car pieces cause s) = iCOLLECTING ∧
      rd F.GLEAN_STATUS_CAR_ID (startCollection car pieces cause s) = car ∧
      rd F.GLEAN_STATUS_PIECES (startCollection car pieces cause s) = 0 := by
  refine ⟨imageState_setImageState (by decide), ?_, ?_⟩
  · rw [rd_startCollection (by decide) (by decide) (by decide +kernel) (by decide), collectionBegun,
      rd_wr_other _ _ _ _ (by decide) (by decide), rd_wr_other _ _ _ _ (by decide) (by decide),
      rd_wr_other _ _ _ _ (by decide) (by decide), rd_wr_fits (by decide) hcar]
  · rw [rd_startCollection (by decide) (by decide) (by decide +kernel) (by decide), collectionBegun,
      rd_wr_other _ _ _ _ (by decide) (by decide), rd_wr_other _ _ _ _ (by decide) (by decide), rd_wr_fits (by decide) (by decide)]

theorem joined_collectionBegun (car pieces : Nat) : Joined 0 s (collectionBegun car pieces s) :=
  joined_of_keeps (keeps_collectionBegun car pieces) (by decide)

/-- R435: a restart is told with its cause. -/
theorem waits_startCollection {car pieces cause : Nat} (h : s.host.events.length < 63) :
    Waits E.GLEAN_RESTART cause (startCollection car pieces cause s) := by
  have hcounted := ((joined_collectionBegun (s := s) car pieces).trans (joined_count C.GLEAN_RESTART)).1
  exact (joined_setImageState _).2 _ _ (waits_raise _ _ (Nat.lt_of_le_of_lt hcounted (by omega)))

/-- R435: a restart is counted. -/
theorem tallied_startCollection {car pieces cause : Nat} (hc : countsNow s = true) :
    Tallied C.GLEAN_RESTART 1 s (startCollection car pieces cause s) := by
  have hbegun := keeps_collectionBegun (s := s) car pieces
  have happart : Apart C.GLEAN_RESTART := ⟨by decide, by decide, by decide⟩
  exact tallied_spared (Spares.tallied (spares_of_keeps hbegun (by decide +kernel))
      (tallied_count happart.lt happart.evtLost ((countsNow_of_term (hbegun.rest.term rfl)).trans hc)))
    ((spares_raise happart.lt happart.evtLost _ _).trans (spares_setImageState happart _))

theorem spares_startCollection {i car pieces cause : Nat} (hi : Apart i) (hre : i ≠ C.GLEAN_RESTART) :
    Spares i s (startCollection car pieces cause s) := by
  have hbegun : Spares i s (collectionBegun car pieces s) := spares_of_keeps (keeps_collectionBegun car pieces)
    ((by decide +kernel : ∀ j < 312, Reach.reg begunReach (counterAddr j) = false) _ hi.lt)
  exact ((hbegun.trans (spares_count hi.lt hi.evtLost (by decide) hre)).trans (spares_raise hi.lt hi.evtLost _ _)).trans
    (spares_setImageState hi _)

/-! ### A piece (R432, R435, R437) -/

section

variable {p : Piece} {n : Nat}

theorem restartFor_same (hok : bitmapOk s = true) (hcar : bitmapCar s = p.car) (hn : bitmapPieces s = n)
    (hcrc : p.num = 0 → pieceHeld 0 s = true → bitmapCrc s = crc32 p.bytes) : restartFor p n s = s := by
  have hpiece : (p.num == 0 && pieceHeld 0 s && bitmapCrc s != crc32 p.bytes) = false := by
    cases hnum : p.num == 0 with
    | false => rfl
    | true =>
      cases hheld : pieceHeld 0 s with
      | false => rfl
      | true => simp [hcrc (by simpa using hnum) hheld]
  exact (if_neg (by simp [hok, hcar, hn])).trans (if_neg (by simp [hpiece]))

theorem restartFor_new (h : bitmapOk s = false ∨ bitmapCar s ≠ p.car ∨ bitmapPieces s ≠ n) :
    restartFor p n s = startCollection p.car n 0 s := if_pos (by rcases h with h | h | h <;> simp [h])

theorem restartFor_changed (hok : bitmapOk s = true) (hcar : bitmapCar s = p.car) (hn : bitmapPieces s = n) (hnum : p.num = 0)
    (hheld : pieceHeld 0 s = true) (hcrc : bitmapCrc s ≠ crc32 p.bytes) : restartFor p n s = startCollection p.car n 1 s :=
  (if_neg (by simp [hok, hcar, hn])).trans (if_pos (by simp [hnum, hheld, hcrc]))

end

/-- What is done with a piece of the collection. -/
def keepPiece (p : Piece) (s : State) : State :=
  if pieceHeld p.num s then count C.GLEAN_PIECE_DUP s
  else if 256 ≤ s.glean.buf.length then count C.GLEAN_PIECE_DROP s
  else setImageState iCOLLECTING (setGlean (fun g => { g with buf := g.buf ++ [(p.num, p.bytes.take p.valid)] }) s)

theorem takePiece_ignored (h : collecting s = false) : takePiece ws s = count C.GLEAN_IGNORED s := if_pos (by simp [h])

theorem takePiece_bad (h : collecting s = true) (hbad : pieceOk ws s = false) : takePiece ws s = count C.GLEAN_PIECE_BAD s :=
  (if_neg (by simp [h])).trans (if_pos (by simp [hbad]))

theorem takePiece_good (h : collecting s = true) (hok : pieceOk ws s = true) :
    takePiece ws s = keepPiece (pieceOf ws) (restartFor (pieceOf ws) s.frame.carPieces s) :=
  (if_neg (by simp [h])).trans (if_neg (by simp [hok]))

theorem spares_keepPiece {i : Nat} (p : Piece) (hi : Apart i) (hdup : i ≠ C.GLEAN_PIECE_DUP) (hdrop : i ≠ C.GLEAN_PIECE_DROP) :
    Spares i s (keepPiece p s) := by
  unfold keepPiece
  split
  · exact spares_count hi.lt hi.evtLost (by decide) hdup
  split
  · exact spares_count hi.lt hi.evtLost (by decide) hdrop
  · exact Spares.trans (t := setGlean _ s) (.refl i s) (spares_setImageState hi _)

theorem joined_keepPiece (p : Piece) : Joined 2 s (keepPiece p s) := by
  unfold keepPiece
  split
  · exact (joined_count _).mono (by decide)
  split
  · exact (joined_count _).mono (by decide)
  · exact Laws.Joined.trans (n := 0) (t := setGlean _ s) (.of_events rfl) (joined_setImageState _)

theorem carId_keepPiece (p : Piece) : rd F.GLEAN_STATUS_CAR_ID (keepPiece p s) = rd F.GLEAN_STATUS_CAR_ID s := by
  unfold keepPiece
  split
  · exact rd_count _ _ _ (by decide)
  split
  · exact rd_count _ _ _ (by decide)
  · exact rd_setImageState (by decide) (by decide) (by decide +kernel)

/-- R435: the piece for which the collection starts again is then kept or counted. -/
theorem keepPiece_restarted {car pieces cause : Nat} (p : Piece) (hcar : car < 256) (hc : countsNow s = true) (hroom : Room s) :
    Tallied C.GLEAN_RESTART 1 s (keepPiece p (startCollection car pieces cause s)) ∧
      Waits E.GLEAN_RESTART cause (keepPiece p (startCollection car pieces cause s)) ∧
      rd F.GLEAN_STATUS_CAR_ID (keepPiece p (startCollection car pieces cause s)) = car :=
  ⟨tallied_spared (tallied_startCollection hc) (spares_keepPiece p ⟨by decide, by decide, by decide⟩ (by decide) (by decide)),
    (joined_keepPiece p).2 _ _ (waits_startCollection (Nat.lt_of_le_of_lt (show s.host.events.length ≤ 48 from hroom) (by decide))),
    (carId_keepPiece p).trans (startCollection_status hcar).2.1⟩

/-! ### The slot of a selected row 0 (R130) -/

/-- The slot has been read. -/
def slotRead (s : State) : State := setFrame (fun f => { f with slotDue := false }) s

theorem takePiece_slotRead (hcol : collecting s = true) (hok : pieceOk ws s = true) : takePiece ws (slotRead s) =
    keepPiece (pieceOf ws) (restartFor (pieceOf ws) s.frame.carPieces (slotRead s)) :=
  takePiece_good (s := slotRead s) hcol hok

theorem takePiece_kept (hcol : collecting s = true) (hok : pieceOk ws s = true)
    (hsame : restartFor (pieceOf ws) s.frame.carPieces (slotRead s) = slotRead s) :
    takePiece ws (slotRead s) = keepPiece (pieceOf ws) (slotRead s) :=
  (takePiece_slotRead hcol hok).trans (congrArg _ hsame)

theorem carouselPiece_idle (h : frmRuns s = false ∨ s.frame.slotDue = false) : exec (.carouselPiece ws) s = .next s :=
  congrArg Host.Outcome.next (if_neg (by rcases h with h | h <;> simp [h]))

section

variable (hrun : frmRuns s = true) (hdue : s.frame.slotDue = true)

include hrun hdue

theorem exec_carouselPiece : exec (.carouselPiece ws) s = .next (takePiece ws (slotRead s)) :=
  congrArg Host.Outcome.next (if_pos (by simp [hrun, hdue]))

/-- A piece that is counted and does nothing. -/
theorem carouselPiece_counted {i : Nat} (hi : i < 312) (hlost : i ≠ C.EVT_LOST) (hc : countsNow s = true)
    (h : takePiece ws (slotRead s) = count i (slotRead s)) :
    ∃ t, exec (.carouselPiece ws) s = .next t ∧ Tallied i 1 s t ∧ t.glean = s.glean ∧ t.flash = s.flash ∧
      t.frame.slotDue = false := by
  refine ⟨_, (exec_carouselPiece hrun hdue).trans (congrArg _ h), ?_, count_glean i (slotRead s), count_flash i (slotRead s), ?_⟩
  · exact Spares.tallied (t := slotRead s) (.refl i s) (tallied_count hi hlost hc)
  · rw [count_frame]
    rfl

section

variable (hcol : collecting s = true) (hok : pieceOk ws s = true)

include hcol hok

/-- R435: a piece of another collection, or another piece 0, starts the collection again. -/
theorem carouselPiece_restarts {cause : Nat} (hc : countsNow s = true) (hroom : Room s)
    (h : restartFor (pieceOf ws) s.frame.carPieces (slotRead s) =
      startCollection (pieceOf ws).car s.frame.carPieces cause (slotRead s)) :
    ∃ t, exec (.carouselPiece ws) s = .next t ∧ Tallied C.GLEAN_RESTART 1 s t ∧ Waits E.GLEAN_RESTART cause t ∧
      rd F.GLEAN_STATUS_CAR_ID t = (pieceOf ws).car := by
  refine ⟨_, (exec_carouselPiece hrun hdue).trans (congrArg _ (takePiece_slotRead hcol hok)), ?_⟩
  rw [h]
  exact keepPiece_restarted (s := slotRead s) (pieceOf ws) (fget_lt _ 39 32) hc hroom

section

variable (hsame : restartFor (pieceOf ws) s.frame.carPieces (slotRead s) = slotRead s)

include hsame

theorem carouselPiece_held (hc : countsNow s = true) (hheld : pieceHeld (pieceOf ws).num s = true) :
    ∃ t, exec (.carouselPiece ws) s = .next t ∧ Tallied C.GLEAN_PIECE_DUP 1 s t ∧ t.glean = s.glean := by
  obtain ⟨t, hexec, htally, hglean, -, -⟩ := carouselPiece_counted hrun hdue (i := C.GLEAN_PIECE_DUP) (by decide) (by decide) hc
    ((takePiece_kept hcol hok hsame).trans (if_pos hheld))
  exact ⟨t, hexec, htally, hglean⟩

theorem carouselPiece_full (hc : countsNow s = true) (hnew : pieceHeld (pieceOf ws).num s = false)
    (hfull : 256 ≤ s.glean.buf.length) :
    ∃ t, exec (.carouselPiece ws) s = .next t ∧ Tallied C.GLEAN_PIECE_DROP 1 s t ∧ t.glean = s.glean := by
  have hnew' : ¬ pieceHeld (pieceOf ws).num (slotRead s) = true := fun h => Bool.false_ne_true (hnew.symm.trans h)
  obtain ⟨t, hexec, htally, hglean, -, -⟩ := carouselPiece_counted hrun hdue (i := C.GLEAN_PIECE_DROP) (by decide) (by decide) hc
    ((takePiece_kept hcol hok hsame).trans ((if_neg hnew').trans (if_pos hfull)))
  exact ⟨t, hexec, htally, hglean⟩

/-- R437: a new piece waits for its sector. -/
theorem carouselPiece_waits (hnew : pieceHeld (pieceOf ws).num s = false) (hroom : s.glean.buf.length < 256) :
    ∃ t, exec (.carouselPiece ws) s = .next t ∧ imageState t = iCOLLECTING ∧
      t.glean.buf = s.glean.buf ++ [((pieceOf ws).num, (pieceOf ws).bytes.take (pieceOf ws).valid)] := by
  have hnew' : ¬ pieceHeld (pieceOf ws).num (slotRead s) = true := fun h => Bool.false_ne_true (hnew.symm.trans h)
  refine ⟨_, (exec_carouselPiece hrun hdue).trans (congrArg _ ((takePiece_kept hcol hok hsame).trans
    ((if_neg hnew').trans (if_neg (Nat.not_le.mpr hroom))))), imageState_setImageState (by decide), ?_⟩
  rw [glean_setImageState]
  rfl

end

end

end

/-! ### A piece is programmed (R436, R428) -/

theorem bitmapCar_lt : bitmapCar s < 256 := (flashByte (fBITMAP + 4) s).isLt

section

variable {p : Nat} {b : List Byte} {l : List (Nat × List Byte)}

/-- The flash with a piece programmed: its sectors prepared, its bytes, its bit, and for piece 0 its CRC. -/
def pieceFlash (p : Nat) (b : List Byte) (s : State) : State :=
  let x := bitmapClear 64 p (flashProgAll (fSTAGING + 40 * p) b (eachOf (sectorsOf (40 * p) b.length) (fun s k => prepareSector k s) s))
  if p == 0 then flashProgAll (fBITMAP + 8) (bytesBE 4 (crc32 (slice b 0 40))) x else x

theorem keeps_pieceFlash (p : Nat) (b : List Byte) : Keeps Reach.T.flash s (pieceFlash p b s) := by
  have hset : Keeps Reach.T.flash s (bitmapClear 64 p (flashProgAll (fSTAGING + 40 * p) b
      (eachOf (sectorsOf (40 * p) b.length) (fun s k => prepareSector k s) s))) :=
    keeps_bitmapClear _ _ rfl (keeps_flashProgAll _ _ rfl (keeps_eachOf _ _ (fun _ _ h => keeps_prepareSector _ rfl h) (.refl _ s)))
  exact keeps_ite (fun _ => keeps_flashProgAll _ _ rfl hset) (fun _ => hset)

theorem prepareSector_congr (k : Nat) (hf : u.flash = s.flash) : (prepareSector k u).flash = (prepareSector k s).flash := by
  unfold prepareSector bitmapBit
  rw [flashByte_congr hf]
  split
  · exact flashProg_congr _ _ (flashErase_congr _ hf)
  · exact hf

/-- What a piece makes of the flash depends on the flash alone. -/
theorem pieceFlash_congr (p : Nat) (b : List Byte) (hf : u.flash = s.flash) : (pieceFlash p b u).flash = (pieceFlash p b s).flash := by
  have hprep : ∀ (l : List Nat) (x y : State), x.flash = y.flash →
      (eachOf l (fun s k => prepareSector k s) x).flash = (eachOf l (fun s k => prepareSector k s) y).flash := fun l => by
    induction l with
    | nil => exact fun _ _ h => h
    | cons k l ih => exact fun _ _ h => ih _ _ (prepareSector_congr k h)
  have hset : (bitmapClear 64 p (flashProgAll (fSTAGING + 40 * p) b
        (eachOf (sectorsOf (40 * p) b.length) (fun s k => prepareSector k s) u))).flash =
      (bitmapClear 64 p (flashProgAll (fSTAGING + 40 * p) b
        (eachOf (sectorsOf (40 * p) b.length) (fun s k => prepareSector k s) s))).flash :=
    flashProg_congr _ _ (flashProgAll_congr _ _ (hprep _ _ _ hf))
  unfold pieceFlash
  dsimp only
  split
  · exact flashProgAll_congr _ _ hset
  · exact hset

/-- One more piece is held. -/
def pieceCounted (s : State) : State := wr F.GLEAN_STATUS_PIECES (rd F.GLEAN_STATUS_PIECES s + 1) s

theorem programPiece_eq : programPiece p b s =
    if rd F.GLEAN_STATUS_PIECES (pieceFlash p b s) + 1 == bitmapPieces (pieceCounted (pieceFlash p b s)) then
      setGlean (fun g => { g with verifyDue := true }) (pieceCounted (pieceFlash p b s))
    else pieceCounted (pieceFlash p b s) := rfl

theorem programPiece_end (h : rd F.GLEAN_STATUS_PIECES s < 26215) : (programPiece p b s).glean.buf = s.glean.buf ∧
    rd F.GLEAN_STATUS_PIECES (programPiece p b s) = rd F.GLEAN_STATUS_PIECES s + 1 ∧
    (programPiece p b s).flash = (pieceFlash p b s).flash := by
  have hk := keeps_pieceFlash (s := s) p b
  have hheld : rd F.GLEAN_STATUS_PIECES (pieceFlash p b s) = rd F.GLEAN_STATUS_PIECES s := hk.rd _ (by decide +kernel)
  have hcounted : rd F.GLEAN_STATUS_PIECES (pieceCounted (pieceFlash p b s)) = rd F.GLEAN_STATUS_PIECES s + 1 := by
    rw [pieceCounted, hheld]
    exact rd_wr_fits (by decide) (Nat.lt_trans (Nat.succ_lt_succ h) (by decide))
  have hbuf : (pieceCounted (pieceFlash p b s)).glean.buf = s.glean.buf := congrArg GleanSt.buf (hk.rest.glean rfl)
  rw [programPiece_eq]
  split
  · exact ⟨hbuf, hcounted, rfl⟩
  · exact ⟨hbuf, hcounted, rfl⟩

/-- The oldest piece has left the buffer. -/
def pieceTaken (l : List (Nat × List Byte)) (s : State) : State := setGlean (fun g => { g with buf := l }) s

variable (hbuf : s.glean.buf = (p, b) :: l) (hon : domOn dMGT s = true) (hnew : pieceHeld p s = false)

include hbuf hon hnew

theorem exec_pieceProgram (fault : Bool) : exec (.pieceProgram fault) s = .next
    (if fault then startCollection (bitmapCar s) (bitmapPieces s) 4 (flashFault (fSTAGING + 40 * p) (pieceTaken l s))
     else programPiece p b (pieceTaken l s)) := by
  have hnew' : ¬ pieceHeld p (setGlean (fun g => { g with buf := l }) s) = true := fun h => Bool.false_ne_true (hnew.symm.trans h)
  show execPieceProgram fault s = _
  simp only [execPieceProgram, hbuf, hon, hnew']
  rfl

theorem pieceProgram_holds (hfew : rd F.GLEAN_STATUS_PIECES s < 26215) :
    ∃ t, exec (.pieceProgram false) s = .next t ∧ t.glean.buf = l ∧
      rd F.GLEAN_STATUS_PIECES t = rd F.GLEAN_STATUS_PIECES s + 1 ∧ t.flash = (programPiece p b s).flash := by
  obtain ⟨hleft, hcounted, hflash⟩ := programPiece_end (p := p) (b := b) (s := pieceTaken l s) hfew
  obtain ⟨-, -, hhere⟩ := programPiece_end (p := p) (b := b) hfew
  exact ⟨_, exec_pieceProgram hbuf hon hnew false, hleft, hcounted,
    hflash.trans ((pieceFlash_congr (u := pieceTaken l s) (s := s) p b rfl).trans hhere.symm)⟩

/-- R428, R435: a piece that cannot be programmed starts the collection again. -/
theorem pieceProgram_fails (hroom : Room s) (hc : countsNow s = true) :
    ∃ t, exec (.pieceProgram true) s = .next t ∧ Tallied C.FLASH_ERR 1 s t ∧ Tallied C.GLEAN_RESTART 1 s t ∧
      Waits E.GLEAN_RESTART 4 t ∧ rd F.GLEAN_STATUS_PIECES t = 0 := by
  generalize hx : pieceTaken l s = x
  have hcx : countsNow x = true := hx ▸ hc
  have hspare : ∀ i, Spares i s x := fun i => hx ▸ Spares.refl i s
  have hevents : x.host.events.length ≤ 48 := hx ▸ hroom
  have herr : Apart C.FLASH_ERR := ⟨by decide, by decide, by decide⟩
  have hfault : Tallied C.FLASH_ERR 1 x (flashFault (fSTAGING + 40 * p) x) :=
    tallied_spared (tallied_count herr.lt herr.evtLost hcx) (spares_raise herr.lt herr.evtLost _ _)
  have hquiet : Spares C.GLEAN_RESTART x (flashFault (fSTAGING + 40 * p) x) :=
    (spares_count (by decide) (by decide) (by decide) (by decide)).trans (spares_raise (by decide) (by decide) _ _)
  have hjoined : Joined 2 x (flashFault (fSTAGING + 40 * p) x) := (joined_count _).trans (joined_raise _ _)
  have hterm : (flashFault (fSTAGING + 40 * p) x).term = x.term := (raise_term _ _ _).trans (count_term _ _)
  refine ⟨_, exec_pieceProgram hbuf hon hnew true, ?_, ?_, ?_, ?_⟩ <;> rw [hx]
  · exact (hspare _).tallied (tallied_spared hfault (spares_startCollection herr (by decide)))
  · exact (hspare _).tallied (hquiet.tallied (tallied_startCollection ((countsNow_of_term hterm).trans hcx)))
  · exact waits_startCollection (Nat.lt_of_le_of_lt hjoined.1 (by omega))
  · exact (startCollection_status bitmapCar_lt).2.2

end

end Sys2Proof.Proofs

end

/-! PROOF. The staged image: verified, swapped in at its tick, or its trial expired
(spec/19_gleaning_firmware_settings.md R438-R440, R443). -/

section

namespace Sys2Proof.Proofs

open Sys2Proof Sys2Proof.Machine Sys2Proof.Claims Sys2Proof.Laws

set_option Elab.async false

variable {s u : State}

/-! ### Verification (R438) -/

theorem verifySlot_congr (base : Nat) (hf : u.flash = s.flash) (hr : reg R.DEVICE_IDENT u = reg R.DEVICE_IDENT s) :
    verifySlot base u = verifySlot base s := by
  have hmanifest : slotManifest base u = slotManifest base s := flashRead_congr _ _ hf
  have hok : ∀ m, manifestOk m u = manifestOk m s := fun m => by
    rw [manifestOk, manifestOk, rd_of_reg F.DEVICE_IDENT_SILICON hr]
  unfold verifySlot verifyImage
  dsimp only
  rw [hmanifest, hok, flashRead_congr _ _ hf]

/-- The verification is no longer due. -/
def verifyTaken (s : State) : State := setGlean (fun g => { g with verifyDue := false }) s

section

variable (hdue : s.glean.verifyDue = true) (hon : domOn dMGT s = true)

include hdue hon

theorem exec_gleanVerify : exec .gleanVerify s = .next
    (if verifySlot fSTAGING s == 0 then stagedVerified (verifyTaken s)
     else startCollection (bitmapCar s) (bitmapPieces s) 2 (count C.GLEAN_VERIFY_FAIL (verifyTaken s))) := by
  rw [← verifySlot_congr (s := s) (u := verifyTaken s) fSTAGING rfl rfl]
  exact congrArg Host.Outcome.next (if_neg (by simp [hdue, hon]))

theorem gleanVerify_accepts (h : verifySlot fSTAGING s = 0) :
    ∃ t, exec .gleanVerify s = .next t ∧ imageState t = iVERIFIED ∧ t.glean.verifyDue = false ∧
      rd F.IMAGE_STAGED_VERSION t = imageVersion (slotManifest fSTAGING s) % 2 ^ 32 := by
  refine ⟨_, (exec_gleanVerify hdue hon).trans (congrArg _ (if_pos (by simp [h]))), imageState_setImageState (by decide), ?_, ?_⟩
  · rw [stagedVerified, glean_setImageState]
    rfl
  · rw [stagedVerified, rd_setImageState (by decide) (by decide) (by decide +kernel), rd_wr_same _ _ _ (by decide)]
    rfl

theorem gleanVerify_rejects (h : verifySlot fSTAGING s ≠ 0) (hc : countsNow s = true) (hroom : Room s) :
    ∃ t, exec .gleanVerify s = .next t ∧ Tallied C.GLEAN_VERIFY_FAIL 1 s t ∧ Tallied C.GLEAN_RESTART 1 s t ∧
      Waits E.GLEAN_RESTART 2 t ∧ imageState t = iCOLLECTING := by
  have happart : Apart C.GLEAN_VERIFY_FAIL := ⟨by decide, by decide, by decide⟩
  have hcount : countsNow (count C.GLEAN_VERIFY_FAIL (verifyTaken s)) = true := (countsNow_of_term (count_term _ _)).trans hc
  have hfail : Tallied C.GLEAN_VERIFY_FAIL 1 s (count C.GLEAN_VERIFY_FAIL (verifyTaken s)) :=
    Spares.tallied (t := verifyTaken s) (.refl _ s) (tallied_count happart.lt happart.evtLost hc)
  have hquiet : Spares C.GLEAN_RESTART s (count C.GLEAN_VERIFY_FAIL (verifyTaken s)) :=
    Spares.trans (t := verifyTaken s) (.refl _ s) (spares_count (by decide) (by decide) (by decide) (by decide))
  have hevents : s.host.events.length ≤ 48 := hroom
  have hlen := (joined_count (s := verifyTaken s) C.GLEAN_VERIFY_FAIL).1
  refine ⟨_, (exec_gleanVerify hdue hon).trans (congrArg _ (if_neg (by simp [h]))),
    tallied_spared hfail (spares_startCollection happart (by decide)), hquiet.tallied (tallied_startCollection hcount),
    waits_startCollection (Nat.lt_of_le_of_lt hlen ?_), (startCollection_status bitmapCar_lt).1⟩
  exact Nat.lt_of_le_of_lt (Nat.succ_le_succ hevents) (by decide)

end

/-! ### The swap (R439, R440) -/

theorem journal_congr (hf : u.flash = s.flash) : journal u = journal s := by
  have hfrom : ∀ fuel a, journalFrom fuel a u = journalFrom fuel a s := fun fuel => by
    induction fuel with
    | zero => exact fun _ => rfl
    | succ n ih => exact fun a => by simp only [journalFrom, flashRead_congr _ _ hf, ih]
  exact hfrom _ _

/-- A journal record depends on the flash alone. -/
theorem jWrite_congr (code : Nat) (rest : List Byte) (hf : u.flash = s.flash) : (jWrite code rest u).flash = (jWrite code rest s).flash := by
  unfold jWrite journalWrite journalEnd
  rw [journal_congr hf]
  exact flashProgAll_congr _ _ hf

theorem getLsbD_fput_one {w : Word} {bit : Nat} (h : bit < 40) : (fput w bit bit 1).getLsbD bit = true := by
  rw [testBit_fput _ _ _ _ _ h, if_pos ⟨Nat.le_refl _, Nat.lt_succ_self _⟩, Nat.sub_self]
  decide

/-- What a request of a soft reset reaches. -/
def softReach : Nat := T.counting ||| Reach.T.boot ||| Reach.T.mot ||| Reach.T.AX_STATUS ||| Reach.T.RESET_CAUSE

theorem swapTick_swaps {x bit : Nat} (hswap : s.glean.swap = some (x, bit)) (hbit : bit < 40) (hdue : tickDue x s.bt = true)
    (hstate : imageState s = iVERIFIED) :
    ∃ t, exec .swapTick s = .next t ∧ t.glean.swap = none ∧ t.boot.softPending = true ∧ (reg R.RESET_CAUSE t).getLsbD bit = true ∧
      t.flash = (jWrite jSWAP_REQ (1 :: bytesBE 4 (rd F.IMAGE_STAGED_VERSION s)) s).flash := by
  generalize hv : jWrite jSWAP_REQ (1 :: bytesBE 4 (rd F.IMAGE_STAGED_VERSION s)) (setGlean (fun g => { g with swap := none }) s) = v
  have hexec : exec .swapTick s = .next (softRequest (causeField bit) v) := by
    have hstate' : ¬ (imageState (setGlean (fun g => { g with swap := none }) s) != iVERIFIED) = true := by
      rw [show imageState (setGlean (fun g => { g with swap := none }) s) = iVERIFIED from hstate]
      decide
    rw [← hv]
    show execSwapTick s = _
    simp only [execSwapTick, hswap, hdue, hstate']
    rfl
  have hwrite : Keeps Reach.T.flash (setGlean (fun g => { g with swap := none }) s) v := hv ▸ keeps_jWrite _ _ rfl (.refl _ _)
  have hsoft : Keeps softReach v (softRequest (causeField bit) v) := keeps_softRequest _ rfl (.refl _ v)
  obtain ⟨hpending, hcause⟩ := softRequest_end (s := v) (cause := causeField bit)
  refine ⟨_, hexec, ?_, hpending, ?_, ?_⟩
  · rw [hsoft.rest.glean rfl, hwrite.rest.glean rfl]
    rfl
  · rw [hcause]
    exact getLsbD_fput_one hbit
  · rw [hsoft.rest.flash rfl, ← hv]
    exact jWrite_congr _ _ rfl

/-! ### The trial (R443) -/

theorem bookkeeping_axStatus (n : Nat) : bookkeeping (R.AX_STATUS n) = false :=
  (by decide : ∀ j < 2, bookkeeping (0x5068 + 0x100 * j) = false) _ (Nat.mod_lt n (by decide))

theorem spares_axStatus {i k v : Nat} {f : Fld} (hf : f.off = R.AX_STATUS k) : ∀ x, Spares i x (wr f v x) :=
  fun _ => spares_wr (by rw [hf]; exact bookkeeping_axStatus k)

theorem spares_enterBraking {i k : Nat} (x : State) : Spares i x (enterBraking k true x) := by
  have hgo : Spares i x (axGo k xBRAKING x) := spares_axStatus (f := F.AX_STATUS_STATE k) rfl x
  have hbrake : Spares i (axGo k xBRAKING x) (wr (F.AX_STATUS_BRAKE k) 0 (axGo k xBRAKING x)) :=
    spares_axStatus (f := F.AX_STATUS_BRAKE k) rfl _
  exact hgo.trans hbrake

/-- A run-down counts nothing. -/
theorem spares_rundown {i k cause : Nat} (hi : i < 312) (hlost : i ≠ C.EVT_LOST) : Spares i s (rundown k cause s) := by
  have hstart : ∀ f v c a, Spares i s (raise c a (wr (F.AX_STATUS_CAUSE k) v (setAx k f s))) := fun f v c a =>
    (Spares.trans (t := setAx k f s) (.refl i s) (spares_axStatus rfl _)).trans (spares_raise hi hlost c a)
  unfold rundown
  dsimp only
  split
  · exact (hstart _ _ _ _).trans (spares_axStatus (f := F.AX_STATUS_STATE k) rfl _)
  split
  · exact (hstart _ _ _ _).trans (spares_enterBraking _)
  · exact .refl i s

theorem trialExpired_resets (htrial : onTrial s = true) (hlim : rd F.GLEAN_CFG_TRIAL_LIMIT s ≠ 0) (hsoft : s.boot.softPending = false)
    (hc : countsNow s = true) (hover : 48 * rd F.GLEAN_CFG_TRIAL_LIMIT s ≤ s.glean.trialTicks) :
    ∃ t, exec .trialExpired s = .next t ∧ t.boot.softPending = true ∧ Tallied C.TRIAL_EXPIRED 1 s t := by
  generalize hv : ({ (count C.TRIAL_EXPIRED s) with boot := { s.boot with softPending := true } } : State) = v
  have hexec : exec .trialExpired s = .next (rundownAll 4 v) := by
    rw [← hv]
    exact congrArg Host.Outcome.next (if_pos (by simp [htrial, hlim, hsoft, hover]))
  have hdown : Keeps (T.counting ||| Reach.T.mot ||| Reach.T.AX_STATUS) v (rundownAll 4 v) := keeps_rundownAll 4 rfl (.refl _ v)
  have htold : Tallied C.TRIAL_EXPIRED 1 s v := hv ▸ tallied_count (s := s) (by decide) (by decide) hc
  refine ⟨_, hexec, ?_, tallied_spared htold ((spares_rundown (by decide) (by decide)).trans (spares_rundown (by decide) (by decide)))⟩
  rw [hdown.rest.boot rfl, ← hv]

/-! ### The statement -/

/-- Settles O57. -/
theorem imagesAreCollectedAndSwapped : Obligations.ImagesAreCollectedAndSwapped := by
  refine ⟨fun _ _ => carouselPiece_idle, fun ws s hrun hdue hc => ⟨fun hcol => ?_, fun hcol hbad => ?_,
      fun hcol hok hbit hcar hn hcrc => ?_, fun hcol hok hroom => ⟨fun hnew => ?_, fun hbit hcar hn hnum hheld hcrc => ?_⟩⟩,
    fun _ _ _ _ hbuf hon hnew hfew => ⟨pieceProgram_holds hbuf hon hnew hfew, pieceProgram_fails hbuf hon hnew⟩,
    fun _ hdue hon => ⟨gleanVerify_accepts hdue hon, gleanVerify_rejects hdue hon⟩,
    fun _ _ _ => swapTick_swaps, fun _ => trialExpired_resets⟩
  · exact carouselPiece_counted hrun hdue (by decide) (by decide) hc (takePiece_ignored (s := slotRead s) hcol)
  · exact carouselPiece_counted hrun hdue (by decide) (by decide) hc (takePiece_bad (s := slotRead s) hcol hbad)
  · have hsame : restartFor (pieceOf ws) s.frame.carPieces (slotRead s) = slotRead s :=
      restartFor_same (s := slotRead s) hbit hcar hn hcrc
    exact ⟨carouselPiece_held hrun hdue hcol hok hsame hc, carouselPiece_full hrun hdue hcol hok hsame hc,
      carouselPiece_waits hrun hdue hcol hok hsame⟩
  · exact carouselPiece_restarts hrun hdue hcol hok hc hroom (restartFor_new (s := slotRead s) hnew)
  · obtain ⟨t, hexec, htally, hwaits, -⟩ := carouselPiece_restarts hrun hdue hcol hok hc hroom
      (restartFor_changed (s := slotRead s) hbit hcar hn hnum hheld hcrc)
    exact ⟨t, hexec, htally, hwaits⟩

end Sys2Proof.Proofs

end

/-! PROOF. The selector's records (spec/05_tick_frame.md R131, R132): what notes and changes one, and what the reading of rows
leaves of them (R138, R139). -/

section

namespace Sys2Proof.Proofs

open Sys2Proof Sys2Proof.Machine Sys2Proof.Claims Sys2Proof.Laws

set_option Elab.async false

variable {s t u : State} {f : FrameId} {row : Nat} {sd : Side}

/-! ### A row's record -/

theorem rowRec_of_rows (h : t.frame.rows = s.frame.rows) : rowRec f row t = rowRec f row s := by
  unfold rowRec
  rw [h]

/-- The record of a row none of whose copies was judged before. -/
def freshRow (f : FrameId) (row : Nat) (s : State) : RowRec := { cyc8 := f.cyc8, tick := f.tick, row, since := s.line }

/-- A record with a side's verdict. -/
def withVerdict (sd : Side) (v : Verdict) (r : RowRec) : RowRec :=
  match sd with | .west => { r with w := some v } | .east => { r with e := some v }

theorem recVerdict_withVerdict (v : Verdict) (r : RowRec) : recVerdict sd (withVerdict sd v r) = some v := by cases sd <;> rfl

theorem sel_withVerdict (v : Verdict) (r : RowRec) : (withVerdict sd v r).sel = r.sel := by cases sd <;> rfl

theorem lost_withVerdict (v : Verdict) (r : RowRec) : (withVerdict sd v r).lost = r.lost := by cases sd <;> rfl

theorem isRow_withVerdict (v : Verdict) (r : RowRec) : isRow f row (withVerdict sd v r) = isRow f row r := by cases sd <;> rfl

theorem isRow_freshRow : isRow f row (freshRow f row s) = true := by simp [isRow, freshRow]

theorem isRow_of_rowRec {r : RowRec} (h : rowRec f row s = some r) : isRow f row r = true := List.find?_some h

theorem noteVerdict_eq (v : Verdict) : noteVerdict sd f row v s =
    setFrame (fun x => { x with rows := x.rows.filter (fun r => !isRow f row r) ++
      [withVerdict sd v ((rowRec f row s).getD (freshRow f row s))] }) s := by cases sd <;> rfl

theorem rowRec_noteVerdict (v : Verdict) :
    rowRec f row (noteVerdict sd f row v s) = some (withVerdict sd v ((rowRec f row s).getD (freshRow f row s))) := by
  have hrow : isRow f row (withVerdict sd v ((rowRec f row s).getD (freshRow f row s))) = true := by
    rw [isRow_withVerdict]
    cases h : rowRec f row s with
    | none => exact isRow_freshRow
    | some r => exact isRow_of_rowRec h
  have hold : (s.frame.rows.filter (fun r => !isRow f row r)).find? (isRow f row) = none :=
    List.find?_eq_none.mpr fun r hr => by simpa using (List.mem_filter.mp hr).2
  rw [noteVerdict_eq]
  show List.find? _ (_ ++ _) = _
  rw [List.find?_append, hold, List.find?_cons_of_pos hrow]
  rfl

/-- A change that leaves what a record is of reaches that record. -/
theorem rowRec_modRow {g : RowRec → RowRec} (hg : ∀ r, isRow f row (g r) = isRow f row r) :
    rowRec f row (modRow f row g s) = (rowRec f row s).map g := by
  have hsame : isRow f row ∘ (fun r => if isRow f row r then g r else r) = isRow f row := by
    funext r
    show isRow f row (if isRow f row r then g r else r) = isRow f row r
    split
    · exact hg r
    · rfl
  show List.find? _ (List.map _ _) = _
  rw [List.find?_map, hsame]
  show (rowRec f row s).map _ = _
  cases h : rowRec f row s with
  | none => rfl
  | some r => exact congrArg some (if_pos (isRow_of_rowRec h))

/-! ### What leaves the records, and SPAN_ROW_LOST, as they are -/

/-- The selector's records and SPAN_ROW_LOST stand. -/
structure RowsStand (s t : State) : Prop where
  rows : t.frame.rows = s.frame.rows
  lost : Spares C.SPAN_ROW_LOST s t

theorem RowsStand.refl (s : State) : RowsStand s s := ⟨rfl, rfl⟩

theorem RowsStand.trans (h : RowsStand s t) (g : RowsStand t u) : RowsStand s u := ⟨g.rows.trans h.rows, h.lost.trans g.lost⟩

theorem stand_countN {j : Nat} (n : Nat) (hj : j < 312) (hij : C.SPAN_ROW_LOST ≠ j) : RowsStand s (countN j n s) :=
  ⟨congrArg FrameSt.rows (countN_frame j n s), spares_countN (by decide) (by decide) hj hij⟩

theorem stand_count {j : Nat} (hj : j < 312) (hij : C.SPAN_ROW_LOST ≠ j) : RowsStand s (count j s) := stand_countN 1 hj hij

theorem stand_raise (c a : Nat) : RowsStand s (raise c a s) :=
  ⟨congrArg FrameSt.rows (raise_frame c a s), spares_raise (by decide) (by decide) c a⟩

theorem stand_wr {g : Fld} (v : Nat) (h : bookkeeping g.off = false) : RowsStand s (wr g v s) := ⟨rfl, spares_wr h⟩

theorem stand_setFrame {g : FrameSt → FrameSt} (h : (g s.frame).rows = s.frame.rows) : RowsStand s (setFrame g s) := ⟨h, rfl⟩

theorem stand_of_keeps {A : Nat} (h : Keeps A s t) (hf : A.testBit 9 = false)
    (hA : Reach.reg A (counterAddr C.SPAN_ROW_LOST) = false) : RowsStand s t :=
  ⟨congrArg FrameSt.rows (h.rest.frame hf), spares_of_keeps h hA⟩

theorem stand_eachOf {α : Type} (l : List α) {g : State → α → State} (h : ∀ x a, RowsStand x (g x a)) :
    RowsStand s (eachOf l g s) :=
  eachOf_preserves (P := RowsStand s) l (fun x a hx => hx.trans (h x a)) (.refl s)

theorem stand_lateOnce (t : Nat) : RowsStand s (lateOnce s t) := by
  unfold lateOnce
  split
  · exact .refl s
  · exact (stand_setFrame rfl).trans (stand_count (by decide) (by decide))

theorem stand_present (t : Nat) (b : Sub) (data : Option (List Word)) : RowsStand s (present t b data s) := by
  unfold present
  cases presAt t s with
  | none => exact .refl s
  | some at_ =>
    unfold presentAt
    dsimp only
    split
    · split
      · exact stand_lateOnce t
      · exact .refl s
    · exact stand_setFrame rfl

theorem stand_segmentsMissing (cont : Nat) : RowsStand s (segmentsMissing cont s) := by
  have hdrop : RowsStand s (dropPartial cont s) :=
    stand_of_keeps (A := Reach.T.th) (keeps_dropPartial cont rfl (.refl _ s)) (by decide) (by decide +kernel)
  unfold segmentsMissing
  dsimp only
  split
  · exact hdrop.trans (stand_count (by decide) (by decide))
  · exact hdrop

theorem stand_missing (t : Nat) (b : Sub) : RowsStand s (missing t b s) := by
  have hcount : RowsStand s (count C.CONTAINER_MISSING s) := stand_count (by decide) (by decide)
  unfold missing
  dsimp only
  split
  · exact hcount.trans (stand_segmentsMissing _)
  split
  · exact hcount.trans (stand_present _ _ _)
  · exact hcount

theorem stand_endJob (up : Bool) (tag obj : Nat) : RowsStand s (endJob up tag obj s) :=
  stand_of_keeps (A := Reach.T.key) (keeps_endJob up tag obj rfl (.refl _ s)) (by decide) (by decide +kernel)

theorem stand_missingRow (t : Nat) (b : Sub) : RowsStand s (missingRow t b s) := (stand_endJob _ _ _).trans (stand_missing _ _)

theorem stand_settle (t cont : Nat) : RowsStand s (settle t cont s) := stand_setFrame rfl

/-- R139: a lost row, none of whose containers is delivered. -/
theorem stand_readRow_none (t r : Nat) : RowsStand s (readRow t r none s) := by
  refine stand_eachOf _ fun x b => ?_
  unfold readOne
  cases chosenNow t b x with
  | none => exact .refl x
  | some w =>
    unfold readIn
    dsimp only
    split
    · exact .refl x
    · refine (stand_settle t b.cont).trans ?_
      unfold readChosen
      split
      · exact (stand_count (by decide) (by decide)).trans (stand_missingRow t b)
      · exact stand_missingRow t b

theorem stand_missingWhole (t : Nat) : RowsStand s (missingWhole t s) := by
  refine stand_eachOf _ fun x b => ?_
  split
  · exact .refl x
  · exact (stand_settle t b.cont).trans (stand_missing t b)

/-! ### Generations that take effect -/

theorem stand_switchP (t g p : Nat) : RowsStand s (switchP t g p s) := by
  unfold switchP
  extract_lets old k overtaken fr x
  have hx : RowsStand s x := ⟨rfl, rfl⟩
  exact ((hx.trans (stand_wr (g := F.TIME_STATUS_P) p rfl)).trans (stand_wr (g := F.TIME_STATUS_P_GEN) g rfl)).trans
    (stand_countN (j := C.PRES_SKIPPED) k (by decide) (by decide))

theorem stand_switchMap (t g : Nat) (silent : Bool) : RowsStand s (switchMap t g silent s) := by
  unfold switchMap
  extract_lets f new x
  have hx : RowsStand s x := ⟨rfl, (stand_wr (s := s) (g := F.FRAME_GEN_MAP_GEN) g rfl).lost⟩
  split
  · exact hx
  · exact hx.trans ((stand_count (j := C.MAP_INCOMPLETE) (by decide) (by decide)).trans (stand_raise _ _))

theorem stand_switchKey (t g : Nat) : RowsStand s (switchKey t g s) := by
  have hwr : RowsStand s (wr F.FRAME_GEN_KEY_GEN g s) := stand_wr g rfl
  exact ⟨rfl, hwr.lost⟩

theorem stand_genDue (kind : GenKind) (n : Nat) : RowsStand s (genDue kind n s) := by
  unfold genDue
  cases kind with
  | p =>
    cases s.frame.pNext with
    | none => exact .refl s
    | some x =>
      dsimp only
      split
      · exact stand_switchP _ _ _
      · exact .refl s
  | map =>
    cases s.frame.mapNext with
    | none => exact .refl s
    | some x =>
      dsimp only
      split
      · exact stand_switchMap _ _ _
      · exact .refl s
  | key =>
    cases s.frame.keyNext with
    | none => exact .refl s
    | some x =>
      dsimp only
      split
      · exact stand_switchKey _ _
      · exact .refl s

/-! ### What reading a row leaves of the records -/

theorem rows_of_keeps {A : Nat} (h : Keeps A s t) (hf : A.testBit 9 = false) : t.frame.rows = s.frame.rows :=
  congrArg FrameSt.rows (h.rest.frame hf)

theorem rows_deliver (t : Nat) (b : Sub) (ws : List Word) : (deliver t b ws s).frame.rows = s.frame.rows := by
  unfold deliver
  split
  · split
    · exact rows_of_keeps (keeps_deliverHost (A := T.counting ||| Reach.T.GRAN_STATUS ||| Reach.T.q) _ _ _ _ _ rfl (.refl _ s))
        (by decide)
    · rfl
  split
  · split
    · exact rows_of_keeps (keeps_takeSegments (A := T.counting ||| Reach.T.GRAN_STATUS ||| Reach.T.th) _ _ _ _ _ rfl (.refl _ s))
        (by decide)
    · rfl
  · exact (stand_present _ _ _).rows

theorem rows_openAndDeliver (t : Nat) (b : Sub) (ws : List Word) : (openAndDeliver t b ws s).frame.rows = s.frame.rows := by
  have hopen : (openContainer b.cont t ws s).2.frame.rows = s.frame.rows :=
    rows_of_keeps (keeps_openContainer (A := T.counting ||| Reach.T.key) _ _ _ rfl (.refl _ s)) (by decide)
  unfold openAndDeliver
  dsimp only
  split
  · exact (stand_missing _ _).rows.trans hopen
  · exact (rows_deliver _ _ _).trans hopen

theorem rows_readProtected (t start : Nat) (b : Sub) (ws : List Word) :
    (readProtected t start b ws s).frame.rows = s.frame.rows := by
  have hjob : (addDownJob t b.cont start ws.length none s).frame.rows = s.frame.rows :=
    rows_of_keeps (keeps_addDownJob (A := Reach.T.key) _ _ _ _ _ rfl (.refl _ s)) (by decide)
  unfold readProtected
  dsimp only
  split
  · exact (rows_openAndDeliver _ _ _).trans (stand_endJob _ _ _).rows
  split
  · split
    · exact (rows_openAndDeliver _ _ _).trans ((stand_endJob _ _ _).rows.trans hjob)
    · exact (rows_of_keeps (keeps_startCores (A := Reach.T.key) rfl (keeps_modJob _ _ rfl (.refl _ _))) (by decide)).trans hjob
  · exact hjob

theorem rows_readChosen (w : Word) (t : Nat) (words : Option (List RxWord)) (b : Sub) :
    (readChosen w t words b s).frame.rows = s.frame.rows := by
  have hmissing : ∀ j x, (missingRow t b (count j x)).frame.rows = x.frame.rows := fun j x =>
    (stand_missingRow t b).rows.trans (congrArg FrameSt.rows (count_frame j x))
  unfold readChosen
  split
  · exact hmissing _ _
  cases words with
  | none => exact (stand_missingRow t b).rows
  | some ws =>
    dsimp only
    split
    · exact hmissing _ _
    split
    · exact rows_readProtected _ _ _ _
    · exact rows_deliver _ _ _

theorem rows_readRow (t r : Nat) (words : Option (List RxWord)) : (readRow t r words s).frame.rows = s.frame.rows := by
  refine eachOf_preserves (P := fun x => x.frame.rows = s.frame.rows) _ (fun x b hx => ?_) rfl
  refine Eq.trans ?_ hx
  unfold readOne
  cases chosenNow t b x with
  | none => rfl
  | some w =>
    unfold readIn
    dsimp only
    split
    · rfl
    · exact (rows_readChosen w t words b).trans (stand_settle t b.cont).rows

end Sys2Proof.Proofs

end

/-! PROOF. The tick trackers (spec/05_tick_frame.md R115, R120, R122). -/

section

namespace Sys2Proof.Proofs

open Sys2Proof Sys2Proof.Machine Sys2Proof.Claims Sys2Proof.Laws

set_option Elab.async false

variable {s t : State} {sd : Side} {i : Nat}

/-! ### A tracker and its register -/

theorem trk_of_frame (h : t.frame = s.frame) : trk sd t = trk sd s := by
  unfold trk
  rw [h]

theorem trk_setTrk (g : Track → Track) : trk sd (setTrk sd g s) = g (trk sd s) := by cases sd <;> rfl

theorem reg_setTrk (off : Nat) (g : Track → Track) : reg off (setTrk sd g s) = reg off s := by cases sd <;> rfl

theorem spares_setTrk (g : Track → Track) : Spares i s (setTrk sd g s) := reg_setTrk _ _

theorem setTrk_host (g : Track → Track) : (setTrk sd g s).host = s.host := by cases sd <;> rfl

/-- What reaches no path's status leaves the trackers' hold on frame position. -/
theorem tracking_of_keeps {A : Nat} (h : Keeps A s t) (hW : Reach.reg A R.REP_STATUS_W = false)
    (hE : Reach.reg A R.REP_STATUS_E = false) : tracking sd t = tracking sd s := by
  cases sd with
  | west => exact on_of_rd (h.rd (fTRACKING .west) hW)
  | east => exact on_of_rd (h.rd (fTRACKING .east) hE)

theorem tracking_setTrk (g : Track → Track) : tracking sd (setTrk sd g s) = tracking sd s :=
  on_of_rd (rd_of_reg _ (reg_setTrk _ _))

theorem tracking_wr_one : tracking sd (wr (fTRACKING sd) 1 s) = true := by
  rw [tracking, on, rd_wr_fits (show 1 < 40 by decide) (show 1 < 2 by decide)]
  rfl

/-! ### A tick marker (R115, R120) -/

theorem trk_markerTaken {f : FrameId} {turned jump : Bool} :
    trk sd (markerTaken sd f turned jump s) = { cyc8 := f.cyc8, tick := f.tick, turned, seen := true } := by
  unfold markerTaken
  rw [trk_of_frame (setSpan_frame sd _ _), trk_setTrk]

theorem tracking_markerTaken {f : FrameId} {turned jump : Bool} : tracking sd (markerTaken sd f turned jump s) = true := by
  unfold markerTaken
  rw [tracking, on_setSpan]
  exact (tracking_setTrk _).trans tracking_wr_one

/-- What follows the tracker's step leaves the trackers. -/
theorem trk_markerClosed {b a since : Nat} {turned jump : Bool} : trk sd (markerClosed sd b a since turned jump s) = trk sd s := by
  have hjobs : ∀ c x, trk sd (addDownJobs c x) = trk sd x := fun c x =>
    trk_of_frame ((keeps_addDownJobs (A := Reach.T.key) c rfl (.refl _ x)).rest.frame rfl)
  have harrive : ∀ x, trk sd (arrive sd b a since turned jump x) = trk sd x := fun x =>
    trk_of_frame ((keeps_arrive (A := Reach.T.regn ||| Reach.T.span) sd b a since turned jump rfl (.refl _ x)).rest.frame rfl)
  have hrows : trk sd (purgeRows sd s) = trk sd s := by cases sd <;> rfl
  rw [markerClosed, hjobs, harrive, hrows]

theorem tickMarker_tracks {w : RxWord} {dir : Bool} {tick cyc : Nat} (a : Nat) (hm : tickMarker w = some (dir, tick, cyc))
    (hf : frmRuns s = true) (hw : wordLock sd s = true) : ∃ t, exec (.tickMarker sd w a) s = .next t ∧ tracking sd t = true ∧
      trkFrame sd t = { cyc8 := cyc, tick } ∧ (trk sd t).seen = true ∧ (trk sd t).misses = 0 := by
  obtain ⟨b, jump, hexec⟩ := exec_tickMarker a hm hf hw
  have hturn : ∀ x, Keeps (Reach.T.BYPASS_STATUS ||| Reach.T.span) x (autoTurnAt sd x) := fun x => keeps_autoTurnAt sd rfl (.refl _ x)
  refine ⟨_, hexec, ?_, ?_⟩
  · rw [tracking_of_keeps keeps_markerClosed (by decide +kernel) (by decide +kernel),
      tracking_of_keeps (hturn _) (by decide +kernel) (by decide +kernel)]
    exact tracking_markerTaken
  · rw [trkFrame, trk_markerClosed, trk_of_frame ((hturn _).rest.frame rfl), trk_markerTaken]
    exact ⟨rfl, rfl, rfl⟩

/-! ### Words that belong to no row (R90, R103) -/

/-- What the path does with words that belong to no row, once their faults are counted. -/
theorem keeps_strayWords_counted (ws : List RxWord) : Keeps (Reach.T.LANE_STATUS ||| Reach.T.out ||| Reach.T.span)
    (eachOf ws (countFault sd) s) (strayWords sd ws s) := by
  have hrd : ∀ x, Keeps (Reach.T.LANE_STATUS ||| Reach.T.out ||| Reach.T.span) x (keepRd sd ws x) := fun x =>
    keeps_keepRd _ _ rfl (.refl _ x)
  unfold strayWords
  dsimp only
  split
  · exact hrd _
  · exact keeps_sendPath _ _ _ rfl (hrd _)

/-- R90: the counters of faults. -/
theorem spares_countFault (w : RxWord) (hi : i < 312) (hlost : i ≠ C.EVT_LOST)
    (h : ∀ j ∈ [C.LINE_CODE_ERR_W, C.WORD_INVALID_W, C.ERROR_WORD_RX_W], i ≠ sided j (isEast sd)) :
    Spares i s (countFault sd s w) := by
  have hone : ∀ j ∈ [C.LINE_CODE_ERR_W, C.WORD_INVALID_W, C.ERROR_WORD_RX_W], Spares i s (countSide j sd s) := fun j hj =>
    spares_count hi hlost (sided_lt ((by decide : ∀ j ∈ [C.LINE_CODE_ERR_W, C.WORD_INVALID_W, C.ERROR_WORD_RX_W], j + 1 < 312) j hj))
      (h j hj)
  unfold countFault
  split
  · exact hone _ (by decide)
  split
  · exact hone _ (by decide)
  split
  · exact hone _ (by decide)
  · exact .refl i s

/-! ### The queue of events while faults are counted (R302, R463)

However many words are received, their faults are counted in one group of the ledger, so that one LEDGER_SAT at most is
raised for them. -/

/-- The counter's group of the faults has its summary bit. -/
def faultsSat (s : State) : Bool := nbit (rd F.LEDGER_SUMMARY_SAT s) 1

/-- The queue of events has had room for one LEDGER_SAT since `Room` held. -/
def FaultRoom (s : State) : Prop := Room s ∨ (s.host.events.length ≤ 49 ∧ faultsSat s = true)

theorem FaultRoom.length (h : FaultRoom s) : s.host.events.length ≤ 49 := by
  rcases h with h | h
  · exact Nat.le_succ_of_le h
  · exact h.1

theorem faultsSat_of_reg (h : reg R.LEDGER_SUMMARY t = reg R.LEDGER_SUMMARY s) : faultsSat t = faultsSat s := by
  rw [faultsSat, rd_of_reg F.LEDGER_SUMMARY_SAT h, faultsSat]

theorem FaultRoom.same (h : FaultRoom s) (he : t.host.events = s.host.events) (hr : reg R.LEDGER_SUMMARY t = reg R.LEDGER_SUMMARY s) :
    FaultRoom t := by
  unfold FaultRoom Room at *
  rwa [he, faultsSat_of_reg hr]

theorem nbit_one_add_two {n : Nat} (h : nbit n 1 = false) : nbit ((n + 2 ^ 1) % 2 ^ 16) 1 = true := by
  simp only [nbit, beq_eq_false_iff_ne, beq_iff_eq] at *
  omega

/-- R463: the first saturation in the group sets its summary bit, and no later one is told. -/
theorem satMark_fault (hg : groupOf i = 1) : (satMark i s).1.host.events = s.host.events ∧ faultsSat (satMark i s).1 = true ∧
    ((satMark i s).2 = true → faultsSat s = false) := by
  have hmark : ∀ v, faultsSat (wr (F.LEDGER_GRP_SAT_SAT 1) v s) = faultsSat s := fun v =>
    faultsSat_of_reg (reg_wr_other _ _ _ _ (by decide))
  unfold satMark
  rw [hg]
  dsimp only
  split
  · next h => exact ⟨rfl, h, fun hfalse => absurd hfalse Bool.false_ne_true⟩
  · next h =>
    have hclear := Bool.eq_false_iff.mpr h
    refine ⟨alertSet_events _, ?_, fun _ => (hmark _).symm.trans hclear⟩
    rw [faultsSat_of_reg (reg_alertSet _ _ (by decide)), faultsSat, rd_wr_same _ _ _ (by decide)]
    exact nbit_one_add_two hclear

/-- R302: a LEDGER_SAT that finds room writes no register. -/
theorem reg_raise_ledgerSat (off a : Nat) (h : s.host.events.length < 64) : reg off (raise E.LEDGER_SAT a s) = reg off s := by
  show reg off (raiseWith E.LEDGER_SAT a 0 s) = reg off s
  unfold raiseWith
  dsimp only
  split
  · rfl
  · rw [if_pos (Nat.lt_of_lt_of_le h (Nat.le_add_right _ _))]
    rfl

theorem faultRoom_count (hg : groupOf i = 1) (hi : i < 312) (h : FaultRoom s) : FaultRoom (count i s) := by
  have hbump : FaultRoom (bump i 1 s).1 := h.same rfl (reg_bump_other _ _ _ (counterAddr_ne i hi 0).2.1.symm)
  obtain ⟨hevents, hsat, hnew⟩ := satMark_fault (s := (bump i 1 s).1) hg
  have hmarked : FaultRoom (satMark i (bump i 1 s).1).1 := .inr ⟨hevents ▸ hbump.length, hsat⟩
  unfold count countN
  dsimp only
  split
  · split
    · split
      · next htold =>
        have hroom : Room (bump i 1 s).1 := hbump.resolve_right fun hfull => by
          rw [hnew htold] at hfull
          exact Bool.false_ne_true hfull.2
        have hlen : (satMark i (bump i 1 s).1).1.host.events.length ≤ 48 := hevents ▸ hroom
        refine .inr ⟨(joined_raise _ _).1.trans (Nat.succ_le_succ hlen), ?_⟩
        exact (faultsSat_of_reg (reg_raise_ledgerSat _ _ (Nat.lt_of_le_of_lt hlen (by decide)))).trans hsat
      · exact hmarked
    · exact hbump
  · exact h

theorem faultRoom_countFault (w : RxWord) (h : FaultRoom s) : FaultRoom (countFault sd s w) := by
  have hone : ∀ j, j + 1 < 312 → groupOf (sided j (isEast sd)) = 1 → FaultRoom (countSide j sd s) := fun j hj hg =>
    faultRoom_count hg (sided_lt hj) h
  unfold countFault
  split
  · exact hone _ (by decide) (by cases sd <;> decide)
  split
  · exact hone _ (by decide) (by cases sd <;> decide)
  split
  · exact hone _ (by decide) (by cases sd <;> decide)
  · exact h

theorem strayWords_length (ws : List RxWord) (h : Room s) : (strayWords sd ws s).host.events.length ≤ 49 := by
  have hcounted : FaultRoom (eachOf ws (countFault sd) s) :=
    eachOf_preserves (P := FaultRoom) ws (fun _ w hx => faultRoom_countFault w hx) (.inl h)
  exact (joined_of_keeps (keeps_strayWords_counted ws) (by decide)).1.trans hcounted.length

/-! ### A missed tick marker (R122) -/

/-- What a missed marker does before the tracker moves. -/
def markerMissed (sd : Side) (stray : List RxWord) (s : State) : State :=
  countSide C.TICK_MARKER_MISS_W sd
    (strayWords sd (RxWord.chain stray) (whenB (!(singleSided s && isEast sd)) measBreak s))

/-- R122: the tracker moves to the frame that follows. -/
def trackMissed (sd : Side) (s : State) : Track → Track := fun t =>
  { t with cyc8 := (nextFrame (trkFrame sd s)).cyc8, tick := (nextFrame (trkFrame sd s)).tick, misses := (trk sd s).misses + 1,
           missing := true }

theorem exec_tickMarkerMiss (ws : List RxWord) (hf : frmRuns s = true) (ht : tracking sd s = true) :
    exec (.tickMarkerMiss sd ws) s = .next
      (if 4 ≤ (trk sd s).misses + 1 then loseTrack sd (setTrk sd (trackMissed sd s) (markerMissed sd ws s))
       else setTrk sd (trackMissed sd s) (markerMissed sd ws s)) :=
  congrArg Host.Outcome.next (if_neg (by simp [hf, ht]))

/-- What a missed marker reaches before the tracker moves. -/
def missReach : Nat := T.counting ||| Reach.T.LANE_STATUS ||| Reach.T.out ||| Reach.T.span ||| Reach.T.regn

theorem keeps_markerMissed (ws : List RxWord) : Keeps missReach s (markerMissed sd ws s) :=
  keeps_countSide _ _ rfl (keeps_strayWords _ _ rfl (keeps_whenB _ _ (fun _ => keeps_measBreak rfl) (.refl _ s)))

theorem tracking_markerMissed (ws : List RxWord) (g : Track → Track) :
    tracking sd (setTrk sd g (markerMissed sd ws s)) = tracking sd s :=
  (tracking_setTrk _).trans (tracking_of_keeps (keeps_markerMissed ws) (by decide +kernel) (by decide +kernel))

theorem tallied_markerMissed (ws : List RxWord) (hc : countsNow s = true) :
    Tallied (sided C.TICK_MARKER_MISS_W (isEast sd)) 1 s (markerMissed sd ws s) := by
  have hi : sided C.TICK_MARKER_MISS_W (isEast sd) < 312 := sided_lt (by decide)
  have hlost : sided C.TICK_MARKER_MISS_W (isEast sd) ≠ C.EVT_LOST := by cases sd <;> decide
  generalize hx : whenB (!(singleSided s && isEast sd)) measBreak s = x
  have hbroken : Spares (sided C.TICK_MARKER_MISS_W (isEast sd)) s x := hx ▸ spares_whenB (.refl _ s)
  have hfaults : Spares (sided C.TICK_MARKER_MISS_W (isEast sd)) x (eachOf (RxWord.chain ws) (countFault sd) x) :=
    spares_eachOf _ fun y w => spares_countFault w hi hlost (by cases sd <;> decide)
  have hsent : Spares (sided C.TICK_MARKER_MISS_W (isEast sd)) (eachOf (RxWord.chain ws) (countFault sd) x)
      (strayWords sd (RxWord.chain ws) x) :=
    spares_of_keeps (keeps_strayWords_counted _) (by cases sd <;> decide +kernel)
  have hterm : (strayWords sd (RxWord.chain ws) x).term = s.term :=
    (Keeps.rest (A := missReach) (keeps_strayWords sd _ rfl (hx ▸ keeps_whenB _ _ (fun _ => keeps_measBreak rfl) (.refl _ s)))).term rfl
  rw [markerMissed, hx]
  exact (hbroken.trans (hfaults.trans hsent)).tallied (tallied_count hi hlost ((countsNow_of_term hterm).trans hc))

theorem tickMarkerMiss_moves (ws : List RxWord) (hf : frmRuns s = true) (ht : tracking sd s = true) (hm : (trk sd s).misses < 3) :
    ∃ t, exec (.tickMarkerMiss sd ws) s = .next t ∧ tracking sd t = true ∧ trkFrame sd t = nextFrame (trkFrame sd s) ∧
      (trk sd t).misses = (trk sd s).misses + 1 ∧ Tallied (sided C.TICK_MARKER_MISS_W (isEast sd)) 1 s t := by
  have htrk : trk sd (setTrk sd (trackMissed sd s) (markerMissed sd ws s)) = trackMissed sd s (trk sd s) :=
    (trk_setTrk _).trans (congrArg _ (trk_of_frame ((keeps_markerMissed ws).rest.frame rfl)))
  refine ⟨_, (exec_tickMarkerMiss ws hf ht).trans (congrArg _ (if_neg (by omega))), (tracking_markerMissed ws _).trans ht, ?_, ?_,
    tallied_spared (tallied_markerMissed ws (countsNow_of_frmRuns hf)) (spares_setTrk _)⟩
  · rw [trkFrame, htrk]
    rfl
  · rw [htrk]
    rfl

theorem waits_loseTrack (h : tracking sd s = true) (hlen : s.host.events.length < 64) :
    Waits E.TRACK_LOST (laneOf sd) (loseTrack sd s) := by
  unfold loseTrack
  dsimp only
  rw [if_pos h]
  refine waits_raise _ _ ?_
  have hquiet : (setSpan sd noRows (setTrk sd (fun _ => {}) (measBreak s))).host = s.host :=
    (setSpan_host _ _ _).trans (setTrk_host _)
  exact (congrArg (fun x : HostSt => x.events.length) hquiet).trans_lt hlen

theorem tickMarkerMiss_loses (ws : List RxWord) (hf : frmRuns s = true) (ht : tracking sd s = true) (hm : 3 ≤ (trk sd s).misses)
    (hroom : Room s) :
    ∃ t, exec (.tickMarkerMiss sd ws) s = .next t ∧ tracking sd t = false ∧ Waits E.TRACK_LOST (laneOf sd) t := by
  have hbroken : Room (whenB (!(singleSided s && isEast sd)) measBreak s) := by
    unfold whenB
    split <;> exact hroom
  have hlen : (markerMissed sd ws s).host.events.length ≤ 50 :=
    (joined_count _).1.trans (Nat.succ_le_succ (strayWords_length _ hbroken))
  refine ⟨_, (exec_tickMarkerMiss ws hf ht).trans (congrArg _ (if_pos (by omega))), tracking_loseTrack,
    waits_loseTrack ((tracking_markerMissed ws _).trans ht) ?_⟩
  rw [setTrk_host]
  exact Nat.lt_of_le_of_lt hlen (by decide)

end Sys2Proof.Proofs

end

/-! PROOF. Rows judged, selected and lost (spec/05_tick_frame.md R118, R119, R124, R131, R132). -/

section

namespace Sys2Proof.Proofs

open Sys2Proof Sys2Proof.Machine Sys2Proof.Claims Sys2Proof.Laws

set_option Elab.async false

variable {s t : State} {sd : Side} {f : FrameId} {row : Nat} {ws : List RxWord}

/-! ### Judging a row -/

/-- A row's words are counted, and forwarded outside fill (R90, R103). -/
def rowHeard (sd : Side) (row : Nat) (ws : List RxWord) (s : State) : State :=
  if on (fFILLING sd) (keepRd sd ws (eachOf ws (countFault sd) s)) then keepRd sd ws (eachOf ws (countFault sd) s)
  else forwardRow sd row ws (keepRd sd ws (eachOf ws (countFault sd) s))

/-- A row heard and judged on its input. -/
def rowJudged (sd : Side) (row : Nat) (ws : List RxWord) (s : State) : State :=
  noteRows sd (judgeRow sd row ws (rowHeard sd row ws s)).1 (judgeRow sd row ws (rowHeard sd row ws s)).2

/-- What judging a row reaches. -/
def judgeReach : Nat := T.counting ||| Reach.T.LANE_STATUS ||| Reach.T.out ||| Reach.T.span ||| Reach.T.win

theorem keeps_rowHeard : Keeps judgeReach s (rowHeard sd row ws s) := by
  have hfaults : Keeps judgeReach s (keepRd sd ws (eachOf ws (countFault sd) s)) :=
    keeps_keepRd _ _ rfl (keeps_eachOf _ _ (fun _ _ => keeps_countFault _ _ rfl) (.refl _ s))
  exact keeps_ite (fun _ => hfaults) (fun _ => keeps_forwardRow _ _ _ rfl hfaults)

theorem keeps_rowJudged : Keeps judgeReach s (rowJudged sd row ws s) :=
  keeps_noteRows _ _ rfl (keeps_judgeRow _ _ _ rfl keeps_rowHeard)

/-- A verdict asks only for the row's words and the copy's tracker. -/
theorem judgeRow_verdict (h : trk sd t = trk sd s) : (judgeRow sd row ws t).1 = (judgeRow sd row ws s).1 := by
  unfold judgeRow
  rw [h]
  dsimp only
  simp only [apply_ite Prod.fst]

theorem usedSide_of_keeps (h : Keeps judgeReach s t) : usedSide sd t = usedSide sd s := by
  unfold usedSide singleSided
  rw [on_of_rd (h.rd F.SPAN_CFG_SIDES (by decide +kernel)), h.rd F.SEL_CFG_USE (by decide +kernel)]

theorem laterFrame_congr (h : t.line = s.line) (o : Option FrameId) : laterFrame o f t = laterFrame o f s := by
  have habs : ∀ g, absTick g t = absTick g s := fun g => by
    unfold absTick
    rw [h]
  unfold laterFrame
  simp only [habs]

/-! ### Selecting a row (R131) -/

/-- R131: a row that passed is selected, unless one of its copies was, or it is lost. -/
def rowTaken (sd : Side) (f : FrameId) (row : Nat) (v : Verdict) (ws : List RxWord) (s : State) : State :=
  match rowRec f row s with
  | some x => if v == .pass && x.sel.isNone && !x.lost then selectRow sd f row ws s else s
  | none => s

/-- R131: the verdict on a row of frame `f` is noted, and the row taken where it is the first to pass. -/
def rowSettled (sd : Side) (f : FrameId) (row : Nat) (v : Verdict) (ws : List RxWord) (s : State) : State :=
  rowTaken sd f row v ws (noteVerdict sd f row v s)

theorem rowHeard_passes (ht : tracking sd s = true) (hpass : (judgeRow sd row ws s).1 = .pass) :
    tracking sd (rowHeard sd row ws s) = true ∧ trkFrame sd (rowHeard sd row ws s) = trkFrame sd s ∧
      (judgeRow sd row ws (rowHeard sd row ws s)).1 = .pass := by
  have hk : Keeps judgeReach s (rowHeard sd row ws s) := keeps_rowHeard
  have htrk : trk sd (rowHeard sd row ws s) = trk sd s := trk_of_frame (hk.rest.frame rfl)
  exact ⟨(tracking_of_keeps hk (by decide +kernel) (by decide +kernel)).trans ht, by rw [trkFrame, htrk, trkFrame],
    (judgeRow_verdict htrk).trans hpass⟩

theorem exec_rowCheck (row : BitVec 5) (words : List RxWord) (hf : frmRuns s = true) (hw : wordLock sd s = true)
    (hws : chainRow row.toNat words = ws) : exec (.rowCheck sd row words) s = .next
      (if !tracking sd (rowHeard sd row.toNat ws s) then rowHeard sd row.toNat ws s
       else if !usedSide sd (rowJudged sd row.toNat ws s) then rowJudged sd row.toNat ws s
       else rowSettled sd (trkFrame sd (rowHeard sd row.toNat ws s)) row.toNat
         (judgeRow sd row.toNat ws (rowHeard sd row.toNat ws s)).1 ws (rowJudged sd row.toNat ws s)) := by
  subst hws
  exact congrArg Host.Outcome.next (if_neg (by simp [hf, hw]))

theorem exec_rowCheck_pass {row : BitVec 5} {words : List RxWord} (hf : frmRuns s = true) (hw : wordLock sd s = true)
    (ht : tracking sd s = true) (hu : usedSide sd s = true) (hws : chainRow row.toNat words = ws)
    (hpass : (judgeRow sd row.toNat ws s).1 = .pass) :
    exec (.rowCheck sd row words) s =
      .next (rowSettled sd (trkFrame sd s) row.toNat .pass ws (rowJudged sd row.toNat ws s)) := by
  obtain ⟨htracks, hframe, hverdict⟩ := rowHeard_passes ht hpass
  have hused : usedSide sd (rowJudged sd row.toNat ws s) = true := (usedSide_of_keeps keeps_rowJudged).trans hu
  rw [exec_rowCheck row words hf hw hws, if_neg (by simp [htracks]), if_neg (by simp [hused]), hframe, hverdict]

/-! ### What the first pass does, and what a later one does -/

/-- R131: the row is selected from a side, and counted. -/
def rowPicked (sd : Side) (f : FrameId) (row : Nat) (s : State) : State :=
  modRow f row (fun r => { r with sel := some sd }) (count (if isEast sd then C.SPAN_ROW_PICK_EAST else C.SPAN_ROW_PICK_WEST) s)

theorem rowRec_rowPicked : rowRec f row (rowPicked sd f row s) = (rowRec f row s).map (fun r => { r with sel := some sd }) := by
  rw [rowPicked, rowRec_modRow (g := fun r => { r with sel := some sd }) (fun _ => rfl), rowRec_of_rows (congrArg FrameSt.rows (count_frame _ s))]

/-- R128, R138: row 0 of frame `f` awaits its regions. -/
def row0Taken (f : FrameId) (id : Nat) (s : State) : State :=
  setFrame (fun x => { x with row0Frame := some f, row0Id := id, slotDue := true, regionStopped := false }) s

theorem selectRow_zero : selectRow sd f 0 ws s =
    followRow0 sd (row0Judged f true (row0Taken f (termId s) (rowPicked sd f 0 s))) := rfl

theorem selectRow_other (h : row ≠ 0) : selectRow sd f row ws s =
    readRow (absTick f (rowPicked sd f row s)) row (some ws) (rowPicked sd f row s) := if_neg (by simpa using h)

theorem noteVerdict_row0 {v : Verdict} : (noteVerdict sd f row v s).frame.row0Frame = s.frame.row0Frame ∧
    (noteVerdict sd f row v s).frame.row0Last = s.frame.row0Last := by
  rw [noteVerdict_eq]
  exact ⟨rfl, rfl⟩

theorem keeps_followRow0_self : Keeps Reach.T.TIME_STATUS s (followRow0 sd s) := keeps_followRow0 sd rfl (.refl _ s)

theorem row0Judged_frame (ok : Bool) : (row0Judged f ok s).frame.rows = s.frame.rows ∧
    (row0Judged f ok s).frame.row0Frame = s.frame.row0Frame ∧ (row0Judged f ok s).frame.row0Id = s.frame.row0Id ∧
    (row0Judged f ok s).frame.hdrFrame = s.frame.hdrFrame := by
  unfold row0Judged
  split <;> exact ⟨rfl, rfl, rfl, rfl⟩

theorem on_row0Judged (ok : Bool) (h : laterFrame s.frame.row0Last f s = true) :
    on F.FRAME_STATUS_ROW0_OK (row0Judged f ok s) = ok := by
  unfold row0Judged
  rw [if_pos h, on_setFrame, on, rd_wr_fits (by decide) (by cases ok <;> decide)]
  cases ok <;> rfl

theorem rowRec_selectRow : rowRec f row (selectRow sd f row ws s) = (rowRec f row s).map (fun r => { r with sel := some sd }) := by
  by_cases hrow : row = 0
  · subst hrow
    rw [selectRow_zero, rowRec_of_rows (rows_of_keeps keeps_followRow0_self (by decide)), rowRec_of_rows (row0Judged_frame _).1]
    exact rowRec_rowPicked
  · rw [selectRow_other hrow, rowRec_of_rows (rows_readRow _ _ _), rowRec_rowPicked]

theorem selectRow_zero_end : (selectRow sd f 0 ws s).frame.row0Frame = some f ∧ (selectRow sd f 0 ws s).frame.row0Id = termId s ∧
    (laterFrame s.frame.row0Last f s = true → on F.FRAME_STATUS_ROW0_OK (selectRow sd f 0 ws s) = true) := by
  have hpicked : Keeps (T.counting ||| Reach.T.frame) s (rowPicked sd f 0 s) := keeps_modRow _ _ _ rfl (keeps_count _ rfl (.refl _ s))
  have hlast : (rowPicked sd f 0 s).frame.row0Last = s.frame.row0Last := by
    show (count _ s).frame.row0Last = _
    rw [count_frame]
  obtain ⟨-, hframe, hid, -⟩ := row0Judged_frame (f := f) (s := row0Taken f (termId s) (rowPicked sd f 0 s)) true
  rw [selectRow_zero, keeps_followRow0_self.rest.frame rfl]
  refine ⟨hframe, hid, fun hlater => ?_⟩
  rw [on_of_rd (keeps_followRow0_self.rd F.FRAME_STATUS_ROW0_OK (by decide +kernel))]
  refine on_row0Judged true ?_
  rw [laterFrame_congr (s := s) (t := row0Taken f (termId s) (rowPicked sd f 0 s)) (hpicked.rest.line rfl)]
  exact hlast.symm ▸ hlater

section

variable {r : RowRec}

theorem rowSettled_first (h : rowRec f row s = none) : rowSettled sd f row .pass ws s =
    selectRow sd f row ws (noteVerdict sd f row .pass s) := by
  have hfresh : (withVerdict sd .pass (freshRow f row s)).sel = none ∧ (withVerdict sd .pass (freshRow f row s)).lost = false :=
    ⟨sel_withVerdict _ _, lost_withVerdict _ _⟩
  rw [rowSettled, rowTaken, rowRec_noteVerdict, h]
  exact if_pos (by simp [hfresh])

theorem rowSettled_again {sel : Side} (h : rowRec f row s = some r) (hsel : r.sel = some sel) :
    rowSettled sd f row .pass ws s = noteVerdict sd f row .pass s := by
  rw [rowSettled, rowTaken, rowRec_noteVerdict, h]
  exact if_neg (by simp [sel_withVerdict, hsel])

end

section

variable {row : BitVec 5} {words : List RxWord} (hf : frmRuns s = true) (hw : wordLock sd s = true)
  (ht : tracking sd s = true) (hu : usedSide sd s = true)
  (hpass : (judgeRow sd row.toNat (chainRow row.toNat words) s).1 = .pass)

include hf hw ht hu hpass

/-- R131: the first copy that passes is selected. -/
theorem rowCheck_selects (hnone : rowRec (trkFrame sd s) row.toNat s = none) :
    ∃ t r, exec (.rowCheck sd row words) s = .next t ∧ rowRec (trkFrame sd s) row.toNat t = some r ∧ r.sel = some sd ∧
      recVerdict sd r = some .pass ∧
      (row = 0 → t.frame.row0Frame = some (trkFrame sd s) ∧ t.frame.row0Id = termId s ∧
        (laterFrame s.frame.row0Last (trkFrame sd s) s = true → on F.FRAME_STATUS_ROW0_OK t = true)) := by
  generalize hfr : trkFrame sd s = f at *
  generalize hj : rowJudged sd row.toNat (chainRow row.toNat words) s = u
  have hk : Keeps judgeReach s u := hj ▸ keeps_rowJudged
  have hfirst : rowRec f row.toNat u = none := (rowRec_of_rows (rows_of_keeps hk (by decide))).trans hnone
  have hexec := exec_rowCheck_pass hf hw ht hu rfl hpass
  rw [hfr, hj, rowSettled_first hfirst] at hexec
  refine ⟨_, { withVerdict sd .pass (freshRow f row.toNat u) with sel := some sd }, hexec, ?_, rfl, ?_, fun hrow => ?_⟩
  · rw [rowRec_selectRow, rowRec_noteVerdict, hfirst]
    rfl
  · cases sd <;> rfl
  · subst hrow
    obtain ⟨hframe, hid, hok⟩ := selectRow_zero_end (sd := sd) (f := f) (ws := chainRow 0 words) (s := noteVerdict sd f 0 .pass u)
    have hnoted : Keeps Reach.T.frame u (noteVerdict sd f 0 .pass u) := keeps_noteVerdict _ _ _ _ rfl (.refl _ u)
    have hterm : termId (noteVerdict sd f 0 .pass u) = termId s :=
      (hnoted.rd F.REG_STATUS_TERM_ID (by decide +kernel)).trans (hk.rd F.REG_STATUS_TERM_ID (by decide +kernel))
    have hlast : (noteVerdict sd f 0 .pass u).frame.row0Last = s.frame.row0Last :=
      noteVerdict_row0.2.trans (congrArg FrameSt.row0Last (hk.rest.frame rfl))
    refine ⟨hframe, hid.trans hterm, fun hlater => hok ?_⟩
    rw [hlast, laterFrame_congr ((hnoted.rest.line rfl).trans (hk.rest.line rfl))]
    exact hlater

/-- R131: the copy that passes second changes no selection. -/
theorem rowCheck_again {x : RowRec} {sel : Side} (hx : rowRec (trkFrame sd s) row.toNat s = some x) (hsel : x.sel = some sel) :
    ∃ t r, exec (.rowCheck sd row words) s = .next t ∧ rowRec (trkFrame sd s) row.toNat t = some r ∧ r.sel = some sel ∧
      recVerdict sd r = some .pass ∧ t.frame.row0Frame = s.frame.row0Frame := by
  generalize hfr : trkFrame sd s = f at *
  generalize hj : rowJudged sd row.toNat (chainRow row.toNat words) s = u
  have hk : Keeps judgeReach s u := hj ▸ keeps_rowJudged
  have hbefore : rowRec f row.toNat u = some x := (rowRec_of_rows (rows_of_keeps hk (by decide))).trans hx
  have hexec := exec_rowCheck_pass hf hw ht hu rfl hpass
  rw [hfr, hj, rowSettled_again hbefore hsel] at hexec
  refine ⟨_, withVerdict sd .pass x, hexec, ?_, (sel_withVerdict _ _).trans hsel, recVerdict_withVerdict _ _,
    noteVerdict_row0.1.trans (congrArg FrameSt.row0Frame (hk.rest.frame rfl))⟩
  rw [rowRec_noteVerdict, hbefore]
  rfl

end

/-! ### A lost row (R124, R132) -/

/-- R132: the row is marked lost, and counted. -/
def rowMarked (f : FrameId) (row : Nat) (s : State) : State :=
  count C.SPAN_ROW_LOST (modRow f row (fun r => { r with lost := true }) s)

/-- R124: the frame's header is counted lost, and marked so. -/
def headerMarked (f : FrameId) (s : State) : State := modRow f 0 (fun r => { r with hdr := true }) (count C.HDR_LOST s)

/-- R124: a later frame than the last header's has none. -/
def headerDropped (f : FrameId) (s : State) : State :=
  wr F.FRAME_STATUS_HDR_OK 0 (setFrame (fun x => { x with hdrFrame := some f, disc := none }) s)

/-- R127, R139: what a frame without a header does once it is marked. -/
def headerless (f : FrameId) (n : Nat) (s : State) : State :=
  missingWhole (absTick f (genDue .key n (genDue .map n (genDue .p n s)))) (genDue .key n (genDue .map n (genDue .p n s)))

theorem headerLost_eq : headerLost f s =
    headerless f s.line (whenB (laterFrame s.frame.hdrFrame f s) (headerDropped f) (headerMarked f s)) := rfl

theorem stand_headerless (n : Nat) : RowsStand s (headerless f n s) :=
  (((stand_genDue _ _).trans (stand_genDue _ _)).trans (stand_genDue _ _)).trans (stand_missingWhole _)

/-- What a frame without a header reaches once it is marked. -/
def headerlessReach : Nat := T.counting ||| Reach.T.frame ||| Reach.T.key ||| Reach.T.th ||| Reach.T.TIME_STATUS ||| Reach.T.FRAME_GEN

theorem keeps_headerless (n : Nat) : Keeps headerlessReach s (headerless f n s) :=
  keeps_missingWhole _ rfl (keeps_genDue _ _ rfl (keeps_genDue _ _ rfl (keeps_genDue _ _ rfl (.refl _ s))))

/-- A frame's header lost leaves the selector's records but for the header's mark. -/
theorem rowRec_headerLost : rowRec f 0 (headerLost f s) = (rowRec f 0 s).map (fun r => { r with hdr := true }) := by
  have hdropped : ∀ x, rowRec f 0 (whenB (laterFrame s.frame.hdrFrame f s) (headerDropped f) x) = rowRec f 0 x := fun x => by
    unfold whenB
    split <;> rfl
  rw [headerLost_eq, rowRec_of_rows (stand_headerless _).rows, hdropped, headerMarked,
    rowRec_modRow (g := fun r => { r with hdr := true }) (fun _ => rfl), rowRec_of_rows (congrArg FrameSt.rows (count_frame _ s))]

theorem spares_headerLost : Spares C.SPAN_ROW_LOST s (headerLost f s) := by
  have hmarked : Spares C.SPAN_ROW_LOST s (headerMarked f s) := (stand_count (s := s) (j := C.HDR_LOST) (by decide) (by decide)).lost
  have hdropped : ∀ x, Spares C.SPAN_ROW_LOST x (headerDropped f x) := fun x =>
    (stand_wr (s := x) (g := F.FRAME_STATUS_HDR_OK) 0 rfl).lost
  rw [headerLost_eq]
  exact (hmarked.trans (spares_whenB (hdropped _))).trans (stand_headerless _).lost

theorem on_hdrOk_headerLost (h : laterFrame s.frame.hdrFrame f s = true) : on F.FRAME_STATUS_HDR_OK (headerLost f s) = false := by
  rw [headerLost_eq, on_of_rd ((keeps_headerless _).rd F.FRAME_STATUS_HDR_OK (by decide +kernel)), h]
  show on F.FRAME_STATUS_HDR_OK (wr F.FRAME_STATUS_HDR_OK 0 _) = false
  rw [on, rd_wr_fits (by decide) (by decide)]
  rfl

theorem on_row0Ok_headerLost : on F.FRAME_STATUS_ROW0_OK (headerLost f s) = on F.FRAME_STATUS_ROW0_OK s := by
  have hmarked : Keeps (T.counting ||| Reach.T.frame) s (headerMarked f s) := keeps_modRow _ _ _ rfl (keeps_count _ rfl (.refl _ s))
  have hdropped : ∀ x, on F.FRAME_STATUS_ROW0_OK (headerDropped f x) = on F.FRAME_STATUS_ROW0_OK x := fun x =>
    on_of_rd (rd_wr_other _ _ _ _ (by decide) (by decide))
  rw [headerLost_eq, on_of_rd ((keeps_headerless _).rd F.FRAME_STATUS_ROW0_OK (by decide +kernel)),
    ← on_of_rd (hmarked.rd F.FRAME_STATUS_ROW0_OK (by decide +kernel))]
  unfold whenB
  split
  · exact hdropped _
  · rfl

/-- R132, R124: row 0 of a frame is lost, and its header with it unless it was `settled` before. -/
def row0Lost (settled : Bool) (f : FrameId) (s : State) : State :=
  if settled then row0Judged f false s else headerLost f (row0Judged f false s)

section

variable {settled : Bool}

theorem spares_row0Judged (ok : Bool) : Spares C.SPAN_ROW_LOST s (row0Judged f ok s) := by
  unfold row0Judged
  split
  · exact (stand_wr (s := s) (g := F.FRAME_STATUS_ROW0_OK) (b2n ok) rfl).lost
  · exact .refl _ s

theorem spares_row0Lost : Spares C.SPAN_ROW_LOST s (row0Lost settled f s) := by
  cases settled
  · exact (spares_row0Judged false).trans spares_headerLost
  · exact spares_row0Judged false

theorem lost_row0Lost (h : (rowRec f 0 s).any (fun x => x.lost) = true) :
    (rowRec f 0 (row0Lost settled f s)).any (fun x => x.lost) = true := by
  have hjudged : rowRec f 0 (row0Judged f false s) = rowRec f 0 s := rowRec_of_rows (row0Judged_frame false).1
  cases settled
  · show (rowRec f 0 (headerLost f _)).any _ = true
    rw [rowRec_headerLost, hjudged, Option.any_map]
    exact h
  · exact hjudged.symm ▸ h

theorem on_row0Ok_row0Lost (h : laterFrame s.frame.row0Last f s = true) :
    on F.FRAME_STATUS_ROW0_OK (row0Lost settled f s) = false := by
  cases settled
  · exact on_row0Ok_headerLost.trans (on_row0Judged false h)
  · exact on_row0Judged false h

theorem on_hdrOk_row0Lost (hs : settled = false) (h : laterFrame s.frame.hdrFrame f s = true) :
    on F.FRAME_STATUS_HDR_OK (row0Lost settled f s) = false := by
  have hk : Keeps (Reach.T.FRAME_STATUS ||| Reach.T.frame) s (row0Judged f false s) := keeps_row0Judged _ _ rfl (.refl _ s)
  obtain ⟨-, -, -, hhdr⟩ := row0Judged_frame (f := f) (s := s) false
  subst hs
  refine on_hdrOk_headerLost ?_
  rw [hhdr, laterFrame_congr (hk.rest.line rfl)]
  exact h

end

theorem exec_spanRowLost {row : BitVec 5} {e : Bool} {r : RowRec} (hr : rowRec f row.toNat s = some r) (hf : frmRuns s = true)
    (hl : rowIsLost e r s = true) : exec (.spanRowLost f row e) s = .next
      (if row.toNat == 0 then row0Lost (hdrSettled f s) f (rowMarked f row.toNat s)
       else readRow (absTick f (rowMarked f row.toNat s)) row.toNat none (rowMarked f row.toNat s)) := by
  show execSpanRowLost f row e s = _
  unfold execSpanRowLost
  rw [hr]
  exact congrArg Host.Outcome.next (if_neg (by simp [hf, hl]))

theorem rowMarked_end {r : RowRec} (hr : rowRec f row s = some r) (hc : countsNow s = true) :
    Tallied C.SPAN_ROW_LOST 1 s (rowMarked f row s) ∧ (rowRec f row (rowMarked f row s)).any (fun x => x.lost) = true ∧
      (rowMarked f row s).frame.row0Last = s.frame.row0Last ∧ (rowMarked f row s).frame.hdrFrame = s.frame.hdrFrame ∧
      (rowMarked f row s).line = s.line := by
  generalize hm : modRow f row (fun r => { r with lost := true }) s = u
  have hmod : rowRec f row u = some { r with lost := true } := by
    rw [← hm, rowRec_modRow (g := fun r => { r with lost := true }) (fun _ => rfl), hr]
    rfl
  have hquiet : Spares C.SPAN_ROW_LOST s u := hm ▸ .refl _ s
  have hcounts : countsNow u = true := hm ▸ hc
  have hframe : (count C.SPAN_ROW_LOST u).frame = u.frame := count_frame _ u
  have hline : (count C.SPAN_ROW_LOST u).line = u.line := count_line _ u
  rw [rowMarked, hm]
  refine ⟨hquiet.tallied (tallied_count (by decide) (by decide) hcounts), ?_, ?_, ?_, ?_⟩
  · rw [rowRec_of_rows (congrArg FrameSt.rows hframe), hmod]
    rfl
  · rw [hframe, ← hm]
    rfl
  · rw [hframe, ← hm]
    rfl
  · rw [hline, ← hm]
    rfl

theorem spanRowLost_counts {row : BitVec 5} {e : Bool} {r : RowRec} (hr : rowRec f row.toNat s = some r) (hf : frmRuns s = true)
    (hl : rowIsLost e r s = true) :
    ∃ t, exec (.spanRowLost f row e) s = .next t ∧ Tallied C.SPAN_ROW_LOST 1 s t ∧
      (row.toNat = 0 → (laterFrame s.frame.row0Last f s = true → on F.FRAME_STATUS_ROW0_OK t = false) ∧
        (hdrSettled f s = false → laterFrame s.frame.hdrFrame f s = true → on F.FRAME_STATUS_HDR_OK t = false)) ∧
      (rowRec f row.toNat t).any (fun x => x.lost) = true := by
  obtain ⟨htally, hlost, hrow0, hhdr, hline⟩ := rowMarked_end hr (countsNow_of_frmRuns hf)
  have hexec := exec_spanRowLost hr hf hl
  generalize row.toNat = n at *
  generalize hm : rowMarked f n s = u at *
  by_cases hn : n = 0
  · subst hn
    rw [if_pos (beq_self_eq_true 0)] at hexec
    refine ⟨_, hexec, tallied_spared htally spares_row0Lost, fun _ => ⟨fun hlater => on_row0Ok_row0Lost ?_,
      fun hsettled hlater => on_hdrOk_row0Lost hsettled ?_⟩, lost_row0Lost hlost⟩
    · rw [hrow0, laterFrame_congr hline]
      exact hlater
    · rw [hhdr, laterFrame_congr hline]
      exact hlater
  · rw [if_neg (by simpa using hn)] at hexec
    refine ⟨_, hexec, tallied_spared htally (stand_readRow_none _ _).lost, fun h => absurd h hn, ?_⟩
    rw [rowRec_of_rows (rows_readRow _ _ _)]
    exact hlost

/-- Settles O23. -/
theorem rowsAreTrackedAndSelected : Obligations.RowsAreTrackedAndSelected :=
  ⟨fun _ _ a _ _ _ _ hm => tickMarker_tracks a hm, fun _ ws _ => tickMarkerMiss_moves ws, fun _ ws _ => tickMarkerMiss_loses ws,
    fun _ _ _ _ hf hw ht hu hpass => ⟨rowCheck_selects hf hw ht hu hpass, fun _ _ => rowCheck_again hf hw ht hu hpass⟩,
    fun _ _ _ _ _ => spanRowLost_counts⟩

end Sys2Proof.Proofs

end

/-! PROOF. A sequenced note of the ID stream that is heard: its SEQ is recorded, and its answer waits
(spec/07_management_notes.md R177, R178). -/

section

namespace Sys2Proof.Proofs

open Sys2Proof Sys2Proof.Machine Sys2Proof.Claims Sys2Proof.Laws

set_option Elab.async false

variable {s t u : State} {n : Note}

/-! ### The answer waits (R178, R182) -/

/-- R182, R192: a note sent again waits where the queue has room. -/
theorem queueAgain_queued {type : Nat} {body : List Byte} (h : s.note.up.length < 16) :
    Queued type body (queueAgain type body s) := by
  unfold queueAgain
  dsimp only
  split
  · exact upPush_queued (n := { type, seq := (lget (256, []) s.note.last type).1, body, age := 0 }) h
  · exact queueUp_queued h

/-- A stream's last SEQ stands in NOTE_SEQ. -/
theorem lastSeq_of_reg {a : NAddr} (h : reg R.NOTE_SEQ t = reg R.NOTE_SEQ s) : lastSeq a t = lastSeq a s := by
  have hrd : ∀ f : Fld, f.off = R.NOTE_SEQ → rd f t = rd f s := fun f hf => rd_of_reg f (by rw [hf]; exact h)
  unfold lastSeq on
  cases a with
  | id => rw [hrd F.NOTE_SEQ_ID_VALID rfl, hrd F.NOTE_SEQ_ID_LAST rfl]
  | all => rw [hrd F.NOTE_SEQ_BC_VALID rfl, hrd F.NOTE_SEQ_BC_LAST rfl]
  | fprint => rw [hrd F.NOTE_SEQ_FP_VALID rfl, hrd F.NOTE_SEQ_FP_LAST rfl]

/-- R178: a status given to the last note of the ID stream stands in NOTE_SEQ, and its NOTE_ACK waits. -/
theorem answer_acked {st : Nat} (hst : st < 256) (hseq : lastSeq .id s = some n.seq.toNat) (hup : s.note.up.length < 16) :
    Acked n st (answer n (some .id) st s) := by
  obtain ⟨x, hx, hseq, hup⟩ : ∃ x, answer n (some .id) st s = ackNote n st (keepStatus n st x) ∧
      lastSeq .id x = some n.seq.toNat ∧ x.note.up.length < 16 := by
    refine ⟨whenB (decide (2 ≤ st)) (count C.NOTE_REJECTED) s, rfl, ?_, ?_⟩
    · refine (lastSeq_of_reg ?_).trans hseq
      unfold whenB
      split
      · exact reg_count _ _ _ (by decide)
      · rfl
    · unfold whenB
      split
      · rwa [count_note]
      · exact hup
  have hkept : keepStatus n st x = setNote (fun y => { y with idStatus := some st }) (wr F.NOTE_SEQ_LAST_STATUS st x) :=
    if_pos (by simp [hseq])
  have hagain : ∀ y, Keeps upReach y (ackNote n st y) := fun y => keeps_queueAgain _ _ rfl (.refl _ y)
  rw [hx, hkept]
  refine ⟨((hagain _).rd _ (by decide +kernel)).trans (rd_wr_fits (by decide) hst), ?_⟩
  exact queueAgain_queued (s := setNote (fun y => { y with idStatus := some st }) (wr F.NOTE_SEQ_LAST_STATUS st x)) hup

/-! ### A sequenced note that is heard (R177) -/

theorem noted_eq (n : Note) (s : State) : noted n s = setNote (fun x => { x with idStatus := none })
    (wr F.NOTE_SEQ_ID_VALID 1 (wr F.NOTE_SEQ_ID_LAST n.seq.toNat (count C.NOTE_RX s))) := rfl

theorem lastSeq_noted : lastSeq .id (noted n s) = some n.seq.toNat := by
  have hvalid : rd F.NOTE_SEQ_ID_VALID (noted n s) = 1 := by
    rw [noted_eq, rd_setNote]
    exact rd_wr_fits (by decide) (by decide)
  have hlast : rd F.NOTE_SEQ_ID_LAST (noted n s) = n.seq.toNat := by
    rw [noted_eq, rd_setNote, rd_wr_other _ _ _ _ (by decide) (by decide)]
    exact rd_wr_fits (by decide) n.seq.isLt
  unfold lastSeq on
  rw [hvalid, hlast]
  rfl

theorem up_noted : (noted n s).note.up = s.note.up := by
  show (count C.NOTE_RX s).note.up = _
  rw [count_note]

variable {k : NKind} {act : List Byte → NAddr → State → Option Nat × State}

/-- A note of a sequenced kind that is heard on the ID stream has its SEQ recorded, acts, and is answered. -/
theorem takeNote_noted {st : Nat} (h : Heard k n .id s) (hk : k.sequenced = true)
    (ha : act (noteFields n .id) .id (noted n s) = (some st, u)) : takeNote k n act s = answer n (some .id) st u := by
  obtain ⟨hp, hbad, haddr, hmode, hacts, hnew, hok, hlen⟩ := h
  have hseq : lastSeq .id (count C.NOTE_RX s) = lastSeq .id s := lastSeq_of_reg (reg_count _ _ _ (by decide))
  have hact : act (noteFields n .id) .id (newSeq .id n.seq.toNat (count C.NOTE_RX s)) = (some st, u) := ha
  unfold takeNote
  rw [if_neg (by simp [hp]), if_neg (by simp [hbad]), haddr]
  dsimp only
  rw [if_neg (by simpa using hacts), if_neg (by simpa using hmode), if_neg (by simp [hk]),
    if_neg (by simpa [hseq] using hnew hk), if_neg (by rw [hok, hlen]; simp), hk, hact]
  rfl

/-- What an answer reaches. -/
def answerReach : Nat := T.counting ||| Reach.T.note ||| Reach.T.NOTE_SEQ

theorem keeps_answer_self (o : Option NAddr) (st : Nat) : Keeps answerReach s (answer n o st s) := keeps_answer _ _ _ rfl (.refl _ s)

/-- What a note does that leaves the streams and the queue of upstream notes alone is answered as the last of the ID
stream. -/
theorem answered_acked {A st : Nat} (hst : st < 256) (hspace : Space s) (hu : Keeps A (noted n s) u)
    (hA : Reach.reg A R.NOTE_SEQ = false) (hnote : A.testBit 11 = false) : Acked n st (answer n (some .id) st u) := by
  refine answer_acked hst ((lastSeq_of_reg (hu.rest.regs _ hA)).trans lastSeq_noted) ?_
  rw [hu.rest.note hnote, up_noted]
  exact Nat.lt_of_le_of_lt hspace (by decide)

end Sys2Proof.Proofs

end

/-! PROOF. Ranging: the measurement asked for, its report, and the head end's answers
(spec/06_registration_ranging_time.md R155, R157, R159, R160). -/

section

namespace Sys2Proof.Proofs

open Sys2Proof Sys2Proof.Machine Sys2Proof.Claims Sys2Proof.Laws

set_option Elab.async false

variable {s : State} {n : Note} {x : Ranged}

/-! ### A report (R159) -/

/-- R159: a new report is the terminal's report, and its repetition starts afresh. -/
theorem newReport_regn (dE dW : Int) (gen mode : Nat) :
    ∃ body, (newReport dE dW gen mode s).regn = { s.regn with report := some body, reportRep := 0 } := by
  unfold newReport
  exact ⟨_, (keeps_queueUp_self _ _).rest.regn rfl⟩

/-- R159: a new report takes the next SEQ, waits for its acknowledgement, and leaves the rest of RANGE_STATUS. -/
theorem newReport_status (dE dW : Int) (gen mode : Nat) :
    rd F.RANGE_STATUS_REPORT_SEQ (newReport dE dW gen mode s) = (rd F.RANGE_STATUS_REPORT_SEQ s + 1) % 256 ∧
    rd F.RANGE_STATUS_ACKED (newReport dE dW gen mode s) = 0 ∧
    rd F.RANGE_STATUS_MEASURING (newReport dE dW gen mode s) = rd F.RANGE_STATUS_MEASURING s := by
  have hqueue : ∀ (f : Fld) (type : Nat) (body : List Byte) (g : RegSt → RegSt) (y : State), f.off = R.RANGE_STATUS →
      rd f (queueUp type body (setRegn g y)) = rd f y := fun f type body g y hf =>
    (keeps_queueUp_self type body).rd f (by rw [hf]; decide +kernel)
  unfold newReport
  dsimp only
  rw [hqueue _ _ _ _ _ rfl, hqueue _ _ _ _ _ rfl, hqueue _ _ _ _ _ rfl]
  refine ⟨?_, rd_wr_fits (by decide) (by decide), ?_⟩
  · rw [rd_wr_other _ _ _ _ (by decide) (by decide)]
    exact rd_wr_fits (by decide) (Nat.mod_lt _ (by decide))
  · rw [rd_wr_other _ _ _ _ (by decide) (by decide), rd_wr_other _ _ _ _ (by decide) (by decide)]

/-! ### RANGE_RESULT (R155, R157) -/

/-- A result that waits for the next tick boundary, its measurement over. -/
def resultWaits (x : Ranged) (release : Bool) (s : State) : State :=
  setMeas {} (pendResult x false release (wr F.RANGE_STATUS_MEASURING 0 s))

theorem rd_resultWaits (f : Fld) (release : Bool) : rd f (resultWaits x release s) = rd f (wr F.RANGE_STATUS_MEASURING 0 s) := rfl

theorem resultWaits_pends (release : Bool) :
    (resultWaits x release s).regn.pendRange.any (fun r => r.dE == x.dE && r.dW == x.dW && r.mode == x.mode) = true := by
  simp [resultWaits, setMeas, pendResult]

theorem exec_rangeResult (hm : on F.RANGE_STATUS_MEASURING s = true) (hx : measured s = some x) : exec .rangeResult s =
    .next (newReport x.dE x.dW (rd F.FRAME_GEN_LOOP_GEN s) x.mode
      (resultWaits x (anyHeld s && holdsFresh s && nearUnheld x s) s)) := by
  show execRangeResult s = _
  simp only [execRangeResult, hm, hx, if_true]
  rfl

theorem rangeResult_reports (hm : on F.RANGE_STATUS_MEASURING s = true) (hx : measured s = some x) :
    ∃ t, exec .rangeResult s = .next t ∧ rd F.RANGE_STATUS_MEASURING t = 0 ∧
      (t.regn.pendRange.any (fun r => r.dE == x.dE && r.dW == x.dW && r.mode == x.mode)) = true ∧
      rd F.RANGE_STATUS_REPORT_SEQ t = (rd F.RANGE_STATUS_REPORT_SEQ s + 1) % 256 ∧ rd F.RANGE_STATUS_ACKED t = 0 ∧
      t.regn.report.isSome = true := by
  have hexec := exec_rangeResult hm hx
  generalize (anyHeld s && holdsFresh s && nearUnheld x s) = release at hexec
  obtain ⟨body, hregn⟩ := newReport_regn (s := resultWaits x release s) x.dE x.dW (rd F.FRAME_GEN_LOOP_GEN s) x.mode
  obtain ⟨hseq, hacked, hmeas⟩ := newReport_status (s := resultWaits x release s) x.dE x.dW (rd F.FRAME_GEN_LOOP_GEN s) x.mode
  rw [rd_resultWaits, rd_wr_other _ _ _ _ (by decide) (by decide)] at hseq
  rw [rd_resultWaits, rd_wr_fits (by decide) (by decide)] at hmeas
  refine ⟨_, hexec, hmeas, ?_, hseq, hacked, ?_⟩ <;> rw [hregn]
  · exact resultWaits_pends release
  · rfl

/-- A measurement that is not in full goes on. -/
theorem rangeResult_goesOn (h : measured s = none) : exec .rangeResult s = .next s := by
  show execRangeResult s = _
  simp only [execRangeResult, h, ite_self]
  rfl

/-! ### The report is repeated (R159) -/

theorem rangeReport_repeats {b : List Byte} (hb : s.regn.report = some b) (ht : s.term = .ranging ∨ s.term = .running)
    (ha : on F.RANGE_STATUS_ACKED s = false) (hrep : 8 ≤ s.regn.reportRep) (hspace : Space s) :
    ∃ t, exec .rangeReportRepeat s = .next t ∧ t.regn.reportRep = 0 ∧ Queued nRANGE_REPORT b t := by
  have hdue : ((s.term == .ranging || s.term == .running) && !on F.RANGE_STATUS_ACKED s && decide (8 ≤ s.regn.reportRep)) = true := by
    rcases ht with ht | ht <;> simp [ht, ha, hrep]
  have hexec : exec .rangeReportRepeat s =
      .next (queueRepeat nRANGE_REPORT b (setRegn (fun y => { y with reportRep := 0 }) s)) := by
    show execRangeReportRepeat s = _
    simp only [execRangeReportRepeat, hb, hdue, if_true]
    rfl
  refine ⟨_, hexec, ?_, queueRepeat_queued (Nat.lt_of_le_of_lt hspace (by decide))⟩
  rw [(keeps_queueRepeat_self _ _).rest.regn rfl, setRegn_regn]

/-! ### RANGE_OK (R160) -/

/-- The delays that the head end has acknowledged with a report. -/
def reportAcked (b : List Byte) (s : State) : State :=
  setRegn (fun y => { y with ackE := toSigned 24 (beNat (slice b 1 3)), ackW := toSigned 24 (beNat (slice b 4 3)) })
    (wr F.RANGE_STATUS_ACKED 1 s)

/-- R160: an acknowledged terminal runs. -/
def runsOnceAcked (s : State) : State := if s.term == .ranging then goTerm .running s else s

theorem exec_rangeOk {b : List Byte} (h : Heard kRANGE_OK n .id s) (hb : s.regn.report = some b)
    (hseq : byteAt (noteFields n .id) 0 = rd F.RANGE_STATUS_REPORT_SEQ s) :
    exec (.rangeOk n) s = .next (runsOnceAcked (reportAcked b (count C.NOTE_RX s))) := by
  show execRangeOk n s = _
  refine congrArg Host.Outcome.next (takeNote_done h rfl ?_)
  dsimp only
  rw [count_regn, hb]
  dsimp only
  rw [rd_count _ _ _ (by decide), if_neg (by simp [hseq])]
  rfl

theorem runsOnceAcked_end (ht : s.term = .ranging ∨ s.term = .running) : (runsOnceAcked s).term = .running ∧
    rd F.RANGE_STATUS_ACKED (runsOnceAcked s) = rd F.RANGE_STATUS_ACKED s := by
  unfold runsOnceAcked
  rcases ht with ht | ht
  · rw [if_pos (by simp [ht])]
    exact ⟨term_goTerm _, (keeps_goTerm_self _).rd _ (by decide +kernel)⟩
  · rw [if_neg (by simp [ht])]
    exact ⟨ht, rfl⟩

theorem ranging_or_running {t : TermState} {a : NAddr} (h : inRR t a = true) : t = .ranging ∨ t = .running := by
  simpa [inRR] using h

theorem rangeOk_acknowledges {b : List Byte} (h : Heard kRANGE_OK n .id s) (hb : s.regn.report = some b)
    (hseq : byteAt (noteFields n .id) 0 = rd F.RANGE_STATUS_REPORT_SEQ s) :
    ∃ t, exec (.rangeOk n) s = .next t ∧ rd F.RANGE_STATUS_ACKED t = 1 ∧ t.term = .running := by
  have hterm : (reportAcked b (count C.NOTE_RX s)).term = s.term := count_term _ s
  obtain ⟨hrun, hacked⟩ := runsOnceAcked_end (s := reportAcked b (count C.NOTE_RX s))
    (hterm ▸ ranging_or_running (a := .id) (acts_of_heard h))
  exact ⟨_, exec_rangeOk h hb hseq, hacked.trans (rd_wr_fits (by decide) (by decide)), hrun⟩

/-! ### RANGE_RETRY and RANGE_ADJ (R160) -/

theorem rangeRetry_measures (h : Heard kRANGE_RETRY n .id s) (hspace : Space s) :
    ∃ t, exec (.rangeRetry n) s = .next t ∧ rd F.RANGE_STATUS_MEASURING t = 1 ∧ Acked n nDONE t := by
  have hbegun : Keeps (Reach.T.regn ||| Reach.T.RANGE_STATUS) (noted n s) (beginMeasure (noted n s)) :=
    keeps_beginMeasure rfl (.refl _ _)
  refine ⟨_, congrArg Host.Outcome.next (takeNote_noted h rfl rfl), ?_,
    answered_acked (by decide) hspace hbegun (by decide +kernel) rfl⟩
  exact ((keeps_answer_self _ _).rd _ (by decide +kernel)).trans (rd_wr_fits (by decide) (by decide))

/-- What two bytes spell fits 16 bits. -/
theorem beNat_two_lt (a b : Byte) : beNat [a, b] < 65536 := by
  have ha := a.isLt
  have hb := b.isLt
  simp only [beNat, List.foldl]
  omega

theorem rangeAdj_sets (h : Heard kRANGE_ADJ n .id s) (hspace : Space s) :
    ∃ t, exec (.rangeAdj n) s = .next t ∧ rd F.RANGE_STATUS_ASYM t = beNat (slice (noteFields n .id) 0 2) ∧ Acked n nDONE t := by
  have hset : Keeps Reach.T.RANGE_STATUS (noted n s) (wr F.RANGE_STATUS_ASYM (beNat (slice (noteFields n .id) 0 2)) (noted n s)) :=
    keeps_wr _ _ (cov_RANGE_STATUS _ rfl rfl) (.refl _ _)
  have hfits : beNat (slice (noteFields n .id) 0 2) < 65536 := by
    obtain ⟨a, b, hab⟩ := List.length_eq_two.mp (length_slice (noteFields n .id) 0 2)
    rw [hab]
    exact beNat_two_lt a b
  refine ⟨_, congrArg Host.Outcome.next (takeNote_noted h rfl rfl), ?_,
    answered_acked (by decide) hspace hset (by decide +kernel) rfl⟩
  exact ((keeps_answer_self _ _).rd _ (by decide +kernel)).trans (rd_wr_fits (by decide) hfits)

/-- Settles O29: a measurement in full is reported, and each of the head end's answers is taken as a note of the ID stream. -/
theorem rangingReportsItsResult : Obligations.RangingReportsItsResult :=
  ⟨fun _ _ => rangeResult_reports, fun _ => rangeResult_goesOn, fun _ _ => rangeReport_repeats,
    fun _ _ _ => rangeOk_acknowledges, fun _ _ => rangeRetry_measures, fun _ _ => rangeAdj_sets⟩

end Sys2Proof.Proofs

end

/-! PROOF. Delays that are recomputed and steps of delay (spec/06_registration_ranging_time.md R156, R162-R165). -/

section

namespace Sys2Proof.Proofs

open Sys2Proof Sys2Proof.Machine Sys2Proof.Claims Sys2Proof.Laws

set_option Elab.async false

variable {s u : State} {x : Ranged} {sd : Side} {d : Int}

theorem beyond_iff : beyond d = true ↔ 128 < d.natAbs := by
  unfold beyond twoWc
  rw [decide_eq_true_iff]
  omega

theorem beyond_false_iff : beyond d = false ↔ d.natAbs ≤ 128 := by
  rw [← Bool.not_eq_true, beyond_iff, Nat.not_lt]

/-! ### A recompute (R156, R162) -/

/-- How far a recompute moves the westbound delay: not at all where the eastbound one alone is computed. -/
def westMove (x : Ranged) (s : State) : Int := if x.mode == 0 then x.dW - delayW s else 0

theorem beyond_westMove : beyond (westMove x s) = true ↔ x.mode = 0 ∧ 128 < (x.dW - delayW s).natAbs := by
  unfold westMove
  by_cases hm : x.mode = 0
  · simp [hm, beyond_iff]
  · simp [hm, beyond_iff]

theorem eastboundOnly_west {mode : Nat} (h : mode ≠ 0) : rd F.RANGE_W_D (eastboundOnly mode s) = 0 := by
  unfold eastboundOnly
  rw [if_neg (by simpa using h)]
  unfold whenB
  split
  · exact (rd_wr_other _ _ _ _ (by decide) (by decide)).trans (rd_wr_fits (by decide) (by decide))
  · exact rd_wr_fits (by decide) (by decide)

/-- R162: a result near the applied delays, which slew to it. -/
def resultSlews (x : Ranged) (s : State) : State :=
  s |> wr F.RANGE_E_LOOP_GEN (rd F.FRAME_GEN_LOOP_GEN s) |> wr F.RANGE_W_LOOP_GEN (rd F.FRAME_GEN_LOOP_GEN s)
    |> wr F.RANGE_STATUS_MODE x.mode |> eastboundOnly x.mode
    |> setRegn (fun r => { r with jumps := 0, lastD := x.d, lastR := x.r, slewE := x.dE - delayE s, slewW := westMove x s })

/-- R162: a result beyond them: it is counted, and the eighth in a row waits as a step. -/
def resultJumps (x : Ranged) (s : State) : State :=
  if 8 ≤ s.regn.jumps + 1 then
    newReport x.dE x.dW (rd F.FRAME_GEN_LOOP_GEN s) x.mode (pendResult x true false (count C.RANGE_JUMP s))
  else setRegn (fun r => { r with jumps := r.jumps + 1 }) (count C.RANGE_JUMP s)

theorem recomputeFree_eq (x : Ranged) (s : State) : recomputeFree x s =
    if beyond (x.dE - delayE s) || beyond (westMove x s) then resultJumps x s else resultSlews x s := rfl

theorem resultSlews_end : (resultSlews x s).regn.slewE = x.dE - delayE s ∧ (resultSlews x s).regn.slewW = westMove x s ∧
    (resultSlews x s).regn.jumps = 0 ∧ (x.mode ≠ 0 → rd F.RANGE_W_D (resultSlews x s) = 0) :=
  ⟨rfl, rfl, rfl, fun hm => eastboundOnly_west hm⟩

theorem spares_setRegn {i : Nat} (f : RegSt → RegSt) : Spares i s (setRegn f s) := reg_setRegn _ f s

theorem spares_newReport {i : Nat} (hi : Apart i) (dE dW : Int) (gen mode : Nat) : Spares i s (newReport dE dW gen mode s) := by
  have hstatus : ∀ a q, Spares i s (wr F.RANGE_STATUS_ACKED a (wr F.RANGE_STATUS_REPORT_SEQ q s)) := fun a q =>
    (spares_wr (f := F.RANGE_STATUS_REPORT_SEQ) (by decide)).trans (spares_wr (by decide))
  unfold newReport
  exact ((hstatus _ _).trans (spares_setRegn _)).trans (spares_queueUp hi _ _)

/-- R162: a result that is beyond changes neither slew. -/
theorem resultJumps_end (hc : countsNow s = true) : Tallied C.RANGE_JUMP 1 s (resultJumps x s) ∧
    (resultJumps x s).regn.slewE = s.regn.slewE ∧ (resultJumps x s).regn.slewW = s.regn.slewW ∧
    (s.regn.jumps < 7 → (resultJumps x s).regn.jumps = s.regn.jumps + 1) ∧
    (7 ≤ s.regn.jumps → (resultJumps x s).regn.pendRange.any (fun r => r.step) = true) := by
  have htally : Tallied C.RANGE_JUMP 1 s (count C.RANGE_JUMP s) := tallied_count (by decide) (by decide) hc
  have hregn : (count C.RANGE_JUMP s).regn = s.regn := count_regn _ s
  unfold resultJumps
  by_cases hj : 7 ≤ s.regn.jumps
  · rw [if_pos (Nat.succ_le_succ hj)]
    have hpend : Tallied C.RANGE_JUMP 1 s (pendResult x true false (count C.RANGE_JUMP s)) := htally
    have hslew : (pendResult x true false (count C.RANGE_JUMP s)).regn.slewE = s.regn.slewE ∧
        (pendResult x true false (count C.RANGE_JUMP s)).regn.slewW = s.regn.slewW := by
      rw [← hregn]
      exact ⟨rfl, rfl⟩
    have hstep : (pendResult x true false (count C.RANGE_JUMP s)).regn.pendRange.any (fun r => r.step) = true := rfl
    generalize pendResult x true false (count C.RANGE_JUMP s) = u at hpend hslew hstep ⊢
    obtain ⟨body, hreport⟩ := newReport_regn (s := u) x.dE x.dW (rd F.FRAME_GEN_LOOP_GEN s) x.mode
    rw [hreport]
    exact ⟨tallied_spared hpend (spares_newReport ⟨by decide, by decide, by decide⟩ _ _ _ _), hslew.1, hslew.2,
      fun hlt => absurd hj (Nat.not_le.mpr hlt), fun _ => hstep⟩
  · rw [if_neg (by omega), setRegn_regn, hregn]
    exact ⟨htally, rfl, rfl, fun _ => rfl, fun hle => absurd hle hj⟩

theorem exec_rangeRecompute (ht : s.term = .running) (hm : on F.RANGE_STATUS_MEASURING s = false)
    (hr : on F.TIME_STATUS_RANGED s = true) (hx : measured s = some x) (hh : anyHeld s = false) :
    exec .rangeRecompute s = .next (recomputeFree x (setMeas {} s)) := by
  show execRangeRecompute s = _
  simp only [execRangeRecompute, ht, hm, hr, hx, hh]
  rfl

theorem rangeRecompute_judges (ht : s.term = .running) (hm : on F.RANGE_STATUS_MEASURING s = false)
    (hr : on F.TIME_STATUS_RANGED s = true) (hx : measured s = some x) (hh : anyHeld s = false) :
    ∃ t, exec .rangeRecompute s = .next t ∧
      ((x.dE - delayE s).natAbs ≤ 128 → (x.mode = 0 → (x.dW - delayW s).natAbs ≤ 128) → t.regn.slewE = x.dE - delayE s ∧
        t.regn.slewW = (if x.mode = 0 then x.dW - delayW s else 0) ∧ t.regn.jumps = 0 ∧ (x.mode ≠ 0 → rd F.RANGE_W_D t = 0)) ∧
      (128 < (x.dE - delayE s).natAbs ∨ (x.mode = 0 ∧ 128 < (x.dW - delayW s).natAbs) → Tallied C.RANGE_JUMP 1 s t ∧
        t.regn.slewE = s.regn.slewE ∧ t.regn.slewW = s.regn.slewW ∧ (s.regn.jumps < 7 → t.regn.jumps = s.regn.jumps + 1) ∧
        (7 ≤ s.regn.jumps → t.regn.pendRange.any (fun r => r.step) = true)) := by
  have hexec := exec_rangeRecompute ht hm hr hx hh
  rw [recomputeFree_eq] at hexec
  refine ⟨_, hexec, fun hE hW => ?_, fun hfar => ?_⟩
  · have hwest : beyond (westMove x (setMeas {} s)) = false := by
      rw [← Bool.not_eq_true, beyond_westMove]
      exact fun ⟨hmode, hlt⟩ => Nat.not_le.mpr hlt (hW hmode)
    have heast : beyond (x.dE - delayE (setMeas {} s)) = false := beyond_false_iff.mpr hE
    obtain ⟨hslewE, hslewW, hjumps, hnone⟩ := resultSlews_end (x := x) (s := setMeas {} s)
    rw [if_neg (by simp [heast, hwest])]
    refine ⟨hslewE, hslewW.trans ?_, hjumps, hnone⟩
    simp only [westMove, beq_iff_eq]
    rfl
  · have hjump : (beyond (x.dE - delayE (setMeas {} s)) || beyond (westMove x (setMeas {} s))) = true := by
      rw [Bool.or_eq_true, beyond_iff, beyond_westMove]
      exact hfar
    have hc : countsNow (setMeas {} s) = true := by
      rw [countsNow, show (setMeas {} s).term = .running from ht]
    rw [if_pos hjump]
    obtain ⟨htally, hrest⟩ := resultJumps_end (x := x) hc
    exact ⟨(spares_setRegn (fun r => { r with meas := {} })).tallied htally, hrest⟩

/-! ### A delay step (R163, R165) -/

/-- The step is counted and told. -/
def stepTold (sd : Side) (s : State) : State :=
  raise E.DELAY_STEP (laneOf sd) (countSide C.DELAY_STEP_W sd (setSpan sd (fun x => { x with dev := none }) s))

theorem keeps_stepTold : Keeps (T.counting ||| Reach.T.span) s (stepTold sd s) :=
  keeps_raise _ _ rfl (keeps_countSide _ _ rfl (keeps_setSpan _ _ rfl (.refl _ s)))

theorem exec_delayStep (hdev : (spanOf sd s).dev = some d) (hf : frmRuns s = true) (ht : tracking sd s = true) :
    exec (.delayStep sd) s = .next (if beyond d then holdOscillator sd (holdDir sd d (stepTold sd s)) else s) := by
  show execDelayStep sd s = _
  simp only [execDelayStep, hdev, hf, ht]
  cases beyond d <;> rfl

theorem heldSide_holdDir : heldSide sd (holdDir sd d s) = true := by cases sd <;> rfl

theorem dirHeld_holdDir : dirHeld (otherSide sd) (holdDir sd d s) = dirHeld (otherSide sd) s := by cases sd <;> rfl

theorem singleSided_holdDir : singleSided (holdDir sd d s) = singleSided s := by cases sd <;> rfl

theorem joined_holdDir : Joined 0 s (holdDir sd d s) := .of_events (by cases sd <;> rfl)

theorem spares_holdDir (i : Nat) : Spares i s (holdDir sd d s) := by cases sd <;> exact .refl i s

/-- Whether a direction serves for time depends on its hold, its tracker and its turns alone. -/
theorem dirHeld_of_keeps {A : Nat} (h : Keeps A s u) (hregn : A.testBit 10 = false) (hframe : A.testBit 9 = false)
    (hw : Reach.reg A R.REP_STATUS_W = false) (he : Reach.reg A R.REP_STATUS_E = false)
    (hb : Reach.reg A R.BYPASS_STATUS = false) : dirHeld sd u = dirHeld sd s := by
  have htrack : tracking sd u = tracking sd s := on_of_rd (h.rd _ (by cases sd; exacts [hw, he]))
  have hturned : on (fTURNED sd) u = on (fTURNED sd) s := on_of_rd (h.rd _ (by cases sd <;> exact hb))
  unfold dirHeld heldSide trk
  rw [htrack, hturned, h.rest.regn hregn, h.rest.frame hframe]

/-- R165: holding the oscillator changes no hold, no counter and no event. -/
theorem holdOscillator_quiet : heldSide sd (holdOscillator sd s) = heldSide sd s ∧ Joined 0 s (holdOscillator sd s) ∧
    ∀ i, Spares i s (holdOscillator sd s) := by
  unfold holdOscillator
  split
  · refine ⟨by cases sd <;> rfl, .of_events rfl, fun i => ?_⟩
    have hflywheel : Spares i s (wr F.TIME_STATUS_FLYWHEEL 1 s) := spares_wr (by decide)
    exact (hflywheel.trans (spares_wr (f := F.TIME_STATUS_SOURCE) (v := 0) (by decide))).trans (spares_setRegn _)
  · exact ⟨rfl, .of_events rfl, fun i => .refl i s⟩

theorem holdOscillator_holds (h : singleSided s = true ∨ dirHeld (otherSide sd) s = true) :
    (holdOscillator sd s).regn.bothHeld = true ∧ rd F.TIME_STATUS_FLYWHEEL (holdOscillator sd s) = 1 ∧
      rd F.TIME_STATUS_SOURCE (holdOscillator sd s) = 0 := by
  have hnone : (singleSided s || dirHeld (otherSide sd) s) = true := Bool.or_eq_true_iff.mpr h
  unfold holdOscillator
  rw [if_pos hnone, rd_setRegn, rd_setRegn, rd_wr_other _ _ _ _ (by decide) (by decide)]
  exact ⟨rfl, rd_wr_fits (by decide) (by decide), rd_wr_fits (by decide) (by decide)⟩

theorem stepTold_told (hf : frmRuns s = true) (hroom : Room s) : Tallied (sided C.DELAY_STEP_W (isEast sd)) 1 s (stepTold sd s) ∧
    Waits E.DELAY_STEP (laneOf sd) (stepTold sd s) := by
  have hi : sided C.DELAY_STEP_W (isEast sd) < 312 := sided_lt (by decide)
  have hlost : sided C.DELAY_STEP_W (isEast sd) ≠ C.EVT_LOST := by cases sd <;> decide
  have hspan : Joined 0 s (setSpan sd (fun x => { x with dev := none }) s) := .of_events (congrArg HostSt.events (setSpan_host _ _ _))
  have hc : countsNow (setSpan sd (fun x => { x with dev := none }) s) = true :=
    (countsNow_of_term (setSpan_term _ _ _)).trans (countsNow_of_frmRuns hf)
  have hlen := (hspan.trans (joined_count (sided C.DELAY_STEP_W (isEast sd)))).1
  refine ⟨Spares.tallied (reg_setSpan _ _ _ _) (tallied_spared (tallied_count hi hlost hc) (spares_raise hi hlost _ _)),
    waits_raise _ _ ?_⟩
  unfold Room at hroom
  exact Nat.lt_of_le_of_lt hlen (by omega)

theorem delayStep_holds (hdev : (spanOf sd s).dev = some d) (hf : frmRuns s = true) (ht : tracking sd s = true)
    (hd : 128 < d.natAbs) (hroom : Room s) :
    ∃ t, exec (.delayStep sd) s = .next t ∧ Tallied (sided C.DELAY_STEP_W (isEast sd)) 1 s t ∧ Waits E.DELAY_STEP (laneOf sd) t ∧
      heldSide sd t = true ∧ (singleSided s = true ∨ dirHeld (otherSide sd) s = true →
        t.regn.bothHeld = true ∧ rd F.TIME_STATUS_FLYWHEEL t = 1 ∧ rd F.TIME_STATUS_SOURCE t = 0) := by
  have hexec : exec (.delayStep sd) s = .next (holdOscillator sd (holdDir sd d (stepTold sd s))) :=
    (exec_delayStep hdev hf ht).trans (congrArg _ (if_pos (beyond_iff.mpr hd)))
  obtain ⟨hheld, hjoined, hspares⟩ := holdOscillator_quiet (s := holdDir sd d (stepTold sd s)) (sd := sd)
  obtain ⟨htally, hwaits⟩ := stepTold_told (sd := sd) hf hroom
  refine ⟨_, hexec, tallied_spared htally ((spares_holdDir _).trans (hspares _)), hjoined.2 _ _ (joined_holdDir.2 _ _ hwaits),
    hheld.trans heldSide_holdDir, fun h => holdOscillator_holds ?_⟩
  have hside : singleSided (holdDir sd d (stepTold sd s)) = singleSided s :=
    singleSided_holdDir.trans (on_of_rd (keeps_stepTold.rd _ (by decide +kernel)))
  have hother : dirHeld (otherSide sd) (holdDir sd d (stepTold sd s)) = dirHeld (otherSide sd) s :=
    dirHeld_holdDir.trans (dirHeld_of_keeps keeps_stepTold (by decide) (by decide) (by decide +kernel) (by decide +kernel)
      (by decide +kernel))
  rwa [hside, hother]

theorem delayStep_near (hdev : (spanOf sd s).dev = some d) (hf : frmRuns s = true) (ht : tracking sd s = true)
    (hd : d.natAbs ≤ 128) : exec (.delayStep sd) s = .next s :=
  (exec_delayStep hdev hf ht).trans (congrArg _ (if_neg (by simp [beyond_false_iff.mpr hd])))

/-! ### A stale step (R164) -/

/-- R164: has a hold become stale. -/
def holdStale (h : Option Held) : Bool := h.any (fun h => decide (32 ≤ h.cycles) && !h.stale)

/-- R164: a hold, marked where it has become stale. -/
def staleMarked (h : Option Held) : Option Held := if holdStale h then h.map (fun h => { h with stale := true }) else h

theorem exec_delayStepStale (s : State) : exec .delayStepStale s =
    .next (setRegn (fun r => { r with heldE := staleMarked r.heldE, heldW := staleMarked r.heldW })
      (countN C.DELAY_STEP_STALE (b2n (holdStale s.regn.heldE) + b2n (holdStale s.regn.heldW)) s)) := rfl

theorem delayStepStale_marks {h : Held} (hE : s.regn.heldE = some h) (hW : s.regn.heldW = none) (hcyc : 32 ≤ h.cycles)
    (hst : h.stale = false) (hc : countsNow s = true) : ∃ t, exec .delayStepStale s = .next t ∧
      t.regn.heldE = some { h with stale := true } ∧ Tallied C.DELAY_STEP_STALE 1 s t := by
  have hdue : holdStale (some h) = true := by simp [holdStale, hcyc, hst]
  refine ⟨_, exec_delayStepStale s, ?_, tallied_spared (t := countN C.DELAY_STEP_STALE _ s) ?_ (spares_setRegn _)⟩
  · rw [setRegn_regn, countN_regn]
    dsimp only
    rw [hE, staleMarked, if_pos hdue]
    rfl
  · rw [hE, hW, hdue]
    exact tallied_countN (by decide) (by decide) hc

end Sys2Proof.Proofs

end

/-! PROOF. FLYWHEEL and TIME_MAP (spec/06_registration_ranging_time.md R153, R166, R168, R169). -/

section

namespace Sys2Proof.Proofs

open Sys2Proof Sys2Proof.Machine Sys2Proof.Claims Sys2Proof.Laws

set_option Elab.async false

variable {s : State} {n : Note}

/-! ### FLYWHEEL begins (R166) -/

/-- Time goes on by the oscillator. -/
def onOscillator (s : State) : State := s |> measBreak |> wr F.TIME_STATUS_FLYWHEEL 1 |> wr F.TIME_STATUS_SOURCE 0

/-- FLYWHEEL is entered and told. -/
def flywheelTold (s : State) : State :=
  raise E.FLYWHEEL_IN 0 (count C.FLYWHEEL_ENTRY (goTerm .flywheel (cutWindows (onOscillator s))))

theorem exec_flywheelEntry (ht : s.term ∈ [TermState.admitted, .claiming, .ranging, .running]) (hn : 4 ≤ s.frame.noMarker) :
    exec .flywheelEntry s = .next (setRegn (fun r => { r with flyPrior := some s.term }) (flywheelTold s)) := by
  have hfrom : ((s.term == .admitted || s.term == .claiming || s.term == .ranging || s.term == .running) &&
      decide (4 ≤ s.frame.noMarker)) = true := by
    simp only [List.mem_cons, List.not_mem_nil, or_false] at ht
    rcases ht with ht | ht | ht | ht <;> simp [ht, hn]
  exact congrArg Host.Outcome.next (if_pos hfrom)

theorem keeps_flywheelTold : Keeps (goReach ||| Reach.T.win) (onOscillator s) (flywheelTold s) :=
  keeps_raise _ _ rfl (keeps_count _ rfl (keeps_goTerm _ rfl (keeps_cutWindows rfl (.refl _ _))))

theorem term_flywheelTold : (flywheelTold s).term = .flywheel := by
  rw [flywheelTold, raise_term, count_term, term_goTerm]

/-- R166: FLYWHEEL_IN is told after the windows that are cut, the axes that run down and one count. -/
theorem waits_flywheelTold (hroom : Room s) : Waits E.FLYWHEEL_IN 0 (flywheelTold s) := by
  have hbegun : Joined 0 s (onOscillator s) := .of_events rfl
  have hlen := (((hbegun.trans joined_cutWindows).trans (joined_goTerm .flywheel)).trans (joined_count C.FLYWHEEL_ENTRY)).1
  unfold Room at hroom
  exact waits_raise _ _ (by omega)

theorem onOscillator_status : rd F.TIME_STATUS_FLYWHEEL (onOscillator s) = 1 ∧ rd F.TIME_STATUS_SOURCE (onOscillator s) = 0 := by
  unfold onOscillator
  rw [rd_wr_other _ _ _ _ (by decide) (by decide)]
  exact ⟨rd_wr_fits (by decide) (by decide), rd_wr_fits (by decide) (by decide)⟩

theorem flywheelEntry_enters (ht : s.term ∈ [TermState.admitted, .claiming, .ranging, .running]) (hn : 4 ≤ s.frame.noMarker)
    (hroom : Room s) : ∃ t, exec .flywheelEntry s = .next t ∧ t.term = .flywheel ∧ t.regn.flyPrior = some s.term ∧
      rd F.TIME_STATUS_FLYWHEEL t = 1 ∧ rd F.TIME_STATUS_SOURCE t = 0 ∧ Waits E.FLYWHEEL_IN 0 t := by
  obtain ⟨hfly, hsource⟩ := onOscillator_status (s := s)
  have hexec := exec_flywheelEntry ht hn
  have hterm := term_flywheelTold (s := s)
  have htold := waits_flywheelTold hroom
  have hflywheel : rd F.TIME_STATUS_FLYWHEEL (flywheelTold s) = 1 := (keeps_flywheelTold.rd _ (by decide +kernel)).trans hfly
  have hosc : rd F.TIME_STATUS_SOURCE (flywheelTold s) = 0 := (keeps_flywheelTold.rd _ (by decide +kernel)).trans hsource
  generalize flywheelTold s = u at hexec hterm htold hflywheel hosc
  exact ⟨_, hexec, hterm, rfl, hflywheel, hosc, htold⟩

/-! ### FLYWHEEL ends (R153, R168) -/

/-- The terminal back in the state it had, and time on a received copy. -/
def flywheelLeft (p : TermState) (s : State) : State :=
  let s1 := setRegn (fun r => { r with flyPrior := none }) (goTerm p s)
  s1 |> wr F.TIME_STATUS_FLYWHEEL 0 |> wr F.TIME_STATUS_SOURCE (sourceBack s1)

theorem exec_flywheelExit {p : TermState} (pos : Int) (hp : s.regn.flyPrior = some p) (ht : s.term = .flywheel)
    (hb : headerBack s = true) (hh : s.regn.bothHeld = false) :
    exec (.flywheelExit pos) s = .next (exitTime pos (flywheelLeft p s)) := by
  have hboth : (goTerm p s).regn.bothHeld = false := (congrArg RegSt.bothHeld ((keeps_goTerm_self p).rest.regn rfl)).trans hh
  have hback : (s.term != .flywheel || !headerBack s) = false := by simp [ht, hb]
  show execFlywheelExit pos s = _
  simp only [execFlywheelExit, hp, hback, setRegn_regn, hboth, Bool.false_eq_true, if_false]
  rfl

/-- R168: what building time makes up leaves the state that FLYWHEEL returned to. -/
theorem exitTime_flyPrior (pos : Int) : (exitTime pos s).regn.flyPrior = s.regn.flyPrior := by
  unfold exitTime
  dsimp only
  split
  · rfl
  split
  · rfl
  · rw [setRegn_regn, raise_regn, count_regn]

theorem flywheelExit_returns {p : TermState} (pos : Int) (hp : s.regn.flyPrior = some p) (ht : s.term = .flywheel)
    (hb : headerBack s = true) (hh : s.regn.bothHeld = false) : ∃ t, exec (.flywheelExit pos) s = .next t ∧ t.term = p ∧
      t.regn.flyPrior = none ∧ rd F.TIME_STATUS_FLYWHEEL t = 0 := by
  have hexit : Keeps (T.counting ||| Reach.T.regn) (flywheelLeft p s) (exitTime pos (flywheelLeft p s)) :=
    keeps_exitTime _ rfl (.refl _ _)
  refine ⟨_, exec_flywheelExit pos hp ht hb hh, (hexit.rest.term rfl).trans (term_goTerm p), exitTime_flyPrior pos, ?_⟩
  rw [hexit.rd _ (by decide +kernel), flywheelLeft, rd_wr_other _ _ _ _ (by decide) (by decide)]
  exact rd_wr_fits (by decide) (by decide)

/-! ### TIME_MAP (R169) -/

theorem exec_timeMap (h : Heard kTIME_MAP n .all s) (hnew : on F.TAI_ORIGIN_NS_VALID s = false ∨ rd F.TAI_UTC_SEQ s ≠ n.seq.toNat)
    (hns : beNat (slice (noteFields n .all) 10 4) < 1000000000) : exec (.timeMap n) s =
      .next (setRegn (fun r => { r with pendTime := some (noteFields n .all, n.seq.toNat) }) (count C.NOTE_RX s)) := by
  have hfresh : (on F.TAI_ORIGIN_NS_VALID (count C.NOTE_RX s) && rd F.TAI_UTC_SEQ (count C.NOTE_RX s) == n.seq.toNat) = false := by
    rw [on, rd_count _ _ _ (by decide), rd_count _ _ _ (by decide)]
    rcases hnew with hnew | hnew
    · rw [show (rd F.TAI_ORIGIN_NS_VALID s != 0) = false from hnew, Bool.false_and]
    · simp [hnew]
  show execTimeMap n s = _
  refine congrArg Host.Outcome.next (takeNote_done h rfl ?_)
  rw [hfresh, if_neg (by simp), if_neg (Nat.not_le.mpr hns)]

theorem timeMap_waits (h : Heard kTIME_MAP n .all s) (hnew : on F.TAI_ORIGIN_NS_VALID s = false ∨ rd F.TAI_UTC_SEQ s ≠ n.seq.toNat)
    (hns : beNat (slice (noteFields n .all) 10 4) < 1000000000) :
    ∃ t, exec (.timeMap n) s = .next t ∧ t.regn.pendTime = some (noteFields n .all, n.seq.toNat) :=
  ⟨_, exec_timeMap h hnew hns, rfl⟩

/-- Settles O30: the delays that are recomputed, the directions that step, and time on the oscillator and off it again. -/
theorem timeIsKept : Obligations.TimeIsKept :=
  ⟨fun _ _ => rangeRecompute_judges, fun _ _ _ hdev hf ht => ⟨delayStep_holds hdev hf ht, delayStep_near hdev hf ht⟩,
    fun _ _ => delayStepStale_marks, fun _ => flywheelEntry_enters, fun _ pos _ => flywheelExit_returns pos,
    fun _ _ => timeMap_waits⟩

end Sys2Proof.Proofs

end

/-! PROOF. The terminal ID dropped, and a new CLAIM begun (spec/06_registration_ranging_time.md R144, R151, R153;
spec/09_keys_cipher_signatures.md R214, R221). -/

section

namespace Sys2Proof.Proofs

open Sys2Proof Sys2Proof.Machine Sys2Proof.Claims Sys2Proof.Laws

set_option Elab.async false

variable {s t u : State} {n : Note}

/-! ### Key slots (R213, R221) -/

theorem keySlot_of_key (k : Nat) (h : t.key = s.key) : keySlot k t = keySlot k s := by rw [keySlot, keySlot, h]

theorem keySlot_putSlot_same (k : Nat) (v : List Byte) : keySlot k (putSlot k v s) = some v :=
  find_ins_same _ _ _ (find_del_same _ _)

theorem keySlot_putSlot_other {j k : Nat} (v : List Byte) (h : j ≠ k) : keySlot j (putSlot k v s) = keySlot j s :=
  (find_ins_other _ _ _ _ h).trans (find_del_other _ _ _ h)

/-- R221: the session and terminal keys are gone with the ID. -/
theorem keySlot_eraseOnRelease {k : Nat} (h : (isSession k || isTerminal k) = true) : keySlot k (eraseOnRelease s) = none :=
  find_filter_gone fun v => by simp only [h, Bool.not_true]

/-! ### The ID is dropped (R151) -/

theorem termId_setId {k : Nat} (h : k < 64) : rd F.REG_STATUS_TERM_ID (setId k s) = k := by
  unfold setId
  dsimp only
  rw [rd_setRegn, rd_wr_other _ _ _ _ (by decide) (by decide)]
  exact rd_wr_fits (by decide) h

/-- What dropping the ID does after it is cleared. -/
theorem keeps_idDropped : Keeps (Reach.T.frame ||| Reach.T.key ||| Reach.T.regn) (setId 0 (dropLaterWindows s)) (dropId s) :=
  keeps_setRegn _ rfl (keeps_eraseOnRelease rfl (keeps_dropSubs rfl (.refl _ _)))

theorem termId_dropId : rd F.REG_STATUS_TERM_ID (dropId s) = 0 :=
  (keeps_idDropped.rd _ (by decide +kernel)).trans (termId_setId (by decide))

/-- What dropping the ID reaches. -/
def dropReach : Nat := Reach.T.frame ||| Reach.T.regn ||| Reach.T.note ||| Reach.T.win ||| Reach.T.key |||
  Reach.T.REG_STATUS ||| Reach.T.NOTE_SEQ

theorem keeps_dropId_self : Keeps dropReach s (dropId s) := keeps_dropId rfl (.refl _ s)

/-- R151: the subscriptions, staged ones included, are dropped with the ID. -/
theorem subs_dropId : (dropId s).frame.subs = [] ∧ (dropId s).frame.subStage = [] := ⟨rfl, rfl⟩

/-! ### CLAIMING is entered (R144, R153) -/

/-- The terminal as it enters CLAIMING: no key of its session or its own is held, and a new nonce is drawn. -/
def claimAnew (s : State) : State :=
  let (n, s1) := drawNonce (eraseOnRelease s)
  setReg R.CLAIM_NONCE (bytesWord n) (wr F.REG_STATUS_BACKOFF 0
    (setRegn (fun x => { x with preparing := false, prepared := false, ePub := [], claimBody := [], zS := [], eT := [], backoff := 0,
                                claimTimer := none, lastAssign := none, assignWork := none }) s1))

theorem enterClaiming_eq (s : State) : enterClaiming s = beginClaim (toClaiming (claimAnew s)) := rfl

theorem keeps_claimAnew : Keeps (Reach.T.freeCtr ||| Reach.T.regn ||| Reach.T.REG_STATUS ||| Reach.T.CLAIM_NONCE)
    (eraseOnRelease s) (claimAnew s) :=
  keeps_setReg _ _ (cov_CLAIM_NONCE _ rfl rfl) (keeps_wr _ _ (cov_REG_STATUS _ rfl rfl) (keeps_setRegn _ rfl
    (keeps_drawNonce rfl (.refl _ _))))

theorem term_claimAnew : (claimAnew s).term = s.term := keeps_claimAnew.rest.term rfl

theorem joined_beginClaim : Joined 2 s (beginClaim s) := by
  unfold beginClaim
  split
  · exact (Joined.of_events rfl).mono (by decide)
  · exact (joined_count _).trans (joined_raise _ _)

theorem joined_toClaiming : Joined 3 s (toClaiming s) := by
  unfold toClaiming
  split
  · exact (Joined.of_events rfl).mono (by decide)
  · exact joined_goTerm _

theorem joined_enterClaiming : Joined 5 s (enterClaiming s) := by
  rw [enterClaiming_eq]
  have herase : Joined 0 s (eraseOnRelease s) := .of_events rfl
  exact ((herase.trans (joined_of_keeps keeps_claimAnew (by decide))).trans joined_toClaiming).trans joined_beginClaim

/-- R153: in FLYWHEEL the terminal is to be in CLAIMING when it leaves it; otherwise it is there now. -/
theorem toClaiming_end : (s.term = .flywheel → (toClaiming s).term = .flywheel ∧ (toClaiming s).regn.flyPrior = some .claiming) ∧
    (s.term ≠ .flywheel → (toClaiming s).term = .claiming) := by
  unfold toClaiming
  constructor
  · intro h
    rw [if_pos (by simp [h])]
    exact ⟨h, rfl⟩
  · intro h
    rw [if_neg (by simp [h])]
    exact term_goTerm _

theorem assignWork_toClaiming : (toClaiming s).regn.assignWork = s.regn.assignWork := by
  unfold toClaiming
  split
  · rfl
  · exact congrArg RegSt.assignWork ((keeps_goTerm_self _).rest.regn rfl)

theorem beginClaim_end : (beginClaim s).term = s.term ∧ (beginClaim s).regn.flyPrior = s.regn.flyPrior ∧
    (beginClaim s).regn.assignWork = s.regn.assignWork := by
  unfold beginClaim
  split
  · exact ⟨rfl, rfl, rfl⟩
  · rw [raise_term, count_term, raise_regn, count_regn]
    exact ⟨rfl, rfl, rfl⟩

theorem enterClaiming_end : (enterClaiming s).regn.assignWork = none ∧
    (s.term = .flywheel → (enterClaiming s).term = .flywheel ∧ (enterClaiming s).regn.flyPrior = some .claiming) ∧
    (s.term ≠ .flywheel → (enterClaiming s).term = .claiming) := by
  obtain ⟨hterm, hprior, hwork⟩ := beginClaim_end (s := toClaiming (claimAnew s))
  obtain ⟨hfly, hclaim⟩ := toClaiming_end (s := claimAnew s)
  rw [term_claimAnew] at hfly hclaim
  rw [enterClaiming_eq, hterm, hprior, hwork]
  exact ⟨assignWork_toClaiming, hfly, hclaim⟩

/-- What entering CLAIMING reaches once the keys are erased. -/
def claimReach : Nat := goReach ||| Reach.T.freeCtr ||| Reach.T.regn ||| Reach.T.REG_STATUS ||| Reach.T.CLAIM_NONCE

theorem keeps_enterClaiming_erased : Keeps claimReach (eraseOnRelease s) (enterClaiming s) :=
  keeps_beginClaim rfl (keeps_toClaiming rfl (keeps_setReg _ _ (cov_CLAIM_NONCE _ rfl rfl) (keeps_wr _ _ (cov_REG_STATUS _ rfl rfl)
    (keeps_setRegn _ rfl (keeps_drawNonce rfl (.refl _ _))))))

/-- R151, R221: entering CLAIMING leaves the subscriptions, and no key of the session or the terminal is held. -/
theorem enterClaiming_drops : (enterClaiming s).frame = s.frame ∧
    ∀ k, (isSession k || isTerminal k) = true → keySlot k (enterClaiming s) = none :=
  ⟨keeps_enterClaiming_erased.rest.frame rfl, fun k hk =>
    (keySlot_of_key k (keeps_enterClaiming_erased.rest.key rfl)).trans (keySlot_eraseOnRelease hk)⟩

/-- What the whole of it leaves of REG_STATUS: the ID that is held. -/
theorem termId_enterClaiming : rd F.REG_STATUS_TERM_ID (enterClaiming s) = rd F.REG_STATUS_TERM_ID s := by
  have hnew : rd F.REG_STATUS_TERM_ID (claimAnew s) = rd F.REG_STATUS_TERM_ID s := by
    have hdraw : Keeps Reach.T.freeCtr (eraseOnRelease s) (drawNonce (eraseOnRelease s)).2 := keeps_drawNonce rfl (.refl _ _)
    exact (rd_setReg_other _ _ _ _ (by decide)).trans ((rd_wr_other _ _ _ _ (by decide) (by decide)).trans
      (hdraw.rd _ (by decide +kernel)))
  have hgo : Keeps (goReach ||| Reach.T.regn) (claimAnew s) (enterClaiming s) :=
    keeps_beginClaim rfl (keeps_toClaiming rfl (.refl _ _))
  exact (hgo.rd _ (by decide +kernel)).trans hnew

/-! ### The terminal claims again (R151) -/

/-- R151: the terminal that drops its ID and claims again has none, no subscription, and no key of the session or its own. -/
theorem claimsAgain_end : rd F.REG_STATUS_TERM_ID (enterClaiming (dropId s)) = 0 ∧ (enterClaiming (dropId s)).frame.subs = [] ∧
    (enterClaiming (dropId s)).frame.subStage = [] ∧
    (∀ k, (isSession k || isTerminal k) = true → keySlot k (enterClaiming (dropId s)) = none) ∧
    (s.term ≠ .flywheel → (enterClaiming (dropId s)).term = .claiming) := by
  obtain ⟨hframe, hkeys⟩ := enterClaiming_drops (s := dropId s)
  obtain ⟨hsubs, hstage⟩ := subs_dropId (s := s)
  obtain ⟨-, -, hclaim⟩ := enterClaiming_end (s := dropId s)
  rw [hframe]
  exact ⟨termId_enterClaiming.trans termId_dropId, hsubs, hstage, hkeys,
    fun h => hclaim (by rwa [show (dropId s).term = s.term from keeps_dropId_self.rest.term rfl])⟩

theorem joined_claimsAgain : Joined 5 s (enterClaiming (dropId s)) :=
  (joined_of_keeps keeps_dropId_self (by decide)).trans joined_enterClaiming

/-- What is told of a dropped ID: a count, and RELEASED with its cause. -/
def releasedTold (i cause : Nat) (s : State) : State := raise E.RELEASED cause (count i s)

theorem waits_releasedTold (i cause : Nat) (h : s.host.events.length < 63) :
    Waits E.RELEASED cause (enterClaiming (dropId (releasedTold i cause s))) :=
  joined_claimsAgain.2 _ _ (waits_raise _ _ (Nat.lt_of_le_of_lt (joined_count i).1 (Nat.succ_lt_succ h)))

theorem term_releasedTold (i cause : Nat) : (releasedTold i cause s).term = s.term := (raise_term _ _ _).trans (count_term _ _)

theorem exec_release {a : NAddr} (h : Heard kRELEASE n a s) :
    exec (.release n) s = .next (enterClaiming (dropId (releasedTold C.ID_RELEASED 0 (count C.NOTE_RX s)))) :=
  congrArg Host.Outcome.next (takeNote_done h rfl rfl)

theorem release_drops {a : NAddr} (h : Heard kRELEASE n a s) (hroom : Room s) :
    ∃ t, exec (.release n) s = .next t ∧ t.term = .claiming ∧ rd F.REG_STATUS_TERM_ID t = 0 ∧ t.frame.subs = [] ∧
      t.frame.subStage = [] ∧ (∀ k, (isSession k || isTerminal k) = true → keySlot k t = none) ∧ Waits E.RELEASED 0 t := by
  have hterm : (releasedTold C.ID_RELEASED 0 (count C.NOTE_RX s)).term ≠ .flywheel := by
    rw [term_releasedTold, count_term]
    rcases ranging_or_running (a := a) (acts_of_heard h) with ht | ht <;> simp [ht]
  obtain ⟨htid, hsubs, hstage, hkeys, hclaim⟩ := claimsAgain_end (s := releasedTold C.ID_RELEASED 0 (count C.NOTE_RX s))
  have hlen := (joined_count (s := s) C.NOTE_RX).1
  unfold Room at hroom
  exact ⟨_, exec_release h, hclaim hterm, htid, hsubs, hstage, hkeys, waits_releasedTold _ _ (by omega)⟩

theorem exec_grantTimeout (ht : s.term = .ranging ∨ s.term = .running) (hid : termId s ≠ 0)
    (hidle : 64 ≤ rd F.REG_STATUS_GRANT_IDLE s) :
    exec .grantTimeout s = .next (enterClaiming (dropId (releasedTold C.GRANT_TIMEOUT 1 s))) := by
  have hover : ((s.term == .ranging || s.term == .running) && termId s != 0 && decide (64 ≤ rd F.REG_STATUS_GRANT_IDLE s)) = true := by
    rcases ht with ht | ht <;> simp [ht, hid, hidle]
  exact congrArg Host.Outcome.next (if_pos hover)

theorem grantTimeout_drops (ht : s.term = .ranging ∨ s.term = .running) (hid : termId s ≠ 0)
    (hidle : 64 ≤ rd F.REG_STATUS_GRANT_IDLE s) (hroom : Room s) :
    ∃ t, exec .grantTimeout s = .next t ∧ t.term = .claiming ∧ rd F.REG_STATUS_TERM_ID t = 0 ∧ t.frame.subs = [] ∧
      (∀ k, (isSession k || isTerminal k) = true → keySlot k t = none) ∧ Waits E.RELEASED 1 t := by
  have hterm : (releasedTold C.GRANT_TIMEOUT 1 s).term ≠ .flywheel := by
    rw [term_releasedTold]
    rcases ht with ht | ht <;> simp [ht]
  obtain ⟨htid, hsubs, -, hkeys, hclaim⟩ := claimsAgain_end (s := releasedTold C.GRANT_TIMEOUT 1 s)
  exact ⟨_, exec_grantTimeout ht hid hidle, hclaim hterm, htid, hsubs, hkeys,
    waits_releasedTold _ _ (Nat.lt_of_le_of_lt hroom (by decide))⟩

end Sys2Proof.Proofs

end

/-! PROOF. The CLAIM: prepared, offered, written and offered again (spec/06_registration_ranging_time.md R145-R147;
spec/09_keys_cipher_signatures.md R214, R236). -/

section

namespace Sys2Proof.Proofs

open Sys2Proof Sys2Proof.Machine Sys2Proof.Claims Sys2Proof.Laws

set_option Elab.async false

variable {s : State} {o : DiscOffer} {w e : Option RxWord} {k : Nat}

/-! ### The key pair and the signature (R214, R236) -/

theorem sigEnds_status (op st : Nat) : rd F.SIG_STATUS_LAST_OP (sigEnds op st s) = op % 16 ∧
    rd F.SIG_STATUS_LAST_STATUS (sigEnds op st s) = st % 16 := by
  have hcount : ∀ (f : Fld) (c : Bool) x, f.off = R.SIG_STATUS → rd f (whenB c (count C.SIG_OP_FAIL) x) = rd f x := fun f c x hf => by
    cases c
    · rfl
    · exact rd_count f _ _ (by rw [hf]; decide)
  unfold sigEnds
  rw [hcount _ _ _ rfl, hcount _ _ _ rfl]
  exact ⟨(rd_wr_other _ _ _ _ (by decide) (by decide)).trans (rd_wr_same _ _ _ (by decide)), rd_wr_same _ _ _ (by decide)⟩

theorem regn_sigEnds (op st : Nat) : (sigEnds op st s).regn = s.regn :=
  (keeps_sigEnds (A := T.counting ||| Reach.T.SIG_STATUS) op st rfl (.refl _ s)).rest.regn rfl

/-- R236: the signature ends with its status; with BAD_RESULT the CLAIM goes on being prepared, which is the model's choice
(notes/assumptions/88.md). -/
theorem signClaim_end : ∃ st, rd F.SIG_STATUS_LAST_OP (signClaim s) = 7 ∧ rd F.SIG_STATUS_LAST_STATUS (signClaim s) = st % 16 ∧
    (signClaim s).regn.ePub = s.regn.ePub ∧
    (st ≠ sigBAD_RESULT → (signClaim s).regn.prepared = true ∧ (signClaim s).regn.preparing = false) ∧
    (st = sigBAD_RESULT → (signClaim s).regn.prepared = s.regn.prepared ∧ (signClaim s).regn.preparing = s.regn.preparing) := by
  unfold signClaim
  dsimp only
  generalize signOp _ _ _ = r
  obtain ⟨hop, hst⟩ := sigEnds_status (s := (drawBytes 40 s).2) 7 r.1
  have hregn : (sigEnds 7 r.1 (drawBytes 40 s).2).regn = s.regn := regn_sigEnds 7 r.1
  refine ⟨r.1, ?_⟩
  by_cases hbad : r.1 = sigBAD_RESULT
  · rw [if_pos (by simp [hbad]), hregn]
    exact ⟨hop, hst, rfl, fun h => absurd hbad h, fun _ => ⟨rfl, rfl⟩⟩
  · rw [if_neg (by simpa using hbad), setRegn_regn, hregn]
    exact ⟨hop, hst, rfl, fun _ => ⟨rfl, rfl⟩, fun h => absurd h hbad⟩

theorem keeps_signClaim_self : Keeps (T.counting ||| Reach.T.SIG_STATUS ||| Reach.T.regn) s (signClaim s) := keeps_signClaim rfl (.refl _ s)

/-- A public key is 64 bytes long. -/
theorem length_publicOf (d : Nat) : (publicOf d).length = 64 := by
  unfold publicOf
  split
  · exact List.length_replicate
  · rw [pointBytes, List.length_append, length_bytesBE, length_bytesBE]

/-- R214: the key pair is made: the slot holds its secret half, and there is a public one. -/
theorem ephemeral_end : (keySlot 1 (ephemeral s)).isSome = true ∧ (ephemeral s).regn.ePub ≠ [] ∧
    (ephemeral s).regn.prepared = s.regn.prepared ∧ (ephemeral s).regn.preparing = s.regn.preparing := by
  refine ⟨?_, fun h => ?_, rfl, rfl⟩
  · exact congrArg Option.isSome (keySlot_putSlot_same 1 _)
  · have hlen := length_publicOf (scalarOf (drawBytes 40 s).1)
    rw [show publicOf (scalarOf (drawBytes 40 s).1) = [] from h] at hlen
    cases hlen

/-- The terminal with the key pair of its CLAIM. -/
def claimKeyed (s : State) : State := if !s.regn.ePub.isEmpty then s else ephemeral s

theorem claimKeyed_end : (claimKeyed s).term = s.term ∧ (claimKeyed s).regn.prepared = s.regn.prepared ∧
    (claimKeyed s).regn.preparing = s.regn.preparing ∧
    (s.regn.ePub = [] → (keySlot 1 (claimKeyed s)).isSome = true ∧ (claimKeyed s).regn.ePub ≠ []) := by
  unfold claimKeyed
  by_cases h : s.regn.ePub = []
  · obtain ⟨hslot, hpub, hprepared, hpreparing⟩ := ephemeral_end (s := s)
    have hterm : (ephemeral s).term = s.term := rfl
    rw [if_neg (by simp [h])]
    exact ⟨hterm, hprepared, hpreparing, fun _ => ⟨hslot, hpub⟩⟩
  · rw [if_pos (by simpa using h)]
    exact ⟨rfl, rfl, rfl, fun h' => absurd h' h⟩

theorem exec_claimPrepared (hp : s.regn.preparing = true) (hc : claiming s = true) (hh : houseHeld s = true)
    (hd : domOn dCIP s = true) (hr : drbgRuns s = true) : exec .claimPrepared s = .next (signClaim (claimKeyed s)) := by
  show execClaimPrepared s = _
  simp only [execClaimPrepared, hp, hc, hh, hd, hr]
  rfl

theorem claimPrepared_signs (hp : s.regn.preparing = true) (hc : claiming s = true) (hh : houseHeld s = true)
    (hd : domOn dCIP s = true) (hr : drbgRuns s = true) :
    ∃ t st, exec .claimPrepared s = .next t ∧ t.term = s.term ∧ rd F.SIG_STATUS_LAST_OP t = 7 ∧
      rd F.SIG_STATUS_LAST_STATUS t = st % 16 ∧ (s.regn.ePub = [] → (keySlot 1 t).isSome = true ∧ t.regn.ePub ≠ []) ∧
      (st ≠ sigBAD_RESULT → t.regn.prepared = true ∧ t.regn.preparing = false) ∧
      (st = sigBAD_RESULT → t.regn.prepared = s.regn.prepared ∧ t.regn.preparing = true) := by
  obtain ⟨hterm, hprepared, hpreparing, hkeys⟩ := claimKeyed_end (s := s)
  obtain ⟨st, hop, hst, hpub, hgood, hbad⟩ := signClaim_end (s := claimKeyed s)
  rw [hprepared, hpreparing, hp] at hbad
  have hkey := keySlot_of_key 1 ((keeps_signClaim_self (s := claimKeyed s)).rest.key rfl)
  refine ⟨_, st, exec_claimPrepared hp hc hh hd hr, (keeps_signClaim_self.rest.term rfl).trans hterm, hop, hst, fun h => ?_, hgood, hbad⟩
  rw [hkey, hpub]
  exact hkeys h

/-! ### A discovery window (R145, R146) -/

/-- The offer has passed. -/
def offerPassed (s : State) : State := setFrame (fun f => { f with disc := none }) s

/-- R145: the copies on which the window could be used, by their second words. -/
def claimCopies (w e : Option RxWord) (s : State) : List RxWord := w.toList ++ (if singleSided s then [] else e.toList)

/-- A copy on which the window is free. -/
theorem claimCopies_free (h : w.any (fun x => !takenBy x) = true ∨ (e.any (fun x => !takenBy x) = true ∧ singleSided s = false)) :
    (claimCopies w e s).isEmpty = false ∧ (claimCopies w e s).all takenBy = false := by
  obtain ⟨c, hc, hfree⟩ : ∃ c ∈ claimCopies w e s, takenBy c = false := by
    unfold claimCopies
    rcases h with h | ⟨h, hs⟩
    · obtain ⟨c, rfl, hc⟩ := Option.any_eq_true _ _ |>.mp h
      exact ⟨c, by simp, by simpa using hc⟩
    · obtain ⟨c, rfl, hc⟩ := Option.any_eq_true _ _ |>.mp h
      exact ⟨c, by simp [hs], by simpa using hc⟩
  refine ⟨List.isEmpty_eq_false_iff.mpr (List.ne_nil_of_mem hc), Bool.eq_false_iff.mpr fun hall => ?_⟩
  rw [List.all_eq_true.mp hall c hc] at hfree
  cases hfree

/-- The window a CLAIM is sent in. -/
def claimWin (o : DiscOffer) (west east : Bool) : Win :=
  { frame := o.frame, id := 0, mask := b2n west + 2 * b2n east, start := o.start, foot := o.foot, tag := 0, cls := 1 }

theorem claimWin_copies (west east : Bool) : toWest (claimWin o west east) = west ∧
    toEast (claimWin o west east) s = (east && !singleSided s) := by
  cases west <;> cases east <;> simp [toWest, toEast, claimWin, b2n]

theorem putBurst_holds {x : Win} (ws : List Word) (h : k < s.win.bufs.length) : (putBurst k x ws s).win.bufs.getD k none =
    some { win := x, words := ws, toW := toWest x, toE := toEast x s, since := s.line } := by
  unfold putBurst
  rw [setWin_win]
  dsimp only
  rw [if_pos h]
  exact getD_setAt h

theorem keeps_claimNote_self : Keeps Reach.T.note s (claimNote s).2 := keeps_claimNote rfl (.refl _ s)

/-- R146: a CLAIM that finds a free buffer waits in it for the copies it may be written to. -/
theorem sendClaim_puts {west east : Bool} (hfree : freeBuf 0 8 s = some k) (hlen : 8 ≤ s.win.bufs.length) :
    (sendClaim o west east s).frame = s.frame ∧ ∃ b, (sendClaim o west east s).win.bufs.getD k none = some b ∧
      b.win = claimWin o west east ∧ b.toW = west ∧ b.toE = (east && !singleSided s) := by
  have hwin : (claimNote s).2.win = s.win := keeps_claimNote_self.rest.win rfl
  have hside : singleSided (claimNote s).2 = singleSided s := on_of_rd (keeps_claimNote_self.rd _ (by decide +kernel))
  have hk : k < (claimNote s).2.win.bufs.length := by
    rw [hwin]
    exact Nat.lt_of_lt_of_le (freeBuf_lt hfree) hlen
  obtain ⟨htoW, htoE⟩ := claimWin_copies (o := o) (s := (claimNote s).2) west east
  rw [hside] at htoE
  have hsend : sendClaim o west east s = putBurst k (claimWin o west east)
      (burstWords (claimWin o west east) false false (upEncode 0 (claimNote s).1) (claimNote s).2) (claimNote s).2 := by
    unfold sendClaim
    dsimp only
    rw [hfree]
    rfl
  rw [hsend]
  exact ⟨keeps_claimNote_self.rest.frame rfl, _, putBurst_holds _ hk, rfl, htoW, htoE⟩

theorem exec_claim_sends (hdisc : s.frame.disc = some o) (ht : s.term = .claiming) (hend : s.byp.ending = none)
    (hfoot : claimFoot ≤ o.foot) (hp : s.regn.prepared = true) (hh : houseHeld s = true) (hout : claimOut s = false)
    (hback : s.regn.backoff = 0) (hstands : offerStands o s = true)
    (hcopy : w.any (fun x => !takenBy x) = true ∨ (e.any (fun x => !takenBy x) = true ∧ singleSided s = false)) :
    exec (.claim w e) s = .next (sendClaim o (w.any (fun x => !takenBy x)) (!singleSided s && e.any (fun x => !takenBy x))
      (offerPassed s)) := by
  obtain ⟨hsome, hfree⟩ := claimCopies_free hcopy
  unfold claimCopies at hsome hfree
  show execClaim w e s = _
  simp only [execClaim, hdisc, ht, hend, hp, hh, hout, hback, hstands, Nat.not_lt.mpr hfoot, hsome, hfree,
    if_false]
  rfl

theorem claim_sends (hdisc : s.frame.disc = some o) (ht : s.term = .claiming) (hend : s.byp.ending = none)
    (hfoot : claimFoot ≤ o.foot) (hp : s.regn.prepared = true) (hh : houseHeld s = true) (hout : claimOut s = false)
    (hback : s.regn.backoff = 0) (hstands : offerStands o s = true)
    (hcopy : w.any (fun x => !takenBy x) = true ∨ (e.any (fun x => !takenBy x) = true ∧ singleSided s = false))
    (hfree : freeBuf 0 8 s = some k) (hlen : 8 ≤ s.win.bufs.length) :
    ∃ t b, exec (.claim w e) s = .next t ∧ t.frame.disc = none ∧ t.win.bufs.getD k none = some b ∧ b.win.id = 0 ∧
      b.win.start = o.start ∧ b.win.frame = o.frame ∧ b.toW = w.any (fun x => !takenBy x) ∧
      b.toE = (!singleSided s && e.any (fun x => !takenBy x)) := by
  obtain ⟨hframe, b, hbuf, hwin, htoW, htoE⟩ := sendClaim_puts (s := offerPassed s) (o := o) (west := w.any (fun x => !takenBy x))
    (east := !singleSided s && e.any (fun x => !takenBy x)) hfree hlen
  refine ⟨_, b, exec_claim_sends hdisc ht hend hfoot hp hh hout hback hstands hcopy, ?_, hbuf, ?_, ?_, ?_, htoW, ?_⟩
  · rw [hframe]
    rfl
  · rw [hwin]
    rfl
  · rw [hwin]
    rfl
  · rw [hwin]
    rfl
  · rw [htoE, show singleSided (offerPassed s) = singleSided s from rfl]
    cases singleSided s <;> simp

/-- R146: before its back-off is over a CLAIM lets the offer pass. -/
theorem claim_backsOff (hdisc : s.frame.disc = some o) (ht : s.term = .claiming) (hend : s.byp.ending = none)
    (hp : s.regn.prepared = true) (hh : houseHeld s = true) (hout : claimOut s = false) (hback : 0 < s.regn.backoff) :
    ∃ t, exec (.claim w e) s = .next t ∧ t.regn.backoff = s.regn.backoff - 1 ∧ t.win = s.win := by
  have hexec : exec (.claim w e) s = .next (setBackoff (s.regn.backoff - 1) (offerPassed s)) := by
    show execClaim w e s = _
    simp only [execClaim, hdisc, ht, hend, hp, hh, hout, hback]
    rfl
  exact ⟨_, hexec, rfl, rfl⟩

/-! ### The CLAIM is written, and offered again (R146, R147) -/

theorem isClaim_passing {b : Burst} : isClaim (passing b s) = isClaim b := by
  unfold isClaim
  rw [win_passing, words_passing]

/-- What is counted of a write before the CLAIM that it carries. -/
def writeCounted (b : Burst) (rx : List RxWord) (s : State) : State :=
  s |> countN C.WIN_WORD_LOST ((rx.take (footprint b).length).filter isErr).length
    |> whenB ((rx.take (footprint b).length).any (fun w => !isErr w && (w.k || w.data != 0)) && !b.notClear) (count C.WIN_RX_NOT_CLEAR)

theorem spares_writeCounted {b : Burst} (rx : List RxWord) : Spares C.CLAIM_SENT s (writeCounted b rx s) :=
  (spares_countN (by decide) (by decide) (by decide) (by decide)).trans
    (spares_whenB (spares_count (by decide) (by decide) (by decide) (by decide)))

theorem term_writeCounted {b : Burst} (rx : List RxWord) : (writeCounted b rx s).term = s.term :=
  (keeps_whenB (A := T.counting) _ _ (fun _ => keeps_count _ rfl) (keeps_countN _ _ rfl (.refl _ s))).rest.term rfl

/-- R147: a CLAIM that is written is counted, and its cycles begin. -/
theorem writeTold_claims {sd : Side} {b : Burst} (rx : List RxWord) (hb : isClaim b = true) (hw : b.wrote = false)
    (hc : countsNow s = true) : (writeTold sd b rx s).regn.claimTimer = some 0 ∧ Tallied C.CLAIM_SENT 1 s (writeTold sd b rx s) := by
  have htold : writeTold sd b rx s = setOpen sd (if decide (rx.length < (footprint b).length) then some b.win else none)
      (claimWritten (writeCounted b rx s)) := by
    unfold writeTold
    rw [hb, hw]
    rfl
  have hopen : ∀ p x, (setOpen sd p x).regn = x.regn := fun p x => by
    unfold setOpen
    split <;> rfl
  rw [htold]
  refine ⟨by rw [hopen]; rfl, tallied_of_reg (reg_setOpen _ _) ?_⟩
  exact (spares_writeCounted rx).tallied (tallied_count (by decide) (by decide) ((countsNow_of_term (term_writeCounted rx)).trans hc))

theorem claim_written {sd : Side} {b : Burst} (rx : List RxWord) (hbuf : s.win.bufs.getD k none = some b) (hb : isClaim b = true)
    (hw : b.wrote = false) (hwait : waitsOn sd b = true) (htrk : tracking sd s = true) (hframe : trkFrame sd s = b.win.frame)
    (hfill : on (fFILLING sd) s = false) (ht : s.term = .claiming) (hend : s.byp.ending = none) :
    ∃ t, exec (.windowWrite sd k (some (portDir sd)) rx) s = .next t ∧ t.regn.claimTimer = some 0 ∧ Tallied C.CLAIM_SENT 1 s t := by
  have hid : b.win.id = 0 := by
    unfold isClaim at hb
    simp only [Bool.and_eq_true, beq_iff_eq] at hb
    exact hb.1
  have hmay : mayWrite (passing b s) s = true := by
    rw [mayWrite_passing]
    simp [mayWrite, hid, ht, hend]
  have hcopy : copyTakes sd (some (portDir sd)) s = true := by simp [copyTakes, htrk, hfill]
  have hexec : exec (.windowWrite sd k (some (portDir sd)) rx) s = .next (writeBurst sd k (passing b s) rx s) := by
    rw [exec_windowWrite hbuf hwait htrk hframe, hcopy, hmay]
    rfl
  obtain ⟨htimer, htally⟩ := writeTold_claims (sd := sd) rx (isClaim_passing.trans hb) (wrote_passing.trans hw)
    (show countsNow s = true by simp [countsNow, ht])
  exact ⟨_, hexec.trans (congrArg _ (writeBurst_eq rx)), htimer, htally⟩

theorem claimRetry_offersAgain (htimer : s.regn.claimTimer = some k) (ht : s.term = .claiming) (hk : 16 ≤ k) :
    ∃ t, exec .claimRetry s = .next t ∧ t.regn.claimTimer = none ∧ Tallied C.CLAIM_RETRY 1 s t := by
  have hexec : exec .claimRetry s = .next (count C.CLAIM_RETRY (setRegn (fun x => { x with claimTimer := none }) s)) := by
    show execClaimRetry s = _
    simp only [execClaimRetry, htimer, ht, hk]
    rfl
  refine ⟨_, hexec, ?_, Spares.tallied (.refl _ _) (tallied_count (by decide) (by decide) ?_)⟩
  · rw [count_regn]
    rfl
  · simp [countsNow, ht]

end Sys2Proof.Proofs

end

/-! PROOF. An ASSIGN and the verification of its signature, and what O28 says (spec/06_registration_ranging_time.md R148, R149,
R151, R153; spec/09_keys_cipher_signatures.md R216, R217, R220). -/

section

namespace Sys2Proof.Proofs

open Sys2Proof Sys2Proof.Machine Sys2Proof.Claims Sys2Proof.Laws

set_option Elab.async false

variable {s : State} {n : Note} {b : List Byte} {id : Nat}

/-! ### The ID is taken (R148) -/

/-- A terminal in CLAIMING with the ID it is given. -/
def idTaken (id : Nat) (s : State) : State := enterRanging (wr F.SPAN_WAKE_WAKE_ID id (setId id s))

theorem adoptId_claiming (h : s.term = .claiming) : adoptId id s = raise E.REGISTERED id (idTaken id s) := if_pos (by simp [h])

/-- What entering RANGING reaches. -/
def rangingReach : Nat := goReach ||| Reach.T.regn ||| Reach.T.RANGE_STATUS

theorem keeps_enterRanging_self : Keeps rangingReach s (enterRanging s) := keeps_enterRanging rfl (.refl _ s)

theorem enterRanging_end : (enterRanging s).term = .ranging ∧ rd F.RANGE_STATUS_MEASURING (enterRanging s) = 1 :=
  ⟨term_goTerm _, rd_wr_fits (by decide) (by decide)⟩

theorem idTaken_end (h : id < 64) : (idTaken id s).term = .ranging ∧ rd F.REG_STATUS_TERM_ID (idTaken id s) = id ∧
    rd F.SPAN_WAKE_WAKE_ID (idTaken id s) = id ∧ rd F.RANGE_STATUS_MEASURING (idTaken id s) = 1 := by
  obtain ⟨hterm, hmeas⟩ := enterRanging_end (s := wr F.SPAN_WAKE_WAKE_ID id (setId id s))
  exact ⟨hterm, (keeps_enterRanging_self.rd _ (by decide +kernel)).trans
      ((rd_wr_other _ _ _ _ (by decide) (by decide)).trans (termId_setId h)),
    (keeps_enterRanging_self.rd _ (by decide +kernel)).trans (rd_wr_fits (by decide) h), hmeas⟩

/-- R177: the ASSIGN_ACKs of another ID leave the queue of upstream notes; nothing joins it. -/
theorem up_setId : (setId id s).note.up.length ≤ s.note.up.length := by
  unfold setId
  dsimp only
  split
  · exact Nat.le_refl _
  · exact List.length_filter_le _ _

theorem up_idTaken : (idTaken id s).note.up.length ≤ s.note.up.length := by
  have hnote : (idTaken id s).note = (setId id s).note := keeps_enterRanging_self.rest.note rfl
  rw [hnote]
  exact up_setId

theorem joined_idTaken : Joined 3 s (idTaken id s) := by
  have hset : Joined 0 s (setId id s) :=
    joined_of_keeps (keeps_setId (A := Reach.T.regn ||| Reach.T.note ||| Reach.T.REG_STATUS ||| Reach.T.NOTE_SEQ) id rfl (.refl _ s)) rfl
  have hgo : ∀ x, Joined 3 x (enterRanging x) := fun x => (joined_goTerm .ranging).trans (.of_events rfl)
  exact (hset.trans (.of_events (t := wr F.SPAN_WAKE_WAKE_ID id (setId id s)) rfl)).trans (hgo _)

/-! ### A matching ASSIGN (R216) -/

/-- What follows an adopted ID: K_CONF, the work of the signature, and the answer. -/
def assignAnswered (b : List Byte) (zS ePub : List Byte) (s : State) : State :=
  let tag := ackTag (b.take 5) (byteAt b 5) zS ePub (slice b 6 64)
  s |> putSlot 2 (kConf (b.take 5) (byteAt b 5) zS)
    |> setRegn (fun x => { x with claimTimer := none, lastAssign := some (b, tag),
                                  assignWork := some { nonce := b.take 5, id := byteAt b 5, eH := slice b 6 64, sig := slice b 70 64 } })
    |> sigEnds 4 sigOK |> queueUp nASSIGN_ACK (b.take 6 ++ tag)

theorem matchAssign_eq : matchAssign b s = assignAnswered b s.regn.zS s.regn.ePub (adoptId (byteAt b 5) s) := rfl

/-- What it reaches. -/
def answeredReach : Nat := upReach ||| Reach.T.key ||| Reach.T.regn ||| Reach.T.SIG_STATUS

theorem keeps_assignAnswered (zS ePub : List Byte) : Keeps answeredReach s (assignAnswered b zS ePub s) :=
  keeps_queueUp _ _ rfl (keeps_sigEnds _ _ rfl (keeps_setRegn _ rfl (keeps_putSlot _ _ rfl (.refl _ s))))

theorem assignAnswered_end (zS ePub : List Byte) (hup : s.note.up.length < 16) :
    (assignAnswered b zS ePub s).regn.assignWork.isSome = true ∧ (assignAnswered b zS ePub s).regn.claimTimer = none ∧
      (∃ u ∈ (assignAnswered b zS ePub s).note.up, u.type = nASSIGN_ACK) ∧ Joined 1 s (assignAnswered b zS ePub s) := by
  unfold assignAnswered
  dsimp only
  generalize hu : setRegn _ (putSlot 2 _ s) = u
  have hwork : u.regn.assignWork.isSome = true ∧ u.regn.claimTimer = none := by
    rw [← hu]
    exact ⟨rfl, rfl⟩
  have hquiet : u.note = s.note ∧ u.host = s.host := by
    rw [← hu]
    exact ⟨rfl, rfl⟩
  have hsig : sigEnds 4 sigOK u = wr F.SIG_STATUS_LAST_STATUS sigOK (wr F.SIG_STATUS_LAST_OP 4 u) := rfl
  rw [hsig, (keeps_queueUp_self _ _).rest.regn rfl]
  obtain ⟨y, hy, htype, -⟩ := queueUp_queued (s := wr F.SIG_STATUS_LAST_STATUS sigOK (wr F.SIG_STATUS_LAST_OP 4 u))
    (type := nASSIGN_ACK) (body := b.take 6 ++ ackTag (b.take 5) (byteAt b 5) zS ePub (slice b 6 64))
    (show u.note.up.length < 16 by rwa [hquiet.1])
  refine ⟨hwork.1, hwork.2, ⟨y, hy, htype⟩, ?_⟩
  have hbefore : Joined 0 s (wr F.SIG_STATUS_LAST_STATUS sigOK (wr F.SIG_STATUS_LAST_OP 4 u)) :=
    .of_events (congrArg HostSt.events hquiet.2)
  exact hbefore.trans (joined_queueUp _ _)

/-- R148, R149, R216: a matching ASSIGN gives the ID, RANGING and an ASSIGN_ACK. -/
theorem matchAssign_end (ht : s.term = .claiming) (hid : byteAt b 5 < 64) (hup : s.note.up.length < 16)
    (hev : s.host.events.length < 60) :
    (matchAssign b s).term = .ranging ∧ rd F.REG_STATUS_TERM_ID (matchAssign b s) = byteAt b 5 ∧
      rd F.SPAN_WAKE_WAKE_ID (matchAssign b s) = byteAt b 5 ∧ (matchAssign b s).regn.assignWork.isSome = true ∧
      (matchAssign b s).regn.claimTimer = none ∧ rd F.RANGE_STATUS_MEASURING (matchAssign b s) = 1 ∧
      Waits E.REGISTERED (byteAt b 5) (matchAssign b s) ∧ (∃ u ∈ (matchAssign b s).note.up, u.type = nASSIGN_ACK) := by
  obtain ⟨hterm, htid, hwake, hmeas⟩ := idTaken_end (s := s) hid
  have hlen := (joined_idTaken (s := s) (id := byteAt b 5)).1
  have hroom : (raise E.REGISTERED (byteAt b 5) (idTaken (byteAt b 5) s)).note.up.length < 16 := by
    rw [raise_note]
    exact Nat.lt_of_le_of_lt up_idTaken hup
  obtain ⟨hwork, htimer, hack, hjoined⟩ := assignAnswered_end (b := b) s.regn.zS s.regn.ePub hroom
  have hk := keeps_assignAnswered (b := b) (s := raise E.REGISTERED (byteAt b 5) (idTaken (byteAt b 5) s)) s.regn.zS s.regn.ePub
  rw [matchAssign_eq, adoptId_claiming ht]
  refine ⟨(hk.rest.term rfl).trans ((raise_term _ _ _).trans hterm), (hk.rd _ (by decide +kernel)).trans ?_,
    (hk.rd _ (by decide +kernel)).trans ?_, hwork, htimer, (hk.rd _ (by decide +kernel)).trans ?_,
    hjoined.2 _ _ (waits_raise _ _ (by omega)), hack⟩
  · exact (rd_raise _ _ _ _ (by decide)).trans htid
  · exact (rd_raise _ _ _ _ (by decide)).trans hwake
  · exact (rd_raise _ _ _ _ (by decide)).trans hmeas

/-- R148, R216: an ASSIGN that bears the nonce of the CLAIM and passes the key agreement matches. -/
theorem takeAssign_matches (h1 : 1 ≤ byteAt b 5) (h62 : byteAt b 5 ≤ 62) (hnonce : bytesWord (b.take 5) = reg R.CLAIM_NONCE s)
    (hlast : s.regn.lastAssign = none) (hh : houseHeld s = true) (hp : s.regn.prepared = true)
    (hpoint : pointStatus (bytesPoint (slice b 6 64)).1 (bytesPoint (slice b 6 64)).2 = sigOK) :
    takeAssign b s = matchAssign b s := by
  have hgood : (byteAt b 5 == 0 || decide (62 < byteAt b 5)) = false := by
    rw [Bool.or_eq_false_iff, beq_eq_false_iff_ne, decide_eq_false_iff_not]
    omega
  unfold takeAssign
  dsimp only
  rw [hgood, if_neg (by simp), if_neg (by simp [hnonce]), hlast]
  dsimp only
  unfold assignChecked
  rw [hh, hp, hpoint]
  rfl

theorem exec_assign (h : Heard kASSIGN n .fprint s) :
    exec (.assign n) s = .next (takeAssign (noteFields n .fprint) (count C.NOTE_RX s)) :=
  congrArg Host.Outcome.next (takeNote_done h rfl rfl)

theorem assign_gives (h : Heard kASSIGN n .fprint s) (ht : s.term = .claiming) (hroom : Room s) (hspace : Space s)
    (h1 : 1 ≤ byteAt (noteFields n .fprint) 5) (h62 : byteAt (noteFields n .fprint) 5 ≤ 62)
    (hnonce : bytesWord ((noteFields n .fprint).take 5) = reg R.CLAIM_NONCE s) (hlast : s.regn.lastAssign = none)
    (hh : houseHeld s = true) (hp : s.regn.prepared = true)
    (hpoint : pointStatus (bytesPoint (slice (noteFields n .fprint) 6 64)).1 (bytesPoint (slice (noteFields n .fprint) 6 64)).2 = sigOK) :
    ∃ t, exec (.assign n) s = .next t ∧ t.term = .ranging ∧ rd F.REG_STATUS_TERM_ID t = byteAt (noteFields n .fprint) 5 ∧
      rd F.SPAN_WAKE_WAKE_ID t = byteAt (noteFields n .fprint) 5 ∧ t.regn.assignWork.isSome = true ∧ t.regn.claimTimer = none ∧
      rd F.RANGE_STATUS_MEASURING t = 1 ∧ Waits E.REGISTERED (byteAt (noteFields n .fprint) 5) t ∧
      (∃ u ∈ t.note.up, u.type = nASSIGN_ACK) := by
  have hregn : (count C.NOTE_RX s).regn = s.regn := count_regn _ s
  have hheld : houseHeld (count C.NOTE_RX s) = true := by
    rw [houseHeld, count_key]
    exact hh
  have hmatch := takeAssign_matches (s := count C.NOTE_RX s) h1 h62 (hnonce.trans (reg_count _ _ _ (by decide)).symm)
    (by rw [hregn, hlast]) hheld (by rw [hregn, hp]) hpoint
  have hlen := (joined_count (s := s) C.NOTE_RX).1
  unfold Room at hroom
  unfold Space at hspace
  exact ⟨_, (exec_assign h).trans (congrArg _ hmatch), matchAssign_end ((count_term _ s).trans ht) (by omega)
    (by rw [count_note]; omega) (by omega)⟩

/-! ### The signature of the ASSIGN (R217, R220) -/

/-- R217: what the signature of an ASSIGN is verified over, and with which key. -/
def assignVerdict (w : AssignWork) (s : State) : Nat :=
  verifyOp (bytesPoint s.key.housePub).1 (bytesPoint s.key.housePub).2 (beNat (slice w.sig 0 32)) (beNat (slice w.sig 32 32))
    (beNat (sha256 (w.nonce ++ [BitVec.ofNat 8 w.id] ++ w.eH ++ fingerprint ++ s.regn.ePub)))

/-- R217: the ID goes after a forged ASSIGN. -/
def forgedDropped (st : Nat) (s : State) : State :=
  dropId (raise E.ASSIGN_FORGED 0 (count C.ASSIGN_FORGED (sigEnds 8 st s)))

/-- R217, R220: K_WRAP is held after a good one, and a KEY_LOAD that waited for it is answered. -/
def wrapHeld (w : AssignWork) (s : State) : State :=
  let z := ecdhOp (beNat s.regn.eT) (bytesPoint w.eH).1 (bytesPoint w.eH).2
  s |> putSlot 3 (kWrap w.nonce w.id s.regn.zS z.2) |> setRegn (fun x => { x with assignWork := none })
    |> sigEnds 6 z.1 |> answerHeldKey

theorem exec_assignVerifyDone {w : AssignWork} (hw : s.regn.assignWork = some w) (hd : domOn dCIP s = true) (hc : countsNow s = true) :
    exec .assignVerifyDone s = .next (if assignVerdict w s != sigOK then
      (if s.term == .leaving then forgedDropped (assignVerdict w s) s else enterClaiming (forgedDropped (assignVerdict w s) s))
      else wrapHeld w s) := by
  show execAssignVerifyDone s = _
  simp only [execAssignVerifyDone, hw, hd, hc]
  rfl

/-- R220: a KEY_LOAD fills no slot of the session. -/
theorem keySlot_keyLoad {k : Nat} (hk : k < 16) (body : List Byte) : keySlot k (keyLoad body s).2 = keySlot k s := by
  unfold keyLoad
  dsimp only
  split
  · rfl
  split
  · rfl
  split
  · rfl
  split
  · rfl
  · refine keySlot_putSlot_other _ (Nat.ne_of_lt (Nat.lt_of_lt_of_le hk ?_))
    unfold keyNo
    split <;> omega

theorem keySlot_answerHeldKey {k : Nat} (hk : k < 16) : keySlot k (answerHeldKey s) = keySlot k s := by
  unfold answerHeldKey
  split
  · rfl
  · exact (keySlot_of_key k ((keeps_answer_self _ _).rest.key rfl)).trans (keySlot_keyLoad hk _)

theorem wrapHeld_end (w : AssignWork) : (keySlot 3 (wrapHeld w s)).isSome = true ∧ (wrapHeld w s).regn.assignWork = none := by
  unfold wrapHeld
  dsimp only
  generalize kWrap _ _ _ _ = wrap
  generalize (ecdhOp _ _ _).1 = st
  have hsig : ∀ x, Keeps (T.counting ||| Reach.T.SIG_STATUS) x (sigEnds 6 st x) := fun x => keeps_sigEnds _ _ rfl (.refl _ x)
  have hanswer : ∀ x, (answerHeldKey x).regn = x.regn := fun x =>
    (keeps_answerHeldKey (A := answerReach ||| Reach.T.key) rfl (.refl _ x)).rest.regn rfl
  constructor
  · rw [keySlot_answerHeldKey (by decide), keySlot_of_key 3 ((hsig _).rest.key rfl)]
    exact congrArg Option.isSome (keySlot_putSlot_same 3 wrap)
  · rw [hanswer, (hsig _).rest.regn rfl]
    rfl

theorem forgedDropped_end (st : Nat) : rd F.REG_STATUS_TERM_ID (forgedDropped st s) = 0 ∧ (forgedDropped st s).regn.assignWork = none ∧
    (forgedDropped st s).term = s.term := by
  refine ⟨termId_dropId, rfl, ?_⟩
  exact (keeps_dropId (A := T.counting ||| dropReach ||| Reach.T.SIG_STATUS) rfl (keeps_raise _ _ rfl (keeps_count _ rfl
    (keeps_sigEnds _ _ rfl (.refl _ s))))).rest.term rfl

theorem joined_sigEnds (op st : Nat) : Joined 1 s (sigEnds op st s) := by
  have hcount : ∀ (c : Bool) x, Joined 1 x (whenB c (count C.SIG_OP_FAIL) x) := fun c x => by
    cases c
    · exact (Joined.of_events rfl).mono (by decide)
    · exact joined_count _
  exact (Joined.of_events (t := wr F.SIG_STATUS_LAST_STATUS st (wr F.SIG_STATUS_LAST_OP op s)) rfl).trans (hcount _ _)

/-- R217: ASSIGN_FORGED is told after two counts. -/
theorem waits_forgedDropped (st : Nat) (hroom : Room s) : Waits E.ASSIGN_FORGED 0 (forgedDropped st s) := by
  have hlen := ((joined_sigEnds (s := s) 8 st).trans (joined_count C.ASSIGN_FORGED)).1
  unfold Room at hroom
  exact (joined_of_keeps keeps_dropId_self (by decide)).2 _ _ (waits_raise _ _ (by omega))

theorem assignVerify_ends {w : AssignWork} {v : Nat} (hw : s.regn.assignWork = some w) (hd : domOn dCIP s = true)
    (hc : countsNow s = true) (hroom : Room s) (hv : v = assignVerdict w s) :
    ∃ t, exec .assignVerifyDone s = .next t ∧ (v = sigOK → (keySlot 3 t).isSome = true ∧ t.regn.assignWork = none) ∧
      (v ≠ sigOK → rd F.REG_STATUS_TERM_ID t = 0 ∧ t.regn.assignWork = none ∧ Waits E.ASSIGN_FORGED 0 t ∧
        (s.term = .leaving → t.term = .leaving) ∧ (s.term = .flywheel → t.term = .flywheel ∧ t.regn.flyPrior = some .claiming) ∧
        (s.term ≠ .leaving → s.term ≠ .flywheel → t.term = .claiming)) := by
  subst hv
  have hexec := exec_assignVerifyDone hw hd hc
  by_cases hok : assignVerdict w s = sigOK
  · rw [if_neg (by simp [hok])] at hexec
    exact ⟨_, hexec, fun _ => wrapHeld_end w, fun h => absurd hok h⟩
  rw [if_pos (by simpa using hok)] at hexec
  obtain ⟨hid, hwork, hterm⟩ := forgedDropped_end (s := s) (assignVerdict w s)
  have htold := waits_forgedDropped (assignVerdict w s) hroom
  by_cases hleave : s.term = .leaving
  · rw [if_pos (by simp [hleave])] at hexec
    exact ⟨_, hexec, fun h => absurd h hok, fun _ => ⟨hid, hwork, htold, fun _ => hterm.trans hleave,
      fun h => absurd (hleave.symm.trans h) (by decide), fun h => absurd hleave h⟩⟩
  · rw [if_neg (by simpa using hleave)] at hexec
    obtain ⟨hnone, hfly, hclaim⟩ := enterClaiming_end (s := forgedDropped (assignVerdict w s) s)
    rw [hterm] at hfly hclaim
    exact ⟨_, hexec, fun h => absurd h hok, fun _ => ⟨termId_enterClaiming.trans hid, hnone, joined_enterClaiming.2 _ _ htold,
      fun h => absurd h hleave, hfly, fun _ => hclaim⟩⟩

/-- Settles O28: the CLAIM on its way, the ASSIGN that matches it and its verification, and the ways in which the ID is lost. -/
theorem claimsGiveAndLoseTheID : Obligations.ClaimsGiveAndLoseTheID :=
  ⟨fun _ => claimPrepared_signs,
    fun _ _ _ _ _ hdisc ht hend hfoot hp hh hout hback hstands hcopy hfree hlen =>
      claim_sends hdisc ht hend hfoot hp hh hout hback hstands hcopy hfree hlen,
    fun _ _ _ _ => claim_backsOff,
    fun _ _ _ rx _ hbuf hb hw hwait htrk hframe hfill ht hend => claim_written rx hbuf hb hw hwait htrk hframe hfill ht hend,
    fun _ _ => claimRetry_offersAgain,
    fun _ _ => assign_gives,
    fun _ _ _ => assignVerify_ends,
    fun _ _ _ => release_drops,
    fun _ => grantTimeout_drops⟩

end Sys2Proof.Proofs

end
